-- ==== Sys2Proof/Word.lean ====
section
/-! DEFINITION. The word types of the UX16 model and their plainest arithmetic. -/

namespace Sys2Proof

/-- One scratchpad, stack or link line: 128 bytes (R118, R215, R315). -/
abbrev Line := BitVec 1024
/-- A vector lane, a P32 value or an FP32 value (R61, R133). -/
abbrev W32 := BitVec 32
/-- One step-program instruction word (R172). -/
abbrev W64 := BitVec 64
/-- A partition tag (TAG of R122): 0x00-0x7F a partition, 0xFE free, 0xFF firmware. -/
abbrev Tag := BitVec 8
/-- One byte. -/
abbrev Byte := BitVec 8
/-- A tile number 0-511 (R15). -/
abbrev TileNo := BitVec 9
/-- A die-wide array number 0-32,767 (R15). -/
abbrev ArrayNo := BitVec 15
/-- A partition number 0x00-0x7F (R245). -/
abbrev PartNo := BitVec 7
/-- A tensor link endpoint: 0-9 the dimensions, 10 the fold link (R311). -/
abbrev LinkNo := Fin 11
/-- An account slot 0-191 (R254). -/
abbrev SlotNo := Fin 192
/-- A session number 0-4,095 (R349). -/
abbrev SessNo := BitVec 12
/-- A host port 0-3 (R344). -/
abbrev PortNo := BitVec 2
/-- A Daylight module position 0-5 (R399). -/
abbrev ModuleNo := Fin 6
/-- A cluster address (R4); n is at most 10. -/
abbrev DevAddr := BitVec 10

end Sys2Proof
end

