-- ==== Sys2Proof/Syntax.lean ====
section
/-! DEFINITION. The commands of the UX16: one constructor of `Instr` for each row of the opcode table, with the
operands the spec gives the row. A command is one whole step of the part (95_what_each_step_holds.md). Operands are
what comes from outside the state: the fields of an issued instruction word, the contents of an arriving message, a
measured or physical value, the cycle at which the event comes. -/

namespace Sys2Proof

/-- The physical error a read of check-bit protected storage meets (R126, R166, R217). -/
inductive ReadErr where
  /-- no error -/
  | none
  /-- one bit of one word, at this bit position of the line -/
  | single (bit : Nat)
  /-- two bits of a word -/
  | uncorrectable
  /-- a wrong line-parity bit (R125) -/
  | lineParity
deriving DecidableEq, Repr

/-- The errors that the lines of one scratchpad access meet: the line counted from the first of the access, and its error. Lines that
are not listed meet none. -/
abbrev ReadErrs := List (Nat × ReadErr)

/-- What the checks of R161 find of an unscheduled or queue flit: the hop after which a router input finds its header bad, and a byte
parity error at its ejection. -/
structure FlitBad where
  header : Option Nat := none
  parity : Bool := false
  /-- the halves of the AES unit of the stack controller that serves the flit disagree (R377) -/
  cipher : Bool := false
deriving DecidableEq, Repr

/-- What a stack line meets that a unit reads or, as queue traffic, moves: the physical error of its read, whether a rebuild fails too
(R217), and what the checks of R161 find of the flit that carries it. -/
structure StackErr where
  line  : Nat
  err   : ReadErr := .none
  fails : Bool := false
  bad   : FlitBad := {}
deriving DecidableEq, Repr

/-- The errors of the stack lines that a command moves; lines that are not listed meet none. -/
abbrev StackErrs := List StackErr

/-- An access of a management core (R447, R448): the hart, the physical address, 2^size bytes, and what the check of the word it reads
finds (a physical event). -/
structure CoreAcc where
  hart : BitVec 2
  addr : BitVec 56
  size : Fin 4
  err  : ReadErr := .none
  /-- what the checks of R161 find of the flits of a stack access -/
  bad  : FlitBad := {}
deriving DecidableEq, Repr

/-- Where and when a step-program instruction issues: tile, stream and the common fields of R172. -/
structure Issue where
  tile   : TileNo
  stream : BitVec 3
  gen    : BitVec 2
  cycle  : BitVec 10
  /-- what the read of the program store meets (R166): a physical event, no field of the word -/
  store  : ReadErr := .none
  /-- the residue check of the bank accumulator finds the transfer of an XFER or SENDR wrong (R375, R376): a physical event -/
  upset  : Bool := false
  /-- bytes fail their parity where this instruction has them cross a unit boundary, or a function unit's table fails its own (R373, R377):
  a physical event -/
  parity : Bool := false
deriving DecidableEq, Repr

/-- The operand fields of a VEC word below FUNC (R182). `upset` is set when a residue or duplication check of the
vector core finds this operation wrong (R375, R377), and `errs` are the errors that the lines it reads meet (R126): physical events, no
fields of the word. -/
structure VecOps where
  vd   : BitVec 6
  va   : BitVec 6
  vb   : BitVec 6
  addr : BitVec 16
  lacc : BitVec 4
  md   : BitVec 2
  upset : Bool
  errs : ReadErrs := []
deriving DecidableEq, Repr

/-- The header of a UTL frame (R316). -/
structure UtlHdr where
  gen    : BitVec 2
  tc     : BitVec 2
  op     : BitVec 4
  lines  : BitVec 4
  seq    : BitVec 16
  ackseq : BitVec 16
  nak    : Bool
  nakseq : BitVec 16
  cr0    : BitVec 3
  cr1    : BitVec 6
  cr3    : BitVec 8
  tag    : Tag
  slot   : BitVec 11
  xfer   : BitVec 8
  count  : BitVec 7
  rsvd   : BitVec 16
deriving DecidableEq, Repr

/-- An arriving UTL frame: the link, its header, its payload lines in clear, the results of the GCM tag and byte-parity
checks (R320) and the real cycle of the frame at which it arrives. -/
structure UtlFrame where
  link     : LinkNo
  hdr      : UtlHdr
  payload  : List Line
  gcmOk    : Bool
  parityOk : Bool
  rc       : Nat
  /-- the two halves of the endpoint's AES unit disagree (R377): a physical event -/
  upset    : Bool := false
deriving DecidableEq, Repr

/-- The variant an abort notice carries (R340). -/
inductive VariantSel where
  | normal
  | covering (addr : DevAddr)
  | unchanged
deriving DecidableEq, Repr

/-- The contents of an abort notice (R340). -/
structure AbortNotice where
  part    : PartNo
  frame   : BitVec 64
  code    : BitVec 8
  origin  : DevAddr
  variant : VariantSel
  streams : Line
  /-- the partition runs all-wide after a recipe disagreement (R86); R340 gives this no place: DESIGN CHOICE (75) -/
  recipe  : Bool
deriving DecidableEq, Repr

/-- The contents of a commit notice (R292). -/
structure CommitNotice where
  part      : PartNo
  slot      : SlotNo
  newCommit : BitVec 32
  cdelta    : BitVec 61
  count     : BitVec 5
  drafts    : BitVec 5
  accepted  : BitVec 5
  step      : BitVec 48
  /-- the device it is sent to by the directed route (R314) -/
  dest      : DevAddr
  /-- AGEN and ADIGEST that a learning step committed (R266); R292 gives them no place: DESIGN CHOICE (88) -/
  adapter   : Option (BitVec 32 × BitVec 61)
deriving DecidableEq, Repr

/-- One sampler state of R264. -/
structure SamplerState where
  seedDig : BitVec 64
  pos     : BitVec 32
  tau     : W32
  pi      : W32
  km1     : BitVec 10
  draft   : BitVec 5
  slot    : BitVec 5
  acc     : Bool
  adapter : BitVec 64
deriving DecidableEq, Repr

/-- The kinds of outcome a step has for an account (R289, R293). -/
inductive OutcomeKind where
  /-- a decode step: tokens -/
  | tokens
  /-- a prompt chunk that appended this many entries and yields no token -/
  | chunk (entries : Nat)
  /-- a learning step, with the new adapter digest -/
  | learn (adigest : BitVec 61)
deriving DecidableEq, Repr

/-- The outcome of one step for one account as it lands in Escrow (R289). -/
structure Outcome where
  kind    : OutcomeKind
  tokens  : List W32
  states  : List SamplerState
  step    : BitVec 48
  attempt : BitVec 8
  pos     : BitVec 32
  drafts  : BitVec 5
  accepted : BitVec 5
deriving DecidableEq, Repr

/-- Where the bytes of a Ledger record kind go (R280); the fields beyond the header that the machine acts on. -/
inductive RecBody where
  /-- Accept (R285) -/
  | accept (sess : SessNo) (ssn : BitVec 32) (subkind : BitVec 4) (deadline : BitVec 64) (maxtok : BitVec 32)
      (endtok : W32) (aframe : BitVec 64) (pdigest : BitVec 61) (paddr : BitVec 33) (plines : BitVec 18)
  /-- Commit (R291) -/
  | commit (tokens : List W32) (states : List SamplerState) (cdelta : BitVec 61) (step : BitVec 48)
      (attempt : BitVec 8) (pos : BitVec 32) (newCommit : BitVec 32) (agen : BitVec 32)
      (sess : SessNo) (ssn : BitVec 32) (remain : BitVec 32)
  /-- Complete (R297) -/
  | complete (step : BitVec 48) (tokens : BitVec 32) (status : BitVec 8) (late : Bool) (sess : SessNo) (ssn : BitVec 32)
  /-- Cancel -/
  | cancel (sess : SessNo) (ssn : BitVec 32)
  /-- Learn (R293) -/
  | learn (agen : BitVec 32) (adigest : BitVec 61) (sess : SessNo) (ssn : BitVec 32)
  /-- Park -/
  | park (sess : SessNo) (ssn : BitVec 32)
  /-- Restore -/
  | restore (sess : SessNo) (ssn : BitVec 32)
  /-- Retire (R286) -/
  | retire (sess : SessNo) (ack : BitVec 32)
  /-- Open -/
  | open_ (sess : SessNo) (ssn : BitVec 32)
  /-- Close -/
  | close (sess : SessNo) (ssn : BitVec 32)
  /-- any other KIND, malformed, with the number of lines it takes -/
  | other (kind : BitVec 8) (lines : BitVec 3)
deriving DecidableEq, Repr

/-- One Ledger record: the header of R279 with its CRC field, and the body of its kind. -/
structure LRecord where
  lsn     : BitVec 64
  part    : Tag
  account : BitVec 8
  body    : RecBody
  crc     : W32
deriving DecidableEq, Repr

/-- A whole Ledger as one device copies it to another (R299): its records in LSN order and its durable and replicated
LSNs. -/
structure LedgerCopyMsg where
  /-- true: the receiver's own Ledger, false: the new replica of the sender's Ledger -/
  own     : Bool
  /-- the first message of a copy; a copy comes in messages of one record each -/
  first   : Bool
  records : List LRecord
  nextLsn : BitVec 64
deriving DecidableEq, Repr

/-- One token entry of the context: the stored form of R229 as 32-bit words, least significant byte first. -/
abbrev EntryWords := List W32

/-- Entries of one stream as the partner's append engine sends them (R230). -/
structure MirrorMsg where
  part    : PartNo
  account : SlotNo
  layer   : BitVec 10
  head    : BitVec 6
  hdim    : Bool
  /-- the partner's stream number n; the mirror's descriptor holds 1 + n -/
  streamNo : BitVec 12
  pos     : BitVec 23
  entries : List EntryWords
deriving DecidableEq, Repr

/-- Committed pages of one stream in a context transfer (R239). -/
structure PagesMsg where
  part    : PartNo
  account : SlotNo
  layer   : BitVec 10
  head    : BitVec 6
  hdim    : Bool
  firstPos : BitVec 23
  entries : List EntryWords
  /-- set on the last message of the stream: the source's COMMITTED and CDIGEST -/
  last    : Option (BitVec 23 × BitVec 61)
  /-- place of the stream in its account's transfer, and the number of streams that the transfer moves: DESIGN CHOICE (84) -/
  index   : Nat
  streams : Nat
  /-- set on the destination's answer for the transfer: true its commit of receipt, false its refusal; R239 gives the answer no message of
  its own: DESIGN CHOICE (84) -/
  answer  : Option Bool
deriving DecidableEq, Repr

/-- An entry of a stream's base table that firmware points at an account's adapter copy in the stacks (R167, R258). -/
structure AdapterBase where
  tile   : TileNo
  stream : BitVec 3
  entry  : BitVec 6
  account : SlotNo
  /-- lines into the copy -/
  offset : BitVec 24
  /-- false: the copy that a step reads, true: the copy that a learning step writes -/
  write  : Bool
deriving DecidableEq, Repr

/-- A new image of a partition as a device has staged it for a replacement of weights (R268, R269): its version and digest, and the two
granules each that hold the digital copies of this device's shard and of the partner's. -/
structure StagedImage where
  version : BitVec 32
  digest  : BitVec 384
  own     : BitVec 10 × BitVec 10
  /-- none: the partner's copy is not staged yet -/
  partner : Option (BitVec 10 × BitVec 10)
deriving DecidableEq, Repr

/-- What firmware brings to a step boundary from its own decisions: entries of base tables (R167), and accounts whose context moves
to a partition of the same tenant over a link (R239). -/
structure Boundary where
  /-- tile, stream, entry, line address -/
  bases : List (TileNo × BitVec 3 × BitVec 6 × BitVec 33) := []
  /-- account slot, link, destination partition -/
  moves : List (SlotNo × LinkNo × PartNo) := []
  /-- layers that other devices run streamed from this boundary on (R248), where no summary has carried them: DESIGN CHOICE (86) -/
  streams : Line := 0
  /-- accounts homed on other devices that learn in the step that starts here, if it is a learning step (R265): DESIGN CHOICE (88) -/
  learns  : List SlotNo := []
  /-- accounts homed on other devices of which a submission starts to run here, so that they are fed from their last commits (R287,
  R294): DESIGN CHOICE (88) -/
  begins  : List SlotNo := []
  /-- entries of base tables that take the address of an account's adapter copy (R167, R258) -/
  adapters : List AdapterBase := []
  /-- a new image of the partition that this device has staged (R268): DESIGN CHOICE (25) -/
  staged  : Option StagedImage := none
  /-- the residue check finds the increment of the step counter or of an overflow counter wrong (R376): a physical event -/
  upset   : Bool := false
deriving DecidableEq, Repr

/-- What a home device has fixed for an account it opened or closed, as it comes to the other devices of the cluster (R254); which
message carries it the spec does not say: DESIGN CHOICE (85). -/
structure AcctNews where
  opened : Bool
  part   : PartNo
  ident  : BitVec 64
  home   : DevAddr
  seed   : BitVec 64
  tau    : W32
  topk   : BitVec 16
  pi     : W32
  cap    : BitVec 8
  pinned : BitVec 32
  /-- batch slot of the partition -/
  batch  : BitVec 8
  /-- of a restored account: committed position, last committed token, draft length, adapter generation, digest and rank -/
  pos     : BitVec 32
  lastTok : W32
  draft   : BitVec 8
  agen    : BitVec 32
  adigest : BitVec 61
  rank    : BitVec 7
deriving DecidableEq, Repr

/-- Shard copy data (R274): which copy, the line within it and the lines. -/
structure ShardMsg where
  /-- false: the receiver's own shard (granules 0-1); true: the partner's (granules 2-3) -/
  partner   : Bool
  firstLine : Nat
  lines     : List Line
  /-- set on the last message of the copy; whether its digest verifies -/
  last      : Option Bool
deriving DecidableEq, Repr

/-- Attention partials of a context-store device (R240): the lines in the layout of R235 and where they land. -/
structure PartialsMsg where
  tile  : TileNo
  line  : BitVec 12
  lines : List Line
  /-- words 2-31 of the line are landed as sent -/
  tag   : Tag
deriving DecidableEq, Repr

/-- A restore report (R307): the part and its result. -/
structure RestoreReport where
  /-- the home device, to which it goes by the directed route (R314) -/
  dest    : DevAddr
  account : SlotNo
  part    : BitVec 16
  ok      : Bool
  committed : BitVec 32
  lastToken : W32
  seed    : BitVec 64
  tau     : W32
  topk    : BitVec 16
  pi      : W32
  draft   : BitVec 8
  cap     : BitVec 8
  pinned  : BitVec 32
  agen    : BitVec 32
  cdigest : BitVec 61
  adigest : BitVec 61
deriving DecidableEq, Repr

/-- The header of a parcel (R305) and the results of the checks on its body (R307). -/
structure ParcelMsg where
  account   : SlotNo
  part      : BitVec 16
  tenant    : BitVec 32
  version   : BitVec 32
  layout    : BitVec 32
  keyid     : BitVec 32
  committed : BitVec 32
  agen      : BitVec 32
  cdigest   : BitVec 61
  adigest   : BitVec 61
  /-- the AES-256-GCM tag verifies under the parking key -/
  tagOk     : Bool
  /-- the streams of the part: layer, head, HD 256, stored entries -/
  streams   : List (BitVec 10 × BitVec 6 × Bool × List EntryWords)
  /-- the adapter share of the part -/
  adapter   : EntryWords
  rank      : BitVec 7
  lastToken : W32
  seed      : BitVec 64
  tau       : W32
  topk      : BitVec 16
  pi        : W32
  draft     : BitVec 8
  cap       : BitVec 8
  pinned    : BitVec 32
  /-- the halves of the Vault's AES unit disagree over the body (R377): a physical event -/
  upset     : Bool := false
deriving DecidableEq, Repr

/-- The header of a UWP message from the host (R354), the queue pair and port it arrives on, and whether its GCM tag
verifies under the session key. -/
structure UwpMsg where
  port     : PortNo
  /-- the session of the queue pair the message arrives on -/
  qp       : SessNo
  tagOk    : Bool
  vmajor   : BitVec 4
  vminor   : BitVec 4
  gen      : BitVec 2
  type     : BitVec 6
  length   : BitVec 16
  session  : SessNo
  ssn      : BitVec 32
  ack      : BitVec 32
  accountId : BitVec 64
  part     : BitVec 8
  subkind  : BitVec 4
  deadline : BitVec 64
  maxtok   : BitVec 32
  endtok   : W32
  frame    : BitVec 64
  counter  : BitVec 64
  code     : BitVec 8
  late     : Bool
  rsvd     : BitVec 63
  /-- the two halves of the Teller or its AES unit disagree (R377): a physical event -/
  upset    : Bool := false
deriving DecidableEq, Repr

/-- The body of a Generate submission (R356). -/
inductive GenSrc where
  /-- SRC 0: the prompt tokens -/
  | inline (tokens : List W32)
  /-- SRC 1: n tokens of the window with this key -/
  | window (key : BitVec 32) (n : Nat)
  /-- any other SRC: malformed -/
  | other (src : BitVec 8)
deriving DecidableEq, Repr

/-- A part of a restore as its submission names it (R356). -/
structure RestorePart where
  device : BitVec 16
  key    : BitVec 32
  length : BitVec 64
deriving DecidableEq, Repr

/-- The body of an Open-account submission (R356). -/
structure OpenBody where
  seed   : BitVec 64
  tau    : W32
  k      : BitVec 16
  pi     : W32
  cap    : BitVec 8
  pinned : BitVec 32
deriving DecidableEq, Repr

/-- An IPv6 or mapped IPv4 source address and the receiving port, 4 the management port (R492, R503). -/
structure Source where
  addr : BitVec 128
  port : Fin 5
deriving DecidableEq, Repr

/-- The header of a UOA request (R485), where it came from and whether its HMAC tag verifies. -/
structure UoaMsg where
  src     : Source
  tagOk   : Bool
  /-- the 384-bit tag itself, for the comparison of R490 -/
  tag     : BitVec 384
  vmajor  : BitVec 4
  vminor  : BitVec 4
  gen     : BitVec 2
  type    : BitVec 6
  length  : BitVec 16
  session : BitVec 32
  seq     : BitVec 64
  status  : BitVec 16
  count   : BitVec 16
  reqseq  : BitVec 64
  rsvd    : BitVec 32
  /-- the halves of an AES or SHA unit of the management complex disagree over the message (R377): a physical event -/
  upset   : Bool := false
deriving DecidableEq, Repr

/-- A value of a dictionary entry (R474): a scalar, or a byte string for STR and BLOB. -/
inductive DVal where
  | num (n : Nat)
  | bytes (b : List Byte)
deriving DecidableEq, Repr

/-- One item of a Read or Describe request (R486). -/
structure ReadItem where
  index  : BitVec 16
  sub    : BitVec 8
  rsvd   : BitVec 8
  offset : BitVec 32
  maxlen : BitVec 16
deriving DecidableEq, Repr

/-- One item of a Write request (R486). -/
structure WriteItem where
  index  : BitVec 16
  sub    : BitVec 8
  type   : BitVec 8
  offset : BitVec 32
  value  : DVal
deriving DecidableEq, Repr

/-- One item of a Stage request (R486). -/
structure StageItem where
  index  : BitVec 16
  sub    : BitVec 8
  type   : BitVec 8
  frame  : BitVec 64
  offset : BitVec 32
  value  : DVal
deriving DecidableEq, Repr

/-- A certificate chain as the device judges it against its anchors (R483, R489): the anchor it reaches, if any. -/
structure ChainCheck where
  anchor : Option (Fin 16)
  datesOk : Bool
deriving DecidableEq, Repr

/-- Which of the entries of a Womer image the machine uses, as the Operator delivers it (R176, R253, R332). -/
structure StreamImage where
  tile     : TileNo
  base     : BitVec 14
  last     : BitVec 14
  cover    : BitVec 14
  normal   : BitVec 14
  /-- base-table entries the image names: entry and line address -/
  table    : List (BitVec 6 × BitVec 33)
  words    : List W64
deriving DecidableEq, Repr

/-- One transfer-table entry with its companion word (R332, R554). -/
structure XferImage where
  link   : LinkNo
  /-- true: transmit entry, false: receive entry -/
  tx     : Bool
  entry  : BitVec 8
  word   : W64
  companion : W64
deriving DecidableEq, Repr

/-- The weights of one array in an image: the cells that are not 0, each 512 x 256 cell keyed 256 * row + column. -/
structure ArrayImage where
  array  : ArrayNo
  layers : List (BitVec 10)
  cells  : List (Nat × Int)
deriving DecidableEq, Repr

/-- An adapted projection of an image (R257): its layer, the widths of its input and output, and α. -/
structure AdapterProj where
  layer  : BitVec 10
  input  : BitVec 32
  output : BitVec 32
  alpha  : W32
deriving DecidableEq, Repr

/-- A Womer image as the Operator writes it to a Free partition (R246, R176). -/
structure Image where
  digest    : BitVec 384
  layout    : BitVec 32
  version   : BitVec 32
  base      : BitVec 5
  layers    : BitVec 16
  batch     : BitVec 8
  verify    : BitVec 8
  vocab     : BitVec 32
  recipe    : Line
  wideOnly  : Line
  streams   : List StreamImage
  blocks    : List (TileNo × BitVec 4 × Bool)
  granules  : List (BitVec 10)
  xfers     : List XferImage
  arrays    : List ArrayImage
  homes     : List DevAddr
  /-- the devices other than an account's home that hold state of the partition's accounts: context streams or adapters (R224, R304) -/
  holders   : List DevAddr := []
  delays    : List (BitVec 3)
  /-- the last Clearing point of a step completes its summary this many frames after the step's first frame (R199) -/
  summaryOff : Nat
  /-- the number of the last Clearing point of a step -/
  lastClear : BitVec 10
  /-- the context streams of this device's shard: layer, head, HD 256 (R224) -/
  ctx       : List (BitVec 10 × BitVec 6 × Bool)
  hasLearn  : Bool
  adapters  : Bool
  /-- the rank of the adapters that the learning variant makes, and the lines of one copy, learning state included (R257, R258) -/
  rank      : BitVec 7
  adapterLines : BitVec 24
  /-- the adapted projections in image order -/
  projs     : List AdapterProj
deriving DecidableEq, Repr

/-- Which packet of an RDMA WRITE a packet is (R345): the only one, the first of a message of so many bytes, a middle or the last
one. -/
inductive RdmaPk where
  | only
  | first (length : Nat)
  | middle
  | last
deriving DecidableEq, Repr

/-- A host-port Ethernet frame as the port classifies it (R345, R346). -/
inductive EthKind where
  | arp
  | nd
  | icmpEcho
  | roce (sess : SessNo)
  | uoa
  | fragment
  | other
deriving DecidableEq, Repr

/-- A module's CMIS pages as the UX16 reads them (R402, R403): bytes 128 to 255 of each page, whether the identity checksums of page 00h
are correct and the module state is ModuleReady, and the outputs that give light, bit k output k. -/
structure ModuleData where
  page00 : List Byte
  pageB0 : List Byte
  pageB1 : List Byte
  sumsOk : Bool
  ready  : Bool
  lit    : BitVec 6
deriving DecidableEq, Repr

/-- The readings one set of sensor conversions returns, in 1/16 degree C; none where a sensor returned no conversion or
a parity error (R423, R424). -/
abbrev SensorSet := List (Option Int)

/-- A clock reference (R435). -/
inductive ClockRef where
  | frameIn
  | refclk
deriving DecidableEq, Repr

/-- A management request as it reaches a unit's port (R449). -/
structure MgmtReq where
  destTile : TileNo
  destPort : BitVec 2
  srcTile  : TileNo
  id       : BitVec 8
  addr     : BitVec 32
  data     : W64
  rsvd     : BitVec 22
  /-- what the register holds after a write, where a fault makes it another value (R365): a physical event -/
  stored   : Option W64 := none
deriving DecidableEq, Repr

/-- The TAP instructions of R542. -/
inductive TapInstr where
  | bypass
  | idcode
  | samplePreload
  | extest
  | highz
  /-- with the image shifted into slot A -/
  | recover (image : List Byte)
  | other (code : Nat)
deriving DecidableEq, Repr

/-- The outcome of a firmware image check of R467 step 3. -/
structure SlotCheck where
  signatureOk : Bool
  /-- the digest of the signing key equals the fuse digest, and which of its revocation bits is its own (R463, R467) -/
  keyOk       : Bool
  key         : Fin 4
  digestOk    : Bool
  svn         : Nat
  /-- version and digest that the image header states -/
  version     : BitVec 32
  digest      : BitVec 384
deriving DecidableEq, Repr

/-- What a Dawn step brings back from the world (R513-R519); each step reads the fields that are its own. -/
structure DawnIn where
  /-- time since the release of RESET_N, ms -/
  ms         : Nat
  /-- step 2: recorder slots found torn -/
  torn       : Nat
  /-- step 3: copies of the boot descriptor that a power loss has torn (bit 0 at 0x0, bit 1 at 0x1000; R466): a physical event -/
  bootTorn   : BitVec 2
  /-- step 3: trip circuits that pass (bit 0 A, bit 1 B) -/
  trips      : BitVec 2
  slotA      : SlotCheck
  slotB      : SlotCheck
  /-- step 4: compensation tables whose CRC matches (bit 0 holdover, 1 bandgap, 2 sensors) -/
  tables     : BitVec 3
  /-- step 4: the entropy health tests pass -/
  entropyOk  : Bool
  /-- step 5: stacks that train -/
  stacksOk   : BitVec 16
  /-- step 7: arrays whose set is uncorrectable or fails CRC -/
  setsBad    : List ArrayNo
  /-- step 8: arrays with any check failure, and each figure measured -/
  checkFail  : List ArrayNo
  figures    : List (ArrayNo × BitVec 16)
  /-- step 9: the partner answers; its acknowledged LSN for this Ledger, its replica of it, and its own Ledger -/
  partner    : Bool
  /-- step 9: the partner covers this device -/
  covers     : Bool
  partnerAck : Option (BitVec 64)
  replica    : List LRecord
  partnerOwn : List LRecord
  /-- the checkpoint LSNs in the headers of the partner's replica and of its own Ledger (R278, R302) -/
  replicaFrom : BitVec 64 := 0
  partnerFrom : BitVec 64 := 0
deriving DecidableEq, Repr

/-- The commands. Each constructor is one row of spec/opcode_table.json. -/
inductive Instr where
  -- ARRAY class (R177-R181)
  | fire (i : Issue) (bank : BitVec 2) (array : BitVec 4) (mode : BitVec 3) (rge : BitVec 4) (reg : BitVec 4)
      (acc : Bool) (rsvd : BitVec 28)
  | cal (i : Issue) (bank : BitVec 2) (array : BitVec 4) (rsvd : BitVec 40)
  | tfire (i : Issue) (half : BitVec 2) (dir infmt : Bool) (treg : BitVec 2) (acc : Bool) (feedbuf : BitVec 6)
      (rsvd : BitVec 33)
  | xfer (i : Issue) (src : Bool) (bank : BitVec 2) (reg : BitVec 4) (shift : BitVec 5) (line : BitVec 12)
      (rsvd : BitVec 22)
  | feed (i : Issue) (line : BitVec 12) (seg : BitVec 2) (mreg : BitVec 3) (rsvd : BitVec 29) (errs : ReadErrs)
  | tload (i : Issue) (half wfmt : Bool) (block : BitVec 4) (rsvd : BitVec 40) (errs : ReadErrs)
  -- VEC class (R182, R183)
  | fadd (i : Issue) (v : VecOps)
  | fsub (i : Issue) (v : VecOps)
  | fmul (i : Issue) (v : VecOps)
  | ffma (i : Issue) (v : VecOps)
  | fmin (i : Issue) (v : VecOps)
  | fmax (i : Issue) (v : VecOps)
  | fcmp (i : Issue) (v : VecOps)
  | fsel (i : Issue) (v : VecOps)
  | badd (i : Issue) (v : VecOps)
  | bmul (i : Issue) (v : VecOps)
  | bfma (i : Issue) (v : VecOps)
  | cvt (i : Issue) (v : VecOps)
  | imac8 (i : Issue) (v : VecOps)
  | pacc (i : Issue) (v : VecOps)
  | lcvt (i : Issue) (v : VecOps)
  | iadd32 (i : Issue) (v : VecOps)
  | fexp (i : Issue) (v : VecOps)
  | flog (i : Issue) (v : VecOps)
  | frcp (i : Issue) (v : VecOps)
  | frsq (i : Issue) (v : VecOps)
  | fsig (i : Issue) (v : VecOps)
  | ferf (i : Issue) (v : VecOps)
  | qcfg (i : Issue) (fmt : Bool) (glog : BitVec 3) (sr : Bool) (floor cap : BitVec 8) (laneline : BitVec 12)
      (lanes : Bool) (rsvd : BitVec 6)
  | quant (i : Issue) (v : VecOps)
  | lanef (i : Issue) (v : VecOps)
  | strm (i : Issue) (v : VecOps)
  | deq (i : Issue) (v : VecOps)
  | mxin (i : Issue) (v : VecOps)
  | mxout (i : Issue) (v : VecOps)
  | rsum (i : Issue) (v : VecOps)
  | rmax (i : Issue) (v : VecOps)
  | ldl (i : Issue) (v : VecOps)
  | stl (i : Issue) (v : VecOps)
  | ldw (i : Issue) (v : VecOps)
  | stw (i : Issue) (v : VecOps)
  -- SEND, RECV, MEMQ, WAIT, CREDIT, PHASE, CTRL (R184-R192)
  | send (i : Issue) (srcline : BitVec 12) (plane : Bool) (destTile : TileNo) (destPort : BitVec 2)
      (destLine : BitVec 12) (xfer : BitVec 8) (add anyc : Bool) (errs : ReadErrs)
  | sendr (i : Issue) (src : Bool) (bank : BitVec 2) (reg : BitVec 4) (shift : BitVec 5) (plane : Bool)
      (destTile : TileNo) (destPort : BitVec 2) (destLine : BitVec 12) (xfer : BitVec 8) (rsvd : BitVec 1)
      (anyc : Bool)
  | recv (i : Issue) (link : BitVec 4) (slot line : BitVec 12) (lines entry : BitVec 6) (rsvd : BitVec 6)
  | load (i : Issue) (entry : BitVec 6) (dest wfmt : Bool) (line : BitVec 12) (lines : BitVec 6) (breg : BitVec 3)
      (offset : BitVec 17)
  | store (i : Issue) (entry : BitVec 6) (dest wfmt : Bool) (line : BitVec 12) (lines : BitVec 6) (breg : BitVec 3)
      (offset : BitVec 17)
  | rread (i : Issue) (entry : BitVec 6) (srcTile : TileNo) (srcLine line : BitVec 12) (rsvd : BitVec 7)
  | wait (i : Issue) (token : BitVec 7) (rsvd : BitVec 39)
  | credit (i : Issue) (any : Bool) (writer : TileNo) (base : BitVec 12) (count : BitVec 7) (entry : BitVec 4)
      (rsvd : BitVec 13)
  | next (i : Issue) (advance : BitVec 16) (rsvd : BitVec 30)
  | layer (i : Issue) (layer : BitVec 10) (wide alt : BitVec 14) (rsvd : BitVec 8)
  | end_ (i : Issue) (gap : BitVec 16) (rsvd : BitVec 30)
  | jump (i : Issue) (target : BitVec 14) (rsvd : BitVec 32)
  | base (i : Issue) (breg : BitVec 3) (entry : BitVec 6) (rsvd : BitVec 37)
  | mask (i : Issue) (mreg : BitVec 3) (waddr : BitVec 16) (rsvd : BitVec 27) (errs : ReadErrs)
  -- array events
  | arrayResultReadable (array : ArrayNo) (codes : List (List Int)) (upset : Bool)
  | transitResultReadable (tile : TileNo) (secdedBad upset : Bool) (tallyBad : Option Nat)
  | arrayDiagnosisEnd (array : ArrayNo) (failed : List (BitVec 9))
  | spareProgrammingEnd (array : ArrayNo) (column : BitVec 9)
  | arrayReturn (array : ArrayNo)
  | arrayProgrammingStart (tile : TileNo) (cells : List (Nat × Int)) (imageDigest : BitVec 384) (digestOk : Bool)
  | arrayProgrammingEnd (array : ArrayNo) (badColumns : List (BitVec 9)) (offsets gains : List Int) (sums : List (BitVec 12))
      (quality : BitVec 16)
  | releaseErase (base : BitVec 5) (lost : Bool)
  -- calibration
  | backgroundWindowEnd (array : ArrayNo)
  | fullCalibrationStart (tile : TileNo)
  | fullCalibrationEnd (array : ArrayNo) (offsets gains : List Int) (sums : List (BitVec 12)) (quality : BitVec 16)
  | calibrationWriteEnd (array : ArrayNo)
  | correctionSave
  | rotationDue (array : ArrayNo)
  | slotShortfall (array : ArrayNo)
  | requestFullCalibration (m : UoaMsg) (value : DVal)
  | userCalibrationPoint (m : UoaMsg) (value : DVal)
  | newSweep (m : UoaMsg) (value : DVal)
  | driftEvaluation (part : PartNo)
  -- scratchpad, mesh
  -- rc: the real cycle of the frame at which the event comes
  | eccWriteBack (tile : TileNo) (rc : Nat)
  | blockZeroing (tile : TileNo) (block : BitVec 4) (rc : Nat)
  | rowMapOut (tile : TileNo) (rc : Nat)
  | scheduledFlitClaim (router : TileNo) (plane : Bool) (output : Fin 7) (cycle : Nat) (upset headerBad parityBad : Bool)
  -- upset: the adder of the endpoint whose slot the flit reaches fails its residue check (R375)
  | scheduledFlitLanding (router : TileNo) (port : BitVec 2) (plane : Bool) (cycle : Nat) (parityBad upset : Bool)
  | creditGrant (tile : TileNo) (rc : Nat) (bad : FlitBad)
  | creditRevoke (tile : TileNo) (rc : Nat) (bad : FlitBad)
  | faultReport (rc : Nat) (bad : FlitBad)
  | remoteReadRequest (tile : TileNo) (rc : Nat) (bad : FlitBad)
  | remoteReadServe (tile : TileNo) (rc : Nat) (errs : ReadErrs)
  | remoteReadResponse (tile : TileNo) (rc : Nat) (bad : FlitBad)
  -- stacks and queues
  | loadRequest (unit : Fin 25) (rc : Nat) (bad : FlitBad) (err : ReadErr) (rebuildFails : Bool)
  | loadData (tile : TileNo) (rc : Nat) (bad : FlitBad)
  | storeDrain (tile : TileNo) (rc : Nat) (errs : ReadErrs)
  | storeData (stack : BitVec 4) (rc : Nat) (bad : FlitBad)
  | storeAcknowledge (tile : TileNo) (rc : Nat) (bad : FlitBad)
  | stackFailed (stack : BitVec 4) (reason : BitVec 2)
  | granuleZeroingEnd (granule : BitVec 10)
  | attend (engine : BitVec 4) (slot : BitVec 10) (tag : Tag) (xfer : BitVec 8) (desc : Line) (rc : Nat)
  | append (engine : BitVec 4) (slot : BitVec 10) (tag : Tag) (xfer : BitVec 8) (desc : Line) (rc : Nat)
  | chunkAttend (engine : BitVec 3) (slot : BitVec 6) (tag : Tag) (xfer : BitVec 8) (desc : Line) (rc : Nat)
  | bulkAppend (engine : BitVec 3) (slot : BitVec 6) (tag : Tag) (xfer : BitVec 8) (desc : Line) (rc : Nat)
  | engineJobStart (unit : Fin 24) (rc : Nat) (errs : StackErrs)
  -- ret: on a context-store device, the link and the tile lines that the partials of an attend are returned to (R240)
  | engineJobEnd (unit : Fin 24) (rc cycles : Nat) (errs : StackErrs) (ret : Option (LinkNo × TileNo × BitVec 12))
      (upset : Bool)
  -- frames and steps
  -- upset: the residue check finds the increment of the frame counter wrong (R376)
  | frameBoundary (rc : Nat) (upset : Bool)
  | pauseInsertion (cycle : Nat) (count : Nat)
  -- fw: what firmware does at the step boundary
  | stepStart (part : PartNo) (fw : Boundary)
  | abortNotice (f : UtlFrame) (n : AbortNotice)
  | replayStart (part : PartNo) (fw : Boundary)
  -- serving and Ledger
  -- upset: the twin Mint or the residue check finds a difference (R377)
  -- tableBad: a table of the Mint fails its parity (R377)
  | mintRun (part : PartNo) (account : SlotNo) (full draft : List (List (Nat × W32))) (drafts : List Nat) (upset tableBad : Bool)
  | escrowArrival (part : PartNo) (account : SlotNo) (o : Outcome)
  | commitTest (account : SlotNo)
  | ledgerRecord (f : UtlFrame) (r : LRecord)
  | ledgerAcknowledge (f : UtlFrame) (lsn : BitVec 64)
  | replicationFailure
  | submissionRunning (account : SlotNo)
  -- news: none on the home device
  | accountOpenCloseAct (account : SlotNo) (news : Option AcctNews)
  -- info: the device of the part, and its window key and length where another device has sealed it
  -- upset: the halves of the Vault's AES unit disagree over the body (R377)
  | parcelSealEnd (account : SlotNo) (part : BitVec 16) (windowOk : Bool) (info : RestorePart) (upset : Bool)
  | restorePartCheck (p : ParcelMsg)
  | commitNotice (f : UtlFrame) (n : CommitNotice)
  -- tensor network
  | idleFrame (f : UtlFrame)
  | frameMessage (f : UtlFrame)
  | dataCopy (f : UtlFrame)
  | dataAdd (f : UtlFrame) (upset : Bool)
  | digestRecord (f : UtlFrame)
  | clearingSummary (f : UtlFrame) (round : Fin 10)
  | boundaryExchange (f : UtlFrame) (round : Fin 10)
  | loadingReport (f : UtlFrame) (part : PartNo) (device : DevAddr) (loaded : Bool)
  | failureNotice (f : UtlFrame)
  | stretchVote (f : UtlFrame) (device : DevAddr) (len : BitVec 2) (enforced : Bool)
  | restoreReport (f : UtlFrame) (r : RestoreReport)
  | mirrorEntries (f : UtlFrame) (m : MirrorMsg)
  | contextPages (f : UtlFrame) (m : PagesMsg)
  | shardCopy (f : UtlFrame) (m : ShardMsg)
  | ledgerCopy (f : UtlFrame) (m : LedgerCopyMsg)
  | contextPartials (f : UtlFrame) (m : PartialsMsg)
  -- chain: what the check of the peer's certificate chain and signature gives with this line; none: more lines follow (R325)
  | training (f : UtlFrame) (chain : Option Bool)
  -- rc: the real cycle of the frame at which the retransmission would start
  -- spare: a module that feeds the link has switched a spare laser in (R406)
  | frameRetransmission (link : LinkNo) (rc : Nat) (spare : Bool)
  -- parityBad: a line read from the transmit buffer fails its parity (R373); shaBad: the halves of the SHA unit disagree over the digest
  -- record's recipe digest (R377)
  | transmitEntrySend (link : LinkNo) (entry : BitVec 8) (parityBad shaBad : Bool)
  | linkSilence (link : LinkNo)
  -- intact: the test frames received intact; signal: the lanes that show a signal or light
  | loopbackTestEnd (link : LinkNo) (intact signal : BitVec 16)
  | linkDetect (link : LinkNo) (lanes : BitVec 5)
  | trainingStageTimeout (link : LinkNo)
  | keyRenewal (link : LinkNo)
  | delayRemeasure (link : LinkNo) (roundTrip turn : Nat)
  | opticalWidthChange (link : LinkNo)
  | frameLockLoss
  | masterTakeover
  | failureDecision
  | coveringEnd
  -- partitions
  | partitionLoad (m : UoaMsg) (part : PartNo) (tenant : BitVec 32) (img : Image)
  | loadingComplete (part : PartNo)
  | partitionStart (part : PartNo) (fw : Boundary)
  | partitionClose (part : PartNo)
  | replacement (m : UoaMsg) (part : PartNo) (value : DVal)
  -- copies: the granules that hold the new digital copies, and which of granules 0-3 each takes the place of (R269)
  | weightSwitch (base : BitVec 5)
  -- Twilight
  | requestDrain (m : UoaMsg) (value : DVal)
  | twilightEntry
  | twilightStop
  | dark
  | clearFlag (m : UoaMsg) (value : DVal)
  -- asserted: the copy that is wrong asserts its tree, true the abort tree, false the hold tree; none: it fails to
  | treeDisagreement (cycles : Nat) (asserted : Option Bool)
  -- Ethernet, UWP
  -- prio and fill: the frame's priority and the bytes of it that the port buffer holds as the frame lands
  | ethernetFrame (port : PortNo) (kind : EthKind) (bytes : Nat) (vlan : Option (BitVec 12)) (fcsOk ipOk icrcOk ecn : Bool)
      (microseconds : Nat) (prio : BitVec 3) (fill : Nat)
  | congestionNotification (session : SessNo)
  | rateIncrease (session : SessNo)
  | pfcFrame (port : PortNo) (prio : BitVec 3) (pause : Bool)
  | rdmaWrite (qp : SessNo) (port : PortNo) (pk : RdmaPk) (rkey : BitVec 32) (va : Nat) (data : List Byte) (psn : BitVec 24)
      (errs : StackErrs)
  | rdmaRead (qp : SessNo) (port : PortNo) (rkey : BitVec 32) (va len : Nat) (psn : BitVec 24) (errs : StackErrs)
  | generate (m : UwpMsg) (src : GenSrc)
  | learn (m : UwpMsg) (first count : BitVec 32)
  | park (m : UwpMsg)
  | restore (m : UwpMsg) (parts : List RestorePart)
  | openAccount (m : UwpMsg) (b : OpenBody)
  | closeAccount (m : UwpMsg)
  | cancel (m : UwpMsg)
  | acknowledge (m : UwpMsg)
  | releaseAcknowledge (m : UwpMsg) (relpos : BitVec 32)
  | windowOpen (m : UwpMsg) (kind mxtype access any : BitVec 8) (bytes : BitVec 32)
  | windowClose (m : UwpMsg) (key : BitVec 32)
  | windowDrained (index : BitVec 12)
  | queuePairError (session : SessNo)
  | ethernetPortDown (port : PortNo)
  | portRetrained (port : PortNo) (full : Bool)
  | sessionOpen (m : UoaMsg) (value : DVal)
  | sessionReopen (m : UoaMsg) (value : DVal)
  | sessionClose (m : UoaMsg) (value : DVal)
  | connect (m : UoaMsg) (value : DVal)
  -- Daylight
  | modulePresence (mm : ModuleNo) (d : ModuleData) (probeOk : Bool)
  | moduleRemoval (mm : ModuleNo)
  | moduleFault (mm : ModuleNo) (flags : List (BitVec 32))
  | openFibre (lane : Fin 36)
  | darknessCheck (mm : ModuleNo) (dark hardware : Bool)
  | moduleMonitorPoll (mm : ModuleNo) (d : ModuleData)
  | daylightHistorySave
  | removalRequest (m : UoaMsg) (mm : ModuleNo) (value : DVal)
  | relight (m : UoaMsg) (mm : ModuleNo) (value : DVal)
  | relightProbeEnd (mm : ModuleNo) (openLanes : BitVec 6)
  -- power, thermal, clocks
  | underVoltage (rail : Fin 10)
  | powerFailLatch
  | powerFailSilence
  | currentLimitEntry
  | currentLimitExit
  | powerMean (milliwatts : Nat)
  -- hbm: the temperatures that the stacks report, degree C; none where a stack reports none (R242)
  | sensorConversionSet (raw : SensorSet) (hbm : List (Option Int))
  | hardTrip (circuitB : Bool)
  | voteEnforce
  | voteRelease
  | referenceLoss (ref : ClockRef)
  | referenceReturn (ref : ClockRef)
  | holdoverCorrection (temp16 : Int)
  | crossingTimeout (unit : BitVec 8) (tile : TileNo)
  -- management complex
  -- the accesses of a management core that the command is, with their addresses (R448)
  | watchdogService (a1 a2 : CoreAcc) (w1 w2 : BitVec 8)
  | watchdogWarning
  | watchdogExpiry
  | housekeepingTimer
  | interruptClaim (a : CoreAcc)
  | interruptCompletion (a : CoreAcc) (data : W64)
  -- since: housekeeping cycles since the latest trigger
  | adcTrigger (frameTick : Bool) (since : Nat)
  | adcConversionEnd (code : BitVec 12)
  | adcDataRead (a : CoreAcc)
  | adcUrgentRequest (channel : BitVec 6) (since : Nat)
  | adcReferenceSettled
  -- wait: the cycles that the request flit waited at outputs on its way (R146)
  | managementRead (r : MgmtReq) (wait : Nat) (bad : FlitBad)
  | managementWrite (r : MgmtReq) (wait : Nat) (bad : FlitBad)
  | managementWriteReadback (r : MgmtReq) (wait : Nat) (bad : FlitBad)
  | managementResponse (id : BitVec 8) (rc : Nat) (bad : FlitBad)
  | managementRequestTimeout (id : BitVec 8) (rc : Nat)
  | flashWriteEnd
  | flashEraseEnd
  | entropyHealthFailure
  | wrappingKey (m : UoaMsg) (part : PartNo)
  | parkingKeyInstall (m : UoaMsg) (part : PartNo) (keyid : BitVec 32) (length : Nat) (tagOk : Bool)
      (age : Nat)
  | imageTransfer (m : UoaMsg) (offset : BitVec 32) (data : List Byte)
  | startTrial (m : UoaMsg) (value : DVal) (check : SlotCheck)
  | getVersion
  | getCapabilities
  | negotiateAlgorithms (ok : Bool)
  | getDigests
  | getCertificate (slot : BitVec 8) (offset length : BitVec 16)
  | challenge (slot : BitVec 8) (nonce : BitVec 256)
  | getMeasurements (index : BitVec 8) (nonce : BitVec 256)
  | unsupportedRequest (code : BitVec 8)
  -- UOA
  | uoaHello (m : UoaMsg) (nonce : BitVec 256) (key : BitVec 776) (chain : ChainCheck) (second : Nat)
  | uoaFinish (m : UoaMsg) (sigOk : Bool)
  | uoaRead (m : UoaMsg) (items : List ReadItem)
  | uoaWrite (m : UoaMsg) (items : List WriteItem)
  | uoaStage (m : UoaMsg) (items : List StageItem)
  | uoaDescribe (m : UoaMsg) (items : List ReadItem)
  | uoaClose (m : UoaMsg)
  | uoaIdleTimeout (session : BitVec 32)
  | anchorInstall (m : UoaMsg) (value : DVal) (certOk : Bool)
  | anchorRemove (m : UoaMsg) (value : DVal)
  | dictionaryStoreRollover
  -- recorder, Dawn, reset, test access
  | flushStart
  | flushEnd
  | flushNow (m : UoaMsg) (value : DVal)
  | resetAssertion
  | dawnStart
  | dawnStepComplete (d : DawnIn)
  | frameLockTimeout
  | ledgerPartnerRetry
  | warmResetRequest (m : UoaMsg) (value : DVal)
  | coldResetRequest (m : UoaMsg) (value : DVal)
  | orderlyShutdown (m : UoaMsg) (value : DVal)
  | partitionReset (part : PartNo)
  | linkReset (m : UoaMsg) (value : DVal)
  | firstUseEnd
  | hoursSave
  | tapInstruction (t : TapInstr)
  | opticalEngineFailure (oe : Fin 3)
  | powerOff
  | linkEqualisationEnd (link : LinkNo)
deriving DecidableEq, Repr

end Sys2Proof
end

