-- ==== Sys2Proof/Config.lean ====
section
/-! DEFINITION. What the part fixes and the spec leaves open: constants without a body, so that no proof can see their
values. Each is named in a log entry. -/

namespace Sys2Proof

/-- FMIN and FMAX (true: FMAX) with one NaN operand give NaN, not the other operand; of two zeros of different sign the negative one
(log entry 10). -/
opaque Config.minMaxOpen : Bool → W32 → W32 → Bool
/-- A function of FUNC 0x18-0x1D (its FUNC minus 0x18) at an argument for which the spec states no result, such as the
logarithm of 0 (log entry 10). -/
opaque Config.fnOpen : Nat → W32 → W32
/-- How many units in the last place the part's result of a function of R134 lies from the rounded one, tried where it
keeps within 2 ulp (log entry 11). -/
opaque Config.fnUlp : Nat → W32 → BitVec 3

/-- The length of a hold that an abort ends, in cycles, by free-value number (log entry 12). -/
opaque Config.holdLength : Nat → Nat

/-- The test vector of a probe (R381), one input of -7 to 7 for each array and row (log entry 13). -/
opaque Config.probeInput : Nat → Nat → Int
/-- The output in du that a probe's column converts to (R381), by free-value number and column (log entry 13). -/
opaque Config.probeOutput : Nat → Nat → Int
/-- A trim or correction that leaves its field's range (log entry 14). -/
opaque Config.trimOver : Int → BitVec 8
/-- The offset and gain corrections that stage 1 of a full calibration measures for spare 7's converter, by free-value number (log
entry 15). -/
opaque Config.standIn : Nat → BitVec 8 × BitVec 8
/-- The check bits of a 64-bit word under SECDED, whose code the spec does not give (log entry 67). -/
opaque Config.secded : W64 → BitVec 8

/-- What FCMP writes for a comparison that holds or does not hold (log entry 16). -/
opaque Config.cmpCode : Bool → W32
/-- What FCMP writes with MOD 3, which names no comparison (log entry 16). -/
opaque Config.cmpOther : W32 → W32 → W32
/-- Whether FSEL takes its first source, by the old content of the destination lane (log entry 16). -/
opaque Config.selFirst : W32 → Bool
/-- CVT of an FP32 value that no 32-bit integer holds (log entry 16). -/
opaque Config.cvtOpen : W32 → W32
/-- PACC of a no-value operand into a long accumulator (log entry 16). -/
opaque Config.paccNone : W64 → W64
/-- LCVT and MXIN: the scale where the exponent leaves its range (log entry 16). -/
opaque Config.mxExp : Int → BitVec 8
/-- The fixed tree of RSUM and RMAX: how many of the first of n lanes form the left part (log entry 16). -/
opaque Config.treeSplit : Nat → Nat
/-- RSUM and RMAX write their result to every lane, not to lane 0 alone (log entry 16). -/
opaque Config.reduceAll : Bool
/-- Element k of a burst whose header has a reserved FMT (log entry 16). -/
opaque Config.reservedBurst : Line → Nat → BitVec 8

/-- What a line reads as that its partition has not written since its granule was tagged: by the number of the key and the
line (log entry 17). -/
opaque Config.unwrittenLine : Nat → Nat → Line
/-- What a line is stored as under a key (AES-256-XTS), by the number of the key, the line and its content (log entry 83). -/
opaque Config.cipher : Nat → Nat → Line → Line
/-- The fixed slot-order trees of an attend: how many of the first of n terms form the left part (log entry 16). -/
opaque Config.pageSplit : Nat → Nat

/-- A 12-bit SALT that the Vault draws for a window key, by the number of the draw (log entry 19). -/
opaque Config.salt : Nat → BitVec 12
/-- A 24-bit start PSN drawn at a Connect, by the number of the draw (log entry 19). -/
opaque Config.startPsn : Nat → BitVec 32
/-- A GEN drawn by the Vault at Dawn for a window entry: draw and entry (log entry 19). -/
opaque Config.dawnGen : Nat → Nat → BitVec 8
/-- A seed that the Vault draws for an account, by the number of the draw (log entry 19). -/
opaque Config.seed : Nat → BitVec 64
/-- Byte `i` of a nonce that the Vault draws for a seal, by the number of the draw (log entry 20). -/
opaque Config.sealedByte : Nat → Nat → Byte
/-- Byte `i` of the AES-256-GCM key stream of a parcel, by its parking key and its nonce (R305, log entry 20). -/
opaque Config.parcelStream : BitVec 256 → BitVec 96 → Nat → Byte
/-- The GCM tag of a parcel, by its parking key, its header line with GCMTAG zero and its sealed body (R305, log entry 20). -/
opaque Config.parcelTag : BitVec 256 → Line → List Byte → BitVec 128
/-- The parking key that an installation opens to: by the draw of the wrapping key, the partition and the bytes written (R465, log
entry 20). -/
opaque Config.parkingKey : Nat → Nat → List Byte → BitVec 256

/-- The returning partner comes from a warm reset and has kept its shard copies (R522), by free-value number (log entry 130). -/
opaque Config.peerKept : Nat → Bool
/-- Byte `i` of the AES-256-GCM key stream of a link frame, by its key and its nonce (R315, log entry 125). -/
opaque Config.gcmStream : BitVec 256 → BitVec 96 → Nat → Byte
/-- The GCM tag of a link frame, by its key, its nonce, its header bits and its encrypted lines (R315, log entry 125). -/
opaque Config.gcmTag : BitVec 256 → BitVec 96 → BitVec 128 → List Byte → BitVec 128
/-- The AES-256 key that HKDF-SHA-384 yields for one direction of a link: shared secret, address of the sender, address of the receiver,
link (R325, log entry 125). -/
opaque Config.utlKey : BitVec 384 → BitVec 10 → BitVec 10 → Nat → BitVec 256
/-- The ECDSA P-384 signature of the ephemeral key that a link sends in stage 4, by the Vault's draw (R325, log entry 94). -/
opaque Config.linkSign : Nat → BitVec 768

/-- CDELTA of a Commit record that keeps fewer entries than the step appended: the summary gives the sum over all of them (log entry 122). -/
opaque Config.keptDigest : Nat → BitVec 61

/-- The fault code that the abort notice of Twilight carries, for which the spec gives none (log entry 27). -/
opaque Config.twilightCode : BitVec 8
/-- The reason byte of a refusal 0x8A, by free-value number (log entry 28). -/
opaque Config.windowReason : Nat → BitVec 8
/-- What a dictionary entry holds whose value the part alone knows, by 256 * index + subindex, and selector: a number (log entry
29). -/
opaque Config.entryNum : Nat → Nat → Nat
/-- The same for a string or BLOB entry (log entry 29). -/
opaque Config.entryBytes : Nat → Nat → List Byte
/-- The outcome of a cryptographic check whose material a general write carries: a certificate, a wrapped key, a firmware slot, by
free-value number (log entry 46). -/
opaque Config.checkOk : Nat → Bool
/-- What a Vault draw gives as a nonce or key of 256 bits, by the number of the draw (log entry 19). -/
opaque Config.nonce : Nat → BitVec 256
/-- How firmware sets the housekeeping ADC at Dawn: TRIG, REF, LAST, DIV, DELAY (log entry 30). -/
opaque Config.adcSetup : BitVec 2 × BitVec 2 × BitVec 5 × BitVec 16 × BitVec 16
/-- The sequence table that firmware writes, by entry (log entry 30). -/
opaque Config.adcSeq : Nat → BitVec 6
/-- PRIO that firmware gives a source (log entry 30). -/
opaque Config.intPrio : Nat → BitVec 3
/-- TARGET that firmware gives a source (log entry 30). -/
opaque Config.intTarget : Nat → BitVec 4
/-- THRESHOLD that firmware gives a hart, 0-8 (log entry 30). -/
opaque Config.intThreshold : Nat → Fin 9
/-- Period of the housekeeping timer that firmware sets, in us, less one (log entry 30). -/
opaque Config.timerPeriod : Fin 1048575
/-- STATUS of the response to a management request at a register, by register key, operation and free-value number (log entry
39). -/
opaque Config.regStatus : Nat → Nat → Nat → BitVec 2
/-- What stands for the neighbours' mean and their greatest value where no healthy neighbour of a sensor returned a
conversion, in 1/16 degree C, by sensor and free-value number; true for the mean (log entry 33). -/
opaque Config.neighbourOpen : Bool → Nat → Nat → Int
/-- The holdover oscillator's table: frequency offset in ppb at point i of 17, 6.25 degree C apart; true: the table in flash, false:
the default coefficients (log entry 34). -/
opaque Config.holdoverOffset : Bool → Nat → Int
/-- The holdover correction in 1/100 ppb at a temperature outside 0-100 degree C, in 1/16 degree C (log entry 34). -/
opaque Config.holdoverOutside : Bool → Int → Int

/-- The ECDH secret of a handshake, by the Vault's draw and the client's ephemeral key; the device's own ephemeral key; the signature of its
Hello reply; its certificate chain (R486, R489, log entry 19). -/
opaque Config.ecdh : Nat → BitVec 776 → BitVec 384
opaque Config.ephemeral : Nat → BitVec 776
opaque Config.helloSign : Nat → BitVec 256 → BitVec 768
opaque Config.chain : List Byte
/-- A byte of the AES-256-CTR key stream under a value key, by the message's SEQ, the item number and the byte's place (R489, log entry
83). -/
opaque Config.valueStream : List Byte → BitVec 64 → Nat → Nat → Byte
/-- The version and Clobin's JEDEC identity code in IDCODE (R542). -/
opaque Config.tapVersion : BitVec 4
opaque Config.jedec : BitVec 11
/-- The digest of the boot ROM, and whether debug is locked, as the measurement registers hold them (R469). -/
opaque Config.romDigest : BitVec 384
opaque Config.debugLock : Bool
/-- The digest of the dictionary persistent store at a boot, by free-value number: the spec does not lay the store out (R469, log entry
104). -/
opaque Config.storeDigest : Nat → BitVec 384
/-- A byte of the boot ROM, by offset (log entry 87). -/
opaque Config.romByte : Nat → Byte
/-- What a management core reads where the map of R448 names a unit whose registers the spec does not lay out, by address and
free-value number (log entry 87). -/
opaque Config.coreOpen : Nat → Nat → Nat
/-- A byte of the flash as it is memory-mapped, by offset and free-value number (log entry 87). -/
opaque Config.flashByte : Nat → Nat → Byte
/-- The offsets of the watchdog's service register and of the housekeeping timer's period register in their window (log entry 87). -/
opaque Config.serviceReg : Fin 256
opaque Config.timerReg : Fin 256
/-- An ephemeral public key that the Vault draws for a link's stage 4, as the bits of a training message hold it, by draw and link (log
entry 94). -/
opaque Config.linkKey : Nat → Nat → BitVec 776

end Sys2Proof
end

