-- ==== Sys2Proof/Machine/State.lean ====
section
/-! DEFINITION. The state of the UX16: every register, queue, buffer, table, counter, mode and pin the spec names, as
plain data. Each field's docstring reads: what it is | its width or type | the rule | its value at reset. The default
of a field is its value in `State.reset`, the part as shipped with RESET_N asserted. -/

namespace Sys2Proof.Machine

/-- Sparse data by number: pairs with rising keys, no pair holding the default of the map (see Machine/Map.lean). -/
abbrev SMap (α : Type) := List (Nat × α)

/-- A point of time inside the die: frame number and schedule cycle. -/
structure Stamp where
  frame : Nat
  cycle : Nat
deriving DecidableEq, Repr

/-- A use of a unit: its time and the partition that uses it. -/
structure Claim where
  frame : Nat
  cycle : Nat
  tag   : Tag
deriving DecidableEq, Repr

/-! ## Resident arrays and calibration -/

/-- Array states (R57). -/
inductive ArrayStatus where
  | erased | programming | resident | withdrawn | incomplete | failed
deriving DecidableEq, Repr

/-- A calibration set's header and its trim banks hold an offset and a gain for a converter (R94, R96). -/
structure Trim where
  /-- offset, quarter-LSB -/
  off  : Int := 0
  /-- gain, 1/256 of full scale -/
  gain : Int := 0
deriving DecidableEq, Repr

/-- The requests that one full calibration serves, merged (R106). -/
structure CalWhy where
  /-- a priority request of R100, R102 or 0x3100/0x03 -/
  prio     : Bool := false
  /-- user calibrations, by point (R107) -/
  user     : List (BitVec 2) := []
  /-- the automatic rotation -/
  rotation : Bool := false
  /-- the set is rebuilt (R111) -/
  rebuild  : Bool := false
deriving DecidableEq, Repr

/-- The calibration set in an array's calibration rows (R91-R95). -/
structure CalSet where
  /-- SWEEP0-SWEEP3 | 4 x 16 bits | R93 | 0 (factory sweep) -/
  sweeps   : List (BitVec 16) := [0, 0, 0, 0]
  /-- WRITES | 32 bits | R93 | DESIGN CHOICE 0 (4) -/
  writes   : BitVec 32 := 0
  /-- HOURS | 48 bits | R93 | DESIGN CHOICE 0 (4) -/
  hours    : BitVec 48 := 0
  /-- SUMS_PROG | 32 bits | R93 | DESIGN CHOICE 0 (4) -/
  sumsProg : BitVec 32 := 0
  /-- trim records keyed 272 * point + converter | 12 bits each | R94 | DESIGN CHOICE 0 (4) -/
  trims    : SMap Trim := []
  /-- column sums keyed 256 * g + j, half-du | 12 bits each | R95 | DESIGN CHOICE 0 (4) -/
  sums     : SMap Int := []
deriving DecidableEq, Repr

/-- New contents of calibration rows in the staging area of flash (R110). -/
structure StagedSet where
  set  : CalSet
  /-- the field corrections are zeroed after the write (R107, R111) -/
  zero : Bool
  /-- the write belongs to a user calibration (R107, R114) -/
  user : Bool
  /-- the set was rebuilt (R111) -/
  rebuilt : Bool := false
  /-- points whose 8 rows are written (R92, R107, R111) -/
  points : Nat := 0
  /-- the 28 rows of column sums are written (R92, R104, R111) -/
  sums : Bool := false
deriving DecidableEq, Repr

/-- The background window of an array (R100, R101). -/
structure CalWindow where
  /-- fired operations in the window | Nat | R100 | 0 -/
  ops      : Nat := 0
  /-- per tally group: sum of conversion residuals | Int | R100 | 0 -/
  residSum : SMap Int := []
  /-- per tally group: number of conversion residuals | Nat | R100 | 0 -/
  residNum : SMap Nat := []
  /-- sum of squares of all conversion residuals | Nat | R101 | 0 -/
  residSq  : Nat := 0
  /-- per column: sum of column code minus shadow code | Int | R100 | 0 -/
  diffSum  : SMap Int := []
  /-- per column: samples | Nat | R100 | 0 -/
  diffNum  : SMap Nat := []
  /-- qualifying slices since the last drift evaluation | Nat | R380 | 0 -/
  slices   : Nat := 0
deriving DecidableEq, Repr

/-- One resident array. -/
structure ArrayS where
  /-- array state | 3-bit code | R57 | Erased (shipped erased, R56) -/
  st        : ArrayStatus := .erased
  /-- weights keyed 256 * row + column | 4 bits each, -7..7 | R22 | 0 (erased) -/
  cells     : SMap Int := []
  /-- tally sums keyed 8 * row + t | -224..224 | R24 | 0 (erased) -/
  tally     : SMap Int := []
  /-- spare column cells keyed 8 * row + k | weight or tally sum | R25 | 0 (erased) -/
  spare     : SMap Int := []
  /-- column map entries 0-7 in force | 16 bits each | R48 | DESIGN CHOICE 0, none mapped (4) -/
  colMap    : SMap (BitVec 16) := []
  /-- column map entries written to flash, taking effect at the array's return | 16 bits each | R47, R49 | none -/
  colMapNew : SMap (BitVec 16) := []
  /-- first cycle after the busy interval of the latest operation, and its partition | claim | R30 | none -/
  busy      : Option Claim := none
  /-- check failures since Dawn | U32 | R59 | 0 -/
  fails     : Nat := 0
  /-- single-pass failures since Dawn | U32 | R59 | 0 -/
  spFails   : Nat := 0
  /-- fired operations since Dawn | U64 | R59 | 0 -/
  fired     : Nat := 0
  /-- last output residual, cu | I32 | R59 | 0x8000_0000 -/
  lastResid : W32 := 0x80000000
  /-- fired-operation count at the latest check failure | Nat | R43 | none -/
  failAt    : Option Nat := none
  /-- fired-operation counts of recent single-pass failures, latest first | list | R43 | empty -/
  spAt      : List Nat := []
  /-- program count, in flash | U32 | R51, R53 | DESIGN CHOICE 0 (4) -/
  progCount : Nat := 0
  /-- program-in-progress marker, in flash | 1 bit | R51 | 0 -/
  marker    : Bool := false
  /-- digest of the image at the last programming, in flash | 384 bits | R518 | none -/
  image     : Option (BitVec 384) := none
  /-- base number | 5 bits | R250 | none (no base) -/
  base      : Option (BitVec 5) := none
  /-- model layers whose weights the array holds | list | R248 | none -/
  layers    : List (BitVec 10) := []
  /-- columns found failed by diagnosis, not yet repaired | 9 bits each | R49 | none -/
  failedCols : List (BitVec 9) := []
  /-- the array waits for its diagnosis | 1 bit | R49 | 0 -/
  diagnosing : Bool := false
  /-- calibration set in the calibration rows | structure | R91 | factory set -/
  cal       : CalSet := {}
  /-- active trim bank by converter 0-271 | offset, gain | R96, R98 | 0 -/
  active    : SMap Trim := []
  /-- shadow trim bank that waits for the next frame boundary | offset, gain | R98 | none -/
  shadow    : Option (SMap Trim) := none
  /-- field corrections by converter | 8 + 8 bits | R99 | 0 (R99 first use) -/
  corr      : SMap Trim := []
  /-- field corrections last saved to flash | 8 + 8 bits | R99 | 0 -/
  corrSaved : SMap Trim := []
  /-- temperature last used for trims, 1/16 degree C | Int | R97, R116 | DESIGN CHOICE none (4) -/
  trimTemp  : Option Int := none
  /-- converters clamped under R96 | list of converter numbers | R96, R113 | none -/
  untrim    : List Nat := []
  /-- background window | structure | R100 | empty -/
  win       : CalWindow := {}
  /-- next column to be shadowed | 0-255 | R100 | 0 -/
  shadowCol : Nat := 0
  /-- consecutive unresolved windows by tally group | Nat | R100 | 0 -/
  unresRun  : SMap Nat := []
  /-- unresolved windows since Dawn | U32 | R115 | 0 -/
  unres     : Nat := 0
  /-- windows completed since Dawn | U64 | R115 | 0 -/
  windows   : Nat := 0
  /-- group residual means of the latest window, 1/256 LSB | 8 x I16 | R115 | DESIGN CHOICE 0 (4) -/
  means     : SMap Int := []
  /-- quality figure, 1/256 LSB | U16 | R101 | 0xFFFF -/
  quality   : BitVec 16 := 0xFFFF
  /-- quality figure is a held value | 1 bit | R101 | 0 -/
  stale     : Bool := false
  /-- the full calibration that runs | reason | R104, R106 | none -/
  running   : Option CalWhy := none
  /-- stage 1-5 of the running full calibration | 0 if none | R104 | 0 -/
  stage     : Nat := 0
  /-- calibration slots used in the current stage | Nat | R104 | 0 -/
  stageSlots : Nat := 0
  /-- converter under stage 2, detached from its bitline | converter number | R105 | none -/
  detached  : Option Nat := none
  /-- full calibration suspended by a withdrawal or repair | 1 bit | R50 | 0 -/
  suspended : Bool := false
  /-- rows and headers staged in flash while they are written, oldest first | list | R110 | none -/
  staging   : List StagedSet := []
  /-- the set is being rebuilt: 0 no, 1 not yet written, 2 written and waiting for the array's return | 0-2 | R111 | 0 -/
  rebuild   : Nat := 0
  /-- calibration slots given in the current run of 1,024 frames | Nat | R103 | 0 -/
  slots     : Nat := 0
  /-- calibration slots of the latest whole run of 1,024 frames, until a shortfall of it is counted | Nat | R103 | none -/
  slotsRun  : Option Nat := none
  /-- calibration slots since Dawn, for the probe in every 256 | Nat | R381 | 0 -/
  slotsAll  : Nat := 0
  /-- result of the latest probe since the last drift evaluation | fails? | R381 | none -/
  probe     : Option Bool := none
  /-- a drift evaluation waits for the next probe | 1 bit | R381 | 0 -/
  awaitProbe : Bool := false
  /-- operating hours at the end of the last full calibration | U64 | R114 | DESIGN CHOICE 0 (4) -/
  lastFull  : Nat := 0
deriving DecidableEq, Repr

/-! ## Tiles -/

/-- The status word of an accumulator or transit result register (R46). -/
structure StatusWord where
  /-- MODE | 3 bits | R46 | 0 -/
  mode     : BitVec 3 := 0
  /-- ARRAY | 4 bits | R46 | 0 -/
  array    : BitVec 4 := 0
  /-- ZERO | 1 bit | R46 | 0 -/
  zero     : Bool := false
  /-- TALLY_FAIL | 1 bit | R46 | 0 -/
  tallyFail : Bool := false
  /-- SAT | 1 bit | R46 | 0 -/
  sat      : Bool := false
  /-- ACC_SAT | 1 bit | R46 | 0 -/
  accSat   : Bool := false
  /-- WIDENED | 1 bit | R46 | 0 -/
  widened  : Bool := false
  /-- STALE | 1 bit | R46 | 0 -/
  stale    : Bool := false
  /-- TALLY_FAIL_MASK | 8 bits | R46 | 0 -/
  failMask : BitVec 8 := 0
  /-- SAT_MASK | 8 bits | R46 | 0 -/
  satMask  : BitVec 8 := 0
deriving DecidableEq, Repr

/-- A bank accumulator register or transit result register (R34, R139, R252, R336). -/
structure AccReg where
  /-- partition tag | 8 bits | R252 | 0xFE -/
  tag    : Tag := 0xFE
  /-- 256 values by lane | 32 bits each | R34 | 0 -/
  vals   : SMap W32 := []
  /-- status word | 32 bits | R46 | 0 -/
  status : StatusWord := {}
  /-- predicted sums by lane group | 8 x 64 bits | R336 | 0 -/
  pred   : SMap Int := []
  /-- windows by lane group, cu | 8 x Nat | R336 | 0 -/
  win    : SMap Nat := []
  /-- single-pass content: no prediction travels with it | 1 bit | R336 | 0 -/
  noPred : Bool := false
deriving DecidableEq, Repr

/-- A feed buffer (R27, R180). -/
structure FeedBuf where
  /-- partition tag | 8 bits | R27 | 0xFE -/
  tag  : Tag := 0xFE
  /-- segments 0-3 | one line each | R180 | 0 -/
  segs : SMap Line := []
deriving DecidableEq, Repr

/-- Where a line of a transit half was loaded from (R136, R140). -/
inductive LineFrom where
  | nowhere
  /-- a scratchpad line of a retained block -/
  | pad (line : Nat)
  /-- a line of the data space -/
  | stack (line : Nat)
deriving DecidableEq, Repr

/-- A half of the transit array (R135). -/
structure Half where
  /-- partition tag | 8 bits | R135 | 0xFE -/
  tag     : Tag := 0xFE
  /-- weight format, 0 UX4, 1 UX8 | 1 bit | R181 | 0 -/
  wfmt    : Bool := false
  /-- LOADING, with the load entry whose WAIT ends it | entry | R136 | none -/
  loading : Option Nat := none
  /-- contents by line 0-255 | 128 bytes each | R135 | 0 -/
  lines   : SMap Line := []
  /-- check bits of the 16 words of each loaded line, word 0 first | 8 bits each | R135 | none loaded -/
  check   : SMap (List (BitVec 8)) := []
  /-- digital tallies keyed 8 * row + group of 32 columns, as the load port computed them | 16 bits each | R135 | 0 -/
  tally   : SMap (BitVec 16) := []
  /-- where each line of the half was loaded from | LineFrom | R140 | nowhere -/
  origin  : SMap LineFrom := []
  /-- the latest TLOAD into the half, one line a cycle from its issue on: frame, cycle, block | R136, R138 | none -/
  copy    : Option (Nat × Nat × Nat) := none
  /-- contents in doubt: the half is reloaded before the replay | 1 bit | R140, R200 | 0 -/
  doubt   : Bool := false
deriving DecidableEq, Repr

/-- An operation issued and not yet readable. -/
structure PendOp where
  /-- resident (true) or transit (false) -/
  resident : Bool
  /-- array within the tile, 16 * bank + array; for a transit operation the HALF field -/
  unit     : Nat
  mode     : BitVec 3
  dir      : Bool
  infmt    : Bool
  rge      : BitVec 4
  reg      : Nat
  acc      : Bool
  tag      : Tag
  stream   : BitVec 3
  iaddr    : Nat
  /-- latched feed segments (R27) -/
  input    : SMap Line
  /-- frame of issue and cycle of result readable, counted in schedule cycles from the start of that frame -/
  frame    : Nat
  ready    : Nat
  /-- a calibration slot (CAL), which writes no register -/
  isCal    : Bool
  /-- the result is void: the partition aborted (R198) -/
  void     : Bool
  /-- the halves of a transit operation as they stood when it issued: the weights it runs on (R138, R139) -/
  halves   : Option (Half × Half) := none
deriving DecidableEq, Repr

/-- A block-table entry (R122) and the block's power-up (R124). -/
structure Block where
  /-- POWERED | 1 bit | R122 | 0 -/
  powered  : Bool := false
  /-- CLASS, true retained | 1 bit | R122 | 0 activation -/
  retained : Bool := false
  /-- TAG | 8 bits | R122 | 0xFE -/
  tag      : Tag := 0xFE
  /-- frame in which the power-up ends, while the block powers up | frame | R124 | none -/
  powerAt  : Option Nat := none
  /-- lines zeroed so far, while the block is being zeroed | 0-256 | R124 | none -/
  zeroed   : Option Nat := none
  /-- frame in whose dusk its latest 16 lines were zeroed | frame | R124 | none -/
  zeroAt   : Option Nat := none
deriving DecidableEq, Repr

/-- A credit-table entry, also the form of a writer's mirror (R130). -/
structure Credit where
  /-- LIVE | 1 bit | R130 | 0 -/
  live   : Bool := false
  /-- ANY | 1 bit | R130 | 0 -/
  any    : Bool := false
  /-- WRITER | 9 bits | R130 | 0 -/
  writer : TileNo := 0
  /-- TAG | 8 bits | R130 | 0xFE -/
  tag    : Tag := 0xFE
  /-- BASE | 12 bits | R130 | 0 -/
  base   : BitVec 12 := 0
  /-- COUNT | 7 bits | R130 | 0 -/
  count  : BitVec 7 := 0
  /-- REMAIN | 7 bits | R130 | 0 -/
  remain : BitVec 7 := 0
deriving DecidableEq, Repr

/-- The quantiser configuration of a stream (R183). -/
structure QCfg where
  fmt   : Bool := false
  glog  : BitVec 3 := 0
  sr    : Bool := false
  floor : BitVec 8 := 0
  cap   : BitVec 8 := 0
  laneLine : BitVec 12 := 0
  lanes : Bool := false
deriving DecidableEq, Repr

/-- A burst issued to the quantiser whose group is not yet whole (R183). -/
structure QBurst where
  /-- 128 inputs, FP32 -/
  input  : List W32
  /-- 128 stream words when SR is 1 (R79) -/
  words  : List W32
  vd     : Nat
  line   : Nat
  upper  : Bool
  /-- position of the burst in its group -/
  index  : Nat
  /-- lane positions, as its QUANT read them from the lane-map line (R119, R183) -/
  lanes  : List Nat
deriving DecidableEq, Repr

/-- A step-program stream (R167). -/
structure Stream where
  /-- TAG | 8 bits | R167 | 0xFE -/
  tag    : Tag := 0xFE
  /-- BASE | 14 bits | R167 | 0 -/
  base   : BitVec 14 := 0
  /-- LAST | 14 bits | R167 | 0 -/
  last   : BitVec 14 := 0
  /-- ENTRY_COVER | 14 bits | R167 | 0 -/
  cover  : BitVec 14 := 0
  /-- ENTRY_NORMAL | 14 bits | R167 | 0 -/
  normal : BitVec 14 := 0
  /-- base table by entry 0-63 | 33 bits each | R167 | 0 (written at load) -/
  table  : SMap (BitVec 33) := []
  /-- base registers 0-7 | 33 bits each | R167 | DESIGN CHOICE 0 (4) -/
  bregs  : SMap (BitVec 33) := []
  /-- time of the latest BASE of each base register and the value before it, which an instruction of the same cycle still
  uses | stamp, 33 bits | R192 | none -/
  bregOld : SMap (Option (Stamp × BitVec 33)) := []
  /-- mask registers 0-7 | 64 bits each | R167 | DESIGN CHOICE 0 (4) -/
  masks  : SMap W64 := []
  /-- issue stamps of the latest MASK of each mask register | stamp | R174 | none -/
  maskAt : SMap (Option Stamp) := []
  /-- layer register | 10 bits | R167 | DESIGN CHOICE 0 (4) -/
  layer  : BitVec 10 := 0
  /-- quantiser configuration | structure | R183 | DESIGN CHOICE 0 (4) -/
  qcfg   : QCfg := {}
  /-- bursts of a quantisation group that is not yet whole, in issue order | list | R64, R183 | none -/
  qpend  : List QBurst := []
  /-- address of the next instruction, relative to BASE | Nat | R168 | 0 -/
  pc     : Nat := 0
  /-- schedule cycle reached in the current frame block | Nat | R174 | 0 -/
  reached : Nat := 0
  /-- a branch was taken at this cycle of the current frame | cycle | R174 | none -/
  branch : Option Nat := none
  /-- frame in which the current or next frame block issues; none: not stepping | frame | R168 | none -/
  block  : Option Nat := none
  /-- END issued in this frame with this GAP | frame, GAP | R168 | none -/
  ended  : Option (Nat × Nat) := none
  /-- words in use | Nat | R212 | 0 -/
  words  : Nat := 0
deriving DecidableEq, Repr

/-- The states of a queue entry (R193). -/
inductive QState where
  | free | issued | complete
deriving DecidableEq, Repr

/-- A decoupling queue entry (R193). -/
structure QEntry where
  /-- entry state | 2 bits | R193 | Free -/
  st     : QState := .free
  /-- partition of the request | 8 bits | R193 | 0xFE -/
  tag    : Tag := 0xFE
  /-- stream that issued it | 3 bits | R193 | 0 -/
  stream : BitVec 3 := 0
  /-- destination is a transit half (LOAD DEST 1) | 1 bit | R187 | 0 -/
  toHalf : Option Bool := none
  /-- WFMT that the half takes with its first beat | 1 bit | R136, R187 | 0 -/
  wfmt   : Bool := false
  /-- first scratchpad line or line of the half | Nat | R187 | 0 -/
  line   : Nat := 0
  /-- lines asked for | 1-64 | R187 | 0 -/
  lines  : Nat := 0
  /-- lines landed (load), or drained (store) | Nat | R193 | 0 -/
  done   : Nat := 0
  /-- store lines acknowledged | Nat | R187 | 0 -/
  acked  : Nat := 0
  /-- first stack line (LOAD, STORE) | Nat | R187 | 0 -/
  addr   : Nat := 0
  /-- epoch, changed at an abort | Nat | R200 | 0 -/
  epoch  : Nat := 0
  /-- real cycle since Dawn in which the entry became Complete | Nat | R194 | 0 -/
  doneAt : Nat := 0
deriving DecidableEq, Repr

/-- The error record of a bank row (R127). -/
structure RowErr where
  /-- distinct bit positions corrected | list | R127 | none -/
  bits   : List Nat := []
  /-- corrections in all | Nat | R127 | 0 -/
  count  : Nat := 0
  /-- frames of parity errors | list | R127 | none -/
  parity : List Nat := []
  /-- spare row the row is mapped to | spare | R127 | none -/
  mapped : Option Nat := none
deriving DecidableEq, Repr

/-- A narrow access of the current frame that the narrow port has to serve (R119, R121). -/
structure NarrowUse where
  /-- issue cycle -/
  cycle  : Nat
  /-- issue port (R173) -/
  port   : Nat
  bank   : Nat
  tag    : Tag
  stream : BitVec 3
  iaddr  : BitVec 14
deriving DecidableEq, Repr

/-- A beat of the queues or a remote-read response that took a free cycle of the wide port (R120, R121). -/
structure FillUse where
  /-- real cycle since Dawn -/
  time  : Nat
  /-- schedule cycle counted from the start of the current frame, negative in the frame before; none during a hold -/
  cycle : Option Int
  bank  : Nat
  /-- the load entry that a fill serves, which keeps 8 cycles between two beats in one bank; none for a read -/
  entry : Option Nat
deriving DecidableEq, Repr

/-- The latest fault report of a source (R155, R206). -/
structure Report where
  /-- real cycle since Dawn -/
  time  : Nat
  code  : BitVec 8
  word  : BitVec 256
deriving DecidableEq, Repr

/-- One tile. -/
structure Tile where
  /-- feed buffers 0-63 | R27 each | R117, R180 | zero, tag 0xFE -/
  feeds   : SMap FeedBuf := []
  /-- accumulator registers 16 * bank + reg | AccReg | R34 | zero, tag 0xFE -/
  regs    : SMap AccReg := []
  /-- transit result registers 0-3 | AccReg | R139 | zero, tag 0xFE -/
  tregs   : SMap AccReg := []
  /-- operations not yet readable, oldest first | queue | R30, R137 | none -/
  ops     : List PendOp := []
  /-- transit half A | Half | R135 | tag 0xFE -/
  halfA   : Half := {}
  /-- transit half B | Half | R135 | tag 0xFE -/
  halfB   : Half := {}
  /-- first cycle after the transit array's busy interval, and its partition | claim | R137 | none -/
  tbusy   : Option Claim := none
  /-- block table 0-11 | Block | R122 | free, unpowered -/
  blocks  : SMap Block := []
  /-- credit table 0-15 | Credit | R130 | not live -/
  credits : SMap Credit := []
  /-- mirrors of credits granted to this tile, with owner tile and entry | list | R130 | none -/
  mirrors : List (Nat × Nat × Credit) := []
  /-- stream descriptors 0-7 | Stream | R167 | tag 0xFE -/
  streams : SMap Stream := []
  /-- program store by word 0-16383 | 64 bits each | R166 | DESIGN CHOICE 0 (4) -/
  store   : SMap W64 := []
  /-- the store waits for its reload after an uncorrectable word | 1 bit | R205 | 0 -/
  reload  : Bool := false
  /-- the copy of the store's words in granules 5-6 of the stacks | 64 bits each | R518 | none -/
  storeCopy : SMap W64 := []
  /-- the copy of the stream descriptors in granules 5-6 of the stacks | Stream | R518 | none -/
  descCopy : SMap Stream := []
  /-- vector registers keyed 64 * r + lane | 32 bits each | R133 | DESIGN CHOICE 0 (4) -/
  vregs   : SMap W32 := []
  /-- long accumulators keyed 64 * r + lane | 64 bits each | R133 | DESIGN CHOICE 0 (4) -/
  laccs   : SMap (BitVec 64) := []
  /-- load entries 0-63 | QEntry | R193 | Free -/
  loads   : SMap QEntry := []
  /-- store entries 0-31 | QEntry | R193 | Free -/
  stores  : SMap QEntry := []
  /-- latest issue of each port 0-10 | claim | R174 | none -/
  ports   : SMap (Option Claim) := []
  /-- wide-port cycles taken in the current frame, with the bank used | list | R120, R121 | none -/
  wide    : List (Nat × Nat) := []
  /-- wide-port cycles taken by queue traffic and remote reads | list | R120, R121 | none -/
  fills   : List FillUse := []
  /-- narrow accesses of the current frame | list | R119, R121 | none -/
  narrow  : List NarrowUse := []
  /-- narrow writes not yet visible: visible cycle, word, data | list | R119 | none -/
  narrowW : List (Nat × Nat × W64) := []
  /-- SECDED corrections since Dawn | U64 | R142 | 0 -/
  corrected : Nat := 0
  /-- parity errors since Dawn | U32 | R142 | 0 -/
  parityErrs : Nat := 0
  /-- spare rows used by bank 0-15 | U8 each | R118, R142 | DESIGN CHOICE 0 (4) -/
  spareRows : SMap Nat := []
  /-- row error records keyed 192 * bank + row | RowErr | R127 | none -/
  rowErrs : SMap RowErr := []
  /-- rows past their threshold, in order | queue | R127 | empty -/
  awaiting : List Nat := []
  /-- rows copied in this dusk, mapped at the next boundary | list | R127 | empty -/
  mapping : List (Nat × Nat) := []
  /-- lines to be written back corrected in dusk | queue | R126 | empty -/
  writeBack : List Nat := []
  /-- port conflicts since Dawn | U32 | R142 | 0 -/
  conflicts : Nat := 0
  /-- credit violations since Dawn | U32 | R142 | 0 -/
  violations : Nat := 0
  /-- transit check failures since Dawn | U32 | R142 | 0 -/
  transitFails : Nat := 0
  /-- the latest fault report | Report | R206 | none -/
  reported : Option Report := none
  /-- program engine: arrays still to be programmed, in order | queue | R51 | empty -/
  progQueue : List ArrayNo := []
  /-- array the program engine works on | array | R51 | none -/
  progNow   : Option ArrayNo := none
  /-- calibration unit: arrays with a priority request, in order of arrival | queue | R106 | empty -/
  calPrio   : List Nat := []
  /-- calibration unit: arrays with a user calibration, and its point | queue | R106, R107 | empty -/
  calUser   : List (Nat × BitVec 2) := []
  /-- calibration unit: arrays due in the rotation, rising | list | R106 | empty -/
  calRot    : List Nat := []
  /-- array under full calibration | array | R106 | none -/
  calNow    : Option ArrayNo := none
  /-- remote-read requests waiting for a wide cycle: requester, entry, line, tag, epoch | queue | R132 | empty -/
  remote    : List (Nat × Nat × Nat × Tag × Nat) := []
  /-- real cycle since Dawn of the latest remote line served | Nat | R132 | none -/
  served    : Option Nat := none
deriving DecidableEq, Repr

/-! ## Mesh -/

/-- A scheduled flit in flight (R145, R147). -/
structure Flit where
  /-- KIND 0b01: add -/
  add     : Bool
  src     : TileNo
  dest    : TileNo
  port    : BitVec 2
  line    : BitVec 12
  tag     : Tag
  xfer    : BitVec 8
  count   : Nat
  res     : Nat
  plane   : Bool
  data    : Line
  /-- issue frame and cycle -/
  frame   : Nat
  sent    : Nat
  /-- outputs claimed so far -/
  hop     : Nat
  /-- the sending tiles of the other flits that routers added into it (R152) -/
  others  : List TileNo := []
  /-- it comes from a register transfer (SENDR) -/
  reg     : Bool := false
  /-- the issuing tile relied on a credit with ANY = 1 -/
  anyc    : Bool
  /-- prediction and window put on the digest tree for this flit (R336), with the value sum it predicts -/
  pred    : Option (Int × Nat)
  stream  : BitVec 3
  /-- aborted: the flit's landing is void (R198) -/
  void    : Bool
deriving DecidableEq, Repr

/-- What a router output keeps of a scheduled flit that it carried (R149). -/
structure FlitUse where
  cycle  : Nat
  tag    : Tag
  xfer   : BitVec 8
  stream : BitVec 3
deriving DecidableEq, Repr

/-- What an unscheduled or queue flit carries (R148). -/
inductive MeshMsg where
  /-- 0x01 credit grant to the writer tile -/
  | grant (entry : Nat) (c : Credit)
  /-- 0x02 credit revoke to the writer tile -/
  | revoke (entry : Nat)
  /-- 0x03 fault report -/
  | fault (w : BitVec 256)
  /-- 0x08 remote read request: the requester's load entry, owner line -/
  | readReq (entry : Nat) (line : Nat) (epoch : Nat)
  /-- 0x09 remote read response -/
  | readResp (entry : Nat) (line : Line) (epoch : Nat)
  /-- 0x0C management request: bits [127:0] of its line (R449) -/
  | mgmtReq (w : BitVec 128)
  /-- 0x0D management response: bits [127:0] of its line (R449) -/
  | mgmtResp (w : BitVec 128)
  /-- 0x10 load request for consecutive stack lines of one unit: the load entry, the place of the first line in it, stack address and
  length, and the lines that the unit has served -/
  | loadReq (entry : Nat) (index : Nat) (addr : Nat) (lines : Nat) (done : Nat) (epoch : Nat)
  /-- 0x11 load data -/
  | loadData (entry : Nat) (index : Nat) (data : Line) (epoch : Nat)
  /-- 0x12 store data -/
  | storeData (entry : Nat) (addr : Nat) (data : Line) (epoch : Nat)
  /-- 0x13 store acknowledge -/
  | storeAck (entry : Nat) (epoch : Nat)
deriving DecidableEq, Repr

/-- The channels of unscheduled and queue traffic (R154). -/
inductive Chan where
  | vc0 | vc1 | vc2 | vc3 | qreq | qresp
deriving DecidableEq, Repr

/-- A queue or unscheduled flit in flight (R147, R148). -/
structure Msg where
  /-- the router it was injected at -/
  src  : Nat
  /-- DEST_TILE -/
  dest : Nat
  /-- DEST_PORT -/
  port : Nat
  /-- TAG -/
  tag  : Tag
  /-- XFER: its sequence number, modulo 256 -/
  seq  : BitVec 8
  /-- real cycle since Dawn of its injection -/
  time : Nat
  msg  : MeshMsg
deriving DecidableEq, Repr

/-- The counters of a router (R163). -/
structure Router where
  /-- scheduled flits since Dawn | U64 | R163 | 0 -/
  flits   : Nat := 0
  /-- router adds since Dawn | U64 | R163 | 0 -/
  adds    : Nat := 0
  /-- slot collisions since Dawn | U32 | R163 | 0 -/
  collisions : Nat := 0
  /-- header and parity errors since Dawn | U32 | R163 | 0 -/
  errors  : Nat := 0
  /-- dropped flits since Dawn | U32 | R163 | 0 -/
  dropped : Nat := 0
  /-- high-class latency peak | U32 | R163 | 0 -/
  peakHigh : Nat := 0
  /-- low-class latency peak | U32 | R163 | 0 -/
  peakLow : Nat := 0
  /-- queue flits since Dawn | U64 | R163 | 0 -/
  queue   : Nat := 0
deriving DecidableEq, Repr

/-- The mesh. -/
structure Mesh where
  /-- routers 0-511 | counters | R163 | 0 -/
  routers : SMap Router := []
  /-- scheduled flits in flight | list | R145 | none -/
  flits   : List Flit := []
  /-- flits of VC0 in flight, in the order of injection: fault reports | queue | R154 | none -/
  vc0     : List Msg := []
  /-- flits of VC1: credit grants and revokes | queue | R154 | none -/
  vc1     : List Msg := []
  /-- flits of VC2: remote read requests and management requests | queue | R154 | none -/
  vc2     : List Msg := []
  /-- flits of VC3: remote read responses and management responses | queue | R154 | none -/
  vc3     : List Msg := []
  /-- queue requests: load requests and store data | queue | R154 | none -/
  qreq    : List Msg := []
  /-- queue responses: load data and store acknowledges | queue | R154 | none -/
  qresp   : List Msg := []
  /-- next sequence number by 8 * source router + channel | 8 bits | R147 | 0 -/
  seqs    : SMap (BitVec 8) := []
  /-- first real cycle since Dawn at which a source may inject its next flit on VC1, by source router | Nat | R155 | 0 -/
  nextVc1 : SMap Nat := []
  /-- scheduled flits that a router output of a plane carried in this frame, keyed
  14 * router + 7 * plane + output | list of cycle, tag, XFER, stream | R149 | none -/
  used    : SMap (List FlitUse) := []
deriving DecidableEq, Repr

/-! ## Memory stacks and engines -/

/-- A stack and its controller (R213, R242). -/
structure Stack where
  /-- state: 0 training, 1 in service, 2 failed | 2 bits | R242 | 0 -/
  st      : Nat := 0
  /-- corrected words | U64 | R242 | 0 -/
  corrected : Nat := 0
  /-- rebuilt lines | U64 | R242 | 0 -/
  rebuilt : Nat := 0
  /-- poisoned lines | U32 | R242 | 0 -/
  poisoned : Nat := 0
  /-- temperature report, degree C | I32 | R242 | 0x8000_0000 (R527) -/
  temp    : W32 := 0x80000000
  /-- bytes read by the generation engine | U64 | R242 | 0 -/
  engBytes : Nat := 0
  /-- bytes moved by queue traffic | U64 | R242 | 0 -/
  qBytes  : Nat := 0
  /-- frames of uncorrectable words | list | R218 | none -/
  uncorr  : List Nat := []
deriving DecidableEq, Repr

/-- A job of a generation or prompt engine (R232, R237). -/
structure Job where
  /-- OP 1 attend, 2 append, 3 chunk attend, 4 bulk append -/
  op     : Nat
  tag    : Tag
  stream : Nat
  n      : Nat
  g      : Nat
  scale  : W32
  window : Nat
  qpos   : Nat
  rslot  : Nat
  qaddr  : Nat
  raddr  : Nat
  /-- XFER of its descriptor flit, its slot owner tag with the partition's (R147) -/
  xfer   : BitVec 8
  /-- input slots the job holds -/
  slots  : List Nat
  /-- query or entry lines, copied at start -/
  input  : List Line
  /-- aborted: results are dropped -/
  void   : Bool
  /-- poisoned or failed: no results -/
  bad    : Bool
deriving DecidableEq, Repr

/-- A result-buffer line with its written flag set, and its partition (R233). -/
structure ResLine where
  tag  : Tag
  /-- XFER of the job that wrote it -/
  xfer : BitVec 8
  data : Line
deriving DecidableEq, Repr

/-- A generation engine 0-15 or prompt engine 16-23. -/
structure Engine where
  /-- input slots holding a line | line and tag | R232 | empty -/
  slots   : SMap (Line × Tag) := []
  /-- waiting jobs, oldest first | queue of 8 or 4 | R232, R237 | empty -/
  waiting : List Job := []
  /-- running job | job | R234 | none -/
  running : Option Job := none
  /-- local buffer of a prompt engine, 8 MiB: the query rows or entries of its running job, from line 0 | 128 bytes each | R237 |
  empty -/
  buffer  : List Line := []
  /-- result lines whose written flag is set | ResLine | R233 | none -/
  results : SMap ResLine := []
deriving DecidableEq, Repr

/-- A context stream descriptor (R226) with its page table (R227), keyed by the descriptor's line address. -/
structure Ctx where
  /-- CDIGEST | 61 bits | R226 | 0 -/
  cdigest   : BitVec 61 := 0
  /-- TAG | 8 bits | R226 | 0xFE -/
  tag       : Tag := 0xFE
  /-- ACCOUNT | 8 bits | R226 | 0 -/
  account   : BitVec 8 := 0
  /-- LAYER | 10 bits | R226 | 0 -/
  layer     : BitVec 10 := 0
  /-- HEAD | 6 bits | R226 | 0 -/
  head      : BitVec 6 := 0
  /-- STATE: 0 free, 1 active, 2 parked, 3 transferring | 2 bits | R226 | 0 -/
  st        : BitVec 2 := 0
  /-- HDIM | 1 bit | R226 | 0 -/
  hdim      : Bool := false
  /-- MAXPAGES | 18 bits | R226 | 0 -/
  maxPages  : BitVec 18 := 0
  /-- PAGES | 18 bits | R226 | 0 -/
  pages     : BitVec 18 := 0
  /-- COMMITTED | 23 bits | R226 | 0 -/
  committed : BitVec 23 := 0
  /-- MIRROR | 13 bits | R226 | 0 -/
  mirror    : BitVec 13 := 0
  /-- PT_ADDR | 33 bits | R226 | 0 -/
  ptAddr    : BitVec 33 := 0
  /-- start stack S0 | 0-15 | R224 | 0 -/
  s0        : Nat := 0
  /-- pending context digest of the step (R229) | 61 bits | R229 | 0 -/
  pendDig   : BitVec 61 := 0
  /-- entries appended and not yet mirror-durable | Nat | R230 | 0 -/
  lag       : Nat := 0
  /-- positions written, next after the highest | Nat | R230 | 0 -/
  written   : Nat := 0
deriving DecidableEq, Repr

/-- The memory stacks, the data space and the engines. -/
structure Memory where
  /-- stacks 0-15 | Stack | R213 | training -/
  stk      : SMap Stack := []
  /-- bytes of the data space in clear, key 128 * line + byte (R448) | 8 bits each | R215 | DESIGN CHOICE 0 before Dawn
  step 5 (3); Dawn step 5 writes zeros (R513) -/
  data     : List Host.Cell := []
  /-- lines written under the owner's key since their granule was tagged, rising | list | R222 | none -/
  written  : List Nat := []
  /-- granule tags 0-959 that are not free | 8 bits each | R219 | 0xFE; 0-7 are 0xFF (R219) -/
  granules : SMap Tag := [(0, 0xFF), (1, 0xFF), (2, 0xFF), (3, 0xFF), (4, 0xFF), (5, 0xFF), (6, 0xFF), (7, 0xFF)]
  /-- granules freed and awaiting zeroing | list | R222 | none -/
  zeroing  : List Nat := []
  /-- parity chunks, keyed 128 * row + line: the XOR of what the written lines of the row hold as ciphertext with what they hold
  while unwritten | 1,024 bits each | R215, R216 | 0 (R513: every line zero under the firmware key) -/
  parity   : SMap Line := []
  /-- key under which the written lines of a granule are stored, where it is not the firmware key | key number | R221 | none -/
  gkeys    : SMap Nat := []
  /-- lines whose rebuild failed: poisoned until they are written or restored from the partner's mirror | lines | R217 | none -/
  lost     : List Nat := []
  /-- memory keys by partition 0-127, 128 firmware: the draw that made the key | key number | R221 | none -/
  keys     : SMap Nat := []
  /-- engines 0-23 | Engine | R231, R237 | empty -/
  engines  : SMap Engine := []
  /-- context stream descriptors by line address | Ctx | R226 | free -/
  ctx      : SMap Ctx := []
  /-- context pages that arrived from the covering partner before their partition was loaded, in the staging granules | queue | R219,
  R274 | empty -/
  held     : List PagesMsg := []
deriving DecidableEq, Repr

/-! ## Partitions, accounts, Ledger -/

/-- Partition states (R246). -/
inductive PState where
  | free | loading | serving | streaming | closing | stopped
deriving DecidableEq, Repr

/-- A pending staged value: the value and its stated frame (R480). -/
structure Staged (α : Type) where
  value : α
  frame : Nat
deriving DecidableEq, Repr

/-- The clearing summary of a step as the rounds combine it (R338). -/
structure Summary where
  part    : BitVec 8 := 0
  step    : BitVec 48 := 0
  attempt : BitVec 8 := 0
  clearOk : Bool := false
  loaded  : Bool := false
  ready   : Bool := false
  learn   : Bool := false
  devices : BitVec 11 := 0
  overflow : Line := 0
  streams : Line := 0
  /-- by account slot: context digest, WORK, MIRROR -/
  accounts : SMap (BitVec 61 × Bool × Bool) := []
deriving DecidableEq, Repr

/-- A started step of a partition (R168, R169). -/
structure StepRun where
  step     : BitVec 48
  attempt  : BitVec 8
  /-- first frame of the step -/
  start    : Nat
  /-- it runs the covering variant -/
  cover    : Bool
  /-- it is a learning step (R265) -/
  learn    : Bool
  /-- recipe in force for the step -/
  recipe   : Line
  /-- layers charged in the step (R83) -/
  overflow : Line
  /-- Clearing points passed and failed so far -/
  clearFail : Bool
  /-- receive entries (link, entry) completed in the step with every check true -/
  passed   : List (Nat × Nat)
  /-- rounds of the summary exchange completed; none before its last Clearing point -/
  rounds   : Option Nat
  summary  : Summary
  /-- partial summaries that arrived ahead of their round -/
  early    : List (Nat × Summary)
  /-- the partition's retained lines as they stood at the step's start, from which R200 restores -/
  retained : List Host.Cell
  /-- the partition's transit halves as they stood at the step's start, keyed 2 * tile + half, from which R200 restores -/
  halves   : SMap Half
  /-- accounts that learn in it -/
  learners : List Nat
  /-- steps since the latest learning step, before it started -/
  since    : Nat
deriving DecidableEq, Repr

/-- An abort of a partition between its notice and its replay (R199). -/
structure AbortS where
  frame   : Nat
  variant : VariantSel
  streams : Line
deriving DecidableEq, Repr

/-- One partition. -/
structure Part where
  /-- state | code | R246 | Free -/
  st        : PState := .free
  /-- state before a stop | code | R246 | Free -/
  before    : PState := .free
  /-- tenant identifier | U32 | R276 | 0 -/
  tenant    : BitVec 32 := 0
  /-- model version in force | U32 | R276 | DESIGN CHOICE 0 (4) -/
  version   : BitVec 32 := 0
  /-- image digest and layout identifier | 384, 32 bits | R305, R518 | 0 -/
  digest    : BitVec 384 := 0
  /-- layout identifier | 32 bits | R305 | 0 -/
  layout    : BitVec 32 := 0
  /-- base | 0-31 | R276 | DESIGN CHOICE 0 (4) -/
  base      : BitVec 5 := 0
  /-- batch slots | U8 | R276 | DESIGN CHOICE 0 (4) -/
  batch     : BitVec 8 := 0
  /-- verify width | U8 | R276 | DESIGN CHOICE 0 (4) -/
  verify    : BitVec 8 := 0
  /-- vocabulary | U32 | R276 | DESIGN CHOICE 0 (4) -/
  vocab     : BitVec 32 := 0
  /-- layers | U16 | R90 | DESIGN CHOICE 0 (4) -/
  layers    : BitVec 16 := 0
  /-- overflow counter base | U16 | R90 | DESIGN CHOICE 0 (4) -/
  ctrBase   : Nat := 0
  /-- recipe in force | 1,024 bits | R84, R90 | DESIGN CHOICE 0 (4) -/
  recipe    : Line := 0
  /-- wide-only bitmap | 1,024 bits | R84 | DESIGN CHOICE 0 (4) -/
  wideOnly  : Line := 0
  /-- layers marked by the widening rule | 1,024 bits | R85 | 0 -/
  marks     : Line := 0
  /-- consecutive clean steps by marked layer | Nat | R85 | 0 -/
  clean     : SMap Nat := []
  /-- running all-wide after a recipe disagreement, with the frame of its abort | frame | R86 | none -/
  wideAt    : Option Nat := none
  /-- recipe due at the next step boundary from the rule | 1,024 bits | R85 | none -/
  nextRecipe : Option Line := none
  /-- staged recipe | 128 bytes with frame | R85, R90 | none -/
  stRecipe  : Option (Staged Line) := none
  /-- widen hold | U32 | R90 | 256 -/
  widenHold : BitVec 32 := 256
  /-- automatic widening | BOOL | R90 | 1 -/
  autoWiden : Bool := true
  /-- steps with overflow | U64 | R90 | 0 -/
  ovfSteps  : Nat := 0
  /-- recipe disagreements | U32 | R90 | 0 -/
  disagree  : Nat := 0
  /-- number of the current step | 48 bits | R169 | 0 -/
  step      : BitVec 48 := 0
  /-- attempt of the current step | 8 bits | R169 | 1 -/
  attempt   : BitVec 8 := 1
  /-- number and attempt of the step that starts next | 48 + 8 bits | R169, R199 | 0, 1 -/
  due       : BitVec 48 × BitVec 8 := (0, 1)
  /-- frames of the latest completed step | U32 | R212 | DESIGN CHOICE 0 (4) -/
  stepFrames : Nat := 0
  /-- aborted attempts since load | U32 | R212 | 0 -/
  aborted   : Nat := 0
  /-- consecutive aborted attempts of the present step | Nat | R201 | 0 -/
  abortRun  : Nat := 0
  /-- overruns suffered | U32 | R212 | 0 -/
  overruns  : Nat := 0
  /-- hold cycles caused | U64 | R212 | 0 -/
  holds     : Nat := 0
  /-- covering variant in force | 1 bit | R212 | 0 normal -/
  cover     : Bool := false
  /-- address of the device covered in the cluster while covering | 10 bits | R272 | none -/
  coverAddr : Option DevAddr := none
  /-- stream bitmap in force | 1,024 bits | R171 | DESIGN CHOICE 0 (4) -/
  streams   : Line := 0
  /-- stream bitmap due at the next step boundary | 1,024 bits | R171 | none -/
  nextStreams : Option Line := none
  /-- compiled delay classes | 11 x U8 | R212 | DESIGN CHOICE none (4) -/
  delays    : List (BitVec 3) := []
  /-- account slots whose transfer to this partition was refused and may still be under way | list | R239 | none -/
  refused   : List Nat := []
  /-- stopped under R201 | BOOL | R212 | 0 -/
  stopped   : Bool := false
  /-- partition steps stop at the next boundary because the pair is lost | 1 bit | R275 | 0 -/
  halt      : Bool := false
  /-- the partition stopped for a loss of frame lock without a backup master and resumes once Dawn completes | 1 bit | R438 | 0 -/
  relock    : Bool := false
  /-- started steps whose summary is not complete, oldest first | list | R169, R199 | none -/
  runs      : List StepRun := []
  /-- frame in which the next step starts | frame | R168 | none -/
  nextStart : Option Nat := none
  /-- abort between notice and replay frame | AbortS | R199 | none -/
  abort     : Option AbortS := none
  /-- the replay frame computed for the latest abort that was replayed | frame | R199 | none -/
  replayed  : Option Nat := none
  /-- next attempt numbers of later steps that were aborted together with the one replayed | step, attempt | R21, R169 | none -/
  tries     : List (BitVec 48 × BitVec 8) := []
  /-- scratchpad blocks that the image names: tile, block, retained | list | R122, R246 | none -/
  blocks    : List (TileNo × BitVec 4 × Bool) := []
  /-- start frame, staged | U64 | R276 | none (0) -/
  startF    : Option Nat := none
  /-- close frame, staged | U64 | R276 | none (all ones) -/
  closeF    : Option Nat := none
  /-- switch frame, staged | U64 | R276 | none (all ones) -/
  switchF   : Option Nat := none
  /-- partition reset, staged | BOOL with frame | R530 | none -/
  resetF    : Option Nat := none
  /-- start frame in force, the latest that took effect | U64 | R276, R480 | none (0) -/
  startIn   : Option Nat := none
  /-- close frame in force | U64 | R276, R480 | none (all ones) -/
  closeIn   : Option Nat := none
  /-- switch frame in force | U64 | R276, R480 | none (all ones) -/
  switchIn  : Option Nat := none
  /-- partition reset in force: one has taken effect | BOOL | R480, R530 | 0 -/
  resetIn   : Bool := false
  /-- a summary or exchange has shown every device loaded | 1 bit | R247 | 0 -/
  allLoaded : Bool := false
  /-- a summary has shown every device ready for the switch | 1 bit | R269 | 0 -/
  allReady  : Bool := false
  /-- a learning request is pending on some device | 1 bit | R265 | 0 -/
  anyLearn  : Bool := false
  /-- this device has finished loading | 1 bit | R247 | 0 -/
  loaded    : Bool := false
  /-- devices whose loading report says loaded | list | R247 | none -/
  loadedDevs : List DevAddr := []
  /-- boundary-exchange rounds done and the partial line 0 | rounds, summary | R339 | none -/
  exchange  : Option (Nat × Summary) := none
  /-- boundary-exchange lines that arrived ahead of their round | list | R339 | none -/
  exchEarly : List (Nat × Summary) := []
  /-- companion partition | U8 | R276 | 0xFE -/
  companion : Tag := 0xFE
  /-- it has taken accounts as a companion | 1 bit | R270 | 0 -/
  hosted    : Bool := false
  /-- the new image that this device has staged | version, digest, granules of the digital copies | R268 | none -/
  staged    : Option StagedImage := none
  /-- replacement: 0 none, 2 programming, 3 ready | U8 | R276 | 0 -/
  repl      : Nat := 0
  /-- a replacement has been written and starts at the next boundary | 1 bit | R268 | 0 -/
  replReq   : Bool := false
  /-- arrays programmed with the new image | U16 | R276 | 0 -/
  programmed : Nat := 0
  /-- learning share | U8 | R276 | 4 -/
  learnShare : BitVec 8 := 4
  /-- learning share written, for the next step boundary | U8 | R276, R479 | none -/
  waitShare : Option (BitVec 8) := none
  /-- widen hold written, for the next step boundary | U32 | R90, R479 | none -/
  waitHold  : Option (BitVec 32) := none
  /-- automatic widening written, for the next step boundary | BOOL | R90, R479 | none -/
  waitAuto  : Option Bool := none
  /-- steps since the latest learning step | Nat | R276 | 0 -/
  sinceLearn : Nat := 0
  /-- the image has a learning variant, adapters, last Clearing point, summary offset, context streams, home devices |
  image facts | R176, R199, R224, R254, R265 | none -/
  hasLearn  : Bool := false
  /-- rank of the adapters that the learning variant makes | 7 bits | R257 | 0 -/
  rank      : BitVec 7 := 0
  /-- lines of one adapter copy | 24 bits | R258 | 0 -/
  adLines   : BitVec 24 := 0
  /-- adapted projections of the image, in image order | list | R257 | none -/
  projs     : List AdapterProj := []
  /-- last Clearing point of a step | 10 bits | R338 | 0 -/
  lastClear : BitVec 10 := 0
  /-- frames from a step's first frame to the completion of its summary, by the image | Nat | R199 | 0 -/
  summaryOff : Nat := 0
  /-- context streams of the shard: layer, head, HD 256 | list | R224 | none -/
  ctx       : List (BitVec 10 × BitVec 6 × Bool) := []
  /-- eligible home devices | list | R254 | none -/
  homes     : List DevAddr := []
  /-- devices that hold state of the partition's accounts | list | R224, R304 | none -/
  holders   : List DevAddr := []
  /-- granules assigned at load | granule numbers | R219, R246 | none -/
  granules  : List Nat := []
  /-- layers of each array of the partition's shard | list | R248 | none -/
  arrays    : List ArrayNo := []
  /-- session quota | U16 | R370 | 32 -/
  quota     : BitVec 16 := 32
  /-- chunks of the partition's granules that hold nothing, as runs: first chunk, length | rising list | R224, R227, R244 | none -/
  chunks    : List (Nat × Nat) := []
  /-- lines of descriptor chunks that hold no descriptor | lines | R226 | none -/
  descs     : List Nat := []
  /-- attend jobs since load | U64 | R244 | 0 -/
  attends   : Nat := 0
  /-- append refusals since load | U32 | R244 | 0 -/
  refusals  : Nat := 0
  /-- parking KEYID | U32 | R472 | 0 -/
  keyid     : BitVec 32 := 0
  /-- parking key in the Vault's sealed store | 256 bits | R463, R465 | DESIGN CHOICE 0 (4) -/
  pkey      : BitVec 256 := 0
  /-- parcels sealed under the parking key | Nat | R306, R309 | 0 -/
  sealed    : Nat := 0
  /-- wrapping keys read: UOA session, draw, and real cycle of the read | list | R465 | none -/
  wrapKeys  : List (BitVec 32 × Nat × Nat) := []
deriving DecidableEq, Repr

/-- Account states (R255). -/
inductive AState where
  | free | active | parking | restoring | transferring
deriving DecidableEq, Repr

/-- One account slot. -/
structure Account where
  /-- state | code | R255 | Free -/
  st        : AState := .free
  /-- account identifier | U64 | R277 | DESIGN CHOICE 0 (4) -/
  ident     : BitVec 64 := 0
  /-- partition | U8 | R277 | 0xFE -/
  part      : Tag := 0xFE
  /-- home device | 10 bits | R277 | DESIGN CHOICE 0 (4) -/
  home      : DevAddr := 0
  /-- batch slot of its partition | number | R254 | none -/
  batch     : Option Nat := none
  /-- seed | U64 | R277 | DESIGN CHOICE 0 (4) -/
  seed      : BitVec 64 := 0
  /-- committed tokens since open | U64 | R277 | 0 -/
  tokens    : Nat := 0
  /-- pinned version | U32 | R277 | 0 -/
  pinned    : BitVec 32 := 0
  /-- draft length | U8 | R277, R526 | 2 -/
  draft     : Nat := 2
  /-- draft length after the latest committed step, to which an abort returns | U8 | R261, R294 | 2 -/
  draftC    : Nat := 2
  /-- draft cap | U8 | R277 | 16 -/
  cap       : Nat := 16
  /-- temperature | F32 | R277 | 1.0 -/
  tau       : W32 := 0x3F800000
  /-- top-k | U16 | R277 | 0 -/
  topk      : BitVec 16 := 0
  /-- top-p | F32 | R277 | 1.0 -/
  topp      : W32 := 0x3F800000
  /-- written settings that wait for the next step boundary: pinned, cap, tau, K, pi | values | R479 | none -/
  waitPin   : Option (BitVec 32) := none
  /-- waiting draft cap | U8 | R479 | none -/
  waitCap   : Option Nat := none
  /-- waiting temperature | F32 | R479 | none -/
  waitTau   : Option W32 := none
  /-- waiting top-k | U16 | R479 | none -/
  waitK     : Option (BitVec 16) := none
  /-- waiting top-p | F32 | R479 | none -/
  waitP     : Option W32 := none
  /-- drafts proposed, committed steps | U64 | R277 | 0 -/
  proposed  : Nat := 0
  /-- drafts accepted, committed steps | U64 | R277 | 0 -/
  accepted  : Nat := 0
  /-- committed position | 32 bits | R278 | 0 -/
  pos       : BitVec 32 := 0
  /-- last committed token | 32 bits | R278 | 0 -/
  lastTok   : W32 := 0
  /-- position and token fed to the next step, committed or not | position, token | R260, R294 | 0 -/
  fedPos    : BitVec 32 := 0
  /-- token fed to the next step | 32 bits | R260 | 0 -/
  fedTok    : W32 := 0
  /-- LSN of the latest commit | U64 | R310 | 0 -/
  lastLsn   : BitVec 64 := 0
  /-- running submission: session, SSN | U64 | R310 | none -/
  running   : Option (SessNo × BitVec 32) := none
  /-- expired, cancelled, parks | U32 each | R310 | 0 -/
  expired   : Nat := 0
  /-- cancelled | U32 | R310 | 0 -/
  cancelled : Nat := 0
  /-- parks | U32 | R310 | 0 -/
  parks     : Nat := 0
  /-- adapter RANK | 7 bits | R258 | 0 -/
  rank      : BitVec 7 := 0
  /-- adapter AGEN | 32 bits | R258 | 0 -/
  agen      : BitVec 32 := 0
  /-- adapter ADIGEST | 61 bits | R258 | 0 -/
  adigest   : BitVec 61 := 0
  /-- adapter CUR | 1 bit | R258 | 0 -/
  cur       : Bool := false
  /-- adapter SIZE | 24 bits | R258 | 0 -/
  asize     : BitVec 24 := 0
  /-- first chunk of the adapter's place: its descriptor line, then copies 0 and 1 | chunk | R258 | none -/
  abase     : Option Nat := none
  /-- the copy that is not committed holds the newest generation | 1 bit | R258, R267 | 0 -/
  anew      : Bool := false
  /-- learning pending | BOOL | R277 | 0 -/
  learnPend : Bool := false
  /-- learning steps committed | U32 | R277 | 0 -/
  learned   : Nat := 0
  /-- context transfers completed | U32 | R243 | 0 -/
  transfers : Nat := 0
  /-- release position acknowledged by the host since the last event | 32 bits | R362, R364 | none -/
  relpos    : Option (BitVec 32) := none
  /-- becomes Active at the next step boundary after its Open is Completed | 1 bit | R555 | 0 -/
  opening   : Bool := false
  /-- parts sealed of a running park; parts passed of a running restore | list | R304, R307 | none -/
  parts     : List (BitVec 16) := []
  /-- export windows that hold its parcels on this device | window indexes | R304 | none -/
  exports   : List Nat := []
  /-- parts a restore names, with device | list | R307 | none -/
  restParts : List RestorePart := []
  /-- seed and settings that a restore takes from its parcels at durability | report | R307 | none -/
  restored  : Option RestoreReport := none
  /-- outcome of the latest Mint run, not yet in Escrow | outcome | R262 | none -/
  minted    : Option Outcome := none
  /-- chosen by a transfer for a companion | 1 bit | R270 | 0 -/
  companion : Bool := false
deriving DecidableEq, Repr

/-- Submission states (R287). -/
inductive SubState where
  | accepting | accepted | running | completed
deriving DecidableEq, Repr

/-- A held submission: one line of the submission table (R278, R285, R287). -/
structure Sub where
  sess     : SessNo
  ssn      : BitVec 32
  /-- LSN of its Accept record -/
  lsn      : BitVec 64
  st       : SubState
  subkind  : BitVec 4
  account  : Option SlotNo
  part     : PartNo
  ident    : BitVec 64
  deadline : BitVec 64
  maxtok   : BitVec 32
  endtok   : W32
  aframe   : BitVec 64
  pdigest  : BitVec 61
  /-- prompt tokens, or the learning range -/
  payload  : List W32
  open_    : Option OpenBody
  parts    : List RestorePart
  /-- tokens committed for it -/
  tokens   : Nat
  /-- LSN of its Complete record, once assigned -/
  doneLsn  : Option (BitVec 64)
  status   : BitVec 8
  late     : Bool
  step     : BitVec 48
  /-- LSN of its Cancel record, once written -/
  cancelLsn : Option (BitVec 64)
  /-- it stands in the Ledger of the covered device (R298) -/
  covered  : Bool
  /-- it came on a session of this device, not on one of the covered device -/
  here     : Bool
  /-- prompt entries already appended by committed chunks -/
  fed      : Nat
  /-- PADDR and PLINES: where its payload lies -/
  paddr    : Nat
  plines   : Nat
  /-- its line of the submission table, 0-16383 (R278) -/
  line     : Nat := 0
deriving DecidableEq, Repr

/-- A record of the journal with its durability (R281). -/
structure JRec where
  r       : LRecord
  /-- frame of the LSN assignment -/
  frame   : Nat
  locally : Bool
  acked   : Bool
  /-- its effects have taken place -/
  applied : Bool
deriving DecidableEq, Repr

/-- The Ledger of this device and the replica it keeps (R278). -/
structure Ledger where
  /-- journal, oldest first | records | R279 | empty -/
  journal  : List JRec := []
  /-- next LSN | 64 bits | R279 | 0 (R517) -/
  nextLsn  : BitVec 64 := 0
  /-- highest durable LSN | U64 | R309 | DESIGN CHOICE none (4) -/
  durable  : Option (BitVec 64) := none
  /-- highest replicated LSN | U64 | R309 | DESIGN CHOICE none (4) -/
  replicated : Option (BitVec 64) := none
  /-- checkpoint LSN | U64 | R309 | DESIGN CHOICE 0 (4) -/
  checkpoint : BitVec 64 := 0
  /-- submission table | held submissions | R278, R284 | empty -/
  subs     : List Sub := []
  /-- replica of the partner's Ledger | records | R278, R281 | empty -/
  replica  : List LRecord := []
  /-- next LSN of the covered device's Ledger while covering | 64 bits | R298 | 0 -/
  coveredNext : BitVec 64 := 0
  /-- records kept for the covered device while covering | records | R298 | empty -/
  covered  : List JRec := []
  /-- mode: 0 paired, 1 covering for partner, 2 recovering | U8 | R309 | DESIGN CHOICE 2 (4) -/
  mode     : Nat := 2
  /-- busy refusals | U64 | R309 | 0 -/
  busy     : Nat := 0
  /-- duplicates answered | U64 | R309 | 0 -/
  dups     : Nat := 0
  /-- stale and gap responses | U64 | R309 | 0 -/
  staleGap : Nat := 0
  /-- commits | U64 | R309 | 0 -/
  commits  : Nat := 0
  /-- Escrow drops | U64 | R309 | 0 -/
  drops    : Nat := 0
  /-- replication failures | U32 | R309 | 0 -/
  replFails : Nat := 0
  /-- records of this device's Ledger that a copy from the partner has brought so far | records | R299 | empty -/
  copyIn   : List LRecord := []
  /-- the Ledgers have been sent to the returning device, which now takes each new record | 1 bit | R299 | 0 -/
  copied   : Bool := false
  /-- a weight switch has taken place since covering began, so a returning device's shard copies are old | 1 bit | R522 | 0 -/
  switched : Bool := false
  /-- the partner recovers its Ledger: its next record need not follow the replica's last LSN | 1 bit | R281, R300 | 0 -/
  restart  : Bool := false
  /-- restore failures | U32 | R309 | 0 -/
  restFails : Nat := 0
  /-- Escrow by account slot: partition, outcome, and the LSN of its record once assigned | outcome | R289, R294 | empty -/
  escrow   : SMap (PartNo × Outcome × Option (BitVec 64)) := []
  /-- complete clearing summaries the Ledger may use, latest last | list | R338, R291 | none -/
  sums     : List Summary := []
  /-- highest LSN saved in flash at the last orderly shutdown | 64 bits | R517, R528 | none -/
  savedLsn : Option (BitVec 64) := none
  /-- step 9 has recorded that it waits for the partner | 1 bit | R517 | 0 -/
  waited   : Bool := false
  /-- write position: lines written to the journal ring | Nat | R278 | 0 -/
  jpos     : Nat := 0
  /-- write position of the replica's ring | Nat | R278 | 0 -/
  rpos     : Nat := 0
deriving DecidableEq, Repr

/-! ## Tensor network -/

/-- Link states (R342). -/
inductive LinkSt where
  | unused | training | active | failed | incompatible | miswired
deriving DecidableEq, Repr

/-- A transfer-table entry (R332) with its companion word (R554) and its progress. -/
structure Xfer where
  /-- TAG | 8 bits | R332 | 0xFE -/
  tag     : Tag := 0xFE
  /-- OP | 2 bits | R332 | 0 -/
  op      : BitVec 2 := 0
  /-- BASE | 11 bits | R332 | 0 -/
  base    : BitVec 11 := 0
  /-- FWD | 12 bits | R332 | 0 -/
  fwd     : BitVec 12 := 0
  /-- LINESM1 | 7 bits | R332 | 0 -/
  linesM1 : BitVec 7 := 0
  /-- CONTRIB | 7 bits | R332 | 0 -/
  contrib : BitVec 7 := 0
  /-- READSM1 | 3 bits | R332 | 0 -/
  readsM1 : BitVec 3 := 0
  /-- NDIG | 3 bits | R332 | 0 -/
  ndig    : BitVec 3 := 0
  /-- CLEAR | 10 bits | R332 | 0 -/
  clear   : BitVec 10 := 0
  /-- VALID | 1 bit | R332 | 0 -/
  valid   : Bool := false
  /-- companion FRAMEOFF | 32 bits | R554 | 0 -/
  frameOff : BitVec 32 := 0
  /-- companion CYCLE | 10 bits | R554 | 0 -/
  cycle   : BitVec 10 := 0
  /-- digest records arrived in the present use: sending link and record | list | R334, R337 | none -/
  digs    : List (LinkNo × Line) := []
  /-- data lines arrived in the present use, by link: slot index and line | list | R337 | none -/
  arrived : List (LinkNo × Nat × Line) := []
  /-- local contributions in the present use: slot index, line, prediction | list | R334, R337 | none -/
  locals  : List (Nat × Line × Option (Int × Nat)) := []
  /-- RECVs served in the present use | Nat | R334 | 0 -/
  reads   : Nat := 0
  /-- RECVs waiting for completion: tile, load entry, first slot offset, lines, landing line, epoch | list | R334 | none -/
  recvs   : List (TileNo × Nat × Nat × Nat × Nat × Nat) := []
  /-- inherited prediction of a transmit entry: T-hat and W | pair | R334, R336 | none -/
  inherit : Option (Int × Nat) := none
  /-- lines of a transmit entry already sent | Nat | R333 | 0 -/
  sent    : Nat := 0
  /-- checks of the present use failed | 1 bit | R337 | 0 -/
  failed  : Bool := false
  /-- the entry's completion in the present use has been acted on | 1 bit | R334 | 0 -/
  done    : Bool := false
deriving DecidableEq, Repr

/-- A transmit line or receive slot with its COUNT (R332, R334). -/
structure SlotLine where
  /-- contents | 1,024 bits | R332 | 0 -/
  data  : Line := 0
  /-- COUNT | 7 bits | R334 | 0 -/
  count : Nat := 0
  /-- a transmit line holds a line not yet sent | 1 bit | R553 | 0 -/
  full  : Bool := false
  /-- prediction that arrived with the line: value and window | pair | R336 | none -/
  pred  : Option (Int × Nat) := none
deriving DecidableEq, Repr

/-- A message a link sends, as far as the spec fixes its content. -/
inductive LinkMsg where
  | data (add : Bool) (entry : BitVec 8) (slot count : Nat) (tag : Tag) (lines : List Line)
  | digest (entry : BitVec 8) (tag : Tag) (line : Line)
  | abort (n : AbortNotice)
  | failure (line : Line)
  | commit (n : CommitNotice)
  | summary (round : Nat) (s : Summary)
  | exchange (round : Nat) (s : Summary)
  | loading (part : PartNo) (device : DevAddr) (loaded : Bool)
  | vote (device : DevAddr) (len : BitVec 2) (enforced : Bool)
  | frame (line : Line)
  | ledger (r : LRecord)
  | ledgerAck (lsn : BitVec 64)
  | mirror (m : MirrorMsg)
  | pages (m : PagesMsg)
  | partials (m : PartialsMsg)
  | shard (m : ShardMsg)
  | copy (m : LedgerCopyMsg)
  | report (r : RestoreReport)
  | training (line : Line)
  | retransmit (seq : BitVec 16)
deriving DecidableEq, Repr

/-- A UTL frame as it was sent (R315): its header, its nonce, its payload lines as the replay buffer holds them, and its bytes on the
wire. -/
structure SentFrame where
  hdr   : UtlHdr
  nonce : BitVec 96
  lines : List Line
  bytes : List Byte
deriving DecidableEq, Repr

/-- One tensor-link endpoint (R311, R332, R342). -/
structure Endpoint where
  /-- link state | code | R342 | unused (DESIGN CHOICE, 4) -/
  st       : LinkSt := .unused
  /-- training stage | 0-7 | R323 | 0 -/
  stage    : Nat := 0
  /-- restarts of training from stage 0 | Nat | R323 | 0 -/
  tries    : Nat := 0
  /-- frame in which the link entered service | frame | R524 | 0 -/
  since    : Nat := 0
  /-- active lanes per direction | U8 | R342 | DESIGN CHOICE 0 (4) -/
  lanes    : Nat := 0
  /-- delay class | U8 | R342 | DESIGN CHOICE 7 (4) -/
  cls      : Nat := 7
  /-- measured delay, cycles | U16 | R342 | 0xFFFF (R527) -/
  delay    : Nat := 0xFFFF
  /-- peer address | U16 | R342 | DESIGN CHOICE 0 (4) -/
  peer     : DevAddr := 0
  /-- peer's ROLE of its training message | 2 bits | R324 | 0 -/
  role     : BitVec 2 := 0
  /-- one GEN mismatch already answered | 1 bit | R326 | 0 -/
  genSeen  : Bool := false
  /-- class exceedances | U32 | R342 | 0 -/
  exceed   : Nat := 0
  /-- sequenced frames sent since training | U64 | R342 | 0 -/
  sent     : Nat := 0
  /-- NAKs since training | U32 | R342 | 0 -/
  naks     : Nat := 0
  /-- link failures since Dawn | U32 | R342 | 0 -/
  failures : Nat := 0
  /-- reserved-field events | U32 | R342 | 0 -/
  reserved : Nat := 0
  /-- next sequence number expected | 64 bits | R319 | 0 -/
  rxNext   : Nat := 0
  /-- sequence numbers received beyond a gap | list | R320 | none -/
  rxAhead  : List Nat := []
  /-- NAKs to be sent, one in each next header: NAKSEQ | list of 16 bits | R320 | none -/
  nakOut   : List (BitVec 16) := []
  /-- sequence numbers requested again that have not arrived | list | R320 | none -/
  asked    : List Nat := []
  /-- highest sequence number the peer has acknowledged | 64 bits | R319 | none -/
  peerAck  : Option Nat := none
  /-- NAKed frames waiting for dusk: sequence number and frame in which the NAK arrived | list | R321 | none -/
  nakIn    : List (BitVec 16 × Nat) := []
  /-- sequence numbers of frames already retransmitted once | list | R322 | none -/
  resent   : List Nat := []
  /-- frame and real cycle until which the latest retransmission occupies the link | pair | R321 | 0, 0 -/
  resendTo : Nat × Nat := (0, 0)
  /-- frames sent since the latest TC1 frame | Nat | R317 | 7 -/
  sinceTc1 : Nat := 7
  /-- frame numbers of NAKs, latest first | list | R322 | none -/
  nakFrames : List Nat := []
  /-- credits held for TC0, TC1, TC3 | 4, 64, 256 at most | R317 | 4, 64, 256 -/
  cr0      : Nat := 4
  /-- TC1 credits | Nat | R317 | 64 -/
  cr1      : Nat := 64
  /-- TC3 credits | Nat | R317 | 256 -/
  cr3      : Nat := 256
  /-- credits to return in the next headers | Nat | R317 | 0 -/
  ret0     : Nat := 0
  /-- TC1 credits to return | Nat | R317 | 0 -/
  ret1     : Nat := 0
  /-- TC3 credits to return | Nat | R317 | 0 -/
  ret3     : Nat := 0
  /-- link key generation: renewals since training | Nat | R325 | 0 -/
  keyGen   : Nat := 0
  /-- sequenced frames under the present keys | Nat | R325 | 0 -/
  keyUse   : Nat := 0
  /-- key of the sending direction; the null key until stage 4 has yielded one | 256 bits | R323, R325 | 0 -/
  txKey    : BitVec 256 := 0
  /-- Vault draw of this end's ephemeral key while stage 4 runs, in training or as a renewal | Nat | R325 | none -/
  ownDraw  : Option Nat := none
  /-- the peer's ephemeral public key while stage 4 runs | 776 bits | R325 | none -/
  peerKey  : Option (BitVec 776) := none
  /-- frame in which the latest frame of any kind arrived | frame | R322 | 0 -/
  lastRx   : Nat := 0
  /-- frame of the latest delay measurement | frame | R327 | 0 -/
  measured : Nat := 0
  /-- width change waiting for a dusk: true widen, false narrow | Bool | R313 | none -/
  width    : Option Bool := none
  /-- loopback test runs after a failure; its result | running / failed? | R556 | none -/
  loop     : Option (Option Bool) := none
  /-- abort frame of the latest failure of this link | frame | R335 | 0 -/
  failFrame : Nat := 0
  /-- frames of Clearing failures attributed to the link | list | R383 | none -/
  clearAt  : List Nat := []
  /-- link Clearing failures since Dawn | U32 | R398 | 0 -/
  clearFails : Nat := 0
  /-- transmit lines 0-2047 | SlotLine | R332 | 0 -/
  txLines  : SMap SlotLine := []
  /-- receive slots 0-2047 | SlotLine | R332 | 0 -/
  rxSlots  : SMap SlotLine := []
  /-- transmit entries 0-255 | Xfer | R332 | not valid -/
  txEnts   : SMap Xfer := []
  /-- receive entries 0-255 | Xfer | R332 | not valid -/
  rxEnts   : SMap Xfer := []
  /-- messages sent, oldest first | queue | R315 | empty -/
  out      : List LinkMsg := []
  /-- frames sent, oldest first | SentFrame | R315, R316 | none -/
  frames   : List SentFrame := []
  /-- latest STAMP received in stage 5, and the cycle of its arrival | 32 bits, Nat | R324 | none -/
  stamp    : Option (W32 × Nat) := none
  /-- messages that wait for a credit or for room in the replay buffer | queue | R317, R319 | empty -/
  waiting  : List LinkMsg := []
  /-- frames received beyond a gap that are held until the missing one arrives: sequence number, frames and command | list | R320 |
  none -/
  rxHeld   : List (Nat × Nat × Instr) := []
  /-- sequence number of the latest mirror frame sent | Nat | R230 | none -/
  mirrorSeq : Option Nat := none
deriving DecidableEq, Repr

/-- A failure notice collected for the decision of R335. -/
structure Notice where
  frame    : Nat
  origin   : DevAddr
  link     : BitVec 4
  loopFail : Bool
  cause    : BitVec 8
deriving DecidableEq, Repr

/-- The frame unit and the frame reference (R165, R211, R328-R331, R343). -/
structure FrameU where
  /-- frame counter | U64 | R165, R211 | DESIGN CHOICE 0 (4) -/
  frame    : Nat := 0
  /-- real cycles since Dawn at the first cycle of the current frame, the model's own count | Nat | R156, R206 | DESIGN CHOICE 0 (4) -/
  base     : Nat := 0
  /-- length code of the current frame | 2 bits | R164, R211 | 0 (1,024) -/
  len      : BitVec 2 := 0
  /-- announced lengths of coming frames: frame, code | list | R328, R330 | none -/
  lens     : List (Nat × BitVec 2) := []
  /-- cycle of the frame reached so far: the schedule counter, and beyond the band the dusk cycle | 0-1,535 | R194, R204 | 0 -/
  cycle    : Nat := 0
  /-- hold cycles of the current frame | Nat | R194 | 0 -/
  held     : Nat := 0
  /-- pause cycles of the current frame | Nat | R196 | 0 -/
  paused   : Nat := 0
  /-- the hold in force: schedule cycle, real cycle at which the counter stopped, and the waits: tile, token, the waiting stream's
  partition | hold | R194 | none -/
  hold     : Option (Nat × Nat × List (TileNo × Nat × Tag)) := none
  /-- partitions whose WAITs cause the hold in force | list of tags | R195 | none -/
  causes   : List Tag := []
  /-- frames held | U64 | R211 | 0 -/
  framesHeld : Nat := 0
  /-- hold cycles since Dawn | U64 | R211 | 0 -/
  holds    : Nat := 0
  /-- pause cycles since Dawn | U64 | R211 | 0 -/
  pauses   : Nat := 0
  /-- largest frame budget | U16 | R211 | 0 -/
  budget   : Nat := 0
  /-- overruns | U32 | R211 | 0 -/
  overruns : Nat := 0
  /-- aborts | U32 | R211 | 0 -/
  aborts   : Nat := 0
  /-- hold warning level | U16 | R211 | 48 -/
  warn     : BitVec 16 := 48
  /-- faults not reported | U32 | R211 | 0 -/
  unreported : Nat := 0
  /-- frames above warning | U64 | R211 | 0 -/
  aboveWarn : Nat := 0
  /-- frame master configured | BOOL | R343 | 0 -/
  master   : Bool := false
  /-- frame master configured for the next Dawn | BOOL | R343 | 0 -/
  masterNext : Bool := false
  /-- lock source in force, true REFCLK | U8 | R343 | 0 -/
  lockSrc  : BitVec 8 := 0
  /-- lock source for the next Dawn | U8 | R343 | 0 -/
  lockNext : BitVec 8 := 0
  /-- honour advisory votes | BOOL | R343 | 0 -/
  honour   : Bool := false
  /-- current master | U16 | R343 | DESIGN CHOICE 0 (4) -/
  curMaster : DevAddr := 0
  /-- this device sends frame messages as master | 1 bit | R328, R331 | 0 -/
  acting   : Bool := false
  /-- EPOCH | U16 | R343 | 0 -/
  epoch    : BitVec 16 := 0
  /-- takeovers | U32 | R343 | 0 -/
  takeovers : Nat := 0
  /-- vote in force, length code | 2 bits | R343 | 0 (1,024) -/
  vote     : BitVec 2 := 0
  /-- vote enforced | BOOL | R343 | 0 -/
  enforced : Bool := false
  /-- votes the master holds: device, length code, ENFORCED | list | R330 | none -/
  votes    : List (DevAddr × BitVec 2 × Bool) := []
  /-- phase error, cycles | I32 | R343 | 0x8000_0000 (R527) -/
  phase    : W32 := 0x80000000
  /-- missed frame messages since Dawn | U64 | R343 | 0 -/
  missed   : Nat := 0
  /-- consecutive frame messages missed | Nat | R329 | 0 -/
  missRun  : Nat := 0
  /-- a frame message arrived for the current frame | 1 bit | R329 | 0 -/
  gotMsg   : Bool := false
  /-- consecutive frames without a frame message on the fold link | Nat | R331 | 0 -/
  foldRun  : Nat := 0
  /-- frame lock held | 1 bit | R329, R515 | 0 -/
  lock     : Bool := false
  /-- return frame, staged | U64 | R343 | none -/
  returnF  : Option Nat := none
  /-- return frame in force, the latest that took effect | U64 | R343, R480 | none (all ones) -/
  returnIn : Option Nat := none
  /-- failure decisions | U32 | R343 | 0 -/
  decisions : Nat := 0
  /-- no backup master | BOOL | R343 | 0 -/
  noBackup : Bool := false
  /-- this device refuses frame roles | 1 bit | R437, R438 | 0 -/
  refuseRole : Bool := false
  /-- frame floor in force | U64 | R530 | 0 -/
  floor    : BitVec 64 := 0
  /-- frame floor for the next Dawn | U64 | R530 | 0 -/
  floorNext : BitVec 64 := 0
  /-- frame counter saved in flash | U64 | R515 | 0 -/
  saved    : Nat := 0
  /-- failure notices collected | list | R335 | none -/
  notices  : List Notice := []
  /-- abort notices already seen, for the flood: partition, frame, origin | list | R314 | none -/
  seenAborts : List (PartNo × Nat × DevAddr) := []
  /-- failure notices already seen, for the flood | list | R314 | none -/
  seenFails : List Notice := []
  /-- devices declared failed and covered | list | R335 | none -/
  failedDevs : List DevAddr := []
  /-- covering that takes effect at a replay frame: that frame and the covered address | list | R335, R393 | none -/
  coverAt  : List (Nat × DevAddr) := []
  /-- frame-tree children adopted | list of addresses | R393, R398 | none -/
  adopted  : List DevAddr := []
  /-- latest fault report of each unit that is no tile, by UNIT code of R204 | Report | R155 | none -/
  reports  : SMap (Option Report) := []
  /-- overflow counters 0-4095 | 32 bits each | R82 | 0 -/
  ovf      : SMap (BitVec 32) := []
deriving DecidableEq, Repr

/-! ## Host side -/

/-- Session states (R350). -/
inductive SessSt where
  | free | configured | ready | error | closing
deriving DecidableEq, Repr

/-- One session (R349, R369). -/
structure Session where
  /-- state | code | R350 | Free -/
  st      : SessSt := .free
  /-- bound partition | U8 | R369 | 0xFE -/
  part    : Tag := 0xFE
  /-- tenant | U32 | R349 | 0 -/
  tenant  : BitVec 32 := 0
  /-- port in use | U8 | R369 | 0 -/
  port    : PortNo := 0
  /-- port written, applied at Connect | U8 | R369 | 0 -/
  portW   : PortNo := 0
  /-- remote QPN in force and written | U32 | R369 | 0 -/
  rqpn    : BitVec 32 := 0
  /-- remote QPN written | U32 | R369 | 0 -/
  rqpnW   : BitVec 32 := 0
  /-- remote address in force | 16 bytes | R369 | DESIGN CHOICE none (4) -/
  raddr   : List Byte := []
  /-- remote address written | 16 bytes | R369 | DESIGN CHOICE none (4) -/
  raddrW  : List Byte := []
  /-- remote start PSN in force | 24 bits | R369 | 0 -/
  rpsn    : BitVec 32 := 0
  /-- remote start PSN written | 24 bits | R369 | 0 -/
  rpsnW   : BitVec 32 := 0
  /-- local start PSN | 24 bits | R369 | DESIGN CHOICE 0 (4) -/
  lpsn    : BitVec 32 := 0
  /-- last admitted SSN A | 32 bits | R286 | 0 -/
  a       : BitVec 32 := 0
  /-- ACK | 32 bits | R286 | 0 -/
  ack     : BitVec 32 := 0
  /-- session key: the draw that made it | key number | R366 | none -/
  key     : Option Nat := none
  /-- RDMA WRITE in progress: window entry, next byte, bytes left | Nat | R359, R360 | none -/
  rdma    : Option (BitVec 12 × Nat × Nat) := none
  /-- retry count of the queue pair | 3 bits | R351 | DESIGN CHOICE 0 before Connect (4) -/
  retry   : BitVec 3 := 0
  /-- RNR retry count, 7 is no limit | 3 bits | R351 | DESIGN CHOICE 0 before Connect (4) -/
  rnr     : BitVec 3 := 0
  /-- acknowledge timeout exponent | 8 bits | R351 | DESIGN CHOICE 0 before Connect (4) -/
  ackTo   : BitVec 8 := 0
  /-- highest COUNTER accepted from the host | 64 bits | R361 | 0 -/
  rxCtr   : BitVec 64 := 0
  /-- COUNTER of the latest device message | 64 bits | R354 | 0 -/
  txCtr   : BitVec 64 := 0
  /-- refusals by code 0x80-0x8C | 13 x U32 | R369 | 0 -/
  refusals : SMap Nat := []
  /-- authentication drops | U32 | R369 | 0 -/
  authDrops : Nat := 0
  /-- transmit rate: (n, e) is n / 4^e Gb/s; none: the port rate | fraction | R348 | port rate -/
  rate    : Option (Nat × Nat) := none
  /-- time of the latest congestion notification sent, us | Nat | R348 | none -/
  cnpAt   : Option Nat := none
deriving DecidableEq, Repr

/-- A window-table entry (R358). -/
structure Window where
  /-- STATE: 0 Closed, 1 Open, 2 Closing | 2 bits | R358 | Closed -/
  st      : Nat := 0
  /-- GEN | 8 bits | R357 | DESIGN CHOICE 0 before Dawn (4) -/
  gen     : BitVec 8 := 0
  /-- SALT | 12 bits | R357 | 0 -/
  salt    : BitVec 12 := 0
  /-- TAG | 8 bits | R358 | 0xFE -/
  tag     : Tag := 0xFE
  /-- SESSION | 12 bits | R358 | 0 -/
  session : SessNo := 0
  /-- ANY | 1 bit | R358 | 0 -/
  any     : Bool := false
  /-- KIND | 0 import, 1 export, 2 MX data | R358 | 0 -/
  kind    : BitVec 8 := 0
  /-- MXTYPE | 8 bits | R358 | 0 -/
  mxtype  : BitVec 8 := 0
  /-- ACCESS | 2 bits | R358 | 0 -/
  access  : BitVec 8 := 0
  /-- BASE, first line | line | R358 | 0 -/
  base    : Nat := 0
  /-- BYTES | length | R358 | 0 -/
  bytes   : Nat := 0
  /-- operations in progress | Nat | R360 | 0 -/
  busy    : Nat := 0
deriving DecidableEq, Repr

/-- A UWP message to the host: its header fields and the bytes of its body in clear (R354, R355). -/
structure HostMsg where
  type    : BitVec 6
  session : SessNo
  port    : PortNo
  ssn     : BitVec 32
  ack     : BitVec 32
  ident   : BitVec 64
  part    : BitVec 8
  frame   : Nat
  counter : BitVec 64
  code    : BitVec 8
  late    : Bool
  body    : List Byte
deriving DecidableEq, Repr

/-- One host port (R344, R368). -/
structure Port where
  /-- link state, up | U8 | R368 | DESIGN CHOICE down (4) -/
  up       : Bool := false
  /-- speed 800 (full) or 400 Gb/s | 1 bit | R345 | 800 -/
  full     : Bool := true
  /-- IPv4 address in force | U32 | R368 | 0 -/
  ipv4     : BitVec 32 := 0
  /-- IPv4 address written, for the next link up | U32 | R368 | 0 -/
  ipv4W    : BitVec 32 := 0
  /-- IPv6 address in force | 16 bytes | R368 | DESIGN CHOICE none (4) -/
  ipv6     : List Byte := []
  /-- IPv6 address written | 16 bytes | R368 | DESIGN CHOICE none (4) -/
  ipv6W    : List Byte := []
  /-- VLAN | U16 | R368 | 0 -/
  vlan     : BitVec 16 := 0
  /-- lossless priorities | U8 | R368 | 0x08 -/
  lossless : BitVec 8 := 0x08
  /-- frames dropped | U64 | R368 | 0 -/
  dropped  : Nat := 0
  /-- congestion notifications sent | U64 | R368 | 0 -/
  cnpTx    : Nat := 0
  /-- congestion notifications received | U64 | R368 | 0 -/
  cnpRx    : Nat := 0
  /-- PFC pauses sent | U64 | R368 | 0 -/
  pfcTx    : Nat := 0
  /-- acknowledge timeout exponent | U8 | R368 | 14 -/
  ackTo    : BitVec 8 := 14
  /-- bytes buffered by priority | Nat | R346, R348 | 0 -/
  buffered : SMap Nat := []
  /-- priorities this port has paused at its peer | bitmap | R348 | 0 -/
  pausing  : BitVec 8 := 0
  /-- priorities the peer has paused | bitmap | R348 | 0 -/
  paused   : BitVec 8 := 0
  /-- replies sent by the port itself: ARP, neighbour discovery, echo | count | R345 | 0 -/
  answered : Nat := 0
deriving DecidableEq, Repr

/-- Host ports, sessions and windows. -/
structure HostSide where
  /-- ports 0-3 | Port | R344 | down -/
  ports    : SMap Port := []
  /-- sessions 0-4095 | Session | R349 | Free -/
  sessions : SMap Session := []
  /-- windows 0-4095 | Window | R358 | Closed -/
  windows  : SMap Window := []
  /-- number of the Vault's draw for the GENs at the latest Dawn | Nat | R358 | 0 (model's numbering of draws) -/
  genDraw  : Nat := 0
  /-- window-closed rejections | U64 | R368 | 0 -/
  winClosed : Nat := 0
  /-- window access rejections | U64 | R368 | 0 -/
  winAccess : Nat := 0
  /-- UWP messages sent, oldest first | queue | R354 | empty -/
  out      : List HostMsg := []
  /-- messages formed for a session without a connected queue pair, kept for R364 | count | R363 | 0 -/
  unsent   : Nat := 0
  /-- READ responses sent, one entry a packet | bytes | R345, R359 | empty -/
  readOut  : List (SessNo × List Byte) := []
  /-- remote-access-error negative acknowledgements sent: session, PSN | queue | R359 | empty -/
  nakOut   : List (SessNo × BitVec 24) := []
deriving DecidableEq, Repr

/-! ## Health, optics, power -/

/-- Device health (R398). -/
structure Health where
  /-- device state: 0 in service, 1 announcing, 2 closing, 3 Dark, 4 flagged at Dawn | U8 | R398 | 0 -/
  st        : Nat := 0
  /-- Twilight cause | U8 | R398 | DESIGN CHOICE 0 (4) -/
  cause     : BitVec 8 := 0
  /-- Twilight frame | U64 | R398 | DESIGN CHOICE 0 (4) -/
  frame     : Nat := 0
  /-- decided cause whose Twilight frame has not come | code | R388 | none -/
  decided   : Option (BitVec 8) := none
  /-- Twilight flag in flash | BOOL | R398 | DESIGN CHOICE 0 (4) -/
  flag      : Bool := false
  /-- the flag is to be cleared at the next Dawn | 1 bit | R394 | 0 -/
  clearing  : Bool := false
  /-- residue failures | U32 | R398 | 0 -/
  residue   : Nat := 0
  /-- own Clearing failures | U32 | R398 | 0 -/
  ownClear  : Nat := 0
  /-- frames of own Clearing failures | list | R383 | none -/
  ownAt     : List Nat := []
  /-- drift evaluations | U64 | R398 | 0 -/
  driftEvals : Nat := 0
  /-- drifting arrays found | U32 | R398 | 0 -/
  drifting  : Nat := 0
  /-- probes | U64 | R398 | 0 -/
  probes    : Nat := 0
  /-- tree disagreements | U32 | R398 | 0 -/
  trees     : Nat := 0
  /-- later causes | U32 | R398 | 0 -/
  later     : Nat := 0
  /-- return readiness | U8 | R398 | 0 -/
  ready     : Nat := 0
  /-- copies received for the return: shard, partner shard, mirrors, Ledger | 4 bits | R274 | 0 -/
  copies    : BitVec 4 := 0
  /-- mirror streams received for the return whose digest did not verify | stream keys | R274, R398 | none -/
  badMirrors : List Nat := []
  /-- fault occurrences for R382: code, unit key, frame | list | R382 | none -/
  faults    : List (Nat × Nat × Nat) := []
  /-- fail-silent | 1 bit | R384 | 0 -/
  silent    : Bool := false
  /-- Clearing failures on the die | U32 | R342 | 0 -/
  clearing15 : Nat := 0
  /-- slot collisions, die | U32 | R163 | 0 -/
  collisions : Nat := 0
  /-- first-use step count | U32 | R525, R530 | 0 -/
  firstUse  : Nat := 0
  /-- first-use count saved in flash | U32 | R525 | 0 -/
  firstSaved : Nat := 0
  /-- widened windows in force | 1 bit | R42, R525 | 1 (first use) -/
  widened   : Bool := true
  /-- current sweep number | U16 | R116 | 0 -/
  sweep     : BitVec 16 := 0
deriving DecidableEq, Repr

/-- A Daylight module position (R405, R412). -/
structure Module where
  /-- state | code 0-6 | R405 | Absent -/
  st       : Nat := 0
  /-- identity and monitors as last read | structure | R403 | none -/
  data     : Option ModuleData := none
  /-- ELS_EN_N asserted | pin | R399, R535 | not asserted -/
  en       : Bool := false
  /-- transmitters disabled through CMIS | 1 bit | R407 | 1 -/
  cmisOff  : Bool := true
  /-- DL_PRES_N asserted | pin | R399 | not asserted -/
  pres     : Bool := false
  /-- ELS_FAULT_N asserted | pin | R399 | not asserted -/
  fault    : Bool := false
  /-- a removal request runs | 1 bit | R410 | 0 -/
  removing : Bool := false
  /-- host ports that the removal has taken down and that have not retrained | list | R410 | none -/
  waitPorts : List Nat := []
  /-- relight at probe power runs | 1 bit | R408 | 0 -/
  probing  : Bool := false
  /-- open-fibre events | U32 | R412 | 0 -/
  openFib  : Nat := 0
  /-- path failures | U32 | R412 | 0 -/
  pathFail : Nat := 0
  /-- identity and probe outcome of a module seated before Dawn reads it in step 6 | structure and 1 bit | R402, R411 | none -/
  arrived  : Option (ModuleData × Bool) := none
  /-- outputs lit | 6 bits | R412 | DESIGN CHOICE 0 (4) -/
  lit      : BitVec 6 := 0
  /-- last history saved to flash | serial, hours, bias now | R403 | none -/
  saved    : Option (List Byte × BitVec 32 × List (BitVec 16)) := none
deriving DecidableEq, Repr

/-- Power, thermal and clocks (R413-R446). -/
structure Power where
  /-- PWRFAIL latched | 1 bit | R418 | 0 -/
  failed    : Bool := false
  /-- frame of the latch | frame | R418 | none -/
  failFrame : Option Nat := none
  /-- under-voltage events | U32 per rail | R445 | 0 -/
  underV    : SMap Nat := []
  /-- power-fail sequences, lifetime | U32 | R445 | DESIGN CHOICE 0 (4) -/
  sequences : Nat := 0
  /-- current limit active | 1 bit | R420 | 0 -/
  curLimit  : Bool := false
  /-- frames under R420 | U64 | R444 | 0 -/
  curFrames : Nat := 0
  /-- package power, mW, latest mean | Nat | R445 | no value (R527) -/
  power     : Option Nat := none
  /-- power limit | F32 | R445 | 1600.0 -/
  limit     : W32 := 0x44C80000
  /-- sensor readings, 1/16 degree C, latest set | 128 | R424, R443 | none (R527) -/
  readings  : SMap (Option Int) := []
  /-- raw readings of the latest set | 128 | R443 | none -/
  raws      : SMap (Option Int) := []
  /-- sensors found faulty | bitmap as list | R424 | none -/
  faulty    : List Nat := []
  /-- sensors too hot in the latest set | list | R424 | none -/
  tooHot    : List Nat := []
  /-- T_die, 1/16 degree C | Int | R425 | none (R527) -/
  tdie      : Option Int := none
  /-- hottest sensor | U8 | R443 | DESIGN CHOICE 0 (4) -/
  hottest   : Nat := 0
  /-- peak T_die | F32 | R443 | 0 -/
  peak      : Int := 0
  /-- hard-trip tests passed | 2 bits | R443 | DESIGN CHOICE 0 (4) -/
  trips     : BitVec 2 := 0
  /-- THERMTRIP_N asserted | pin | R426 | not asserted -/
  tripped   : Bool := false
  /-- level-1 threshold in force and written | F32 | R444 | 92.0 -/
  l1        : W32 := 0x42B80000
  /-- level-1 threshold written, for the next set | F32 | R444 | none -/
  l1W       : Option W32 := none
  /-- level-2 thresholds in force | 3 x F32 | R444 | 95.0, 97.0, 99.0 -/
  l2        : List W32 := [0x42BE0000, 0x42C20000, 0x42C60000]
  /-- level-2 thresholds written | 3 x F32 | R444 | none -/
  l2W       : Option (List W32) := none
  /-- throttle level | U8 | R444 | 0 -/
  level     : Nat := 0
  /-- pauses requested for each frame | Nat | R428 | 0 -/
  request   : Nat := 0
  /-- thermal vote, length code | 2 bits | R429 | 0 -/
  thermVote : BitVec 2 := 0
  /-- power vote, length code | 2 bits | R429 | 0 -/
  powerVote : BitVec 2 := 0
  /-- sets of conversions of 100 us through which a vote above 1,024 has stood without a break | Nat | R430 | 0 -/
  voteSets  : Nat := 0
  /-- sets of conversions through which T_die has stayed below the threshold of the thermal vote minus 3 degree C; none where it is
  not below | Nat | R431 | none -/
  coolSets  : Option Nat := none
  /-- vote cause | U8 | R444 | 0 -/
  cause     : BitVec 8 := 0
  /-- throttled frames | U64 | R444 | 0 -/
  throttled : Nat := 0
  /-- enforcements | U32 | R444 | 0 -/
  enforcements : Nat := 0
  /-- stretch time, in sets of conversions of 100 us with a vote above 1,024 | Nat | R423, R444 | 0 -/
  stretch   : Nat := 0
  /-- peak core current, as the highest code of channel 10 (R456) | F32 | R445 | 0 -/
  peakAmp   : Nat := 0
  /-- PLL locked | U8 | R446 | 0 locking -/
  pll       : Bool := false
  /-- PLL input: 0 FRAME_IN, 1 REFCLK, 2 holdover | U8 | R446 | DESIGN CHOICE 1 (4) -/
  pllIn     : Nat := 1
  /-- REFCLK present | BOOL | R446 | DESIGN CHOICE 1 (4) -/
  refclk    : Bool := true
  /-- FRAME_IN present | BOOL | R446 | DESIGN CHOICE 1 (4) -/
  frameIn   : Bool := true
  /-- reference losses | U32 | R446 | 0 -/
  losses    : Nat := 0
  /-- compensation tables valid | 3 bits | R446 | DESIGN CHOICE 7 (4) -/
  tables    : BitVec 3 := 7
  /-- holdover temperature, 1/16 degree C | Int | R446 | none (R527) -/
  holdTemp  : Option Int := none
  /-- holdover correction, 1/100 ppb | Int | R446 | DESIGN CHOICE 0 (4) -/
  holdCorr  : Int := 0
  /-- crossing failures | U32 | R446 | 0 -/
  crossings : Nat := 0
  /-- RESET_N asserted | pin | R535 | asserted -/
  resetPin  : Bool := true
  /-- rails up | 1 bit | R415 | 1 (Dawn step 1) -/
  rails     : Bool := true
deriving DecidableEq, Repr

/-! ## Management complex, dictionary, recorder, Dawn -/

/-- The measurement registers as a response gives them (R469). -/
structure Measured where
  rom       : BitVec 384
  firmware  : BitVec 384
  svn       : Nat
  revoked   : BitVec 4
  debugLock : Bool
  store     : BitVec 384
  chain     : BitVec 384
deriving DecidableEq, Repr

/-- An SPDM response sent (R469). -/
inductive SpdmMsg where
  | version | capabilities | algorithms | digests | certificate (offset length : Nat)
  | challengeAuth (nonce : BitVec 256)
  /-- the measurement registers -/
  | measurements (index : Nat) (nonce : BitVec 256) (m : Measured)
  | unsupported | invalid
deriving DecidableEq, Repr

/-- The firmware slots and boot descriptor (R466). -/
structure Boot where
  /-- SEQ | 32 bits | R466 | DESIGN CHOICE 0 (4) -/
  seq     : BitVec 32 := 0
  /-- ACTIVE | 0 A, 1 B | R466 | DESIGN CHOICE 0 (4) -/
  active  : BitVec 8 := 0
  /-- TRIAL | 0 none, 1 | R466 | 0 -/
  trial   : BitVec 8 := 0
  /-- TRIES | 0-3 | R466 | 0 -/
  tries   : BitVec 8 := 0
  /-- running slot | U8 | R471 | DESIGN CHOICE 0 (4) -/
  running : BitVec 8 := 0
  /-- digest of the running image | 384 bits | R469 | 0 -/
  fwDigest : BitVec 384 := 0
  /-- a trial failed | 1 bit | R468 | 0 -/
  failed  : Bool := false
  /-- fuse SVN | 64-bit thermometer, count | R463 | DESIGN CHOICE 0 (4) -/
  svn     : Nat := 0
  /-- slot A version | U32 | R471 | DESIGN CHOICE 0 (4) -/
  verA    : BitVec 32 := 0
  /-- slot B version | U32 | R471 | DESIGN CHOICE 0 (4) -/
  verB    : BitVec 32 := 0
  /-- image bytes written to slot A, key offset | bytes | R468 | none -/
  slotA   : List Host.Cell := []
  /-- image bytes written to slot B | bytes | R468 | none -/
  slotB   : List Host.Cell := []
  /-- SVN of the image on trial | Nat | R468 | 0 -/
  trialSvn : Nat := 0
  /-- boot ROM stopped Dawn: no slot verifies | 1 bit | R467 | 0 -/
  stopped : Bool := false
  /-- fuse key-revocation bits | 4 bits | R463 | DESIGN CHOICE 0 (4) -/
  revoked : BitVec 4 := 0
  /-- the two copies of the descriptor in flash, and whether the second one governs | 2 x 128 bits | R466 | DESIGN CHOICE (4): a sound
  first copy of SEQ 0 -/
  copyA   : BitVec 128 := 0x7BD5C66F000000000000000000000000
  /-- the second copy | 128 bits | R466 | DESIGN CHOICE 0 (4) -/
  copyB   : BitVec 128 := 0
  /-- the second copy governs | 1 bit | R466 | 0 -/
  second  : Bool := false
  /-- measurement register 4: digest of the dictionary store at boot | 384 bits | R469 | 0 -/
  store   : BitVec 384 := 0
  /-- measurement register 5: the chain over loads and closes | 384 bits | R467, R469 | DESIGN CHOICE 0 (104) -/
  chain   : BitVec 384 := 0
deriving DecidableEq, Repr

/-- The housekeeping ADC (R456-R460). -/
structure Adc where
  /-- TRIG | 2 bits | R457 | 0 -/
  trig    : BitVec 2 := 0
  /-- REF | 2 bits | R457 | 0 -/
  ref     : BitVec 2 := 0
  /-- SETTLED | 1 bit | R457 | 0 -/
  settled : Bool := false
  /-- LAST | 5 bits | R457 | 0 -/
  last    : BitVec 5 := 0
  /-- NEXT | 5 bits | R457 | 0 -/
  next    : BitVec 5 := 0
  /-- DIV | 16 bits | R457 | 0 -/
  div     : BitVec 16 := 0
  /-- DELAY | 16 bits | R457 | 0 -/
  delay   : BitVec 16 := 0
  /-- sequence table, 32 entries | 6 bits each | R457 | DESIGN CHOICE 0 (4) -/
  seq     : SMap (BitVec 6) := []
  /-- frame ticks since the latest frame trigger | Nat | R457 | 0 -/
  ticks   : Nat := 0
  /-- VALID | 1 bit | R457 | 0 -/
  valid   : Bool := false
  /-- OVR | 1 bit | R457 | 0 -/
  ovr     : Bool := false
  /-- NSET | 1 bit | R457 | 0 -/
  nset    : Bool := false
  /-- ENTRY | 5 bits | R457 | 0 -/
  entry   : BitVec 5 := 0
  /-- CHANNEL | 6 bits | R457 | 0 -/
  chan    : BitVec 6 := 0
  /-- CODE | 12 bits | R457 | 0 -/
  code    : BitVec 12 := 0
  /-- a sequence conversion waits to start | 1 bit | R458 | 0 -/
  waiting : Bool := false
  /-- conversion that runs: entry (none: urgent), channel, SETTLED at start | R458 | none -/
  running : Option (Option (BitVec 5) × BitVec 6 × Bool) := none
  /-- urgent requests waiting, in order | channels | R459, R470 | empty -/
  urgent  : List (BitVec 6) := []
  /-- capture latch of the safety monitor | 12 bits | R459 | DESIGN CHOICE 0 (4) -/
  latch   : BitVec 12 := 0
  /-- urgent conversions that the safety monitor is to request: channel, and whether it has been requested; CODE, OBJECT, AFTER and BEFORE
  of the record that takes what it captures | list | R459, R501 | empty -/
  due     : List (BitVec 6 × Bool × Nat × Nat × Nat × Nat) := []
  /-- latest code of each channel | 12 bits | R421, R445 | none -/
  codes   : SMap (Option (BitVec 12)) := []
  /-- overruns | U32 | R471 | 0 -/
  overruns : Nat := 0
  /-- missed triggers | U32 | R471 | 0 -/
  missed  : Nat := 0
  /-- urgent conversions | U32 | R471 | 0 -/
  urgents : Nat := 0
deriving DecidableEq, Repr

/-- The flash controller's classes of write, highest priority first (R462). -/
inductive FlashCls where
  | flag | recorder | counts | repair | staging | corrections | store | history | slots
deriving DecidableEq, Repr

/-- The management complex. -/
structure Mgmt where
  /-- source levels asserted, 1-511 | list | R452 | none -/
  asserted  : List Nat := []
  /-- PRIO and TARGET by source | 3 + 4 bits | R453 | 0 -/
  prio      : SMap (BitVec 3) := []
  /-- TARGET by source | 4 bits | R453 | 0 -/
  target    : SMap (BitVec 4) := []
  /-- configuration written for a source in service, applied at completion | PRIO, TARGET | R455 | none -/
  cfgNew    : SMap (BitVec 3 × BitVec 4) := []
  /-- THRESHOLD by hart; 8 is held as no entry | 0-8 | R453 | 8 -/
  thresh    : SMap Nat := []
  /-- sources in service: source, hart | list | R454 | none -/
  service   : List (Nat × Nat) := []
  /-- value of the latest CLAIM read by hart | 9 bits | R454 | DESIGN CHOICE 0 (4) -/
  claimed   : SMap Nat := []
  /-- spurious claims | U64 | R471 | 0 -/
  spurious  : Nat := 0
  /-- stray completions | U32 | R471 | 0 -/
  stray     : Nat := 0
  /-- watchdog started | 1 bit | R450 | 0 -/
  wdOn      : Bool := false
  /-- watchdog expiry latched | 1 bit | R450 | 0 -/
  wdFail    : Bool := false
  /-- first byte 0x5A of a service written | 1 bit | R450 | 0 -/
  wdHalf    : Bool := false
  /-- the warning of this period has been raised | 1 bit | R450 | 0 -/
  wdWarned  : Bool := false
  /-- services of the watchdog | count | R450 | 0 -/
  wdServed  : Nat := 0
  /-- watchdog warnings | U32 | R471 | 0 -/
  wdWarn    : Nat := 0
  /-- housekeeping timer period, us | 20 bits | R451 | DESIGN CHOICE 1 (4) -/
  period    : Nat := 1
  /-- ADC | structure | R456 | reset values of R457 -/
  adc       : Adc := {}
  /-- fault FIFO | 256-bit records | R448, R452 | empty -/
  faultFifo : List (BitVec 256) := []
  /-- management requests outstanding: ID, tile, port, real cycle of issue, data of a write to be read back | at most 16 | R449 | none -/
  requests  : List (BitVec 8 × TileNo × BitVec 2 × Nat × Option W64) := []
  /-- latest management response: ID, data, STATUS | response | R449 | none -/
  response  : Option (BitVec 8 × BitVec 32 × W64 × BitVec 2) := none
  /-- requests timed out | count | R449 | 0 -/
  timeouts  : Nat := 0
  /-- register spaces of units that the spec gives no layout: key 2^32 * (4 * tile + port) + address | 64 bits | R449 |
  DESIGN CHOICE 0 (4) -/
  regs      : SMap W64 := []
  /-- flash writes waiting | queue of classes | R462 | empty -/
  fqueue    : List FlashCls := []
  /-- flash write in progress | class | R462 | none -/
  fwriting  : Option FlashCls := none
  /-- sector erases waiting or in progress: sector, class, suspended | list | R462 | none -/
  ferase    : List (Nat × FlashCls × Bool) := []
  /-- erase counts by sector | Nat | R471 | DESIGN CHOICE 0 (4) -/
  fcounts   : SMap Nat := []
  /-- entropy healthy | BOOL | R471 | DESIGN CHOICE 1 (4) -/
  entropy   : Bool := true
  /-- random draws made by the Vault | Nat (model's counter of R463 draws) | R463 | 0 -/
  draws     : Nat := 0
  /-- harts 1-3 released | 1 bit | R447 | 0 -/
  harts     : Bool := false
  /-- shared SRAM, key offset in its range | 2 MiB | R447, R448 | DESIGN CHOICE 0 (87) -/
  sram      : List Host.Cell := []
  /-- value of the latest read of each hart | 64 bits | R448 | DESIGN CHOICE 0 (87) -/
  core      : SMap Nat := []
  /-- access fault taken by each hart: address, 1 for a write | the latest | R448 | none -/
  trap      : SMap (Option (BitVec 56 × Bool)) := []
  /-- SRAM corrected and uncorrectable | U64, U32 | R471 | 0 -/
  sramCorr  : Nat := 0
  /-- SRAM uncorrectable events, lifetime | U32 | R471 | DESIGN CHOICE 0 (4) -/
  sramUnc   : Nat := 0
  /-- boot | structure | R466 | slot A active -/
  boot      : Boot := {}
  /-- SPDM responses sent | queue | R469 | empty -/
  spdm      : List SpdmMsg := []
  /-- TAP instruction in force | instruction | R542 | BYPASS (DESIGN CHOICE, 4) -/
  tap       : TapInstr := .bypass
  /-- data register that the TAP instruction selects, as it is captured | 32 bits | R542 | 0, BYPASS -/
  tapData   : BitVec 32 := 0
deriving DecidableEq, Repr

/-- A UOA session (R484, R489). -/
structure UoaSess where
  /-- SESSION identifier -/
  id       : BitVec 32
  anchor   : Fin 16
  role     : Nat
  tenant   : BitVec 32
  /-- the handshake is finished -/
  done     : Bool
  src      : Source
  /-- what its keys rest on (R489): the client's nonce and ephemeral key, the Vault's draw -/
  nonce    : BitVec 256
  key      : BitVec 776
  draw     : Nat
  /-- highest SEQ seen -/
  high     : BitVec 64
  /-- recent SEQs with their tags and reply numbers, latest first -/
  recent   : List (BitVec 64 × BitVec 384 × BitVec 64)
  /-- SEQ of the next reply -/
  txSeq    : BitVec 64
  /-- selectors by index, held per session (R59) -/
  sel      : SMap Nat
  /-- anchor role, tenant and certificate held for Install (R483): presence and values -/
  holdRole : Option Nat
  holdTen  : Option (BitVec 32)
  holdCert : Option (List Byte)
deriving DecidableEq, Repr

/-- The result of one item in a UOA reply (R486, R487). -/
structure UItem where
  index  : BitVec 16
  sub    : BitVec 8
  status : BitVec 8
  value  : Option DVal
  pending : Option (BitVec 64 × DVal)
  /-- Describe: type, access, apply code, read roles, write roles, flags -/
  desc   : List Nat
deriving DecidableEq, Repr

/-- A UOA reply (R485, R486). -/
structure UReply where
  session : BitVec 32
  type    : BitVec 6
  seq     : BitVec 64
  reqseq  : BitVec 64
  status  : BitVec 16
  items   : List UItem
deriving DecidableEq, Repr

/-- An installed trust anchor (R482). -/
structure Anchor where
  role   : Nat
  tenant : BitVec 32
  cert   : List Byte
  digest : BitVec 384
deriving DecidableEq, Repr

/-- Object dictionary and UOA (R473-R494). -/
structure Dict where
  /-- UOA sessions | at most 32 | R484 | none -/
  sessions : List UoaSess := []
  /-- next SESSION the device assigns | 32 bits | R489 | DESIGN CHOICE 1 (4) -/
  nextId   : BitVec 32 := 1
  /-- replies sent, oldest first | queue | R486 | empty -/
  out      : List UReply := []
  /-- anchors 0-15 | Anchor | R482 | anchor 0 Service (R482), others empty -/
  anchors  : SMap (Option Anchor) := [(0, some { role := 4, tenant := 0, cert := [], digest := 0 })]
  /-- handshake failures | U32 | R483 | 0 -/
  hsFails  : Nat := 0
  /-- Hello messages in the current second by source address | list | R489 | none -/
  hellos   : List (BitVec 128 × Nat × Nat) := []
  /-- idle timeout | U32 | R483 | 300 -/
  idle     : BitVec 32 := 300
  /-- authentication drops | U64 | R483 | 0 -/
  authDrops : Nat := 0
  /-- changes in the store's current generation | Nat | R481 | 0 -/
  storeLen : Nat := 0
  /-- current generation | 0 or 1 | R481 | 0 -/
  storeGen : Nat := 0
  /-- wall time | U64 | R496 | 0 -/
  wall     : BitVec 64 := 0
  /-- cluster identifier written, applied at the next training | U64 | R342 | DESIGN CHOICE 0 (4) -/
  cluster  : BitVec 64 := 0
  /-- cluster identifier in force | U64 | R342 | DESIGN CHOICE 0 (4) -/
  clusterNow : BitVec 64 := 0
  /-- cluster dimension n in force | U8 | R342 | DESIGN CHOICE 3 (4) -/
  n        : Nat := 3
  /-- dimension for the next Dawn | U8 | R342 | DESIGN CHOICE 3 (4) -/
  nNext    : Nat := 3
  /-- cluster address in force | U16 | R342 | DESIGN CHOICE 0 (4) -/
  addr     : DevAddr := 0
  /-- address for the next Dawn | U16 | R342 | DESIGN CHOICE 0 (4) -/
  addrNext : DevAddr := 0
  /-- rotation period, s | U32 | R114 | 86400 -/
  rotation : BitVec 32 := 86400
  /-- background enable | BOOL | R114 | 1 -/
  bgEnable : Bool := true
  /-- arrays written by the latest user calibration | U16 | R114 | 0 -/
  calWritten : Nat := 0
  /-- arrays skipped by the latest user calibration | U16 | R114 | 0 -/
  calSkipped : Nat := 0
  /-- slot shortfalls | U32 | R114 | 0 -/
  shortfalls : Nat := 0
  /-- correction save period, s | U32 | R114 | 86400 -/
  savePeriod : BitVec 32 := 86400
  /-- point last written to 0x3100/0x06 | 0-3 | R116 | 0 -/
  calPoint : Nat := 0
  /-- field-correction store generation | 0 or 1 | R99 | 0 -/
  corrGen  : Nat := 0
  /-- program-count warning threshold | U32 | R60 | 9000 -/
  warnAt   : BitVec 32 := 9000
  /-- endurance override | BOOL | R60 | 0 -/
  override : Bool := false
  /-- kept values of accounts that a cold reset has taken, for step 10 to discard: subindex and value | list | R481 | none -/
  gone     : List (Nat × BitVec 64) := []
  /-- base table, entries 0-31: ATTACH and VERSION | 128 + 32 bits | R250 | 0 -/
  bases    : SMap (BitVec 128 × BitVec 32) := []
deriving DecidableEq, Repr

/-- Event-record kinds' payload, as far as the spec fixes it (R499-R503). -/
inductive Payload where
  /-- kind 0x01: the 256-bit fault record (R502) -/
  | fault (w : BitVec 256)
  /-- kind 0x02 (R503): CKIND, entry, status, role, source, tenant, session, VALUE -/
  | change (ckind : Nat) (index : BitVec 16) (sub : BitVec 8) (status : BitVec 8) (role : Nat) (port : Nat)
      (tenant : BitVec 32) (session : BitVec 32) (addr : BitVec 128) (value : BitVec 64)
  /-- kind 0x03: the stated frame -/
  | cont (frame : BitVec 64)
  /-- kinds 0x04-0x0F (R501): CODE, OBJECT, STEP, AFTER, BEFORE, WORD8-WORD4 -/
  | generic (kind : Nat) (code : Nat) (object : Nat) (step : BitVec 64) (after before : BitVec 32) (words : BitVec 160)
deriving DecidableEq, Repr

/-- One event record (R499). -/
structure ERec where
  seq    : Nat
  hours  : Nat
  cycles : Nat
  frame  : BitVec 32
  flock  : Bool
  cont   : Bool
  payload : Payload
deriving DecidableEq, Repr

/-- The event recorder (R504-R512). -/
structure Recorder where
  /-- next SEQ | 40 bits | R512 | DESIGN CHOICE 0 (4): the first record ever (R499) -/
  next     : Nat := 0
  /-- pending records, oldest first | at most 512 | R504 | empty -/
  buffer   : List ERec := []
  /-- durable records in flash, latest first | list | R507 | empty -/
  flash    : List ERec := []
  /-- oldest readable circulating SEQ | U64 | R508, R512 | 4096 (DESIGN CHOICE, 4) -/
  oldest   : Nat := 4096
  /-- records of the flush in progress | count | R506 | none -/
  flushing : Option Nat := none
  /-- a further flush waits | 1 bit | R511 | 0 -/
  again    : Bool := false
  /-- lost records since Dawn | U64 | R512 | 0 -/
  lost     : Nat := 0
  /-- lost records since the last Recorder record | Nat | R505 | 0 -/
  lostNew  : Nat := 0
  /-- flushes | U64 | R512 | 0 -/
  flushes  : Nat := 0
  /-- torn slots | U32 | R512 | 0 -/
  torn     : Nat := 0
  /-- busy refusals | U32 | R512 | 0 -/
  busy     : Nat := 0
deriving DecidableEq, Repr

/-- Dawn, reset and lifetime counters (R496, R513-R530). -/
structure Dawn where
  /-- Dawn step last completed; 0 while RESET_N is asserted | U8 | R530 | 0 -/
  step     : Nat := 0
  /-- Dawn stopped at the step after it | 1 bit | R530 | 0 -/
  stopped  : Bool := false
  /-- this Dawn is warm | 1 bit | R520 | 0 -/
  warm     : Bool := false
  /-- Dawn goes on from step 6 after a loss of frame lock, with nothing else lost | 1 bit | R438 | 0 -/
  regain   : Bool := false
  /-- a reset has been requested and its Dawn has not started | 0 none, 1 warm, 2 cold | R521 | 0 -/
  request  : Nat := 0
  /-- shutdown state | U8 | R530 | 0 -/
  shutdown : Nat := 0
  /-- Dawn duration, ms | U32 | R530 | DESIGN CHOICE 0 (4) -/
  duration : Nat := 0
  /-- operating hours, 1/65,536 h | 48 bits | R496 | DESIGN CHOICE 0 (4) -/
  hours    : Nat := 0
  /-- hours saved in flash | 48 bits | R497 | 0 -/
  hoursSaved : Nat := 0
  /-- hours at this Dawn | U64 | R496 | DESIGN CHOICE 0 (4) -/
  hoursDawn : Nat := 0
  /-- power-cycle count | U32 | R496 | DESIGN CHOICE 0 (4) -/
  cycles   : Nat := 0
  /-- the device has reached service since manufacture | 1 bit | R525 | 0 -/
  served   : Bool := false
  /-- step 6 attempts repeated | Nat | R515 | 0 -/
  repeats  : Nat := 0
deriving DecidableEq, Repr

/-- The machine. -/
structure State where
  /-- commands that wait, first in, first out | queue | the block's command queue | empty -/
  pending : List Instr := []
  /-- the model's own counter of free values (assumption 2) | Nat | none: the model's | DESIGN CHOICE 0 (2) -/
  free    : Nat := 0
  /-- resident arrays 0-32767 | ArrayS | R14 | as shipped -/
  arrays  : SMap ArrayS := []
  /-- tiles 0-511 | Tile | R14 | empty -/
  tiles   : SMap Tile := []
  /-- scratchpad bytes of all tiles, key 0x6_0000 * tile + offset | 8 bits each | R118 | 0 (R124, R552: zeroed before
  use) -/
  spad    : List Host.Cell := []
  /-- the mesh | Mesh | R143 | empty -/
  mesh    : Mesh := {}
  /-- memory stacks, data space, engines | Memory | R213 | training -/
  mem     : Memory := {}
  /-- partitions 0-127 | Part | R245 | Free -/
  parts   : SMap Part := []
  /-- account slots 0-191 | Account | R254 | Free -/
  accts   : SMap Account := []
  /-- Ledger and Escrow | Ledger | R278 | empty -/
  ledger  : Ledger := {}
  /-- tensor-link endpoints 0-10 | Endpoint | R311 | unused -/
  links   : SMap Endpoint := []
  /-- frame unit and frame reference | FrameU | R211, R343 | frame 0 -/
  fu      : FrameU := {}
  /-- host ports, sessions, windows | HostSide | R344 | down -/
  host    : HostSide := {}
  /-- device health | Health | R398 | in service code 0 -/
  health  : Health := {}
  /-- Daylight positions 0-5 | Module | R405 | Absent -/
  mods    : SMap Module := []
  /-- power, thermal, clocks | Power | R413 | no readings -/
  power   : Power := {}
  /-- management complex | Mgmt | R447 | reset values -/
  mgmt    : Mgmt := {}
  /-- dictionary and UOA | Dict | R473 | defaults -/
  dict    : Dict := {}
  /-- event recorder | Recorder | R498 | empty -/
  recd    : Recorder := {}
  /-- Dawn and lifetime counters | Dawn | R513 | RESET_N asserted -/
  dawn    : Dawn := {}
deriving DecidableEq, Repr

/-- The machine right after reset: every field at its default above. -/
def State.reset : State := {}

/-- Reasons the machine stops with a fault. A command never stops the UX16 itself: every hardware fault of the spec is a
fault record and an abort, which are effects on the state. The one reason left is a key outside every address space. -/
inductive Fault where
  /-- Raised by no meaning of this model: kept so that the type of stops is named. Safe. -/
  | noSuchAddress
deriving DecidableEq, Repr

/-- Reasons a command has no meaning. -/
inductive Refusal where
  /-- The command's row has no meaning yet. Raised only by an arm of exec. Safe. -/
  | notModelled (mnemonic : String)
deriving DecidableEq, Repr

end Sys2Proof.Machine
end

