-- ==== Sys2Proof/Machine/Map.lean ====
section
/-! DEFINITION. Sparse data: maps by number and byte memories, both held as lists in one canonical form, and the
accessors of the State's own maps. -/

namespace Sys2Proof.Machine

/-! ## Maps -/

/-- The value under key `n`; `d` is what an unlisted key holds. -/
def SMap.get {α : Type} (m : SMap α) (d : α) (n : Nat) : α :=
  match m with
  | [] => d
  | (k, v) :: t => if k = n then v else SMap.get t d n

/-- A pair put before the first greater key. -/
def SMap.put {α : Type} (m : SMap α) (n : Nat) (v : α) : SMap α :=
  match m with
  | [] => [(n, v)]
  | p :: t => if n < p.1 then (n, v) :: p :: t else p :: SMap.put t n v

/-- The map without key `n`. -/
def SMap.drop {α : Type} (m : SMap α) (n : Nat) : SMap α := m.filter (fun p => p.1 ≠ n)

/-- The map with `v` under key `n`; the default value `d` is not listed. -/
def SMap.set {α : Type} [DecidableEq α] (m : SMap α) (d : α) (n : Nat) (v : α) : SMap α :=
  if v = d then SMap.drop m n else SMap.put (SMap.drop m n) n v

/-- One value changed in place. -/
def SMap.upd {α : Type} [DecidableEq α] (m : SMap α) (d : α) (n : Nat) (f : α → α) : SMap α :=
  SMap.set m d n (f (SMap.get m d n))

/-- Rising keys. -/
def SMap.rising {α : Type} : SMap α → Bool
  | [] => true
  | [_] => true
  | p :: q :: t => decide (p.1 < q.1) && SMap.rising (q :: t)

/-- The canonical form of a map: rising keys and no listed default. -/
def SMap.wf {α : Type} [DecidableEq α] (d : α) (m : SMap α) : Bool :=
  SMap.rising m && m.all (fun p => p.2 ≠ d)

/-- Every value of the map changed, values that become the default dropped. -/
def SMap.mapVals {α : Type} [DecidableEq α] (m : SMap α) (d : α) (f : Nat → α → α) : SMap α :=
  (m.map (fun p => (p.1, f p.1 p.2))).filter (fun p => p.2 ≠ d)

/-- A map from a list of values, key 0 first. -/
def SMap.ofList {α : Type} [DecidableEq α] (d : α) (l : List α) : SMap α :=
  (l.zipIdx.map (fun p => (p.2, p.1))).filter (fun p => p.2 ≠ d)

/-! ## Byte memories -/

/-- A byte memory: (address, byte) pairs, addresses rising, no zero byte listed. An unlisted byte reads 0. -/
abbrev Cells := List Host.Cell

/-- One byte. -/
def Cells.get (m : Cells) (a : Nat) : Byte :=
  match m with
  | [] => 0
  | (k, v) :: t => if k = a then v else Cells.get t a

/-- The bytes of a run of addresses. -/
def Cells.bytes (m : Cells) (base n : Nat) : List Byte :=
  let m' := m.filter (fun p => base ≤ p.1 ∧ p.1 < base + n)
  (List.range n).map (fun i => Cells.get m' (base + i))

/-- The listed form of a run of bytes from an address. -/
def Cells.run (base : Nat) : List Byte → Cells
  | [] => []
  | b :: t => if b = 0 then Cells.run (base + 1) t else (base, b) :: Cells.run (base + 1) t

/-- A run of bytes written from an address. -/
def Cells.write (m : Cells) (base : Nat) (bs : List Byte) : Cells :=
  m.filter (fun p => p.1 < base) ++ Cells.run base bs ++ m.filter (fun p => base + bs.length ≤ p.1)

/-- A run of addresses set to zero. -/
def Cells.clear (m : Cells) (base n : Nat) : Cells := m.filter (fun p => p.1 < base ∨ base + n ≤ p.1)

/-- Rising addresses. -/
def Cells.rising : Cells → Bool
  | [] => true
  | [_] => true
  | p :: q :: t => decide (p.1 < q.1) && Cells.rising (q :: t)

/-- The canonical form of a byte memory. -/
def Cells.wf (m : Cells) : Bool := Cells.rising m && m.all (fun p => p.2 ≠ 0)

/-! ## Lines -/

/-- Number from bytes, least significant first (R11). -/
def natOfBytes : List Byte → Nat
  | [] => 0
  | b :: t => b.toNat + 256 * natOfBytes t

/-- `n` bytes of a number, least significant first. -/
def bytesOfNat (n : Nat) (v : Nat) : List Byte := (List.range n).map (fun i => BitVec.ofNat 8 (v / 256 ^ i))

/-- `n` bytes of a number, most significant first. -/
def beBytes (n : Nat) (v : Nat) : List Byte := (bytesOfNat n v).reverse

/-- A line from its 128 bytes. -/
def lineOfBytes (bs : List Byte) : Line := BitVec.ofNat 1024 (natOfBytes bs)

/-- The 128 bytes of a line. -/
def bytesOfLine (l : Line) : List Byte := bytesOfNat 128 l.toNat

/-- 32-bit word `i` of a line. -/
def Line.w32 (l : Line) (i : Nat) : W32 := l.extractLsb' (32 * i) 32

/-- The words of a line, word 0 first. -/
def wordsOfLine (l : Line) : List W32 := (List.range 32).map (fun i => l.extractLsb' (32 * i) 32)

/-- The 64-bit words of a line, word 0 first. -/
def wordsOfLine64 (l : Line) : List W64 := (List.range 16).map (fun i => l.extractLsb' (64 * i) 64)

/-- A line from 32-bit words, word 0 first; words beyond 32 are dropped and missing ones are 0. -/
def lineOfWords (ws : List W32) : Line :=
  BitVec.ofNat 1024 ((ws.take 32).foldr (fun w acc => w.toNat + 4294967296 * acc) 0)

/-- The line of a byte memory at line number `n`. -/
def Cells.line (m : Cells) (n : Nat) : Line := lineOfBytes (Cells.bytes m (128 * n) 128)

/-- The line written. -/
def Cells.setLine (m : Cells) (n : Nat) (l : Line) : Cells := Cells.write m (128 * n) (bytesOfLine l)

/-! ## The State's maps -/

/-- Tile `t`. -/
def State.tile (s : State) (t : Nat) : Tile := SMap.get s.tiles {} t
/-- Tile `t` replaced. -/
def State.setTile (s : State) (t : Nat) (v : Tile) : State := { s with tiles := SMap.set s.tiles {} t v }
/-- Tile `t` changed. -/
def State.updTile (s : State) (t : Nat) (f : Tile → Tile) : State := s.setTile t (f (s.tile t))
/-- Every tile changed. -/
def State.mapTiles (s : State) (f : Nat → Tile → Tile) : State := { s with tiles := SMap.mapVals s.tiles {} f }

/-- Array `a`. -/
def State.array (s : State) (a : Nat) : ArrayS := SMap.get s.arrays {} a
/-- Array `a` replaced. -/
def State.setArray (s : State) (a : Nat) (v : ArrayS) : State := { s with arrays := SMap.set s.arrays {} a v }
/-- Array `a` changed. -/
def State.updArray (s : State) (a : Nat) (f : ArrayS → ArrayS) : State := s.setArray a (f (s.array a))

/-- Partition `p`. -/
def State.part (s : State) (p : Nat) : Part := SMap.get s.parts {} p
/-- Partition `p` replaced. -/
def State.setPart (s : State) (p : Nat) (v : Part) : State := { s with parts := SMap.set s.parts {} p v }
/-- Partition `p` changed. -/
def State.updPart (s : State) (p : Nat) (f : Part → Part) : State := s.setPart p (f (s.part p))
/-- Every partition changed. -/
def State.mapParts (s : State) (f : Nat → Part → Part) : State := { s with parts := SMap.mapVals s.parts {} f }

/-- Account slot `a`. -/
def State.acct (s : State) (a : Nat) : Account := SMap.get s.accts {} a
/-- Account slot `a` replaced. -/
def State.setAcct (s : State) (a : Nat) (v : Account) : State := { s with accts := SMap.set s.accts {} a v }
/-- Account slot `a` changed. -/
def State.updAcct (s : State) (a : Nat) (f : Account → Account) : State := s.setAcct a (f (s.acct a))
/-- Every account slot changed. -/
def State.mapAccts (s : State) (f : Nat → Account → Account) : State := { s with accts := SMap.mapVals s.accts {} f }

/-- Endpoint `l`. -/
def State.link (s : State) (l : Nat) : Endpoint := SMap.get s.links {} l
/-- Endpoint `l` replaced. -/
def State.setLink (s : State) (l : Nat) (v : Endpoint) : State := { s with links := SMap.set s.links {} l v }
/-- Endpoint `l` changed. -/
def State.updLink (s : State) (l : Nat) (f : Endpoint → Endpoint) : State := s.setLink l (f (s.link l))

/-- Module position `m`. -/
def State.module (s : State) (m : Nat) : Module := SMap.get s.mods {} m
/-- Module position `m` replaced. -/
def State.setModule (s : State) (m : Nat) (v : Module) : State := { s with mods := SMap.set s.mods {} m v }
/-- Module position `m` changed. -/
def State.updModule (s : State) (m : Nat) (f : Module → Module) : State := s.setModule m (f (s.module m))

/-- Session `n`. -/
def State.sess (s : State) (n : Nat) : Session := SMap.get s.host.sessions {} n
/-- Session `n` replaced. -/
def State.setSess (s : State) (n : Nat) (v : Session) : State :=
  { s with host := { s.host with sessions := SMap.set s.host.sessions {} n v } }
/-- Session `n` changed. -/
def State.updSess (s : State) (n : Nat) (f : Session → Session) : State := s.setSess n (f (s.sess n))

/-- Window entry `n`. -/
def State.window (s : State) (n : Nat) : Window := SMap.get s.host.windows {} n
/-- Window entry `n` replaced. -/
def State.setWindow (s : State) (n : Nat) (v : Window) : State :=
  { s with host := { s.host with windows := SMap.set s.host.windows {} n v } }

/-- Host port `p`. -/
def State.port (s : State) (p : Nat) : Port := SMap.get s.host.ports {} p
/-- Host port `p` replaced. -/
def State.setPort (s : State) (p : Nat) (v : Port) : State :=
  { s with host := { s.host with ports := SMap.set s.host.ports {} p v } }
/-- Host port `p` changed. -/
def State.updPort (s : State) (p : Nat) (f : Port → Port) : State := s.setPort p (f (s.port p))

/-- Stack `k`. -/
def State.stack (s : State) (k : Nat) : Stack := SMap.get s.mem.stk {} k
/-- Stack `k` changed. -/
def State.updStack (s : State) (k : Nat) (f : Stack → Stack) : State :=
  { s with mem := { s.mem with stk := SMap.upd s.mem.stk {} k f } }

/-- Engine `e`: 0-15 generation, 16-23 prompt. -/
def State.engine (s : State) (e : Nat) : Engine := SMap.get s.mem.engines {} e
/-- Engine `e` changed. -/
def State.updEngine (s : State) (e : Nat) (f : Engine → Engine) : State :=
  { s with mem := { s.mem with engines := SMap.upd s.mem.engines {} e f } }

/-- The context descriptor at a line. -/
def State.ctxAt (s : State) (line : Nat) : Ctx := SMap.get s.mem.ctx {} line
/-- The context descriptor at a line changed. -/
def State.updCtx (s : State) (line : Nat) (f : Ctx → Ctx) : State :=
  { s with mem := { s.mem with ctx := SMap.upd s.mem.ctx {} line f } }

/-- Router `r` changed. -/
def State.updRouter (s : State) (r : Nat) (f : Router → Router) : State :=
  { s with mesh := { s.mesh with routers := SMap.upd s.mesh.routers {} r f } }

/-- The part of the frame unit changed. -/
def State.updFu (s : State) (f : FrameU → FrameU) : State := { s with fu := f s.fu }
/-- Device health changed. -/
def State.updHealth (s : State) (f : Health → Health) : State := { s with health := f s.health }
/-- The Ledger changed. -/
def State.updLedger (s : State) (f : Ledger → Ledger) : State := { s with ledger := f s.ledger }
/-- The management complex changed. -/
def State.updMgmt (s : State) (f : Mgmt → Mgmt) : State := { s with mgmt := f s.mgmt }
/-- The dictionary changed. -/
def State.updDict (s : State) (f : Dict → Dict) : State := { s with dict := f s.dict }
/-- Power changed. -/
def State.updPower (s : State) (f : Power → Power) : State := { s with power := f s.power }
/-- The host side changed. -/
def State.updHost (s : State) (f : HostSide → HostSide) : State := { s with host := f s.host }
/-- The memory changed. -/
def State.updMem (s : State) (f : Memory → Memory) : State := { s with mem := f s.mem }
/-- The mesh changed. -/
def State.updMesh (s : State) (f : Mesh → Mesh) : State := { s with mesh := f s.mesh }
/-- The recorder changed. -/
def State.updRec (s : State) (f : Recorder → Recorder) : State := { s with recd := f s.recd }
/-- The Dawn block changed. -/
def State.updDawn (s : State) (f : Dawn → Dawn) : State := { s with dawn := f s.dawn }

/-- A 32-bit counter one higher, stopping at its largest value. -/
def bump32 (n : Nat) : Nat := min (n + 1) 4294967295

end Sys2Proof.Machine
end

