-- ==== Sys2Proof/Machine/Num.lean ====
section
/-! DEFINITION. Arithmetic: FP32 and BF16 by exact dyadic numbers and one rounding (R62), the functions of R134, the
exact exponential of the Mint (R263), Philox-4x32-10 (R80), CRC-32, SHA-384 and the digest arithmetic modulo 2^61 - 1. -/

namespace Sys2Proof.Machine

/-! ## Floating point -/

/-- A floating-point value: NaN, an infinity, or (-1)^neg * m * 2^e. -/
inductive FVal where
  | nan
  | inf (neg : Bool)
  | fin (neg : Bool) (m : Nat) (e : Int)
deriving DecidableEq, Repr

/-- The value of an FP32 word; a subnormal is zero of the same sign (R62). -/
def f32Val (w : W32) : FVal :=
  let neg := w.getLsbD 31
  let ex := (w.extractLsb' 23 8).toNat
  let fr := (w.extractLsb' 0 23).toNat
  if ex = 255 then (if fr = 0 then .inf neg else .nan)
  else if ex = 0 then .fin neg 0 0
  else .fin neg (fr + 8388608) ((ex : Int) - 150)

/-- The canonical quiet NaN (R62). -/
def f32NaN : W32 := 0x7FC00000

/-- An infinity. -/
def f32Inf (neg : Bool) : W32 := if neg then 0xFF800000 else 0x7F800000

/-- A zero. -/
def f32Zero (neg : Bool) : W32 := if neg then 0x80000000 else 0

/-- Number of bits of a natural number, 0 for 0. -/
def bitLen (n : Nat) : Nat := if n = 0 then 0 else n.log2 + 1

/-- `m / 2^k` rounded to nearest, ties to even. -/
def shrRne (m k : Nat) : Nat :=
  let q := m >>> k
  let r := m % 2 ^ k
  let h := 2 ^ k / 2
  if k = 0 then m else if r > h ∨ (r = h ∧ q % 2 = 1) then q + 1 else q

/-- The value m * 2^e (m not 0) rounded to `p` bits with an unbounded exponent: the significand, of exactly `p` bits,
and its exponent. -/
def roundSig (p m : Nat) (e : Int) : Nat × Int :=
  let n := bitLen m
  if n ≤ p then (m <<< (p - n), e - ((p - n : Nat) : Int))
  else
    let q := shrRne m (n - p)
    let e' := e + ((n - p : Nat) : Int)
    if q = 2 ^ p then (2 ^ (p - 1), e' + 1) else (q, e')

/-- The value (-1)^neg * m * 2^e rounded to FP32 as R62: judged after rounding, below the smallest normal magnitude zero
of the same sign, beyond the largest an infinity. -/
def f32Round (neg : Bool) (m : Nat) (e : Int) : W32 :=
  if m = 0 then f32Zero neg
  else
    let (q, e') := roundSig 24 m e
    let ex := e' + 150
    if ex ≤ 0 then f32Zero neg
    else if 255 ≤ ex then f32Inf neg
    else BitVec.ofNat 32 ((if neg then 2147483648 else 0) + ex.toNat * 8388608 + (q - 8388608))

/-- The signed significand of two finite values at their lower exponent. -/
def align2 (n₁ : Bool) (m₁ : Nat) (e₁ : Int) (n₂ : Bool) (m₂ : Nat) (e₂ : Int) : Int × Int × Int :=
  let e := min e₁ e₂
  let v := fun (n : Bool) (m : Nat) (x : Int) => (if n then -1 else 1 : Int) * (m : Int) * 2 ^ (x - e).toNat
  (v n₁ m₁ e₁, v n₂ m₂ e₂, e)

/-- The sum of two values. An exact zero sum of values of different sign is +0. -/
def fvAdd : FVal → FVal → FVal
  | .nan, _ => .nan
  | _, .nan => .nan
  | .inf a, .inf b => if a = b then .inf a else .nan
  | .inf a, .fin _ _ _ => .inf a
  | .fin _ _ _, .inf b => .inf b
  | .fin n₁ m₁ e₁, .fin n₂ m₂ e₂ =>
    if m₁ = 0 ∧ m₂ = 0 then .fin (n₁ && n₂) 0 0
    else if m₁ = 0 then .fin n₂ m₂ e₂
    else if m₂ = 0 then .fin n₁ m₁ e₁
    else
      let (a, b, e) := align2 n₁ m₁ e₁ n₂ m₂ e₂
      let t := a + b
      .fin (decide (t < 0)) t.natAbs e

/-- The product of two values. -/
def fvMul : FVal → FVal → FVal
  | .nan, _ => .nan
  | _, .nan => .nan
  | .inf a, .inf b => .inf (a != b)
  | .inf a, .fin n m _ => if m = 0 then .nan else .inf (a != n)
  | .fin n m _, .inf b => if m = 0 then .nan else .inf (n != b)
  | .fin n₁ m₁ e₁, .fin n₂ m₂ e₂ => .fin (n₁ != n₂) (m₁ * m₂) (e₁ + e₂)

/-- A value with its sign changed. -/
def fvNeg : FVal → FVal
  | .nan => .nan
  | .inf a => .inf (!a)
  | .fin n m e => .fin (!n) m e

/-- A value as FP32 (R62). -/
def fvToF32 : FVal → W32
  | .nan => f32NaN
  | .inf n => f32Inf n
  | .fin n m e => f32Round n m e

/-- FP32 sum. -/
def f32Add (a b : W32) : W32 := fvToF32 (fvAdd (f32Val a) (f32Val b))
/-- FP32 difference. -/
def f32Sub (a b : W32) : W32 := fvToF32 (fvAdd (f32Val a) (fvNeg (f32Val b)))
/-- FP32 product. -/
def f32Mul (a b : W32) : W32 := fvToF32 (fvMul (f32Val a) (f32Val b))
/-- FP32 fused a * b + c, one rounding. -/
def f32Fma (a b c : W32) : W32 := fvToF32 (fvAdd (fvMul (f32Val a) (f32Val b)) (f32Val c))

/-- a / b rounded (R62), as the Mint divides (R263). A sticky bit stands for the remainder. -/
def f32Div (a b : W32) : W32 :=
  match f32Val a, f32Val b with
  | .nan, _ => f32NaN
  | _, .nan => f32NaN
  | .inf _, .inf _ => f32NaN
  | .inf n, .fin n' _ _ => f32Inf (n != n')
  | .fin n _ _, .inf n' => f32Zero (n != n')
  | .fin n m e, .fin n' m' e' =>
    if m' = 0 then (if m = 0 then f32NaN else f32Inf (n != n'))
    else
      let q := (m <<< 64) / m'
      let r := (m <<< 64) % m'
      f32Round (n != n') (2 * q + (if r = 0 then 0 else 1)) (e - e' - 65)

/-- The order of two finite or infinite values; NaN compares false. -/
def fvLt : FVal → FVal → Bool
  | .nan, _ => false
  | _, .nan => false
  | .inf a, .inf b => a && !b
  | .inf a, .fin _ _ _ => a
  | .fin _ _ _, .inf b => !b
  | .fin n₁ m₁ e₁, .fin n₂ m₂ e₂ =>
    let (a, b, _) := align2 n₁ m₁ e₁ n₂ m₂ e₂
    decide (a < b)

/-- Equality of values; the two zeros are equal and NaN equals nothing. -/
def fvEq : FVal → FVal → Bool
  | .nan, _ => false
  | _, .nan => false
  | .inf a, .inf b => a == b
  | .inf _, .fin _ _ _ => false
  | .fin _ _ _, .inf _ => false
  | .fin n₁ m₁ e₁, .fin n₂ m₂ e₂ =>
    let (a, b, _) := align2 n₁ m₁ e₁ n₂ m₂ e₂
    decide (a = b)

/-- FP32 less than. -/
def f32Lt (a b : W32) : Bool := fvLt (f32Val a) (f32Val b)
/-- FP32 less than or equal. -/
def f32Le (a b : W32) : Bool := f32Lt a b || fvEq (f32Val a) (f32Val b)
/-- FP32 equal. -/
def f32Eq (a b : W32) : Bool := fvEq (f32Val a) (f32Val b)
/-- NaN. -/
def f32IsNaN (a : W32) : Bool := f32Val a == .nan

/-- FP32 minimum or maximum. A NaN operand, or two zeros of different sign, leave the result open. -/
def f32MinMax (isMax : Bool) (a b : W32) : W32 :=
  let x := fvToF32 (f32Val a)
  let y := fvToF32 (f32Val b)
  if f32IsNaN a && f32IsNaN b then f32NaN
  else if f32IsNaN a then (if Config.minMaxOpen isMax a b then f32NaN else y)
  else if f32IsNaN b then (if Config.minMaxOpen isMax a b then f32NaN else x)
  else if f32Eq a b then (if x = y then x else f32Zero (Config.minMaxOpen isMax a b))
  else if f32Lt a b == isMax then fvToF32 (f32Val b) else fvToF32 (f32Val a)

/-- An integer as FP32. -/
def f32OfInt (i : Int) : W32 := f32Round (decide (i < 0)) i.natAbs 0

/-- A finite value truncated to an integer; none for NaN and infinities. -/
def fvTrunc : FVal → Option Int
  | .fin n m e =>
    let a := if 0 ≤ e then m <<< e.toNat else m >>> (-e).toNat
    some (if n then -(a : Int) else (a : Int))
  | _ => none

/-- BF16: the value of a 16-bit word is that of the FP32 word with these upper bits. -/
def bf16Val (w : BitVec 16) : FVal := f32Val (w ++ (0 : BitVec 16))

/-- A value rounded to BF16 (R62). -/
def fvToBf16 : FVal → BitVec 16
  | .nan => 0x7FC0
  | .inf n => if n then 0xFF80 else 0x7F80
  | .fin n m e =>
    let sgn := if n then 32768 else 0
    if m = 0 then BitVec.ofNat 16 sgn
    else
      let (q, e') := roundSig 8 m e
      let ex := e' + 134
      if ex ≤ 0 then BitVec.ofNat 16 sgn
      else if 255 ≤ ex then BitVec.ofNat 16 (sgn + 32640)
      else BitVec.ofNat 16 (sgn + ex.toNat * 128 + (q - 128))

/-- A BF16 operation on the two halves of a 32-bit lane. -/
def bf16Lane (f : FVal → FVal → FVal) (a b : W32) : W32 :=
  fvToBf16 (f (bf16Val (a.extractLsb' 16 16)) (bf16Val (b.extractLsb' 16 16)))
    ++ fvToBf16 (f (bf16Val (a.extractLsb' 0 16)) (bf16Val (b.extractLsb' 0 16)))

/-- BF16 fused a * b + c on the two halves of a lane. -/
def bf16Fma (a b c : W32) : W32 :=
  let h := fun (k : Nat) => fvToBf16 (fvAdd (fvMul (bf16Val (a.extractLsb' k 16)) (bf16Val (b.extractLsb' k 16)))
    (bf16Val (c.extractLsb' k 16)))
  h 16 ++ h 0

/-! ## Functions -/

/-- Fixed point with 192 fraction bits: ln 2. -/
def fxLn2 : Nat := 4350955369971217654477563090224794165364344896676135745069
/-- Fixed point with 192 fraction bits: 2 / sqrt(pi). -/
def fxTwoRtPi : Nat := 7082950827949419406546779429796514218173736946937360083502
/-- One. -/
def fxOne : Nat := 2 ^ 192

/-- m * 2^e in fixed point with 192 fraction bits, rounded down. -/
def fxOf (m : Nat) (e : Int) : Nat := if 0 ≤ e + 192 then m <<< (e + 192).toNat else m >>> (-(e + 192)).toNat

/-- The power series of exp from term `n` with value `t`. -/
def fxExpSeries (r : Nat) : Nat → Nat → Nat → Nat → Nat
  | 0, _, _, acc => acc
  | k + 1, n, t, acc => fxExpSeries r k (n + 1) (t * r / fxOne / (n + 1)) (acc + t)

/-- exp of the finite value (-1)^neg * m * 2^e, |x| < 2^9, as significand and exponent. -/
def dyExp (neg : Bool) (m : Nat) (e : Int) : Nat × Int :=
  let x : Int := (if neg then -1 else 1) * (fxOf m e : Int)
  let k := x / (fxLn2 : Int)
  let r := (x - k * (fxLn2 : Int)).toNat
  (fxExpSeries r 44 0 fxOne 0, k - 192)

/-- exp rounded to FP32 (R62): nearest, ties to even, of the exact value. -/
def f32Exp (w : W32) : W32 :=
  match f32Val w with
  | .nan => f32NaN
  | .inf n => if n then 0 else f32Inf false
  | .fin n m e =>
    if 9 ≤ (bitLen m : Int) + e then (if n then 0 else f32Inf false)
    else
      let (q, e') := dyExp n m e
      f32Round false q e'

/-- The series of atanh: z^(2n+1)/(2n+1). -/
def fxAtanh (z2 : Nat) : Nat → Nat → Nat → Nat → Nat
  | 0, _, _, acc => acc
  | k + 1, d, t, acc => fxAtanh z2 k (d + 2) (t * z2 / fxOne) (acc + t / d)

/-- The natural logarithm of m * 2^e, m not 0, in fixed point. -/
def fxLog (m : Nat) (e : Int) : Int :=
  let n := bitLen m
  let y := (m <<< 192) >>> (n - 1)
  let z := ((y - fxOne) <<< 192) / (y + fxOne)
  let ly := 2 * fxAtanh (z * z / fxOne) 64 1 z 0
  (e + (n : Int) - 1) * (fxLn2 : Int) + (ly : Int)

/-- The integer square root, bit by bit. -/
def isqrtBits : Nat → Nat → Nat → Nat
  | 0, _, acc => acc
  | k + 1, n, acc =>
    let c := acc + 2 ^ k
    isqrtBits k n (if c * c ≤ n then c else acc)

/-- The series of erf without its factor: signed terms x^(2n+1) / (n! (2n+1)). -/
def fxErfSeries (x2 : Nat) : Nat → Nat → Nat → Int → Int
  | 0, _, _, acc => acc
  | k + 1, n, t, acc =>
    fxErfSeries x2 k (n + 1) (t * x2 / fxOne / (n + 1))
      (acc + (if n % 2 = 0 then 1 else -1) * ((t / (2 * n + 1) : Nat) : Int))

/-- The functions of FUNC 0x18-0x1D (R182). -/
inductive FnKind where
  | exp | log | rcp | rsq | sig | erf
deriving DecidableEq, Repr

/-- The number of a function, as FUNC minus 0x18. -/
def FnKind.code : FnKind → Nat
  | .exp => 0 | .log => 1 | .rcp => 2 | .rsq => 3 | .sig => 4 | .erf => 5

/-- The exact value of a function at a finite argument, to far beyond FP32: none where the function has no finite
value there, or where the spec states no result. -/
def fnExact (f : FnKind) (n : Bool) (m : Nat) (e : Int) : Option (Bool × Nat × Int) :=
  match f with
  | .exp =>
    if 9 ≤ (bitLen m : Int) + e then none
    else let (q, x) := dyExp n m e; some (false, q, x)
  | .log =>
    if m = 0 ∨ n = true then none
    else let l := fxLog m e; some (decide (l < 0), l.natAbs, -192)
  | .rcp => if m = 0 then none else some (n, (2 ^ 256) / m, -256 - e)
  | .rsq =>
    if m = 0 ∨ n = true then none
    else
      let odd := e % 2 ≠ 0
      let m' := if odd then 2 * m else m
      let e' := if odd then e - 1 else e
      some (false, isqrtBits 260 (2 ^ 512 / m') 0, -256 - e' / 2)
  | .sig =>
    if 9 ≤ (bitLen m : Int) + e then (if n then some (false, 0, 0) else some (false, 1, 0))
    else
      let (q, x) := dyExp true m e
      let ex := if 0 ≤ x + 192 then q <<< (x + 192).toNat else q >>> (-(x + 192)).toNat
      if n then some (false, (q <<< 192) / (fxOne + ex), x) else some (false, (2 ^ 384) / (fxOne + ex), -192)
  | .erf =>
    if 3 ≤ (bitLen m : Int) + e ∧ fxOf m e ≥ 42 * fxOne / 10 then some (n, 1, 0)
    else
      let x := fxOf m e
      let s := (fxErfSeries (x * x / fxOne) 128 0 x 0).natAbs
      if m = 0 then some (n, 0, 0)
      else if (bitLen m : Int) + e < -60 then some (n, m * fxTwoRtPi, e - 192)
      else some (n, s * fxTwoRtPi / fxOne, -192)

/-- The value c (an FP32 word) lies within 2 ulp of the exact value; the ulp is that of the rounded result `w`. -/
def withinTwoUlp (w c : W32) (n : Bool) (m : Nat) (e : Int) : Bool :=
  match f32Val c, f32Val w with
  | .fin n' m' e', .fin _ mw ew =>
    let (a, b, x) := align2 n m e n' m' e'
    let (u, _, x') := align2 false (if mw = 0 then 0 else 2) ew false 0 x
    decide (mw ≠ 0 ∧ m' ≠ 0) && decide ((a - b).natAbs * 2 ^ (x - x').toNat ≤ u.natAbs)
  | _, _ => false

/-- A result that the spec does not state: a free value that is no subnormal and no other NaN than the canonical one (R62). -/
def fnOpenResult (f : FnKind) (w : W32) : W32 := fvToF32 (f32Val (Config.fnOpen f.code w))

/-- A function of R134: some FP32 value within 2 ulp of the exact result, the same for the same input everywhere; which
one is the part's own table method, a free choice. -/
def f32Fn (f : FnKind) (w : W32) : W32 :=
  match f32Val w with
  | .nan => f32NaN
  | .inf n =>
    match f with
    | .exp => if n then 0 else f32Inf false
    | .log => if n then fnOpenResult f w else f32Inf false
    | .rcp => f32Zero n
    | .rsq => if n then fnOpenResult f w else 0
    | .sig => if n then 0 else 0x3F800000
    | .erf => if n then 0xBF800000 else 0x3F800000
  | .fin n m e =>
    match fnExact f n m e with
    | none =>
      match f with
      | .exp => if n then 0 else f32Inf false
      | _ => fnOpenResult f w
    | some (n', m', e') =>
      let r := f32Round n' m' e'
      let c := r + (Config.fnUlp f.code w).signExtend 32
      if withinTwoUlp r c n' m' e' then c else r

/-! ## Philox-4x32-10 (R80) -/

/-- A block of four words. -/
structure Quad where
  a : W32
  b : W32
  c : W32
  d : W32
deriving DecidableEq, Repr

/-- The rounds of Philox-4x32 that remain. -/
def philoxRounds : Nat → W32 → W32 → Quad → Quad
  | 0, _, _, q => q
  | n + 1, k0, k1, q =>
    let p0 := 0xD2511F53 * q.a.toNat
    let p1 := 0xCD9E8D57 * q.c.toNat
    let hi0 := BitVec.ofNat 32 (p0 / 4294967296)
    let lo0 := BitVec.ofNat 32 p0
    let hi1 := BitVec.ofNat 32 (p1 / 4294967296)
    let lo1 := BitVec.ofNat 32 p1
    philoxRounds n (k0 + 0x9E3779B9) (k1 + 0xBB67AE85) ⟨hi1 ^^^ q.b ^^^ k0, lo1, hi0 ^^^ q.d ^^^ k1, lo0⟩

/-- One block of the stream for key words k0, k1 and counter words c0-c3. -/
def philox (k0 k1 c0 c1 c2 c3 : W32) : Quad := philoxRounds 10 k0 k1 ⟨c0, c1, c2, c3⟩

/-- Word `i` of a block. -/
def Quad.word (q : Quad) (i : Nat) : W32 :=
  if i % 4 = 0 then q.a else if i % 4 = 1 then q.b else if i % 4 = 2 then q.c else q.d

/-! ## CRC-32 -/

/-- Eight bits of the reflected CRC. -/
def crcBits : Nat → W32 → W32
  | 0, c => c
  | n + 1, c => crcBits n (if c.getLsbD 0 then (c >>> 1) ^^^ 0xEDB88320 else c >>> 1)

/-- The CRC register after a byte string. The match computes the register after each byte before the next one is taken, so that a long
string costs no depth of recursion; `crcRun_cons` says what it does. -/
def crcRun : List Byte → W32 → W32
  | [], c => c
  | b :: t, c =>
    match (crcBits 8 (c ^^^ b.setWidth 32)).toNat with
    | 0 => crcRun t 0
    | n + 1 => crcRun t (BitVec.ofNat 32 (n + 1))

/-- IEEE 802.3 CRC-32 of a byte string. -/
def crc32 (bs : List Byte) : W32 := ~~~ (crcRun bs 0xFFFFFFFF)

/-! ## SHA-384 (R551) -/

/-- The greatest `r` below `base + 2^bits` with `r^e ≤ v`, found bit by bit. -/
def rootBits (e v : Nat) : Nat → Nat → Nat
  | 0, base => base
  | bits + 1, base => rootBits e v bits (if (base + 2 ^ bits) ^ e ≤ v then base + 2 ^ bits else base)

/-- The primes below 410, of which there are 80. -/
def smallPrimes : List Nat :=
  (List.range 410).filter (fun n => decide (2 ≤ n) && [2, 3, 5, 7, 11, 13, 17, 19].all (fun d => decide (n = d ∨ n % d ≠ 0)))

/-- The first 64 bits of the fraction of the `e`-th root of `n`. -/
def rootFraction (e n : Nat) : W64 := BitVec.ofNat 64 (rootBits e (n * 2 ^ (64 * e)) 70 0)

/-- The 80 round constants: fractions of the cube roots of the first 80 primes (FIPS 180-4). -/
def shaK : List W64 := smallPrimes.map (rootFraction 3)

/-- The eight starting words: fractions of the square roots of the ninth to the sixteenth prime (FIPS 180-4). -/
def shaStart : List W64 := ((smallPrimes.drop 8).take 8).map (rootFraction 2)

/-- A word turned right by each of the amounts, the results combined by exclusive or. -/
def turned (w : W64) (amounts : List Nat) : W64 := amounts.foldl (fun x n => x ^^^ w.rotateRight n) 0

/-- `n` further words of the message schedule in front of those there are, latest first. -/
def shaExpand : Nat → List W64 → List W64
  | 0, w => w
  | n + 1, w =>
    let near := w.getD 1 0
    let far := w.getD 14 0
    let mix := (turned far [1, 8] ^^^ far >>> 7) + (turned near [19, 61] ^^^ near >>> 6)
    shaExpand n ((mix + w.getD 6 0 + w.getD 15 0) :: w)

/-- The state after one round with the sum of its constant and schedule word. -/
def shaRound (v : List W64) (kw : W64) : List W64 :=
  let x := fun (i : Nat) => v.getD i 0
  let up := kw + x 7 + turned (x 4) [14, 18, 41] + ((x 4 &&& x 5) ^^^ (~~~ x 4 &&& x 6))
  let down := turned (x 0) [28, 34, 39] + ((x 0 &&& x 1) ||| (x 2 &&& (x 0 ||| x 1)))
  [up + down, x 0, x 1, x 2, up + x 3, x 4, x 5, x 6]

/-- The state after one 128-byte block. -/
def shaBlock (v : List W64) (blk : List Byte) : List W64 :=
  let first := (List.range 16).map (fun i => BitVec.ofNat 64 (natOfBytes ((blk.drop (8 * i)).take 8).reverse))
  let sums := List.zipWith (fun k w => k + w) shaK (shaExpand 64 first.reverse).reverse
  List.zipWith (fun old new => old + new) v (sums.foldl shaRound v)

/-- The 128-byte blocks of a byte string. -/
def blocks128 : Nat → List Byte → List (List Byte)
  | 0, _ => []
  | n + 1, bs => if bs.isEmpty then [] else bs.take 128 :: blocks128 n (bs.drop 128)

/-- The SHA-384 digest of a byte string as a 384-bit number, most significant byte first (R551). -/
def sha384 (bs : List Byte) : BitVec 384 :=
  let pad := (239 - bs.length % 128) % 128
  let m := bs ++ [0x80] ++ List.replicate pad 0 ++ (bytesOfNat 16 (8 * bs.length)).reverse
  let v := (blocks128 m.length m).foldl shaBlock shaStart
  BitVec.ofNat 384 ((v.take 6).foldl (fun n w => 18446744073709551616 * n + w.toNat) 0)

/-- The low 64 bits of a SHA-384 digest (R551). -/
def sha384Low (bs : List Byte) : BitVec 64 := (sha384 bs).extractLsb' 0 64

/-- A key filled with zero bytes to a block of 128, each byte XORed with `c`. -/
def macPad (key : List Byte) (c : Byte) : List Byte := (key ++ List.replicate (128 - key.length) 0).map (fun b => b ^^^ c)

/-- The bytes of a digest, most significant first. -/
def digestBytes (d : BitVec 384) : List Byte := (bytesOfNat 48 d.toNat).reverse

/-- HMAC-SHA-384 under a key of at most 128 bytes (R484, R489). -/
def macOf (key msg : List Byte) : BitVec 384 := sha384 (macPad key 0x5C ++ digestBytes (sha384 (macPad key 0x36 ++ msg)))

/-- The blocks of an HKDF-SHA-384 expansion, from the one before and its number (R489). -/
def expandKey (prk info : List Byte) (last : List Byte) (i : Nat) : Nat → List Byte
  | 0 => []
  | n + 1 => let t := digestBytes (macOf prk (last ++ info ++ [BitVec.ofNat 8 i])); t ++ expandKey prk info t (i + 1) n

/-- HKDF-SHA-384: the first 128 bytes of output (R489). -/
def deriveKeys (secret salt info : List Byte) : List Byte := (expandKey (digestBytes (macOf salt secret)) info [] 1 3).take 128

/-- Measurement register 5 after a load or a close (R469): SHA-384 over the old value, the event, the partition and the image's digest; one
byte each for event and partition, digests most significant byte first (log entry 104). -/
def chainNext (old : BitVec 384) (load : Bool) (p : Nat) (digest : BitVec 384) : BitVec 384 :=
  sha384 ((bytesOfNat 48 old.toNat).reverse ++ [if load then 1 else 0, BitVec.ofNat 8 p] ++ (bytesOfNat 48 digest.toNat).reverse)

/-! ## Residues and digests -/

/-- The prime of the digests, 2^61 - 1. -/
def m61 : Nat := 2305843009213693951

/-- An integer modulo 2^61 - 1. -/
def mod61 (i : Int) : Nat := (i % (m61 : Int)).toNat

/-- An integer modulo 255 (R375). -/
def mod255 (i : Int) : Nat := (i % 255).toNat

/-- The no-value code of P32 (R61). -/
def p32None : W32 := 0x80000000

/-- P32 addition (R77): the no-value code is absorbing, other sums wrap. -/
def p32Add (a b : W32) : W32 := if a = p32None ∨ b = p32None then p32None else a + b

end Sys2Proof.Machine
end

