-- ==== Sys2Proof/Machine/Flags.lean ====
section
/-! DEFINITION. Status words and records: the status word of R46, the fault record of R204, the event record of R499,
and the flags and small computed fields of the machine. -/

namespace Sys2Proof.Machine

/-- The status word as its 32 bits (R46). -/
def StatusWord.bits (w : StatusWord) : W32 :=
  w.mode ++ w.array ++ BitVec.ofBool w.zero ++ BitVec.ofBool w.tallyFail ++ BitVec.ofBool w.sat
    ++ BitVec.ofBool w.accSat ++ BitVec.ofBool w.widened ++ BitVec.ofBool w.stale ++ (0 : BitVec 3) ++ w.failMask
    ++ w.satMask

/-- The status word after an add of an operation with status `o` (R46): ZERO is ANDed, other flags ORed, MODE and ARRAY
replaced. -/
def StatusWord.add (w o : StatusWord) : StatusWord :=
  { mode := o.mode, array := o.array, zero := w.zero && o.zero, tallyFail := w.tallyFail || o.tallyFail,
    sat := w.sat || o.sat, accSat := w.accSat || o.accSat, widened := w.widened || o.widened,
    stale := w.stale || o.stale, failMask := w.failMask ||| o.failMask, satMask := w.satMask ||| o.satMask }

/-- A fault as its detector sees it (R204). -/
structure FaultInfo where
  code   : BitVec 8
  tag    : Tag := 0xFE
  /-- none: a unit that is no tile, COL and ROW 0 -/
  tile   : Option TileNo := none
  unit   : BitVec 8
  /-- all ones: no instruction -/
  iaddr  : BitVec 14 := 0x3FFF
  stream : BitVec 3 := 0
  cycle  : Nat := 0
  detail : BitVec 32 := 0
  /-- the fault is of the unit that the router output named by UNIT leads to, a stack controller, an engine or the management port, and not
  of the router: R204 gives those units no code of their own -/
  attached : Bool := false
deriving DecidableEq, Repr

/-- The tag names a partition, 0x00-0x7F (R122). -/
def Tag.isPart (t : Tag) : Bool := decide (t.toNat < 128)

/-- The 256-bit fault record (R204). -/
def faultRecord (s : State) (f : FaultInfo) : BitVec 256 :=
  let p := s.part f.tag.toNat
  let t := (f.tile.getD 0).toNat
  BitVec.ofNat 64 s.fu.frame
    ++ (if Tag.isPart f.tag then p.step else (BitVec.allOnes 48))
    ++ f.code ++ f.tag ++ s.dict.addr
    ++ BitVec.ofNat 4 (t % 16) ++ BitVec.ofNat 5 (t / 16)
    ++ f.unit ++ f.iaddr ++ f.stream
    ++ (if Tag.isPart f.tag then p.attempt else 0)
    ++ BitVec.ofNat 12 f.cycle ++ f.detail ++ (0 : BitVec 32)

/-- The kind of an event record (R500). -/
def Payload.kind : Payload → Nat
  | .fault _ => 1
  | .change .. => 2
  | .cont _ => 3
  | .generic k .. => k

/-- The 312 payload bits of an event record (R501-R503). -/
def Payload.bits : Payload → BitVec 312
  | .fault w => (0 : BitVec 56) ++ w
  | .change ck index sub status role port tenant session addr value =>
    BitVec.ofNat 4 ck ++ index ++ sub ++ status ++ BitVec.ofNat 3 role ++ BitVec.ofNat 3 port ++ (0 : BitVec 14)
      ++ tenant ++ session ++ addr ++ value
  | .cont f => f ++ (0 : BitVec 248)
  | .generic _ code object step after before words =>
    BitVec.ofNat 8 code ++ BitVec.ofNat 16 object ++ words ++ step ++ after ++ before

/-- An event record with its CRC field zero (R499). -/
def ERec.body (r : ERec) : BitVec 512 :=
  BitVec.ofNat 40 r.seq ++ BitVec.ofNat 48 r.hours ++ BitVec.ofNat 32 r.cycles ++ r.frame
    ++ BitVec.ofNat 8 r.payload.kind ++ BitVec.ofBool r.flock ++ BitVec.ofBool r.cont ++ (0 : BitVec 6)
    ++ r.payload.bits ++ (0 : BitVec 32)

/-- The 64 bytes of an event record, its CRC-32 over the record with the CRC field zero (R498, R499). -/
def ERec.bytes (r : ERec) : List Byte :=
  let b := bytesOfNat 64 r.body.toNat
  bytesOfNat 4 (crc32 b).toNat ++ b.drop 4

/-- A block-table entry as its 16 bits (R122). -/
def Block.bits (b : Block) : BitVec 16 :=
  (0 : BitVec 6) ++ BitVec.ofBool b.powered ++ BitVec.ofBool b.retained ++ b.tag

/-- Cycles of a frame by its length code (R164). -/
def frameCycles (len : BitVec 2) : Nat :=
  match len.toNat with
  | 0 => 1024 | 1 => 1152 | 2 => 1280 | _ => 1536

/-- Dusk of a frame (R164). -/
def duskCycles (len : BitVec 2) : Nat := frameCycles len - 960

/-- The pause allowance of a frame (R164). -/
def pauseAllowance (len : BitVec 2) : Nat := duskCycles len - 32

/-- A bit of a 1,024-bit bitmap set. -/
def Line.setBit (l : Line) (i : Nat) : Line := l ||| (BitVec.ofNat 1024 (2 ^ (i % 1024)))

/-- The bits of a list of layers. -/
def layerBits (ls : List (BitVec 10)) : Line := ls.foldl (fun l i => Line.setBit l i.toNat) 0

/-- Busy cycles of a resident operation by mode code (R30). -/
def modeBusy (mode : Nat) : Nat :=
  match mode with
  | 0 => 192 | 1 => 384 | 2 => 384 | 3 => 48 | _ => 384

/-- Cycles from issue to result readable (R30). -/
def modeReadable (mode : Nat) : Nat := modeBusy mode + 8

/-- Conversion slots of a mode (R30). -/
def modeSlots (mode : Nat) : Nat :=
  match mode with
  | 0 => 16 | 1 => 32 | 2 => 32 | 3 => 4 | _ => 32

/-- The conversion window of a mode, LSB; none in transposed mode (R40). For averaged mode it is on the mean. -/
def convWindow (mode : Nat) (widened : Bool) : Option Nat :=
  match mode with
  | 0 => some (if widened then 30 else 20)
  | 1 => some (if widened then 21 else 14)
  | 2 => some (if widened then 30 else 20)
  | 3 => some (if widened then 30 else 20)
  | _ => none

/-- The output window of a mode in cu (R40). -/
def outWindow (mode : Nat) (widened : Bool) : Nat :=
  match mode with
  | 0 => if widened then 540 else 360
  | 1 => if widened then 384 else 256
  | 2 => if widened then 8640 else 5760
  | 3 => if widened then 1536 else 1024
  | _ => if widened then 12000 else 8000

/-- The parity bit of each byte of a word, byte 0 lowest; even parity is a DESIGN CHOICE (80). -/
def byteParity (w : W64) : BitVec 8 :=
  BitVec.ofNat 8 (((List.range 8).map (fun b =>
    if (List.range 8).foldl (fun p k => p != w.getLsbD (8 * b + k)) false then 2 ^ b else 0)).sum)

end Sys2Proof.Machine
end

