-- ==== Sys2Proof/Machine/Ops.lean ====
section
/-! DEFINITION. The operations every family shares: event records, fault reports and aborts, Twilight decisions,
messages to links and to the mesh, free values, tags, scratchpad and stack lines. -/

namespace Sys2Proof.Machine

/-! ## Free values -/

/-- The machine after one free value was used. -/
def State.freed (s : State) : State := { s with free := s.free + 1 }

/-! ## Time -/

/-- True while the die runs: no reset holds it, it is not fail-silent and not without power. -/
def State.alive (s : State) : Bool :=
  !s.health.silent && !s.power.resetPin && s.power.rails && decide (s.dawn.step ≠ 0)

/-- Real cycle of the frame at which schedule cycle `c` is reached (R194, R196). -/
def State.realOf (s : State) (c : Nat) : Nat := c + s.fu.held + s.fu.paused

/-- Real cycles since Dawn at real cycle `rc` of the current frame. -/
def State.now (s : State) (rc : Nat) : Nat := s.fu.base + rc

/-- CYCLE of a fault found at real cycle `rc` of the frame (R204): the schedule cycle, which goes on as 960 and more in dusk and stands
during a hold. -/
def State.cycleAt (s : State) (rc : Nat) : Nat :=
  match s.fu.hold with
  | some (c, real, _) => if real ≤ rc then c else rc - (s.fu.held + s.fu.paused)
  | none => rc - (s.fu.held + s.fu.paused)

/-- The frame has come to a cycle: what is found from now on is found there (R204). -/
def State.reach (s : State) (cyc : Nat) : State := { s with fu := { s.fu with cycle := max s.fu.cycle cyc } }

/-- The schedule cycle at real cycle `rc`; none while a hold stands (R194). -/
def State.schedAt (s : State) (rc : Nat) : Option Nat :=
  match s.fu.hold with
  | some (_, real, _) => if real ≤ rc then none else some (s.cycleAt rc)
  | none => some (s.cycleAt rc)

/-- Real cycle `rc` lies in the dusk of the frame (R164). -/
def State.inDusk (s : State) (rc : Nat) : Bool := decide (s.fu.hold = none ∧ 960 ≤ s.cycleAt rc)

/-- Frames run: from the gain of frame lock in Dawn step 6 on, or its start on the frame master (R515). -/
def State.framed (s : State) : Bool :=
  decide (6 ≤ s.dawn.step) || (decide (s.dawn.step = 5) && (s.fu.lock || s.fu.acting))

/-! ## Event recorder (R498-R506) -/

/-- One record enters the buffer: SEQ and stamps as it enters (R504); FLOCK once frame lock has been gained (R499). -/
def State.pushRec (s : State) (p : Payload) (cont : Bool) : State :=
  let flock := s.framed
  let r : ERec :=
    { seq := s.recd.next, hours := s.dawn.hours, cycles := s.dawn.cycles,
      frame := if flock then BitVec.ofNat 32 s.fu.frame else 0, flock := flock, cont := cont, payload := p }
  { s with recd := { s.recd with next := s.recd.next + 1, buffer := s.recd.buffer ++ [r] } }

/-- The buffer admits a record of this kind (R505). -/
def State.admits (s : State) (kind : Nat) : Bool :=
  let n := s.recd.buffer.length
  decide (n < 448) || (decide (n < 512) && (kind == 1 || kind == 9 || kind == 13 || kind == 15))

/-- A record made, or lost and counted (R504, R505). -/
def State.record (s : State) (p : Payload) : State :=
  if s.admits p.kind then s.pushRec p false
  else { s with recd := { s.recd with lost := s.recd.lost + 1, lostNew := s.recd.lostNew + 1 } }

/-- A number put into a rising list once. -/
def insertRising (l : List Nat) (n : Nat) : List Nat :=
  match l with
  | [] => [n]
  | x :: t => if n < x then n :: x :: t else if n = x then x :: t else x :: insertRising t n

/-- A source is asserted: the unit holds it until firmware clears the cause (R452). -/
def State.assertSrc (s : State) (n : Nat) : State := { s with mgmt := { s.mgmt with asserted := insertRising s.mgmt.asserted n } }

/-- The interrupt source of the unit that an event is about (R452): a unit raises its source with the record it gives rise to (log entry
103). -/
def unitSource (kind object : Nat) : Option Nat :=
  match kind with
  | 0x05 => some (64 + object / 128)
  | 0x06 => some (if 0x8000 ≤ object then 3 + (object - 0x8000) else 64 + object / 2)
  | 0x07 => if object ≤ 10 then some (19 + object) else none
  | 0x08 => some 37
  | 0x09 => some 44
  | 0x0A => some (38 + object)
  | 0x0B => some 36
  | 0x0C => some 35
  | _ => none

/-- A unit raises its source. -/
def State.raise (s : State) (kind object : Nat) : State :=
  match unitSource kind object with
  | some n => s.assertSrc n
  | none => s

/-- A generic record (R500, R501). `step` is none when no partition is concerned. -/
def State.event (s : State) (kind code object : Nat) (step : Option (BitVec 48)) (after before : Nat)
    (words : BitVec 160 := 0) : State :=
  (s.raise kind object).record (.generic kind code object
    (match step with | some n => n.setWidth 64 | none => BitVec.allOnes 64)
    (BitVec.ofNat 32 after) (BitVec.ofNat 32 before) words)

/-- A record about partition `p` (kind 0x0B), with its step number. -/
def State.partEvent (s : State) (code p after before : Nat) : State :=
  s.event 0x0B code p (some (s.part p).step) after before

/-- A record about array `a` (kind 0x05). -/
def State.arrayEvent (s : State) (code a after before : Nat) : State := s.event 0x05 code a none after before

/-- A record about array `a` raised in a step of a partition: its step number, and the attempt in WORD4 (R501). -/
def State.arrayStepEvent (s : State) (code a after before : Nat) (tag : Tag) : State :=
  let p := s.part tag.toNat
  if Tag.isPart tag then s.event 0x05 code a (some p.step) after before (p.attempt.setWidth 160)
  else s.arrayEvent code a after before

/-! ## Interrupt sources and flash writes -/

/-- The cause of a source is cleared in its unit (R452). -/
def State.clearSrc (s : State) (n : Nat) : State :=
  { s with mgmt := { s.mgmt with asserted := s.mgmt.asserted.filter (fun k => decide (k ≠ n)) } }

/-- A flash write of a class waits for the controller (R462). -/
def State.flashWrite (s : State) (c : FlashCls) : State := { s with mgmt := { s.mgmt with fqueue := s.mgmt.fqueue ++ [c] } }

/-! ## Ledger records as lines (R264, R279, R280, R285, R291, R297) -/

/-- The sampler state of a token as its record holds it (R264). -/
def samplerWord (x : SamplerState) : BitVec 256 :=
  x.seedDig ++ x.pos ++ x.tau ++ x.pi ++ x.km1 ++ x.draft ++ x.slot ++ BitVec.ofBool x.acc ++ (0 : BitVec 11) ++ x.adapter

/-- Bits that stand one after the other in a word, the first lowest. -/
def packed (w : Nat) (l : List Nat) : Nat := l.zipIdx.foldl (fun n x => n + x.1 * 2 ^ (w * x.2)) 0

/-- KIND of a record (R280). -/
def recKind : RecBody → BitVec 8
  | .accept .. => 1 | .commit .. => 2 | .complete .. => 3 | .cancel .. => 4 | .learn .. => 5 | .park .. => 6 | .restore .. => 7
  | .retire .. => 8 | .open_ .. => 9 | .close .. => 10 | .other k _ => k

/-- Lines of a record (R280). -/
def recCount (r : LRecord) : Nat :=
  match r.body with
  | .commit tokens .. => 1 + (tokens.length + 3) / 4
  | .other _ n => n.toNat
  | _ => 1

/-- Bits 1,023 to 128 of a record's first line (R285, R291, R297). Where the spec lays out no body, SESSION and SSN stand as in a Complete
record, ACK in the place of SSN, AGEN in that of TOKENS with ADIGEST above it (log entry 89). -/
def recBits : RecBody → BitVec 896
  | .accept n ssn subkind deadline maxtok endtok aframe pdigest paddr plines =>
    pdigest ++ (0 : BitVec 3) ++ deadline ++ maxtok ++ paddr ++ plines ++ subkind ++ n ++ ssn ++ aframe ++ endtok ++ (0 : BitVec 541)
  | .commit tokens _ cdelta step attempt pos newCommit agen n ssn remain =>
    BitVec.ofNat 512 (packed 32 (tokens.map (fun t => t.toNat))) ++ cdelta ++ (0 : BitVec 3) ++ step ++ attempt ++ pos ++
      BitVec.ofNat 5 tokens.length ++ newCommit ++ agen ++ n ++ ssn ++ remain ++ (0 : BitVec 87)
  | .complete step tokens status late n ssn =>
    (0 : BitVec 688) ++ step ++ tokens ++ status ++ BitVec.ofBool late ++ n ++ ssn ++ (0 : BitVec 75)
  | .learn agen adigest n ssn => (0 : BitVec 675) ++ adigest ++ agen ++ (0 : BitVec 9) ++ n ++ ssn ++ (0 : BitVec 75)
  | .retire n ack => (0 : BitVec 777) ++ n ++ ack ++ (0 : BitVec 75)
  | .cancel n ssn | .park n ssn | .restore n ssn | .open_ n ssn | .close n ssn =>
    (0 : BitVec 777) ++ n ++ ssn ++ (0 : BitVec 75)
  | .other .. => 0

/-- The sampler states of a record (R291). -/
def recStates : RecBody → List SamplerState
  | .commit _ states .. => states
  | _ => []

/-- The lines of a record: its header and body (R279), then four sampler states a line (R291). -/
def recLines (r : LRecord) : List Line :=
  let head : BitVec 128 := r.lsn ++ recKind r.body ++ BitVec.ofNat 3 (recCount r) ++ r.part ++ r.account ++ (0 : BitVec 5) ++ r.crc
  let words := (recStates r.body).map (fun x => (samplerWord x).toNat)
  (recBits r.body ++ head) :: (List.range (recCount r - 1)).map (fun k => BitVec.ofNat 1024 (packed 256 ((words.drop (4 * k)).take 4)))

/-- The CRC-32 of a record, with its CRC field taken as zero (R279). -/
def recCrc (r : LRecord) : W32 := crc32 (((recLines { r with crc := 0 }).map bytesOfLine).flatten)

/-- The checks of R302 on a record by itself: its CRC and its KIND. -/
def recSound (r : LRecord) : Bool :=
  (match r.body with | .other .. => false | _ => true) && decide (r.crc = recCrc r)

/-- A record with its CRC. -/
def makeRec (lsn : BitVec 64) (part : Tag) (account : BitVec 8) (body : RecBody) : LRecord :=
  let r : LRecord := { lsn := lsn, part := part, account := account, body := body, crc := 0 }
  { r with crc := recCrc r }

/-! ## Links -/

/-- The traffic class of a message (R317, R318). -/
def LinkMsg.tc : LinkMsg → Nat
  | .data .. => 2
  | .digest .. => 2
  | .frame _ => 0
  | .training _ => 0
  | .mirror _ => 3
  | .pages _ => 3
  | .partials _ => 3
  | .shard _ => 3
  | .copy _ => 3
  | .retransmit _ => 4
  | _ => 1

/-- The lines of a clearing summary (R338); a boundary exchange has line 0 alone. -/
def summaryLines (m : Summary) : List Line :=
  (m.part ++ m.step ++ m.attempt ++ BitVec.ofBool m.clearOk ++ BitVec.ofBool m.loaded ++ BitVec.ofBool m.ready ++ BitVec.ofBool m.learn
    ++ m.devices ++ (0 : BitVec 945)) :: m.overflow :: m.streams ::
    (List.range 12).map (fun k => BitVec.ofNat 1024 (packed 64 ((List.range 16).map (fun i =>
      let x := SMap.get m.accounts (0, false, true) (16 * k + i)
      8 * x.1.toNat + 4 * x.2.1.toNat + 2 * x.2.2.toNat))))

/-- The account slot as a number below 192. -/
def slotNo (a : Nat) : SlotNo := ⟨a % 192, Nat.mod_lt _ (by decide)⟩

/-- A line of fields, each a width and a value, from bit 1023 downward. -/
def fieldLine (fs : List (Nat × Nat)) : Line :=
  let x := fs.foldl (fun (n : Nat × Nat) f => (n.1 + f.1, n.2 * 2 ^ f.1 + f.2 % 2 ^ f.1)) (0, 0)
  BitVec.ofNat 1024 (x.2 * 2 ^ (1024 - x.1))

/-- The lines of a stream's entry, word 0 first. -/
def entryLines (e : EntryWords) : List Line := (List.range ((e.length + 31) / 32)).map (fun k => lineOfWords (e.drop (32 * k)))

/-- The two lines of an abort notice (R340). -/
def abortLines (n : AbortNotice) : List Line :=
  [fieldLine [(8, n.part.toNat), (64, n.frame.toNat), (8, n.code.toNat), (10, n.origin.toNat),
      (2, match n.variant with | .normal => 0 | .covering _ => 1 | .unchanged => 2),
      (10, match n.variant with | .covering a => a.toNat | _ => 0), (1, n.recipe.toNat)],
   n.streams]

/-- The line of a commit notice (R292). -/
def commitLine (n : CommitNotice) : Line :=
  fieldLine [(8, n.part.toNat), (8, n.slot.val), (32, n.newCommit.toNat), (61, n.cdelta.toNat), (5, n.count.toNat), (5, n.drafts.toNat),
    (5, n.accepted.toNat), (48, n.step.toNat), (10, n.dest.toNat), (1, n.adapter.isSome.toNat),
    (32, match n.adapter with | some a => a.1.toNat | none => 0), (61, match n.adapter with | some a => a.2.toNat | none => 0)]

/-- The line of a restore report (R307). -/
def reportLine (r : RestoreReport) : Line :=
  fieldLine [(10, r.dest.toNat), (8, r.account.val), (16, r.part.toNat), (1, r.ok.toNat), (32, r.committed.toNat),
    (32, r.lastToken.toNat), (64, r.seed.toNat), (32, r.tau.toNat), (16, r.topk.toNat), (32, r.pi.toNat), (8, r.draft.toNat),
    (8, r.cap.toNat), (32, r.pinned.toNat), (32, r.agen.toNat), (61, r.cdigest.toNat), (61, r.adigest.toNat)]

/-- The first line of a message of mirror entries: the stream and the place. -/
def mirrorLine (m : MirrorMsg) : Line :=
  fieldLine [(8, m.part.toNat), (8, m.account.val), (10, m.layer.toNat), (6, m.head.toNat), (1, m.hdim.toNat), (12, m.streamNo.toNat),
    (23, m.pos.toNat), (16, m.entries.length)]

/-- The first line of a message of context pages: the stream, the place and what the transfer says of it. -/
def pagesLine (m : PagesMsg) : Line :=
  fieldLine [(8, m.part.toNat), (8, m.account.val), (10, m.layer.toNat), (6, m.head.toNat), (1, m.hdim.toNat), (23, m.firstPos.toNat),
    (16, m.entries.length), (1, m.last.isSome.toNat), (23, match m.last with | some x => x.1.toNat | none => 0),
    (61, match m.last with | some x => x.2.toNat | none => 0), (16, m.index), (16, m.streams), (1, m.answer.isSome.toNat),
    (1, (m.answer.getD false).toNat)]

/-- The payload lines of a message. The lines that the spec lays out are as it says; a control or bulk message whose layout it leaves to
the two ends has its fields in one first line, from bit 1023 downward, and its data in the lines that follow (log entry 124). -/
def LinkMsg.payload : LinkMsg → List Line
  | .data _ _ _ _ _ ls => ls
  | .digest _ _ l => [l]
  | .failure l => [l]
  | .frame l => [l]
  | .training l => [l]
  | .summary _ m => summaryLines m
  | .exchange _ m => (summaryLines m).take 1
  | .ledger r => recLines r
  | .abort n => abortLines n
  | .commit n => [commitLine n]
  | .loading p d ok => [fieldLine [(8, p.toNat), (10, d.toNat), (1, ok.toNat)]]
  | .vote d len enf => [fieldLine [(10, d.toNat), (2, len.toNat), (1, enf.toNat)]]
  | .ledgerAck lsn => [fieldLine [(64, lsn.toNat)]]
  | .report r => [reportLine r]
  | .mirror m => mirrorLine m :: (m.entries.map entryLines).flatten
  | .pages m => pagesLine m :: (m.entries.map entryLines).flatten
  | .partials m => fieldLine [(8, m.tile.toNat), (12, m.line.toNat), (8, m.tag.toNat), (16, m.lines.length)] :: m.lines
  | .shard m => fieldLine [(1, m.partner.toNat), (32, m.firstLine), (16, m.lines.length), (1, m.last.isSome.toNat),
      (1, (m.last.getD false).toNat)] :: m.lines
  | .copy m => fieldLine [(1, m.own.toNat), (1, m.first.toNat), (64, m.nextLsn.toNat), (16, m.records.length)] ::
      (m.records.map recLines).flatten
  | .retransmit _ => []

/-- Lines of a message (R318). -/
def LinkMsg.lines (m : LinkMsg) : Nat := m.payload.length

/-- Frames that `n` lines take (R318). -/
def framesOf (n : Nat) : Nat := max 1 ((n + 7) / 8)

/-- The frames a message takes. -/
def LinkMsg.frames (m : LinkMsg) : Nat := framesOf m.lines

/-- OP of a message, and its SLOT, TAG, XFER and COUNT where it has them (R316, R318). -/
def LinkMsg.fields : LinkMsg → Nat × Nat × Tag × Nat × Nat
  | .data add entry slot count tag _ => (if add then 3 else 2, slot, tag, entry.toNat, count)
  | .digest entry tag _ => (4, 0, tag, entry.toNat, 0)
  | .frame _ => (1, 0, 0xFF, 0, 0)
  | .training _ => (7, 0, 0xFF, 0, 0)
  | .ledger _ => (5, 1, 0xFF, 0, 0)
  | .ledgerAck _ => (5, 2, 0xFF, 0, 0)
  | .commit n => (5, 3, n.part.setWidth 8, 0, 0)
  | .abort n => (5, 4, n.part.setWidth 8, 0, 0)
  | .failure _ => (5, 5, 0xFF, 0, 0)
  | .summary _ m => (5, 6, m.part, 0, 0)
  | .exchange _ m => (5, 7, m.part, 0, 0)
  | .vote .. => (5, 8, 0xFF, 0, 0)
  | .report _ => (5, 9, 0xFF, 0, 0)
  | .loading p _ _ => (5, 10, p.setWidth 8, 0, 0)
  | .mirror m => (6, 1, m.part.setWidth 8, 0, 0)
  | .pages m => (6, 2, m.part.setWidth 8, 0, 0)
  | .shard _ => (6, 3, 0xFF, 0, 0)
  | .copy _ => (6, 4, 0xFF, 0, 0)
  | .partials m => (6, 5, m.tag, 0, 0)
  | .retransmit _ => (0, 0, 0xFF, 0, 0)

/-- The link holds the credits and the replay room that a message needs (R317, R319). -/
def Endpoint.canSend (e : Endpoint) (m : LinkMsg) : Bool :=
  let n := m.frames
  decide (e.sent + n ≤ (match e.peerAck with | none => 0 | some a => a + 1) + 2048) &&
    (match m.tc with
    | 0 => decide (n ≤ e.cr0)
    | 1 => decide (n ≤ e.cr1)
    | 3 => decide (n ≤ e.cr3)
    | _ => true)

/-- The bits of a UTL header (R316). -/
def utlBits (h : UtlHdr) : BitVec 128 :=
  h.gen ++ h.tc ++ h.op ++ h.lines ++ h.seq ++ h.ackseq ++ BitVec.ofBool h.nak ++ h.nakseq ++ h.cr0 ++ h.cr1 ++ h.cr3 ++ h.tag ++ h.slot ++
    h.xfer ++ h.count ++ h.rsvd

/-- The lines of a frame in clear, in the order they are sent (R315): each line, byte 0 first, with its 16 bytes of byte parity. -/
def utlBody (ls : List Line) : List Byte := (ls.map (fun l => bytesOfLine l ++ (wordsOfLine64 l).map byteParity)).flatten

/-- A frame on the wire (R315, R316): the header, bit 127 first, the lines encrypted, and the 16 bytes of the tag, all under a key and a
nonce (log entry 125). -/
def utlBytes (key : BitVec 256) (nonce : BitVec 96) (h : UtlHdr) (ls : List Line) : List Byte :=
  let body := (utlBody ls).zipIdx.map (fun b => b.1 ^^^ Config.gcmStream key nonce b.2)
  (bytesOfNat 16 (utlBits h).toNat).reverse ++ body ++ (bytesOfNat 16 (Config.gcmTag key nonce (utlBits h) body).toNat).reverse

/-- The acknowledgement, NAK and credits that the next header carries, in a header of no other content (R316, R317, R320). -/
def Endpoint.status (e : Endpoint) : UtlHdr :=
  { gen := 0, tc := 0, op := 0, lines := 0, seq := 0, ackseq := BitVec.ofNat 16 (e.rxNext + 65535), nak := !e.nakOut.isEmpty,
    nakseq := e.nakOut.headD 0, cr0 := BitVec.ofNat 3 (min 7 e.ret0), cr1 := BitVec.ofNat 6 (min 63 e.ret1),
    cr3 := BitVec.ofNat 8 (min 255 e.ret3), tag := 0xFF, slot := 0, xfer := 0, count := 0, rsvd := 0 }

/-- The credits and the NAK that the next header carries have left (R316, R320). -/
def Endpoint.header (e : Endpoint) : Endpoint :=
  { e with nakOut := e.nakOut.drop 1, ret0 := e.ret0 - 7, ret1 := e.ret1 - 63, ret3 := e.ret3 - 255 }

/-- A frame leaves with its header, its nonce and its lines, under the link key of the sending direction (R315, R316). -/
def Endpoint.put (e : Endpoint) (h : UtlHdr) (nonce : BitVec 96) (ls : List Line) : Endpoint :=
  { e.header with
    frames := e.frames ++ [{ hdr := h, nonce := nonce, lines := ls, bytes := utlBytes e.txKey nonce h ls }]
    sinceTc1 := if h.tc = 1 then 0 else e.sinceTc1 + 1 }

/-- An idle frame leaves in frame `n` (R315, R317). -/
def Endpoint.idle (e : Endpoint) (n : Nat) : Endpoint := e.put e.status ((0xFFFFFFFF : BitVec 32) ++ BitVec.ofNat 64 n) []

/-- The header of frame `k` of a message (R316, R318). -/
def Endpoint.frameHdr (e : Endpoint) (m : LinkMsg) (k : Nat) : UtlHdr :=
  let f := m.fields
  { e.status with
    tc := BitVec.ofNat 2 m.tc, op := BitVec.ofNat 4 f.1, lines := BitVec.ofNat 4 (min 8 (m.lines - 8 * k)), seq := BitVec.ofNat 16 e.sent
    tag := f.2.2.1, slot := BitVec.ofNat 11 f.2.1, xfer := BitVec.ofNat 8 (f.2.2.2.1 + k), count := BitVec.ofNat 7 f.2.2.2.2 }

/-- In the band at most one frame in any 8 is a TC1 frame (R317): idle frames leave before the next one until seven others lie between
(log entry 126). `at_`: the frame number, and whether the die is in the band. -/
def Endpoint.spaced (e : Endpoint) (at_ : Nat × Bool) (m : LinkMsg) : Endpoint :=
  if at_.2 && decide (m.tc = 1) then (List.range (7 - e.sinceTc1)).foldl (fun x _ => x.idle at_.1) e else e

/-- Frame `k` of a message leaves: its sequence number and key use (R319, R325). -/
def Endpoint.sendFrame (at_ : Nat × Bool) (e : Endpoint) (m : LinkMsg) (k : Nat) : Endpoint :=
  let e := e.spaced at_ m
  { e.put (e.frameHdr m k) (BitVec.ofNat 64 e.sent ++ (0 : BitVec 32)) ((m.payload.drop (8 * k)).take 8) with
    sent := e.sent + 1, keyUse := e.keyUse + 1 }

/-- A message leaves: its frames, and the credits they take (R317). -/
def Endpoint.emit (at_ : Nat × Bool) (e : Endpoint) (m : LinkMsg) : Endpoint :=
  let n := m.frames
  let k := m.tc
  { (List.range n).foldl (fun x i => Endpoint.sendFrame at_ x m i) e with
    out := e.out ++ [m]
    cr0 := if k = 0 then e.cr0 - n else e.cr0
    cr1 := if k = 1 then e.cr1 - n else e.cr1
    cr3 := if k = 3 then e.cr3 - n else e.cr3
    mirrorSeq := match m with | .mirror _ => some (e.sent + n - 1) | _ => e.mirrorSeq }

/-- A message leaves, or waits behind the waiting ones of its class. -/
def Endpoint.post (at_ : Nat × Bool) (e : Endpoint) (m : LinkMsg) : Endpoint :=
  if e.waiting.any (fun w => decide (w.tc = m.tc)) || !e.canSend m then { e with waiting := e.waiting ++ [m] } else Endpoint.emit at_ e m

/-- Waiting messages leave as far as they can, by class, in each in the order in which they came (R317). -/
def Endpoint.drain (at_ : Nat × Bool) (e : Endpoint) : Endpoint :=
  ([0, 1, 2, 3].flatMap (fun c => e.waiting.filter (fun m => decide (m.tc = c)))).foldl (fun x m => Endpoint.post at_ x m)
    { e with waiting := [] }

/-- The frame number, and whether the die is in the band (R164, R317). -/
def State.bandAt (s : State) : Nat × Bool := (s.fu.frame, decide (s.fu.cycle < 960))

/-- A message sent on a link, if the link is Active and the die may transmit: a fail-silent die and one in Dark send none
(R384, R392). -/
def State.sendOn (s : State) (l : Nat) (m : LinkMsg) : State :=
  if (s.link l).st = .active ∧ s.health.silent = false ∧ s.health.st ≠ 3 then s.updLink l (fun e => Endpoint.post s.bandAt e m) else s

/-- A message sent on every Active link but one (R314, flood). -/
def State.flood (s : State) (except : Option Nat) (m : LinkMsg) : State :=
  (List.range 11).foldl (fun t l => if except = some l then t else t.sendOn l m) s

/-! ## Partitions and streams on the die -/

/-- Streams of partition `p` on a tile, by number. -/
def Tile.streamsOf (t : Tile) (p : Nat) : List Nat :=
  (t.streams.filter (fun x => x.2.tag.toNat = p)).map (fun x => x.1)

/-- Partition `p` has a stream on the die (R198). -/
def State.hasStream (s : State) (p : Nat) : Bool := s.tiles.any (fun x => !(Tile.streamsOf x.2 p).isEmpty)

/-- Partitions with a stream on the die, rising. -/
def State.steppers (s : State) : List Nat := (s.parts.filter (fun x => s.hasStream x.1)).map (fun x => x.1)

/-- The partition's streams issue nothing more, and what they issued completes with void results (R198). -/
def Tile.stopStreams (t : Tile) (p : Nat) : Tile :=
  { t with
    streams := SMap.mapVals t.streams {} (fun _ st =>
      if st.tag.toNat = p then { st with block := none, ended := none, branch := none, qpend := [] } else st)
    ops := t.ops.map (fun o => if o.tag.toNat = p then { o with void := true } else o) }

/-- Load entry `n` of a tile. -/
def Tile.load (t : Tile) (n : Nat) : QEntry := SMap.get t.loads {} n
/-- Store entry `n` of a tile. -/
def Tile.storeE (t : Tile) (n : Nat) : QEntry := SMap.get t.stores {} n

/-- The entry of a token. -/
def Tile.token (t : Tile) (n : Nat) : QEntry := if n < 64 then t.load n else t.storeE (n - 64)

/-- A half of a tile. -/
def Tile.half (t : Tile) (b : Bool) : Half := if b then t.halfB else t.halfA

/-- A half changed. -/
def Tile.setHalf (t : Tile) (b : Bool) (h : Half) : Tile := if b then { t with halfB := h } else { t with halfA := h }

/-- A WAIT claims its entry: Free, and the half that its last load filled is LOADING no more (R136, R193). -/
def Tile.claim (t : Tile) (n : Nat) : Tile :=
  if n < 64 then
    let e := t.load n
    let loads := SMap.set t.loads {} n { epoch := e.epoch }
    let u := { t with loads := loads }
    match e.toHalf with
    | none => u
    | some h =>
      if loads.any (fun x => decide (x.2.st ≠ .free ∧ x.2.toHalf = some h)) then u
      else u.setHalf h { (u.half h) with loading := none }
  else { t with stores := SMap.set t.stores {} (n - 64) { epoch := (t.storeE (n - 64)).epoch } }

/-- A hold ends after `n` real cycles: the waits claim their entries, the hold's length is charged to the frame and to the partitions
that caused it (R194, R195). -/
def State.endHoldWith (s : State) (n : Nat) (ws : List (TileNo × Nat × Tag)) : State :=
  let s1 := ws.foldl (fun s w => s.updTile w.1.toNat (fun t => t.claim w.2.1)) s
  { s1 with
    fu := { s1.fu with hold := none, held := s1.fu.held + n, holds := s1.fu.holds + n, causes := [] }
    parts := SMap.mapVals s1.parts {} (fun k v =>
      if s1.fu.causes.any (fun t => t.toNat = k) then { v with holds := v.holds + n } else v) }

/-- Every awaited entry is Complete. -/
def State.waitsDone (s : State) (ws : List (TileNo × Nat × Tag)) : Bool :=
  ws.all (fun w => decide (((s.tile w.1.toNat).token w.2.1).st = .complete))

/-- The waits of a hold that are left once partition `p` has aborted: those of its streams are withdrawn, and the hold ends where none
of the others is unsatisfied (R194). How long the counter stood is known only to the die's real time: a free value (12). -/
def State.dropWaits (s : State) (p : Nat) : State :=
  match s.fu.hold with
  | none => s
  | some (c, rc, ws) =>
    let ws' := ws.filter (fun w => decide (w.2.2.toNat ≠ p))
    if s.waitsDone ws' then s.freed.endHoldWith (Config.holdLength s.free) ws'
    else { s with fu := { s.fu with hold := some (c, rc, ws') } }

/-- The replay frame of an abort (R199). -/
def AbortS.replay (a : AbortS) : Nat := a.frame + 32

/-- An array that its partitions may fire again once they leave their streamed variants: Resident with its set whole, or
repaired or rebuilt and waiting for the boundary of its return (R49, R111; log entry 68). -/
def ArrayS.returning (x : ArrayS) : Bool :=
  match x.st with
  | .resident => decide (x.rebuild ≠ 1)
  | .withdrawn => !x.diagnosing && x.failedCols.isEmpty
  | _ => false

/-- The streams of the layers that this device cannot run resident, and of every layer in Streaming (R248). -/
def State.streamRequest (s : State) (p : Nat) : Line :=
  let q := s.part p
  if q.st = .streaming then BitVec.allOnes 1024
  else q.arrays.foldl (fun l a =>
    let x := s.array a.toNat
    if x.returning then l else l ||| layerBits x.layers) 0

/-- The abort of partition `p` takes effect on this die (R198, R199, R294): its streams stop, what they issued is void,
its waits are withdrawn, its outcomes in Escrow that hold no LSN are dropped. A notice whose frame falls before the replay
frame already computed belongs to the same abort, and the earliest frame governs; once the replay has started it changes nothing. -/
def State.abortHere (s : State) (p frame : Nat) (v : VariantSel) (streams : Line) : State :=
  let q := s.part p
  match q.abort with
  | some a =>
    if frame < a.replay then
      s.setPart p { q with abort := some { a with
        frame := min a.frame frame,
        variant := (match v with | .unchanged => a.variant | _ => v),
        streams := a.streams ||| streams } }
    else s.setPart p { q with abort := some ⟨frame, v, streams⟩ }
  | none =>
    if q.replayed.any (fun r => decide (frame < r)) then s
    else
    let s1 := s.setPart p { q with abort := some ⟨frame, v, streams⟩, nextStart := none }
    let s2 : State :=
      { s1 with
        tiles := SMap.mapVals s1.tiles {} (fun _ t => Tile.stopStreams t p)
        mesh := { s1.mesh with flits := s1.mesh.flits.map (fun f => if f.tag.toNat = p then { f with void := true } else f) }
        mem := { s1.mem with engines := SMap.mapVals s1.mem.engines {} (fun _ e =>
          { e with
            running := e.running.map (fun j => if j.tag.toNat = p then { j with void := true } else j)
            waiting := e.waiting.map (fun j => if j.tag.toNat = p then { j with void := true } else j) }) }
        ledger := { s1.ledger with escrow := s1.ledger.escrow.filter (fun x => decide (x.2.1.toNat ≠ p) || x.2.2.2.isSome) } }
    s2.dropWaits p

/-- An abort of the partition with this abort frame is a new one (R199). -/
def State.newAbort (s : State) (p frame : Nat) : Bool :=
  match (s.part p).abort with
  | some a => decide (a.replay ≤ frame)
  | none => !(s.part p).replayed.any (fun r => decide (frame < r))

/-- An abort raised on this device: it takes effect here and its notice is flooded (R198, R340). -/
def State.abortOne (s : State) (code : BitVec 8) (v : VariantSel) (p : Nat) : State :=
  let q := s.part p
  let streams := q.nextStreams.getD q.streams ||| s.streamRequest p
  let s1 := s.abortHere p s.fu.frame v streams
  let n : AbortNotice :=
    { part := BitVec.ofNat 7 p, frame := BitVec.ofNat 64 s.fu.frame, code := code, origin := s.dict.addr, variant := v,
      streams := streams, recipe := decide (code = 0x15 ∧ q.wideAt = some s.fu.frame) }
  { s1 with fu := { s1.fu with seenAborts := s1.fu.seenAborts ++ [(n.part, s.fu.frame, n.origin)] } }.flood none (.abort n)

/-- One abort event of several partitions (R198). -/
def State.abortAll (s : State) (code : BitVec 8) (v : VariantSel) (ps : List Nat) : State :=
  if ps.isEmpty then s
  else ps.foldl (fun t p => t.abortOne code v p) { s with fu := { s.fu with aborts := s.fu.aborts + 1 } }

/-! ## Twilight decisions (R387, R388) -/

/-- A cause for Twilight arises. The first one decides and is recorded; later ones are counted. During Dawn, Dawn stops
and the flag is written (R395). -/
def State.twilight (s : State) (cause : Nat) : State :=
  if s.health.st = 0 ∧ s.health.decided = none then
    let s1 : State := { s with health := { s.health with cause := BitVec.ofNat 8 cause, decided := some (BitVec.ofNat 8 cause) } }
    let s2 := s1.event 0x0D 1 cause none cause 0
    if s.dawn.step < 11 then
      ({ s2 with dawn := { s2.dawn with stopped := true }, health := { s2.health with flag := true } } : State).flashWrite .flag
    else s2
  else
    { s with health := { s.health with later := s.health.later + 1 } }.event 0x0D 2 cause none cause
      s.health.cause.toNat

/-! ## The end of a partition's closing (R222, R246, R353) -/

/-- A Closing partition whose granules hold zeros and to which no session is bound becomes Free. -/
def State.tryFreePart (s : State) (p : Nat) : State :=
  let q := s.part p
  if q.st = .closing ∧ q.granules.all (fun g => !s.mem.zeroing.contains g && decide (SMap.get s.mem.granules 0xFE g ≠ BitVec.ofNat 8 p)) = true ∧
      s.host.sessions.all (fun x => decide (x.2.st = .free ∨ x.2.part.toNat ≠ p)) = true then s.setPart p {}
  else s

/-! ## Unscheduled and queue flits (R144, R147, R148, R154, R155) -/

/-- Hops from a router to another (R144). -/
def hops (a b : Nat) : Nat :=
  (max (a % 16) (b % 16) - min (a % 16) (b % 16)) + (max (a / 16) (b / 16) - min (a / 16) (b / 16))

/-- 63 header bits with HPAR below them, which makes the number of ones even (R147). -/
def withHpar (h : BitVec 63) : BitVec 64 := h ++ BitVec.ofBool ((List.range 63).foldl (fun p i => p != h.getLsbD i) false)

/-- The channel of an operation (R148). -/
def MeshMsg.chan : MeshMsg → Chan
  | .fault .. => .vc0
  | .grant .. | .revoke .. => .vc1
  | .readReq .. | .mgmtReq .. => .vc2
  | .readResp .. | .mgmtResp .. => .vc3
  | .loadReq .. | .storeData .. => .qreq
  | .loadData .. | .storeAck .. => .qresp

/-- OP (R148). -/
def MeshMsg.op : MeshMsg → BitVec 6
  | .grant .. => 0x01 | .revoke .. => 0x02 | .fault .. => 0x03 | .readReq .. => 0x08 | .readResp .. => 0x09
  | .mgmtReq .. => 0x0C | .mgmtResp .. => 0x0D | .loadReq .. => 0x10 | .loadData .. => 0x11 | .storeData .. => 0x12
  | .storeAck .. => 0x13

/-- DEST_LINE: the credit-table entry or the queue entry, 0-63 for load and 64-95 for store (R147). A remote read's request and response
carry the requester's load entry, where the table of R147 names a scratchpad line or a credit entry for a tile: DESIGN CHOICE (82). -/
def MeshMsg.destLine : MeshMsg → Nat
  | .grant n _ | .revoke n | .readReq n _ _ | .readResp n _ _ | .loadReq n _ _ _ _ _ | .loadData n _ _ _ => n
  | .storeData n _ _ _ | .storeAck n _ => 64 + n
  | _ => 0

/-- KIND and CHAN of a channel (R147). -/
def Chan.bits : Chan → BitVec 4
  | .vc0 => 0b1100 | .vc1 => 0b1101 | .vc2 => 0b1110 | .vc3 => 0b1111 | .qreq => 0b1000 | .qresp => 0b1001

/-- The plane of a channel, true plane 1 (R154). -/
def Chan.plane : Chan → Bool
  | .vc0 | .vc2 | .qreq => false
  | .vc1 | .vc3 | .qresp => true

/-- The number of a channel in the mesh's own tables. -/
def Chan.num : Chan → Nat
  | .vc0 => 0 | .vc1 => 1 | .vc2 => 2 | .vc3 => 3 | .qreq => 4 | .qresp => 5

/-- The header of an unscheduled or queue flit (R147). -/
def Msg.header (m : Msg) : BitVec 64 :=
  withHpar (m.msg.chan.bits ++ BitVec.ofNat 9 m.dest ++ BitVec.ofNat 2 m.port ++ BitVec.ofNat 12 m.msg.destLine ++ m.tag ++ m.seq
    ++ BitVec.ofNat 9 m.src ++ m.msg.op ++ (0 : BitVec 5))

/-- The flits of a channel. -/
def Mesh.chan (m : Mesh) : Chan → List Msg
  | .vc0 => m.vc0 | .vc1 => m.vc1 | .vc2 => m.vc2 | .vc3 => m.vc3 | .qreq => m.qreq | .qresp => m.qresp

/-- The flits of a channel replaced. -/
def Mesh.setChan (m : Mesh) (c : Chan) (l : List Msg) : Mesh :=
  match c with
  | .vc0 => { m with vc0 := l } | .vc1 => { m with vc1 := l } | .vc2 => { m with vc2 := l } | .vc3 => { m with vc3 := l }
  | .qreq => { m with qreq := l } | .qresp => { m with qresp := l }

/-- A flit enters its channel at a time; a source keeps 64 cycles between its flits on VC1, and what comes sooner waits (R154,
R155). -/
def State.sendMsg (s : State) (src dest port : Nat) (tag : Tag) (time : Nat) (m : MeshMsg) : State :=
  let c := m.chan
  let k := 8 * src + c.num
  let at_ := if c = .vc1 then max time (SMap.get s.mesh.nextVc1 0 src) else time
  let f : Msg :=
    { src := src, dest := dest, port := port, tag := tag, seq := SMap.get s.mesh.seqs 0 k, time := at_, msg := m }
  { s with mesh := { s.mesh.setChan c (s.mesh.chan c ++ [f]) with
    seqs := SMap.upd s.mesh.seqs 0 k (fun n => n + 1)
    nextVc1 := if c = .vc1 then SMap.set s.mesh.nextVc1 0 src (at_ + 64) else s.mesh.nextVc1 } }

/-- The first flit of a channel that a test picks, that no earlier flit of its source and destination precedes and that can have
arrived by now (R145, R146, R155); `seen` are the flits before. -/
def takeFrom (now : Nat) (p : Msg → Bool) (seen : List Msg) : List Msg → Option (Msg × List Msg)
  | [] => none
  | m :: t =>
    if p m && decide (m.time + 10 + 3 * hops m.src m.dest ≤ now) &&
        !seen.any (fun x => decide (x.src = m.src ∧ x.dest = m.dest ∧ x.port = m.port)) then some (m, seen ++ t)
    else takeFrom now p (seen ++ [m]) t

/-- The flit of a channel that arrives at a unit, and the machine without it. -/
def State.takeMsg (s : State) (c : Chan) (rc : Nat) (p : Msg → Bool) : Option (Msg × State) :=
  (takeFrom (s.now rc) p [] (s.mesh.chan c)).map (fun x => (x.1, { s with mesh := s.mesh.setChan c x.2 }))

/-- The router of tensor-link endpoint `l` (R160). -/
def endpointRouter (l : Nat) : Nat := [198, 201, 310, 195, 204, 307, 67, 76, 316, 435, 444].getD l 313

/-- The router from which a unit that is no tile reports (R204): a link endpoint's own, else the management complex's. -/
def unitHome (unit : BitVec 8) : Nat := if 0x60 ≤ unit.toNat ∧ unit.toNat ≤ 0x6A then endpointRouter (unit.toNat - 0x60) else 313

/-! ## Faults -/

/-- The halves of an AES or SHA unit of the Vault disagree (R377): fault 0x12 of the partition whose data it works on, or of firmware
(log entry 128). -/
def vaultInfo (tag : Tag) (cycle : Nat) : FaultInfo := { code := 0x12, tag := tag, unit := 0x71, cycle := cycle }

/-- The key under which occurrences of a fault are counted for R382: the tile, router, endpoint or unit. -/
def FaultInfo.unitKey (f : FaultInfo) : Nat :=
  let u := f.unit.toNat
  let u' := if f.attached then 0x80 + u else if 0x50 ≤ u ∧ u ≤ 0x5D then 0x50 else u
  match f.tile with
  | none => u'
  | some t => 256 * (t.toNat + 1) + (if f.code = 0x11 ∨ f.code = 0x17 then 0 else u')

/-- How many occurrences of a fault in one unit within 2^24 frames mean Twilight, and the cause (R382, R387). -/
def FaultInfo.limit (f : FaultInfo) : Option (Nat × Nat) :=
  match f.code.toNat with
  | 0x11 => some (3, 0x0C)
  | 0x12 => some (2, 0x09)
  | 0x13 => if 0x50 ≤ f.unit.toNat ∧ f.attached = false then some (2, 0x09) else none
  | 0x14 => some (2, 0x09)
  | 0x17 => some (2, 0x09)
  | _ => none

/-- The occurrence is counted for R382 and may decide Twilight. -/
def State.countFault (s : State) (f : FaultInfo) : State :=
  let s1 : State := if f.code = 0x12 then { s with health := { s.health with residue := s.health.residue + 1 } } else s
  match f.limit with
  | none => s1
  | some (n, cause) =>
    let l := (f.code.toNat, f.unitKey, s.fu.frame) ::
      s1.health.faults.filter (fun x => decide (s.fu.frame < x.2.2 + 16777216))
    let s2 : State := { s1 with health := { s1.health with faults := l } }
    if n ≤ (l.filter (fun x => decide (x.1 = f.code.toNat ∧ x.2.1 = f.unitKey))).length then s2.twilight cause else s2

/-- The latest report of the source of a fault. -/
def State.lastReport (s : State) (f : FaultInfo) : Option Report :=
  match f.tile with
  | some t => (s.tile t.toNat).reported
  | none => SMap.get s.fu.reports none f.unit.toNat

/-- The latest report of the source of a fault set. -/
def State.setReport (s : State) (f : FaultInfo) (r : Report) : State :=
  match f.tile with
  | some t => s.updTile t.toNat (fun x => { x with reported := some r })
  | none => { s with fu := { s.fu with reports := SMap.set s.fu.reports none f.unit.toNat (some r) } }

/-- The fault record leaves for the management complex as a fault report, at most one per 64 cycles of one source. Of several faults
of one cycle the lowest code is reported: it takes the place of the one that has not left yet. One that is not reported is counted
(R148, R155, R204, R206). -/
def State.report (s : State) (f : FaultInfo) : State :=
  let now := s.now (s.realOf f.cycle)
  let w := faultRecord s f
  let src := match f.tile with | some t => t.toNat | none => unitHome f.unit
  let miss : State := { s with fu := { s.fu with unreported := bump32 s.fu.unreported } }
  let send := (s.setReport f ⟨now, f.code, w⟩).sendMsg src 313 1 f.tag now (.fault w)
  match s.lastReport f with
  | none => send
  | some r =>
    if now < r.time + 64 then
      if now = r.time ∧ f.code < r.code ∧ s.mesh.vc0.any (fun m => decide (m.msg = .fault r.word)) = true then
        (miss.setReport f ⟨now, f.code, w⟩).updMesh (fun m => { m with
          vc0 := m.vc0.map (fun x => if x.msg = .fault r.word then { x with tag := f.tag, msg := .fault w } else x) })
      else miss
    else send

/-- The abort a fault of one partition's operation causes (R198). -/
def State.abortTag (s : State) (code : BitVec 8) (t : Tag) : State :=
  if Tag.isPart t then s.abortAll code .unchanged [t.toNat] else s

/-- A fault raised by an operation that carries a tag: record, count, abort of that partition (R198, R204, R205). -/
def State.fault (s : State) (f : FaultInfo) : State := ((s.report f).countFault f).abortTag f.code f.tag

/-- A fault of an AES or SHA unit of the Vault (R377). -/
def State.vaultFault (s : State) (tag : Tag) : State := s.fault (vaultInfo tag s.fu.cycle)

/-- A fault that is recorded and counted but aborts nothing: a dropped queue or unscheduled flit (R161, R205). -/
def State.faultDrop (s : State) (f : FaultInfo) : State := (s.report f).countFault f

/-- A fault in state the partitions of the die share: every partition with a stream on the die aborts (R198). -/
def State.faultWide (s : State) (f : FaultInfo) : State :=
  ((s.report f).countFault f).abortAll f.code .unchanged s.steppers

/-- A slot collision: one record for each partition concerned, and each aborts (R150, R205). -/
def State.collision (s : State) (fs : List FaultInfo) : State :=
  let s1 := fs.foldl (fun t f => t.report f) s
  s1.abortAll 0x02 .unchanged ((fs.map (fun f => f.tag.toNat)).filter (fun n => decide (n < 128))).dedup

/-! ## Scratchpad -/

/-- Bytes of a tile's scratchpad (R118). -/
def padBytes : Nat := 0x60000

/-- A scratchpad line. -/
def State.padLine (s : State) (t line : Nat) : Line := lineOfBytes (Cells.bytes s.spad (padBytes * t + 128 * line) 128)

/-- A scratchpad line written. -/
def State.setPadLine (s : State) (t line : Nat) (l : Line) : State :=
  { s with spad := Cells.write s.spad (padBytes * t + 128 * line) (bytesOfLine l) }

/-- A 64-bit scratchpad word, counted from offset 0. -/
def State.padWord (s : State) (t word : Nat) : W64 :=
  BitVec.ofNat 64 (natOfBytes (Cells.bytes s.spad (padBytes * t + 8 * word) 8))

/-- A 64-bit scratchpad word written. -/
def State.setPadWord (s : State) (t word : Nat) (w : W64) : State :=
  { s with spad := Cells.write s.spad (padBytes * t + 8 * word) (bytesOfNat 8 w.toNat) }

/-- The block a line lies in (R122). -/
def Tile.blockOf (t : Tile) (line : Nat) : Block := SMap.get t.blocks {} (line / 256)

/-- Lines `line` to `line + n - 1` lie in blocks of partition `tag` (R132). -/
def Tile.owns (t : Tile) (line n : Nat) (tag : Tag) : Bool :=
  (List.range n).all (fun i => decide ((Tile.blockOf t (line + i)).tag = tag))

/-- The first tag of a run of lines that is not `tag`, as a fault presents it (R205 0x06, DETAIL[8] 1: destination). -/
def tagDetail (tag : Tag) (dest : Bool) : BitVec 32 := (if dest then 0x100 else 0) ||| tag.setWidth 32

/-! ## Stack space -/

/-- A line of the data space. -/
def State.memLine (s : State) (line : Nat) : Line := Cells.line s.mem.data line

/-- The tag of the granule of a line (R219). -/
def State.granTag (s : State) (line : Nat) : Tag := SMap.get s.mem.granules 0xFE (line / 8388608)

/-- The key slot of a tag: one per partition and one for firmware (R221). -/
def keySlot (t : Tag) : Nat := if t.toNat < 128 then t.toNat else 128

/-- The firmware key. -/
def State.fwKey (s : State) : Nat := SMap.get s.mem.keys 0 128

/-- The key that the controller selects for a line, by its granule's tag (R221). -/
def State.lineKey (s : State) (line : Nat) : Nat := SMap.get s.mem.keys 0 (keySlot (s.granTag line))

/-- The key under which a line is stored: what was not written since its granule was zeroed holds zeros under the firmware key (R222). -/
def State.storedKey (s : State) (line : Nat) : Nat :=
  if s.mem.written.contains line then SMap.get s.mem.gkeys s.fwKey (line / 8388608) else s.fwKey

/-- What a line holds in clear under the key it is stored with. -/
def State.clearLine (s : State) (line : Nat) : Line := if s.mem.written.contains line then s.memLine line else 0

/-- The ciphertext of a line (R221). -/
def State.cipherLine (s : State) (line : Nat) : Line := Config.cipher (s.storedKey line) line (s.clearLine line)

/-- A line as the controller reads it: under the key of the granule's tag, whoever asks. What another key wrote, and zeros that the
firmware key wrote, read as data without meaning (R221, R222). -/
def State.readMem (s : State) (line : Nat) : Line :=
  if s.lineKey line = s.storedKey line then s.clearLine line else Config.unwrittenLine (s.lineKey line) line

/-- The row of a line with its place in the chunk: the place of its parity line (R215). -/
def parityPlace (line : Nat) : Nat := 128 * (line / 128 / 15) + line % 128

/-- The parity line of a row takes the difference that a write of one of its data lines makes (R216). -/
def parityAdd (m : SMap Line) (k : Nat) (d : Line) : SMap Line := SMap.put (SMap.drop m k) k (SMap.get m 0 k ^^^ d)

/-- The difference that lines written change in the parity chunks: old XOR new over the ciphertext (R215, R216). -/
def State.parityDiff (s : State) (line : Nat) (v : Line) (m : SMap Line) : SMap Line :=
  parityAdd m (parityPlace line) (s.cipherLine line ^^^ Config.cipher (s.lineKey line) line v)

/-- A line of the data space written under its granule's key, with its parity line (R216, R221). -/
def State.setMemLine (s : State) (line : Nat) (v : Line) : State :=
  { s with mem := { s.mem with
    data := Cells.setLine s.mem.data line v, written := insertRising s.mem.written line
    parity := s.parityDiff line v s.mem.parity, lost := s.mem.lost.filter (fun l => decide (l ≠ line)) } }

/-- `n` lines written with zeros under their granule's key (R222). -/
def State.zeroLines (s : State) (line n : Nat) : State :=
  { s with mem := { s.mem with
    data := Cells.clear s.mem.data (128 * line) (128 * n)
    written := s.mem.written.filter (fun l => decide (l < line)) ++ (List.range n).map (fun k => line + k) ++
      s.mem.written.filter (fun l => decide (line + n ≤ l))
    parity := (List.range n).foldl (fun m k => s.parityDiff (line + k) 0 m) s.mem.parity
    lost := s.mem.lost.filter (fun l => decide (l < line ∨ line + n ≤ l)) } }

end Sys2Proof.Machine
end

