-- ==== Sys2Proof/Machine/Issue.lean ====
section
/-! DEFINITION. The issue of a step-program instruction: the stream that may issue it, the checks of R174 and R175, the
issue ports, the scratchpad ports, and the effect of a fault at issue. -/

namespace Sys2Proof.Machine

/-- An instruction word (R172). -/
def mkWord (opc : BitVec 6) (i : Issue) (ops : BitVec 46) : W64 := opc ++ i.gen ++ i.cycle ++ ops

/-- The stream of an issue. -/
def State.strm (s : State) (i : Issue) : Stream := SMap.get (s.tile i.tile.toNat).streams {} i.stream.toNat

/-- The stream of an issue changed. -/
def State.updStrm (s : State) (i : Issue) (f : Stream → Stream) : State :=
  s.updTile i.tile.toNat (fun t => { t with streams := SMap.upd t.streams {} i.stream.toNat f })

/-- The stream issues in the current frame: it belongs to a partition that has not aborted, its frame block has come, and
the die does not hold at an earlier cycle (R168, R194, R198). -/
def State.issuing (s : State) (i : Issue) : Bool :=
  let st := s.strm i
  s.alive && Tag.isPart st.tag && decide (st.block = some s.fu.frame) && decide ((s.part st.tag.toNat).abort = none)
    && (match s.fu.hold with | none => true | some (c, _, _) => decide (i.cycle.toNat = c))

/-- A fault of the instruction that issues. -/
def State.issueFault (s : State) (i : Issue) (code unit : BitVec 8) (cyc : Nat) (detail : BitVec 32) : FaultInfo :=
  let st := s.strm i
  { code := code, tag := st.tag, tile := some i.tile, unit := unit, iaddr := BitVec.ofNat 14 st.pc, stream := i.stream,
    cycle := cyc, detail := detail }

/-- The upper half of an instruction word, the DETAIL of fault 0x01. -/
def wordDetail (w : W64) : BitVec 32 := w.extractLsb' 32 32

/-- A slot collision of the issuing instruction with another owner (R205 0x02). -/
def State.issueClash (s : State) (i : Issue) (unit : BitVec 8) (cyc : Nat) (other : Tag) : State :=
  let f := s.issueFault i 0x02 unit cyc ((other.setWidth 32) <<< 8)
  s.collision (f :: (if Tag.isPart other ∧ other ≠ f.tag then
    [{ f with tag := other, iaddr := 0x3FFF, stream := 0, detail := (f.tag.setWidth 32) <<< 8 }] else []))

/-- The checks at issue that no single instruction owns (R167, R174, R175): `cyc` is the cycle of issue, `ok` says that
the word breaks no rule of its own encoding. -/
def State.issueOk (s : State) (i : Issue) (cyc : Nat) (ok : Bool) : Bool :=
  let st := s.strm i
  ok && decide (i.gen = 0) && decide (cyc < 960) && decide (st.reached ≤ cyc)
    && (match st.branch with | none => true | some c => decide (c < cyc))

/-- The instruction has issued: its stream goes on to the next word, its port is taken, the die's schedule has reached
its cycle. -/
def State.advance (s : State) (i : Issue) (port cyc : Nat) : State :=
  let tag := (s.strm i).tag
  let s1 := s.updStrm i (fun st => { st with pc := st.pc + 1, reached := cyc, branch := none })
  let s2 := s1.updTile i.tile.toNat (fun t => { t with ports := SMap.set t.ports none port (some ⟨s.fu.frame, cyc, tag⟩) })
  s2.updFu (fun u => { u with cycle := max u.cycle cyc })

/-- An uncorrectable word of the program store (R166, R198, R205): every partition with a stream on the die aborts, and the store is
reloaded before the replay. DETAIL is the store word. -/
def State.storeFault (s : State) (i : Issue) (cyc : Nat) : State :=
  let st := s.strm i
  (s.updTile i.tile.toNat (fun t => { t with reload := true })).faultWide
    (s.issueFault i 0x17 0x4D cyc (BitVec.ofNat 32 (st.base.toNat + st.pc)))

/-- The word of the store is read at issue under SECDED (R166): one bit is corrected and counted (log entry 79), more stop the die's
step programs. -/
def State.readStore (s : State) (i : Issue) (cyc : Nat) (act : State → State) : State :=
  match i.store with
  | .none => act s
  | .single _ => act (s.updTile i.tile.toNat (fun t => { t with corrected := t.corrected + 1 }))
  | _ => s.storeFault i cyc

/-- The issue of an instruction on a port at cycle `cyc`: nothing where its stream does not issue; a fault where a check
of R166, R167, R174 or R175 fails; otherwise its own effect. -/
def State.issueAt (s : State) (i : Issue) (port : Nat) (word : W64) (cyc : Nat) (ok : Bool)
    (act : State → State) : State :=
  if s.issuing i = false then s
  else s.readStore i cyc (fun s =>
    let st := s.strm i
    if st.last.toNat < st.pc then s.fault (s.issueFault i 0x06 0x4D cyc (tagDetail st.tag false))
    else if s.issueOk i cyc ok = false then s.fault (s.issueFault i 0x01 0x4D cyc (wordDetail word))
    else
      match SMap.get (s.tile i.tile.toNat).ports none port with
      | some c =>
        if c.frame = s.fu.frame ∧ c.cycle = cyc then
          let f := s.issueFault i 0x02 0x4D cyc (BitVec.ofNat 32 port)
          s.collision (f :: (if Tag.isPart c.tag ∧ c.tag ≠ f.tag then
            [{ f with tag := c.tag, iaddr := 0x3FFF, stream := 0 }] else []))
        else act (s.advance i port cyc)
      | none => act (s.advance i port cyc))

/-- The issue of an instruction whose CYCLE field names its cycle. -/
def State.issue (s : State) (i : Issue) (port : Nat) (word : W64) (ok : Bool) (act : State → State) : State :=
  s.issueAt i port word i.cycle.toNat ok act

/-! ## The scratchpad ports (R119-R121) -/

/-- The narrow access that the narrow port serves in a cycle: the earliest issued whose bank is free, the lower issue port
first; the rest. Accesses stand in the order (issue cycle, port). -/
def pickNarrow (busy : List Nat) : List NarrowUse → List NarrowUse
  | [] => []
  | a :: t => if busy.contains a.bank then a :: pickNarrow busy t else t

/-- Narrow accesses put in order of issue cycle and port. -/
def insertNarrow (a : NarrowUse) : List NarrowUse → List NarrowUse
  | [] => [a]
  | b :: t => if a.cycle < b.cycle ∨ (a.cycle = b.cycle ∧ a.port < b.port) then a :: b :: t else b :: insertNarrow a t

/-- The first narrow access that is not served by its issue + 8, over the cycles from `c` on (R119, R121). -/
def narrowMiss (wide : List (Nat × Nat)) : Nat → Nat → List NarrowUse → Option NarrowUse
  | 0, _, _ => none
  | n + 1, c, l =>
    match l.find? (fun a => decide (a.cycle + 8 < c)) with
    | some a => some a
    | none =>
      let ready := l.filter (fun a => decide (a.cycle < c))
      let later := l.filter (fun a => decide (c ≤ a.cycle))
      let busy := (wide.filter (fun w => decide (w.1 = c))).map (fun w => w.2)
      narrowMiss wide n (c + 1) (pickNarrow busy ready ++ later)

/-- Every use of the wide port in the current frame, scheduled or not: cycle and bank. -/
def Tile.wideUses (t : Tile) : List (Nat × Nat) :=
  t.wide ++ t.fills.filterMap (fun f => match f.cycle with
    | some c => if 0 ≤ c then some (c.toNat, f.bank) else none
    | none => none)

/-- The narrow access that the uses of this frame leave unserved. -/
def Tile.narrowFail (t : Tile) : Option NarrowUse :=
  match t.narrow with
  | [] => none
  | a :: _ => narrowMiss t.wideUses (970 - min a.cycle 960) a.cycle t.narrow

/-- A scratchpad port conflict (R121, R205 0x08). -/
def State.portConflict (s : State) (f : FaultInfo) : State :=
  (s.updTile ((f.tile.getD 0).toNat) (fun t => { t with conflicts := t.conflicts + 1 })).fault f

/-- A narrow access that lost its cycle, if there is one, raises its fault and leaves the list. -/
def State.checkNarrow (s : State) (i : TileNo) : State :=
  match (s.tile i.toNat).narrowFail with
  | none => s
  | some a =>
    (s.updTile i.toNat (fun t => { t with narrow := t.narrow.filter (fun b => decide (b ≠ a)) })).portConflict
      { code := 0x08, tag := a.tag, tile := some i, unit := 0x4A, iaddr := a.iaddr, stream := a.stream, cycle := a.cycle + 9,
        detail := BitVec.ofNat 32 a.bank }

/-- A narrow access by the issuing instruction, which has left its word behind. -/
def State.useNarrow (s : State) (i : Issue) (port line : Nat) : State :=
  let st := s.strm i
  let a : NarrowUse :=
    { cycle := i.cycle.toNat, port := port, bank := line % 16, tag := st.tag, stream := i.stream,
      iaddr := BitVec.ofNat 14 (st.pc - 1) }
  (s.updTile i.tile.toNat (fun t => { t with narrow := insertNarrow a t.narrow })).checkNarrow i.tile

/-- A queue use in schedule cycle `c` of its own meets another: the same cycle, or two beats in one bank within 8 cycles (R120, R121). -/
def FillUse.meets (f g : FillUse) (c : Int) : Bool :=
  match g.cycle with
  | none => false
  | some d => decide (c = d) || (f.entry.isSome && g.entry.isSome && decide (f.bank = g.bank ∧ c < d + 8 ∧ d < c + 8))

/-- The wide port's scheduled accesses have schedule cycle `c`. -/
def Tile.wideAt (t : Tile) (c : Int) : Bool := t.wide.any (fun w => decide ((w.1 : Int) = c))

/-- The first cycle from `c` on that the wide port has free for a queue use. -/
def Tile.freeCycle (t : Tile) (f : FillUse) : Nat → Int → Int
  | 0, c => c
  | n + 1, c => if t.wideAt c || t.fills.any (fun g => decide (g ≠ f) && f.meets g c) then t.freeCycle f n (c + 1) else c

/-- A queue use leaves its cycle to a scheduled access and takes the next free one: what it lands or reads comes that much later
(R120). -/
def State.moveFill (s : State) (tile : TileNo) (f : FillUse) : State :=
  let t := s.tile tile.toNat
  let c := f.cycle.getD 0
  let d := t.freeCycle f 1024 c
  let g : FillUse := { f with cycle := some d, time := f.time + (d - c).toNat }
  let late := fun (l : List Msg) => l.map (fun m => if m.src = tile.toNat ∧ m.time = f.time then { m with time := g.time } else m)
  let s1 := s.setTile tile.toNat { t with
    fills := t.fills.map (fun x => if x = f then g else x)
    loads := match f.entry with
      | some n => SMap.upd t.loads {} n (fun e => if e.doneAt = f.time then { e with doneAt := g.time } else e)
      | none => t.loads }
  if f.entry.isSome then s1 else s1.updMesh (fun m => { m with vc3 := late m.vc3, qreq := late m.qreq })

/-- The queue uses of a tile that stand in a cycle of a scheduled access yield it (R120). -/
def State.yieldFills (s : State) (tile : TileNo) : State :=
  let t := s.tile tile.toNat
  (t.fills.filter (fun f => match f.cycle with | some c => t.wideAt c | none => false)).foldl (fun u f => u.moveFill tile f) s

/-- Scheduled wide accesses at cycles `c` to `c + n - 1` to consecutive lines from `line`: none if one of the cycles is
taken, otherwise the tile with them taken. -/
def Tile.takeWide (t : Tile) (c line n : Nat) : Option Tile :=
  let l := (List.range n).map (fun k => (c + k, (line + k) % 16))
  if l.any (fun w => t.wide.any (fun v => decide (v.1 = w.1))) then none else some { t with wide := t.wide ++ l }

/-- A scheduled wide use from cycle `c` on by the issuing instruction: on a conflict fault 0x08, otherwise `act` on the state with the
cycles taken, after the narrow port was judged again. -/
def State.useWideAt (s : State) (i : Issue) (c line n : Nat) (act : State → State) : State :=
  match (s.tile i.tile.toNat).takeWide c line n with
  | none =>
    let f := s.issueFault i 0x08 0x49 c (BitVec.ofNat 32 (line % 16))
    s.portConflict { f with iaddr := f.iaddr - 1 }
  | some t => act (((s.setTile i.tile.toNat t).yieldFills i.tile).checkNarrow i.tile)

/-- A scheduled wide use from the cycle of issue on. -/
def State.useWide (s : State) (i : Issue) (line n : Nat) (act : State → State) : State := s.useWideAt i i.cycle.toNat line n act

/-- A cycle of the wide port for a beat of load entry `entry` or, with none, for a read of the queues (R120, R121): none where a
scheduled access or another queue use has it, or, for a beat, where a beat used the bank within 8 cycles, counted in schedule cycles
and, while a hold stops them, in real ones; the narrow port is judged again. -/
def State.takeFill (s : State) (tile : TileNo) (rc line : Nat) (entry : Option Nat) : Option State :=
  let t := s.tile tile.toNat
  let now := s.now rc
  let f : FillUse := { time := now, cycle := (s.schedAt rc).map (fun c => (c : Int)), bank := line % 16, entry := entry }
  let near := fun (g : FillUse) => entry.isSome && g.entry.isSome && decide (g.bank = f.bank ∧ now < g.time + 8 ∧ g.time < now + 8)
  let taken := f.cycle.any t.wideAt || t.fills.any (fun g => decide (g.time = now) || near g || f.cycle.any (f.meets g))
  if taken then none
  else some ((s.setTile tile.toNat { t with fills := t.fills ++ [f] }).checkNarrow tile)

/-- Narrow writes of a tile that are visible to reads issued at cycle `c` take their place in scratchpad (R119). -/
def State.settle (s : State) (t c : Nat) : State :=
  let x := s.tile t
  let due := x.narrowW.filter (fun w => decide (w.1 ≤ c))
  if due.isEmpty then s
  else due.foldl (fun a w => a.setPadWord t w.2.1 w.2.2)
    (s.setTile t { x with narrowW := x.narrowW.filter (fun w => decide (¬ w.1 ≤ c)) })

/-- Narrow writes to the lines of a later access take their place first: accesses to one line take effect in issue order
(R119). -/
def State.settleLines (s : State) (t line n : Nat) : State :=
  let x := s.tile t
  let p := fun (w : Nat × Nat × W64) => decide (line ≤ w.2.1 / 16 ∧ w.2.1 / 16 < line + n)
  let due := x.narrowW.filter p
  if due.isEmpty then s
  else due.foldl (fun a w => a.setPadWord t w.2.1 w.2.2) (s.setTile t { x with narrowW := x.narrowW.filter (fun w => !p w) })

/-- The lines written by scheduled wide accesses of a tile, in line order. -/
def State.writeLines (s : State) (t line : Nat) (ls : List Line) : State :=
  (ls.zipIdx).foldl (fun a x => a.setPadLine t (line + x.2) x.1) (s.settleLines t line ls.length)

/-- A local access to lines of another partition's block is not performed: fault 0x06, with the instruction's own
address (R132, R205). -/
def State.tagFault (s : State) (i : Issue) (unit : BitVec 8) (dest : Bool) : State :=
  let f := s.issueFault i 0x06 unit i.cycle.toNat (tagDetail (s.strm i).tag dest)
  s.fault { f with iaddr := f.iaddr - 1 }

/-- A slot collision found after the instruction took its port. -/
def State.lateClash (s : State) (i : Issue) (unit : BitVec 8) (other : Tag) : State :=
  (s.updStrm i (fun st => { st with pc := st.pc - 1 })).issueClash i unit i.cycle.toNat other

/-- The overflow counter of the stream's present layer is charged, and the layer's bit of the step's overflow bitmap set
(R82, R83). -/
def State.charge (s : State) (i : Issue) (n : Nat) : State :=
  if n = 0 then s
  else
    let st := s.strm i
    let p := s.part st.tag.toNat
    let k := p.ctrBase + st.layer.toNat
    let old := (SMap.get s.fu.ovf 0 k).toNat
    let s1 : State := { s with fu := { s.fu with ovf := SMap.set s.fu.ovf 0 k (BitVec.ofNat 32 (min (old + n) 4294967295)) } }
    s1.setPart st.tag.toNat { p with
      runs := p.runs.zipIdx.map (fun x =>
        if x.2 + 1 = p.runs.length then { x.1 with overflow := Line.setBit x.1.overflow st.layer.toNat } else x.1) }

/-! ## Check bits and read errors (R125-R127) -/

/-- The check bits that are written beside a word: SECDED in a retained block, byte parity in an activation block (R125). -/
def checkBits (retained : Bool) (w : W64) : BitVec 8 := if retained then Config.secded w else byteParity w

/-- The line-parity bit over a line's data bits and its number (R125); even parity is a DESIGN CHOICE (80). -/
def lineParityBit (l : Line) (n : BitVec 12) : Bool :=
  (List.range 1024).foldl (fun p k => p != l.getLsbD k) ((List.range 12).foldl (fun p k => p != n.getLsbD k) false)

/-- The check bits that a line of scratchpad holds, word 0 first, and its line-parity bit: every write renews them, and a physical
error of a read is the command's operand (R125). -/
def State.padCheck (s : State) (t line : Nat) : List (BitVec 8) × Bool :=
  ((List.range 16).map (fun k => checkBits ((s.tile t).blockOf line).retained (s.padWord t (16 * line + k))),
   lineParityBit (s.padLine t line) (BitVec.ofNat 12 line))

/-- The bank row of a line, as the key of its error record (R118, R127). R118 puts one line in a bank row where R127 speaks of a row's 16
lines: the record, and the map-out, are of the one line of R118, a DESIGN CHOICE (115). -/
def rowKey (line : Nat) : Nat := 192 * (line % 16) + line / 16

/-- A row past its threshold: 2 corrections at different bits, 8 in all, or 2 parity errors within 2^24 frames (R127). -/
def RowErr.past (r : RowErr) : Bool := decide (2 ≤ r.bits.length ∨ 8 ≤ r.count ∨ 2 ≤ r.parity.length)

/-- A row's error record changed; a row that reaches its threshold joins the queue for map-out (R127). -/
def Tile.rowError (t : Tile) (line : Nat) (f : RowErr → RowErr) : Tile :=
  let k := rowKey line
  let r := f (SMap.get t.rowErrs {} k)
  { t with rowErrs := SMap.set t.rowErrs {} k r,
           awaiting := if r.past && !t.awaiting.contains k && !t.mapping.any (fun m => decide (m.1 = k)) then t.awaiting ++ [k]
             else t.awaiting }

/-- A corrected single-bit error of a retained block's line (R126). -/
def Tile.correctedRead (t : Tile) (line bit : Nat) : Tile :=
  let u := t.rowError line (fun r => { r with
    bits := if r.bits.contains bit then r.bits else r.bits ++ [bit], count := r.count + 1 })
  { u with corrected := u.corrected + 1, writeBack := if u.writeBack.contains line then u.writeBack else u.writeBack ++ [line] }

/-- A byte-parity or line-parity error of a line (R126, R127, R142). -/
def Tile.parityRead (t : Tile) (line frame : Nat) : Tile :=
  let u := t.rowError line (fun r => { r with
    parity := frame :: r.parity.filter (fun f => decide (frame < f + 16777216)) })
  { u with parityErrs := bump32 u.parityErrs }

/-- The error an access of line `line` meets, handled as R126 states: the state, and whether the data are good. -/
def State.readError (s : State) (t : TileNo) (line : Nat) (err : ReadErr) : State × Bool :=
  let parity := s.updTile t.toNat (fun x => x.parityRead line s.fu.frame)
  let retained := ((s.tile t.toNat).blockOf line).retained
  match err with
  | .none => (s, true)
  | .single bit => if retained then (s.updTile t.toNat (fun x => x.correctedRead line bit), true) else (parity, false)
  | .uncorrectable => if retained then (s, false) else (parity, false)
  | .lineParity => (parity, false)

/-- The `n` lines of an access from `line` are checked: the state, and the first line whose data are poisoned (R126). -/
def State.checkLines (s : State) (t : TileNo) (line n : Nat) (errs : ReadErrs) : State × Option Nat :=
  (errs.filter (fun e => decide (e.1 < n))).foldl (fun (x : State × Option Nat) e =>
    let (s1, ok) := x.1.readError t (line + e.1) e.2
    (s1, if ok then x.2 else some (x.2.getD (line + e.1)))) (s, none)

/-- A fault of the instruction that has just issued. -/
def State.ownFault (s : State) (i : Issue) (code unit : BitVec 8) (detail : BitVec 32) : State :=
  let f := s.issueFault i code unit i.cycle.toNat detail
  s.fault { f with iaddr := f.iaddr - 1 }

/-- The lines that the issuing instruction reads: poisoned data raise fault 0x13 and go nowhere, good or corrected ones go to `act`
(R126). -/
def State.readChecked (s : State) (i : Issue) (unit : BitVec 8) (line n : Nat) (errs : ReadErrs) (act : State → State) : State :=
  match s.checkLines i.tile line n errs with
  | (s1, none) => act s1
  | (s1, some l) => s1.ownFault i 0x13 unit (BitVec.ofNat 32 l)

end Sys2Proof.Machine
end

