-- ==== Sys2Proof/Machine/Operands.lean ====
section
/-! DEFINITION. Operand forms: elements of feeds and bursts (R26, R65-R69), register values on their way out (R76, R77,
R139), and the updates of accumulator registers (R34-R36, R252, R336). -/

namespace Sys2Proof.Machine

/-! ## Feed elements -/

/-- Four-bit element `k` of a latched UX4 feed: segment k / 256, byte (k mod 256) / 2 (R65, R180). -/
def feed4 (input : SMap Line) (k : Nat) : BitVec 4 := (SMap.get input 0 (k / 256)).extractLsb' (4 * (k % 256)) 4

/-- Eight-bit element `k` of a latched UX8 feed: segment k / 128 (R69, R180). -/
def feed8 (input : SMap Line) (k : Nat) : BitVec 8 := (SMap.get input 0 (k / 128)).extractLsb' (8 * (k % 128)) 8

/-- The segments an operation latches from a feed buffer (R27, R180). -/
def latched (b : FeedBuf) (tag : Tag) (n : Nat) : SMap Line :=
  if b.tag = tag then b.segs.filter (fun x => decide (x.1 < n)) else []

/-- Segments a resident mode uses: wide 0-3, the others 0-1 (R180). -/
def modeSegs (mode : Nat) : Nat := if mode = 2 then 4 else 2

/-! ## Accumulator registers -/

/-- The bound of a register value (R36). -/
def accMax : Int := 2147483647

/-- A value held at the bound of R36. -/
def accClamp (v : Int) : Int := if accMax < v then accMax else if v < -accMax then -accMax else v

/-- The result of one operation for one register. -/
structure OpOut where
  tag    : Tag
  acc    : Bool
  /-- 256 values by lane -/
  vals   : List Int
  status : StatusWord
  /-- eight predicted sums -/
  pred   : List Int
  /-- eight windows, cu -/
  win    : List Nat
  /-- single-pass content -/
  noPred : Bool
deriving DecidableEq, Repr

/-- A register after an operation completes into it: overwrite or add (R33-R36, R46, R252, R336). A register tagged 0xFE
holds zero, so an add into it acts as an overwrite. -/
def AccReg.update (r : AccReg) (o : OpOut) : AccReg :=
  let add := o.acc && decide (r.tag ≠ 0xFE)
  let old := fun (i : Nat) => if add then (SMap.get r.vals 0 i).toInt else 0
  let raw := (List.range 256).map (fun i => old i + o.vals.getD i 0)
  let vals := raw.map accClamp
  let sat := raw.any (fun v => decide (accClamp v ≠ v))
  let lost := fun (k : Nat) => (((raw.drop (32 * k)).take 32).map (fun v => v - accClamp v)).sum
  let pred := (List.range 8).map (fun k => (if add then SMap.get r.pred 0 k else 0) + o.pred.getD k 0 - lost k)
  let win := (List.range 8).map (fun k => (if add then SMap.get r.win 0 k else 0) + o.win.getD k 0)
  let st := if add then r.status.add o.status else o.status
  { tag := o.tag, vals := SMap.ofList 0 (vals.map (fun v => BitVec.ofInt 32 v)),
    status := { st with accSat := st.accSat || sat }, pred := SMap.ofList 0 pred, win := SMap.ofList 0 win,
    noPred := (add && r.noPred) || o.noPred }

/-- A register cleared to zero and tagged 0xFE (R252). -/
def AccReg.cleared : AccReg := {}

/-! ## Register transfer (R76, R77, R139) -/

/-- The clamp of R77. -/
def p32Max : Int := 16777215

/-- The P32 value of a bank register lane, shifted left by d, before the clamp (R76). -/
def shiftBank (v : Int) (d : Nat) : Int := v * 2 ^ d

/-- The P32 value of a transit register lane: value * 2^(d-2), nearest with ties to even below d = 2 (R139). -/
def shiftTransit (v : Int) (d : Nat) : Int :=
  if 2 ≤ d then v * 2 ^ (d - 2)
  else if v < 0 then -(shrRne v.natAbs (2 - d) : Int) else (shrRne v.natAbs (2 - d) : Int)

/-- A shifted value clamped (R77). -/
def p32Clamp (v : Int) : Int := if p32Max < v then p32Max else if v < -p32Max then -p32Max else v

/-- What leaves a register: 256 P32 values, whether any clamped (POVF), the predictions of the eight lane groups after
shift and clamp, and their windows (R76, R77, R336). -/
structure RegOut where
  vals : List W32
  povf : Bool
  pred : List (Int × Nat)
deriving DecidableEq, Repr

/-- The transfer of a register with alignment shift `d`; a register tagged 0xFE reads as zeros (R252). -/
def AccReg.out (r : AccReg) (transit : Bool) (d : Nat) : RegOut :=
  let v := fun (i : Nat) =>
    let x := (SMap.get r.vals 0 i).toInt
    if r.tag = 0xFE then 0 else if transit then shiftTransit x d else shiftBank x d
  let raw := (List.range 256).map v
  let lost := fun (k : Nat) => (((raw.drop (32 * k)).take 32).map (fun x => x - p32Clamp x)).sum
  let sh := fun (x : Int) => if transit then shiftTransit x d else shiftBank x d
  { vals := raw.map (fun x => BitVec.ofInt 32 (p32Clamp x)),
    povf := raw.any (fun x => decide (p32Clamp x ≠ x)),
    pred := (List.range 8).map (fun k => (sh (SMap.get r.pred 0 k) - lost k, 2 * 2 ^ d * SMap.get r.win 0 k)) }

/-! ## Bursts (R65-R69) -/

/-- A burst header (R66). -/
structure BurstHdr where
  exp   : Nat := 0
  fmt   : Nat := 0
  lanes : Nat := 0
  ovf   : Bool := false
  nanin : Bool := false
  lsat  : Bool := false
  sr    : Bool := false
  satn  : Nat := 0
  group : Nat := 0
  res   : Nat := 0
  /-- lane entries: H and POS -/
  entry : List (Int × Nat) := []
deriving DecidableEq, Repr

/-- A lane entry as its 16 bits (R67). -/
def laneBits (e : Int × Nat) : BitVec 16 := BitVec.ofInt 4 e.1 ++ (0 : BitVec 5) ++ BitVec.ofNat 7 e.2

/-- The header as its 128 bits. -/
def BurstHdr.bits (h : BurstHdr) : BitVec 128 :=
  BitVec.ofNat 8 h.exp ++ BitVec.ofNat 2 h.fmt ++ BitVec.ofNat 2 h.lanes ++ BitVec.ofBool h.ovf
    ++ BitVec.ofBool h.nanin ++ BitVec.ofBool h.lsat ++ BitVec.ofBool h.sr ++ BitVec.ofNat 8 h.satn
    ++ BitVec.ofNat 8 h.group ++ (0 : BitVec 32) ++ BitVec.ofNat 8 h.res ++ (0 : BitVec 8)
    ++ laneBits (h.entry.getD 2 (0, 0)) ++ laneBits (h.entry.getD 1 (0, 0)) ++ laneBits (h.entry.getD 0 (0, 0))

/-- The header in 128 bits. -/
def hdrOf (b : BitVec 128) : BurstHdr :=
  let e := fun (k : Nat) => ((b.extractLsb' (16 * k + 12) 4).toInt, (b.extractLsb' (16 * k) 7).toNat)
  let lanes := (b.extractLsb' 116 2).toNat
  { exp := (b.extractLsb' 120 8).toNat, fmt := (b.extractLsb' 118 2).toNat, lanes := lanes,
    ovf := b.getLsbD 115, nanin := b.getLsbD 114, lsat := b.getLsbD 113, sr := b.getLsbD 112,
    satn := (b.extractLsb' 104 8).toNat, group := (b.extractLsb' 96 8).toNat, res := (b.extractLsb' 56 8).toNat,
    entry := (List.range lanes).map e }

/-- H of the first used entry that names position `k` (R67); 0 without one. -/
def laneH : List (Int × Nat) → Nat → Int
  | [], _ => 0
  | e :: t, k => if e.2 = k then e.1 else laneH t k

/-- Element values v_k of a burst: its header, the line its block lies in and, for UX4, the half of that line. -/
def burstVals (h : BurstHdr) (l : Line) (upper : Bool) : List Int :=
  (List.range 128).map (fun k =>
    if h.fmt = 1 then (l.extractLsb' (8 * k) 8).toInt
    else (l.extractLsb' ((if upper then 512 else 0) + 4 * k) 4).toInt + 8 * laneH h.entry k)

/-- RES of element values (R66, R68). -/
def burstRes (v : List Int) : Nat := mod255 v.sum

/-- A burst element as a value: S * v_k (R63); NaN for a no-value burst. -/
def burstElem (exp : Nat) (v : Int) : FVal :=
  if exp = 255 then .nan else .fin (decide (v < 0)) v.natAbs ((exp : Int) - 127)

end Sys2Proof.Machine
end

