-- ==== Sys2Proof/Machine/ArrayInstr.lean ====
section
/-! DEFINITION. The ARRAY class: FIRE, TFIRE, XFER, FEED, TLOAD (R27-R33, R54, R137-R139, R177-R181), the mask register
loads of CTRL.MASK belong to Streams. CAL stands in Calib. -/

namespace Sys2Proof.Machine

/-- The register file key of a bank register. -/
def regKey (bank reg : Nat) : Nat := 16 * bank + reg

/-- The die-wide number of an array (R15). -/
def arrayNo (tile : TileNo) (bank : BitVec 2) (a : BitVec 4) : Nat := 64 * tile.toNat + 16 * bank.toNat + a.toNat

/-- Partition `p` may fire array `a`: the array is Resident and the base table attaches its base to the partition
(R54, R57, R250). -/
def State.mayFire (s : State) (a : Nat) (tag : Tag) : Bool :=
  let x := s.array a
  decide (x.st = .resident) &&
    (match x.base with
     | none => false
     | some b => (SMap.get s.dict.bases (0, 0) b.toNat).1.getLsbD tag.toNat && Tag.isPart tag)

/-- The feed buffer of array `n` of a tile. -/
def Tile.feed (t : Tile) (n : Nat) : FeedBuf := SMap.get t.feeds {} n

/-- An operation may latch a buffer: it carries the partition's own tag or 0xFE (R27). -/
def FeedBuf.usable (b : FeedBuf) (tag : Tag) : Bool := decide (b.tag = tag ∨ b.tag = 0xFE)

/-- An add into a register that carries another partition's tag (R252). -/
def AccReg.foreign (r : AccReg) (tag : Tag) : Bool := decide (r.tag ≠ tag ∧ r.tag ≠ 0xFE)

/-- The claim covers cycle `c` of the frame: the unit is busy (R31). -/
def busyAt (b : Option Claim) (frame c : Nat) : Bool :=
  match b with
  | none => false
  | some x => decide (x.frame = frame ∧ c < x.cycle)

/-- The owner of a claim. -/
def ownerOf (b : Option Claim) : Tag := match b with | none => 0xFE | some x => x.tag

/-- Registers of a resident operation (R33): in transposed mode the pair 2m, 2m + 1. -/
def fireRegs (mode : Nat) (bank reg : Nat) : List Nat :=
  if mode = 4 then [regKey bank (2 * (reg / 2)), regKey bank (2 * (reg / 2) + 1)] else [regKey bank reg]

/-- The word of FIRE and CAL (R177). -/
def fireWord (opc : BitVec 6) (i : Issue) (bank : BitVec 2) (array : BitVec 4) (low : BitVec 40) : W64 :=
  mkWord opc i (bank ++ array ++ low)

/-- What FIRE does once it has issued (R27, R30, R31, R33, R54, R250, R252). -/
def fireAct (i : Issue) (bank : BitVec 2) (array : BitVec 4) (mode : BitVec 3) (rge reg : BitVec 4) (acc : Bool)
    (s : State) : State :=
  let t := s.tile i.tile.toNat
  let tag := (s.strm i).tag
  let k := 16 * bank.toNat + array.toNat
  let a := arrayNo i.tile bank array
  let c := i.cycle.toNat
  let unit := BitVec.ofNat 8 k
  let x := s.array a
  let m := mode.toNat
  if s.mayFire a tag = false then s.tagFault i unit false
  else if (t.feed k).usable tag = false then s.tagFault i unit false
  else if acc && (fireRegs m bank.toNat reg.toNat).any (fun r => (SMap.get t.regs {} r).foreign tag) then
    s.tagFault i (BitVec.ofNat 8 (0x40 + bank.toNat)) true
  else if busyAt x.busy s.fu.frame c then s.lateClash i unit (ownerOf x.busy)
  else if 960 < c + modeBusy m then s.lateClash i unit 0xFD
  else if i.parity then s.ownFault i 0x13 unit 0
  else
    let op : PendOp :=
      { resident := true, unit := k, mode := mode, dir := false, infmt := false, rge := rge, reg := reg.toNat, acc := acc,
        tag := tag, stream := i.stream, iaddr := (s.strm i).pc - 1, input := latched (t.feed k) tag (modeSegs m),
        frame := s.fu.frame, ready := c + modeReadable m, isCal := false, void := false }
    (s.setArray a { x with busy := some ⟨s.fu.frame, c + modeBusy m, tag⟩ }).updTile i.tile.toNat
      (fun u => { u with ops := u.ops ++ [op] })

/-- FIRE (R30, R177). -/
def execFire (i : Issue) (bank : BitVec 2) (array : BitVec 4) (mode : BitVec 3) (rge : BitVec 4) (reg : BitVec 4)
    (acc : Bool) (rsvd : BitVec 28) (s : State) : Host.Outcome State Fault Refusal :=
  .next (s.issue i bank.toNat
    (fireWord 0x04 i bank array (mode ++ rge ++ reg ++ BitVec.ofBool acc ++ rsvd))
    (decide (rsvd = 0 ∧ mode.toNat ≤ 4)) (fireAct i bank array mode rge reg acc))

/-! ## Transit operations -/

/-- The halves a HALF field names (R178). -/
def halvesOf (half : Nat) : List Bool := if half = 0 then [false] else if half = 1 then [true] else [false, true]

/-- A TLOAD is copying into the half at cycle `c` of a frame (R136, R138). -/
def Half.copying (h : Half) (frame c : Nat) : Bool :=
  match h.copy with | none => false | some (f, at_, _) => decide (f = frame ∧ c < at_ + 256)

/-- Columns of a row of a half (R135). -/
def halfCols (wfmt : Bool) : Nat := if wfmt then 128 else 256

/-- Weight of column `col` in a line of a half (R22, R69, R135). -/
def lineWeight (wfmt : Bool) (l : Line) (col : Nat) : Int :=
  if wfmt then (l.extractLsb' (8 * col) 8).toInt else (l.extractLsb' (4 * col) 4).toInt

/-- A line arrives at the load port of a half (R135): its words' check bits and the row's tallies are formed as it arrives. -/
def Half.put (h : Half) (k : Nat) (l : Line) (from_ : LineFrom) : Half :=
  { h with
    lines := SMap.set h.lines 0 k l
    origin := SMap.set h.origin .nowhere k from_
    check := SMap.set h.check [] k ((List.range 16).map (fun w => Config.secded (l.extractLsb' (64 * w) 64)))
    tally := (List.range 8).foldl (fun m g => SMap.set m 0 (8 * k + g) (BitVec.ofInt 16
      (((List.range 32).map (fun c => if 32 * g + c < halfCols h.wfmt then lineWeight h.wfmt l (32 * g + c) else 0)).sum))) h.tally }

/-- Busy cycles of a transit operation (R137). -/
def transitBusy (half : Nat) (dir infmt : Bool) : Nat :=
  let one := if dir && decide (half ≠ 2) then 128 else if infmt then 128 else 64
  if half = 2 then 2 * one else one

/-- UNIT of a transit half (R204). -/
def halfUnit (b : Bool) : BitVec 8 := if b then 0x45 else 0x44

/-- The owner of the entry that loads a half. -/
def Tile.loaderTag (t : Tile) (b : Bool) : Tag := (t.half b).tag

/-- Feed segments a transit operation uses (R71, R180). -/
def transitSegs (half : Nat) (dir infmt : Bool) : Nat :=
  if dir && decide (half ≠ 2) then 2 else if half = 2 then (if infmt then 4 else 2) else (if infmt then 2 else 1)

/-- What TFIRE does once it has issued (R137, R138, R252). R137 gives joined halves a forward operation only, and R178 does not call DIR 1
with them malformed: they run forward whatever DIR says, a DESIGN CHOICE (113). -/
def tfireAct (i : Issue) (half : BitVec 2) (dir infmt : Bool) (treg : BitVec 2) (acc : Bool) (fb : BitVec 6)
    (s : State) : State :=
  let t := s.tile i.tile.toNat
  let tag := (s.strm i).tag
  let hs := halvesOf half.toNat
  let unit := halfUnit (hs.headD false)
  let c := i.cycle.toNat
  let busy := transitBusy half.toNat dir infmt
  if hs.any (fun b => decide ((t.half b).tag ≠ tag)) then s.tagFault i unit false
  else if (t.feed fb.toNat).usable tag = false then s.tagFault i unit false
  else if acc && (SMap.get t.tregs {} treg.toNat).foreign tag then s.tagFault i unit true
  else if hs.any (fun b => (t.half b).loading.isSome || (t.half b).copying s.fu.frame c) then
    s.lateClash i unit (t.loaderTag (hs.headD false))
  else if busyAt t.tbusy s.fu.frame c then s.lateClash i unit (ownerOf t.tbusy)
  else if 960 < c + busy then s.lateClash i unit 0xFD
  else if i.parity then s.ownFault i 0x13 unit 0
  else
    let op : PendOp :=
      { resident := false, unit := half.toNat, mode := 0, dir := dir && decide (half ≠ 2), infmt := infmt, rge := 0xF,
        reg := treg.toNat, acc := acc, tag := tag, stream := i.stream, iaddr := (s.strm i).pc - 1,
        input := latched (t.feed fb.toNat) tag (transitSegs half.toNat dir infmt), frame := s.fu.frame,
        ready := c + busy + 6, isCal := false, void := false, halves := some (t.halfA, t.halfB) }
    s.setTile i.tile.toNat { t with ops := t.ops ++ [op], tbusy := some ⟨s.fu.frame, c + busy, tag⟩ }

/-- TFIRE (R137, R178). -/
def execTfire (i : Issue) (half : BitVec 2) (dir infmt : Bool) (treg : BitVec 2) (acc : Bool) (feedbuf : BitVec 6)
    (rsvd : BitVec 33) (s : State) : Host.Outcome State Fault Refusal :=
  .next (s.issue i 4
    (mkWord 0x06 i (half ++ BitVec.ofBool dir ++ BitVec.ofBool infmt ++ treg ++ BitVec.ofBool acc ++ feedbuf ++ rsvd))
    (decide (rsvd = 0 ∧ half.toNat ≤ 2)) (tfireAct i half dir infmt treg acc feedbuf))

/-! ## Register reads -/

/-- An operation of the tile is still pending into a register at cycle `c` (R174). -/
def Tile.pendingInto (t : Tile) (frame c : Nat) (transit : Bool) (bank reg : Nat) : Option PendOp :=
  t.ops.find? (fun o => !o.isCal && (o.resident != transit) &&
    (if transit then decide (o.reg = reg)
     else decide (o.unit / 16 = bank ∧ (if o.mode = 4 then o.reg / 2 = reg / 2 else o.reg = reg))) &&
    decide (o.frame = frame → c < o.ready))

/-- A register a tile holds: bank register or transit register. -/
def Tile.register (t : Tile) (transit : Bool) (bank reg : Nat) : AccReg :=
  if transit then SMap.get t.tregs {} reg else SMap.get t.regs {} (regKey bank reg)

/-- UNIT of a register read. -/
def regUnit (transit : Bool) (bank : Nat) : BitVec 8 := if transit then 0x44 else BitVec.ofNat 8 (0x40 + bank)

/-- A register read by the issuing instruction: a slot collision while an operation is pending into it, fault 0x06 where it
carries another partition's tag, otherwise `act` with what leaves it (R174, R252). -/
def State.readReg (s : State) (i : Issue) (transit : Bool) (bank reg d : Nat) (act : RegOut → AccReg → State → State) :
    State :=
  let t := s.tile i.tile.toNat
  match t.pendingInto s.fu.frame i.cycle.toNat transit bank reg with
  | some o => s.lateClash i (regUnit transit bank) o.tag
  | none =>
    let r := t.register transit bank reg
    if r.foreign (s.strm i).tag then s.tagFault i (regUnit transit bank) false
    else act (r.out transit d) r s

/-- SRC, BANK, REG and SHIFT of XFER and SENDR break no rule (R179). -/
def regFieldsOk (src : Bool) (bank : BitVec 2) (reg : BitVec 4) (shift : BitVec 5) : Bool :=
  decide (shift.toNat ≤ 19) && (!src || decide (bank = 0 ∧ reg.toNat ≤ 3))

/-- The 8 value lines of a register transfer and its status line (R46, R179). -/
def xferLines (o : RegOut) (r : AccReg) : List Line :=
  (List.range 8).map (fun k => lineOfWords ((o.vals.drop (32 * k)).take 32))
    ++ [lineOfWords [if r.tag = 0xFE then 0 else r.status.bits]]

/-- XFER (R76, R77, R139, R179, R376). -/
def execXfer (i : Issue) (src : Bool) (bank : BitVec 2) (reg : BitVec 4) (shift : BitVec 5) (line : BitVec 12)
    (rsvd : BitVec 22) (s : State) : Host.Outcome State Fault Refusal :=
  .next (s.issue i 5
    (mkWord 0x07 i (BitVec.ofBool src ++ bank ++ reg ++ shift ++ line ++ rsvd))
    (decide (rsvd = 0 ∧ line.toNat ≤ 3063) && regFieldsOk src bank reg shift)
    (fun s => s.readReg i src bank.toNat reg.toNat shift.toNat (fun o r s =>
      if i.upset then s.ownFault i 0x12 (regUnit src bank.toNat) 0
      else if (s.tile i.tile.toNat).owns line.toNat 9 (s.strm i).tag = false then s.tagFault i 0x49 true
      else if 960 < i.cycle.toNat + 9 then s.lateClash i 0x49 0xFD
      else s.useWide i line.toNat 9 (fun s => if i.parity then s.ownFault i 0x13 0x49 (BitVec.ofNat 32 line.toNat) else
        (s.writeLines i.tile.toNat line.toNat (xferLines o r)).charge i (if o.povf then 1 else 0)))))

/-! ## Feeds and retained loads -/

/-- A feed buffer after a FEED writes one segment (R27). -/
def FeedBuf.fed (b : FeedBuf) (tag : Tag) (seg : Nat) (l : Line) : FeedBuf :=
  { tag := tag, segs := SMap.set (if b.tag = tag then b.segs else []) 0 seg l }

/-- FEED (R27, R119, R126, R174, R180). -/
def execFeed (i : Issue) (line : BitVec 12) (seg : BitVec 2) (mreg : BitVec 3) (rsvd : BitVec 29) (errs : ReadErrs) (s : State) :
    Host.Outcome State Fault Refusal :=
  .next (s.issue i 6 (mkWord 0x08 i (line ++ seg ++ mreg ++ rsvd)) (decide (rsvd = 0 ∧ line.toNat ≤ 3071))
    (fun s =>
      let st := s.strm i
      let recent := match SMap.get st.maskAt none mreg.toNat with
        | none => false
        | some m => decide (m.frame = s.fu.frame ∧ i.cycle.toNat < m.cycle + 10)
      if recent then s.lateClash i 0x4A st.tag
      else if (s.tile i.tile.toNat).owns line.toNat 1 st.tag = false then s.tagFault i 0x49 false
      else s.useWide i line.toNat 1 (fun s => s.readChecked i 0x49 line.toNat 1 errs (fun s =>
        let s := s.settleLines i.tile.toNat line.toNat 1
        let l := s.padLine i.tile.toNat line.toNat
        let mask := SMap.get st.masks 0 mreg.toNat
        s.updTile i.tile.toNat (fun t => { t with
          feeds := (List.range 64).foldl (fun f n =>
            if mask.getLsbD n then SMap.upd f {} n (fun b => b.fed st.tag seg.toNat l) else f) t.feeds })))))

/-- A transit operation of the tile is under way on a half at cycle `c`: its busy interval ends 6 cycles before its result is readable
(R138, R139). -/
def Tile.opOn (t : Tile) (frame c : Nat) (b : Bool) : Bool :=
  t.ops.any (fun o => !o.resident && decide (o.frame = frame ∧ c + 6 < o.ready) && (halvesOf o.unit).contains b)

/-- TLOAD (R126, R135, R136, R138, R181): line k is copied in the k-th cycle after the issue. What a narrow access writes to a line
before its copy follows with the write (R119). -/
def execTload (i : Issue) (half wfmt : Bool) (block : BitVec 4) (rsvd : BitVec 40) (errs : ReadErrs) (s : State) :
    Host.Outcome State Fault Refusal :=
  .next (s.issue i 4 (mkWord 0x09 i (BitVec.ofBool half ++ BitVec.ofBool wfmt ++ block ++ rsvd))
    (decide (rsvd = 0 ∧ block.toNat ≤ 11))
    (fun s =>
      let t := s.tile i.tile.toNat
      let tag := (s.strm i).tag
      let b := SMap.get t.blocks {} block.toNat
      if b.retained = false ∨ b.tag ≠ tag then s.tagFault i 0x49 false
      else if (t.half half).tag ≠ tag ∧ (t.half half).tag ≠ 0xFE then s.tagFault i (halfUnit half) true
      else if t.opOn s.fu.frame i.cycle.toNat half then s.lateClash i (halfUnit half) (ownerOf t.tbusy)
      else if (t.half half).loading.isSome then s.lateClash i (halfUnit half) (t.loaderTag half)
      else if 960 < i.cycle.toNat + 256 then s.lateClash i (halfUnit half) 0xFD
      else s.useWide i (256 * block.toNat) 256 (fun s => s.readChecked i 0x49 (256 * block.toNat) 256 errs (fun s =>
        let s := s.settleLines i.tile.toNat (256 * block.toNat) 256
        if i.parity then s.ownFault i 0x13 (halfUnit half) (BitVec.ofNat 32 (256 * block.toNat)) else
        let h : Half :=
          { tag := tag, wfmt := wfmt, copy := some (s.fu.frame, i.cycle.toNat, block.toNat) }
        s.updTile i.tile.toNat (fun t => t.setHalf half
          ((List.range 256).foldl (fun h k =>
            h.put k (s.padLine i.tile.toNat (256 * block.toNat + k)) (.pad (256 * block.toNat + k))) h))))))

/-- A narrow write of cycle `c` to a line that a TLOAD has not copied yet reaches the half with the copy (R119). -/
def Half.follow (h : Half) (frame c word : Nat) (w : W64) : Half :=
  match h.copy with
  | some (f, at_, b) =>
    let k := word / 16 - 256 * b
    if f = frame ∧ word / 16 / 256 = b ∧ c < at_ + k then
      let l := SMap.get h.lines 0 k
      let n := 64 * (word % 16)
      h.put k (l ^^^ ((l ^^^ ((w.setWidth 1024) <<< n)) &&& (BitVec.ofNat 1024 (2 ^ 64 - 1) <<< n))) (.pad (word / 16))
    else h
  | none => h

end Sys2Proof.Machine
end

