-- ==== Sys2Proof/Machine/ArrayEvents.lean ====
section
/-! DEFINITION. What the resident and transit arrays do on their own: results becoming readable and their checks
(R28-R46, R100, R137-R140), withdrawal and repair (R43, R47-R50), programming and release erase (R51-R57). -/

namespace Sys2Proof.Machine

/-! ## Slices and codes -/

/-- The bit-plane of slot `k` (R30). -/
def slotPlane (mode k : Nat) : Nat :=
  match mode with
  | 1 => (k % 16) / 4
  | 3 => k
  | _ => k / 4

/-- Twice the weight of a slot's code in half-cu terms (R34): s * 2^p, doubled outside averaged mode. -/
def slotCoef (mode k : Nat) : Int :=
  let p := slotPlane mode k
  let top := if mode = 2 ∨ mode = 4 then 7 else 3
  (if p = top then -1 else 1) * 2 ^ p * (if mode = 1 then 1 else 2)

/-- Some element of a run of the input has bit `p` set. -/
def anyBit (wide : Bool) (input : SMap Line) (base n p : Nat) : Bool :=
  (List.range n).any (fun i => if wide then (feed8 input (base + i)).getLsbD p else (feed4 input (base + i)).getLsbD p)

/-- Slot `k` fires its slice: some driven row carries bit 1 (R33, R37). -/
def PendOp.fires (o : PendOp) (k : Nat) : Bool :=
  let m := o.mode.toNat
  let p := slotPlane m k
  match m with
  | 3 => (List.range 4).any (fun g => o.rge.getLsbD g && anyBit false o.input (128 * g) 128 p)
  | 4 => anyBit true o.input (128 * ((k / 2) % 2)) 128 p
  | _ => o.rge.getLsbD (k % 4) && anyBit (decide (m = 2)) o.input (128 * (k % 4)) 128 p

/-- The code range of the converter of column `j`: 127 for weight columns and for spare 7's shadow code (264), 4,095 for tally columns
(R29, R38). A spare that stands in for a tally column converts to that column's range, which R25 implies and R38 leaves open: DESIGN
CHOICE (69). -/
def codeMax (j : Nat) : Int := if j < 256 ∨ j = 264 then 127 else 4095

/-- A code held at the end of its range (R38). -/
def clipCode (j : Nat) (c : Int) : Int := if codeMax j < c then codeMax j else if c < -codeMax j then -codeMax j else c

/-- The code reaches the end of its range (bounded modes) or passes it (single-pass) (R38). -/
def clamped (mode j : Nat) (c : Int) : Bool :=
  if mode = 3 then decide (codeMax j < c ∨ c < -codeMax j) else decide (codeMax j ≤ c ∨ c ≤ -codeMax j)

/-- The codes of one operation, ready for combining: fired slots, clipped codes. -/
structure Conv where
  mode  : Nat
  fired : List Bool
  raw   : List (List Int)
deriving DecidableEq, Repr

/-- The conversions of an operation from the codes the converters give, slot by slot: columns 0-255, tally columns 256-263
and, where a shadow conversion is made, its code at 264 (R28, R100); row codes 0-255 in transposed mode. -/
def PendOp.conv (o : PendOp) (codes : List (List Int)) : Conv :=
  { mode := o.mode.toNat, fired := (List.range (modeSlots o.mode.toNat)).map o.fires, raw := codes }

/-- The raw code of slot `k`, converter `j`; exactly 0 where the slice is not fired (R37). -/
def Conv.code (c : Conv) (k j : Nat) : Int := if c.fired.getD k false then (c.raw.getD k []).getD j 0 else 0

/-- The code after the clamp. -/
def Conv.val (c : Conv) (k j : Nat) : Int := clipCode j (c.code k j)

/-- Slots of the mode. -/
def Conv.slots (c : Conv) : List Nat := List.range c.fired.length

/-- No slice fired (R37). -/
def Conv.silent (c : Conv) : Bool := !c.fired.any id

/-- The combined output of column `j`, half-cu (R34). -/
def Conv.out (c : Conv) (j : Nat) : Int := (c.slots.map (fun k => slotCoef c.mode k * c.val k j)).sum

/-- The combined output of row `r` in transposed mode (R34, R39). -/
def Conv.row (c : Conv) (r : Nat) : Int :=
  (c.slots.map (fun k => if k % 2 = r / 256 then slotCoef c.mode k * c.val k (r % 256) else 0)).sum

/-- The columns of tally group `t`. -/
def groupCols (t : Nat) : List Nat := (List.range 32).map (fun i => 32 * t + i)

/-- The conversion residual of group `t` in slot `k` (R40). -/
def Conv.resid (c : Conv) (k t : Nat) : Int := c.val k (256 + t) - ((groupCols t).map (fun j => c.val k j)).sum

/-- The output residual of group `t`, half-cu (R40). -/
def Conv.outResid (c : Conv) (t : Nat) : Int := c.out (256 + t) - ((groupCols t).map c.out).sum

/-- A code of tally group `t` clamped in slot `k`. -/
def Conv.slotClamp (c : Conv) (k t : Nat) : Bool :=
  clamped c.mode (256 + t) (c.code k (256 + t)) && decide (c.mode ≠ 4) ||
    (groupCols t).any (fun j => clamped c.mode j (c.code k j))

/-- A code of tally group `t` clamped. -/
def Conv.groupClamp (c : Conv) (t : Nat) : Bool := c.slots.any (fun k => c.slotClamp k t)

/-- Some conversion residual of group `t` exceeds its window (R40); averaged mode judges the mean of each pair. -/
def Conv.convFail (c : Conv) (widened : Bool) (t : Nat) : Bool :=
  match convWindow c.mode widened with
  | none => false
  | some w =>
    if c.mode = 1 then (List.range 16).any (fun k => decide (2 * w < (c.resid k t + c.resid (k + 16) t).natAbs))
    else c.slots.any (fun k => decide (w < (c.resid k t).natAbs))

/-- Group `t` of a forward operation fails a check (R38, R40). -/
def Conv.groupFail (c : Conv) (widened : Bool) (t : Nat) : Bool :=
  if c.silent then false
  else if c.groupClamp t then decide (c.mode ≠ 3)
  else c.convFail widened t || decide (2 * outWindow c.mode widened < (c.outResid t).natAbs)

/-- The expectation of row group `g`, half-du (R39). -/
def rowExpect (sums : SMap Int) (input : SMap Line) (g : Nat) : Int :=
  ((List.range 256).map (fun j => (feed8 input j).toInt * SMap.get sums 0 (256 * g + j))).sum

/-- The output residual of row group `g`, half-du: the sum of the 128 row outputs minus the expectation (R39). -/
def Conv.rowResid (c : Conv) (sums : SMap Int) (input : SMap Line) (g : Nat) : Int :=
  8 * ((List.range 128).map (fun i => c.row (128 * g + i))).sum - rowExpect sums input g

/-- A code of a row of row group `g` clamped (R38). -/
def Conv.rowClamp (c : Conv) (g : Nat) : Bool :=
  c.slots.any (fun k => decide (k % 2 = g / 2) &&
    (List.range 128).any (fun i => clamped 4 (128 * (g % 2) + i) (c.code k (128 * (g % 2) + i))))

/-- Row group `g` of a transposed operation fails its check (R38-R40, R95). -/
def Conv.rowFail (c : Conv) (sums : SMap Int) (input : SMap Line) (widened : Bool) (g : Nat) : Bool :=
  if c.silent then false
  else c.rowClamp g || (List.range 256).any (fun j => decide (SMap.get sums 0 (256 * g + j) = -2048)) ||
    decide (16 * outWindow 4 widened < (c.rowResid sums input g).natAbs)

/-- Eight flags as a mask, flag 0 in bit 0. -/
def maskOf (f : Nat → Bool) (n : Nat) : BitVec 8 :=
  BitVec.ofNat 8 (((List.range n).map (fun t => if f t then 2 ^ t else 0)).sum)

/-- How many flags of a mask are set. -/
def ones8 (m : BitVec 8) : Nat := ((List.range 8).filter (fun i => m.getLsbD i)).length

/-- The groups that fail (R41): tally groups, or row groups in transposed mode. -/
def Conv.failMask (c : Conv) (x : ArrayS) (input : SMap Line) (widened : Bool) : BitVec 8 :=
  if c.mode = 4 then maskOf (c.rowFail x.cal.sums input widened) 4 else maskOf (c.groupFail widened) 8

/-- The converter that makes the codes of a column: its own, or that of the spare mapped to it (R39, R47, R94). -/
def ArrayS.converter (x : ArrayS) (col : Nat) : Nat :=
  match x.colMap.find? (fun e => e.2.getLsbD 15 && decide ((e.2.extractLsb' 0 9).toNat = col)) with
  | some e => 264 + e.1
  | none => col

/-- An operation uses the stand-in (R39, R105): the converter that is detached would make the codes of one of the columns that the mode
converts, of which the tally columns are none in transposed mode. -/
def ArrayS.usesStandIn (x : ArrayS) (mode : Nat) : Bool :=
  match x.detached with
  | none => false
  | some k => (List.range (if mode = 4 then 256 else 264)).any (fun col => decide (x.converter col = k))

/-- The status word of an operation (R46). -/
def Conv.status (c : Conv) (x : ArrayS) (o : PendOp) (widened : Bool) : StatusWord :=
  let fm := c.failMask x o.input widened
  let sm := maskOf c.groupClamp 8
  { mode := o.mode, array := BitVec.ofNat 4 o.unit, zero := c.silent, tallyFail := decide (fm ≠ 0), sat := decide (sm ≠ 0),
    accSat := false, widened := widened,
    stale := !c.silent && x.usesStandIn c.mode,
    failMask := fm, satMask := sm }

/-- An integer divided by 8, nearest with ties to even. -/
def div8Rne (v : Int) : Int := if v < 0 then -(shrRne v.natAbs 3 : Int) else (shrRne v.natAbs 3 : Int)

/-- What an operation writes: register key and contents; two registers in transposed mode (R34, R336). -/
def Conv.results (c : Conv) (x : ArrayS) (o : PendOp) (widened : Bool) : List (Nat × OpOut) :=
  let st := c.status x o widened
  let bank := o.unit / 16
  if c.mode = 4 then
    let w := outWindow 4 widened
    (List.range 2).map (fun h =>
      (regKey bank (2 * (o.reg / 2) + h),
       { tag := o.tag, acc := o.acc, vals := (List.range 256).map (fun i => c.row (256 * h + i)), status := st,
         pred := (List.range 8).map (fun k => if k % 4 = 0 then div8Rne (rowExpect x.cal.sums o.input (2 * h + k / 4)) else 0),
         win := (List.range 8).map (fun k => if k % 4 = 0 then w else 0), noPred := false }))
  else
    [(regKey bank o.reg,
      { tag := o.tag, acc := o.acc, vals := (List.range 256).map c.out, status := st,
        pred := (List.range 8).map (fun k => c.out (256 + k)),
        win := (List.range 8).map (fun _ => outWindow c.mode widened), noPred := decide (c.mode = 3) })]

/-- The output residual of largest magnitude, in cu (R59). Whole cu toward zero, and the lowest group of equal magnitudes:
DESIGN CHOICE (70). -/
def Conv.worst (c : Conv) (x : ArrayS) (o : PendOp) : Int :=
  let l := if c.mode = 4 then (List.range 4).map (fun g => (c.rowResid x.cal.sums o.input g).tdiv 16)
    else (List.range 8).map (fun t => (c.outResid t).tdiv 2)
  l.foldl (fun a b => if a.natAbs < b.natAbs then b else a) 0

/-! ## The background window (R100) -/

/-- One slice's data enter the window: residuals of the eight groups and the shadow difference of one column. -/
def CalWindow.slice (w : CalWindow) (c : Conv) (k col : Nat) : CalWindow :=
  let r := fun (t : Nat) => c.resid k t
  { w with
    residSum := (List.range 8).foldl (fun m t => SMap.upd m 0 t (fun v => v + r t)) w.residSum
    residNum := (List.range 8).foldl (fun m t => SMap.upd m 0 t (fun v => v + 1)) w.residNum
    residSq := w.residSq + ((List.range 8).map (fun t => (r t).natAbs * (r t).natAbs)).sum
    diffSum := SMap.upd w.diffSum 0 col (fun v => v + (c.val k col - c.val k 264))
    diffNum := SMap.upd w.diffNum 0 col (fun v => v + 1)
    slices := w.slices + 1 }

/-- A slice qualifies: fired, in standard, wide or averaged mode, no clamped code (R100). -/
def Conv.qualifies (c : Conv) (k : Nat) : Bool :=
  decide (c.mode ≤ 2) && c.fired.getD k false && !(List.range 8).any (fun t => c.slotClamp k t)

/-- The window and the rotation of the shadowed column after an operation (R100, R105). -/
def ArrayS.windowOp (x : ArrayS) (c : Conv) (enabled : Bool) : ArrayS :=
  if c.silent ∨ enabled = false ∨ x.running.isSome then x
  else
    let x1 := { x with win := { x.win with ops := x.win.ops + 1 } }
    c.slots.foldl (fun y k =>
      if c.qualifies k then { y with win := y.win.slice c k y.shadowCol, shadowCol := (y.shadowCol + 1) % 256 } else y) x1

/-! ## Withdrawal (R43, R49, R50) -/

/-- Partitions whose shard uses an array. -/
def State.usersOf (s : State) (a : Nat) : List Nat :=
  (s.parts.filter (fun p => p.2.arrays.any (fun x => decide (x.toNat = a)))).map (fun p => p.1)

/-- An array is withdrawn: it may not be fired, waits for diagnosis, its full calibration is suspended (R43,
R49, R50); its layers enter the stream requests of its users (R248). -/
def State.withdraw (s : State) (a : Nat) (tag : Tag) : State :=
  let x := s.array a
  if x.st = .resident then
    let s1 := s.setArray a { x with
      st := .withdrawn, diagnosing := true, failAt := none, spAt := [],
      suspended := x.running.isSome, stale := true }
    s1.arrayStepEvent 1 a 3 2 tag
  else s

/-- `k` checks of R41 failed in one operation on array `a`: each is counted, and a failure within the 4,096 fired operations after
an earlier one withdraws the array (R43). -/
def State.arrayFailed (s : State) (a : Nat) (tag : Tag) (k : Nat) : State :=
  let x := s.array a
  let again := match x.failAt with | none => false | some n => decide (x.fired ≤ n + 4096)
  let s1 := s.setArray a { x with fails := min (x.fails + k) 4294967295, failAt := some x.fired }
  if again then s1.withdraw a tag else s1

/-- `k` single-pass checks failed in one operation: each is counted, and 16 within 4,096 fired operations withdraw the array
(R41, R43). -/
def State.spFailed (s : State) (a : Nat) (tag : Tag) (k : Nat) : State :=
  let x := s.array a
  let l := List.replicate k x.fired ++ x.spAt.filter (fun n => decide (x.fired < n + 4096))
  let s1 := s.setArray a { x with spFails := min (x.spFails + k) 4294967295, spAt := l }
  if 16 ≤ l.length then s1.withdraw a tag else s1

/-- A fault of an operation that has completed. -/
def opFault (tile : TileNo) (o : PendOp) (code unit : BitVec 8) (detail : BitVec 32) : FaultInfo :=
  { code := code, tag := o.tag, tile := some tile, unit := unit, iaddr := BitVec.ofNat 14 o.iaddr, stream := o.stream,
    cycle := o.ready, detail := detail }

/-- Two pending operations that complete together into one register. -/
def sameTarget (a b : PendOp) : Bool :=
  decide (a.resident = b.resident ∧ a.frame = b.frame ∧ a.ready = b.ready) && !a.isCal && !b.isCal &&
    (if a.resident then decide (a.unit / 16 = b.unit / 16 ∧
        (if a.mode = 4 ∨ b.mode = 4 then a.reg / 2 = b.reg / 2 else a.reg = b.reg))
     else decide (a.reg = b.reg))

/-- An operation leaves the queue of pending operations. -/
def Tile.dropOp (t : Tile) (o : PendOp) : Tile := { t with ops := t.ops.erase o }

/-- Register results written, each unless an add meets another partition's tag (R252). -/
def writeRegs (regs : SMap AccReg) (rs : List (Nat × OpOut)) : SMap AccReg :=
  rs.foldl (fun m r => SMap.upd m {} r.1 (fun x => x.update r.2)) regs

/-- The counters and the window of an array after one of its operations (R59, R100). -/
def State.arrayRan (s : State) (a : Nat) (c : Conv) (o : PendOp) : State :=
  s.updArray a (fun x =>
    let y := x.windowOp c s.dict.bgEnable
    if c.silent then y else { y with fired := x.fired + 1, lastResid := BitVec.ofInt 32 (c.worst x o) })

/-- An array operation's result becomes readable (R34-R46). -/
def State.arrayReadable (s : State) (a : Nat) (o : PendOp) (codes : List (List Int)) (upset : Bool) : State :=
  let tile : TileNo := BitVec.ofNat 9 (a / 64)
  let widened := s.health.widened
  let x := s.array a
  let c := o.conv codes
  let fm := c.failMask x o.input widened
  let s1 := (s.updTile (a / 64) (fun t => t.dropOp o)).arrayRan a c o
  if o.void then s1
  else if upset then s1.fault (opFault tile o 0x12 (BitVec.ofNat 8 (0x40 + o.unit / 16)) 0)
  else
    let rs := c.results x o widened
    let regs := (s.tile (a / 64)).regs
    if o.acc && rs.any (fun r => (SMap.get regs {} r.1).foreign o.tag) then
      s1.fault (opFault tile o 0x06 (BitVec.ofNat 8 (0x40 + o.unit / 16)) (tagDetail o.tag true))
    else
      let s2 := s1.updTile (a / 64) (fun t => { t with regs := writeRegs t.regs rs })
      if fm = 0 then s2
      else if o.mode = 3 then s2.spFailed a o.tag (ones8 fm)
      else (s2.arrayFailed a o.tag (ones8 fm)).fault (opFault tile o 0x10 (BitVec.ofNat 8 o.unit) (fm.setWidth 32))

/-- A pending operation completes with a void result. -/
def Tile.voidOp (t : Tile) (o : PendOp) : Tile := { t with ops := t.ops.map (fun x => if x = o then { x with void := true } else x) }

/-- Two overwrites complete into one register in one cycle: a slot collision (R35). The first has completed; the other completes
with a void result. -/
def State.overwriteClash (s : State) (t : Nat) (a b : PendOp) : State :=
  let unit := if a.resident then BitVec.ofNat 8 (0x40 + a.unit / 16) else 0x44
  let f := fun (x y : PendOp) => opFault (BitVec.ofNat 9 t) x 0x02 unit ((y.tag.setWidth 32) <<< 8)
  (s.updTile t (fun x => (x.dropOp a).voidOp b)).collision (f a b :: (if a.tag = b.tag then [] else [f b a]))

/-- ARRAY_RESULT_READABLE (R34): the array's oldest pending operation completes. An add waits for an overwrite of the same
register that completes in the same cycle (R35). -/
def execArrayResultReadable (array : ArrayNo) (codes : List (List Int)) (upset : Bool) (s : State) :
    Host.Outcome State Fault Refusal :=
  let t := s.tile (array.toNat / 64)
  match t.ops.find? (fun o => o.resident && !o.isCal && decide (o.unit = array.toNat % 64)) with
  | none => .next s
  | some o =>
    match (t.ops.erase o).find? (fun b => sameTarget o b && !b.acc && !b.void) with
    | some b =>
      if o.void then .next (s.arrayReadable array.toNat o codes upset)
      else if o.acc then .next s
      else .next ((s.arrayRan array.toNat (o.conv codes) o).overwriteClash (array.toNat / 64) o b)
    | none => .next (s.arrayReadable array.toNat o codes upset)

/-! ## Transit results (R135-R140) -/

/-- Weight (r, c) of a half: row r is line r, UX4 columns in nibbles, UX8 columns in bytes. -/
def Half.weight (h : Half) (r c : Nat) : Int := lineWeight h.wfmt (SMap.get h.lines 0 r) c

/-- Input element `k` of a transit operation. -/
def PendOp.elem (o : PendOp) (k : Nat) : Int :=
  if o.infmt ∨ o.dir then (feed8 o.input k).toInt else (feed4 o.input k).toInt

/-- A half as a transit operation found it when it issued: no load reaches it while the operation runs (R138). -/
def PendOp.half (o : PendOp) (b : Bool) : Half :=
  match o.halves with
  | some h => if b then h.2 else h.1
  | none => {}

/-- Output `i` of a transit operation, du, of the weights it ran on (R138, R139). -/
def PendOp.transitOut (o : PendOp) (i : Nat) : Int :=
  let one := fun (b : Bool) (base : Nat) =>
    let h := o.half b
    if o.dir then
      ((List.range (if h.wfmt then 128 else 256)).map (fun c => o.elem c * h.weight i c)).sum
    else if h.wfmt && decide (128 ≤ i) then 0
    else ((List.range 256).map (fun r => o.elem (base + r) * h.weight r i)).sum
  if o.unit = 2 then one false 0 + one true 256 else one (decide (o.unit = 1)) 0

/-- The tally output of a 32-column group: the inputs over the rows' digital tallies (R135, R140). -/
def PendOp.tallyOut (o : PendOp) (g : Nat) : Int :=
  let one := fun (b : Bool) (base : Nat) =>
    ((List.range 256).map (fun r => o.elem (base + r) * (SMap.get (o.half b).tally 0 (8 * r + g)).toInt)).sum
  if o.unit = 2 then one false 0 + one true 256 else one (decide (o.unit = 1)) 0

/-- The predicted sum of a lane group of a result: the tally output of its columns; the outputs of a transposed operation are rows,
which have no tally over them, and their own sum stands (R140, R336). -/
def PendOp.transitPred (o : PendOp) (g : Nat) : Int :=
  if o.dir then ((List.range 32).map (fun k => o.transitOut (32 * g + k))).sum else o.tallyOut g

/-- The first group whose outputs do not sum to its tally output (R140). -/
def PendOp.tallyMiss (o : PendOp) : Option Nat :=
  (List.range 8).find? (fun g => decide (o.transitPred g ≠ ((List.range 32).map (fun k => o.transitOut (32 * g + k))).sum))

/-- The result of a transit operation (R139, R336). -/
def PendOp.transitResult (o : PendOp) : OpOut :=
  { tag := o.tag, acc := o.acc, vals := (List.range 256).map o.transitOut,
    status := { zero := (List.range 512).all (fun k => decide (o.elem k = 0)) },
    pred := (List.range 8).map o.transitPred, win := [], noPred := false }

/-- A transit check failed: the half is reloaded before the replay (R140). -/
def State.transitFailed (s : State) (tile : TileNo) (o : PendOp) (group : Nat) : State :=
  (s.updTile tile.toNat (fun t =>
    let t1 := (halvesOf o.unit).foldl (fun u b => u.setHalf b { u.half b with doubt := true }) t
    { t1 with transitFails := t1.transitFails + 1 })).fault
    (opFault tile o 0x11 (halfUnit (decide (o.unit = 1))) (BitVec.ofNat 32 group))

/-- TRANSIT_RESULT_READABLE (R139, R140): the tile's oldest pending transit operation completes. `secdedBad` and `tallyBad` are what
the checks of R140 find wrong of the hardware: an uncorrectable word of the half, a group whose comparison fails. -/
def execTransitResultReadable (tile : TileNo) (secdedBad upset : Bool) (tallyBad : Option Nat) (s : State) :
    Host.Outcome State Fault Refusal :=
  let t := s.tile tile.toNat
  match t.ops.find? (fun o => !o.resident) with
  | none => .next s
  | some o =>
    let s1 := s.updTile tile.toNat (fun u => u.dropOp o)
    if o.void then .next s1
    else if upset then .next (s1.fault (opFault tile o 0x12 (halfUnit (decide (o.unit = 1))) 0))
    else if secdedBad || tallyBad.isSome || o.tallyMiss.isSome then
      .next (s1.transitFailed tile o (tallyBad.getD (o.tallyMiss.getD 0)))
    else
      match (t.ops.erase o).find? (fun b => sameTarget o b && !b.acc && !o.acc && !b.void) with
      | some b => .next (s.overwriteClash tile.toNat o b)
      | none =>
        if o.acc && (SMap.get t.tregs {} o.reg).foreign o.tag then
          .next (s1.fault (opFault tile o 0x06 (halfUnit (decide (o.unit = 1))) (tagDetail o.tag true)))
        else .next (s1.updTile tile.toNat (fun u => { u with tregs := writeRegs u.tregs [(o.reg, o.transitResult)] }))

/-! ## Repair (R47-R49) -/

/-- A valid column-map entry of field origin for a column (R48). -/
def fieldEntry (col : Nat) : BitVec 16 := 0xC000 ||| BitVec.ofNat 16 col

/-- Spares 0-6 that no entry uses, lowest first (R47). -/
def ArrayS.freeSpares (x : ArrayS) : List Nat :=
  (List.range 7).filter (fun k => !(SMap.get x.colMap 0 k).getLsbD 15 && !(SMap.get x.colMapNew 0 k).getLsbD 15)

/-- What row `r` of a column holds: a weight, or a tally sum for 256 + t (R25). -/
def ArrayS.colCell (x : ArrayS) (col r : Nat) : Int :=
  if col < 256 then SMap.get x.cells 0 (256 * r + col) else SMap.get x.tally 0 (8 * r + (col - 256))

/-- Spare `k` holds a column's cells. -/
def ArrayS.programSpare (x : ArrayS) (k col : Nat) : ArrayS :=
  { x with spare := (List.range 512).foldl (fun m r => SMap.set m 0 (8 * r + k) (x.colCell col r)) x.spare }

/-- A failed column is given a free spare, which is programmed with its cells; the entry takes effect at the
array's return (R49). Which free spare it is, and what becomes of the entry of a column that was repaired before, the spec
leaves open: the lowest-numbered one, and the earlier entry stays: DESIGN CHOICE (71). -/
def ArrayS.repairCol (x : ArrayS) (col : Nat) : ArrayS :=
  match x.freeSpares with
  | [] => x
  | k :: _ =>
    let y := x.programSpare k col
    { y with colMapNew := SMap.set y.colMapNew 0 k (fieldEntry col), failedCols := y.failedCols.filter (fun c => decide (c.toNat ≠ col)) }

/-- Column-map entries written to flash take effect (R47). -/
def ArrayS.mapCols (x : ArrayS) : ArrayS :=
  { x with colMap := x.colMapNew.foldl (fun m e => SMap.set m 0 e.1 e.2) x.colMap, colMapNew := [] }

/-- An array that cannot be repaired: Failed, and the device enters Twilight (R49, R51). -/
def State.unrepairable (s : State) (a : Nat) : State :=
  ((s.updArray a (fun x => { x with st := .failed, diagnosing := false })).arrayEvent 2 a 5 3).twilight 0x02

/-- ARRAY_DIAGNOSIS_END (R49): the decision after the diagnosis of a Withdrawn array. -/
def execArrayDiagnosisEnd (array : ArrayNo) (failed : List (BitVec 9)) (s : State) : Host.Outcome State Fault Refusal :=
  let x := s.array array.toNat
  if x.st = .withdrawn ∧ x.diagnosing = true then
    if failed.isEmpty ∨ x.freeSpares.length < failed.length then .next (s.unrepairable array.toNat)
    else .next ((s.setArray array.toNat { x with diagnosing := false, failedCols := failed }).arrayEvent 2 array.toNat 3 3)
  else .next s

/-- SPARE_PROGRAMMING_END (R49): a failed column's cells stand in a free spare. -/
def execSpareProgrammingEnd (array : ArrayNo) (column : BitVec 9) (s : State) : Host.Outcome State Fault Refusal :=
  let x := s.array array.toNat
  if x.st = .withdrawn ∧ x.failedCols.contains column = true then
    .next (s.setArray array.toNat (x.repairCol column.toNat))
  else .next s

/-- The present frame boundary is a step boundary of partition `p`, or `p` is not stepping (R49). -/
def State.atBoundary (s : State) (p : Nat) : Bool :=
  let q := s.part p
  match q.st with
  | .serving => decide (q.nextStart = some s.fu.frame)
  | .streaming => decide (q.nextStart = some s.fu.frame)
  | _ => true

/-- The users of an array leave the streamed variants of its layers at the present boundary (R49, R111; log entry 68). -/
def State.leaveStreams (s : State) (a : Nat) : State :=
  let own := layerBits (s.array a).layers
  (s.usersOf a).foldl (fun t p => t.updPart p (fun q =>
    { q with streams := (q.nextStreams.getD q.streams &&& ~~~ own) ||| t.streamRequest p, nextStreams := none })) s

/-- A suspended full calibration starts its stage-2 converter or its stage again (R112). -/
def ArrayS.restartStage (x : ArrayS) : ArrayS :=
  { x with suspended := false, stageSlots := if x.stage = 2 then 40 * (x.stageSlots / 40) else 0 }

/-- ARRAY_RETURN (R49, R50): at a boundary of every partition concerned the column map takes effect, the array is
Resident and its partitions leave their streamed variants; a suspended full calibration resumes. -/
def execArrayReturn (array : ArrayNo) (s : State) : Host.Outcome State Fault Refusal :=
  let x := s.array array.toNat
  if x.st = .withdrawn ∧ x.diagnosing = false ∧ x.failedCols = [] ∧ (s.usersOf array.toNat).all s.atBoundary then
    let y := if x.suspended then x.mapCols.restartStage else x.mapCols
    .next (((s.setArray array.toNat { y with st := .resident, stale := y.running.isSome }).arrayEvent 2 array.toNat 2 3).leaveStreams
      array.toNat)
  else .next s

/-! ## Programming (R51-R57) -/

/-- The tally sums of weights: sum of the 32 weights of each row's group (R24). -/
def tallySums (cells : SMap Int) : SMap Int :=
  cells.foldl (fun m c => SMap.upd m 0 (8 * (c.1 / 256) + (c.1 % 256) / 32) (fun v => v + c.2)) []

/-- Weights in canonical form: cells that are not 0, by key. -/
def cellMap (cells : List (Nat × Int)) : SMap Int := cells.foldl (fun m c => SMap.set m 0 c.1 c.2) []

/-- The cells of an array after erase and row programming: weights, tally sums and mapped spares, those of entries that wait for the
next frame boundary among them (R47, R50, R51 steps 3, 4). -/
def ArrayS.programmed (x : ArrayS) (cells : SMap Int) : ArrayS :=
  let y := { x with cells := cells, tally := tallySums cells, spare := [] }
  y.mapCols.colMap.foldl (fun z e => if e.2.getLsbD 15 then z.programSpare e.1 (e.2.extractLsb' 0 9).toNat else z) y

/-- The tile's program engine goes on to its next array. -/
def Tile.nextProgram (t : Tile) : Tile := { t with progQueue := t.progQueue.drop 1 }

/-- The queued calibration requests of an array leave the queues. -/
def Tile.dropRequests (t : Tile) (a : Nat) : Tile :=
  { t with
    calPrio := t.calPrio.filter (fun n => decide (n ≠ a))
    calUser := t.calUser.filter (fun q => decide (q.1 ≠ a))
    calRot := t.calRot.filter (fun n => decide (n ≠ a)) }

/-- A user calibration of some array has not come to its end (R99, R107). -/
def State.userOpen (s : State) : Bool :=
  s.tiles.any (fun t => !t.2.calUser.isEmpty) ||
    s.arrays.any (fun x => (match x.2.running with | some r => !r.user.isEmpty | none => false) || x.2.staging.any (fun e => e.user))

/-- Field corrections of every array saved, in the other generation of the store (R99). -/
def State.saveCorr (s : State) : State :=
  { s with arrays := SMap.mapVals s.arrays {} (fun _ x => { x with corrSaved := x.corr }),
           dict := { s.dict with corrGen := 1 - s.dict.corrGen } }

/-- The save of R99 after each user calibration: `open_` says that one was open before the act that led to `s`. -/
def State.afterUser (s : State) (open_ : Bool) : State := if open_ && !s.userOpen then s.saveCorr else s

/-- A full calibration of an array is given up: the array leaves its tile's calibration unit (R112). -/
def State.dropCal (s : State) (a : Nat) : State :=
  ((s.updTile (a / 64) (fun t => { t.dropRequests a with
    calNow := if t.calNow = some (BitVec.ofNat 15 a) then none else t.calNow })).updArray a (fun x =>
      { x with running := none, stage := 0, stageSlots := 0, detached := none, suspended := false })).afterUser s.userOpen

/-- Programming may start from these states (R57). -/
def ArrayStatus.programmable : ArrayStatus → Bool
  | .erased => true
  | .resident => true
  | .withdrawn => true
  | .incomplete => true
  | .programming => false
  | .failed => false

/-- Steps 2 to 4 of R51 on array `a`. -/
def State.programArray (s : State) (a : Nat) (cells : List (Nat × Int)) (dig : BitVec 384) : State :=
  let x0 := s.array a
  if x0.freeSpares.length < x0.failedCols.length then s.unrepairable a
  else
    let x1 := x0.failedCols.foldl (fun y c => y.repairCol c.toNat) x0
    let n := x0.progCount + 1
    let x2 := { x1 with st := .programming, progCount := n, marker := true, diagnosing := false, failedCols := [],
                        image := some dig, win := {} }
    let s1 := (s.setArray a (x2.programmed (cellMap cells))).dropCal a
    let s2 := s1.updTile (a / 64) (fun t => { t.nextProgram with progNow := some (BitVec.ofNat 15 a) })
    let s3 := if n = s.dict.warnAt.toNat ∨ 10000 < n then s2.arrayEvent 3 a n x0.progCount else s2
    s3

/-- ARRAY_PROGRAMMING_START (R51): the tile's program engine takes its next array. What the engine does after it has refused an
erase at the endurance limit (R53) the spec leaves open: the array stays at the head of its queue and the arrays behind it wait:
DESIGN CHOICE (72). -/
def execArrayProgrammingStart (tile : TileNo) (cells : List (Nat × Int)) (imageDigest : BitVec 384) (digestOk : Bool)
    (s : State) : Host.Outcome State Fault Refusal :=
  let t := s.tile tile.toNat
  match t.progQueue with
  | [] => .next s
  | a :: _ =>
    let x := s.array a.toNat
    if t.progNow ≠ none ∨ x.st.programmable = false then .next s
    else if digestOk = false ∨ cells.any (fun c => decide (c.2 < -7 ∨ 7 < c.2)) = true then
      -- malformed image: reported, nothing is erased (R22, R51 step 1)
      .next ((s.usersOf a.toNat).foldl (fun u p => u.partEvent 2 p 1 0) (s.setTile tile.toNat t.nextProgram))
    else if 10000 ≤ x.progCount ∧ s.dict.override = false then .next s
    else .next (s.programArray a.toNat cells imageDigest)

/-- A priority request for a full calibration (R100, R102, R106); one already queued is merged. -/
def State.requestCal (s : State) (a : Nat) : State :=
  s.updTile (a / 64) (fun t => if t.calPrio.contains a then t else { t with calPrio := t.calPrio ++ [a] })

/-- A user calibration of a point is queued for an array (R106, R107). -/
def State.requestUser (s : State) (a : Nat) (p : BitVec 2) : State :=
  s.updTile (a / 64) (fun t => if t.calUser.contains (a, p) then t else { t with calUser := t.calUser ++ [(a, p)] })

/-- An automatic full calibration is queued for an array (R106). -/
def State.requestRotation (s : State) (a : Nat) : State :=
  s.updTile (a / 64) (fun t => { t with calRot := insertRising t.calRot a })

/-- The quality figure of an array set; above 3.0 LSB an event is recorded and a priority full calibration requested
(R101, R102). -/
def State.setQuality (s : State) (a : Nat) (q : BitVec 16) : State :=
  let old := (s.array a).quality
  let s1 := s.updArray a (fun x => { x with quality := q })
  if 768 < q.toNat ∧ q ≠ 0xFFFF then (s1.arrayEvent 5 a q.toNat old.toNat).requestCal a else s1

/-- Column sums in the calibration rows (R95). -/
def sumsOf (l : List (BitVec 12)) : SMap Int := SMap.ofList 0 (l.map (fun b => b.toInt))

/-- The replacement of partition `p` counts an array under the new image (R268). -/
def State.countProgrammed (s : State) (p : Nat) : State :=
  let q := s.part p
  match (if q.repl = 2 then q.staged else none) with
  | some i =>
    let done := q.arrays.filter (fun a => decide ((s.array a.toNat).st = .resident ∧ (s.array a.toNat).image = some i.digest) &&
      !(s.tile (a.toNat / 64)).progQueue.contains a && decide ((s.tile (a.toNat / 64)).progNow ≠ some a))
    s.setPart p { q with programmed := done.length, repl := if done.length = q.arrays.length then 3 else q.repl }
  | none => s

/-- One array of a release erase; where power is lost during the erase its marker stays set (R57). -/
def ArrayS.released (x : ArrayS) (lost : Bool) : ArrayS :=
  { x with st := .erased, progCount := x.progCount + 1, marker := lost, cells := [], tally := [], spare := [],
           base := none, layers := [], image := none, win := {} }

/-- RELEASE_ERASE (R57, R251): the arrays of a base to which no partition is attached; `lost`: power is lost before the erase is
done. At the endurance limit an array is not erased (R53). -/
def execReleaseErase (base : BitVec 5) (lost : Bool) (s : State) : Host.Outcome State Fault Refusal :=
  if (SMap.get s.dict.bases (0, 0) base.toNat).1 ≠ 0 then .next s
  else
    let l := (s.arrays.filter (fun x => decide (x.2.base = some base ∧ x.2.st = .resident) &&
      (decide (x.2.progCount < 10000) || s.dict.override))).map (fun x => x.1)
    .next (l.foldl (fun t a =>
      let n := (t.array a).progCount
      let t1 := (t.updArray a (fun x => x.released lost)).dropCal a
      if n + 1 = s.dict.warnAt.toNat ∨ 10000 ≤ n then t1.arrayEvent 3 a (n + 1) n else t1) s)

end Sys2Proof.Machine
end

