-- ==== Sys2Proof/Machine/Calib.lean ====
section
/-! DEFINITION. Calibration and trim: slots (CAL), background windows, full calibration, the writing of calibration rows,
the correction save, drift evaluation (R91-R113, R380, R381). -/

namespace Sys2Proof.Machine

/-! ## Trims (R94-R99) -/

/-- The sensor of a tile (R422). -/
def sensorOf (t : Nat) : Nat := 8 * ((t / 16) / 2) + (t % 16) / 2

/-- The junction temperature of a tile in 1/16 degree C (R97, R424). -/
def State.tileTemp (s : State) (t : Nat) : Option Int := SMap.get s.power.readings none (sensorOf t)

/-- A temperature held within 40-100 degree C (R97). -/
def clampTemp (t : Int) : Int := if t < 640 then 640 else if 1600 < t then 1600 else t

/-- num / den rounded to nearest, ties to even; den > 0. -/
def divRne (num : Int) (den : Nat) : Int :=
  let q := num / (den : Int)
  let r := num % (den : Int)
  if 2 * r < den then q else if (den : Int) < 2 * r then q + 1 else if q % 2 = 0 then q else q + 1

/-- Interpolation of a field between the points of R97; `v p` is the field at point p. -/
def interp (v : Nat → Int) (temp : Int) : Int :=
  let t := clampTemp temp
  let p := min ((t - 640) / 320).toNat 2
  divRne (320 * v p + (v (p + 1) - v p) * (t - 640 - 320 * p)) 320

/-- The trim record of a converter at a point. -/
def CalSet.trim (c : CalSet) (point k : Nat) : Trim := SMap.get c.trims {} (272 * point + k)

/-- The active trims of a converter before the DAC's limits (R96, R97). -/
def ArrayS.wantTrim (x : ArrayS) (temp : Int) (k : Nat) : Int × Int :=
  let c := SMap.get x.corr {} k
  (interp (fun p => (x.cal.trim p k).off) temp + c.off, interp (fun p => (x.cal.trim p k).gain) temp + c.gain)

/-- A value held in a range. -/
def hold (lo hi v : Int) : Int := if v < lo then lo else if hi < v then hi else v

/-- The trims of all 272 converters at a temperature, and the converters that the DAC limits clamp (R96). -/
def ArrayS.trimsAt (x : ArrayS) (temp : Int) : SMap Trim × List Nat :=
  let w := (List.range 272).map (x.wantTrim temp)
  (SMap.ofList {} (w.map (fun v => { off := hold (-128) 127 v.1, gain := hold (-32) 31 v.2 })),
   (List.range 272).filter (fun k =>
     let v := w.getD k (0, 0)
     decide (v.1 < -128 ∨ 127 < v.1 ∨ v.2 < -32 ∨ 31 < v.2)))

/-- New trims enter the shadow bank (R97, R98); without a temperature the last one used holds. -/
def ArrayS.retrim (x : ArrayS) (temp : Option Int) : ArrayS :=
  match (match temp with | some t => some t | none => x.trimTemp) with
  | none => x
  | some t =>
    let r := x.trimsAt t
    { x with shadow := some r.1, untrim := r.2, trimTemp := some t }

/-- An 8-bit correction; a value outside its range is open. -/
def corr8 (v : Int) : Int := if v < -128 ∨ 127 < v then (Config.trimOver v).toInt else v

/-! ## Background windows (R100-R102) -/

/-- A rational's magnitude. -/
def ratAbs (q : Rat) : Rat := if q < 0 then -q else q

/-- A rational rounded to the nearest integer, ties to even. -/
def ratRne (q : Rat) : Int := divRne q.num q.den

/-- A value put into a rising list. -/
def ratInsert (q : Rat) : List Rat → List Rat
  | [] => [q]
  | x :: t => if q ≤ x then q :: x :: t else x :: ratInsert q t

/-- The median of a list; of an even number the mean of the middle two; 0 of none. -/
def median (l : List Rat) : Rat :=
  let s := l.foldl (fun a q => ratInsert q a) []
  let n := s.length
  if n % 2 = 1 then s.getD (n / 2) 0 else (s.getD (n / 2 - 1) 0 + s.getD (n / 2) 0) / 2

/-- The mean difference of column `j`, if it has samples. -/
def CalWindow.diff (w : CalWindow) (j : Nat) : Option Rat :=
  let n := SMap.get w.diffNum 0 j
  if n = 0 then none else some (((SMap.get w.diffSum (0 : Int) j : Int) : Rat) / (n : Rat))

/-- e_j of every column (R100 step 1). -/
def CalWindow.errs (w : CalWindow) : List Rat :=
  let m := median ((List.range 256).filterMap w.diff)
  (List.range 256).map (fun j =>
    if SMap.get w.diffNum 0 j < 16 then 0
    else match w.diff j with | some d => d - m | none => 0)

/-- The mean conversion residual of group `t` (R100 step 2). R100 gives none for a group without a residual in the window: its mean is
taken as 0, so it counts as resolved: DESIGN CHOICE (109). -/
def CalWindow.mean (w : CalWindow) (t : Nat) : Rat :=
  let n := SMap.get w.residNum 0 t
  if n = 0 then 0 else ((SMap.get w.residSum (0 : Int) t : Int) : Rat) / (n : Rat)

/-- Residuals in the window. -/
def CalWindow.count (w : CalWindow) : Nat := ((List.range 8).map (fun t => SMap.get w.residNum 0 t)).sum

/-- The quality figure of a window, 1/256 LSB (R101): the integer square root, at most 65,534: DESIGN CHOICE (70). -/
def CalWindow.figure (w : CalWindow) : BitVec 16 :=
  BitVec.ofNat 16 (min (isqrtBits 40 (w.residSq * 65536 / w.count) 0) 65534)

/-- The correction of converter `k` raised. -/
def addCorr (m : SMap Trim) (k : Nat) (d : Int) : SMap Trim :=
  SMap.upd m {} k (fun t => { t with off := corr8 (t.off + d) })

/-- Steps 3 and 4 of R100 for group `t`: the corrections of the converters that serve its columns. -/
def ArrayS.groupCorrect (es : List Rat) (w : CalWindow) (x : ArrayS) (t : Nat) : ArrayS :=
  let eT := w.mean t + ((groupCols t).map (fun j => es.getD j 0)).sum
  if ratAbs eT ≤ 4 then
    let c1 := (groupCols t).foldl (fun m j =>
      if 1 / 4 ≤ ratAbs (es.getD j 0) then addCorr m (x.converter j) (ratRne (4 * es.getD j 0)) else m) x.corr
    let c2 := if 1 / 4 ≤ ratAbs eT then addCorr c1 (x.converter (256 + t)) (ratRne (4 * eT)) else c1
    { x with corr := c2, unresRun := SMap.set x.unresRun 0 t 0 }
  else { x with unres := bump32 x.unres, unresRun := SMap.upd x.unresRun 0 t (fun n => n + 1) }

/-- The end-of-window steps on an array (R100, R101): corrections into the shadow bank, means, counters, a new window. The means
in 1/256 LSB are rounded down, and hold their low 16 bits: DESIGN CHOICE (70). -/
def ArrayS.endWindow (x : ArrayS) (temp : Option Int) : ArrayS :=
  let w := x.win
  let y : ArrayS := (List.range 8).foldl (fun a t => a.groupCorrect w.errs w t) x
  let y1 : ArrayS := { y with
    windows := y.windows + 1, win := {},
    means := SMap.ofList 0 ((List.range 8).map (fun t => (256 * w.mean t).floor)) }
  if y1.corr = x.corr then y1 else y1.retrim temp

/-- A background window ends, whole or early (R100-R102, R106). -/
def State.windowEnd (s : State) (a : Nat) : State :=
  let x := s.array a
  let y := x.endWindow (s.tileTemp (a / 64))
  let s1 := s.setArray a y
  let s2 := if (List.range 8).any (fun t => decide (4 ≤ SMap.get y.unresRun 0 t)) ∨
      y.untrim.any (fun k => !x.untrim.contains k) = true
    then s1.requestCal a else s1
  if 1024 ≤ x.win.count then
    (s2.updArray a (fun z => { z with stale := false })).setQuality a x.win.figure
  else s2.updArray a (fun z => { z with stale := false })

/-- BACKGROUND_WINDOW_END (R50, R100): 4,096 fired operations of a Resident array have passed and no full calibration runs. -/
def execBackgroundWindowEnd (array : ArrayNo) (s : State) : Host.Outcome State Fault Refusal :=
  let x := s.array array.toNat
  if 4096 ≤ x.win.ops ∧ x.running = none ∧ x.st = .resident ∧ s.dict.bgEnable = true then .next (s.windowEnd array.toNat) else .next s

/-! ## Calibration slots (R103-R105, R381) -/

/-- Slots of the stages of a full calibration (R104). -/
def stageLen (stage : Nat) : Nat :=
  match stage with
  | 1 => 128 | 2 => 10840 | 3 => 3840 | 4 => 512 | 5 => 1024 | _ => 0

/-- One slot goes to the running full calibration (R104, R105). In stage 2 a slot is used only on the converter that is
detached; it is exchanged at frame boundaries. -/
def ArrayS.stageSlot (x : ArrayS) : ArrayS :=
  if x.running = none ∨ x.suspended = true ∨ x.stage = 0 then x
  else if x.stage = 2 then
    (if x.detached = some (x.stageSlots / 40) then { x with stageSlots := x.stageSlots + 1 } else x)
  else if x.stageSlots + 1 < stageLen x.stage then { x with stageSlots := x.stageSlots + 1 }
  else if x.stage < 5 then { x with stage := x.stage + 1, stageSlots := 0 }
  else { x with stageSlots := stageLen 5 }

/-- At a frame boundary a stage-2 converter with its 40 slots is reattached and the next is detached; after converter 270
stage 3 begins (R105). -/
def ArrayS.exchange (x : ArrayS) : ArrayS :=
  if x.running = none ∨ x.suspended = true ∨ x.stage ≠ 2 then x
  else
    let k := x.stageSlots / 40
    if x.detached = some k then x
    else if k < 271 then { x with detached := some k }
    else { x with detached := none, stage := 3, stageSlots := 0 }

/-- A drifting array is handled as R102 states and recorded (R380). -/
def State.drift (s : State) (a : Nat) : State :=
  (({ s with health := { s.health with drifting := s.health.drifting + 1 } }.arrayEvent 7 a 1 0).requestCal a)

/-- The exact dot product of the probe's test vector and a column of the digital shard copy, to which the cells
were programmed (R381). -/
def ArrayS.probeExact (x : ArrayS) (a col : Nat) : Int :=
  (List.range 512).foldl (fun acc row => acc + Config.probeInput a row * SMap.get x.cells 0 (256 * row + col)) 0

/-- The standard bound in du (R44). -/
def standardBound : Nat := 500

/-- A probe fails when the error of any output exceeds the standard bound (R44, R381). The outputs the array converts to are free
values (13). -/
def ArrayS.probeBad (x : ArrayS) (a free : Nat) : Bool :=
  (List.range 256).any (fun col => decide (standardBound < (Config.probeOutput free col - x.probeExact a col).natAbs))

/-- The probe that every 256th slot of an array is (R381). -/
def State.probeSlot (s : State) (a : Nat) : State :=
  let bad := (s.array a).probeBad a s.free
  let x := s.array a
  let s1 : State := { s.freed with health := { s.health with probes := s.health.probes + 1 } }
  if x.awaitProbe then
    let s2 := s1.setArray a { x with probe := none, awaitProbe := false }
    if bad then s2.drift a else s2
  else s1.setArray a { x with probe := some (bad || x.probe.getD false) }

/-- The end of stage 1: spare 7's converter takes the corrections measured against the reference charge source, and its trims with
them (R104, R105). What is measured is a free value. -/
def State.setStandIn (s : State) (a : Nat) : State :=
  let c := Config.standIn s.free
  s.freed.updArray a (fun x =>
    ({ x with corr := SMap.set x.corr {} 271 { off := c.1.toInt, gain := c.2.toInt } }).retrim (s.tileTemp (a / 64)))

/-- One calibration slot on an array: every 256th is a probe, the others go to the running full calibration (R104, R381). -/
def State.calSlot (s : State) (a : Nat) : State :=
  let x := s.array a
  let y := { x with slots := x.slots + 1, slotsAll := x.slotsAll + 1 }
  if y.slotsAll % 256 = 0 then (s.setArray a y).probeSlot a
  else
    let s1 := s.setArray a y.stageSlot
    if x.stage = 1 ∧ (s1.array a).stage = 2 then s1.setStandIn a else s1

/-- What CAL does once it has issued (R54, R103, R250). -/
def calAct (i : Issue) (bank : BitVec 2) (array : BitVec 4) (s : State) : State :=
  let tag := (s.strm i).tag
  let a := arrayNo i.tile bank array
  let unit := BitVec.ofNat 8 (16 * bank.toNat + array.toNat)
  let x := s.array a
  if s.mayFire a tag = false then s.tagFault i unit false
  else if busyAt x.busy s.fu.frame i.cycle.toNat then s.lateClash i unit (ownerOf x.busy)
  else if 960 < i.cycle.toNat + 192 then s.lateClash i unit 0xFD
  else
    (s.setArray a { x with busy := some ⟨s.fu.frame, i.cycle.toNat + 192, tag⟩ }).calSlot a

/-- CAL (R103, R177). -/
def execCal (i : Issue) (bank : BitVec 2) (array : BitVec 4) (rsvd : BitVec 40) (s : State) :
    Host.Outcome State Fault Refusal :=
  .next (s.issue i bank.toNat (fireWord 0x05 i bank array rsvd) (decide (rsvd = 0)) (calAct i bank array))

/-- At the end of a run of 1,024 frames the slots that the array received in it are kept (R103). -/
def ArrayS.slotRun (x : ArrayS) : ArrayS := { x with slotsRun := some x.slots, slots := 0 }

/-- Slots that the rule of one in every 16 frames gives in 1,024 frames (R103). -/
def slotsDue : Nat := 64

/-- SLOT_SHORTFALL (R103): an array of a partition that received fewer slots in the latest run of 1,024 frames than the compiler rule
requires is counted once for that run, and an event recorded. R500 gives R103 no CODE of its own: code 5, which R102 has: DESIGN
CHOICE (73). -/
def execSlotShortfall (array : ArrayNo) (s : State) : Host.Outcome State Fault Refusal :=
  let x := s.array array.toNat
  let n := s.dict.shortfalls
  if (s.usersOf array.toNat).isEmpty then .next s
  else
    match x.slotsRun with
    | none => .next s
    | some k =>
      if k < slotsDue then
        .next (((s.updDict (fun d => { d with shortfalls := bump32 n })).setArray array.toNat { x with slotsRun := none }).arrayEvent
          5 array.toNat (bump32 n) n)
      else .next s

/-! ## Full calibration (R104-R107, R113) -/

/-- The array whose queued full calibration starts next: priority requests in order of arrival, then user calibrations, then the
rotation in array-number order (R106). `ok`: the array may be calibrated now; the request of another waits (R50). -/
def Tile.nextCal (t : Tile) (ok : Nat → Bool) : Option Nat :=
  match t.calPrio.find? ok with
  | some a => some a
  | none =>
    match (t.calUser.map (fun q => q.1)).find? ok with
    | some a => some a
    | none => t.calRot.find? ok

/-- The queued requests of an array, merged (R106). -/
def Tile.calWhy (t : Tile) (a : Nat) (rebuild : Bool) : CalWhy :=
  { prio := t.calPrio.contains a, user := (t.calUser.filter (fun q => decide (q.1 = a))).map (fun q => q.2)
    rotation := t.calRot.contains a, rebuild := rebuild }

/-- FULL_CALIBRATION_START (R106): the tile's calibration unit takes the next queued array. -/
def execFullCalibrationStart (tile : TileNo) (s : State) : Host.Outcome State Fault Refusal :=
  let t := s.tile tile.toNat
  match t.calNow, t.nextCal (fun a => decide ((s.array a).st = .resident)) with
  | none, some a =>
    .next ((s.setTile tile.toNat { t.dropRequests a with calNow := some (BitVec.ofNat 15 a) }).updArray a (fun x =>
      { x with running := some (t.calWhy a (decide (x.rebuild = 1))), stage := 1, stageSlots := 0, detached := none,
               suspended := false, stale := true, win := {} }))
  | _, _ => .next s

/-- Two 8-bit corrections from what a full calibration found. -/
def corrOf (offsets gains : List Int) : SMap Trim :=
  SMap.ofList {} ((List.range 272).map (fun k => { off := corr8 (offsets.getD k 0), gain := corr8 (gains.getD k 0) }))

/-- A measured trim as a record's fields; values outside them are open (R94). -/
def recTrim (v : Int × Int) : Trim :=
  { off := if v.1 < -64 ∨ 63 < v.1 then ((Config.trimOver v.1).setWidth 7).toInt else v.1,
    gain := if v.2 < -16 ∨ 15 < v.2 then ((Config.trimOver v.2).setWidth 5).toInt else v.2 }

/-- One point's records replaced. -/
def CalSet.setPoint (c : CalSet) (p : Nat) (f : Nat → Trim) (sweep : BitVec 16) : CalSet :=
  { c with trims := (List.range 272).foldl (fun m k => SMap.set m {} (272 * p + k) (f k)) c.trims,
           sweeps := c.sweeps.set p sweep }

/-- The new sums differ from the stored ones by more than 4 half-du somewhere (R104). -/
def sumsMoved (old new : SMap Int) : Bool :=
  (List.range 1024).any (fun i => decide (4 < (SMap.get old 0 i - SMap.get new 0 i).natAbs))

/-- A user calibration finds the tile within 2 degree C of the point (R107). -/
def inTolerance (temp : Option Int) (p : Nat) : Bool :=
  match temp with
  | none => false
  | some t => decide ((t - 16 * (40 + 20 * p)).natAbs ≤ 32)

/-- The set as it stands once every staged write is done (R110). -/
def ArrayS.latestSet (x : ArrayS) : CalSet := match x.staging.getLast? with | some e => e.set | none => x.cal

/-- The slope of a field between the outer points, per 1/16 degree C. -/
def CalSet.slope (c : CalSet) (gain : Bool) (k : Nat) : Rat :=
  let v := fun (p : Nat) => if gain then (c.trim p k).gain else (c.trim p k).off
  ((v 3 - v 0 : Int) : Rat) / 960

/-- The die-median temperature slope of a field (R111): over every converter of the Resident arrays whose sets are whole, between points
0 and 3: DESIGN CHOICE (15). -/
def State.medianSlope (s : State) (gain : Bool) : Rat :=
  median ((s.arrays.filter (fun x => decide (x.2.st = .resident ∧ x.2.rebuild = 0))).flatMap (fun x =>
    (List.range 272).map (x.2.cal.slope gain)))

/-- A rebuilt set: at every point the value measured at the present temperature, moved along the die-median slope (R111). -/
def ArrayS.rebuiltSet (x : ArrayS) (temp : Int) (slope : Bool → Rat) (sums : SMap Int) : CalSet :=
  let at_ := fun (gain : Bool) (v : Int) (p : Nat) => v + ratRne (slope gain * ((640 + 320 * p : Int) - clampTemp temp : Int))
  (List.range 4).foldl (fun c p => c.setPoint p (fun k =>
    let w := x.wantTrim temp k
    recTrim (at_ false w.1 p, at_ true w.2 p)) 0xFFFF) { x.latestSet with sums := sums }

/-- The set to be written at the end of a full calibration, if any (R104, R107, R110, R111). `points`: the user calibrations whose
rewrite is due. A rebuilt set zeroes the field corrections, which stand in its records, and a point that a user calibration asked for is
written with its sweep number: R111 states neither, DESIGN CHOICE (110). -/
def ArrayS.newSet (x : ArrayS) (r : CalWhy) (points : List (BitVec 2)) (temp : Option Int) (sums : SMap Int) (sweep : BitVec 16)
    (slope : Bool → Rat) : Option StagedSet :=
  let old := x.latestSet
  let moved := sumsMoved old.sums sums
  let base := if moved then { old with sums := sums } else old
  let here := points.find? (fun p => inTolerance temp p.toNat)
  let own := fun (c : CalSet) (p : BitVec 2) => c.setPoint p.toNat (fun k => recTrim (x.wantTrim (temp.getD 640) k)) sweep
  if r.rebuild then
    let c := x.rebuiltSet (temp.getD 640) slope sums
    some { set := (match here with | some p => own c p | none => c), zero := true, user := here.isSome, rebuilt := true,
           points := 4, sums := true }
  else
    match here with
    | some p => some { set := own base p, zero := true, user := true, points := 1, sums := moved }
    | none =>
      -- nothing is written for an array that the user calibration alone asked for and that is out of tolerance
      if (!points.isEmpty && !r.prio && !r.rotation) = true ∨ moved = false then none
      else some { set := base, zero := false, user := false, sums := true }

/-- The corrections after a full calibration: those of stage 3, and for spare 7's converter what stage 1 set (R104). -/
def ArrayS.fullCorr (x : ArrayS) (offsets gains : List Int) : SMap Trim :=
  SMap.set (corrOf offsets gains) {} 271 (SMap.get x.corr {} 271)

/-- FULL_CALIBRATION_END (R101, R104, R107, R112, R113): the 1,024 slots of stage 5 have been used. A priority request that arrived
during a user calibration runs before the rewrite, which then waits for its result. -/
def execFullCalibrationEnd (array : ArrayNo) (offsets gains : List Int) (sums : List (BitVec 12)) (quality : BitVec 16)
    (s : State) : Host.Outcome State Fault Refusal :=
  let a := array.toNat
  let x := s.array a
  let temp := s.tileTemp (a / 64)
  match x.running with
  | none => .next s
  | some r =>
    if x.suspended = true ∨ x.stage ≠ 5 ∨ x.stageSlots ≠ stageLen 5 then .next s
    else
      let later := (s.tile (a / 64)).calPrio.contains a
      let points := if later then [] else r.user
      let x1 := ({ x with corr := x.fullCorr offsets gains }).retrim temp
      let new := if later && !r.user.isEmpty then none
        else x1.newSet r points temp (sumsOf sums) s.health.sweep s.medianSlope
      let x2 := { x1 with
        running := none, stage := 0, stageSlots := 0, detached := none, stale := false, win := {},
        lastFull := s.dawn.hours, staging := x1.staging ++ new.toList }
      let skipped := (points.filter (fun p => !inTolerance temp p.toNat)).length
      let s1 := (s.setArray a x2).updTile (a / 64) (fun t =>
        { t with calNow := none, calUser := if later then t.calUser ++ r.user.map (fun p => (a, p)) else t.calUser })
      let s2 : State := (s1.updDict (fun d => { d with calSkipped := d.calSkipped + skipped })).afterUser s.userOpen
      let s3 := s2.setQuality a quality
      if x2.untrim ≠ [] ∨ (r.prio = true ∧ 768 < quality.toNat) then .next (s3.twilight 0x03) else .next s3

/-- ARRAY_PROGRAMMING_END (R51 steps 5 to 7, R104, R113): failing columns are repaired, the calibration sets corrections, column sums and
figure, the marker is cleared; the array is Resident. The sums are always written. -/
def execArrayProgrammingEnd (array : ArrayNo) (badColumns : List (BitVec 9)) (offsets gains : List Int) (sums : List (BitVec 12))
    (quality : BitVec 16) (s : State) : Host.Outcome State Fault Refusal :=
  let a := array.toNat
  let x := s.array a
  if x.st ≠ .programming then .next s
  else
    let s0 := s.updTile (a / 64) (fun t => { t with progNow := none })
    if x.freeSpares.length < badColumns.length then .next (s0.unrepairable a)
    else
      let x1 := badColumns.foldl (fun y c => y.repairCol c.toNat) x
      let put := fun (c : CalSet) => ({ c with sums := sumsOf sums, sumsProg := BitVec.ofNat 32 x1.progCount } : CalSet)
      let x2 := ({ x1 with
        st := .resident, marker := false, stale := false, lastFull := s.dawn.hours, corr := corrOf offsets gains,
        cal := { put x1.cal with writes := x1.cal.writes + 29, hours := BitVec.ofNat 48 s.dawn.hours },
        staging := x1.staging.map (fun (e : StagedSet) => { e with set := put e.set }) }).retrim (s.tileTemp (a / 64))
      let s1 := (s0.setArray a x2).setQuality a quality
      let s2 := if x2.rebuild = 1 then s1.requestCal a else s1
      let s3 := (s2.usersOf a).foldl (fun u p => u.countProgrammed p) s2
      .next (if x2.untrim ≠ [] then s3.twilight 0x03 else s3)

/-! ## The calibration rows (R92-R95) -/

/-- A trim record: OFFSET above GAIN (R94). -/
def Trim.bits (t : Trim) : BitVec 12 := BitVec.ofInt 7 t.off ++ BitVec.ofInt 5 t.gain

/-- 12-bit items packed from bit 0 on, as bytes, least significant first (R92, R94, R95). -/
def pack12 (l : List (BitVec 12)) (n : Nat) : List Byte := bytesOfNat n (l.foldr (fun b acc => b.toNat + 4096 * acc) 0)

/-- The 448-byte block of a point (R92, R94). -/
def CalSet.pointBlock (c : CalSet) (p : Nat) : List Byte := pack12 ((List.range 272).map (fun k => (c.trim p k).bits)) 448

/-- The 1,568-byte block of column sums (R92, R95). -/
def CalSet.sumBlock (c : CalSet) : List Byte := pack12 ((List.range 1024).map (fun i => BitVec.ofInt 12 (SMap.get c.sums 0 i))) 1568

/-- The header with a CRC (R93). -/
def CalSet.headerWith (c : CalSet) (a : Nat) (crc : BitVec 32) : BitVec 448 :=
  crc ++ (0 : BitVec 208) ++ c.sumsProg ++ c.writes ++ c.hours ++ c.sweeps.getD 3 0 ++ c.sweeps.getD 2 0 ++ c.sweeps.getD 1 0
    ++ c.sweeps.getD 0 0 ++ (0 : BitVec 1) ++ BitVec.ofNat 15 a ++ (1 : BitVec 16)

/-- The data of rows 1-60: four points and the column sums (R92). -/
def CalSet.body (c : CalSet) : List Byte := ((List.range 4).map c.pointBlock).flatten ++ c.sumBlock

/-- The CRC over the data of rows 0-60, the CRC field taken as zero (R93). -/
def CalSet.crc (c : CalSet) (a : Nat) : BitVec 32 := crc32 (bytesOfNat 56 (c.headerWith a 0).toNat ++ c.body)

/-- The header of the set of array `a` (R93). -/
def CalSet.header (c : CalSet) (a : Nat) : BitVec 448 := c.headerWith a (c.crc a)

/-- The 56 data bytes of calibration row `r` of array `a`: the header, the points, the sums, and zero in rows 61-63 (R92). -/
def CalSet.row (c : CalSet) (a r : Nat) : List Byte :=
  if r = 0 then bytesOfNat 56 (c.header a).toNat
  else if r ≤ 60 then ((c.body.drop (56 * (r - 1))).take 56)
  else List.replicate 56 0

/-- The seven words of a calibration row with their check bits (R92). -/
def CalSet.rowWords (c : CalSet) (a r : Nat) : List (W64 × BitVec 8) :=
  (List.range 7).map (fun w =>
    let v : W64 := BitVec.ofNat 64 (natOfBytes (((c.row a r).drop (8 * w)).take 8))
    (v, Config.secded v))

/-- Rows that a staged set writes: 8 for each of its points, 28 for the sums, and the header (R92, R93, R110). -/
def StagedSet.rows (e : StagedSet) : Nat := 8 * e.points + (if e.sums then 28 else 0) + 1

/-- The rows and the header of an array's oldest staged set are written and that staging copy is cleared (R93, R107, R110); a set that
R111 rebuilt waits for its array's return. -/
def State.writeRows (s : State) (a : Nat) : State :=
  let x := s.array a
  match x.staging with
  | [] => s
  | e :: rest =>
    let c1 := { e.set with
      writes := x.cal.writes + BitVec.ofNat 32 e.rows, hours := BitVec.ofNat 48 s.dawn.hours,
      sumsProg := if e.sums then BitVec.ofNat 32 x.progCount else e.set.sumsProg }
    let x1 := { x with
      cal := c1, staging := rest, corr := if e.zero then [] else x.corr
      rebuild := if x.rebuild = 1 ∧ e.rebuilt = true then 2 else x.rebuild }
    let s1 := s.setArray a (x1.retrim (s.tileTemp (a / 64)))
    if e.user then (s1.updDict (fun d => { d with calWritten := d.calWritten + 1 })).afterUser s.userOpen else s1

/-- CALIBRATION_WRITE_END (R110). -/
def execCalibrationWriteEnd (array : ArrayNo) (s : State) : Host.Outcome State Fault Refusal :=
  .next (s.writeRows array.toNat)

/-- Arrays whose rebuilt sets are written return at a boundary of every partition concerned (R111). -/
def State.returnRebuilt (s : State) : State :=
  ((s.arrays.filter (fun x => decide (x.2.rebuild = 2))).map (fun x => x.1)).foldl (fun t a =>
    if (t.usersOf a).all t.atBoundary then (t.updArray a (fun x => { x with rebuild := 0 })).leaveStreams a else t) s

/-- ROTATION_DUE (R106): a Resident array's automatic full calibration is queued. -/
def execRotationDue (array : ArrayNo) (s : State) : Host.Outcome State Fault Refusal :=
  if (s.array array.toNat).st = .resident ∧ s.dict.rotation ≠ 0 then .next (s.requestRotation array.toNat) else .next s

/-- CORRECTION_SAVE (R99). -/
def execCorrectionSave (s : State) : Host.Outcome State Fault Refusal := .next s.saveCorr

/-! ## Drift evaluation (R380, R381) -/

/-- Arrays of the bases attached to partition `p`. -/
def State.attachedArrays (s : State) (p : Nat) : List Nat :=
  (s.arrays.filter (fun x => match x.2.base with
    | none => false
    | some b => (SMap.get s.dict.bases (0, 0) b.toNat).1.getLsbD p)).map (fun x => x.1)

/-- A group's mean residual exceeds 1.5 LSB, or the figure 3.0 LSB. -/
def CalWindow.drifts (w : CalWindow) : Bool :=
  (List.range 8).any (fun t => decide (3 / 2 < ratAbs (w.mean t))) || (decide (1024 ≤ w.count) && decide (768 < w.figure.toNat))

/-- One array judged (R380); one that is not Resident has no window to judge (R50, R54). -/
def State.evaluate (s : State) (a : Nat) : State :=
  let x := s.array a
  let s1 : State := { s with health := { s.health with driftEvals := s.health.driftEvals + 1 } }
  if x.st ≠ .resident then s
  else if 256 ≤ x.win.slices then
    let s2 := (s1.windowEnd a).updArray a (fun y => { y with probe := none })
    if x.win.drifts || x.probe.getD false then s2.drift a else s2
  else
    match x.probe with
    | some bad =>
      let s2 := s1.setArray a { x with probe := none }
      if bad then s2.drift a else s2
    | none => s1.setArray a { x with awaitProbe := true }

/-- DRIFT_EVALUATION (R380): at a step boundary whose step number is a multiple of 256. -/
def execDriftEvaluation (part : PartNo) (s : State) : Host.Outcome State Fault Refusal :=
  let q := s.part part.toNat
  if q.step.toNat % 256 = 0 ∧ (q.st = .serving ∨ q.st = .streaming) then
    .next ((s.attachedArrays part.toNat).foldl (fun t a => t.evaluate a) s)
  else .next s

end Sys2Proof.Machine
end

