-- ==== Sys2Proof/Machine/Endpoint.lean ====
section
/-! DEFINITION. Tensor-link endpoints as every family sees them: link failure, digest arithmetic, receive slots and
transfer entries, Clearing points and the start of a clearing summary (R322, R332-R338, R383, R553, R554). -/

namespace Sys2Proof.Machine

/-! ## Link failure (R322, R383) -/

/-- UNIT of an endpoint (R204). -/
def linkUnit (l : Nat) : BitVec 8 := BitVec.ofNat 8 (0x60 + l)

/-- A fault at an endpoint. -/
def linkFault (code : BitVec 8) (tag : Tag) (l cyc : Nat) (detail : BitVec 32) : FaultInfo :=
  { code := code, tag := tag, unit := linkUnit l, cycle := cyc, detail := detail }

/-- A link fails (R322): it leaves service, every partition with a stream on the die aborts, the loopback test starts. -/
def State.linkFail (s : State) (l : Nat) : State :=
  let e := s.link l
  if e.st = .failed ∨ e.st = .unused then s
  else
    let s1 := s.setLink l { e with st := .failed, failures := bump32 e.failures, failFrame := s.fu.frame, loop := some none }
    let s2 := if l = 0 then s1.updLedger (fun m => { m with copied := false }) else s1
    (s2.event 0x07 1 l none (bump32 e.failures) e.failures).faultWide
      (linkFault 0x16 0xFE l s.fu.cycle (BitVec.ofNat 32 l))

/-! ## Digests (R336) -/

/-- X of R336. -/
def digX : Nat := 0x10000000F

/-- The values of a line's lanes: unsigned words of a copy, signed P32 values of an add. -/
def laneVals (copy : Bool) (l : Line) : List Int :=
  (wordsOfLine l).map (fun w => if copy then (w.toNat : Int) else w.toInt)

/-- D of line `k` of a transfer. -/
def lineD (copy : Bool) (k : Nat) (l : Line) : Int :=
  ((laneVals copy l).zipIdx.map (fun v => v.1 * ((digX ^ (32 * k + v.2 + 1) % m61 : Nat) : Int))).sum

/-- T of a line. -/
def lineT (copy : Bool) (l : Line) : Int := (laneVals copy l).sum

/-- D and T of lines with their indices, mod M. -/
def linesDT (copy : Bool) (ls : List (Nat × Line)) : Nat × Nat :=
  (mod61 ((ls.map (fun x => lineD copy x.1 x.2)).sum), mod61 ((ls.map (fun x => lineT copy x.2)).sum))

/-- A value mod M read into -(M - 1)/2 to (M - 1)/2 (R337). -/
def centred (i : Int) : Int := let r := (mod61 i : Int); if 2 * r > (m61 : Int) then r - (m61 : Int) else r

/-- The bound of W (R336). -/
def wMax : Nat := 2 ^ 40 - 1

/-- The recipe digest (R337): low 64 bits of SHA-384 of the recipe's 128 bytes. -/
def recipeDigest (recipe : Line) : BitVec 64 := sha384Low (bytesOfLine recipe)

/-- The fields of a digest record line (R337). -/
def digD (l : Line) : Nat := (l.extractLsb' 963 61).toNat
/-- T. -/
def digT (l : Line) : Nat := (l.extractLsb' 902 61).toNat
/-- The prediction. -/
def digThat (l : Line) : Nat := (l.extractLsb' 841 61).toNat
/-- W. -/
def digW (l : Line) : Nat := (l.extractLsb' 801 40).toNat
/-- NOPRED. -/
def digNoPred (l : Line) : Bool := l.getLsbD 800
/-- STEP. -/
def digStep (l : Line) : BitVec 48 := l.extractLsb' 752 48
/-- ATTEMPT. -/
def digAttempt (l : Line) : BitVec 8 := l.extractLsb' 744 8
/-- Recipe digest. -/
def digRecipe (l : Line) : BitVec 64 := l.extractLsb' 680 64

/-- A digest record line from its fields. -/
def digLine (d t that w : Nat) (noPred : Bool) (step : BitVec 48) (attempt : BitVec 8) (recipe : BitVec 64) : Line :=
  BitVec.ofNat 61 d ++ BitVec.ofNat 61 t ++ BitVec.ofNat 61 that ++ BitVec.ofNat 40 w ++ BitVec.ofBool noPred ++ step
    ++ attempt ++ recipe ++ (0 : BitVec 680)

/-! ## Transfer entries (R332) -/

/-- Lines of an entry. -/
def Xfer.lines (x : Xfer) : Nat := x.linesM1.toNat + 1

/-- The entry holds line or slot `n` for partition-independent address checks. -/
def Xfer.covers (x : Xfer) (n : Nat) : Bool :=
  x.valid && decide (x.base.toNat ≤ n ∧ n < x.base.toNat + x.lines)

/-- The valid receive entry that holds slot `n`. -/
def Endpoint.rxAt (e : Endpoint) (n : Nat) : Option (Nat × Xfer) := e.rxEnts.find? (fun x => x.2.covers n)

/-- The valid transmit entry that holds line `n`. -/
def Endpoint.txAt (e : Endpoint) (n : Nat) : Option (Nat × Xfer) := e.txEnts.find? (fun x => x.2.covers n)

/-- A receive slot. -/
def Endpoint.slot (e : Endpoint) (n : Nat) : SlotLine := SMap.get e.rxSlots {} n

/-- A receive entry is complete (R334). -/
def Endpoint.full (e : Endpoint) (x : Xfer) : Bool :=
  decide (x.digs.length = x.ndig.toNat) &&
    (List.range x.lines).all (fun k => decide ((e.slot (x.base.toNat + k)).count = x.contrib.toNat))

/-- The step a partition's arriving contributions belong to: the newest started one. -/
def Part.curRun (p : Part) : Option StepRun := p.runs.getLast?

/-- One record of a link checked against the lines that arrived over that link (R337), once all its lines are here: as many as the entry
has, or fewer where the entry is complete and no more can come. -/
def Xfer.linkOk (x : Xfer) (complete : Bool) (d : LinkNo × Line) : Bool :=
  let ls := (x.arrived.filter (fun a => decide (a.1 = d.1))).map (fun a => a.2)
  if ls.length < x.lines ∧ complete = false then true
  else
    let (dd, tt) := linesDT (x.op = 0) ls
    decide (dd = digD d.2 ∧ tt = digT d.2)

/-- The prediction check of a record (R337). -/
def digPredOk (l : Line) : Bool :=
  digNoPred l || decide ((centred ((digT l : Int) - (digThat l : Int))).natAbs ≤ digW l)

/-- STEP, ATTEMPT and recipe digest of a record agree with the step of the partition that it feeds (R86, R208, R337). -/
def Part.recordOk (p : Part) (l : Line) : Bool :=
  match p.curRun with
  | none => false
  | some r => decide (digStep l = r.step ∧ digAttempt l = r.attempt ∧ digRecipe l = recipeDigest r.recipe)

/-- The record differs in its recipe digest alone (R86). -/
def Part.recipeDiffers (p : Part) (l : Line) : Bool :=
  match p.curRun with
  | none => false
  | some r => decide (digStep l = r.step ∧ digAttempt l = r.attempt ∧ digRecipe l ≠ recipeDigest r.recipe)

/-- Value of a local contribution's prediction: without one, T-hat is T and W 0 (R336). -/
def localPred (copy : Bool) (x : Nat × Line × Option (Int × Nat)) : Int × Nat :=
  match x.2.2 with
  | some p => p
  | none => (lineT copy x.2.1, 0)

/-- The prediction a completed entry holds: the sums over its records and local contributions (R334, R336). -/
def Xfer.prediction (x : Xfer) : Int × Nat :=
  let copy := decide (x.op = 0)
  let d := x.digs.map (fun p => if digNoPred p.2 then ((digT p.2 : Int), 0) else ((digThat p.2 : Int), digW p.2))
  let l := x.locals.map (localPred copy)
  let a := d ++ l
  ((a.map (fun p => p.1)).sum, min ((a.map (fun p => p.2)).sum) wMax)

/-- The slots' own D and T agree with the sums over the records and the local contributions (R337). -/
def Endpoint.slotsOk (e : Endpoint) (x : Xfer) : Bool :=
  let copy := decide (x.op = 0)
  let own := linesDT copy ((List.range x.lines).map (fun k => (k, (e.slot (x.base.toNat + k)).data)))
  let loc := linesDT copy (x.locals.map (fun c => (c.1, c.2.1)))
  let d := mod61 ((x.digs.map (fun p => (digD p.2 : Int))).sum + (loc.1 : Int))
  let t := mod61 ((x.digs.map (fun p => (digT p.2 : Int))).sum + (loc.2 : Int))
  decide (own.1 = d ∧ own.2 = t)

/-- The local contributions' prediction holds (R337, R383): the device checks its own share. -/
def Xfer.localOk (x : Xfer) : Bool :=
  let copy := decide (x.op = 0)
  let t := (x.locals.map (fun c => lineT copy c.2.1)).sum
  let p := x.locals.map (localPred copy)
  x.locals.all (fun c => c.2.2.isNone) ||
    decide ((centred (t - (p.map (fun q => q.1)).sum)).natAbs ≤ min ((p.map (fun q => q.2)).sum) wMax)

/-- A lane holds the no-value code, which breaks linearity (R337). -/
def Endpoint.noValue (e : Endpoint) (x : Xfer) : Bool :=
  decide (x.op ≠ 0) && (List.range x.lines).any (fun k =>
    (wordsOfLine (e.slot (x.base.toNat + k)).data).any (fun w => decide (w = p32None)))

/-! ## Clearing failures (R337, R383) -/

/-- A Clearing check fails (R337): fault 0x15 with the Clearing point, attributed to the link of a received record or to
the device itself (R383). -/
def State.clearingFail (s : State) (tag : Tag) (l : Nat) (point : BitVec 10) (src : Option Nat) : State :=
  let h := s.health
  let recent := fun (ls : List Nat) => s.fu.frame :: ls.filter (fun f => decide (s.fu.frame < f + 1048576))
  let s1 := ({ s with health := { h with clearing15 := bump32 h.clearing15 } }).updPart tag.toNat (fun p =>
    { p with runs := p.runs.map (fun r => if some r = p.curRun then { r with clearFail := true } else r) })
  let s2 := s1.fault (linkFault 0x15 tag l s.fu.cycle (point.setWidth 32))
  match src with
  | some k =>
    let e := s2.link k
    let at_ := recent e.clearAt
    let s3 := s2.setLink k { e with clearAt := at_, clearFails := bump32 e.clearFails }
    if 4 ≤ at_.length then s3.linkFail k else s3
  | none =>
    let at_ := recent s2.health.ownAt
    let s3 : State := { s2 with health := { s2.health with ownAt := at_, ownClear := bump32 s2.health.ownClear } }
    if 4 ≤ at_.length then s3.twilight 0x08 else s3

/-- The recipe of a partition is found to differ between devices: it runs all-wide (R86). -/
def State.recipeDisagreement (s : State) (p : Nat) : State :=
  let q := s.part p
  if q.abort.isSome then s.setPart p { q with wideAt := some (q.wideAt.getD s.fu.frame) }
  else
    (s.setPart p { q with wideAt := some s.fu.frame, disagree := bump32 q.disagree }).partEvent 1 p (bump32 q.disagree) q.disagree

/-! ## The clearing summary (R290, R338) -/

/-- This device runs the covering variant of the partition for its partner (R272). -/
def State.coversPart (s : State) (p : Nat) : Bool := (s.part p).cover && decide ((s.part p).coverAddr = some (s.dict.addr ^^^ 1))

/-- Context streams that an account's steps append to on this device: its own, and the mirrors of a device that it covers (R272, R290). -/
def State.ownCtx (s : State) (p a : Nat) : List Ctx :=
  (s.mem.ctx.filter (fun x => decide (x.2.tag.toNat = p ∧ x.2.account.toNat = a) && (decide (x.2.mirror = 0) || s.coversPart p))).map
    (fun x => x.2)

/-- Account slots of a partition. -/
def State.acctsOf (s : State) (p : Nat) : List Nat :=
  (s.accts.filter (fun x => decide (x.2.part.toNat = p ∧ x.2.st ≠ .free))).map (fun x => x.1)

/-- A learning request waits on this device for an account of the partition (R265). -/
def State.learnWaits (s : State) (p : Nat) : Bool := (s.acctsOf p).any (fun a => (s.acct a).learnPend && !(s.acct a).anew)

/-- Every array is programmed with the new image, and where this device covers its partner, the partner's copy is staged (R268, R271). -/
def State.switchReady (s : State) (p : Nat) : Bool :=
  decide ((s.part p).repl = 3) && (!s.coversPart p || (match (s.part p).staged with | some i => i.partner.isSome | none => false))

/-- Every Clearing point of the step has passed: each valid receive entry of the partition that has one (R337, R338). -/
def State.allPassed (s : State) (p : Nat) (r : StepRun) : Bool :=
  s.links.all (fun l => l.2.rxEnts.all (fun x =>
    !x.2.valid || decide (x.2.tag.toNat ≠ p) || decide (x.2.clear = 0) || r.passed.contains (l.1, x.1)))

/-- This device's own share of a step's summary (R338). A covering device stands for its partner too. -/
def State.ownSummary (s : State) (p : Nat) (r : StepRun) : Summary :=
  let q := s.part p
  { part := BitVec.ofNat 8 p, step := r.step, attempt := r.attempt, clearOk := !r.clearFail && s.allPassed p r, loaded := q.loaded,
    ready := s.switchReady p, learn := s.learnWaits p,
    devices := if s.coversPart p then 2 else 1,
    overflow := r.overflow, streams := s.streamRequest p,
    accounts := SMap.ofList (0, false, true) ((List.range 192).map (fun a =>
      let cs := s.ownCtx p a
      (BitVec.ofNat 61 (mod61 ((cs.map (fun c => (c.pendDig.toNat : Int))).sum)),
        s.ledger.subs.any (fun b => decide (b.account.any (fun x => x.val = a) ∧ b.part.toNat = p ∧ (b.st = .accepted ∨ b.st = .running))),
        cs.all (fun c => decide (c.lag = 0))))) }

/-- An account whose appended entries are not all mirror-durable (R290). -/
def Summary.mirrorBad (m : Summary) : Bool := m.accounts.any (fun x => !x.2.2.2)

/-! ## The clearing summary's rounds (R338, R339) and the recipe rule (R85) -/

/-- Two partial summaries combined (R338). -/
def Summary.join (a b : Summary) : Summary :=
  { part := a.part, step := a.step, attempt := a.attempt
    clearOk := a.clearOk && b.clearOk && decide (a.part = b.part ∧ a.step = b.step ∧ a.attempt = b.attempt)
    loaded := a.loaded && b.loaded, ready := a.ready && b.ready, learn := a.learn || b.learn
    devices := a.devices + b.devices, overflow := a.overflow ||| b.overflow, streams := a.streams ||| b.streams
    accounts := SMap.ofList (0, false, true) ((List.range 192).map (fun k =>
      let x := SMap.get a.accounts (0, false, true) k
      let y := SMap.get b.accounts (0, false, true) k
      (BitVec.ofNat 61 ((x.1.toNat + y.1.toNat) % m61), x.2.1 || y.2.1, x.2.2 && y.2.2))) }

/-- The earliest started step that an abort at `frame` takes with it (R199). -/
def Part.firstAborted (q : Part) (frame : Nat) : Option StepRun :=
  q.runs.find? (fun r => decide (r.start ≤ frame ∧ frame ≤ r.start + q.summaryOff))

/-- The started steps that an abort at `frame` takes with it (R198, R199). -/
def Part.abortedRuns (q : Part) (frame : Nat) : List StepRun :=
  match q.firstAborted frame with
  | some f => q.runs.filter (fun r => decide (f.step ≤ r.step))
  | none => []

/-- One layer under the rule of R85: recipe bit, mark and clean count. -/
def Part.ruleLayer (q : Part) (u : Line) (r : Line × Line × SMap Nat) (l : Nat) : Line × Line × SMap Nat :=
  let wide := r.1.getLsbD l
  let mark := r.2.1.getLsbD l
  let bit : Line := BitVec.ofNat 1024 (2 ^ l)
  if u.getLsbD l then
    if wide && !mark then r else (r.1 ||| bit, r.2.1 ||| bit, SMap.set r.2.2 0 l 0)
  else if mark then
    let n := SMap.get r.2.2 0 l + 1
    if q.widenHold ≠ 0 ∧ q.widenHold.toNat ≤ n then (r.1 &&& ~~~bit, r.2.1 &&& ~~~bit, SMap.set r.2.2 0 l 0)
    else (r.1, r.2.1, SMap.set r.2.2 0 l n)
  else r

/-- The next recipe by the rule, from a step's union bitmap (R85, R90). -/
def Part.rule (q : Part) (u : Line) : Part :=
  if q.autoWiden = false then q
  else
    let (r, m, c) := (List.range q.layers.toNat).foldl (q.ruleLayer u) (q.nextRecipe.getD q.recipe, q.marks, q.clean)
    { q with nextRecipe := some r, marks := m, clean := c }

/-- An aborted step (R199), whose summary is discarded wherever it stands (R338). -/
def Part.abortedStep (q : Part) (step : BitVec 48) : Bool :=
  match q.abort with
  | none => false
  | some a => match q.firstAborted a.frame with | some r => decide (r.step ≤ step) | none => false

/-- Every device holds the step's summary (R83, R85, R171, R247, R265, R269, R338). -/
def State.summaryDone (s : State) (p : Nat) (m : Summary) : State :=
  let q := s.part p
  if q.abortedStep m.step then s
  else
    let ok := m.clearOk && decide (m.devices.toNat = 2 ^ s.dict.n)
    let m1 : Summary := { m with clearOk := ok }
    let q1 := q.rule m.overflow
    let q2 : Part := { q1 with
      allLoaded := if ok then m.loaded else q1.allLoaded
      allReady := if ok then m.ready else q1.allReady
      anyLearn := if ok then m.learn else q1.anyLearn
      nextStreams := some m.streams
      ovfSteps := if m.overflow ≠ 0 then q1.ovfSteps + 1 else q1.ovfSteps }
    let s1 := s.setPart p q2
    if ok then { s1 with ledger := { s1.ledger with sums := s1.ledger.sums ++ [m1] } } else s1

/-- A started step advances through its rounds: a summary sent in each, and the whole one acted on after the last. -/
def State.advanceRounds (s : State) (p : Nat) (r : StepRun) : State :=
  let put := fun (t : State) (x : StepRun) =>
    t.updPart p (fun q => { q with runs := q.runs.map (fun y => if y.step = r.step ∧ y.attempt = r.attempt then x else y) })
  match r.rounds with
  | none => put s r
  | some d =>
    if s.dict.n ≤ d then s
    else
      let step := fun (x : Nat × Summary × State) (_ : Nat) =>
        match r.early.find? (fun e => decide (e.1 = x.1)) with
        | none => x
        | some e =>
          if s.dict.n ≤ x.1 then x
          else
            let m := x.2.1.join e.2
            (x.1 + 1, m, if x.1 + 1 < s.dict.n then x.2.2.sendOn (x.1 + 1) (.summary (x.1 + 1) m) else x.2.2)
      let z := (List.range 11).foldl step (d, r.summary, s)
      let s1 := put z.2.2 { r with rounds := some z.1, summary := z.2.1 }
      if z.1 = s.dict.n then s1.summaryDone p z.2.1 else s1

/-- A boundary exchange that stands at round `k` with the partial line `x` goes on as far as the lines that have arrived let it
(R339); after the last round it shows whether every device is loaded (R247). -/
def State.runExchange (s : State) (p k : Nat) (x : Summary) (early : List (Nat × Summary)) : State :=
  let n := s.dict.n
  let step := fun (z : Nat × Summary × State) (_ : Nat) =>
    match early.find? (fun e => decide (e.1 = z.1)) with
    | none => z
    | some e =>
      if n ≤ z.1 then z
      else
        let m := z.2.1.join e.2
        (z.1 + 1, m, if z.1 + 1 < n then z.2.2.sendOn (z.1 + 1) (.exchange (z.1 + 1) m) else z.2.2)
  let z := (List.range 11).foldl step (k, x, s)
  if z.1 = n then
    z.2.2.updPart p (fun q => { q with
      exchange := none, exchEarly := []
      allLoaded := z.2.1.clearOk && z.2.1.loaded && decide (z.2.1.devices.toNat = 2 ^ n) })
  else z.2.2.updPart p (fun q => { q with exchange := some (z.1, z.2.1), exchEarly := early })

/-- A partition's newest run changed. -/
def Part.updRun (p : Part) (f : StepRun → StepRun) : Part :=
  { p with runs := p.runs.zipIdx.map (fun x => if x.2 + 1 = p.runs.length then f x.1 else x.1) }

/-- The first round of an exchange on this device: 1 where its dimension-0 partner is covered by it, else 0. -/
def State.firstRound (s : State) (p : Nat) : Nat :=
  let q := s.part p
  if q.cover ∧ q.coverAddr = some (s.dict.addr ^^^ 1) then 1 else 0

/-- After its last Clearing point the device starts the step's summary (R338); an entry whose mirror flag is 0 fails that
point (R290). -/
def State.startSummary (s : State) (p : Nat) : State :=
  let q := s.part p
  match q.curRun with
  | none => s
  | some r =>
    if r.rounds.isSome then s
    else
      let m := s.ownSummary p r
      if m.mirrorBad then
        ({ s with health := { s.health with clearing15 := bump32 s.health.clearing15 } }).fault
          { code := 0x15, tag := BitVec.ofNat 8 p, unit := 0x71, cycle := s.fu.cycle, detail := q.lastClear.setWidth 32 }
      else
        let d := s.firstRound p
        (s.sendOn d (.summary d m)).advanceRounds p { r with rounds := some d, summary := m }

/-! ## Completion of a receive entry (R334, R337) -/

/-- Every valid receive entry of the partition with Clearing point `c` has completed with its checks true in the run. -/
def State.pointPassed (s : State) (p : Nat) (c : BitVec 10) (r : StepRun) : Bool :=
  s.links.all (fun l => l.2.rxEnts.all (fun x =>
    !x.2.valid || decide (x.2.tag.toNat ≠ p) || decide (x.2.clear ≠ c) || r.passed.contains (l.1, x.1)))

/-- A receive entry whose present use is over is cleared, and its prediction passes to the transmit entry of FWD. -/
def State.freeEntry (s : State) (l n : Nat) : State :=
  let e := s.link l
  let x := SMap.get e.rxEnts {} n
  let s1 := s.setLink l { e with
    rxSlots := e.rxSlots.filter (fun v => !x.covers v.1),
    rxEnts := SMap.set e.rxEnts {} n
      { x with digs := [], arrived := [], locals := [], reads := 0, recvs := [], failed := false, done := false } }
  let ep := x.fwd.toNat / 256
  if ep ≤ 10 then
    s1.updLink ep (fun e => { e with txEnts := SMap.upd e.txEnts {} (x.fwd.toNat % 256) (fun t =>
      { t with inherit := some x.prediction }) })
  else s1

/-- The RECVs of a complete entry are served as queue traffic; after the last the entry is freed (R186, R334). -/
def State.serveRecvs (s : State) (l n : Nat) : State :=
  let e := s.link l
  let x := SMap.get e.rxEnts {} n
  let send := fun (t : State) (r : TileNo × Nat × Nat × Nat × Nat × Nat) => (List.range r.2.2.2.1).foldl (fun t k =>
    t.sendMsg (endpointRouter l) r.1.toNat 0 x.tag (s.now (s.realOf s.fu.cycle))
      (.loadData r.2.1 k (e.slot (x.base.toNat + r.2.2.1 + k)).data r.2.2.2.2.2)) t
  let s1 := (x.recvs.foldl send s).setLink l { e with
    rxEnts := SMap.set e.rxEnts {} n { x with reads := x.reads + x.recvs.length, recvs := [] } }
  if x.readsM1.toNat + 1 ≤ x.reads + x.recvs.length then s1.freeEntry l n else s1

/-- A receive entry judged after anything reached it: the checks that can be made, then completion (R334, R337). -/
def State.entryEvent (s : State) (l n : Nat) : State :=
  let e := s.link l
  let x := SMap.get e.rxEnts {} n
  let fail := fun (src : Option Nat) =>
    (s.setLink l { e with rxEnts := SMap.set e.rxEnts {} n { x with failed := true } }).clearingFail x.tag l x.clear src
  match (if x.clear ≠ 0 ∧ x.failed = false then x.digs.find? (fun d => !x.linkOk (e.full x) d) else none) with
  | some d => fail (some d.1.val)
  | none =>
    if e.full x = false then s
    else if x.done then s.serveRecvs l n
    else if x.clear ≠ 0 ∧ x.failed = false ∧ (e.slotsOk x && x.localOk && !e.noValue x) = false then fail none
    else
      let p := x.tag.toNat
      let s1 := s.setLink l { e with rxEnts := SMap.set e.rxEnts {} n { x with done := true } }
      let s2 := if x.clear ≠ 0 ∧ x.failed = false then
          s1.updPart p (fun q => q.updRun (fun r => { r with passed := r.passed ++ [(l, n)] })) else s1
      let q := s2.part p
      let s3 := match q.curRun with
        | none => s2
        | some r =>
          if x.clear ≠ 0 ∧ x.clear = q.lastClear ∧ s2.pointPassed p x.clear r then s2.startSummary p else s2
      s3.serveRecvs l n

/-- A line arrives in a receive slot (R334): over a link, or locally from the mesh. A copy overwrites, an add adds lane by
lane. `res` of the sum is checked by the endpoint (R375). -/
def SlotLine.land (v : SlotLine) (copy : Bool) (count : Nat) (l : Line) : SlotLine :=
  if copy then { v with data := l, count := 1 }
  else { v with data := lineOfWords (List.zipWith p32Add (wordsOfLine v.data) (wordsOfLine l)), count := v.count + count }

/-- A line of `count` contributions, 1 for a copy, may land in the slot of entry `x` at index `k` (R334): the slot is not complete, and its
COUNT stays within CONTRIB. -/
def Endpoint.slotFree (e : Endpoint) (x : Xfer) (k count : Nat) : Bool :=
  let v := e.slot (x.base.toNat + k)
  decide (v.count < x.contrib.toNat ∧ v.count + count ≤ x.contrib.toNat)

/-- The detail of an endpoint slot collision: the owner's TAG and the entry (R205). -/
def slotDetail (x : Xfer) (n : Nat) : BitVec 32 := (x.tag.setWidth 32 <<< 8) ||| BitVec.ofNat 32 (n % 256)

/-- A local contribution reaches a receive slot (R332, R334, R375): fault 0x06 where no valid entry of the flit's partition
holds the slot, fault 0x02 where the slot does not take it, fault 0x12 where the endpoint's adder fails its residue check. -/
def State.landLocal (s : State) (l : Nat) (f : Flit) (cyc : Nat) (upset : Bool) : State :=
  let e := s.link l
  let n := f.line.toNat - 2048
  match e.rxAt n with
  | none => s.fault (linkFault 0x06 f.tag l cyc (tagDetail f.tag true))
  | some (k, x) =>
    let idx := n - x.base.toNat
    if x.tag ≠ f.tag then s.fault (linkFault 0x06 f.tag l cyc (tagDetail f.tag true))
    else if e.slotFree x idx (if f.add then f.count else 1) = false then s.fault (linkFault 0x02 f.tag l cyc (slotDetail x k))
    else if f.add && upset then s.fault (linkFault 0x12 f.tag l cyc 0)
    else
      let copy := !f.add
      let v := (e.slot n).land copy (if f.add then f.count else 1) f.data
      let slots := SMap.set e.rxSlots {} n v
      (s.setLink l { e with rxSlots := slots, rxEnts := SMap.set e.rxEnts {} k { x with locals := x.locals ++ [(idx, f.data,
          f.pred)] } }).entryEvent l k

/-- A flit reaches a transmit line (R332, R553). -/
def State.landTransmit (s : State) (l : Nat) (f : Flit) (cyc : Nat) : State :=
  let e := s.link l
  let n := f.line.toNat
  match e.txAt n with
  | none => s.fault (linkFault 0x06 f.tag l cyc (tagDetail f.tag true))
  | some (k, x) =>
    if x.tag ≠ f.tag then s.fault (linkFault 0x06 f.tag l cyc (tagDetail f.tag true))
    else if (SMap.get e.txLines {} n).full then s.fault (linkFault 0x02 f.tag l cyc (slotDetail x k))
    else
      let v : SlotLine := { data := f.data, count := if f.add then f.count else 0, full := true, pred := f.pred }
      s.setLink l { e with txLines := SMap.set e.txLines {} n v }

end Sys2Proof.Machine
end

