-- ==== Sys2Proof/Machine/Vec.lean ====
section
/-! DEFINITION. The VEC class: vector-core arithmetic, quantisation, conversion, reduction and line access (R61-R80, R89,
R133, R134, R182, R183, R375). -/

namespace Sys2Proof.Machine

/-! ## Registers and issue -/

/-- Vector register `r`, lane 0 first (R133). -/
def Tile.vreg (t : Tile) (r : Nat) : List W32 := (List.range 64).map (fun l => SMap.get t.vregs 0 (64 * (r % 64) + l))

/-- Lanes of vector register `r` written, from lane `base`. -/
def Tile.setLanes (t : Tile) (r base : Nat) (ls : List W32) : Tile :=
  { t with vregs := ls.zipIdx.foldl (fun m x => SMap.set m 0 (64 * (r % 64) + base + x.2) x.1) t.vregs }

/-- Vector register `r` of the tile that issues. -/
def State.vreg (s : State) (i : Issue) (r : BitVec 6) : List W32 := (s.tile i.tile.toNat).vreg r.toNat

/-- A vector register of the tile that issues written. -/
def State.setVreg (s : State) (i : Issue) (r : BitVec 6) (ls : List W32) : State :=
  s.updTile i.tile.toNat (fun t => t.setLanes r.toNat 0 (ls.take 64))

/-- Long accumulator `n`, lane 0 first. -/
def Tile.lacc (t : Tile) (n : Nat) : List W64 := (List.range 64).map (fun l => SMap.get t.laccs 0 (64 * n + l))



/-- A residue or duplication failure of the vector core (R375, R377); DETAIL is the function code. -/
def State.vecResidue (s : State) (i : Issue) (func : BitVec 6) : State := s.ownFault i 0x12 0x48 (func.setWidth 32)

/-- The word of a VEC instruction (R182). -/
def vecWord (i : Issue) (func : BitVec 6) (v : VecOps) : W64 :=
  mkWord 0x10 i (func ++ v.vd ++ v.va ++ v.vb ++ v.addr ++ v.lacc ++ v.md)

/-- What the vector core's own checks find of an operation at a port `unit` and, where it has one, on a line: a residue or duplication
failure, or a byte or table parity failure, whose DETAIL is the line (R373, R375, R377). Otherwise it acts. -/
def State.vecChecked (s : State) (i : Issue) (func : BitVec 6) (v : VecOps) (unit : BitVec 8) (line : Nat) (act : State → State) : State :=
  if v.upset then s.vecResidue i func
  else if i.parity then s.ownFault i 0x13 unit (BitVec.ofNat 32 line)
  else act s

/-- A function that takes no address: its ADDR field is reserved (R182). -/
def State.vecOp (s : State) (i : Issue) (func : BitVec 6) (v : VecOps) (act : State → State) : State :=
  s.issue i 7 (vecWord i func v) (decide (v.addr = 0)) (fun s => s.vecChecked i func v 0x48 0 act)

/-- The line of a line form. -/
def vlineNo (v : VecOps) : Nat := (v.addr.extractLsb' 4 12).toNat

/-- A line form over `n` lines: its line is checked at issue, their tags and wide cycles when it accesses, and the first `reads` of
them by their check bits (R119, R126, R132, R182). `dest` says that it writes the line. -/
def State.vecLine (s : State) (i : Issue) (func : BitVec 6) (v : VecOps) (n reads : Nat) (dest : Bool) (act : State → State) :
    State :=
  s.issue i 7 (vecWord i func v) (decide ((vlineNo v) ≤ 3071 ∧ v.addr.extractLsb' 0 4 = 0)) (fun s =>
    if (s.tile i.tile.toNat).owns (vlineNo v) n (s.strm i).tag = false then s.tagFault i 0x49 dest
    else s.useWide i (vlineNo v) n (fun s => s.readChecked i 0x49 (vlineNo v) reads v.errs (fun s =>
      s.vecChecked i func v 0x49 (vlineNo v) act)))

/-- The line of a line form as the instruction reads it: earlier accesses of the tile have taken effect (R119). -/
def State.readOwn (s : State) (i : Issue) (line : Nat) : State × Line :=
  let s1 := s.settleLines i.tile.toNat line 1
  (s1, s1.padLine i.tile.toNat line)

/-- A lane-wise function of two sources. -/
def State.vec2 (s : State) (i : Issue) (func : BitVec 6) (v : VecOps) (f : W32 → W32 → W32) : State :=
  s.vecOp i func v (fun s => s.setVreg i v.vd (List.zipWith f (s.vreg i v.va) (s.vreg i v.vb)))

/-- A lane-wise function of two sources and the old destination. -/
def State.vec3 (s : State) (i : Issue) (func : BitVec 6) (v : VecOps) (f : W32 → W32 → W32 → W32) : State :=
  s.vecOp i func v (fun s => s.setVreg i v.vd
    (List.zipWith (fun p c => f p.1 p.2 c) (List.zip (s.vreg i v.va) (s.vreg i v.vb)) (s.vreg i v.vd)))

/-- A lane-wise function of one source. -/
def State.vec1 (s : State) (i : Issue) (func : BitVec 6) (v : VecOps) (f : W32 → W32) : State :=
  s.vecOp i func v (fun s => s.setVreg i v.vd ((s.vreg i v.va).map f))

/-! ## FP32 and BF16 (R62) -/

/-- FADD. -/
def execFadd (i : Issue) (v : VecOps) (s : State) : Host.Outcome State Fault Refusal := .next (s.vec2 i 0x00 v f32Add)
/-- FSUB. -/
def execFsub (i : Issue) (v : VecOps) (s : State) : Host.Outcome State Fault Refusal := .next (s.vec2 i 0x01 v f32Sub)
/-- FMUL. -/
def execFmul (i : Issue) (v : VecOps) (s : State) : Host.Outcome State Fault Refusal := .next (s.vec2 i 0x02 v f32Mul)
/-- FFMA: VA * VB + VD, rounded once. -/
def execFfma (i : Issue) (v : VecOps) (s : State) : Host.Outcome State Fault Refusal := .next (s.vec3 i 0x03 v f32Fma)
/-- FMIN. -/
def execFmin (i : Issue) (v : VecOps) (s : State) : Host.Outcome State Fault Refusal :=
  .next (s.vec2 i 0x04 v (f32MinMax false))
/-- FMAX. -/
def execFmax (i : Issue) (v : VecOps) (s : State) : Host.Outcome State Fault Refusal :=
  .next (s.vec2 i 0x05 v (f32MinMax true))

/-- One lane of FCMP by MOD: lt, le, eq (R182). -/
def cmpLane (md : BitVec 2) (a b : W32) : W32 :=
  if md = 0 then Config.cmpCode (f32Lt a b)
  else if md = 1 then Config.cmpCode (f32Le a b)
  else if md = 2 then Config.cmpCode (f32Eq a b)
  else Config.cmpOther a b

/-- FCMP. -/
def execFcmp (i : Issue) (v : VecOps) (s : State) : Host.Outcome State Fault Refusal :=
  .next (s.vec2 i 0x06 v (cmpLane v.md))
/-- FSEL: each lane takes VA or VB by the old lane of VD. -/
def execFsel (i : Issue) (v : VecOps) (s : State) : Host.Outcome State Fault Refusal :=
  .next (s.vec3 i 0x07 v (fun a b c => if Config.selFirst c then a else b))
/-- BADD: two BF16 sums in each lane. -/
def execBadd (i : Issue) (v : VecOps) (s : State) : Host.Outcome State Fault Refusal :=
  .next (s.vec2 i 0x08 v (bf16Lane fvAdd))
/-- BMUL. -/
def execBmul (i : Issue) (v : VecOps) (s : State) : Host.Outcome State Fault Refusal :=
  .next (s.vec2 i 0x09 v (bf16Lane fvMul))
/-- BFMA: VA * VB + VD. -/
def execBfma (i : Issue) (v : VecOps) (s : State) : Host.Outcome State Fault Refusal := .next (s.vec3 i 0x0A v bf16Fma)

/-- One lane of CVT by MOD (R182). -/
def cvtLane (md : BitVec 2) (a : W32) : W32 :=
  if md = 0 then (fvToBf16 (f32Val a)).setWidth 32
  else if md = 1 then fvToF32 (bf16Val (a.extractLsb' 0 16))
  else if md = 2 then f32OfInt (a.extractLsb' 0 8).toInt
  else
    match fvTrunc (f32Val a) with
    | some n => if -2147483648 ≤ n ∧ n ≤ 2147483647 then BitVec.ofInt 32 n else Config.cvtOpen a
    | none => Config.cvtOpen a

/-- CVT. -/
def execCvt (i : Issue) (v : VecOps) (s : State) : Host.Outcome State Fault Refusal := .next (s.vec1 i 0x0B v (cvtLane v.md))

/-! ## Integers and long accumulators -/

/-- The four UX8 products of a lane (R133). -/
def dot8 (a b : W32) : Int :=
  ((List.range 4).map (fun k => (a.extractLsb' (8 * k) 8).toInt * (b.extractLsb' (8 * k) 8).toInt)).sum

/-- IMAC8: the four products of each lane added into VD. -/
def execImac8 (i : Issue) (v : VecOps) (s : State) : Host.Outcome State Fault Refusal :=
  .next (s.vec3 i 0x10 v (fun a b c => c + BitVec.ofInt 32 (dot8 a b)))

/-- IADD32. -/
def execIadd32 (i : Issue) (v : VecOps) (s : State) : Host.Outcome State Fault Refusal :=
  .next (s.vec2 i 0x13 v (fun a b => a + b))

/-- A P32 value added into an L64 value (R77, R78). -/
def paccLane (old : W64) (p : W32) : W64 := if p = p32None then Config.paccNone old else old + p.signExtend 64

/-- PACC: the line's 32 P32 values into lanes 0-31 of the accumulator, or 32-63 with MOD bit 0. -/
def execPacc (i : Issue) (v : VecOps) (s : State) : Host.Outcome State Fault Refusal :=
  .next (s.vecLine i 0x11 v 1 1 false (fun s =>
    let (s, l) := s.readOwn i (vlineNo v)
    let base := 64 * v.lacc.toNat + (if v.md.getLsbD 0 then 32 else 0)
    s.updTile i.tile.toNat (fun t => { t with
      laccs := (wordsOfLine l).zipIdx.foldl (fun m x => SMap.upd m 0 (base + x.2) (fun o => paccLane o x.1)) t.laccs })))

/-- LCVT of one lane: two roundings (R78). -/
def lcvtLane (floor : BitVec 8) (scale : W32) (p : W64) : W32 :=
  f32Mul (f32Round (decide (p.toInt < 0)) p.toInt.natAbs ((floor.toNat : Int) - 125)) scale

/-- LCVT: the long accumulator to FP32 with the scales in VB (R78). -/
def execLcvt (i : Issue) (v : VecOps) (s : State) : Host.Outcome State Fault Refusal :=
  .next (s.vecOp i 0x12 v (fun s =>
    s.setVreg i v.vd (List.zipWith (lcvtLane (s.strm i).qcfg.floor) (s.vreg i v.vb)
      ((s.tile i.tile.toNat).lacc v.lacc.toNat))))

/-! ## Functions (R134) -/

/-- FEXP. -/
def execFexp (i : Issue) (v : VecOps) (s : State) : Host.Outcome State Fault Refusal := .next (s.vec1 i 0x18 v (f32Fn .exp))
/-- FLOG. -/
def execFlog (i : Issue) (v : VecOps) (s : State) : Host.Outcome State Fault Refusal := .next (s.vec1 i 0x19 v (f32Fn .log))
/-- FRCP. -/
def execFrcp (i : Issue) (v : VecOps) (s : State) : Host.Outcome State Fault Refusal := .next (s.vec1 i 0x1A v (f32Fn .rcp))
/-- FRSQ. -/
def execFrsq (i : Issue) (v : VecOps) (s : State) : Host.Outcome State Fault Refusal := .next (s.vec1 i 0x1B v (f32Fn .rsq))
/-- FSIG. -/
def execFsig (i : Issue) (v : VecOps) (s : State) : Host.Outcome State Fault Refusal := .next (s.vec1 i 0x1C v (f32Fn .sig))
/-- FERF. -/
def execFerf (i : Issue) (v : VecOps) (s : State) : Host.Outcome State Fault Refusal := .next (s.vec1 i 0x1D v (f32Fn .erf))

/-! ## Quantisation (R64-R69, R72, R73, R79) -/

/-- The magnitude of a value lies within q * 2^x. -/
def fvWithin (v : FVal) (q : Nat) (x : Int) : Bool :=
  match v with
  | .nan => true
  | .inf _ => false
  | .fin _ m e =>
    let (a, b, _) := align2 false m e false q x
    decide (a ≤ b)

/-- qmax of a format (R72). -/
def qMax (ux8 : Bool) : Nat := if ux8 then 127 else 7

/-- The exponent of a group (R64): the smallest in the window that fits every input not at a lane position, or the cap. -/
def groupExp (ux8 : Bool) (floor cap : Nat) (inputs : List FVal) : Nat :=
  match (List.range (cap - floor + 1)).find? (fun k =>
      inputs.all (fun v => fvWithin v (qMax ux8) (((floor + k : Nat) : Int) - 127))) with
  | some k => floor + k
  | none => cap

/-- floor(m * 2^x). -/
def shiftFloor (m : Nat) (x : Int) : Nat := if 0 ≤ x then m <<< x.toNat else m >>> (-x).toNat

/-- A finite value over 2^(exp-127), rounded to nearest, ties to even. -/
def roundNear (neg : Bool) (m : Nat) (e : Int) (exp : Nat) : Int :=
  let x := e - ((exp : Int) - 127)
  let a := if 0 ≤ x then m <<< x.toNat else shrRne m (-x).toNat
  if neg then -(a : Int) else (a : Int)

/-- A finite value over 2^(exp-127), rounded stochastically with a stream word (R79). -/
def roundStoch (neg : Bool) (m : Nat) (e : Int) (exp : Nat) (word : W32) : Int :=
  let x := e - ((exp : Int) - 127)
  let fl := shiftFloor m x
  let exact := decide (0 ≤ x) || decide (m % 2 ^ (-x).toNat = 0)
  let f : Int := if neg then (if exact then -(fl : Int) else -(fl : Int) - 1) else (fl : Int)
  let ex24 := decide (0 ≤ x + 24) || decide (m % 2 ^ (-(x + 24)).toNat = 0)
  let c : Int := (shiftFloor m (x + 24) : Int)
  let t24 : Int := if neg then (if ex24 then -c else -c - 1) else c
  let t := t24 - f * 16777216
  if ((word.extractLsb' 8 24).toNat : Int) < t then f + 1 else f

/-- round(x / s); an infinity is far beyond every limit, a NaN is 0 (R72). -/
def roundElem (v : FVal) (exp : Nat) (word : Option W32) : Int :=
  match v with
  | .nan => 0
  | .inf n => if n then -1000000 else 1000000
  | .fin n m e => match word with | none => roundNear n m e exp | some w => roundStoch n m e exp w

/-- Held at plus or minus a limit. -/
def satTo (q : Nat) (r : Int) : Int := if (q : Int) < r then q else if r < -(q : Int) then -(q : Int) else r

/-- A quantised burst: its header and its 128 elements q. -/
structure Quantised where
  hdr : BurstHdr
  q   : List Int
deriving DecidableEq, Repr

/-- One burst quantised with an exponent (R66, R67, R72): `lanes` are the used lane positions, `words` the stream words of
stochastic rounding. -/
def quantBurst (ux8 : Bool) (exp : Nat) (lanes : List Nat) (words : Option (List W32)) (index : Nat)
    (x : List FVal) : Quantised :=
  let r := x.zipIdx.map (fun p => roundElem p.1 exp (words.map (fun w => w.getD p.2 0)))
  let isLane := fun (k : Nat) => lanes.contains k
  let lim := fun (k : Nat) => if isLane k then 63 else qMax ux8
  let c := r.zipIdx.map (fun p => satTo (lim p.2) p.1)
  let ovr := fun (k : Nat) => decide (r.getD k 0 ≠ c.getD k 0)
  let lsat := (List.range 128).any (fun k => isLane k && ovr k)
  let satn := ((List.range 128).filter (fun k => !isLane k && ovr k)).length
  let h := fun (k : Nat) => if isLane k then (c.getD k 0).tdiv 8 else 0
  let entry := lanes.zipIdx.map (fun p => (if (lanes.take p.2).contains p.1 then 0 else h p.1, p.1))
  { hdr :=
      { exp := exp, fmt := if ux8 then 1 else 0, lanes := lanes.length, ovf := lsat || decide (0 < satn),
        nanin := x.any (fun v => match v with | .nan => true | .inf _ => true | .fin .. => false),
        lsat := lsat, sr := words.isSome, satn := satn, group := index, res := mod255 c.sum, entry := entry },
    q := c.zipIdx.map (fun p => p.1 - 8 * h p.2) }

/-- The element block of a burst: 64 bytes of UX4 or 128 bytes of UX8 (R65, R69). -/
def blockBits (ux8 : Bool) (q : List Int) : Nat :=
  q.foldr (fun v acc => if ux8 then (BitVec.ofInt 8 v).toNat + 256 * acc else (BitVec.ofInt 4 v).toNat + 16 * acc) 0

/-- A line after an element block is written to it. -/
def putBlock (ux8 upper : Bool) (l : Line) (q : List Int) : Line :=
  let b := BitVec.ofNat 1024 (blockBits ux8 q)
  if ux8 then b
  else if upper then (b <<< 512) ||| (l &&& BitVec.ofNat 1024 (2 ^ 512 - 1))
  else b ||| ((l >>> 512) <<< 512)

/-- A header as the four lanes that hold it, lane 0 least significant. -/
def hdrLanes (h : BurstHdr) : List W32 := (List.range 4).map (fun k => h.bits.extractLsb' (32 * k) 32)

/-- The header that lanes 0-3 of a register hold. -/
def lanesHdr (ls : List W32) : BurstHdr :=
  hdrOf (BitVec.ofNat 128 ((ls.take 4).foldr (fun w acc => w.toNat + 4294967296 * acc) 0))

/-- The line of the lane map that holds the positions of burst `index` of a group (R183). -/
def QCfg.laneOf (q : QCfg) (index : Nat) : Nat := q.laneLine.toNat + index / 48

/-- The lane positions of burst `index` of a group: three 7-bit positions for each burst, from line LANELINE (R183). By which port and
in which cycle QUANT reads that line the spec does not say: it is read as the QUANT issues, after the accesses to it that issued
before, and takes no cycle of a port, a DESIGN CHOICE (114). -/
def State.lanePos (s : State) (i : Issue) (q : QCfg) (index : Nat) : List Nat :=
  if q.lanes = false then []
  else
    let l := s.padLine i.tile.toNat (q.laneOf index)
    (List.range 3).map (fun k => (l.extractLsb' (21 * (index % 48) + 7 * k) 7).toNat)

/-- The lane-map line of a burst as its QUANT reads it: accesses that issued before have taken effect, and its check bits are checked, the
second line of the command's read errors (R119, R126). -/
def State.readLanes (s : State) (i : Issue) (q : QCfg) (index : Nat) (errs : ReadErrs) (act : State → State) : State :=
  if q.lanes = false then act s
  else
    (s.settleLines i.tile.toNat (q.laneOf index) 1).readChecked i 0x49 (q.laneOf index) 1
      ((errs.filter (fun e => decide (e.1 = 1))).map (fun e => (0, e.2))) act

/-- The inputs of a burst that count for its exponent. -/
def counted (lanes : List Nat) (x : List FVal) : List FVal :=
  (x.zipIdx.filter (fun p => !lanes.contains p.2)).map (fun p => p.1)

/-- A NaN input counts as 0 (R72). -/
def nanZero (v : FVal) : FVal := match v with | .nan => .fin false 0 0 | w => w

/-- One burst of a whole group written: its block, its header, its charge (R72, R73, R82). -/
def State.writeBurst (s : State) (i : Issue) (q : QCfg) (exp : Nat) (b : QBurst) : State :=
  let r := quantBurst q.fmt exp b.lanes (if q.sr then some b.words else none) b.index (b.input.map f32Val)
  let s1 := s.settleLines i.tile.toNat b.line 1
  let s2 := s1.setPadLine i.tile.toNat b.line (putBlock q.fmt b.upper (s1.padLine i.tile.toNat b.line) r.q)
  ((s2.updTile i.tile.toNat (fun t => t.setLanes b.vd 0 (hdrLanes r.hdr))).charge i
    (r.hdr.satn + (if r.hdr.lsat then 1 else 0)))

/-- The bursts gathered so far are quantised as one group (R64, R183). -/
def State.closeGroup (s : State) (i : Issue) : State :=
  let st := s.strm i
  let q := st.qcfg
  let ins := (st.qpend.map (fun b => counted b.lanes ((b.input.map f32Val).map nanZero))).flatten
  let exp := groupExp q.fmt q.floor.toNat q.cap.toNat ins
  (st.qpend.foldl (fun t b => t.writeBurst i q exp b) s).updStrm i (fun st => { st with qpend := [] })

/-- QCFG (R183): a group of bursts that is not whole is closed first. -/
def execQcfg (i : Issue) (fmt : Bool) (glog : BitVec 3) (sr : Bool) (floor cap : BitVec 8) (laneline : BitVec 12)
    (lanes : Bool) (rsvd : BitVec 6) (s : State) : Host.Outcome State Fault Refusal :=
  let w := mkWord 0x10 i ((0x20 : BitVec 6) ++ BitVec.ofBool fmt ++ glog ++ BitVec.ofBool sr ++ floor ++ cap ++ laneline
    ++ BitVec.ofBool lanes ++ rsvd)
  let ok := decide (rsvd = 0 ∧ glog ≠ 7 ∧ floor.toNat ≤ cap.toNat ∧ cap.toNat ≤ 254 ∧ cap.toNat ≤ floor.toNat + 15 ∧
    ¬ (lanes = true ∧ fmt = true))
  .next (s.issue i 7 w ok (fun s =>
    let s := if (s.strm i).qpend.isEmpty then s else s.closeGroup i
    s.updStrm i (fun st => { st with qcfg := ⟨fmt, glog, sr, floor, cap, laneline, lanes⟩ })))

/-- The 128 BF16 values of a register, two to a lane, as FP32 words. -/
def bf16Lanes (l : List W32) : List W32 :=
  l.flatMap (fun (w : W32) => [w <<< 16, w &&& 0xFFFF0000])

/-- QUANT (R72, R183): 128 FP32 inputs of VA and VA + 1, or with MOD bit 1 the 128 BF16 inputs of VA, two to a lane as DEQ
writes them. R182 gives the BF16 form no MOD value: DESIGN CHOICE (74). -/
def execQuant (i : Issue) (v : VecOps) (s : State) : Host.Outcome State Fault Refusal :=
  .next (s.vecLine i 0x21 v 1 0 true (fun s =>
    let st := s.strm i
    let q := st.qcfg
    if q.lanes && !(s.tile i.tile.toNat).owns (q.laneOf st.qpend.length) 1 st.tag then
      s.tagFault i 0x49 false
    else s.readLanes i q st.qpend.length v.errs (fun s =>
      let b : QBurst :=
        { input := if v.md.getLsbD 1 then bf16Lanes (s.vreg i v.va) else s.vreg i v.va ++ s.vreg i (v.va + 1),
            words := s.vreg i v.vb ++ s.vreg i (v.vb + 1), vd := v.vd.toNat,
          line := (vlineNo v), upper := v.md.getLsbD 0, index := st.qpend.length, lanes := s.lanePos i q st.qpend.length }
      let s := s.updStrm i (fun st => { st with qpend := st.qpend ++ [b] })
      if st.qpend.length + 1 < 2 ^ q.glog.toNat then s else s.closeGroup i)))

/-- The outlier feed of R74 from up to 60 headers: element 12 m + 3 g + l is the H of lane entry l of header 4 m + g. -/
def laneFeed (hs : List BurstHdr) : List Int :=
  (List.range 512).map (fun k =>
    if k < 180 then ((hs.getD (k / 3) {}).entry.getD (k % 3) (0, 0)).1 else 0)

/-- LANEF (R74, R119, R182): headers from line ADDR, the feed to lines ADDR + 4 VD and the next. One access a cycle: its 8 reads take
the wide port from the cycle of issue on and its 2 writes the two cycles after them, a DESIGN CHOICE (81). -/
def execLanef (i : Issue) (v : VecOps) (s : State) : Host.Outcome State Fault Refusal :=
  .next (s.vecLine i 0x22 v 8 8 false (fun s =>
    let d := (vlineNo v) + 4 * v.vd.toNat
    if (s.tile i.tile.toNat).owns d 2 (s.strm i).tag = false then s.tagFault i 0x49 true
    else s.useWideAt i (i.cycle.toNat + 8) d 2 (fun s =>
      let s := s.settleLines i.tile.toNat (vlineNo v) 8
      let hs := (List.range 60).map (fun n =>
        hdrOf ((s.padLine i.tile.toNat ((vlineNo v) + n / 8)).extractLsb' (128 * (n % 8)) 128))
      let f := laneFeed hs
      s.writeLines i.tile.toNat d [BitVec.ofNat 1024 (blockBits false (f.take 256)),
        BitVec.ofNat 1024 (blockBits false (f.drop 256))])))

/-- STRM: lane n takes word n mod 4 of the block with c0 advanced by n / 4 (R80, R182). -/
def execStrm (i : Issue) (v : VecOps) (s : State) : Host.Outcome State Fault Refusal :=
  .next (s.vecOp i 0x23 v (fun s =>
    let k := s.vreg i v.va
    let c := s.vreg i v.vb
    s.setVreg i v.vd ((List.range 64).map (fun n =>
      (philox (k.getD 0 0) (k.getD 1 0) (c.getD 0 0 + BitVec.ofNat 32 (n / 4)) (c.getD 1 0) (c.getD 2 0) (c.getD 3 0)).word n))))

/-- Element values of a burst; a reserved FMT leaves them open. -/
def elemsOf (h : BurstHdr) (l : Line) (upper : Bool) : List Int :=
  if h.fmt ≤ 1 then burstVals h l upper else (List.range 128).map (fun k => (Config.reservedBurst l k).toInt)

/-- DEQ: RES is checked, then the burst becomes FP32 in VD and VD + 1, or with MOD bit 0 BF16 in VD (R63, R68, R182). The header
comes from lanes 0-3 of VA, and MOD bit 1 names the upper half of the line for a UX4 burst: DESIGN CHOICE (77). -/
def execDeq (i : Issue) (v : VecOps) (s : State) : Host.Outcome State Fault Refusal :=
  .next (s.vecLine i 0x24 v 1 1 false (fun s =>
    let (s, l) := s.readOwn i (vlineNo v)
    let h := lanesHdr (s.vreg i v.va)
    let e := elemsOf h l (v.md.getLsbD 1)
    if burstRes e ≠ h.res then s.vecResidue i 0x24
    else
      let f := e.map (burstElem h.exp)
      if v.md.getLsbD 0 then
        s.setVreg i v.vd ((List.range 64).map (fun n =>
          fvToBf16 (f.getD (2 * n + 1) .nan) ++ fvToBf16 (f.getD (2 * n) .nan)))
      else (s.setVreg i v.vd ((f.take 64).map fvToF32)).setVreg i (v.vd + 1) ((f.drop 64).map fvToF32)))

/-! ## MX conversion (R89) -/

/-- An E2M1 element times 2. -/
def e2m1x2 (b : BitVec 4) : Int :=
  let a : Nat := match (b.extractLsb' 0 3).toNat with
    | 0 => 0 | 1 => 1 | 2 => 2 | 3 => 3 | 4 => 4 | 5 => 6 | 6 => 8 | _ => 12
  if b.getLsbD 3 then -(a : Int) else (a : Int)

/-- An E4M3 element. -/
def e4m3 (b : BitVec 8) : FVal :=
  let neg := b.getLsbD 7
  let e := (b.extractLsb' 3 4).toNat
  let m := (b.extractLsb' 0 3).toNat
  if e = 15 ∧ m = 7 then .nan else if e = 0 then .fin neg m (-9) else .fin neg (m + 8) ((e : Int) - 10)

/-- An E5M2 element. -/
def e5m2 (b : BitVec 8) : FVal :=
  let neg := b.getLsbD 7
  let e := (b.extractLsb' 2 5).toNat
  let m := (b.extractLsb' 0 2).toNat
  if e = 31 then (if m = 0 then .inf neg else .nan)
  else if e = 0 then .fin neg m (-16) else .fin neg (m + 4) ((e : Int) - 17)

/-- A value times 2^x. -/
def fvScale (v : FVal) (x : Int) : FVal := match v with | .fin n m e => .fin n m (e + x) | w => w

/-- An integer shifted right, to nearest with ties to even. -/
def shrInt (v : Int) (k : Nat) : Int := if v < 0 then -(shrRne v.natAbs k : Int) else (shrRne v.natAbs k : Int)

/-- An integer import: the blocks aligned to the largest scale, then -128 held at -127 and counted (R89; the order is a DESIGN CHOICE,
78). `bias` is what EXP lies below the largest scale. -/
def mxInt (scales : List Nat) (e : List Int) (bias : Int) : Quantised :=
  let top := scales.foldl max 0
  let r := e.zipIdx.map (fun p => shrInt p.1 (top - scales.getD (p.2 / 32) 0))
  let q := r.map (satTo 127)
  let x := (top : Int) - bias
  let satn := ((List.range 128).filter (fun k => decide (r.getD k 0 ≠ q.getD k 0))).length
  { hdr := { exp := if 0 ≤ x then x.toNat else (Config.mxExp x).toNat, fmt := 1, satn := satn, ovf := decide (0 < satn),
             res := mod255 q.sum },
    q := q }

/-- The burst that MXIN makes of a line of MX data with four scales (R89): MOD 0 MXINT8, 1 MXFP4, 2 E4M3, 3 E5M2. The elements of
MXFP4 are the lower 64 bytes of the line: DESIGN CHOICE (78). -/
def mxImport (md : BitVec 2) (q : QCfg) (scales : List Nat) (l : Line) : Quantised :=
  if scales.contains 255 then { hdr := { exp := 255, fmt := 1 }, q := List.replicate 128 0 }
  else if md = 0 then mxInt scales ((List.range 128).map (fun k => (l.extractLsb' (8 * k) 8).toInt)) 6
  else if md = 1 then mxInt scales ((List.range 128).map (fun k => e2m1x2 (l.extractLsb' (4 * k) 4))) 1
  else
    let f := (List.range 128).map (fun k =>
      let b := l.extractLsb' (8 * k) 8
      f32Val (fvToF32 (fvScale (if md = 2 then e4m3 b else e5m2 b) ((scales.getD (k / 32) 0 : Int) - 127))))
    quantBurst true (groupExp true q.floor.toNat q.cap.toNat (f.map nanZero)) [] none 0 f

/-- The four E8M0 scales that lane 0 of a register holds. -/
def mxScales (w : W32) : List Nat := (List.range 4).map (fun k => (w.extractLsb' (8 * k) 8).toNat)

/-- MXIN: a line of MX data becomes a UX8 burst in place, its header in VD lanes 0-3; with LACC not 0, MXFP8 becomes BF16
in VD (R89, R182). -/
def execMxin (i : Issue) (v : VecOps) (s : State) : Host.Outcome State Fault Refusal :=
  .next (s.vecLine i 0x25 v 1 1 true (fun s =>
    let (s, l) := s.readOwn i (vlineNo v)
    let sc := mxScales ((s.vreg i v.va).getD 0 0)
    if 2 ≤ v.md.toNat ∧ v.lacc ≠ 0 then
      let f := fun (k : Nat) =>
        let b := l.extractLsb' (8 * k) 8
        let x := sc.getD (k / 32) 0
        if sc.contains 255 then (0x7FC0 : BitVec 16)
        else fvToBf16 (f32Val (fvToF32 (fvScale (if v.md = 2 then e4m3 b else e5m2 b) ((x : Int) - 127))))
      s.setVreg i v.vd ((List.range 64).map (fun n => f (2 * n + 1) ++ f (2 * n)))
    else
      let r := mxImport v.md (s.strm i).qcfg sc l
      ((s.setPadLine i.tile.toNat (vlineNo v) (BitVec.ofNat 1024 (blockBits true r.q))).updTile i.tile.toNat
        (fun t => t.setLanes v.vd.toNat 0 (hdrLanes r.hdr))).charge i r.hdr.satn))

/-- MXOUT: a burst becomes MXINT8 in place, its four scales in VD lane 0 (R68, R89, R182). Header and half as in DEQ: DESIGN
CHOICE (77). -/
def execMxout (i : Issue) (v : VecOps) (s : State) : Host.Outcome State Fault Refusal :=
  .next (s.vecLine i 0x26 v 1 1 true (fun s =>
    let (s, l) := s.readOwn i (vlineNo v)
    let h := lanesHdr (s.vreg i v.va)
    let e := elemsOf h l (v.md.getLsbD 1)
    if burstRes e ≠ h.res then s.vecResidue i 0x26
    else
      let x := h.exp + 6
      let b : BitVec 8 := if h.exp = 255 then 0xFF else if x ≤ 254 then BitVec.ofNat 8 x else Config.mxExp x
      (s.setPadLine i.tile.toNat (vlineNo v) (BitVec.ofNat 1024 (blockBits true e))).updTile i.tile.toNat
        (fun t => t.setLanes v.vd.toNat 0 [b ++ b ++ b ++ b])))

/-! ## Reductions (R62, R133) -/

/-- A reduction in the fixed tree over a run of lanes. -/
def treeReduce (f : W32 → W32 → W32) : Nat → List W32 → W32
  | 0, l => l.headD 0
  | n + 1, l =>
    if l.length ≤ 1 then l.headD 0
    else
      let k := 1 + Config.treeSplit l.length % (l.length - 1)
      f (treeReduce f n (l.take k)) (treeReduce f n (l.drop k))

/-- The result of a reduction put where the part puts it. -/
def State.reduceTo (s : State) (i : Issue) (vd : BitVec 6) (w : W32) : State :=
  s.setVreg i vd (if Config.reduceAll then List.replicate 64 w else w :: (s.vreg i vd).drop 1)

/-- RSUM: the 64 lanes of VA summed. -/
def execRsum (i : Issue) (v : VecOps) (s : State) : Host.Outcome State Fault Refusal :=
  .next (s.vecOp i 0x28 v (fun s => s.reduceTo i v.vd (treeReduce f32Add 64 (s.vreg i v.va))))

/-- RMAX. -/
def execRmax (i : Issue) (v : VecOps) (s : State) : Host.Outcome State Fault Refusal :=
  .next (s.vecOp i 0x29 v (fun s => s.reduceTo i v.vd (treeReduce (f32MinMax true) 64 (s.vreg i v.va))))

/-! ## Line and word access (R119-R127, R182) -/

/-- LDL: a line to lanes 0-31, or 32-63 with MOD bit 0 (R126, R182). -/
def execLdl (i : Issue) (v : VecOps) (s : State) : Host.Outcome State Fault Refusal :=
  .next (s.vecLine i 0x30 v 1 1 false (fun s =>
    let (s, l) := s.readOwn i (vlineNo v)
    s.updTile i.tile.toNat (fun t => t.setLanes v.vd.toNat (if v.md.getLsbD 0 then 32 else 0) (wordsOfLine l))))

/-- STL: lanes 0-31 of VA, or 32-63 with MOD bit 0, to a line (R182). -/
def execStl (i : Issue) (v : VecOps) (s : State) : Host.Outcome State Fault Refusal :=
  .next (s.vecLine i 0x31 v 1 0 true (fun s =>
    s.writeLines i.tile.toNat (vlineNo v)
      [lineOfWords ((s.vreg i v.va).drop (if v.md.getLsbD 0 then 32 else 0))]))

/-- A narrow form: its word is checked at issue, its block's tag and its narrow access when it accesses (R119, R121,
R132, R182). -/
def State.vecWordOp (s : State) (i : Issue) (func : BitVec 6) (v : VecOps) (dest : Bool) (act : State → State) : State :=
  s.issue i 7 (vecWord i func v) (decide (v.addr.toNat ≤ 49151)) (fun s =>
    let line := v.addr.toNat / 16
    let tag := (s.strm i).tag
    if (s.tile i.tile.toNat).owns line 1 tag = false then s.tagFault i 0x4A dest
    else
      let s := s.useNarrow i 7 line
      s.readChecked i 0x4A line (if dest then 0 else 1) v.errs (fun s => s.vecChecked i func v 0x4A line act))

/-- LDW: a narrow word to lanes 16 MOD and 16 MOD + 1 of VD (R182). -/
def execLdw (i : Issue) (v : VecOps) (s : State) : Host.Outcome State Fault Refusal :=
  .next (s.vecWordOp i 0x32 v false (fun s =>
    let s := s.settleLines i.tile.toNat (v.addr.toNat / 16) 1
    let w := s.padWord i.tile.toNat v.addr.toNat
    s.updTile i.tile.toNat (fun t => t.setLanes v.vd.toNat (16 * v.md.toNat) [w.extractLsb' 0 32, w.extractLsb' 32 32])))

/-- STW: lanes 16 MOD and 16 MOD + 1 of VA to a narrow word, visible 10 cycles after its issue (R119, R182). -/
def execStw (i : Issue) (v : VecOps) (s : State) : Host.Outcome State Fault Refusal :=
  .next (s.vecWordOp i 0x33 v true (fun s =>
    let r := s.vreg i v.va
    let w : W64 := r.getD (16 * v.md.toNat + 1) 0 ++ r.getD (16 * v.md.toNat) 0
    s.updTile i.tile.toNat (fun t => { t with
      narrowW := t.narrowW ++ [(i.cycle.toNat + 10, v.addr.toNat, w)]
      halfA := t.halfA.follow s.fu.frame i.cycle.toNat v.addr.toNat w
      halfB := t.halfB.follow s.fu.frame i.cycle.toNat v.addr.toNat w })))

end Sys2Proof.Machine
end

