-- ==== Sys2Proof/Machine/Streams.lean ====
section
/-! DEFINITION. The SEND, RECV, MEMQ, WAIT, CREDIT, PHASE and CTRL classes (R129-R132, R145, R147, R168, R170, R184-R195,
R553, R554). -/

namespace Sys2Proof.Machine

/-! ## SEND and SENDR (R131, R184, R185) -/

/-- A destination is another tile's scratchpad: DEST_PORT 0b00 of another tile. -/
def remoteTile (own dest : TileNo) (port : BitVec 2) : Bool := decide (port = 0 ∧ dest ≠ own)

/-- The mirror of a live credit that covers a line of the owner (R130, R131). -/
def mirrorFor (tag : Tag) (owner line : Nat) (m : Nat × Nat × Credit) : Bool :=
  decide (m.1 = owner) && m.2.2.live && decide (m.2.2.tag = tag ∧ m.2.2.base.toNat ≤ line ∧
    line < m.2.2.base.toNat + m.2.2.count.toNat ∧ m.2.2.remain ≠ 0)

/-- The first mirror that satisfies a test spends one line. -/
def spendFirst (p : Nat × Nat × Credit → Bool) : List (Nat × Nat × Credit) → List (Nat × Nat × Credit)
  | [] => []
  | m :: t => if p m then (m.1, m.2.1, { m.2.2 with remain := m.2.2.remain - 1 }) :: t else m :: spendFirst p t

/-- The mirrors after `n` lines from `line` are written, none where one of them finds no live mirror. -/
def spendMirrors (tag : Tag) (owner : Nat) : Nat → Nat → List (Nat × Nat × Credit) → Option (List (Nat × Nat × Credit))
  | 0, _, ms => some ms
  | n + 1, line, ms =>
    if ms.any (mirrorFor tag owner line) then spendMirrors tag owner n (line + 1) (spendFirst (mirrorFor tag owner line) ms)
    else none

/-- A credit violation at a tile (R131). -/
def State.creditFault (s : State) (f : FaultInfo) : State :=
  (s.updTile ((f.tile.getD 0).toNat) (fun t => { t with violations := bump32 t.violations })).fault f

/-- The source check of a remote write: `act` with its mirrors spent, fault 0x03 where one is missing (R131). -/
def State.withCredit (s : State) (i : Issue) (dest : TileNo) (port : BitVec 2) (line n : Nat) (anyc : Bool)
    (act : State → State) : State :=
  if !remoteTile i.tile dest port || anyc then act s
  else
    match spendMirrors (s.strm i).tag dest.toNat n line (s.tile i.tile.toNat).mirrors with
    | some ms => act (s.updTile i.tile.toNat (fun t => { t with mirrors := ms }))
    | none =>
      let f := s.issueFault i 0x03 0x4B i.cycle.toNat (BitVec.ofNat 32 line)
      s.creditFault { f with iaddr := f.iaddr - 1 }

/-- RES of an add flit (R147). -/
def flitRes (l : Line) : Nat := mod255 (((wordsOfLine l).map (fun w => w.toInt)).sum)

/-- A flit enters the mesh. R143 gives a tile's port one flit per plane in a cycle, R149 names collisions at outputs only: two flits that one
tile sends in one cycle on one plane both travel, a DESIGN CHOICE (117). -/
def State.inject (s : State) (f : Flit) : State := { s with mesh := { s.mesh with flits := s.mesh.flits ++ [f] } }

/-- DEST_PORT and ANYC break no rule (R184). -/
def sendFieldsOk (own dest : TileNo) (port : BitVec 2) (anyc : Bool) : Bool :=
  decide (port ≠ 3) && (!anyc || remoteTile own dest port)

/-- SEND (R131, R145, R147, R184). -/
def execSend (i : Issue) (srcline : BitVec 12) (plane : Bool) (destTile : TileNo) (destPort : BitVec 2)
    (destLine : BitVec 12) (xfer : BitVec 8) (add anyc : Bool) (errs : ReadErrs) (s : State) : Host.Outcome State Fault Refusal :=
  .next (s.issue i 8
    (mkWord 0x18 i (srcline ++ BitVec.ofBool plane ++ destTile ++ destPort ++ destLine ++ xfer ++ BitVec.ofBool add
      ++ BitVec.ofBool anyc))
    (decide (srcline.toNat ≤ 3071) && sendFieldsOk i.tile destTile destPort anyc)
    (fun s =>
      let tag := (s.strm i).tag
      if (s.tile i.tile.toNat).owns srcline.toNat 1 tag = false then s.tagFault i 0x49 false
      else s.withCredit i destTile destPort destLine.toNat 1 anyc (fun s => s.useWide i srcline.toNat 1 (fun s =>
        s.readChecked i 0x49 srcline.toNat 1 errs (fun s =>
        let (s, l) := s.readOwn i srcline.toNat
        s.inject
          { add := add, src := i.tile, dest := destTile, port := destPort, line := destLine, tag := tag, xfer := xfer,
            count := if add then 1 else 0, res := if add then flitRes l else 0, plane := plane, data := l,
            frame := s.fu.frame, sent := i.cycle.toNat, hop := 0, anyc := anyc, pred := none, stream := i.stream,
            void := false })))))

/-- The tensor-link endpoint attached to a router as unit A (R160): 0-9 the dimensions, 10 the fold link. -/
def endpointAt (router : Nat) : Option Nat :=
  match router with
  | 67 => some 6 | 76 => some 7
  | 195 => some 3 | 198 => some 0 | 201 => some 1 | 204 => some 4
  | 307 => some 5 | 310 => some 2 | 316 => some 8
  | 435 => some 9 | 444 => some 10
  | _ => none

/-- SENDR (R76, R77, R131, R185, R336, R376). The lines of its flits count up from DEST_LINE in the 12-bit field, so that one past 4,095 is
line 0: DESIGN CHOICE (118). -/
def execSendr (i : Issue) (src : Bool) (bank : BitVec 2) (reg : BitVec 4) (shift : BitVec 5) (plane : Bool)
    (destTile : TileNo) (destPort : BitVec 2) (destLine : BitVec 12) (xfer : BitVec 8) (rsvd : BitVec 1)
    (anyc : Bool) (s : State) : Host.Outcome State Fault Refusal :=
  .next (s.issue i 5
    (mkWord 0x19 i (BitVec.ofBool src ++ bank ++ reg ++ shift ++ BitVec.ofBool plane ++ destTile ++ destPort ++ destLine
      ++ xfer ++ rsvd ++ BitVec.ofBool anyc))
    (decide (rsvd = 0) && regFieldsOk src bank reg shift && sendFieldsOk i.tile destTile destPort anyc)
    (fun s => s.readReg i src bank.toNat reg.toNat shift.toNat (fun o r s =>
      if i.upset then s.ownFault i 0x12 (regUnit src bank.toNat) 0
      else
      let tag := (s.strm i).tag
      let toLink := decide (destPort = 1) && (endpointAt destTile.toNat).isSome
      s.withCredit i destTile destPort destLine.toNat 8 anyc (fun s =>
        ((List.range 8).foldl (fun s k =>
          let l := lineOfWords ((o.vals.drop (32 * k)).take 32)
          s.inject
            { add := true, src := i.tile, dest := destTile, port := destPort, line := destLine + BitVec.ofNat 12 k,
              tag := tag, xfer := xfer, count := 1, res := flitRes l, plane := plane, data := l, frame := s.fu.frame,
              sent := i.cycle.toNat + k, hop := 0, reg := true, anyc := anyc,
              pred := if toLink && !r.noPred then o.pred[k]? else none, stream := i.stream, void := false }) s).charge i
          (if o.povf then 1 else 0)))))

/-! ## The decoupling queues (R186-R188, R193) -/

/-- Queue overfill (R193). -/
def State.overfill (s : State) (i : Issue) (entry : Nat) : State := s.ownFault i 0x05 0x4C (BitVec.ofNat 32 entry)

/-- A load entry issued (R193). Its epoch is kept. -/
def State.issueLoad (s : State) (i : Issue) (entry : Nat) (toHalf : Option Bool) (wfmt : Bool) (line lines addr : Nat) : State :=
  s.updTile i.tile.toNat (fun t => { t with loads := SMap.upd t.loads {} entry (fun e =>
    { st := .issued, tag := (SMap.get t.streams {} i.stream.toNat).tag, stream := i.stream, toHalf := toHalf, wfmt := wfmt,
      line := line, lines := lines, done := 0, acked := 0, addr := addr, epoch := e.epoch }) })

/-- The real cycle since Dawn at which an instruction issues. -/
def State.issuedAt (s : State) (i : Issue) : Nat := s.now (s.realOf i.cycle.toNat)

/-- The position of the issuing instruction within its step: frames from the step's first frame, and cycle. -/
def State.stepPos (s : State) (i : Issue) : Nat × Nat :=
  match (s.part (s.strm i).tag.toNat).curRun with
  | some r => (s.fu.frame - r.start, i.cycle.toNat)
  | none => (0, i.cycle.toNat)

/-- RECV (R186, R193, R334, R553, R554). R148 has no operation for the request of a RECV: it stands in the endpoint's entry from its issue
on, with no flit and no time of travel, a DESIGN CHOICE (116). -/
def execRecv (i : Issue) (link : BitVec 4) (slot line : BitVec 12) (lines entry : BitVec 6) (rsvd : BitVec 6)
    (s : State) : Host.Outcome State Fault Refusal :=
  .next (s.issue i 8
    (mkWord 0x1C i (link ++ slot ++ line ++ lines ++ entry ++ rsvd))
    (decide (rsvd = 0 ∧ link.toNat ≤ 10 ∧ slot.toNat ≤ 2047 ∧ line.toNat + lines.toNat ≤ 3071))
    (fun s =>
      let tag := (s.strm i).tag
      let n := lines.toNat + 1
      let l := link.toNat
      let t := s.tile i.tile.toNat
      if (t.load entry.toNat).st ≠ .free then s.overfill i entry.toNat
      else
        match (s.link l).rxAt slot.toNat with
        | none => s.ownFault i 0x06 (linkUnit l) (tagDetail tag false)
        | some (k, x) =>
          let off := slot.toNat - x.base.toNat
          if x.tag ≠ tag ∨ x.lines < off + n then s.ownFault i 0x06 (linkUnit l) (tagDetail tag false)
          else
            let p := s.stepPos i
            let early := decide (p.1 < x.frameOff.toNat ∨ (p.1 = x.frameOff.toNat ∧ p.2 < x.cycle.toNat))
            if (s.link l).full x = false ∧ early = true then s.ownFault i 0x02 (linkUnit l) (slotDetail x k)
            else
              let s1 := s.issueLoad i entry.toNat none false line.toNat n 0
              let e := s1.link l
              (s1.setLink l { e with rxEnts := SMap.upd e.rxEnts {} k (fun y =>
                { y with recvs := y.recvs ++ [(i.tile, entry.toNat, off, n, line.toNat, (t.load entry.toNat).epoch)] }) }).entryEvent l k))

/-- A base register as an instruction issued at a cycle sees it (R192). -/
def Stream.breg (st : Stream) (frame cyc n : Nat) : BitVec 33 :=
  match SMap.get st.bregOld none n with
  | some (at_, old) => if at_.frame = frame ∧ at_.cycle = cyc then old else SMap.get st.bregs 0 n
  | none => SMap.get st.bregs 0 n

/-- The stack of a line of the data space (R215). -/
def stackOf (l : Nat) : Nat :=
  let q := l / 128
  let row := q / 15
  (15 - row % 16 + 1 + q % 15) % 16

/-- Lines of the data space (R215). -/
def dataLines : Nat := 0x1E0000000

/-- The unit that serves a line address: a stack controller for the data space, the engine of its window (R233) at the
router of the same number, and 24 for an address that no unit has. -/
def unitOf (l : Nat) : Nat :=
  if l < dataLines then stackOf l
  else
    let w := l - dataLines
    let u := w / 65536
    if u < 16 ∧ w % 65536 < 1024 then u else if 16 ≤ u ∧ u < 24 ∧ w % 65536 < 64 then u else 24

/-- The router of a stack, and of the generation engine of the same number (R159). -/
def stackRouter (n : Nat) : Nat :=
  [32, 112, 208, 288, 384, 464, 500, 507, 479, 399, 303, 223, 127, 47, 11, 4].getD n 0

/-- The router of engine `e`: 0-15 generation engines, 16-23 prompt engines (R159). -/
def engineRouter (e : Nat) : Nat := if e < 16 then stackRouter e else [1, 6, 9, 14, 497, 502, 505, 510].getD (e - 16) 0

/-- The router of the unit that serves a line address; what no unit has goes to the management complex. -/
def unitRouter (u : Nat) : Nat := if u < 24 then engineRouter u else 313

/-- DEST_PORT of the unit that serves a line: unit A, and unit B for a generation engine's window (R159). -/
def unitPort (u line : Nat) : Nat := if dataLines ≤ line ∧ u < 16 then 2 else 1

/-- The runs of consecutive lines from `a` that one unit serves: place of the first line, and length. -/
def unitRuns (a n : Nat) : List (Nat × Nat) :=
  let starts := (List.range n).filter (fun k => decide (k = 0 ∨ unitOf (a + k) ≠ unitOf (a + k - 1)))
  starts.zipIdx.map (fun x => (x.1, (starts.getD (x.2 + 1) n) - x.1))

/-- LOAD (R148, R187, R193, R220, R223): its lines are asked for by address and length, with one request for the run of lines that each
unit serves; how a request reaches a second controller the spec does not say: DESIGN CHOICE (119). -/
def execLoad (i : Issue) (entry : BitVec 6) (dest wfmt : Bool) (line : BitVec 12) (lines : BitVec 6) (breg : BitVec 3)
    (offset : BitVec 17) (s : State) : Host.Outcome State Fault Refusal :=
  .next (s.issue i 9
    (mkWord 0x20 i (entry ++ BitVec.ofBool dest ++ BitVec.ofBool wfmt ++ line ++ lines ++ breg ++ offset))
    (if dest then decide (line.extractLsb' 8 3 = 0) else !wfmt && decide (line.toNat + lines.toNat ≤ 3071))
    (fun s =>
      let t := s.tile i.tile.toNat
      let tag := (s.strm i).tag
      let half := line.getLsbD 11
      if (t.load entry.toNat).st ≠ .free then s.overfill i entry.toNat
      else if dest = true ∧ (t.half half).tag ≠ tag ∧ (t.half half).tag ≠ 0xFE then s.tagFault i (halfUnit half) true
      else
        let n := lines.toNat + 1
        let a := ((s.strm i).breg s.fu.frame i.cycle.toNat breg.toNat).toNat + offset.toNat
        let s1 := s.issueLoad i entry.toNat (if dest then some half else none) wfmt
          (if dest then line.toNat % 256 else line.toNat) n a
        (unitRuns a n).foldl (fun s r =>
          let u := unitOf (a + r.1)
          s.sendMsg i.tile.toNat (unitRouter u) (unitPort u (a + r.1)) tag (s.issuedAt i)
            (.loadReq entry.toNat r.1 (a + r.1) r.2 0 (t.load entry.toNat).epoch)) s1))

/-- STORE (R187, R193): the lines are read when the drain reaches them. -/
def execStore (i : Issue) (entry : BitVec 6) (dest wfmt : Bool) (line : BitVec 12) (lines : BitVec 6) (breg : BitVec 3)
    (offset : BitVec 17) (s : State) : Host.Outcome State Fault Refusal :=
  .next (s.issue i 9
    (mkWord 0x21 i (entry ++ BitVec.ofBool dest ++ BitVec.ofBool wfmt ++ line ++ lines ++ breg ++ offset))
    (decide (entry.toNat < 32) && !dest && !wfmt && decide (line.toNat + lines.toNat ≤ 3071))
    (fun s =>
      let t := s.tile i.tile.toNat
      let e := t.storeE entry.toNat
      if e.st ≠ .free then s.overfill i entry.toNat
      else if t.owns line.toNat (lines.toNat + 1) (s.strm i).tag = false then s.tagFault i 0x49 false
      else
        let a := ((s.strm i).breg s.fu.frame i.cycle.toNat breg.toNat).toNat + offset.toNat
        let q : QEntry :=
          { st := .issued, tag := (s.strm i).tag, stream := i.stream, toHalf := none, wfmt := false, line := line.toNat,
            lines := lines.toNat + 1, done := 0, acked := 0, addr := a, epoch := e.epoch }
        s.setTile i.tile.toNat { t with stores := SMap.set t.stores {} entry.toNat q }))

/-- RREAD (R132, R188, R193). -/
def execRread (i : Issue) (entry : BitVec 6) (srcTile : TileNo) (srcLine line : BitVec 12) (rsvd : BitVec 7)
    (s : State) : Host.Outcome State Fault Refusal :=
  .next (s.issue i 9
    (mkWord 0x22 i (entry ++ srcTile ++ srcLine ++ line ++ rsvd))
    (decide (rsvd = 0 ∧ srcLine.toNat ≤ 3071 ∧ line.toNat ≤ 3071))
    (fun s =>
      let e := (s.tile i.tile.toNat).load entry.toNat
      if e.st ≠ .free then s.overfill i entry.toNat
      else
        (s.issueLoad i entry.toNat none false line.toNat 1 srcLine.toNat).sendMsg i.tile.toNat srcTile.toNat 0 (s.strm i).tag
          (s.issuedAt i) (.readReq entry.toNat srcLine.toNat e.epoch)))

/-! ## WAIT and holds (R189, R193-R195) -/

/-- The hold in force ends once every awaited entry is Complete: the counter resumes in the real cycle after `rc` (R194). -/
def State.resume (s : State) (rc : Nat) : State :=
  match s.fu.hold with
  | none => s
  | some (_, real, ws) => if s.waitsDone ws then s.endHoldWith (rc + 1 - real) ws else s

/-- The real cycle of the frame in which the counter came to stand at cycle `c`, and the waits that hold it there (R194). -/
def State.heldAt (s : State) (c : Nat) : Nat × List (TileNo × Nat × Tag) :=
  match s.fu.hold with
  | some (_, real, ws) => (real, ws)
  | none => (s.realOf c, [])

/-- An unsatisfied WAIT joins the hold at its cycle; one whose entry became Complete in the meantime lets the hold end in the next real
cycle (R194). -/
def State.holdFor (s : State) (i : Issue) (token : Nat) (e : QEntry) : State :=
  let tag := (s.strm i).tag
  let (real, ws) := s.heldAt i.cycle.toNat
  let s1 : State := { s with fu := { s.fu with
    hold := some (i.cycle.toNat, real, ws ++ [(i.tile, token, tag)])
    causes := if s.fu.causes.contains tag then s.fu.causes else s.fu.causes ++ [tag] } }
  if e.st = .complete then s1.resume (e.doneAt - s.fu.base) else s1

/-- WAIT (R189, R193, R194): it is satisfied where its entry was Complete before its cycle. -/
def execWait (i : Issue) (token : BitVec 7) (rsvd : BitVec 39) (s : State) : Host.Outcome State Fault Refusal :=
  .next (s.issue i 10 (mkWord 0x28 i (token ++ rsvd)) (decide (rsvd = 0 ∧ token.toNat < 96)) (fun s =>
    let e := (s.tile i.tile.toNat).token token.toNat
    if e.st = .free then s.ownFault i 0x04 0x4C (token.setWidth 32)
    else if e.st = .complete ∧ e.doneAt < s.now (s.heldAt i.cycle.toNat).1 then s.updTile i.tile.toNat (fun t => t.claim token.toNat)
    else s.holdFor i token.toNat e))

/-! ## CREDIT (R130, R131, R190) -/

/-- Two line ranges overlap. -/
def rangesMeet (a n b m : Nat) : Bool := decide (a < b + m ∧ b < a + n)

/-- CREDIT (R130, R131, R190). -/
def execCredit (i : Issue) (any : Bool) (writer : TileNo) (base : BitVec 12) (count : BitVec 7) (entry : BitVec 4)
    (rsvd : BitVec 13) (s : State) : Host.Outcome State Fault Refusal :=
  .next (s.issue i 9
    (mkWord 0x2C i (BitVec.ofBool any ++ writer ++ base ++ count ++ entry ++ rsvd))
    (decide (rsvd = 0 ∧ count ≠ 0))
    (fun s =>
      let t := s.tile i.tile.toNat
      let bad := decide (64 < count.toNat) || decide (3072 < base.toNat + count.toNat) ||
        t.credits.any (fun x => x.2.live &&
          (decide (x.1 = entry.toNat) || rangesMeet x.2.base.toNat x.2.count.toNat base.toNat count.toNat))
      if bad then
        let f := s.issueFault i 0x03 0x4B i.cycle.toNat (base.setWidth 32)
        s.creditFault { f with iaddr := f.iaddr - 1 }
      else
        let c : Credit :=
          { live := true, any := any, writer := writer, tag := (s.strm i).tag, base := base, count := count, remain := count }
        let s1 := s.setTile i.tile.toNat { t with credits := SMap.set t.credits {} entry.toNat c }
        if any then s1
        else s1.sendMsg i.tile.toNat writer.toNat 0 c.tag (s.issuedAt i) (.grant entry.toNat c)))

/-! ## PHASE (R168, R170, R191) -/

/-- The issue of NEXT or END, the last word of a frame block: it names no cycle and takes its port after the block's
other words. -/
def State.issueLast (s : State) (i : Issue) (word : W64) (ok : Bool) (act : State → State) : State :=
  let st := s.strm i
  if s.fu.hold ≠ none ∨ s.issuing i = false then s
  else s.readStore i st.reached (fun s =>
    if st.last.toNat < st.pc then s.fault (s.issueFault i 0x06 0x4D st.reached (tagDetail st.tag false))
    else if (ok && decide (i.gen = 0 ∧ i.cycle = 0)) = false then
      s.fault (s.issueFault i 0x01 0x4D st.reached (wordDetail word))
    else act (s.updStrm i (fun st => { st with pc := st.pc + 1, reached := 0, branch := none })))

/-- NEXT (R168, R191). -/
def execNext (i : Issue) (advance : BitVec 16) (rsvd : BitVec 30) (s : State) : Host.Outcome State Fault Refusal :=
  .next (s.issueLast i (mkWord 0x30 i (advance ++ rsvd)) (decide (rsvd = 0 ∧ advance ≠ 0)) (fun s =>
    s.updStrm i (fun st => { st with block := some (s.fu.frame + advance.toNat) })))

/-- LAYER (R170, R191). -/
def execLayer (i : Issue) (layer : BitVec 10) (wide alt : BitVec 14) (rsvd : BitVec 8) (s : State) :
    Host.Outcome State Fault Refusal :=
  let p := s.part (s.strm i).tag.toNat
  .next (s.issue i 10 (mkWord 0x31 i (layer ++ wide ++ alt ++ rsvd)) (decide (rsvd = 0 ∧ layer.toNat < p.layers.toNat))
    (fun s =>
      let recipe := match p.curRun with | some r => r.recipe | none => p.recipe
      s.updStrm i (fun st =>
        let st1 := { st with layer := layer }
        if p.streams.getLsbD layer.toNat ∧ alt ≠ 0 then { st1 with pc := alt.toNat, branch := some i.cycle.toNat }
        else if recipe.getLsbD layer.toNat ∧ wide ≠ 0 then { st1 with pc := wide.toNat, branch := some i.cycle.toNat }
        else st1)))

/-- END (R168, R191). The first END of a step ends it with this frame and names the next step's start; an END of the step
with another GAP is malformed. The credits of the step die with the frame (R129), at FRAME_BOUNDARY. -/
def execEnd (i : Issue) (gap : BitVec 16) (rsvd : BitVec 30) (s : State) : Host.Outcome State Fault Refusal :=
  let w := mkWord 0x32 i (gap ++ rsvd)
  .next (s.issueLast i w (decide (rsvd = 0)) (fun s =>
    let p := (s.strm i).tag.toNat
    let start := s.fu.frame + gap.toNat + 1
    let s1 := s.updStrm i (fun st => { st with block := none, ended := some (s.fu.frame, gap.toNat) })
    match (s.part p).nextStart with
    | some n =>
      if n = start then s1
      else
        let f := s1.issueFault i 0x01 0x4D (s.strm i).reached (wordDetail w)
        s1.fault { f with iaddr := f.iaddr - 1 }
    | none =>
      s1.updPart p (fun q => { q with nextStart := some start })))

/-! ## CTRL (R180, R192) -/

/-- JUMP (R192). -/
def execJump (i : Issue) (target : BitVec 14) (rsvd : BitVec 32) (s : State) : Host.Outcome State Fault Refusal :=
  .next (s.issue i 10 (mkWord 0x38 i (target ++ rsvd)) (decide (rsvd = 0 ∧ target.toNat ≤ (s.strm i).last.toNat)) (fun s =>
    s.updStrm i (fun st => { st with pc := target.toNat, branch := some i.cycle.toNat })))

/-- BASE (R167, R192). -/
def execBase (i : Issue) (breg : BitVec 3) (entry : BitVec 6) (rsvd : BitVec 37) (s : State) :
    Host.Outcome State Fault Refusal :=
  .next (s.issue i 10 (mkWord 0x39 i (breg ++ entry ++ rsvd)) (decide (rsvd = 0)) (fun s =>
    s.updStrm i (fun st => { st with
      bregOld := SMap.set st.bregOld none breg.toNat (some (⟨s.fu.frame, i.cycle.toNat⟩, SMap.get st.bregs 0 breg.toNat))
      bregs := SMap.set st.bregs 0 breg.toNat (SMap.get st.table 0 entry.toNat) })))

/-- MASK (R119, R174, R180): a narrow word to a mask register. -/
def execMask (i : Issue) (mreg : BitVec 3) (waddr : BitVec 16) (rsvd : BitVec 27) (errs : ReadErrs) (s : State) :
    Host.Outcome State Fault Refusal :=
  .next (s.issue i 10 (mkWord 0x3A i (mreg ++ waddr ++ rsvd)) (decide (rsvd = 0 ∧ waddr.toNat ≤ 49151)) (fun s =>
    let line := waddr.toNat / 16
    let tag := (s.strm i).tag
    if (s.tile i.tile.toNat).owns line 1 tag = false then s.tagFault i 0x4A false
    else
      let s := s.useNarrow i 10 line
      s.readChecked i 0x4A line 1 errs (fun s =>
        let s := s.settleLines i.tile.toNat line 1
        let w := s.padWord i.tile.toNat waddr.toNat
        s.updStrm i (fun st => { st with
          masks := SMap.set st.masks 0 mreg.toNat w
          maskAt := SMap.set st.maskAt none mreg.toNat (some ⟨s.fu.frame, i.cycle.toNat⟩) }))))

end Sys2Proof.Machine
end

