-- ==== Sys2Proof/Machine/TileMesh.lean ====
section
/-! DEFINITION. Scratchpad upkeep in dusk and the mesh: scheduled flits, credits, fault reports, remote reads (R120,
R124-R132, R143-R161). -/

namespace Sys2Proof.Machine

/-! ## Dusk work of a tile (R124, R126-R128) -/

/-- ECC_WRITE_BACK (R126): in dusk the first line waiting is written back corrected; its contents are what the read gave. -/
def execEccWriteBack (tile : TileNo) (rc : Nat) (s : State) : Host.Outcome State Fault Refusal :=
  if s.inDusk rc then .next (s.updTile tile.toNat (fun t => { t with writeBack := t.writeBack.drop 1 })) else .next s

/-- BLOCK_ZEROING (R124): once its two frames of power-up are over, 16 lines of the block become zero in each dusk. -/
def execBlockZeroing (tile : TileNo) (block : BitVec 4) (rc : Nat) (s : State) : Host.Outcome State Fault Refusal :=
  let t := s.tile tile.toNat
  let b := SMap.get t.blocks {} block.toNat
  let due := match b.powerAt with | none => true | some f => decide (f ≤ s.fu.frame)
  match b.zeroed with
  | none => .next s
  | some n =>
    if due = false ∨ s.inDusk rc = false ∨ b.zeroAt = some s.fu.frame then .next s
    else
      let b1 := { b with
        powerAt := none, zeroed := if 256 ≤ n + 16 then none else some (n + 16), zeroAt := some s.fu.frame }
      let s1 := s.setTile tile.toNat { t with blocks := SMap.set t.blocks {} block.toNat b1 }
      .next { s1 with spad := Cells.clear s1.spad (padBytes * tile.toNat + 128 * (256 * block.toNat + n)) (128 * 16) }

/-- ROW_MAP_OUT (R127, R128): in dusk the first row past its threshold is copied to the bank's next spare row, at most four rows
of a tile in a dusk; a bank without a spare row puts the device into Twilight. -/
def execRowMapOut (tile : TileNo) (rc : Nat) (s : State) : Host.Outcome State Fault Refusal :=
  let t := s.tile tile.toNat
  match t.awaiting with
  | [] => .next s
  | k :: rest =>
    let bank := k / 192
    let used := SMap.get t.spareRows 0 bank
    if s.inDusk rc = false ∨ 4 ≤ t.mapping.length then .next s
    else if 32 ≤ used then
      .next (((s.setTile tile.toNat { t with awaiting := rest }).event 0x06 2 tile.toNat none used used).twilight 0x04)
    else
      .next (((s.setTile tile.toNat { t with
        awaiting := rest, mapping := t.mapping ++ [(k, used)], spareRows := SMap.set t.spareRows 0 bank (used + 1) }).event
        0x06 1 tile.toNat none (used + 1) used).flashWrite .repair)

/-! ## Routes (R144, R145) -/

/-- The output that a flit for `dest` and its port takes at a router: 0 N, 1 S, 2 E, 3 W, 4 local, 5 unit A, 6 unit B. -/
def outputAt (router dest : Nat) (port : BitVec 2) : Nat :=
  if router % 16 < dest % 16 then 2
  else if dest % 16 < router % 16 then 3
  else if router / 16 < dest / 16 then 1
  else if dest / 16 < router / 16 then 0
  else 4 + port.toNat

/-- The neighbour through an output. -/
def neighbour (router output : Nat) : Nat :=
  match output with
  | 0 => router - 16 | 1 => router + 16 | 2 => router + 1 | 3 => router - 1 | _ => router

/-- The router reached after `i` hops. -/
def routerAfter (src dest : Nat) : Nat → Nat
  | 0 => src
  | i + 1 => let r := routerAfter src dest i; if r = dest then r else neighbour r (outputAt r dest 0)

/-- The flit claims this output in this cycle of the current frame (R145). -/
def Flit.claims (f : Flit) (frame router plane_ output cycle : Nat) : Bool :=
  let r := routerAfter f.src.toNat f.dest.toNat f.hop
  decide (f.frame = frame ∧ f.hop ≤ hops f.src.toNat f.dest.toNat ∧ r = router ∧
    outputAt r f.dest.toNat f.port = output ∧ f.sent + 3 * f.hop + 4 = cycle) && (f.plane == decide (plane_ = 1))

/-- UNIT of a router output (R204). -/
def routerUnit (plane : Bool) (output : Nat) : BitVec 8 := BitVec.ofNat 8 (0x50 + 7 * plane.toNat + output)

/-- A fault of a flit at a router. -/
def flitFault (code : BitVec 8) (f : Flit) (router : TileNo) (unit : BitVec 8) (cycle : Nat) (detail : BitVec 32) :
    FaultInfo :=
  { code := code, tag := f.tag, tile := some router, unit := unit, stream := f.stream, cycle := cycle, detail := detail }

/-- The header of a scheduled flit (R147). -/
def Flit.header (f : Flit) : BitVec 64 :=
  withHpar ((if f.add then (1 : BitVec 2) else 0) ++ (0 : BitVec 2) ++ f.dest ++ f.port ++ f.line ++ f.tag ++ f.xfer
    ++ BitVec.ofNat 7 f.count ++ BitVec.ofNat 8 f.res ++ (0 : BitVec 5))

/-- The collision detail of another owner (R205). -/
def ownerDetail (tag : Tag) (xfer : BitVec 8) : BitVec 32 := (tag.setWidth 32 <<< 8) ||| xfer.setWidth 32

/-- What is kept of a flit that claims an output in a cycle. -/
def Flit.useAt (f : Flit) (cycle : Nat) : FlitUse := { cycle := cycle, tag := f.tag, xfer := f.xfer, stream := f.stream }

/-- One collision record for each partition whose flit takes part (R150), that of its latest flit; `all` holds the flits in
opposite order. -/
def clashRecords (router : TileNo) (unit : BitVec 8) (cycle : Nat) (dusk : Bool) : List FlitUse → List FlitUse → List FaultInfo
  | [], _ => []
  | f :: t, all =>
    let other := match all.find? (fun g => decide (g.tag ≠ f.tag)) with
      | some g => some g
      | none => all.tail.head?
    let d := if dusk then ownerDetail 0xFD 0 else match other with
      | some g => ownerDetail g.tag g.xfer
      | none => ownerDetail 0xFD 0
    let r : FaultInfo :=
      { code := 0x02, tag := f.tag, tile := some router, unit := unit, stream := f.stream, cycle := cycle, detail := d }
    if t.any (fun g => decide (g.tag = f.tag)) then clashRecords router unit cycle dusk t all
    else r :: clashRecords router unit cycle dusk t all

/-- Flits leave the mesh. -/
def State.dropFlits (s : State) (fs : List Flit) : State :=
  { s with mesh := { s.mesh with flits := s.mesh.flits.filter (fun f => !fs.contains f) } }

/-- A slot collision at a router: one fault for each partition with a flit in it, counted and aborting it, and the flits that claim
discarded (R150, R163). `run` are the flits that the output carried before and that take part, the oldest first. -/
def State.meshClash (s : State) (router : TileNo) (unit : BitVec 8) (cycle : Nat) (dusk : Bool) (run : List FlitUse)
    (fs : List Flit) : State :=
  let us := run ++ fs.map (fun f => f.useAt cycle)
  let rs := clashRecords router unit cycle dusk us us.reverse
  let more := fun (n : Nat) => min (n + rs.length) 4294967295
  let s1 := ((s.dropFlits fs).updRouter router.toNat (fun r => { r with collisions := more r.collisions }))
  ({ s1 with health := { s1.health with collisions := more s1.health.collisions } } : State).collision rs

/-- A header or parity error at a router counted (R163). -/
def State.routerError (s : State) (router : Nat) : State :=
  s.updRouter router (fun r => { r with errors := bump32 r.errors })

/-- A flit whose TAG fails the destination check: fault 0x06, counted at the router of its port (R161, R163). -/
def State.destFault (s : State) (router : Nat) (f : FaultInfo) : State := (s.routerError router).fault f

/-- The flits that an output carried in the first run of 16 consecutive cycles that a use in cycle `c` would fill, the oldest first
(R149). -/
def fullRun (used : List FlitUse) (c : Nat) : Option (List FlitUse) :=
  (List.range 16).findSome? (fun k =>
    let cs := ((List.range 16).map (fun j => c - k + j)).filter (fun n => decide (n ≠ c))
    let us := cs.filterMap (fun n => used.find? (fun u => decide (u.cycle = n)))
    if k ≤ c ∧ us.length = 15 then some us else none)

/-- Flits that a router may add, at most four of them register transfers injected there (R152). -/
def addable (fs : List Flit) : Bool :=
  match fs with
  | [] => false
  | f :: t =>
    decide ((fs.filter (fun g => g.reg && decide (g.hop = 0))).length ≤ 4) && f.add && t.all (fun g => g.add &&
        decide (g.dest = f.dest ∧ g.port = f.port ∧ g.line = f.line ∧ g.xfer = f.xfer ∧
      g.tag = f.tag)) && decide ((fs.map (fun g => g.count)).sum ≤ 127)

/-- The prediction of a sum of flits (R336): a part without one counts with its own T and no window. -/
def sumPred (fs : List Flit) : Option (Int × Nat) :=
  if fs.all (fun f => f.pred.isNone) then none
  else
    let p := fs.map (fun f => match f.pred with | some q => q | none => (lineT false f.data, 0))
    some ((p.map (fun q => q.1)).sum, (p.map (fun q => q.2)).sum)

/-- The sum of flits (R152). -/
def sumFlit (f : Flit) (fs : List Flit) : Flit :=
  { f with
    data := fs.tail.foldl (fun l g => lineOfWords (List.zipWith p32Add (wordsOfLine l) (wordsOfLine g.data))) f.data
    count := (fs.map (fun g => g.count)).sum
    res := ((fs.map (fun g => g.res)).sum) % 255
    others := f.others ++ (fs.tail.map (fun g => g.src :: g.others)).flatten
    pred := sumPred fs }

/-- The claim of one output by the flits that reach it (R149-R153). -/
def State.claim (s : State) (router : TileNo) (plane : Bool) (output cycle : Nat) (upset parityBad : Bool)
    (fs : List Flit) : State :=
  let unit := routerUnit plane output
  match fs with
  | [] => s
  | f :: rest =>
    if 960 ≤ cycle then s.meshClash router unit cycle true [] fs
    else
      let key := 14 * router.toNat + 7 * plane.toNat + output
      let used := SMap.get s.mesh.used [] key
      match if output < 4 then fullRun used cycle else none with
      | some run => s.meshClash router unit cycle false run fs
      | none =>
        let mark := fun (t : State) =>
          { t with mesh := { t.mesh with used := SMap.set t.mesh.used [] key (f.useAt cycle :: used) } }
        if rest = [] then
          mark { s with mesh := { s.mesh with flits := s.mesh.flits.map (fun g => if g = f then { g with hop := g.hop + 1 } else g) } }
        else if addable fs = false then s.meshClash router unit cycle false [] fs
        else if parityBad then
          ((s.dropFlits fs).routerError router.toNat).fault (flitFault 0x13 f router unit cycle (f.line.setWidth 32))
        else if fs.any (fun g => decide (g.res ≠ flitRes g.data)) ∨ upset = true ∨
            flitRes (sumFlit f fs).data ≠ (sumFlit f fs).res then
          ((s.dropFlits fs).routerError router.toNat).fault (flitFault 0x12 f router unit cycle 0)
        else
          let g := sumFlit f fs
          let s1 := (s.dropFlits fs).inject { g with hop := g.hop + 1 }
          mark (s1.updRouter router.toNat (fun r => { r with adds := r.adds + 1 }))

/-- A hold freezes the schedule before cycle `c` is reached: every scheduled flit stays where it is (R158). -/
def State.frozen (s : State) (c : Nat) : Bool := match s.fu.hold with | none => false | some (h, _, _) => decide (h < c)

/-- SCHEDULED_FLIT_CLAIM (R145, R149, R152, R153, R158, R161): the flits that claim this output in this cycle. -/
def execScheduledFlitClaim (router : TileNo) (plane : Bool) (output : Fin 7) (cycle : Nat)
    (upset headerBad parityBad : Bool) (s : State) : Host.Outcome State Fault Refusal :=
  let fs := if s.frozen cycle then [] else s.mesh.flits.filter (fun f => f.claims s.fu.frame router.toNat plane.toNat output.val cycle)
  let s1 := s.updRouter router.toNat (fun r => { r with flits := r.flits + fs.length })
  match fs with
  | [] => .next s
  | f :: rest =>
    if headerBad then
      .next ((((s1.dropFlits [f]).routerError router.toNat).fault
        (flitFault 0x14 f router (routerUnit plane output.val) cycle (f.header.extractLsb' 32 32))).claim router plane
          output.val cycle upset parityBad rest)
    else .next (s1.claim router plane output.val cycle upset parityBad fs)

/-! ## Landing (R129, R131, R147, R151, R161) -/

/-- The tiles other than the owner that wrote into a flit, with those that routers added in (R129, R152). -/
def Flit.remotes (f : Flit) : List TileNo := (f.src :: f.others).filter (fun w => decide (w ≠ f.dest))

/-- The credit at the owner that takes a landing line: it must hold for every remote writer of the line (R131). -/
def creditFor (f : Flit) (c : Credit) : Bool :=
  c.live && decide (c.tag = f.tag ∧ c.base.toNat ≤ f.line.toNat ∧ f.line.toNat < c.base.toNat + c.count.toNat ∧
    c.remain ≠ 0) && (c.any || f.remotes.all (fun w => decide (c.writer = w)))

/-- A credit spends one line; at zero it is dead (R129). -/
def Credit.spend (c : Credit) : Credit := { c with remain := c.remain - 1, live := decide (c.remain ≠ 1) }

/-- A flit lands in a tile's scratchpad (R129, R131, R132, R147). -/
def State.landTile (s : State) (f : Flit) (cycle : Nat) : State :=
  let t := s.tile f.dest.toNat
  let flt := fun (code unit : BitVec 8) (d : BitVec 32) => flitFault code f f.dest unit cycle d
  if 3071 < f.line.toNat ∨ t.owns f.line.toNat 1 f.tag = false then
    s.destFault f.dest.toNat (flt 0x06 0x49 (tagDetail f.tag true))
  else
    match (if f.remotes.isEmpty then some t else
        match t.credits.find? (fun x => creditFor f x.2) with
        | some x => some { t with credits := SMap.set t.credits {} x.1 x.2.spend }
        | none => none) with
    | none => s.creditFault (flt 0x03 0x4B (f.line.setWidth 32))
    | some u =>
      match u.takeWide cycle f.line.toNat 1 with
      | none => s.portConflict (flt 0x08 0x49 (BitVec.ofNat 32 (f.line.toNat % 16)))
      | some v => (((s.setTile f.dest.toNat v).yieldFills f.dest).checkNarrow f.dest).writeLines f.dest.toNat f.line.toNat [f.data]

/-- The engine attached to a router at a port (R159): 0-15 generation engines on unit B, 16-23 prompt engines on unit A. -/
def engineAt (router : Nat) (port : BitVec 2) : Option Nat :=
  if port = 2 then
    match router with
    | 32 => some 0 | 112 => some 1 | 208 => some 2 | 288 => some 3 | 384 => some 4 | 464 => some 5
    | 500 => some 6 | 507 => some 7
    | 479 => some 8 | 399 => some 9 | 303 => some 10 | 223 => some 11 | 127 => some 12 | 47 => some 13
    | 11 => some 14 | 4 => some 15
    | _ => none
  else if port = 1 then
    match router with
    | 1 => some 16 | 6 => some 17 | 9 => some 18 | 14 => some 19
    | 497 => some 20 | 502 => some 21 | 505 => some 22 | 510 => some 23
    | _ => none
  else none

/-- Input slots of an engine (R232, R237). -/
def slotsOf (e : Nat) : Nat := if e < 16 then 1024 else 64

/-- A job holds an input slot until it has copied it. -/
def Engine.holds (e : Engine) (slot : Nat) : Bool := e.waiting.any (fun j => j.slots.contains slot)

/-- A line reaches an engine's input slot (R232): fault 0x02 where a pending job still holds it. -/
def State.landSlot (s : State) (e : Nat) (slot : Nat) (tag : Tag) (l : Line) (f : FaultInfo) (xfer : BitVec 8) : State :=
  if slotsOf e ≤ slot then s.destFault ((f.tile.getD 0).toNat) { f with code := 0x06, detail := tagDetail tag true }
  else
    match ((s.engine e).waiting.find? (fun j => j.slots.contains slot)) with
    | some j =>
      s.collision ({ f with code := 0x02, detail := ownerDetail j.tag j.xfer } :: (if Tag.isPart j.tag ∧ j.tag ≠ tag then
        [{ f with code := 0x02, tag := j.tag, detail := ownerDetail tag xfer }] else []))
    | none => s.updEngine e (fun x => { x with slots := SMap.set x.slots (0, 0) slot (l, tag) })

/-- SCHEDULED_FLIT_LANDING (R129, R131, R145, R147, R151, R161, R375, R553). -/
def execScheduledFlitLanding (router : TileNo) (port : BitVec 2) (plane : Bool) (cycle : Nat) (parityBad upset : Bool)
    (s : State) : Host.Outcome State Fault Refusal :=
  let here := fun (f : Flit) =>
    let h := hops f.src.toNat f.dest.toNat
    decide (f.frame = s.fu.frame ∧ f.dest = router ∧ f.port = port ∧ f.hop = h + 1 ∧ f.sent + 3 * h + 10 = cycle) &&
      (f.plane == plane)
  match (if s.frozen cycle then none else s.mesh.flits.find? here) with
  | none => .next s
  | some f =>
    let unit := routerUnit plane (4 + port.toNat)
    let s1 := (s.dropFlits [f]).reach cycle
    if f.void then .next s1
    else if 960 ≤ cycle then .next (s.meshClash router unit cycle true [] [f])
    else if parityBad then
      .next ((s1.routerError router.toNat).fault (flitFault 0x13 f router unit cycle (f.line.setWidth 32)))
    else if f.add = true ∧ f.res ≠ flitRes f.data then
      .next ((s1.routerError router.toNat).fault (flitFault 0x12 f router unit cycle 0))
    else if port = 0 then .next (s1.landTile f cycle)
    else
      match engineAt router.toNat port with
      | some e => .next (s1.landSlot e f.line.toNat f.tag f.data (flitFault 0x02 f router unit cycle 0) f.xfer)
      | none =>
        match (if port = 1 then endpointAt router.toNat else none) with
        | some l => if 2048 ≤ f.line.toNat then .next (s1.landLocal l f cycle upset) else .next (s1.landTransmit l f cycle)
        | none => .next (s1.destFault router.toNat (flitFault 0x06 f router unit cycle (tagDetail f.tag true)))

/-! ## Unscheduled and queue traffic (R132, R148, R154-R156, R161) -/

/-- The routers a flit passes from one to another. -/
def routeOf (a b : Nat) : List Nat := (List.range (hops a b + 1)).map (routerAfter a b)

/-- A queue flit has passed some routers (R163). -/
def State.passRouters (s : State) (rs : List Nat) : State :=
  rs.foldl (fun t r => t.updRouter r (fun x => { x with queue := x.queue + 1 })) s

/-- A queue flit has passed its route (R163). -/
def State.passQueue (s : State) (a b : Nat) : State := s.passRouters (routeOf a b)

/-- A flit with a bad header is dropped at the router reached after `hop` hops: counted there and at the routers it passed before, and
reported (R161, R163). -/
def State.dropMsg (s : State) (m : Msg) (hop rc : Nat) : State :=
  let r := routerAfter m.src m.dest hop
  let s1 := match m.msg.chan with
    | .qreq | .qresp => s.passRouters ((routeOf m.src m.dest).take hop)
    | _ => s
  ((s1.updRouter r (fun x => { x with dropped := bump32 x.dropped })).routerError r).faultDrop
    { code := 0x14, tag := m.tag, tile := some (BitVec.ofNat 9 r),
      unit := routerUnit m.msg.chan.plane (outputAt r m.dest (BitVec.ofNat 2 m.port)), cycle := s.cycleAt rc,
      detail := m.header.extractLsb' 32 32 }

/-- The line whose data a flit carries or asks for (R205): a scratchpad line of the entry that a response serves, a stack line. -/
def State.lineOf (s : State) (m : Msg) : Nat :=
  match m.msg with
  | .readReq _ l _ => l
  | .readResp n _ _ => ((s.tile m.dest).load n).line
  | .loadReq _ _ a _ done _ => a + done
  | .loadData n k _ _ => ((s.tile m.dest).load n).line + k
  | .storeData _ a _ _ => a
  | _ => m.msg.destLine

/-- Data with bad parity at the ejection of a flit are poisoned and never land (R161); DETAIL is their line (R205). -/
def State.ejectFault (s : State) (m : Msg) (rc line : Nat) : State :=
  (s.routerError m.dest).fault
    { code := 0x13, tag := m.tag, tile := some (BitVec.ofNat 9 m.dest), unit := routerUnit m.msg.chan.plane (4 + m.port),
      cycle := s.cycleAt rc, detail := BitVec.ofNat 32 line }

/-- The latency of a delivered flit, by the class of its channel (R154, R163). -/
def State.sawMsg (s : State) (m : Msg) (rc : Nat) : State :=
  let n := min (s.now rc - m.time) 4294967295
  match m.msg.chan with
  | .vc0 | .vc1 => s.updRouter m.dest (fun r => { r with peakHigh := max r.peakHigh n })
  | .vc2 | .vc3 => s.updRouter m.dest (fun r => { r with peakLow := max r.peakLow n })
  | .qreq | .qresp => s



/-- The halves of the AES unit of the stack controller at router `k` disagree (R377): fault 0x12 of that unit. -/
def cipherFault (k : Nat) (tag : Tag) (cycle : Nat) : FaultInfo :=
  { code := 0x12, tag := tag, tile := some (BitVec.ofNat 9 k), unit := routerUnit false 5, cycle := cycle, attached := true }

/-- A flit that has left its channel for its destination: dropped on its way, poisoned at its ejection, turned away by a stack controller
whose AES unit fails its comparison, or delivered to `act` (R161, R163, R377). -/
def State.deliver (s : State) (m : Msg) (rc : Nat) (bad : FlitBad) (act : State → State) : State :=
  match bad.header with
  | some h => s.dropMsg m h rc
  | none =>
    let s1 := match m.msg.chan with | .qreq | .qresp => s.passQueue m.src m.dest | _ => s.sawMsg m rc
    let atStack := match m.msg with | .loadReq .. | .storeData .. => true | _ => false
    if bad.parity then s1.ejectFault m rc (s1.lineOf m)
    else if bad.cipher && atStack then s1.fault (cipherFault m.dest m.tag (s1.cycleAt rc))
    else act s1

/-- The flit is bound for a unit: router and port. -/
def Msg.isFor (m : Msg) (router port : Nat) : Bool := decide (m.dest = router ∧ m.port = port)

/-- CREDIT_GRANT (R130): the writer tile keeps a mirror of the credit. -/
def execCreditGrant (tile : TileNo) (rc : Nat) (bad : FlitBad) (s : State) : Host.Outcome State Fault Refusal :=
  match s.takeMsg .vc1 rc (fun m => m.isFor tile.toNat 0 && decide (m.msg.op = 0x01)) with
  | some (m, s1) =>
    .next (s1.deliver m rc bad (fun s => match m.msg with
      | .grant entry c => s.updTile tile.toNat (fun t =>
          { t with mirrors := t.mirrors.filter (fun x => decide ((x.1, x.2.1) ≠ (m.src, entry))) ++ [(m.src, entry, c)] })
      | _ => s))
  | none => .next s

/-- CREDIT_REVOKE (R124, R129): the writer's mirror of the credit goes. -/
def execCreditRevoke (tile : TileNo) (rc : Nat) (bad : FlitBad) (s : State) : Host.Outcome State Fault Refusal :=
  match s.takeMsg .vc1 rc (fun m => m.isFor tile.toNat 0 && decide (m.msg.op = 0x02)) with
  | some (m, s1) =>
    .next (s1.deliver m rc bad (fun s => match m.msg with
      | .revoke entry => s.updTile tile.toNat (fun t =>
          { t with mirrors := t.mirrors.filter (fun x => decide ((x.1, x.2.1) ≠ (m.src, entry))) })
      | _ => s))
  | none => .next s

/-- FAULT_REPORT (R148, R204, R504): a fault report reaches the management complex: fault FIFO, interrupt source 1, event
record. A report that is dropped on its way is one that was not made. -/
def execFaultReport (rc : Nat) (bad : FlitBad) (s : State) : Host.Outcome State Fault Refusal :=
  match s.takeMsg .vc0 rc (fun m => m.isFor 313 1 && decide (m.msg.op = 0x03)) with
  | some (m, s1) =>
    let s2 := if bad.header.isSome || bad.parity then s1.updFu (fun f => { f with unreported := bump32 f.unreported }) else s1
    .next (s2.deliver m rc bad (fun s => match m.msg with
      | .fault w =>
        let s3 := s.record (.fault w)
        { s3 with mgmt := { s3.mgmt with faultFifo := s3.mgmt.faultFifo ++ [w] } }.assertSrc 1
      | _ => s))
  | none => .next s

/-- REMOTE_READ_REQUEST (R132, R161): the request reaches the owner tile. -/
def execRemoteReadRequest (tile : TileNo) (rc : Nat) (bad : FlitBad) (s : State) : Host.Outcome State Fault Refusal :=
  match s.takeMsg .vc2 rc (fun m => m.isFor tile.toNat 0 && decide (m.msg.op = 0x08)) with
  | some (m, s1) =>
    .next (s1.deliver m rc bad (fun s => match m.msg with
      | .readReq entry line epoch =>
        if (s.tile tile.toNat).owns line 1 m.tag = false then
          s.destFault tile.toNat
            { code := 0x06, tag := m.tag, tile := some tile, unit := 0x49, cycle := s.cycleAt rc, detail := tagDetail m.tag true }
        else s.updTile tile.toNat (fun t => { t with remote := t.remote ++ [(m.src, entry, line, m.tag, epoch)] })
      | _ => s))
  | none => .next s

/-- A poisoned read that no instruction of this cycle made: fault 0x13 of the partition it serves (R126). -/
def State.poisonFault (s : State) (tile : TileNo) (tag : Tag) (stream : BitVec 3) (rc line : Nat) : State :=
  s.fault { code := 0x13, tag := tag, tile := some tile, unit := 0x49, stream := stream, cycle := s.cycleAt rc,
            detail := BitVec.ofNat 32 line }

/-- REMOTE_READ_SERVE (R120, R126, R132): the owner serves the oldest request in a free wide cycle, one line in 8 cycles; poisoned
data do not leave. -/
def execRemoteReadServe (tile : TileNo) (rc : Nat) (errs : ReadErrs) (s : State) : Host.Outcome State Fault Refusal :=
  let t := s.tile tile.toNat
  match t.remote with
  | [] => .next s
  | (req, entry, line, tag, epoch) :: rest =>
    if t.served.any (fun n => decide (s.now rc < n + 8)) then .next s
    else
      match s.takeFill tile rc line none with
      | none => .next s
      | some s1 =>
        let s2 := (s1.updTile tile.toNat (fun u => { u with remote := rest, served := some (s.now rc) })).settleLines tile.toNat line 1
        match s2.checkLines tile line 1 errs with
        | (s3, some n) => .next (s3.poisonFault tile tag 0 rc n)
        | (s3, none) => .next (s3.sendMsg tile.toNat req 0 tag (s.now rc) (.readResp entry (s3.padLine tile.toNat line) epoch))

/-- The line of a half that a beat of an entry fills. -/
def QEntry.halfLine (e : QEntry) (index : Nat) : Nat := (e.line + index) % 256

/-- A load entry after one more beat at a time: with the last it is Complete (R193, R194). -/
def QEntry.beat (e : QEntry) (now : Nat) : QEntry :=
  if e.lines ≤ e.done + 1 then { e with done := e.done + 1, st := .complete, doneAt := now } else { e with done := e.done + 1 }

/-- A line lands for a load entry of a tile: written where the entry says, complete with its last line; data of an old epoch
are discarded, and a line in another partition's block raises fault 0x06. A beat for scratchpad takes a free wide cycle; with none,
it waits in the landing buffer: none (R120, R132, R135, R136, R193, R200). -/
def State.landLoad (s : State) (tile : TileNo) (entry index : Nat) (l : Line) (tag : Tag) (epoch rc : Nat) : Option State :=
  let t := s.tile tile.toNat
  let e := t.load entry
  if e.st ≠ .issued ∨ e.epoch ≠ epoch then some s
  else
    let e1 := e.beat (s.now rc)
    let take := fun (u : Tile) => { u with loads := SMap.set u.loads {} entry e1 }
    let flt : FaultInfo :=
      { code := 0x06, tag := tag, tile := some tile, unit := 0x49, stream := e.stream, cycle := s.cycleAt rc,
        detail := tagDetail tag true }
    match e.toHalf with
    | some h =>
      let x := t.half h
      if t.opOn s.fu.frame (s.cycleAt rc) h then
        some (s.collision [{ flt with code := 0x02, unit := halfUnit h, detail := ownerDetail (ownerOf t.tbusy) 0 }])
      else
        let k := e.halfLine index
        some ((s.updTile tile.toNat (fun u => (take u).setHalf h
          { ({ x with tag := tag, wfmt := e.wfmt } : Half).put k l (.stack (e.addr + index)) with
            loading := some entry, doubt := false, copy := none })).resume rc)
    | none =>
      if t.owns (e.line + index) 1 tag = false then some ((s.updTile tile.toNat take).destFault tile.toNat flt)
      else (s.takeFill tile rc (e.line + index) (some entry)).map (fun s1 =>
        (((s1.updTile tile.toNat take).settleLines tile.toNat (e.line + index) 1).setPadLine tile.toNat (e.line + index) l).resume rc)

/-- A beat delivered to a tile's queue (R120, R193): it stays in the channel, as in the landing buffer, while no wide cycle is free. -/
def State.landBeat (s : State) (m : Msg) (tile : TileNo) (entry index : Nat) (l : Line) (epoch rc : Nat) (bad : FlitBad)
    (taken : State) : State :=
  if bad.header.isSome || bad.parity then taken.deliver m rc bad id
  else
    match (taken.deliver m rc bad id).landLoad tile entry index l m.tag epoch rc with
    | some t => t
    | none => s

/-- REMOTE_READ_RESPONSE (R132, R193, R194). -/
def execRemoteReadResponse (tile : TileNo) (rc : Nat) (bad : FlitBad) (s : State) : Host.Outcome State Fault Refusal :=
  match s.takeMsg .vc3 rc (fun m => m.isFor tile.toNat 0 && decide (m.msg.op = 0x09)) with
  | some (m, s1) =>
    match m.msg with
    | .readResp entry l epoch => .next (s.landBeat m tile entry 0 l epoch rc bad s1)
    | _ => .next s
  | none => .next s

end Sys2Proof.Machine
end

