-- ==== Sys2Proof/Machine/Stacks.lean ====
section
/-! DEFINITION. The memory stacks and the queue traffic to them: placement and parity, loads, stores, stack failure, granule zeroing
(R187, R193, R213-R223, R233). -/

namespace Sys2Proof.Machine

/-! ## Placement and parity (R215, R216) -/

/-- The byte offset of a line in its stack (R215). -/
def stackOffset (l : Nat) : Nat := l / 128 / 15 * 16384 + l % 128 * 128

/-- The stack that holds the parity chunk of a line's row (R215). -/
def parityStack (l : Nat) : Nat := 15 - l / 128 / 15 % 16

/-- The data lines that a line's parity line covers: line u of the row's 15 chunks (R215). -/
def rowLines (l : Nat) : List Nat := (List.range 15).map (fun k => 128 * (15 * (l / 128 / 15) + k) + l % 128)

/-- The parity line of a line's row: the XOR of the row's 15 lines as stored (R215). -/
def State.parityLine (s : State) (l : Nat) : Line :=
  (rowLines l).foldl (fun x k => x ^^^ Config.cipher s.fwKey k 0) (SMap.get s.mem.parity 0 (parityPlace l))

/-- The cycles that a line takes on the ring from a controller to another, by the shorter direction (R216). -/
def ringCycles (a b : Nat) : Nat := 8 * min ((a + 16 - b) % 16) ((b + 16 - a) % 16)

/-! ## Tags and faults of the stack side -/

/-- A fault at a stack controller or an engine: it is named by the router output of its port (R204). -/
def portFault (code : BitVec 8) (tag : Tag) (router : Nat) (output cycle : Nat) (detail : BitVec 32) : FaultInfo :=
  { code := code, tag := tag, tile := some (BitVec.ofNat 9 router), unit := routerUnit false output, cycle := cycle,
    detail := detail, attached := true }

/-- A request of a partition may reach a line; firmware's reach any granule (R220). -/
def State.mayReach (s : State) (tag : Tag) (line : Nat) : Bool :=
  decide (line < dataLines) && (decide (tag = 0xFF) || decide (s.granTag line = tag))

/-! ## Reads (R217, R218) -/

/-- Bytes moved by queue traffic counted. -/
def State.queueBytes (s : State) (k : Nat) : State := s.updStack k (fun x => { x with qBytes := x.qBytes + 128 })

/-- A stack is declared failed (R218): recorded, every partition on the die aborted, Twilight. -/
def State.failStack (s : State) (k : Nat) : State :=
  let x := s.stack k
  if x.st = 2 then s
  else
    (((s.updStack k (fun y => { y with st := 2 })).event 0x06 4 (0x8000 + k) none 2 x.st).abortAll 0x13 .unchanged
      s.steppers).twilight 0x05

/-- The physical error that a read of a line meets (R217, R218): the state, and whether the data are delivered. A line that could not
be rebuilt stays poisoned. -/
def State.stackRead (s : State) (line : Nat) (err : ReadErr) (rebuildFails : Bool) : State × Bool :=
  let k := stackOf line
  let rebuild := fun (s : State) =>
    let n := (s.stack k).rebuilt
    ((s.updStack k (fun x => { x with rebuilt := x.rebuilt + 1 })).event 0x06 3 (0x8000 + k) none (n + 1) n)
  let done := fun (s : State) =>
    if rebuildFails then
      ((s.updStack k (fun x => { x with poisoned := bump32 x.poisoned })).updMem (fun m =>
        { m with lost := insertRising m.lost line }), false)
    else (s, true)
  if s.mem.lost.contains line then (s.updStack k (fun x => { x with poisoned := bump32 x.poisoned }), false)
  else if (s.stack k).st = 2 then done (rebuild s)
  else
    match err with
    | .none => (s, true)
    | .single _ => (s.updStack k (fun x => { x with corrected := x.corrected + 1 }), true)
    | _ =>
      let l := s.fu.frame :: (s.stack k).uncorr.filter (fun f => decide (s.fu.frame < f + 16777216))
      let s1 := rebuild (s.updStack k (fun x => { x with uncorr := l }))
      done (if 16 ≤ l.length then s1.failStack k else s1)

/-- What a line of a command's list meets. -/
def errOf (errs : StackErrs) (l : Nat) : StackErr := (errs.find? (fun e => decide (e.line = l))).getD { line := l }

/-- A line moves between the unit at router `a` and its stack as queue traffic, a flit each way: counted, dropped where a router finds its
header bad, poisoned at an ejection with bad parity (R161, R163, R242). The state, and whether the line arrives. -/
def State.queueLine (s : State) (a : Nat) (tag : Tag) (rc l : Nat) (bad : FlitBad) : State × Bool :=
  let k := stackRouter (stackOf l)
  let request : Msg := { src := a, dest := k, port := 1, tag := tag, seq := 0, time := s.now rc, msg := .loadReq 0 0 l 1 0 0 }
  match bad.header with
  | some h => (s.dropMsg request h rc, false)
  | none =>
    let s1 := ((s.passQueue a k).passQueue k a).queueBytes (stackOf l)
    if bad.cipher then (s1.fault (cipherFault k tag (s1.cycleAt rc)), false)
    else if bad.parity then (s1.ejectFault { request with src := k, dest := a, msg := .loadData 0 0 0 0 } rc l, false)
    else (s1, true)

/-- Lines that a unit reads: an engine at its own controller, or a unit at router `mesh` as queue traffic. Poisoned data are never
delivered and raise fault 0x13 with their line (R161, R205, R217). The state, and whether every line is delivered. -/
def State.fetchLines (s : State) (mesh : Option Nat) (tag : Tag) (rc : Nat) (flt : Nat → FaultInfo) (ls : List Nat) (errs : StackErrs) :
    State × Bool :=
  ls.foldl (fun (x : State × Bool) l =>
    let e := errOf errs l
    let (s1, here) := match mesh with
      | some a => x.1.queueLine a tag rc l e.bad
      | none => if e.bad.cipher then (x.1.fault (cipherFault (stackRouter (stackOf l)) tag (x.1.cycleAt rc)), false) else (x.1, true)
    if here = false then (s1, false)
    else
      let (s2, ok) := s1.stackRead l e.err e.fails
      if ok then (s2, x.2) else (s2.fault (flt l), false)) (s, true)

/-- Lines that the unit at router `a` writes as queue traffic: the state, and whether every line arrives. -/
def State.moveLines (s : State) (a : Nat) (tag : Tag) (rc : Nat) (ls : List Nat) (errs : StackErrs) : State × Bool :=
  ls.foldl (fun (x : State × Bool) l => let (s1, ok) := x.1.queueLine a tag rc l (errOf errs l).bad; (s1, x.2 && ok)) (s, true)

/-! ## Loads (R187, R193, R220, R233) -/

/-- A load request that unit `u` can serve now: a line of the data space, a written result line, or an address that no unit
has. -/
def State.servable (s : State) (u : Nat) (m : Msg) : Bool :=
  match m.msg with
  | .loadReq _ _ a _ d _ =>
    decide (unitOf a = u) &&
      (decide (a < dataLines ∨ u = 24) || ((s.engine u).results.any (fun r => decide (r.1 = (a + d - dataLines) % 65536))))
  | _ => false

/-- A request may not have what it names: an address without a unit, a line of another partition's granule, a result line of another
partition (R220, R233). -/
def State.loadForbidden (s : State) (u : Nat) (tag : Tag) (a n : Nat) : Bool :=
  decide (u = 24) || (if a < dataLines then (List.range n).any (fun k => !s.mayReach tag (a + k))
    else (s.engine u).results.any (fun r => decide ((a - dataLines) % 65536 ≤ r.1 ∧ r.1 < (a - dataLines) % 65536 + n ∧ r.2.tag ≠ tag)))

/-- A request with one more line served: it leaves with its last line (R223). -/
def State.servedLine (s : State) (m : Msg) : State :=
  match m.msg with
  | .loadReq entry index a n d epoch =>
    let left := fun (q : List Msg) => if n ≤ d + 1 then q.erase m
      else q.map (fun y => if y = m then { m with msg := .loadReq entry index a n (d + 1) epoch } else y)
    s.updMesh (fun x => { x with qreq := left x.qreq })
  | _ => s

/-- The next line of a request is read and its data leave for the entry (R217, R233). -/
def State.answerLoad (s : State) (u : Nat) (m : Msg) (rc entry index a epoch : Nat) (err : ReadErr) (rebuildFails : Bool) : State :=
  let answer := fun (s : State) (l : Line) => s.sendMsg m.dest m.src 0 m.tag (s.now rc) (.loadData entry index l epoch)
  if a < dataLines then
    let (s2, ok) := s.stackRead a err rebuildFails
    if ok then answer (s2.queueBytes u) (s2.readMem a)
    else s2.fault (portFault 0x13 m.tag m.dest (4 + m.port) (s.cycleAt rc) (BitVec.ofNat 32 a))
  else
    let line := (a - dataLines) % 65536
    answer (s.updEngine u (fun x => { x with results := SMap.drop x.results line }))
      (SMap.get (s.engine u).results ⟨0xFE, 0, 0⟩ line).data

/-- LOAD_REQUEST (R217, R220, R223, R233): the next line of the oldest request that the unit can serve. The flit is checked as it arrives,
with the tag of every line it names. -/
def execLoadRequest (unit : Fin 25) (rc : Nat) (bad : FlitBad) (err : ReadErr) (rebuildFails : Bool) (s : State) :
    Host.Outcome State Fault Refusal :=
  let u := unit.val
  match s.takeMsg .qreq rc (s.servable u) with
  | some (m, s1) =>
    match m.msg with
    | .loadReq entry index a n d epoch =>
      let serve := fun (s : State) => s.answerLoad u m rc entry (index + d) (a + d) epoch err rebuildFails
      if s.loadForbidden u m.tag a n then
        .next (s1.deliver m rc bad (fun s => s.destFault m.dest
          (portFault 0x06 m.tag m.dest (4 + m.port) (s.cycleAt rc) (tagDetail m.tag true))))
      else if d ≠ 0 then
        if bad.cipher then .next ((s.servedLine m).fault (cipherFault m.dest m.tag (s.cycleAt rc))) else .next (serve (s.servedLine m))
      else if bad.header.isSome || bad.parity || bad.cipher then .next (s1.deliver m rc bad id)
      else .next ((s.servedLine m).deliver m rc {} serve)
    | _ => .next s
  | none => .next s

/-- LOAD_DATA (R120, R161, R193, R194): a beat reaches its tile. -/
def execLoadData (tile : TileNo) (rc : Nat) (bad : FlitBad) (s : State) : Host.Outcome State Fault Refusal :=
  match s.takeMsg .qresp rc (fun m => m.isFor tile.toNat 0 && decide (m.msg.op = 0x11)) with
  | some (m, s1) =>
    match m.msg with
    | .loadData entry index l epoch => .next (s.landBeat m tile entry index l epoch rc bad s1)
    | _ => .next s
  | none => .next s

/-! ## Stores (R187, R216, R220) -/

/-- The store entry that drains next: the lowest one with lines still to be read. -/
def Tile.draining (t : Tile) : Option (Nat × QEntry) := t.stores.find? (fun x => decide (x.2.st = .issued ∧ x.2.done < x.2.lines))

/-- STORE_DRAIN (R120, R126, R187): in a free wide cycle the next line of a store is read and sent; poisoned data do not leave. -/
def execStoreDrain (tile : TileNo) (rc : Nat) (errs : ReadErrs) (s : State) : Host.Outcome State Fault Refusal :=
  let t := s.tile tile.toNat
  match t.draining with
  | none => .next s
  | some (n, e) =>
    let line := e.line + e.done
    match s.takeFill tile rc line none with
    | none => .next s
    | some s1 =>
      let s2 := (s1.updTile tile.toNat (fun u => { u with
        stores := SMap.set u.stores {} n { e with done := e.done + 1 } })).settleLines tile.toNat line 1
      match s2.checkLines tile line 1 errs with
      | (s3, some k) => .next (s3.poisonFault tile e.tag e.stream rc k)
      | (s3, none) =>
        let a := e.addr + e.done
        let u := unitOf a
        .next (s3.sendMsg tile.toNat (unitRouter u) (unitPort u a) e.tag (s3.now rc)
          (.storeData n a (s3.padLine tile.toNat line) e.epoch))

/-- Store data that reach this stack's router: its controller's, or for an address that takes no store its engine's window. -/
def Msg.storeFor (m : Msg) (stack : Nat) : Bool :=
  match m.msg with
  | .storeData .. => decide (m.dest = stackRouter stack) || (decide (stack = 0) && !(List.range 16).any (fun k => decide (stackRouter k = m.dest)))
  | _ => false

/-- STORE_DATA (R216, R220): a line reaches its controller; once its parity line is written too, over the ring, it is
acknowledged. -/
def execStoreData (stack : BitVec 4) (rc : Nat) (bad : FlitBad) (s : State) : Host.Outcome State Fault Refusal :=
  match s.takeMsg .qreq rc (fun m => m.storeFor stack.toNat) with
  | some (m, s1) =>
    .next (s1.deliver m rc bad (fun s => match m.msg with
      | .storeData entry a l epoch =>
        if s.mayReach m.tag a = false then
          s.destFault m.dest (portFault 0x06 m.tag m.dest (4 + m.port) (s.cycleAt rc) (tagDetail m.tag true))
        else
          ((s.setMemLine a l).queueBytes (stackOf a)).sendMsg m.dest m.src 0 m.tag
            (s.now rc + ringCycles (stackOf a) (parityStack a)) (.storeAck entry epoch)
      | _ => s))
  | none => .next s

/-- STORE_ACKNOWLEDGE (R161, R187, R193, R194). -/
def execStoreAcknowledge (tile : TileNo) (rc : Nat) (bad : FlitBad) (s : State) : Host.Outcome State Fault Refusal :=
  match s.takeMsg .qresp rc (fun m => m.isFor tile.toNat 0 && decide (m.msg.op = 0x13)) with
  | some (m, s1) =>
    .next (s1.deliver m rc bad (fun s => match m.msg with
      | .storeAck n epoch =>
        let t := s.tile tile.toNat
        let e := t.storeE n
        if e.st ≠ .issued ∨ e.epoch ≠ epoch then s
        else
          let e1 := if e.lines ≤ e.acked + 1 then { e with acked := e.acked + 1, st := .complete, doneAt := s.now rc }
            else { e with acked := e.acked + 1 }
          (s.setTile tile.toNat { t with stores := SMap.set t.stores {} n e1 }).resume rc
      | _ => s))
  | none => .next s

/-- STACK_FAILED (R218): training failed, a channel stopped, or too many uncorrectable words. -/
def execStackFailed (stack : BitVec 4) (_reason : BitVec 2) (s : State) : Host.Outcome State Fault Refusal :=
  .next (s.failStack stack.toNat)

/-- A granule overwritten with zeros under the firmware key: its written lines and their parity (R216, R222). -/
def State.zeroGranule (s : State) (g : Nat) : State :=
  let mine := fun (l : Nat) => decide (l / 8388608 = g)
  { s with mem := { s.mem with
    data := Cells.clear s.mem.data (1073741824 * g) 1073741824
    written := s.mem.written.filter (fun l => !mine l)
    parity := (s.mem.written.filter mine).foldl (fun m l =>
      parityAdd m (parityPlace l) (s.cipherLine l ^^^ Config.cipher s.fwKey l 0)) s.mem.parity
    gkeys := SMap.drop s.mem.gkeys g, lost := s.mem.lost.filter (fun l => !mine l) } }

/-- GRANULE_ZEROING_END (R222, R246): a freed granule holds zeros and may be tagged again; a Closing partition may become Free. -/
def execGranuleZeroingEnd (granule : BitVec 10) (s : State) : Host.Outcome State Fault Refusal :=
  let g := granule.toNat
  if s.mem.zeroing.contains g then
    let s1 := (s.updMem (fun m => { m with zeroing := m.zeroing.filter (fun n => decide (n ≠ g)) })).zeroGranule g
    .next ((s1.parts.filter (fun x => decide (x.2.st = .closing))).foldl (fun t x => t.tryFreePart x.1) s1)
  else .next s

end Sys2Proof.Machine
end

