-- ==== Sys2Proof/Machine/Engines.lean ====
section
/-! DEFINITION. Generation and prompt engines: jobs, attention, appends (R224-R238, R241). -/

namespace Sys2Proof.Machine

/-! ## Descriptors (R232, R237) -/

/-- A fault at an engine's port. -/
def engineFault (code : BitVec 8) (tag : Tag) (e cycle : Nat) (detail : BitVec 32) : FaultInfo :=
  portFault code tag (engineRouter e) (if e < 16 then 6 else 5) cycle detail

/-- Head dimension of a stream. -/
def Ctx.hd (c : Ctx) : Nat := if c.hdim then 256 else 128
/-- Bursts of a key or a value. -/
def Ctx.bursts (c : Ctx) : Nat := if c.hdim then 2 else 1
/-- Entries of a page (R224). -/
def Ctx.perPage (c : Ctx) : Nat := if c.hdim then 31 else 63

/-- The job that a descriptor names (R232, R237). -/
def jobOf (prompt : Bool) (tag : Tag) (xfer : BitVec 8) (d : Line) : Job :=
  let f := fun (lo w : Nat) => (d.toNat >>> lo) % 2 ^ w
  if prompt then
    { op := f 252 4, tag := tag, stream := f 219 33, n := f 206 13 + 1, g := f 200 6 + 1, scale := BitVec.ofNat 32 (f 168 32),
      window := f 145 23, qpos := f 122 23, rslot := f 46 10, qaddr := f 89 33, raddr := f 56 33, xfer := xfer, slots := [],
      input := [], void := false, bad := false }
  else
    { op := f 252 4, tag := tag, stream := f 219 33, n := f 214 5 + 1, g := f 208 6 + 1, scale := BitVec.ofNat 32 (f 176 32),
      window := f 153 23, qpos := f 130 23, rslot := f 120 10, qaddr := 0, raddr := 0, xfer := xfer, slots := [], input := [],
      void := false, bad := false }

/-- Bursts that a job's input holds. -/
def Job.inBursts (j : Job) (c : Ctx) : Nat :=
  if j.op = 1 then j.n * j.g * c.bursts else if j.op = 3 then j.n * c.bursts else 2 * j.n * c.bursts

/-- Input lines of a generation-engine job: element blocks, headers 8 to a line, the descriptor (R232). -/
def Job.inLines (j : Job) (c : Ctx) : Nat := j.inBursts c + (j.inBursts c + 7) / 8 + 1

/-- Result lines of a row (R235). -/
def Ctx.rowLines (c : Ctx) : Nat := c.hd / 32 + 1

/-- The descriptor is well formed (R232, R237, R238). -/
def descOk (prompt : Bool) (d : Line) (j : Job) (c : Ctx) (slot : Nat) : Bool :=
  decide (d.toNat / 2 ^ 256 = 0) &&
    (if prompt then
      decide (d.toNat % 2 ^ 46 = 0 ∧ j.rslot < 64) &&
        (if j.op = 3 then decide (j.n % j.g = 0 ∧ j.n ≤ if c.hdim then 4096 else 8192)
         else decide (j.op = 4 ∧ j.n ≤ 4096))
    else
      decide (d.toNat % 2 ^ 120 = 0 ∧ j.inLines c ≤ slot + 1 ∧ j.inLines c ≤ 1024) &&
        (if j.op = 1 then decide (j.n ≤ 17 ∧ j.rslot + j.n * j.g * c.rowLines ≤ 1024)
         else decide (j.op = 2 ∧ j.n ≤ 32 ∧ j.g = 1 ∧ j.scale = 0 ∧ j.rslot < 1024)))

/-- Jobs that may wait at an engine (R232, R237). -/
def waitLimit (e : Nat) : Nat := if e < 16 then 8 else 4

/-- A descriptor lands at engine `e` in input slot `slot` (R232, R237): slot collision, malformed descriptor, stream tag and
state, the number of waiting jobs; then the job waits. -/
def State.descLand (s : State) (e slot : Nat) (tag : Tag) (xfer : BitVec 8) (d : Line) (rc : Nat) : State :=
  let prompt := decide (16 ≤ e)
  let j := jobOf prompt tag xfer d
  let c := s.ctxAt j.stream
  let x := s.engine e
  let flt := fun (code : BitVec 8) (detail : BitVec 32) => engineFault code tag e (s.cycleAt rc) detail
  if slotsOf e ≤ slot then s.destFault (engineRouter e) (flt 0x06 (tagDetail tag true))
  else if e < 16 ∧ (s.stack e).st = 2 then s
  else
    match x.waiting.find? (fun k => k.slots.contains slot) with
    | some k =>
      s.collision (flt 0x02 (ownerDetail k.tag k.xfer) :: (if Tag.isPart k.tag ∧ k.tag ≠ tag then
        [{ flt 0x02 (ownerDetail tag xfer) with tag := k.tag }] else []))
    | none =>
      let n := if prompt then 1 else j.inLines c
      let slots := if n ≤ slot + 1 then (List.range n).map (fun k => slot + 1 - n + k) else [slot]
      let release := fun (t : State) => t.updEngine e (fun y => { y with
        slots := y.slots.filter (fun v => !slots.contains v.1 || y.holds v.1) })
      if descOk prompt d j c slot = false then (release s).fault (flt 0x01 (d.extractLsb' 224 32))
      else if c.tag ≠ tag ∨ c.st ≠ 1 then (release s).fault (flt 0x06 (tagDetail tag true))
      else if waitLimit e ≤ x.waiting.length then
        (release s).collision [flt 0x02 (match x.waiting.head? with | some k => ownerDetail k.tag k.xfer | none => ownerDetail 0xFE 0)]
      else s.updEngine e (fun y => { y with
        slots := SMap.set y.slots (0, 0) slot (d, tag), waiting := y.waiting ++ [{ j with slots := slots }] })

/-- ATTEND (R232, R234). -/
def execAttend (engine : BitVec 4) (slot : BitVec 10) (tag : Tag) (xfer : BitVec 8) (desc : Line) (rc : Nat) (s : State) :
    Host.Outcome State Fault Refusal := .next (s.descLand engine.toNat slot.toNat tag xfer desc rc)

/-- APPEND (R230, R232). -/
def execAppend (engine : BitVec 4) (slot : BitVec 10) (tag : Tag) (xfer : BitVec 8) (desc : Line) (rc : Nat) (s : State) :
    Host.Outcome State Fault Refusal := .next (s.descLand engine.toNat slot.toNat tag xfer desc rc)

/-- CHUNK_ATTEND (R237, R238). -/
def execChunkAttend (engine : BitVec 3) (slot : BitVec 6) (tag : Tag) (xfer : BitVec 8) (desc : Line) (rc : Nat) (s : State) :
    Host.Outcome State Fault Refusal := .next (s.descLand (16 + engine.toNat) slot.toNat tag xfer desc rc)

/-- BULK_APPEND (R237, R238). -/
def execBulkAppend (engine : BitVec 3) (slot : BitVec 6) (tag : Tag) (xfer : BitVec 8) (desc : Line) (rc : Nat) (s : State) :
    Host.Outcome State Fault Refusal := .next (s.descLand (16 + engine.toNat) slot.toNat tag xfer desc rc)

/-! ## Bursts of a job -/

/-- A UX8 burst with its exponent. -/
structure KvBurst where
  exp  : Nat
  vals : List Int
deriving DecidableEq, Repr

/-- UX8 element values of a line. -/
def ux8Vals (l : Line) : List Int := (List.range 128).map (fun k => (l.extractLsb' (8 * k) 8).toInt)

/-- The header of burst `k` after `n` element blocks. -/
def inHdr (input : List Line) (n k : Nat) : BurstHdr :=
  hdrOf ((input.getD (n + k / 8) 0).extractLsb' (128 * (k % 8)) 128)

/-- Burst `k` of a job's input of `n` bursts. -/
def inBurst (input : List Line) (n k : Nat) : KvBurst := ⟨(inHdr input n k).exp, ux8Vals (input.getD k 0)⟩

/-- Every burst of a job's input agrees with the RES of its header (R236). -/
def inputOk (input : List Line) (n : Nat) : Bool :=
  (List.range n).all (fun k => decide ((inHdr input n k).res = burstRes (ux8Vals (input.getD k 0))))

/-- The router from which an engine's stack lines are queue traffic: a prompt engine's (R237); a generation engine reads its own stack. -/
def queueAt (e : Nat) : Option Nat := if e < 16 then none else some (engineRouter e)

/-- A line that an engine may not use: fault 0x13 with the line (R205, R217). -/
def poisonedLine (e : Nat) (tag : Tag) (cycle l : Nat) : FaultInfo := engineFault 0x13 tag e cycle (BitVec.ofNat 32 l)

/-- ENGINE_JOB_START (R217, R232, R236, R237): the oldest waiting job starts and copies its slots, or a prompt engine reads its rows
into its local buffer; a wrong RES or poisoned data abort the step and leave the job without results. -/
def execEngineJobStart (unit : Fin 24) (rc : Nat) (errs : StackErrs) (s : State) : Host.Outcome State Fault Refusal :=
  let e := unit.val
  let x := s.engine e
  match x.running, x.waiting with
  | none, j :: rest =>
    let c := s.ctxAt j.stream
    let n := j.inBursts c
    let slots := x.slots.filter (fun v => !j.slots.contains v.1)
    if j.void then .next (s.updEngine e (fun y => { y with waiting := rest, slots := slots }))
    else
      let at_ := if e < 16 then [] else (List.range (n + (n + 7) / 8)).map (fun k => j.qaddr + k)
      let lines := if e < 16 then j.slots.map (fun k => (SMap.get x.slots (0, 0) k).1) else at_.map (fun a => s.readMem a)
      let run := fun (t : State) (bad : Bool) => t.updEngine e (fun y =>
        { y with waiting := rest, slots := slots, buffer := if e < 16 then [] else lines,
                 running := some { j with input := if e < 16 then lines else [], bad := bad } })
      let flt := fun (code : BitVec 8) (d : BitVec 32) => engineFault code j.tag e (s.cycleAt rc) d
      if at_.all (fun a => s.mayReach j.tag a) = false then .next ((run s true).fault (flt 0x06 (tagDetail j.tag false)))
      else
        let (s1, ok) := s.fetchLines (queueAt e) j.tag rc (poisonedLine e j.tag (s.cycleAt rc)) at_ errs
        if ok = false then .next (run s1 true)
        else if inputOk lines n = false then .next ((run s1 true).fault (flt 0x12 0))
        else .next (run s1 false)
  | _, _ => .next s

/-! ## Pages (R224, R225, R227) -/

/-- The line of the page table that holds the entry of a page: 32 entries to a line (R227). -/
def Ctx.tableLine (c : Ctx) (page : Nat) : Nat := c.ptAddr.toNat + page / 32

/-- The first line of a page; none where its page-table entry has VALID 0 or the page lies beyond MAXPAGES (R227). -/
def State.pageLine (s : State) (c : Ctx) (page : Nat) : Option Nat :=
  let w := Line.w32 (s.readMem (c.tableLine page)) (page % 32)
  if c.maxPages.toNat ≤ page ∨ w.getLsbD 31 = false then none else some (128 * (w.extractLsb' 0 26).toNat)

/-- The page-table entry of a page written: VALID and its chunk (R227). -/
def State.setPage (s : State) (c : Ctx) (page chunk : Nat) : State :=
  let l := c.tableLine page
  s.setMemLine l (lineOfWords ((wordsOfLine (s.readMem l)).set (page % 32) ((1 : BitVec 1) ++ (0 : BitVec 5) ++ BitVec.ofNat 26 chunk)))

/-- A stream descriptor as it stands in the partition's stack space (R226). -/
def Ctx.word (c : Ctx) : BitVec 256 :=
  c.cdigest ++ (0 : BitVec 3) ++ c.tag ++ c.account ++ c.layer ++ c.head ++ c.st ++ BitVec.ofBool c.hdim ++ (0 : BitVec 9) ++ c.maxPages
    ++ c.pages ++ c.committed ++ c.mirror ++ c.ptAddr ++ (0 : BitVec 43)

/-- Firmware writes a stream's descriptor: the fields it keeps and the line of stack space (R226). -/
def State.updDesc (s : State) (key : Nat) (f : Ctx → Ctx) : State :=
  let t := s.updCtx key f
  t.setMemLine key ((t.ctxAt key).word.setWidth 1024)

/-- Byte `i` of a page's side block. -/
def State.sideByte (s : State) (line i : Nat) : Nat :=
  ((s.readMem (line + i / 128)).extractLsb' (8 * (i % 128)) 8).toNat

/-- The stored form of slot `i` of a page: key bursts and value bursts with their side bytes EXP and RES. -/
def State.slotBursts (s : State) (c : Ctx) (line i : Nat) : List (KvBurst × Nat) :=
  let b := c.bursts
  (List.range (2 * b)).map (fun k =>
    (⟨s.sideByte line (4 * b * i + 2 * k), ux8Vals (s.readMem (line + 2 + 2 * b * i + k))⟩,
     s.sideByte line (4 * b * i + 2 * k + 1)))

/-- The engine of a page: (page + S0) mod 16 (R224). -/
def Ctx.engineOf (c : Ctx) (page : Nat) : Nat := (page + c.s0) % 16

/-! ## Attention (R234, R235) -/

/-- The exact score of a query and a key over their bursts: an integer times a power of two for each burst pair, summed. -/
def scoreVal (q k : List KvBurst) : FVal :=
  (List.zip q k).foldl (fun acc p =>
    let d := (List.zipWith (fun a b => a * b) p.1.vals p.2.vals).sum
    let term : FVal := if p.1.exp = 255 ∨ p.2.exp = 255 then .nan
      else .fin (decide (d < 0)) d.natAbs ((p.1.exp : Int) + p.2.exp - 254)
    fvAdd acc term) (.fin false 0 0)

/-- Running result of a row: m, l and o. -/
structure RowAcc where
  m : W32
  l : W32
  o : List W32
  n : Nat
deriving DecidableEq, Repr

/-- Two sums of a fixed slot-order tree; a masked slot adds nothing (log entry 16). -/
def treeAdd : Option W32 → Option W32 → Option W32
  | some a, some b => some (f32Add a b)
  | some a, none => some a
  | none, b => b

/-- A reduction in a fixed tree over slot numbers, whose shape the number of slots alone decides (R234). -/
def slotTree : Nat → List (Option W32) → Option W32
  | 0, l => l.headD none
  | n + 1, l =>
    if l.length ≤ 1 then l.headD none
    else
      let k := 1 + Config.pageSplit l.length % (l.length - 1)
      treeAdd (slotTree n (l.take k)) (slotTree n (l.drop k))

/-- The larger of two scores. -/
def scoreMax (l : List W32) : W32 := l.tail.foldl (fun a b => f32MinMax true a b) (l.headD 0xFF800000)

/-- Steps 4 and 5 of R234 for one page: `slots` are its slots in order, an unmasked one with its score and its value. -/
def RowAcc.page (a : RowAcc) (hd : Nat) (slots : List (Option (W32 × List W32))) : RowAcc :=
  let terms := slots.filterMap id
  if terms.isEmpty then a
  else
    let mp := scoreMax (terms.map (fun t => t.1))
    let p := slots.map (fun t => t.map (fun x => (f32Fn .exp (f32Sub x.1 mp), x.2)))
    let lp := (slotTree 64 (p.map (fun t => t.map (fun x => x.1)))).getD 0
    let op := (List.range hd).map (fun d => (slotTree 64 (p.map (fun t => t.map (fun x => f32Mul x.1 (x.2.getD d 0))))).getD 0)
    let m' := f32MinMax true a.m mp
    let r := f32Fn .exp (f32Sub a.m m')
    let rp := f32Fn .exp (f32Sub mp m')
    { m := m', l := f32Add (f32Mul a.l r) (f32Mul lp rp),
      o := List.zipWith (fun x y => f32Add (f32Mul x r) (f32Mul y rp)) a.o op, n := a.n + terms.length }

/-- A position is unmasked for the query at `pos` (R234 step 3). -/
def visible (pos window t : Nat) : Bool := decide (t ≤ pos) && (decide (window = 0) || decide (pos + 1 ≤ t + window))

/-- Values of an entry dequantised exactly. -/
def valueOf (b : List KvBurst) : List W32 := (b.map (fun k => k.vals.map (fun v => fvToF32 (burstElem k.exp v)))).flatten

/-- Positions of a page. -/
def Ctx.pagePositions (c : Ctx) (page : Nat) : List Nat := (List.range c.perPage).map (fun i => page * c.perPage + i)

/-- One row over the pages given (R234). -/
def State.attendRow (s : State) (c : Ctx) (pages : List Nat) (q : List KvBurst) (scale : W32) (pos window : Nat) : RowAcc :=
  pages.foldl (fun a page =>
    match s.pageLine c page with
    | none => a
    | some line =>
      a.page c.hd ((c.pagePositions page).zipIdx.map (fun x =>
        if visible pos window x.1 then
          let b := (s.slotBursts c line x.2).map (fun k => k.1)
          some (f32Mul (fvToF32 (scoreVal q (b.take c.bursts))) scale, valueOf (b.drop c.bursts))
        else none)))
    { m := 0xFF800000, l := 0, o := List.replicate c.hd 0, n := 0 }

/-- The result lines of a row (R235). -/
def RowAcc.lines (a : RowAcc) (hd engine : Nat) : List Line :=
  (List.range (hd / 32)).map (fun k => lineOfWords ((a.o.drop (32 * k)).take 32))
    ++ [lineOfWords [a.m, a.l, BitVec.ofNat 32 a.n, BitVec.ofNat 32 engine]]

/-- Pages that hold positions a job can see. -/
def Job.pages (j : Job) (c : Ctx) : List Nat :=
  let rows := if j.op = 3 then j.n / j.g else j.n
  List.range ((j.qpos + rows - 1) / c.perPage + 1)

/-- What a job may not read: an unmapped page, a page of another partition's granule (R220, R227). -/
def State.pageBad (s : State) (c : Ctx) (page : Nat) : Bool :=
  match s.pageLine c page with
  | none => true
  | some line => !s.mayReach c.tag line

/-- A page's bursts and FILL hold what the job reads (R236): every slot up to the last visible position. -/
def State.pageSound (s : State) (c : Ctx) (page last : Nat) : Bool :=
  match s.pageLine c page with
  | none => false
  | some line =>
    let n := min c.perPage (last + 1 - page * c.perPage)
    decide (n ≤ s.sideByte line 252) && (List.range n).all (fun i =>
      (s.slotBursts c line i).all (fun b => decide (b.2 = burstRes b.1.vals)))

/-- The rows of a job over some pages, as result lines in row order. -/
def State.rowsOf (s : State) (j : Job) (c : Ctx) (pages : List Nat) (engine : Nat) : List Line :=
  let rows := if j.op = 3 then j.n else j.n * j.g
  let nb := j.inBursts c
  ((List.range rows).map (fun r =>
    let q := (List.range c.bursts).map (fun k => inBurst j.input nb (r * c.bursts + k))
    (s.attendRow c pages q j.scale (j.qpos + r / j.g) j.window).lines c.hd engine)).flatten

/-! ## Results -/

/-- Result lines written to an engine's buffer; a line whose flag is still set raises fault 0x02 (R233). -/
def State.putResults (s : State) (e cycle : Nat) (j : Job) (ls : List Line) : State :=
  let x := s.engine e
  match (List.range ls.length).find? (fun k => x.results.any (fun r => decide (r.1 = j.rslot + k))) with
  | some k =>
    let owner := SMap.get x.results ⟨0xFE, 0, 0⟩ (j.rslot + k)
    s.collision [engineFault 0x02 j.tag e cycle (ownerDetail owner.tag owner.xfer)]
  | none =>
    s.updEngine e (fun y => { y with
      results := ls.zipIdx.foldl (fun m v => SMap.put (SMap.drop m (j.rslot + v.2)) (j.rslot + v.2) ⟨j.tag, j.xfer, v.1⟩) y.results })

/-! ## Appends (R225, R229, R230) -/

/-- The stored form of an entry as 32-bit words: element bytes in line order, then side bytes (R229). -/
def entryWords (bursts : List (Line × BurstHdr)) : EntryWords :=
  let side := (bursts.map (fun b => [BitVec.ofNat 8 b.2.exp, BitVec.ofNat 8 b.2.res])).flatten
  (bursts.map (fun b => wordsOfLine b.1)).flatten ++
    (List.range (side.length / 4)).map (fun i => BitVec.ofNat 32 (natOfBytes ((side.drop (4 * i)).take 4)))

/-- The RES bytes of a stored entry of `b` bursts a key agree with its bursts (R68, R229). -/
def entryResOk (b : Nat) (ws : EntryWords) : Bool :=
  let side := ((ws.drop (64 * b)).map (fun w => bytesOfNat 4 w.toNat)).flatten
  (List.range (2 * b)).all (fun k =>
    decide ((side.getD (2 * k + 1) 0).toNat = burstRes (ux8Vals (lineOfWords ((ws.drop (32 * k)).take 32)))))

/-- Every entry's RES holds. -/
def entriesOk (hdim : Bool) (es : List EntryWords) : Bool := es.all (entryResOk (if hdim then 2 else 1))

/-- e(t) of R229. -/
def entryDigest (ws : EntryWords) (t : Nat) : Nat :=
  mod61 ((ws.zipIdx.map (fun w => (w.1.toNat : Int) * ((digX ^ (w.2 + 1) % m61 : Nat) : Int))).sum
    + (t : Int) * ((digX ^ (ws.length + 1) % m61 : Nat) : Int))

/-- An entry's words written into its slot of a page, and FILL raised (R225). -/
def State.writeEntry (s : State) (c : Ctx) (line slot : Nat) (ws : EntryWords) : State :=
  let nb := 2 * c.bursts
  let s1 := (List.range nb).foldl (fun t k =>
    t.setMemLine (line + 2 + nb * slot + k) (lineOfWords ((ws.drop (32 * k)).take 32))) s
  let side := ((ws.drop (32 * nb)).map (fun w => bytesOfNat 4 w.toNat)).flatten
  let old := bytesOfLine (s1.readMem line) ++ bytesOfLine (s1.readMem (line + 1))
  let at_ := 2 * nb * slot
  let new := old.zipIdx.map (fun b =>
    if at_ ≤ b.2 ∧ b.2 < at_ + side.length then side.getD (b.2 - at_) 0
    else if b.2 = 252 then BitVec.ofNat 8 (max b.1.toNat (slot + 1)) else b.1)
  (s1.setMemLine line (lineOfBytes (new.take 128))).setMemLine (line + 1) (lineOfBytes (new.drop 128))

/-- Consecutive entries written from a position into a stream's pages, pages of one engine only where `only` names it. -/
def State.writeEntries (s : State) (c : Ctx) (pos : Nat) (es : List EntryWords) (only : Option Nat) : State :=
  es.zipIdx.foldl (fun t x =>
    let p := (pos + x.2) / c.perPage
    if only.isSome ∧ only ≠ some (c.engineOf p) then t
    else match t.pageLine c p with
      | none => t
      | some line => t.writeEntry c line ((pos + x.2) % c.perPage) x.1) s

/-- The entries of an append job. -/
def Job.entries (j : Job) (c : Ctx) : List EntryWords :=
  let nb := 2 * c.bursts
  let all := j.inBursts c
  (List.range j.n).map (fun k => entryWords ((List.range nb).map (fun b =>
    (j.input.getD (nb * k + b) 0, inHdr j.input all (nb * k + b)))))

/-- The stream number that a mirror of this stream carries: the descriptor's place in the partition (R226, R230). -/
def State.streamNo (s : State) (c : Ctx) : Nat :=
  ((s.part c.tag.toNat).ctx.findIdx? (fun x => decide (x.1 = c.layer ∧ x.2.1 = c.head))).getD 0

/-- An append lies within the tail's bounds (R230). -/
def Job.inTail (j : Job) (c : Ctx) : Bool :=
  decide (c.committed.toNat ≤ j.qpos ∧ j.qpos + j.n ≤ c.committed.toNat + 4096)

/-- The pages that an append at engine `e` writes: a generation engine's own, or all at a prompt engine (R224). -/
def Job.writePages (j : Job) (c : Ctx) (e : Nat) : List Nat :=
  (((List.range j.n).map (fun k => (j.qpos + k) / c.perPage)).dedup).filter (fun p => decide (16 ≤ e ∨ c.engineOf p = e))

/-- The lines that an append reads: for each page its entry of the page table and the two lines of its side block (R225, R227). -/
def State.appendReads (s : State) (j : Job) (c : Ctx) (e : Nat) : List Nat :=
  (j.writePages c e).flatMap (fun p => c.tableLine p :: (match s.pageLine c p with | some l => [l, l + 1] | none => []))

/-- The lines that an append writes: the element lines of its entries and the side blocks of its pages (R225, R242). -/
def State.appendWrites (s : State) (j : Job) (c : Ctx) (e : Nat) : List Nat :=
  (j.writePages c e).flatMap (fun p => match s.pageLine c p with
    | some l => l :: (l + 1) :: ((List.range j.n).filter (fun k => decide ((j.qpos + k) / c.perPage = p))).flatMap (fun k =>
        (List.range (2 * c.bursts)).map (fun b => l + 2 + 2 * c.bursts * ((j.qpos + k) % c.perPage) + b))
    | none => [])

/-- Every page an append writes is mapped and the partition's own (R227). -/
def State.mapped (s : State) (j : Job) (c : Ctx) : Bool :=
  (List.range j.n).all (fun k => !s.pageBad c ((j.qpos + k) / c.perPage))

/-- What an append reads and, at a prompt engine, writes as queue traffic moves (R217, R236, R242): the state, and whether everything
arrives; poisoned data end it. -/
def State.appendTraffic (s : State) (e rc : Nat) (j : Job) (c : Ctx) (errs : StackErrs) : State × Bool :=
  let reads := s.appendReads j c e
  let s0 := if e < 16 then s.updStack e (fun x => { x with engBytes := x.engBytes + 128 * reads.length }) else s
  let (s1, ok) := s0.fetchLines (queueAt e) j.tag rc (poisonedLine e j.tag (s.cycleAt rc)) reads errs
  match queueAt e with
  | some a => if ok then s1.moveLines a j.tag rc (s1.appendWrites j c e) errs else (s1, false)
  | none => (s1, ok)

/-- The entries that an append gives page `p`, for the partner: mirror entries of an own stream; what is appended to the mirror of a
covered device's stream goes to that device, once it has returned, as entries of its own stream (R230, R274). -/
def State.entriesMsg (s : State) (j : Job) (c : Ctx) (p : Nat) : LinkMsg :=
  let mine := (j.entries c).zipIdx.filter (fun x => decide ((j.qpos + x.2) / c.perPage = p))
  let part : PartNo := BitVec.ofNat 7 j.tag.toNat
  let pos : BitVec 23 := BitVec.ofNat 23 (j.qpos + (mine.head?.map (fun x => x.2)).getD 0)
  let es := mine.map (fun x => x.1)
  if c.mirror = 0 then
    .mirror { part := part, account := slotNo c.account.toNat, layer := c.layer, head := c.head, hdim := c.hdim,
              streamNo := BitVec.ofNat 12 (s.streamNo c), pos := pos, entries := es }
  else
    .pages { part := part, account := slotNo c.account.toNat, layer := c.layer, head := c.head, hdim := c.hdim, firstPos := pos,
             entries := es, last := none, index := 0, streams := 1, answer := none }

/-- An append within the tail and its pages: written, its digests added, its entries sent to the partner's mirror, page by page (R229,
R230). -/
def State.append (s : State) (e : Nat) (j : Job) (c : Ctx) : State :=
  let es := j.entries c
  let only := if e < 16 then some e else none
  let mine := (es.zipIdx.filter (fun x => decide (only = none ∨ only = some (c.engineOf ((j.qpos + x.2) / c.perPage)))))
  let dig := (mine.map (fun x => (entryDigest x.1 (j.qpos + x.2) : Int))).sum
  let s1 := (s.writeEntries c j.qpos es only).updCtx j.stream (fun x => { x with
    pendDig := BitVec.ofNat 61 (mod61 ((x.pendDig.toNat : Int) + dig)), lag := if s.ledger.mode = 1 then x.lag else x.lag + mine.length,
    written := max x.written (j.qpos + j.n) })
  (j.writePages c e).foldl (fun t p => t.sendOn 0 (s.entriesMsg j c p)) s1

/-- Stores of a prompt engine's results to the stacks (R237, R238). -/
def State.storeRows (s : State) (a : Nat) (ls : List Line) : State :=
  ls.zipIdx.foldl (fun t x => t.setMemLine (a + x.2) x.1) s

/-- The lines that a job reads of a page: its entry of the page table and the page (R225, R227). -/
def State.pageReads (s : State) (c : Ctx) (page : Nat) : List Nat :=
  c.tableLine page :: (match s.pageLine c page with | some l => (List.range 128).map (fun k => l + k) | none => [])

/-- Attention partials leave a context-store device over a link for the tile lines of the device that merges them (R240). -/
def State.sendPartials (s : State) (j : Job) (ls : List Line) (ret : Option (LinkNo × TileNo × BitVec 12)) : State :=
  match ret with
  | none => s
  | some (l, tile, line) => s.sendOn l.val (.partials { tile := tile, line := line, lines := ls, tag := j.tag })

/-- What an attend that was started and not aborted leaves behind (R234-R238). -/
def State.finishAttend (s : State) (e rc : Nat) (j : Job) (cycles : Nat) (errs : StackErrs)
    (ret : Option (LinkNo × TileNo × BitVec 12)) : State :=
  let c := s.ctxAt j.stream
  let cycle := s.cycleAt rc
  let all := j.pages c
  let last := j.qpos + (if j.op = 3 then j.n / j.g else j.n) - 1
  let pages := if j.op = 1 then all.filter (fun p => decide (c.engineOf p = e)) else all
  let flt := fun (code : BitVec 8) (d : BitVec 32) => engineFault code j.tag e cycle d
  let s1 := s.updPart j.tag.toNat (fun p => { p with attends := p.attends + 1 })
  if pages.any (fun p => s.pageBad c p) then s1.fault (flt 0x06 (tagDetail j.tag false))
  else
    let reads := (pages.map (fun p => s.pageReads c p)).flatten
    let (s2, ok) := (if j.op = 1 then s1.updStack e (fun x => { x with engBytes := x.engBytes + 128 * reads.length }) else s1).fetchLines
      (queueAt e) j.tag rc (poisonedLine e j.tag cycle) reads errs
    if ok = false then s2
    else if pages.all (fun p => s.pageSound c p last) = false then s2.fault (flt 0x12 0)
    else
      let ls := s.rowsOf j c pages e
      let out := (List.range ls.length).map (fun k => j.raddr + k)
      if j.op = 1 then (s2.putResults e cycle j ls).sendPartials j ls ret
      else if out.all (fun a => s.mayReach j.tag a) = false then s2.fault (flt 0x06 (tagDetail j.tag true))
      else
        let (s3, arrived) := s2.moveLines (engineRouter e) j.tag rc out errs
        if arrived = false then s3
        else (s3.storeRows j.raddr ls).putResults e cycle j [lineOfWords [BitVec.ofNat 32 j.n, BitVec.ofNat 32 cycles]]

/-- What an append that was started and not aborted leaves behind: refused outside the tail's bounds or its pages (R227, R230, R238). -/
def State.finishAppend (s : State) (e rc : Nat) (j : Job) (cycles : Nat) (errs : StackErrs) : State :=
  let c := s.ctxAt j.stream
  let cycle := s.cycleAt rc
  let flt := engineFault 0x06 j.tag e cycle (tagDetail j.tag true)
  if j.inTail c = false then (s.updPart j.tag.toNat (fun p => { p with refusals := bump32 p.refusals })).fault flt
  else
    let (s1, ok) := s.appendTraffic e rc j c errs
    if s.mapped j c = false then s1.fault flt
    else if ok = false then s1
    else
      (s1.append e j c).putResults e cycle j
        [lineOfWords [BitVec.ofNat 32 j.n, if e < 16 then c.committed.setWidth 32 else BitVec.ofNat 32 cycles]]

/-- What a job that was started and not aborted leaves behind (R230, R234-R238). -/
def State.finishJob (s : State) (e rc : Nat) (j : Job) (cycles : Nat) (errs : StackErrs)
    (ret : Option (LinkNo × TileNo × BitVec 12)) : State :=
  if j.op = 1 ∨ j.op = 3 then s.finishAttend e rc j cycles errs ret else s.finishAppend e rc j cycles errs

/-- ENGINE_JOB_END (R234-R236, R238, R240, R241, R376): a job of an aborted partition finishes its writes, which lie in the tail, and
leaves no results; a residue or duplication check that fails aborts the step (`upset`). -/
def execEngineJobEnd (unit : Fin 24) (rc cycles : Nat) (errs : StackErrs) (ret : Option (LinkNo × TileNo × BitVec 12))
    (upset : Bool) (s : State) : Host.Outcome State Fault Refusal :=
  let e := unit.val
  let x := s.engine e
  match x.running with
  | none => .next s
  | some k =>
    let j := if e < 16 then k else { k with input := x.buffer }
    let s1 := s.updEngine e (fun x => { x with running := none, buffer := [] })
    let c := s.ctxAt j.stream
    if j.bad then .next s1
    else if j.void then
      if (j.op = 2 ∨ j.op = 4) ∧ (j.inTail c && s.mapped j c) = true then
        let (s2, ok) := s1.appendTraffic e rc j c errs
        .next (if ok then s2.writeEntries c j.qpos (j.entries c) (if e < 16 then some e else none) else s2)
      else .next s1
    else if upset then .next (s1.fault (engineFault 0x12 j.tag e (s.cycleAt rc) 0))
    else .next (s1.finishJob e rc j cycles errs ret)

end Sys2Proof.Machine
end

