-- ==== Sys2Proof/Machine/Context.lean ====
section
/-! DEFINITION. Context streams as firmware keeps them (R224, R226, R227, R229, R230, R254) and the chunks it maps. Which
free chunk firmware takes is its own choice: it takes the lowest one (log entry 18). -/

namespace Sys2Proof.Machine

/-! ## Chunks -/

/-- Chunks of a granule (R215, R219). -/
def granuleChunks : Nat := 65536

/-- Lines of a granule. -/
def granuleLines : Nat := 128 * granuleChunks

/-- A run of chunks given back to a rising list of runs, joined to the runs it touches. -/
def giveRun (q n : Nat) : List (Nat × Nat) → List (Nat × Nat)
  | [] => [(q, n)]
  | r :: t =>
    if q + n < r.1 then (q, n) :: r :: t
    else if q + n = r.1 then (q, n + r.2) :: t
    else if r.1 + r.2 = q then giveRun r.1 (r.2 + n) t
    else r :: giveRun q n t

/-- The chunks of granules as runs (R219, R246). -/
def granuleRuns (gs : List Nat) : List (Nat × Nat) := gs.foldl (fun l g => giveRun (granuleChunks * g) granuleChunks l) []

/-- A run cut out of a run of chunks. -/
def cutRun (r : Nat × Nat) (q n : Nat) : List (Nat × Nat) :=
  [(r.1, q - r.1), (q + n, r.1 + r.2 - (q + n))].filter (fun x => decide (x.2 ≠ 0))

/-- The first chunk of a run that lies on a stack: within two rows of the stripe every stack comes up (R215). -/
def chunkOn (stack : Option Nat) (r : Nat × Nat) : Option Nat :=
  ((List.range (min r.2 45)).map (fun k => r.1 + k)).find? (fun q => decide (stack = none ∨ stack = some (stackOf (128 * q))))

/-- The lowest free chunk on a stack, or on any, and the runs without it. -/
def takeFirst (stack : Option Nat) : List (Nat × Nat) → Option (Nat × List (Nat × Nat))
  | [] => none
  | r :: t =>
    match chunkOn stack r with
    | some q => some (q, cutRun r q 1 ++ t)
    | none => (takeFirst stack t).map (fun x => (x.1, r :: x.2))

/-- The lowest `n` free chunks that follow each other, and the runs without them. -/
def takeLong (n : Nat) : List (Nat × Nat) → Option (Nat × List (Nat × Nat))
  | [] => none
  | r :: t => if n ≤ r.2 then some (r.1, cutRun r r.1 n ++ t) else (takeLong n t).map (fun x => (x.1, r :: x.2))

/-- A chunk of partition `p` taken (R224, R227). -/
def State.takeChunk (s : State) (p : Nat) (stack : Option Nat) : State × Option Nat :=
  match takeFirst stack (s.part p).chunks with
  | none => (s, none)
  | some (q, l) => (s.updPart p (fun x => { x with chunks := l }), some q)

/-- A run of `n` chunks of partition `p` taken. -/
def State.takeRun (s : State) (p n : Nat) : State × Option Nat :=
  match takeLong n (s.part p).chunks with
  | none => (s, none)
  | some (q, l) => (s.updPart p (fun x => { x with chunks := l }), some q)

/-- A run of chunks given back. -/
def State.giveChunks (s : State) (p q n : Nat) : State :=
  if n = 0 ∨ (s.part p).granules.contains (q / granuleChunks) = false then s else s.updPart p (fun x => { x with chunks := giveRun q n x.chunks })

/-! ## Entries -/

/-- The stored form of the entry at slot `i` of a page. -/
def State.entryAt (s : State) (c : Ctx) (line i : Nat) : EntryWords :=
  let nb := 2 * c.bursts
  let side := (List.range (2 * nb)).map (fun k => BitVec.ofNat 8 (s.sideByte line (2 * nb * i + k)))
  ((List.range nb).map (fun k => wordsOfLine (s.readMem (line + 2 + nb * i + k)))).flatten ++
    (List.range (side.length / 4)).map (fun k => BitVec.ofNat 32 (natOfBytes ((side.drop (4 * k)).take 4)))

/-- The entry at a position. -/
def State.entryPos (s : State) (c : Ctx) (t : Nat) : Option EntryWords :=
  (s.pageLine c (t / c.perPage)).map (fun line => s.entryAt c line (t % c.perPage))

/-- The sum of the entry digests of positions `a` to `b - 1` (R229, R230). -/
def State.digestSum (s : State) (c : Ctx) (a b : Nat) : Nat :=
  mod61 (((List.range (b - a)).map (fun k =>
    match s.entryPos c (a + k) with
    | some ws => (entryDigest ws (a + k) : Int)
    | none => 0)).sum)

/-! ## Streams -/

/-- Keys of the streams of an account of a partition, own ones or mirrors. -/
def State.ctxKeys (s : State) (p a : Nat) (mirror : Bool) : List Nat :=
  (s.mem.ctx.filter (fun x => decide (x.2.tag.toNat = p ∧ x.2.account.toNat = a ∧ (x.2.mirror ≠ 0) = mirror))).map
    (fun x => x.1)

/-- Pages of a stream that hold positions up to COMMITTED + 4,095 (R227). -/
def Ctx.wantPages (c : Ctx) : Nat := min ((c.committed.toNat + 4095) / c.perPage + 1) c.maxPages.toNat

/-- Pages mapped up to `n`, each on its stack (R224), zero-filled (R222, R225), with its page-table entry (R227). -/
def State.mapPages (s : State) (key : Nat) : Nat → State
  | 0 => s
  | n + 1 =>
    let s1 := s.mapPages key n
    let c := s1.ctxAt key
    if (s1.pageLine c n).isSome then s1
    else
      match s1.takeChunk c.tag.toNat (some ((n + c.s0) % 16)) with
      | (s2, none) => s2
      | (s2, some q) => ((s2.zeroLines (128 * q) 128).setPage c n q).updDesc key (fun c => { c with pages := c.pages + 1 })

/-- Firmware keeps a stream mapped ahead of its committed positions (R227). -/
def State.mapAhead (s : State) (key : Nat) : State := s.mapPages key (s.ctxAt key).wantPages

/-- A line for a new descriptor, 128 of them to a chunk, which is zero-filled first (R222, R226). -/
def State.descLine (s : State) (p : Nat) : State × Option Nat :=
  match (s.part p).descs with
  | l :: t => (s.updPart p (fun x => { x with descs := t }), some l)
  | [] =>
    match s.takeChunk p none with
    | (s1, none) => (s1, none)
    | (s1, some q) =>
      ((s1.zeroLines (128 * q) 128).updPart p (fun x => { x with descs := (List.range 127).map (fun k => 128 * q + 1 + k) }),
       some (128 * q))

/-- Ceiling of an account's pages (R228). -/
def maxPagesOf (hdim : Bool) : BitVec 18 := if hdim then 135301 else 66577

/-- Chunks of a stream's page table: 32 entries to a line (R227). -/
def tableChunks (hdim : Bool) : Nat := ((maxPagesOf hdim).toNat + 4095) / 4096

/-- A context stream of an account opened on this device: its descriptor and its page table, zero-filled, and the first pages (R222,
R224, R226, R227, R254); `mirror` as MIRROR of R226. -/
def State.openCtx (s : State) (p a : Nat) (layer : BitVec 10) (head : BitVec 6) (hdim : Bool) (mirror : BitVec 13) :
    State × Option Nat :=
  match s.descLine p with
  | (s1, none) => (s1, none)
  | (s1, some key) =>
    match s1.takeRun p (tableChunks hdim) with
    | (_, none) => (s, none)
    | (s2, some q) =>
      let c : Ctx :=
        { tag := BitVec.ofNat 8 p, account := BitVec.ofNat 8 a, layer := layer, head := head, st := 1, hdim := hdim,
          maxPages := maxPagesOf hdim, mirror := mirror, ptAddr := BitVec.ofNat 33 (128 * q), s0 := (layer.toNat + head.toNat) % 16 }
      (((s2.zeroLines (128 * q) (128 * tableChunks hdim)).updDesc key (fun _ => c)).mapAhead key, some key)

/-- Every stream of the shard opened for an account (R224, R254). -/
def State.openStreams (s : State) (p a : Nat) : State :=
  (s.part p).ctx.foldl (fun t x => (t.openCtx p a x.1 x.2.1 x.2.2 0).1) s

/-- A stream freed: its pages and its page table are chunks to map again, its descriptor line is free (R226, R227, R249). -/
def State.dropStream (s : State) (key : Nat) : State :=
  let c := s.ctxAt key
  let p := c.tag.toNat
  let pages := (List.range c.pages.toNat).filterMap (fun n => s.pageLine c n)
  let s1 := pages.foldl (fun t l => t.giveChunks p (l / 128) 1) s
  let s2 := (s1.giveChunks p (c.ptAddr.toNat / 128) (tableChunks c.hdim)).updDesc key (fun _ => {})
  s2.updPart p (fun x => { x with descs := x.descs ++ [key] })

/-- The streams of an account freed, own ones and mirrors; its context is destroyed (R249, R304). -/
def State.dropStreams (s : State) (p a : Nat) : State :=
  (s.ctxKeys p a false ++ s.ctxKeys p a true).foldl (fun t k => t.dropStream k) s

/-- A commit on this device's streams of an account: COMMITTED, CDIGEST, the pages ahead (R227, R230). -/
def State.commitStream (s : State) (newCommit : Nat) (key : Nat) : State :=
  let c := s.ctxAt key
  if newCommit ≤ c.committed.toNat then s
  else
    let d := s.digestSum c c.committed.toNat newCommit
    (s.updDesc key (fun c => { c with
      cdigest := BitVec.ofNat 61 (mod61 ((c.cdigest.toNat : Int) + d)), committed := BitVec.ofNat 23 newCommit })).mapAhead key

/-- A commit for an account reaches this device's streams, mirrors included (R230, R292). -/
def State.commitStreams (s : State) (p a newCommit : Nat) : State :=
  (s.ctxKeys p a false ++ s.ctxKeys p a true).foldl (fun t k => t.commitStream newCommit k) s

/-- Bytes as 32-bit words, least significant byte first (R229). -/
def wordsOfBytes (bs : List Byte) : List W32 :=
  (List.range ((bs.length + 3) / 4)).map (fun k => BitVec.ofNat 32 (natOfBytes ((bs.drop (4 * k)).take 4)))

/-! ## Adapters (R257, R258) -/

/-- The adapter descriptor (R258). -/
def Account.adapterWord (x : Account) : BitVec 128 :=
  x.adigest ++ (0 : BitVec 3) ++ x.agen ++ BitVec.ofBool x.cur ++ x.rank ++ x.asize

/-- AGEN of the account's newest generation, committed or not (R258, R264). -/
def Account.newest (x : Account) : BitVec 32 := if x.anew then x.agen + 1 else x.agen

/-- An account's adapter fields changed: its descriptor line follows. -/
def State.updAdapter (s : State) (a : Nat) (f : Account → Account) : State :=
  let t := s.updAcct a f
  match (t.acct a).abase with
  | none => t
  | some q => t.setMemLine (128 * q) ((t.acct a).adapterWord.setWidth 1024)

/-- Chunks of an adapter's place: its descriptor line and two copies (log entry 88). -/
def adapterChunks (lines : Nat) : Nat := (2 * lines + 128) / 128

/-- The first line of a copy of the adapter placed at chunk `q`. -/
def adapterLine (q lines : Nat) (copy : Bool) : Nat := 128 * q + 1 + (if copy then lines else 0)

/-- An adapter is given its place in the granules of partition `p`, zero-filled, if it has none (R258, log entry 88). -/
def State.placeAdapter (s : State) (p a : Nat) (rank : BitVec 7) (lines : BitVec 24) : State :=
  if (s.acct a).abase.isSome ∨ rank = 0 then s
  else
    match s.takeRun p (adapterChunks lines.toNat) with
    | (_, none) => s
    | (s1, some q) =>
      (s1.zeroLines (128 * q) (128 * adapterChunks lines.toNat)).updAdapter a (fun x =>
        { x with abase := some q, rank := rank, asize := lines })

/-- The place of an account's adapter is free again (R304). -/
def State.dropAdapter (s : State) (p a : Nat) : State :=
  match (s.acct a).abase with
  | none => s
  | some q => (s.giveChunks p q (adapterChunks (s.acct a).asize.toNat)).updAcct a (fun x =>
      { x with abase := none, rank := 0, asize := 0, agen := 0, adigest := 0, cur := false, anew := false })

/-- Bytes written into the lines from a first one on, the last line filled up with zeros. -/
def State.setMemBytes (s : State) (line : Nat) (bs : List Byte) : State :=
  (List.range ((bs.length + 127) / 128)).foldl (fun (t : State) k =>
    t.setMemLine (line + k) (lineOfBytes ((bs.drop (128 * k)).take 128))) s

/-- The bytes of an account's committed adapter copy on this device (R258, R306). -/
def State.adapterBytes (s : State) (a : Nat) : List Byte :=
  let x := s.acct a
  match x.abase with
  | none => []
  | some q => ((List.range x.asize.toNat).map (fun k => bytesOfLine (s.readMem (adapterLine q x.asize.toNat x.cur + k)))).flatten

/-- The lowest batch slot of partition `p` that no account has (R254, log entry 90). -/
def State.freeBatch (s : State) (p : Nat) : Nat :=
  ((List.range 192).find? (fun n => !s.accts.any (fun x => decide (x.2.part.toNat = p ∧ x.2.batch = some n)))).getD 0

end Sys2Proof.Machine
end

