-- ==== Sys2Proof/Machine/HostOut.lean ====
section
/-! DEFINITION. What the device sends to its hosts, and the ends of sessions, windows and submissions (R350, R353-R355,
R358-R364). -/

namespace Sys2Proof.Machine

/-! ## UWP messages (R354, R355, R363) -/

/-- The queue pair of a session takes messages: it is connected (R350). -/
def Session.connected (x : Session) : Bool := decide (x.st = .ready ∨ x.st = .closing)

/-- The bits of a device's UWP header (R354). -/
def HostMsg.bits (m : HostMsg) : BitVec 512 :=
  (1 : BitVec 4) ++ (0 : BitVec 4) ++ (0 : BitVec 2) ++ m.type ++ BitVec.ofNat 16 m.body.length ++ m.session ++ (0 : BitVec 4) ++ m.ssn ++ m.ack
    ++ m.ident ++ m.part ++ (0 : BitVec 4) ++ (0 : BitVec 4) ++ (0 : BitVec 64) ++ (0 : BitVec 32) ++ (BitVec.allOnes 32)
    ++ BitVec.ofNat 64 m.frame ++ m.counter ++ m.code ++ BitVec.ofBool m.late ++ (0 : BitVec 55)

/-- The nonce that seals it (R354). -/
def HostMsg.nonce (m : HostMsg) : BitVec 96 := (1 : BitVec 1) ++ (0 : BitVec 31) ++ m.counter

/-- The message in clear as it goes on the wire, before its 16-byte tag (R11, R354): the header most significant byte first, then the
body. -/
def HostMsg.wire (m : HostMsg) : List Byte := beBytes 64 m.bits.toNat ++ m.body

/-- A message to the host on a session (R354). A message for a session without a connected queue pair is not formed; what
it carries stays in the Ledger and is sent again after a reconnection (R364). From F + 32 a Twilight device sends refusals alone
(R389, R390). -/
def State.uwp (s : State) (n : SessNo) (type : BitVec 6) (ssn : BitVec 32) (ident : BitVec 64) (part : Tag) (code : BitVec 8)
    (late : Bool) (body : List Byte) : State :=
  let x := s.sess n.toNat
  if x.connected = false ∨ s.health.silent = true ∨ (2 ≤ s.health.st ∧ type ≠ 0x12)
      then { s with host := { s.host with unsent := s.host.unsent + 1 } }
  else
    let m : HostMsg :=
      { type := type, session := n, port := x.port, ssn := ssn, ack := x.ack, ident := ident, part := part,
        frame := s.fu.frame, counter := x.txCtr + 1, code := code, late := late, body := body }
    let s1 := s.setSess n.toNat { x with txCtr := x.txCtr + 1 }
    { s1 with host := { s1.host with out := s1.host.out ++ [m] } }

/-- The Accept receipt of a submission (R355); slot 0xFF before an Open has one. -/
def State.sendReceipt (s : State) (b : Sub) : State :=
  s.uwp b.sess 0x11 b.ssn b.ident (b.part.setWidth 8) 0 false
    (beBytes 1 ((b.account.map (fun a => a.val)).getD 255) ++ beBytes 8 b.aframe.toNat)

/-- The Result of a submission (R355): TOKENS, STEP, and for a park its parts with device, window key and length. -/
def State.sendResult (s : State) (b : Sub) (parts : List (Nat × Nat × Nat)) : State :=
  s.uwp b.sess 0x14 b.ssn b.ident (b.part.setWidth 8) b.status b.late
    (beBytes 4 b.tokens ++ beBytes 8 (if b.step = BitVec.allOnes 48 then 2 ^ 64 - 1 else b.step.toNat) ++
      (if b.subkind = 3 then
        beBytes 2 parts.length ++ (parts.map (fun p => beBytes 2 p.1 ++ beBytes 4 p.2.1 ++ beBytes 8 p.2.2)).flatten
       else []))

/-- Tokens of a durable Commit record (R292, R363). -/
def State.sendTokens (s : State) (b : Sub) (pos : BitVec 32) (tokens : List W32) : State :=
  if tokens.isEmpty then s
  else s.uwp b.sess 0x13 b.ssn b.ident (b.part.setWidth 8) 0 false
    (beBytes 4 pos.toNat ++ beBytes 1 tokens.length ++ (tokens.map (fun t => beBytes 4 t.toNat)).flatten)

/-- The state of a submission as a Cancel receipt reports it (R355). -/
def SubState.code : SubState → Nat
  | .accepting => 1 | .accepted => 2 | .running => 3 | .completed => 4

/-- A Cancel receipt (R296, R355). -/
def State.sendCancel (s : State) (n : SessNo) (ssn : BitVec 32) (ident : BitVec 64) (part : Tag) (code : Nat) : State :=
  s.uwp n 0x15 ssn ident part 0 false (beBytes 1 code)

/-! ## Windows (R357-R360) -/

/-- The key of a window entry (R357). -/
def Window.key (w : Window) (index : Nat) : BitVec 32 := w.gen ++ BitVec.ofNat 12 index ++ w.salt

/-- Chunks a window occupies. -/
def Window.chunks (w : Window) : Nat := (w.bytes + 16383) / 16384

/-- A Closed entry of the window table. -/
def State.freeWindow (s : State) : Option Nat :=
  (List.range 4096).find? (fun n => decide ((s.window n).st = 0))

/-- An export window that a device opens for a part of a park of another home device, whose session is not its own (log entry 127). -/
def Window.away (w : Window) : Bool := w.any && decide (w.kind = 1)

/-- Windows that a session has open. -/
def State.windowsOf (s : State) (n : SessNo) : Nat :=
  (s.host.windows.filter (fun x => decide (x.2.session = n ∧ x.2.st = 1) && !x.2.away)).length

/-- A window opened: chunks, a Closed entry with GEN one higher, a SALT drawn by the Vault (R357, R358). None where an
entry, chunks or the session's allowance are wanting. -/
def State.openWindow (s : State) (n : SessNo) (part : Nat) (any : Bool) (kind mxtype access : BitVec 8) (bytes : Nat) :
    Option (State × Nat) :=
  if (64 ≤ s.windowsOf n ∧ (any && decide (kind = 1)) = false) ∨ s.mgmt.entropy = false then none
  else
    match s.freeWindow with
    | none => none
    | some i =>
      match s.takeRun part ((bytes + 16383) / 16384) with
      | (_, none) => none
      | (s1, some q) =>
        let old := if s1.host.windows.any (fun x => decide (x.1 = i)) then (s1.window i).gen else Config.dawnGen s1.host.genDraw i
        let w : Window :=
          { st := 1, gen := if old = 255 then 1 else old + 1, salt := Config.salt s1.mgmt.draws,
            tag := BitVec.ofNat 8 part, session := n, any := any, kind := kind, mxtype := mxtype, access := access,
            base := 128 * q, bytes := bytes, busy := 0 }
        some ((s1.setWindow i w).updMgmt (fun m => { m with draws := m.draws + 1 }), i)

/-- A window whose close has begun and that no operation uses becomes Closed, its chunks zeroed (R222, R360). -/
def State.drainWindow (s : State) (i : Nat) : State :=
  let w := s.window i
  if w.st = 2 ∧ w.busy = 0 then
    ((s.setWindow i { w with st := 0, tag := 0xFE, session := 0, any := false }).zeroLines w.base (128 * w.chunks)).giveChunks
      w.tag.toNat (w.base / 128) w.chunks
  else s

/-- Every window of a device that resets is closed, its chunks zeroed and given back (R358, R520). -/
def State.dropWindows (s : State) : State :=
  s.host.windows.foldl (fun t x => if x.2.st = 0 then t else (t.setWindow x.1 { x.2 with st := 2, busy := 0 }).drainWindow x.1) s

/-- The granules of a partition that leaves go to be zeroed, its key is destroyed and its windows are Closed (R222, R246, R366). -/
def State.dropGranules (s : State) (p : Nat) : State :=
  { s with
    mem := { s.mem with
      granules := s.mem.granules.filter (fun g => decide (g.2.toNat ≠ p))
      zeroing := s.mem.zeroing ++ (s.part p).granules
      keys := SMap.drop s.mem.keys p }
    host := { s.host with windows := s.host.windows.map (fun x =>
      if x.2.tag.toNat = p then (x.1, { x.2 with st := 0, tag := 0xFE, session := 0, any := false, busy := 0 }) else x) } }

/-- A Closing partition's granules leave once no admitted operation of a window remains (R360). -/
def State.releaseGranules (s : State) (p : Nat) : State :=
  if (s.part p).st = .closing ∧ s.mem.granules.any (fun g => decide (g.2.toNat = p)) = true ∧
      s.host.windows.all (fun x => decide (x.2.tag.toNat ≠ p ∨ x.2.busy = 0)) = true then s.dropGranules p else s

/-- A window's close (R360). -/
def State.closeWindow (s : State) (i : Nat) : State :=
  let w := s.window i
  if w.st = 1 then s.setWindow i { w with st := 2 } else s

/-- Every open window that satisfies a test is closed. -/
def State.closeWindows (s : State) (p : Window → Bool) : State :=
  { s with host := { s.host with windows := s.host.windows.map (fun x =>
    if x.2.st = 1 ∧ p x.2 = true then (x.1, { x.2 with st := 2 }) else x) } }

/-! ## Held submissions and sessions (R284, R286, R353) -/

/-- Held submissions of a session. -/
def State.heldOf (s : State) (n : SessNo) : List Sub := s.ledger.subs.filter (fun b => b.here && decide (b.sess = n))

/-- A held submission by session and SSN, in the device's own Ledger or the covered one's. -/
def State.findSub (s : State) (cov : Bool) (n : SessNo) (ssn : BitVec 32) : Option Sub :=
  s.ledger.subs.find? (fun b => decide (b.sess = n ∧ b.ssn = ssn ∧ b.covered = cov))

/-- A held submission changed. -/
def State.updSub (s : State) (cov : Bool) (n : SessNo) (ssn : BitVec 32) (f : Sub → Sub) : State :=
  { s with ledger := { s.ledger with subs := s.ledger.subs.map (fun b =>
    if b.sess = n ∧ b.ssn = ssn ∧ b.covered = cov then f b else b) } }

/-- The RDMA WRITE that a session has in progress ends, complete or not: its window is in use by one operation less, and a Closing partition
that waited for it gives up its granules (R359, R360). -/
def State.endRdma (s : State) (n : Nat) : State :=
  match (s.sess n).rdma with
  | none => s
  | some (i, _, _) =>
    let w := s.window i.toNat
    ((s.setWindow i.toNat { w with busy := w.busy - 1 }).updSess n (fun x => { x with rdma := none })).releaseGranules w.tag.toNat

/-- A session becomes Free (R353): its key is destroyed and nothing of its old binding is left; the window keys bound to it are closed.
Its partition, if Closing, may become Free. -/
def State.freeSession (s : State) (n : SessNo) : State :=
  let p := (s.sess n.toNat).part.toNat
  (((s.endRdma n.toNat).closeWindows (fun w => decide (w.session = n) && !w.any)).setSess n.toNat {}).tryFreePart p

/-- A Closing session with no held submission becomes Free (R353). -/
def State.tryFree (s : State) (n : SessNo) : State :=
  if (s.sess n.toNat).st = .closing ∧ (s.heldOf n).isEmpty then s.freeSession n else s

/-- A session enters Closing (R350, R353). -/
def State.beginClose (s : State) (n : SessNo) : State :=
  let x := s.sess n.toNat
  if x.st = .free then s else (s.setSess n.toNat { x with st := .closing }).tryFree n

end Sys2Proof.Machine
end

