-- ==== Sys2Proof/Machine/LedgerOps.lean ====
section
/-! DEFINITION. The Ledger's shared acts (R278-R302): assigning an LSN to a record, replication, durability and what a
durable record does, stage 2's ends of submissions. Own lines of a record are locally durable in the command that assigns its
LSN (log entry 21). -/

namespace Sys2Proof.Machine

/-! ## Homes and records -/

/-- The address of the dimension-0 partner. -/
def State.partner (s : State) : DevAddr := s.dict.addr ^^^ 1

/-- Account slot `a` belongs to the device this one covers (R256, R298). -/
def State.coversAcct (s : State) (a : Nat) : Bool := decide (s.ledger.mode = 1 ∧ (s.acct a).home = s.partner)

/-- This device is home for account slot `a` (R19, R256): not while it recovers, since its partner is then (R274, R367). -/
def State.isHome (s : State) (a : Nat) : Bool :=
  decide ((s.acct a).home = s.dict.addr ∧ s.ledger.mode ≠ 2) || s.coversAcct a

/-- The device that is home for account slot `a` at present, as a refusal names it (R256, R361, R367): the partner of a device that is
covered. -/
def State.homeNow (s : State) (a : Nat) : DevAddr :=
  let h := (s.acct a).home
  if (h = s.dict.addr ∧ s.ledger.mode = 2) ∨ s.fu.failedDevs.contains h then h ^^^ 1 else h

/-- LSNs may be assigned (R301, R384, R389): no power failure has latched, the die is not fail-silent and the device has not begun Twilight. -/
def State.mayAssign (s : State) : Bool :=
  !s.power.failed && !s.health.silent && decide (s.health.st = 0) && decide (s.ledger.mode ≠ 2)

/-- Lines of a journal ring (R278). -/
def ringLines : Nat := 4161536

/-- The first line of a Ledger in granule 4: the device's own, or the replica of its partner's (R278). -/
def ledgerLine (replica : Bool) : Nat := 4 * granuleLines + (if replica then 0x400000 else 0)

/-- Parcels sealed under the present parking keys of the device's partitions (R309). -/
def State.sealedParcels (s : State) : Nat := (s.parts.map (fun q => q.2.sealed)).sum

/-- Line 0 of a Ledger's header (R278): write position, highest durable and replicated LSN, checkpoint LSN, parcel counter, whose places
in the line are the model's (log entry 120). -/
def State.headerLine (s : State) (replica : Bool) : Line :=
  let l := s.ledger
  if replica then BitVec.ofNat 32 l.rpos ++ ((l.replica.getLast?.map (fun r => r.lsn)).getD 0) ++ (0 : BitVec 928)
  else BitVec.ofNat 32 l.jpos ++ l.durable.getD 0 ++ l.replicated.getD 0 ++ l.checkpoint ++ BitVec.ofNat 64 s.sealedParcels ++ (0 : BitVec 736)

/-- An account's line of the account table (R278); the order of its fields is the model's (log entry 120). -/
def Account.tableLine (x : Account) : Line :=
  let run : BitVec 64 := match x.running with | some r => (0 : BitVec 20) ++ r.1 ++ r.2 | none => BitVec.allOnes 64
  x.pos ++ x.lastTok ++ x.lastLsn ++ x.agen ++ run ++ (0 : BitVec 800)

/-- A held submission's line of the submission table (R278), likewise. -/
def Sub.tableLine (b : Sub) : Line :=
  b.sess ++ b.ssn ++ b.lsn ++ BitVec.ofNat 2 (b.st.code - 1) ++ b.subkind ++ BitVec.ofNat 8 ((b.account.map (fun a => a.val)).getD 255) ++ b.part
    ++ b.ident ++ b.deadline ++ b.maxtok ++ b.endtok ++ b.aframe ++ b.pdigest ++ BitVec.ofNat 33 b.paddr ++ BitVec.ofNat 18 b.plines
    ++ BitVec.ofNat 32 b.tokens ++ b.doneLsn.getD 0 ++ b.status ++ BitVec.ofBool b.late ++ b.step ++ b.cancelLsn.getD 0 ++ (0 : BitVec 310)

/-- The lowest line of a submission table that no held submission has (R278). -/
def State.freeLine (s : State) (cov : Bool) : Nat :=
  ((List.range 16384).find? (fun n => !s.ledger.subs.any (fun b => decide (b.line = n ∧ b.covered = cov)))).getD 0

/-- The header, and the table lines of the account and of the submission that an act concerns, are written (R278, R292). -/
def State.writeTables (s : State) (cov : Bool) (acct : BitVec 8) (sub : Option (SessNo × BitVec 32)) : State :=
  let at_ := ledgerLine cov
  let s1 := s.setMemLine at_ (s.headerLine cov)
  let s2 := if acct.toNat < 192 then s1.setMemLine (at_ + 0x4100 + acct.toNat) (s.acct acct.toNat).tableLine else s1
  match sub with
  | none => s2
  | some x =>
    match s.ledger.subs.find? (fun b => decide (b.sess = x.1 ∧ b.ssn = x.2 ∧ b.covered = cov)) with
    | some b => s2.setMemLine (at_ + 0x100 + b.line) b.tableLine
    | none => s2

/-- A record's lines written to the device's own journal ring, or to the replica's (R278, R281). -/
def State.writeRing (s : State) (replica : Bool) (r : LRecord) : State :=
  let first := ledgerLine replica + 0x8000
  let pos := if replica then s.ledger.rpos else s.ledger.jpos
  ((recLines r).zipIdx.foldl (fun t x => t.setMemLine (first + (pos + x.2) % ringLines) x.1) s).updLedger (fun l =>
    if replica then { l with rpos := (pos + recCount r) % ringLines } else { l with jpos := (pos + recCount r) % ringLines })

/-- A record takes the next LSN of its Ledger (R279, R281, R298): the device's own, sent to the partner unless it covers it, or the covered
device's. Once the copies have gone to a returning device, each new record of either follows them (R299). -/
def State.assign (s : State) (cov : Bool) (part : Tag) (acct : BitVec 8) (body : RecBody) : State × BitVec 64 :=
  if cov then
    let lsn := s.ledger.coveredNext
    let r := makeRec lsn part acct body
    let j : JRec := { r := r, frame := s.fu.frame, locally := true, acked := true, applied := false }
    let s1 := (s.updLedger (fun l => { l with covered := l.covered ++ [j], coveredNext := lsn + 1 })).writeRing true r
    (if s.ledger.copied then s1.sendOn 0 (.copy { own := true, first := false, records := [r], nextLsn := lsn + 1 }) else s1, lsn)
  else
    let lsn := s.ledger.nextLsn
    let r := makeRec lsn part acct body
    let j : JRec := { r := r, frame := s.fu.frame, locally := true, acked := decide (s.ledger.mode = 1), applied := false }
    let s1 := (s.updLedger (fun l => { l with journal := l.journal ++ [j], nextLsn := lsn + 1 })).writeRing false r
    (if s.ledger.mode ≠ 1 ∨ s.ledger.copied = true then s1.sendOn 0 (.ledger r) else s1, lsn)

/-- The account field of a record. -/
def acctField (a : Option SlotNo) : BitVec 8 := BitVec.ofNat 8 ((a.map (fun x => x.val)).getD 255)

/-! ## Ends of submissions (R287, R295-R297) -/

/-- A submission's Complete record takes its LSN: from that act on it takes no further outcome (R287, R297). -/
def State.complete (s : State) (b : Sub) (status : BitVec 8) (step : BitVec 48) (late : Bool) : State :=
  let (s1, lsn) := s.assign b.covered (b.part.setWidth 8) (acctField b.account)
    (.complete step (BitVec.ofNat 32 b.tokens) status late b.sess b.ssn)
  s1.updSub b.covered b.sess b.ssn (fun x => { x with doneLsn := some lsn, status := status, step := step, late := late })

/-- An account freed: its slot, streams, adapter and windows (R249, R255, R304). -/
def State.freeAccount (s : State) (a : Nat) : State :=
  let p := (s.acct a).part.toNat
  ((s.dropStreams p a).dropAdapter p a).setAcct a {}

/-- The export windows of an account's parcels on this device are closed (R304). -/
def State.closeExports (s : State) (a : Nat) : State :=
  ((s.acct a).exports.foldl (fun t i => t.closeWindow i) s).updAcct a (fun x => { x with exports := [] })

/-- The parts of a park's result: device, window key and length of each (R304). -/
def Sub.parkParts (b : Sub) : List (Nat × Nat × Nat) := b.parts.map (fun p => (p.device.toNat, p.key.toNat, p.length.toNat))

/-- The parts of a park (R304): one of the home device, and one of every other device that holds state of the partition's accounts. -/
def State.parcelParts (s : State) (p a : Nat) : Nat :=
  ((s.part p).holders.filter (fun d => decide (d ≠ (s.acct a).home))).length + 1

/-- A completed park whose parcels are being sealed again (R308). -/
def State.sealing (s : State) (b : Sub) : Bool :=
  decide (b.subkind = 3 ∧ b.status = 0 ∧ b.st = .completed) && (match b.account with
    | some a => decide (b.parts.length < s.parcelParts b.part.toNat a.val)
    | none => false)

/-! ## Directed messages (R314) -/

/-- Bits in which two addresses of an `n`-dimensional cluster differ, lowest first. -/
def diffBits (n : Nat) (a b : DevAddr) : List Nat := (List.range n).filter (fun d => (a ^^^ b).getLsbD d)

/-- The first link of the directed route to a device; none to the device itself (R314). -/
def State.firstHop (s : State) (dest : DevAddr) : Option Nat :=
  let l := diffBits s.dict.n s.dict.addr dest
  if s.dict.n + 1 < 2 * l.length then some 10 else l.head?

/-- A message sent to a device by the directed route. -/
def State.directed (s : State) (dest : DevAddr) (m : LinkMsg) : State :=
  match s.firstHop dest with
  | none => s
  | some l => s.sendOn l m

/-- A commit notice sent to every other device of the cluster (R292, R314). -/
def State.noticeAll (s : State) (n : CommitNotice) : State :=
  (List.range (2 ^ s.dict.n)).foldl (fun t d => t.directed (BitVec.ofNat 10 d) (.commit { n with dest := BitVec.ofNat 10 d })) s

/-- The draft length after a step that proposed `d` drafts and accepted `k`, under a cap (R261). -/
def nextDraft (d k cap : Nat) : Nat :=
  if d = 0 then 0 else min cap (if k = d then d + 1 else if 2 * k < d then max 1 (d - 1) else d)

/-! ## Durable records (R281, R292-R297) -/

/-- An account's next step is fed from its last commit; what uncommitted steps gave it is gone (R267, R287, R294). -/
def Account.fromCommit (x : Account) : Account :=
  { x with fedPos := x.pos, fedTok := x.lastTok, draft := min x.draftC x.cap, minted := none, anew := false }

/-- An account slot is free to be given out: no account holds it and none has been promised it. -/
def Account.unused (x : Account) : Bool := decide (x.st = .free ∧ x.part = 0xFE)

/-- The lowest account slot that is free. -/
def State.freeSlot (s : State) : Option Nat := (List.range 192).find? (fun a => (s.acct a).unused)

/-- A Restore takes a slot for its account (R255, R307). -/
def State.takeRestore (s : State) (b : Sub) : State :=
  match s.freeSlot with
  | none => s
  | some a =>
    (s.updSub b.covered b.sess b.ssn (fun x => { x with account := some (slotNo a) })).setAcct a
      { st := .restoring, ident := b.ident, part := b.part.setWidth 8, home := s.dict.addr, restParts := b.parts
        batch := some (s.freeBatch b.part.toNat) }

/-- A durable Accept (R284, R287): the submission is Accepted, its receipt leaves; a Restore takes its account slot (R255,
R307). -/
def State.accepted (s : State) (b : Sub) : State :=
  let s1 := s.updSub b.covered b.sess b.ssn (fun x => { x with st := .accepted })
  let s2 := if b.subkind = 4 then s1.takeRestore b else s1
  match s2.findSub b.covered b.sess b.ssn with
  | some c => s2.sendReceipt c
  | none => s2

/-- A durable Park (R304, R308): the account is Parking; a cancel that came first ends the submission instead, where an LSN may still be
assigned (R301). -/
def State.parked (s : State) (r : LRecord) (b : Sub) : State :=
  if b.cancelLsn.isSome ∧ b.doneLsn = none then (if s.mayAssign then s.complete b 1 (BitVec.allOnes 48) false else s)
  else s.updAcct r.account.toNat (fun x => { x with st := .parking, parts := [] })

/-- A durable Commit (R292, R297): tables, context, notice, tokens; a submission that it completes takes its Complete
record in this act. -/
def State.committed (s : State) (r : LRecord) (b : Sub) (tokens : List W32) (states : List SamplerState)
    (cdelta : BitVec 61) (step : BitVec 48) (pos newCommit remain : BitVec 32) : State :=
  let a := r.account.toNat
  let x := s.acct a
  let drafts := (states.head?.map (fun t => t.draft)).getD 0
  let acc := (states.filter (fun t => t.acc)).length
  let ends := decide (b.subkind = 1) && !tokens.isEmpty &&
    (decide (remain = 0) || (decide (b.endtok ≠ BitVec.allOnes 32) && tokens.getLast? == some b.endtok))
  let back := (ends && decide (b.doneLsn = none)) || decide (x.fedPos < newCommit)
  let s1 := s.setAcct a { x with
    pos := newCommit, lastTok := tokens.getLast?.getD x.lastTok, tokens := x.tokens + tokens.length, lastLsn := r.lsn,
    fedPos := if back then newCommit else x.fedPos, fedTok := if back then tokens.getLast?.getD x.fedTok else x.fedTok,
    proposed := x.proposed + drafts.toNat, accepted := x.accepted + acc,
    draftC := if tokens.isEmpty then x.draftC else nextDraft drafts.toNat acc x.cap }
  let b1 : Sub := { b with tokens := b.tokens + tokens.length,
                           fed := if tokens.isEmpty then b.fed + (newCommit - x.pos).toNat else b.fed }
  let n : CommitNotice :=
    { part := b.part, slot := slotNo a, newCommit := newCommit, cdelta := cdelta, count := BitVec.ofNat 5 tokens.length,
      drafts := drafts, accepted := BitVec.ofNat 5 acc, step := step, dest := 0, adapter := none }
  let s2 := (((s1.updSub b.covered b.sess b.ssn (fun _ => b1)).updLedger (fun l =>
      { l with commits := l.commits + 1, escrow := l.escrow.filter (fun e => decide (e.1 ≠ a) || decide (e.2.2.2 ≠ some r.lsn)) })
    ).commitStreams b.part.toNat a newCommit.toNat).noticeAll n
  let s3 := s2.sendTokens b1 pos tokens
  if ends ∧ b.doneLsn = none then
    s3.complete b1 0 step (match b.cancelLsn with | some c => decide (r.lsn < c) | none => false)
  else s3

/-- A learning step's adapter is committed: AGEN, CUR, ADIGEST (R258, R266). -/
def State.commitAdapter (s : State) (a : Nat) (agen : BitVec 32) (adigest : BitVec 61) : State :=
  s.updAdapter a (fun x => { x with agen := agen, adigest := adigest, cur := !x.cur, anew := false, learned := x.learned + 1 })

/-- A durable Learn (R266, R293): the adapter is committed, a notice says so, the learning submission is complete. -/
def State.learned (s : State) (r : LRecord) (b : Sub) (agen : BitVec 32) (adigest : BitVec 61) : State :=
  let a := r.account.toNat
  let n : CommitNotice :=
    { part := b.part, slot := slotNo a, newCommit := (s.acct a).pos, cdelta := 0, count := 0, drafts := 0, accepted := 0, step := b.step,
      dest := 0, adapter := some (agen, adigest) }
  let s1 := ((((s.commitAdapter a agen adigest).updAcct a (fun x => { x with learnPend := false, lastLsn := r.lsn })).updLedger
    (fun l => { l with commits := l.commits + 1, escrow := l.escrow.filter (fun e => decide (e.1 ≠ a) ||
        decide (e.2.2.2 ≠ some r.lsn)) }))).noticeAll n
  if b.doneLsn = none then
    s1.complete b 0 b.step (match b.cancelLsn with | some c => decide (r.lsn < c) | none => false)
  else s1

/-- A durable Restore (R307): streams and settings as the parcels give them, the account Active, the submission complete. -/
def State.restored (s : State) (r : LRecord) (b : Sub) : State :=
  let a := r.account.toNat
  let x := s.acct a
  let s1 := match x.restored with
    | none => s
    | some p =>
      ((s.setAcct a { x with
        st := .active, seed := p.seed, tau := p.tau, topk := p.topk, topp := p.pi, draft := p.draft.toNat, draftC := p.draft.toNat,
        cap := p.cap.toNat, pinned := p.pinned, pos := p.committed, lastTok := p.lastToken,
        fedPos := p.committed, fedTok := p.lastToken, restored := none, parts := [],
        restParts := [] }).updAdapter a (fun y => { y with agen := p.agen, adigest := p.adigest })).commitStreams b.part.toNat a p.committed.toNat
  if b.doneLsn = none ∧ s.mayAssign = true then s1.complete b 0 (BitVec.allOnes 48) false else s1

/-- A durable Complete (R287, R297, R363, R555): the submission is Completed, its Result leaves; an Open's account becomes
Active at the next step boundary; a Close's account is freed. -/
def State.completed (s : State) (b : Sub) : State :=
  let b1 : Sub := { b with st := .completed }
  let s1 := (s.updSub b.covered b.sess b.ssn (fun _ => b1)).sendResult b1 b1.parkParts
  match b.account with
  | none => s1
  | some a =>
    let s2 := s1.updAcct a.val (fun x => { x with
      running := if x.running = some (b.sess, b.ssn) then none else x.running,
      expired := if b.status = 2 then bump32 x.expired else x.expired,
      cancelled := if b.status = 1 ∧ b.late = false then bump32 x.cancelled else x.cancelled,
      parks := if b.subkind = 3 ∧ b.status = 0 then bump32 x.parks else x.parks,
      opening := if b.subkind = 5 ∧ b.status = 0 then true else x.opening,
      learnPend := if b.subkind = 2 then false else x.learnPend,
      st := if b.subkind = 3 ∧ b.status ≠ 0 then .active else x.st })
    let s3 : State := { s2 with ledger := { s2.ledger with
      escrow := s2.ledger.escrow.filter (fun e => decide (e.1 ≠ a.val) || decide (e.2.2.2 ≠ b.doneLsn)) } }
    if b.subkind = 6 ∧ b.status = 0 then s3.freeAccount a.val
    else if b.subkind = 4 ∧ b.status ≠ 0 then s3.freeAccount a.val
    else s3

/-- A durable Retire (R286, R304, R353): Completed submissions up to ACK leave their lines; a retired park frees its account
and closes its windows. -/
def State.retired (s : State) (n : SessNo) (ack : BitVec 32) : State :=
  let gone := (s.heldOf n).filter (fun b => decide (b.ssn ≤ ack ∧ b.st = .completed))
  let s1 := gone.foldl (fun t b =>
    if b.subkind = 3 ∧ b.status = 0 then
      (match b.account with | some a => (t.closeExports a.val).freeAccount a.val | none => t)
    else t) (gone.foldl (fun t b => t.giveChunks b.part.toNat (b.paddr / 128) ((b.plines + 127) / 128)) s)
  let s2 := s1.updSess n.toNat (fun x => { x with ack := if x.ack < ack ∧ ack ≤ x.a then ack else x.ack })
  let s3 : State := { s2 with ledger := { s2.ledger with
    subs := s2.ledger.subs.filter (fun b => !(b.here && decide (b.sess = n ∧ b.ssn ≤ ack ∧ b.st = .completed))) } }
  let s4 := gone.foldl (fun t b =>
    (t.setMemLine (ledgerLine b.covered + 0x100 + b.line) 0).writeTables b.covered (acctField b.account) none) s3
  s4.tryFree n

/-- What a record does when it is durable. -/
def State.applyRec (s : State) (cov : Bool) (r : LRecord) : State :=
  let on := fun (n : SessNo) (ssn : BitVec 32) (f : Sub → State) =>
    match s.findSub cov n ssn with | some b => f b | none => s
  match r.body with
  | .accept n ssn .. => on n ssn s.accepted
  | .commit tokens states cdelta step _ pos newCommit _ n ssn remain =>
    on n ssn (fun b => s.committed r b tokens states cdelta step pos newCommit remain)
  | .complete _ _ _ _ n ssn => on n ssn s.completed
  | .cancel n ssn =>
    on n ssn (fun b => s.sendCancel n ssn b.ident (b.part.setWidth 8) b.st.code)
  | .learn agen adigest n ssn => on n ssn (fun b => s.learned r b agen adigest)
  | .park n ssn => on n ssn (s.parked r)
  | .restore n ssn => on n ssn (fun b => s.restored r b)
  | .retire n ack => s.retired n ack
  | .open_ _ _ => s
  | .close _ _ => s
  | .other _ _ => s

/-- The lowest record of a journal that is durable and not yet applied. -/
def dueRec (l : List JRec) : Option JRec := l.find? (fun j => j.locally && j.acked && !j.applied)

/-- A record of a journal marked applied. -/
def markApplied (lsn : BitVec 64) (l : List JRec) : List JRec :=
  l.map (fun j => if j.r.lsn = lsn then { j with applied := true } else j)

/-- The submission that a record names. -/
def recSub (b : RecBody) : Option (SessNo × BitVec 32) :=
  match b with
  | .accept n ssn .. => some (n, ssn)
  | .commit _ _ _ _ _ _ _ _ n ssn _ => some (n, ssn)
  | .complete _ _ _ _ n ssn | .cancel n ssn | .learn _ _ n ssn | .park n ssn | .restore n ssn | .open_ n ssn | .close n ssn => some (n, ssn)
  | .retire .. | .other .. => none

/-- The checkpoint LSN (R300, log entry 120): the first one whose record has not acted on the tables. -/
def Ledger.toApply (l : Ledger) : BitVec 64 := ((l.journal.find? (fun j => !j.applied)).map (fun j => j.r.lsn)).getD l.nextLsn

/-- A durable record of the device's own Ledger, or of the covered device's, acts once, and the tables take what it did (R278, R292). -/
def State.applyOnce (s : State) (cov : Bool) (j : JRec) : State :=
  let mark := fun (l : Ledger) =>
    if cov then { l with covered := markApplied j.r.lsn l.covered }
    else
      let m := { l with journal := markApplied j.r.lsn l.journal, durable := some j.r.lsn }
      { m with checkpoint := m.toApply }
  ((s.updLedger mark).applyRec cov j.r).writeTables cov j.r.account (recSub j.r.body)

/-- Durable records act in LSN order (R281), those of the device's own Ledger first. -/
def State.runJournal (s : State) : Nat → State
  | 0 => s
  | n + 1 =>
    match dueRec s.ledger.journal with
    | some j => (s.applyOnce false j).runJournal n
    | none =>
      match dueRec s.ledger.covered with
      | some j => (s.applyOnce true j).runJournal n
      | none => s

/-- Every durable record acts, until the 32nd frame after a Twilight frame (R389); each may add one Complete record. -/
def State.runDurable (s : State) : State :=
  if 2 ≤ s.health.st ∨ s.health.silent = true then s else s.runJournal (2 * (s.ledger.journal.length + s.ledger.covered.length) + 2)

/-- The partner acknowledges up to an LSN (R281). -/
def State.ackLsn (s : State) (lsn : BitVec 64) : State :=
  let top := match s.ledger.replicated with | some o => (if o < lsn then lsn else o) | none => lsn
  let js := s.ledger.journal.map (fun (j : JRec) => if j.r.lsn ≤ lsn then { j with acked := true } else j)
  ({ s with ledger := { s.ledger with replicated := some top, journal := js } }).runDurable

/-! ## Rebuilding tables from a journal (R298, R300) -/

/-- A submission as its Accept record gives it; what the record does not carry is taken from the line that held it, if the
device has it. -/
def rebuiltSub (old : Option Sub) (cov : Bool) (r : LRecord) (ident : BitVec 64) (n : SessNo) (ssn : BitVec 32)
    (subkind : BitVec 4) (deadline : BitVec 64) (maxtok : BitVec 32) (endtok : W32) (aframe : BitVec 64) (pdigest : BitVec 61)
    (paddr : BitVec 33) (plines : BitVec 18) : Sub :=
  { sess := n, ssn := ssn, lsn := r.lsn, st := .accepted, subkind := subkind,
    account := if r.account.toNat < 192 then some (slotNo r.account.toNat) else none,
    part := BitVec.ofNat 7 r.part.toNat, ident := (old.map (fun b => b.ident)).getD ident, deadline := deadline,
    maxtok := maxtok, endtok := endtok, aframe := aframe, pdigest := pdigest,
    payload := (old.map (fun b => b.payload)).getD [], open_ := (old.map (fun b => b.open_)).getD none,
    parts := (old.map (fun b => b.parts)).getD [], tokens := 0, doneLsn := none, status := 0, late := false, step := BitVec.allOnes 48,
    cancelLsn := none, covered := cov, here := !cov, fed := 0, paddr := paddr.toNat, plines := plines.toNat,
    line := (old.map (fun b => b.line)).getD 0 }

/-- An account that a journal names and this device does not hold: its slot is Active under the record's partition, at home where
the journal is the device's own (R278, R300). -/
def State.seenAcct (s : State) (cov : Bool) (r : LRecord) (ident : BitVec 64) : State :=
  let a := r.account.toNat
  if a < 192 ∧ (s.acct a).st = .free ∧ Tag.isPart r.part = true then
    s.updAcct a (fun x => { x with
      st := .active, part := r.part, home := if cov then s.partner else s.dict.addr, ident := if x.unused then ident else x.ident })
  else s

/-- LSN of the latest record of a journal by which account slot `a` was opened or restored: what stands before it concerns an account that
held the slot earlier. -/
def openedAt (recs : List LRecord) (a : Nat) : BitVec 64 :=
  ((recs.filter (fun r => decide (r.account.toNat = a) &&
    (match r.body with | .open_ .. | .restore .. => true | _ => false))).getLast?.map (fun r => r.lsn)).getD 0

/-- What a record of a journal did to the account that holds its slot now, without any message (R300 step 5). -/
def State.replayAcct (cov : Bool) (s : State) (r : LRecord) : State :=
  let a := r.account.toNat
  match r.body with
  | .accept n ssn subkind .. =>
    if subkind = 4 ∨ subkind = 5 then s else s.seenAcct cov r (((s.findSub cov n ssn).map (fun b => b.ident)).getD 0)
  | .commit tokens states _ _ _ _ newCommit _ _ _ _ =>
    let x := s.acct a
    let d := nextDraft ((states.head?.map (fun t => t.draft.toNat)).getD 0) (states.filter (fun t => t.acc)).length x.cap
    (s.setAcct a { x with
      pos := newCommit, lastTok := tokens.getLast?.getD x.lastTok, lastLsn := r.lsn
      draftC := if tokens.isEmpty then x.draftC else d }).commitStreams r.part.toNat a newCommit.toNat
  | .complete _ _ status _ n ssn =>
    match s.findSub cov n ssn with
    | some b =>
      if (b.subkind = 4 ∨ b.subkind = 5) ∧ status = 0 then s.seenAcct cov r b.ident
      else if b.subkind = 3 ∧ status ≠ 0 then s.updAcct a (fun x => { x with st := .active })
      else s
    | none => s
  | .learn agen adigest _ _ => s.updAdapter a (fun x =>
      if x.agen < agen then { x with cur := !x.cur, agen := agen, adigest := adigest, anew := false, lastLsn := r.lsn }
      else { x with lastLsn := r.lsn })
  | .park _ _ => s.updAcct a (fun x => { x with st := .parking })
  | .close _ _ => s.freeAccount a
  | _ => s

/-- The submission table and the session numbers after one more durable record of a journal (R286, R300 step 5); `open_` gives the LSN from
which on a slot holds its present account. -/
def State.replaySub (old : List Sub) (cov : Bool) (open_ : Nat → BitVec 64) (s : State) (r : LRecord) : State :=
  let a := r.account.toNat
  match r.body with
  | .accept n ssn subkind deadline maxtok endtok aframe pdigest paddr plines =>
    let o := old.find? (fun b => decide (b.sess = n ∧ b.ssn = ssn ∧ b.covered = cov))
    let b := rebuiltSub o cov r (s.acct a).ident n ssn subkind deadline maxtok endtok aframe pdigest paddr plines
    let b := if o.isSome then b else { b with line := s.freeLine cov }
    let s1 : State := { s with ledger := { s.ledger with subs := s.ledger.subs ++ [b] } }
    if cov then s1 else s1.updSess n.toNat (fun x => { x with a := ssn })
  | .commit tokens _ _ _ _ pos newCommit _ n ssn _ =>
    s.updSub cov n ssn (fun b => { b with
      tokens := b.tokens + tokens.length, st := .running, fed := if tokens.isEmpty then b.fed + (newCommit + 1 - pos).toNat else b.fed })
  | .complete step _ status late n ssn =>
    s.updSub cov n ssn (fun b => { b with
      st := .completed, status := status, late := late, step := step, doneLsn := some r.lsn,
      account := if a < 192 then some (slotNo a) else b.account })
  | .park n ssn => s.updSub cov n ssn (fun b => { b with st := .running, account := if a < 192 then some (slotNo a) else b.account })
  | .cancel n ssn => s.updSub cov n ssn (fun b => { b with cancelLsn := some (b.cancelLsn.getD r.lsn) })
  | .retire n ack =>
    let gone := fun (b : Sub) => decide (b.sess = n ∧ b.covered = cov ∧ b.ssn ≤ ack ∧ b.st = .completed)
    let parks := s.ledger.subs.filter (fun b => gone b && decide (b.subkind = 3 ∧ b.status = 0))
    let s1 := parks.foldl (fun t b => match b.account with
      | some k => if open_ k.val ≤ b.lsn then t.freeAccount k.val else t
      | none => t) s
    let s2 : State := { s1 with ledger := { s1.ledger with subs := s1.ledger.subs.filter (fun b => !gone b) } }
    if cov then s2 else s2.updSess n.toNat (fun x => { x with ack := ack })
  | _ => s

/-- The tables after one more durable record of a journal, without any message (R300 step 5). -/
def State.replayRec (old : List Sub) (cov : Bool) (open_ : Nat → BitVec 64) (s : State) (r : LRecord) : State :=
  let s1 := s.replaySub old cov open_ r
  let s2 := if open_ r.account.toNat ≤ r.lsn then s1.replayAcct cov r else s1
  s2.writeTables cov r.account (recSub r.body)

/-- A durable Commit record that completes its submission, for the recovery rule of R297. -/
def recEnds (b : RecBody) (endtok : W32) : Bool :=
  match b with
  | .learn .. | .restore .. => true
  | .commit tokens _ _ _ _ _ _ _ _ _ remain =>
    !tokens.isEmpty && (decide (remain = 0) || (decide (endtok ≠ BitVec.allOnes 32) && tokens.getLast? == some endtok))
  | _ => false

/-- A home device writes the Complete record of a submission that a durable Commit record completes and that has none, before
it admits anything else (R297). -/
def State.finishEnded (s : State) (cov : Bool) : State :=
  let js := if cov then s.ledger.covered else s.ledger.journal
  s.ledger.subs.foldl (fun t b =>
    if b.covered = cov ∧ b.doneLsn = none then
      match js.find? (fun j => j.applied && decide (recSub j.r.body = some (b.sess, b.ssn)) && recEnds j.r.body b.endtok) with
      | some j =>
        t.complete b 0 (match j.r.body with | .commit _ _ _ step .. => step | _ => b.step)
          (match b.cancelLsn with | some c => decide (j.r.lsn < c) | none => false)
      | none => t
    else t) s

/-- Tokens and Results sent again for one held submission (R364). -/
def State.resendSub (s : State) (b : Sub) : State :=
  let js := if b.covered then s.ledger.covered else s.ledger.journal
  let rel := match b.account with | some a => (s.acct a.val).relpos | none => none
  let s1 := js.foldl (fun t (j : JRec) =>
    match j.r.body with
    | .commit tokens _ _ _ _ pos _ _ n ssn _ =>
      if j.applied ∧ n = b.sess ∧ ssn = b.ssn then
        let k := match rel with | some p => (if p < pos then 0 else (p - pos).toNat + 1) | none => 0
        t.sendTokens b (pos + BitVec.ofNat 32 k) (tokens.drop k)
      else t
    | _ => t) s
  if b.st = .completed ∧ s1.sealing b = false then s1.sendResult b b.parkParts else s1

/-- After a takeover or a recovery every held submission's tokens and Results are sent again; the release positions begin
anew (R303, R364). -/
def State.resendAll (s : State) (cov : Bool) : State :=
  let subs := s.ledger.subs.filter (fun b => decide (b.covered = cov))
  let s1 := subs.foldl (fun t b => match b.account with
    | some a => t.updAcct a.val (fun x => { x with relpos := none })
    | none => t) s
  subs.foldl (fun t b => t.resendSub b) s1

/-- Submissions that a rebuilt table shows Running run on for their accounts (R294, R300). -/
def State.resumeRunning (s : State) (cov : Bool) : State :=
  (s.ledger.subs.filter (fun b => decide (b.covered = cov ∧ b.st = .running))).foldl (fun t b =>
    match b.account with
    | some a => t.updAcct a.val (fun x => { x with running := some (b.sess, b.ssn), fedPos := x.pos, fedTok := x.lastTok })
    | none => t) s

/-- Parks that are not retired after a reset: their parcels are sealed again (R308). -/
def State.sealAgain (s : State) : State :=
  let mine := s.ledger.subs.filter (fun b => decide (b.subkind = 3 ∧ b.covered = false) &&
    (match b.account with | some a => decide ((s.acct a.val).st = .parking) | none => false))
  mine.foldl (fun t b =>
    (match b.account with | some a => t.updAcct a.val (fun x => { x with parts := [], exports := [] }) | none => t).updSub
      false b.sess b.ssn (fun y => { y with parts := [] })) s

/-- Sessions of the covered device that go on here under the same number (R286, R364): those whose number no submission of this device
has used. Their last admitted and acknowledged numbers are rebuilt, and their submissions are held here: DESIGN CHOICE (121). -/
def State.adoptSessions (s : State) (recs : List LRecord) : State :=
  let own := fun (n : SessNo) => s.ledger.subs.any (fun b => decide (b.sess = n) && !b.covered) || decide ((s.sess n.toNat).a ≠ 0)
  let s1 := recs.foldl (fun t r => match r.body with
    | .accept n ssn .. => if own n then t else t.updSess n.toNat (fun x => { x with a := ssn })
    | .retire n ack => if own n then t else t.updSess n.toNat (fun x => { x with ack := ack })
    | _ => t) s
  { s1 with ledger := { s1.ledger with subs := s1.ledger.subs.map (fun b =>
    if b.covered && !own b.sess then { b with here := true } else b) } }

/-- The accounts of a home device as they stand before its tables are rebuilt: nothing runs for them. -/
def State.quietAccts (s : State) (home : DevAddr) : State :=
  s.mapAccts (fun _ x => if x.home = home then { x with running := none } else x)

/-- The partner's Ledger is taken over from the replica; no mirror takes entries any more; records of this device that held an LSN are
durable from now on (R241, R256, R297, R298, R303). -/
def State.takeOver (s : State) : State :=
  if s.ledger.mode = 1 then s
  else
    let recs := s.ledger.replica
    let s1 : State := { s with
     mem := { s.mem with ctx := SMap.mapVals s.mem.ctx {} (fun _ c => { c with lag := 0 }) }
     ledger := { s.ledger with
      mode := 1, copied := false, switched := false
      covered := recs.map (fun r => { r := r, frame := s.fu.frame, locally := true, acked := true, applied := true })
      coveredNext := (recs.getLast?.map (fun r => r.lsn + 1)).getD 0
      journal := s.ledger.journal.map (fun j => { j with acked := true }) } }
    let s2 := (recs.foldl (fun t r => t.replayRec [] true (openedAt recs) r) (s1.quietAccts s.partner)).adoptSessions recs
    ((((s2.resumeRunning true).finishEnded true).runDurable).finishEnded false).runDurable.resendAll true

end Sys2Proof.Machine
end

