-- ==== Sys2Proof/Machine/Frames.lean ====
section
/-! DEFINITION. Frames and steps: the frame boundary, throttle pauses, the start of a step, aborts and the replay (R98, R105,
R112, R164, R165, R168-R171, R194-R201, R328-R331, R339, R393, R480). -/

namespace Sys2Proof.Machine

/-! ## The frame tree (R328, R329) -/

/-- Dimensions over which the device at relative address `r` reaches its children. -/
def childDims (n : Nat) (r : DevAddr) : List Nat := (List.range n).filter (fun d => decide (r.toNat < 2 ^ d))

/-- The dimension of the parent's link: the highest bit of the relative address. -/
def parentDim (r : DevAddr) : Option Nat := ((List.range 10).filter (fun d => r.getLsbD d)).getLast?

/-- A frame message's line (R328). -/
def frameLine (frame : Nat) (master : DevAddr) (len : BitVec 2) (epoch : BitVec 16) (noBackup : Bool) : Line :=
  BitVec.ofNat 64 frame ++ master ++ len ++ epoch ++ BitVec.ofBool noBackup ++ (0 : BitVec 931)

/-- A frame message goes to the children of the tree of `master` and to the adopted ones (R329, R393). -/
def State.toChildren (s : State) (master : DevAddr) (line : Line) : State :=
  let s1 := (childDims s.dict.n (s.dict.addr ^^^ master)).foldl (fun t d => t.sendOn d (.frame line)) s
  if s.fu.adopted.contains s.partner then s1.sendOn 0 (.frame line) else s1

/-- The longest length among the votes that the master honours (R330). -/
def FrameU.announce (f : FrameU) : BitVec 2 :=
  ((f.votes.filter (fun v => v.2.2 || f.honour)).map (fun v => v.2.1)).foldl (fun a b => if a < b then b else a)
    (if f.enforced || f.honour then f.vote else 0)

/-- A length announced for a frame. -/
def FrameU.setLen (f : FrameU) (frame : Nat) (len : BitVec 2) : FrameU :=
  { f with lens := f.lens.filter (fun x => decide (x.1 ≠ frame)) ++ [(frame, len)] }

/-- The master's frame message at the first cycle of a frame (R328, R330, R438). -/
def State.masterMessage (s : State) : State :=
  if s.fu.acting = false then s
  else
    let len := s.fu.announce
    let nb := decide ((s.link 10).role ≠ 2)
    let line := frameLine s.fu.frame s.dict.addr len s.fu.epoch nb
    let s1 : State := { s with fu := { (s.fu.setLen (s.fu.frame + 16) len) with curMaster := s.dict.addr, noBackup := nb } }
    (s1.toChildren s.dict.addr line).sendOn 10 (.frame line)

/-! ## The end of a frame (R129, R168, R194-R197) -/

/-- The last cycle of a frame of `rc` real cycles, as a fault found there names it (R204): the schedule cycle at which a hold stands,
else what is left after holds and pauses. -/
def State.lastCycle (s : State) (rc : Nat) : Nat := s.cycleAt (rc - 1)

/-- The hold that stands at the end of a frame of `rc` real cycles is charged (R194, R195). -/
def State.endHold (s : State) (rc : Nat) : State :=
  match s.fu.hold with
  | none => s
  | some (_, real, _) =>
    let n := rc - real
    { s with
      fu := { s.fu with hold := none, held := s.fu.held + n, holds := s.fu.holds + n, causes := [] }
      parts := SMap.mapVals s.parts {} (fun k v =>
        if s.fu.causes.any (fun t => t.toNat = k) then { v with holds := v.holds + n } else v) }

/-- The overrun of a frame (R197): the instructions not yet issued are dropped with their streams, every partition aborts. -/
def State.overrun (s : State) (cyc : Nat) : State :=
  let ps := s.steppers
  let s1 : State := { s with
    fu := { s.fu with overruns := bump32 s.fu.overruns }
    parts := SMap.mapVals s.parts {} (fun k v => if ps.contains k then { v with overruns := bump32 v.overruns } else v) }
  s1.faultWide { code := 0x07, unit := 0x70, cycle := cyc,
                 detail := BitVec.ofNat 16 s.fu.held ++ BitVec.ofNat 16 s.fu.paused }

/-- Streams of partition `p` that have not issued their END in the frame that ends, when the step has ended. -/
def State.missingEnds (s : State) (p : Nat) : List (Nat × Nat × Stream) :=
  (s.tiles.map (fun t => (t.2.streams.filter (fun x =>
    decide (x.2.tag.toNat = p) && (match x.2.ended with | some e => decide (e.1 ≠ s.fu.frame) | none => true))).map
      (fun x => (t.1, x.1, x.2)))).flatten

/-- The step of partition `p` ended in the frame that ends. -/
def State.endedNow (s : State) (p : Nat) : Bool :=
  s.tiles.any (fun t => t.2.streams.any (fun x =>
    decide (x.2.tag.toNat = p) && (match x.2.ended with | some e => decide (e.1 = s.fu.frame) | none => false)))

/-- The credits of a partition's step die: its entries and the mirrors of them (R129). -/
def State.dropCredits (s : State) (p : Nat) : State :=
  s.mapTiles (fun _ t => { t with
    credits := t.credits.filter (fun c => decide (c.2.tag.toNat ≠ p))
    mirrors := t.mirrors.filter (fun m => decide (m.2.2.tag.toNat ≠ p)) })

/-- A step that ended in this frame: streams without their END raise fault 0x01; otherwise it is complete, its credits die, the accounts
that learned in it have a newer adapter generation, and a step without Clearing points starts its summary (R129, R168, R212, R266, R338). -/
def State.closeStep (s : State) (cyc : Nat) (p : Nat) : State :=
  if s.endedNow p = false then s
  else
    let miss := s.missingEnds p
    if miss.isEmpty then
      let s1 := (s.dropCredits p).updPart p (fun q => { q with
        stepFrames := match q.curRun with | some r => s.fu.frame + 1 - r.start | none => q.stepFrames })
      let s1 := (match (s1.part p).curRun with | some r => r.learners | none => []).foldl (fun t a => t.updAcct a (fun x => { x with anew := true })) s1
      if (s1.part p).lastClear = 0 then s1.startSummary p else s1
    else
      let s1 := miss.foldl (fun t x =>
        t.report { code := 0x01, tag := BitVec.ofNat 8 p, tile := some (BitVec.ofNat 9 x.1), unit := 0x4D,
                   iaddr := BitVec.ofNat 14 x.2.2.pc, stream := BitVec.ofNat 3 x.2.1, cycle := cyc,
                   detail := wordDetail (SMap.get (s.tile x.1).store 0 (x.2.2.base.toNat + x.2.2.pc)) }) s
      s1.abortAll 0x01 .unchanged [p]

/-- Everything that belongs to the frame that ends. -/
def State.endFrame (s : State) (rc : Nat) : State :=
  let standing := s.fu.hold.isSome
  let cyc := s.lastCycle rc
  let s1 := (s.endHold rc).reach cyc
  let used := s1.fu.held + s1.fu.paused
  let dusk := duskCycles s1.fu.len
  let isOver := standing || decide (dusk < used)
  let f := s1.fu
  let s2 : State := { s1 with fu := { f with
    framesHeld := if 0 < used then f.framesHeld + 1 else f.framesHeld
    aboveWarn := if f.warn.toNat < used then f.aboveWarn + 1 else f.aboveWarn
    budget := if isOver then f.budget else max f.budget used } }
  let s3 : State := { s2 with power := { s2.power with
    throttled := if 0 < f.paused then s2.power.throttled + 1 else s2.power.throttled
    curFrames := if s2.power.curLimit then s2.power.curFrames + 1 else s2.power.curFrames } }
  if isOver then s3.overrun cyc
  else (s3.parts.map (fun x => x.1)).foldl (fun t p => t.closeStep cyc p) s3

/-! ## The start of a frame -/

/-- A tile at a frame boundary, `now` real cycles after Dawn, after a frame of `n` schedule cycles: row maps take effect, the record of a
mapped row begins anew on its spare row, the port lists begin anew (R121, R127). -/
def Tile.boundary (t : Tile) (now n : Nat) : Tile :=
  { t with
    wide := [], narrow := [], mapping := []
    fills := (t.fills.filter (fun f => decide (now < f.time + 8))).map (fun f => { f with cycle := f.cycle.map (fun c => c - n) })
    rowErrs := t.mapping.foldl (fun m x => SMap.set m {} x.1 { mapped := some x.2 }) t.rowErrs }

/-- An array at a frame boundary: trim banks swap, new column-map entries take effect unless they wait for the array's return,
stage-2 converters are exchanged (R47, R49, R98, R105). -/
def ArrayS.boundary (x : ArrayS) : ArrayS :=
  let y := match x.shadow with | some b => { x with active := b, shadow := none } | none => x
  (if y.st = .withdrawn then y else y.mapCols).exchange

/-- Arrays under full calibration that no loaded partition uses, or whose set is rebuilt, have five calibration slots in a frame
(R103, R111); so has a Withdrawn array, whose calibration is suspended, which belongs to no partition (R54, R103). -/
def State.idleSlots (s : State) : State :=
  ((s.arrays.filter (fun x => x.2.running.isSome || decide (x.2.st = .withdrawn))).map (fun x => x.1)).foldl (fun t a =>
    if (t.array a).st = .withdrawn then t.updArray a (fun x => { x with slots := x.slots + 5 })
    else if (t.usersOf a).isEmpty || decide ((t.array a).rebuild = 1) then (List.range 5).foldl (fun u _ => u.calSlot a) t
    else t) s

/-- The boundary exchange of a Loading partition (R247, R339): line 0 of a summary over dimension 0 first. -/
def State.startExchange (s : State) (p : Nat) : State :=
  let q := s.part p
  if q.st = .loading then
    let d := s.firstRound p
    let m : Summary :=
      { part := BitVec.ofNat 8 p, clearOk := true, loaded := q.loaded, ready := false,
        devices := if q.cover ∧ q.coverAddr = some s.partner then 2 else 1 }
    (s.sendOn d (.exchange d m)).runExchange p d m q.exchEarly
  else s

/-- Frame messages missed in the frame that ended (R329, R331). -/
def FrameU.countMissed (f : FrameU) : FrameU :=
  if f.acting || !f.lock then { f with gotMsg := false, foldRun := f.foldRun + 1 }
  else if f.gotMsg then { f with gotMsg := false, missRun := 0, foldRun := f.foldRun + 1 }
  else { f with missed := f.missed + 1, missRun := f.missRun + 1, foldRun := f.foldRun + 1 }

/-- The frame counter advances and the frame's length takes effect (R165, R330). -/
def FrameU.advance (f : FrameU) : FrameU :=
  { f with
    frame := f.frame + 1
    len := match f.lens.find? (fun x => decide (x.1 = f.frame + 1)) with | some x => x.2 | none => f.len
    lens := f.lens.filter (fun x => decide (f.frame + 1 < x.1))
    cycle := 0, held := 0, paused := 0, hold := none, causes := [] }

/-- A vote sent to the frame master by the directed route (R314, R330). -/
def State.sendVote (s : State) : State :=
  if s.fu.acting then s else s.directed s.fu.curMaster (.vote s.dict.addr s.fu.vote s.fu.enforced)

/-- A vote in force is sent again in every 1,024th frame (R341). -/
def State.repeatVote (s : State) : State := if s.fu.frame % 1024 = 0 then s.sendVote else s

/-- The children of a failed device whose dimension-0 partner is this device (R393). -/
def State.adopts (s : State) (dead : DevAddr) : List DevAddr :=
  ((childDims s.dict.n (dead ^^^ s.fu.curMaster)).map (fun d => dead ^^^ BitVec.ofNat 10 (2 ^ d))).filter
    (fun c => decide (c ^^^ 1 = s.dict.addr))

/-- The covering of a device starts (R256, R272, R393, R432): its partner takes over its Ledger, partners of its children in
the frame tree adopt them, the master drops its votes. -/
def State.startCovering (s : State) (dead : DevAddr) : State :=
  let s1 : State := { s with fu := { s.fu with
    adopted := s.fu.adopted ++ (s.adopts dead).filter (fun c => !s.fu.adopted.contains c)
    votes := s.fu.votes.filter (fun v => decide (v.1 ≠ dead)) } }
  if dead = s.partner then s1.takeOver else s1

/-- Covering takes effect at its replay frame also on a partition that does not step, and adoption with it (R335, R393); where an abort
waits, its replay brings the variant. At the return frame adoption ends (R274, R393). -/
def State.coverFrame (s : State) : State :=
  let due := s.fu.coverAt.filter (fun x => decide (x.1 ≤ s.fu.frame))
  let s0 := s.updFu (fun f => { f with coverAt := f.coverAt.filter (fun x => decide (f.frame < x.1)) })
  let s1 := due.foldl (fun t x =>
    let u : State := { t with parts := SMap.mapVals t.parts {} (fun _ (q : Part) =>
      if q.st = .free ∨ ((q.st = .serving ∨ q.st = .streaming) ∧ q.halt = false) ∨ q.abort.isSome = true then q
      else { q with cover := true, coverAddr := some x.2 }) }
    u.startCovering x.2) s0
  if s1.fu.returnF.any (fun r => decide (r ≤ s1.fu.frame)) then s1.updFu (fun f => { f with adopted := [] }) else s1

/-- Everything that belongs to the first cycle of a frame, after one of `rc` real cycles. -/
def State.startFrame (s : State) (rc : Nat) : State :=
  let s1 := (s.tiles.map (fun x => x.1)).foldl (fun t n => t.settle n 4096) s
  let s2 := (s1.mapTiles (fun _ t => t.boundary (s.now rc) (frameCycles s.fu.len - (s.fu.held + s.fu.paused)))).idleSlots
  let s3 : State := { s2 with
    arrays := SMap.mapVals s2.arrays {} (fun _ x => if (s2.fu.frame + 1) % 1024 = 0 then x.boundary.slotRun else x.boundary)
    mesh := { s2.mesh with used := [] }
    links := SMap.mapVals s2.links {} (fun _ e =>
      if e.st = .active ∨ (e.st = .training ∧ e.stage = 2) then e.idle (s2.fu.frame + 1) else e)
    fu := { s2.fu.countMissed.advance with base := s.now rc }
    mgmt := { s2.mgmt with adc := { s2.mgmt.adc with
      ticks := if s2.mgmt.adc.trig = 1 then s2.mgmt.adc.ticks + 1 else s2.mgmt.adc.ticks } } }
  let s4 := s3.returnRebuilt.coverFrame.masterMessage.repeatVote
  if s4.fu.frame % 4096 = 0 then (s4.parts.map (fun x => x.1)).foldl (fun t p => t.startExchange p) s4 else s4

/-- FRAME_BOUNDARY (R165, R376): `rc` is the length of the frame that ends, in real cycles as this die counted them. The frame counter is
state that the partitions share, so a failed check of its increment is die-wide (R198). -/
def execFrameBoundary (rc : Nat) (upset : Bool) (s : State) : Host.Outcome State Fault Refusal :=
  if s.alive && s.framed then
    let s1 := (s.endFrame rc).startFrame rc
    .next (if upset then s1.faultWide { code := 0x12, tag := 0xFE, unit := 0x70 } else s1)
  else .next s

/-- PAUSE_INSERTION (R196, R428): the pauses asked for, as far as the request, the allowance and the holds leave room. -/
def execPauseInsertion (cycle : Nat) (count : Nat) (s : State) : Host.Outcome State Fault Refusal :=
  let f := s.fu
  let room := min (s.power.request - f.paused) (pauseAllowance f.len - (f.held + f.paused))
  if s.alive && decide (f.hold = none ∧ cycle < 960 ∧ f.cycle ≤ cycle) then
    let n := min count room
    .next { s with fu := { f with paused := f.paused + n, pauses := f.pauses + n, cycle := cycle } }
  else .next s

/-! ## Records of staged values (R480, R492, R503) -/

/-- A staged value takes effect: its change record and the continuation with the stated frame enter the buffer in one act. -/
def State.appliedRec (s : State) (index : Nat) (sub : Nat) (value : BitVec 64) (frame : Nat) : State :=
  if s.recd.buffer.length + 1 < 448 then
    (s.pushRec (.change 3 (BitVec.ofNat 16 index) (BitVec.ofNat 8 sub) 0 0 7 0 0 0 value) true).pushRec
      (.cont (BitVec.ofNat 64 frame)) false
  else { s with recd := { s.recd with lost := s.recd.lost + 2, lostNew := s.recd.lostNew + 2 } }

/-- The index of a partition's entries. -/
def partIndex (p : Nat) : Nat := 0x2000 + p

/-! ## The start of a step (R84-R88, R167-R171, R261, R265, R479, R480) -/

/-- The bits of a partition's layers, every one set: the all-wide recipe (R86). -/
def allLayers (n : BitVec 16) : Line := BitVec.ofNat 1024 (2 ^ n.toNat - 1)

/-- The recipe of the step that starts (R84-R88): a staged one that is due wins over the rule, and ends an all-wide run if its
frame is later than the disagreement (R86). A recipe that the rule derived before automatic widening is written 0 at the same
boundary still takes effect: DESIGN CHOICE (76). -/
def State.takeRecipe (s : State) (p : Nat) : State :=
  let q := s.part p
  match q.stRecipe with
  | some r =>
    if r.frame ≤ s.fu.frame then
      (s.setPart p { q with
        recipe := r.value ||| q.wideOnly, stRecipe := none, nextRecipe := none, marks := 0, clean := []
        wideAt := q.wideAt.filter (fun f => decide (r.frame ≤ f)) }
      ).appliedRec (partIndex p) 0x41 (sha384Low (bytesOfLine r.value)) r.frame
    else s.setPart p { q with recipe := q.nextRecipe.getD q.recipe, nextRecipe := none }
  | none => s.setPart p { q with recipe := q.nextRecipe.getD q.recipe, nextRecipe := none }

/-- The recipe that a step of the partition runs. -/
def Part.recipeNow (q : Part) : Line := if q.wideAt.isSome then allLayers q.layers else q.recipe

/-- Values written for the next step boundary take effect (R479). -/
def Part.takeWaiting (q : Part) : Part :=
  { q with
    learnShare := q.waitShare.getD q.learnShare, waitShare := none
    widenHold := q.waitHold.getD q.widenHold, waitHold := none
    autoWiden := q.waitAuto.getD q.autoWiden, waitAuto := none
    streams := q.nextStreams.getD q.streams, nextStreams := none }

/-- An account's written settings take effect, its draft length keeps to the cap, and an account opened at an earlier
boundary becomes Active (R261, R264, R479, R555). -/
def Account.takeWaiting (x : Account) (verify : Nat) : Account :=
  let cap := x.waitCap.getD x.cap
  { x with
    pinned := x.waitPin.getD x.pinned, waitPin := none, cap := cap, waitCap := none
    tau := x.waitTau.getD x.tau, waitTau := none, topk := x.waitK.getD x.topk, waitK := none
    topp := x.waitP.getD x.topp, waitP := none
    draft := if verify = 0 then 0 else min x.draft cap
    st := if x.opening then .active else x.st, opening := false }

/-- A learning step starts here (R265, R276). -/
def Part.learnNow (q : Part) : Bool :=
  q.anyLearn && q.hasLearn && decide (q.learnShare ≠ 0) && decide (q.learnShare.toNat ≤ q.sinceLearn + 1)

/-- Entries of base tables that firmware writes in the partition's own streams (R167). -/
def State.writeBases (s : State) (p : Nat) (l : List (TileNo × BitVec 3 × BitVec 6 × BitVec 33)) : State :=
  l.foldl (fun t x => t.updTile x.1.toNat (fun u =>
    if (SMap.get u.streams {} x.2.1.toNat).tag.toNat = p then
      { u with streams := SMap.upd u.streams {} x.2.1.toNat (fun st => { st with table := SMap.set st.table 0 x.2.2.1.toNat x.2.2.2 }) }
    else u)) s

/-- A stream at the start of a step (R167, R168). -/
def Stream.start (st : Stream) (frame : Nat) (cover : Bool) : Stream :=
  { st with
    bregs := st.table.filter (fun x => decide (x.1 < 8)), bregOld := [], masks := [], maskAt := [], layer := 0
    pc := if cover then st.cover.toNat else st.normal.toNat
    reached := 0, branch := none, block := some frame, ended := none, qpend := [] }

/-- The cells of the scratchpad blocks of partition `p` that are retained (R122, R200). -/
def State.retainedOf (s : State) (p : Nat) : List Host.Cell :=
  s.spad.filter (fun c =>
    let t := c.1 / padBytes
    let b := SMap.get (s.tile t).blocks {} ((c.1 % padBytes) / 32768)
    decide (b.retained = true ∧ b.tag.toNat = p))

/-- A run whose summary the image places in a frame that no abort can still reach has no further use (R199). -/
def StepRun.spent (r : StepRun) (now off n : Nat) : Bool :=
  decide (r.rounds = some n ∧ r.start + off + 64 < now)

/-- The transit halves of partition `p`, keyed 2 * tile + half (R200). -/
def State.halvesOf (s : State) (p : Nat) : SMap Half :=
  (s.tiles.map (fun t => ((List.range 2).map (fun k => (2 * t.1 + k, t.2.half (decide (k = 1))))).filter
    (fun x => decide (x.2.tag.toNat = p)))).flatten

/-- The accounts that learn in a learning step of partition `p` (R265): those homed here with a pending request, and those of other
devices that firmware names. -/
def State.learnersOf (s : State) (p : Nat) (learns : List SlotNo) : List Nat :=
  (s.accts.filter (fun x => decide (x.2.part.toNat = p) && x.2.learnPend && !x.2.anew)).map (fun x => x.1) ++
    (learns.map (fun a => a.val)).filter (fun a => decide ((s.acct a).part.toNat = p) && !(s.acct a).learnPend)

/-- The first line of the copy that holds an account's newest adapter generation, committed or not, or of the other copy, which a learning
step writes (R258, R266). -/
def Account.adapterCopy (x : Account) (write : Bool) : Option Nat :=
  x.abase.map (fun q => adapterLine q x.asize.toNat ((x.cur ^^ x.anew) ^^ write))

/-- Firmware points entries of the partition's base tables at the adapter copies that the step reads and writes (R167, R258). -/
def State.writeAdapters (s : State) (p : Nat) (l : List AdapterBase) : State :=
  l.foldl (fun t x =>
    match (if (t.acct x.account.val).part.toNat = p then (t.acct x.account.val).adapterCopy x.write else none) with
    | some line => t.writeBases p [(x.tile, x.stream, x.entry, BitVec.ofNat 33 (line + x.offset.toNat))]
    | none => t) s

/-- The streams of partition `p` start a step with number and attempt `due` in the present frame; adapters that are learned for the
first time get their places (log entry 88). -/
def State.startStreams (s : State) (p : Nat) (step : BitVec 48) (attempt : BitVec 8) (fw : Boundary) : State :=
  let q := s.part p
  let learn := q.learnNow
  let learners := if learn then s.learnersOf p fw.learns else []
  let r : StepRun :=
    { step := step, attempt := attempt, start := s.fu.frame, cover := q.cover, learn := learn, recipe := q.recipeNow,
      overflow := 0, clearFail := false, passed := [], rounds := none, summary := {}, early := [], retained := s.retainedOf p,
      halves := s.halvesOf p, learners := learners, since := q.sinceLearn }
  let q' : Part := { q with
    step := step, attempt := attempt, nextStart := none
    due := (step + 1, ((q.tries.find? (fun x => decide (x.1 = step + 1))).map (fun x => x.2)).getD 1)
    tries := q.tries.filter (fun x => decide (step < x.1))
    runs := q.runs.filter (fun x => !x.spent s.fu.frame q.summaryOff s.dict.n) ++ [r]
    sinceLearn := if learn then 0 else q.sinceLearn + 1 }
  let s1 := (learners.foldl (fun t a => t.placeAdapter p a q.rank q.adLines) (s.setPart p q')).writeAdapters p fw.adapters
  { s1 with
    tiles := SMap.mapVals s1.tiles {} (fun _ t => { t with streams := SMap.mapVals t.streams {} (fun _ st =>
      if st.tag.toNat = p then st.start s.fu.frame q.cover else st) })
    mem := { s1.mem with ctx := SMap.mapVals s1.mem.ctx {} (fun _ c =>
      if c.tag.toNat = p then { c with pendDig := 0 } else c) }
    health := { s1.health with firstUse := if s1.health.firstUse < 4096 then s1.health.firstUse + 1 else s1.health.firstUse } }

/-- Every array of a partition is Resident (R246). -/
def State.allResident (s : State) (p : Nat) : Bool := (s.part p).arrays.all (fun a => decide ((s.array a.toNat).st = .resident))

/-- Partitions attached to a base (R250). -/
def State.attached (s : State) (base : Nat) : List Nat :=
  (List.range 128).filter (fun p => ((SMap.get s.dict.bases (0, 0) base).1).getLsbD p)

/-- The arrays of a base wait for the program engines of their tiles, once every partition attached runs streamed (R268). -/
def State.queuePrograms (s : State) (base : Nat) : State :=
  if (s.attached base).all (fun p => decide ((s.part p).repl = 2)) then
    ((s.arrays.filter (fun x => decide (x.2.base = some (BitVec.ofNat 5 base)))).map (fun x => x.1)).foldl (fun t a =>
      t.updTile (a / 64) (fun u =>
        { u with progQueue := if u.progQueue.contains (BitVec.ofNat 15 a) then u.progQueue else u.progQueue ++ [BitVec.ofNat 15 a] })) s
  else s

/-- An account moves to another partition of the tenant: its tag and its descriptors' change in one write (R270). -/
def State.moveAcct (s : State) (a p : Nat) (toCompanion : Bool) : State :=
  let old := (s.acct a).part
  let keys := (s.mem.ctx.filter (fun x => decide (x.2.account.toNat = a ∧ x.2.tag = old))).map (fun x => x.1)
  keys.foldl (fun t k => t.updDesc k (fun c => { c with tag := BitVec.ofNat 8 p }))
    ((s.updAcct a (fun x => { x with part := BitVec.ofNat 8 p, companion := toCompanion, batch := some (s.freeBatch p) })).updPart p
      (fun q => { q with hosted := q.hosted || toCompanion }))

/-- Accounts of a companion whose pin the host has cleared go back to the partition that names it; once its last account has left, by a
move or by its close, a companion closes (R270). -/
def State.leaveCompanion (s : State) (p : Nat) : State :=
  match s.parts.find? (fun x => decide (x.2.companion = BitVec.ofNat 8 p)) with
  | none => s
  | some (q, _) =>
    let mine := s.accts.filter (fun x => decide (x.2.part = BitVec.ofNat 8 p) && !x.2.unused)
    let back := (mine.filter (fun x => x.2.companion && decide (x.2.pinned = 0))).map (fun x => x.1)
    let s1 := back.foldl (fun t a => t.moveAcct a q false) s
    if mine.length = back.length ∧ (s.part p).hosted = true ∧ (s.part p).closeF = none then
      s1.updPart p (fun x => { x with closeF := some s.fu.frame })
    else s1



/-- The committed pages of a stream, in page order, as they leave for another partition of the tenant; a stream with no committed
position sends one empty message (R239). -/
def State.pageMsgs (s : State) (dst : PartNo) (index streams : Nat) (key : Nat) : List PagesMsg :=
  let c := s.ctxAt key
  let n := c.committed.toNat
  let pages := max 1 ((n + c.perPage - 1) / c.perPage)
  (List.range pages).map (fun p =>
    { part := dst, account := slotNo c.account.toNat, layer := c.layer, head := c.head, hdim := c.hdim,
      firstPos := BitVec.ofNat 23 (p * c.perPage)
      entries := ((List.range (min c.perPage (n - p * c.perPage))).filterMap (fun k => s.entryPos c (p * c.perPage + k)))
      last := if p + 1 = pages then some (c.committed, c.cdigest) else none
      index := index, streams := streams, answer := none })

/-- A context transfer begins at the source (R239 step 1, R255): an Active account without work becomes Transferring with its streams,
whose committed pages are sent; its destination is another partition of the same tenant. -/
def State.startMove (s : State) (p a : Nat) (link : Nat) (dst : PartNo) : State :=
  let x := s.acct a
  if x.st ≠ .active ∨ x.part.toNat ≠ p ∨ x.running.isSome ∨ dst.toNat = p ∨ (s.link link).st ≠ .active then s
  else
    let keys := s.ctxKeys p a false
    let s1 := keys.foldl (fun t k => t.updDesc k (fun c => { c with st := 3 })) (s.updAcct a (fun x => { x with st := .transferring }))
    keys.zipIdx.foldl (fun t k => (s.pageMsgs dst k.2 keys.length k.1).foldl (fun u m => u.sendOn link (.pages m)) t) s1

/-- The transfers that firmware begins at a step boundary of the partition. -/
def State.startMoves (s : State) (p : Nat) (l : List (SlotNo × LinkNo × PartNo)) : State :=
  l.foldl (fun t x => t.startMove p x.1.val x.2.1.val x.2.2) s

/-- Accounts homed on other devices of which a submission starts to run at this boundary are fed from their last commits (R287, R294). -/
def State.beginElsewhere (s : State) (p : Nat) (l : List SlotNo) : State :=
  l.foldl (fun t a => if (t.acct a.val).part.toNat = p ∧ t.isHome a.val = false then t.updAcct a.val Account.fromCommit else t) s

/-- Partition `p` is the companion of another one: it runs streamed, from its copy of the old digital image (R270). -/
def State.isCompanion (s : State) (p : Nat) : Bool := s.parts.any (fun x => decide (x.2.companion = BitVec.ofNat 8 p ∧ p < 128))

/-- What firmware does for partition `p` at a step boundary before its streams start (R246, R268, R270, R479, R480); covering ends
at the first one at or after the return frame (R274). -/
def State.boundaryWork (s : State) (p : Nat) (fw : Boundary) : State :=
  let s := ((s.writeBases p fw.bases).startMoves p fw.moves).beginElsewhere p fw.begins
  let s1 := ((s.updPart p Part.takeWaiting).takeRecipe p).updPart p (fun q =>
    let q := { q with streams := q.streams ||| fw.streams, staged := fw.staged.or q.staged }
    if s.fu.returnF.any (fun r => decide (r ≤ s.fu.frame)) then { q with cover := false, coverAddr := none } else q)
  let v := (s1.part p).verify.toNat
  let s2 := (s1.mapAccts (fun _ x => if x.part.toNat = p then x.takeWaiting v else x)).leaveCompanion p
  let q := s2.part p
  if q.replReq then
    (s2.setPart p { q with st := .streaming, repl := 2, replReq := false, programmed := 0, streams := BitVec.allOnes 1024 }).queuePrograms
      q.base.toNat
  else if s2.isCompanion p then s2.setPart p { q with st := .streaming, streams := BitVec.allOnes 1024 }
  else if q.st = .streaming ∧ q.repl = 0 ∧ s2.allResident p = true then s2.setPart p { q with st := .serving }
  else if q.st = .streaming then s2.setPart p { q with streams := BitVec.allOnes 1024 }
  else s2

/-- The partition steps: Serving or Streaming, not halted under R275, not stopped. -/
def Part.steps (q : Part) : Bool := decide (q.st = .serving ∨ q.st = .streaming) && !q.halt

/-- A failed residue check of the step counter or of an overflow counter aborts the step that starts (R376). -/
def State.countersOk (s : State) (p : Nat) (upset : Bool) : State :=
  if upset then s.fault { code := 0x12, tag := BitVec.ofNat 8 p, unit := 0x70 } else s

/-- STEP_START (R168): at the frame the last END named, firmware's boundary work, then the streams at their entry addresses. -/
def execStepStart (part : PartNo) (fw : Boundary) (s : State) : Host.Outcome State Fault Refusal :=
  let p := part.toNat
  let q := s.part p
  if s.alive && q.steps && decide (q.nextStart = some s.fu.frame ∧ q.abort = none) then
    .next (((s.boundaryWork p fw).startStreams p q.due.1 q.due.2 fw).countersOk p fw.upset)
  else .next s

/-! ## Aborts and replay (R198-R201, R272, R294, R340) -/

/-- An abort notice reaches this device (R198, R199, R314, R340): it acts here, and floods on unless already seen. -/
def State.noticeAbort (s : State) (link : Nat) (n : AbortNotice) : State :=
  let key := (n.part, n.frame.toNat, n.origin)
  if s.fu.seenAborts.contains key then s
  else
    let s1 : State := { s with fu := { s.fu with seenAborts := s.fu.seenAborts ++ [key] } }
    let s2 := s1.flood (some link) (.abort n)
    if (s2.part n.part.toNat).st = .free then s2
    else
      let s2 := if s2.newAbort n.part.toNat n.frame.toNat then s2.updFu (fun f => { f with aborts := bump32 f.aborts }) else s2
      let s3 := if n.recipe then s2.updPart n.part.toNat (fun q => { q with wideAt := some (max (q.wideAt.getD 0) n.frame.toNat) }) else s2
      s3.abortHere n.part.toNat n.frame.toNat n.variant n.streams

/-- The tile part of R200 at the replay frame: entries Free under a new epoch, a half whose load the abort cut short in doubt, void
results gone. -/
def Tile.replay (t : Tile) (p : Nat) : Tile :=
  let free := fun (e : QEntry) => if e.tag.toNat = p then ({ epoch := e.epoch + 1 } : QEntry) else e
  let half := fun (h : Half) => if h.tag.toNat = p ∧ h.loading.isSome then { h with loading := none, doubt := true } else h
  { t with
    loads := SMap.mapVals t.loads {} (fun _ e => free e)
    stores := SMap.mapVals t.stores {} (fun _ e => free e)
    ops := t.ops.filter (fun o => decide (o.tag.toNat ≠ p))
    halfA := half t.halfA, halfB := half t.halfB }

/-- The lines of a half loaded anew, each from where it came (R140). -/
def State.refill (s : State) (t : Nat) (h : Half) : Half :=
  h.origin.foldl (fun (x : Half) o =>
    match o.2 with
    | .nowhere => x
    | .pad l => x.put o.1 (s.padLine t l) o.2
    | .stack l => x.put o.1 (s.readMem l) o.2) { h with lines := [], check := [], tally := [], loading := none, copy := none, doubt := false }

/-- A half in doubt is restored as it stood at the start of the aborted step, or else as it stands, from its sources: retained blocks
and the stacks (R140, R200). -/
def State.reloadHalf (s : State) (t : Nat) (b : Bool) (r : Option StepRun) (p : Nat) (h : Half) : Half :=
  if h.tag.toNat = p ∧ h.doubt = true then
    match r with
    | some run => s.refill t (SMap.get run.halves { tag := h.tag } (2 * t + b.toNat))
    | none => s.refill t h
  else h

/-- A program store that met an uncorrectable word is loaded again from its copy in granules 5-6 (R166, R205). -/
def Tile.reloadStore (t : Tile) : Tile := if t.reload then { t with reload := false, store := t.storeCopy } else t

/-- A transfer entry of an aborted partition begins its use anew. -/
def Xfer.reset (x : Xfer) : Xfer :=
  { x with digs := [], arrived := [], locals := [], reads := 0, recvs := [], inherit := none, sent := 0, failed := false, done := false }

/-- The endpoint part of R200: lines, slots and entries of the aborted partition are empty again. -/
def Endpoint.replay (e : Endpoint) (p : Nat) : Endpoint :=
  let mine := fun (l : SMap Xfer) (n : Nat) => l.any (fun x => decide (x.2.tag.toNat = p) && x.2.covers n)
  { e with
    txLines := e.txLines.filter (fun x => !mine e.txEnts x.1)
    rxSlots := e.rxSlots.filter (fun x => !mine e.rxEnts x.1)
    txEnts := SMap.mapVals e.txEnts {} (fun _ x => if x.tag.toNat = p then x.reset else x)
    rxEnts := SMap.mapVals e.rxEnts {} (fun _ x => if x.tag.toNat = p then x.reset else x) }

/-- An engine at the replay frame: jobs, slots, result lines and flags of the aborted partition are gone (R241). -/
def Engine.replay (e : Engine) (p : Nat) : Engine :=
  { e with
    slots := e.slots.filter (fun x => decide (x.2.2.toNat ≠ p))
    waiting := e.waiting.filter (fun j => decide (j.tag.toNat ≠ p))
    running := match e.running with | some j => if j.tag.toNat = p ∧ j.void = false then none else some j | none => none
    results := e.results.filter (fun x => decide (x.2.tag.toNat ≠ p)) }

/-- The messages of an aborted partition that wait in the mesh or at a stack are dropped; what returns for the old epoch is
discarded where it lands. -/
def keepMsg (p : Nat) (m : Msg) : Bool :=
  match m.msg with
  | .loadReq .. | .readReq .. => decide (m.tag.toNat ≠ p)
  | _ => true

/-- The mesh without an aborted partition's flits (R200). -/
def Mesh.replay (m : Mesh) (p : Nat) : Mesh :=
  { m with flits := m.flits.filter (fun f => decide (f.tag.toNat ≠ p)), qreq := m.qreq.filter (keepMsg p), vc2 := m.vc2.filter (keepMsg p) }

/-- The chunks of the pages of partition `p`'s own context streams, whose lines the partner's mirror restores (R217, R230). -/
def State.ctxLines (s : State) (p : Nat) : List Nat :=
  ((s.mem.ctx.filter (fun x => decide (x.2.tag.toNat = p ∧ x.2.mirror = 0))).map (fun x =>
    (List.range x.2.pages.toNat).filterMap (fun n => (s.pageLine x.2 n).map (fun l => l / 128)))).flatten

/-- The cells of the partition's activation blocks, or of its retained ones, become zero (R123). -/
def State.zeroBlocks (s : State) (p : Nat) (retained : Bool) : State :=
  { s with spad := s.spad.filter (fun c =>
    let b := SMap.get (s.tile (c.1 / padBytes)).blocks {} ((c.1 % padBytes) / 32768)
    !decide (b.retained = retained ∧ b.tag.toNat = p)) }

/-- The partition's retained blocks are zeroed and loaded again from their stack copies (R123, R126, R520), which hold what the blocks
held when the first uncommitted step started: DEDUCED (63). -/
def State.reloadRetained (s : State) (p : Nat) (copies : List Host.Cell) : State :=
  let z := s.zeroBlocks p true
  { z with spad := copies.foldl (fun m c => Cells.write m c.1 [c.2]) z.spad }

/-- Everything of R200 and R294 at the replay frame of partition `p`. -/
def State.undo (s : State) (p : Nat) (r : Option StepRun) : State :=
  let s0 : State := match r with
    | some run => s.reloadRetained p run.retained
    | none => s
  let s1 := (s0.mapTiles (fun _ t => (t.replay p).reloadStore)).dropCredits p
  let s2 := s1.mapTiles (fun n t =>
    { t with halfA := s1.reloadHalf n false r p t.halfA, halfB := s1.reloadHalf n true r p t.halfB })
  let s3 : State := { s2 with
    mesh := s2.mesh.replay p
    links := SMap.mapVals s2.links {} (fun _ e => e.replay p)
    mem := { s2.mem with
      engines := SMap.mapVals s2.mem.engines {} (fun _ e => e.replay p)
      lost := s2.mem.lost.filter (fun l => !(s2.ctxLines p).contains (l / 128))
      ctx := SMap.mapVals s2.mem.ctx {} (fun _ c => if c.tag.toNat = p then { c with pendDig := 0 } else c) } }
  let s4 := match r with
    | some run => s3.updLedger (fun l => { l with sums := l.sums.filter (fun m =>
        !decide (m.part.toNat = p ∧ run.step ≤ m.step)) })
    | none => s3
  s4.mapAccts (fun _ x =>
    if x.part.toNat = p ∧ x.st ≠ .free then
      x.fromCommit
    else x)

/-- The variant of the replay (R171, R199, R272). -/
def State.takeVariant (s : State) (p : Nat) (a : AbortS) : State :=
  let s1 := s.updPart p (fun q => { q with streams := a.streams, nextStreams := none })
  match a.variant with
  | .unchanged => s1
  | .normal => s1.updPart p (fun q => { q with cover := false, coverAddr := none })
  | .covering d => (s1.updPart p (fun q => { q with cover := true, coverAddr := some d })).startCovering d

/-- A partition stopped after sixteen attempts of step `x` (R201): fault 0x20, an event, no restart; `r` is the first step undone. -/
def State.stopPart (s : State) (p : Nat) (r x : StepRun) : State :=
  let q := s.part p
  let s1 := s.setPart p { q with
    before := q.st, st := .stopped, stopped := true, abort := none, nextStart := none,
    runs := q.runs.filter (fun x => decide (x.step < r.step)) }
  (s1.faultDrop { code := 0x20, tag := BitVec.ofNat 8 p, unit := 0x70, cycle := s.fu.cycle,
                  detail := x.step.setWidth 32 }).partEvent 3 p 1 0

/-- REPLAY_START (R199-R201): from the replay frame on, the partition restarts its first aborted step with a higher attempt
number, or goes on with its next step where no step was aborted. -/
def execReplayStart (part : PartNo) (fw : Boundary) (s : State) : Host.Outcome State Fault Refusal :=
  let p := part.toNat
  let q := s.part p
  match q.abort with
  | none => .next s
  | some a =>
    if s.alive = false ∨ s.fu.frame < a.replay ∨ q.steps = false ∨ s.health.st ≠ 0 then .next s
    else
      let first := q.firstAborted a.frame
      let lost := q.abortedRuns a.frame
      let s1 := s.undo p first
      let s2 := s1.updPart p (fun q => { q with
        abort := none, replayed := some a.replay, aborted := min (q.aborted + lost.length) 4294967295,
        sinceLearn := match first with | some r => r.since | none => q.sinceLearn
        anyLearn := q.anyLearn || lost.any (fun r => r.learn)
        abortRun := match first with | some r => r.attempt.toNat | none => 0
        tries := lost.tail.map (fun r => (r.step, r.attempt + 1)) ++
          q.tries.filter (fun x => !lost.any (fun r => decide (r.step = x.1))) })
      match first with
      | some r =>
        match lost.find? (fun x => decide (16 ≤ x.attempt.toNat)) with
        | some x => .next ((s2.takeVariant p a).stopPart p r x)
        | none =>
          let s3 := ((s2.updPart p (fun q => { q with runs := q.runs.filter (fun x => decide (x.step < r.step)) })).takeVariant
            p a).boundaryWork p fw
          .next ((s3.startStreams p r.step (r.attempt + 1) fw).countersOk p fw.upset)
      | none => .next ((((s2.takeVariant p a).boundaryWork p fw).startStreams p q.due.1 q.due.2 fw).countersOk p fw.upset)

end Sys2Proof.Machine
end

