-- ==== Sys2Proof/Machine/Mint.lean ====
section
/-! DEFINITION. The Mint (R259-R264): the distributions, acceptance of drafts, sampling, sampler states. -/

namespace Sys2Proof.Machine

/-- A candidate: token and logit, later token and weight or probability. -/
abbrev Cand := Nat × W32

/-- FP32 sum in list order. -/
def f32SumOf (l : List W32) : W32 := l.foldl f32Add 0

/-- `a` comes before `b`: higher value first, ties to the lower token (R262, R263). -/
def candBefore (a b : Cand) : Bool := f32Lt b.2 a.2 || (!f32Lt a.2 b.2 && decide (a.1 < b.1))

/-- A candidate put into its place. -/
def insertCand (a : Cand) : List Cand → List Cand
  | [] => [a]
  | b :: t => if candBefore a b then a :: b :: t else b :: insertCand a t

/-- Candidates by value, highest first. -/
def sortCand (l : List Cand) : List Cand := l.foldr insertCand []

/-- Candidates in token order. -/
def insertTok (a : Cand) : List Cand → List Cand
  | [] => [a]
  | b :: t => if a.1 ≤ b.1 then a :: b :: t else b :: insertTok a t

/-- Candidates in token-identifier order. -/
def byToken (l : List Cand) : List Cand := l.foldr insertTok []

/-- The merged candidate set: the highest 1,024 of the union of the shares (R262). -/
def mergedSet (l : List Cand) : List Cand := (sortCand l).take 1024

/-- Top-k in force: 0 means 1,024 (R262). -/
def topkOf (k : BitVec 16) : Nat := if k = 0 then 1024 else min k.toNat 1024

/-- The shortest prefix whose running sum reaches a limit, with that sum. -/
def takeMass (limit : W32) : W32 → List Cand → List Cand × W32
  | run, [] => ([], run)
  | run, c :: t =>
    let r := f32Add run c.2
    if f32Le limit r then ([c], r)
    else
      let (l, s) := takeMass limit r t
      (c :: l, s)

/-- The distribution of a slot (R263). -/
def mintDist (c : List Cand) (tau : W32) (k : BitVec 16) (pi : W32) : List Cand :=
  let c := mergedSet c
  if f32Eq tau 0 then (match c with | [] => [] | b :: _ => [(b.1, 0x3F800000)])
  else
    let z := (sortCand (c.map (fun x => (x.1, f32Div x.2 tau)))).take (topkOf k)
    let m := (z.head?.map (fun x => x.2)).getD 0
    let w := z.map (fun x => (x.1, f32Exp (f32Sub x.2 m)))
    let s := f32SumOf (w.map (fun x => x.2))
    let (kept, total) := takeMass (f32Mul pi s) 0 w
    kept.map (fun x => (x.1, f32Div x.2 total))

/-- The probability of a token; zero outside the set. -/
def probOf (d : List Cand) (tok : Nat) : W32 := ((d.find? (fun x => decide (x.1 = tok))).map (fun x => x.2)).getD 0

/-- The sampling walk in token order: the first token whose running sum exceeds `u`, else the last with a probability that is
not zero (R263). -/
def mintWalk (u : W32) : W32 → Option Nat → List Cand → Option Nat
  | _, last, [] => last
  | run, last, c :: t =>
    let r := f32Add run c.2
    if f32Lt u r then some c.1 else mintWalk u r (if f32Lt 0 c.2 then some c.1 else last) t

/-- A token sampled from a distribution. -/
def mintSample (d : List Cand) (u : W32) : Option Nat := mintWalk u 0 none (byToken d)

/-- The distribution after a rejection: max(0, p - q) over the candidate set, renormalised; p where it is zero throughout
(R263). -/
def mintResidual (c p q : List Cand) : List Cand :=
  let r := (mergedSet c).map (fun x =>
    let v := f32Sub (probOf p x.1) (probOf q x.1)
    (x.1, if f32Lt 0 v then v else 0))
  let total := f32SumOf ((byToken r).map (fun x => x.2))
  if f32Eq total 0 then p else r.map (fun x => (x.1, f32Div x.2 total))

/-- The uniform values u_a and u_s of a slot (R80, R263). -/
def mintUniforms (seed : BitVec 64) (token slot : Nat) : W32 × W32 :=
  let q := philox (seed.extractLsb' 0 32) (seed.extractLsb' 32 32) 0 (BitVec.ofNat 32 slot) (BitVec.ofNat 32 token) 0x01000000
  (f32Round false ((q.word 0).toNat / 256) (-24), f32Round false ((q.word 1).toNat / 256) (-24))

/-- What a Mint run works on. -/
structure MintIn where
  seed   : BitVec 64
  pos    : Nat
  d      : Nat
  tau    : W32
  k      : BitVec 16
  pi     : W32
  agen   : BitVec 64
  full   : List (List Cand)
  draft  : List (List Cand)
  drafts : List Nat

/-- The sampler state of the token at slot `j` (R264). -/
def MintIn.state (m : MintIn) (j : Nat) (acc : Bool) : SamplerState :=
  { seedDig := sha384Low (bytesOfNat 8 m.seed.toNat), pos := BitVec.ofNat 32 (m.pos + 1 + j), tau := m.tau, pi := m.pi,
    km1 := BitVec.ofNat 10 (topkOf m.k - 1), draft := BitVec.ofNat 5 m.d, slot := BitVec.ofNat 5 j, acc := acc,
    adapter := m.agen }

/-- The slots from `j` on (R260, R263): tokens with their sampler states, and the drafts accepted; `n` slots are left. -/
def MintIn.run (m : MintIn) : Nat → Nat → List (W32 × SamplerState)
  | 0, _ => []
  | n + 1, j =>
    let c := m.full.getD j []
    let p := mintDist c m.tau m.k m.pi
    let (ua, us) := mintUniforms m.seed (m.pos + 1 + j) j
    let yields := fun (d : List Cand) =>
      match mintSample d us with
      | some t => [(BitVec.ofNat 32 t, m.state j false)]
      | none => []
    if j < m.d then
      let q := mintDist (m.draft.getD j []) m.tau m.k m.pi
      let t := m.drafts.getD j 0
      if f32Lt (f32Mul ua (probOf q t)) (probOf p t) then (BitVec.ofNat 32 t, m.state j true) :: m.run n (j + 1)
      else yields (mintResidual c p q)
    else yields p

/-- The tokens of a step, at most 16 (R260). -/
def MintIn.yield (m : MintIn) : List (W32 × SamplerState) := m.run (min (m.d + 1) 16) 0

/-- MINT_RUN (R259-R265, R377; for `upset` log entry 96): the outcome of the account's step; the last yielded token and the next
draft length are the next
step's input. A learning step yields nothing. -/
def execMintRun (part : PartNo) (account : SlotNo) (full draft : List (List (Nat × W32))) (drafts : List Nat) (upset tableBad : Bool)
    (s : State) : Host.Outcome State Fault Refusal :=
  let p := s.part part.toNat
  let x := s.acct account.val
  if s.alive && decide (x.st = .active ∧ x.part = part.setWidth 8 ∧ p.abort = none) && p.steps &&
      !(match p.curRun with | some r => r.learn | none => false) then
    if upset then .next (s.fault { code := 0x12, tag := part.setWidth 8, unit := 0x71, cycle := s.fu.cycle })
    else if tableBad then .next (s.fault { code := 0x13, tag := part.setWidth 8, unit := 0x71, cycle := s.fu.cycle })
    else
    let d := if p.verify = 0 then 0 else min x.draft drafts.length
    let m : MintIn :=
      { seed := x.seed, pos := x.fedPos.toNat, d := d, tau := x.tau, k := x.topk, pi := x.topp, agen := x.newest.setWidth 64,
        full := full, draft := draft, drafts := drafts }
    let y := m.yield
    let acc := (y.filter (fun t => t.2.acc)).length
    let o : Outcome :=
      { kind := .tokens, tokens := y.map (fun t => t.1), states := y.map (fun t => t.2), step := p.step, attempt := p.attempt,
        pos := x.fedPos, drafts := BitVec.ofNat 5 d, accepted := BitVec.ofNat 5 acc }
    .next (s.setAcct account.val { x with
      minted := some o, fedPos := x.fedPos + BitVec.ofNat 32 y.length, fedTok := (o.tokens.getLast?).getD x.fedTok,
      draft := nextDraft d acc x.cap })
  else .next s

end Sys2Proof.Machine
end

