-- ==== Sys2Proof/Machine/Serving.lean ====
section
/-! DEFINITION. Escrow, stage 2, submissions at step boundaries, parks and restores, and what the partner's and the home
device's messages do to the Ledger and the context (R255, R281, R282, R287-R297, R304-R308, R555). -/

namespace Sys2Proof.Machine

/-! ## Escrow (R289, R291) -/

/-- The submission that runs for an account. -/
def State.runningSub (s : State) (a : Nat) : Option Sub :=
  match (s.acct a).running with
  | none => none
  | some r => s.findSub (s.coversAcct a) r.1 r.2

/-- An outcome dropped and counted (R289). -/
def State.dropOutcome (s : State) : State := s.updLedger (fun l => { l with drops := l.drops + 1 })

/-- The input of an account's next step once an outcome has landed (R260, R261, R263): the Mint has set it where this device samples;
elsewhere the outcome brings it, and a prompt chunk moves the position past the entries it appended. -/
def Account.feed (x : Account) (o : Outcome) : Account :=
  match o.kind with
  | .learn _ => x
  | .chunk n => { x with fedPos := if x.fedPos < o.pos + BitVec.ofNat 32 n then o.pos + BitVec.ofNat 32 n else x.fedPos }
  | .tokens =>
    if x.minted.any (fun m => decide (m.step = o.step ∧ m.attempt = o.attempt)) then { x with minted := none }
    else if x.minted.isSome then x
    else
      { x with
        fedPos := o.pos + BitVec.ofNat 32 o.tokens.length, fedTok := o.tokens.getLast?.getD x.fedTok
        draft := nextDraft o.drafts.toNat o.accepted.toNat x.cap }

/-- The adapter generation that an outcome's step used (R264, R291). -/
def outcomeAgen (o : Outcome) (x : Account) : BitVec 32 :=
  match o.states with | t :: _ => t.adapter.setWidth 32 | [] => x.newest

/-- The result of a learning step is discarded: no newer adapter generation waits any more (R258, R267). -/
def State.unlearn (s : State) (a : Nat) (o : Outcome) : State :=
  match o.kind with
  | .learn _ => s.updAcct a (fun x => { x with anew := false })
  | _ => s

/-- ESCROW_ARRIVAL (R289): an outcome holds at most 16 tokens with their states. -/
def execEscrowArrival (part : PartNo) (account : SlotNo) (o : Outcome) (s : State) : Host.Outcome State Fault Refusal :=
  let a := account.val
  let x := s.acct a
  if s.isHome a = false ∨ (s.part part.toNat).abort ≠ none then .next s
  else if s.ledger.escrow.any (fun e => decide (e.1 = a)) then
    .next (s.fault { code := 0x02, tag := part.setWidth 8, unit := 0x71, cycle := s.fu.cycle, detail := BitVec.ofNat 32 a })
  else
    match s.runningSub a with
    | none => .next s.dropOutcome
    | some b =>
      if b.doneLsn.isSome ∨ b.part ≠ part ∨ o.pos ≠ x.pos then .next (s.unlearn a o).dropOutcome
      else .next ((s.updLedger (fun l => { l with escrow := SMap.put (SMap.drop l.escrow a) a (part, o, none) })).updAcct a (fun x => x.feed o))

/-- The complete summary of a step and attempt that the Ledger may use (R291, R338). -/
def State.sumOf (s : State) (p : PartNo) (step : BitVec 48) (attempt : BitVec 8) : Option Summary :=
  s.ledger.sums.find? (fun m => m.clearOk && decide (m.part = p.setWidth 8 ∧ m.step = step ∧ m.attempt = attempt))

/-- The tokens that a Commit keeps: up to MAXTOK, or up to and including ENDTOK (R297). -/
def keepTokens (owed : Nat) (endtok : W32) : List W32 → List W32
  | [] => []
  | t :: rest =>
    match owed with
    | 0 => []
    | n + 1 => if endtok ≠ BitVec.allOnes 32 ∧ t = endtok then [t] else t :: keepTokens n endtok rest

/-- Escrow's outcome for an account holds the LSN of its record from now on (R294). -/
def State.numberEscrow (s : State) (a : Nat) (lsn : BitVec 64) : State :=
  s.updLedger (fun l => { l with escrow := l.escrow.map (fun e => if e.1 = a then (e.1, e.2.1, e.2.2.1, some lsn) else e) })

/-- An outcome discarded at stage 2. -/
def State.clearEscrow (s : State) (a : Nat) : State :=
  s.updLedger (fun l => { l with escrow := l.escrow.filter (fun e => decide (e.1 ≠ a)) })

/-- The outcome's record keeps every entry that its step appended for the account: a prompt chunk's, or those of the input token and of every
draft (R259, R260). -/
def keepsAll (b : Sub) (o : Outcome) : Bool :=
  match o.kind with
  | .tokens => decide ((keepTokens (b.maxtok.toNat - b.tokens) b.endtok o.tokens).length = o.drafts.toNat + 1)
  | _ => true

/-- The record that stage 2 assigns to an outcome (R291, R293). -/
def outcomeBody (b : Sub) (x : Account) (o : Outcome) (cdelta : BitVec 61) : RecBody :=
  match o.kind with
  | .learn adigest => .learn (x.agen + 1) adigest b.sess b.ssn
  | .chunk n =>
    .commit [] [] cdelta o.step o.attempt (o.pos + 1) (o.pos + BitVec.ofNat 32 n) (outcomeAgen o x) b.sess b.ssn
      (BitVec.ofNat 32 (b.maxtok.toNat - b.tokens))
  | .tokens =>
    let kept := keepTokens (b.maxtok.toNat - b.tokens) b.endtok o.tokens
    .commit kept (o.states.take kept.length) cdelta o.step o.attempt (o.pos + 1) (o.pos + BitVec.ofNat 32 kept.length) (outcomeAgen o x)
      b.sess b.ssn (BitVec.ofNat 32 (b.maxtok.toNat - b.tokens - kept.length))

/-- COMMIT_TEST (R20 stage 2, R291, R293, R295-R297): the deadline and the cancel of an arrived outcome, then the LSN of its
record, in one act. -/
def execCommitTest (account : SlotNo) (s : State) : Host.Outcome State Fault Refusal :=
  let a := account.val
  match s.ledger.escrow.find? (fun e => decide (e.1 = a)) with
  | none => .next s
  | some (_, p, o, lsn) =>
    match s.sumOf p o.step o.attempt, s.runningSub a with
    | some m, some b =>
      if lsn.isSome ∨ s.mayAssign = false then .next s
      else if b.subkind = 1 ∧ b.deadline ≠ 0 ∧ b.deadline.toNat < s.fu.frame then
        .next ((s.clearEscrow a).complete b 2 o.step false).runDurable
      else if b.cancelLsn.isSome then .next (((s.clearEscrow a).unlearn a o).complete b 1 o.step false).runDurable
      else
        let cdelta := if keepsAll b o then (SMap.get m.accounts (0, false, true) a).1 else Config.keptDigest s.free
        let (s1, n) := (if keepsAll b o then s else s.freed).assign b.covered (p.setWidth 8) (BitVec.ofNat 8 a)
          (outcomeBody b (s.acct a) o cdelta)
        .next ((s1.updSub b.covered b.sess b.ssn (fun x => { x with step := o.step })).numberEscrow a n).runDurable
    | _, _ => .next s

/-! ## Submissions at a step boundary (R228, R255, R287, R288, R295, R296, R304, R555) -/

/-- The present frame is the first frame of a step of partition `p`, on which firmware has acted. -/
def State.justStarted (s : State) (p : Nat) : Bool :=
  match (s.part p).curRun with | some r => decide (r.start = s.fu.frame) | none => false

/-- The step number of the boundary. -/
def State.boundaryStep (s : State) (p : Nat) : BitVec 48 := (s.part p).step

/-- The account's earliest held submission that is not yet Completed (R288). -/
def State.headSub (s : State) (a : Nat) : Option Sub :=
  s.ledger.subs.find? (fun b => decide (b.account = some (slotNo a) ∧ b.st ≠ .completed))

/-- The entries that one step could append for an account: of a prompt what is left, at most the tail's 4,096 (R230), else its draft and
one more. -/
def stepAdds (x : Account) (b : Sub) : Nat := if b.fed < b.payload.length then min (b.payload.length - b.fed) 4096 else x.draft + 1

/-- One more step could carry the account past its ceiling, counted from the position that the steps fed so far have reached (R228). -/
def ceilingNear (x : Account) (b : Sub) : Bool := decide (4194304 < x.fedPos.toNat + stepAdds x b)

/-- A submission becomes Running (R287): its account is fed from its last commit. -/
def State.setRunning (s : State) (a : Nat) (b : Sub) : State :=
  (s.updSub b.covered b.sess b.ssn (fun x => { x with st := .running })).updAcct a (fun x =>
    { x.fromCommit with running := some (b.sess, b.ssn), learnPend := if b.subkind = 2 then true else x.learnPend })

/-- SUBMISSION_RUNNING (R287, R288): at a step boundary the account's next submission becomes Running; one that was cancelled,
whose deadline has passed or whose account stands at its ceiling ends instead. -/
def execSubmissionRunning (account : SlotNo) (s : State) : Host.Outcome State Fault Refusal :=
  let a := account.val
  let x := s.acct a
  let p := x.part.toNat
  match s.headSub a with
  | none => .next s
  | some b =>
    if s.isHome a = false ∨ s.mayAssign = false ∨ s.justStarted p = false ∨ b.doneLsn.isSome then .next s
    else if b.st = .running then
      if b.subkind = 1 ∧ ceilingNear x b = true then .next (s.complete b 3 (s.boundaryStep p) false).runDurable else .next s
    else if b.st ≠ .accepted ∨ x.running.isSome ∨ b.subkind = 5 ∨ b.subkind = 6 then .next s
    else if b.cancelLsn.isSome then .next (s.complete b 1 (s.boundaryStep p) false).runDurable
    else if b.subkind = 1 ∧ b.deadline ≠ 0 ∧ b.deadline.toNat < s.fu.frame then
      .next (s.complete b 2 (s.boundaryStep p) false).runDurable
    else if b.subkind = 1 ∧ ceilingNear x b = true then .next (s.complete b 3 (s.boundaryStep p) false).runDurable
    else if b.subkind = 3 then
      .next ((s.setRunning a b).assign b.covered x.part (BitVec.ofNat 8 a) (.park b.sess b.ssn)).1.runDurable
    else .next (s.setRunning a b)

/-- The account of an accepted Open (R254, R526). -/
def openedAccount (b : Sub) (o : OpenBody) (home : DevAddr) (verify : Nat) (drawn : BitVec 64) (batch : Nat) : Account :=
  let cap := if verify = 0 then 16 else min o.cap.toNat verify
  { ident := b.ident, part := b.part.setWidth 8, home := home, batch := some batch, seed := if o.seed = 0 then drawn else o.seed,
    tau := o.tau, topk := o.k, topp := o.pi, cap := cap, pinned := o.pinned,
    draft := if verify = 0 then 0 else min 2 cap, draftC := if verify = 0 then 0 else min 2 cap }

/-- The oldest accepted Open of a partition that stands at its boundary. -/
def State.openHead (s : State) : Option Sub :=
  s.ledger.subs.find? (fun b => decide (b.subkind = 5 ∧ b.st = .accepted ∧ b.doneLsn = none) && s.justStarted b.part.toNat)

/-- What the home device has fixed reaches another device of the cluster (R254, R304, R307): an account opened or restored there takes
the same slot and batch slot here with its context streams, and is Active from the partition's next step boundary on; one closed there
gives everything back. A device that returns learns from its partner what no record of its Ledger carries of its own accounts (R274). -/
def State.newsAcct (s : State) (a : Nat) (n : AcctNews) : State :=
  let x := s.acct a
  let p := n.part.toNat
  if (n.home = s.dict.addr ∧ s.ledger.mode ≠ 2) ∨ s.alive = false then s
  else if n.opened then
    if n.home = s.dict.addr ∧ x.home = n.home ∧ x.st = .active ∧ x.part = n.part.setWidth 8 then
      s.updAdapter a (fun y => { y with
        ident := n.ident, batch := some n.batch.toNat, seed := n.seed, tau := n.tau, topk := n.topk, topp := n.pi, cap := n.cap.toNat
        pinned := n.pinned, draft := n.draft.toNat, draftC := n.draft.toNat })
    else if x.unused = false ∨ n.home = s.dict.addr then s
    else
      let s1 := s.setAcct a { x with
        part := n.part.setWidth 8, ident := n.ident, home := n.home, batch := some n.batch.toNat, seed := n.seed, tau := n.tau
        topk := n.topk, topp := n.pi, cap := n.cap.toNat, pinned := n.pinned, pos := n.pos, lastTok := n.lastTok, fedPos := n.pos
        fedTok := n.lastTok, draft := n.draft.toNat, draftC := n.draft.toNat, opening := true }
      let s2 := if (s1.ctxKeys p a false).isEmpty then s1.openStreams p a else s1
      (s2.updAdapter a (fun y => { y with agen := n.agen, adigest := n.adigest })).commitStreams p a n.pos.toNat
  else if x.unused = true ∨ x.part = n.part.setWidth 8 then (((s.closeExports a).dropStreams p a).dropAdapter p a).setAcct a {}
  else s

/-- ACCOUNT_OPEN_CLOSE_ACT (R254, R555): on another device, what the home device has fixed. On the home device, at the boundary the
account's Open or Close takes its record and its Complete record in one
act; an Open takes the account slot named. -/
def execAccountOpenCloseAct (account : SlotNo) (news : Option AcctNews) (s : State) : Host.Outcome State Fault Refusal :=
  let a := account.val
  let x := s.acct a
  match news with
  | some n => .next (s.newsAcct a n)
  | none =>
  if s.mayAssign = false then .next s
  else if x.unused then
    match s.openHead with
    | none => .next s
    | some b =>
      let b1 : Sub := { b with st := .running, account := some account }
      let s1 := s.updSub b.covered b.sess b.ssn (fun _ => b1)
      if b.cancelLsn.isSome then .next (s1.complete b1 1 (BitVec.allOnes 48) false).runDurable
      else
        match b.open_ with
        | none => .next s
        | some o =>
          if o.seed = 0 ∧ s.mgmt.entropy = false then .next s else
          let p := b.part.toNat
          let s2 := (s1.setAcct a (openedAccount b o s.dict.addr (s.part p).verify.toNat (Config.seed s.mgmt.draws)
            (s1.freeBatch p))).updMgmt
            (fun m => { m with draws := if o.seed = 0 then m.draws + 1 else m.draws })
          let s3 := s2.openStreams p a
          let s4 := (s3.assign b.covered (b.part.setWidth 8) (BitVec.ofNat 8 a) (.open_ b.sess b.ssn)).1
          .next (s4.complete b1 0 (BitVec.allOnes 48) false).runDurable
  else
    match s.headSub a with
    | none => .next s
    | some b =>
      if b.subkind ≠ 6 ∨ b.st ≠ .accepted ∨ b.doneLsn.isSome ∨ s.justStarted x.part.toNat = false ∨ s.isHome a = false then
        .next s
      else
        let b1 : Sub := { b with st := .running }
        let s1 := s.updSub b.covered b.sess b.ssn (fun _ => b1)
        if b.cancelLsn.isSome then .next (s1.complete b1 1 (BitVec.allOnes 48) false).runDurable
        else
          let s2 := (s1.assign b.covered x.part (BitVec.ofNat 8 a) (.close b.sess b.ssn)).1
          .next (s2.complete b1 0 (BitVec.allOnes 48) false).runDurable

/-! ## Parks (R304-R306) -/

/-- The bytes of a parcel's body in clear (R306): the streams of the part in descriptor order, LAYER, HEAD and HDIM in three bytes and
the stored entries; the committed adapter copy; in part 0 the account's fields (log entry 91). -/
def State.parcelPlain (s : State) (p a : Nat) (mirror : Bool) (part : BitVec 16) : List Byte :=
  let x := s.acct a
  let streams := (s.ctxKeys p a mirror).map (fun k =>
    let c := s.ctxAt k
    bytesOfNat 3 (c.layer ++ c.head ++ BitVec.ofBool c.hdim).toNat ++
      ((List.range c.committed.toNat).map (fun t => (((s.entryPos c t).getD []).map (fun w => bytesOfNat 4 w.toNat)).flatten)).flatten)
  streams.flatten ++ s.adapterBytes a ++
    (if part = 0 then
      bytesOfNat 8 x.seed.toNat ++ bytesOfNat 4 x.tau.toNat ++ bytesOfNat 2 x.topk.toNat ++ bytesOfNat 4 x.topp.toNat ++
        bytesOfNat 1 x.draft ++ bytesOfNat 1 x.cap ++ bytesOfNat 4 x.pinned.toNat ++ bytesOfNat 4 x.lastTok.toNat
    else [])

/-- The nonce of a seal, which the Vault draws from its random generator (R306). -/
def State.sealNonce (s : State) : BitVec 96 := BitVec.ofNat 96 (natOfBytes ((List.range 12).map (Config.sealedByte s.mgmt.draws)))

/-- The header line of a parcel with GCMTAG zero, as the seal authenticates it (R305). -/
def State.parcelHeader (s : State) (p a : Nat) (mirror : Bool) (part : BitVec 16) (length : Nat) : Line :=
  let q := s.part p
  let x := s.acct a
  let c := mod61 (((s.ctxKeys p a mirror).map (fun k => ((s.ctxAt k).cdigest.toNat : Int))).sum)
  (1 : BitVec 16) ++ part ++ BitVec.ofNat 16 (s.parcelParts p a) ++ q.tenant ++ x.ident ++ q.version ++ q.layout ++ q.keyid ++ x.pos
    ++ x.agen ++ BitVec.ofNat 61 c ++ BitVec.ofNat 61 (entryDigest (wordsOfBytes (s.adapterBytes a)) 0) ++ BitVec.ofNat 64 length
    ++ s.sealNonce ++ (0 : BitVec 438)

/-- A parcel's header line and its sealed body (R305): the body under the parking key's stream, the tag over header and body. -/
def State.sealedParcel (s : State) (p a : Nat) (mirror : Bool) (part : BitVec 16) : Line × List Byte :=
  let q := s.part p
  let plain := s.parcelPlain p a mirror part
  let body := plain.zipIdx.map (fun b => b.1 ^^^ Config.parcelStream q.pkey s.sealNonce b.2)
  let header := s.parcelHeader p a mirror part plain.length
  (header ||| ((Config.parcelTag q.pkey header body).setWidth 1024 <<< 310), body)

/-- One part sealed into an export window on this device, and what the park's result says of it; none where no window can be opened
(R304-R306). -/
def State.sealPart (s : State) (p a : Nat) (mirror : Bool) (part : BitVec 16) (n : SessNo) (any : Bool) : Option (State × RestorePart) :=
  let (header, body) := s.sealedParcel p a mirror part
  match s.openWindow n p any 1 0 2 (128 + body.length) with
  | none => none
  | some (s1, i) =>
    let w := s1.window i
    let s2 := (s1.setMemLine w.base header).setMemBytes (w.base + 1) body
    some ((s2.updPart p (fun q => { q with sealed := q.sealed + 1 })).updAcct a (fun x => { x with exports := x.exports ++ [i] }),
      { device := s.dict.addr.setWidth 16, key := w.key i, length := BitVec.ofNat 64 w.bytes })

/-- The park of an account whose parcels are being sealed: the one that runs, or one completed whose parcels a reset has taken
(R308). -/
def State.parkSub (s : State) (a : Nat) : Option Sub :=
  match s.runningSub a with
  | some b => some b
  | none => s.ledger.subs.find? (fun b => decide (b.account = some (slotNo a)) && s.sealing b)

/-- This device covers the device whose part of a park is to be sealed (R308). -/
def State.sealsFor (s : State) (device : BitVec 16) : Bool := decide (s.ledger.mode = 1 ∧ device = s.partner.setWidth 16)

/-- A part of a park is sealed: the last one completes the submission, or its result is sent anew (R304, R308). -/
def State.partSealed (s : State) (a : Nat) (part : BitVec 16) (b : Sub) (info : RestorePart) : State :=
  let b1 : Sub := { b with parts := b.parts ++ [info] }
  let s1 := (s.updAcct a (fun y => { y with parts := y.parts ++ [part] })).updSub b.covered b.sess b.ssn (fun _ => b1)
  if (s1.acct a).parts.length ≠ s1.parcelParts b.part.toNat a then s1
  else if b.st = .completed then s1.sendResult b1 b1.parkParts
  else (s1.complete b1 0 (BitVec.allOnes 48) b.cancelLsn.isSome).runDurable

/-- PARCEL_SEAL_END (R304-R306, R308, R464): a part's seal ends. The home device seals part 0 itself, from the mirrors where it covers the
account's home, and notes what the others report of theirs; any other device seals its own part. A device that covers its partner seals
the partner's part too, from its mirrors. -/
def execParcelSealEnd (account : SlotNo) (part : BitVec 16) (windowOk : Bool) (info : RestorePart) (upset : Bool) (s : State) :
    Host.Outcome State Fault Refusal :=
  let a := account.val
  let x := s.acct a
  let p := x.part.toNat
  let spent := decide (4294967296 ≤ (s.part p).sealed) || !s.mgmt.entropy
  if upset then .next (s.vaultFault x.part)
  else if s.isHome a then
    match s.parkSub a with
    | none => .next s
    | some b =>
      if x.st ≠ .parking ∨ b.subkind ≠ 3 ∨ (b.doneLsn.isSome ∧ b.st ≠ .completed) ∨ x.parts.contains part = true ∨ s.mayAssign = false then
        .next s
      else
        let fail : State := if b.st = .completed then s else ((s.closeExports a).complete b 5 (BitVec.allOnes 48) false).runDurable
        if windowOk = false ∨ spent = true then .next fail
        else if part = 0 ∨ info.device = s.dict.addr.setWidth 16 ∨ s.sealsFor info.device = true then
          match s.sealPart p a ((s.coversAcct a && decide (part = 0)) || (!s.coversAcct a && s.sealsFor info.device)) part b.sess false with
          | none => .next fail
          | some (s1, i) => .next (s1.partSealed a part b i)
        else .next (s.partSealed a part b info)
  else if windowOk = false ∨ spent = true ∨ s.mayAssign = false ∨ (s.ctxKeys p a (s.sealsFor info.device)).isEmpty then .next s
  else
    match s.sealPart p a (s.sealsFor info.device) part 0 true with
    | none => .next s
    | some (s1, _) => .next s1

/-! ## Restores (R307, R308) -/

/-- What a device finds for its part of a restore (R307 steps 1-3). -/
def State.checkParcel (s : State) (p : Nat) (m : ParcelMsg) : Bool :=
  let q := s.part p
  let c := mod61 ((m.streams.map (fun t =>
    ((t.2.2.2.zipIdx.map (fun e => (entryDigest e.1 e.2 : Int))).sum))).sum)
  m.streams.all (fun t => entriesOk t.2.2.1 t.2.2.2) && decide (m.keyid = q.keyid ∧ m.tenant = q.tenant ∧ m.version = q.version ∧
      m.layout = q.layout) && m.tagOk &&
    decide (c = m.cdigest.toNat ∧ entryDigest m.adapter 0 = m.adigest.toNat)

/-- The streams of a part written as the account's tail, and its adapter share as copy 0 (R307). -/
def State.writeParcel (s : State) (p a : Nat) (m : ParcelMsg) : State :=
  let lines := (m.adapter.length + 31) / 32
  let s0 := (s.dropAdapter p a).placeAdapter p a m.rank (BitVec.ofNat 24 lines)
  let s1 := match (s0.acct a).abase with
    | some q => s0.setMemBytes (adapterLine q lines false) ((m.adapter.map (fun w => bytesOfNat 4 w.toNat)).flatten)
    | none => s0
  m.streams.foldl (fun t x =>
    match t.openCtx p a x.1 x.2.1 x.2.2.1 0 with
    | (u, none) => u
    | (u, some key) =>
      let n := x.2.2.2.length
      let u1 := u.mapPages key ((n + 4095) / (u.ctxAt key).perPage + 1)
      (u1.writeEntries (u1.ctxAt key) 0 x.2.2.2 none).updCtx key (fun c => { c with written := n })) s1

/-- A part's result reaches the home device (R307): the first failure ends the restore, the last success writes its record. -/
def State.partReport (s : State) (r : RestoreReport) : State :=
  let a := r.account.val
  let x := s.acct a
  match s.headSub a with
  | none => s
  | some b =>
    if s.isHome a = false ∨ x.st ≠ .restoring ∨ b.subkind ≠ 4 ∨ b.doneLsn.isSome ∨ s.mayAssign = false then s
    else if r.ok = false then
      ((s.updLedger (fun l => { l with restFails := bump32 l.restFails })).complete b 4 (BitVec.allOnes 48) false).runDurable
    else
      let parts := if x.parts.contains r.part then x.parts else x.parts ++ [r.part]
      let y : Account := { x with parts := parts, restored := if r.part = 0 then some r else x.restored }
      let s1 := s.setAcct a y
      if parts.length = x.restParts.length ∧ y.restored.isSome = true then
        if b.cancelLsn.isSome then (s1.complete b 1 (BitVec.allOnes 48) false).runDurable
        else (s1.assign b.covered x.part (BitVec.ofNat 8 a) (.restore b.sess b.ssn)).1.runDurable
      else s1

/-- The partition that a parcel's account belongs to: the account's own, or the one whose tenant and layout the parcel names. -/
def State.parcelPart (s : State) (m : ParcelMsg) : Nat :=
  let x := s.acct m.account.val
  if Tag.isPart x.part then x.part.toNat
  else ((s.parts.find? (fun q => decide (q.2.tenant = m.tenant ∧ q.2.layout = m.layout))).map (fun q => q.1)).getD 128

/-- RESTORE_PART_CHECK (R307): this device checks its part and reports to the home device. -/
def execRestorePartCheck (m : ParcelMsg) (s : State) : Host.Outcome State Fault Refusal :=
  let p := s.parcelPart m
  if 128 ≤ p ∨ s.alive = false then .next s
  else if m.upset then .next (s.vaultFault (BitVec.ofNat 8 p))
  else
    let a := m.account.val
    let ok := s.checkParcel p m
    let r : RestoreReport :=
      { dest := (s.acct a).home, account := m.account, part := m.part, ok := ok, committed := m.committed, lastToken := m.lastToken, seed := m.seed,
        tau := m.tau, topk := m.topk, pi := m.pi, draft := m.draft, cap := m.cap, pinned := m.pinned, agen := m.agen,
        cdigest := m.cdigest, adigest := m.adigest }
    let s0 := if m.streams.all (fun t => entriesOk t.2.2.1 t.2.2.2) then s else
      s.faultDrop (portFault 0x12 (BitVec.ofNat 8 p) 313 5 s.fu.cycle 0)
    let s1 := if ok then s0.writeParcel p a m else (s0.dropStreams p a).dropAdapter p a
    if s.isHome a then .next (s1.partReport r) else .next (s1.directed r.dest (.report r))

/-! ## Messages of the Ledger and of home devices -/

/-- A record of the partner's Ledger arrives (R281, R298): the replica takes it where it is the next one and sound, and the
highest LSN up to which the replica is complete is acknowledged. -/
def State.takeRecord (s : State) (r : LRecord) : State :=
  let next := match s.ledger.replica.getLast? with
    | some o => decide (r.lsn = o.lsn + 1) || (s.ledger.restart && decide (o.lsn < r.lsn))
    | none => true
  let s1 : State := if next && recSound r then
      ((s.updLedger (fun l => { l with replica := l.replica ++ [r], restart := false })).writeRing true r).writeTables true 0xFF none
    else s
  match s1.ledger.replica.getLast? with
  | some o => s1.sendOn 0 (.ledgerAck o.lsn)
  | none => s1

/-- An account homed elsewhere after its step's commit notice (R261, R263, R292): committed position, counts, and what the next step is
fed where the Commit record kept fewer tokens than the Mint gave. -/
def Account.noticed (x : Account) (n : CommitNotice) : Account :=
  let mine := x.minted.filter (fun o => decide (o.pos + n.count.setWidth 32 = n.newCommit))
  let cut := mine.any (fun o => decide (n.count.toNat < o.tokens.length))
  let tok := match mine with | some o => (o.tokens.take n.count.toNat).getLast? | none => none
  let d := if n.count = 0 then x.draftC else nextDraft n.drafts.toNat n.accepted.toNat x.cap
  { x with
    tokens := x.tokens + n.count.toNat, proposed := x.proposed + n.drafts.toNat, accepted := x.accepted + n.accepted.toNat
    pos := n.newCommit, lastTok := tok.getD x.lastTok, draftC := d, draft := if x.minted.isSome then x.draft else d
    fedPos := if cut || decide (x.fedPos < n.newCommit) then n.newCommit else x.fedPos
    fedTok := if cut || decide (x.fedPos < n.newCommit) then tok.getD x.fedTok else x.fedTok }

/-- A commit notice reaches this device (R230, R292, R314): one for another device is passed on; else this device's streams of the account
advance, mirrors included, with its committed counts and its adapter. -/
def State.noticeCommit (s : State) (n : CommitNotice) : State :=
  let a := n.slot.val
  if n.dest ≠ s.dict.addr then s.directed n.dest (.commit n)
  else
    match n.adapter with
    | some g => if s.isHome a then s else s.commitAdapter a g.1 g.2
    | none =>
      let s1 := s.commitStreams n.part.toNat a n.newCommit.toNat
      if s.isHome a then s1 else s1.updAcct a (fun x => x.noticed n)

/-- Records that never became durable are discarded, and what rested on them: submissions not yet accepted, Complete and
Cancel records not yet durable, the numbers of Escrow's outcomes (R281, R286, R300 step 2). Their LSNs are not used again. -/
def State.discardRecs (s : State) (gone : List (BitVec 64)) : State :=
  let subs := (s.ledger.subs.filter (fun b => b.covered || !gone.contains b.lsn)).map (fun b =>
    if b.covered then b
    else
      let undone := match b.doneLsn with | some n => gone.contains n | none => false
      let cl : Option (BitVec 64) := match b.cancelLsn with | some n => (if gone.contains n then none else some n) | none => none
      let dl : Option (BitVec 64) := if undone then none else b.doneLsn
      { b with doneLsn := dl, cancelLsn := cl })
  let escrow := s.ledger.escrow.filter (fun e => match e.2.2.2 with | some n => !gone.contains n | none => true)
  let s1 : State := { s with ledger := { s.ledger with
    journal := s.ledger.journal.filter (fun j => !gone.contains j.r.lsn), subs := subs, escrow := escrow } }
  let top := fun (n : Nat) (ack : BitVec 32) =>
    (subs.filter (fun b => decide (b.sess.toNat = n ∧ b.here = true))).foldl (fun m b => if m < b.ssn then b.ssn else m) ack
  { s1 with host := { s1.host with sessions := SMap.mapVals s1.host.sessions {} (fun n x => { x with a := top n x.ack }) } }

/-- REPLICATION_FAILURE (R282): a record is not durable 8 frames after its LSN; the dimension-0 link is declared failed. The record stays in
the journal: it is durable when this device covers its partner, or when the link is in service again and the partner takes it (R281, R298). -/
def execReplicationFailure (s : State) : Host.Outcome State Fault Refusal :=
  match s.ledger.journal.find? (fun j => !j.acked && decide (j.frame + 8 ≤ s.fu.frame)) with
  | none => .next s
  | some j =>
    if s.ledger.mode ≠ 0 then .next s
    else
      let s1 := s.updLedger (fun l => { l with replFails := bump32 l.replFails })
      let s2 := s1.event 0x0C 1 j.r.part.toNat none j.r.lsn.toNat (s.ledger.replicated.getD 0).toNat
      .next (s2.linkFail 0)

end Sys2Proof.Machine
end

