-- ==== Sys2Proof/Machine/LinkOps.lean ====
section
/-! DEFINITION. What the tensor network's shared acts are: votes, training, a link's entry into service, the clearing summary's
rounds and the recipe rule, failure notices, frame messages, copies for a returning device (R85, R274, R299, R313, R323-R331,
R335, R338, R339, R391, R393). -/

namespace Sys2Proof.Machine

/-! ## Addresses -/

/-- The complement of an address in a cluster of 2^n devices (R311). -/
def complementOf (n : Nat) (a : DevAddr) : DevAddr := a ^^^ BitVec.ofNat 10 (2 ^ n - 1)

/-- The device at the far end of a link (R311). -/
def State.peerOf (s : State) (l : Nat) : DevAddr :=
  if l = 10 then complementOf s.dict.n s.dict.addr else s.dict.addr ^^^ BitVec.ofNat 10 (2 ^ l)

/-- A used link: a dimension below n, or the fold link (R311). -/
def State.linkUsed (s : State) (l : Nat) : Bool := decide (l < s.dict.n ∨ l = 10)

/-- Lanes of a link at full width (R312). -/
def fullLanes (l : Nat) : Nat := if l < 3 then 16 else if l < 6 then 8 else 4

/-- An optical link (R312). -/
def opticalLink (l : Nat) : Bool := decide (6 ≤ l)

/-! ## Votes (R313, R330, R429, R430, R444) -/

/-- An optical link of the device runs at half width (R313). -/
def State.halfWidth (s : State) : Bool :=
  s.links.any (fun x => opticalLink x.1 && decide (x.2.st = .active ∧ x.2.lanes = 2))

/-- The longer of two frame lengths. -/
def longer (a b : BitVec 2) : BitVec 2 := if a < b then b else a

/-- The device's vote (R313, R429). -/
def State.ownVote (s : State) : BitVec 2 :=
  longer (longer s.power.thermVote s.power.powerVote) (if s.halfWidth then 3 else 0)

/-- The cause of the vote as 0x4100/0x07 reports it. -/
def State.voteCause (s : State) : BitVec 8 :=
  (if s.power.thermVote ≠ 0 then 1 else 0) ||| (if s.power.powerVote ≠ 0 then 2 else 0) |||
    (if s.halfWidth then 4 else 0) ||| (if s.power.thermVote ≠ 0 ∧ !s.power.tooHot.isEmpty then 8 else 0)

/-- The vote with a given ENFORCED flag: a change is sent, recorded, and the level reported (R430, R444). -/
def State.castWith (s : State) (enf : Bool) : State :=
  let len := s.ownVote
  let p := s.power
  let s1 : State := { s with power := { p with
    cause := s.voteCause
    voteSets := if len = 0 then 0 else p.voteSets
    level := if len ≠ 0 then 2 else if 0 < p.request then 1 else 0
    enforcements := if enf && !s.fu.enforced then bump32 p.enforcements else p.enforcements } }
  if len = s.fu.vote ∧ enf = s.fu.enforced then s1
  else
    (({ s1 with fu := { s1.fu with vote := len, enforced := enf } }).event 0x09 6 (0x100 + p.hottest) none (frameCycles len)
      (frameCycles s.fu.vote) (s.mgmt.adc.latch.setWidth 160)).sendVote

/-- The vote after its parts changed: enforced from the start for half width, else as it stood; not enforced at 1,024
(R430, R431). -/
def State.castVote (s : State) : State :=
  s.castWith (if s.ownVote = 0 then false else s.halfWidth || s.fu.enforced)

/-! ## Copies for a returning device (R274, R299) -/

/-- The written lines of two granules sent as a shard copy, one line a message, then its end. -/
def State.sendShard (s : State) (granule : Nat) (partnerCopy : Bool) : State :=
  let lo := granule * granuleLines
  let ls := s.mem.written.filter (fun n => decide (lo ≤ n ∧ n < lo + 2 * granuleLines))
  let s1 := ls.foldl (fun t n =>
    t.sendOn 0 (.shard { partner := partnerCopy, firstLine := n - lo, lines := [s.memLine n], last := none })) s
  s1.sendOn 0 (.shard { partner := partnerCopy, firstLine := 0, lines := [], last := some true })

/-- A mirror stream sent back to the device whose stream it mirrors, page by page. -/
def State.sendMirror (s : State) (key : Nat) : State :=
  let c := s.ctxAt key
  let n := max c.committed.toNat c.written
  let pages := max 1 ((n + c.perPage - 1) / c.perPage)
  (List.range pages).foldl (fun t p => t.sendOn 0 (.pages
    { part := BitVec.ofNat 7 c.tag.toNat, account := slotNo c.account.toNat, layer := c.layer, head := c.head, hdim := c.hdim,
      firstPos := BitVec.ofNat 23 (p * c.perPage)
      entries := (List.range (min c.perPage (n - p * c.perPage))).map (fun k => (s.entryPos c (p * c.perPage + k)).getD [])
      last := if p + 1 = pages then some (c.committed, c.cdigest) else none, index := 0, streams := 1, answer := none })) s

/-- A whole Ledger in messages of one record each; an empty one is one message without a record. -/
def copyMsgs (own : Bool) (recs : List LRecord) (next : BitVec 64) : List LedgerCopyMsg :=
  match recs with
  | [] => [{ own := own, first := true, records := [], nextLsn := next }]
  | r :: t => { own := own, first := true, records := [r], nextLsn := next } ::
      t.map (fun q => { own := own, first := false, records := [q], nextLsn := next })

/-- The covered device's whole Ledger, and this device's own as its new replica (R299); later records follow them (`State.assign`). -/
def State.sendLedgers (s : State) : State :=
  let msgs := copyMsgs true (s.ledger.covered.map (fun j => j.r)) s.ledger.coveredNext ++
    copyMsgs false (s.ledger.journal.map (fun j => j.r)) s.ledger.nextLsn
  (msgs.foldl (fun t m => t.sendOn 0 (.copy m)) s).updLedger (fun l => { l with copied := true })

/-- Records that the partner has not acknowledged go to it again when the link is in service anew (R281). -/
def State.resendRecords (s : State) : State :=
  (s.ledger.journal.filter (fun j => !j.acked)).foldl (fun t j => t.sendOn 0 (.ledger j.r)) s

/-- What the covering partner sends once the returning device's dimension-0 link is in service (R274 step 2). -/
def State.sendCopies (s : State) : State :=
  let s1 := if Config.peerKept s.free && !s.ledger.switched then s.freed else (s.freed.sendShard 2 false).sendShard 0 true
  let keys := (s.mem.ctx.filter (fun x => decide (x.2.mirror ≠ 0))).map (fun x => x.1)
  (keys.foldl (fun t k => t.sendMirror k) s1).sendLedgers

/-! ## Training (R323-R327) -/

/-- A link's running state as it enters service: sequence numbers at 0, credits full (R317, R319, R323). -/
def Endpoint.activate (e : Endpoint) (frame : Nat) : Endpoint :=
  { e with
    st := .active, stage := 7, sent := 0, naks := 0, rxNext := 0, rxAhead := [], nakOut := [], asked := [], sinceTc1 := 7,
    peerAck := none, nakIn := [], resent := [], resendTo := (0, 0), nakFrames := [], cr0 := 4, cr1 := 64, cr3 := 256, ret0 := 0, ret1 := 0,
    ret3 := 0, lastRx := frame, since := frame, waiting := [], rxHeld := [], mirrorSeq := none, loop := none, genSeen := false }

/-- A link enters service. -/
def State.activate (s : State) (l : Nat) : State :=
  let s1 := (s.updLink l (fun e => e.activate s.fu.frame)).castVote
  if l ≠ 0 then s1
  else
    let s2 := s1.updLedger (fun m => { m with restart := true })
    if s2.ledger.mode = 1 then s2.sendCopies else if s2.ledger.mode = 0 then s2.resendRecords else s2

/-- Stage 6 ends once the device holds frame lock, or sends frame messages itself (R323). -/
def State.lockLink (s : State) (l : Nat) : State :=
  let e := s.link l
  if e.st = .training ∧ e.stage = 6 ∧ (s.fu.lock || s.fu.acting) = true then s.activate l else s

/-- Every link that waits in stage 6. -/
def State.lockLinks (s : State) : State := (List.range 11).foldl (fun t l => t.lockLink l) s

/-- Training begins at stage 0, with a null key (R323). -/
def Endpoint.restart (e : Endpoint) (tries : Nat) : Endpoint :=
  { e with stage := 0, tries := tries, genSeen := false, txKey := 0, ownDraw := none, peerKey := none }

/-- A link trains from stage 0 (R323, R524); the cluster identifier written takes effect (R342). -/
def State.retrain (s : State) (l : Nat) : State :=
  ({ s with dict := { s.dict with clusterNow := s.dict.cluster } }).updLink l (fun e =>
    { e.restart 0 with st := .training, loop := none, keyGen := 0, keyUse := 0, role := 0 })

/-- Training of a used link starts. -/
def State.startTraining (s : State) (l : Nat) : State :=
  if s.linkUsed l then s.retrain l else s

/-- The role that the device's training messages carry (R324, R328, R438). -/
def State.ownRole (s : State) : BitVec 2 :=
  if s.fu.refuseRole then 0 else if s.fu.master then 1 else if (s.link 10).role = 1 then 2 else 0

/-- What the reserved bits of an end's stage 4 messages carry, message by message (R324, R325, log entry 94): the ephemeral public key that
the Vault draws, then the bytes of its signature and of the certificate chain, 104 to a message. -/
def secureRests (draw l : Nat) : List (BitVec 833) :=
  let bytes := bytesOfNat 96 (Config.linkSign draw).toNat ++ Config.chain
  (Config.linkKey draw l ++ (0 : BitVec 57)) ::
    (List.range ((bytes.length + 103) / 104)).map (fun k => BitVec.ofNat 833 (natOfBytes ((bytes.drop (104 * k)).take 104)))

/-- STAMP, ECHO and TURN of a training message sent at a real cycle `now`, in stage 5 (R324). -/
def Endpoint.stamps (e : Endpoint) (now : Nat) : BitVec 80 :=
  if e.stage = 5 then
    BitVec.ofNat 32 now ++ (match e.stamp with | some p => p.1 ++ BitVec.ofNat 16 (now - p.2) | none => 0)
  else 0

/-- A training message's line (R324): of stage `stage`, with `rest` in its reserved bits. -/
def State.trainLine (s : State) (l now stage : Nat) (rest : BitVec 833) : Line :=
  (0 : BitVec 2) ++ (1 : BitVec 8) ++ (0 : BitVec 8) ++ s.dict.clusterNow ++ s.dict.addr ++ BitVec.ofNat 4 l
    ++ BitVec.ofNat 4 s.dict.n ++ BitVec.ofNat 5 (s.link l).lanes ++ s.ownRole ++ BitVec.ofNat 4 stage
    ++ (s.link l).stamps now ++ rest

/-- A training line leaves: training frames are not credited or numbered before the link is in service. -/
def State.sendTrainLine (s : State) (l : Nat) (line : Line) : State :=
  if (s.link l).st = .active then s.sendOn l (.training line)
  else s.updLink l (fun e => { e.put (e.frameHdr (.training line) 0) 0 [line] with out := e.out ++ [.training line] })

/-- A training message of the link's stage. -/
def State.sendTrainingAt (s : State) (l now : Nat) : State := s.sendTrainLine l (s.trainLine l now (s.link l).stage 0)

/-- A training message that carries no STAMP. -/
def State.sendTraining (s : State) (l : Nat) : State := s.sendTrainingAt l 0

/-- An end's stage 4 messages leave, with a fresh ephemeral key of the Vault (R325). -/
def State.sendSecure (s : State) (l : Nat) : State :=
  let draw := s.mgmt.draws
  let s1 := (s.updMgmt (fun m => { m with draws := m.draws + 1 })).updLink l (fun e => { e with ownDraw := some draw })
  (secureRests draw l).foldl (fun t r => t.sendTrainLine l (t.trainLine l 0 4 r)) s1

/-- A link that fails in training (R323, R325). -/
def State.trainFail (s : State) (l : Nat) : State :=
  s.updLink l (fun e => { e with st := .failed, failures := bump32 e.failures })

/-- The link is Miswired (R326). -/
def State.miswired (s : State) (l : Nat) : State := s.updLink l (fun e => { e with st := .miswired })

/-- The width at which a link whose ends can run `n` lanes runs (R313): an electrical one only at full width, an optical one at 4 lanes or 2. -/
def commonWidth (l n : Nat) : Option Nat :=
  if fullLanes l ≤ n then some (fullLanes l) else if opticalLink l && decide (2 ≤ n) then some 2 else none

/-- What stage 3 makes of the peer's training message (R313, R326). -/
def State.identify (s : State) (l : Nat) (m : Line) : State :=
  let e := s.link l
  let gen : BitVec 2 := m.extractLsb' 1022 2
  let peer : DevAddr := m.extractLsb' 932 10
  let role : BitVec 2 := m.extractLsb' 917 2
  if gen ≠ 0 then
    if e.genSeen then s.updLink l (fun e => { e with st := .incompatible })
    else (s.updLink l (fun e => { e with genSeen := true })).sendTraining l
  else if m.extractLsb' 1014 8 ≠ 1 then s.updLink l (fun e => { e with st := .incompatible })
  else
    let s1 := if m.extractLsb' 0 833 ≠ 0 then s.updLink l (fun e => { e with reserved := bump32 e.reserved }) else s
    let s2 := s1.updLink l (fun e => { e with peer := peer, role := role })
    if m.extractLsb' 942 64 ≠ s.dict.clusterNow ∨ (m.extractLsb' 924 4).toNat ≠ s.dict.n then s2.miswired l
    else if peer ≠ s.peerOf l ∨ (m.extractLsb' 928 4).toNat ≠ l then s2.miswired l
    else if role = 1 ∧ s.fu.master = true then
      (s2.miswired l).event 0x07 3 l none peer.toNat s.dict.addr.toNat
    else
      match commonWidth l (min e.lanes (m.extractLsb' 919 5).toNat) with
      | none => s2.trainFail l
      | some w => (s2.updLink l (fun e => { e with stage := 4, lanes := w, peerKey := none })).sendSecure l

/-- The key of the sending direction that stage 4 yields with a peer's public key (R325). -/
def State.agree (s : State) (l : Nat) (peer : BitVec 776) : State :=
  s.updLink l (fun e => { e with
    txKey := Config.utlKey (Config.ecdh (e.ownDraw.getD 0) peer) s.dict.addr (s.peerOf l) l, keyUse := 0, ownDraw := none, peerKey := none })

/-- Stage 4 ends once the peer's chain and signature have been checked: keys are agreed (R325). -/
def State.secure (s : State) (l : Nat) (peer : BitVec 776) (chainOk : Bool) : State :=
  if chainOk then
    ((s.agree l peer).updLink l (fun e => { e with stage := 5, keyGen := 0, stamp := none })).sendTrainingAt l
      (s.now (s.realOf s.fu.cycle))
  else (s.trainFail l).event 0x07 2 l none 1 0

/-- A stage 4 message arrives (R325): the first carries the peer's key, the others its signature and certificates, until the check of
them has its result `chain`. In training it ends the stage; in service it renews the keys, for which this end sends its own messages too. -/
def State.takeSecure (s : State) (l : Nat) (m : Line) (chain : Option Bool) : State :=
  let e := s.link l
  match e.peerKey, chain with
  | none, _ =>
    let s1 := s.updLink l (fun e => { e with peerKey := some (m.extractLsb' 57 776), role := m.extractLsb' 917 2 })
    if e.ownDraw.isSome then s1 else s1.sendSecure l
  | some _, none => s
  | some k, some ok =>
    if e.st = .training then s.secure l k ok
    else if ok then (s.agree l k).updLink l (fun e => { e with keyGen := e.keyGen + 1 })
    else (s.event 0x07 2 l none 1 0).linkFail l

/-- A training message arrives on a link (R323-R326): in training by its stage; in service it belongs to a key renewal. What still comes of
stage 4 after that stage has ended here is passed over. -/
def State.takeTraining (s : State) (l : Nat) (m : Line) (chain : Option Bool) (rc : Nat) : State :=
  let e := s.link l
  let four := decide ((m.extractLsb' 913 4 : BitVec 4) = 4)
  match e.st with
  | .training =>
    if e.stage = 3 then s.identify l m
    else if e.stage = 4 then (if four then s.takeSecure l m chain else s)
    else if e.stage = 5 ∧ four = false then
      (s.updLink l (fun e => { e with role := m.extractLsb' 917 2, stamp := some (m.extractLsb' 881 32, s.now rc) })).sendTrainingAt l (s.now rc)
    else s
  | .active => if four then s.takeSecure l m chain else s
  | _ => s

/-! ## Frame messages (R328, R329, R331, R393) -/

/-- The message's link is the parent's, or dimension 0 where the parent is declared failed (R329, R393). -/
def State.fromParent (s : State) (l : Nat) (master : DevAddr) : Bool :=
  match parentDim (s.dict.addr ^^^ master) with
  | none => false
  | some d => decide (l = d) || (decide (l = 0) && s.fu.failedDevs.contains (s.dict.addr ^^^ BitVec.ofNat 10 (2 ^ d)))

/-- The frame unit after a frame message of its master (R328-R331). `rc` is the real cycle of its arrival. -/
def FrameU.follow (f : FrameU) (frame : Nat) (master : DevAddr) (len : BitVec 2) (epoch : BitVec 16) (nb : Bool)
    (phase : W32) : FrameU :=
  { (f.setLen (frame + 16) len) with
    frame := if f.lock then f.frame else frame, gotMsg := true, missRun := 0, curMaster := master, epoch := epoch,
    noBackup := nb, phase := phase, lock := true, acting := false }

/-- A frame message (R328, R329, R331): one of a lower EPOCH is ignored; the backup master notes what comes on its fold link;
one from the parent is followed and forwarded to the children. A device gains lock only in Dawn step 6 (R515). -/
def State.takeFrameMsg (s : State) (l : Nat) (line : Line) (rc : Nat) : State :=
  let frame := (line.extractLsb' 960 64).toNat
  let master : DevAddr := line.extractLsb' 950 10
  let epoch : BitVec 16 := line.extractLsb' 932 16
  let f := s.fu
  if epoch < f.epoch ∨ (f.acting = true ∧ epoch = f.epoch) then s
  else
    let s1 : State := if l = 10 then { s with fu := { f with foldRun := 0 } } else s
    if s.fromParent l master = false ∨ (f.lock = false ∧ s.dawn.step ≠ 5) then s1
    else
      let phase := BitVec.ofInt 32 ((rc : Int) - ((s.link l).delay : Int))
      ({ s1 with fu := s1.fu.follow frame master (line.extractLsb' 948 2) epoch (line.getLsbD 931) phase }).lockLinks.toChildren
        master line

/-! ## Failure notices and the decision (R335, R391) -/

/-- The line of a failure notice (R391). -/
def Notice.line (n : Notice) : Line :=
  BitVec.ofNat 64 n.frame ++ n.origin ++ n.link ++ BitVec.ofBool n.loopFail ++ n.cause ++ (0 : BitVec 937)

/-- A failure notice from its line. -/
def noticeOf (l : Line) : Notice :=
  { frame := (l.extractLsb' 960 64).toNat, origin := l.extractLsb' 950 10, link := l.extractLsb' 946 4,
    loopFail := l.getLsbD 945, cause := l.extractLsb' 937 8 }

/-- A notice of this device is collected and flooded. -/
def State.floodNotice (s : State) (n : Notice) : State :=
  ({ s with fu := { s.fu with notices := s.fu.notices ++ [n], seenFails := s.fu.seenFails ++ [n] } }).flood none
    (.failure n.line)

/-- A failure notice arrives: collected, and flooded on unless already seen (R314, R335). -/
def State.takeNotice (s : State) (l : Nat) (line : Line) : State :=
  let n := noticeOf line
  if s.fu.seenFails.contains n then s
  else
    ({ s with fu := { s.fu with notices := s.fu.notices ++ [n], seenFails := s.fu.seenFails ++ [n] } }).flood (some l)
      (.failure line)

/-- The two ends of the link that a notice names, the lower address first. -/
def Notice.ends (n : Notice) (dim : Nat) : DevAddr × DevAddr :=
  let o := n.origin
  let p := if n.link = 10 then complementOf dim o else o ^^^ BitVec.ofNat 10 (2 ^ n.link.toNat)
  if o < p then (o, p) else (p, o)

/-- The links that notices name, each once: link number and ends. -/
def namedLinks (dim : Nat) (ns : List Notice) : List (BitVec 4 × DevAddr × DevAddr) :=
  ((ns.filter (fun n => decide (n.link ≠ 15))).map (fun n => (n.link, n.ends dim))).dedup

/-- Devices declared failed by a set of notices (R335). -/
def decided (dim : Nat) (ns : List Notice) : List DevAddr :=
  let twilight := (ns.filter (fun n => decide (n.link = 15))).map (fun n => n.origin)
  let links := namedLinks dim ns
  let devs := ((links.map (fun l => [l.2.1, l.2.2])).flatten).dedup
  let twice := devs.filter (fun d => decide (2 ≤ (links.filter (fun l => decide (l.2.1 = d ∨ l.2.2 = d))).length))
  let single := match links with
    | [(k, a, b)] =>
      match ns.find? (fun n => decide (n.link = k ∧ n.origin = a)), ns.find? (fun n => decide (n.link = k ∧ n.origin = b)) with
      | some x, some y => if x.loopFail && !y.loopFail then [a] else [b]
      | _, _ => []
    | _ => []
  (twilight ++ twice ++ single).dedup

/-! ## The clearing summary's rounds (R338, R339) and the recipe rule (R85) -/

/-- A summary from its lines (R338); a boundary exchange has line 0 alone. -/
def summaryOf (ls : List Line) : Summary :=
  let z := ls.getD 0 0
  { part := z.extractLsb' 1016 8, step := z.extractLsb' 968 48, attempt := z.extractLsb' 960 8, clearOk := z.getLsbD 959,
    loaded := z.getLsbD 958, ready := z.getLsbD 957, learn := z.getLsbD 956, devices := z.extractLsb' 945 11,
    overflow := ls.getD 1 0, streams := ls.getD 2 0,
    accounts := SMap.ofList (0, false, true) ((List.range 192).map (fun k =>
      let l := ls.getD (3 + k / 16) 0
      let o := 64 * (k % 16)
      (l.extractLsb' (o + 3) 61, l.getLsbD (o + 2), l.getLsbD (o + 1)))) }

/-- A device whose dimension-0 partner has no live peer in dimension `d` passes the summary of that round on to it (log entry
22). -/
def State.relayRound (s : State) (d : Nat) (m : LinkMsg) : State :=
  if d ≠ 0 ∧ s.fu.failedDevs.contains (s.partner ^^^ BitVec.ofNat 10 (2 ^ d)) = true then s.sendOn 0 m else s

/-- A partial summary arrives for round `d` (R338). One of a step this device has no part in is discarded; one that differs
from the step that waits for this round makes CLEAR_OK 0. -/
def State.takeSummary (s : State) (d : Nat) (m : Summary) : State :=
  let p := m.part.toNat
  let s0 := s.relayRound d (.summary d m)
  let q := s0.part p
  let hit := match q.runs.find? (fun r => decide (r.step = m.step ∧ r.attempt = m.attempt)) with
    | some r => some r
    | none => q.runs.find? (fun r => decide (r.rounds = some d ∧ r.step.toNat < m.step.toNat ∨
        (r.rounds = some d ∧ r.step = m.step ∧ r.attempt < m.attempt)))
  match hit with
  | none => s0
  | some r =>
    if r.early.any (fun e => decide (e.1 = d)) then s0
    else s0.advanceRounds p { r with early := r.early ++ [(d, m)] }

/-- A boundary exchange's line 0 arrives for round `d` (R247, R339). -/
def State.takeExchange (s : State) (d : Nat) (m : Summary) : State :=
  let p := m.part.toNat
  let s0 := s.relayRound d (.exchange d m)
  let q := s0.part p
  if q.st ≠ .loading ∨ q.exchEarly.any (fun e => decide (e.1 = d)) = true then s0
  else
    let early := q.exchEarly ++ [(d, m)]
    match q.exchange with
    | none => s0.setPart p { q with exchEarly := early }
    | some (k, x) => s0.runExchange p k x early

/-- A loading report (R247): the device is loaded for the partition; once every device of the cluster is, all are. -/
def State.takeLoading (s : State) (p : Nat) (device : DevAddr) (loaded : Bool) : State :=
  let q := s.part p
  if q.st ≠ .loading then s
  else
    let l := if loaded then (if q.loadedDevs.contains device then q.loadedDevs else q.loadedDevs ++ [device])
             else q.loadedDevs.filter (fun d => decide (d ≠ device))
    let all := q.loaded && (List.range (2 ^ s.dict.n)).all (fun d =>
      decide (BitVec.ofNat 10 d = s.dict.addr) || l.contains (BitVec.ofNat 10 d))
    s.setPart p { q with loadedDevs := l, allLoaded := q.allLoaded || all }

/-- A stretch vote (R330): the master keeps it; any other device passes it on by the directed route (R314). -/
def State.takeVote (s : State) (device : DevAddr) (len : BitVec 2) (enforced : Bool) : State :=
  if s.fu.acting then
    let rest := s.fu.votes.filter (fun v => decide (v.1 ≠ device))
    { s with fu := { s.fu with votes := if len = 0 then rest else rest ++ [(device, len, enforced)] } }
  else s.directed s.fu.curMaster (.vote device len enforced)

/-! ## Data frames and digest records (R316, R334, R337, R553) -/

/-- A data frame's lines land (R334, R553), or a fault is raised and none does. `upset`: the endpoint's adder fails its residue
check (R375). -/
def State.landData (s : State) (l : Nat) (add : Bool) (h : UtlHdr) (lines : List Line) (upset : Bool) : State :=
  let e := s.link l
  let n := h.xfer.toNat
  let x := SMap.get e.rxEnts {} n
  let bad := fun (code : BitVec 8) (detail : BitVec 32) => s.fault (linkFault code h.tag l s.fu.cycle detail)
  let first := h.slot.toNat
  if x.valid = false ∨ x.lines < first + lines.length then bad 0x06 (tagDetail h.tag true)
  else if x.tag ≠ h.tag then bad 0x06 (tagDetail h.tag true)
  else if (List.range lines.length).any (fun k => !e.slotFree x (first + k) (if add then h.count.toNat else 1)) then
    bad 0x02 (slotDetail x n)
  else if upset then bad 0x12 0
  else
    let slots := lines.zipIdx.foldl (fun m v =>
      let a := x.base.toNat + first + v.2
      SMap.set m {} a ((SMap.get m {} a).land (!add) h.count.toNat v.1)) e.rxSlots
    let arr := lines.zipIdx.map (fun v => ((⟨l % 11, Nat.mod_lt _ (by decide)⟩ : LinkNo), first + v.2, v.1))
    (s.setLink l { e with
      rxSlots := slots, rxEnts := SMap.set e.rxEnts {} n { x with arrived := x.arrived ++ arr } }).entryEvent l n

/-- A digest record (R334, R337, R86). -/
def State.landDigest (s : State) (l : Nat) (h : UtlHdr) (line : Line) : State :=
  let e := s.link l
  let n := h.xfer.toNat
  let x := SMap.get e.rxEnts {} n
  let p := x.tag.toNat
  let bad := fun (code : BitVec 8) (detail : BitVec 32) => s.fault (linkFault code h.tag l s.fu.cycle detail)
  if x.valid = false ∨ x.tag ≠ h.tag then bad 0x06 (tagDetail h.tag true)
  else if x.done = true ∨ x.ndig.toNat ≤ x.digs.length then bad 0x02 (slotDetail x n)
  else
    let y : Xfer := { x with digs := x.digs ++ [((⟨l % 11, Nat.mod_lt _ (by decide)⟩ : LinkNo), line)] }
    let s1 := s.setLink l { e with rxEnts := SMap.set e.rxEnts {} n y }
    if x.clear ≠ 0 ∧ x.failed = false ∧ (digPredOk line && (s.part p).recordOk line) = false then
      let s2 := s1.setLink l { e with rxEnts := SMap.set e.rxEnts {} n { y with failed := true } }
      let s3 := if (s.part p).recipeDiffers line then s2.recipeDisagreement p else s2
      s3.clearingFail x.tag l x.clear (some l)
    else s1.entryEvent l n

/-! ## Bulk messages (R230, R239, R240, R274, R299) -/

/-- The context stream of an account by its place, own (`mirror` 0) or mirrored. -/
def State.findCtx (s : State) (p a : Nat) (layer : BitVec 10) (head : BitVec 6) (hdim : Bool) (mirror : BitVec 13) :
    Option Nat :=
  (s.mem.ctx.find? (fun x => decide (x.2.tag.toNat = p ∧ x.2.account.toNat = a ∧ x.2.layer = layer ∧ x.2.head = head ∧
    x.2.hdim = hdim ∧ x.2.mirror = mirror))).map (fun x => x.1)

/-- Entries written into a stream that is mapped far enough. -/
def State.putEntries (s : State) (key pos : Nat) (es : List EntryWords) : State :=
  let c := s.ctxAt key
  let s1 := s.mapPages key (min ((pos + es.length) / c.perPage + 1) c.maxPages.toNat)
  (s1.writeEntries (s1.ctxAt key) pos es none).updCtx key (fun c => { c with written := max c.written (pos + es.length) })

/-- The endpoint finds the RES of an entry's burst wrong as it lands: fault 0x12, and nothing of the message is written (R68, R375). -/
def State.entriesFault (s : State) (l : Nat) (p : PartNo) : State := s.fault (linkFault 0x12 (p.setWidth 8) l s.fu.cycle 0)

/-- Mirror entries of the partner (R68, R230): written into the mirror stream, which is opened at its first entries. -/
def State.takeMirror (s : State) (l : Nat) (m : MirrorMsg) : State :=
  let p := m.part.toNat
  let a := m.account.val
  let mir : BitVec 13 := m.streamNo.setWidth 13 + 1
  if entriesOk m.hdim m.entries = false then s.entriesFault l m.part
  else
  match s.findCtx p a m.layer m.head m.hdim mir with
  | some key => s.putEntries key m.pos.toNat m.entries
  | none =>
    match s.openCtx p a m.layer m.head m.hdim mir with
    | (s1, none) => s1
    | (s1, some key) => s1.putEntries key m.pos.toNat m.entries

/-- The destination's answer for a transfer (R239); a device that is given its own pages back answers nothing (R274). -/
def State.answerPages (s : State) (l : Nat) (m : PagesMsg) (ok : Bool) : State :=
  if s.ledger.mode = 2 then s else s.sendOn l (.pages { m with entries := [], last := none, answer := some ok })

/-- The destination refuses a transfer as a whole: what it received goes, and what still comes of it is not taken (R239 step 3). -/
def State.refusePages (s : State) (l a : Nat) (m : PagesMsg) : State :=
  let p := m.part.toNat
  let s1 := (s.ctxKeys p a false).foldl (fun t k => t.dropStream k) s
  (s1.updPart p (fun q => { q with refused := insertRising q.refused a })).answerPages l m false

/-- A mirror stream that a returning device has received whole either verified or did not (R274, R398). -/
def State.markMirror (s : State) (key : Nat) (bad : Bool) : State :=
  let rest := s.health.badMirrors.filter (fun k => decide (k ≠ key))
  { s with health := { s.health with badMirrors := if bad then rest ++ [key] else rest } }

/-- What the last pages of a stream decide (R239 step 3): the digest of the entries received against the source's. With the last stream of
the transfer the account's streams are active and the receipt is committed. -/
def State.finishPages (s : State) (l key a : Nat) (m : PagesMsg) (committed : BitVec 23) (cdigest : BitVec 61) : State :=
  let c := s.ctxAt key
  let p := m.part.toNat
  if s.digestSum c 0 committed.toNat ≠ cdigest.toNat then
    if s.ledger.mode = 2 then (s.dropStream key).markMirror key true else s.refusePages l a m
  else
    let s1 := s.updDesc key (fun c => { c with committed := committed, cdigest := cdigest })
    let open_ := fun (t : State) (k : Nat) => (t.updDesc k (fun c => { c with st := 1 })).mapAhead k
    if s.ledger.mode = 2 then (open_ s1 key).markMirror key false
    else if m.index + 1 < m.streams then s1
    else
      (((s1.ctxKeys p a false).foldl open_ s1).updAcct a (fun x =>
        { x with st := .active, part := c.tag, transfers := bump32 x.transfers })).answerPages l m true

/-- The destination's answer for a transfer reaches the source (R239 steps 3 and 4, R255): its commit of receipt frees the account's pages
and the account; a refusal sets the account's streams active again. -/
def State.pagesAnswer (s : State) (m : PagesMsg) (ok : Bool) : State :=
  let a := m.account.val
  let mine := (s.mem.ctx.filter (fun x => decide (x.2.account.toNat = a ∧ x.2.mirror = 0 ∧ x.2.st = 3 ∧
    x.2.tag.toNat ≠ m.part.toNat))).map (fun x => x.1)
  if ok then
    let s1 := mine.foldl (fun t k => t.dropStream k) s
    let x := s1.acct a
    if x.st = .transferring ∧ x.part.toNat ≠ m.part.toNat then s1.setAcct a {} else s1
  else
    let s1 := mine.foldl (fun t k => t.updDesc k (fun c => { c with st := 1 })) s
    s1.updAcct a (fun x => if x.st = .transferring then { x with st := .active } else x)

/-- Committed pages of a context transfer (R239). -/
def State.takePages (s : State) (l : Nat) (m : PagesMsg) : State :=
  match m.answer with
  | some ok => s.pagesAnswer m ok
  | none =>
  if s.ledger.mode = 2 ∧ (s.part m.part.toNat).st = .free then { s with mem := { s.mem with held := s.mem.held ++ [m] } }
  else
  let p := m.part.toNat
  let a := m.account.val
  let s := if m.index = 0 ∧ m.firstPos = 0 then
      s.updPart p (fun q => { q with refused := q.refused.filter (fun k => decide (k ≠ a)) }) else s
  if entriesOk m.hdim m.entries = false then s.entriesFault l m.part
  else if (s.part p).refused.contains a then s
  else
  let found := match s.findCtx p a m.layer m.head m.hdim 0 with
    | some key => (s, some key)
    | none =>
      match s.openCtx p a m.layer m.head m.hdim 0 with
      | (s1, some key) => (s1.updDesc key (fun c => { c with st := 3 }), some key)
      | (s1, none) => (s1, none)
  match found with
  | (s1, none) => if s1.ledger.mode = 2 then s1 else s1.refusePages l a m
  | (s1, some key) =>
    let s2 := s1.putEntries key m.firstPos.toNat m.entries
    match m.last with
    | none => s2
    | some (c, d) => s2.finishPages l key a m c d

/-- Shard copy data (R274): the device's own shard into granules 0-1, the partner's into granules 2-3. -/
def State.takeShard (s : State) (m : ShardMsg) : State :=
  let base := (if m.partner then 2 else 0) * granuleLines
  let s1 := m.lines.zipIdx.foldl (fun t x =>
    if m.firstLine + x.2 < 2 * granuleLines then t.setMemLine (base + m.firstLine + x.2) x.1 else t) s
  let ready := if s1.health.ready = 0 then 1 else s1.health.ready
  match m.last with
  | some true =>
    { s1 with health := { s1.health with ready := ready, copies := s1.health.copies ||| (if m.partner then 2 else 1) } }
  | _ => { s1 with health := { s1.health with ready := ready } }

/-- Records whose CRC holds and whose LSNs are consecutive, up to the first that fails (R302). Below the checkpoint LSN a gap may stand where
an earlier recovery discarded records, whose LSNs are not used again (R281): DEDUCED (123). -/
def soundRecords (checkpoint : BitVec 64) : List LRecord → List LRecord
  | [] => []
  | r :: t =>
    if recSound r = false then []
    else
      match t with
      | [] => [r]
      | q :: _ =>
        if q.lsn = r.lsn + 1 ∨ (r.lsn < q.lsn ∧ q.lsn ≤ checkpoint) then r :: soundRecords checkpoint t else [r]

/-- This device's own Ledger as records give it: journal and tables (R299, R300 step 5). Of an account that was opened while the device was
away only what the records say is known. -/
def State.ownLedger (s : State) (recs : List LRecord) (nextLsn : BitVec 64) : State :=
  let old := s.ledger.subs
  let open_ := openedAt recs
  let q := (s.quietAccts s.dict.addr).mapAccts (fun a x =>
    if x.home = s.dict.addr ∧ x.unused = false ∧ s.ledger.nextLsn ≤ open_ a then {} else x)
  let s1 : State := { q with ledger := { s.ledger with
    journal := recs.map (fun r => { r := r, frame := s.fu.frame, locally := true, acked := true, applied := true })
    nextLsn := nextLsn, checkpoint := nextLsn
    durable := recs.getLast?.map (fun r => r.lsn), replicated := recs.getLast?.map (fun r => r.lsn)
    subs := s.ledger.subs.filter (fun b => b.covered), jpos := 0 } }
  let s2 := recs.foldl (fun t r => (t.writeRing false r).replayRec old false open_ r) s1
  (s2.resumeRunning false).sealAgain

/-- The replica of the partner's Ledger as records give it (R299, R300 step 4). -/
def State.putReplica (s : State) (recs : List LRecord) : State :=
  recs.foldl (fun t r => t.writeRing true r) (s.updLedger (fun l => { l with replica := recs, rpos := 0 }))

/-- A message of a whole Ledger arrives from the partner, or a record that follows it (R274, R299). A copy of this device's own Ledger, the
last of the copies to arrive, takes effect with its last record; one of the sender's is the new replica. -/
def State.takeCopy (s : State) (m : LedgerCopyMsg) : State :=
  let recs := m.records.filter recSound
  if m.own then
    let all := (if m.first then [] else s.ledger.copyIn) ++ recs
    let s1 := s.updLedger (fun l => { l with copyIn := all })
    if all.getLast?.all (fun r => decide (r.lsn + 1 = m.nextLsn)) then
      let s2 := s1.ownLedger all m.nextLsn
      let c := s2.health.copies ||| 12
      { s2 with health := { s2.health with copies := c, ready := if c = 15 then 2 else 1 } }
    else s1
  else if m.first then s.putReplica recs
  else recs.foldl (fun t r => (t.updLedger (fun l => { l with replica := l.replica ++ [r] })).writeRing true r) s

/-- Attention partials of a context-store device (R240): they land as the lines of their partition. -/
def State.takePartials (s : State) (l : Nat) (m : PartialsMsg) : State :=
  let t := s.tile m.tile.toNat
  if 3072 < m.line.toNat + m.lines.length ∨ t.owns m.line.toNat m.lines.length m.tag = false then
    s.fault (linkFault 0x06 m.tag l s.fu.cycle (tagDetail m.tag true))
  else m.lines.zipIdx.foldl (fun u x => u.setPadLine m.tile.toNat (m.line.toNat + x.2) x.1) s

end Sys2Proof.Machine
end

