-- ==== Sys2Proof/Machine/Optics.lean ====
section
/-! DEFINITION. Light: which module feeds which link and port, lane pairs, and how a removal request goes on (R13, R400, R401,
R410). -/

namespace Sys2Proof.Machine

/-- The two modules whose output pairs feed an optical link 6-10 (R400): module and output pair (0: outputs 0-1), lanes 0-1 first. -/
def linkFeeds (l : Nat) : List (Nat × Nat) :=
  match l with
  | 6 => [(0, 2), (3, 1)]
  | 7 => [(1, 2), (4, 1)]
  | 8 => [(2, 1), (5, 1)]
  | 9 => [(2, 2), (4, 2)]
  | 10 => [(3, 2), (5, 2)]
  | _ => []

/-- The same for host ports 0-3. -/
def portFeeds (p : Nat) : List (Nat × Nat) :=
  match p with
  | 0 => [(0, 0), (2, 0)]
  | 1 => [(1, 0), (3, 0)]
  | 2 => [(0, 1), (4, 0)]
  | 3 => [(1, 1), (5, 0)]
  | _ => []

/-- Feeds of the four-lane group `g` of engine `oe` (R400). -/
def groupFeeds (oe g : Nat) : List (Nat × Nat) :=
  match oe, g with
  | 0, 0 => portFeeds 0
  | 0, 1 => portFeeds 1
  | 0, _ => linkFeeds 6
  | 1, 0 => portFeeds 2
  | 1, 1 => linkFeeds 7
  | 1, _ => linkFeeds 8
  | _, 0 => portFeeds 3
  | _, 1 => linkFeeds 9
  | _, _ => linkFeeds 10

/-- Byte `n` of a page, 128 to 255. -/
def pageByte (pg : List Byte) (n : Nat) : Byte := pg.getD (n - 128) 0

/-- Bytes `n` to `n + k - 1` of a page. -/
def pageBytes (pg : List Byte) (n k : Nat) : List Byte := (List.range k).map (fun i => pageByte pg (n + i))

/-- A number in a page: CMIS puts its most significant byte first (log entry 99). -/
def pageNum (pg : List Byte) (n k : Nat) : Nat := natOfBytes (pageBytes pg n k).reverse

/-- The part number reads UXD-8, padded with spaces (R2, R403). -/
def modPartOk (d : ModuleData) : Bool :=
  decide (pageBytes d.page00 148 16 = [0x55, 0x58, 0x44, 0x2D, 0x38] ++ List.replicate 11 0x20)

/-- A module whose lasers may be enabled (R402). -/
def modSound (d : ModuleData) : Bool := modPartOk d && d.sumsOk && d.ready

/-- Serial number (R403). -/
def modSerial (d : ModuleData) : List Byte := pageBytes d.page00 166 16
/-- Date code (R403). -/
def modDate (d : ModuleData) : List Byte := pageBytes d.page00 182 8
/-- Wavelength, pm (R403). -/
def modWave (d : ModuleData) : Nat := pageNum d.pageB0 128 4
/-- Operating hours (R403). -/
def modHours (d : ModuleData) : BitVec 32 := BitVec.ofNat 32 (pageNum d.pageB0 132 4)
/-- Equivalent hours (R403). -/
def modEqHours (d : ModuleData) : Nat := pageNum d.pageB0 136 4
/-- Spares used (R403). -/
def modSpares (d : ModuleData) : BitVec 8 := pageByte d.pageB0 140
/-- The laser that feeds output `k` (R403). -/
def modLaser (d : ModuleData) (k : Nat) : Nat := (pageByte d.pageB0 (141 + k)).toNat
/-- Case temperature, 1/256 degree C (R403). -/
def modCase (d : ModuleData) : Int := (BitVec.ofNat 16 (pageNum d.pageB0 148 2)).toInt
/-- Bias now, lasers 0-7 (R403). -/
def modBiasNow (d : ModuleData) : List (BitVec 16) := (List.range 8).map (fun k => BitVec.ofNat 16 (pageNum d.pageB1 (128 + 2 * k) 2))
/-- Bias at start of life, lasers 0-7 (R403). -/
def modBiasStart (d : ModuleData) : List (BitVec 16) := (List.range 8).map (fun k => BitVec.ofNat 16 (pageNum d.pageB1 (144 + 2 * k) 2))
/-- Bias history, oldest first; samples that are still 0 have not been taken (R403, log entry 99). -/
def modHistory (d : ModuleData) : List Nat :=
  ((List.range 48).map (fun k => pageNum d.pageB1 (160 + 2 * k) 2)).filter (fun v => decide (v ≠ 0))

/-- The hours, from the last of 8 samples one 1,000 hours apart, at which the straight line of least squares through them reaches 1.50
times `start`; none where it does not rise (R404). -/
def biasHours (l : List Nat) (start : Nat) : Option Nat :=
  let sy : Int := Int.ofNat l.sum
  let sxy : Int := Int.ofNat (l.zipIdx.map (fun p => p.1 * p.2)).sum
  let b := 8 * sxy - 28 * sy
  if b ≤ 0 then none else some ((3500 * (144 * (start : Int) - 12 * sy - b)) / b).toNat

/-- The bias predictions of the lit lasers, in hours from now: the last sample was taken at the last whole 1,000 operating hours (R403,
R404). -/
def biasLives (d : ModuleData) : List Nat :=
  let l := modHistory d
  if l.length < 8 then []
  else ((List.range 6).filter (fun k => d.lit.getLsbD k)).filterMap (fun k =>
    (biasHours (l.drop (l.length - 8)) ((modBiasStart d).getD (modLaser d k) 0).toNat).map (fun h => h - (modHours d).toNat % 1000))

/-- Predicted remaining life of a module, hours (R404). -/
def lifeOf (d : ModuleData) : Nat := (biasLives d).foldl min (50000 - modEqHours d)

/-- The module that feeds an optical lane 0-35: engine, group, pair (R400). -/
def laneModule (lane : Nat) : Nat := ((groupFeeds (lane / 12) (lane % 12 / 4)).getD (lane % 4 / 2) (0, 0)).1

/-- Optical links and host ports that a module feeds. -/
def moduleLinks (m : Nat) : List Nat := [6, 7, 8, 9, 10].filter (fun l => (linkFeeds l).any (fun f => decide (f.1 = m)))
/-- Host ports that a module feeds. -/
def modulePorts (m : Nat) : List Nat := [0, 1, 2, 3].filter (fun p => (portFeeds p).any (fun f => decide (f.1 = m)))

/-- Both outputs of a pair give light (R401). -/
def State.pairLit (s : State) (f : Nat × Nat) : Bool :=
  let x := s.module f.1
  x.lit.getLsbD (2 * f.2) && x.lit.getLsbD (2 * f.2 + 1)

/-- Outputs of a module whose link is used (R400): those of the dimensions from n to 9 stay disabled. -/
def State.usedOutputs (s : State) (m : Nat) : BitVec 6 :=
  let off := ([6, 7, 8, 9].filter (fun l => decide (s.dict.n ≤ l))).flatMap (fun l => (linkFeeds l).filter (fun f => decide (f.1 = m)))
  off.foldl (fun (b : BitVec 6) f => b &&& ~~~(BitVec.ofNat 6 (3 * 4 ^ f.2))) 0x3F

/-- What light or its loss does to the optical tensor links (R401): a link with one lit pair narrows in a dusk, one with none fails,
one with both back widens in a dusk. -/
def State.lightLinks (s : State) : State :=
  [6, 7, 8, 9, 10].foldl (fun t l =>
    let e := t.link l
    if e.st ≠ .active then t
    else
      match ((linkFeeds l).filter t.pairLit).length with
      | 0 => t.linkFail l
      | 1 => t.setLink l { e with width := if e.lanes = 4 then some false else none }
      | _ =>
        if e.lanes = 2 ∧ (linkFeeds l).all (fun f => !(t.module f.1).removing) = true then t.setLink l { e with width := some true }
        else t) s

/-- A host port goes down: its Ready sessions enter Error (R350, R401). -/
def State.portDown (s : State) (p : Nat) : State :=
  let s1 := s.updPort p (fun x => { x with up := false, pausing := 0, paused := 0, buffered := [] })
  let hit := (s1.host.sessions.filter (fun x => decide (x.2.port.toNat = p ∧ x.2.st = .ready))).map (fun x => x.1)
  hit.foldl (fun t n => (t.endRdma n).updSess n (fun x => { x with st := .error })) s1

/-- Lane pairs of a host port that have light (R401). -/
def State.portPairs (s : State) (p : Nat) : Nat := ((portFeeds p).filter s.pairLit).length

/-- What light or its loss does to the links and the host ports (R401): a port that has lost a pair goes down and retrains on the
other, or stays down; one whose lost pair has light again goes down to retrain at 800 Gb/s, unless its module is to be removed. -/
def State.lightChanged (s : State) : State :=
  [0, 1, 2, 3].foldl (fun t p =>
    if (t.port p).up = false then t
    else if (t.port p).full then (if t.portPairs p < 2 then t.portDown p else t)
    else if t.portPairs p = 0 then t.portDown p
    else if t.portPairs p = 2 ∧ (portFeeds p).all (fun f => !(t.module f.1).removing) = true then t.portDown p
    else t) s.lightLinks

/-- Both paths of R407 darken a module, which is Off unless it is in a state it leaves by removal alone (R405, R408, R410). -/
def Module.dark (x : Module) : Module :=
  { x with st := if 2 ≤ x.st ∧ x.st ≤ 5 then 5 else x.st, en := false, cmisOff := true, lit := 0, probing := false }

/-- A removal request goes on (R410): once the module's links run narrow, its ports are taken down; once those have retrained, the
module is darkened. -/
def State.advanceRemoval (s : State) (m : Nat) : State :=
  let x := s.module m
  let narrow := (moduleLinks m).all (fun l => decide ((s.link l).st ≠ .active ∨ ((s.link l).lanes = 2 ∧ (s.link l).width = none)))
  if x.removing = false ∨ narrow = false then s
  else
    let fullUp := (modulePorts m).filter (fun p => (s.port p).up && (s.port p).full)
    if fullUp.isEmpty = false then
      (fullUp.foldl (fun t p => t.portDown p) s).setModule m { x with waitPorts := x.waitPorts ++ fullUp }
    else if x.waitPorts.isEmpty = false then s
    else (s.setModule m { x.dark with removing := false }).lightChanged

/-- Every removal request goes on. -/
def State.advanceRemovals (s : State) : State := (List.range 6).foldl (fun t m => t.advanceRemoval m) s

end Sys2Proof.Machine
end

