-- ==== Sys2Proof/Machine/Links.lean ====
section
/-! DEFINITION. Tensor-link events: transmit entries, retransmission, silence, loopback tests, training, key renewal, delay
measurement, width changes, frame lock, takeover, failure decisions, the end of covering (R313, R321-R327, R329, R331, R333,
R335, R393, R438, R556). -/

namespace Sys2Proof.Machine

/-! ## Transmit entries (R333, R336, R337) -/

/-- Lines that the next data frame of an entry carries: consecutive landed ones from the first unsent, at most eight, with one
COUNT if they are adds. -/
def Endpoint.nextLines (e : Endpoint) (x : Xfer) : Nat → Nat → Option Nat → List SlotLine
  | 0, _, _ => []
  | n + 1, k, count =>
    let v := SMap.get e.txLines {} (x.base.toNat + k)
    if x.lines ≤ k ∨ v.full = false then []
    else
      match count with
      | none => v :: e.nextLines x n (k + 1) (some v.count)
      | some c => if x.op ≠ 0 ∧ v.count ≠ c then [] else v :: e.nextLines x n (k + 1) (some c)

/-- A frame of these lines may leave: eight, or up to the last, or a line of another COUNT follows. -/
def Endpoint.closed (e : Endpoint) (x : Xfer) (ls : List SlotLine) : Bool :=
  let k := x.sent + ls.length
  let v := SMap.get e.txLines {} (x.base.toNat + k)
  !ls.isEmpty && (decide (ls.length = 8 ∨ x.lines ≤ k) ||
    (decide (x.op ≠ 0) && v.full && (match ls.head? with | some h => decide (h.count ≠ v.count) | none => false)))

/-- The digest record of a transmit entry whose lines have all been sent (R336, R337). -/
def Xfer.record (x : Xfer) (r : StepRun) : Line :=
  let copy := decide (x.op = 0)
  let dt := linesDT copy (x.locals.map (fun c => (c.1, c.2.1)))
  let preds := x.locals.filterMap (fun c => c.2.2)
  let (that, w) := match x.inherit with
    | some p => (p.1 + (preds.map (fun q => q.1)).sum, p.2 + (preds.map (fun q => q.2)).sum)
    | none =>
      let ps := x.locals.map (localPred copy)
      ((ps.map (fun q => q.1)).sum, (ps.map (fun q => q.2)).sum)
  digLine dt.1 dt.2 (mod61 that) (min w wMax) (x.inherit.isNone && preds.isEmpty) r.step r.attempt (recipeDigest r.recipe)

/-- A retrained link serves a partition again from its first step boundary on (R524). -/
def State.linkServes (s : State) (l : Nat) (tag : Tag) : Bool :=
  match (s.part tag.toNat).curRun with
  | some r => decide ((s.link l).since ≤ r.start)
  | none => true

/-- TRANSMIT_ENTRY_SEND (R333, R524): a data frame as soon as it is closed, and after the last one the digest record. -/
def execTransmitEntrySend (link : LinkNo) (entry : BitVec 8) (parityBad shaBad : Bool) (s : State) : Host.Outcome State Fault Refusal :=
  let l := link.val
  let e := s.link l
  let n := entry.toNat
  let x := SMap.get e.txEnts {} n
  let ls := e.nextLines x 8 x.sent none
  if s.alive = false ∨ e.st ≠ .active ∨ s.linkServes l x.tag = false ∨ x.valid = false ∨ e.closed x ls = false then .next s
  else if parityBad then .next (s.fault (linkFault 0x13 x.tag l s.fu.cycle (BitVec.ofNat 32 (x.base.toNat + x.sent))))
  else
    let far := BitVec.ofNat 8 (x.fwd.toNat / 16)
    let count := if x.op = 0 then 0 else (ls.head?.map (fun v => v.count)).getD 0
    let sent := ls.zipIdx.map (fun v => (x.sent + v.2, v.1.data, v.1.pred))
    let y : Xfer := { x with sent := x.sent + ls.length, locals := x.locals ++ sent }
    let isDone := decide (x.lines ≤ y.sent)
    let z : Xfer := if isDone then { y with sent := 0, locals := [], inherit := none } else y
    let s1 := (s.setLink l { e with
      txLines := e.txLines.filter (fun v => !decide (x.base.toNat + x.sent ≤ v.1 ∧ v.1 < x.base.toNat + y.sent))
      txEnts := SMap.set e.txEnts {} n z }).sendOn l
        (.data (decide (x.op ≠ 0)) far x.sent count x.tag (ls.map (fun v => v.data)))
    if isDone ∧ x.clear ≠ 0 then
      match (s.part x.tag.toNat).curRun with
      | some r => if shaBad then .next (s1.fault (linkFault 0x12 x.tag l s.fu.cycle 0)) else .next (s1.sendOn l (.digest far x.tag (y.record r)))
      | none => .next s1
    else .next s1

/-! ## Retransmission and silence (R321, R322) -/

/-- The highest sequence number that ACKSEQ acknowledges (R319); none where nothing has been received. -/
def Endpoint.ackOf (e : Endpoint) (a : BitVec 16) : Option Nat :=
  if e.sent = 0 then none
  else
    let d := (BitVec.ofNat 16 (e.sent - 1) - a).toNat
    if d < e.sent then some (e.sent - 1 - d) else none

/-- Cycles that a frame with `n` lines takes to send: 16 + 144 n + 16 bytes at 25 GB/s a lane, at 1.6 GHz (R312, R315, R321). -/
def sendCycles (lanes n : Nat) : Nat := ((32 + 144 * n) * 8 + 125 * lanes - 1) / (125 * lanes)

/-- The frame that was sent last under a sequence number; a full one where none is kept. -/
def Endpoint.sentFrame (e : Endpoint) (q : BitVec 16) : UtlHdr :=
  match e.frames.reverse.find? (fun f => decide (f.hdr.seq = q ∧ f.hdr.op ≠ 0)) with
  | some f => f.hdr
  | none => { e.status with seq := q, lines := 8 }

/-- The lines of that frame, as the replay buffer holds them. -/
def Endpoint.sentLines (e : Endpoint) (q : BitVec 16) : List Line :=
  match e.frames.reverse.find? (fun f => decide (f.hdr.seq = q ∧ f.hdr.op ≠ 0)) with
  | some f => f.lines
  | none => []

/-- A NAKed frame leaves once more under its sequence number, with the acknowledgement, NAK and credits of now (R315, R319, R322), and
occupies the link until `until_`. -/
def Endpoint.resend (e : Endpoint) (q : BitVec 16) (until_ : Nat × Nat) : Endpoint :=
  let h : UtlHdr := { e.sentFrame q with
    ackseq := e.status.ackseq, nak := e.status.nak, nakseq := e.status.nakseq, cr0 := e.status.cr0, cr1 := e.status.cr1,
    cr3 := e.status.cr3 }
  let n := match e.ackOf q with | some k => k | none => q.toNat
  { e.put h (BitVec.ofNat 64 n ++ (0 : BitVec 32)) (e.sentLines q) with
    resent := e.resent ++ [n], resendTo := until_, out := e.out ++ [.retransmit q] }

/-- The first real cycle of the frame at which a retransmission may start (R321): the dusk left after holds and pauses, behind an earlier
retransmission of the frame. -/
def State.resendFrom (s : State) (e : Endpoint) : Nat :=
  max (960 + s.fu.held + s.fu.paused) (if e.resendTo.1 = s.fu.frame then e.resendTo.2 else 0)

/-- FRAME_RETRANSMISSION (R321, R322, R392, R406): the first NAKed frame is sent again in the dusk left after holds and pauses; one that does
not fit waits for the next frame's dusk, and the link fails where that has passed or does not hold it either. A wide optical link that
loses frames to a laser's switch narrows in a dusk instead, and its frames wait on. While a hold stands there is no dusk to send in. A device
that is Dark or fail-silent sends none. -/
def execFrameRetransmission (link : LinkNo) (rc : Nat) (spare : Bool) (s : State) : Host.Outcome State Fault Refusal :=
  let l := link.val
  let e := s.link l
  match e.nakIn with
  | [] => .next s
  | (q, f) :: rest =>
    if s.alive = false ∨ e.st ≠ .active ∨ s.health.st = 3 ∨ s.health.silent = true then .next s
    else
      let first := s.resendFrom e
      let time := sendCycles e.lanes (e.sentFrame q).lines.toNat
      if s.fu.hold.isSome = true ∧ s.fu.frame ≤ f + 1 then .next s
      else if f + 1 < s.fu.frame ∨ (s.fu.frame = f + 1 ∧ frameCycles s.fu.len < max rc first + time) then
        if spare && opticalLink l && decide (e.lanes = 4) then
          .next (s.setLink l { e with width := some false, nakIn := e.nakIn.map (fun x => (x.1, s.fu.frame + 1)) })
        else .next ((s.reach (s.cycleAt rc)).linkFail l)
      else if first ≤ rc ∧ rc + time ≤ frameCycles s.fu.len then
        .next (s.setLink l { e.resend q (s.fu.frame, rc + time) with nakIn := rest })
      else .next s

/-- LINK_SILENCE (R322): two whole frames without a frame of any kind. -/
def execLinkSilence (link : LinkNo) (s : State) : Host.Outcome State Fault Refusal :=
  let l := link.val
  let e := s.link l
  if s.alive && decide (e.st = .active ∧ e.lastRx + 2 < s.fu.frame) then .next (s.linkFail l) else .next s

/-- LOOPBACK_TEST_END (R335, R556): the test fails when one of its 16 frames is not received intact or a lane shows no signal or light;
the end floods its failure notice with the result. -/
def execLoopbackTestEnd (link : LinkNo) (intact signal : BitVec 16) (s : State) : Host.Outcome State Fault Refusal :=
  let l := link.val
  let e := s.link l
  let fails := decide (intact ≠ 0xFFFF) || (List.range e.lanes).any (fun k => !signal.getLsbD k)
  if s.alive = false ∨ e.loop ≠ some none then .next s
  else
    let n : Notice :=
      { frame := e.failFrame, origin := s.dict.addr, link := BitVec.ofNat 4 l, loopFail := fails, cause := 0 }
    .next ((s.setLink l { e with loop := some (some fails) }).floodNotice n)

/-! ## Training (R323-R327) -/

/-- LINK_DETECT (R313, R322, R323): signal or light on the lanes; an electrical link needs every lane, an optical one four or two. An
electrical link in service that has lost a lane fails. -/
def execLinkDetect (link : LinkNo) (lanes : BitVec 5) (s : State) : Host.Outcome State Fault Refusal :=
  let l := link.val
  let e := s.link l
  let full := fullLanes l
  let n := if full ≤ lanes.toNat then full else if opticalLink l && decide (2 ≤ lanes.toNat) then 2 else 0
  if s.alive && decide (e.st = .training ∧ e.stage = 0 ∧ n ≠ 0) then .next (s.setLink l { e with stage := 1, lanes := n })
  else if s.alive && decide (e.st = .active) && !opticalLink l && decide (lanes.toNat < full) then .next (s.linkFail l)
  else .next s

/-- LINK_EQUALISATION_END (R323): stage 1 ends, and stage 2 sends idle frames with a null key. -/
def execLinkEqualisationEnd (link : LinkNo) (s : State) : Host.Outcome State Fault Refusal :=
  let l := link.val
  let e := s.link l
  if s.alive && decide (e.st = .training ∧ e.stage = 1) then .next (s.setLink l (Endpoint.idle { e with stage := 2 } s.fu.frame))
  else .next s

/-- TRAINING_STAGE_TIMEOUT (R323, R515): training begins again, at most three times; stage 0 has no time of its own but that of
Dawn step 6. -/
def execTrainingStageTimeout (link : LinkNo) (s : State) : Host.Outcome State Fault Refusal :=
  let l := link.val
  let e := s.link l
  if s.alive = false ∨ e.st ≠ .training then .next s
  else if e.stage = 0 then (if s.dawn.step = 5 then .next (s.trainFail l) else .next s)
  else if e.tries < 3 then .next (s.setLink l (e.restart (e.tries + 1)))
  else .next (s.trainFail l)

/-- KEY_RENEWAL (R325, R341): after 2^32 sequenced frames a new stage 4 begins, which runs in dusks and replaces the keys, after every frame
that waits for its retransmission. -/
def execKeyRenewal (link : LinkNo) (s : State) : Host.Outcome State Fault Refusal :=
  let l := link.val
  let e := s.link l
  if s.alive && decide (e.st = .active ∧ 4294967296 ≤ e.keyUse ∧ e.nakIn = [] ∧ e.ownDraw = none) then .next (s.sendSecure l)
  else .next s

/-- The delay classes' bounds (R202). -/
def classBounds : List Nat := [256, 512, 768, 1024, 1536, 2048, 3072, 4096]

/-- The smallest class whose bound is at least a delay. -/
def classOf (delay : Nat) : Option Nat := (List.range 8).find? (fun c => decide (delay ≤ classBounds.getD c 0))

/-- The one-way delay from the median round trip and TURN (R327). -/
def measuredDelay (roundTrip turn : Nat) : Nat := (roundTrip - turn) / 2 + 96 + 64

/-- DELAY_REMEASURE (R327): in stage 5 the class is taken; in service, every 2^20 frames, a delay above the bound is counted and
recorded and the class stays. -/
def execDelayRemeasure (link : LinkNo) (roundTrip turn : Nat) (s : State) : Host.Outcome State Fault Refusal :=
  let l := link.val
  let e := s.link l
  let d := measuredDelay roundTrip turn
  if s.alive = false then .next s
  else if e.st = .training ∧ e.stage = 5 then
    match classOf d with
    | some c => .next ((s.setLink l { e with delay := d, cls := c, measured := s.fu.frame, stage := 6 }).lockLink l)
    | none => .next (s.setLink l { e with delay := d })
  else if e.st = .active ∧ e.measured + 1048576 ≤ s.fu.frame then
    let s1 := s.setLink l { e with delay := d, measured := s.fu.frame }
    if classBounds.getD e.cls 0 < d then
      .next ((s1.updLink l (fun x => { x with exceed := bump32 x.exceed })).event 0x07 4 l none d e.delay)
    else .next s1
  else .next s

/-- Both pairs of an optical link have light and neither module is to be removed (R401, R410, R411). -/
def State.bothLit (s : State) (l : Nat) : Bool :=
  (linkFeeds l).all (fun f => s.pairLit f && !(s.module f.1).removing)

/-- OPTICAL_WIDTH_CHANGE (R313, R341, R401, R410, R411): in a dusk in which no frame waits to be sent again and none has been, and for
returning lanes once they are equalised, the waiting change takes place, with its vote; a link whose light has gone again stays narrow. A
removal request goes on. -/
def execOpticalWidthChange (link : LinkNo) (s : State) : Host.Outcome State Fault Refusal :=
  let l := link.val
  let e := s.link l
  match e.width with
  | none => .next s
  | some wide =>
    if s.alive && opticalLink l && decide (e.st = .active ∧ e.nakIn.all (fun x => decide (s.fu.frame < x.2)) = true) &&
        !decide (e.resendTo.1 = s.fu.frame ∧ e.resendTo.2 ≠ 0) then
      .next (s.setLink l { e with width := none, lanes := if wide && s.bothLit l then 4 else 2 }).castVote.advanceRemovals
    else .next s

/-! ## Frame lock and takeover (R329, R331, R438) -/

/-- Every partition with a stream on the die stops at once (R438). -/
def State.stopAll (s : State) : State :=
  let ps := s.steppers
  { s with
    tiles := SMap.mapVals s.tiles {} (fun _ t => ps.foldl (fun u p => Tile.stopStreams u p) t)
    parts := SMap.mapVals s.parts {} (fun k q => if ps.contains k then { q with halt := true, nextStart := none } else q) }

/-- Every partition with a stream on the die stops for a loss of lock that no takeover follows (R438): it resumes later from each account's last
commit, with the earliest step that was not complete. -/
def State.stopForLock (s : State) : State :=
  (s.steppers.foldl (fun t p =>
    let first := (t.part p).firstAborted t.fu.frame
    (t.undo p first).updPart p (fun q => { q with
      abort := none, relock := true
      runs := match first with | some r => q.runs.filter (fun x => decide (x.step < r.step)) | none => q.runs
      due := match first with | some r => (r.step, r.attempt + 1) | none => q.due
      sinceLearn := match first with | some r => r.since | none => q.sinceLearn })) s).stopAll

/-- FRAME_LOCK_LOSS (R329, R387, R438): 64 consecutive frame messages missed. -/
def execFrameLockLoss (s : State) : Host.Outcome State Fault Refusal :=
  let f := s.fu
  if s.alive && f.lock && !f.acting && decide (64 ≤ f.missRun) then
    let s1 := ({ s with fu := { f with lock := false } }).event 0x08 1 s.dict.addr.toNat none f.missRun 0
    if f.noBackup then
      let s2 := s1.stopForLock
      .next { s2 with dawn := { s2.dawn with step := 5, stopped := false, regain := s2.dawn.regain || decide (s2.dawn.step = 11) } }
    else .next (s1.twilight 0x07)
  else .next s

/-- MASTER_TAKEOVER (R331, R438): the backup master declares a takeover. -/
def execMasterTakeover (s : State) : Host.Outcome State Fault Refusal :=
  let f := s.fu
  if s.alive && f.lock && !f.acting && !f.noBackup && !f.refuseRole &&
      decide (s.dict.addr = complementOf s.dict.n f.curMaster ∧ 5 ≤ f.foldRun) then
    let s1 : State := { s with
      fu := { f with acting := true, epoch := f.epoch + 1, takeovers := bump32 f.takeovers, curMaster := s.dict.addr, missRun := 0 }
      power := { s.power with pllIn := 2 } }
    .next (s1.event 0x08 2 s.dict.addr.toNat none (f.epoch + 1).toNat f.epoch.toNat)
  else .next s

/-! ## Failure decisions and covering (R272, R274, R275, R298, R299, R335) -/

/-- A device is declared failed (R335): every partition's replay takes the covering variant, and a partition that does not step has it from
the replay frame on; where its pair is already covering, every partition stops at its next boundary (R275); so does this device where it
is the one declared (log entry 23). -/
def State.declareFailed (s : State) (frame : Nat) (link : Nat) (d : DevAddr) : State :=
  if s.fu.failedDevs.contains d then s
  else
    let f := s.fu
    let s1 := ({ s with fu := { f with failedDevs := f.failedDevs ++ [d], decisions := bump32 f.decisions } }).event
      0x07 5 link none (bump32 f.decisions) f.decisions
    let running := (s1.parts.filter (fun x => decide (x.2.st = .serving ∨ x.2.st = .streaming))).map (fun x => x.1)
    if f.failedDevs.contains (d ^^^ 1) ∨ d = s.dict.addr then
      running.foldl (fun t p => t.updPart p (fun q => { q with halt := true })) s1
    else
      let s1 := s1.updFu (fun f => { f with coverAt := f.coverAt ++ [(frame + 32, d)] })
      running.foldl (fun t p =>
        match (t.part p).abort with
        | some a => t.updPart p (fun q => { q with abort := some { a with variant := .covering d } })
        | none =>
          (if t.newAbort p frame then t.updFu (fun f => { f with aborts := bump32 f.aborts }) else t).abortHere p frame (.covering d)
            (t.part p).streams) s1

/-- FAILURE_DECISION (R335): at F + 26, from the notices whose link failure lies in frames F to F + 4. -/
def execFailureDecision (s : State) : Host.Outcome State Fault Refusal :=
  match (s.fu.notices.map (fun n => n.frame)).min? with
  | none => .next s
  | some first =>
    if s.alive = false ∨ s.fu.frame < first + 26 then .next s
    else
      let ns := s.fu.notices.filter (fun n => decide (n.frame ≤ first + 4))
      let link := ((ns.find? (fun n => decide (n.link ≠ 15))).map (fun n => n.link.toNat)).getD 15
      let s1 : State := { s with fu := { s.fu with notices := s.fu.notices.filter (fun n => decide (first + 4 < n.frame)) } }
      .next ((decided s.dict.n ns).foldl (fun t d => t.declareFailed first link d) s1)

/-- A partition that steps has not yet passed its boundary at or after the return frame. -/
def State.stillCovering (s : State) (frame : Nat) : Bool :=
  s.parts.any (fun x => x.2.steps && x.2.cover && (match x.2.curRun with | some r => decide (r.start < frame) | none => true))

/-- COVERING_END (R274, R299, R393): once every partition has passed its boundary at or after the staged return frame, the pair's
covering ends: the partner hands over the Ledger and replicates again, adoption ends, a returning device is home again. -/
def execCoveringEnd (s : State) : Host.Outcome State Fault Refusal :=
  match s.fu.returnF with
  | none => .next s
  | some f =>
    if s.alive = false ∨ s.fu.frame < f ∨ s.stillCovering f = true then .next s
    else
      let s1 := if s.ledger.mode = 1 ∧ s.ledger.copied = false then s.sendLedgers else s
      let l := s1.ledger
      let s2 : State := { s1 with
        ledger := { l with
          mode := 0, copied := false
          replica := if l.mode = 1 then l.covered.map (fun j => j.r) else l.replica
          covered := [], subs := l.subs.filter (fun b => !b.covered) }
        fu := { s1.fu with returnF := none, returnIn := some f, adopted := [], failedDevs := [] }
        health := { s1.health with ready := 0, copies := 0, badMirrors := [] } }
      .next (s2.appliedRec 0x6100 0x2A (BitVec.ofNat 64 f) f)

end Sys2Proof.Machine
end

