-- ==== Sys2Proof/Machine/LinkRx.lean ====
section
/-! DEFINITION. Arriving UTL frames (R315-R322): the checks of R320, the header's acknowledgements, credits and NAKs, sequence
numbers, and the effect of each kind, in order and once. -/

namespace Sys2Proof.Machine

/-- A frame kind as R318 lists it: OP, class, message kind of control and bulk, and the range of LINES. -/
structure FrameKind where
  op   : Nat
  tc   : Nat
  kind : Option Nat
  lo   : Nat
  hi   : Nat
deriving DecidableEq, Repr

/-- A control message (R318). -/
def ctlKind (n : Nat) : FrameKind := { op := 5, tc := 1, kind := some n, lo := 1, hi := 8 }
/-- A bulk message (R318). -/
def bulkKind (n : Nat) : FrameKind := { op := 6, tc := 3, kind := some n, lo := 1, hi := 8 }

/-- The kind of frame a command stands for (R318). -/
def frameKind (i : Instr) : Option FrameKind :=
  match i with
  | .idleFrame _ => some { op := 0, tc := 0, kind := none, lo := 0, hi := 0 }
  | .frameMessage _ => some { op := 1, tc := 0, kind := none, lo := 1, hi := 1 }
  | .dataCopy _ => some { op := 2, tc := 2, kind := none, lo := 1, hi := 8 }
  | .dataAdd _ _ => some { op := 3, tc := 2, kind := none, lo := 1, hi := 8 }
  | .digestRecord _ => some { op := 4, tc := 2, kind := none, lo := 1, hi := 1 }
  | .training _ _ => some { op := 7, tc := 0, kind := none, lo := 1, hi := 1 }
  | .ledgerRecord _ _ => some { ctlKind 1 with hi := 5 }
  | .ledgerAcknowledge _ _ => some (ctlKind 2)
  | .commitNotice _ _ => some (ctlKind 3)
  | .abortNotice _ _ => some (ctlKind 4)
  | .failureNotice _ => some (ctlKind 5)
  | .clearingSummary _ _ => some (ctlKind 6)
  | .boundaryExchange _ _ => some (ctlKind 7)
  | .stretchVote _ _ _ _ => some (ctlKind 8)
  | .restoreReport _ _ => some (ctlKind 9)
  | .loadingReport _ _ _ _ => some (ctlKind 10)
  | .mirrorEntries _ _ => some (bulkKind 1)
  | .contextPages _ _ => some (bulkKind 2)
  | .shardCopy _ _ => some (bulkKind 3)
  | .ledgerCopy _ _ => some (bulkKind 4)
  | .contextPartials _ _ => some (bulkKind 5)
  | _ => none

/-- A restore report where it is: its destination takes it, any other passes it on (R307, R314). -/
def State.takeReport (s : State) (r : RestoreReport) : State :=
  if r.dest = s.dict.addr ∨ s.isHome r.account.val = true then s.partReport r else s.directed r.dest (.report r)

/-- The effect of an intact frame in its place in the sequence. A device in Dark takes part in nothing (R392). -/
def State.frameEffect (s : State) (l : Nat) (i : Instr) : State :=
  if s.health.st = 3 then s
  else
    match i with
    | .frameMessage f => s.takeFrameMsg l (f.payload.headD 0) f.rc
    | .dataCopy f => s.landData l false f.hdr f.payload false
    | .dataAdd f upset => s.landData l true f.hdr f.payload upset
    | .digestRecord f => s.landDigest l f.hdr (f.payload.headD 0)
    | .training f chain => s.takeTraining l (f.payload.headD 0) chain f.rc
    | .ledgerRecord _ r => s.takeRecord r
    | .ledgerAcknowledge _ lsn => s.ackLsn lsn
    | .commitNotice _ n => s.noticeCommit n
    | .abortNotice _ n => s.noticeAbort l n
    | .failureNotice f => s.takeNotice l (f.payload.headD 0)
    | .clearingSummary f r => s.takeSummary r.val (summaryOf f.payload)
    | .boundaryExchange f r => s.takeExchange r.val (summaryOf f.payload)
    | .stretchVote _ d len enf => s.takeVote d len enf
    | .restoreReport _ r => s.takeReport r
    | .loadingReport _ p d ok => s.takeLoading p.toNat d ok
    | .mirrorEntries _ m => s.takeMirror l m
    | .contextPages _ m => s.takePages l m
    | .shardCopy _ m => s.takeShard m
    | .ledgerCopy _ m => s.takeCopy m
    | .contextPartials _ m => s.takePartials l m
    | _ => s

/-- The frame is intact (R320): its tag and byte parity hold, GEN and the reserved bits are zero, its OP, message kind and LINES
are listed ones. -/
def frameIntact (f : UtlFrame) (k : FrameKind) : Bool :=
  f.gcmOk && f.parityOk && decide (f.hdr.gen = 0 ∧ f.hdr.rsvd = 0 ∧ f.hdr.op.toNat = k.op ∧ k.lo ≤ f.hdr.lines.toNat ∧
    f.hdr.lines.toNat ≤ k.hi) && (match k.kind with | some n => decide (f.hdr.slot.toNat = n) | none => true)

/-- Frames that a message takes on the link (R318). -/
def frameCount (f : UtlFrame) : Nat := framesOf f.payload.length

/-- Credits that a header returns, up to the buffers' sizes (R317), and what then may leave. -/
def Endpoint.credit (at_ : Nat × Bool) (e : Endpoint) (h : UtlHdr) : Endpoint :=
  Endpoint.drain at_ { e with
    cr0 := min 4 (e.cr0 + h.cr0.toNat), cr1 := min 64 (e.cr1 + h.cr1.toNat), cr3 := min 256 (e.cr3 + h.cr3.toNat) }

/-- The partner's acknowledgement of the latest mirror frame makes every entry sent mirror-durable (R230, log entry 24). -/
def State.mirrorAck (s : State) (l : Nat) : State :=
  let e := s.link l
  match e.mirrorSeq, e.peerAck with
  | some m, some a =>
    if l = 0 ∧ m ≤ a then
      { s.setLink l { e with mirrorSeq := none } with
        mem := { s.mem with ctx := SMap.mapVals s.mem.ctx {} (fun _ c => { c with lag := 0 }) } }
    else s
  | _, _ => s

/-- A NAK in a header (R320-R322): the frame waits for dusk, or the link fails. -/
def State.takeNak (s : State) (l : Nat) (q : BitVec 16) : State :=
  let e := s.link l
  let recent := s.fu.frame :: e.nakFrames.filter (fun f => decide (s.fu.frame < f + 1048576))
  let s1 := s.setLink l { e with
    naks := bump32 e.naks, nakFrames := recent
    nakIn := if e.nakIn.any (fun x => decide (x.1 = q)) then e.nakIn else e.nakIn ++ [(q, s.fu.frame)] }
  if (match e.ackOf q with | some k => e.resent.contains k | none => false) = true ∨ 256 ≤ recent.length then s1.linkFail l else s1

/-- What an intact frame's header does (R316-R322). A device in Dark sends idle frames only, so it resends none (R392). -/
def State.takeHeader (s : State) (l : Nat) (h : UtlHdr) : State :=
  let s1 := s.updLink l (fun e => { e with peerAck := match e.ackOf h.ackseq with | some a => some a | none => e.peerAck })
  let s2 := (s1.mirrorAck l).updLink l (fun e => Endpoint.credit s.bandAt e h)
  if h.nak = true ∧ s.health.st ≠ 3 then s2.takeNak l h.nakseq else s2

/-- A frame not intact is requested again at once (R320). -/
def Endpoint.askAgain (e : Endpoint) (q : BitVec 16) : Endpoint :=
  { e with nakOut := e.nakOut ++ [q], asked := e.asked ++ [e.rxNext + (q - BitVec.ofNat 16 e.rxNext).toNat] }

/-- Every frame missing before sequence number `x` that has not been requested yet is requested (R320). -/
def Endpoint.askGap (e : Endpoint) (x : Nat) : Endpoint :=
  let gone := ((List.range (x - e.rxNext)).map (fun k => e.rxNext + k)).filter (fun k => !e.rxAhead.contains k && !e.asked.contains k)
  { e with nakOut := e.nakOut ++ gone.map (fun k => BitVec.ofNat 16 k), asked := e.asked ++ gone }

/-- The buffers a frame took are free again: its credits go back (R317). -/
def Endpoint.giveBack (e : Endpoint) (tc n : Nat) : Endpoint :=
  { e with
    ret0 := if tc = 0 then e.ret0 + n else e.ret0
    ret1 := if tc = 1 then e.ret1 + n else e.ret1
    ret3 := if tc = 3 then e.ret3 + n else e.ret3 }

/-- Frames that arrived beyond a gap take effect once the missing one is here (R320). -/
def State.catchUp (s : State) (l : Nat) : Nat → State
  | 0 => s
  | n + 1 =>
    let e := s.link l
    if e.rxAhead.contains e.rxNext then
      let held := e.rxHeld.find? (fun h => decide (h.1 = e.rxNext))
      let s1 := s.setLink l { e with
        rxNext := e.rxNext + 1, rxAhead := e.rxAhead.filter (fun k => decide (k ≠ e.rxNext))
        rxHeld := e.rxHeld.filter (fun h => decide (h.1 ≠ e.rxNext)) }
      let s2 := match held with
        | some h =>
          let t := s1.frameEffect l h.2.2
          match frameKind h.2.2 with
          | some k => t.updLink l (fun e => e.giveBack k.tc h.2.1)
          | none => t
        | none => s1
      s2.catchUp l n
    else s

/-- A sequenced frame in its place (R319, R320): the next one takes effect and what waited behind it; one beyond a gap is kept, TC2
lines landing at once; one seen before has no effect. -/
def State.inSequence (s : State) (l : Nat) (f : UtlFrame) (k : FrameKind) (i : Instr) : State :=
  let e := s.link l
  let d := (f.hdr.seq - BitVec.ofNat 16 e.rxNext).toNat
  let n := frameCount f
  let x := e.rxNext + d
  if d = 0 then
    let s1 := (s.setLink l { e with rxNext := e.rxNext + n, asked := e.asked.filter (fun k => decide (e.rxNext + n ≤ k)) }).frameEffect l i
    (s1.updLink l (fun e => e.giveBack k.tc n)).catchUp l (e.rxAhead.length + 1)
  else if 32768 ≤ d ∨ e.rxAhead.contains x = true then s
  else
    let e1 := e.askGap x
    let e2 := { e1 with
      rxAhead := e1.rxAhead ++ (List.range n).map (fun j => x + j), asked := e1.asked.filter (fun k => !decide (x ≤ k ∧ k < x + n)) }
    if k.tc = 2 then (s.setLink l e2).frameEffect l i
    else s.setLink l { e2 with rxHeld := e2.rxHeld ++ [(x, n, i)] }

/-- A frame on a link that trains (R323): alignment ends with the first idle frame, then the messages of stages 3 to 5, then the
frame message that gives frame lock. -/
def State.trainRx (s : State) (l : Nat) (i : Instr) : State :=
  let e := s.link l
  match i with
  | .idleFrame _ => if e.stage = 2 then (s.setLink l { e with stage := 3 }).sendTraining l else s
  | .training f chain => s.takeTraining l (f.payload.headD 0) chain f.rc
  | .frameMessage f => if e.stage = 6 then s.takeFrameMsg l (f.payload.headD 0) f.rc else s
  | _ => s

/-- A frame arrives (R315-R322). A link that is not in service or in training receives nothing; an idle frame, which has no sequence
number, is not asked for again (log entry 93). Where the halves of the endpoint's AES unit disagree, the frame is not taken and the fault
is die-wide, since keys are link-level state (R198, R377). -/
def State.receive (s : State) (f : UtlFrame) (i : Instr) : State :=
  let l := f.link.val
  let e := s.link l
  match frameKind i with
  | none => s
  | some k =>
    if s.alive = false then s
    else
      match e.st with
      | .training => if frameIntact f k then s.trainRx l i else s
      | .active =>
        let s0 := (s.reach (s.cycleAt f.rc)).setLink l { e with lastRx := s.fu.frame }
        if f.upset then s0.faultWide (linkFault 0x12 0xFF l s0.fu.cycle 0)
        else if frameIntact f k = false then (if k.op = 0 then s0 else s0.updLink l (fun e => e.askAgain f.hdr.seq))
        else
          let s1 := s0.takeHeader l f.hdr
          if k.op = 0 ∨ (s1.link l).st ≠ .active then s1 else s1.inSequence l f k i
      | _ => s

/-! ## The commands -/

/-- IDLE_FRAME (R317). -/
def execIdleFrame (f : UtlFrame) (s : State) : Host.Outcome State Fault Refusal := .next (s.receive f (.idleFrame f))

/-- FRAME_MESSAGE (R328-R331). -/
def execFrameMessage (f : UtlFrame) (s : State) : Host.Outcome State Fault Refusal := .next (s.receive f (.frameMessage f))

/-- DATA_COPY (R334). -/
def execDataCopy (f : UtlFrame) (s : State) : Host.Outcome State Fault Refusal := .next (s.receive f (.dataCopy f))

/-- DATA_ADD (R77, R334). -/
def execDataAdd (f : UtlFrame) (upset : Bool) (s : State) : Host.Outcome State Fault Refusal :=
  .next (s.receive f (.dataAdd f upset))

/-- DIGEST_RECORD (R337). -/
def execDigestRecord (f : UtlFrame) (s : State) : Host.Outcome State Fault Refusal := .next (s.receive f (.digestRecord f))

/-- CLEARING_SUMMARY (R338). -/
def execClearingSummary (f : UtlFrame) (round : Fin 10) (s : State) : Host.Outcome State Fault Refusal :=
  .next (s.receive f (.clearingSummary f round))

/-- BOUNDARY_EXCHANGE (R339). -/
def execBoundaryExchange (f : UtlFrame) (round : Fin 10) (s : State) : Host.Outcome State Fault Refusal :=
  .next (s.receive f (.boundaryExchange f round))

/-- LOADING_REPORT (R247). -/
def execLoadingReport (f : UtlFrame) (part : PartNo) (device : DevAddr) (loaded : Bool) (s : State) :
    Host.Outcome State Fault Refusal := .next (s.receive f (.loadingReport f part device loaded))

/-- FAILURE_NOTICE (R335, R391). -/
def execFailureNotice (f : UtlFrame) (s : State) : Host.Outcome State Fault Refusal := .next (s.receive f (.failureNotice f))

/-- STRETCH_VOTE (R330). -/
def execStretchVote (f : UtlFrame) (device : DevAddr) (len : BitVec 2) (enforced : Bool) (s : State) :
    Host.Outcome State Fault Refusal := .next (s.receive f (.stretchVote f device len enforced))

/-- RESTORE_REPORT (R307). -/
def execRestoreReport (f : UtlFrame) (r : RestoreReport) (s : State) : Host.Outcome State Fault Refusal :=
  .next (s.receive f (.restoreReport f r))

/-- MIRROR_ENTRIES (R230). -/
def execMirrorEntries (f : UtlFrame) (m : MirrorMsg) (s : State) : Host.Outcome State Fault Refusal :=
  .next (s.receive f (.mirrorEntries f m))

/-- CONTEXT_PAGES (R239). -/
def execContextPages (f : UtlFrame) (m : PagesMsg) (s : State) : Host.Outcome State Fault Refusal :=
  .next (s.receive f (.contextPages f m))

/-- SHARD_COPY (R274). -/
def execShardCopy (f : UtlFrame) (m : ShardMsg) (s : State) : Host.Outcome State Fault Refusal :=
  .next (s.receive f (.shardCopy f m))

/-- LEDGER_COPY (R299). -/
def execLedgerCopy (f : UtlFrame) (m : LedgerCopyMsg) (s : State) : Host.Outcome State Fault Refusal :=
  .next (s.receive f (.ledgerCopy f m))

/-- CONTEXT_PARTIALS (R240). -/
def execContextPartials (f : UtlFrame) (m : PartialsMsg) (s : State) : Host.Outcome State Fault Refusal :=
  .next (s.receive f (.contextPartials f m))

/-- TRAINING (R323-R326). -/
def execTraining (f : UtlFrame) (chain : Option Bool) (s : State) : Host.Outcome State Fault Refusal :=
  .next (s.receive f (.training f chain))

/-- ABORT_NOTICE (R198, R199, R340). -/
def execAbortNotice (f : UtlFrame) (n : AbortNotice) (s : State) : Host.Outcome State Fault Refusal :=
  .next (s.receive f (.abortNotice f n))

/-- COMMIT_NOTICE (R292). -/
def execCommitNotice (f : UtlFrame) (n : CommitNotice) (s : State) : Host.Outcome State Fault Refusal :=
  .next (s.receive f (.commitNotice f n))

/-- LEDGER_RECORD (R281). -/
def execLedgerRecord (f : UtlFrame) (r : LRecord) (s : State) : Host.Outcome State Fault Refusal :=
  .next (s.receive f (.ledgerRecord f r))

/-- LEDGER_ACKNOWLEDGE (R281). -/
def execLedgerAcknowledge (f : UtlFrame) (lsn : BitVec 64) (s : State) : Host.Outcome State Fault Refusal :=
  .next (s.receive f (.ledgerAcknowledge f lsn))

end Sys2Proof.Machine
end

