-- ==== Sys2Proof/Machine/ImageCheck.lean ====
section
/-! DEFINITION. The checks that firmware makes of a Womer image before it loads it (R175, R176, R207, R251, R253, R332). -/

namespace Sys2Proof.Machine

/-- Bits `lo` to `lo + n - 1` of an instruction word. -/
def wf_ (w : W64) (lo n : Nat) : Nat := (w.toNat >>> lo) % 2 ^ n

/-- The lines from a field on lie within the scratchpad (R175). -/
def lineOk (w : W64) (lo n : Nat) : Bool := decide (wf_ w lo 12 + n ≤ 3072)

/-- Functions of VEC that take no address (R182). -/
def vecPlain : List Nat :=
  [0x00, 0x01, 0x02, 0x03, 0x04, 0x05, 0x06, 0x07, 0x08, 0x09, 0x0A, 0x0B, 0x10, 0x12, 0x13, 0x18, 0x19, 0x1A, 0x1B, 0x1C,
    0x1D, 0x23, 0x28, 0x29]

/-- Functions of VEC with a line address (R182). -/
def vecLineFn : List Nat := [0x11, 0x21, 0x22, 0x24, 0x25, 0x26, 0x30, 0x31]

/-- What a VEC word shows of R182, R183. -/
def vecWordOk (w : W64) : Bool :=
  let f := wf_ w 40 6
  if vecPlain.contains f then decide (wf_ w 6 16 = 0)
  else if vecLineFn.contains f then lineOk w 10 1 && decide (wf_ w 6 4 = 0)
  else if f = 0x32 ∨ f = 0x33 then decide (wf_ w 6 16 ≤ 49151)
  else if f = 0x20 then
    let floor := wf_ w 27 8
    let cap := wf_ w 19 8
    decide (wf_ w 0 6 = 0 ∧ wf_ w 36 3 ≠ 7 ∧ floor ≤ cap ∧ cap ≤ 254 ∧ cap ≤ floor + 15 ∧
      ¬ (wf_ w 6 1 = 1 ∧ wf_ w 39 1 = 1))
  else false

/-- The register fields of XFER and SENDR (R179). -/
def regWordOk (w : W64) : Bool :=
  decide (wf_ w 34 5 ≤ 19) && (decide (wf_ w 45 1 = 0) || decide (wf_ w 43 2 = 0 ∧ wf_ w 39 4 < 4))

/-- The destination fields of SEND and SENDR on tile `t` (R184). -/
def destWordOk (t : Nat) (w : W64) : Bool :=
  decide (wf_ w 22 2 ≠ 3) && (decide (wf_ w 0 1 = 0) || decide (wf_ w 22 2 = 0 ∧ wf_ w 24 9 ≠ t))

/-- The conditions of R175 that a single word of a stream on tile `t` shows, its branch targets against LAST (R176), and that each
PHASE.LAYER has its wide variant, where the layer is not wide-only, and its streamed one (R176, R207). -/
def wordOk (t last layers : Nat) (wideOnly : Line) (w : W64) : Bool :=
  let opc := wf_ w 58 6
  let cyc := wf_ w 46 10
  decide (wf_ w 56 2 = 0) &&
    (if opc = 0x30 ∨ opc = 0x32 then decide (cyc = 0) else decide (cyc ≤ 959)) &&
    (if opc = 0x04 then decide (wf_ w 37 3 < 5 ∧ wf_ w 0 28 = 0)
    else if opc = 0x05 then decide (wf_ w 0 40 = 0)
    else if opc = 0x06 then decide (wf_ w 44 2 ≠ 3 ∧ wf_ w 0 33 = 0)
    else if opc = 0x07 then regWordOk w && lineOk w 22 9 && decide (wf_ w 0 22 = 0)
    else if opc = 0x08 then lineOk w 34 1 && decide (wf_ w 0 29 = 0)
    else if opc = 0x09 then decide (wf_ w 40 4 < 12 ∧ wf_ w 0 40 = 0)
    else if opc = 0x10 then vecWordOk w
    else if opc = 0x18 then lineOk w 34 1 && destWordOk t w
    else if opc = 0x19 then regWordOk w && destWordOk t w && decide (wf_ w 1 1 = 0)
    else if opc = 0x1C then
      decide (wf_ w 42 4 ≤ 10 ∧ wf_ w 30 12 ≤ 2047 ∧ wf_ w 0 6 = 0) && lineOk w 18 (wf_ w 12 6 + 1)
    else if opc = 0x20 then
      (if wf_ w 39 1 = 1 then decide (wf_ w 34 3 = 0) else decide (wf_ w 38 1 = 0) && lineOk w 26 (wf_ w 20 6 + 1))
    else if opc = 0x21 then decide (wf_ w 45 1 = 0 ∧ wf_ w 38 2 = 0) && lineOk w 26 (wf_ w 20 6 + 1)
    else if opc = 0x22 then lineOk w 19 1 && lineOk w 7 1 && decide (wf_ w 0 7 = 0)
    else if opc = 0x28 then decide (wf_ w 39 7 < 96 ∧ wf_ w 0 39 = 0)
    else if opc = 0x2C then decide (wf_ w 17 7 ≠ 0 ∧ wf_ w 0 13 = 0)
    else if opc = 0x30 then decide (wf_ w 30 16 ≠ 0 ∧ wf_ w 0 30 = 0)
    else if opc = 0x31 then
      decide (wf_ w 36 10 < layers ∧ wf_ w 22 14 ≤ last ∧ wf_ w 8 14 ≤ last ∧ wf_ w 0 8 = 0) &&
        decide (wf_ w 8 14 ≠ 0) && (decide (wf_ w 22 14 ≠ 0) || wideOnly.getLsbD (wf_ w 36 10))
    else if opc = 0x32 then decide (wf_ w 0 30 = 0)
    else if opc = 0x38 then decide (wf_ w 32 14 ≤ last ∧ wf_ w 0 32 = 0)
    else if opc = 0x39 then decide (wf_ w 0 37 = 0)
    else if opc = 0x3A then decide (wf_ w 27 16 ≤ 49151 ∧ wf_ w 0 27 = 0)
    else false)

/-- A stream of an image (R166, R167, R176). -/
def streamOk (layers : Nat) (wideOnly : Line) (x : StreamImage) : Bool :=
  let last := x.last.toNat
  decide (x.base.toNat + last ≤ 16383 ∧ x.words.length = last + 1 ∧ x.normal.toNat ≤ last ∧ x.cover.toNat ≤ last ∧
    x.normal ≠ x.cover) && x.words.all (wordOk x.tile.toNat last layers wideOnly)

/-- Ranges of numbers that meet no other of the list. -/
def rangesApart : List (Nat × Nat) → Bool
  | [] => true
  | r :: t => t.all (fun q => !rangesMeet r.1 r.2 q.1 q.2) && rangesApart t

/-- The streams fit beside those that each tile holds (R166, R209, R253). -/
def State.streamsFit (s : State) (xs : List StreamImage) : Bool :=
  xs.all (fun x =>
    let used := (s.tile x.tile.toNat).streams.filter (fun st => decide (st.2.tag ≠ 0xFE))
    let mine := xs.filter (fun y => decide (y.tile = x.tile))
    decide (used.length + mine.length ≤ 8) &&
      rangesApart (used.map (fun st => (st.2.base.toNat, st.2.last.toNat + 1)) ++
        mine.map (fun y => (y.base.toNat, y.last.toNat + 1))))

/-- The fields of a transfer entry from its words (R332, R554). -/
def xferOf (p : Nat) (x : XferImage) : Xfer :=
  let w := x.word
  { tag := BitVec.ofNat 8 p, op := w.extractLsb' 54 2, base := w.extractLsb' 43 11, fwd := w.extractLsb' 31 12,
    linesM1 := w.extractLsb' 24 7, contrib := w.extractLsb' 17 7, readsM1 := w.extractLsb' 14 3, ndig := w.extractLsb' 11 3,
    clear := w.extractLsb' 1 10, valid := w.getLsbD 0,
    frameOff := if x.tx then 0 else x.companion.extractLsb' 32 32,
    cycle := if x.tx then 0 else x.companion.extractLsb' 22 10 }

/-- The endpoints with an image's entries written. -/
def putXfers (p : Nat) (links : SMap Endpoint) (xs : List XferImage) : SMap Endpoint :=
  xs.foldl (fun m x => SMap.upd m {} x.link.val (fun e =>
    if x.tx then { e with txEnts := SMap.set e.txEnts {} x.entry.toNat (xferOf p x) }
    else { e with rxEnts := SMap.set e.rxEnts {} x.entry.toNat (xferOf p x) })) links

/-- Valid entries of one table hold no line twice and stay within the buffer (R332). -/
def tableApart (m : SMap Xfer) : Bool :=
  let v := m.filter (fun x => x.2.valid)
  v.all (fun x => decide (x.2.base.toNat + x.2.lines ≤ 2048)) && rangesApart (v.map (fun x => (x.2.base.toNat, x.2.lines)))

/-- The transfer entries of an image fit and are well formed (R332): free entries, no line in two valid ones, FWD of a receive
entry naming a valid transmit entry of the partition. -/
def State.xfersFit (s : State) (p : Nat) (xs : List XferImage) : Bool :=
  let links := putXfers p s.links xs
  xs.all (fun x =>
    let old := if x.tx then SMap.get (s.link x.link.val).txEnts {} x.entry.toNat
               else SMap.get (s.link x.link.val).rxEnts {} x.entry.toNat
    let y := xferOf p x
    let ep := y.fwd.toNat / 256
    !old.valid && y.valid && decide (y.op.toNat < 2) &&
      (if x.tx then decide (y.contrib = 0 ∧ y.readsM1 = 0 ∧ y.ndig = 0 ∧ y.fwd.toNat % 16 = 0)
       else decide (y.contrib ≠ 0 ∧ y.cycle.toNat ≤ 959) && decide (x.companion.extractLsb' 0 22 = 0) &&
        (decide (10 < ep) || (let t := SMap.get (SMap.get links {} ep).txEnts {} (y.fwd.toNat % 256)
          t.valid && decide (t.tag.toNat = p))))) &&
    links.all (fun e => tableApart e.2.txEnts && tableApart e.2.rxEnts)

/-- The first run of `n` overflow counters that no partition has (R82). -/
def State.counterBase (s : State) (n : Nat) : Option Nat :=
  let used := (s.parts.filter (fun x => decide (x.2.st ≠ .free))).map (fun x => (x.2.ctrBase, x.2.layers.toNat))
  (0 :: used.map (fun r => r.1 + r.2)).find? (fun b => decide (b + n ≤ 4096) && used.all (fun r => !rangesMeet b n r.1 r.2))

/-- What partitions attached to a base run is not replaced by a load (R251): an array of an attached base is named under that base alone, with
the version in force there, and holds the image already or waits for it. -/
def State.baseFits (s : State) (img : Image) : Bool :=
  let attached := fun (b : BitVec 5) => decide ((SMap.get s.dict.bases (0, 0) b.toNat).1 ≠ 0)
  img.arrays.all (fun x =>
    let old := s.array x.array.toNat
    match old.base with
    | some b => !attached b || (decide (b = img.base ∧ (SMap.get s.dict.bases (0, 0) b.toNat).2 = img.version) &&
        (decide (old.image = some img.digest) || (s.tile (x.array.toNat / 64)).progQueue.contains x.array))
    | none => !attached img.base || decide ((SMap.get s.dict.bases (0, 0) img.base.toNat).2 = img.version))

/-- The image passes the checks of R176, and its demands fit what the device has left (R209, R253, R332). -/
def State.imageOk (s : State) (p : Nat) (img : Image) : Bool :=
  let batch := ((s.parts.filter (fun x => decide (x.2.st ≠ .free))).map (fun x => x.2.batch.toNat)).sum
  decide (img.layers.toNat ≤ 1024 ∧ batch + img.batch.toNat ≤ 192 ∧ img.vocab.toNat ≤ 262144) &&
    img.streams.all (streamOk img.layers.toNat img.wideOnly) && s.streamsFit img.streams &&
    img.granules.all (fun g => decide (8 ≤ g.toNat ∧ g.toNat < 960 ∧ SMap.get s.mem.granules 0xFE g.toNat = 0xFE) &&
      !s.mem.zeroing.contains g.toNat) && decide (img.granules.Nodup) &&
    img.blocks.all (fun b =>
      let k := SMap.get (s.tile b.1.toNat).blocks {} b.2.1.toNat
      decide (b.2.1.toNat < 12 ∧ k.tag = 0xFE) && !k.powered) &&
    s.xfersFit p img.xfers && (s.counterBase img.layers.toNat).isSome && s.baseFits img

end Sys2Proof.Machine
end

