-- ==== Sys2Proof/Machine/Partitions.lean ====
section
/-! DEFINITION. Partitions: load, start, close, reset, weight replacement and switch (R246-R253, R268-R271, R276, R353, R493,
R523). -/

namespace Sys2Proof.Machine

/-! ## Load (R166, R167, R176, R221, R246) -/

/-- The descriptor of an image's stream (R167). -/
def streamOfImage (p : Nat) (x : StreamImage) : Stream :=
  { tag := BitVec.ofNat 8 p, base := x.base, last := x.last, cover := x.cover, normal := x.normal,
    table := x.table.foldl (fun m e => SMap.set m 0 e.1.toNat e.2) [], words := x.words.length }

/-- A stream written to the lowest unused stream of its tile, and its words to the program store; both have their copy in granules 5-6
(R518). -/
def Tile.addStream (t : Tile) (p : Nat) (x : StreamImage) : Tile :=
  let free := (List.range 8).find? (fun k => decide ((SMap.get t.streams {} k).tag = 0xFE))
  { t with
    streams := match free with | some k => SMap.set t.streams {} k (streamOfImage p x) | none => t.streams
    descCopy := match free with | some k => SMap.set t.descCopy {} k (streamOfImage p x) | none => t.descCopy
    store := x.words.zipIdx.foldl (fun m w => SMap.set m 0 (x.base.toNat + w.2) w.1) t.store
    storeCopy := x.words.zipIdx.foldl (fun m w => SMap.set m 0 (x.base.toNat + w.2) w.1) t.storeCopy }

/-- A block given to the partition begins its power-up (R122, R124). -/
def Tile.addBlock (t : Tile) (p frame : Nat) (k : Nat) (retained : Bool) : Tile :=
  let b : Block :=
    { powered := true, retained := retained, tag := BitVec.ofNat 8 p, powerAt := some (frame + 2), zeroed := some 0 }
  { t with blocks := SMap.set t.blocks {} k b }

/-- Registers of the partition cleared, their tags free (R252). -/
def Tile.clearTags (t : Tile) (p : Nat) : Tile :=
  { t with
    regs := t.regs.filter (fun x => decide (x.2.tag.toNat ≠ p))
    tregs := t.tregs.filter (fun x => decide (x.2.tag.toNat ≠ p)) }

/-- Registers and feed buffers of the partition cleared, their tags free (R27, R252). -/
def Tile.clearRegs (t : Tile) (p : Nat) : Tile :=
  { t.clearTags p with feeds := t.feeds.filter (fun x => decide (x.2.tag.toNat ≠ p)) }

/-- The arrays of an image: base and layers recorded; one whose recorded image is this one is not programmed again (R518), any
other waits for its tile's program engine (R51). -/
def State.placeArray (s : State) (base : BitVec 5) (digest : BitVec 384) (x : ArrayImage) : State :=
  let a := x.array.toNat
  let old := s.array a
  let s1 := s.setArray a { old with base := some base, layers := x.layers }
  if old.image = some digest ∧ (old.st = .resident ∨ old.st = .withdrawn) then s1
  else s1.updTile (a / 64) (fun t => { t with progQueue := if t.progQueue.contains x.array then t.progQueue else t.progQueue ++ [x.array] })

/-- What a partition's dictionary entries hold that no load changes: settings and pending values (R481), and its parking key, which
lies in the Vault's sealed store (R463). -/
def Part.settings (q : Part) : Part :=
  { widenHold := q.widenHold, waitHold := q.waitHold, autoWiden := q.autoWiden, waitAuto := q.waitAuto,
    learnShare := q.learnShare, waitShare := q.waitShare, quota := q.quota, startF := q.startF, closeF := q.closeF,
    switchF := q.switchF, resetF := q.resetF, stRecipe := q.stRecipe, startIn := q.startIn, closeIn := q.closeIn,
    switchIn := q.switchIn, resetIn := q.resetIn, keyid := q.keyid, pkey := q.pkey, sealed := q.sealed }

/-- The context pages that a covering partner has sent for the partition, held until it is loaded, go to their streams (R274). -/
def State.landHeld (s : State) (p : Nat) : State :=
  let mine := s.mem.held.filter (fun m => decide (m.part.toNat = p))
  mine.foldl (fun t m => t.takePages 0 m)
    { s with mem := { s.mem with held := s.mem.held.filter (fun m => decide (m.part.toNat ≠ p)) } }

/-- A partition loaded with an image (R246): tenant, image facts, streams, blocks, granules and key, counters, transfer entries,
base table, arrays; while a device is covered, with the covering variant (R274). A partition with no array of a base is not attached to it (R250, R270). -/
def State.loadPartition (s : State) (p : Nat) (tenant : BitVec 32) (img : Image) : State :=
  let ctr := (s.counterBase img.layers.toNat).getD 0
  let gs := img.granules.map (fun g => g.toNat)
  let q : Part := { (s.part p).settings with
    st := .loading, tenant := tenant, version := img.version, digest := img.digest, layout := img.layout, base := img.base
    batch := img.batch, verify := img.verify, vocab := img.vocab, layers := img.layers, ctrBase := ctr
    recipe := img.recipe ||| img.wideOnly, wideOnly := img.wideOnly, delays := img.delays, hasLearn := img.hasLearn
    rank := img.rank, adLines := img.adapterLines, projs := img.projs
    lastClear := img.lastClear, summaryOff := img.summaryOff, ctx := img.ctx, homes := img.homes, holders := img.holders
    cover := !s.fu.failedDevs.isEmpty, coverAddr := s.fu.failedDevs.head?
    arrays := img.arrays.map (fun x => x.array), granules := gs, chunks := granuleRuns gs, blocks := img.blocks }
  let s1 := s.setPart p q
  let s2 := img.streams.foldl (fun t x => t.updTile x.tile.toNat (fun u => (u.clearRegs p).addStream p x)) s1
  let s3 := img.blocks.foldl (fun t b => t.updTile b.1.toNat (fun u => u.addBlock p s.fu.frame b.2.1.toNat b.2.2)) s2
  let old := SMap.get s.dict.bases (0, 0) img.base.toNat
  let attach := old.1 ||| BitVec.ofNat 128 (2 ^ p)
  let key := s3.mgmt.draws + 1
  let s4 : State := { s3 with
    mem := { s3.mem with
      granules := gs.foldl (fun m g => SMap.set m 0xFE g (BitVec.ofNat 8 p)) s3.mem.granules
      gkeys := gs.foldl (fun m g => SMap.put (SMap.drop m g) g key) s3.mem.gkeys
      keys := SMap.put (SMap.drop s3.mem.keys p) p key }
    mgmt := { s3.mgmt with draws := key, boot := { s3.mgmt.boot with
      chain := chainNext s3.mgmt.boot.chain true p img.digest } }
    links := putXfers p s3.links img.xfers
    dict := { s3.dict with
      bases := if img.arrays.isEmpty then s3.dict.bases else SMap.set s3.dict.bases (0, 0) img.base.toNat (attach, img.version) }
    fu := { s3.fu with ovf := s3.fu.ovf.filter (fun x => !decide (ctr ≤ x.1 ∧ x.1 < ctr + img.layers.toNat)) } }
  (img.arrays.foldl (fun t x => t.placeArray img.base img.digest x) s4).landHeld p

/-- The Operator's load of a Free partition (R176, R246): the item's status with the machine after it. -/
def State.tryLoad (s : State) (p : Nat) (tenant : BitVec 32) (img : Image) : State × BitVec 8 :=
  if (s.part p).st ≠ .free then (s, 0x06)
  else if s.imageOk p img = false then (s.partEvent 2 p 0 0, 0x05)
  else (s.loadPartition p tenant img, 0)

/-- Every block of the partition is zeroed and in use (R124). -/
def State.blocksReady (s : State) (p : Nat) : Bool :=
  s.tiles.all (fun t => t.2.blocks.all (fun b =>
    decide (b.2.tag.toNat ≠ p) || (decide (b.2.powerAt = none ∧ b.2.zeroed = none))))

/-- The tags of a partition's blocks and granules read back as its own (R365). -/
def State.tagsAgree (s : State) (p : Nat) : Bool :=
  let q := s.part p
  q.blocks.all (fun b => decide ((SMap.get (s.tile b.1.toNat).blocks {} b.2.1.toNat).tag.toNat = p)) &&
    q.granules.all (fun g => decide ((SMap.get s.mem.granules 0xFE g).toNat = p))

/-- LOADING_COMPLETE (R247, R365): the image is checked, the blocks are zeroed, the store is written; the tags are read back before the
partition is put to use, and a mismatch means Twilight (R386, R387). -/
def execLoadingComplete (part : PartNo) (s : State) : Host.Outcome State Fault Refusal :=
  let p := part.toNat
  let q := s.part p
  if q.st = .loading ∧ q.loaded = false ∧ s.blocksReady p = true then
    if s.tagsAgree p then .next (s.setPart p { q with loaded := true }) else .next (s.twilight 0x0B)
  else .next s

/-! ## Start (R203, R247, R282) -/

/-- The delay classes that the links measured are within the image's (R203), and dimension 0 within class 3 (R282). -/
def State.delaysFit (s : State) (q : Part) : Bool :=
  (List.range 11).all (fun l => !s.linkUsed l || decide ((s.link l).cls ≤ ((q.delays.getD l 7).toNat))) &&
    decide ((s.link 0).cls ≤ 3)

/-- A partition stopped for a loss of frame lock resumes once Dawn is complete again (R438); the spec names no frame for it: the first
multiple of 4,096, as a start has it, is a DESIGN CHOICE (129). -/
def State.resumesNow (s : State) (p : Nat) (q : Part) : Bool :=
  q.relock && decide (s.dawn.step = 11 ∧ s.fu.frame % 4096 = 0 ∧ (q.st = .serving ∨ q.st = .streaming)) && q.halt && s.blocksReady p

/-- A returning device whose partition waits for the boundary at or after the staged return frame (R274, R519, R522): loaded
anew, or restored after a warm reset with its blocks zeroed again (R124, R552). -/
def State.returnsNow (s : State) (p : Nat) (q : Part) : Bool :=
  decide (s.ledger.mode = 2) && s.fu.returnF.any (fun r => decide (r ≤ s.fu.frame)) && s.blocksReady p &&
    ((decide (q.st = .loading) && q.loaded) || (decide (q.st = .serving ∨ q.st = .streaming) && q.halt))

/-- The first step of a partition starts in this frame. -/
def State.startPart (s : State) (p : Nat) (fw : Boundary) : State :=
  let s1 := s.updPart p (fun q => { q with
    st := if s.allResident p then .serving else .streaming, startF := none, nextStart := some s.fu.frame, halt := false, relock := false,
    startIn := if q.startF.isSome then q.startF else q.startIn })
  (s1.updPart p (fun q => { q with streams := s1.streamRequest p ||| fw.streams })).writeBases p fw.bases

/-- PARTITION_START (R246, R247): at the first boundary at or after the start frame once every device is loaded; the first step
starts in this frame. On a returning device, at the boundary at or after the return frame (R274); after a loss of frame lock, as
`State.resumesNow` says. How such a device learns the
number of the step that starts there the spec does not say: it keeps the number it holds (log entry 37). -/
def execPartitionStart (part : PartNo) (fw : Boundary) (s : State) : Host.Outcome State Fault Refusal :=
  let p := part.toNat
  let q := s.part p
  if s.alive && (s.returnsNow p q || s.resumesNow p q) && s.delaysFit q then .next (s.startPart p fw)
  else
  match q.startF with
  | none => .next s
  | some f =>
    if s.alive = false ∨ q.st ≠ .loading ∨ s.fu.frame < f ∨ s.fu.frame % 4096 ≠ 0 ∨ q.allLoaded = false ∨
        s.delaysFit q = false then .next s
    else
      .next ((s.startPart p fw).appliedRec (partIndex p) 0x07 (BitVec.ofNat 64 f) f)

/-! ## Close (R249, R353, R360, R493) -/

/-- A change record of a pending value withdrawn without a session (R493, R503). -/
def State.withdrawnRec (s : State) (p : Nat) (sub : Nat) (value : BitVec 64) : State :=
  s.record (.change 2 (BitVec.ofNat 16 (partIndex p)) (BitVec.ofNat 8 sub) 0 0 7 0 0 0 value)

/-- Staged values of a partition that closes are discarded and logged as withdrawn (R493). -/
def State.dropStaged (s : State) (p : Nat) : State :=
  let q := s.part p
  let s1 := match q.startF with | some f => s.withdrawnRec p 0x07 (BitVec.ofNat 64 f) | none => s
  let s2 := match q.switchF with | some f => s1.withdrawnRec p 0x0A (BitVec.ofNat 64 f) | none => s1
  let s3 := match q.stRecipe with | some r => s2.withdrawnRec p 0x41 (sha384Low (bytesOfLine r.value)) | none => s2
  if q.resetF.isSome then s3.withdrawnRec p 0x10 1 else s3

/-- A tile without a partition: streams and their copies, blocks, registers, halves, queues (R122, R166, R252). -/
def Tile.evict (t : Tile) (p : Nat) : Tile :=
  let u := (Tile.replay (t.clearRegs p) p)
  let mine := fun (a : Nat) => u.descCopy.any (fun x =>
    decide (x.2.tag.toNat = p ∧ x.2.base.toNat ≤ a ∧ a ≤ x.2.base.toNat + x.2.last.toNat))
  { u with
    streams := u.streams.filter (fun x => decide (x.2.tag.toNat ≠ p))
    descCopy := u.descCopy.filter (fun x => decide (x.2.tag.toNat ≠ p))
    storeCopy := u.storeCopy.filter (fun x => !mine x.1)
    blocks := u.blocks.filter (fun x => decide (x.2.tag.toNat ≠ p))
    halfA := if u.halfA.tag.toNat = p then {} else u.halfA
    halfB := if u.halfB.tag.toNat = p then {} else u.halfB }

/-- An endpoint without a partition's entries (R332). -/
def Endpoint.evict (e : Endpoint) (p : Nat) : Endpoint :=
  let x := e.replay p
  { x with
    txEnts := x.txEnts.filter (fun y => decide (y.2.tag.toNat ≠ p))
    rxEnts := x.rxEnts.filter (fun y => decide (y.2.tag.toNat ≠ p)) }

/-- The credits that name blocks of a partition that is evicted are revoked: the entries die, and a revoke leaves for each writer that
holds a mirror (R124, R130, R148). -/
def State.revokeCredits (s : State) (p : Nat) : State :=
  s.tiles.foldl (fun t x =>
    let mine := x.2.credits.filter (fun c => decide (c.2.tag.toNat = p))
    let t1 := t.updTile x.1 (fun u => { u with credits := u.credits.filter (fun c => decide (c.2.tag.toNat ≠ p)) })
    (mine.filter (fun c => c.2.live && !c.2.any)).foldl (fun u c =>
      u.sendMsg x.1 c.2.writer.toNat 0 c.2.tag (u.now (u.realOf u.fu.cycle)) (.revoke c.1)) t1) s

/-- What the partition holds on the die and of the stacks is given back (R246), but for its granules and its key. With the last partition of a base the programming of its arrays ends, but for one that a program engine works on (R271,
log entry 26). -/
def State.evict (s : State) (p : Nat) : State :=
  let q := s.part p
  let s1 := (s.mapTiles (fun _ t => t.evict p)).revokeCredits p
  let base := q.base.toNat
  let b := SMap.get s1.dict.bases (0, 0) base
  let left := b.1 &&& ~~~(BitVec.ofNat 128 (2 ^ p))
  let s1 := if left = 0 then s1.mapTiles (fun _ t => { t with progQueue := t.progQueue.filter (fun a =>
    decide ((s.array a.toNat).base ≠ some q.base)) }) else s1
  { s1 with
    links := SMap.mapVals s1.links {} (fun _ e => e.evict p)
    mesh := s1.mesh.replay p
    mem := { s1.mem with
      ctx := s1.mem.ctx.filter (fun x => decide (x.2.tag.toNat ≠ p))
      engines := SMap.mapVals s1.mem.engines {} (fun _ e => e.replay p) }
    dict := { s1.dict with bases := SMap.set s1.dict.bases (0, 0) base (left, b.2) }
    mgmt := { s1.mgmt with boot := { s1.mgmt.boot with chain := chainNext s1.mgmt.boot.chain false p q.digest } }
    ledger := { s1.ledger with
      escrow := s1.ledger.escrow.filter (fun e => decide (e.2.1.toNat ≠ p))
      sums := s1.ledger.sums.filter (fun m => decide (m.part.toNat ≠ p)) } }

/-- The partition closes at its boundary (R249, R353). -/
def State.closePartition (s : State) (p : Nat) : State :=
  let accts := (s.accts.filter (fun x => decide (x.2.part.toNat = p))).map (fun x => x.1)
  let s1 := accts.foldl (fun t a => t.freeAccount a) (s.dropStaged p)
  let s2 := (s1.closeWindows (fun w => decide (w.tag.toNat = p))).evict p
  let s3 := s2.updPart p (fun q => { q with
    st := .closing, closeIn := q.closeF, closeF := none, startF := none, switchF := none, stRecipe := none, resetF := none, nextStart := none,
    abort := none, runs := [], hosted := false, companion := 0xFE, staged := none })
  let s3 := s3.mapParts (fun _ q => if q.companion = BitVec.ofNat 8 p then { q with companion := 0xFE } else q)
  let bound := (s3.host.sessions.filter (fun x => decide (x.2.part.toNat = p ∧ x.2.st ≠ .free))).map (fun x => BitVec.ofNat 12 x.1)
  (bound.foldl (fun t n => t.beginClose n) (s3.releaseGranules p)).tryFreePart p

/-- An accepted submission of a partition is left uncompleted: one that this device holds, or one that the WORK flags of the latest
clearing summary show on another (R249, R338). -/
def State.workLeft (s : State) (p : PartNo) : Bool :=
  s.ledger.subs.any (fun b => decide (b.part = p ∧ b.st ≠ .completed)) ||
    (match (s.ledger.sums.filter (fun m => decide (m.part = p.setWidth 8))).getLast? with
      | some m => m.accounts.any (fun x => x.2.2.1)
      | none => false)

/-- PARTITION_CLOSE (R249): at the first boundary at or after the close frame at which no accepted submission of the partition is
left uncompleted. -/
def execPartitionClose (part : PartNo) (s : State) : Host.Outcome State Fault Refusal :=
  let p := part.toNat
  let q := s.part p
  match q.closeF with
  | none => .next s
  | some f =>
    if s.alive = false ∨ q.steps = false ∨ s.fu.frame < f ∨ q.nextStart ≠ some s.fu.frame ∨ s.workLeft part = true then .next s
    else .next ((s.appliedRec (partIndex p) 0x08 (BitVec.ofNat 64 f) f).closePartition p)

/-! ## Replacement and switch (R268-R271) -/

/-- The companion that firmware has loaded for a partition whose weights are to be replaced (R270): another partition of the
tenant that runs the same version with no arrays (log entry 26). -/
def State.companionOf (s : State) (p : Nat) : Tag :=
  let q := s.part p
  match s.parts.find? (fun x => decide (x.1 ≠ p ∧ x.2.tenant = q.tenant ∧ x.2.version = q.version ∧ x.2.arrays = [] ∧
      x.2.st ≠ .free ∧ x.2.st ≠ .closing)) with
  | some x => BitVec.ofNat 8 x.1
  | none => 0xFE

/-- A write of 1 to 0x20pp/0x0B (R268): every partition attached to the base enters Streaming at its next boundary. -/
def State.replaceWeights (s : State) (p value : Nat) : State × BitVec 8 :=
  let q := s.part p
  if value ≠ 1 then (s, 0x05)
  else if ¬ (q.st = .serving ∨ q.st = .streaming) ∨ q.repl ≠ 0 ∨ q.replReq = true then (s, 0x06)
  else
    ((s.attached q.base.toNat).foldl (fun t k =>
      let x := t.part k
      t.setPart k { x with replReq := true, companion := t.companionOf k }) s, 0)

/-- The lines of a granule copied over those of another (R269). -/
def State.copyGranule (s : State) (src dst : Nat) : State :=
  let ls := s.mem.written.filter (fun l => decide (l / granuleLines = src))
  ls.foldl (fun t l => t.setMemLine (granuleLines * dst + l % granuleLines) (s.readMem l)) (s.zeroGranule dst)

/-- The digital copies of a staged image take the places of the old ones: this device's in granules 0-1, the partner's in 2-3 (R269). -/
def State.placeCopies (s : State) (i : StagedImage) : State :=
  let s1 := (s.copyGranule i.own.1.toNat 0).copyGranule i.own.2.toNat 1
  match i.partner with
  | some g => (s1.copyGranule g.1.toNat 2).copyGranule g.2.toNat 3
  | none => s1

/-- WEIGHT_SWITCH (R269, R270): at the boundary of every attached partition at or after the switch frame, once every device is
ready: the new digital copies take the places of the old ones, the new version is in force, pinned accounts move to the companion, Streaming ends. -/
def execWeightSwitch (base : BitVec 5) (s : State) : Host.Outcome State Fault Refusal :=
  let ps := s.attached base.toNat
  let due := ps.any (fun p => (s.part p).switchF.any (fun f => decide (f ≤ s.fu.frame)))
  let ready := ps.all (fun p => (s.part p).allReady && decide ((s.part p).repl = 3) && s.atBoundary p)
  match (if s.alive = false ∨ due = false ∨ ready = false then none else (ps.findSome? (fun p => (s.part p).staged))) with
  | none => .next s
  | some i =>
    let v := i.version
    let b := SMap.get s.dict.bases (0, 0) base.toNat
    let s0 := s.placeCopies i
    let s1 : State := { s0 with
      dict := { s.dict with bases := SMap.set s.dict.bases (0, 0) base.toNat (b.1, v) }, ledger := { s.ledger with switched := true } }
    .next (ps.foldl (fun t p =>
      let q := t.part p
      let pinned := (t.accts.filter (fun x => decide (x.2.part.toNat = p ∧ x.2.st ≠ .free ∧ x.2.pinned ≠ 0 ∧
        x.2.pinned = q.version))).map (fun x => x.1)
      let t1 := if Tag.isPart q.companion then pinned.foldl (fun u a => u.moveAcct a q.companion.toNat true) t else t
      let t2 := t1.setPart p { q with
        st := .serving, repl := 0, allReady := false, version := v, digest := i.digest, staged := none, switchF := none, programmed := 0
        switchIn := if q.switchF.isSome then q.switchF else q.switchIn }
      match q.switchF with
      | some f => t2.appliedRec (partIndex p) 0x0A (BitVec.ofNat 64 f) f
      | none => t2) s1)

/-! ## Partition reset (R523) -/

/-- Registers of the partition cleared on every tile (R200, R252); a feed segment keeps its last write (R27). -/
def State.clearTags (s : State) (p : Nat) : State := s.mapTiles (fun _ t => t.clearTags p)



/-- The words of the partition's store regions are restored from their copy (R520, R523). -/
def Tile.restoreStore (t : Tile) (p : Nat) : Tile :=
  let mine := fun (a : Nat) => t.descCopy.any (fun x =>
    decide (x.2.tag.toNat = p ∧ x.2.base.toNat ≤ a ∧ a ≤ x.2.base.toNat + x.2.last.toNat))
  { t with store := t.storeCopy.foldl (fun m w => if mine w.1 then SMap.set m 0 w.1 w.2 else m) t.store }

/-- The halves of a partition are to be restored from where their lines came from (R520, R523). -/
def Tile.doubtHalves (t : Tile) (p : Nat) : Tile :=
  let mark := fun (h : Half) => if h.tag.toNat = p ∧ h.origin ≠ [] then { h with doubt := true } else h
  { t with halfA := mark t.halfA, halfB := mark t.halfB }

/-- PARTITION_RESET (R123, R520, R523): at its boundary the partition's uncommitted steps are undone and its windows closed; it
restarts 32 frames later with its first undone step, or its next one, at attempt 1. -/
def execPartitionReset (part : PartNo) (s : State) : Host.Outcome State Fault Refusal :=
  let p := part.toNat
  let q := s.part p
  let boundary := if q.st = .stopped then decide (s.fu.frame % 4096 = 0) else decide (q.nextStart = some s.fu.frame)
  match q.resetF with
  | none => .next s
  | some f =>
    if s.alive = false ∨ s.fu.frame < f ∨ boundary = false then .next s
    else
      let first := q.firstAborted s.fu.frame
      let s1 : State := { s with
        tiles := SMap.mapVals s.tiles {} (fun _ t => (Tile.stopStreams t p).doubtHalves p)
        ledger := { s.ledger with escrow := s.ledger.escrow.filter (fun x => decide (x.2.1.toNat ≠ p) || x.2.2.2.isSome) } }
      let copies := match first with | some r => r.retained | none => s.retainedOf p
      let s2 := (((((s1.undo p first).clearTags p).zeroBlocks p false).reloadRetained p copies).mapTiles
        (fun _ t => t.restoreStore p)).updPart p (fun q => { q with
        st := if q.st = .stopped then q.before else q.st, stopped := false, abort := none, resetF := none, resetIn := true, tries := [],
        runs := (match first with | some r => q.runs.filter (fun x => decide (x.step < r.step)) | none => q.runs),
        due := ((match first with | some r => r.step | none => if q.st = .stopped then q.step else q.due.1), 1)
        nextStart := some (s.fu.frame + 32), abortRun := 0 })
      .next ((s2.closeWindows (fun w => decide (w.tag.toNat = p))).appliedRec (partIndex p) 0x10 1 f)

end Sys2Proof.Machine
end

