-- ==== Sys2Proof/Machine/RecorderOps.lean ====
section
/-! DEFINITION. The event recorder's flush (R504-R511) and the fail-silent state (R384), which several families use. -/

namespace Sys2Proof.Machine

/-! ## Flush (R505-R508) -/

/-- The oldest readable circulating SEQ once record `n` is written: 950 sectors before the one being written (R508). -/
def oldestAfter (n : Nat) : Nat := 4096 + 64 * ((n - 4096) / 64 - 950)

/-- A flush of every pending record starts; while one runs, a further one waits (R506, R511). -/
def State.startFlush (s : State) : State :=
  match s.recd.flushing with
  | some _ => s.updRec (fun r => { r with again := true })
  | none =>
    if s.recd.buffer.isEmpty then s
    else (s.updRec (fun r => { r with flushing := some r.buffer.length })).flashWrite .recorder

/-- A record readable in flash (R507, R508). -/
def ERec.readable (r : ERec) (oldest : Nat) : Bool := decide (r.seq < 4096 ∨ oldest ≤ r.seq)

/-- The flash sector whose erasure starts as record `n` is written: only the first record of a circulating sector starts one (R507,
R508). -/
def sectorErased (n : Nat) : Option Nat :=
  if 4096 ≤ n ∧ (n - 4096) % 64 = 0 then some (0x940 + ((n - 4096) / 64 + 9) % 960) else none

/-- The slot of a record in flash (R507). -/
def slotOf (seq : Nat) : Nat := if seq < 4096 then seq else 4096 + (seq - 4096) % 61440

/-- One record programmed into its slot (R506-R508). -/
def Recorder.program (r : Recorder) (x : ERec) : Recorder :=
  let o := max r.oldest (oldestAfter x.seq)
  { r with flash := (x :: r.flash).filter (fun y => y.readable o), oldest := o }

/-- The records lost since the latest Recorder record are reported once fewer than 448 are pending (R505). -/
def State.reportLost (s : State) : State :=
  if s.recd.lostNew = 0 ∨ 448 ≤ s.recd.buffer.length then s
  else
    let n := s.recd.lostNew
    (s.updRec (fun r => { r with lostNew := 0 })).event 0x0F 1 0 none n 0 (BitVec.ofNat 160 n)

/-- The running flush is complete: its records are durable (R506); a waiting flush starts (R511). -/
def State.endFlush (s : State) : State :=
  match s.recd.flushing with
  | none => s
  | some n =>
    let done := s.recd.buffer.take n
    let r := done.foldl (fun x e => x.program e) s.recd
    let erased := done.filterMap (fun e => sectorErased e.seq)
    let s1 : State := { s with
      recd := { r with buffer := s.recd.buffer.drop n, flushing := none, again := false, flushes := r.flushes + 1 }
      mgmt := { s.mgmt with
        fqueue := s.mgmt.fqueue.erase .recorder
        ferase := s.mgmt.ferase ++ erased.map (fun k => (k, FlashCls.recorder, s.power.failed)) } }
    let s2 := s1.reportLost
    if s.recd.again then s2.startFlush else s2

/-! ## Fail-silent (R384) -/

/-- The die goes fail-silent: every stream stops, no LSN is assigned, every transmitter stops; the recorder is flushed (R384,
R506). -/
def State.failSilent (s : State) : State :=
  let s1 := s.stopAll
  ({ s1 with health := { s1.health with silent := true } }).startFlush

/-- The safety monitor deasserts every ELS_EN_N (R418, R426). -/
def State.darkenAll (s : State) : State :=
  { s with mods := SMap.mapVals s.mods {} (fun _ m => { m with en := false, lit := 0 }) }

end Sys2Proof.Machine
end

