-- ==== Sys2Proof/Machine/Twilight.lean ====
section
/-! DEFINITION. Twilight: entry, stop, Dark, and the causes that are events of their own (R13, R377, R387-R395). -/

namespace Sys2Proof.Machine

/-- A pending abort of one of the device's partitions whose replay frame has not come (R388). -/
def State.replayDue (s : State) : Bool := s.parts.any (fun x => x.2.abort.any (fun a => decide (s.fu.frame < a.replay)))

/-- TWILIGHT_ENTRY (R388, R389, R391): in the Twilight frame F every partition with a stream on the die aborts and the notice is
flooded; LSNs end (State.mayAssign). The abort notices carry a code that the spec does not give (log entry 27). -/
def execTwilightEntry (s : State) : Host.Outcome State Fault Refusal :=
  match s.health.decided with
  | none => .next s
  | some c =>
    if s.alive = false ∨ s.health.st ≠ 0 ∨ s.dawn.step < 11 ∨ s.replayDue = true then .next s
    else
      let s1 := s.abortAll Config.twilightCode .unchanged s.steppers
      let s2 := s1.updHealth (fun h => { h with st := 1, frame := s.fu.frame, decided := none, cause := c })
      .next (s2.floodNotice { frame := s.fu.frame, origin := s.dict.addr, link := 15, loopFail := false, cause := c })

/-- TWILIGHT_STOP (R389): at F + 32 the device steps no more and releases no more, its partition keys and the firmware stack key
are destroyed, the Twilight flag and then the recorder are written to flash. -/
def execTwilightStop (s : State) : Host.Outcome State Fault Refusal :=
  if s.alive = false ∨ s.health.st ≠ 1 ∨ s.fu.frame < s.health.frame + 32 then .next s
  else
    let ps := s.steppers
    let s1 : State := { s with
      tiles := SMap.mapVals s.tiles {} (fun _ t => ps.foldl (fun u p => Tile.stopStreams u p) t)
      parts := SMap.mapVals s.parts {} (fun _ q => { q with abort := none, nextStart := none, halt := true })
      mem := { s.mem with keys := [], written := [] }
      health := { s.health with st := 2, flag := true } }
    .next (s1.flashWrite .flag).startFlush

/-- DARK (R390, R392): the device holds no partition, stream or LSN; sessions, keys and bindings stay for the refusals, links stay
Active with idle frames only. -/
def execDark (s : State) : Host.Outcome State Fault Refusal :=
  if s.alive = false ∨ s.health.st ≠ 2 then .next s
  else
    let s1 := (s.parts.map (fun x => x.1)).foldl (fun t p => (t.evict p).dropGranules p) (s.closeWindows (fun _ => true))
    let l := s1.ledger
    .next { s1 with
      parts := [], accts := []
      tiles := SMap.mapVals s1.tiles {} (fun _ t => { t with streams := [] })
      ledger := { l with
        journal := [], subs := [], replica := [], covered := [], escrow := [], sums := [], durable := none, replicated := none }
      links := SMap.mapVals s1.links {} (fun _ e => { e with waiting := [], nakIn := [] })
      health := { s1.health with st := 3 } }

/-- TREE_DISAGREEMENT (R377, R387): the twin hold or abort trees disagree for this many cycles; more than 2 mean Twilight. Each unit acts on
the OR of the two copies: one that wrongly asserts the hold tree holds the die while it does, one that wrongly asserts the abort tree aborts
every partition with a stream on the die, as the mismatch of a duplicated unit (fault 0x12). -/
def execTreeDisagreement (cycles : Nat) (asserted : Option Bool) (s : State) : Host.Outcome State Fault Refusal :=
  if s.alive = false then .next s
  else
    let s1 := match asserted with
      | some true => s.faultWide { code := 0x12, tag := 0xFE, unit := 0x70, cycle := s.fu.cycle }
      | some false => s.updFu (fun f => { f with held := f.held + cycles, holds := f.holds + cycles })
      | none => s
    if cycles ≤ 2 then .next s1
    else .next ((s1.updHealth (fun h => { h with trees := bump32 h.trees })).twilight 0x0A)

/-- Host ports of an optical engine (R13). -/
def enginePorts (oe : Nat) : List Nat := match oe with | 0 => [0, 1] | 1 => [2] | _ => [3]

/-- Optical tensor links of an optical engine; 10 is the fold link (R13). -/
def engineLinks (oe : Nat) : List Nat := match oe with | 0 => [6] | 1 => [7, 8] | _ => [9, 10]

/-- OPTICAL_ENGINE_FAILURE (R13, R387): the engine's ports go down and its links in service fail; it is a device fault, cause 0x06. -/
def execOpticalEngineFailure (oe : Fin 3) (s : State) : Host.Outcome State Fault Refusal :=
  if s.alive = false then .next s
  else
    let s1 := (enginePorts oe.val).foldl (fun t p => t.portDown p) s
    .next (((engineLinks oe.val).foldl (fun t l => if (t.link l).st = .active then t.linkFail l else t) s1).twilight 0x06)

end Sys2Proof.Machine
end

