-- ==== Sys2Proof/Machine/Ethernet.lean ====
section
/-! DEFINITION. Host ports: frames, congestion, PFC, RDMA, port and queue pair events (R344-R360, R401). -/

namespace Sys2Proof.Machine

/-! ## Frames (R345-R348, R350) -/

/-- A frame dropped and counted at its port (R345, R346, R350). -/
def State.dropFrame (s : State) (p : Nat) : State := s.updPort p (fun x => { x with dropped := x.dropped + 1 })

/-- The frame is not one the port takes (R345, R346): too long, a check failed, a foreign tag, a fragment, other traffic, or a
RoCEv2 packet for a queue pair that is not connected on the port (R350). -/
def State.badFrame (s : State) (p : Nat) (kind : EthKind) (bytes : Nat) (vlan : Option (BitVec 12)) (fcsOk ipOk icrcOk : Bool) :
    Bool :=
  decide (9216 < bytes) || !fcsOk ||
    (match vlan with | none => false | some v => decide ((s.port p).vlan = 0 ∨ (s.port p).vlan ≠ v.setWidth 16)) ||
    (match kind with
    | .arp => false
    | .nd => !ipOk
    | .icmpEcho => !ipOk
    | .uoa => !ipOk
    | .roce n => !ipOk || !icrcOk || !(s.sess n.toNat).connected || decide ((s.sess n.toNat).port.toNat ≠ p)
    | .fragment => true
    | .other => true)

/-- Bytes of a port's receive buffer (R346). -/
def portBuffer : Nat := 4194304

/-- PFC as the buffer fills (R348): pause above 75 %, resume below 50 %, on lossless priorities. -/
def Port.fillTo (x : Port) (prio fill : Nat) : Port :=
  let y := { x with buffered := SMap.set x.buffered 0 prio fill }
  if x.lossless.getLsbD prio = false then y
  else if 3 * portBuffer < 4 * fill ∧ x.pausing.getLsbD prio = false then
    { y with pausing := x.pausing ||| BitVec.ofNat 8 (2 ^ prio), pfcTx := x.pfcTx + 1 }
  else if 2 * fill < portBuffer ∧ x.pausing.getLsbD prio = true then
    { y with pausing := x.pausing &&& ~~~(BitVec.ofNat 8 (2 ^ prio)) }
  else y

/-- A packet marked ECN-CE is answered by a congestion notification, at most one per session in 50 us (R348). -/
def State.ecnMark (s : State) (p n us : Nat) : State :=
  let x := s.sess n
  if x.cnpAt.any (fun t => decide (us < t + 50)) then s
  else (s.setSess n { x with cnpAt := some us }).updPort p (fun y => { y with cnpTx := y.cnpTx + 1 })

/-- ETHERNET_FRAME (R345-R348, R350): a frame buffered whole and checked; dropped and counted with no other effect, answered by the
port, or passed on. -/
def execEthernetFrame (port : PortNo) (kind : EthKind) (bytes : Nat) (vlan : Option (BitVec 12)) (fcsOk ipOk icrcOk ecn : Bool)
    (microseconds : Nat) (prio : BitVec 3) (fill : Nat) (s : State) : Host.Outcome State Fault Refusal :=
  let p := port.toNat
  if s.alive = false ∨ (s.port p).up = false then .next s
  else
    if s.badFrame p kind bytes vlan fcsOk ipOk icrcOk then .next (s.dropFrame p)
    else
      let s1 := s.updPort p (fun x => x.fillTo prio.toNat fill)
      match kind with
      | .roce n => if ecn then .next (s1.ecnMark p n.toNat microseconds) else .next s1
      | .uoa => .next s1
      | _ => .next (s1.updPort p (fun x => { x with answered := x.answered + 1 }))

/-- A session's transmit rate as n / 4^e Gb/s. -/
def State.rateOf (s : State) (x : Session) : Nat × Nat :=
  x.rate.getD (if (s.port x.port.toNat).full then 800 else 400, 0)

/-- Three quarters of a rate, not below 2 Gb/s (R348). -/
def cutRate (r : Nat × Nat) : Nat × Nat := if 3 * r.1 < 2 * 4 ^ (r.2 + 1) then (2, 0) else (3 * r.1, r.2 + 1)

/-- CONGESTION_NOTIFICATION (R348). -/
def execCongestionNotification (session : SessNo) (s : State) : Host.Outcome State Fault Refusal :=
  let n := session.toNat
  let x := s.sess n
  let p := x.port.toNat
  if s.alive = false ∨ x.connected = false ∨ (s.port p).up = false then .next s
  else
    .next ((s.setSess n { x with rate := some (cutRate (s.rateOf x)) }).updPort p (fun y => { y with cnpRx := y.cnpRx + 1 }))

/-- RATE_INCREASE (R348): 100 us without a notification: 10 Gb/s more, up to the port rate. -/
def execRateIncrease (session : SessNo) (s : State) : Host.Outcome State Fault Refusal :=
  let n := session.toNat
  let x := s.sess n
  match x.rate with
  | none => .next s
  | some (a, e) =>
    let top := if (s.port x.port.toNat).full then 800 else 400
    if s.alive = false then .next s
    else if top * 4 ^ e ≤ a + 10 * 4 ^ e then .next (s.setSess n { x with rate := none })
    else .next (s.setSess n { x with rate := some (a + 10 * 4 ^ e, e) })

/-- PFC_FRAME (R345, R348): honoured on the port's lossless priorities. -/
def execPfcFrame (port : PortNo) (prio : BitVec 3) (pause : Bool) (s : State) : Host.Outcome State Fault Refusal :=
  let p := port.toNat
  let x := s.port p
  let bit := BitVec.ofNat 8 (2 ^ prio.toNat)
  if s.alive = false ∨ x.up = false ∨ x.lossless.getLsbD prio.toNat = false then .next s
  else .next (s.setPort p { x with paused := if pause then x.paused ||| bit else x.paused &&& ~~~bit })

/-! ## RDMA (R357-R360, R365) -/

/-- The window entry that a key names, if the key opens it (R357, R359 stage 1). -/
def State.windowByKey (s : State) (key : BitVec 32) : Option Nat :=
  let i := (key.extractLsb' 12 12).toNat
  let w := s.window i
  if w.st = 1 ∧ w.key i = key then some i else none

/-- The window admits the session: it is bound to it, or open to every session of the partition (R359 stage 2). -/
def Window.admits (w : Window) (n : SessNo) (x : Session) : Bool :=
  decide (w.session = n ∧ w.any = false) || (w.any && decide (w.tag = x.part))

/-- The session's queue pair enters its error state, and what it had in progress ends (R350, R359). -/
def State.qpError (s : State) (n : Nat) : State :=
  (s.endRdma n).updSess n (fun x => if x.st = .ready then { x with st := .error } else x)

/-- A rejected first packet: the negative acknowledgement, and for a closed window its notice, then the error state (R359). -/
def State.rejectRdma (s : State) (n : SessNo) (closed : Bool) (key : BitVec 32) (psn : BitVec 24) (op : Nat) : State :=
  let s1 : State := { s with host := { s.host with
    nakOut := s.host.nakOut ++ [(n, psn)]
    winClosed := if closed then s.host.winClosed + 1 else s.host.winClosed
    winAccess := if closed then s.host.winAccess else s.host.winAccess + 1 } }
  let s2 := if closed then s1.uwp n 0x17 0 0 (s.sess n.toNat).part 0 false
    (beBytes 4 key.toNat ++ beBytes 4 psn.toNat ++ beBytes 1 op) else s1
  s2.qpError n.toNat

/-- The lines that bytes `va` to `va + len - 1` of a window lie in. -/
def Window.lines (w : Window) (va len : Nat) : List Nat :=
  if len = 0 then [] else (List.range ((va + len - 1) / 128 - va / 128 + 1)).map (fun k => w.base + va / 128 + k)

/-- The first line of a list whose granule is not the window's (R220, R365). -/
def State.strayLine (s : State) (tag : Tag) (ls : List Nat) : Option Nat :=
  ls.find? (fun l => decide (s.granTag l ≠ tag))

/-- Bytes landed in a window, line by line, beside what the lines hold. -/
def State.landBytes (s : State) (w : Window) (va : Nat) (data : List Byte) : State :=
  (w.lines va data.length).foldl (fun (t : State) l =>
    let start := 128 * (l - w.base)
    let new := (bytesOfLine (t.readMem l)).zipIdx.map (fun b =>
      if va ≤ start + b.2 ∧ start + b.2 < va + data.length then data.getD (start + b.2 - va) 0 else b.1)
    t.setMemLine l (lineOfBytes new)) s

/-- The bytes `va` to `va + len - 1` of a window. -/
def State.windowBytes (s : State) (w : Window) (va len : Nat) : List Byte :=
  (((w.lines va len).map (fun l => bytesOfLine (s.readMem l))).flatten.drop (va % 128)).take len

/-- The checks of R359 on an operation of a session: the window it may use, or the stage at which it fails. -/
def State.rdmaCheck (s : State) (n : SessNo) (key : BitVec 32) (va len bit : Nat) : Except Bool Nat :=
  match s.windowByKey key with
  | none => .error true
  | some i =>
    let w := s.window i
    if w.admits n (s.sess n.toNat) && w.access.getLsbD bit && decide (va + len ≤ w.bytes) then .ok i else .error false

/-- The queue pair takes packets on the port (R350). -/
def State.qpReady (s : State) (n : SessNo) (port : PortNo) : Bool :=
  s.alive && (s.port port.toNat).up && (s.sess n.toNat).connected && decide ((s.sess n.toNat).port = port)

/-- A stack controller refuses a line: fault 0x06 at the destination check (R220, R365). -/
def State.strayFault (s : State) (w : Window) (line : Nat) : State :=
  s.fault (portFault 0x06 w.tag (unitRouter (stackOf line)) 5 s.fu.cycle (tagDetail w.tag true))

/-- The router of an Ethernet endpoint (R160). -/
def portRouter (p : Nat) : Nat := [70, 73, 438, 441].getD p 70

/-- A line read for an Ethernet endpoint that may not be used (R205, R217). -/
def State.portPoison (s : State) (p : Nat) (tag : Tag) (l : Nat) : FaultInfo :=
  portFault 0x13 tag (portRouter p) 5 s.fu.cycle (BitVec.ofNat 32 l)

/-- Lines of a window that an Ethernet endpoint reads as queue traffic (R163, R217, R242). -/
def State.portFetch (s : State) (p : Nat) (tag : Tag) (ls : List Nat) (errs : StackErrs) : State × Bool :=
  s.fetchLines (some (portRouter p)) tag (s.realOf s.fu.cycle) (s.portPoison p tag) ls errs

/-- The lines of a packet that its bytes fill only in part: their other bytes are read to be written back. -/
def Window.partLines (w : Window) (va len : Nat) : List Nat :=
  (w.lines va len).filter (fun l => decide (128 * (l - w.base) < va ∨ va + len < 128 * (l - w.base) + 128))

/-- A packet's bytes land from byte `va` of window `i`, unless a stack controller refuses a line, a line that they fill only in part cannot
be read, or a flit is lost (R161, R217, R220, R365). -/
def State.landPacket (s : State) (port : PortNo) (i va : Nat) (data : List Byte) (errs : StackErrs) : State :=
  let w := s.window i
  match s.strayLine w.tag (w.lines va data.length) with
  | some l => s.strayFault w l
  | none =>
    let p := port.toNat
    let (s1, whole) := s.fetchLines none w.tag (s.realOf s.fu.cycle) (s.portPoison p w.tag) (w.partLines va data.length) errs
    let (s2, arrived) := s1.moveLines (portRouter p) w.tag (s.realOf s.fu.cycle) (w.lines va data.length) errs
    if whole && arrived then s2.landBytes w va data else s2

/-- A later packet of a WRITE lands without a further check of its key (R359, R360); its last one ends the operation. A packet that
continues no WRITE is the transport's to refuse and has no effect: DESIGN CHOICE (98). -/
def State.landMore (s : State) (qp : SessNo) (port : PortNo) (data : List Byte) (isLast : Bool) (errs : StackErrs) : State :=
  match (s.sess qp.toNat).rdma with
  | none => s
  | some (i, va, left) =>
    let d := data.take left
    let s1 := s.landPacket port i.toNat va d errs
    if isLast then s1.endRdma qp.toNat else s1.updSess qp.toNat (fun x => { x with rdma := some (i, va + d.length, left - d.length) })

/-- RDMA_WRITE (R345, R359, R360, R365): the first or only packet is checked against the window table; the later ones of an admitted
message land though its window has begun to close. -/
def execRdmaWrite (qp : SessNo) (port : PortNo) (pk : RdmaPk) (rkey : BitVec 32) (va : Nat) (data : List Byte) (psn : BitVec 24)
    (errs : StackErrs) (s : State) : Host.Outcome State Fault Refusal :=
  if s.qpReady qp port = false then .next (if s.alive then s.dropFrame port.toNat else s)
  else
    match pk with
    | .middle => .next (s.landMore qp port data false errs)
    | .last => .next (s.landMore qp port data true errs)
    | .only =>
      match s.rdmaCheck qp rkey va data.length 0 with
      | .error closed => .next (s.rejectRdma qp closed rkey psn 0)
      | .ok i => .next ((s.endRdma qp.toNat).landPacket port i va data errs)
    | .first n =>
      match s.rdmaCheck qp rkey va n 0 with
      | .error closed => .next (s.rejectRdma qp closed rkey psn 0)
      | .ok i =>
        let d := data.take n
        let s1 := (s.endRdma qp.toNat).landPacket port i va d errs
        let w := s1.window i
        .next ((s1.setWindow i { w with busy := w.busy + 1 }).updSess qp.toNat (fun x =>
          { x with rdma := some (BitVec.ofNat 12 i, va + d.length, n - d.length) }))

/-- The packets of a READ response, of at most 4,096 bytes (R345). -/
def readPackets (bs : List Byte) : List (List Byte) :=
  (List.range (max 1 ((bs.length + 4095) / 4096))).map (fun k => (bs.drop (4096 * k)).take 4096)

/-- RDMA_READ (R217, R359, R365): data that cannot be delivered are not answered. -/
def execRdmaRead (qp : SessNo) (port : PortNo) (rkey : BitVec 32) (va len : Nat) (psn : BitVec 24) (errs : StackErrs) (s : State) :
    Host.Outcome State Fault Refusal :=
  if s.qpReady qp port = false then .next (if s.alive then s.dropFrame port.toNat else s)
  else
    match s.rdmaCheck qp rkey va len 1 with
    | .error closed => .next (s.rejectRdma qp closed rkey psn 1)
    | .ok i =>
      let w := s.window i
      match s.strayLine w.tag (w.lines va len) with
      | some l => .next (s.strayFault w l)
      | none =>
        let (s1, ok) := s.portFetch port.toNat w.tag (w.lines va len) errs
        if ok then
          .next { s1 with host := { s1.host with
            readOut := s1.host.readOut ++ (readPackets (s.windowBytes w va len)).map (fun d => (qp, d)) } }
        else .next s1

/-- WINDOW_DRAINED (R222, R360): the last admitted operation of a Closing window has ended. -/
def execWindowDrained (index : BitVec 12) (s : State) : Host.Outcome State Fault Refusal := .next (s.drainWindow index.toNat)

/-! ## Ports and queue pairs (R350, R401) -/

/-- QUEUE_PAIR_ERROR (R350): retries exhausted, a remote access error, or the port down. -/
def execQueuePairError (session : SessNo) (s : State) : Host.Outcome State Fault Refusal := .next (s.qpError session.toNat)

/-- ETHERNET_PORT_DOWN (R401). -/
def execEthernetPortDown (port : PortNo) (s : State) : Host.Outcome State Fault Refusal := .next (s.portDown port.toNat)

/-- PORT_RETRAINED (R345, R368, R401, R410): the port is up at 800 Gb/s on two lit pairs, or at 400 on one; written addresses take
effect at the next link up;
a removal request goes on. -/
def execPortRetrained (port : PortNo) (full : Bool) (s : State) : Host.Outcome State Fault Refusal :=
  let p := port.toNat
  if s.alive = false ∨ s.portPairs p < (if full then 2 else 1) then .next s
  else
    let s1 := s.updPort p (fun x => { x with up := true, full := full, ipv4 := x.ipv4W, ipv6 := x.ipv6W })
    .next ({ s1 with mods := SMap.mapVals s1.mods {} (fun _ m => { m with waitPorts := m.waitPorts.filter (fun k => decide (k ≠ p)) }) }).advanceRemovals

end Sys2Proof.Machine
end

