-- ==== Sys2Proof/Machine/Teller.lean ====
section
/-! DEFINITION. The Teller: UWP messages from hosts, admission, refusals, cancels, acknowledgements and window messages (R284-R286,
R296, R354-R364, R390). -/

namespace Sys2Proof.Machine

/-! ## Stages 1 to 4 (R354, R361, R390) -/

/-- A refusal: counted by its code, and sent (R309, R355, R369). -/
def State.refuse (s : State) (m : UwpMsg) (code : BitVec 8) (body : List Byte) : State :=
  let k := code.toNat - 0x80
  let s1 := s.updSess m.qp.toNat (fun x => { x with refusals := SMap.set x.refusals 0 k (bump32 (SMap.get x.refusals 0 k)) })
  let s2 := s1.updLedger (fun l => { l with
    busy := if code = 0x80 then l.busy + 1 else l.busy
    staleGap := if code = 0x81 ∨ code = 0x82 then l.staleGap + 1 else l.staleGap })
  s2.uwp m.qp 0x12 m.ssn m.accountId m.part code false body

/-- Refusal 0x83, with the home address (R355). -/
def State.notHome (s : State) (m : UwpMsg) (home : DevAddr) : State := s.refuse m 0x83 (beBytes 2 home.toNat)

/-- Refusal 0x8A, with a reason that the spec gives no code for (log entry 28). -/
def State.noWindow (s : State) (m : UwpMsg) : State := s.freed.refuse m 0x8A [Config.windowReason s.free]

/-- The bits of a host's UWP header, its reserved bits the three runs of `rsvd` in order (R354); on the wire it goes most significant
byte first (R11). -/
def uwpBits (m : UwpMsg) : BitVec 512 :=
  m.vmajor ++ m.vminor ++ m.gen ++ m.type ++ m.length ++ m.session ++ m.rsvd.extractLsb' 59 4 ++ m.ssn ++ m.ack ++ m.accountId ++ m.part
    ++ m.subkind ++ m.rsvd.extractLsb' 55 4 ++ m.deadline ++ m.maxtok ++ m.endtok ++ m.frame ++ m.counter ++ m.code ++ BitVec.ofBool m.late
    ++ m.rsvd.extractLsb' 0 55

/-- The header fields that R354 fixes, by TYPE and SUBKIND: `type` is 1 for a Submit; `gen` marks a Generate, `maxtok` a Generate or
Learn. -/
def headerOk (m : UwpMsg) (type : BitVec 6) (subkind : BitVec 4) : Bool :=
  decide (m.length.toNat ≤ 65456 ∧ m.gen = 0 ∧ m.type = type ∧ m.rsvd = 0 ∧ m.frame = 0 ∧ m.code = 0 ∧ m.late = false ∧ m.subkind = subkind ∧
    (subkind = 1 ∨ (m.deadline = 0 ∧ m.endtok = BitVec.allOnes 32)) ∧ (subkind = 1 ∨ subkind = 2 ∨ m.maxtok = 0))

/-- The halves of the Teller or of its AES unit disagree (R377): fault 0x12, which aborts the step of the session's partition; the message
has no other effect (log entry 96). -/
def State.tellerUpset (s : State) (p : Tag) : State := s.fault { code := 0x12, tag := p, unit := 0x71, cycle := s.fu.cycle }

/-- Stages 1 to 4 of R361, after the transport's own check (R350): the machine after them and whether the message passed. In
Twilight from F + 32, in Dark and while flagged, every message that passes is refused (R390, R392, R394). -/
def State.gate (s : State) (m : UwpMsg) (formOk : Bool) : State × Bool :=
  let n := m.qp.toNat
  let x := s.sess n
  if s.alive = false ∨ (s.port m.port.toNat).up = false then (s, false)
  else if x.connected = false ∨ x.port ≠ m.port then (s.dropFrame m.port.toNat, false)
  else if m.upset then (s.tellerUpset x.part, false)
  else if m.tagOk = false ∨ x.key = none ∨ m.counter ≤ x.rxCtr then
    (s.setSess n { x with authDrops := bump32 x.authDrops }, false)
  else
    let s1 := s.setSess n { x with rxCtr := m.counter }
    if m.vmajor ≠ 1 then (s1.refuse m 0x89 [], false)
    else if formOk = false then (s1.refuse m 0x87 [], false)
    else if m.session ≠ m.qp ∨ m.part ≠ x.part then (s1.refuse m 0x88 [], false)
    else if 2 ≤ s.health.st then (s1.notHome m s.partner, false)
    else (s1, true)

/-- The account of a partition that carries an identifier. -/
def State.acctByIdent (s : State) (p : Tag) (ident : BitVec 64) : Option Nat :=
  (s.accts.find? (fun x => decide (x.2.part = p ∧ x.2.ident = ident ∧ x.2.st ≠ .free))).map (fun x => x.1)

/-! ## ACK and retirement (R286) -/

/-- The acknowledged-through number that may be recorded: below the session's lowest submission that is not Completed, and at most
A (R286). -/
def State.ackLimit (s : State) (n : SessNo) (ack : BitVec 32) : BitVec 32 :=
  let x := s.sess n.toNat
  let stop := ((s.heldOf n).filter (fun b => decide (b.st ≠ .completed))).foldl
    (fun (k : BitVec 32) b => if b.ssn ≤ k then b.ssn - 1 else k) (if x.a < ack then x.a else ack)
  if stop < x.ack then x.ack else stop

/-- A message's ACK above the Ledger's writes a Retire record (R286). -/
def State.takeAck (s : State) (m : UwpMsg) : State :=
  let k := s.ackLimit m.qp m.ack
  if (s.sess m.qp.toNat).ack < k ∧ s.mayAssign = true then
    (s.assign false m.part 0xFF (.retire m.qp k)).1
  else s

/-! ## Submissions (R284-R286, R361) -/

/-- What a submission's body gives the Ledger. -/
structure SubmitBody where
  subkind : BitVec 4
  /-- the bytes of the body, or of the window it names: the payload (R284, R356) -/
  bytes   : List Byte
  words   : List W32
  open_   : Option OpenBody
  parts   : List RestorePart
deriving DecidableEq, Repr

/-- The payload written into the partition's granules (R284): its first line and lines; none where no chunk is free. -/
def State.writePayload (s : State) (p : Nat) (bs : List Byte) : Option (State × Nat × Nat) :=
  let lines := (bs.length + 127) / 128
  if lines = 0 then some (s, 0, 0)
  else
    match s.takeRun p ((lines + 127) / 128) with
    | (_, none) => none
    | (s1, some q) =>
      some (s1.setMemBytes (128 * q) bs, 128 * q, lines)

/-- The payload digest e(0) of an Accept record (R285). -/
def payloadDigest (bs : List Byte) : BitVec 61 := BitVec.ofNat 61 (entryDigest (wordsOfBytes bs) 0)

/-- Stage 10 (R284): the payload is written, the Accept record takes its LSN, and the submission is held, Accepting. The records of a
covered account go to the covered device's Ledger (R298). -/
def State.accept (s : State) (m : UwpMsg) (acct : Option Nat) (b : SubmitBody) : State :=
  match s.writePayload m.part.toNat b.bytes with
  | none => s.refuse m 0x80 []
  | some (s1, addr, lines) =>
    let cov := match acct with | some a => s1.coversAcct a | none => false
    let slot := acct.map slotNo
    let dig := payloadDigest b.bytes
    let (s2, lsn) := s1.assign cov m.part (acctField slot)
      (.accept m.qp m.ssn b.subkind m.deadline m.maxtok m.endtok (BitVec.ofNat 64 s1.fu.frame) dig (BitVec.ofNat 33 addr)
        (BitVec.ofNat 18 lines))
    let sub : Sub :=
      { sess := m.qp, ssn := m.ssn, lsn := lsn, st := .accepting, subkind := b.subkind, account := slot,
        part := m.part.setWidth 7, ident := m.accountId, deadline := m.deadline, maxtok := m.maxtok, endtok := m.endtok,
        aframe := BitVec.ofNat 64 s1.fu.frame, pdigest := dig, payload := b.words, open_ := b.open_, parts := b.parts, tokens := 0,
        doneLsn := none, status := 0, late := false, step := BitVec.allOnes 48, cancelLsn := none, covered := cov, here := true,
        fed := 0, paddr := addr, plines := lines }
    let s3 := (s2.updLedger (fun l => { l with subs := l.subs ++ [sub] })).updSess m.qp.toNat (fun x => { x with a := m.ssn })
    (s3.takeAck m).runDurable

/-- A copy of an admitted submission is answered from the Ledger (R286). -/
def State.duplicate (s : State) (m : UwpMsg) : State :=
  match (s.heldOf m.qp).find? (fun b => decide (b.ssn = m.ssn)) with
  | none => s
  | some b =>
    let s1 := s.updLedger (fun l => { l with dups := l.dups + 1 })
    match b.st with
    | .accepting => s1
    | .completed => if s1.sealing b then s1.sendReceipt b else (s1.sendReceipt b).sendResult b b.parkParts
    | _ => s1.sendReceipt b

/-- Opens and restores of a partition that hold no account slot yet. -/
def State.promised (s : State) (p : Nat) : List Sub :=
  s.ledger.subs.filter (fun b => decide (b.part.toNat = p ∧ (b.subkind = 5 ∨ b.subkind = 4) ∧ b.account = none ∧ b.doneLsn = none))

/-- Stage 7 for a submission that makes an account (R254, R255, R361): the refusal, or none. -/
def State.openRefusal (s : State) (m : UwpMsg) : Option (State) :=
  let p := m.part.toNat
  let q := s.part p
  let wait := (List.range 128).foldl (fun n k => n + (s.promised k).length) 0
  let used := (s.accts.filter (fun x => !x.2.unused)).length
  let mine := (s.accts.filter (fun x => decide (x.2.part = m.part ∧ x.2.st ≠ .free))).length + (s.promised p).length
  if q.homes.contains s.dict.addr = false then
    some (s.notHome m (q.homes.foldl (fun (k : DevAddr) h => if h < k then h else k) (q.homes.headD 0)))
  else if (s.acctByIdent m.part m.accountId).isSome ∨ (s.promised p).any (fun b => decide (b.ident = m.accountId)) then
    some (s.refuse m 0x8C [])
  else if q.batch.toNat ≤ mine ∨ 192 ≤ used + wait then some (s.refuse m 0x85 [])
  else none

/-- Stage 9 (R284, R301, R361, R389, R519). -/
def State.busyNow (s : State) (n : SessNo) : Bool :=
  !s.mayAssign || decide (s.dawn.step < 11) || decide (16384 ≤ s.ledger.subs.length) || decide (4 ≤ (s.heldOf n).length)

/-- An Open whose seed the Vault is to draw (R254): refused as busy while the Vault refuses draws (R464, log entry 105). -/
def SubmitBody.draws (b : SubmitBody) : Bool := b.open_.any (fun o => decide (o.seed = 0))

/-- Stages 5 to 10 for a Submit (R361). -/
def State.takeSubmit (s : State) (m : UwpMsg) (b : SubmitBody) : State :=
  let x := s.sess m.qp.toNat
  let q := s.part m.part.toNat
  if m.ssn ≤ x.ack then s.refuse m 0x81 []
  else if m.ssn ≤ x.a then ((s.duplicate m).takeAck m).runDurable
  else if m.ssn.toNat ≠ x.a.toNat + 1 then s.refuse m 0x82 []
  else if x.st ≠ .ready then s.refuse m 0x8B []
  else if (q.st ≠ .serving ∧ q.st ≠ .streaming) ∨ q.closeF.isSome then s.refuse m 0x84 []
  else if b.subkind = 5 ∨ b.subkind = 4 then
    match s.openRefusal m with
    | some t => t
    | none => if s.busyNow m.qp || (b.draws && !s.mgmt.entropy) then s.refuse m 0x80 [] else s.accept m none b
  else
    match s.acctByIdent m.part m.accountId with
    | none => s.refuse m 0x86 []
    | some a =>
      if s.isHome a = false then s.notHome m (s.homeNow a)
      else if s.busyNow m.qp then s.refuse m 0x80 []
      else s.accept m (some a) b

/-- A 32-bit number as a body carries it, most significant byte first (R354). -/
def be32 (w : W32) : List Byte := (bytesOfNat 4 w.toNat).reverse

/-- The body of a Generate: its length, form and bytes (R356). -/
def genBody (src : GenSrc) : Nat × Bool × List Byte :=
  match src with
  | .inline ts => (5 + 4 * ts.length, decide (ts.length ≤ 16362), [0] ++ be32 (BitVec.ofNat 32 ts.length) ++ (ts.map be32).flatten)
  | .window key n => (9, decide (n ≤ 4194304), [1] ++ be32 key ++ be32 (BitVec.ofNat 32 n))
  | .other _ => (0, false, [])

/-- The tokens of a window-sourced prompt: those of an open window of the session that holds them (R356). -/
def State.promptOf (s : State) (m : UwpMsg) (key : BitVec 32) (n : Nat) : Option (List Byte) :=
  match s.windowByKey key with
  | none => none
  | some i =>
    let w := s.window i
    if w.admits m.qp (s.sess m.qp.toNat) ∧ 4 * n ≤ w.bytes ∧ s.strayLine w.tag (w.lines 0 (4 * n)) = none then
      some (s.windowBytes w 0 (4 * n))
    else none

/-- Stages 5 to 10 of a Generate would take it, so that its window is asked for (R356). -/
def State.wouldAccept (s : State) (m : UwpMsg) : Bool :=
  let x := s.sess m.qp.toNat
  let q := s.part m.part.toNat
  decide (m.ssn.toNat = x.a.toNat + 1 ∧ x.st = .ready ∧ (q.st = .serving ∨ q.st = .streaming) ∧ q.closeF = none) &&
    (match s.acctByIdent m.part m.accountId with | some a => s.isHome a | none => false) && !s.busyNow m.qp

/-- GENERATE (R356, R361). -/
def execGenerate (m : UwpMsg) (src : GenSrc) (s : State) : Host.Outcome State Fault Refusal :=
  let (len, ok, bytes) := genBody src
  match s.gate m (headerOk m 1 1 && ok && decide (m.length.toNat = len ∧ m.maxtok ≠ 0)) with
  | (s1, false) => .next s1
  | (s1, true) =>
    match src with
    | .window key n =>
      if s1.wouldAccept m then
        match s1.promptOf m key n with
        | none => .next (s1.noWindow m)
        | some bs => .next (s1.takeSubmit m { subkind := 1, bytes := bs, words := wordsOfBytes bs, open_ := none, parts := [] })
      else .next (s1.takeSubmit m { subkind := 1, bytes := bytes, words := [], open_ := none, parts := [] })
    | .inline ts => .next (s1.takeSubmit m { subkind := 1, bytes := bytes, words := ts, open_ := none, parts := [] })
    | .other _ => .next (s1.takeSubmit m { subkind := 1, bytes := bytes, words := [], open_ := none, parts := [] })

/-- LEARN (R265, R356). -/
def execLearn (m : UwpMsg) (first count : BitVec 32) (s : State) : Host.Outcome State Fault Refusal :=
  match s.gate m (headerOk m 1 2 && decide (m.length = 8)) with
  | (s1, false) => .next s1
  | (s1, true) =>
    .next (s1.takeSubmit m { subkind := 2, bytes := be32 first ++ be32 count, words := [first, count], open_ := none, parts := [] })

/-- PARK (R304, R356). -/
def execPark (m : UwpMsg) (s : State) : Host.Outcome State Fault Refusal :=
  match s.gate m (headerOk m 1 3 && decide (m.length = 0)) with
  | (s1, false) => .next s1
  | (s1, true) => .next (s1.takeSubmit m { subkind := 3, bytes := [], words := [], open_ := none, parts := [] })

/-- The bytes of a restore's body (R356). -/
def restoreBytes (parts : List RestorePart) : List Byte :=
  (bytesOfNat 2 parts.length).reverse ++
    (parts.map (fun p => (bytesOfNat 2 p.device.toNat).reverse ++ be32 p.key ++ (bytesOfNat 8 p.length.toNat).reverse)).flatten

/-- RESTORE (R255, R307, R356): judged like an Open, since it makes an account. -/
def execRestore (m : UwpMsg) (parts : List RestorePart) (s : State) : Host.Outcome State Fault Refusal :=
  match s.gate m (headerOk m 1 4 && decide (m.length.toNat = 2 + 14 * parts.length)) with
  | (s1, false) => .next s1
  | (s1, true) => .next (s1.takeSubmit m { subkind := 4, bytes := restoreBytes parts, words := [], open_ := none, parts := parts })

/-- An F32 that is not a number. -/
def isNaN (w : W32) : Bool := decide (0x7F800000 < (w &&& 0x7FFFFFFF).toNat)

/-- The values of an Open's body are within R356. -/
def openOk (b : OpenBody) (verify : Nat) : Bool :=
  !isNaN b.tau && decide (b.tau &&& 0x7FFFFFFF ≠ 0x7F800000 ∧ (b.tau.getLsbD 31 = false ∨ b.tau = 0x80000000)) &&
    decide (b.k.toNat ≤ 1024) && decide (0 < b.pi.toNat ∧ b.pi.toNat ≤ 0x3F800000) &&
    (decide (verify = 0) || decide (1 ≤ b.cap.toNat ∧ b.cap.toNat ≤ 16))

/-- The bytes of an Open's body (R356). -/
def openBytes (b : OpenBody) : List Byte :=
  (bytesOfNat 8 b.seed.toNat).reverse ++ be32 b.tau ++ (bytesOfNat 2 b.k.toNat).reverse ++ be32 b.pi ++ [b.cap] ++ be32 b.pinned

/-- OPEN_ACCOUNT (R254, R356, R361, R555). -/
def execOpenAccount (m : UwpMsg) (b : OpenBody) (s : State) : Host.Outcome State Fault Refusal :=
  let ok := openOk b (s.part m.part.toNat).verify.toNat
  match s.gate m (headerOk m 1 5 && ok && decide (m.length = 23)) with
  | (s1, false) => .next s1
  | (s1, true) => .next (s1.takeSubmit m { subkind := 5, bytes := openBytes b, words := [], open_ := some b, parts := [] })

/-- CLOSE_ACCOUNT (R356, R361, R555). -/
def execCloseAccount (m : UwpMsg) (s : State) : Host.Outcome State Fault Refusal :=
  match s.gate m (headerOk m 1 6 && decide (m.length = 0)) with
  | (s1, false) => .next s1
  | (s1, true) => .next (s1.takeSubmit m { subkind := 6, bytes := [], words := [], open_ := none, parts := [] })

/-! ## Cancel, Acknowledge, Release acknowledge (R286, R296, R362) -/

/-- Stage 8 for a message that names an account: the home address where this device is not home (R361, R362). -/
def State.awayHome (s : State) (m : UwpMsg) : Option DevAddr :=
  match s.acctByIdent m.part m.accountId with
  | none => none
  | some a => if s.isHome a then none else some (s.homeNow a)

/-- What a cancel does to the Ledger (R296). -/
def State.cancelSub (s : State) (m : UwpMsg) : State :=
  match (s.heldOf m.qp).find? (fun b => decide (b.ssn = m.ssn)) with
  | none => s.sendCancel m.qp m.ssn m.accountId m.part 0
  | some b =>
    if b.doneLsn.isSome then s.sendCancel m.qp m.ssn b.ident m.part 4
    else
      let (s1, lsn) := s.assign b.covered m.part (acctField b.account) (.cancel m.qp m.ssn)
      (s1.updSub b.covered m.qp m.ssn (fun x => { x with cancelLsn := some (x.cancelLsn.getD lsn) })).runDurable

/-- CANCEL (R296, R362). -/
def execCancel (m : UwpMsg) (s : State) : Host.Outcome State Fault Refusal :=
  match s.gate m (headerOk m 2 0 && decide (m.length = 0)) with
  | (s1, false) => .next s1
  | (s1, true) =>
    match s1.awayHome m with
    | some h => .next (s1.notHome m h)
    | none => if s1.mayAssign then .next (s1.cancelSub m) else .next (s1.refuse m 0x80 [])

/-- ACKNOWLEDGE (R286, R353, R362). -/
def execAcknowledge (m : UwpMsg) (s : State) : Host.Outcome State Fault Refusal :=
  match s.gate m (headerOk m 3 0 && decide (m.length = 0)) with
  | (s1, false) => .next s1
  | (s1, true) =>
    match s1.awayHome m with
    | some h => .next (s1.notHome m h)
    | none => if s1.mayAssign then .next (s1.takeAck m).runDurable else .next (s1.refuse m 0x80 [])

/-- RELEASE_ACKNOWLEDGE (R362). -/
def execReleaseAcknowledge (m : UwpMsg) (relpos : BitVec 32) (s : State) : Host.Outcome State Fault Refusal :=
  match s.gate m (headerOk m 4 0 && decide (m.length = 4)) with
  | (s1, false) => .next s1
  | (s1, true) =>
    match s1.awayHome m with
    | some h => .next (s1.notHome m h)
    | none =>
      match s1.acctByIdent m.part m.accountId with
      | none => .next s1
      | some a => .next (s1.updAcct a (fun x => { x with
          relpos := match x.relpos with | some r => some (if r < relpos then relpos else r) | none => some relpos }))

/-! ## Window messages (R357-R360) -/

/-- WINDOW_OPEN (R89, R355, R357, R358): the key returns in a Window receipt. An export window is opened by the device alone. -/
def execWindowOpen (m : UwpMsg) (kind mxtype access any : BitVec 8) (bytes : BitVec 32) (s : State) :
    Host.Outcome State Fault Refusal :=
  let form := decide (kind.toNat ≤ 2 ∧ any.toNat ≤ 1 ∧ access.toNat ≤ 3)
  match s.gate m (headerOk m 5 0 && form && decide (m.length = 8)) with
  | (s1, false) => .next s1
  | (s1, true) =>
    if (kind = 2 ∧ (mxtype = 0 ∨ 4 < mxtype.toNat)) ∨ kind = 1 then .next (s1.noWindow m)
    else
      match s1.openWindow m.qp m.part.toNat (decide (any = 1)) kind mxtype access bytes.toNat with
      | none => .next (s1.noWindow m)
      | some (s2, i) =>
        let w := s2.window i
        -- the window's tag and those of its granules are read back before it is put to use (R365)
        if (s2.strayLine w.tag (w.lines 0 w.bytes)).isSome then .next ((s2.closeWindow i).twilight 0x0B)
        else .next (s2.uwp m.qp 0x16 m.ssn m.accountId m.part 0 false (be32 (w.key i)))

/-- WINDOW_CLOSE (R360): an open window that the session may use enters Closing, where WINDOW_DRAINED finds it; the close is answered
with its key in a Window receipt. -/
def execWindowClose (m : UwpMsg) (key : BitVec 32) (s : State) : Host.Outcome State Fault Refusal :=
  match s.gate m (headerOk m 6 0 && decide (m.length = 4)) with
  | (s1, false) => .next s1
  | (s1, true) =>
    match s1.windowByKey key with
    | none => .next (s1.noWindow m)
    | some i =>
      if (s1.window i).admits m.qp (s1.sess m.qp.toNat) = false then .next (s1.noWindow m)
      else .next ((s1.closeWindow i).uwp m.qp 0x16 m.ssn m.accountId m.part 0 false (be32 key))

end Sys2Proof.Machine
end

