-- ==== Sys2Proof/Machine/Daylight.lean ====
section
/-! DEFINITION. Daylight modules: presence, removal, faults, open fibres, monitors, history, removal requests and relight (R399-R412). -/

namespace Sys2Proof.Machine

/-! ## States (R404, R405) -/

/-- The state that a lit module's condition gives (R405): an output without light and no spare left, then wear. -/
def conditionOf (d : ModuleData) (used : BitVec 6) : Nat :=
  if d.lit &&& used ≠ used ∧ 2 ≤ (modSpares d).toNat then 6
  else if lifeOf d < 1000 ∨ 2 ≤ (modSpares d).toNat then 4
  else if lifeOf d < 4000 ∨ modSpares d ≠ 0 then 3
  else 2

/-- A module enters a state; Watch, Replace and Failed are recorded and raise the module's interrupt (R405). -/
def State.enterState (s : State) (m old new : Nat) : State :=
  if new ≠ old ∧ (new = 3 ∨ new = 4 ∨ new = 6) then s.event 0x0A 1 m none new old else s

/-- A module whose checks fail (R402, R405): it is dark and unsupported, which a record reports (log entry 95). -/
def State.unsupported (s : State) (m : Nat) : State :=
  let x := s.module m
  ((s.setModule m { x.dark with st := 1, removing := false }).event 0x0A 1 m none 1 x.st)

/-- A lit module as its data show it: its state only worsens until it is darkened or removed (R405). -/
def State.judge (s : State) (m : Nat) (d : ModuleData) : State :=
  let x := s.module m
  let used := s.usedOutputs m
  let c := max x.st (conditionOf { d with lit := d.lit &&& used } used)
  let y : Module := { x with data := some { d with lit := d.lit &&& used }, lit := d.lit &&& used, st := c }
  let z : Module := if c = 6 then { y with en := false, cmisOff := true, lit := 0 } else y
  ((s.setModule m z).enterState m x.st c).lightChanged

/-- A module lit at full power after a probe that found every lane continuous, where its checks still hold (R402, R408). -/
def State.light (s : State) (m : Nat) (d : ModuleData) : State :=
  let x := s.module m
  if modSound d then
    (s.setModule m { x with st := 2, en := true, cmisOff := false, probing := false, removing := false }).judge m { d with lit := 0x3F }
  else s.unsupported m

/-- The identity of a seated module is read and, where its checks pass, the probe run (R2, R402, R405, R408-R410). -/
def State.readModule (s : State) (m : Nat) (d : ModuleData) (probeOk : Bool) : State :=
  let y : Module := { s.module m with pres := true, data := some d, arrived := none }
  let s1 := s.setModule m y
  if y.fault then (s1.setModule m { y with st := 6 }).enterState m 0 6
  else if modSound d = false then s1.unsupported m
  else if probeOk then s1.light m d
  else (s1.setModule m { y with st := 5 }).event 0x0A 3 m none 5 0

/-- Firmware reads the modules' identities: from Dawn step 6 on, and on a device whose Dawn the Twilight flag stops (R394, R402, R513). -/
def State.readsModules (s : State) : Bool := decide (5 ≤ s.dawn.step ∨ (s.dawn.step = 4 ∧ 3 ≤ s.health.st))

/-- The modules seated before Dawn step 6 are read in it (R402, R411, R513). -/
def State.readModules (s : State) : State :=
  (List.range 6).foldl (fun t m =>
    match (t.module m).arrived with
    | some (d, ok) => t.readModule m d ok
    | none => t) s

/-- MODULE_PRESENCE (R2, R402, R405, R408-R411): DL_PRES_N asserted: the identity is read at once, or at Dawn step 6 where that is still to
come. -/
def execModulePresence (mm : ModuleNo) (d : ModuleData) (probeOk : Bool) (s : State) : Host.Outcome State Fault Refusal :=
  let m := mm.val
  let x := s.module m
  if s.alive = false ∨ x.st ≠ 0 ∨ x.pres = true then .next s
  else if s.readsModules || x.fault then .next (s.readModule m d probeOk)
  else .next (s.setModule m { x with pres := true, arrived := some (d, probeOk) })

/-- A module's history goes to flash: serial number, hours, and for the bias summary its present bias currents (R403, log entry 99). -/
def State.saveHistory (s : State) (m : Nat) : State :=
  match (s.module m).data with
  | none => s
  | some d => (s.updModule m (fun x => { x with saved := some (modSerial d, modHours d, modBiasNow d) })).flashWrite .history

/-- MODULE_REMOVAL (R405, R410): DL_PRES_N deasserted; a lit module that is removed is first an open fibre on all its lanes. -/
def execModuleRemoval (mm : ModuleNo) (s : State) : Host.Outcome State Fault Refusal :=
  let m := mm.val
  let x := s.module m
  if s.alive = false ∨ x.pres = false then .next s
  else
    let s1 := if x.en then (s.setModule m { x.dark with openFib := bump32 x.openFib }).event 0x0A 3 m none 5 x.st else s
    let y := (s1.saveHistory m).module m
    .next ((s1.saveHistory m).setModule m
      { openFib := y.openFib, pathFail := y.pathFail, saved := y.saved }).lightChanged

/-- The CMIS flags that a record of R409 carries: WORD4 to WORD8, WORD4 first (R501). -/
def flagWords (flags : List (BitVec 32)) : BitVec 160 :=
  BitVec.ofNat 160 ((flags.take 5).foldr (fun w n => w.toNat + 4294967296 * n) 0)

/-- MODULE_FAULT (R405, R409): ELS_FAULT_N asserted: ELS_EN_N is deasserted at once and the module is Failed; its flags are read
and recorded. -/
def execModuleFault (mm : ModuleNo) (flags : List (BitVec 32)) (s : State) : Host.Outcome State Fault Refusal :=
  let m := mm.val
  let x := s.module m
  if s.alive = false then .next s
  else
    let y : Module := { x with
      fault := true, en := false, lit := 0, probing := false, st := if x.pres then 6 else x.st
      data := match x.arrived with | some a => some a.1 | none => x.data
      arrived := none }
    let s1 := ((s.setModule m y).event 0x0A 4 m none y.st x.st (flagWords flags)).enterState m x.st y.st
    .next s1.lightChanged

/-- OPEN_FIBRE (R407, R408): both paths darken the module that feeds the lane. -/
def execOpenFibre (lane : Fin 36) (s : State) : Host.Outcome State Fault Refusal :=
  let m := laneModule lane.val
  let x := s.module m
  if s.alive = false ∨ x.en = false then .next s
  else
    let y : Module := { x.dark with openFib := bump32 x.openFib }
    .next (((s.setModule m y).event 0x0A 3 m none y.st x.st).lightChanged).advanceRemovals

/-- DARKNESS_CHECK (R405, R407): after a path has acted. Where the lanes are not dark 1 ms later, the other acts too and the module is Failed.
AFTER of the record names the path that failed: 0 hardware, 1 command (log entry 31). -/
def execDarknessCheck (mm : ModuleNo) (dark hardware : Bool) (s : State) : Host.Outcome State Fault Refusal :=
  let m := mm.val
  let x := s.module m
  if s.alive = false ∨ dark = true ∨ x.pres = false ∨ (x.en = true ∧ x.cmisOff = false) then .next s
  else
    let y : Module := { x with st := 6, en := false, cmisOff := true, lit := 0, probing := false, pathFail := bump32 x.pathFail }
    .next (((s.setModule m y).event 0x0A 2 m none (if hardware then 0 else 1) x.st).enterState m x.st 6).lightChanged

/-- MODULE_MONITOR_POLL (R402, R404-R406): once per second. -/
def execModuleMonitorPoll (mm : ModuleNo) (d : ModuleData) (s : State) : Host.Outcome State Fault Refusal :=
  let m := mm.val
  let x := s.module m
  if s.alive = false ∨ x.pres = false ∨ x.arrived.isSome = true then .next s
  else if 2 ≤ x.st ∧ x.st ≤ 4 then .next (s.judge m d)
  else .next (s.setModule m { x with data := some d })

/-- DAYLIGHT_HISTORY_SAVE (R403): every 24 h. -/
def execDaylightHistorySave (s : State) : Host.Outcome State Fault Refusal :=
  if s.alive then .next ((List.range 6).foldl (fun t m => t.saveHistory m) s) else .next s

/-! ## Removal and relight (R408, R410) -/

/-- A write of 1 to 0x50mm/0x0B (R410 step 1): the links fed by the module narrow in the next dusk, and those that were to widen stay
narrow; the rest follows as they have. The machine and the item status. -/
def State.requestRemoval (s : State) (m value : Nat) : State × BitVec 8 :=
  let x := s.module m
  if value ≠ 1 then (s, 0x05)
  else if x.st < 2 ∨ 4 < x.st then (s, 0x06)
  else
    let s1 := s.setModule m { x with removing := true }
    ((moduleLinks m).foldl (fun t l =>
      let e := t.link l
      if e.st = .active then t.setLink l { e with width := if e.lanes = 4 then some false else none } else t) s1 |>.advanceRemoval m, 0)

/-- A write of 1 to 0x50mm/0x0C (R402, R408): an Off module lights at probe power, where its checks hold. -/
def State.relight (s : State) (m value : Nat) : State × BitVec 8 :=
  let x := s.module m
  if value ≠ 1 then (s, 0x05)
  else if x.st ≠ 5 ∨ x.probing = true then (s, 0x06)
  else if (x.data.any modSound) = false then (s.unsupported m, 0)
  else (s.setModule m { x with probing := true, en := true, cmisOff := false }, 0)

/-- RELIGHT_PROBE_END (R408): every lane continuous: full power; any lane open: Off again, and a record. -/
def execRelightProbeEnd (mm : ModuleNo) (openLanes : BitVec 6) (s : State) : Host.Outcome State Fault Refusal :=
  let m := mm.val
  let x := s.module m
  if s.alive = false ∨ x.probing = false then .next s
  else
    match x.data, decide (openLanes = 0) with
    | some d, true => .next (s.light m d)
    | _, _ => .next ((s.setModule m x.dark).event 0x0A 3 m none 5 5)

end Sys2Proof.Machine
end

