-- ==== Sys2Proof/Machine/PowerThermal.lean ====
section
/-! DEFINITION. Power, thermal and clocks: rails, power failure, current limit, sensors, trips, throttling votes, references
(R413-R442). -/

namespace Sys2Proof.Machine

/-! ## Events and the power-fail sequence (R417-R419) -/

/-- A record of the power and thermal kind: WORD4 holds the capture latch (R501). -/
def State.powerEvent (s : State) (code object after before : Nat) : State :=
  s.event 0x09 code object none after before (s.mgmt.adc.latch.setWidth 160)

/-- An event whose record holds what an urgent conversion captures (R459, R501): the safety monitor is to request it. -/
def State.captureEvent (s : State) (channel code object after before : Nat) : State :=
  (s.raise 0x09 object).updMgmt (fun m => { m with
    adc := { m.adc with due := m.adc.due ++ [(BitVec.ofNat 6 channel, false, code, object, after, before)] } })

/-- The device is in Twilight, before Dark (R389, R395). -/
def State.inTwilight (s : State) : Bool := decide (s.health.st = 1 ∨ s.health.st = 2)

/-- PWRFAIL_N latches (R418): counted in flash, source 54; in Twilight the flag is written first (R395); the recorder flushes. A
latched failure is undone only by a reset (R419). -/
def State.powerFail (s : State) (object : Nat) : State :=
  if s.power.failed then s
  else
    let n := s.power.sequences
    let s1 := s.updPower (fun p => { p with failed := true, failFrame := some s.fu.frame, sequences := bump32 n })
    let s2 := (s1.powerEvent 2 object (bump32 n) n).assertSrc 54
    let s3 := if s.inTwilight then (s2.updHealth (fun h => { h with flag := true })).flashWrite .flag else s2
    (s3.flashWrite .counts).startFlush

/-- UNDER_VOLTAGE (R417, R459, R506): counted, captured, and as an assertion of PWRFAIL_N, with a flush where one has latched already;
ignored while RESET_N is asserted. -/
def execUnderVoltage (rail : Fin 10) (s : State) : Host.Outcome State Fault Refusal :=
  if s.power.rails = false ∨ s.power.resetPin = true then .next s
  else
    let n := SMap.get s.power.underV 0 rail.val
    let s1 := s.updPower (fun p => { p with underV := SMap.set p.underV 0 rail.val (bump32 n) })
    let s2 := (s1.captureEvent rail.val 1 rail.val (bump32 n) n).assertSrc 55
    .next (if s2.power.failed then s2.startFlush else s2.powerFail rail.val)

/-- POWER_FAIL_LATCH (R418). The record names rail 0 where the pin itself latched (log entry 35). -/
def execPowerFailLatch (s : State) : Host.Outcome State Fault Refusal :=
  if s.power.rails = false ∨ s.power.resetPin = true then .next s else .next (s.powerFail 0)

/-- POWER_FAIL_SILENCE (R418): 16 frames after the latch, the die goes fail-silent and every ELS_EN_N is deasserted. Frames are not
counted before Dawn step 6. -/
def execPowerFailSilence (s : State) : Host.Outcome State Fault Refusal :=
  match s.power.failFrame with
  | none => .next s
  | some f => if s.fu.frame < f + 16 ∧ 6 ≤ s.dawn.step then .next s else .next s.failSilent.darkenAll

/-! ## Level 1 (R420, R428) -/

/-- A temperature in 1/16 degree C as a real value. -/
def tempVal (t : Int) : FVal := .fin (decide (t < 0)) t.natAbs (-4)

/-- A threshold raised by whole degrees. -/
def threshVal (w : W32) (off : Int) : FVal := fvAdd (f32Val w) (.fin (decide (off < 0)) off.natAbs 0)

/-- Every threshold is lowered by 4 degree C while the sensor table is invalid (R437). -/
def Power.lowered (p : Power) : Int := if p.tables.getLsbD 2 then 0 else -4

/-- The pause cycles that level 1 and the current limit request (R420, R428): 8 for each degree above 91, rounded down; the
current limit takes the whole allowance, 544 in the longest frame. PAUSE_INSERTION caps them at the frame's allowance. -/
def Power.pauses (p : Power) : Nat :=
  if p.curLimit then 544
  else match p.tdie with
    | none => 0
    | some t => if fvLt (tempVal t) (threshVal p.l1 p.lowered) then 0 else ((t - 1456) / 2).toNat

/-- The request after a change of what it depends on. -/
def State.setRequest (s : State) : State := (s.updPower (fun p => { p with request := p.pauses })).castVote

/-- CURRENT_LIMIT_ENTRY (R420, R459). -/
def execCurrentLimitEntry (s : State) : Host.Outcome State Fault Refusal :=
  if s.power.rails = false ∨ s.power.resetPin = true ∨ s.power.curLimit = true then .next s
  else .next ((((s.updPower (fun p => { p with curLimit := true })).captureEvent 10 3 5 1 0).assertSrc 56).setRequest)

/-- CURRENT_LIMIT_EXIT (R420). -/
def execCurrentLimitExit (s : State) : Host.Outcome State Fault Refusal :=
  if s.power.curLimit = false then .next s
  else .next (s.updPower (fun p => { p with curLimit := false })).setRequest

/-! ## Package power (R421, R429) -/

/-- The power fits the limit at a frame length: P x 1,024 / L does not exceed it. P is in milliwatts. -/
def powerFits (mw : Nat) (limit : W32) (cycles : Nat) : Bool :=
  !fvLt (fvMul (f32Val limit) (.fin false (1000 * cycles) 0)) (.fin false (1024 * mw) 0)

/-- The power vote of a mean (R429). -/
def powerVoteOf (mw : Nat) (limit : W32) : BitVec 2 :=
  if powerFits mw limit 1024 then 0
  else if powerFits mw limit 1152 then 1
  else if powerFits mw limit 1280 then 2
  else 3

/-- POWER_MEAN (R421, R429, R431): each 10 ms. -/
def execPowerMean (milliwatts : Nat) (s : State) : Host.Outcome State Fault Refusal :=
  if s.alive = false then .next s
  else .next (s.updPower (fun p =>
    { p with power := some milliwatts, powerVote := powerVoteOf milliwatts p.limit })).castVote

/-! ## Sensors (R422-R425) -/

/-- The neighbours of a sensor on the grid of 8 by 16, diagonals too (R422). -/
def sensorNeighbours (k : Nat) : List Nat :=
  (List.range 128).filter (fun j =>
    decide (j ≠ k ∧ j / 8 ≤ k / 8 + 1 ∧ k / 8 ≤ j / 8 + 1 ∧ j % 8 ≤ k % 8 + 1 ∧ k % 8 ≤ j % 8 + 1))

/-- The greatest of a list. -/
def maxInt : List Int → Option Int
  | [] => none
  | x :: t => match maxInt t with | none => some x | some y => some (if x < y then y else x)

/-- What the cross-check makes of one sensor: reading, faulty, too hot. -/
structure SensorVerdict where
  reading : Int
  faulty  : Bool
  tooHot  : Bool
deriving DecidableEq, Repr

/-- A raw reading differs from the mean of its neighbours' by more than 8 degree C (R424); n values that sum to `sum`. -/
def offMean (v sum : Int) (n : Nat) : Bool := decide (128 * (n : Int) < ((n : Int) * v - sum).natAbs)

/-- The reading of sensor `k` (R424). `bad` are the sensors faulty by the previous sets. Neighbours that returned no conversion
have no raw value; where none is left, what stands for them is a free value (log entry 33). -/
def judgeSensor (raw : SensorSet) (bad : List Nat) (free k : Nat) : SensorVerdict :=
  let h := (sensorNeighbours k).filter (fun j => !bad.contains j)
  let vs := h.filterMap (fun j => raw.getD j none)
  let top := (maxInt vs).getD (Config.neighbourOpen false k free)
  if h.length < 2 then { reading := 1760, faulty := bad.contains k, tooHot := true }
  else
    match raw.getD k none with
    | none => { reading := top + 80, faulty := true, tooHot := false }
    | some v =>
      let off := if vs.isEmpty then offMean v (Config.neighbourOpen true k free) 1 else offMean v vs.sum vs.length
      if off || bad.contains k then { reading := top + 80, faulty := true, tooHot := false }
      else { reading := v, faulty := false, tooHot := false }

/-- The verdicts of all sensors. -/
def judgeSensors (raw : SensorSet) (bad : List Nat) (free : Nat) : List SensorVerdict :=
  (List.range 128).map (judgeSensor raw bad free)

/-- A temperature as an FP32 value. -/
def tempF32 (t : Int) : W32 := fvToF32 (tempVal t)

/-- The sensors' part of the state after a set of conversions (R424, R425, R443); thresholds written apply (R444). -/
def Power.sense (p : Power) (raw : SensorSet) (free : Nat) : Power :=
  let vs := judgeSensors raw p.faulty free
  let reads := vs.map (fun v => v.reading)
  let t := (maxInt reads).getD 0
  { p with
    readings := SMap.ofList none (reads.map some)
    raws := SMap.ofList none ((List.range 128).map (fun k => raw.getD k none))
    faulty := (List.range 128).filter (fun k => (vs.getD k ⟨0, false, false⟩).faulty)
    tooHot := (List.range 128).filter (fun k => (vs.getD k ⟨0, false, false⟩).tooHot)
    tdie := some t
    hottest := reads.findIdx (fun r => decide (r = t))
    peak := if p.peak < t then t else p.peak
    l1 := p.l1W.getD p.l1
    l1W := none
    l2 := p.l2W.getD p.l2
    l2W := none }



/-- Level-2 thresholds are raised by 6 degree C while a user calibration at point 3 runs (R442). -/
def State.level2Off (s : State) : Int :=
  s.power.lowered + (if s.dict.calPoint = 3 ∧ s.userOpen = true then 6 else 0)


/-- T_die has reached the threshold of a length code 1-3, lowered by whole degrees. -/
def State.reached2 (s : State) (len : Nat) (below : Int) : Bool :=
  match s.power.tdie with
  | none => false
  | some t => !fvLt (tempVal t) (threshVal (s.power.l2.getD (len - 1) 0) (s.level2Off - below))

/-- The longest length whose threshold T_die has reached (R429). -/
def State.thermWant (s : State) : BitVec 2 :=
  if s.reached2 3 0 then 3 else if s.reached2 2 0 then 2 else if s.reached2 1 0 then 1 else 0

/-- The arrays of a tile whose temperature moved by 0.5 degree C or more are retrimmed (R97). -/
def State.retrimMoved (s : State) : State :=
  { s with arrays := SMap.mapVals s.arrays {} (fun a x =>
      match s.tileTemp (a / 64) with
      | none => x
      | some t =>
        match x.trimTemp with
        | some u => if 8 ≤ (t - u).natAbs then x.retrim (some t) else x
        | none => if x.st = .resident then x.retrim (some t) else x) }

/-- How long T_die has stayed below the threshold of the thermal vote minus 3 degree C, in sets of conversions; `n` sets before this one
(R431). -/
def State.coolNow (s : State) (n : Option Nat) : Option Nat :=
  let v := s.power.thermVote
  if v = 0 ∨ s.power.tdie = none ∨ s.reached2 v.toNat 3 = true then none else some (match n with | some k => k + 1 | none => 0)

/-- SENSOR_CONVERSION_SET (R97, R423-R425, R428-R430, R442): each 100 us. Trims are firmware's, from Dawn step 7 on. -/
def execSensorConversionSet (raw : SensorSet) (hbm : List (Option Int)) (s : State) : Host.Outcome State Fault Refusal :=
  if s.power.rails = false ∨ s.power.resetPin = true then .next s
  else
    let p := s.power.sense raw s.free
    let fresh := p.faulty.filter (fun k => !s.power.faulty.contains k)
    let s1 : State := ((List.range 16).foldl (fun (t : State) k =>
      match hbm.getD k none with
      | some n => t.updStack k (fun x => { x with temp := BitVec.ofInt 32 n })
      | none => t) { s.freed with power := p })
    let s2 := fresh.foldl (fun t k => t.powerEvent 4 (0x100 + k) 1 0) s1
    let s3 := s2.updPower (fun q => { q with
      thermVote := longer q.thermVote s2.thermWant
      voteSets := if s2.fu.vote = 0 then 0 else q.voteSets + 1 })
    let s4 := (s3.updPower (fun q => { q with coolSets := s3.coolNow q.coolSets })).setRequest
    let s5 := s4.updPower (fun q => { q with stretch := if s4.fu.vote = 0 then q.stretch else q.stretch + 1 })
    .next (if s5.alive && decide (7 ≤ s5.dawn.step) then s5.retrimMoved else s5)

/-! ## Hard trips (R426, R442) -/

/-- HARD_TRIP (R384, R426): either circuit asserts THERMTRIP_N until VDD_HK is removed; during Dawn it stops Dawn (R442). -/
def execHardTrip (_circuitB : Bool) (s : State) : Host.Outcome State Fault Refusal :=
  if s.power.rails = false then .next s
  else
    let s1 := (s.updPower (fun p => { p with tripped := true })).failSilent.darkenAll
    .next (if s.dawn.step < 11 then s1.updDawn (fun d => { d with stopped := true }) else s1)

/-! ## Votes (R430, R431) -/

/-- VOTE_ENFORCE (R430): 50 ms of voting without a break, 500 sets of conversions (R423). -/
def execVoteEnforce (s : State) : Host.Outcome State Fault Refusal :=
  if s.power.rails = false ∨ s.fu.vote = 0 ∨ s.fu.enforced = true ∨ s.power.voteSets < 500 then .next s else .next (s.castWith true)

/-- VOTE_RELEASE (R431): T_die has stayed below the length's threshold minus 3 degree C for 100 ms, 1,000 sets of conversions (R423); a
later fall needs its own 100 ms. -/
def execVoteRelease (s : State) : Host.Outcome State Fault Refusal :=
  let v := s.power.thermVote
  if s.power.rails = false ∨ v = 0 ∨ s.power.tdie = none ∨ s.reached2 v.toNat 3 = true ∨ s.power.coolSets.getD 0 < 1000 then .next s
  else
    let s1 := s.updPower (fun p => { p with thermVote := v - 1 })
    .next (s1.updPower (fun p => { p with coolSets := s1.coolNow none })).castVote

/-! ## Clocks (R433-R436, R441) -/

/-- The PLL input that the device takes, by what it is and what is present (R433, R435): a frame master locked to FRAME_IN prefers
it; a backup that took over runs on its holdover oscillator (R331). -/
def State.pllSource (s : State) : Nat :=
  let p := s.power
  if s.fu.acting = true ∧ s.fu.master = false then 2
  else if s.fu.master = true ∧ s.fu.lockSrc = 0 ∧ p.frameIn = true then 0
  else if p.refclk then 1
  else 2

/-- A reference's presence changed: the PLL moves, and the event is recorded (R435). -/
def State.movePll (s : State) (lost : Nat) : State :=
  let n := s.pllSource
  (s.updPower (fun p => { p with pllIn := n, losses := if lost = 1 then bump32 p.losses else p.losses })).event 0x08 3
    s.dict.addr.toNat none n s.power.pllIn

/-- A reference is present. -/
def Power.has (p : Power) (r : ClockRef) : Bool := match r with | .frameIn => p.frameIn | .refclk => p.refclk

/-- A reference's presence. -/
def Power.setRef (p : Power) (r : ClockRef) (v : Bool) : Power :=
  match r with | .frameIn => { p with frameIn := v } | .refclk => { p with refclk := v }

/-- REFERENCE_LOSS (R435). -/
def execReferenceLoss (ref : ClockRef) (s : State) : Host.Outcome State Fault Refusal :=
  if s.power.rails = false ∨ s.power.resetPin = true ∨ s.power.has ref = false then .next s
  else .next ((s.updPower (fun p => p.setRef ref false)).movePll 1)

/-- REFERENCE_RETURN (R435). -/
def execReferenceReturn (ref : ClockRef) (s : State) : Host.Outcome State Fault Refusal :=
  if s.power.rails = false ∨ s.power.resetPin = true ∨ s.power.has ref = true then .next s
  else .next ((s.updPower (fun p => p.setRef ref true)).movePll 0)

/-- The correction at a temperature, in 1/100 ppb: against the offset interpolated linearly between the table's 17 temperatures
from 0 to 100 degree C (R436). -/
def holdoverCorr (valid : Bool) (t : Int) : Int :=
  if t < 0 ∨ 1600 < t then Config.holdoverOutside valid t
  else
    let i := min (t / 100).toNat 15
    let v := Config.holdoverOffset valid
    Int.neg (100 * v i + (v (i + 1) - v i) * (t - 100 * i))

/-- HOLDOVER_CORRECTION (R436, R437): firmware, every 100 ms. -/
def execHoldoverCorrection (temp16 : Int) (s : State) : Host.Outcome State Fault Refusal :=
  if s.alive = false ∨ s.dawn.step < 4 then .next s
  else .next (s.updPower (fun p =>
    { p with holdTemp := some temp16, holdCorr := holdoverCorr (p.tables.getLsbD 0) temp16 }))

/-- CROSSING_TIMEOUT (R441): counted, and as fault 0x12 of the receiving unit. No partition's operation carries it, so it aborts
every partition with a stream on the die (log entry 36). -/
def execCrossingTimeout (unit : BitVec 8) (tile : TileNo) (s : State) : Host.Outcome State Fault Refusal :=
  if s.alive = false then .next s
  else
    .next ((s.updPower (fun p => { p with crossings := bump32 p.crossings })).faultWide
      { code := 0x12, tag := 0xFE, tile := some tile, unit := unit, cycle := s.fu.cycle })

end Sys2Proof.Machine
end

