-- ==== Sys2Proof/Machine/Mgmt.lean ====
section
/-! DEFINITION. The management complex: watchdog, timer, interrupt controller, housekeeping ADC, management requests, flash
controller, entropy, attestation (R447-R470). -/

namespace Sys2Proof.Machine

/-- The complex has its clock and its supply. -/
def State.housekeeping (s : State) : Bool := s.power.rails && !s.power.resetPin

/-- Verified firmware runs: Dawn step 4 is complete (R467, R513). -/
def State.firmware (s : State) : Bool := s.alive && decide (4 ≤ s.dawn.step)

/-! ## Watchdog and timer (R450, R451) -/

/-- One byte written to the service register: 0xA5 right after 0x5A is a service (R450). -/
def Mgmt.service1 (m : Mgmt) (b : BitVec 8) : Mgmt :=
  if m.wdHalf ∧ b = 0xA5 then
    { m with wdHalf := false, wdServed := m.wdServed + 1, wdWarned := false, asserted := m.asserted.filter (fun n => decide (n ≠ 49)) }
  else { m with wdHalf := decide (b = 0x5A) }

/-- WATCHDOG_WARNING (R450): 15 ms without a service, once in a period. -/
def execWatchdogWarning (s : State) : Host.Outcome State Fault Refusal :=
  if s.housekeeping && s.mgmt.wdOn && !s.mgmt.wdFail && !s.mgmt.wdWarned then
    .next ((s.updMgmt (fun m => { m with wdWarn := bump32 m.wdWarn, wdWarned := true })).assertSrc 49)
  else .next s

/-- The watchdog's end (R384, R450): latched until a cold Dawn; the die goes fail-silent. -/
def State.watchdogEnd (s : State) : State := (s.updMgmt (fun m => { m with wdFail := true })).failSilent

/-- WATCHDOG_EXPIRY (R384, R450): 20 ms without a service, so after the warning. -/
def execWatchdogExpiry (s : State) : Host.Outcome State Fault Refusal :=
  if s.housekeeping && s.mgmt.wdOn && !s.mgmt.wdFail && s.mgmt.wdWarned then .next s.watchdogEnd else .next s

/-! ## Housekeeping ADC (R456-R460) -/

/-- The waiting sequence conversion starts: NEXT advances, wrapping from LAST to 0 (R458). -/
def Adc.start (a : Adc) : Adc :=
  { a with
    running := some (some a.next, SMap.get a.seq 0 a.next.toNat, a.settled)
    next := if a.next = a.last then 0 else a.next + 1
    waiting := false }

/-- The converter is free and no urgent conversion waits. -/
def Adc.free (a : Adc) : Bool := decide (a.running = none) && a.urgent.isEmpty

/-- Cycles from a trigger to the start of its conversion: a timer trigger starts at once (R458). -/
def Adc.wait (a : Adc) : Nat := if a.trig = 1 then a.delay.toNat else 0

/-- A waiting conversion has started if its delay lies within the cycles since its trigger (log entry 38). -/
def Adc.catchUp (a : Adc) (since : Nat) : Adc := if a.waiting ∧ a.free = true ∧ a.wait ≤ since then a.start else a

/-- A trigger (R458): one that finds a conversion still waiting is missed. -/
def Adc.trigger (a : Adc) : Adc × Bool :=
  if a.waiting then ({ a with missed := bump32 a.missed }, true)
  else ({ a with waiting := true }.catchUp 0, false)

/-- A trigger on the machine: a missed one raises source 46. -/
def State.adcTrigger (s : State) (since : Nat) (ticks : Nat) : State :=
  let r := (({ s.mgmt.adc with ticks := ticks } : Adc).catchUp since).trigger
  let s1 := s.updMgmt (fun m => { m with adc := r.1 })
  if r.2 then s1.assertSrc 46 else s1

/-- HOUSEKEEPING_TIMER (R451, R457): source 48, and a conversion where the timer triggers the ADC. A period of the timer has passed
since its latest trigger. -/
def execHousekeepingTimer (s : State) : Host.Outcome State Fault Refusal :=
  if s.housekeeping = false then .next s
  else
    let s1 := s.assertSrc 48
    .next (if s.mgmt.adc.trig = 2 then s1.adcTrigger (50 * s.mgmt.period) s.mgmt.adc.ticks else s1)

/-- ADC_TRIGGER (R457, R458): a frame tick counts on every (DIV + 1)th frame boundary. -/
def execAdcTrigger (frameTick : Bool) (since : Nat) (s : State) : Host.Outcome State Fault Refusal :=
  let a := s.mgmt.adc
  if s.housekeeping = false then .next s
  else if frameTick then
    (if a.trig = 1 ∧ a.div.toNat + 1 ≤ a.ticks then .next (s.adcTrigger since 0) else .next s)
  else if a.trig = 2 then .next (s.adcTrigger since a.ticks)
  else .next s

/-- Channels 55-62 convert to 0 (R456). -/
def adcCode (chan : BitVec 6) (code : BitVec 12) : BitVec 12 := if 55 ≤ chan ∧ chan ≤ 62 then 0 else code

/-- A conversion's result as the settling flag marks it: SETTLED was 0 at some time, or the bandgap's table is invalid (R437,
R457). -/
def State.unsettled (s : State) (atStart : Bool) : Bool :=
  !atStart || !s.mgmt.adc.settled || (decide (s.mgmt.adc.ref = 0) && !s.power.tables.getLsbD 1)

/-- What runs next on a free converter: an urgent conversion, then a waiting one whose delay is 0 (R459, R470). -/
def Adc.next1 (a : Adc) : Adc :=
  match a.urgent with
  | c :: t => { a with running := some (none, c, a.settled), urgent := t }
  | [] => a.catchUp 0

/-- The record that waited for the urgent conversion that has ended takes what it captured (R459, R501). -/
def State.captured (s : State) : State :=
  match s.mgmt.adc.due.find? (fun d => d.2.1) with
  | some d =>
    (s.updMgmt (fun m => { m with adc := { m.adc with due := m.adc.due.erase d } })).powerEvent d.2.2.1 d.2.2.2.1 d.2.2.2.2.1 d.2.2.2.2.2
  | none => s

/-- ADC_CONVERSION_END (R456-R459). Where none was seen to start, the waiting one is the one that ends (log entry 38). -/
def execAdcConversionEnd (code : BitVec 12) (s : State) : Host.Outcome State Fault Refusal :=
  let a := if s.mgmt.adc.running = none ∧ s.mgmt.adc.waiting = true then s.mgmt.adc.start else s.mgmt.adc
  match s.housekeeping, a.running with
  | true, some (none, chan, _) =>
    let b : Adc := { a with running := none, latch := adcCode chan code, urgents := bump32 a.urgents }
    .next ((s.updMgmt (fun m => { m with adc := b.next1 })).assertSrc 47).captured
  | true, some (some e, chan, st) =>
    let c := adcCode chan code
    let b : Adc := { a with
      running := none, valid := true, ovr := a.ovr || a.valid, nset := s.unsettled st, entry := e, chan := chan, code := c
      codes := SMap.set a.codes none chan.toNat (some c), overruns := if a.valid then bump32 a.overruns else a.overruns }
    let s1 := (s.updMgmt (fun m => { m with adc := b.next1 })).assertSrc 45
    let s2 := if a.valid then s1.assertSrc 46 else s1
    .next (if chan = 10 then s2.updPower (fun p => { p with peakAmp := max p.peakAmp c.toNat }) else s2)
  | _, _ => .next s

/-- The next urgent request of the safety monitor has been made: requests run in their order (R459, R470). -/
def Adc.request (a : Adc) : Option (BitVec 6 × Adc) :=
  match a.due.find? (fun d => !d.2.1) with
  | none => none
  | some d => some (d.1, { a with
      due := a.due.takeWhile (fun e => e.2.1) ++ [(d.1, true, d.2.2)] ++ (a.due.dropWhile (fun e => e.2.1)).drop 1
      urgent := a.urgent ++ [d.1] })

/-- ADC_URGENT_REQUEST (R459, R470): the safety monitor captures the rail that R417 acts on, or channel 10 for R420. -/
def execAdcUrgentRequest (channel : BitVec 6) (since : Nat) (s : State) : Host.Outcome State Fault Refusal :=
  match s.housekeeping, (s.mgmt.adc.catchUp since).request with
  | true, some (c, b) =>
    if c ≠ channel then .next s
    else .next (s.updMgmt (fun m => { m with adc := if b.running = none then b.next1 else b }))
  | _, _ => .next s

/-- ADC_REFERENCE_SETTLED (R460). -/
def execAdcReferenceSettled (s : State) : Host.Outcome State Fault Refusal :=
  if s.housekeeping = false then .next s
  else .next (s.updMgmt (fun m => { m with adc := { m.adc with settled := true } }))

/-! ## Interrupt controller (R452-R455) -/

/-- A source is eligible for a hart (R452, R453). -/
def Mgmt.eligible (m : Mgmt) (hart n : Nat) : Bool :=
  m.asserted.contains n && !m.service.any (fun x => decide (x.1 = n)) && (SMap.get m.target 0 n).getLsbD hart &&
    decide (SMap.get m.thresh 8 hart ≤ (SMap.get m.prio 0 n).toNat)

/-- The eligible source of highest PRIO, the lowest number first (R454). -/
def Mgmt.best (m : Mgmt) (hart : Nat) : Option Nat :=
  let l := m.asserted.filter (fun n => m.eligible hart n)
  let top := (l.map (fun n => (SMap.get m.prio 0 n).toNat)).foldl max 0
  l.find? (fun n => decide ((SMap.get m.prio 0 n).toNat = top))

/-- A hart runs: hart 0 always, the others once firmware has released them (R447). -/
def State.hartRuns (s : State) (hart : BitVec 2) : Bool := s.housekeeping && (decide (hart = 0) || s.mgmt.harts)

/-- A read of CLAIM (R454): the source enters service to the hart; with none, the read gives 0. -/
def State.claimRead (s : State) (hart : Nat) : State :=
  match s.mgmt.best hart with
  | some n => s.updMgmt (fun m => { m with service := m.service ++ [(n, hart)], claimed := SMap.set m.claimed 0 hart n })
  | none => s.updMgmt (fun m => { m with spurious := m.spurious + 1, claimed := SMap.set m.claimed 0 hart 0 })

/-- The cause of a source as firmware clears it in the unit before it completes (R455): the fault FIFO is read, OVR written; a
result that has not been read keeps source 45 (log entry 32). -/
def State.clearCause (s : State) (n : Nat) : State :=
  match n with
  | 1 => (s.updMgmt (fun m => { m with faultFifo := [] })).clearSrc 1
  | 45 => if s.mgmt.adc.valid then s else s.clearSrc 45
  | 46 => (s.updMgmt (fun m => { m with adc := { m.adc with ovr := false } })).clearSrc 46
  | _ => s.clearSrc n

/-- A configuration written while the source was in service takes effect (R455). -/
def Mgmt.applyCfg (m : Mgmt) (n : Nat) : Mgmt :=
  match m.cfgNew.find? (fun x => decide (x.1 = n)) with
  | none => m
  | some (_, p, t) =>
    { m with prio := SMap.set m.prio 0 n p, target := SMap.set m.target 0 n t, cfgNew := SMap.drop m.cfgNew n }

/-- A write of CLAIM (R455): completion by the hart that holds the source; any other is ignored and counted. -/
def State.claimWrite (s : State) (hart n : Nat) : State :=
  if s.mgmt.service.contains (n, hart) then
    (s.clearCause n).updMgmt (fun m =>
      ({ m with service := m.service.filter (fun x => decide (x ≠ (n, hart))) } : Mgmt).applyCfg n)
  else s.updMgmt (fun m => { m with stray := bump32 m.stray })

/-- A write of a configuration word (R453, R455): at once, or at completion for a source in service. -/
def Mgmt.setCfg (m : Mgmt) (n : Nat) (v : W32) : Mgmt :=
  let p := v.extractLsb' 0 3
  let t := v.extractLsb' 3 4
  let m1 := { m with cfgNew := (n, p, t) :: SMap.drop m.cfgNew n }
  if m.service.any (fun x => decide (x.1 = n)) then m1 else m1.applyCfg n

/-! ## Management requests (R449) -/

/-- The key of a register in the register spaces. -/
def mgmtReg (r : MgmtReq) : Nat := 4294967296 * (4 * r.destTile.toNat + r.destPort.toNat) + r.addr.toNat

/-- STATUS of a response: an address that is not 8-byte aligned names no register; the register spaces themselves the spec does not
lay out (log entry 39). -/
def regStatus (r : MgmtReq) (op free : Nat) : BitVec 2 := if r.addr.toNat % 8 ≠ 0 then 1 else Config.regStatus (mgmtReg r) op free

/-- The low-class bound of R156 for the two directions between the management complex and a tile, plus 1 us (R449). -/
def mgmtBound (tile : Nat) : Nat := 2 * (10 + 3 * hops 313 tile + 384 * (hops 313 tile + 1)) + 1600

/-- Bits [127:0] of a management request or response: DATA, ADDR, ID, OP or STATUS, reserved bits (R449). -/
def mgmtWord (data : W64) (addr : BitVec 32) (id : BitVec 8) (code : BitVec 2) (rsvd : BitVec 22) : BitVec 128 :=
  data ++ addr ++ id ++ code ++ rsvd

/-- A request travels to a unit's port and is answered there (R148, R449, R471): at most 16 are outstanding, each under its own ID. The
destination router drops one whose SRC_TILE is not 313 as a header error (R161). `op` 0 read, 1 write, 2 write and read back. -/
def State.mgmtRequest (s : State) (r : MgmtReq) (op wait : Nat) (bad : FlitBad) : State :=
  let own := decide (r.srcTile = 313)
  if own && (decide (16 ≤ s.mgmt.requests.length) || s.mgmt.requests.any (fun x => decide (x.1 = r.id))) then s
  else
    let src := r.srcTile.toNat
    let dest := r.destTile.toNat
    let k := 8 * src + Chan.vc2.num
    let m : Msg :=
      { src := src, dest := dest, port := r.destPort.toNat, tag := 0xFF, seq := SMap.get s.mesh.seqs 0 k
        time := s.now s.fu.cycle, msg := .mgmtReq (mgmtWord r.data r.addr r.id (BitVec.ofNat 2 op) r.rsvd) }
    let s1 := s.updMesh (fun x => { x with seqs := SMap.upd x.seqs 0 k (fun n => n + 1) })
    let s2 := if own then s1.updMgmt (fun x => { x with requests := x.requests ++ [(r.id, r.destTile, r.destPort, m.time,
        if op = 2 then some r.data else none)] }) else s1
    let rc := s.fu.cycle + 10 + 3 * hops src dest + wait
    let seen : FlitBad := if own then bad else { bad with header := some (bad.header.getD (hops src dest)) }
    s2.deliver m rc seen (fun s =>
      let st := regStatus r op s.free
      let held := r.stored.getD r.data
      let data := if op = 0 then SMap.get s.mgmt.regs 0 (mgmtReg r) else if op = 2 then held else r.data
      let s3 := s.freed.updMgmt (fun x =>
        { x with regs := if op ≠ 0 ∧ st = 0 then SMap.set x.regs 0 (mgmtReg r) held else x.regs })
      s3.sendMsg dest 313 1 0xFF (s.now rc) (.mgmtResp (mgmtWord data r.addr r.id st 0)))

/-- MANAGEMENT_READ (R449). -/
def execManagementRead (r : MgmtReq) (wait : Nat) (bad : FlitBad) (s : State) : Host.Outcome State Fault Refusal :=
  if s.firmware then .next (s.mgmtRequest r 0 wait bad) else .next s

/-- MANAGEMENT_WRITE (R449). -/
def execManagementWrite (r : MgmtReq) (wait : Nat) (bad : FlitBad) (s : State) : Host.Outcome State Fault Refusal :=
  if s.firmware then .next (s.mgmtRequest r 1 wait bad) else .next s

/-- MANAGEMENT_WRITE_READBACK (R365, R449). -/
def execManagementWriteReadback (r : MgmtReq) (wait : Nat) (bad : FlitBad) (s : State) : Host.Outcome State Fault Refusal :=
  if s.firmware then .next (s.mgmtRequest r 2 wait bad) else .next s

/-- The response of a request. -/
def isResponse (id : BitVec 8) (m : Msg) : Bool := match m.msg with | .mgmtResp w => decide (w.extractLsb' 24 8 = id) | _ => false

/-- A write and readback that reads back another value: firmware uses it for tag copies, so the device enters Twilight (R365, R386,
R387). -/
def State.readbackBad (s : State) (i : BitVec 8) (d : W64) (st : BitVec 2) : Bool :=
  decide (st = 0) && s.mgmt.requests.any (fun x => decide (x.1 = i) && (match x.2.2.2.2 with | some w => decide (w ≠ d) | none => false))

/-- MANAGEMENT_RESPONSE (R161, R365, R449): the response returns to the request port. -/
def execManagementResponse (id : BitVec 8) (rc : Nat) (bad : FlitBad) (s : State) : Host.Outcome State Fault Refusal :=
  match s.firmware, s.takeMsg .vc3 rc (isResponse id) with
  | true, some (m, s1) =>
    .next (s1.deliver m rc bad (fun s => match m.msg with
      | .mgmtResp w =>
        let i := w.extractLsb' 24 8
        let d := w.extractLsb' 64 64
        let st := w.extractLsb' 22 2
        if s.mgmt.requests.any (fun x => decide (x.1 = i)) then
          let s1 := s.updMgmt (fun x => { x with
            requests := x.requests.filter (fun q => decide (q.1 ≠ i)), response := some (i, w.extractLsb' 32 32, d, st) })
          if s.readbackBad i d st then s1.twilight 0x0B else s1
        else s
      | _ => s))
  | _, _ => .next s

/-- MANAGEMENT_REQUEST_TIMEOUT (R441, R449): counted, and a failure of that unit's crossing. -/
def execManagementRequestTimeout (id : BitVec 8) (rc : Nat) (s : State) : Host.Outcome State Fault Refusal :=
  match s.firmware, s.mgmt.requests.find? (fun x => decide (x.1 = id)) with
  | true, some (_, tile, port, sent, _) =>
    if s.now rc < sent + mgmtBound tile.toNat then .next s
    else
    let s1 := s.updMgmt (fun m => { m with
      requests := m.requests.filter (fun x => decide (x.1 ≠ id)), timeouts := m.timeouts + 1 })
    .next ((s1.updPower (fun p => { p with crossings := bump32 p.crossings })).faultWide
      { code := 0x12, tag := 0xFF, tile := some tile, unit := routerUnit false (4 + port.toNat), cycle := s.cycleAt rc })
  | _, _ => .next s

/-! ## The cores' view (R447, R448) -/

/-- The ranges of the physical address map (R448). -/
inductive CoreRange where
  | rom | sram | interrupts | timers | adc | mailbox | flashCtl | requests | mac | flash | stacks
deriving DecidableEq, Repr

/-- The map: range, first and last address (R448). -/
def coreMap : List (CoreRange × Nat × Nat) :=
  [(.rom, 0x0, 0x1FFFF), (.sram, 0x10000000, 0x101FFFFF), (.interrupts, 0x20000000, 0x2000FFFF), (.timers, 0x20010000, 0x200100FF),
   (.adc, 0x20020000, 0x200200FF), (.mailbox, 0x20030000, 0x20030FFF), (.flashCtl, 0x20040000, 0x20040FFF),
   (.requests, 0x20050000, 0x20050FFF), (.mac, 0x20060000, 0x2006FFFF), (.flash, 0x30000000, 0x37FFFFFF),
   (.stacks, 0x10000000000, 0x1EFFFFFFFFF)]

/-- Firmware has started: the boot ROM has unmapped itself (R448, R467). -/
def State.romGone (s : State) : Bool := decide (3 ≤ s.dawn.step)

/-- The range and offset of an access that lies within one range; none: an access fault (R448). -/
def State.coreRange (s : State) (addr n : Nat) : Option (CoreRange × Nat) :=
  match coreMap.find? (fun r => decide (r.2.1 ≤ addr ∧ addr + n ≤ r.2.2 + 1)) with
  | some (r, lo, _) => if r = .rom ∧ s.romGone = true then none else some (r, addr - lo)
  | none => none

/-- A range that cores write (R448): the boot ROM is read only, and only the flash controller writes the flash (R461). -/
def CoreRange.writable : CoreRange → Bool
  | .rom | .flash => false
  | _ => true

/-- The access fault of a core (R448). -/
def State.accessFault (s : State) (a : CoreAcc) (write : Bool) : State :=
  s.updMgmt (fun m => { m with trap := SMap.set m.trap none a.hart.toNat (some (a.addr, write)) })

/-- The check of a word of the SRAM (R447, R471): a corrected error is counted; an uncorrectable one acts as watchdog expiry does. -/
def State.sramCheck (s : State) (e : ReadErr) : State :=
  match e with
  | .none => s
  | .single _ => s.updMgmt (fun m => { m with sramCorr := m.sramCorr + 1 })
  | _ => (s.updMgmt (fun m => { m with sramUnc := bump32 m.sramUnc })).watchdogEnd

/-- ADC_CTRL (R457). -/
def Adc.ctrl (a : Adc) : W32 := a.trig ++ a.ref ++ BitVec.ofBool a.settled ++ a.last ++ a.next ++ (0 : BitVec 17)

/-- ADC_DATA (R457). -/
def Adc.data (a : Adc) : W32 :=
  BitVec.ofBool a.valid ++ BitVec.ofBool a.ovr ++ BitVec.ofBool a.nset ++ a.entry ++ a.chan ++ (0 : BitVec 6) ++ a.code

/-- Four entries of the sequence table (R457). -/
def Adc.seqWord (a : Adc) (k : Nat) : W32 :=
  let e := fun (i : Nat) => (SMap.get a.seq 0 (4 * k + i)).setWidth 8
  e 3 ++ e 2 ++ e 1 ++ e 0

/-- A 32-bit register of the interrupt controller, the timers or the ADC as a read shows it (R451, R453, R457). -/
def State.regWord (s : State) (r : CoreRange) (o : Nat) : W32 :=
  let m := s.mgmt
  let free := BitVec.ofNat 32 (Config.coreOpen o s.free)
  match r with
  | .interrupts =>
    if o < 0x800 then
      match m.cfgNew.find? (fun x => decide (x.1 = o / 4)) with
      | some (_, p, t) => (0 : BitVec 25) ++ t ++ p
      | none => (0 : BitVec 25) ++ SMap.get m.target 0 (o / 4) ++ SMap.get m.prio 0 (o / 4)
    else if o < 0x840 then
      BitVec.ofNat 32 (((List.range 32).filter (fun i => m.asserted.contains (8 * (o - 0x800) + i))).foldl (fun x i => x + 2 ^ i) 0)
    else if 0x1000 ≤ o ∧ o < 0x1400 then
      (if o % 256 = 0 then BitVec.ofNat 32 (SMap.get m.thresh 8 ((o - 0x1000) / 256))
       else if o % 256 = 4 then BitVec.ofNat 32 ((m.best ((o - 0x1000) / 256)).getD 0) else free)
    else free
  | .timers => if o = Config.timerReg.val / 4 * 4 then BitVec.ofNat 32 m.period else free
  | .adc =>
    if o = 0 then m.adc.ctrl else if o = 4 then m.adc.div ++ m.adc.delay else if o = 8 then m.adc.data
    else if 0x40 ≤ o ∧ o < 0x60 then m.adc.seqWord ((o - 0x40) / 4) else free
  | _ => free

/-- What a read of a register does (R454, R457): a read of CLAIM claims, one of ADC_DATA clears VALID. -/
def State.regTouch (s : State) (r : CoreRange) (o : Nat) : State :=
  match r with
  | .interrupts => if 0x1000 ≤ o ∧ o < 0x1400 ∧ o % 256 = 4 then s.claimRead ((o - 0x1000) / 256) else s
  | .adc => if o = 8 then (s.updMgmt (fun m => { m with adc := { m.adc with valid := false } })).clearSrc 45 else s
  | .timers => if o = Config.serviceReg.val / 4 * 4 then s.updMgmt (fun m => { m with wdHalf := false }) else s
  | _ => s

/-- A byte written to the watchdog's service register, or another access to it between the two (R450). -/
def State.serviceByte (s : State) (b : Byte) : State := if s.mgmt.wdOn then s.updMgmt (fun m => m.service1 b) else s

/-- A write of a 32-bit register (R450, R451, R453, R455, R457, R460): `v` is the register with the written bytes in place, `w` the
written bytes alone. A change of REF clears SETTLED; a write of ADC_CTRL sets NEXT; OVR clears where a 1 is written. -/
def State.regPut (s : State) (r : CoreRange) (o : Nat) (v w : W32) : State :=
  match r with
  | .interrupts =>
    if 4 ≤ o ∧ o < 0x800 then s.updMgmt (fun m => m.setCfg (o / 4) v)
    else if 0x1000 ≤ o ∧ o < 0x1400 then
      (if o % 256 = 0 then
        (if v.toNat ≤ 8 then s.updMgmt (fun m => { m with thresh := SMap.set m.thresh 8 ((o - 0x1000) / 256) v.toNat }) else s)
       else if o % 256 = 4 then s.claimWrite ((o - 0x1000) / 256) w.toNat else s)
    else s
  | .timers =>
    if o = Config.timerReg.val / 4 * 4 ∧ 1 ≤ v.toNat ∧ v.toNat ≤ 1048575 then s.updMgmt (fun m => { m with period := v.toNat }) else s
  | .adc =>
    let a := s.mgmt.adc
    let put := fun (b : Adc) => s.updMgmt (fun m => { m with adc := b })
    if o = 0 then
      put { a with trig := v.extractLsb' 30 2, ref := v.extractLsb' 28 2, last := v.extractLsb' 22 5, next := v.extractLsb' 17 5
                   settled := a.settled && decide (v.extractLsb' 28 2 = a.ref) }
    else if o = 4 then put { a with div := v.extractLsb' 16 16, delay := v.extractLsb' 0 16 }
    else if o = 8 then put { a with ovr := a.ovr && !w.getLsbD 30 }
    else if 0x40 ≤ o ∧ o < 0x60 then
      put { a with seq := (List.range 4).foldl (fun q i => SMap.set q 0 (o - 0x40 + i) (v.extractLsb' (8 * i) 6)) a.seq }
    else s
  | _ => s

/-- The 32-bit registers that an access touches. -/
def wordsOf (o n : Nat) : List Nat := (List.range ((o + n + 3) / 4 - o / 4)).map (fun k => 4 * (o / 4 + k))

/-- The bytes of a range of registers as a number. -/
def State.regBytes (s : State) (r : CoreRange) (o n : Nat) : Nat :=
  (wordsOf o n).foldr (fun w x => (s.regWord r w).toNat + 4294967296 * x) 0 / 256 ^ (o % 4) % 256 ^ n

/-- The lines of the stacks that an access touches. -/
def linesOf (o n : Nat) : List Nat := (List.range ((o + n + 127) / 128 - o / 128)).map (fun k => o / 128 + k)

/-- The lines read for a core as queue traffic of the management complex, with tag 0xFF (R161, R163, R217, R220, R242, R448): the state,
and whether the data are whole. -/
def State.coreLines (s : State) (ls : List Nat) (a : CoreAcc) : State × Bool :=
  s.fetchLines (some 313) 0xFF (s.realOf s.fu.cycle) (fun l => portFault 0x13 0xFF 313 5 s.fu.cycle (BitVec.ofNat 32 l)) ls
    (ls.map (fun l => { line := l, err := a.err, bad := a.bad }))

/-- Bytes of the stacks' data space: byte 128 l + b is byte b of line l (R448). -/
def State.stackBytes (s : State) (o n : Nat) : List Byte :=
  ((linesOf o n).flatMap (fun l => bytesOfLine (s.readMem l))).drop (o % 128) |>.take n

/-- A byte of the flash as cores read it (R448, R461, R466, R507, R510): boot descriptors, records and firmware images stand where the
layout puts them; what the spec does not lay out is a free value. -/
def State.flashAt (s : State) (o : Nat) : Byte :=
  let b := s.mgmt.boot
  if o < 16 then (bytesOfNat 16 b.copyA.toNat).getD o 0
  else if 0x1000 ≤ o ∧ o < 0x1010 then (bytesOfNat 16 b.copyB.toNat).getD (o - 0x1000) 0
  else if 0x900000 ≤ o ∧ o < 0xD00000 then
    match s.recd.flash.find? (fun r => decide (slotOf r.seq = (o - 0x900000) / 64)) with
    | some r => r.bytes.getD (o % 64) 0
    | none => if (o - 0x900000) / 64 < s.recd.next then Config.flashByte o s.free else 0xFF
  else
    let slot := if o < 0x6000000 then b.slotA else b.slotB
    match if 0x4000000 ≤ o then slot.find? (fun c => decide (c.1 = o % 0x2000000)) else none with
    | some c => c.2
    | none => Config.flashByte o s.free

/-- A read of a core: the state, and the value (R448). Poisoned data and units without a layout read as a free value. -/
def State.coreValue (s : State) (r : CoreRange) (o n : Nat) (a : CoreAcc) : State × Nat :=
  match r with
  | .rom => (s, natOfBytes ((List.range n).map (fun i => Config.romByte (o + i))))
  | .sram => (s.sramCheck a.err, natOfBytes (Cells.bytes s.mgmt.sram o n))
  | .flash => (s.freed, natOfBytes ((List.range n).map (fun i => s.flashAt (o + i))))
  | .stacks =>
    let (s1, ok) := s.coreLines (linesOf o n) a
    if ok then (s1, natOfBytes (s.stackBytes o n)) else (s1.freed, Config.coreOpen o s1.free)
  | .interrupts | .timers | .adc => ((wordsOf o n).foldl (fun t w => t.regTouch r w) s.freed, s.regBytes r o n)
  | _ => (s.freed, Config.coreOpen o s.free)

/-- A read by a core (R448): its value goes to the hart. -/
def State.coreRead (s : State) (a : CoreAcc) : State :=
  if s.hartRuns a.hart = false then s
  else
    let n := 2 ^ a.size.val
    match s.coreRange a.addr.toNat n with
    | none => s.accessFault a false
    | some (r, o) =>
      let (s1, v) := s.coreValue r o n a
      s1.updMgmt (fun m => { m with core := SMap.set m.core 0 a.hart.toNat v })

/-- The bytes of a write merged into a 32-bit register at `w`: the register, and the written bytes alone. -/
def State.merged (s : State) (r : CoreRange) (w o n data : Nat) : W32 × W32 :=
  let ours := (List.range 4).filter (fun i => decide (o ≤ w + i ∧ w + i < o + n))
  let put := fun (base : W32) => ours.foldl (fun x i =>
    (x &&& ~~~ ((0xFF : W32) <<< (8 * i))) ||| (BitVec.ofNat 32 (data / 256 ^ (w + i - o) % 256) <<< (8 * i))) base
  (put (s.regWord r w), put 0)

/-- A write by a core to a range (R448). -/
def State.corePut (s : State) (r : CoreRange) (o n data : Nat) (a : CoreAcc) : State :=
  match r with
  | .sram => s.updMgmt (fun m => { m with sram := Cells.write m.sram o (bytesOfNat n data) })
  | .stacks =>
    let ls := linesOf o n
    let (s1, ok) := s.coreLines ls a
    let old := ls.flatMap (fun l => bytesOfLine (s.readMem l))
    let new := old.take (o % 128) ++ bytesOfNat n data ++ old.drop (o % 128 + n)
    if ok then (List.range ls.length).foldl (fun t k => t.setMemLine (o / 128 + k) (lineOfBytes (new.drop (128 * k) |>.take 128))) s1
    else s1
  | .timers =>
    if n = 1 ∧ o = Config.serviceReg.val then s.serviceByte (BitVec.ofNat 8 data)
    else (wordsOf o n).foldl (fun t w => let (v, x) := t.merged r w o n data; t.regPut r w v x) s
  | .interrupts | .adc => (wordsOf o n).foldl (fun t w => let (v, x) := t.merged r w o n data; t.regPut r w v x) s
  | _ => s

/-- A write by a core (R448). -/
def State.coreWrite (s : State) (a : CoreAcc) (data : Nat) : State :=
  if s.hartRuns a.hart = false then s
  else
    let n := 2 ^ a.size.val
    match s.coreRange a.addr.toNat n with
    | none => s.accessFault a true
    | some (r, o) => if r.writable = false then s.accessFault a true else s.corePut r o n data a

/-- WATCHDOG_SERVICE (R448, R450): two writes of a core, the bytes 0x5A and 0xA5 at the service register. -/
def execWatchdogService (a1 a2 : CoreAcc) (w1 w2 : BitVec 8) (s : State) : Host.Outcome State Fault Refusal :=
  .next ((s.coreWrite a1 w1.toNat).coreWrite a2 w2.toNat)

/-- INTERRUPT_CLAIM (R448, R454): a read of a core, at the CLAIM register of its hart. -/
def execInterruptClaim (a : CoreAcc) (s : State) : Host.Outcome State Fault Refusal := .next (s.coreRead a)

/-- INTERRUPT_COMPLETION (R448, R455): a write of a core, of a source number to the CLAIM register of its hart. -/
def execInterruptCompletion (a : CoreAcc) (data : W64) (s : State) : Host.Outcome State Fault Refusal :=
  .next (s.coreWrite a (data.toNat % 256 ^ 2 ^ a.size.val))

/-- ADC_DATA_READ (R448, R457): a read of a core, at ADC_DATA. -/
def execAdcDataRead (a : CoreAcc) (s : State) : Host.Outcome State Fault Refusal := .next (s.coreRead a)

/-! ## Flash controller (R461, R462) -/

/-- Rank of a class of write, 0 first (R462). -/
def FlashCls.rank : FlashCls → Nat
  | .flag => 0 | .recorder => 1 | .counts => 2 | .repair => 3 | .staging => 4 | .corrections => 5 | .store => 6
  | .history => 7 | .slots => 8

/-- The waiting class that is served next; after a power failure only the first two classes start (R462). -/
def bestFlash (l : List FlashCls) (failed : Bool) : Option FlashCls :=
  let m := l.filter (fun c => !failed || decide (c.rank ≤ 1))
  (List.range 9).findSome? (fun k => m.find? (fun c => decide (c.rank = k)))

/-- Erases stand while a write of higher priority waits or runs, and once a power failure has latched (R462). -/
def State.suspendErases (s : State) : State :=
  let ws := s.mgmt.fqueue ++ s.mgmt.fwriting.toList
  s.updMgmt (fun m => { m with ferase := m.ferase.map (fun e =>
    (e.1, e.2.1, s.power.failed || ws.any (fun c => decide (c.rank < e.2.1.rank)))) })

/-- A write of the controller is done; the next is taken by priority (R462). -/
def State.flashNext (s : State) (done : FlashCls) : State :=
  let q := if s.mgmt.fwriting = some done then s.mgmt.fqueue else s.mgmt.fqueue.erase done
  match bestFlash q s.power.failed with
  | none => (s.updMgmt (fun m => { m with fqueue := q, fwriting := none })).suspendErases
  | some c => (s.updMgmt (fun m => { m with fqueue := q.erase c, fwriting := some c })).suspendErases

/-- The write that is in progress: the one taken, or the best that waits. -/
def State.flashNow (s : State) : Option FlashCls :=
  match s.mgmt.fwriting with
  | some c => some c
  | none => bestFlash s.mgmt.fqueue s.power.failed

/-- FLASH_WRITE_END (R452, R462): source 50. -/
def execFlashWriteEnd (s : State) : Host.Outcome State Fault Refusal :=
  match s.power.rails, s.flashNow with
  | true, some c => .next ((s.flashNext c).assertSrc 50)
  | _, _ => .next s

/-- FLASH_ERASE_END (R461, R462, R471, R509): the first erase that is not suspended ends; after a reset, erases go on once the recorder's
scan is done. -/
def execFlashEraseEnd (s : State) : Host.Outcome State Fault Refusal :=
  let s1 := s.suspendErases
  match s.power.rails && decide (1 < s.dawn.step), s1.mgmt.ferase.find? (fun e => !e.2.2) with
  | true, some e =>
    .next ((s1.updMgmt (fun m => { m with
      ferase := m.ferase.erase e, fcounts := SMap.upd m.fcounts 0 e.1 (fun n => n + 1) })).assertSrc 50)
  | _, _ => .next s

/-! ## Entropy (R464) -/

/-- The Vault's entropy tests fail: source 53, and a Security record. -/
def State.noEntropy (s : State) : State :=
  if s.mgmt.entropy then ((s.updMgmt (fun m => { m with entropy := false })).event 0x0E 1 0 none 0 1).assertSrc 53 else s

/-- ENTROPY_HEALTH_FAILURE (R464). -/
def execEntropyHealthFailure (s : State) : Host.Outcome State Fault Refusal :=
  if s.firmware then .next s.noEntropy else .next s

/-! ## Attestation (R469) -/

/-- An SPDM response leaves by the management port; a fail-silent die sends none (R384), a Dark one does (R392). -/
def State.attest (s : State) (m : SpdmMsg) : State :=
  if s.firmware then (s.updMgmt (fun x => { x with spdm := x.spdm ++ [m] })).assertSrc 34 else s

/-- GET_VERSION (R469). -/
def execGetVersion (s : State) : Host.Outcome State Fault Refusal := .next (s.attest .version)

/-- GET_CAPABILITIES (R469). -/
def execGetCapabilities (s : State) : Host.Outcome State Fault Refusal := .next (s.attest .capabilities)

/-- NEGOTIATE_ALGORITHMS (R469): an offer without the algorithms served is answered ERROR InvalidRequest (log entry 40). -/
def execNegotiateAlgorithms (ok : Bool) (s : State) : Host.Outcome State Fault Refusal :=
  .next (s.attest (if ok then .algorithms else .invalid))

/-- GET_DIGESTS (R469). -/
def execGetDigests (s : State) : Host.Outcome State Fault Refusal := .next (s.attest .digests)

/-- GET_CERTIFICATE (R469): slot 0 only. -/
def execGetCertificate (slot : BitVec 8) (offset length : BitVec 16) (s : State) : Host.Outcome State Fault Refusal :=
  .next (s.attest (if slot = 0 then .certificate offset.toNat length.toNat else .invalid))

/-- CHALLENGE (R469): answered for slot 0, the one slot served. -/
def execChallenge (slot : BitVec 8) (nonce : BitVec 256) (s : State) : Host.Outcome State Fault Refusal :=
  .next (s.attest (if slot = 0 then .challengeAuth nonce else .invalid))

/-- The measurement registers (R469): boot ROM, running image, fuses and debug lock, dictionary store at boot, the chain. -/
def Boot.measured (b : Boot) : Measured :=
  { rom := Config.romDigest, firmware := b.fwDigest, svn := b.svn, revoked := b.revoked, debugLock := Config.debugLock
    store := b.store, chain := b.chain }

/-- GET_MEASUREMENTS (R469): indices 1-5, 0 for their number and 0xFF for all (log entry 40). -/
def execGetMeasurements (index : BitVec 8) (nonce : BitVec 256) (s : State) : Host.Outcome State Fault Refusal :=
  .next (s.attest (if index ≤ 5 ∨ index = 0xFF then .measurements index.toNat nonce s.mgmt.boot.measured else .invalid))

/-- UNSUPPORTED_REQUEST (R469): ERROR UnsupportedRequest. -/
def execUnsupportedRequest (_code : BitVec 8) (s : State) : Host.Outcome State Fault Refusal := .next (s.attest .unsupported)

end Sys2Proof.Machine
end

