-- ==== Sys2Proof/Machine/Dawn.lean ====
section
/-! DEFINITION. The event recorder's commands, reset, the steps of Dawn, first use, shutdown, test access (R394, R497, R506, R509,
R513-R529, R542). -/

namespace Sys2Proof.Machine

/-! ## Recorder (R506) -/

/-- A trigger of R506 holds: a pending fault record, 384 pending records, a power failure or a fail-silent die. -/
def State.flushDue (s : State) : Bool :=
  s.recd.buffer.any (fun r => decide (r.payload.kind = 1)) || decide (384 ≤ s.recd.buffer.length) || s.power.failed ||
    s.health.silent

/-- FLUSH_START (R506). -/
def execFlushStart (s : State) : Host.Outcome State Fault Refusal :=
  if s.power.rails && s.flushDue then .next s.startFlush else .next s

/-- The end of an orderly shutdown (R528): lasers dark, transmitters stopped, as a fail-silent die's are. -/
def State.endShutdown (s : State) : State :=
  let s1 := s.darkenAll.stopAll
  { s1 with health := { s1.health with silent := true }, dawn := { s1.dawn with shutdown := 2 } }

/-- FLUSH_END (R505, R506, R528): the flash controller is free for its next write. -/
def execFlushEnd (s : State) : Host.Outcome State Fault Refusal :=
  if s.power.rails = false ∨ s.recd.flushing = none then .next s
  else
    let s1 := s.endFlush
    let s2 := if s.mgmt.fwriting = some .recorder then s1.flashNext .recorder else s1
    .next (if s2.dawn.shutdown = 1 ∧ s2.recd.flushing = none then s2.endShutdown else s2)

/-- A flush that runs to its end before what it was started for proceeds (R506). -/
def State.flushAll (s : State) : State := s.startFlush.endFlush.endFlush

/-! ## What a reset leaves (R520) -/

/-- Error records of rows: the map of the repair table alone outlives a Dawn (R127). -/
def keptRows (m : SMap RowErr) : SMap RowErr := SMap.mapVals m {} (fun _ r => { mapped := r.mapped })

/-- An array across any reset: weights, sets, repairs, counts in flash; counters since Dawn and running work are gone. An array
under programming is left with its marker set, and Dawn finds it Incomplete (R55, R57). -/
def ArrayS.reset (x : ArrayS) : ArrayS :=
  { st := if x.st = .failed then .failed else if x.st = .programming ∨ x.marker = true then .incomplete else x.st
    cells := x.cells, tally := x.tally, spare := x.spare, colMap := x.mapCols.colMap, progCount := x.progCount
    marker := x.marker, image := x.image, base := x.base, layers := x.layers, failedCols := x.failedCols
    diagnosing := x.diagnosing, cal := x.cal, corr := x.corrSaved, corrSaved := x.corrSaved, staging := x.staging
    stale := decide (x.st = .withdrawn) && !x.marker, rebuild := if x.rebuild = 2 then 2 else 0
    lastFull := x.lastFull }

/-- A tile without power. -/
def Tile.cold (t : Tile) : Tile := { spareRows := t.spareRows, rowErrs := keptRows t.rowErrs }

/-- A transit half that is to be reloaded from where its lines came from (R140, R518). -/
def Half.lost (h : Half) : Half := { tag := h.tag, wfmt := h.wfmt, origin := h.origin, doubt := !h.origin.isEmpty }

/-- A stream descriptor as its image gives it (R518). -/
def Stream.fresh (st : Stream) : Stream :=
  { tag := st.tag, base := st.base, last := st.last, cover := st.cover, normal := st.normal, table := st.table, words := st.words }

/-- A tile across a warm reset: retained blocks, what step 10 reloads halves from, and the copies of descriptors and store in
granules 5-6; every activation block is free and without power (R122, R518, R520). -/
def Tile.warm (t : Tile) : Tile :=
  { halfA := t.halfA.lost, halfB := t.halfB.lost, blocks := t.blocks.filter (fun b => b.2.retained), storeCopy := t.storeCopy,
    descCopy := t.descCopy, spareRows := t.spareRows, rowErrs := keptRows t.rowErrs }

/-- The frame unit's settings, which the dictionary store holds (R481); what is staged for the next Dawn applies in step 4. -/
def FrameU.kept (f : FrameU) : FrameU :=
  { warn := f.warn, masterNext := f.masterNext, master := f.master, lockSrc := f.lockSrc, lockNext := f.lockNext,
    honour := f.honour, returnF := f.returnF, returnIn := f.returnIn, floor := f.floor, floorNext := f.floorNext, saved := f.saved }

/-- A partition's kept values until step 10 discards them (R481, R518). -/
def Part.kept (q : Part) : Part :=
  { q.settings with
    tenant := q.tenant, widenHold := q.waitHold.getD q.widenHold, waitHold := none
    autoWiden := q.waitAuto.getD q.autoWiden, waitAuto := none, learnShare := q.waitShare.getD q.learnShare, waitShare := none }

/-- What is left of a partition that a cold Dawn does not restore: its parking key (R463). -/
def Part.vault (q : Part) : Part := { keyid := q.keyid, pkey := q.pkey, sealed := q.sealed }

/-- A port's settings (R481): those in force stay until the next link up. -/
def Port.kept (p : Port) : Port :=
  { ipv4 := p.ipv4, ipv4W := p.ipv4W, ipv6 := p.ipv6, ipv6W := p.ipv6W, vlan := p.vlan, lossless := p.lossless, ackTo := p.ackTo }

/-- A session across a reset; its key survives a warm one (R366, R520). -/
def Session.across (x : Session) (warm : Bool) : Session :=
  if x.st = .free then { x with key := none }
  else
    { st := x.st, part := x.part, tenant := x.tenant, port := x.port, portW := x.portW, rqpn := x.rqpn, rqpnW := x.rqpnW,
      raddr := x.raddr, raddrW := x.raddrW, rpsn := x.rpsn, rpsnW := x.rpsnW, a := x.a, ack := x.ack,
      key := if warm then x.key else none, rxCtr := if warm then x.rxCtr else 0, txCtr := if warm then x.txCtr else 0 }

/-- The host side across a reset: windows closed (R358, R520). -/
def HostSide.across (h : HostSide) (warm : Bool) : HostSide :=
  { ports := SMap.mapVals h.ports {} (fun _ p => p.kept), sessions := SMap.mapVals h.sessions {} (fun _ x => x.across warm),
    out := h.out, readOut := h.readOut, nakOut := h.nakOut, genDraw := h.genDraw }

/-- Health across a reset: the Twilight flag and its cause, the first-use count, the sweep number (R394, R525). A Dark device stays Dark
until it is powered off (R392). -/
def Health.across (h : Health) (warm : Bool) : Health :=
  let n := if warm then h.firstUse else h.firstSaved
  { st := if h.st = 3 then 3 else 0, flag := h.flag, cause := if h.flag then h.cause else 0,
      frame := if h.flag then h.frame else 0, clearing := h.clearing,
    firstUse := n, firstSaved := h.firstSaved, widened := decide (n < 4096), sweep := h.sweep,
    copies := if warm then 3 else 0 }

/-- A module position across a reset: its pins and its last saved history; identity and probe come at step 6 (R402). -/
def Module.across (m : Module) : Module := { fault := m.fault, saved := m.saved }

/-- Power across a reset: settings, lifetime counter, pins, supply. -/
def Power.across (p : Power) : Power :=
  { sequences := p.sequences, limit := p.limit, l1 := p.l1W.getD p.l1, l2 := p.l2W.getD p.l2, refclk := p.refclk,
    frameIn := p.frameIn, tripped := p.tripped, resetPin := p.resetPin, rails := p.rails }

/-- The management complex across a reset: boot descriptors and slots, fuses, erase counts and the erases that are still to be made (R509),
the Vault's count of draws. -/
def Mgmt.across (m : Mgmt) : Mgmt :=
  { boot := { m.boot with chain := 0, stopped := false }, fcounts := m.fcounts, ferase := m.ferase, sramUnc := m.sramUnc, draws := m.draws,
    spdm := m.spdm }

/-- The dictionary across a reset: every UOA session ends (R484), settings stay (R481). -/
def Dict.across (d : Dict) (warm : Bool) : Dict :=
  { d with
    sessions := [], hsFails := 0, hellos := [], authDrops := 0, calWritten := 0, calSkipped := 0, shortfalls := 0, calPoint := 0
    bases := if warm then d.bases else [] }

/-- The recorder across a reset: what is in flash (R509, R520). -/
def Recorder.across (r : Recorder) : Recorder := { next := r.next, flash := r.flash, oldest := r.oldest }

/-- What both kinds of reset do (R520). -/
def State.lose (s : State) (warm : Bool) : State :=
  { s with
    arrays := SMap.mapVals s.arrays {} (fun _ x => x.reset)
    mesh := {}
    links := SMap.mapVals s.links {} (fun _ e => { out := e.out })
    fu := if warm then { s.fu.kept with ovf := s.fu.ovf } else s.fu.kept
    host := s.host.across warm
    health := s.health.across warm
    mods := SMap.mapVals s.mods {} (fun _ m => m.across)
    power := s.power.across
    mgmt := s.mgmt.across
    dict := s.dict.across warm
    recd := s.recd.across
    dawn := { s.dawn with
      step := 0, stopped := false, regain := false, warm := warm, request := if warm then 1 else 2, shutdown := 0, repeats := 0 } }

/-- The kept values of an account that differ from their defaults, by subindex: those written last (R277, R481). -/
def Account.keptValues (x : Account) : List (Nat × BitVec 64) :=
  if x.unused then []
  else
    [(0x08, 0, (x.waitPin.getD x.pinned).toNat), (0x0A, 16, x.waitCap.getD x.cap), (0x0B, 0x3F800000, (x.waitTau.getD x.tau).toNat),
     (0x0C, 0, (x.waitK.getD x.topk).toNat), (0x0D, 0x3F800000, (x.waitP.getD x.topp).toNat)].filterMap (fun e =>
      if e.2.1 = e.2.2 then none else some (e.1, BitVec.ofNat 64 e.2.2))

/-- A cold reset (R520, R521): power may fall; stack contents, keys, the Ledger and every partition are lost. -/
def State.coldReset (s : State) : State :=
  let s1 := s.lose false
  { s1 with
    tiles := SMap.mapVals s.tiles {} (fun _ t => t.cold)
    spad := []
    mem := {}
    parts := SMap.mapVals s.parts {} (fun _ q => q.kept)
    dict := { s1.dict with gone := s.accts.flatMap (fun x => x.2.keptValues) }
    accts := []
    ledger := { savedLsn := s.ledger.savedLsn } }

/-- A warm reset (R520, R522): stack contents, granules, memory and session keys, the Ledger and retained blocks stay; the
partitions wait for the return frame. After a write that clears the Twilight flag the device comes back as one with no partitions
(R394). -/
def State.warmReset (s : State) : State :=
  if s.health.clearing then s.coldReset
  else
  let s := s.dropWindows
  let s1 := s.lose true
  let s2 : State := { s1 with
    tiles := SMap.mapVals s.tiles {} (fun _ t => t.warm)
    spad := s.spad.filter (fun c => (SMap.get (s.tile (c.1 / padBytes)).blocks {} ((c.1 % padBytes) / 32768)).retained)
    mem := { s.mem with stk := [], engines := [] }
    parts := SMap.mapVals s.parts {} (fun _ q =>
      { q with nextStart := none, abort := none, runs := [], halt := decide (q.st = .serving ∨ q.st = .streaming) })
    accts := SMap.mapVals s.accts {} (fun _ x => { x with minted := none })
    ledger := { s.ledger with escrow := [], sums := [], mode := 2, waited := false, busy := 0, copied := false, copyIn := [] } }
  s2

/-- RESET_ASSERTION (R520, R521, R529): RESET_N asserted starts a cold reset, in Dawn too; the recorder's buffer is flushed where R506 has it
flushed, and lost otherwise. -/
def execResetAssertion (s : State) : Host.Outcome State Fault Refusal :=
  if s.power.rails = false then .next s
  else
    let s1 := (if s.flushDue || s.recd.flushing.isSome then s.flushAll else s).coldReset
    .next { s1 with power := { s1.power with resetPin := true } }

/-- POWER_OFF (R392, R414, R416, R537, R538): VDD_HK falls: THERMTRIP_N is released, lasers are dark, the stacks and the pending
records are lost, and a Dark device leaves Dark. -/
def execPowerOff (s : State) : Host.Outcome State Fault Refusal :=
  if s.power.rails = false then .next s
  else
    let s1 := s.coldReset
    .next { s1 with
      power := { s1.power with rails := false, resetPin := true, tripped := false }
      health := { s1.health with st := 0 } }

/-! ## Dawn (R513-R519) -/

/-- A Dawn record (R514): AFTER 1 for a completed step, 2 for one that stopped (log entry 41). -/
def State.dawnRec (s : State) (step : Nat) (stop : Bool) : State :=
  s.event 0x04 1 step none (if stop then 2 else 1) 0

/-- Dawn stops in the step after the last completed one. -/
def State.stopDawn (s : State) : State := (s.updDawn (fun d => { d with stopped := true })).dawnRec (s.dawn.step + 1) true

/-- A step completes, with its record. -/
def State.stepDone (s : State) : State :=
  (s.updDawn (fun d => { d with step := d.step + 1, stopped := false })).dawnRec (s.dawn.step + 1) false

/-- DAWN_START (R497, R513, R520): RESET_N is released with the rails up, or a reset that firmware requested goes on. The power-cycle
count rises at a cold Dawn before its first record. -/
def execDawnStart (s : State) : Host.Outcome State Fault Refusal :=
  if s.dawn.step ≠ 0 then .next s
  else
    let warm := decide (s.dawn.request = 1)
    let d := s.dawn
    let h := d.hoursSaved + 4096
    .next { s with
      power := { s.power with resetPin := false, rails := true }
      dawn := { d with
        step := 1, stopped := false, warm := warm, request := 0, hours := h, hoursDawn := h,
        cycles := if warm then d.cycles else bump32 d.cycles, repeats := 0 } }

/-- Step 2 (R509, R513): the recorder scan, the PLL on REFCLK. The record of step 1 is written with it, since no record can be
written before the scan (log entry 41). -/
def State.dawn2 (s : State) (d : DawnIn) : State :=
  let h := match s.recd.flash with | r :: _ => r.seq + 1 | [] => 0
  let s1 : State := { s with
    recd := { s.recd with next := h + d.torn, torn := d.torn }
    power := { s.power with pll := true, pllIn := if s.power.refclk then 1 else 2 } }
  ((s1.event 0x0F 2 0 none d.torn 0 (BitVec.ofNat 160 d.torn)).dawnRec 1 false).stepDone

/-- A slot verifies (R467 step 3). -/
def slotGood (c : SlotCheck) (b : Boot) : Bool :=
  c.signatureOk && c.keyOk && !b.revoked.getLsbD c.key.val && c.digestOk && decide (b.svn ≤ c.svn)

/-- The first 96 bits of a descriptor (R466). -/
def Boot.body (b : Boot) : BitVec 96 := b.seq ++ b.active ++ b.trial ++ b.tries ++ (0 : BitVec 40)

/-- A descriptor written (R466): with its CRC, in place of the copy that does not govern, which then does. -/
def Boot.put (b : Boot) : Boot :=
  let w := crc32 (bytesOfNat 12 b.body.toNat) ++ b.body
  if b.second then { b with copyA := w, second := false } else { b with copyB := w, second := true }

/-- A copy of the descriptor is sound. -/
def bootSound (w : BitVec 128) : Bool := decide (w.extractLsb' 96 32 = crc32 (bytesOfNat 12 (w.extractLsb' 0 96).toNat))

/-- The copy with the valid CRC and the higher SEQ governs (R466); none where neither is valid (log entry 102). -/
def Boot.load (b : Boot) (torn : BitVec 2) : Option Boot :=
  let take := fun (second : Bool) (w : BitVec 128) =>
    some { b with
      seq := w.extractLsb' 64 32, active := w.extractLsb' 56 8, trial := w.extractLsb' 48 8, tries := w.extractLsb' 40 8,
      second := second }
  let a := bootSound b.copyA && !torn.getLsbD 0
  let c := bootSound b.copyB && !torn.getLsbD 1
  if c && (!a || decide (b.copyA.extractLsb' 64 32 < b.copyB.extractLsb' 64 32)) then take true b.copyB
  else if a then take false b.copyA
  else none

/-- The boot descriptor at boot (R466-R468): a trial boot uses up one try; one without tries left has failed. The slot chosen. -/
def Boot.choose (b : Boot) : Boot × BitVec 8 :=
  if b.trial = 1 ∧ b.tries ≠ 0 then (({ b with tries := b.tries - 1, seq := b.seq + 1 } : Boot).put, 1 - b.active)
  else ({ b with failed := decide (b.trial = 1) || b.failed }, b.active)

/-- The check of a slot. -/
def dawnSlot (d : DawnIn) (n : BitVec 8) : SlotCheck := if n = 0 then d.slotA else d.slotB

/-- The ROM hands over to a slot. -/
def Boot.run (b : Boot) (n : BitVec 8) (c : SlotCheck) (d : DawnIn) : Boot :=
  { b with running := n, fwDigest := c.digest, trialSvn := c.svn, verA := d.slotA.version, verB := d.slotB.version, stopped := false }

/-- The boot ROM stops Dawn and writes its record (R467). -/
def State.romStops (s : State) (b : Boot) : State :=
  (((s.updMgmt (fun x => { x with boot := { b with stopped := true } })).updDawn (fun x => { x with stopped := true })).event
    0x0E 2 0 none 1 0).event 0x04 2 3 none 2 0

/-- Step 3 (R427, R466, R467): trip tests, the descriptor, then the slots. -/
def State.dawn3 (s : State) (d : DawnIn) : State :=
  let s1 := s.updPower (fun p => { p with trips := d.trips })
  if d.trips ≠ 3 then
    let s2 := if d.trips.getLsbD 0 then s1 else s1.powerEvent 5 (0x100 + 67) d.trips.toNat 3
    (if d.trips.getLsbD 1 then s2 else s2.powerEvent 5 (0x100 + 60) d.trips.toNat 3).stopDawn
  else
    match s1.mgmt.boot.load d.bootTorn with
    | none => s1.romStops s1.mgmt.boot
    | some b0 =>
      let (b, n) := b0.choose
      let m := 1 - n
      if slotGood (dawnSlot d n) b then
        (s1.updMgmt (fun x => { x with boot := b.run n (dawnSlot d n) d, wdOn := true })).stepDone
      else if slotGood (dawnSlot d m) b then
        (s1.updMgmt (fun x => { x with boot := b.run m (dawnSlot d m) d, wdOn := true })).stepDone
      else s1.romStops b

/-- The settings that firmware gives the ADC, the timer and the interrupt controller (log entry 30). -/
def Mgmt.setUp (m : Mgmt) : Mgmt :=
  let (trig, ref, last, div, delay) := Config.adcSetup
  { m with
    harts := true
    period := Config.timerPeriod.val + 1
    prio := SMap.ofList 0 ((List.range 512).map (fun n => if n = 0 then 0 else Config.intPrio n))
    target := SMap.ofList 0 ((List.range 512).map (fun n => if n = 0 then 0 else Config.intTarget n))
    thresh := SMap.ofList 8 ((List.range 4).map (fun h => (Config.intThreshold h).val))
    adc := { m.adc with
      trig := trig, ref := ref, last := last, div := div, delay := delay, settled := m.adc.settled && decide (ref = m.adc.ref)
      seq := SMap.ofList 0 ((List.range 32).map Config.adcSeq) } }

/-- Step 4 (R342, R394, R437, R438, R479, R481, R513): tables, stored settings for this Dawn, the Twilight flag, entropy. A flagged
device goes no further. -/
def State.dawn4 (s : State) (d : DawnIn) : State :=
  let clear := s.health.clearing
  let flag := s.health.flag && !clear
  let cause := if flag then s.health.cause else 0
  let frame := if flag then s.health.frame else 0
  let s1 : State := { s with
    power := { s.power with tables := d.tables }
    mgmt := { s.mgmt.setUp with entropy := true, boot := { s.mgmt.boot with store := Config.storeDigest s.free } }
    free := s.free + 1
    dict := { s.dict with n := s.dict.nNext, addr := s.dict.addrNext }
    fu := { s.fu with
      master := s.fu.masterNext, lockSrc := s.fu.lockNext, floor := s.fu.floorNext, refuseRole := !d.tables.getLsbD 0 }
    health := { s.health with flag := flag, clearing := false, cause := cause, frame := frame, st := if s.health.st = 3 then 3
        else if flag then 4 else 0 } }
  let s2 := if clear then s1.flashWrite .flag else s1
  let s3 := (if d.entropyOk then s2 else s2.noEntropy).stepDone
  if flag then s3.readModules else s3

/-- A number rounded up to a multiple of 4,096 (R515). -/
def up4096 (n : Nat) : Nat := (n + 4095) / 4096 * 4096

/-- The frame master starts the frames of its cluster (R328, R515). -/
def State.startMaster (s : State) : State :=
  if s.fu.master ∧ s.fu.refuseRole = false then
    let n := up4096 (max (s.fu.saved + 1073741824) s.fu.floor.toNat)
    { s with
      fu := { s.fu with acting := true, lock := true, curMaster := s.dict.addr, frame := n }
      power := { s.power with pllIn := s.pllSource } }
  else s

/-- Step 6 begins: the seated modules are read and probed (R402, R411), then every used link trains (R323, R513); a configured master that
refuses the role stops Dawn here (R438). -/
def State.beginLinks (s : State) : State :=
  let t := s.readModules
  if t.fu.master ∧ t.fu.refuseRole = true then t.stopDawn
  else ((List.range 11).foldl (fun t l => t.startTraining l) t).startMaster

/-- Step 5 (R213, R218, R513): the stacks. Cold: the firmware key is drawn and every line is zero. -/
def State.dawn5 (s : State) (d : DawnIn) : State :=
  let s1 := (List.range 16).foldl (fun t k =>
    if d.stacksOk.getLsbD k then t.updStack k (fun x => { x with st := 1 }) else t.failStack k) s
  if s1.dawn.stopped then s1.dawnRec 5 true
  else if s1.dawn.warm then s1.stepDone.beginLinks
  else if s1.mgmt.entropy = false then s1.stopDawn
  else
    let n := s1.mgmt.draws + 1
    let s2 : State := { s1 with
      mem := { s1.mem with keys := SMap.put (SMap.drop s1.mem.keys 128) 128 n, data := [], written := [], parity := [], gkeys := [], lost := [] }
      mgmt := { s1.mgmt with draws := n } }
    s2.stepDone.beginLinks

/-- Every used link is Active or has failed, and frame lock is held (R515). -/
def State.linksReady (s : State) : Bool :=
  (s.fu.lock || s.fu.acting) &&
    (List.range 11).all (fun l => !s.linkUsed l || decide ((s.link l).st ≠ .training ∧ (s.link l).st ≠ .unused))

/-- Trims of an array at Dawn: both banks (R98, R111). -/
def ArrayS.loadTrims (x : ArrayS) (temp : Option Int) : ArrayS :=
  match temp with
  | none => x
  | some t =>
    let r := x.trimsAt t
    { x with active := r.1, shadow := none, untrim := r.2, trimTemp := some t }

/-- Every staged set of an array is written, oldest first. -/
def State.writeStaged (s : State) (a : Nat) : State := (s.array a).staging.foldl (fun t _ => t.writeRows a) s

/-- Step 7 (R55, R110, R111): staged rows are written, sets loaded at the first sensor readings, bad sets without a staging copy
queued to be rebuilt. R106 names no reason for that run: it is a priority request, DESIGN CHOICE (111). -/
def State.dawn7 (s : State) (d : DawnIn) : State :=
  let staged := (s.arrays.filter (fun x => !x.2.staging.isEmpty)).map (fun x => x.1)
  let s1 := staged.foldl (fun t a => t.writeStaged a) s
  let s2 : State := { s1 with arrays := SMap.mapVals s1.arrays {} (fun a x => x.loadTrims (s1.tileTemp (a / 64))) }
  let s3 := ((s2.arrays.filter (fun x => x.2.marker)).map (fun x => x.1)).foldl (fun t a => t.arrayEvent 4 a 4 1) s2
  ((d.setsBad.filter (fun a => !staged.contains a.toNat)).foldl (fun t a =>
    ((t.updArray a.toNat (fun x => { x with rebuild := 1 })).arrayEvent 6 a.toNat 3 0).requestCal a.toNat) s3).stepDone

/-- An array fails the cold check (R55, R516). -/
def State.failCold (s : State) (a : Nat) : State :=
  if (s.array a).st = .resident then
    (s.updArray a (fun x => { x with st := .incomplete })).arrayEvent 4 a 4 2
  else s

/-- Step 8 (R101, R516): first quality figures, and the arrays that fail. -/
def State.dawn8 (s : State) (d : DawnIn) : State :=
  let s1 := d.figures.foldl (fun t x =>
    if (t.array x.1.toNat).st = .resident then t.updArray x.1.toNat (fun y => { y with quality := x.2, stale := false }) else t) s
  let bad := d.checkFail ++ (d.figures.filter (fun x => decide (768 < x.2.toNat))).map (fun x => x.1)
  (bad.foldl (fun t a => t.failCold a.toNat) s1).stepDone

/-- The LSN after the last record, or another where there is none. -/
def nextAfter (recs : List LRecord) (other : BitVec 64) : BitVec 64 :=
  match recs.getLast? with | some r => r.lsn + 1 | none => other

/-- The Ledger as it survives a warm reset (R300 steps 2 and 5): the records that the partner has acknowledged stay, later ones are discarded
with what rested on them, the write position follows the last one kept. What lies below the checkpoint has acted on the tables, which
survive with it; the rest acts once the pair replicates again (`State.dawn9`). Running submissions resume from their accounts' last commits. -/
def State.keepOwn (s : State) (keep : List LRecord) : State :=
  let lost := s.ledger.journal.filter (fun j => !keep.any (fun r => decide (r.lsn = j.r.lsn)))
  let lines := (lost.map (fun j => recCount j.r)).sum
  let s1 := s.discardRecs (lost.map (fun j => j.r.lsn))
  let s2 := s1.updLedger (fun l =>
    let m : Ledger := { l with
      journal := l.journal.map (fun (j : JRec) => { j with acked := true }), replicated := keep.getLast?.map (fun r => r.lsn)
      jpos := (l.jpos + ringLines - lines % ringLines) % ringLines }
    { m with checkpoint := m.toApply })
  (s2.mapAccts (fun _ x => if x.home = s.dict.addr ∧ x.unused = false then x.fromCommit else x)).sealAgain

/-- The Ledger that this device recovers (R300, R302, R517): its own records up to the partner's acknowledged LSN, where none below it
fails a check; else the partner's replica; else a fresh one. -/
def State.recover (s : State) (d : DawnIn) : State :=
  let own := soundRecords s.ledger.checkpoint (s.ledger.journal.map (fun j => j.r))
  let reaches := match d.partnerAck with
    | none => true
    | some a => own.getLast?.any (fun r => decide (a ≤ r.lsn))
  let keep := own.filter (fun r => d.partnerAck.any (fun a => decide (r.lsn ≤ a)))
  let rep := soundRecords d.replicaFrom d.replica
  let after := nextAfter rep 0
  if s.dawn.warm ∧ reaches = true then s.keepOwn keep
  else if rep.isEmpty then
    let l : BitVec 64 := match s.ledger.savedLsn with | some n => n + 1 | none => 0
    ((s.mapAccts (fun _ x => if x.home = s.dict.addr then {} else x)).ownLedger [] l).event 0x0C 2 0 none 1 0
  else s.ownLedger rep (if after < s.ledger.nextLsn then s.ledger.nextLsn else after)

/-- Sessions at Dawn (R350): one with held submissions enters Error, any other becomes Free. -/
def State.dawnSessions (s : State) : State :=
  { s with host := { s.host with sessions := SMap.mapVals s.host.sessions {} (fun n x =>
      if (s.heldOf (BitVec.ofNat 12 n)).isEmpty then {} else { x with st := .error }) } }

/-- Step 9 (R297, R298, R300, R364, R438, R517): with the partner's answer the Ledger is recovered, unless nothing was lost. Where the partner covers this device,
it stays recovering until the return; otherwise the pair replicates and held work is sent again. -/
def State.dawn9 (s : State) (d : DawnIn) : State :=
  if s.dawn.regain then s.stepDone
  else
  let s1 := (s.recover d).dawnSessions
  let s2 := (s1.putReplica (soundRecords d.partnerFrom d.partnerOwn)).updLedger (fun l => { l with mode := if d.covers then 2 else 0 })
  (if d.covers then s2 else ((s2.runDurable.finishEnded false).runDurable).resendAll false).stepDone

/-- A kept value of a partition is discarded and logged (R481, R503, R518). -/
def State.discard (s : State) (p sub : Nat) (kept : Bool) (value : BitVec 64) : State :=
  if kept then s.record (.change 4 (BitVec.ofNat 16 (partIndex p)) (BitVec.ofNat 8 sub) 0 0 7 0 0 0 value) else s

/-- Every kept value of a partition that a cold Dawn does not restore (R518). -/
def State.discardPart (s : State) (p : Nat) (q : Part) : State :=
  let frame := fun (f : Option Nat) => BitVec.ofNat 64 (f.getD 0)
  let s1 := (((s.discard p 0x02 (decide (q.tenant ≠ 0)) (q.tenant.setWidth 64)).discard p 0x07 q.startF.isSome
    (frame q.startF)).discard p 0x08 q.closeF.isSome (frame q.closeF)).discard p 0x0A q.switchF.isSome (frame q.switchF)
  let s2 := ((s1.discard p 0x0D (decide (q.learnShare ≠ 4)) (q.learnShare.setWidth 64)).discard p 0x10 q.resetF.isSome 1).discard
    p 0x41 q.stRecipe.isSome (match q.stRecipe with | some r => sha384Low (bytesOfLine r.value) | none => 0)
  ((s2.discard p 0x42 (decide (q.widenHold ≠ 256)) (q.widenHold.setWidth 64)).discard p 0x43 (!q.autoWiden) 0).discard p 0x70
    (decide (q.quota ≠ 32)) (q.quota.setWidth 64)

/-- A tile at step 10 after a warm reset: descriptors and store reloaded from their copies, halves from where they were loaded
(R518). -/
def State.rebuildTile (s : State) (n : Nat) (t : Tile) : Tile :=
  { t with
    halfA := if t.halfA.doubt then s.refill n t.halfA else t.halfA
    halfB := if t.halfB.doubt then s.refill n t.halfB else t.halfB
    streams := SMap.mapVals t.descCopy {} (fun _ st => st.fresh)
    store := t.storeCopy }

/-- The activation blocks of the partitions are in the table again, powering up (R124, R518, R520). -/
def State.readdBlocks (s : State) : State :=
  s.parts.foldl (fun t q => (q.2.blocks.filter (fun b => !b.2.2)).foldl (fun u b =>
    u.updTile b.1.toNat (fun x => x.addBlock q.1 s.fu.frame b.2.1.toNat false)) t) s

/-- Step 10 (R518). -/
def State.dawn10 (s : State) : State :=
  if s.dawn.regain then s.stepDone
  else if s.dawn.warm then (s.mapTiles s.rebuildTile).readdBlocks.stepDone
  else
    let s0 := s.parts.foldl (fun t x => t.discardPart x.1 x.2) s
    let s1 := s0.dict.gone.foldl (fun t e => t.record (.change 4 0x2400 (BitVec.ofNat 8 e.1) 0 0 7 0 0 0 e.2)) s0
    let s2 : State := { s1 with
      parts := SMap.mapVals s1.parts {} (fun _ q => q.vault), dict := { s1.dict with gone := [] } }
    s2.stepDone

/-- A trial slot that reaches service is confirmed (R468). -/
def State.confirmTrial (s : State) : State :=
  let b := s.mgmt.boot
  if b.trial = 1 ∧ b.running ≠ b.active then
    (s.updMgmt (fun m => { m with boot := ({ b with
      active := b.running, trial := 0, tries := 0, seq := b.seq + 1, svn := max b.svn b.trialSvn, failed := false } : Boot).put })).event
      0x0E 3 0 none b.running.toNat b.active.toNat
  else s

/-- Step 11 (R358, R468, R519): the device is in service; the GENs of the windows are drawn. -/
def State.dawn11 (s : State) (d : DawnIn) : State :=
  let n := if s.mgmt.entropy then s.mgmt.draws + 1 else s.mgmt.draws
  let s1 : State := { s with
    dawn := { s.dawn with served := true, duration := d.ms }
    host := { s.host with windows := [], genDraw := n }
    mgmt := { s.mgmt with draws := n } }
  if s.dawn.regain then
    (s.updDawn (fun x => { x with duration := d.ms, regain := false })).stepDone
  else s1.confirmTrial.stepDone

/-- The fold partner of the master records that it refuses the backup role (R438, log entry 100). -/
def State.refusedBackup (s : State) : State :=
  if s.fu.refuseRole = true ∧ (s.link 10).role = 1 then s.event 0x04 1 6 none 3 0 else s

/-- DAWN_STEP_COMPLETE (R513-R519): the next step completes, or stops Dawn, by what it finds. -/
def execDawnStepComplete (d : DawnIn) (s : State) : Host.Outcome State Fault Refusal :=
  if s.alive = false ∨ (s.dawn.stopped = true ∧ s.dawn.step ≠ 5) ∨ 3 ≤ s.health.st ∧ 4 ≤ s.dawn.step ∨ s.power.tripped = true then .next s
  else
    match s.dawn.step with
    | 1 => .next (s.dawn2 d)
    | 2 => .next (s.dawn3 d)
    | 3 => .next (s.dawn4 d)
    | 4 => .next (s.dawn5 d)
    | 5 => if s.linksReady then .next s.refusedBackup.stepDone else .next s
    | 6 => if s.power.tdie = none then .next s else .next (s.dawn7 d)
    | 7 => .next (s.dawn8 d)
    | 8 => if d.partner then .next (s.dawn9 d) else .next s
    | 9 => .next s.dawn10
    | 10 => .next (s.dawn11 d)
    | _ => .next s

/-- FRAME_LOCK_TIMEOUT (R515): Dawn stops at step 6, and the step is repeated in full. -/
def execFrameLockTimeout (s : State) : Host.Outcome State Fault Refusal :=
  if s.alive = false ∨ s.dawn.step ≠ 5 ∨ (s.fu.lock || s.fu.acting) = true then .next s
  else
    let s1 := if s.dawn.stopped then s else s.stopDawn
    .next ((List.range 11).foldl (fun t l => t.startTraining l) (s1.updDawn (fun d => { d with repeats := d.repeats + 1 })))

/-- LEDGER_PARTNER_RETRY (R517): the request is repeated; one event is recorded. -/
def execLedgerPartnerRetry (s : State) : Host.Outcome State Fault Refusal :=
  if s.alive = false ∨ s.dawn.step ≠ 8 ∨ s.ledger.waited = true then .next s
  else .next ((s.updLedger (fun l => { l with waited := true })).event 0x0C 2 0 none 0 0)

/-! ## First use, hours, test access -/

/-- FIRST_USE_END (R525): at the first frame boundary after the count reaches 4,096. -/
def execFirstUseEnd (s : State) : Host.Outcome State Fault Refusal :=
  if 4096 ≤ s.health.firstUse ∧ s.health.widened = true then .next (s.updHealth (fun h => { h with widened := false })) else .next s

/-- HOURS_SAVE (R497, R515, R525): every 1/16 hour of operation. The model's clocks advance here (log entry 42). -/
def execHoursSave (s : State) : Host.Outcome State Fault Refusal :=
  if s.housekeeping = false ∨ s.dawn.step = 0 then .next s
  else
    let h := s.dawn.hours + 4096
    let saved := if s.framed then s.fu.frame else s.fu.saved
    let wall := if s.dict.wall = 0 then 0 else s.dict.wall + 225
    let s1 : State := { s with
      dawn := { s.dawn with hours := h, hoursSaved := h }
      fu := { s.fu with saved := saved }
      health := { s.health with firstSaved := s.health.firstUse }
      dict := { s.dict with wall := wall } }
    .next (s1.flashWrite .counts)

/-- The identification register: version, part number, JEDEC identity code and the 1 of IEEE 1149.1 (R542). -/
def idcodeWord : BitVec 32 := Config.tapVersion ++ (0x5516 : BitVec 16) ++ Config.jedec ++ (1 : BitVec 1)

/-- TAP_INSTRUCTION (R542): BYPASS and IDCODE at all times, the others only while the boot ROM has stopped Dawn. -/
def execTapInstruction (t : TapInstr) (s : State) : Host.Outcome State Fault Refusal :=
  let always := match t with | .bypass => true | .idcode => true | _ => false
  let known := match t with | .other _ => false | _ => true
  if s.power.rails = false then .next s
  else if always || (known && s.mgmt.boot.stopped) then
    let s1 := s.updMgmt (fun m => { m with tap := t, tapData := if t = .idcode then idcodeWord else 0 })
    match t with
    | .recover b => .next ((s1.updMgmt (fun m => { m with boot := { m.boot with slotA := Cells.write [] 0 b } })).flashWrite .slots)
    | _ => .next s1
  else .next (s.updMgmt (fun m => { m with tap := .bypass, tapData := 0 }))

/-! ## Store (R462, R481) -/

/-- First sector of a generation of the dictionary store, two halves of its 8 MiB (log entry 43). -/
def storeSector (gen : Nat) : Nat := 0xD00 + 1024 * gen

/-- DICTIONARY_STORE_ROLLOVER (R462, R481): the values in force go to the other generation, then the full one is erased. -/
def execDictionaryStoreRollover (s : State) : Host.Outcome State Fault Refusal :=
  if s.firmware = false ∨ s.power.failed = true then .next s
  else
    let g := s.dict.storeGen
    let s1 := (s.updDict (fun d => { d with storeGen := 1 - g, storeLen := 0 })).flashWrite .store
    .next (s1.updMgmt (fun m => { m with
      ferase := m.ferase ++ (List.range 1024).map (fun k => (storeSector g + k, FlashCls.store, false)) }))

/-! ## What firmware does on request (R521, R522, R528) -/

/-- Corrections saved and the recorder flushed before a reset that firmware was asked for (R506, R521). -/
def State.beforeReset (s : State) : State := s.saveCorr.flushAll

/-- An orderly shutdown (R528): what is kept is saved and the recorder's flush starts; the rest follows at its end. -/
def State.shutDown (s : State) : State :=
  let s1 := s.saveCorr
  let s2 : State := { s1 with
    fu := { s1.fu with saved := if s1.framed then s1.fu.frame else s1.fu.saved }
    dawn := { s1.dawn with hoursSaved := s1.dawn.hours, shutdown := 1 }
    health := { s1.health with firstSaved := s1.health.firstUse }
    ledger := { s1.ledger with savedLsn := if s1.ledger.nextLsn = 0 then s1.ledger.savedLsn else some (s1.ledger.nextLsn - 1) } }
  let s3 := (s2.flashWrite .counts).startFlush
  if s3.recd.flushing = none then s3.endShutdown else s3

end Sys2Proof.Machine
end

