-- ==== Sys2Proof/Machine/DictEntries.lean ====
section
/-! DEFINITION. The entries of the object dictionary: type, access, apply rule and write roles as the tables of the spec give them
(R473-R475, R477-R479, R495). -/

namespace Sys2Proof.Machine

/-- Types of R474. -/
inductive DType where
  | bool | u8 | u16 | u32 | u64 | i32 | f32 | str | blob
deriving DecidableEq, Repr

/-- Access of R473. -/
inductive DAccess where
  | ro | rw | wo | rws
deriving DecidableEq, Repr

/-- One entry: subindex, type, access, write roles (bit n for role code n), apply code (R479), bytes: of a scalar its width, of a
STR or BLOB its greatest length. -/
structure Entry where
  sub    : Nat
  type   : DType
  access : DAccess
  roles  : Nat
  apply  : Nat
  len    : Nat
deriving DecidableEq, Repr

/-- Type codes (R474). -/
def DType.code : DType → Nat
  | .bool => 1 | .u8 => 2 | .u16 => 3 | .u32 => 4 | .u64 => 5 | .i32 => 6 | .f32 => 7 | .str => 8 | .blob => 9

/-- Access codes of a Describe reply (R486). -/
def DAccess.code : DAccess → Nat
  | .ro => 0 | .rw => 1 | .wo => 2 | .rws => 3

/-- A scalar type. -/
def DType.scalar (t : DType) : Bool := decide (t ≠ .str ∧ t ≠ .blob)

/-- Entries of index 0x1018 (R495). -/
def entries1018 : List Entry :=
   [.mk 0x01 .str .ro 0 0 14, .mk 0x02 .str .ro 0 0 9, .mk 0x03 .u8 .ro 0 0 1, .mk 0x04 .str .ro 0 0 16,
    .mk 0x05 .str .ro 0 0 8, .mk 0x06 .blob .ro 0 0 48, .mk 0x07 .blob .ro 0 0 6]

/-- Entries of index 0x1020 (R495). -/
def entries1020 : List Entry :=
   [.mk 0x01 .u8 .ro 0 0 1, .mk 0x02 .u8 .ro 0 0 1, .mk 0x03 .u16 .ro 0 0 2, .mk 0x04 .u16 .ro 0 0 2]

/-- Entries of index 0x1100 (R495). -/
def entries1100 : List Entry :=
   [.mk 0x01 .u64 .ro 0 0 8, .mk 0x02 .u64 .ro 0 0 8, .mk 0x03 .u64 .rw 24 0 8]

/-- Entries of index 0x1101 (R495). -/
def entries1101 : List Entry :=
   [.mk 0x01 .u32 .ro 0 0 4]

/-- Entries of index 0x20pp (R495). -/
def entries2000 : List Entry :=
   [.mk 0x01 .u8 .ro 0 0 1, .mk 0x02 .u32 .rw 8 0 4, .mk 0x03 .u32 .ro 0 0 4, .mk 0x04 .u8 .ro 0 0 1, .mk 0x05 .u8 .ro 0 0 1,
    .mk 0x06 .u8 .ro 0 0 1, .mk 0x07 .u64 .rws 8 2 8, .mk 0x08 .u64 .rws 8 2 8, .mk 0x09 .u8 .ro 0 0 1,
    .mk 0x0A .u64 .rws 8 2 8, .mk 0x0B .u8 .rw 8 1 1, .mk 0x0C .u16 .ro 0 0 2, .mk 0x0D .u8 .rw 12 1 1, .mk 0x0E .u8 .ro 0 0 1,
    .mk 0x0F .u32 .ro 0 0 4, .mk 0x10 .bool .rws 12 2 1, .mk 0x40 .blob .ro 0 0 128, .mk 0x41 .blob .rws 12 2 128,
    .mk 0x42 .u32 .rw 12 1 4, .mk 0x43 .bool .rw 12 1 1, .mk 0x44 .u16 .ro 0 0 2, .mk 0x45 .u16 .ro 0 0 2,
    .mk 0x46 .u16 .rw 30 0 2, .mk 0x47 .u32 .ro 0 0 4, .mk 0x48 .u64 .ro 0 0 8, .mk 0x49 .u32 .ro 0 0 4,
    .mk 0x4A .blob .ro 0 0 128, .mk 0x50 .u64 .ro 0 0 8, .mk 0x51 .u8 .ro 0 0 1, .mk 0x52 .u32 .ro 0 0 4,
    .mk 0x53 .u32 .ro 0 0 4, .mk 0x54 .u32 .ro 0 0 4, .mk 0x55 .u64 .ro 0 0 8, .mk 0x56 .u8 .ro 0 0 1,
    .mk 0x57 .blob .ro 0 0 128, .mk 0x58 .u32 .ro 0 0 4, .mk 0x59 .blob .ro 0 0 11, .mk 0x5A .bool .ro 0 0 1,
    .mk 0x60 .u16 .ro 0 0 2, .mk 0x61 .u32 .ro 0 0 4, .mk 0x62 .u64 .ro 0 0 8, .mk 0x63 .u32 .ro 0 0 4,
    .mk 0x70 .u16 .rw 8 0 2, .mk 0x71 .u16 .ro 0 0 2, .mk 0x80 .blob .ro 0 0 97, .mk 0x81 .blob .wo 4 0 161,
    .mk 0x82 .u32 .ro 0 0 4]

/-- Entries of index 0x2400 (R495). -/
def entries2400 : List Entry :=
   [.mk 0x01 .u8 .rw 30 0 1, .mk 0x02 .u8 .ro 0 0 1, .mk 0x03 .u64 .ro 0 0 8, .mk 0x04 .u8 .ro 0 0 1, .mk 0x05 .u16 .ro 0 0 2,
    .mk 0x06 .u64 .ro 0 0 8, .mk 0x07 .u64 .ro 0 0 8, .mk 0x08 .u32 .rw 12 1 4, .mk 0x09 .u8 .ro 0 0 1,
    .mk 0x0A .u8 .rw 12 1 1, .mk 0x0B .f32 .rw 4 1 4, .mk 0x0C .u16 .rw 4 1 2, .mk 0x0D .f32 .rw 4 1 4,
    .mk 0x0E .u64 .ro 0 0 8, .mk 0x0F .u64 .ro 0 0 8, .mk 0x10 .u8 .ro 0 0 1, .mk 0x11 .u32 .ro 0 0 4, .mk 0x12 .u64 .ro 0 0 8,
    .mk 0x13 .bool .ro 0 0 1, .mk 0x14 .u32 .ro 0 0 4, .mk 0x30 .u16 .ro 0 0 2, .mk 0x31 .u32 .ro 0 0 4,
    .mk 0x32 .u32 .ro 0 0 4, .mk 0x33 .u32 .ro 0 0 4, .mk 0x34 .u64 .ro 0 0 8, .mk 0x35 .u8 .ro 0 0 1, .mk 0x36 .u32 .ro 0 0 4,
    .mk 0x37 .u32 .ro 0 0 4, .mk 0x40 .u64 .ro 0 0 8, .mk 0x41 .u16 .ro 0 0 2, .mk 0x42 .u64 .ro 0 0 8,
    .mk 0x43 .u32 .ro 0 0 4, .mk 0x44 .u32 .ro 0 0 4, .mk 0x45 .u32 .ro 0 0 4]

/-- Entries of index 0x3000 (R495). -/
def entries3000 : List Entry :=
   [.mk 0x01 .u16 .ro 0 0 2, .mk 0x02 .u16 .ro 0 0 2, .mk 0x03 .u8 .ro 0 0 1, .mk 0x04 .u8 .ro 0 0 1, .mk 0x05 .u8 .ro 0 0 1,
    .mk 0x06 .u8 .ro 0 0 1, .mk 0x07 .u16 .ro 0 0 2, .mk 0x08 .i32 .ro 0 0 4, .mk 0x09 .i32 .ro 0 0 4, .mk 0x0A .u16 .ro 0 0 2,
    .mk 0x0B .u16 .ro 0 0 2, .mk 0x0C .u16 .ro 0 0 2, .mk 0x0D .u16 .ro 0 0 2, .mk 0x0E .u16 .ro 0 0 2,
    .mk 0x0F .u32 .ro 0 0 4]

/-- Entries of index 0x3001 (R495). -/
def entries3001 : List Entry :=
   [.mk 0x01 .u16 .rw 30 0 2, .mk 0x02 .u8 .ro 0 0 1, .mk 0x03 .u8 .ro 0 0 1, .mk 0x04 .u32 .ro 0 0 4, .mk 0x05 .u32 .ro 0 0 4,
    .mk 0x06 .u64 .ro 0 0 8, .mk 0x07 .i32 .ro 0 0 4, .mk 0x10 .u16 .ro 0 0 2, .mk 0x11 .u16 .ro 0 0 2,
    .mk 0x12 .u16 .ro 0 0 2, .mk 0x13 .u16 .ro 0 0 2, .mk 0x14 .u16 .ro 0 0 2, .mk 0x15 .u16 .ro 0 0 2,
    .mk 0x16 .u16 .ro 0 0 2, .mk 0x17 .u16 .ro 0 0 2]

/-- Entries of index 0x3010 (R495). -/
def entries3010 : List Entry :=
   [.mk 0x01 .u16 .rw 30 0 2, .mk 0x02 .blob .ro 0 0 24, .mk 0x03 .u64 .ro 0 0 8, .mk 0x04 .u32 .ro 0 0 4,
    .mk 0x05 .blob .ro 0 0 16, .mk 0x06 .u8 .ro 0 0 1, .mk 0x07 .u32 .ro 0 0 4, .mk 0x08 .u32 .ro 0 0 4,
    .mk 0x09 .u32 .ro 0 0 4, .mk 0x0A .u16 .ro 0 0 2, .mk 0x0B .u16 .ro 0 0 2, .mk 0x0C .u8 .ro 0 0 1]

/-- Entries of index 0x3020 (R495). -/
def entries3020 : List Entry :=
   [.mk 0x01 .u16 .rw 30 0 2, .mk 0x02 .u64 .ro 0 0 8, .mk 0x03 .u64 .ro 0 0 8, .mk 0x04 .u32 .ro 0 0 4,
    .mk 0x05 .u32 .ro 0 0 4, .mk 0x06 .u32 .ro 0 0 4, .mk 0x07 .u32 .ro 0 0 4, .mk 0x08 .u32 .ro 0 0 4,
    .mk 0x09 .u64 .ro 0 0 8, .mk 0x0A .u32 .ro 0 0 4]

/-- Entries of index 0x3030 (R495). -/
def entries3030 : List Entry :=
   [.mk 0x01 .u8 .rw 30 0 1, .mk 0x02 .u8 .ro 0 0 1, .mk 0x03 .u64 .ro 0 0 8, .mk 0x04 .u64 .ro 0 0 8, .mk 0x05 .u32 .ro 0 0 4,
    .mk 0x06 .i32 .ro 0 0 4, .mk 0x07 .u64 .ro 0 0 8, .mk 0x08 .u64 .ro 0 0 8, .mk 0x09 .u16 .ro 0 0 2,
    .mk 0x0A .u16 .ro 0 0 2]

/-- Entries of index 0x3100 (R495). -/
def entries3100 : List Entry :=
   [.mk 0x01 .u16 .rw 30 0 2, .mk 0x02 .u8 .ro 0 0 1, .mk 0x03 .bool .wo 24 0 1, .mk 0x04 .u32 .rw 24 0 4,
    .mk 0x05 .bool .rw 16 0 1, .mk 0x06 .u8 .wo 16 0 1, .mk 0x07 .u8 .ro 0 0 1, .mk 0x08 .u16 .ro 0 0 2,
    .mk 0x09 .u16 .ro 0 0 2, .mk 0x0A .u32 .ro 0 0 4, .mk 0x0B .u32 .rw 24 0 4, .mk 0x0C .u16 .ro 0 0 2,
    .mk 0x0D .u32 .ro 0 0 4, .mk 0x0E .u8 .ro 0 0 1, .mk 0x0F .u64 .ro 0 0 8, .mk 0x10 .bool .wo 16 0 1]

/-- Entries of index 0x3200 (R495). -/
def entries3200 : List Entry :=
   [.mk 0x01 .u16 .rw 30 0 2, .mk 0x02 .u16 .ro 0 0 2, .mk 0x03 .bool .ro 0 0 1, .mk 0x04 .u16 .ro 0 0 2,
    .mk 0x05 .u16 .ro 0 0 2, .mk 0x06 .u16 .ro 0 0 2, .mk 0x07 .u16 .ro 0 0 2, .mk 0x08 .blob .ro 0 0 16,
    .mk 0x09 .u32 .ro 0 0 4, .mk 0x0A .u64 .ro 0 0 8]

/-- Entries of index 0x3300 (R495). -/
def entries3300 : List Entry :=
   [.mk 0x01 .u8 .ro 0 0 1, .mk 0x02 .u8 .ro 0 0 1, .mk 0x03 .u8 .ro 0 0 1, .mk 0x04 .u8 .ro 0 0 1, .mk 0x05 .u16 .rw 30 0 2,
    .mk 0x06 .u16 .ro 0 0 2, .mk 0x07 .u16 .ro 0 0 2, .mk 0x08 .u16 .ro 0 0 2, .mk 0x09 .u16 .ro 0 0 2,
    .mk 0x0A .f32 .ro 0 0 4, .mk 0x0B .u8 .ro 0 0 1, .mk 0x0C .u16 .ro 0 0 2, .mk 0x0D .f32 .ro 0 0 4, .mk 0x0E .u16 .ro 0 0 2,
    .mk 0x0F .bool .ro 0 0 1]

/-- Entries of index 0x3400 (R495). -/
def entries3400 : List Entry :=
   [.mk 0x01 .u16 .rw 30 0 2, .mk 0x02 .u32 .ro 0 0 4, .mk 0x03 .u32 .ro 0 0 4, .mk 0x04 .u16 .ro 0 0 2,
    .mk 0x05 .u32 .rw 24 0 4, .mk 0x06 .u16 .ro 0 0 2, .mk 0x07 .bool .rw 16 0 1]

/-- Entries of index 0x4000 (R495). -/
def entries4000 : List Entry :=
   [.mk 0x01 .u8 .rw 30 0 1, .mk 0x02 .f32 .ro 0 0 4, .mk 0x03 .f32 .ro 0 0 4, .mk 0x04 .u8 .ro 0 0 1, .mk 0x05 .f32 .ro 0 0 4,
    .mk 0x06 .u8 .ro 0 0 1, .mk 0x07 .u8 .ro 0 0 1, .mk 0x08 .u8 .ro 0 0 1, .mk 0x09 .u8 .ro 0 0 1, .mk 0x0A .f32 .ro 0 0 4,
    .mk 0x0B .f32 .ro 0 0 4]

/-- Entries of index 0x4100 (R495). -/
def entries4100 : List Entry :=
   [.mk 0x01 .u8 .ro 0 0 1, .mk 0x02 .f32 .rw 24 4 4, .mk 0x03 .blob .rw 24 4 12, .mk 0x04 .f32 .ro 0 0 4,
    .mk 0x05 .u32 .ro 0 0 4, .mk 0x06 .u32 .ro 0 0 4, .mk 0x07 .u8 .ro 0 0 1, .mk 0x08 .u64 .ro 0 0 8, .mk 0x09 .u64 .ro 0 0 8,
    .mk 0x0A .u32 .ro 0 0 4, .mk 0x0B .u64 .ro 0 0 8]

/-- Entries of index 0x4200 (R495). -/
def entries4200 : List Entry :=
   [.mk 0x01 .u8 .rw 30 0 1, .mk 0x02 .f32 .ro 0 0 4, .mk 0x03 .f32 .ro 0 0 4, .mk 0x04 .u32 .ro 0 0 4,
    .mk 0x05 .f32 .ro 0 0 4, .mk 0x06 .f32 .rw 24 0 4, .mk 0x07 .f32 .ro 0 0 4, .mk 0x08 .u32 .ro 0 0 4,
    .mk 0x09 .f32 .ro 0 0 4]

/-- Entries of index 0x4300 (R495). -/
def entries4300 : List Entry :=
   [.mk 0x01 .u8 .ro 0 0 1, .mk 0x02 .u8 .ro 0 0 1, .mk 0x03 .bool .ro 0 0 1, .mk 0x04 .bool .ro 0 0 1,
    .mk 0x05 .f32 .ro 0 0 4, .mk 0x06 .f32 .ro 0 0 4, .mk 0x07 .f32 .ro 0 0 4, .mk 0x08 .u32 .ro 0 0 4, .mk 0x09 .u8 .ro 0 0 1,
    .mk 0x0A .u32 .ro 0 0 4]

/-- Entries of index 0x50mm (R495). -/
def entries5000 : List Entry :=
   [.mk 0x01 .u8 .ro 0 0 1, .mk 0x02 .bool .ro 0 0 1, .mk 0x03 .str .ro 0 0 255, .mk 0x04 .str .ro 0 0 255,
    .mk 0x05 .u32 .ro 0 0 4, .mk 0x06 .u32 .ro 0 0 4, .mk 0x07 .u32 .ro 0 0 4, .mk 0x08 .u32 .ro 0 0 4, .mk 0x09 .u8 .ro 0 0 1,
    .mk 0x0A .blob .ro 0 0 16, .mk 0x0B .bool .wo 24 0 1, .mk 0x0C .bool .wo 24 0 1, .mk 0x0D .u32 .ro 0 0 4,
    .mk 0x0E .u32 .ro 0 0 4, .mk 0x0F .f32 .ro 0 0 4, .mk 0x10 .u8 .ro 0 0 1]

/-- Entries of index 0x6000 (R495). -/
def entries6000 : List Entry :=
   [.mk 0x01 .u8 .rw 16 3 1, .mk 0x02 .u16 .rw 16 3 2, .mk 0x03 .u64 .rw 16 4 8, .mk 0x04 .u16 .ro 0 0 2,
    .mk 0x05 .u8 .rw 30 0 1, .mk 0x06 .u8 .ro 0 0 1, .mk 0x07 .u8 .ro 0 0 1, .mk 0x08 .u8 .ro 0 0 1, .mk 0x09 .u16 .ro 0 0 2,
    .mk 0x0A .u16 .ro 0 0 2, .mk 0x0B .u32 .ro 0 0 4, .mk 0x0C .u64 .ro 0 0 8, .mk 0x0D .u32 .ro 0 0 4,
    .mk 0x0E .u32 .ro 0 0 4, .mk 0x0F .bool .wo 16 0 1, .mk 0x10 .u32 .ro 0 0 4, .mk 0x11 .u32 .ro 0 0 4,
    .mk 0x12 .u16 .ro 0 0 2]

/-- Entries of index 0x6100 (R495). -/
def entries6100 : List Entry :=
   [.mk 0x01 .u64 .ro 0 0 8, .mk 0x02 .u16 .ro 0 0 2, .mk 0x03 .u64 .ro 0 0 8, .mk 0x04 .u64 .ro 0 0 8,
    .mk 0x05 .u64 .ro 0 0 8, .mk 0x06 .u16 .ro 0 0 2, .mk 0x07 .u32 .ro 0 0 4, .mk 0x08 .u32 .ro 0 0 4,
    .mk 0x09 .u16 .rw 24 0 2, .mk 0x0A .u32 .ro 0 0 4, .mk 0x0B .u64 .ro 0 0 8, .mk 0x0C .u16 .ro 0 0 2,
    .mk 0x0D .u64 .rw 16 3 8, .mk 0x20 .bool .rw 16 3 1, .mk 0x21 .u8 .rw 16 3 1, .mk 0x22 .bool .rw 24 0 1,
    .mk 0x23 .u16 .ro 0 0 2, .mk 0x24 .u16 .ro 0 0 2, .mk 0x25 .u32 .ro 0 0 4, .mk 0x26 .u16 .ro 0 0 2,
    .mk 0x27 .bool .ro 0 0 1, .mk 0x28 .i32 .ro 0 0 4, .mk 0x29 .u64 .ro 0 0 8, .mk 0x2A .u64 .rws 8 2 8,
    .mk 0x2B .u32 .ro 0 0 4, .mk 0x2C .bool .ro 0 0 1]

/-- Entries of index 0x7000 (R495). -/
def entries7000 : List Entry :=
   [.mk 0x01 .u8 .rw 30 0 1, .mk 0x02 .u8 .ro 0 0 1, .mk 0x03 .blob .ro 0 0 6, .mk 0x04 .u32 .rw 8 4 4,
    .mk 0x05 .blob .rw 8 4 16, .mk 0x06 .u16 .rw 8 0 2, .mk 0x07 .u8 .rw 8 0 1, .mk 0x08 .u64 .ro 0 0 8,
    .mk 0x09 .u64 .ro 0 0 8, .mk 0x0A .u64 .ro 0 0 8, .mk 0x0B .u64 .ro 0 0 8, .mk 0x0C .u8 .rw 8 0 1, .mk 0x0D .u16 .ro 0 0 2,
    .mk 0x0E .u64 .ro 0 0 8, .mk 0x0F .u64 .ro 0 0 8]

/-- Entries of index 0x7100 (R495). -/
def entries7100 : List Entry :=
   [.mk 0x01 .u16 .rw 30 0 2, .mk 0x02 .u8 .ro 0 0 1, .mk 0x03 .u8 .rw 12 0 1, .mk 0x04 .bool .wo 4 0 1,
    .mk 0x05 .bool .wo 4 0 1, .mk 0x06 .bool .wo 12 0 1, .mk 0x07 .u8 .rw 12 4 1, .mk 0x08 .u32 .ro 0 0 4,
    .mk 0x09 .u32 .rw 12 4 4, .mk 0x0A .blob .rw 12 4 16, .mk 0x0B .u32 .rw 12 4 4, .mk 0x0C .u32 .ro 0 0 4,
    .mk 0x0D .bool .wo 12 0 1, .mk 0x0E .u32 .ro 0 0 4, .mk 0x0F .u32 .ro 0 0 4, .mk 0x10 .u8 .ro 0 0 1,
    .mk 0x11 .blob .ro 0 0 52, .mk 0x12 .u32 .ro 0 0 4, .mk 0x13 .u16 .ro 0 0 2]

/-- Entries of index 0x8000 (R495). -/
def entries8000 : List Entry :=
   [.mk 0x01 .u64 .ro 0 0 8, .mk 0x02 .u64 .ro 0 0 8, .mk 0x03 .u64 .ro 0 0 8, .mk 0x04 .u16 .ro 0 0 2,
    .mk 0x05 .u64 .ro 0 0 8, .mk 0x06 .u64 .ro 0 0 8, .mk 0x07 .u64 .ro 0 0 8, .mk 0x08 .u64 .ro 0 0 8,
    .mk 0x09 .u64 .ro 0 0 8, .mk 0x0A .u32 .ro 0 0 4, .mk 0x0B .u8 .ro 0 0 1, .mk 0x0C .u32 .ro 0 0 4, .mk 0x0D .u64 .ro 0 0 8,
    .mk 0x0E .u32 .ro 0 0 4]

/-- Entries of index 0x9000 (R495). -/
def entries9000 : List Entry :=
   [.mk 0x01 .u64 .ro 0 0 8, .mk 0x02 .u64 .ro 0 0 8, .mk 0x03 .u64 .ro 0 0 8, .mk 0x04 .u16 .ro 0 0 2,
    .mk 0x05 .u64 .rw 30 0 8, .mk 0x06 .blob .ro 0 0 4096, .mk 0x07 .u64 .ro 0 0 8, .mk 0x08 .u64 .ro 0 0 8,
    .mk 0x09 .bool .wo 24 0 1, .mk 0x0A .u32 .ro 0 0 4, .mk 0x0B .u32 .ro 0 0 4]

/-- Entries of index 0xF000 (R495). -/
def entriesF000 : List Entry :=
   [.mk 0x01 .u8 .ro 0 0 1, .mk 0x02 .u32 .ro 0 0 4, .mk 0x03 .u32 .ro 0 0 4, .mk 0x04 .u32 .ro 0 0 4, .mk 0x05 .u8 .ro 0 0 1,
    .mk 0x06 .blob .wo 16 0 4100, .mk 0x07 .bool .wo 16 0 1, .mk 0x08 .u32 .ro 0 0 4, .mk 0x09 .u32 .ro 0 0 4,
    .mk 0x0A .u64 .ro 0 0 8, .mk 0x0B .u32 .ro 0 0 4, .mk 0x0C .u32 .ro 0 0 4, .mk 0x0D .u32 .ro 0 0 4,
    .mk 0x0E .u32 .ro 0 0 4, .mk 0x0F .u32 .ro 0 0 4, .mk 0x10 .bool .ro 0 0 1, .mk 0x11 .u64 .ro 0 0 8,
    .mk 0x12 .u8 .wo 24 0 1, .mk 0x13 .u8 .ro 0 0 1, .mk 0x14 .u8 .ro 0 0 1, .mk 0x15 .u32 .ro 0 0 4]

/-- Entries of index 0xF010 (R495). -/
def entriesF010 : List Entry :=
   [.mk 0x01 .u8 .ro 0 0 1, .mk 0x02 .u8 .ro 0 0 1, .mk 0x03 .u64 .ro 0 0 8, .mk 0x04 .bool .ro 0 0 1,
    .mk 0x05 .bool .wo 24 0 1, .mk 0x06 .bool .wo 16 3 1, .mk 0x07 .u32 .ro 0 0 4, .mk 0x08 .u32 .ro 0 0 4,
    .mk 0x09 .blob .ro 0 0 44, .mk 0x0A .u64 .ro 0 0 8, .mk 0x0B .u32 .ro 0 0 4, .mk 0x0C .u64 .ro 0 0 8,
    .mk 0x0D .u32 .ro 0 0 4, .mk 0x0E .u8 .ro 0 0 1, .mk 0x0F .u32 .ro 0 0 4, .mk 0x10 .u32 .ro 0 0 4, .mk 0x11 .u8 .ro 0 0 1]

/-- Entries of index 0xF020 (R495). -/
def entriesF020 : List Entry :=
   [.mk 0x01 .u8 .rw 30 0 1, .mk 0x02 .u8 .rw 24 0 1, .mk 0x03 .u32 .rw 24 0 4, .mk 0x04 .blob .rw 24 0 2048,
    .mk 0x05 .blob .ro 0 0 48, .mk 0x06 .bool .wo 24 0 1, .mk 0x07 .bool .wo 24 0 1, .mk 0x08 .u8 .ro 0 0 1,
    .mk 0x09 .u32 .ro 0 0 4, .mk 0x0A .u32 .rw 24 0 4, .mk 0x0B .u64 .ro 0 0 8]

/-- The index that holds an entry's row: 0x20pp and 0x50mm each share one table. -/
def baseIndex (index : Nat) : Nat :=
  if 0x2000 ≤ index ∧ index ≤ 0x207F then 0x2000 else if 0x5000 ≤ index ∧ index ≤ 0x5005 then 0x5000 else index

/-- The entries of an index but for subindex 0; none where the device does not implement the index (R475, R495). -/
def entriesOf (index : Nat) : List Entry :=
  match baseIndex index with
  | 0x1018 => entries1018
  | 0x1020 => entries1020
  | 0x1100 => entries1100
  | 0x1101 => entries1101
  | 0x2000 => entries2000
  | 0x2400 => entries2400
  | 0x3000 => entries3000
  | 0x3001 => entries3001
  | 0x3010 => entries3010
  | 0x3020 => entries3020
  | 0x3030 => entries3030
  | 0x3100 => entries3100
  | 0x3200 => entries3200
  | 0x3300 => entries3300
  | 0x3400 => entries3400
  | 0x4000 => entries4000
  | 0x4100 => entries4100
  | 0x4200 => entries4200
  | 0x4300 => entries4300
  | 0x5000 => entries5000
  | 0x6000 => entries6000
  | 0x6100 => entries6100
  | 0x7000 => entries7000
  | 0x7100 => entries7100
  | 0x8000 => entries8000
  | 0x9000 => entries9000
  | 0xF000 => entriesF000
  | 0xF010 => entriesF010
  | 0xF020 => entriesF020
  | _ => []

/-- The entry of an index and subindex; subindex 0 of an implemented index holds the highest subindex in use (R475). -/
def findEntry (index sub : Nat) : Option Entry :=
  let l := entriesOf index
  if sub = 0 then (if l.isEmpty then none else some (.mk 0 .u8 .ro 0 0 1)) else l.find? (fun e => decide (e.sub = sub))

/-- Secret entries and entries with a secret result (R473). -/
def secretEntry (index sub : Nat) : Bool :=
  decide ((index = 0x2400 ∧ sub = 0x06) ∨ (index = 0x7100 ∧ (sub = 0x04 ∨ sub = 0x05)))

/-- A selector: every role may write it, and it is held per session (R59, R477). -/
def Entry.selector (e : Entry) : Bool := decide (e.roles = 30)

/-- An entry whose values the store keeps (R481). -/
def Entry.kept (e : Entry) : Bool := decide (e.access = .rw ∨ e.access = .rws) && !e.selector

/-- Roles that may read an entry, bit n for role code n (R477, R478). -/
def readRoles (index sub : Nat) : Nat :=
  if secretEntry index sub = true ∨ (baseIndex index = 0x2000 ∧ 0x80 ≤ sub ∧ sub ≤ 0x82) then 4
  else if index = 0x9000 ∨ index = 0xF020 then 26
  else 30

/-- The Dawn step with which an entry's unit is complete (R476, R513). The management complex runs from step 4. -/
def unitStep (index : Nat) : Nat :=
  match baseIndex index with
  | 0x2000 => 10
  | 0x2400 => 9
  | 0x3001 => 7
  | 0x3030 => 5
  | 0x3100 => 7
  | 0x3200 => 8
  | 0x3300 => 7
  | 0x5000 => 6
  | 0x6000 => 6
  | 0x6100 => 6
  | 0x7100 => 9
  | 0x8000 => 9
  | _ => 4

/-- Bytes that a value of a type takes on the wire. -/
def valueBytes (type : Nat) (v : DVal) : Nat :=
  match v with
  | .bytes b => b.length
  | .num _ =>
    match type with
    | 1 => 1 | 2 => 1 | 3 => 2 | 4 => 4 | 5 => 8 | 6 => 4 | 7 => 4 | _ => 0

/-- A value as its bytes on the wire, most significant first for a scalar (R11, R474). -/
def wireBytes (type : Nat) (v : DVal) : List Byte :=
  match v with
  | .bytes b => b
  | .num n => (bytesOfNat (valueBytes type v) n).reverse

/-- The VALUE field of a change record: the first 8 bytes of a value, as a number, or the low 64 bits of the digest of a longer one;
zero for a secret entry (R492). -/
def changeValue (index sub type : Nat) (v : DVal) : BitVec 64 :=
  let b := wireBytes type v
  if secretEntry index sub then 0
  else if b.length ≤ 8 then (match v with | .num n => BitVec.ofNat 64 n | .bytes l => BitVec.ofNat 64 (natOfBytes l))
  else sha384Low b

/-- The type of an item fits its entry, with the length the type or the entry states (R474, R486); a BLOB of variable length is at
most as long as the entry states. -/
def Entry.fits (e : Entry) (type offset : Nat) (v : DVal) (fixed : Bool) : Bool :=
  decide (type = e.type.code) &&
  (match v with
    | .num _ => e.type.scalar && decide (offset = 0)
    | .bytes b => !e.type.scalar &&
      (if fixed then decide (if offset = 0 then b.length = e.len else offset + b.length ≤ e.len)
       else decide (offset + b.length ≤ e.len)))

/-- The rules on write of a type (R474): BOOL is 0 or 1, F32 is no NaN or infinity. -/
def DType.admits (t : DType) (v : DVal) : Bool :=
  match t, v with
  | .bool, .num n => decide (n ≤ 1)
  | .f32, .num n => decide (n % 2147483648 < 0x7F800000)
  | _, _ => true

end Sys2Proof.Machine
end

