-- ==== Sys2Proof/Machine/DictRead.lean ====
section
/-! DEFINITION. What every entry of the object dictionary reads, and its pending value (R475, R476, R488, R495, R527). -/

namespace Sys2Proof.Machine

/-! ## Values -/

/-- A list of numbers as a BLOB, `n` bytes each, least significant byte first (R474). -/
def blobOf (n : Nat) (l : List Nat) : DVal := .bytes (l.flatMap (fun x => bytesOfNat n x))

/-- A truth value. -/
def boolVal (b : Bool) : DVal := .num b.toNat

/-- The no-value code of F32 (R527), or a temperature in 1/16 degree C. -/
def tempVal32 (t : Option Int) : DVal := .num (match t with | some x => (tempF32 x).toNat | none => 0x7FC00000)

/-- The quotient of two whole numbers as F32. -/
def ratioF32 (a b : Int) : DVal := .num (f32Div (f32OfInt a) (f32OfInt b)).toNat

/-- A frame-valued entry: the frame, or a default. -/
def frameVal (f : Option Nat) (default : Nat) : DVal := .num (f.getD default)

/-- All ones in 64 bits. -/
def ones64 : Nat := 18446744073709551615

/-- An ASCII string. -/
def strVal (s : String) : DVal := .bytes (s.toList.map (fun c => BitVec.ofNat 8 c.toNat))

/-- A value that the part alone knows, or for which the spec states none: a number (log entry 29). -/
def partNum (index sub sel : Nat) : Nat := Config.entryNum (256 * index + sub) sel

/-- The same as bytes. -/
def partBytes (index sub sel len : Nat) : DVal :=
  .bytes ((List.range len).map (fun k => (Config.entryBytes (256 * index + sub) sel).getD k 0))

/-- MAC address base (R496); host port p uses base + p, the management port base + 4. -/
def macBase : Nat := partNum 0x1018 0x07 0

/-- A MAC address, 6 bytes, most significant first. -/
def macVal (n : Nat) : DVal := .bytes (bytesOfNat 6 n).reverse

/-- Codes of states: arrays (R57), partitions (R246), accounts (R255), links (R342), sessions (R350). -/
def ArrayStatus.code : ArrayStatus → Nat
  | .erased => 0 | .programming => 1 | .resident => 2 | .withdrawn => 3 | .incomplete => 4 | .failed => 5

/-- Partition state codes (R246). -/
def PState.code : PState → Nat
  | .free => 0 | .loading => 1 | .serving => 2 | .streaming => 3 | .closing => 4 | .stopped => 5

/-- Account state codes (R255). -/
def AState.code : AState → Nat
  | .free => 0 | .active => 1 | .parking => 2 | .restoring => 3 | .transferring => 4

/-- Link state codes (R342). -/
def LinkSt.code : LinkSt → Nat
  | .unused => 0 | .training => 1 | .active => 2 | .failed => 3 | .incompatible => 4 | .miswired => 5

/-- Session state codes (R350). -/
def SessSt.code : SessSt → Nat
  | .free => 0 | .configured => 1 | .ready => 2 | .error => 3 | .closing => 4

/-! ## Partitions and accounts -/

/-- Words of the largest region that a partition has in any tile (R212). -/
def State.programWords (s : State) (p : Nat) : Nat :=
  s.tiles.foldl (fun m t => t.2.streams.foldl (fun k x => if x.2.tag.toNat = p then max k x.2.words else k) m) 0

/-- Chunks that a partition holds and has not mapped (R244). -/
def State.freeChunks (s : State) (p : Nat) : Nat := (s.part p).chunks.foldl (fun n r => n + r.2) 0

/-- Aborted attempts of a partition (R212): those replayed, and those of an abort whose replay has not begun. -/
def State.abortedAttempts (s : State) (p : Nat) : Nat :=
  let q := s.part p
  min (q.aborted + (match q.abort with | some a => (q.abortedRuns a.frame).length | none => 0)) 4294967295

/-- Entries 0x20pp (R90, R212, R244, R276, R370, R472, R530). `sel` is the session's layer. -/
def State.read20 (s : State) (p sub sel : Nat) : DVal :=
  let q := s.part p
  match sub with
  | 0x01 => .num q.st.code
  | 0x02 => .num q.tenant.toNat
  | 0x03 => .num q.version.toNat
  | 0x04 => .num q.base.toNat
  | 0x05 => .num q.batch.toNat
  | 0x06 => .num (s.accts.filter (fun x => decide (x.2.part.toNat = p ∧ x.2.st = .active))).length
  | 0x07 => frameVal q.startIn 0
  | 0x08 => frameVal q.closeIn ones64
  | 0x09 => .num q.companion.toNat
  | 0x0A => frameVal q.switchIn ones64
  | 0x0B => .num q.repl
  | 0x0C => .num q.programmed
  | 0x0D => .num q.learnShare.toNat
  | 0x0E => .num q.verify.toNat
  | 0x0F => .num q.vocab.toNat
  | 0x10 => boolVal q.resetIn
  | 0x40 => .bytes (bytesOfLine q.recipeNow)
  | 0x41 => .bytes (bytesOfLine q.recipeNow)
  | 0x42 => .num q.widenHold.toNat
  | 0x43 => boolVal q.autoWiden
  | 0x44 => .num q.ctrBase
  | 0x45 => .num q.layers.toNat
  | 0x46 => .num sel
  | 0x47 => .num (SMap.get s.fu.ovf 0 (q.ctrBase + sel)).toNat
  | 0x48 => .num q.ovfSteps
  | 0x49 => .num q.disagree
  | 0x4A => .bytes (bytesOfLine q.wideOnly)
  | 0x50 => .num q.step.toNat
  | 0x51 => .num q.attempt.toNat
  | 0x52 => .num q.stepFrames
  | 0x53 => .num (s.abortedAttempts p)
  | 0x54 => .num q.overruns
  | 0x55 => .num q.holds
  | 0x56 => boolVal q.cover
  | 0x57 => .bytes (bytesOfLine q.streams)
  | 0x58 => .num (s.programWords p)
  | 0x59 => blobOf 1 ((List.range 11).map (fun k => (q.delays.getD k 0).toNat))
  | 0x5A => boolVal q.stopped
  | 0x60 => .num (s.mem.granules.filter (fun g => decide (g.2.toNat = p))).length
  | 0x61 => .num (s.freeChunks p)
  | 0x62 => .num q.attends
  | 0x63 => .num q.refusals
  | 0x70 => .num q.quota.toNat
  | 0x71 => .num (s.host.sessions.filter (fun x => decide (x.2.st ≠ .free ∧ x.2.part.toNat = p))).length
  | 0x82 => .num q.keyid.toNat
  | _ => .num 0

/-- Sum of the context digests of an account's streams, modulo 2^61 - 1 (R243). -/
def State.acctDigest (s : State) (keys : List Nat) : Nat := (keys.foldl (fun n k => n + (s.ctxAt k).cdigest.toNat) 0) % m61

/-- Entries 0x2400 of account slot `a` (R243, R277, R310). -/
def State.read2400 (s : State) (a sub : Nat) : DVal :=
  let x := s.acct a
  let keys := s.ctxKeys x.part.toNat a false
  let one := fun (f : Ctx → Nat) => match keys with | k :: _ => f (s.ctxAt k) | [] => 0
  match sub with
  | 0x01 => .num a
  | 0x02 => .num x.st.code
  | 0x03 => .num x.ident.toNat
  | 0x04 => .num x.part.toNat
  | 0x05 => .num x.home.toNat
  | 0x06 => .num x.seed.toNat
  | 0x07 => .num x.tokens
  | 0x08 => .num x.pinned.toNat
  | 0x09 => .num x.draft
  | 0x0A => .num x.cap
  | 0x0B => .num x.tau.toNat
  | 0x0C => .num x.topk.toNat
  | 0x0D => .num x.topp.toNat
  | 0x0E => .num x.proposed
  | 0x0F => .num x.accepted
  | 0x10 => .num x.rank.toNat
  | 0x11 => .num x.agen.toNat
  | 0x12 => .num x.adigest.toNat
  | 0x13 => boolVal x.learnPend
  | 0x14 => .num x.learned
  | 0x30 => .num keys.length
  | 0x31 => .num (one (fun c => c.committed.toNat))
  | 0x32 => .num 4194304
  | 0x33 => .num (keys.foldl (fun n k => n + (s.ctxAt k).pages.toNat) 0)
  | 0x34 => .num (s.acctDigest keys)
  | 0x35 => .num (one (fun c => c.st.toNat))
  | 0x36 => .num (keys.foldl (fun n k => max n (s.ctxAt k).lag) 0)
  | 0x37 => .num x.transfers
  | 0x40 => .num (match x.running with | some (n, ssn) => 4294967296 * n.toNat + ssn.toNat | none => ones64)
  | 0x41 => .num (s.ledger.subs.filter (fun b => decide (b.st = .accepted ∧ (b.account.map (fun z => z.val)) = some a))).length
  | 0x42 => .num x.lastLsn.toNat
  | 0x43 => .num x.expired
  | 0x44 => .num x.cancelled
  | 0x45 => .num x.parks
  | _ => .num 0

/-! ## Arrays, tiles, mesh, stacks -/

/-- Entries 0x3000: the geometry (R58). -/
def read3000 (sub : Nat) : DVal :=
  .num ([0, 512, 256, 8, 8, 64, 4, 32768, 0xFFFFFFF9, 7, 192, 384, 384, 48, 384, 10000].getD sub 0)

/-- Entries 0x3001 of array `a` (R59). -/
def State.read3001 (s : State) (a sub : Nat) : DVal :=
  let x := s.array a
  match sub with
  | 0x01 => .num a
  | 0x02 => .num x.st.code
  | 0x03 => .num x.freeSpares.length
  | 0x04 => .num x.fails
  | 0x05 => .num x.spFails
  | 0x06 => .num x.fired
  | 0x07 => .num x.lastResid.toNat
  | k => .num (SMap.get x.colMap 0 (k - 0x10)).toNat

/-- Entries 0x3010 of tile `t` (R142). -/
def State.read3010 (s : State) (t sub : Nat) : DVal :=
  let x := s.tile t
  match sub with
  | 0x01 => .num t
  | 0x02 => blobOf 2 ((List.range 12).map (fun k => (SMap.get x.blocks {} k).bits.toNat))
  | 0x03 => .num x.corrected
  | 0x04 => .num x.parityErrs
  | 0x05 => blobOf 1 ((List.range 16).map (fun k => SMap.get x.spareRows 0 k))
  | 0x06 => .num (x.awaiting.length + x.mapping.length)
  | 0x07 => .num x.conflicts
  | 0x08 => .num x.violations
  | 0x09 => .num x.transitFails
  | 0x0A => .num (256 * x.halfB.tag.toNat + x.halfA.tag.toNat)
  | 0x0B => .num (s.tiles.foldl (fun n y => n + (y.2.blocks.filter (fun b => b.2.powered)).length) 0)
  | 0x0C => .num (32 - s.tiles.foldl (fun n y => y.2.spareRows.foldl (fun k z => max k z.2) n) 0)
  | _ => .num 0

/-- Entries 0x3020 of router `r` (R163). -/
def State.read3020 (s : State) (r sub : Nat) : DVal :=
  let x := SMap.get s.mesh.routers {} r
  match sub with
  | 0x01 => .num r
  | 0x02 => .num x.flits
  | 0x03 => .num x.adds
  | 0x04 => .num x.collisions
  | 0x05 => .num x.errors
  | 0x06 => .num x.dropped
  | 0x07 => .num x.peakHigh
  | 0x08 => .num x.peakLow
  | 0x09 => .num x.queue
  | 0x0A => .num s.health.collisions
  | _ => .num 0

/-- Entries 0x3030 of stack `k` (R242). -/
def State.read3030 (s : State) (k sub : Nat) : DVal :=
  let x := s.stack k
  match sub with
  | 0x01 => .num k
  | 0x02 => .num x.st
  | 0x03 => .num x.corrected
  | 0x04 => .num x.rebuilt
  | 0x05 => .num x.poisoned
  | 0x06 => .num x.temp.toNat
  | 0x07 => .num x.engBytes
  | 0x08 => .num x.qBytes
  | 0x09 => .num (960 - s.mem.granules.length)
  | 0x0A => .num s.mem.zeroing.length
  | _ => .num 0

/-! ## Calibration -/

/-- Calibration state of an array (R114). Where several of its states hold, the order is suspended, writing, running, queued: DESIGN
CHOICE (112). -/
def State.calState (s : State) (a : Nat) : Nat :=
  let x := s.array a
  if x.suspended = true ∨ x.st = .withdrawn then 5
  else if !x.staging.isEmpty then 4
  else match x.running with
    | some r => if r.user.isEmpty then 2 else 3
    | none =>
      let t := s.tile (a / 64)
      if t.calPrio.contains a || t.calRot.contains a || t.calUser.any (fun q => decide (q.1 = a)) then 1 else 0

/-- Set status of an array (R109, R114). Four equal sweep numbers that are not the current one have no code (log entry 29). -/
def State.setStatus (s : State) (a : Nat) : Nat :=
  let w := (s.array a).cal.sweeps
  if w.any (fun x => decide (x = 0xFFFF)) then 3
  else if w.all (fun x => decide (x = 0)) then 0
  else if w.all (fun x => decide (x = w.getD 0 0)) then
    (if w.getD 0 0 = s.health.sweep then 1 else partNum 0x3100 0x0E a)
  else 2

/-- Entries 0x3100 of array `a` (R114). -/
def State.read3100 (s : State) (a sub : Nat) : DVal :=
  let x := s.array a
  match sub with
  | 0x01 => .num a
  | 0x02 => .num (s.calState a)
  | 0x04 => .num s.dict.rotation.toNat
  | 0x05 => boolVal s.dict.bgEnable
  | 0x07 => .num x.stage
  | 0x08 => .num s.dict.calWritten
  | 0x09 => .num s.dict.calSkipped
  | 0x0A => .num s.dict.shortfalls
  | 0x0B => .num s.dict.savePeriod.toNat
  | 0x0C => .num (s.arrays.foldl (fun n y => n + y.2.untrim.length) 0)
  | 0x0D => .num x.cal.writes.toNat
  | 0x0E => .num (s.setStatus a)
  | 0x0F => .num x.lastFull
  | _ => .num 0

/-- The greatest value of a figure over the arrays that have one, and the lowest-numbered array with it. -/
def worstOf (l : List (Nat × Nat)) : Option (Nat × Nat) :=
  l.foldl (fun b x => match b with | none => some x | some y => if y.2 < x.2 then some x else b) none

/-- Quality figures of the die, the no-value code left out. -/
def State.figures (s : State) : List (Nat × Nat) :=
  (s.arrays.filter (fun x => decide (x.2.quality ≠ 0xFFFF))).map (fun x => (x.1, x.2.quality.toNat))

/-- Entries 0x3200 of array `a` (R115). Where no array has a figure, the worst figure reads the no-value code and the worst array is
open (log entry 29). -/
def State.read3200 (s : State) (a sub : Nat) : DVal :=
  let x := s.array a
  match sub with
  | 0x01 => .num a
  | 0x02 => .num x.quality.toNat
  | 0x03 => boolVal x.stale
  | 0x04 => .num 768
  | 0x05 => .num (match worstOf s.figures with | some w => w.2 | none => 0xFFFF)
  | 0x06 => .num (match worstOf s.figures with | some w => w.1 | none => partNum 0x3200 0x06 0)
  | 0x07 => .num (s.figures.filter (fun f => decide (768 < f.2))).length
  | 0x08 => blobOf 2 ((List.range 8).map (fun t => (SMap.get x.means 0 t % 65536).toNat))
  | 0x09 => .num x.unres
  | 0x0A => .num x.windows
  | _ => .num 0

/-- Every Resident array carries the current sweep number at all four points (R108); no sweep has that number before one is
allocated. -/
def State.sweepDone (s : State) : Bool :=
  decide (s.health.sweep ≠ 0) &&
    s.arrays.all (fun x => decide (x.2.st ≠ .resident) || x.2.cal.sweeps.all (fun w => decide (w = s.health.sweep)))

/-- Entries 0x3300 of array `a` (R116). -/
def State.read3300 (s : State) (a sub : Nat) : DVal :=
  let x := s.array a
  match sub with
  | 0x05 => .num a
  | 0x0A => .num (match x.trimTemp with | some t => (tempF32 (clampTemp t)).toNat | none => partNum 0x3300 0x0A a)
  | 0x0B => .num 2
  | 0x0C => .num s.health.sweep.toNat
  | 0x0D => .num 0x3F000000
  | 0x0E => .num ((List.range 512).filter (fun t => inTolerance (s.tileTemp t) s.dict.calPoint)).length
  | 0x0F => boolVal s.sweepDone
  | k => if k ≤ 4 then .num (20 + 20 * k) else .num (x.cal.sweeps.getD (k - 6) 0).toNat

/-- Entries 0x3400 of array `a` (R60). -/
def State.read3400 (s : State) (a sub : Nat) : DVal :=
  let l := s.arrays.map (fun x => (x.1, x.2.progCount))
  let worst := match worstOf (l.filter (fun x => decide (x.2 ≠ 0))) with | some w => w | none => (0, 0)
  match sub with
  | 0x01 => .num a
  | 0x02 => .num (s.array a).progCount
  | 0x03 => .num worst.2
  | 0x04 => .num worst.1
  | 0x05 => .num s.dict.warnAt.toNat
  | 0x06 => .num (l.filter (fun x => decide (10000 ≤ x.2))).length
  | 0x07 => boolVal s.dict.override
  | _ => .num 0

/-! ## Thermal, throttle, power, clocks -/

/-- Entries 0x4000 of sensor `k` (R443, R527). -/
def State.read4000 (s : State) (k sub : Nat) : DVal :=
  let p := s.power
  match sub with
  | 0x01 => .num k
  | 0x02 => tempVal32 (SMap.get p.readings none k)
  | 0x03 => tempVal32 (SMap.get p.raws none k)
  | 0x04 => .num (if p.tooHot.contains k then 2 else if p.faulty.contains k then 1 else 0)
  | 0x05 => tempVal32 p.tdie
  | 0x06 => .num p.hottest
  | 0x07 => .num p.faulty.length
  | 0x08 => .num p.tooHot.length
  | 0x09 => .num p.trips.toNat
  | 0x0A => .num 0x42E60000
  | 0x0B => .num (tempF32 p.peak).toNat
  | _ => .num 0

/-- Entries 0x4100 (R444). -/
def State.read4100 (s : State) (sub : Nat) : DVal :=
  let p := s.power
  match sub with
  | 0x01 => .num p.level
  | 0x02 => .num p.l1.toNat
  | 0x03 => blobOf 4 (p.l2.map (fun w => w.toNat))
  | 0x04 => .num 0x40400000
  | 0x05 => .num 100
  | 0x06 => .num 50
  | 0x07 => .num p.cause.toNat
  | 0x08 => .num p.throttled
  | 0x09 => .num (p.stretch / 10)
  | 0x0A => .num p.enforcements
  | 0x0B => .num p.curFrames
  | _ => .num 0

/-- Nominal voltages of the rails, 10 mV (R413). -/
def railNominal : List Nat := [180, 180, 105, 75, 80, 70, 120, 85, 180, 330]

/-- Entries 0x4200 of rail `k` (R445, R456, R527): a code of 4,095 is 125 % of the nominal voltage, and 1,600 A of IMON_CORE. -/
def State.read4200 (s : State) (k sub : Nat) : DVal :=
  let p := s.power
  let codes := s.mgmt.adc.codes
  match sub with
  | 0x01 => .num k
  | 0x02 => match SMap.get codes none k with
    | some c => ratioF32 (c.toNat * railNominal.getD k 0) 327600
    | none => .num 0x7FC00000
  | 0x03 =>
    if k = 5 then match SMap.get codes none 10 with
      | some c => ratioF32 (c.toNat * 1600) 4095
      | none => .num 0x7FC00000
    else .num 0
  | 0x04 => .num (SMap.get p.underV 0 k)
  | 0x05 => match p.power with | some mw => ratioF32 mw 1000 | none => .num 0x7FC00000
  | 0x06 => .num p.limit.toNat
  | 0x07 => .num 0x44C80000
  | 0x08 => .num p.sequences
  | 0x09 => ratioF32 (p.peakAmp * 1600) 4095
  | _ => .num 0

/-- Entries 0x4300 (R446). The steering in force is no state of the model (log entry 29). -/
def State.read4300 (s : State) (sub : Nat) : DVal :=
  let p := s.power
  match sub with
  | 0x01 => boolVal p.pll
  | 0x02 => .num p.pllIn
  | 0x03 => boolVal p.refclk
  | 0x04 => boolVal p.frameIn
  | 0x05 => .num (if s.fu.lock && !s.fu.acting then partNum 0x4300 0x05 s.fu.frame else 0)
  | 0x06 => tempVal32 p.holdTemp
  | 0x07 => ratioF32 p.holdCorr 100000
  | 0x08 => .num p.losses
  | 0x09 => .num p.tables.toNat
  | 0x0A => .num p.crossings
  | _ => .num 0

/-! ## Optics, network, frames -/

/-- Present over start-of-life bias of the 8 lasers, unit 1/1,024, rounded down; a laser without a start-of-life value is open (log
entry 29). -/
def biasRatios (m : Nat) (d : ModuleData) : List Nat :=
  (List.range 8).map (fun k =>
    let b := ((modBiasStart d).getD k 0).toNat
    if b = 0 then partNum 0x5000 0x0A (8 * m + k) else min 65535 (((modBiasNow d).getD k 0).toNat * 1024 / b))

/-- Entries 0x50mm of module `m` (R412, R527). Identity entries of a position without a module are empty or open (log entry 29). -/
def State.read50 (s : State) (m sub : Nat) : DVal :=
  let x := s.module m
  let num := fun (f : ModuleData → Nat) (none_ : Nat) => DVal.num (match x.data with | some d => f d | none => none_)
  match sub with
  | 0x01 => .num x.st
  | 0x02 => boolVal (decide (x.st = 4 ∨ x.st = 6))
  | 0x03 => .bytes (match x.data with | some d => modSerial d | none => [])
  | 0x04 => .bytes (match x.data with | some d => modDate d | none => [])
  | 0x05 => num modWave (partNum 0x5000 0x05 m)
  | 0x06 => num (fun d => (modHours d).toNat) 0xFFFFFFFF
  | 0x07 => num modEqHours 0xFFFFFFFF
  | 0x08 => num lifeOf 0xFFFFFFFF
  | 0x09 => num (fun d => (modSpares d).toNat) (partNum 0x5000 0x09 m)
  | 0x0A => match x.data with
    | some d => blobOf 2 (biasRatios m d)
    | none => partBytes 0x5000 0x0A m 16
  | 0x0D => .num x.openFib
  | 0x0E => .num x.pathFail
  | 0x0F => match x.data with | some d => ratioF32 (modCase d) 256 | none => .num 0x7FC00000
  | 0x10 => .num x.lit.toNat
  | _ => .num 0

/-- Entries 0x6000 of link `l` (R342). -/
def State.read6000 (s : State) (l sub : Nat) : DVal :=
  let e := s.link l
  match sub with
  | 0x01 => .num s.dict.n
  | 0x02 => .num s.dict.addr.toNat
  | 0x03 => .num s.dict.clusterNow.toNat
  | 0x04 => .num 0x0100
  | 0x05 => .num l
  | 0x06 => .num e.st.code
  | 0x07 => .num e.lanes
  | 0x08 => .num e.cls
  | 0x09 => .num e.delay
  | 0x0A => .num e.peer.toNat
  | 0x0B => .num e.exceed
  | 0x0C => .num e.sent
  | 0x0D => .num e.naks
  | 0x0E => .num e.failures
  | 0x10 => .num e.reserved
  | 0x11 => .num s.health.clearing15
  | 0x12 => .num ((e.txEnts.filter (fun x => x.2.valid)).length + (e.rxEnts.filter (fun x => x.2.valid)).length)
  | _ => .num 0

/-- Entries 0x6100 (R211, R343, R530). -/
def State.read6100 (s : State) (sub : Nat) : DVal :=
  let f := s.fu
  match sub with
  | 0x01 => .num f.frame
  | 0x02 => .num (frameCycles f.len)
  | 0x03 => .num f.framesHeld
  | 0x04 => .num f.holds
  | 0x05 => .num f.pauses
  | 0x06 => .num f.budget
  | 0x07 => .num f.overruns
  | 0x08 => .num f.aborts
  | 0x09 => .num f.warn.toNat
  | 0x0A => .num f.unreported
  | 0x0B => .num f.aboveWarn
  | 0x0C => .num (s.tiles.foldl (fun m t => max m (t.2.streams.foldl (fun n x => n + x.2.words) 0)) 0)
  | 0x0D => .num f.floor.toNat
  | 0x20 => boolVal f.master
  | 0x21 => .num f.lockSrc.toNat
  | 0x22 => boolVal f.honour
  | 0x23 => .num f.curMaster.toNat
  | 0x24 => .num f.epoch.toNat
  | 0x25 => .num f.takeovers
  | 0x26 => .num (frameCycles f.vote)
  | 0x27 => boolVal f.enforced
  | 0x28 => .num f.phase.toNat
  | 0x29 => .num f.missed
  | 0x2A => frameVal f.returnIn ones64
  | 0x2B => .num f.decisions
  | 0x2C => boolVal f.noBackup
  | _ => .num 0

/-! ## Ethernet, sessions, Ledger -/

/-- Entries 0x7000 of port `p` (R368). -/
def State.read7000 (s : State) (p sub : Nat) : DVal :=
  let x := s.port p
  match sub with
  | 0x01 => .num p
  | 0x02 => boolVal x.up
  | 0x03 => macVal (macBase + p)
  | 0x04 => .num x.ipv4.toNat
  | 0x05 => if x.ipv6.isEmpty then partBytes 0x7000 0x05 p 16 else .bytes x.ipv6
  | 0x06 => .num x.vlan.toNat
  | 0x07 => .num x.lossless.toNat
  | 0x08 => .num x.dropped
  | 0x09 => .num x.cnpTx
  | 0x0A => .num x.cnpRx
  | 0x0B => .num x.pfcTx
  | 0x0C => .num x.ackTo.toNat
  | 0x0D => .num (s.host.windows.filter (fun w => decide (w.2.st = 1))).length
  | 0x0E => .num s.host.winClosed
  | 0x0F => .num s.host.winAccess
  | _ => .num 0

/-- Entries 0x7100 of session `n` (R369). -/
def State.read7100 (s : State) (n sub : Nat) : DVal :=
  let x := s.sess n
  match sub with
  | 0x01 => .num n
  | 0x02 => .num x.st.code
  | 0x03 => .num x.part.toNat
  | 0x07 => .num x.port.toNat
  | 0x08 => .num (0x10000 + n)
  | 0x09 => .num x.rqpn.toNat
  | 0x0A => if x.raddr.isEmpty then partBytes 0x7100 0x0A n 16 else .bytes x.raddr
  | 0x0B => .num x.rpsn.toNat
  | 0x0C => .num x.lpsn.toNat
  | 0x0E => .num x.a.toNat
  | 0x0F => .num x.ack.toNat
  | 0x10 => .num (s.heldOf (BitVec.ofNat 12 n)).length
  | 0x11 => blobOf 4 ((List.range 13).map (fun k => SMap.get x.refusals 0 k))
  | 0x12 => .num x.authDrops
  | 0x13 => .num (s.host.sessions.filter (fun y => decide (y.2.st ≠ .free))).length
  | _ => .num 0

/-- Entries 0x8000 (R309). A Ledger without a durable or replicated record has no such LSN (log entry 29). -/
def State.read8000 (s : State) (sub : Nat) : DVal :=
  let l := s.ledger
  match sub with
  | 0x01 => .num (match l.durable with | some n => n.toNat | none => partNum 0x8000 0x01 0)
  | 0x02 => .num (match l.replicated with | some n => n.toNat | none => partNum 0x8000 0x02 0)
  | 0x03 => .num l.checkpoint.toNat
  | 0x04 => .num l.subs.length
  | 0x05 => .num l.busy
  | 0x06 => .num l.dups
  | 0x07 => .num l.staleGap
  | 0x08 => .num l.commits
  | 0x09 => .num l.drops
  | 0x0A => .num l.replFails
  | 0x0B => .num l.mode
  | 0x0C => .num (4161536 - l.journal.foldl (fun n j => if j.applied then n else n + recCount j.r) 0)
  | 0x0D => .num s.sealedParcels
  | 0x0E => .num l.restFails
  | _ => .num 0

/-! ## Recorder -/

/-- The 64 bytes that the reader finds for a SEQ (R507, R508, R510, R512): a pending record, or what its slot holds. A slot no record
has been written to stands erased; one that was erased or torn since is open (log entry 29). -/
def State.recordAt (s : State) (seq : Nat) : List Byte :=
  if s.recd.next ≤ seq then List.replicate 64 0xFF
  else
    match s.recd.buffer.find? (fun r => decide (r.seq = seq)) with
    | some r => r.bytes
    | none =>
      match s.recd.flash.find? (fun r => decide (slotOf r.seq = slotOf seq)) with
      | some r => r.bytes
      | none => bytesOfNat 64 (partNum 0x9000 0x06 seq)

/-- Entries 0x9000 (R512). -/
def State.read9000 (s : State) (sel sub : Nat) : DVal :=
  let r := s.recd
  match sub with
  | 0x01 => .num r.next
  | 0x02 => .num r.oldest
  | 0x03 => .num (match r.buffer with | x :: _ => x.seq | [] => r.next)
  | 0x04 => .num r.buffer.length
  | 0x05 => .num sel
  | 0x06 => .bytes ((List.range 64).flatMap (fun k => s.recordAt (sel + k)))
  | 0x07 => .num r.lost
  | 0x08 => .num r.flushes
  | 0x0A => .num r.torn
  | 0x0B => .num r.busy
  | _ => .num 0

/-! ## Management, health, anchors, identity -/

/-- Entries 0xF000 (R471, R530). -/
def State.readF000 (s : State) (sub : Nat) : DVal :=
  let m := s.mgmt
  match sub with
  | 0x01 => .num m.boot.running.toNat
  | 0x02 => .num m.boot.verA.toNat
  | 0x03 => .num m.boot.verB.toNat
  | 0x04 => .num m.boot.svn
  | 0x05 => .num (if m.boot.trial = 1 then 1 else if m.boot.failed then 2 else 0)
  | 0x08 => .num m.sramUnc
  | 0x09 => .num m.wdWarn
  | 0x0A => .num m.spurious
  | 0x0B => .num m.stray
  | 0x0C => .num m.adc.overruns
  | 0x0D => .num m.adc.missed
  | 0x0E => .num m.adc.urgents
  | 0x0F => .num (m.fcounts.foldl (fun n x => max n x.2) 0)
  | 0x10 => boolVal m.entropy
  | 0x11 => .num m.sramCorr
  | 0x13 => .num s.dawn.shutdown
  | 0x14 => .num (if s.dawn.stopped then 128 + s.dawn.step else s.dawn.step)
  | 0x15 => .num s.dawn.duration
  | _ => .num 0

/-- Every partition the device knows of is loaded: those it holds, of which there is one, and those of the accounts it is home of, with
no mirror page still waiting for its partition (R274 step 3). -/
def State.clusterLoaded (s : State) : Bool :=
  s.mem.held.isEmpty && s.parts.any (fun x => decide (x.2.st ≠ .free)) &&
  s.parts.all (fun x => decide (x.2.st = .free) || (x.2.loaded && s.allResident x.1)) &&
  s.accts.all (fun x => decide (x.2.st = .free) || decide (x.2.part = 0xFE) || decide (x.2.home ≠ s.dict.addr) ||
    (s.part x.2.part.toNat).loaded)

/-- Return readiness (R274, R398): 3 once Dawn is complete, every copy is received with sound digests, and every partition is loaded with
its arrays Resident. -/
def State.readiness (s : State) : Nat :=
  if s.health.ready = 2 ∧ s.dawn.step = 11 ∧ s.health.badMirrors = [] ∧ s.clusterLoaded = true then 3
  else s.health.ready

/-- Entries 0xF010 (R398). -/
def State.readF010 (s : State) (sub : Nat) : DVal :=
  let h := s.health
  match sub with
  | 0x01 => .num h.st
  | 0x02 => .num h.cause.toNat
  | 0x03 => .num h.frame
  | 0x04 => boolVal h.flag
  | 0x07 => .num h.residue
  | 0x08 => .num h.ownClear
  | 0x09 => blobOf 4 ((List.range 11).map (fun l => (s.link l).clearFails))
  | 0x0A => .num h.driftEvals
  | 0x0B => .num h.drifting
  | 0x0C => .num h.probes
  | 0x0D => .num h.trees
  | 0x0E => .num s.fu.adopted.length
  | 0x0F => .num h.later
  | 0x10 => .num h.firstUse
  | 0x11 => .num s.readiness
  | _ => .num 0

/-- Entries 0xF020 of anchor `k` (R483). -/
def State.readF020 (s : State) (k sub : Nat) : DVal :=
  let a := SMap.get s.dict.anchors none k
  match sub with
  | 0x01 => .num k
  | 0x02 => .num (match a with | some x => x.role | none => 0)
  | 0x03 => .num (match a with | some x => x.tenant.toNat | none => 0)
  | 0x04 => .bytes (match a with | some x => x.cert | none => [])
  | 0x05 => match a with
    | some x => .bytes (bytesOfNat 48 x.digest.toNat).reverse
    | none => partBytes 0xF020 0x05 k 48
  | 0x08 => .num (s.dict.sessions.filter (fun u => u.done)).length
  | 0x09 => .num s.dict.hsFails
  | 0x0A => .num s.dict.idle.toNat
  | 0x0B => .num s.dict.authDrops
  | _ => .num 0

/-- Entries of the 0x1000 range (R496). -/
def State.read10 (s : State) (index sub : Nat) : DVal :=
  match index, sub with
  | 0x1018, 0x01 => strVal "Clobin Systems"
  | 0x1018, 0x02 => strVal "UX16-B0-L"
  | 0x1018, 0x03 => .num 0xB0
  | 0x1018, 0x04 => partBytes 0x1018 0x04 0 16
  | 0x1018, 0x05 => partBytes 0x1018 0x05 0 8
  | 0x1018, 0x06 => partBytes 0x1018 0x06 0 48
  | 0x1018, 0x07 => macVal macBase
  | 0x1020, 0x01 => .num 1
  | 0x1020, 0x02 => .num 0
  | 0x1020, _ => .num 0x0100
  | 0x1100, 0x01 => .num s.dawn.hours
  | 0x1100, 0x02 => .num s.dawn.hoursDawn
  | 0x1100, 0x03 => .num s.dict.wall.toNat
  | 0x1101, 0x01 => .num s.dawn.cycles
  | _, _ => .num 0

/-! ## Any entry -/

/-- The session's selector of an index (R59). -/
def selOf (u : UoaSess) (index : Nat) : Nat := SMap.get u.sel 0 index

/-- Highest subindex in use at an index (R475). -/
def highestSub (index : Nat) : Nat := (entriesOf index).foldl (fun m e => max m e.sub) 0

/-- The value in force of an entry, as a session's selectors choose its object (R476). -/
def State.dictRead (s : State) (u : UoaSess) (index sub : Nat) : DVal :=
  let k := selOf u index
  if sub = 0 then .num (highestSub index)
  else
    match baseIndex index with
    | 0x2000 => s.read20 (index - 0x2000) sub k
    | 0x2400 => s.read2400 k sub
    | 0x3000 => read3000 sub
    | 0x3001 => s.read3001 k sub
    | 0x3010 => s.read3010 k sub
    | 0x3020 => s.read3020 k sub
    | 0x3030 => s.read3030 k sub
    | 0x3100 => s.read3100 k sub
    | 0x3200 => s.read3200 k sub
    | 0x3300 => s.read3300 k sub
    | 0x3400 => s.read3400 k sub
    | 0x4000 => s.read4000 k sub
    | 0x4100 => s.read4100 sub
    | 0x4200 => s.read4200 k sub
    | 0x4300 => s.read4300 sub
    | 0x5000 => s.read50 (index - 0x5000) sub
    | 0x6000 => s.read6000 k sub
    | 0x6100 => s.read6100 sub
    | 0x7000 => s.read7000 k sub
    | 0x7100 => s.read7100 k sub
    | 0x8000 => s.read8000 sub
    | 0x9000 => s.read9000 k sub
    | 0xF000 => s.readF000 sub
    | 0xF010 => s.readF010 sub
    | 0xF020 => s.readF020 k sub
    | i => s.read10 i sub

/-- A pending value with all ones for its frame (R488). -/
def waits (v : DVal) : Option (BitVec 64 × DVal) := some (BitVec.allOnes 64, v)

/-- A waiting number, if there is one. -/
def waitsNum (o : Option Nat) : Option (BitVec 64 × DVal) := o.bind (fun n => waits (.num n))

/-- A written value that differs from the one in force waits (R479, R488; log entry 45). -/
def differs (now new : DVal) : Option (BitVec 64 × DVal) := if now = new then none else waits new

/-- A pending frame-valued entry: the value is its own frame (R480). -/
def pendingFrame (f : Option Nat) : Option (BitVec 64 × DVal) := f.map (fun n => (BitVec.ofNat 64 n, .num n))

/-- The pending value of an entry with its stated frame, all ones for apply rules 1, 3 and 4 (R488). -/
def State.dictPending (s : State) (u : UoaSess) (index sub : Nat) : Option (BitVec 64 × DVal) :=
  let k := selOf u index
  let q := s.part (index - 0x2000)
  let x := s.acct k
  let y := s.sess k
  match baseIndex index, sub with
  | 0x2000, 0x07 => pendingFrame q.startF
  | 0x2000, 0x08 => pendingFrame q.closeF
  | 0x2000, 0x0A => pendingFrame q.switchF
  | 0x2000, 0x0B => if q.replReq then waits (.num 1) else none
  | 0x2000, 0x0D => waitsNum (q.waitShare.map (fun v => v.toNat))
  | 0x2000, 0x10 => q.resetF.map (fun n => (BitVec.ofNat 64 n, .num 1))
  | 0x2000, 0x41 => q.stRecipe.map (fun r => (BitVec.ofNat 64 r.frame, .bytes (bytesOfLine r.value)))
  | 0x2000, 0x42 => waitsNum (q.waitHold.map (fun v => v.toNat))
  | 0x2000, 0x43 => waitsNum (q.waitAuto.map (fun v => v.toNat))
  | 0x2400, 0x08 => waitsNum (x.waitPin.map (fun v => v.toNat))
  | 0x2400, 0x0A => waitsNum x.waitCap
  | 0x2400, 0x0B => waitsNum (x.waitTau.map (fun v => v.toNat))
  | 0x2400, 0x0C => waitsNum (x.waitK.map (fun v => v.toNat))
  | 0x2400, 0x0D => waitsNum (x.waitP.map (fun v => v.toNat))
  | 0x4100, 0x02 => waitsNum (s.power.l1W.map (fun v => v.toNat))
  | 0x4100, 0x03 => s.power.l2W.bind (fun l => waits (blobOf 4 (l.map (fun w => w.toNat))))
  | 0x6000, 0x01 => differs (.num s.dict.n) (.num s.dict.nNext)
  | 0x6000, 0x02 => differs (.num s.dict.addr.toNat) (.num s.dict.addrNext.toNat)
  | 0x6000, 0x03 => differs (.num s.dict.clusterNow.toNat) (.num s.dict.cluster.toNat)
  | 0x6100, 0x0D => differs (.num s.fu.floor.toNat) (.num s.fu.floorNext.toNat)
  | 0x6100, 0x20 => differs (boolVal s.fu.master) (boolVal s.fu.masterNext)
  | 0x6100, 0x21 => differs (.num s.fu.lockSrc.toNat) (.num s.fu.lockNext.toNat)
  | 0x6100, 0x2A => pendingFrame s.fu.returnF
  | 0x7000, 0x04 => differs (.num (s.port k).ipv4.toNat) (.num (s.port k).ipv4W.toNat)
  | 0x7000, 0x05 => differs (.bytes (s.port k).ipv6) (.bytes (s.port k).ipv6W)
  | 0x7100, 0x07 => differs (.num y.port.toNat) (.num y.portW.toNat)
  | 0x7100, 0x09 => differs (.num y.rqpn.toNat) (.num y.rqpnW.toNat)
  | 0x7100, 0x0A => differs (.bytes y.raddr) (.bytes y.raddrW)
  | 0x7100, 0x0B => differs (.num y.rpsn.toNat) (.num y.rpsnW.toNat)
  | _, _ => none

end Sys2Proof.Machine
end

