-- ==== Sys2Proof/Machine/DictWrite.lean ====
section
/-! DEFINITION. What a write and a Stage to every entry of the object dictionary does (R479, R480 and the tables of entries). An
effect answers the machine after it, the item status (R487) and a result. -/

namespace Sys2Proof.Machine

/-- What an item does: the machine after it, the item status, the result. -/
abbrev Effect := State → State × BitVec 8 × Option DVal

/-- Done. -/
def done (s : State) : State × BitVec 8 × Option DVal := (s, 0, none)

/-- Refused with a status: nothing changes. -/
def no (s : State) (status : BitVec 8) : State × BitVec 8 × Option DVal := (s, status, none)

/-- Done if a condition on the value holds, else value refused. -/
def doneIf (s : State) (ok : Bool) (t : State) : State × BitVec 8 × Option DVal := if ok then done t else no s 0x05

/-- An effect without a result. -/
def plain (r : State × BitVec 8) : State × BitVec 8 × Option DVal := (r.1, r.2, none)

/-- The number of a value. -/
def numOf (v : DVal) : Nat := match v with | .num n => n | .bytes b => natOfBytes b

/-- The bytes of a value. -/
def bytesOf (v : DVal) : List Byte := match v with | .bytes b => b | .num _ => []

/-- A part of a BLOB replaced from an offset (R486); a write beyond its end extends it. -/
def splice (old : List Byte) (offset : Nat) (b : List Byte) : List Byte :=
  if offset = 0 then b
  else (old ++ List.replicate (offset - old.length) 0).take offset ++ b ++ old.drop (offset + b.length)

/-! ## Sessions of UOA -/

/-- A UOA session by its identifier. -/
def State.uoaSess (s : State) (id : BitVec 32) : Option UoaSess := s.dict.sessions.find? (fun u => decide (u.id = id))

/-- A UOA session changed. -/
def State.updUoa (s : State) (id : BitVec 32) (f : UoaSess → UoaSess) : State :=
  s.updDict (fun d => { d with sessions := d.sessions.map (fun u => if u.id = id then f u else u) })

/-- UOA sessions that satisfy a test end. -/
def State.endUoa (s : State) (p : UoaSess → Bool) : State :=
  s.updDict (fun d => { d with sessions := d.sessions.filter (fun u => !p u) })

/-- A selector set, held by the session (R59). -/
def State.select (s : State) (u : UoaSess) (index n limit : Nat) : State × BitVec 8 × Option DVal :=
  doneIf s (decide (n < limit)) (s.updUoa u.id (fun x => { x with sel := SMap.set x.sel 0 index n }))

/-! ## Partitions -/

/-- KEYID in an installation's bytes, after the public key (R465). -/
def keyidOf (b : List Byte) : BitVec 32 := BitVec.ofNat 32 (natOfBytes ((b.drop 97).take 4))

/-- A tenant's parking key for a partition, under the wrapping key it has read (R465, R472): the write is refused without a wrapping key
of this session at most 60 s old by the frame clock and by the age in seconds given, its value when the tag fails. -/
def State.installKey (s : State) (u : UoaSess) (p : Nat) (value : List Byte) (tagOk : Bool) (age : Nat) :
    State × BitVec 8 × Option DVal :=
  match (s.part p).wrapKeys.find? (fun k => decide (k.1 = u.id)) with
  | none => no s 0x06
  | some (_, draw, read) =>
    if 60 < age ∨ read + 60 * 1600000000 < s.now s.fu.cycle then no s 0x06
    else if tagOk = false then no s 0x05
    else done ((s.updPart p (fun q => { q with keyid := keyidOf value, pkey := Config.parkingKey draw p value, sealed := 0 })).assertSrc 52)

/-- Writes of 0x20pp (R90, R276, R370, R472). Those of rule 1 wait for the partition's next step boundary (R479). -/
def State.write20 (s : State) (u : UoaSess) (p sub : Nat) (v : DVal) : State × BitVec 8 × Option DVal :=
  let q := s.part p
  let n := numOf v
  match sub with
  | 0x02 => if q.st = .free then done (s.setPart p { q with tenant := BitVec.ofNat 32 n }) else no s 0x06
  | 0x0B => plain (s.replaceWeights p n)
  | 0x0D => done (s.setPart p { q with waitShare := some (BitVec.ofNat 8 n) })
  | 0x42 => done (s.setPart p { q with waitHold := some (BitVec.ofNat 32 n) })
  | 0x43 => done (s.setPart p { q with waitAuto := some (decide (n = 1)) })
  | 0x46 => s.select u (0x2000 + p) n q.layers.toNat
  | 0x70 => done (s.setPart p { q with quota := BitVec.ofNat 16 n })
  | 0x81 => s.freed.installKey u p (bytesOf v) (Config.checkOk s.free) 0
  | _ => no s 0x03

/-- Writes of 0x2400 for account slot `a` (R277). -/
def State.write2400 (s : State) (u : UoaSess) (a sub : Nat) (v : DVal) : State × BitVec 8 × Option DVal :=
  let x := s.acct a
  let n := numOf v
  let w := BitVec.ofNat 32 n
  if sub = 0x01 then s.select u 0x2400 n 192
  else if x.st = .free then no s 0x06
  else
    match sub with
    | 0x08 => done (s.setAcct a { x with waitPin := some w })
    | 0x0A => doneIf s (decide (1 ≤ n ∧ n ≤ 16 ∧ n ≤ (s.part x.part.toNat).verify.toNat)) (s.setAcct a { x with waitCap := some n })
    | 0x0B => doneIf s (f32Le 0 w) (s.setAcct a { x with waitTau := some w })
    | 0x0C => doneIf s (decide (n ≤ 1024)) (s.setAcct a { x with waitK := some (BitVec.ofNat 16 n) })
    | 0x0D => doneIf s (f32Lt 0 w && f32Le w 0x3F800000) (s.setAcct a { x with waitP := some w })
    | _ => no s 0x03

/-! ## Calibration, thresholds, power -/

/-- A full calibration of every Resident array at a point (R107). -/
def State.userCal (s : State) (n : Nat) : State :=
  let s1 := s.updDict (fun d => { d with calPoint := n, calWritten := 0, calSkipped := 0 })
  ((s.arrays.filter (fun x => decide (x.2.st = .resident))).map (fun x => x.1)).foldl
    (fun t a => t.requestUser a (BitVec.ofNat 2 n)) s1

/-- Writes of 0x3100 (R106-R108, R114). -/
def State.write3100 (s : State) (u : UoaSess) (a sub : Nat) (v : DVal) : State × BitVec 8 × Option DVal :=
  let n := numOf v
  match sub with
  | 0x01 => s.select u 0x3100 n 32768
  | 0x03 => doneIf s (decide (n = 1)) (s.requestCal a)
  | 0x04 => done (s.updDict (fun d => { d with rotation := BitVec.ofNat 32 n }))
  | 0x05 => done (s.updDict (fun d => { d with bgEnable := decide (n = 1) }))
  | 0x06 => doneIf s (decide (n ≤ 3)) (s.userCal n)
  | 0x0B => done (s.updDict (fun d => { d with savePeriod := BitVec.ofNat 32 n }))
  | 0x10 =>
    if n ≠ 1 then no s 0x05
    else if 0xFFFE ≤ s.health.sweep.toNat then no s 0x06
    else done (s.updHealth (fun h => { h with sweep := h.sweep + 1 }))
  | _ => no s 0x03

/-- Writes of 0x3400 (R60). -/
def State.write3400 (s : State) (u : UoaSess) (sub : Nat) (v : DVal) : State × BitVec 8 × Option DVal :=
  let n := numOf v
  match sub with
  | 0x01 => s.select u 0x3400 n 32768
  | 0x05 => done (s.updDict (fun d => { d with warnAt := BitVec.ofNat 32 n }))
  | 0x07 => done (s.updDict (fun d => { d with override := decide (n = 1) }))
  | _ => no s 0x03

/-- The three thresholds of 0x4100/0x03: each no higher than its default and above the one before (R444). -/
def l2Ok (w : List W32) : Bool :=
  match w with
  | [a, b, c] => f32Le a 0x42BE0000 && f32Le b 0x42C20000 && f32Le c 0x42C60000 && f32Lt a b && f32Lt b c
  | _ => false

/-- Writes of 0x4100: thresholds wait for the next set of conversions (R444). -/
def State.write4100 (s : State) (sub : Nat) (v : DVal) : State × BitVec 8 × Option DVal :=
  let w := BitVec.ofNat 32 (numOf v)
  let l := (List.range 3).map (fun k => BitVec.ofNat 32 (natOfBytes (((bytesOf v).drop (4 * k)).take 4)))
  match sub with
  | 0x02 => doneIf s (f32Le 0x42A00000 w && f32Le w 0x42B80000) (s.updPower (fun p => { p with l1W := some w }))
  | 0x03 => doneIf s (l2Ok l) (s.updPower (fun p => { p with l2W := some l }))
  | _ => no s 0x03

/-- Writes of 0x4200 (R445). -/
def State.write4200 (s : State) (u : UoaSess) (sub : Nat) (v : DVal) : State × BitVec 8 × Option DVal :=
  let w := BitVec.ofNat 32 (numOf v)
  match sub with
  | 0x01 => s.select u 0x4200 (numOf v) 10
  | 0x06 => doneIf s (f32Le 0x44480000 w && f32Le w 0x44C80000) (s.updPower (fun p => { p with limit := w }))
  | _ => no s 0x03

/-! ## Network and frames -/

/-- A reset of link `l` (R524). -/
def State.resetLink (s : State) (l n : Nat) : State × BitVec 8 × Option DVal :=
  if n ≠ 1 then no s 0x05
  else if (s.link l).st = .active ∨ (s.link l).st = .training then no s 0x06
  else done (s.retrain l)

/-- Writes of 0x6000 for link `l` (R342). -/
def State.write6000 (s : State) (u : UoaSess) (l sub : Nat) (v : DVal) : State × BitVec 8 × Option DVal :=
  let n := numOf v
  match sub with
  | 0x01 => doneIf s (decide (3 ≤ n ∧ n ≤ 10)) (s.updDict (fun d => { d with nNext := n }))
  | 0x02 => doneIf s (decide (n < 1024)) (s.updDict (fun d => { d with addrNext := BitVec.ofNat 10 n }))
  | 0x03 => done (s.updDict (fun d => { d with cluster := BitVec.ofNat 64 n }))
  | 0x05 => s.select u 0x6000 n 11
  | 0x0F => s.resetLink l n
  | _ => no s 0x03

/-- Writes of 0x6100 (R211, R343, R530). -/
def State.write6100 (s : State) (sub : Nat) (v : DVal) : State × BitVec 8 × Option DVal :=
  let n := numOf v
  match sub with
  | 0x09 => done (s.updFu (fun f => { f with warn := BitVec.ofNat 16 n }))
  | 0x0D => done (s.updFu (fun f => { f with floorNext := BitVec.ofNat 64 n }))
  | 0x20 => done (s.updFu (fun f => { f with masterNext := decide (n = 1) }))
  | 0x21 => doneIf s (decide (n ≤ 1)) (s.updFu (fun f => { f with lockNext := BitVec.ofNat 8 n }))
  | 0x22 => done (s.updFu (fun f => { f with honour := decide (n = 1) }))
  | _ => no s 0x03

/-- At most two bits of a bitmap are set. -/
def twoBits (n : Nat) : Bool := decide (((List.range 8).filter (fun k => n.testBit k)).length ≤ 2)

/-- Writes of 0x7000 for port `p`: addresses wait for the next link up (R368). -/
def State.write7000 (s : State) (u : UoaSess) (p sub : Nat) (v : DVal) : State × BitVec 8 × Option DVal :=
  let n := numOf v
  match sub with
  | 0x01 => s.select u 0x7000 n 4
  | 0x04 => done (s.updPort p (fun x => { x with ipv4W := BitVec.ofNat 32 n }))
  | 0x05 => done (s.updPort p (fun x => { x with ipv6W := bytesOf v }))
  | 0x06 => done (s.updPort p (fun x => { x with vlan := BitVec.ofNat 16 n }))
  | 0x07 => doneIf s (twoBits n) (s.updPort p (fun x => { x with lossless := BitVec.ofNat 8 n }))
  | 0x0C => done (s.updPort p (fun x => { x with ackTo := BitVec.ofNat 8 n }))
  | _ => no s 0x03

/-! ## Teller sessions (R350-R353, R364, R366, R369) -/

/-- A session key drawn: COUNTER begins anew (R366). -/
def Session.newKey (x : Session) (draw : Nat) : Session := { x with key := some draw, rxCtr := 0, txCtr := 0 }

/-- The 32 bytes of a session key, delivered once (R366, R486). -/
def keyResult (draw : Nat) : Option DVal := some (.bytes (bytesOfNat 32 (Config.nonce draw).toNat).reverse)

/-- Sessions that a partition holds open. -/
def State.openSessions (s : State) (p : Nat) : Nat :=
  (s.host.sessions.filter (fun x => decide (x.2.st ≠ .free ∧ x.2.part.toNat = p))).length

/-- Open (R350, R352): Free to Configured, within the partition's quota. -/
def State.openSession (s : State) (n v : Nat) : State × BitVec 8 × Option DVal :=
  let x := s.sess n
  if v ≠ 1 then no s 0x05
  else if x.st ≠ .free ∨ Tag.isPart x.part = false ∨ s.mgmt.entropy = false ∨
      (s.part x.part.toNat).quota.toNat ≤ s.openSessions x.part.toNat then no s 0x06
  else
    let d := s.mgmt.draws
    let held := !(s.heldOf (BitVec.ofNat 12 n)).isEmpty
    let y : Session := { x with
      st := .configured, tenant := (s.part x.part.toNat).tenant, a := if held then x.a else 0, ack := if held then x.ack else 0 }
    (({ s with mgmt := { s.mgmt with draws := d + 1 } }).setSess n (y.newKey d), 0, keyResult d)

/-- Reopen (R350, R366): a new key for a session in Error; its sequence state is kept. -/
def State.reopenSession (s : State) (n v : Nat) : State × BitVec 8 × Option DVal :=
  let x := s.sess n
  if v ≠ 1 then no s 0x05
  else if x.st ≠ .error ∨ s.mgmt.entropy = false then no s 0x06
  else
    let d := s.mgmt.draws
    (({ s with mgmt := { s.mgmt with draws := d + 1 } }).setSess n (x.newKey d), 0, keyResult d)

/-- Close (R350, R353): to Closing. An Operator's close of a Closing session retires its Completed submissions at once and frees it, with
an event (log entry 97), unless one is not yet Completed. -/
def State.closeSession (s : State) (role n v : Nat) : State × BitVec 8 × Option DVal :=
  let x := s.sess n
  let k := BitVec.ofNat 12 n
  if v ≠ 1 then no s 0x05
  else
    match x.st with
    | .free => no s 0x06
    | .closing =>
      if role ≠ 3 ∨ (s.heldOf k).any (fun b => decide (b.st ≠ .completed)) = true ∨ s.mayAssign = false then no s 0x06
      else
        let s1 := (s.assign false x.part 0xFF (.retire k x.a)).1
        done ((s1.retired k x.a).tryFree k).runDurable |> fun r => (r.1.event 0x0C 3 x.part.toNat none x.a.toNat x.ack.toNat, r.2)
    | _ => done (s.beginClose k)

/-- Connect (R350, R351, R364): Configured or Error to Ready with the parameters written; what the host may have missed is sent
again. -/
def State.connect (s : State) (n v : Nat) : State × BitVec 8 × Option DVal :=
  let x := s.sess n
  if v ≠ 1 then no s 0x05
  else if (x.st ≠ .configured ∧ x.st ≠ .error) ∨ x.key = none ∨ s.mgmt.entropy = false then no s 0x06
  else
    let d := s.mgmt.draws
    let s1 := ({ s with mgmt := { s.mgmt with draws := d + 1 } }).setSess n { x with
      st := .ready, port := x.portW, rqpn := x.rqpnW, raddr := x.raddrW, rpsn := x.rpsnW, lpsn := Config.startPsn d, rate := none,
      retry := 7, rnr := 7, ackTo := (s.port x.portW.toNat).ackTo }
    let held := s1.heldOf (BitVec.ofNat 12 n)
    let s2 := held.foldl (fun t b => match b.account with
      | some a => t.updAcct a.val (fun y => { y with relpos := none })
      | none => t) s1
    done (held.foldl (fun t b => t.resendSub b) s2)

/-- Writes of 0x7100 for session `n`: connection parameters wait for Connect (R369). -/
def State.write7100 (s : State) (u : UoaSess) (n sub : Nat) (v : DVal) : State × BitVec 8 × Option DVal :=
  let k := numOf v
  let x := s.sess n
  match sub with
  | 0x01 => s.select u 0x7100 k 4096
  | 0x03 =>
    if x.st ≠ .free then no s 0x06
    else doneIf s (decide (k < 128 ∨ k = 0xFE)) (s.setSess n { x with part := BitVec.ofNat 8 k })
  | 0x04 => s.openSession n k
  | 0x05 => s.reopenSession n k
  | 0x06 => s.closeSession u.role n k
  | 0x07 => doneIf s (decide (k ≤ 3)) (s.setSess n { x with portW := BitVec.ofNat 2 k })
  | 0x09 => done (s.setSess n { x with rqpnW := BitVec.ofNat 32 k })
  | 0x0A => done (s.setSess n { x with raddrW := bytesOf v })
  | 0x0B => done (s.setSess n { x with rpsnW := BitVec.ofNat 32 (k % 16777216) })
  | 0x0D => s.connect n k
  | _ => no s 0x03

/-! ## Management: firmware update, reset, health -/

/-- Image bytes for the inactive slot, which holds 32 MiB (R461, R468). -/
def State.putImage (s : State) (offset : Nat) (b : List Byte) : State × BitVec 8 × Option DVal :=
  let t := s.mgmt.boot
  if 33554432 < offset + b.length then no s 0x05
  else
    let t1 := if t.active = 0 then { t with slotB := Cells.write t.slotB offset b } else { t with slotA := Cells.write t.slotA offset b }
    done ((s.updMgmt (fun m => { m with boot := t1 })).flashWrite .slots)

/-- Start of a trial (R468): the inactive slot verifies as in step 3 of R467. -/
def State.startTrial (s : State) (v : Nat) (c : SlotCheck) : State × BitVec 8 × Option DVal :=
  let t := s.mgmt.boot
  if v ≠ 1 then no s 0x05
  else if slotGood c t = false then no s 0x06
  else
    let t1 : Boot := { t with trial := 1, tries := 3, seq := t.seq + 1, failed := false, trialSvn := c.svn }
    let t2 := if t.active = 0 then { t1 with verB := c.version } else { t1 with verA := c.version }
    done ((s.updMgmt (fun m => { m with boot := t2.put })).flashWrite .slots)

/-- A warm reset on request (R521, R522, R529). -/
def State.requestWarm (s : State) : State × BitVec 8 × Option DVal :=
  if s.ledger.mode = 1 then no s 0x06 else done s.beforeReset.warmReset

/-- A cold reset on request (R521). -/
def State.requestCold (s : State) : State × BitVec 8 × Option DVal := done s.beforeReset.coldReset

/-- An orderly shutdown on request (R528). -/
def State.requestShutdown (s : State) : State × BitVec 8 × Option DVal :=
  if s.parts.any (fun x => decide (x.2.st ≠ .free)) then no s 0x06 else done s.shutDown

/-- Writes of 0xF000 (R471, R530). -/
def State.writeF000 (s : State) (sub : Nat) (v : DVal) : State × BitVec 8 × Option DVal :=
  let n := numOf v
  let b := bytesOf v
  match sub with
  | 0x06 => if b.length < 4 then no s 0x04 else s.putImage (natOfBytes (b.take 4)) (b.drop 4)
  | 0x07 =>
    s.freed.startTrial n
      { signatureOk := Config.checkOk s.free, keyOk := true, key := 0, digestOk := true, svn := partNum 0xF000 0x04 s.free
        version := BitVec.ofNat 32 (partNum 0xF000 0x02 s.free), digest := BitVec.ofNat 384 (partNum 0xF000 0x06 s.free) }
  | 0x12 =>
    if n = 1 then s.requestWarm else if n = 2 then s.requestCold else if n = 3 then s.requestShutdown else no s 0x05
  | _ => no s 0x03

/-- A request to drain (R387, R398). -/
def State.requestDrain (s : State) (n : Nat) : State × BitVec 8 × Option DVal := doneIf s (decide (n = 1)) (s.twilight 1)

/-- The Twilight flag is cleared at the next Dawn (R394). -/
def State.clearFlag (s : State) (n : Nat) : State × BitVec 8 × Option DVal :=
  doneIf s (decide (n = 1)) (s.updHealth (fun h => { h with clearing := true }))

/-- A flush on request (R506, R512). -/
def State.flushNow (s : State) (n : Nat) : State × BitVec 8 × Option DVal := doneIf s (decide (n = 1)) s.startFlush

/-! ## Trust anchors (R482, R483) -/

/-- Install of what the session holds, else of the installed values, into the selected anchor. -/
def State.installAnchor (s : State) (u : UoaSess) (v : Nat) (certOk : Bool) : State × BitVec 8 × Option DVal :=
  let k := selOf u 0xF020
  let old := SMap.get s.dict.anchors none k
  let role := u.holdRole.getD (match old with | some a => a.role | none => 0)
  let tenant := u.holdTen.getD (match old with | some a => a.tenant | none => 0)
  let cert := u.holdCert.getD (match old with | some a => a.cert | none => [])
  if v ≠ 1 then no s 0x05
  else if k = 0 then no s 0x06
  else if role = 4 ∧ u.role ≠ 4 then no s 0x02
  else if role = 0 ∨ certOk = false then no s 0x05
  else
    let a : Anchor := { role := role, tenant := if role = 2 then tenant else 0, cert := cert, digest := sha384 cert }
    let s1 := s.updDict (fun d => { d with anchors := SMap.set d.anchors none k (some a) })
    done ((s1.endUoa (fun x => decide (x.anchor.val = k))).event 0x0E 4 0 none role (match old with | some a => a.role | none => 0))

/-- The selected anchor is emptied, and its sessions end. -/
def State.removeAnchor (s : State) (u : UoaSess) (v : Nat) : State × BitVec 8 × Option DVal :=
  let k := selOf u 0xF020
  if v ≠ 1 then no s 0x05
  else if k = 0 then no s 0x06
  else
    let old := SMap.get s.dict.anchors none k
    let s1 := s.updDict (fun d => { d with anchors := SMap.set d.anchors none k none })
    done ((s1.endUoa (fun x => decide (x.anchor.val = k))).event 0x0E 4 0 none 0 (match old with | some a => a.role | none => 0))

/-- Writes of 0xF020 (R483). Role, tenant and certificate are held by the session until Install. -/
def State.writeF020 (s : State) (u : UoaSess) (sub offset : Nat) (v : DVal) : State × BitVec 8 × Option DVal :=
  let n := numOf v
  match sub with
  | 0x01 => s.select u 0xF020 n 16
  | 0x02 => doneIf s (decide (n ≤ 4)) (s.updUoa u.id (fun x => { x with holdRole := some n }))
  | 0x03 => done (s.updUoa u.id (fun x => { x with holdTen := some (BitVec.ofNat 32 n) }))
  | 0x04 =>
    if (u.holdCert.getD []).length < offset then no s 0x04
    else done (s.updUoa u.id (fun x => { x with holdCert := some (splice (x.holdCert.getD []) offset (bytesOf v)) }))
  | 0x06 => s.freed.installAnchor u n (Config.checkOk s.free)
  | 0x07 => s.removeAnchor u n
  | 0x0A => doneIf s (decide (30 ≤ n ∧ n ≤ 3600)) (s.updDict (fun d => { d with idle := BitVec.ofNat 32 n }))
  | _ => no s 0x03

/-! ## Any entry -/

/-- The effect of an accepted Write on an entry; a part of a BLOB of fixed length replaces that part of the value written last, or in
force (R486). -/
def State.dictWrite (s : State) (u : UoaSess) (index sub offset : Nat) (v : DVal) : State × BitVec 8 × Option DVal :=
  let k := selOf u index
  let held := bytesOf (match s.dictPending u index sub with | some (_, w) => w | none => s.dictRead u index sub)
  let w := if offset = 0 then v else match v with | .bytes b => .bytes (splice held offset b) | x => x
  let n := numOf v
  match baseIndex index with
  | 0x1100 => done (s.updDict (fun d => { d with wall := BitVec.ofNat 64 n }))
  | 0x2000 => s.write20 u (index - 0x2000) sub v
  | 0x2400 => s.write2400 u k sub v
  | 0x3001 => s.select u index n 32768
  | 0x3010 => s.select u index n 512
  | 0x3020 => s.select u index n 512
  | 0x3030 => s.select u index n 16
  | 0x3100 => s.write3100 u k sub v
  | 0x3200 => s.select u index n 32768
  | 0x3300 => s.select u index n 32768
  | 0x3400 => s.write3400 u sub v
  | 0x4000 => s.select u index n 128
  | 0x4100 => s.write4100 sub w
  | 0x4200 => s.write4200 u sub v
  | 0x5000 => plain (if sub = 0x0B then s.requestRemoval (index - 0x5000) n else s.relight (index - 0x5000) n)
  | 0x6000 => s.write6000 u k sub v
  | 0x6100 => s.write6100 sub v
  | 0x7000 => s.write7000 u k sub w
  | 0x7100 => s.write7100 u k sub w
  | 0x9000 => if sub = 0x05 then s.select u index n 18446744073709551616 else s.flushNow n
  | 0xF000 => s.writeF000 sub v
  | 0xF010 => if sub = 0x05 then s.requestDrain n else s.clearFlag n
  | 0xF020 => s.writeF020 u sub offset v
  | _ => no s 0x03

/-! ## Staged writes (R480) -/

/-- The stated frame of a Stage: of the item, or the value itself for a frame-valued entry. -/
def stageFrame (index sub frame n : Nat) : Nat :=
  if index = 0x6100 ∨ sub = 0x07 ∨ sub = 0x08 ∨ sub = 0x0A then n else frame

/-- The stated frame of the pending value of a staged entry. -/
def State.pendingAt (s : State) (index sub : Nat) : Option Nat :=
  let q := s.part (index - 0x2000)
  if index = 0x6100 then s.fu.returnF
  else match sub with
    | 0x07 => q.startF
    | 0x08 => q.closeF
    | 0x0A => q.switchF
    | 0x10 => q.resetF
    | _ => q.stRecipe.map (fun r => r.frame)

/-- The pending value of a staged entry replaced, or withdrawn. -/
def State.setPending (s : State) (index sub : Nat) (f : Option Nat) (value : Line) : State :=
  if index = 0x6100 then s.updFu (fun x => { x with returnF := f })
  else s.updPart (index - 0x2000) (fun q =>
    match sub with
    | 0x07 => { q with startF := f }
    | 0x08 => { q with closeF := f }
    | 0x0A => { q with switchF := f }
    | 0x10 => { q with resetF := f }
    | _ => { q with stRecipe := f.map (fun n => { value := value, frame := n }) })

/-- The recipe that a Stage at an offset makes of the pending one, or of the one in force (R486). -/
def State.stagedLine (s : State) (index offset : Nat) (v : DVal) : Line :=
  let q := s.part (index - 0x2000)
  let old := match q.stRecipe with | some r => r.value | none => q.recipeNow
  lineOfBytes (splice (bytesOfLine old) offset (bytesOf v))

/-- The effect of a Stage (R480). -/
def State.dictStage (s : State) (index sub frame offset : Nat) (v : DVal) : State × BitVec 8 × Option DVal :=
  let n := numOf v
  let f := stageFrame index sub frame n
  let own := decide (index = 0x6100 ∨ sub = 0x07 ∨ sub = 0x08 ∨ sub = 0x0A)
  if (s.pendingAt index sub).any (fun p => decide (p ≤ s.fu.frame)) then no s 0x08
  else if own = true ∧ frame ≠ 0 then no s 0x05
  else if f = ones64 then done (s.setPending index sub none 0)
  else if sub = 0x10 ∧ n ≠ 1 then no s 0x05
  else if f < s.fu.frame + 16 then no s 0x07
  else done (s.setPending index sub (some f) (s.stagedLine index offset v))

end Sys2Proof.Machine
end

