-- ==== Sys2Proof/Machine/UoaOps.lean ====
section
/-! DEFINITION. Urius Object Access: rights, items, change records, requests and replies (R476-R478, R484-R494). -/

namespace Sys2Proof.Machine

/-! ## Rights (R477, R478) -/

/-- Bit `n` of a set of roles. -/
def hasRole (roles n : Nat) : Bool := roles.testBit n

/-- A partition is a Tenant session's own. -/
def State.ownPart (s : State) (u : UoaSess) (p : Nat) : Bool := decide ((s.part p).tenant = u.tenant)

/-- The object of an entry is no other tenant's: always so for a role that is not Tenant, and for entries that belong to the device
(R478). -/
def State.owns (s : State) (u : UoaSess) (index sub : Nat) : Bool :=
  let k := selOf u index
  if u.role ≠ 2 then true
  else
    match baseIndex index with
    | 0x2000 => s.ownPart u (index - 0x2000)
    | 0x2400 => decide (sub ≤ 1) || (Tag.isPart (s.acct k).part && s.ownPart u (s.acct k).part.toNat)
    | 0x7100 => decide (sub ≤ 1 ∨ sub = 0x13) || (Tag.isPart (s.sess k).part && s.ownPart u (s.sess k).part.toNat)
    | _ => true

/-- A Tenant binds a Free session that no partition holds to a partition of its own (R352, R478). -/
def State.binds (s : State) (u : UoaSess) (index sub : Nat) (v : DVal) : Bool :=
  let x := s.sess (selOf u index)
  decide (index = 0x7100 ∧ sub = 0x03) && decide (x.st = .free) &&
    (decide (x.part = 0xFE) || s.ownPart u x.part.toNat) && (decide (numOf v = 0xFE) || s.ownPart u (numOf v))

/-- The session may write the entry with this value. -/
def State.mayWrite (s : State) (u : UoaSess) (e : Entry) (index sub : Nat) (v : DVal) : Bool :=
  hasRole e.roles u.role &&
    (if u.role = 2 ∧ index = 0x7100 ∧ sub = 0x03 then s.binds u index sub v
     else (e.selector && !decide (0x2000 ≤ index ∧ index < 0x2080)) || s.owns u index sub)

/-- The session may read the entry. -/
def State.mayRead (s : State) (u : UoaSess) (index sub : Nat) : Bool :=
  hasRole (readRoles index sub) u.role && s.owns u index sub

/-! ## Items (R473, R476, R487, R494) -/

/-- A Write or Stage item: `frame` is the stated frame of a Stage. -/
structure Item where
  index  : Nat
  sub    : Nat
  type   : Nat
  offset : Nat
  value  : DVal
  frame  : Option Nat
deriving DecidableEq, Repr

/-- A BLOB whose length its entry fixes (R486). -/
def fixedBlob (index sub : Nat) : Bool := !decide ((index = 0xF020 ∧ sub = 0x04) ∨ (index = 0xF000 ∧ sub = 0x06))

/-- Entries that may be written in Twilight and Dark (R494). -/
def darkWrite (e : Entry) (index sub : Nat) : Bool :=
  decide (e.apply = 3 ∨ (index = 0xF010 ∧ sub = 0x06) ∨ index = 0xF020)

/-- The checks that every item passes before its entry's own; status 0 where it passes (R473, R474, R477, R478, R487, R494). The order
of the checks is log entry 47. -/
def State.itemStatus (s : State) (u : UoaSess) (i : Item) (e : Entry) : BitVec 8 :=
  let staged := i.frame.isSome
  if staged = true ∧ e.access ≠ .rws then 0x03
  else if staged = false ∧ (e.access = .ro ∨ e.access = .rws) then 0x03
  else if s.mayWrite u e i.index i.sub i.value = false then 0x02
  else if e.fits i.type i.offset i.value (fixedBlob i.index i.sub) = false then 0x04
  else if s.health.st ≠ 0 ∧ darkWrite e i.index i.sub = false then 0x0B
  else if e.access = .wo ∧ s.dawn.step < unitStep i.index then 0x0A
  else if e.type.admits i.value = false then 0x05
  else 0

/-- CKIND of an item's record, by its outcome (R503). -/
def Item.ckind (i : Item) (status : BitVec 8) : Nat :=
  if status ≠ 0 then 5
  else match i.frame with
    | none => 0
    | some f => if stageFrame i.index i.sub f (numOf i.value) = ones64 then 2 else 1

/-- The change record of an item (R492, R503). -/
def State.changeRec (s : State) (m : UoaMsg) (u : UoaSess) (i : Item) (status : BitVec 8) : State :=
  let k := i.ckind status
  let p := Payload.change k (BitVec.ofNat 16 i.index) (BitVec.ofNat 8 i.sub) status u.role m.src.port.val u.tenant u.id m.src.addr
    (changeValue i.index i.sub i.type i.value)
  if k = 1 then
    (s.pushRec p true).pushRec (.cont (BitVec.ofNat 64 (stageFrame i.index i.sub (i.frame.getD 0) (numOf i.value)))) false
  else s.pushRec p false

/-- The recorder's buffer admits no change record of an item: fewer than 448 are to be pending, also when the continuation of a Stage
enters (R505). -/
def State.recorderFull (s : State) (i : Item) : Bool :=
  decide (448 ≤ s.recd.buffer.length + (if i.frame.isSome then 1 else 0))

/-- A kept entry's value that is held by the session until Install (R483). -/
def heldWrite (index sub : Nat) : Bool := decide (index = 0xF020 ∧ 2 ≤ sub ∧ sub ≤ 4)

/-- The store records a change of a kept entry, an installed anchor among them (R481). -/
def State.keep (s : State) (e : Entry) (i : Item) : State :=
  if (e.kept && !heldWrite i.index i.sub) || decide (i.index = 0xF020 ∧ (i.sub = 6 ∨ i.sub = 7)) then
    (s.updDict (fun d => { d with storeLen := d.storeLen + 1 })).flashWrite .store
  else s

/-- An item refused, with its record. A request to drain that R494 refuses is counted all the same (R395). -/
def State.refuseItem (s : State) (m : UoaMsg) (u : UoaSess) (i : Item) (status : BitVec 8) : State :=
  let s1 := s.changeRec m u i status
  if i.index = 0xF010 ∧ i.sub = 0x05 ∧ status = 0x0B then s1.twilight 1 else s1

/-- One Write or Stage item (R491, R492): refused with a status, or recorded and done. Nothing of a refused item takes effect. -/
def State.tryItem (s : State) (m : UoaMsg) (u : UoaSess) (i : Item) (eff : Effect) : State × UItem :=
  let reply := fun (st : BitVec 8) (v : Option DVal) =>
    ({ index := BitVec.ofNat 16 i.index, sub := BitVec.ofNat 8 i.sub, status := st, value := v, pending := none, desc := [] } : UItem)
  if s.firmware = false then (s, reply 0x0A none)
  else if s.recorderFull i then (s.updRec (fun r => { r with busy := bump32 r.busy }), reply 0x09 none)
  else
    match findEntry i.index i.sub with
    | none =>
      let st : BitVec 8 := if s.power.failed then 0x09 else 0x01
      (s.refuseItem m u i st, reply st none)
    | some e =>
      let pre := s.itemStatus u i e
      let st := if s.power.failed then 0x09 else if pre ≠ 0 then pre else (eff s).2.1
      if st ≠ 0 then (s.refuseItem m u i st, reply st none)
      else
        let r := eff (s.changeRec m u i 0)
        (r.1.keep e i, reply 0 r.2.2)

/-- The effect of an item on its entry. The session is taken as the items before it left it: selectors and held values (R59, R491). -/
def Item.effect (u : UoaSess) (i : Item) : Effect := fun s =>
  match i.frame with
  | none => s.dictWrite ((s.uoaSess u.id).getD u) i.index i.sub i.offset i.value
  | some f => s.dictStage i.index i.sub f i.offset i.value

/-- Items of one request in order, each on its own (R491). -/
def State.runItems (s : State) (m : UoaMsg) (u : UoaSess) : List Item → State × List UItem
  | [] => (s, [])
  | i :: t =>
    let v := (s.uoaSess u.id).getD u
    let (s1, r) := s.tryItem m v i (i.effect v)
    let (s2, rs) := s1.runItems m u t
    (s2, r :: rs)

/-- A Write item. -/
def writeItemOf (w : WriteItem) : Item :=
  { index := w.index.toNat, sub := w.sub.toNat, type := w.type.toNat, offset := w.offset.toNat, value := w.value, frame := none }

/-- A Stage item. -/
def stageItemOf (w : StageItem) : Item :=
  { index := w.index.toNat, sub := w.sub.toNat, type := w.type.toNat, offset := w.offset.toNat, value := w.value
    frame := some w.frame.toNat }

/-! ## Reads -/

/-- A value from an offset, at most a length of it and 4,096 bytes in an item (R474, R486). -/
def cutVal (v : DVal) (offset maxlen : Nat) : DVal :=
  match v with
  | .bytes b => .bytes ((b.drop offset).take (min maxlen 4096))
  | x => x

/-- A fresh wrapping key for this session, read from 0x20pp/0x80 (R465): the Vault draws it, in place of the session's earlier one. -/
def State.wrappingKey (s : State) (u : UoaSess) (p : Nat) : State × DVal :=
  let d := s.mgmt.draws
  (({ s with mgmt := { s.mgmt with draws := d + 1 } }).updPart p (fun q => { q with
      wrapKeys := q.wrapKeys.filter (fun (k : BitVec 32 × Nat × Nat) => decide (k.1 ≠ u.id)) ++ [(u.id, d, s.now s.fu.cycle)] }),
    partBytes 0x2000 0x80 d 97)

/-- The status of a Read item (R476, R477, R478, R487). -/
def State.readStatus (s : State) (u : UoaSess) (index sub offset maxlen : Nat) (e : Entry) : BitVec 8 :=
  if e.access = .wo then 0x03
  else if s.mayRead u index sub = false then 0x02
  else if e.type.scalar = true ∧ (offset ≠ 0 ∨ maxlen < e.len) then 0x04
  else if s.dawn.step < unitStep index then 0x0A
  else if baseIndex index = 0x2000 ∧ sub = 0x80 ∧ s.mgmt.entropy = false then 0x06
  else 0

/-- One Read item (R476, R488). -/
def State.readItem (s : State) (u : UoaSess) (r : ReadItem) : State × UItem :=
  let index := r.index.toNat
  let sub := r.sub.toNat
  let cut := fun v => cutVal v r.offset.toNat r.maxlen.toNat
  let reply := fun (st : BitVec 8) (v : Option DVal) (p : Option (BitVec 64 × DVal)) =>
    ({ index := r.index, sub := r.sub, status := st, value := v, pending := p, desc := [] } : UItem)
  match findEntry index sub with
  | none => (s, reply 0x01 none none)
  | some e =>
    let st := s.readStatus u index sub r.offset.toNat r.maxlen.toNat e
    if st ≠ 0 then (s, reply st none none)
    else if baseIndex index = 0x2000 ∧ sub = 0x80 then
      let (s1, v) := s.wrappingKey u (index - 0x2000)
      (s1, reply 0 (some (cut v)) none)
    else (s, reply 0 (some (cut (s.dictRead u index sub))) ((s.dictPending u index sub).map (fun p => (p.1, cut p.2))))

/-- Read items one after another (R476). -/
def State.readItems (s : State) (u : UoaSess) : List ReadItem → State × List UItem
  | [] => (s, [])
  | i :: t =>
    let (s1, r) := s.readItem u i
    let (s2, rs) := s1.readItems u t
    (s2, r :: rs)

/-- A Describe item (R486): type, access, apply code, read and write roles, flags, greatest length. -/
def describeItem (r : ReadItem) : UItem :=
  let index := r.index.toNat
  let sub := r.sub.toNat
  match findEntry index sub with
  | none => { index := r.index, sub := r.sub, status := 0x01, value := none, pending := none, desc := [] }
  | some e =>
    { index := r.index, sub := r.sub, status := 0, value := none, pending := none
      desc := [e.type.code, e.access.code, e.apply, readRoles index sub, e.roles, e.kept.toNat + 2 * (secretEntry index sub).toNat,
        e.len] }

/-! ## What goes on the wire (R11, R474, R484-R486, R489) -/

/-- The header of a message (R485). -/
def uoaBits (vmajor vminor : BitVec 4) (gen : BitVec 2) (type : BitVec 6) (length : BitVec 16) (session : BitVec 32) (seq : BitVec 64)
    (status count : BitVec 16) (reqseq : BitVec 64) (rsvd : BitVec 32) : BitVec 256 :=
  vmajor ++ vminor ++ gen ++ type ++ length ++ session ++ seq ++ status ++ count ++ reqseq ++ rsvd

/-- The header bytes of a message that arrives, most significant byte first (R11, R485). -/
def uoaHeader (m : UoaMsg) : List Byte :=
  beBytes 32 (uoaBits m.vmajor m.vminor m.gen m.type m.length m.session m.seq m.status m.count m.reqseq m.rsvd).toNat

/-- The three keys of a session, 128 bytes: the client's and the device's HMAC key, the value key (R489). -/
def UoaSess.keys (u : UoaSess) : List Byte :=
  deriveKeys (digestBytes (Config.ecdh u.draw u.key)) (beBytes 32 u.nonce.toNat ++ beBytes 32 (Config.nonce u.draw).toNat)
    ([0x55, 0x4F, 0x41] ++ beBytes 4 u.id.toNat)

/-- A value of item `k` of a message as bytes; a secret one is encrypted under the value key (R474, R489). -/
def UItem.valueBytes (i : UItem) (keys : List Byte) (seq : BitVec 64) (k : Nat) (v : DVal) : List Byte :=
  let type := match findEntry i.index.toNat i.sub.toNat with | some e => e.type.code | none => 0
  let b := wireBytes type v
  if secretEntry i.index.toNat i.sub.toNat then b.zipIdx.map (fun x => x.1 ^^^ Config.valueStream (keys.drop 96) seq k x.2) else b

/-- A length of two bytes and the bytes. -/
def withLength (b : List Byte) : List Byte := beBytes 2 b.length ++ b

/-- Item `k` of a reply as bytes (R486). -/
def UItem.bytes (i : UItem) (type : Nat) (keys : List Byte) (seq : BitVec 64) (k : Nat) : List Byte :=
  let head := beBytes 2 i.index.toNat ++ beBytes 1 i.sub.toNat ++ beBytes 1 i.status.toNat
  let code := match findEntry i.index.toNat i.sub.toNat with | some e => e.type.code | none => 0
  let val := match i.value with | some v => i.valueBytes keys seq k v | none => []
  match type with
  | 0x02 => val
  | 0x04 => beBytes 1 (i.desc.getD 0 0) ++ beBytes 4 (i.desc.getD 1 0) ++ beBytes 4 (i.desc.getD 2 0)
  | 0x11 =>
    head ++ beBytes 1 code ++ beBytes 1 (if i.pending.isSome then 1 else 0) ++ withLength val ++
      (match i.pending with | some (f, v) => beBytes 8 f.toNat ++ withLength (i.valueBytes keys seq k v) | none => [])
  | 0x17 => head ++ ((List.range 6).map (fun n => BitVec.ofNat 8 (i.desc.getD n 0))) ++ beBytes 2 (i.desc.getD 6 0)
  | _ => head ++ withLength val

/-- The body of a reply (R486). -/
def UReply.body (r : UReply) (keys : List Byte) : List Byte :=
  (r.items.zipIdx.map (fun i => i.1.bytes r.type.toNat keys r.seq i.2)).flatten

/-- COUNT of a reply: the items of a Read, Write, Stage or Describe reply (R485). -/
def UReply.count (r : UReply) : Nat := if r.type.toNat < 0x10 then 0 else r.items.length

/-- A reply as it goes on the wire: header, body, and but for a Hello reply its tag under the device's HMAC key (R484, R485). -/
def UReply.wire (r : UReply) (keys : List Byte) : List Byte :=
  let body := r.body keys
  let msg := beBytes 32 (uoaBits 1 0 0 r.type (BitVec.ofNat 16 body.length) r.session r.seq r.status (BitVec.ofNat 16 r.count) r.reqseq 0).toNat ++ body
  if r.type = 0x02 then msg else msg ++ digestBytes (macOf ((keys.drop 48).take 48) msg)

/-! ## Requests (R484, R485, R490) -/

/-- A UOA message reaches firmware: it runs, and the port of arrival is the management port, or a host port that is up, from the end of step
6 on or under a Twilight flag (R347, R394, R484, R514). The management port still answers after an orderly shutdown (R528, log entry
107). -/
def State.uoaReaches (s : State) (m : UoaMsg) : Bool :=
  (s.firmware && ((decide (6 ≤ s.dawn.step ∨ s.health.st = 4) && (s.port m.src.port.val).up) || decide (m.src.port.val = 4))) ||
    (decide (m.src.port.val = 4 ∧ s.dawn.shutdown ≠ 0) && s.housekeeping)

/-- A message dropped without a reply, and counted (R490). -/
def State.uoaDrop (s : State) : State := s.updDict (fun d => { d with authDrops := d.authDrops + 1 })

/-- A SEQ that is new: not seen, and higher than the highest seen less 16 (R490). -/
def UoaSess.fresh (u : UoaSess) (seq : BitVec 64) : Bool :=
  decide (u.high.toNat < seq.toNat + 16) && u.recent.all (fun r => decide (r.1 ≠ seq))

/-- The reply that answers a repeated message: one of the 16 most recent SEQs with the same tag (R490). -/
def UoaSess.cached (u : UoaSess) (seq : BitVec 64) (tag : BitVec 384) : Option (BitVec 64) :=
  ((u.recent.take 16).find? (fun r => decide (r.1 = seq ∧ r.2.1 = tag))).map (fun r => r.2.2)

/-- A message is remembered with the number of its reply: the 16 most recent, and every one that a new SEQ must still differ from. -/
def UoaSess.seen (u : UoaSess) (seq : BitVec 64) (tag : BitVec 384) : UoaSess :=
  let high := if u.high < seq then seq else u.high
  let l := (seq, tag, u.txSeq) :: u.recent
  { u with
    high := high, txSeq := u.txSeq + 1
    recent := l.take 16 ++ (l.drop 16).filter (fun r => decide (high.toNat < r.1.toNat + 16)) }

/-- A reply sent again. -/
def State.resendReply (s : State) (id : BitVec 32) (seq : BitVec 64) : State :=
  match s.dict.out.find? (fun r => decide (r.session = id ∧ r.seq = seq)) with
  | some r => s.updDict (fun d => { d with out := d.out ++ [r] })
  | none => s

/-- A reply in a session, which remembers the request (R485, R490). -/
def State.reply (s : State) (m : UoaMsg) (u : UoaSess) (type : Nat) (status : BitVec 16) (items : List UItem) : State :=
  let r : UReply := { session := u.id, type := BitVec.ofNat 6 type, seq := u.txSeq, reqseq := m.seq, status := status, items := items }
  (s.updDict (fun d => { d with out := d.out ++ [r] })).updUoa u.id (fun x => x.seen m.seq m.tag)

/-- A request in an established session: dropped, answered again, malformed, or run (R485, R487, R490). `type` is the code its body
belongs to, `len` the length of the body, `rsvd` whether its reserved bits are zero. -/
def State.uoaRequest (s : State) (m : UoaMsg) (type len count : Nat) (rsvd : Bool) (run : UoaSess → State → State × List UItem) :
    State :=
  if s.uoaReaches m = false then s
  else if m.upset then s.vaultFault 0xFF
  else
    match s.uoaSess m.session with
    | none => s.uoaDrop
    | some u =>
      if m.tagOk = false ∨ u.done = false then s.uoaDrop
      else if u.fresh m.seq then
        if m.vmajor ≠ 1 then s.reply m u (type + 1) 0x0002 []
        else if m.gen ≠ 0 ∨ m.rsvd ≠ 0 ∨ m.type.toNat ≠ type ∨ m.length.toNat ≠ len ∨ 4576 < m.length.toNat ∨
            m.count.toNat ≠ count ∨ 32 < count ∨ rsvd = false then
          s.reply m u (type + 1) 0x0001 []
        else
          let (s1, items) := run u s
          s1.reply m u (type + 1) 0 items
      else
        match u.cached m.seq m.tag with
        | some r => s.resendReply u.id r
        | none => s.uoaDrop

/-- A Write request of one item whose effect the caller gives (R486, R491). -/
def State.writeOne (s : State) (m : UoaMsg) (index sub : Nat) (value : DVal) (eff : UoaSess → Effect) : State :=
  let type := match findEntry index sub with | some e => e.type.code | none => 0
  let i : Item := { index := index, sub := sub, type := type, offset := 0, value := value, frame := none }
  s.uoaRequest m 0x12 (10 + valueBytes type value) 1 true (fun u t =>
    let (t1, r) := t.tryItem m u i (eff u)
    (t1, [r]))

/-- A Write request of one item with its entry's own effect. -/
def State.writeOwn (s : State) (m : UoaMsg) (index sub : Nat) (value : DVal) : State :=
  s.writeOne m index sub value (fun u t => t.dictWrite u index sub 0 value)

end Sys2Proof.Machine
end

