-- ==== Sys2Proof/Machine/Uoa.lean ====
section
/-! DEFINITION. The commands that come over Urius Object Access: the handshake, Read, Write, Stage, Describe and Close, and the writes
that are steps of their own (R465, R468, R482-R494 and the rules of each entry). -/

namespace Sys2Proof.Machine

/-! ## Handshake (R487, R489) -/

/-- A reply to a Hello, which no session carries yet. -/
def State.helloReply (s : State) (id : BitVec 32) (status : BitVec 16) (nonce : Option DVal) : State :=
  let items : List UItem := match nonce with
    | some v => [{ index := 0, sub := 0, status := 0, value := some v, pending := none, desc := [] }]
    | none => []
  s.updDict (fun d => { d with out := d.out ++
    [{ session := id, type := 0x02, seq := 0, reqseq := 0, status := status, items := items }] })

/-- A handshake that fails is counted. -/
def State.hsFail (s : State) : State := s.updDict (fun d => { d with hsFails := d.hsFails + 1 })

/-- Hello messages of an address in a second, this one not counted. -/
def Dict.hellosOf (d : Dict) (addr : BitVec 128) (second : Nat) : Nat :=
  ((d.hellos.filter (fun h => decide (h.1 = addr ∧ h.2.1 = second))).map (fun h => h.2.2)).sum

/-- A Hello counted; only the present second is kept. -/
def Dict.countHello (d : Dict) (addr : BitVec 128) (second : Nat) : Dict :=
  { d with hellos := (addr, second, d.hellosOf addr second + 1) ::
      d.hellos.filter (fun h => decide (h.2.1 = second ∧ h.1 ≠ addr)) }

/-- The anchor that a Hello's chain reaches, if the handshake goes on (R483): dates count once the device has been told the time. -/
def State.helloAnchor (s : State) (c : ChainCheck) : Option (Fin 16 × Anchor) :=
  match c.anchor with
  | none => none
  | some k =>
    match SMap.get s.dict.anchors none k.val with
    | none => none
    | some a => if c.datesOk = true ∨ s.dict.wall = 0 then some (k, a) else none

/-- The body of a Hello reply: nonce, ephemeral key, identity chain, signature (R486, R489). -/
def helloBody (draw : Nat) (client : BitVec 256) : List Byte :=
  beBytes 32 (Config.nonce draw).toNat ++ beBytes 97 (Config.ephemeral draw).toNat ++ beBytes 2 Config.chain.length ++ Config.chain ++
    beBytes 96 (Config.helloSign draw client).toNat

/-- UOA_HELLO (R483, R484, R487, R489). -/
def execUoaHello (m : UoaMsg) (nonce : BitVec 256) (key : BitVec 776) (chain : ChainCheck) (second : Nat) (s : State) : Host.Outcome State Fault Refusal :=
  if s.uoaReaches m = false then .next s
  else if m.upset then .next (s.vaultFault 0xFF)
  else if 8 ≤ s.dict.hellosOf m.src.addr second then .next s.hsFail
  else
    let s1 := s.updDict (fun d => d.countHello m.src.addr second)
    if m.vmajor ≠ 1 then .next (s1.helloReply 0 0x0002 none)
    else if m.gen ≠ 0 ∨ m.rsvd ≠ 0 ∨ m.type ≠ 0x01 ∨ 4576 < m.length.toNat ∨ m.length.toNat < 131 ∨ m.count ≠ 0
        then .next (s1.helloReply 0 0x0001 none)
    else
      match s1.helloAnchor chain with
      | none => .next (s1.hsFail.helloReply 0 0x0004 none)
      | some (k, a) =>
        if s1.mgmt.entropy = false then .next (s1.hsFail.helloReply 0 0x0004 none)
        else if 32 ≤ s1.dict.sessions.length then .next (s1.helloReply 0 0x0003 none)
        else
          let id := s1.dict.nextId
          let d := s1.mgmt.draws
          let u : UoaSess :=
            { id := id, anchor := k, role := a.role, tenant := a.tenant, done := false, src := m.src, nonce := nonce, key := key,
                draw := d, high := 0, recent := []
              txSeq := 1, sel := [], holdRole := none, holdTen := none, holdCert := none }
          let s2 : State := { s1 with
            mgmt := { s1.mgmt with draws := d + 2 }
            dict := { s1.dict with sessions := s1.dict.sessions ++ [u], nextId := if id + 1 = 0 then 1 else id + 1 } }
          .next (s2.helloReply id 0 (some (.bytes (helloBody d nonce))))

/-- UOA_FINISH (R484, R486, R487, R489): SEQ 1 under the new key; a signature that fails ends the session. -/
def execUoaFinish (m : UoaMsg) (sigOk : Bool) (s : State) : Host.Outcome State Fault Refusal :=
  if s.uoaReaches m = false then .next s
  else if m.upset then .next (s.vaultFault 0xFF)
  else
    match s.uoaSess m.session with
    | none => .next s.uoaDrop
    | some u =>
      if m.tagOk = false then .next s.uoaDrop
      else if u.fresh m.seq = false then
        match u.cached m.seq m.tag with
        | some r => .next (s.resendReply u.id r)
        | none => .next s.uoaDrop
      else if u.done = false ∧ m.seq ≠ 1 then .next s.uoaDrop
      else if m.vmajor ≠ 1 then .next (s.reply m u 0x04 0x0002 [])
      else if u.done = true ∨ m.gen ≠ 0 ∨ m.rsvd ≠ 0 ∨ m.type ≠ 0x03 ∨ m.length ≠ 96 ∨ m.count ≠ 0 then .next (s.reply m u 0x04 0x0001 [])
      else if sigOk = false then .next ((s.hsFail.reply m u 0x04 0x0004 []).endUoa (fun x => decide (x.id = u.id)))
      else
        let body : UItem :=
          { index := 0, sub := 0, status := 0, value := none, pending := none, desc := [u.role, u.tenant.toNat, s.dict.idle.toNat] }
        .next ((s.reply m u 0x04 0 [body]).updUoa u.id (fun x => { x with done := true }))

/-! ## Requests -/

/-- UOA_READ (R476, R486, R488). -/
def execUoaRead (m : UoaMsg) (items : List ReadItem) (s : State) : Host.Outcome State Fault Refusal :=
  .next (s.uoaRequest m 0x10 (10 * items.length) items.length (items.all (fun i => decide (i.rsvd = 0)))
    (fun u t => t.readItems u items))

/-- Bytes of Write items. -/
def writeBytes (items : List WriteItem) : Nat := (items.map (fun i => 10 + valueBytes i.type.toNat i.value)).sum

/-- UOA_WRITE (R479, R491, R492, R494). -/
def execUoaWrite (m : UoaMsg) (items : List WriteItem) (s : State) : Host.Outcome State Fault Refusal :=
  .next (s.uoaRequest m 0x12 (writeBytes items) items.length true (fun u t => t.runItems m u (items.map writeItemOf)))

/-- Bytes of Stage items. -/
def stageBytes (items : List StageItem) : Nat := (items.map (fun i => 18 + valueBytes i.type.toNat i.value)).sum

/-- UOA_STAGE (R480, R491, R492, R494). -/
def execUoaStage (m : UoaMsg) (items : List StageItem) (s : State) : Host.Outcome State Fault Refusal :=
  .next (s.uoaRequest m 0x14 (stageBytes items) items.length true (fun u t => t.runItems m u (items.map stageItemOf)))

/-- UOA_DESCRIBE (R486). -/
def execUoaDescribe (m : UoaMsg) (items : List ReadItem) (s : State) : Host.Outcome State Fault Refusal :=
  .next (s.uoaRequest m 0x16 (4 * items.length) items.length (items.all (fun i => decide (i.rsvd = 0)))
    (fun _ t => (t, items.map describeItem)))

/-- UOA_CLOSE (R484, R486): answered, then the session ends. A repeated or malformed Close ends nothing. -/
def execUoaClose (m : UoaMsg) (s : State) : Host.Outcome State Fault Refusal :=
  .next (s.uoaRequest m 0x1E 0 0 true (fun u t => (t.endUoa (fun x => decide (x.id = u.id)), [])))

/-- UOA_IDLE_TIMEOUT (R484). -/
def execUoaIdleTimeout (session : BitVec 32) (s : State) : Host.Outcome State Fault Refusal :=
  if s.firmware = false then .next s else .next (s.endUoa (fun x => decide (x.id = session)))

/-! ## Calibration -/

/-- REQUEST_FULL_CALIBRATION (R106, R114): 1 to 0x3100/0x03. -/
def execRequestFullCalibration (m : UoaMsg) (value : DVal) (s : State) : Host.Outcome State Fault Refusal :=
  .next (s.writeOwn m 0x3100 0x03 value)

/-- USER_CALIBRATION_POINT (R107, R114): a point to 0x3100/0x06. -/
def execUserCalibrationPoint (m : UoaMsg) (value : DVal) (s : State) : Host.Outcome State Fault Refusal :=
  .next (s.writeOwn m 0x3100 0x06 value)

/-- NEW_SWEEP (R108, R114): 1 to 0x3100/0x10. -/
def execNewSweep (m : UoaMsg) (value : DVal) (s : State) : Host.Outcome State Fault Refusal :=
  .next (s.writeOwn m 0x3100 0x10 value)

/-! ## Partitions -/

/-- PARTITION_LOAD (R176, R246): the Operator writes the tenant of a Free partition and its image (log entry 48). -/
def execPartitionLoad (m : UoaMsg) (part : PartNo) (tenant : BitVec 32) (img : Image) (s : State) :
    Host.Outcome State Fault Refusal :=
  .next (s.writeOne m (partIndex part.toNat) 0x02 (.num tenant.toNat) (fun _ t =>
    if t.mgmt.entropy = false then no t 0x06 else plain (t.tryLoad part.toNat tenant img)))

/-- REPLACEMENT (R268): 1 to 0x20pp/0x0B. -/
def execReplacement (m : UoaMsg) (part : PartNo) (value : DVal) (s : State) : Host.Outcome State Fault Refusal :=
  .next (s.writeOwn m (partIndex part.toNat) 0x0B value)

/-- WRAPPING_KEY (R465, R472): a read of 0x20pp/0x80. -/
def execWrappingKey (m : UoaMsg) (part : PartNo) (s : State) : Host.Outcome State Fault Refusal :=
  .next (s.uoaRequest m 0x10 10 1 true (fun u t =>
    t.readItems u [{ index := BitVec.ofNat 16 (partIndex part.toNat), sub := 0x80, rsvd := 0, offset := 0, maxlen := 97 }]))

/-- PARKING_KEY_INSTALL (R465, R472): a write of 0x20pp/0x81. The bytes that are ciphertext, nonce, tag and public key are open to
the model: they stand in the record as the Vault's unknown (log entry 20). -/
def execParkingKeyInstall (m : UoaMsg) (part : PartNo) (keyid : BitVec 32) (length : Nat) (tagOk : Bool) (age : Nat) (s : State) :
    Host.Outcome State Fault Refusal :=
  let value := (List.range length).map (fun k =>
    if 97 ≤ k ∧ k < 101 then (bytesOfNat 4 keyid.toNat).getD (k - 97) 0 else Config.sealedByte s.free k)
  .next (s.freed.writeOne m (partIndex part.toNat) 0x81 (.bytes value) (fun u t => t.installKey u part.toNat value tagOk age))

/-! ## Twilight and Daylight -/

/-- REQUEST_DRAIN (R387, R395, R398): 1 to 0xF010/0x05. -/
def execRequestDrain (m : UoaMsg) (value : DVal) (s : State) : Host.Outcome State Fault Refusal :=
  .next (s.writeOwn m 0xF010 0x05 value)

/-- CLEAR_FLAG (R394, R398): 1 to 0xF010/0x06. -/
def execClearFlag (m : UoaMsg) (value : DVal) (s : State) : Host.Outcome State Fault Refusal :=
  .next (s.writeOwn m 0xF010 0x06 value)

/-- REMOVAL_REQUEST (R410, R412): 1 to 0x50mm/0x0B. -/
def execRemovalRequest (m : UoaMsg) (mm : ModuleNo) (value : DVal) (s : State) : Host.Outcome State Fault Refusal :=
  .next (s.writeOwn m (0x5000 + mm.val) 0x0B value)

/-- RELIGHT (R408, R412): 1 to 0x50mm/0x0C. -/
def execRelight (m : UoaMsg) (mm : ModuleNo) (value : DVal) (s : State) : Host.Outcome State Fault Refusal :=
  .next (s.writeOwn m (0x5000 + mm.val) 0x0C value)

/-! ## Teller sessions -/

/-- SESSION_OPEN (R350, R352, R366): 1 to 0x7100/0x04. -/
def execSessionOpen (m : UoaMsg) (value : DVal) (s : State) : Host.Outcome State Fault Refusal :=
  .next (s.writeOwn m 0x7100 0x04 value)

/-- SESSION_REOPEN (R350, R366): 1 to 0x7100/0x05. -/
def execSessionReopen (m : UoaMsg) (value : DVal) (s : State) : Host.Outcome State Fault Refusal :=
  .next (s.writeOwn m 0x7100 0x05 value)

/-- SESSION_CLOSE (R350, R353): 1 to 0x7100/0x06. -/
def execSessionClose (m : UoaMsg) (value : DVal) (s : State) : Host.Outcome State Fault Refusal :=
  .next (s.writeOwn m 0x7100 0x06 value)

/-- CONNECT (R351, R364): 1 to 0x7100/0x0D. -/
def execConnect (m : UoaMsg) (value : DVal) (s : State) : Host.Outcome State Fault Refusal :=
  .next (s.writeOwn m 0x7100 0x0D value)

/-! ## Firmware update, anchors -/

/-- IMAGE_TRANSFER (R468): an offset and up to 4,096 bytes to 0xF000/0x06. -/
def execImageTransfer (m : UoaMsg) (offset : BitVec 32) (data : List Byte) (s : State) : Host.Outcome State Fault Refusal :=
  .next (s.writeOne m 0xF000 0x06 (.bytes (bytesOfNat 4 offset.toNat ++ data)) (fun _ t => t.putImage offset.toNat data))

/-- START_TRIAL (R467, R468): 1 to 0xF000/0x07; the slot's check comes with it. -/
def execStartTrial (m : UoaMsg) (value : DVal) (check : SlotCheck) (s : State) : Host.Outcome State Fault Refusal :=
  .next (s.writeOne m 0xF000 0x07 value (fun _ t => t.startTrial (numOf value) check))

/-- ANCHOR_INSTALL (R482, R483): 1 to 0xF020/0x06; the certificate's check comes with it. -/
def execAnchorInstall (m : UoaMsg) (value : DVal) (certOk : Bool) (s : State) : Host.Outcome State Fault Refusal :=
  .next (s.writeOne m 0xF020 0x06 value (fun u t => t.installAnchor u (numOf value) certOk))

/-- ANCHOR_REMOVE (R482, R483): 1 to 0xF020/0x07. -/
def execAnchorRemove (m : UoaMsg) (value : DVal) (s : State) : Host.Outcome State Fault Refusal :=
  .next (s.writeOwn m 0xF020 0x07 value)

/-! ## Recorder and resets -/

/-- FLUSH_NOW (R506, R512): 1 to 0x9000/0x09. -/
def execFlushNow (m : UoaMsg) (value : DVal) (s : State) : Host.Outcome State Fault Refusal :=
  .next (s.writeOwn m 0x9000 0x09 value)

/-- WARM_RESET_REQUEST (R521, R522): 1 to 0xF000/0x12. -/
def execWarmResetRequest (m : UoaMsg) (value : DVal) (s : State) : Host.Outcome State Fault Refusal :=
  .next (s.writeOne m 0xF000 0x12 value (fun u t =>
    if numOf value = 1 then t.requestWarm else t.dictWrite u 0xF000 0x12 0 value))

/-- COLD_RESET_REQUEST (R521): 2 to 0xF000/0x12. -/
def execColdResetRequest (m : UoaMsg) (value : DVal) (s : State) : Host.Outcome State Fault Refusal :=
  .next (s.writeOne m 0xF000 0x12 value (fun u t =>
    if numOf value = 2 then t.requestCold else t.dictWrite u 0xF000 0x12 0 value))

/-- ORDERLY_SHUTDOWN (R528): 3 to 0xF000/0x12. -/
def execOrderlyShutdown (m : UoaMsg) (value : DVal) (s : State) : Host.Outcome State Fault Refusal :=
  .next (s.writeOne m 0xF000 0x12 value (fun u t =>
    if numOf value = 3 then t.requestShutdown else t.dictWrite u 0xF000 0x12 0 value))

/-- LINK_RESET (R524): 1 to 0x6000/0x0F. -/
def execLinkReset (m : UoaMsg) (value : DVal) (s : State) : Host.Outcome State Fault Refusal :=
  .next (s.writeOwn m 0x6000 0x0F value)

end Sys2Proof.Machine
end

