-- ==== Sys2Proof/Machine/Dispatch.lean ====
section
/-! DEFINITION. The meaning of a command: one arm for each row of the opcode table. -/

namespace Sys2Proof.Machine

/-- The effect of a command on everything but the queue. -/
def exec (i : Instr) (s : State) : Host.Outcome State Fault Refusal :=
  match i with
  | .fire iss bank array mode rge reg acc rsvd => Sys2Proof.Machine.execFire iss bank array mode rge reg acc rsvd s
  | .cal iss bank array rsvd => Sys2Proof.Machine.execCal iss bank array rsvd s
  | .tfire iss half dir infmt treg acc feedbuf rsvd => Sys2Proof.Machine.execTfire iss half dir infmt treg acc feedbuf rsvd s
  | .xfer iss src bank reg shift line rsvd => Sys2Proof.Machine.execXfer iss src bank reg shift line rsvd s
  | .feed iss line seg mreg rsvd errs => Sys2Proof.Machine.execFeed iss line seg mreg rsvd errs s
  | .tload iss half wfmt block rsvd errs => Sys2Proof.Machine.execTload iss half wfmt block rsvd errs s
  | .fadd iss v => Sys2Proof.Machine.execFadd iss v s
  | .fsub iss v => Sys2Proof.Machine.execFsub iss v s
  | .fmul iss v => Sys2Proof.Machine.execFmul iss v s
  | .ffma iss v => Sys2Proof.Machine.execFfma iss v s
  | .fmin iss v => Sys2Proof.Machine.execFmin iss v s
  | .fmax iss v => Sys2Proof.Machine.execFmax iss v s
  | .fcmp iss v => Sys2Proof.Machine.execFcmp iss v s
  | .fsel iss v => Sys2Proof.Machine.execFsel iss v s
  | .badd iss v => Sys2Proof.Machine.execBadd iss v s
  | .bmul iss v => Sys2Proof.Machine.execBmul iss v s
  | .bfma iss v => Sys2Proof.Machine.execBfma iss v s
  | .cvt iss v => Sys2Proof.Machine.execCvt iss v s
  | .imac8 iss v => Sys2Proof.Machine.execImac8 iss v s
  | .pacc iss v => Sys2Proof.Machine.execPacc iss v s
  | .lcvt iss v => Sys2Proof.Machine.execLcvt iss v s
  | .iadd32 iss v => Sys2Proof.Machine.execIadd32 iss v s
  | .fexp iss v => Sys2Proof.Machine.execFexp iss v s
  | .flog iss v => Sys2Proof.Machine.execFlog iss v s
  | .frcp iss v => Sys2Proof.Machine.execFrcp iss v s
  | .frsq iss v => Sys2Proof.Machine.execFrsq iss v s
  | .fsig iss v => Sys2Proof.Machine.execFsig iss v s
  | .ferf iss v => Sys2Proof.Machine.execFerf iss v s
  | .qcfg iss fmt glog sr floor cap laneline lanes rsvd => Sys2Proof.Machine.execQcfg iss fmt glog sr floor cap laneline lanes rsvd s
  | .quant iss v => Sys2Proof.Machine.execQuant iss v s
  | .lanef iss v => Sys2Proof.Machine.execLanef iss v s
  | .strm iss v => Sys2Proof.Machine.execStrm iss v s
  | .deq iss v => Sys2Proof.Machine.execDeq iss v s
  | .mxin iss v => Sys2Proof.Machine.execMxin iss v s
  | .mxout iss v => Sys2Proof.Machine.execMxout iss v s
  | .rsum iss v => Sys2Proof.Machine.execRsum iss v s
  | .rmax iss v => Sys2Proof.Machine.execRmax iss v s
  | .ldl iss v => Sys2Proof.Machine.execLdl iss v s
  | .stl iss v => Sys2Proof.Machine.execStl iss v s
  | .ldw iss v => Sys2Proof.Machine.execLdw iss v s
  | .stw iss v => Sys2Proof.Machine.execStw iss v s
  | .send iss srcline plane destTile destPort destLine xfer add anyc errs => Sys2Proof.Machine.execSend iss srcline plane destTile destPort destLine xfer add anyc errs s
  | .sendr iss src bank reg shift plane destTile destPort destLine xfer rsvd anyc => Sys2Proof.Machine.execSendr iss src bank reg shift plane destTile destPort destLine xfer rsvd anyc s
  | .recv iss link slot line lines entry rsvd => Sys2Proof.Machine.execRecv iss link slot line lines entry rsvd s
  | .load iss entry dest wfmt line lines breg offset => Sys2Proof.Machine.execLoad iss entry dest wfmt line lines breg offset s
  | .store iss entry dest wfmt line lines breg offset => Sys2Proof.Machine.execStore iss entry dest wfmt line lines breg offset s
  | .rread iss entry srcTile srcLine line rsvd => Sys2Proof.Machine.execRread iss entry srcTile srcLine line rsvd s
  | .wait iss token rsvd => Sys2Proof.Machine.execWait iss token rsvd s
  | .credit iss any writer base count entry rsvd => Sys2Proof.Machine.execCredit iss any writer base count entry rsvd s
  | .next iss advance rsvd => Sys2Proof.Machine.execNext iss advance rsvd s
  | .layer iss layer wide alt rsvd => Sys2Proof.Machine.execLayer iss layer wide alt rsvd s
  | .end_ iss gap rsvd => Sys2Proof.Machine.execEnd iss gap rsvd s
  | .jump iss target rsvd => Sys2Proof.Machine.execJump iss target rsvd s
  | .base iss breg entry rsvd => Sys2Proof.Machine.execBase iss breg entry rsvd s
  | .mask iss mreg waddr rsvd errs => Sys2Proof.Machine.execMask iss mreg waddr rsvd errs s
  | .arrayResultReadable array codes upset => Sys2Proof.Machine.execArrayResultReadable array codes upset s
  | .transitResultReadable tile secdedBad upset tallyBad => Sys2Proof.Machine.execTransitResultReadable tile secdedBad upset tallyBad s
  | .arrayDiagnosisEnd array failed => Sys2Proof.Machine.execArrayDiagnosisEnd array failed s
  | .spareProgrammingEnd array column => Sys2Proof.Machine.execSpareProgrammingEnd array column s
  | .arrayReturn array => Sys2Proof.Machine.execArrayReturn array s
  | .arrayProgrammingStart tile cells imageDigest digestOk => Sys2Proof.Machine.execArrayProgrammingStart tile cells imageDigest digestOk s
  | .arrayProgrammingEnd array badColumns offsets gains sums quality => Sys2Proof.Machine.execArrayProgrammingEnd array badColumns offsets gains sums quality s
  | .releaseErase base lost => Sys2Proof.Machine.execReleaseErase base lost s
  | .backgroundWindowEnd array => Sys2Proof.Machine.execBackgroundWindowEnd array s
  | .fullCalibrationStart tile => Sys2Proof.Machine.execFullCalibrationStart tile s
  | .fullCalibrationEnd array offsets gains sums quality => Sys2Proof.Machine.execFullCalibrationEnd array offsets gains sums quality s
  | .calibrationWriteEnd array => Sys2Proof.Machine.execCalibrationWriteEnd array s
  | .correctionSave => Sys2Proof.Machine.execCorrectionSave s
  | .rotationDue array => Sys2Proof.Machine.execRotationDue array s
  | .slotShortfall array => Sys2Proof.Machine.execSlotShortfall array s
  | .requestFullCalibration m value => Sys2Proof.Machine.execRequestFullCalibration m value s
  | .userCalibrationPoint m value => Sys2Proof.Machine.execUserCalibrationPoint m value s
  | .newSweep m value => Sys2Proof.Machine.execNewSweep m value s
  | .driftEvaluation part => Sys2Proof.Machine.execDriftEvaluation part s
  | .eccWriteBack tile rc => Sys2Proof.Machine.execEccWriteBack tile rc s
  | .blockZeroing tile block rc => Sys2Proof.Machine.execBlockZeroing tile block rc s
  | .rowMapOut tile rc => Sys2Proof.Machine.execRowMapOut tile rc s
  | .scheduledFlitClaim router plane output cycle upset headerBad parityBad => Sys2Proof.Machine.execScheduledFlitClaim router plane output cycle upset headerBad parityBad s
  | .scheduledFlitLanding router port plane cycle parityBad upset => Sys2Proof.Machine.execScheduledFlitLanding router port plane cycle parityBad upset s
  | .creditGrant tile rc bad => Sys2Proof.Machine.execCreditGrant tile rc bad s
  | .creditRevoke tile rc bad => Sys2Proof.Machine.execCreditRevoke tile rc bad s
  | .faultReport rc bad => Sys2Proof.Machine.execFaultReport rc bad s
  | .remoteReadRequest tile rc bad => Sys2Proof.Machine.execRemoteReadRequest tile rc bad s
  | .remoteReadServe tile rc errs => Sys2Proof.Machine.execRemoteReadServe tile rc errs s
  | .remoteReadResponse tile rc bad => Sys2Proof.Machine.execRemoteReadResponse tile rc bad s
  | .loadRequest unit rc bad err rebuildFails => Sys2Proof.Machine.execLoadRequest unit rc bad err rebuildFails s
  | .loadData tile rc bad => Sys2Proof.Machine.execLoadData tile rc bad s
  | .storeDrain tile rc errs => Sys2Proof.Machine.execStoreDrain tile rc errs s
  | .storeData stack rc bad => Sys2Proof.Machine.execStoreData stack rc bad s
  | .storeAcknowledge tile rc bad => Sys2Proof.Machine.execStoreAcknowledge tile rc bad s
  | .stackFailed stack reason => Sys2Proof.Machine.execStackFailed stack reason s
  | .granuleZeroingEnd granule => Sys2Proof.Machine.execGranuleZeroingEnd granule s
  | .attend engine slot tag xfer desc rc => Sys2Proof.Machine.execAttend engine slot tag xfer desc rc s
  | .append engine slot tag xfer desc rc => Sys2Proof.Machine.execAppend engine slot tag xfer desc rc s
  | .chunkAttend engine slot tag xfer desc rc => Sys2Proof.Machine.execChunkAttend engine slot tag xfer desc rc s
  | .bulkAppend engine slot tag xfer desc rc => Sys2Proof.Machine.execBulkAppend engine slot tag xfer desc rc s
  | .engineJobStart unit rc errs => Sys2Proof.Machine.execEngineJobStart unit rc errs s
  | .engineJobEnd unit rc cycles errs ret upset => Sys2Proof.Machine.execEngineJobEnd unit rc cycles errs ret upset s
  | .frameBoundary rc upset => Sys2Proof.Machine.execFrameBoundary rc upset s
  | .pauseInsertion cycle count => Sys2Proof.Machine.execPauseInsertion cycle count s
  | .stepStart part fw => Sys2Proof.Machine.execStepStart part fw s
  | .abortNotice f n => Sys2Proof.Machine.execAbortNotice f n s
  | .replayStart part fw => Sys2Proof.Machine.execReplayStart part fw s
  | .mintRun part account full draft drafts upset tableBad => Sys2Proof.Machine.execMintRun part account full draft drafts upset tableBad s
  | .escrowArrival part account o => Sys2Proof.Machine.execEscrowArrival part account o s
  | .commitTest account => Sys2Proof.Machine.execCommitTest account s
  | .ledgerRecord f r => Sys2Proof.Machine.execLedgerRecord f r s
  | .ledgerAcknowledge f lsn => Sys2Proof.Machine.execLedgerAcknowledge f lsn s
  | .replicationFailure => Sys2Proof.Machine.execReplicationFailure s
  | .submissionRunning account => Sys2Proof.Machine.execSubmissionRunning account s
  | .accountOpenCloseAct account news => Sys2Proof.Machine.execAccountOpenCloseAct account news s
  | .parcelSealEnd account part windowOk info upset => Sys2Proof.Machine.execParcelSealEnd account part windowOk info upset s
  | .restorePartCheck p => Sys2Proof.Machine.execRestorePartCheck p s
  | .commitNotice f n => Sys2Proof.Machine.execCommitNotice f n s
  | .idleFrame f => Sys2Proof.Machine.execIdleFrame f s
  | .frameMessage f => Sys2Proof.Machine.execFrameMessage f s
  | .dataCopy f => Sys2Proof.Machine.execDataCopy f s
  | .dataAdd f upset => Sys2Proof.Machine.execDataAdd f upset s
  | .digestRecord f => Sys2Proof.Machine.execDigestRecord f s
  | .clearingSummary f round => Sys2Proof.Machine.execClearingSummary f round s
  | .boundaryExchange f round => Sys2Proof.Machine.execBoundaryExchange f round s
  | .loadingReport f part device loaded => Sys2Proof.Machine.execLoadingReport f part device loaded s
  | .failureNotice f => Sys2Proof.Machine.execFailureNotice f s
  | .stretchVote f device len enforced => Sys2Proof.Machine.execStretchVote f device len enforced s
  | .restoreReport f r => Sys2Proof.Machine.execRestoreReport f r s
  | .mirrorEntries f m => Sys2Proof.Machine.execMirrorEntries f m s
  | .contextPages f m => Sys2Proof.Machine.execContextPages f m s
  | .shardCopy f m => Sys2Proof.Machine.execShardCopy f m s
  | .ledgerCopy f m => Sys2Proof.Machine.execLedgerCopy f m s
  | .contextPartials f m => Sys2Proof.Machine.execContextPartials f m s
  | .training f chain => Sys2Proof.Machine.execTraining f chain s
  | .frameRetransmission link rc spare => Sys2Proof.Machine.execFrameRetransmission link rc spare s
  | .transmitEntrySend link entry parityBad shaBad => Sys2Proof.Machine.execTransmitEntrySend link entry parityBad shaBad s
  | .linkSilence link => Sys2Proof.Machine.execLinkSilence link s
  | .loopbackTestEnd link intact signal => Sys2Proof.Machine.execLoopbackTestEnd link intact signal s
  | .linkDetect link lanes => Sys2Proof.Machine.execLinkDetect link lanes s
  | .trainingStageTimeout link => Sys2Proof.Machine.execTrainingStageTimeout link s
  | .keyRenewal link => Sys2Proof.Machine.execKeyRenewal link s
  | .delayRemeasure link roundTrip turn => Sys2Proof.Machine.execDelayRemeasure link roundTrip turn s
  | .opticalWidthChange link => Sys2Proof.Machine.execOpticalWidthChange link s
  | .frameLockLoss => Sys2Proof.Machine.execFrameLockLoss s
  | .masterTakeover => Sys2Proof.Machine.execMasterTakeover s
  | .failureDecision => Sys2Proof.Machine.execFailureDecision s
  | .coveringEnd => Sys2Proof.Machine.execCoveringEnd s
  | .partitionLoad m part tenant img => Sys2Proof.Machine.execPartitionLoad m part tenant img s
  | .loadingComplete part => Sys2Proof.Machine.execLoadingComplete part s
  | .partitionStart part fw => Sys2Proof.Machine.execPartitionStart part fw s
  | .partitionClose part => Sys2Proof.Machine.execPartitionClose part s
  | .replacement m part value => Sys2Proof.Machine.execReplacement m part value s
  | .weightSwitch base => Sys2Proof.Machine.execWeightSwitch base s
  | .requestDrain m value => Sys2Proof.Machine.execRequestDrain m value s
  | .twilightEntry => Sys2Proof.Machine.execTwilightEntry s
  | .twilightStop => Sys2Proof.Machine.execTwilightStop s
  | .dark => Sys2Proof.Machine.execDark s
  | .clearFlag m value => Sys2Proof.Machine.execClearFlag m value s
  | .treeDisagreement cycles asserted => Sys2Proof.Machine.execTreeDisagreement cycles asserted s
  | .ethernetFrame port kind bytes vlan fcsOk ipOk icrcOk ecn microseconds prio fill => Sys2Proof.Machine.execEthernetFrame port kind bytes vlan fcsOk ipOk icrcOk ecn microseconds prio fill s
  | .congestionNotification session => Sys2Proof.Machine.execCongestionNotification session s
  | .rateIncrease session => Sys2Proof.Machine.execRateIncrease session s
  | .pfcFrame port prio pause => Sys2Proof.Machine.execPfcFrame port prio pause s
  | .rdmaWrite qp port pk rkey va data psn errs => Sys2Proof.Machine.execRdmaWrite qp port pk rkey va data psn errs s
  | .rdmaRead qp port rkey va len psn errs => Sys2Proof.Machine.execRdmaRead qp port rkey va len psn errs s
  | .generate m src => Sys2Proof.Machine.execGenerate m src s
  | .learn m first count => Sys2Proof.Machine.execLearn m first count s
  | .park m => Sys2Proof.Machine.execPark m s
  | .restore m parts => Sys2Proof.Machine.execRestore m parts s
  | .openAccount m b => Sys2Proof.Machine.execOpenAccount m b s
  | .closeAccount m => Sys2Proof.Machine.execCloseAccount m s
  | .cancel m => Sys2Proof.Machine.execCancel m s
  | .acknowledge m => Sys2Proof.Machine.execAcknowledge m s
  | .releaseAcknowledge m relpos => Sys2Proof.Machine.execReleaseAcknowledge m relpos s
  | .windowOpen m kind mxtype access any bytes => Sys2Proof.Machine.execWindowOpen m kind mxtype access any bytes s
  | .windowClose m key => Sys2Proof.Machine.execWindowClose m key s
  | .windowDrained index => Sys2Proof.Machine.execWindowDrained index s
  | .queuePairError session => Sys2Proof.Machine.execQueuePairError session s
  | .ethernetPortDown port => Sys2Proof.Machine.execEthernetPortDown port s
  | .portRetrained port full => Sys2Proof.Machine.execPortRetrained port full s
  | .sessionOpen m value => Sys2Proof.Machine.execSessionOpen m value s
  | .sessionReopen m value => Sys2Proof.Machine.execSessionReopen m value s
  | .sessionClose m value => Sys2Proof.Machine.execSessionClose m value s
  | .connect m value => Sys2Proof.Machine.execConnect m value s
  | .modulePresence mm d probeOk => Sys2Proof.Machine.execModulePresence mm d probeOk s
  | .moduleRemoval mm => Sys2Proof.Machine.execModuleRemoval mm s
  | .moduleFault mm flags => Sys2Proof.Machine.execModuleFault mm flags s
  | .openFibre lane => Sys2Proof.Machine.execOpenFibre lane s
  | .darknessCheck mm dark hardware => Sys2Proof.Machine.execDarknessCheck mm dark hardware s
  | .moduleMonitorPoll mm d => Sys2Proof.Machine.execModuleMonitorPoll mm d s
  | .daylightHistorySave => Sys2Proof.Machine.execDaylightHistorySave s
  | .removalRequest m mm value => Sys2Proof.Machine.execRemovalRequest m mm value s
  | .relight m mm value => Sys2Proof.Machine.execRelight m mm value s
  | .relightProbeEnd mm openLanes => Sys2Proof.Machine.execRelightProbeEnd mm openLanes s
  | .underVoltage rail => Sys2Proof.Machine.execUnderVoltage rail s
  | .powerFailLatch => Sys2Proof.Machine.execPowerFailLatch s
  | .powerFailSilence => Sys2Proof.Machine.execPowerFailSilence s
  | .currentLimitEntry => Sys2Proof.Machine.execCurrentLimitEntry s
  | .currentLimitExit => Sys2Proof.Machine.execCurrentLimitExit s
  | .powerMean milliwatts => Sys2Proof.Machine.execPowerMean milliwatts s
  | .sensorConversionSet raw hbm => Sys2Proof.Machine.execSensorConversionSet raw hbm s
  | .hardTrip circuitB => Sys2Proof.Machine.execHardTrip circuitB s
  | .voteEnforce => Sys2Proof.Machine.execVoteEnforce s
  | .voteRelease => Sys2Proof.Machine.execVoteRelease s
  | .referenceLoss ref => Sys2Proof.Machine.execReferenceLoss ref s
  | .referenceReturn ref => Sys2Proof.Machine.execReferenceReturn ref s
  | .holdoverCorrection temp16 => Sys2Proof.Machine.execHoldoverCorrection temp16 s
  | .crossingTimeout unit tile => Sys2Proof.Machine.execCrossingTimeout unit tile s
  | .watchdogService a1 a2 w1 w2 => Sys2Proof.Machine.execWatchdogService a1 a2 w1 w2 s
  | .watchdogWarning => Sys2Proof.Machine.execWatchdogWarning s
  | .watchdogExpiry => Sys2Proof.Machine.execWatchdogExpiry s
  | .housekeepingTimer => Sys2Proof.Machine.execHousekeepingTimer s
  | .interruptClaim a => Sys2Proof.Machine.execInterruptClaim a s
  | .interruptCompletion a data => Sys2Proof.Machine.execInterruptCompletion a data s
  | .adcTrigger frameTick since => Sys2Proof.Machine.execAdcTrigger frameTick since s
  | .adcConversionEnd code => Sys2Proof.Machine.execAdcConversionEnd code s
  | .adcDataRead a => Sys2Proof.Machine.execAdcDataRead a s
  | .adcUrgentRequest channel since => Sys2Proof.Machine.execAdcUrgentRequest channel since s
  | .adcReferenceSettled => Sys2Proof.Machine.execAdcReferenceSettled s
  | .managementRead r wait bad => Sys2Proof.Machine.execManagementRead r wait bad s
  | .managementWrite r wait bad => Sys2Proof.Machine.execManagementWrite r wait bad s
  | .managementWriteReadback r wait bad => Sys2Proof.Machine.execManagementWriteReadback r wait bad s
  | .managementResponse id rc bad => Sys2Proof.Machine.execManagementResponse id rc bad s
  | .managementRequestTimeout id rc => Sys2Proof.Machine.execManagementRequestTimeout id rc s
  | .flashWriteEnd => Sys2Proof.Machine.execFlashWriteEnd s
  | .flashEraseEnd => Sys2Proof.Machine.execFlashEraseEnd s
  | .entropyHealthFailure => Sys2Proof.Machine.execEntropyHealthFailure s
  | .wrappingKey m part => Sys2Proof.Machine.execWrappingKey m part s
  | .parkingKeyInstall m part keyid length tagOk age => Sys2Proof.Machine.execParkingKeyInstall m part keyid length tagOk age s
  | .imageTransfer m offset data => Sys2Proof.Machine.execImageTransfer m offset data s
  | .startTrial m value check => Sys2Proof.Machine.execStartTrial m value check s
  | .getVersion => Sys2Proof.Machine.execGetVersion s
  | .getCapabilities => Sys2Proof.Machine.execGetCapabilities s
  | .negotiateAlgorithms ok => Sys2Proof.Machine.execNegotiateAlgorithms ok s
  | .getDigests => Sys2Proof.Machine.execGetDigests s
  | .getCertificate slot offset length => Sys2Proof.Machine.execGetCertificate slot offset length s
  | .challenge slot nonce => Sys2Proof.Machine.execChallenge slot nonce s
  | .getMeasurements index nonce => Sys2Proof.Machine.execGetMeasurements index nonce s
  | .unsupportedRequest code => Sys2Proof.Machine.execUnsupportedRequest code s
  | .uoaHello m nonce key chain second => Sys2Proof.Machine.execUoaHello m nonce key chain second s
  | .uoaFinish m sigOk => Sys2Proof.Machine.execUoaFinish m sigOk s
  | .uoaRead m items => Sys2Proof.Machine.execUoaRead m items s
  | .uoaWrite m items => Sys2Proof.Machine.execUoaWrite m items s
  | .uoaStage m items => Sys2Proof.Machine.execUoaStage m items s
  | .uoaDescribe m items => Sys2Proof.Machine.execUoaDescribe m items s
  | .uoaClose m => Sys2Proof.Machine.execUoaClose m s
  | .uoaIdleTimeout session => Sys2Proof.Machine.execUoaIdleTimeout session s
  | .anchorInstall m value certOk => Sys2Proof.Machine.execAnchorInstall m value certOk s
  | .anchorRemove m value => Sys2Proof.Machine.execAnchorRemove m value s
  | .dictionaryStoreRollover => Sys2Proof.Machine.execDictionaryStoreRollover s
  | .flushStart => Sys2Proof.Machine.execFlushStart s
  | .flushEnd => Sys2Proof.Machine.execFlushEnd s
  | .flushNow m value => Sys2Proof.Machine.execFlushNow m value s
  | .resetAssertion => Sys2Proof.Machine.execResetAssertion s
  | .dawnStart => Sys2Proof.Machine.execDawnStart s
  | .dawnStepComplete d => Sys2Proof.Machine.execDawnStepComplete d s
  | .frameLockTimeout => Sys2Proof.Machine.execFrameLockTimeout s
  | .ledgerPartnerRetry => Sys2Proof.Machine.execLedgerPartnerRetry s
  | .warmResetRequest m value => Sys2Proof.Machine.execWarmResetRequest m value s
  | .coldResetRequest m value => Sys2Proof.Machine.execColdResetRequest m value s
  | .orderlyShutdown m value => Sys2Proof.Machine.execOrderlyShutdown m value s
  | .partitionReset part => Sys2Proof.Machine.execPartitionReset part s
  | .linkReset m value => Sys2Proof.Machine.execLinkReset m value s
  | .firstUseEnd => Sys2Proof.Machine.execFirstUseEnd s
  | .hoursSave => Sys2Proof.Machine.execHoursSave s
  | .tapInstruction t => Sys2Proof.Machine.execTapInstruction t s
  | .opticalEngineFailure oe => Sys2Proof.Machine.execOpticalEngineFailure oe s
  | .powerOff => Sys2Proof.Machine.execPowerOff s
  | .linkEqualisationEnd link => Sys2Proof.Machine.execLinkEqualisationEnd link s

end Sys2Proof.Machine
end

