-- ==== Sys2Proof/WellFormed.lean ====
section
/-! DEFINITION. Operands that a command can really carry: the bounds that the types of Syntax.lean do not hold. Meanings are total and
do not rest on these checks. -/

namespace Sys2Proof

/-- Keys that rise strictly and stay below a bound. -/
def risingBelow (bound : Nat) : List Nat → Bool
  | [] => true
  | [a] => decide (a < bound)
  | a :: b :: t => decide (a < b) && risingBelow bound (b :: t)

/-- The cells of an array image: keys of 512 x 256 cells, weights -7 to 7, none 0 (R22). -/
def cellsOk (cells : List (Nat × Int)) : Bool :=
  risingBelow 131072 (cells.map Prod.fst) && cells.all (fun c => decide (-7 ≤ c.2 ∧ c.2 ≤ 7 ∧ c.2 ≠ 0))

/-- A UTL frame holds at most 8 payload lines, as many as LINES says (R315, R316). -/
def frameOk (f : UtlFrame) : Bool := decide (f.payload.length = f.hdr.lines.toNat ∧ f.payload.length ≤ 8)

/-- A read error names a bit of a line (R126). -/
def readErrOk : ReadErr → Bool
  | .single b => decide (b < 1024)
  | _ => true

/-- The errors of an access name one of its lines, of which TLOAD reads the most (R136). -/
def readErrsOk (l : ReadErrs) : Bool := l.all (fun e => decide (e.1 < 256) && readErrOk e.2)

/-- Stored entries of one stream have one length (R229). -/
def sameLength (l : List EntryWords) : Bool :=
  match l with
  | [] => true
  | e :: t => t.all (fun x => decide (x.length = e.length))

/-- A value of at most 4,096 bytes, or a scalar of at most 64 bits (R474). -/
def valueOk : DVal → Bool
  | .num n => decide (n < 2 ^ 64)
  | .bytes b => decide (b.length ≤ 4096)

/-- One frame is at most 1,536 cycles, and a hold or pause is counted on top of it (R163, R197). -/
def cycleOk (c : Nat) : Bool := decide (c < 4096)

/-- A step yields at most the 16 tokens that Escrow holds for an account (R260, R289). -/
def outcomeOk (o : Outcome) : Bool := decide (o.tokens.length ≤ 16 ∧ o.states.length ≤ 16)

/-- Weights of an image, its stream words and tables (R48, R167, R246). -/
def imageOk (img : Image) : Bool :=
  img.streams.all (fun x => decide (x.words.length ≤ 16384) && x.table.all (fun e => decide (e.1.toNat < 64))) &&
    img.arrays.all (fun a => cellsOk a.cells)

/-- Prompt and window lengths (R356). -/
def genOk : GenSrc → Bool
  | .inline t => decide (t.length ≤ 16362)
  | .window _ n => decide (n ≤ 4194304)
  | .other _ => true

/-- The operands that come with a command lie in the ranges the spec gives them. -/
def Instr.wf : Instr → Bool
  | .arrayResultReadable _ codes _ => decide (codes.length ≤ 32) && codes.all (fun r => decide (r.length ≤ 265))
  | .transitResultReadable _ _ _ bad => match bad with | some g => decide (g < 8) | none => true
  | .arrayProgrammingStart _ cells _ _ => cellsOk cells
  | .ldl _ v | .ldw _ v | .pacc _ v | .quant _ v | .lanef _ v | .deq _ v | .mxin _ v | .mxout _ v => readErrsOk v.errs
  | .feed _ _ _ _ _ errs | .tload _ _ _ _ _ errs | .mask _ _ _ _ errs | .send _ _ _ _ _ _ _ _ _ errs => readErrsOk errs
  | .storeDrain _ c errs | .remoteReadServe _ c errs => cycleOk c && readErrsOk errs
  | .loadRequest _ c _ err _ => cycleOk c && readErrOk err
  | .engineJobStart _ c errs | .engineJobEnd _ c _ errs _ _ => cycleOk c && errs.all (fun e => readErrOk e.err)
  | .attend _ _ _ _ _ c | .append _ _ _ _ _ c | .chunkAttend _ _ _ _ _ c | .bulkAppend _ _ _ _ _ c => cycleOk c
  | .scheduledFlitClaim _ _ _ c _ _ _ | .scheduledFlitLanding _ _ _ c _ _ | .remoteReadResponse _ c _ | .remoteReadRequest _ c _ |
    .creditGrant _ c _ | .creditRevoke _ c _ | .faultReport c _ | .storeData _ c _ | .eccWriteBack _ c | .blockZeroing _ _ c |
    .rowMapOut _ c | .managementResponse _ c _ | .managementRequestTimeout _ c | .frameRetransmission _ c _ |
    .loadData _ c _ | .storeAcknowledge _ c _ | .frameBoundary c _ | .pauseInsertion c _ => cycleOk c
  | .requestFullCalibration _ v | .userCalibrationPoint _ v | .newSweep _ v | .replacement _ _ v | .requestDrain _ v | .clearFlag _ v |
    .sessionOpen _ v | .sessionReopen _ v | .sessionClose _ v | .connect _ v | .removalRequest _ _ v | .relight _ _ v |
    .startTrial _ v _ | .anchorInstall _ v _ | .anchorRemove _ v | .flushNow _ v | .warmResetRequest _ v | .coldResetRequest _ v |
    .orderlyShutdown _ v | .linkReset _ v => valueOk v
  | .escrowArrival _ _ o => outcomeOk o
  | .mintRun _ _ full draft drafts _ _ => decide (full.length ≤ 17 ∧ draft.length ≤ 16 ∧ drafts.length ≤ 16)
  | .abortNotice f _ | .ledgerRecord f _ | .ledgerAcknowledge f _ | .commitNotice f _ | .idleFrame f | .frameMessage f | .dataCopy f |
    .dataAdd f _ | .digestRecord f | .clearingSummary f _ | .boundaryExchange f _ | .loadingReport f _ _ _ | .failureNotice f |
    .stretchVote f _ _ _ | .restoreReport f _ | .shardCopy f _ | .ledgerCopy f _ | .contextPartials f _ | .training f _ => frameOk f
  | .mirrorEntries f m => frameOk f && sameLength m.entries
  | .contextPages f m => frameOk f && sameLength m.entries
  | .restorePartCheck p => p.streams.all (fun x => sameLength x.2.2.2)
  | .partitionLoad _ _ _ img => imageOk img
  | .ethernetFrame _ _ bytes _ _ _ _ _ _ _ _ => decide (bytes ≤ 65535)
  | .rdmaWrite _ _ _ _ _ data _ errs => decide (data.length ≤ 4096) && errs.all (fun e => readErrOk e.err)
  | .rdmaRead _ _ _ _ _ _ errs => errs.all (fun e => readErrOk e.err)
  | .generate _ src => genOk src
  | .restore _ parts => decide (parts.length ≤ 4681)
  | .sensorConversionSet raw hbm => decide (raw.length = 128 ∧ hbm.length ≤ 16)
  | .moduleMonitorPoll _ d | .modulePresence _ d _ => decide (d.page00.length = 128 ∧ d.pageB0.length = 128 ∧ d.pageB1.length = 128)
  | .adcTrigger _ since | .adcUrgentRequest _ since => decide (since ≤ 65535)
  | .parkingKeyInstall _ _ _ length _ _ => decide (length ≤ 4096)
  | .imageTransfer _ _ data => decide (data.length ≤ 4096)
  | .uoaRead _ items | .uoaDescribe _ items => decide (items.length ≤ 32)
  | .uoaWrite _ items => decide (items.length ≤ 32) && items.all (fun i => valueOk i.value)
  | .uoaStage _ items => decide (items.length ≤ 32) && items.all (fun i => valueOk i.value)
  | .fire .. | .cal .. | .tfire .. | .xfer .. | .fadd .. | .fsub .. | .fmul .. | .ffma .. | .fmin .. |
    .fmax .. | .fcmp .. | .fsel .. | .badd .. | .bmul .. | .bfma .. | .cvt .. | .imac8 .. | .lcvt .. | .iadd32 .. |
    .fexp .. | .flog .. | .frcp .. | .frsq .. | .fsig .. | .ferf .. | .qcfg .. | .strm .. | .rsum .. | .rmax .. | .stl .. |
        .stw .. | .sendr .. | .recv .. | .load .. |
    .store .. | .rread .. | .wait .. | .credit .. | .next .. | .layer .. | .end_ .. | .jump .. | .base .. |
        .arrayDiagnosisEnd .. | .spareProgrammingEnd .. | .arrayReturn .. | .arrayProgrammingEnd .. | .releaseErase .. |
    .backgroundWindowEnd .. | .fullCalibrationStart .. | .fullCalibrationEnd .. | .calibrationWriteEnd .. | .correctionSave .. |
    .rotationDue .. | .slotShortfall .. | .driftEvaluation .. | .stackFailed .. | .granuleZeroingEnd .. |
    .stepStart .. | .replayStart .. | .commitTest .. | .replicationFailure .. | .submissionRunning .. | .accountOpenCloseAct .. |
    .parcelSealEnd .. | .transmitEntrySend .. | .linkSilence .. | .loopbackTestEnd .. |
    .linkDetect .. | .trainingStageTimeout .. | .keyRenewal .. | .delayRemeasure .. | .opticalWidthChange .. |
    .frameLockLoss .. | .masterTakeover .. | .failureDecision .. | .coveringEnd .. | .loadingComplete .. | .partitionStart .. |
    .partitionClose .. | .weightSwitch .. | .twilightEntry .. | .twilightStop .. | .dark .. | .treeDisagreement .. |
    .congestionNotification .. | .rateIncrease .. | .pfcFrame .. | .learn .. | .park .. | .openAccount .. |
    .closeAccount .. | .cancel .. | .acknowledge .. | .releaseAcknowledge .. | .windowOpen .. | .windowClose .. |
    .windowDrained .. | .queuePairError .. | .ethernetPortDown .. | .portRetrained .. | .moduleRemoval .. | .moduleFault .. |
    .openFibre .. | .darknessCheck .. | .daylightHistorySave .. | .relightProbeEnd .. | .underVoltage .. | .powerFailLatch .. |
    .powerFailSilence .. | .currentLimitEntry .. | .currentLimitExit .. | .powerMean .. | .hardTrip .. | .voteEnforce .. |
    .voteRelease .. | .referenceLoss .. | .referenceReturn .. | .holdoverCorrection .. | .crossingTimeout .. |
    .watchdogService .. | .watchdogWarning .. | .watchdogExpiry .. | .housekeepingTimer .. | .interruptClaim .. |
    .interruptCompletion .. | .adcConversionEnd .. | .adcDataRead .. | .adcReferenceSettled .. | .managementRead .. |
    .managementWrite .. | .managementWriteReadback .. |
    .flashWriteEnd .. | .flashEraseEnd .. | .entropyHealthFailure .. | .wrappingKey .. | .getVersion .. | .getCapabilities .. |
    .negotiateAlgorithms .. | .getDigests .. | .getCertificate .. | .challenge .. | .getMeasurements .. |
    .unsupportedRequest .. | .uoaHello .. | .uoaFinish .. | .uoaClose .. | .uoaIdleTimeout .. | .dictionaryStoreRollover .. |
    .flushStart .. | .flushEnd .. | .resetAssertion .. | .dawnStart .. | .dawnStepComplete .. | .frameLockTimeout .. |
    .ledgerPartnerRetry .. | .partitionReset .. | .firstUseEnd .. | .hoursSave .. | .tapInstruction .. |
    .opticalEngineFailure .. | .powerOff .. | .linkEqualisationEnd .. => true

end Sys2Proof
end

