-- ==== Sys2Proof/Safety.lean ====
section
/-! DEFINITION. What counts as a safe run, and the conditions and frames in which the statements are said. -/

namespace Sys2Proof.Machine

/-! ## Canonical form of the memories -/

/-- The stack space is in canonical form. -/
def Memory.wf (m : Memory) : Bool := Cells.wf m.data

/-- Scratchpad and stack space are in canonical form, and so are the maps of the State by number. -/
def State.canonical (s : State) : Bool :=
  Cells.wf s.spad && s.mem.wf && SMap.wf ({} : Tile) s.tiles && SMap.wf ({} : ArrayS) s.arrays && SMap.wf ({} : Part) s.parts &&
    SMap.wf ({} : Account) s.accts && SMap.wf ({} : Endpoint) s.links && SMap.wf ({} : Module) s.mods

/-- A step is safe: the machine goes on. -/
def State.goesOn (s : State) : Bool :=
  match step s with
  | .next _ => true
  | .fault _ => false
  | .refused _ => false

/-- The queue holds commands with operands in range only. -/
def State.queueOk (s : State) : Bool := s.pending.all Instr.wf

/-! ## Issue -/

/-- The instruction may issue on a port at its cycle: its stream issues in this frame, its word reads without error and lies in the
stream's region, GEN is 0, the cycle lies before dusk, not before the cycle reached and after a branch, what it reads has sound parity, and the
port is not taken in that cycle (R166-R168, R172, R174, R373). -/
def State.clearIssue (s : State) (i : Issue) (port : Nat) : Bool :=
  s.issuing i && decide (i.store = .none ∧ i.parity = false) && decide ((s.strm i).pc ≤ (s.strm i).last.toNat) && s.issueOk i i.cycle.toNat true &&
    (match SMap.get (s.tile i.tile.toNat).ports none port with
     | none => true
     | some c => !decide (c.frame = s.fu.frame ∧ c.cycle = i.cycle.toNat))

/-- Nothing changed but tiles, and the schedule cycle that the die has reached. -/
def SameButTiles (s t : State) : Prop :=
  t = { s with tiles := t.tiles, fu := { s.fu with cycle := t.fu.cycle } }

/-- What every issue leaves alone: all but the issuing tile and the cycle reached; in the tile, all but its ports, the issuing stream,
its vector registers and the pending narrow accesses. The issuing stream goes on by one word. -/
def IssueFrame (i : Issue) (port : Nat) (s t : State) : Prop :=
  SameButTiles s t ∧ t.fu.cycle = max s.fu.cycle i.cycle.toNat ∧
    (∀ n, n ≠ i.tile.toNat → t.tile n = s.tile n) ∧
    t.strm i = { s.strm i with pc := (s.strm i).pc + 1, reached := i.cycle.toNat, branch := none } ∧
    (∀ k, k ≠ i.stream.toNat → SMap.get (t.tile i.tile.toNat).streams {} k = SMap.get (s.tile i.tile.toNat).streams {} k) ∧
    SMap.get (t.tile i.tile.toNat).ports none port = some ⟨s.fu.frame, i.cycle.toNat, (s.strm i).tag⟩ ∧
    (∀ k, k ≠ port → SMap.get (t.tile i.tile.toNat).ports none k = SMap.get (s.tile i.tile.toNat).ports none k)

/-- The rest of the issuing tile is as it was: nothing but vector registers may differ beside what `IssueFrame` names. -/
def TileButVregs (i : Issue) (s t : State) : Prop :=
  t.tile i.tile.toNat = { s.tile i.tile.toNat with
    vregs := (t.tile i.tile.toNat).vregs
    streams := (t.tile i.tile.toNat).streams
    ports := (t.tile i.tile.toNat).ports }

/-- Lanes of every vector register but `r` are as they were. -/
def OtherVregs (i : Issue) (r : BitVec 6) (s t : State) : Prop := ∀ q : BitVec 6, q ≠ r → t.vreg i q = s.vreg i q

/-- No fill, drain or serve of the tile stands at a cycle that the scheduled accesses take, so none moves (R120). -/
def Tile.fillsClear (t : Tile) : Bool := t.fills.all (fun f => match f.cycle with | some c => !t.wideAt c | none => true)

/-- The wide port is free for `n` lines from `line` from the cycle of issue on, the lines lie in blocks of the partition, no fill has to
give way, and no narrow access of the tile is under way (R119-R121, R132). -/
def State.portsClear (s : State) (i : Issue) (line n : Nat) : Bool :=
  let t := s.tile i.tile.toNat
  t.owns line n (s.strm i).tag && ((t.takeWide i.cycle.toNat line n).map Tile.fillsClear).getD false && t.narrow.isEmpty && t.narrowW.isEmpty

/-- A line form of VEC may access its `n` lines: the issue is clear, the line exists, the low ADDR bits are 0, the port and the block are
free for it, no upset and no read error (R119, R126, R182). -/
def State.clearVecLines (s : State) (i : Issue) (v : VecOps) (n : Nat) : Bool :=
  s.clearIssue i 7 && decide (vlineNo v ≤ 3071 ∧ v.addr.extractLsb' 0 4 = 0 ∧ v.upset = false ∧ v.errs = []) &&
    s.portsClear i (vlineNo v) n

/-- The line forms of VEC on one line. -/
def State.clearVecLine (s : State) (i : Issue) (v : VecOps) : Bool := s.clearVecLines i v 1

/-- Every byte of the scratchpad outside `n` lines from `line` of tile `t` reads as before. -/
def PadOutside (t line n : Nat) (s u : State) : Prop :=
  ∀ a, a < padBytes * t + 128 * line ∨ padBytes * t + 128 * (line + n) ≤ a → Cells.get u.spad a = Cells.get s.spad a

/-- Nothing changed but tiles, the scratchpad and the schedule cycle reached; and no tile but the issuing one. -/
def OnlyOwnTile (i : Issue) (s t : State) : Prop :=
  t = { s with tiles := t.tiles, spad := t.spad, fu := { s.fu with cycle := t.fu.cycle } } ∧
    ∀ n, n ≠ i.tile.toNat → t.tile n = s.tile n

/-- The abort of partition `p` stands in `t` (R198), unless a replay computed for a frame ahead makes an abort of now stale (R199). -/
def AbortsIn (p : Nat) (s t : State) : Prop :=
  (s.part p).replayed.all (fun r => decide (r ≤ s.fu.frame)) = true → (t.part p).abort.isSome = true

/-- Where a mesh message comes from, where it goes and what it says: all of it but its sequence number and its time of injection. -/
def Msg.says (m : Msg) : Nat × Nat × Nat × Tag × MeshMsg := (m.src, m.dest, m.port, m.tag, m.msg)

/-! ## Links and the Ledger -/

/-- An intact frame arrives in its place on an Active link: the next sequence number, nothing waits behind a gap or for a credit, no NAK
(R316-R320); the device lives and is not in Dark. -/
def State.frameClear (s : State) (f : UtlFrame) (i : Instr) : Bool :=
  let e := s.link f.link.val
  s.alive && decide (s.health.st ≠ 3 ∧ f.upset = false ∧ e.st = .active ∧ f.hdr.nak = false ∧ f.hdr.seq = BitVec.ofNat 16 e.rxNext) &&
    e.waiting.isEmpty && e.rxAhead.isEmpty && e.mirrorSeq.isNone &&
    (match frameKind i with | some k => frameIntact f k && decide (k.op ≠ 0) | none => false)

/-- No durable record waits to act (R281). -/
def State.quiet (s : State) : Bool := (dueRec s.ledger.journal).isNone && (dueRec s.ledger.covered).isNone

/-- Nothing of the state but links changed, and the schedule cycle that the die has reached. -/
def SameButLinks (s t : State) : Prop := t = { s with links := t.links, fu := { s.fu with cycle := t.fu.cycle } }

/-! ## Urius Object Access -/

/-- A request of an established session runs (R377, R485, R487, R490): it reaches firmware, no AES unit disagrees, its
tag verifies, its SEQ is new and its header is in order, with `count` items in `len` bytes. -/
def State.acceptsRequest (s : State) (m : UoaMsg) (u : UoaSess) (type len count : Nat) : Bool :=
  s.uoaReaches m && u.fresh m.seq &&
    decide (s.uoaSess m.session = some u ∧ m.upset = false ∧ m.tagOk = true ∧ u.done = true ∧ m.vmajor = 1 ∧ m.gen = 0 ∧ m.rsvd = 0 ∧
      m.type.toNat = type ∧ m.length.toNat = len ∧ len ≤ 4576 ∧ m.count.toNat = count ∧ count ≤ 32)

/-- A Write item as the commands that write one entry carry it. -/
def ownItem (index sub : Nat) (v : DVal) : Item :=
  { index := index, sub := sub, type := (match findEntry index sub with | some e => e.type.code | none => 0), offset := 0
    value := v, frame := none }

/-- A Write of one entry with a value passes every check but those that the entry itself makes (R473-R478, R487, R494, R505). -/
def State.acceptsWrite (s : State) (m : UoaMsg) (u : UoaSess) (index sub : Nat) (v : DVal) : Bool :=
  let i := ownItem index sub v
  s.firmware && s.acceptsRequest m u 0x12 (10 + valueBytes i.type v) 1 && !s.power.failed && !s.recorderFull i &&
    (match findEntry index sub with
     | some e => decide (s.itemStatus u i e = 0)
     | none => false)

/-- The request is answered by one reply of this type with status 0 whose items have these statuses (R485-R487). -/
def Replied (m : UoaMsg) (u : UoaSess) (type : BitVec 6) (statuses : List (BitVec 8)) (s t : State) : Prop :=
  ∃ r, t.dict.out = s.dict.out ++ [r] ∧ r.session = u.id ∧ r.type = type ∧ r.reqseq = m.seq ∧ r.status = 0 ∧
    r.items.map (fun x => x.status) = statuses

/-- A Write item done: answered with status 0, and its change record stands in the recorder's buffer with the session's role, tenant,
identifier and source (R492, R503). -/
def WriteAnswered (m : UoaMsg) (u : UoaSess) (index sub : Nat) (s t : State) : Prop :=
  Replied m u 0x13 [0] s t ∧
    ∃ x c, t.recd.buffer[s.recd.buffer.length]? = some x ∧
      x.payload = .change 0 (BitVec.ofNat 16 index) (BitVec.ofNat 8 sub) 0 u.role m.src.port.val u.tenant u.id m.src.addr c

/-! ## Urius Work Protocol -/

/-- A message passes the transport and stages 1 to 4 of R361: its port and session are up, no upset meets it, its tag verifies, its COUNTER rises, its
version is 1, and it names the session and the partition it is bound to; the device is not past its Twilight stop. -/
def State.passes (s : State) (m : UwpMsg) : Bool :=
  let x := s.sess m.qp.toNat
  s.alive && (s.port m.port.toNat).up && x.connected &&
    decide (x.port = m.port ∧ m.upset = false ∧ m.tagOk = true ∧ x.key ≠ none ∧ x.rxCtr < m.counter ∧ m.vmajor = 1 ∧ m.session = m.qp ∧
      m.part = x.part ∧ s.health.st < 2)

/-- A Submit passes stages 5, 6 and 9 of R361 as the next of its session, on a device that covers no other and has no durable record
left to act. -/
def State.submits (s : State) (m : UwpMsg) : Bool :=
  let x := s.sess m.qp.toNat
  let q := s.part m.part.toNat
  s.passes m && !s.busyNow m.qp && s.quiet &&
    decide (x.ack < m.ssn ∧ m.ssn.toNat = x.a.toNat + 1 ∧ x.st = .ready ∧ (q.st = .serving ∨ q.st = .streaming) ∧
      q.closeF = none ∧ s.ledger.mode = 0)

/-- The bytes of a packet stand in the window from byte `va` on, and no line of the stack space outside its lines changed. -/
def LandedIn (w : Window) (va : Nat) (data : List Byte) (s t : State) : Prop :=
  (∀ k, k < data.length → Cells.get t.mem.data (128 * w.base + va + k) = data.getD k 0) ∧
    (∀ a, a < 128 * (w.base + va / 128) ∨ 128 * (w.base + (va + data.length - 1) / 128 + 1) ≤ a →
      Cells.get t.mem.data a = Cells.get s.mem.data a) ∧
    (∀ l ∈ w.lines va data.length, l ∈ t.mem.written)

/-- No line among these is poisoned or stands in a failed stack, so that each is read as it is (R217, R218). -/
def State.readable (s : State) (ls : List Nat) : Bool :=
  ls.all (fun l => !s.mem.lost.contains l && decide ((s.stack (stackOf l)).st ≠ 2))

/-- The message names an account of its partition for which this device is home (R361). -/
def State.homeOf (s : State) (m : UwpMsg) : Bool :=
  match s.acctByIdent m.part m.accountId with
  | some a => s.isHome a
  | none => false

/-- The partition has chunks free for the bytes of a payload (R284). -/
def State.hasRoom (s : State) (m : UwpMsg) (bytes : List Byte) : Bool := (s.writePayload m.part.toNat bytes).isSome

/-- The submission is held, Accepting, under the next LSN, whose Accept record stands in the journal; the session's last admitted SSN
is its own; nothing has been sent to the host yet (R284-R286). -/
def HeldNow (m : UwpMsg) (kind : BitVec 4) (payload : List W32) (s t : State) : Prop :=
  (∃ b, t.ledger.subs = s.ledger.subs ++ [b] ∧ b.sess = m.qp ∧ b.ssn = m.ssn ∧ b.lsn = s.ledger.nextLsn ∧ b.st = .accepting ∧
    b.subkind = kind ∧ b.ident = m.accountId ∧ b.payload = payload ∧ b.deadline = m.deadline ∧ b.maxtok = m.maxtok) ∧
  (∃ j rest, t.ledger.journal = s.ledger.journal ++ j :: rest ∧ j.r.lsn = s.ledger.nextLsn ∧ j.acked = false) ∧
  (t.sess m.qp.toNat).a = m.ssn ∧ (t.sess m.qp.toNat).rxCtr = m.counter ∧ t.host.out = s.host.out ∧ t.accts = s.accts

end Sys2Proof.Machine
end

