-- ==== Sys2Proof/Certificates/Slice0/Obligations.lean ====
section
/-! DEFINITION. The statements for the provers. Each docstring says what the statement says and on which rules of spec/ it rests. -/

open Sys2Proof Sys2Proof.Machine

/-! ## The machine as a whole -/

/-- A step takes the command at the front of the queue and is that command's effect on the state with the queue's rest (the block's
form; log entry 1). On an empty queue the block idles (the model's choice, log entry 1). -/
def Obligations.StepRunsTheFrontCommandOrIdles : Prop :=
  (∀ (c : Instr) (rest : List Instr) (s : State), s.pending = c :: rest → step s = exec c { s with pending := rest }) ∧
  (∀ s : State, s.pending = [] → step s = .next s)

/-- No command stops the machine: every command in every state has a next state. Faults of the spec are effects on the state. -/
def Obligations.EveryCommandGoesOn : Prop := ∀ (c : Instr) (s : State), ∃ t, exec c s = .next t

/-- Every step consumes exactly one command and no command touches the queue behind it. -/
def Obligations.StepTakesExactlyOneCommand : Prop := ∀ s t : State, step s = .next t → t.pending = s.pending.tail

/-- Every step keeps the scratchpad in canonical form: addresses strictly rising, no zero byte listed. Every step keeps the stack space
in canonical form. -/
def Obligations.MemoriesStayCanonical : Prop :=
  (∀ s t : State, Cells.wf s.spad = true → step s = .next t → Cells.wf t.spad = true) ∧
  (∀ s t : State, s.mem.wf = true → step s = .next t → t.mem.wf = true)

/-- The part at reset: both memories and all maps canonical, no command waits; and the reset values that the spec gives for the tags of
feed buffers, registers, halves and blocks, the last residual, the quality figure, the stated default of the program-count warning and
of the UOA idle time. -/
def Obligations.ResetLeavesTheSpecValues : Prop :=
  State.reset.canonical = true ∧ State.reset.pending = [] ∧
    (∀ t k : Nat, SMap.get (State.reset.tile t).feeds {} k = ⟨0xFE, []⟩ ∧ (SMap.get (State.reset.tile t).regs {} k).tag = 0xFE ∧
      (SMap.get (State.reset.tile t).tregs {} k).tag = 0xFE ∧ (SMap.get (State.reset.tile t).blocks {} k).tag = 0xFE ∧
      (State.reset.tile t).halfA.tag = 0xFE ∧ (State.reset.tile t).halfB.tag = 0xFE ∧
      (SMap.get (State.reset.tile t).streams {} k).tag = 0xFE) ∧
    (∀ a : Nat, (State.reset.array a).st = .erased ∧ (State.reset.array a).lastResid = 0x80000000 ∧
      (State.reset.array a).quality = 0xFFFF ∧ (State.reset.array a).fired = 0) ∧
    (∀ p : Nat, (State.reset.part p).st = .free) ∧ (∀ a : Nat, (State.reset.acct a).st = .free) ∧
    State.reset.dict.warnAt = 9000 ∧ State.reset.dict.override = false ∧ State.reset.dict.idle = 300 ∧ State.reset.health.st = 0

/-! ## Vector core -/

/-- Lane-wise functions of two sources: VD takes the function of VA and VB, lane by lane; no other register, nothing else of the tile
and nothing outside it changes, and the stream goes on by one word. Lane-wise functions of two sources and the old destination: FFMA,
FSEL, BFMA, IMAC8. Functions of one source, and the long accumulator's conversion, the Philox words and the two reductions: what VD
holds after each. -/
def Obligations.VectorResults : Prop :=
  (∀ p ∈ ([(Instr.fadd, fun _ => f32Add), (Instr.fsub, fun _ => f32Sub), (Instr.fmul, fun _ => f32Mul),
      (Instr.fmin, fun _ => f32MinMax false), (Instr.fmax, fun _ => f32MinMax true), (Instr.fcmp, fun v => cmpLane v.md),
      (Instr.badd, fun _ => bf16Lane fvAdd), (Instr.bmul, fun _ => bf16Lane fvMul), (Instr.iadd32, fun _ a b => a + b)] :
      List ((Issue → VecOps → Instr) × (VecOps → W32 → W32 → W32))),
    ∀ (i : Issue) (v : VecOps) (s : State), s.clearIssue i 7 = true → v.addr = 0 → v.upset = false →
      ∃ t, exec (p.1 i v) s = .next t ∧ t.vreg i v.vd = List.zipWith (p.2 v) (s.vreg i v.va) (s.vreg i v.vb) ∧
        OtherVregs i v.vd s t ∧ TileButVregs i s t ∧ IssueFrame i 7 s t) ∧
  (∀ p ∈ ([(Instr.ffma, f32Fma), (Instr.fsel, fun a b c => if Config.selFirst c then a else b), (Instr.bfma, bf16Fma),
      (Instr.imac8, fun a b c => c + BitVec.ofInt 32 (dot8 a b))] : List ((Issue → VecOps → Instr) × (W32 → W32 → W32 → W32))),
    ∀ (i : Issue) (v : VecOps) (s : State), s.clearIssue i 7 = true → v.addr = 0 → v.upset = false →
      ∃ t, exec (p.1 i v) s = .next t ∧
        (∀ l, l < 64 → (t.vreg i v.vd).getD l 0 = p.2 ((s.vreg i v.va).getD l 0) ((s.vreg i v.vb).getD l 0) ((s.vreg i v.vd).getD l 0)) ∧
        OtherVregs i v.vd s t ∧ TileButVregs i s t ∧ IssueFrame i 7 s t) ∧
  (∀ p ∈ ([(Instr.cvt, fun s i v => (s.vreg i v.va).map (cvtLane v.md)), (Instr.fexp, fun s i v => (s.vreg i v.va).map (f32Fn .exp)),
      (Instr.flog, fun s i v => (s.vreg i v.va).map (f32Fn .log)), (Instr.frcp, fun s i v => (s.vreg i v.va).map (f32Fn .rcp)),
      (Instr.frsq, fun s i v => (s.vreg i v.va).map (f32Fn .rsq)), (Instr.fsig, fun s i v => (s.vreg i v.va).map (f32Fn .sig)),
      (Instr.ferf, fun s i v => (s.vreg i v.va).map (f32Fn .erf)),
      (Instr.lcvt, fun s i v => List.zipWith (lcvtLane (s.strm i).qcfg.floor) (s.vreg i v.vb)
        ((s.tile i.tile.toNat).lacc v.lacc.toNat)),
      (Instr.strm, fun s i v => (List.range 64).map (fun n =>
        (philox ((s.vreg i v.va).getD 0 0) ((s.vreg i v.va).getD 1 0) ((s.vreg i v.vb).getD 0 0 + BitVec.ofNat 32 (n / 4))
          ((s.vreg i v.vb).getD 1 0) ((s.vreg i v.vb).getD 2 0) ((s.vreg i v.vb).getD 3 0)).word n)),
      (Instr.rsum, fun s i v => if Config.reduceAll then List.replicate 64 (treeReduce f32Add 64 (s.vreg i v.va))
        else treeReduce f32Add 64 (s.vreg i v.va) :: (s.vreg i v.vd).drop 1),
      (Instr.rmax, fun s i v => if Config.reduceAll then List.replicate 64 (treeReduce (f32MinMax true) 64 (s.vreg i v.va))
        else treeReduce (f32MinMax true) 64 (s.vreg i v.va) :: (s.vreg i v.vd).drop 1)] :
      List ((Issue → VecOps → Instr) × (State → Issue → VecOps → List W32))),
    ∀ (i : Issue) (v : VecOps) (s : State), s.clearIssue i 7 = true → v.addr = 0 → v.upset = false →
      ∃ t, exec (p.1 i v) s = .next t ∧ t.vreg i v.vd = p.2 s i v ∧ OtherVregs i v.vd s t ∧ TileButVregs i s t ∧ IssueFrame i 7 s t)

/-- Reads of a scratchpad line by the vector core: LDL writes 32 lanes of VD, PACC adds 32 P32 values into a long accumulator, DEQ
writes the values of the burst where its RES is right, as BF16 pairs into VD or as FP32 into VD and VD + 1. The scratchpad is left as it
is. Writes of scratchpad by the vector core: STL stores 32 lanes to its line and nothing elsewhere; LDW and STW read and post one 64-bit
word, which a later access of the tile settles ten cycles after the issue. -/
def Obligations.VectorLineAccesses : Prop :=
  (∀ (i : Issue) (v : VecOps) (s : State), s.clearVecLine i v = true →
    (∃ t, exec (.ldl i v) s = .next t ∧ t.spad = s.spad ∧ OnlyOwnTile i s t ∧ OtherVregs i v.vd s t ∧
      ∀ l, l < 64 → (t.vreg i v.vd).getD l 0 =
        if l / 32 = (if v.md.getLsbD 0 then 1 else 0) then (wordsOfLine (s.padLine i.tile.toNat (vlineNo v))).getD (l % 32) 0
        else (s.vreg i v.vd).getD l 0) ∧
    (∃ t, exec (.pacc i v) s = .next t ∧ t.spad = s.spad ∧ OnlyOwnTile i s t ∧ (∀ r, t.vreg i r = s.vreg i r) ∧
      ∀ l, l < 64 → ((t.tile i.tile.toNat).lacc v.lacc.toNat).getD l 0 =
        if l / 32 = (if v.md.getLsbD 0 then 1 else 0) then
          paccLane (((s.tile i.tile.toNat).lacc v.lacc.toNat).getD l 0)
            ((wordsOfLine (s.padLine i.tile.toNat (vlineNo v))).getD (l % 32) 0)
        else ((s.tile i.tile.toNat).lacc v.lacc.toNat).getD l 0) ∧
    (let h := lanesHdr (s.vreg i v.va)
     let e := elemsOf h (s.padLine i.tile.toNat (vlineNo v)) (v.md.getLsbD 1)
     let f := e.map (burstElem h.exp)
     burstRes e = h.res →
      ∃ t, exec (.deq i v) s = .next t ∧ t.spad = s.spad ∧ OnlyOwnTile i s t ∧
        (v.md.getLsbD 0 = true → OtherVregs i v.vd s t ∧
          t.vreg i v.vd = (List.range 64).map (fun n => fvToBf16 (f.getD (2 * n + 1) .nan) ++ fvToBf16 (f.getD (2 * n) .nan))) ∧
        (v.md.getLsbD 0 = false → (∀ q : BitVec 6, q ≠ v.vd → q ≠ v.vd + 1 → t.vreg i q = s.vreg i q) ∧
          t.vreg i v.vd = (f.take 64).map fvToF32 ∧ t.vreg i (v.vd + 1) = (f.drop 64).map fvToF32))) ∧
  ((∀ (i : Issue) (v : VecOps) (s : State), s.clearVecLine i v = true →
    ∃ t, exec (.stl i v) s = .next t ∧ OnlyOwnTile i s t ∧ (∀ r, t.vreg i r = s.vreg i r) ∧
      t.padLine i.tile.toNat (vlineNo v) = lineOfWords ((s.vreg i v.va).drop (if v.md.getLsbD 0 then 32 else 0)) ∧
      PadOutside i.tile.toNat (vlineNo v) 1 s t) ∧
  (∀ (i : Issue) (v : VecOps) (s : State), s.clearIssue i 7 = true → v.addr.toNat ≤ 49151 → v.upset = false → v.errs = [] →
    (s.tile i.tile.toNat).owns (v.addr.toNat / 16) 1 (s.strm i).tag = true → (s.tile i.tile.toNat).narrow = [] →
    (s.tile i.tile.toNat).narrowW = [] → (s.tile i.tile.toNat).wideUses = [] →
    (∃ t, exec (.ldw i v) s = .next t ∧ t.spad = s.spad ∧ OnlyOwnTile i s t ∧ OtherVregs i v.vd s t ∧
      (t.vreg i v.vd).getD (16 * v.md.toNat) 0 = (s.padWord i.tile.toNat v.addr.toNat).extractLsb' 0 32 ∧
      (t.vreg i v.vd).getD (16 * v.md.toNat + 1) 0 = (s.padWord i.tile.toNat v.addr.toNat).extractLsb' 32 32) ∧
    (∃ t, exec (.stw i v) s = .next t ∧ t.spad = s.spad ∧ OnlyOwnTile i s t ∧ (∀ r, t.vreg i r = s.vreg i r) ∧
      (t.tile i.tile.toNat).narrowW = [(i.cycle.toNat + 10, v.addr.toNat,
        (s.vreg i v.va).getD (16 * v.md.toNat + 1) 0 ++ (s.vreg i v.va).getD (16 * v.md.toNat) 0)])))

/-- The quantiser and the format conversions: QCFG sets the stream's configuration; a QUANT whose group is not yet whole gathers its
burst and writes nothing; a QUANT that is its own group writes the element block of the exponent that the group rule picks, with the
lanes of its entry of the lane-map line and with stochastic rounding where QCFG says so, and the header in lanes 0-3 (log entry 114: the
lane-map line is read at issue); LANEF writes the two lines of the outlier feed; MXIN and MXOUT rewrite their line in place. -/
def Obligations.QuantiserAndConversions : Prop :=
  (∀ (i : Issue) (fmt : Bool) (glog : BitVec 3) (sr : Bool) (floor cap : BitVec 8) (ll : BitVec 12) (lanes : Bool) (s : State),
    s.clearIssue i 7 = true → glog ≠ 7 → floor.toNat ≤ cap.toNat → cap.toNat ≤ 254 → cap.toNat ≤ floor.toNat + 15 →
    ¬ (lanes = true ∧ fmt = true) →
    ∃ t, exec (.qcfg i fmt glog sr floor cap ll lanes 0) s = .next t ∧
      (t.strm i).qcfg = ⟨fmt, glog, sr, floor, cap, ll, lanes⟩ ∧ (t.strm i).qpend = [] ∧
      ((s.strm i).qpend = [] → t.spad = s.spad ∧ OnlyOwnTile i s t ∧ (t.strm i).pc = (s.strm i).pc + 1)) ∧
  (∀ (i : Issue) (v : VecOps) (s : State),
    let q := (s.strm i).qcfg
    let n := (s.strm i).qpend.length
    s.clearVecLine i v = true → (q.lanes = true → (s.tile i.tile.toNat).owns (q.laneOf n) 1 (s.strm i).tag = true) →
    (n + 1 < 2 ^ q.glog.toNat →
      ∃ t, exec (.quant i v) s = .next t ∧ t.spad = s.spad ∧ OnlyOwnTile i s t ∧ (∀ r, t.vreg i r = s.vreg i r) ∧
        (t.strm i).qpend = (s.strm i).qpend ++ [⟨if v.md.getLsbD 1 then bf16Lanes (s.vreg i v.va) else s.vreg i v.va ++ s.vreg i (v.va + 1),
          s.vreg i v.vb ++ s.vreg i (v.vb + 1),
          v.vd.toNat, vlineNo v, v.md.getLsbD 0, n, s.lanePos i q n⟩]) ∧
    ((s.strm i).qpend = [] → q.glog = 0 →
      let x := (if v.md.getLsbD 1 then bf16Lanes (s.vreg i v.va) else s.vreg i v.va ++ s.vreg i (v.va + 1)).map f32Val
      let at_ := s.lanePos i q 0
      let r := quantBurst q.fmt (groupExp q.fmt q.floor.toNat q.cap.toNat (counted at_ (x.map nanZero))) at_
        (if q.sr then some (s.vreg i v.vb ++ s.vreg i (v.vb + 1)) else none) 0 x
      ∃ t, exec (.quant i v) s = .next t ∧
        t.padLine i.tile.toNat (vlineNo v) = putBlock q.fmt (v.md.getLsbD 0) (s.padLine i.tile.toNat (vlineNo v)) r.q ∧
        (t.vreg i v.vd).take 4 = hdrLanes r.hdr ∧ (t.strm i).qpend = [] ∧ PadOutside i.tile.toNat (vlineNo v) 1 s t)) ∧
  (∀ (i : Issue) (v : VecOps) (s : State),
    let d := vlineNo v + 4 * v.vd.toNat
    s.clearVecLines i v 8 = true → (s.tile i.tile.toNat).owns d 2 (s.strm i).tag = true →
    (∀ w ∈ (s.tile i.tile.toNat).wide, w.1 ≠ i.cycle.toNat + 8 ∧ w.1 ≠ i.cycle.toNat + 9) →
    ∃ t, exec (.lanef i v) s = .next t ∧ OnlyOwnTile i s t ∧ PadOutside i.tile.toNat d 2 s t ∧ (∀ r, t.vreg i r = s.vreg i r) ∧
      let f := laneFeed ((List.range 60).map (fun n =>
        hdrOf ((s.padLine i.tile.toNat (vlineNo v + n / 8)).extractLsb' (128 * (n % 8)) 128)))
      t.padLine i.tile.toNat d = BitVec.ofNat 1024 (blockBits false (f.take 256)) ∧
      t.padLine i.tile.toNat (d + 1) = BitVec.ofNat 1024 (blockBits false (f.drop 256))) ∧
  (∀ (i : Issue) (v : VecOps) (s : State), s.clearVecLine i v = true →
    (¬ (2 ≤ v.md.toNat ∧ v.lacc ≠ 0) →
      let r := mxImport v.md (s.strm i).qcfg (mxScales ((s.vreg i v.va).getD 0 0)) (s.padLine i.tile.toNat (vlineNo v))
      ∃ t, exec (.mxin i v) s = .next t ∧ PadOutside i.tile.toNat (vlineNo v) 1 s t ∧
        t.padLine i.tile.toNat (vlineNo v) = BitVec.ofNat 1024 (blockBits true r.q) ∧ (t.vreg i v.vd).take 4 = hdrLanes r.hdr) ∧
    (2 ≤ v.md.toNat → v.lacc ≠ 0 →
      ∃ t, exec (.mxin i v) s = .next t ∧ t.spad = s.spad ∧ OnlyOwnTile i s t ∧ OtherVregs i v.vd s t ∧
        ((mxScales ((s.vreg i v.va).getD 0 0)).contains 255 = true → t.vreg i v.vd = List.replicate 64 0x7FC07FC0)) ∧
    (let h := lanesHdr (s.vreg i v.va)
     let e := elemsOf h (s.padLine i.tile.toNat (vlineNo v)) (v.md.getLsbD 1)
     burstRes e = h.res →
      ∃ t, exec (.mxout i v) s = .next t ∧ OnlyOwnTile i s t ∧ PadOutside i.tile.toNat (vlineNo v) 1 s t ∧
        t.padLine i.tile.toNat (vlineNo v) = BitVec.ofNat 1024 (blockBits true e) ∧
        (t.vreg i v.vd).getD 0 0 =
          (let b : BitVec 8 := if h.exp = 255 then 0xFF else if h.exp + 6 ≤ 254 then BitVec.ofNat 8 (h.exp + 6)
             else Config.mxExp (h.exp + 6)
           b ++ b ++ b ++ b)))

/-- What a read of the program store meets (R166): a corrected bit is counted and the word issues as ever; a word that cannot be
corrected runs nothing, calls for a reload of the store, is fault 0x17 and aborts the step of every partition with a stream on the die
(R198). What a scratchpad read meets, shown on LDL, SEND and FEED (R126, R127): a single wrong bit of a retained line is corrected,
counted and called back for rewriting, and the read gives what it would have given without it; an error that cannot be corrected, and
any error of an activation line, is poison: it reaches no register, feed buffer or flit, is fault 0x13, and aborts the partition's step.
A read of a stack line that meets a single-bit error, or an uncorrectable one that the parity rebuilds, is answered with the line as it
was written and counted; where the rebuild fails, the data are poisoned, counted, never leave, and abort the step (R217). -/
def Obligations.MemoryReadErrors : Prop :=
  (∀ (v : VecOps) (bank : BitVec 2) (array : BitVec 4) (half wfmt : Bool) (line : BitVec 12) (seg : BitVec 2) (mreg : BitVec 3)
    (n : BitVec 16) (errs : ReadErrs), ∀ c ∈ ([fun i => Instr.fadd i v, fun i => .ldl i v, fun i => .stw i v, fun i => .fire i bank array 0 0 0 false 0,
      fun i => .cal i bank array 0, fun i => .tload i half wfmt array 0 errs, fun i => .feed i line seg mreg 0 errs, fun i => .next i n 0,
      fun i => .end_ i n 0] : List (Issue → Instr)),
    ∀ (i : Issue) (s : State), s.issuing i = true →
      (∀ b, exec (c { i with store := .single b }) s =
        exec (c { i with store := .none }) (s.updTile i.tile.toNat (fun t => { t with corrected := t.corrected + 1 }))) ∧
      (∃ t, exec (c { i with store := .uncorrectable }) s = .next t ∧ (t.tile i.tile.toNat).reload = true ∧ t.spad = s.spad ∧
        t.arrays = s.arrays ∧ ∀ p ∈ s.steppers, AbortsIn p s t)) ∧
  ((∀ (i : Issue) (v : VecOps) (bit : Nat) (s : State), s.clearVecLine i v = true →
    ((s.tile i.tile.toNat).blockOf (vlineNo v)).retained = true →
    ∃ t u, exec (.ldl i v) s = .next u ∧ exec (.ldl i { v with errs := [(0, .single bit)] }) s = .next t ∧ t.spad = u.spad ∧
      (∀ r, t.vreg i r = u.vreg i r) ∧ (t.tile i.tile.toNat).corrected = (s.tile i.tile.toNat).corrected + 1 ∧
      vlineNo v ∈ (t.tile i.tile.toNat).writeBack) ∧
  (∀ (i : Issue) (v : VecOps) (e : ReadErr) (s : State), s.clearVecLine i v = true → e ≠ .none →
    (e = .uncorrectable ∨ e = .lineParity ∨ ((s.tile i.tile.toNat).blockOf (vlineNo v)).retained = false) →
    ∃ t, exec (.ldl i { v with errs := [(0, e)] }) s = .next t ∧ t.spad = s.spad ∧ (∀ r, t.vreg i r = s.vreg i r) ∧
      AbortsIn (s.strm i).tag.toNat s t) ∧
  (∀ (i : Issue) (srcline : BitVec 12) (plane : Bool) (dest : TileNo) (port : BitVec 2) (dline : BitVec 12) (xfer : BitVec 8)
      (add anyc : Bool) (line : BitVec 12) (seg : BitVec 2) (mreg : BitVec 3) (s : State),
    (s.clearIssue i 8 = true → srcline.toNat ≤ 3071 → s.portsClear i srcline.toNat 1 = true →
      ∃ t, exec (.send i srcline plane dest port dline xfer add anyc [(0, .uncorrectable)]) s = .next t ∧
        t.mesh.flits.length ≤ s.mesh.flits.length ∧ t.spad = s.spad) ∧
    (s.clearIssue i 6 = true → line.toNat ≤ 3071 → s.portsClear i line.toNat 1 = true →
      (SMap.get (s.strm i).maskAt none mreg.toNat = none) →
      ∃ t, exec (.feed i line seg mreg 0 [(0, .uncorrectable)]) s = .next t ∧
        (t.tile i.tile.toNat).feeds = (s.tile i.tile.toNat).feeds ∧ AbortsIn (s.strm i).tag.toNat s t))) ∧
  ((∀ (unit : Fin 25) (rc entry index a n d epoch bit : Nat) (m : Msg) (s u : State),
    let k := stackOf (a + d)
    s.takeMsg .qreq rc (s.servable unit.val) = some (m, u) → m.msg = .loadReq entry index a n d epoch → a + d < dataLines →
    unit.val ≠ 24 → (∀ k, k < n → s.mayReach m.tag (a + k) = true) → (s.stack k).st ≠ 2 → s.mem.lost.contains (a + d) = false →
    ∃ t x, exec (.loadRequest unit rc {} (.single bit) false) s = .next t ∧ t.mesh.qresp = s.mesh.qresp ++ [x] ∧
      x.msg = .loadData entry (index + d) (s.readMem (a + d)) epoch ∧ t.mem.data = s.mem.data ∧
      (t.stack k).corrected = (s.stack k).corrected + 1) ∧
  (∀ (unit : Fin 25) (rc entry index a n d epoch : Nat) (fails : Bool) (m : Msg) (s u : State),
    let k := stackOf (a + d)
    s.takeMsg .qreq rc (s.servable unit.val) = some (m, u) → m.msg = .loadReq entry index a n d epoch → a + d < dataLines →
    unit.val ≠ 24 → (∀ k, k < n → s.mayReach m.tag (a + k) = true) → (s.stack k).st = 2 → s.mem.lost.contains (a + d) = false →
    m.tag.toNat < 128 →
    ∃ t, exec (.loadRequest unit rc {} .none fails) s = .next t ∧ t.mem.data = s.mem.data ∧
      (t.stack k).rebuilt = (s.stack k).rebuilt + 1 ∧
      (fails = false → ∃ x, t.mesh.qresp = s.mesh.qresp ++ [x] ∧ x.msg = .loadData entry (index + d) (s.readMem (a + d)) epoch) ∧
      (fails = true → t.mesh.qresp = s.mesh.qresp ∧ (t.stack k).poisoned = bump32 (s.stack k).poisoned ∧
        t.mem.lost.contains (a + d) = true ∧ AbortsIn m.tag.toNat s t)))

/-! ## Arrays: issue -/

/-- FIRE and TFIRE whose conditions hold: the array or the transit array is busy until its read mode's cycle, one operation with the
latched feed is under way and becomes readable at the cycle of the mode, and no register, no other array and no byte of scratchpad
changes. CAL whose conditions hold takes the array for 192 cycles and counts one calibration slot on it; no operation, register or byte
of scratchpad changes. A CAL at a busy array is the slot collision of R31. An array that is not Resident, or whose base is not attached
to the partition, is not fired: the command is fault 0x06 and the partition's step aborts (R54, R198). -/
def Obligations.ArrayOperationsAndSlotsIssue : Prop :=
  ((∀ (i : Issue) (bank : BitVec 2) (array : BitVec 4) (mode : BitVec 3) (rge reg : BitVec 4) (acc : Bool) (s : State),
    let a := arrayNo i.tile bank array
    let k := 16 * bank.toNat + array.toNat
    let tag := (s.strm i).tag
    let u := s.tile i.tile.toNat
    s.clearIssue i bank.toNat = true → mode.toNat ≤ 4 → s.mayFire a tag = true → (u.feed k).usable tag = true →
    (acc = true → ∀ r ∈ fireRegs mode.toNat bank.toNat reg.toNat, (SMap.get u.regs {} r).foreign tag = false) →
    busyAt (s.array a).busy s.fu.frame i.cycle.toNat = false → i.cycle.toNat + modeBusy mode.toNat ≤ 960 →
    ∃ t, exec (.fire i bank array mode rge reg acc 0) s = .next t ∧
      t.array a = { s.array a with busy := some ⟨s.fu.frame, i.cycle.toNat + modeBusy mode.toNat, tag⟩ } ∧
      (∀ b, b ≠ a → t.array b = s.array b) ∧ (t.tile i.tile.toNat).regs = u.regs ∧ t.spad = s.spad ∧
      (t.tile i.tile.toNat).ops = u.ops ++ [{
        resident := true, unit := k, mode := mode, dir := false, infmt := false, rge := rge, reg := reg.toNat, acc := acc, tag := tag
        stream := i.stream, iaddr := (s.strm i).pc, input := latched (u.feed k) tag (modeSegs mode.toNat), frame := s.fu.frame
        ready := i.cycle.toNat + modeReadable mode.toNat, isCal := false, void := false }]) ∧
  (∀ (i : Issue) (half : BitVec 2) (dir infmt : Bool) (treg : BitVec 2) (acc : Bool) (fb : BitVec 6) (s : State),
    let tag := (s.strm i).tag
    let u := s.tile i.tile.toNat
    let busy := transitBusy half.toNat dir infmt
    s.clearIssue i 4 = true → half.toNat ≤ 2 → (∀ b ∈ halvesOf half.toNat, (u.half b).tag = tag ∧
      (u.half b).loading = none ∧ (u.half b).copying s.fu.frame i.cycle.toNat = false) →
    (u.feed fb.toNat).usable tag = true → (acc = true → (SMap.get u.tregs {} treg.toNat).foreign tag = false) →
    busyAt u.tbusy s.fu.frame i.cycle.toNat = false → i.cycle.toNat + busy ≤ 960 →
    ∃ t, exec (.tfire i half dir infmt treg acc fb 0) s = .next t ∧
      (t.tile i.tile.toNat).tbusy = some ⟨s.fu.frame, i.cycle.toNat + busy, tag⟩ ∧ (t.tile i.tile.toNat).tregs = u.tregs ∧
      t.spad = s.spad ∧ t.arrays = s.arrays ∧
      (t.tile i.tile.toNat).ops = u.ops ++ [{
        resident := false, unit := half.toNat, mode := 0, dir := dir && decide (half ≠ 2), infmt := infmt, rge := 0xF
        reg := treg.toNat, acc := acc, tag := tag, stream := i.stream, iaddr := (s.strm i).pc
        input := latched (u.feed fb.toNat) tag (transitSegs half.toNat dir infmt), frame := s.fu.frame
        ready := i.cycle.toNat + busy + 6, isCal := false, void := false, halves := some (u.halfA, u.halfB) }])) ∧
  (∀ (i : Issue) (bank : BitVec 2) (array : BitVec 4) (s : State),
    let a := arrayNo i.tile bank array
    let tag := (s.strm i).tag
    s.clearIssue i bank.toNat = true → s.mayFire a tag = true → busyAt (s.array a).busy s.fu.frame i.cycle.toNat = false →
    i.cycle.toNat + 192 ≤ 960 →
    ∃ t, exec (.cal i bank array 0) s = .next t ∧
      (t.array a).busy = some ⟨s.fu.frame, i.cycle.toNat + 192, tag⟩ ∧ (t.array a).slots = (s.array a).slots + 1 ∧
      (t.array a).slotsAll = (s.array a).slotsAll + 1 ∧ (∀ b, b ≠ a → t.array b = s.array b) ∧
      (t.tile i.tile.toNat).ops = (s.tile i.tile.toNat).ops ∧ (t.tile i.tile.toNat).regs = (s.tile i.tile.toNat).regs ∧
      t.spad = s.spad) ∧
  (∀ (i : Issue) (bank : BitVec 2) (array : BitVec 4) (mode : BitVec 3) (rge reg : BitVec 4) (acc : Bool) (s : State),
    let a := arrayNo i.tile bank array
    s.clearIssue i bank.toNat = true → mode.toNat ≤ 4 → (s.array a).st ≠ .resident →
    ∃ t, exec (.fire i bank array mode rge reg acc 0) s = .next t ∧ AbortsIn (s.strm i).tag.toNat s t ∧
      t.arrays = s.arrays ∧ t.spad = s.spad)

/-- Lines into and out of the arrays: XFER writes the eight value lines and the status line of a register and nothing else of the
scratchpad; FEED writes one segment of every feed buffer of its mask; TLOAD copies the 256 lines of a retained block into its half. -/
def Obligations.FeedsTransfersAndRetainedLoads : Prop :=
  (∀ (i : Issue) (src : Bool) (bank : BitVec 2) (reg : BitVec 4) (shift : BitVec 5) (line : BitVec 12) (s : State),
    let u := s.tile i.tile.toNat
    let r := u.register src bank.toNat reg.toNat
    s.clearIssue i 5 = true → line.toNat ≤ 3063 → regFieldsOk src bank reg shift = true →
    u.pendingInto s.fu.frame i.cycle.toNat src bank.toNat reg.toNat = none → r.foreign (s.strm i).tag = false →
    i.cycle.toNat + 9 ≤ 960 → i.upset = false → s.portsClear i line.toNat 9 = true →
    ∃ t, exec (.xfer i src bank reg shift line 0) s = .next t ∧
      (∀ k, k < 8 → t.padLine i.tile.toNat (line.toNat + k) =
        lineOfWords (((r.out src shift.toNat).vals.drop (32 * k)).take 32)) ∧
      t.padLine i.tile.toNat (line.toNat + 8) = lineOfWords [if r.tag = 0xFE then 0 else r.status.bits] ∧
      PadOutside i.tile.toNat line.toNat 9 s t ∧ (t.tile i.tile.toNat).regs = u.regs ∧ (t.tile i.tile.toNat).tregs = u.tregs) ∧
  (∀ (i : Issue) (line : BitVec 12) (seg : BitVec 2) (mreg : BitVec 3) (s : State),
    let u := s.tile i.tile.toNat
    s.clearIssue i 6 = true → line.toNat ≤ 3071 → s.portsClear i line.toNat 1 = true →
    (∀ m, SMap.get (s.strm i).maskAt none mreg.toNat = some m → ¬ (m.frame = s.fu.frame ∧ i.cycle.toNat < m.cycle + 10)) →
    ∃ t, exec (.feed i line seg mreg 0 []) s = .next t ∧ t.spad = s.spad ∧ OnlyOwnTile i s t ∧
      ∀ n, n < 64 → SMap.get (t.tile i.tile.toNat).feeds {} n =
        if (SMap.get (s.strm i).masks 0 mreg.toNat).getLsbD n then
          (SMap.get u.feeds {} n).fed (s.strm i).tag seg.toNat (s.padLine i.tile.toNat line.toNat)
        else SMap.get u.feeds {} n) ∧
  (∀ (i : Issue) (half wfmt : Bool) (block : BitVec 4) (s : State),
    let u := s.tile i.tile.toNat
    let tag := (s.strm i).tag
    s.clearIssue i 4 = true → block.toNat ≤ 11 → (SMap.get u.blocks {} block.toNat).retained = true →
    ((u.half half).tag = tag ∨ (u.half half).tag = 0xFE) → u.opOn s.fu.frame i.cycle.toNat half = false →
    (u.half half).loading = none → i.cycle.toNat + 256 ≤ 960 → s.portsClear i (256 * block.toNat) 256 = true →
    ∃ t, exec (.tload i half wfmt block 0 []) s = .next t ∧ t.spad = s.spad ∧ OnlyOwnTile i s t ∧
      ((t.tile i.tile.toNat).half half).tag = tag ∧ ((t.tile i.tile.toNat).half half).wfmt = wfmt ∧
      ((t.tile i.tile.toNat).half half).loading = none ∧ ((t.tile i.tile.toNat).half half).copy = some (s.fu.frame, i.cycle.toNat, block.toNat) ∧
      (t.tile i.tile.toNat).half (!half) = u.half (!half) ∧
      ∀ r, r < 256 → SMap.get ((t.tile i.tile.toNat).half half).lines 0 r = s.padLine i.tile.toNat (256 * block.toNat + r))

/-! ## Arrays: results, repair, programming -/

/-- A register that an operation completes into holds each value at most 2^31 - 1 in magnitude: what would pass the bound is held there
and sets ACC_SAT; the no-value code never appears (R36). -/
def Obligations.AccumulatorSaturates : Prop :=
  ∀ (r : AccReg) (o : OpOut) (l : Nat), l < 256 →
    let old : Int := if o.acc = true ∧ r.tag ≠ 0xFE then (SMap.get r.vals 0 l).toInt else 0
    let sum := old + o.vals.getD l 0
    let v := SMap.get (r.update o).vals 0 l
    (2147483647 < sum → v.toInt = 2147483647 ∧ (r.update o).status.accSat = true) ∧
    (sum < -2147483647 → v.toInt = -2147483647 ∧ (r.update o).status.accSat = true) ∧
    (-2147483647 ≤ sum → sum ≤ 2147483647 → v.toInt = sum) ∧ v ≠ 0x80000000

/-- A forward array operation that passes its checks, on becoming readable: the register holds, or has added to it, what the bank
combines from the codes; the operation has left the queue and the array's fired operations have grown by one unless no slice fired. A
transit operation that passes its checks, on becoming readable: its register is updated with the exact sums of R139. -/
def Obligations.ResultsReachTheirRegisters : Prop :=
  (∀ (array : ArrayNo) (codes : List (List Int)) (s : State) (o : PendOp),
    let u := s.tile (array.toNat / 64)
    let x := s.array array.toNat
    let c := o.conv codes
    let w := s.health.widened
    u.ops.find? (fun q => q.resident && !q.isCal && decide (q.unit = array.toNat % 64)) = some o →
    (u.ops.erase o).find? (fun b => sameTarget o b && !b.acc && !b.void) = none → o.void = false → o.mode.toNat ≤ 3 →
    c.failMask x o.input w = 0 → (SMap.get u.regs {} (regKey (o.unit / 16) o.reg)).foreign o.tag = false →
    ∃ t, exec (.arrayResultReadable array codes false) s = .next t ∧
      (t.tile (array.toNat / 64)).ops = u.ops.erase o ∧
      SMap.get (t.tile (array.toNat / 64)).regs {} (regKey (o.unit / 16) o.reg) =
        (SMap.get u.regs {} (regKey (o.unit / 16) o.reg)).update
          { tag := o.tag, acc := o.acc, vals := (List.range 256).map c.out, status := c.status x o w
            pred := (List.range 8).map (fun k => c.out (256 + k)), win := (List.range 8).map (fun _ => outWindow o.mode.toNat w)
            noPred := decide (o.mode.toNat = 3) } ∧
      (t.array array.toNat).fired = (if c.silent then x.fired else x.fired + 1) ∧ t.spad = s.spad ∧ t.parts = s.parts) ∧
  (∀ (tile : TileNo) (s : State) (o : PendOp),
    let u := s.tile tile.toNat
    u.ops.find? (fun q => !q.resident) = some o → o.void = false → o.tallyMiss = none →
    (u.ops.erase o).find? (fun b => sameTarget o b && !b.acc && !o.acc && !b.void) = none →
    (SMap.get u.tregs {} o.reg).foreign o.tag = false →
    ∃ t, exec (.transitResultReadable tile false false none) s = .next t ∧ (t.tile tile.toNat).ops = u.ops.erase o ∧
      SMap.get (t.tile tile.toNat).tregs {} o.reg = (SMap.get u.tregs {} o.reg).update o.transitResult ∧
      (∀ k, k ≠ o.reg → SMap.get (t.tile tile.toNat).tregs {} k = SMap.get u.tregs {} k) ∧ t.spad = s.spad ∧ t.arrays = s.arrays)

/-- Repair of a Withdrawn array: after the diagnosis, repair where the failed columns find free spares, else Failed; each spare
programmed takes one column off the list and its map entry waits; at a boundary of all users the map takes effect and the array is
Resident. Programming: the program engine takes the first array of its queue, counts the erase, sets the marker and programs the weights
of the image, tally sums computed by firmware; at the end the array is Resident with the marker clear; a release erase leaves the arrays
of an unattached base Erased with one erase more, the marker set where power was lost in it. -/
def Obligations.ArrayRepairAndProgramming : Prop :=
  ((∀ (array : ArrayNo) (failed : List (BitVec 9)) (s : State),
    let x := s.array array.toNat
    x.st = .withdrawn → x.diagnosing = true →
    ∃ t, exec (.arrayDiagnosisEnd array failed) s = .next t ∧
      (if failed = [] ∨ x.freeSpares.length < failed.length then (t.array array.toNat).st = .failed
       else (t.array array.toNat).st = .withdrawn ∧ (t.array array.toNat).failedCols = failed) ∧
      (t.array array.toNat).diagnosing = false ∧ (t.array array.toNat).progCount = x.progCount ∧ t.spad = s.spad) ∧
  (∀ (array : ArrayNo) (column : BitVec 9) (k : Nat) (s : State),
    let x := s.array array.toNat
    x.st = .withdrawn → x.failedCols.contains column = true → x.freeSpares.head? = some k →
    ∃ t, exec (.spareProgrammingEnd array column) s = .next t ∧
      SMap.get (t.array array.toNat).colMapNew 0 k = fieldEntry column.toNat ∧ (t.array array.toNat).colMap = x.colMap ∧
      (∀ r, r < 512 → SMap.get (t.array array.toNat).spare 0 (8 * r + k) = x.colCell column.toNat r) ∧
      column ∉ (t.array array.toNat).failedCols ∧ (t.array array.toNat).progCount = x.progCount) ∧
  (∀ (array : ArrayNo) (s : State),
    let x := s.array array.toNat
    x.st = .withdrawn → x.diagnosing = false → x.failedCols = [] → (s.usersOf array.toNat).all s.atBoundary = true →
    ∃ t, exec (.arrayReturn array) s = .next t ∧ (t.array array.toNat).st = .resident ∧ (t.array array.toNat).colMapNew = [] ∧
      (t.array array.toNat).colMap = x.colMapNew.foldl (fun m e => SMap.set m 0 e.1 e.2) x.colMap ∧
      (∀ a, a ≠ array.toNat → t.array a = s.array a) ∧ (∀ p, p ∉ s.usersOf array.toNat → t.part p = s.part p) ∧
      ∀ p ∈ s.usersOf array.toNat, (t.part p).nextStreams = none ∧ (t.part p).streams =
        ((s.part p).nextStreams.getD (s.part p).streams &&& ~~~ layerBits x.layers) ||| t.streamRequest p)) ∧
  ((∀ (tile : TileNo) (a : ArrayNo) (rest : List ArrayNo) (cells : List (Nat × Int)) (d : BitVec 384) (s : State),
    let x := s.array a.toNat
    (s.tile tile.toNat).progQueue = a :: rest → (s.tile tile.toNat).progNow = none → x.st.programmable = true → a.toNat / 64 = tile.toNat →
    (∀ c ∈ cells, -7 ≤ c.2 ∧ c.2 ≤ 7) → x.progCount < 10000 → x.failedCols = [] →
    ∃ t, exec (.arrayProgrammingStart tile cells d true) s = .next t ∧ (t.array a.toNat).st = .programming ∧
      (t.array a.toNat).progCount = x.progCount + 1 ∧ (t.array a.toNat).marker = true ∧
      (t.array a.toNat).cells = cellMap cells ∧ (t.array a.toNat).tally = tallySums (cellMap cells) ∧
      (t.tile tile.toNat).progNow = some a ∧ (t.tile tile.toNat).progQueue = rest) ∧
  (∀ (array : ArrayNo) (bad : List (BitVec 9)) (offsets gains : List Int) (sums : List (BitVec 12)) (q : BitVec 16) (s : State),
    let x := s.array array.toNat
    x.st = .programming → x.freeSpares.length < bad.length →
    ∃ t, exec (.arrayProgrammingEnd array bad offsets gains sums q) s = .next t ∧ (t.array array.toNat).st = .failed ∧
      (t.array array.toNat).marker = x.marker ∧ (t.tile (array.toNat / 64)).progNow = none) ∧
  (∀ (array : ArrayNo) (bad : List (BitVec 9)) (offsets gains : List Int) (sums : List (BitVec 12)) (q : BitVec 16) (s : State),
    let x := s.array array.toNat
    x.st = .programming → bad.length ≤ x.freeSpares.length →
    ∃ t, exec (.arrayProgrammingEnd array bad offsets gains sums q) s = .next t ∧ (t.array array.toNat).st = .resident ∧
      (t.array array.toNat).marker = false ∧ (t.array array.toNat).quality = q ∧ (t.array array.toNat).cal.sums = sumsOf sums ∧
      (t.array array.toNat).corr = corrOf offsets gains ∧ (t.array array.toNat).lastFull = s.dawn.hours ∧
      (t.array array.toNat).progCount = x.progCount ∧ (t.tile (array.toNat / 64)).progNow = none) ∧
  (∀ (base : BitVec 5) (lost : Bool) (a : Nat) (s : State), SMap.rising s.arrays = true →
    (SMap.get s.dict.bases (0, 0) base.toNat).1 = 0 → (s.array a).base = some base → (s.array a).st = .resident →
    (s.array a).progCount < 10000 →
    ∃ t, exec (.releaseErase base lost) s = .next t ∧ (t.array a).st = .erased ∧ (t.array a).progCount = (s.array a).progCount + 1 ∧
      (t.array a).cells = [] ∧ (t.array a).marker = lost))

/-! ## Calibration -/

/-- Calibration of one array from start to write: the calibration unit takes the array that is next by rank, all its requests with it,
and its figure turns stale; at the end of the last stage the corrections it found stand, the figure is the one measured and no longer
stale, and the set that the run gives joins the staging area; the oldest staged rows are written and the write count grows by the rows
written; a window of 4,096 operations ends and is counted, and a new one begins. The upkeep of calibration: a rotation queues the
array's full calibration once; a run of 1,024 frames in which an array in use received fewer than 64 slots is a shortfall, counted and
recorded once, and 64 are enough; a correction save copies every array's corrections and changes the generation of the store; an array
with no probe and fewer than 256 slices waits for its next probe at a drift evaluation. The set status of an array is a function of its
sweep numbers alone (R109): all four 0 factory; all equal and the current sweep, neither 0 nor 0xFFFF, swept (R114); any 0xFFFF rebuilt;
different with none 0xFFFF mixed. -/
def Obligations.CalibrationRunsAndUpkeep : Prop :=
  ((∀ (tile : TileNo) (a : Nat) (s : State),
    let u := s.tile tile.toNat
    u.calNow = none → u.nextCal (fun n => decide ((s.array n).st = .resident)) = some a →
    ∃ t, exec (.fullCalibrationStart tile) s = .next t ∧ (t.tile tile.toNat).calNow = some (BitVec.ofNat 15 a) ∧
      (∀ n ∈ (t.tile tile.toNat).calPrio, n ≠ a ∧ n ∈ u.calPrio) ∧ (∀ n ∈ (t.tile tile.toNat).calRot, n ≠ a ∧ n ∈ u.calRot) ∧
      (∀ n ∈ (t.tile tile.toNat).calUser, n.1 ≠ a ∧ n ∈ u.calUser) ∧
      (t.array a).running = some (u.calWhy a (decide ((s.array a).rebuild = 1))) ∧
      (t.array a).stage = 1 ∧ (t.array a).stale = true ∧ (t.array a).cal = (s.array a).cal ∧ (∀ b, b ≠ a → t.array b = s.array b)) ∧
  (∀ (array : ArrayNo) (offsets gains : List Int) (sums : List (BitVec 12)) (q : BitVec 16) (s : State) (r : CalWhy),
    let x := s.array array.toNat
    let temp := s.tileTemp (array.toNat / 64)
    let later := (s.tile (array.toNat / 64)).calPrio.contains array.toNat
    SMap.rising s.arrays = true → x.running = some r → x.suspended = false → x.stage = 5 → x.stageSlots = 1024 →
    ∃ t, exec (.fullCalibrationEnd array offsets gains sums q) s = .next t ∧ (t.array array.toNat).running = none ∧
      (t.array array.toNat).corr = x.fullCorr offsets gains ∧ (t.array array.toNat).quality = q ∧ (t.array array.toNat).stale = false ∧
      (t.array array.toNat).lastFull = s.dawn.hours ∧ (t.tile (array.toNat / 64)).calNow = none ∧
      (t.array array.toNat).staging = x.staging ++
        (if later = true ∧ r.user ≠ [] then none
         else ({ x with corr := x.fullCorr offsets gains }.retrim temp).newSet r (if later then [] else r.user) temp (sumsOf sums)
           s.health.sweep s.medianSlope).toList) ∧
  (∀ (array : ArrayNo) (offsets gains : List Int) (sums : List (BitVec 12)) (q : BitVec 16) (s : State),
    let x := s.array array.toNat
    (x.running = none ∨ x.suspended = true ∨ x.stage ≠ 5 ∨ x.stageSlots ≠ 1024) →
    exec (.fullCalibrationEnd array offsets gains sums q) s = .next s) ∧
  (∀ (array : ArrayNo) (e : StagedSet) (rest : List StagedSet) (s : State),
    let x := s.array array.toNat
    SMap.rising s.arrays = true → x.staging = e :: rest →
    ∃ t, exec (.calibrationWriteEnd array) s = .next t ∧ (t.array array.toNat).staging = rest ∧
      (t.array array.toNat).cal.trims = e.set.trims ∧ (t.array array.toNat).cal.sums = e.set.sums ∧
      (t.array array.toNat).cal.sweeps = e.set.sweeps ∧
      (t.array array.toNat).cal.writes = x.cal.writes + BitVec.ofNat 32 e.rows ∧
      (t.array array.toNat).corr = (if e.zero then [] else x.corr) ∧
      (if e.user then t.dict.calWritten = s.dict.calWritten + 1 else ∀ b, b ≠ array.toNat → t.array b = s.array b)) ∧
  (∀ (array : ArrayNo) (s : State),
    let x := s.array array.toNat
    4096 ≤ x.win.ops → x.running = none → x.st = .resident → s.dict.bgEnable = true →
    ∃ t, exec (.backgroundWindowEnd array) s = .next t ∧ (t.array array.toNat).windows = x.windows + 1 ∧
      (t.array array.toNat).win = {} ∧ (t.array array.toNat).stale = false ∧ (t.array array.toNat).cells = x.cells ∧ (t.array array.toNat).cal = x.cal ∧
      (t.array array.toNat).quality = (if 1024 ≤ x.win.count then x.win.figure else x.quality))) ∧
  ((∀ (array : ArrayNo) (s : State), (s.array array.toNat).st = .resident → s.dict.rotation ≠ 0 →
    ∃ t, exec (.rotationDue array) s = .next t ∧
      (t.tile (array.toNat / 64)).calRot = insertRising (s.tile (array.toNat / 64)).calRot array.toNat ∧
      (t.tile (array.toNat / 64)).calPrio = (s.tile (array.toNat / 64)).calPrio ∧
      (t.tile (array.toNat / 64)).calUser = (s.tile (array.toNat / 64)).calUser ∧ t.arrays = s.arrays) ∧
  (∀ (array : ArrayNo) (k : Nat) (s : State), s.usersOf array.toNat ≠ [] → (s.array array.toNat).slotsRun = some k →
    (k < 64 → s.recd.buffer.length < 448 →
      ∃ t, exec (.slotShortfall array) s = .next t ∧ t.dict.shortfalls = bump32 s.dict.shortfalls ∧
        t.recd.buffer.length = s.recd.buffer.length + 1 ∧ (t.array array.toNat).slotsRun = none ∧
        (∀ b, b ≠ array.toNat → t.array b = s.array b)) ∧
    (64 ≤ k → exec (.slotShortfall array) s = .next s)) ∧
  (∀ (s : State) (a : Nat), SMap.rising s.arrays = true →
    ∃ t, exec .correctionSave s = .next t ∧ (t.array a).corrSaved = (s.array a).corr ∧ (t.array a).corr = (s.array a).corr ∧
      t.dict.corrGen = 1 - s.dict.corrGen ∧ t.tiles = s.tiles) ∧
  (∀ (part : PartNo) (a : Nat) (s : State), s.attachedArrays part.toNat = [a] → (s.part part.toNat).step.toNat % 256 = 0 →
    (s.part part.toNat).st = .serving → (s.array a).st = .resident → (s.array a).win.slices < 256 → (s.array a).probe = none →
    ∃ t, exec (.driftEvaluation part) s = .next t ∧ (t.array a).awaitProbe = true ∧ t.health.driftEvals = s.health.driftEvals + 1)) ∧
  (∀ (s : State) (a : Nat) (w0 w1 w2 w3 : BitVec 16), (s.array a).cal.sweeps = [w0, w1, w2, w3] →
    let st := s.setStatus a
    (w0 = 0 → w1 = 0 → w2 = 0 → w3 = 0 → st = 0) ∧
    (w0 = w1 → w1 = w2 → w2 = w3 → w0 ≠ 0 → w0 ≠ 0xFFFF → w0 = s.health.sweep → st = 1) ∧
    ((w0 = 0xFFFF ∨ w1 = 0xFFFF ∨ w2 = 0xFFFF ∨ w3 = 0xFFFF) → st = 3) ∧
    (¬ (w0 = w1 ∧ w1 = w2 ∧ w2 = w3) → w0 ≠ 0xFFFF → w1 ≠ 0xFFFF → w2 ≠ 0xFFFF → w3 ≠ 0xFFFF → st = 2))

/-! ## Sends, queues, waits, credits, control -/

/-- SEND puts one flit with the source line into the mesh, SENDR eight with the register's values; neither writes scratchpad; a remote
write needs a live mirror for each line or an any-writer credit at its owner. A remote write by SEND without a live mirror is a credit
violation: it is counted, the step aborts and no byte of scratchpad changes. -/
def Obligations.SendsInjectFlits : Prop :=
  (∀ (i : Issue) (srcline : BitVec 12) (plane : Bool) (dest : TileNo) (port : BitVec 2) (dline : BitVec 12) (xfer : BitVec 8) (add : Bool)
      (anyc : Bool) (s : State),
    s.clearIssue i 8 = true → srcline.toNat ≤ 3071 → sendFieldsOk i.tile dest port anyc = true → s.portsClear i srcline.toNat 1 = true →
    (remoteTile i.tile dest port = false ∨ anyc = true ∨
      (spendMirrors (s.strm i).tag dest.toNat 1 dline.toNat (s.tile i.tile.toNat).mirrors).isSome = true) →
    ∃ t, exec (.send i srcline plane dest port dline xfer add anyc []) s = .next t ∧ t.spad = s.spad ∧
      t.mesh = { s.mesh with flits := s.mesh.flits ++ [{
        add := add, src := i.tile, dest := dest, port := port, line := dline, tag := (s.strm i).tag, xfer := xfer
        count := if add then 1 else 0, res := if add then flitRes (s.padLine i.tile.toNat srcline.toNat) else 0, plane := plane
        data := s.padLine i.tile.toNat srcline.toNat, frame := s.fu.frame, sent := i.cycle.toNat, hop := 0, anyc := anyc, pred := none
        stream := i.stream, void := false }] }) ∧
  (∀ (i : Issue) (srcline : BitVec 12) (plane : Bool) (dest : TileNo) (dline : BitVec 12) (xfer : BitVec 8) (add : Bool) (s : State),
    s.clearIssue i 8 = true → srcline.toNat ≤ 3071 → dest ≠ i.tile → s.portsClear i srcline.toNat 1 = true →
    (s.tile i.tile.toNat).mirrors.any (mirrorFor (s.strm i).tag dest.toNat dline.toNat) = false →
    ∃ t, exec (.send i srcline plane dest 0 dline xfer add false []) s = .next t ∧ t.spad = s.spad ∧
      (t.tile i.tile.toNat).violations = bump32 (s.tile i.tile.toNat).violations ∧
      AbortsIn (s.strm i).tag.toNat s t) ∧
  (∀ (i : Issue) (src : Bool) (bank : BitVec 2) (reg : BitVec 4) (shift : BitVec 5) (plane : Bool) (dest : TileNo) (port : BitVec 2)
      (dline : BitVec 12) (xfer : BitVec 8) (anyc : Bool) (s : State),
    let u := s.tile i.tile.toNat
    let r := u.register src bank.toNat reg.toNat
    s.clearIssue i 5 = true → regFieldsOk src bank reg shift = true → sendFieldsOk i.tile dest port anyc = true →
    u.pendingInto s.fu.frame i.cycle.toNat src bank.toNat reg.toNat = none → r.foreign (s.strm i).tag = false →
    i.upset = false → (remoteTile i.tile dest port = false ∨ anyc = true ∨
      (spendMirrors (s.strm i).tag dest.toNat 8 dline.toNat u.mirrors).isSome = true) →
    ∃ t, exec (.sendr i src bank reg shift plane dest port dline xfer 0 anyc) s = .next t ∧ t.spad = s.spad ∧
      t.mesh.flits.length = s.mesh.flits.length + 8 ∧ s.mesh.flits <+: t.mesh.flits ∧
      ∀ k, k < 8 → ∀ f, t.mesh.flits[s.mesh.flits.length + k]? = some f →
        f.add = true ∧ f.dest = dest ∧ f.port = port ∧ f.line = dline + BitVec.ofNat 12 k ∧ f.count = 1 ∧
        f.sent = i.cycle.toNat + k ∧ f.tag = (s.strm i).tag ∧
        f.data = lineOfWords (((r.out src shift.toNat).vals.drop (32 * k)).take 32))

/-- A queue instruction at a Free entry issues it with its tag, lines and address; the entry keeps its epoch. LOAD sends one request for
each run of its lines that one unit holds (R148, R220), RREAD one to its owner, STORE none until the drain reaches it. At an entry that
is not Free it is a queue overfill. -/
def Obligations.QueueEntriesIssue : Prop :=
  (∀ (i : Issue) (entry : BitVec 6) (line : BitVec 12) (lines : BitVec 6) (breg : BitVec 3) (offset : BitVec 17) (s : State),
    let u := s.tile i.tile.toNat
    let a := ((s.strm i).breg s.fu.frame i.cycle.toNat breg.toNat).toNat + offset.toNat
    s.clearIssue i 9 = true → line.toNat + lines.toNat ≤ 3071 → (u.load entry.toNat).st = .free →
    ∃ t, exec (.load i entry false false line lines breg offset) s = .next t ∧ t.spad = s.spad ∧
      (t.tile i.tile.toNat).load entry.toNat = {
        st := .issued, tag := (s.strm i).tag, stream := i.stream, toHalf := none, line := line.toNat, lines := lines.toNat + 1
        done := 0, acked := 0, addr := a, epoch := (u.load entry.toNat).epoch } ∧
      t.mesh.qreq.map Msg.says = s.mesh.qreq.map Msg.says ++ (unitRuns a (lines.toNat + 1)).map (fun r =>
        (i.tile.toNat, unitRouter (unitOf (a + r.1)), unitPort (unitOf (a + r.1)) (a + r.1), (s.strm i).tag,
          .loadReq entry.toNat r.1 (a + r.1) r.2 0 (u.load entry.toNat).epoch))) ∧
  (∀ (i : Issue) (entry : BitVec 6) (wfmt : Bool) (line : BitVec 12) (lines : BitVec 6) (breg : BitVec 3) (offset : BitVec 17) (s : State),
    let u := s.tile i.tile.toNat
    let h := u.half (line.getLsbD 11)
    s.clearIssue i 9 = true → line.extractLsb' 8 3 = 0 → (u.load entry.toNat).st = .free → (h.tag = (s.strm i).tag ∨ h.tag = 0xFE) →
    ∃ t, exec (.load i entry true wfmt line lines breg offset) s = .next t ∧ t.spad = s.spad ∧
      (t.tile i.tile.toNat).load entry.toNat = {
        st := .issued, tag := (s.strm i).tag, stream := i.stream, toHalf := some (line.getLsbD 11), wfmt := wfmt, line := line.toNat % 256
        lines := lines.toNat + 1, done := 0, acked := 0
        addr := ((s.strm i).breg s.fu.frame i.cycle.toNat breg.toNat).toNat + offset.toNat, epoch := (u.load entry.toNat).epoch } ∧
      t.mesh.qreq.length = s.mesh.qreq.length +
        (unitRuns (((s.strm i).breg s.fu.frame i.cycle.toNat breg.toNat).toNat + offset.toNat) (lines.toNat + 1)).length) ∧
  (∀ (i : Issue) (entry : BitVec 6) (line : BitVec 12) (lines : BitVec 6) (breg : BitVec 3) (offset : BitVec 17) (s : State),
    let u := s.tile i.tile.toNat
    s.clearIssue i 9 = true → entry.toNat < 32 → line.toNat + lines.toNat ≤ 3071 → (u.storeE entry.toNat).st = .free →
    u.owns line.toNat (lines.toNat + 1) (s.strm i).tag = true →
    ∃ t, exec (.store i entry false false line lines breg offset) s = .next t ∧ t.spad = s.spad ∧ t.mesh = s.mesh ∧
      (t.tile i.tile.toNat).storeE entry.toNat = {
        st := .issued, tag := (s.strm i).tag, stream := i.stream, toHalf := none, line := line.toNat, lines := lines.toNat + 1
        done := 0, acked := 0, addr := ((s.strm i).breg s.fu.frame i.cycle.toNat breg.toNat).toNat + offset.toNat
        epoch := (u.storeE entry.toNat).epoch }) ∧
  (∀ (i : Issue) (entry : BitVec 6) (src : TileNo) (sline line : BitVec 12) (s : State),
    let u := s.tile i.tile.toNat
    s.clearIssue i 9 = true → sline.toNat ≤ 3071 → line.toNat ≤ 3071 → (u.load entry.toNat).st = .free →
    ∃ t, exec (.rread i entry src sline line 0) s = .next t ∧ t.spad = s.spad ∧
      ((t.tile i.tile.toNat).load entry.toNat).st = .issued ∧ ((t.tile i.tile.toNat).load entry.toNat).line = line.toNat ∧
      t.mesh.vc2.map Msg.says = s.mesh.vc2.map Msg.says ++
        [(i.tile.toNat, src.toNat, 0, (s.strm i).tag, .readReq entry.toNat sline.toNat (u.load entry.toNat).epoch)]) ∧
  (∀ (i : Issue) (entry : BitVec 6) (src : TileNo) (sline line : BitVec 12) (s : State),
    s.clearIssue i 9 = true → sline.toNat ≤ 3071 → line.toNat ≤ 3071 → ((s.tile i.tile.toNat).load entry.toNat).st ≠ .free →
    ∃ t, exec (.rread i entry src sline line 0) s = .next t ∧ t.spad = s.spad ∧ t.mesh.vc2 = s.mesh.vc2 ∧
      AbortsIn (s.strm i).tag.toNat s t)

/-- RECV at a Free entry, for lines within a receive entry of the partition whose lines have not all come and whose compiled cycle has:
the load entry is Issued and the receive entry will serve it; nothing lands yet. Where all lines have come, they are sent to the tile at
once. WAIT on an entry that was Complete a cycle before claims it: the entry is Free with its epoch. Where it became Complete only `d`
cycles from the WAIT's cycle on, the schedule is held until the cycle after, and the entry is claimed (R194). WAIT on an Issued entry
holds the schedule at its cycle and names the partition as a cause. WAIT on a Free entry is fault 0x04. CREDIT writes its entry, live
with REMAIN equal to COUNT, and tells the one writer it names; it is refused as a credit violation where the range leaves the
scratchpad, exceeds 64 lines or meets a live credit. -/
def Obligations.ReceivesWaitsAndCredits : Prop :=
  ((∀ (i : Issue) (link : BitVec 4) (slot line : BitVec 12) (lines entry : BitVec 6) (s : State) (k : Nat) (x : Xfer),
    let u := s.tile i.tile.toNat
    let e := s.link link.toNat
    s.clearIssue i 8 = true → link.toNat ≤ 10 → slot.toNat ≤ 2047 → line.toNat + lines.toNat ≤ 3071 →
    (u.load entry.toNat).st = .free → e.rxAt slot.toNat = some (k, x) → SMap.get e.rxEnts {} k = x → x.tag = (s.strm i).tag →
    slot.toNat - x.base.toNat + (lines.toNat + 1) ≤ x.lines → e.full x = false → x.clear = 0 →
    ¬ ((s.stepPos i).1 < x.frameOff.toNat ∨ ((s.stepPos i).1 = x.frameOff.toNat ∧ (s.stepPos i).2 < x.cycle.toNat)) →
    ∃ t, exec (.recv i link slot line lines entry 0) s = .next t ∧ t.spad = s.spad ∧ t.parts = s.parts ∧ t.mesh = s.mesh ∧
      (t.tile i.tile.toNat).load entry.toNat = {
        st := .issued, tag := (s.strm i).tag, stream := i.stream, toHalf := none, line := line.toNat, lines := lines.toNat + 1
        done := 0, acked := 0, addr := 0, epoch := (u.load entry.toNat).epoch } ∧
      SMap.get (t.link link.toNat).rxEnts {} k = { x with recvs := x.recvs ++
        [(i.tile, entry.toNat, slot.toNat - x.base.toNat, lines.toNat + 1, line.toNat, (u.load entry.toNat).epoch)] }) ∧
  (∀ (i : Issue) (link : BitVec 4) (slot line : BitVec 12) (lines entry : BitVec 6) (s : State) (k : Nat) (x : Xfer),
    let e := s.link link.toNat
    s.clearIssue i 8 = true → link.toNat ≤ 10 → slot.toNat ≤ 2047 → line.toNat + lines.toNat ≤ 3071 →
    ((s.tile i.tile.toNat).load entry.toNat).st = .free → e.rxAt slot.toNat = some (k, x) → SMap.get e.rxEnts {} k = x →
    x.tag = (s.strm i).tag → slot.toNat - x.base.toNat + (lines.toNat + 1) ≤ x.lines → e.full x = true → x.clear = 0 → x.done = true →
    x.recvs = [] →
    ∃ t, exec (.recv i link slot line lines entry 0) s = .next t ∧ t.spad = s.spad ∧ t.parts = s.parts ∧
      ((t.tile i.tile.toNat).load entry.toNat).st = .issued ∧
      t.mesh.qresp.map (fun m => (m.dest, m.tag, m.msg)) = s.mesh.qresp.map (fun m => (m.dest, m.tag, m.msg)) ++
        (List.range (lines.toNat + 1)).map (fun j => (i.tile.toNat, x.tag,
          .loadData entry.toNat j (e.slot (slot.toNat + j)).data ((s.tile i.tile.toNat).load entry.toNat).epoch)))) ∧
  ((∀ (i : Issue) (token : BitVec 7) (s : State), s.clearIssue i 10 = true → token.toNat < 64 →
    ((s.tile i.tile.toNat).load token.toNat).st = .complete →
    ((s.tile i.tile.toNat).load token.toNat).doneAt < s.now (s.heldAt i.cycle.toNat).1 →
    ∃ t, exec (.wait i token 0) s = .next t ∧ t.spad = s.spad ∧ t.fu.hold = s.fu.hold ∧
      (t.tile i.tile.toNat).load token.toNat = { epoch := ((s.tile i.tile.toNat).load token.toNat).epoch } ∧
      (∀ k, k ≠ token.toNat → (t.tile i.tile.toNat).load k = (s.tile i.tile.toNat).load k)) ∧
  (∀ (i : Issue) (token : BitVec 7) (n : Nat) (s : State), s.clearIssue i 10 = true → token.toNat = 64 + n → n < 32 →
    ((s.tile i.tile.toNat).storeE n).st = .complete → ((s.tile i.tile.toNat).storeE n).doneAt < s.now (s.heldAt i.cycle.toNat).1 →
    ∃ t, exec (.wait i token 0) s = .next t ∧ t.spad = s.spad ∧ t.fu.hold = s.fu.hold ∧
      (t.tile i.tile.toNat).storeE n = { epoch := ((s.tile i.tile.toNat).storeE n).epoch } ∧
      (t.tile i.tile.toNat).loads = (s.tile i.tile.toNat).loads) ∧
  (∀ (i : Issue) (token : BitVec 7) (d : Nat) (s : State), s.clearIssue i 10 = true → token.toNat < 64 →
    ((s.tile i.tile.toNat).load token.toNat).st = .complete → s.fu.hold = none →
    ((s.tile i.tile.toNat).load token.toNat).doneAt = s.now (s.realOf i.cycle.toNat) + d →
    ∃ t, exec (.wait i token 0) s = .next t ∧ t.spad = s.spad ∧ t.fu.hold = none ∧ t.fu.held = s.fu.held + (d + 1) ∧
      (t.tile i.tile.toNat).load token.toNat = { epoch := ((s.tile i.tile.toNat).load token.toNat).epoch }) ∧
  (∀ (i : Issue) (token : BitVec 7) (s : State), s.clearIssue i 10 = true → token.toNat < 96 →
    ((s.tile i.tile.toNat).token token.toNat).st = .issued → s.fu.hold = none → s.fu.causes = [] →
    ∃ t, exec (.wait i token 0) s = .next t ∧ t.spad = s.spad ∧
      t.fu.hold = some (i.cycle.toNat, s.realOf i.cycle.toNat, [(i.tile, token.toNat, (s.strm i).tag)]) ∧ t.fu.causes = [(s.strm i).tag]) ∧
  (∀ (i : Issue) (token : BitVec 7) (s : State), s.clearIssue i 10 = true → token.toNat < 96 →
    ((s.tile i.tile.toNat).token token.toNat).st = .free →
    ∃ t, exec (.wait i token 0) s = .next t ∧ t.spad = s.spad ∧ AbortsIn (s.strm i).tag.toNat s t)) ∧
  (∀ (i : Issue) (any : Bool) (writer : TileNo) (base : BitVec 12) (count : BitVec 7) (entry : BitVec 4) (s : State),
    s.clearIssue i 9 = true → count ≠ 0 →
    let bad := decide (64 < count.toNat ∨ 3072 < base.toNat + count.toNat) ||
      (s.tile i.tile.toNat).credits.any (fun x => x.2.live &&
        (decide (x.1 = entry.toNat) || rangesMeet x.2.base.toNat x.2.count.toNat base.toNat count.toNat))
    let c : Credit := { live := true, any := any, writer := writer, tag := (s.strm i).tag, base := base, count := count, remain := count }
    (bad = false → ∃ t, exec (.credit i any writer base count entry 0) s = .next t ∧ t.spad = s.spad ∧
      SMap.get (t.tile i.tile.toNat).credits {} entry.toNat = c ∧
      t.mesh.vc1.map Msg.says = s.mesh.vc1.map Msg.says ++
        (if any then [] else [(i.tile.toNat, writer.toNat, 0, (s.strm i).tag, .grant entry.toNat c)])) ∧
    (bad = true → ∃ t, exec (.credit i any writer base count entry 0) s = .next t ∧
      (t.tile i.tile.toNat).credits = (s.tile i.tile.toNat).credits ∧
      (t.tile i.tile.toNat).violations = bump32 (s.tile i.tile.toNat).violations ∧
      AbortsIn (s.strm i).tag.toNat s t))

/-- Control of a stream: NEXT names the frame of the next block, END ends the block and names the next step's first frame, LAYER sets
the layer and branches by the streams and recipe bitmaps, JUMP goes to its target, BASE loads a base register from the base table, MASK
loads a mask register from scratchpad. -/
def Obligations.StreamControl : Prop :=
  (∀ (i : Issue) (advance : BitVec 16) (s : State), s.issuing i = true → s.fu.hold = none → (s.strm i).pc ≤ (s.strm i).last.toNat →
    i.gen = 0 → i.cycle = 0 → i.store = .none → advance ≠ 0 →
    ∃ t, exec (.next i advance 0) s = .next t ∧ (t.strm i).block = some (s.fu.frame + advance.toNat) ∧
      (t.strm i).pc = (s.strm i).pc + 1 ∧ t.spad = s.spad ∧ t.parts = s.parts) ∧
  (∀ (i : Issue) (gap : BitVec 16) (s : State), s.issuing i = true → s.fu.hold = none → (s.strm i).pc ≤ (s.strm i).last.toNat →
    i.gen = 0 → i.cycle = 0 → i.store = .none → (s.part (s.strm i).tag.toNat).nextStart = none →
    ∃ t, exec (.end_ i gap 0) s = .next t ∧ (t.strm i).block = none ∧ (t.strm i).ended = some (s.fu.frame, gap.toNat) ∧
      (t.part (s.strm i).tag.toNat).nextStart = some (s.fu.frame + gap.toNat + 1) ∧
      (∀ p, p ≠ (s.strm i).tag.toNat → t.part p = s.part p) ∧ t.spad = s.spad) ∧
  (∀ (i : Issue) (layer : BitVec 10) (wide alt : BitVec 14) (s : State),
    let p := s.part (s.strm i).tag.toNat
    let recipe := match p.curRun with | some r => r.recipe | none => p.recipe
    s.clearIssue i 10 = true → layer.toNat < p.layers.toNat →
    ∃ t, exec (.layer i layer wide alt 0) s = .next t ∧ (t.strm i).layer = layer ∧ t.parts = s.parts ∧ t.spad = s.spad ∧
      (t.strm i).pc = (if p.streams.getLsbD layer.toNat = true ∧ alt ≠ 0 then alt.toNat
        else if recipe.getLsbD layer.toNat = true ∧ wide ≠ 0 then wide.toNat else (s.strm i).pc + 1)) ∧
  (∀ (i : Issue) (target : BitVec 14) (s : State), s.clearIssue i 10 = true → target.toNat ≤ (s.strm i).last.toNat →
    ∃ t, exec (.jump i target 0) s = .next t ∧ (t.strm i).pc = target.toNat ∧ (t.strm i).branch = some i.cycle.toNat ∧
      t.spad = s.spad) ∧
  (∀ (i : Issue) (breg : BitVec 3) (entry : BitVec 6) (s : State), s.clearIssue i 10 = true →
    ∃ t, exec (.base i breg entry 0) s = .next t ∧ t.spad = s.spad ∧
      SMap.get (t.strm i).bregs 0 breg.toNat = SMap.get (s.strm i).table 0 entry.toNat ∧
      ∀ k, k ≠ breg.toNat → SMap.get (t.strm i).bregs 0 k = SMap.get (s.strm i).bregs 0 k) ∧
  (∀ (i : Issue) (mreg : BitVec 3) (waddr : BitVec 16) (s : State), s.clearIssue i 10 = true → waddr.toNat ≤ 49151 →
    (s.tile i.tile.toNat).owns (waddr.toNat / 16) 1 (s.strm i).tag = true → (s.tile i.tile.toNat).narrow = [] →
    (s.tile i.tile.toNat).narrowW = [] → (s.tile i.tile.toNat).wideUses = [] →
    ∃ t, exec (.mask i mreg waddr 0 []) s = .next t ∧ t.spad = s.spad ∧
      SMap.get (t.strm i).masks 0 mreg.toNat = s.padWord i.tile.toNat waddr.toNat ∧
      SMap.get (t.strm i).maskAt none mreg.toNat = some ⟨s.fu.frame, i.cycle.toNat⟩)

/-! ## Scratchpad upkeep and the mesh -/

/-- Dusk work of a tile: a correction waiting leaves its queue and no byte reads otherwise; zeroing clears 16 lines of the block each
time and leaves every other byte, once in each dusk; a row past its threshold takes the next spare row of its bank, as long as one of 32
is left and fewer than four rows are mapped in this dusk. A bank that needs a 33rd spare row decides Twilight with cause 4 on a device
in service (R128). -/
def Obligations.ScratchpadUpkeepAndSpareRows : Prop :=
  ((∀ (tile : TileNo) (rc : Nat) (s : State), s.inDusk rc = true →
    ∃ t, exec (.eccWriteBack tile rc) s = .next t ∧ (t.tile tile.toNat).writeBack = (s.tile tile.toNat).writeBack.tail ∧ t.spad = s.spad ∧
      (∀ n, n ≠ tile.toNat → t.tile n = s.tile n)) ∧
  (∀ (tile : TileNo) (block : BitVec 4) (n rc : Nat) (s : State),
    let b := SMap.get (s.tile tile.toNat).blocks {} block.toNat
    let base := padBytes * tile.toNat + 128 * (256 * block.toNat + n)
    b.zeroed = some n → (∀ f, b.powerAt = some f → f ≤ s.fu.frame) → s.inDusk rc = true → b.zeroAt ≠ some s.fu.frame →
    ∃ t, exec (.blockZeroing tile block rc) s = .next t ∧
      (∀ a, base ≤ a → a < base + 2048 → Cells.get t.spad a = 0) ∧
      (∀ a, a < base ∨ base + 2048 ≤ a → Cells.get t.spad a = Cells.get s.spad a) ∧
      SMap.get (t.tile tile.toNat).blocks {} block.toNat =
        { b with powerAt := none, zeroed := if 240 ≤ n then none else some (n + 16), zeroAt := some s.fu.frame } ∧
      (∀ k, k ≠ block.toNat → SMap.get (t.tile tile.toNat).blocks {} k = SMap.get (s.tile tile.toNat).blocks {} k)) ∧
  (∀ (tile : TileNo) (k rc : Nat) (rest : List Nat) (s : State),
    let u := s.tile tile.toNat
    let used := SMap.get u.spareRows 0 (k / 192)
    u.awaiting = k :: rest → u.mapping.length < 4 → used < 32 → s.inDusk rc = true →
    ∃ t, exec (.rowMapOut tile rc) s = .next t ∧ (t.tile tile.toNat).awaiting = rest ∧
      (t.tile tile.toNat).mapping = u.mapping ++ [(k, used)] ∧ SMap.get (t.tile tile.toNat).spareRows 0 (k / 192) = used + 1 ∧
      t.mgmt.fqueue = s.mgmt.fqueue ++ [.repair] ∧ t.spad = s.spad)) ∧
  (∀ (tile : TileNo) (k rc : Nat) (rest : List Nat) (s : State),
    let u := s.tile tile.toNat
    u.awaiting = k :: rest → u.mapping.length < 4 → s.inDusk rc = true → 32 ≤ SMap.get u.spareRows 0 (k / 192) →
    s.health.st = 0 → s.health.decided = none →
    ∃ t, exec (.rowMapOut tile rc) s = .next t ∧ t.health.decided = some 4 ∧ t.health.cause = 4 ∧ (t.tile tile.toNat).mapping = u.mapping)

/-- Scheduled flits: a lone flit takes the output it claims and goes on; two flits that may be added leave as one with the sum of COUNT
and RES; flits that may not be added are discarded as a slot collision, which is counted at the router and on the die once for each
partition with a flit in it and aborts them; a flit that lands at a tile spends the credit that covers its remote writers, if it has
any, and writes its line and no other byte. -/
def Obligations.ScheduledFlitsTravel : Prop :=
  (∀ (router : TileNo) (plane : Bool) (output : Fin 7) (cycle : Nat) (f : Flit) (s : State),
    let key := 14 * router.toNat + 7 * plane.toNat + output.val
    s.mesh.flits.filter (fun g => g.claims s.fu.frame router.toNat plane.toNat output.val cycle) = [f] → cycle < 960 → s.frozen cycle = false →
    (4 ≤ output.val ∨ fullRun (SMap.get s.mesh.used [] key) cycle = none) →
    ∃ t, exec (.scheduledFlitClaim router plane output cycle false false false) s = .next t ∧
      t.mesh.flits = s.mesh.flits.map (fun g => if g = f then { g with hop := g.hop + 1 } else g) ∧
      SMap.get t.mesh.used [] key = f.useAt cycle :: SMap.get s.mesh.used [] key ∧
      (SMap.get t.mesh.routers {} router.toNat).flits = (SMap.get s.mesh.routers {} router.toNat).flits + 1 ∧
      t.spad = s.spad ∧ t.tiles = s.tiles ∧ t.parts = s.parts) ∧
  (∀ (router : TileNo) (plane : Bool) (output : Fin 7) (cycle : Nat) (f g : Flit) (s : State),
    let key := 14 * router.toNat + 7 * plane.toNat + output.val
    s.mesh.flits.filter (fun x => x.claims s.fu.frame router.toNat plane.toNat output.val cycle) = [f, g] → cycle < 960 → s.frozen cycle = false →
    (4 ≤ output.val ∨ fullRun (SMap.get s.mesh.used [] key) cycle = none) → f.add = true → g.add = true →
    g.dest = f.dest → g.port = f.port → g.line = f.line → g.xfer = f.xfer → g.tag = f.tag → f.count + g.count ≤ 127 →
    f.res = flitRes f.data → g.res = flitRes g.data → flitRes (sumFlit f [f, g]).data = (sumFlit f [f, g]).res →
    ∃ t, exec (.scheduledFlitClaim router plane output cycle false false false) s = .next t ∧
      t.mesh.flits = s.mesh.flits.filter (fun x => !([f, g] : List Flit).contains x) ++ [{ f with
        data := lineOfWords (List.zipWith p32Add (wordsOfLine f.data) (wordsOfLine g.data)), count := f.count + g.count
        res := (f.res + g.res) % 255, others := f.others ++ (g.src :: g.others), pred := sumPred [f, g], hop := f.hop + 1 }] ∧
      (SMap.get t.mesh.routers {} router.toNat).adds = (SMap.get s.mesh.routers {} router.toNat).adds + 1 ∧ t.spad = s.spad) ∧
  (∀ (router : TileNo) (plane : Bool) (output : Fin 7) (cycle : Nat) (f g : Flit) (rest : List Flit) (s : State),
    let key := 14 * router.toNat + 7 * plane.toNat + output.val
    let fs := s.mesh.flits.filter (fun x => x.claims s.fu.frame router.toNat plane.toNat output.val cycle)
    fs = f :: g :: rest → cycle < 960 → s.frozen cycle = false → (f.add = false ∨ f.tag ≠ g.tag ∨ f.xfer ≠ g.xfer ∨ f.line ≠ g.line) →
    let n := (fs.map (fun x => x.tag)).dedup.length
    (4 ≤ output.val ∨ fullRun (SMap.get s.mesh.used [] key) cycle = none) → f.tag.toNat < 128 →
    ∃ t, exec (.scheduledFlitClaim router plane output cycle false false false) s = .next t ∧
      (∀ x ∈ fs, x ∉ t.mesh.flits) ∧ AbortsIn f.tag.toNat s t ∧ t.spad = s.spad ∧
      t.health.collisions = min (s.health.collisions + n) 4294967295 ∧
      (SMap.get t.mesh.routers {} router.toNat).collisions =
        min ((SMap.get s.mesh.routers {} router.toNat).collisions + n) 4294967295) ∧
  (∀ (router : TileNo) (plane : Bool) (cycle : Nat) (f : Flit) (s : State),
    let h := hops f.src.toNat f.dest.toNat
    let u := s.tile router.toNat
    f ∈ s.mesh.flits → (∀ g ∈ s.mesh.flits, g.dest = router → g.port = 0 → g.plane = plane → g = f) →
    f.frame = s.fu.frame → f.dest = router → f.port = 0 → f.plane = plane → f.hop = h + 1 → f.sent + 3 * h + 10 = cycle → f.void = false →
    cycle < 960 → s.frozen cycle = false → (f.add = true → f.res = flitRes f.data) → f.line.toNat ≤ 3071 → u.owns f.line.toNat 1 f.tag = true →
    u.narrow = [] → u.narrowW = [] → u.wide.any (fun w => decide (w.1 = cycle)) = false →
    ∀ (n : Nat) (c : Credit), (f.remotes = [] ∨ u.credits.find? (fun x => creditFor f x.2) = some (n, c)) →
    ∃ t, exec (.scheduledFlitLanding router 0 plane cycle false false) s = .next t ∧
      t.padLine router.toNat f.line.toNat = f.data ∧ PadOutside router.toNat f.line.toNat 1 s t ∧ f ∉ t.mesh.flits ∧
      (f.remotes ≠ [] → SMap.get (t.tile router.toNat).credits {} n = c.spend))

/-- A message arrives once its flit can have passed its route, 10 cycles and 3 for each hop, and never before one of its source for its
destination that entered the channel earlier: what a unit takes from a channel leaves it, and the others stay in their order (R155).
Unscheduled messages arrive: a credit grant gives the writer a mirror, a revoke takes it away; a fault report enters the fault FIFO and
asserts interrupt source 1; a remote read goes from requester to owner, is served from the owner's scratchpad and lands at the
requester's entry. `MessagesArriveInOrder` says which message is taken. A message whose header a router input finds bad leaves its
channel there: the router counts it dropped, no scratchpad byte, stack byte or entry changes (R161); data with bad parity at their
ejection never land, and abort the step of their partition. -/
def Obligations.MessagesArriveInOrderAndWhole : Prop :=
  (∀ (c : Chan) (rc : Nat) (p : Msg → Bool) (m : Msg) (s u : State), s.takeMsg c rc p = some (m, u) →
    ∃ pre post, s.mesh.chan c = pre ++ m :: post ∧ p m = true ∧ m.time + 10 + 3 * hops m.src m.dest ≤ s.now rc ∧
      (∀ x ∈ pre, (x.src, x.dest, x.port) ≠ (m.src, m.dest, m.port)) ∧
      u = { s with mesh := s.mesh.setChan c (pre ++ post) }) ∧
  ((∀ (tile : TileNo) (entry rc : Nat) (c : Credit) (m : Msg) (s u : State),
    s.takeMsg .vc1 rc (fun m => m.isFor tile.toNat 0 && decide (m.msg.op = 0x01)) = some (m, u) → m.msg = .grant entry c →
    ∃ t, exec (.creditGrant tile rc {}) s = .next t ∧ t.mesh.vc1 = u.mesh.vc1 ∧
      (m.src, entry, c) ∈ (t.tile tile.toNat).mirrors ∧
      (∀ x ∈ (t.tile tile.toNat).mirrors, x.1 = m.src → x.2.1 = entry → x.2.2 = c) ∧ t.spad = s.spad ∧
      (SMap.get t.mesh.routers {} tile.toNat).peakHigh =
        max (SMap.get s.mesh.routers {} tile.toNat).peakHigh (min (s.now rc - m.time) 4294967295)) ∧
  (∀ (tile : TileNo) (entry rc : Nat) (m : Msg) (s u : State),
    s.takeMsg .vc1 rc (fun m => m.isFor tile.toNat 0 && decide (m.msg.op = 0x02)) = some (m, u) → m.msg = .revoke entry →
    ∃ t, exec (.creditRevoke tile rc {}) s = .next t ∧ t.mesh.vc1 = u.mesh.vc1 ∧ t.spad = s.spad ∧
      (t.tile tile.toNat).mirrors = (s.tile tile.toNat).mirrors.filter (fun x => decide ((x.1, x.2.1) ≠ (m.src, entry)))) ∧
  (∀ (rc : Nat) (w : BitVec 256) (m : Msg) (s u : State),
    s.takeMsg .vc0 rc (fun m => m.isFor 313 1 && decide (m.msg.op = 0x03)) = some (m, u) → m.msg = .fault w →
    s.recd.buffer.length < 512 →
    ∃ t, exec (.faultReport rc {}) s = .next t ∧ t.mesh.vc0 = u.mesh.vc0 ∧ t.mgmt.faultFifo = s.mgmt.faultFifo ++ [w] ∧
      1 ∈ t.mgmt.asserted ∧ (∃ r, t.recd.buffer = s.recd.buffer ++ [r] ∧ r.payload = .fault w ∧ r.seq = s.recd.next)) ∧
  (∀ (tile : TileNo) (entry line rc epoch : Nat) (m : Msg) (s u : State),
    s.takeMsg .vc2 rc (fun m => m.isFor tile.toNat 0 && decide (m.msg.op = 0x08)) = some (m, u) →
    m.msg = .readReq entry line epoch → (s.tile tile.toNat).owns line 1 m.tag = true →
    ∃ t, exec (.remoteReadRequest tile rc {}) s = .next t ∧ t.mesh.vc2 = u.mesh.vc2 ∧ t.spad = s.spad ∧
      (t.tile tile.toNat).remote = (s.tile tile.toNat).remote ++ [(m.src, entry, line, m.tag, epoch)]) ∧
  (∀ (tile : TileNo) (rc req entry line epoch : Nat) (tag : Tag) (rest : List (Nat × Nat × Nat × Tag × Nat)) (s : State),
    let u := s.tile tile.toNat
    u.remote = (req, entry, line, tag, epoch) :: rest → (s.takeFill tile rc line none).isSome = true → u.narrow = [] → u.narrowW = [] →
    (∀ n, u.served = some n → n + 8 ≤ s.now rc) →
    ∃ t m, exec (.remoteReadServe tile rc []) s = .next t ∧ (t.tile tile.toNat).remote = rest ∧ t.spad = s.spad ∧
      (t.tile tile.toNat).served = some (s.now rc) ∧ t.mesh.vc3 = s.mesh.vc3 ++ [m] ∧ m.time = s.now rc ∧
      m.says = (tile.toNat, req, 0, tag, .readResp entry (s.padLine tile.toNat line) epoch)) ∧
  (∀ (tile : TileNo) (rc entry epoch : Nat) (l : Line) (m : Msg) (s u : State),
    let e := (s.tile tile.toNat).load entry
    s.takeMsg .vc3 rc (fun m => m.isFor tile.toNat 0 && decide (m.msg.op = 0x09)) = some (m, u) → m.msg = .readResp entry l epoch →
    e.st = .issued → e.epoch = epoch → e.toHalf = none → (s.tile tile.toNat).owns e.line 1 m.tag = true →
    (s.takeFill tile rc e.line (some entry)).isSome = true → (s.tile tile.toNat).narrow = [] → (s.tile tile.toNat).narrowW = [] →
    s.fu.hold = none → e.lines = e.done + 1 →
    ∃ t, exec (.remoteReadResponse tile rc {}) s = .next t ∧ t.mesh.vc3 = u.mesh.vc3 ∧
      t.padLine tile.toNat e.line = l ∧ PadOutside tile.toNat e.line 1 s t ∧
      (t.tile tile.toNat).load entry = { e with done := e.done + 1, st := .complete, doneAt := s.now rc })) ∧
  ((∀ (tile : TileNo) (rc h : Nat) (par enc : Bool) (m : Msg) (s u : State),
    let r := routerAfter m.src m.dest h
    s.takeMsg .qresp rc (fun m => m.isFor tile.toNat 0 && decide (m.msg.op = 0x11)) = some (m, u) →
    ∃ t, exec (.loadData tile rc ⟨some h, par, enc⟩) s = .next t ∧ t.mesh.qresp = u.mesh.qresp ∧ t.spad = s.spad ∧ t.mem = s.mem ∧
      (t.tile tile.toNat).loads = (s.tile tile.toNat).loads ∧ t.parts = s.parts ∧
      (SMap.get t.mesh.routers {} r).dropped = bump32 (SMap.get s.mesh.routers {} r).dropped) ∧
  (∀ (tile : TileNo) (rc : Nat) (enc : Bool) (m : Msg) (s u : State),
    s.takeMsg .qresp rc (fun m => m.isFor tile.toNat 0 && decide (m.msg.op = 0x11)) = some (m, u) → m.tag.toNat < 128 →
    ∃ t, exec (.loadData tile rc ⟨none, true, enc⟩) s = .next t ∧ t.mesh.qresp = u.mesh.qresp ∧ t.spad = s.spad ∧
      AbortsIn m.tag.toNat s t))

/-! ## Memory stacks and engines -/

/-- A load without error: the controller answers a request for a line that it may reach with the line as the tag reads it, an engine one
for a written result line with that line, which it gives up; a result line is given once. Neither changes the stacks. The beat lands in
the scratchpad line or the half's line that the entry names, and with its last beat the entry is Complete. A request of several lines
stays at its unit until its last line is answered (R148, R220). A request that covers a line which carries another tag, or an address
that no unit has, is fault 0x06 and no answer leaves. -/
def Obligations.LoadsBringTheirLines : Prop :=
  (∀ (unit : Fin 25) (rc entry index a n d epoch : Nat) (m : Msg) (s u : State),
    s.takeMsg .qreq rc (s.servable unit.val) = some (m, u) → m.msg = .loadReq entry index a n d epoch → a + d < dataLines →
    unit.val ≠ 24 → (∀ k, k < n → s.mayReach m.tag (a + k) = true) → (s.stack (stackOf (a + d))).st ≠ 2 →
    s.mem.lost.contains (a + d) = false →
    ∃ t x, exec (.loadRequest unit rc {} .none false) s = .next t ∧
      t.mesh.qreq = (if n ≤ d + 1 then s.mesh.qreq.erase m
        else s.mesh.qreq.map (fun y => if y = m then { m with msg := .loadReq entry index a n (d + 1) epoch } else y)) ∧
      t.mesh.qresp = s.mesh.qresp ++ [x] ∧
      x.says = (m.dest, m.src, 0, m.tag, .loadData entry (index + d) (s.readMem (a + d)) epoch) ∧ t.mem.data = s.mem.data ∧
      (t.stack unit.val).qBytes = (s.stack unit.val).qBytes + 128 ∧ t.tiles = s.tiles ∧ t.parts = s.parts) ∧
  (∀ (unit : Fin 25) (rc entry index a n d epoch : Nat) (m : Msg) (s u : State),
    let line := (a + d - dataLines) % 65536
    let r := SMap.get (s.engine unit.val).results ⟨0xFE, 0, 0⟩ line
    s.takeMsg .qreq rc (s.servable unit.val) = some (m, u) → m.msg = .loadReq entry index a n d epoch → dataLines ≤ a → unit.val < 24 →
    (∀ v ∈ (s.engine unit.val).results, v.2.tag = m.tag) →
    ∃ t x, exec (.loadRequest unit rc {} .none false) s = .next t ∧
      (n ≤ d + 1 → t.mesh.qreq = s.mesh.qreq.erase m) ∧ t.mesh.qresp = s.mesh.qresp ++ [x] ∧
      x.says = (m.dest, m.src, 0, m.tag, .loadData entry (index + d) r.data epoch) ∧ t.mem.data = s.mem.data ∧
      (t.engine unit.val).results = (s.engine unit.val).results.filter (fun v => decide (v.1 ≠ line)) ∧ t.tiles = s.tiles) ∧
  (∀ (unit : Fin 25) (rc entry index a n d epoch : Nat) (m : Msg) (s u : State),
    s.takeMsg .qreq rc (s.servable unit.val) = some (m, u) → m.msg = .loadReq entry index a n d epoch →
    (a < dataLines ∧ (∃ k, k < n ∧ s.mayReach m.tag (a + k) = false) ∨
      (dataLines ≤ a ∧ ∃ v ∈ (s.engine unit.val).results, (a - dataLines) % 65536 ≤ v.1 ∧ v.1 < (a - dataLines) % 65536 + n ∧
        v.2.tag ≠ m.tag) ∨ unit.val = 24) → m.tag.toNat < 128 →
    ∃ t, exec (.loadRequest unit rc {} .none false) s = .next t ∧ t.mesh.qreq = u.mesh.qreq ∧ t.mesh.qresp = s.mesh.qresp ∧
      t.mem.data = s.mem.data ∧ AbortsIn m.tag.toNat s t) ∧
  (∀ (tile : TileNo) (rc entry index epoch : Nat) (l : Line) (m : Msg) (s u : State),
    let x := s.tile tile.toNat
    let e := x.load entry
    s.takeMsg .qresp rc (fun m => m.isFor tile.toNat 0 && decide (m.msg.op = 0x11)) = some (m, u) →
    m.msg = .loadData entry index l epoch → e.st = .issued → e.epoch = epoch → e.toHalf = none →
    x.owns (e.line + index) 1 m.tag = true → (s.takeFill tile rc (e.line + index) (some entry)).isSome = true → x.narrow = [] → x.narrowW = [] →
    s.fu.hold = none →
    ∃ t, exec (.loadData tile rc {}) s = .next t ∧ t.mesh.qresp = u.mesh.qresp ∧ t.padLine tile.toNat (e.line + index) = l ∧
      PadOutside tile.toNat (e.line + index) 1 s t ∧
      (t.tile tile.toNat).load entry = (if e.lines ≤ e.done + 1 then { e with done := e.done + 1, st := .complete, doneAt := s.now rc }
        else { e with done := e.done + 1 }) ∧ t.mem = s.mem) ∧
  (∀ (tile : TileNo) (rc entry index epoch : Nat) (h : Bool) (l : Line) (m : Msg) (s u : State),
    let x := s.tile tile.toNat
    let e := x.load entry
    s.takeMsg .qresp rc (fun m => m.isFor tile.toNat 0 && decide (m.msg.op = 0x11)) = some (m, u) →
    m.msg = .loadData entry index l epoch → e.st = .issued → e.epoch = epoch → e.toHalf = some h → x.ops = [] → s.fu.hold = none →
    ∃ t, exec (.loadData tile rc {}) s = .next t ∧ t.mesh.qresp = u.mesh.qresp ∧ t.spad = s.spad ∧ t.mem = s.mem ∧
      SMap.get ((t.tile tile.toNat).half h).lines 0 (e.halfLine index) = l ∧ ((t.tile tile.toNat).half h).tag = m.tag ∧
      ((t.tile tile.toNat).half h).wfmt = e.wfmt ∧ (t.tile tile.toNat).half (!h) = x.half (!h) ∧
      (t.tile tile.toNat).load entry = (if e.lines ≤ e.done + 1 then { e with done := e.done + 1, st := .complete, doneAt := s.now rc }
        else { e with done := e.done + 1 }))

/-- A store: the drain reads the next line of the lowest issued entry in a free wide cycle and sends it; the controller writes exactly
that line of the data space, which the tag reads back where the line is under its key, and acknowledges it after the parity line's way
over the ring; the entry counts the acknowledgement and is Complete with the last one. A stack that is declared failed aborts every
partition on the die and decides Twilight with cause 5 on a device in service (R218); the overwrite of a freed granule leaves zeros
there, every other byte as it was, and the granule free for a new tag (R222). -/
def Obligations.StoresStackFailureAndZeroing : Prop :=
  ((∀ (tile : TileNo) (n rc : Nat) (e : QEntry) (s : State),
    let x := s.tile tile.toNat
    let a := e.addr + e.done
    x.draining = some (n, e) → (s.takeFill tile rc (e.line + e.done) none).isSome = true → x.narrow = [] → x.narrowW = [] →
    ∃ t m, exec (.storeDrain tile rc []) s = .next t ∧ (t.tile tile.toNat).storeE n = { e with done := e.done + 1 } ∧ t.spad = s.spad ∧
      t.mem = s.mem ∧ t.mesh.qreq = s.mesh.qreq ++ [m] ∧ m.time = s.now rc ∧
      m.says = (tile.toNat, unitRouter (unitOf a), unitPort (unitOf a) a, e.tag,
        .storeData n a (s.padLine tile.toNat (e.line + e.done)) e.epoch)) ∧
  (∀ (stack : BitVec 4) (rc entry a epoch : Nat) (l : Line) (m : Msg) (s u : State),
    s.takeMsg .qreq rc (fun m => m.storeFor stack.toNat) = some (m, u) → m.msg = .storeData entry a l epoch →
    s.mayReach m.tag a = true →
    ∃ t x, exec (.storeData stack rc {}) s = .next t ∧ t.memLine a = l ∧
      (s.lineKey a = SMap.get s.mem.gkeys s.fwKey (a / 8388608) → t.readMem a = l) ∧
      (∀ b, b < 128 * a ∨ 128 * a + 128 ≤ b → Cells.get t.mem.data b = Cells.get s.mem.data b) ∧
      t.mesh.qreq = u.mesh.qreq ∧ t.mesh.qresp = s.mesh.qresp ++ [x] ∧ x.says = (m.dest, m.src, 0, m.tag, .storeAck entry epoch) ∧
      x.time = s.now rc + ringCycles (stackOf a) (parityStack a) ∧ t.tiles = s.tiles) ∧
  (∀ (tile : TileNo) (rc n epoch : Nat) (m : Msg) (s u : State),
    let e := (s.tile tile.toNat).storeE n
    s.takeMsg .qresp rc (fun m => m.isFor tile.toNat 0 && decide (m.msg.op = 0x13)) = some (m, u) → m.msg = .storeAck n epoch →
    e.st = .issued → e.epoch = epoch → s.fu.hold = none →
    ∃ t, exec (.storeAcknowledge tile rc {}) s = .next t ∧ t.mesh.qresp = u.mesh.qresp ∧ t.mem = s.mem ∧ t.spad = s.spad ∧
      (t.tile tile.toNat).storeE n =
        (if e.lines ≤ e.acked + 1 then { e with acked := e.acked + 1, st := .complete, doneAt := s.now rc }
         else { e with acked := e.acked + 1 }))) ∧
  ((∀ (stack : BitVec 4) (reason : BitVec 2) (s : State),
    (s.stack stack.toNat).st ≠ 2 → s.health.st = 0 → s.health.decided = none →
    ∃ t, exec (.stackFailed stack reason) s = .next t ∧ (t.stack stack.toNat).st = 2 ∧
      (∀ k, k ≠ stack.toNat → t.stack k = s.stack k) ∧ (∀ p ∈ s.steppers, AbortsIn p s t) ∧
      t.health.decided = some 5 ∧ t.health.cause = 5 ∧ t.mem.data = s.mem.data) ∧
  (∀ (g : BitVec 10) (s : State), g.toNat ∈ s.mem.zeroing →
    ∃ t, exec (.granuleZeroingEnd g) s = .next t ∧ g.toNat ∉ t.mem.zeroing ∧
      (∀ n, n ≠ g.toNat → (n ∈ t.mem.zeroing ↔ n ∈ s.mem.zeroing)) ∧
      (∀ a, 1073741824 * g.toNat ≤ a → a < 1073741824 * (g.toNat + 1) → Cells.get t.mem.data a = 0) ∧
      (∀ a, a < 1073741824 * g.toNat ∨ 1073741824 * (g.toNat + 1) ≤ a → Cells.get t.mem.data a = Cells.get s.mem.data a)))

/-- A well-formed descriptor of an active stream of its own partition waits behind the jobs of its engine, at generation engines for OP
1 and 2, at prompt engines for OP 3 and 4; a job waiting at an idle engine starts with the slots it named, which come free, or at a
prompt engine with the query rows that it reads from the stacks into its local buffer. -/
def Obligations.EngineJobsQueueAndStart : Prop :=
  (∀ (engine : BitVec 4) (slot : BitVec 10) (tag : Tag) (xfer : BitVec 8) (d : Line) (rc : Nat) (s : State),
    let e := engine.toNat
    let j := jobOf false tag xfer d
    let c := s.ctxAt j.stream
    let x := s.engine e
    let j' := { j with slots := (List.range (j.inLines c)).map (fun k => slot.toNat + 1 - j.inLines c + k) }
    (s.stack e).st ≠ 2 → (∀ w ∈ x.waiting, slot.toNat ∉ w.slots) → descOk false d j c slot.toNat = true → c.tag = tag → c.st = 1 →
    x.waiting.length < 8 →
    (j.op = 1 → ∃ t, exec (.attend engine slot tag xfer d rc) s = .next t ∧
      t.engine e = { x with slots := SMap.set x.slots (0, 0) slot.toNat (d, tag), waiting := x.waiting ++ [j'] } ∧
      (∀ k, k ≠ e → t.engine k = s.engine k) ∧ t.mem.data = s.mem.data ∧ t.parts = s.parts) ∧
    (j.op = 2 → ∃ t, exec (.append engine slot tag xfer d rc) s = .next t ∧
      t.engine e = { x with slots := SMap.set x.slots (0, 0) slot.toNat (d, tag), waiting := x.waiting ++ [j'] } ∧
      (∀ k, k ≠ e → t.engine k = s.engine k) ∧ t.mem.data = s.mem.data ∧ t.parts = s.parts)) ∧
  (∀ (engine : BitVec 3) (slot : BitVec 6) (tag : Tag) (xfer : BitVec 8) (d : Line) (rc : Nat) (s : State),
    let e := 16 + engine.toNat
    let j := jobOf true tag xfer d
    let c := s.ctxAt j.stream
    let x := s.engine e
    let j' := { j with slots := [slot.toNat] }
    (∀ w ∈ x.waiting, slot.toNat ∉ w.slots) → descOk true d j c slot.toNat = true → c.tag = tag → c.st = 1 → x.waiting.length < 4 →
    (j.op = 3 → ∃ t, exec (.chunkAttend engine slot tag xfer d rc) s = .next t ∧
      t.engine e = { x with slots := SMap.set x.slots (0, 0) slot.toNat (d, tag), waiting := x.waiting ++ [j'] } ∧
      t.mem.data = s.mem.data ∧ t.parts = s.parts) ∧
    (j.op = 4 → ∃ t, exec (.bulkAppend engine slot tag xfer d rc) s = .next t ∧
      t.engine e = { x with slots := SMap.set x.slots (0, 0) slot.toNat (d, tag), waiting := x.waiting ++ [j'] } ∧
      t.mem.data = s.mem.data ∧ t.parts = s.parts)) ∧
  (∀ (unit : Fin 24) (rc : Nat) (j : Job) (rest : List Job) (s : State),
    let e := unit.val
    let x := s.engine e
    let lines := j.slots.map (fun k => (SMap.get x.slots (0, 0) k).1)
    x.running = none → x.waiting = j :: rest → j.void = false → e < 16 →
    inputOk lines (j.inBursts (s.ctxAt j.stream)) = true →
    ∃ t, exec (.engineJobStart unit rc []) s = .next t ∧ (t.engine e).running = some { j with input := lines, bad := false } ∧
      (t.engine e).waiting = rest ∧ (t.engine e).results = x.results ∧
      (t.engine e).slots = x.slots.filter (fun v => !j.slots.contains v.1) ∧ t.mem.data = s.mem.data) ∧
  (∀ (unit : Fin 24) (rc : Nat) (j : Job) (rest : List Job) (s : State),
    let e := unit.val
    let x := s.engine e
    let n := j.inBursts (s.ctxAt j.stream)
    let at_ := (List.range (n + (n + 7) / 8)).map (fun k => j.qaddr + k)
    x.running = none → x.waiting = j :: rest → j.void = false → 16 ≤ e → (∀ a ∈ at_, s.mayReach j.tag a = true) →
    (∀ a ∈ at_, s.mem.lost.contains a = false) → inputOk (at_.map s.readMem) n = true →
    ∃ t, exec (.engineJobStart unit rc []) s = .next t ∧ (t.engine e).running = some { j with input := [], bad := false } ∧
      (t.engine e).buffer = at_.map s.readMem ∧ (t.engine e).waiting = rest ∧ t.mem.data = s.mem.data)

/-- The end of a job: an attend over sound pages of its own leaves its result lines in row order from RSLOT, tagged, and changes no byte
of the stacks; an append within the tail, whose page table and side blocks read sound, leaves one line with its count and COMMITTED; an
append outside the tail is refused, counted and fault 0x06, and writes nothing. An engine with no unmasked position for a row returns m
= minus infinity with l and o zero (R234), whatever the pages hold. -/
def Obligations.EngineJobsEndAndMaskedRows : Prop :=
  ((∀ (unit : Fin 24) (rc cycles : Nat) (j : Job) (s : State),
    let e := unit.val
    let c := s.ctxAt j.stream
    let pages := (j.pages c).filter (fun p => decide (c.engineOf p = e))
    let ls := s.rowsOf j c pages e
    e < 16 → (s.engine e).running = some j → j.op = 1 → j.bad = false → j.void = false →
    (∀ p ∈ pages, s.pageBad c p = false ∧ s.pageSound c p (j.qpos + j.n - 1) = true) →
    (∀ p ∈ pages, ∀ a ∈ s.pageReads c p, s.mem.lost.contains a = false) →
    (∀ k, k < ls.length → (s.engine e).results.any (fun r => decide (r.1 = j.rslot + k)) = false) →
    ∃ t, exec (.engineJobEnd unit rc cycles [] none false) s = .next t ∧ (t.engine e).running = none ∧ t.mem.data = s.mem.data ∧
      (∀ k l, ls[k]? = some l → SMap.get (t.engine e).results ⟨0xFE, 0, 0⟩ (j.rslot + k) = ⟨j.tag, j.xfer, l⟩) ∧
      (t.part j.tag.toNat).attends = (s.part j.tag.toNat).attends + 1) ∧
  (∀ (unit : Fin 24) (rc cycles : Nat) (j : Job) (s : State),
    let e := unit.val
    let c := s.ctxAt j.stream
    e < 16 → (s.engine e).running = some j → j.op = 2 → j.bad = false → j.void = false → j.inTail c = true → s.mapped j c = true →
    (∀ a ∈ s.appendReads j c e, s.mem.lost.contains a = false) → (s.engine e).results.any (fun r => decide (r.1 = j.rslot)) = false →
    ∃ t, exec (.engineJobEnd unit rc cycles [] none false) s = .next t ∧ (t.engine e).running = none ∧
      SMap.get (t.engine e).results ⟨0xFE, 0, 0⟩ j.rslot = ⟨j.tag, j.xfer, lineOfWords [BitVec.ofNat 32 j.n, c.committed.setWidth 32]⟩ ∧
      (t.part j.tag.toNat).refusals = (s.part j.tag.toNat).refusals ∧ t.spad = s.spad) ∧
  (∀ (unit : Fin 24) (rc cycles : Nat) (j : Job) (s : State),
    let e := unit.val
    (s.engine e).running = some j → (j.op = 2 ∨ j.op = 4) → j.bad = false → j.void = false → j.inTail (s.ctxAt j.stream) = false →
    j.tag.toNat < 128 →
    ∃ t, exec (.engineJobEnd unit rc cycles [] none false) s = .next t ∧ (t.engine e).running = none ∧ t.mem.data = s.mem.data ∧
      (t.part j.tag.toNat).refusals = bump32 (s.part j.tag.toNat).refusals ∧ AbortsIn j.tag.toNat s t)) ∧
  (∀ (s : State) (c : Ctx) (pages : List Nat) (q : List KvBurst) (scale : W32) (pos window : Nat),
    (∀ p ∈ pages, ∀ x ∈ c.pagePositions p, visible pos window x = false) →
    s.attendRow c pages q scale pos window = { m := 0xFF800000, l := 0, o := List.replicate c.hd 0, n := 0 })

/-! ## Frames, steps, aborts -/

/-- The frame boundary: after a frame whose holds and pauses fit its dusk, with no hold standing, the counter is one higher, the
schedule restarts at cycle 0 and the length announced for the frame is in force; a frame that holds and pauses longer than its dusk is
an overrun, counted, and every partition with a stream on the die aborts (R197). Throttle pauses are inserted as far as the request and
the pause allowance leave room: holds and pauses together never pass the allowance by a pause (R196). -/
def Obligations.FramesBeginAndPause : Prop :=
  ((∀ (rc : Nat) (s : State), s.alive = true → s.framed = true → s.fu.hold = none → s.fu.held + s.fu.paused ≤ duskCycles s.fu.len →
    ∃ t, exec (.frameBoundary rc false) s = .next t ∧ t.fu.frame = s.fu.frame + 1 ∧ t.fu.cycle = 0 ∧ t.fu.held = 0 ∧ t.fu.paused = 0 ∧
      t.fu.hold = none ∧ t.fu.overruns = s.fu.overruns ∧ t.mesh.used = [] ∧
      t.fu.budget = max s.fu.budget (s.fu.held + s.fu.paused) ∧
      t.fu.len = (match s.fu.lens.find? (fun x => decide (x.1 = s.fu.frame + 1)) with | some x => x.2 | none => s.fu.len)) ∧
  (∀ (rc : Nat) (s : State), s.alive = true → s.framed = true → s.fu.hold = none → duskCycles s.fu.len < s.fu.held + s.fu.paused →
    ∃ t, exec (.frameBoundary rc false) s = .next t ∧ t.fu.frame = s.fu.frame + 1 ∧ t.fu.cycle = 0 ∧ t.fu.overruns = bump32 s.fu.overruns ∧
      t.fu.budget = s.fu.budget ∧ ∀ p ∈ s.steppers, AbortsIn p s t)) ∧
  (∀ (cycle count : Nat) (s : State), s.alive = true → s.fu.hold = none → cycle < 960 → s.fu.cycle ≤ cycle →
    ∃ t n, exec (.pauseInsertion cycle count) s = .next t ∧ n ≤ count ∧
      t = { s with fu := { s.fu with paused := s.fu.paused + n, pauses := s.fu.pauses + n, cycle := cycle } } ∧
      (n ≠ 0 → t.fu.held + t.fu.paused ≤ pauseAllowance s.fu.len ∧ t.fu.paused ≤ s.power.request) ∧
      (n < count → s.power.request ≤ t.fu.paused ∨ pauseAllowance s.fu.len ≤ t.fu.held + t.fu.paused))

/-- A step starts in the frame that was named for it: the partition takes the number and attempt due, and each of its streams stands at
the entry of the variant in force with its first eight base registers from the table, where firmware has just written what it changes. A
failed residue check of the step counter aborts the step. A boundary where nothing is due changes nothing. -/
def Obligations.StepsStart : Prop :=
  (∀ (part : PartNo) (fw : Boundary) (s : State),
    let q := s.part part.toNat
    s.alive = true → q.steps = true → q.nextStart = some s.fu.frame → q.abort = none → fw.upset = false →
    ∃ t, exec (.stepStart part fw) s = .next t ∧ (t.part part.toNat).step = q.due.1 ∧ (t.part part.toNat).attempt = q.due.2 ∧
      (t.part part.toNat).due =
        (q.due.1 + 1, ((q.tries.find? (fun x => decide (x.1 = q.due.1 + 1))).map (fun x => x.2)).getD 1) ∧
      (t.part part.toNat).nextStart = none ∧ t.spad = s.spad ∧
      (SMap.rising s.tiles = true → fw.bases = [] → fw.adapters = [] → ∀ n k, SMap.rising (s.tile n).streams = true →
        (SMap.get (s.tile n).streams {} k).tag.toNat = part.toNat →
        SMap.get (t.tile n).streams {} k = (SMap.get (s.tile n).streams {} k).start s.fu.frame (t.part part.toNat).cover)) ∧
  (∀ (part : PartNo) (tile : TileNo) (stream : BitVec 3) (index : BitVec 6) (v : BitVec 33) (s : State),
    let q := s.part part.toNat
    s.alive = true → q.steps = true → q.nextStart = some s.fu.frame → q.abort = none → SMap.rising s.tiles = true →
    SMap.rising (s.tile tile.toNat).streams = true → (SMap.get (s.tile tile.toNat).streams {} stream.toNat).tag.toNat = part.toNat →
    ∃ t, exec (.stepStart part { bases := [(tile, stream, index, v)] }) s = .next t ∧
      SMap.get (SMap.get (t.tile tile.toNat).streams {} stream.toNat).table 0 index.toNat = v) ∧
  (∀ (part : PartNo) (fw : Boundary) (s : State),
    let q := s.part part.toNat
    s.alive = true → q.steps = true → q.nextStart = some s.fu.frame → q.abort = none → fw.upset = true →
    ∃ t, exec (.stepStart part fw) s = .next t ∧ AbortsIn part.toNat s t) ∧
  (∀ (part : PartNo) (fw : Boundary) (s : State),
    (s.part part.toNat).nextStart ≠ some s.fu.frame → exec (.stepStart part fw) s = .next s)

/-- The replay (R199-R201): 32 frames after the abort frame the earliest aborted step starts again with the same number and the next
attempt, and no flit of the partition is left in the mesh; where no step was aborted, the step due starts; after the sixteenth attempt
of an aborted step the partition is stopped. Before the replay frame nothing happens. -/
def Obligations.AbortedStepsReplay : Prop :=
  (∀ (part : PartNo) (fw : Boundary) (a : AbortS) (r : StepRun) (s : State),
    let q := s.part part.toNat
    s.alive = true → q.abort = some a → a.replay ≤ s.fu.frame → q.steps = true → s.health.st = 0 → (∀ d, a.variant ≠ .covering d) →
    q.firstAborted a.frame = some r → (∀ x ∈ q.abortedRuns a.frame, x.attempt.toNat < 16) → fw.upset = false →
    ∃ t, exec (.replayStart part fw) s = .next t ∧ (t.part part.toNat).abort = none ∧ (t.part part.toNat).step = r.step ∧
      (t.part part.toNat).attempt = r.attempt + 1 ∧
      (t.part part.toNat).aborted = min (q.aborted + (q.abortedRuns a.frame).length) 4294967295 ∧
      (t.part part.toNat).replayed = some a.replay ∧
      (∀ f ∈ t.mesh.flits, f.tag.toNat ≠ part.toNat)) ∧
  (∀ (part : PartNo) (fw : Boundary) (a : AbortS) (s : State),
    let q := s.part part.toNat
    s.alive = true → q.abort = some a → a.replay ≤ s.fu.frame → q.steps = true → s.health.st = 0 → (∀ d, a.variant ≠ .covering d) →
    q.firstAborted a.frame = none → q.abortedRuns a.frame = [] → fw.upset = false →
    ∃ t, exec (.replayStart part fw) s = .next t ∧ (t.part part.toNat).abort = none ∧ (t.part part.toNat).step = q.due.1 ∧
      (t.part part.toNat).attempt = q.due.2 ∧ (t.part part.toNat).aborted = min q.aborted 4294967295) ∧
  (∀ (part : PartNo) (fw : Boundary) (a : AbortS) (r : StepRun) (s : State),
    let q := s.part part.toNat
    s.alive = true → q.abort = some a → a.replay ≤ s.fu.frame → q.steps = true → s.health.st = 0 → (∀ d, a.variant ≠ .covering d) →
    q.firstAborted a.frame = some r → (∃ x ∈ q.abortedRuns a.frame, 16 ≤ x.attempt.toNat) →
    ∃ t, exec (.replayStart part fw) s = .next t ∧ (t.part part.toNat).st = .stopped ∧ (t.part part.toNat).stopped = true ∧
      (t.part part.toNat).nextStart = none) ∧
  (∀ (part : PartNo) (fw : Boundary) (a : AbortS) (s : State), (s.part part.toNat).abort = some a → s.fu.frame < a.frame + 32 →
    exec (.replayStart part fw) s = .next s)

/-! ## Mint, Escrow, Ledger -/

/-- A Mint run of an Active account yields at most 16 tokens and moves the fed position by their number; a learning step yields nothing.
An outcome that lands with a Running submission at the committed position enters Escrow; with none it is dropped and counted. An outcome
that lands while the slot still holds an earlier one raises fault 0x02 and the partition aborts; the earlier outcome without an LSN goes
with its step, and nothing is committed (R289, R294). -/
def Obligations.MintAndEscrowHoldOneOutcome : Prop :=
  ((∀ (part : PartNo) (account : SlotNo) (full draft : List (List (Nat × W32))) (drafts : List Nat) (s : State),
    let p := s.part part.toNat
    let x := s.acct account.val
    s.alive = true → x.st = .active → x.part = part.setWidth 8 → p.abort = none → p.steps = true →
    (∀ r, p.curRun = some r → r.learn = false) →
    ∃ t o, exec (.mintRun part account full draft drafts false false) s = .next t ∧ (t.acct account.val).minted = some o ∧ o.tokens.length ≤ 16 ∧
      o.tokens.length = o.states.length ∧ o.pos = x.fedPos ∧ o.step = p.step ∧ o.attempt = p.attempt ∧
      (t.acct account.val).fedPos = x.fedPos + BitVec.ofNat 32 o.tokens.length ∧ (t.acct account.val).pos = x.pos ∧
      (∀ a, a ≠ account.val → t.acct a = s.acct a) ∧ t.ledger = s.ledger) ∧
  (∀ (part : PartNo) (account : SlotNo) (full draft : List (List (Nat × W32))) (drafts : List Nat) (upset tableBad : Bool) (r : StepRun) (s : State),
    (s.part part.toNat).curRun = some r → r.learn = true → exec (.mintRun part account full draft drafts upset tableBad) s = .next s) ∧
  (∀ (part : PartNo) (account : SlotNo) (o : Outcome) (b : Sub) (s : State),
    s.isHome account.val = true → (s.part part.toNat).abort = none → s.ledger.escrow.any (fun e => decide (e.1 = account.val)) = false →
    s.runningSub account.val = some b → b.doneLsn = none → b.part = part → o.pos = (s.acct account.val).pos →
    ∃ t, exec (.escrowArrival part account o) s = .next t ∧
      t.ledger.escrow.find? (fun e => decide (e.1 = account.val)) = some (account.val, part, o, none) ∧
      t.ledger.drops = s.ledger.drops ∧ t.ledger.journal = s.ledger.journal ∧
      t.acct account.val = (s.acct account.val).feed o ∧ (∀ a, a ≠ account.val → t.acct a = s.acct a)) ∧
  (∀ (part : PartNo) (account : SlotNo) (o : Outcome) (s : State),
    s.isHome account.val = true → (s.part part.toNat).abort = none → s.ledger.escrow.any (fun e => decide (e.1 = account.val)) = false →
    s.runningSub account.val = none →
    ∃ t, exec (.escrowArrival part account o) s = .next t ∧ t.ledger.escrow = s.ledger.escrow ∧ t.ledger.drops = s.ledger.drops + 1)) ∧
  (∀ (part : PartNo) (account : SlotNo) (o : Outcome) (s : State),
    s.isHome account.val = true → (s.part part.toNat).abort = none → s.ledger.escrow.any (fun e => decide (e.1 = account.val)) = true →
    ∃ t, exec (.escrowArrival part account o) s = .next t ∧ AbortsIn part.toNat s t ∧
      t.ledger.journal = s.ledger.journal ∧ t.accts = s.accts ∧
      ((s.part part.toNat).replayed.all (fun r => decide (r ≤ s.fu.frame)) = true →
        t.ledger.escrow = s.ledger.escrow.filter (fun x => decide (x.2.1.toNat ≠ part.toNat) || x.2.2.2.isSome)))

/-- Stage 2 on a paired device with nothing else due: an outcome whose step's summary is complete takes the next LSN for its Commit
record, which stands at the end of the journal, not yet acknowledged, and no account changes before it is durable; one past its deadline
takes a Complete record with status 2 in its place and leaves Escrow. -/
def Obligations.CommitTestAssignsOneRecord : Prop :=
  (∀ (account : SlotNo) (p : PartNo) (o : Outcome) (m : Summary) (b : Sub) (s : State),
    let a := account.val
    let x := s.acct a
    s.ledger.escrow.find? (fun e => decide (e.1 = a)) = some (a, p, o, none) → s.sumOf p o.step o.attempt = some m →
    s.runningSub a = some b → s.mayAssign = true → s.ledger.mode = 0 → s.quiet = true → b.covered = false → b.cancelLsn = none →
    (b.subkind = 1 → b.deadline = 0 ∨ s.fu.frame ≤ b.deadline.toNat) →
    ∃ t, exec (.commitTest account) s = .next t ∧ t.accts = s.accts ∧ t.host = s.host ∧ t.ledger.nextLsn = s.ledger.nextLsn + 1 ∧
      t.ledger.journal = s.ledger.journal ++ [{
        r := makeRec s.ledger.nextLsn (p.setWidth 8) (BitVec.ofNat 8 a) (outcomeBody b x o
               (if keepsAll b o then (SMap.get m.accounts (0, false, true) a).1 else Config.keptDigest s.free))
        frame := s.fu.frame, locally := true, acked := false, applied := false }] ∧
      t.ledger.escrow.find? (fun e => decide (e.1 = a)) = some (a, p, o, some s.ledger.nextLsn)) ∧
  (∀ (account : SlotNo) (p : PartNo) (o : Outcome) (m : Summary) (b : Sub) (s : State),
    let a := account.val
    s.ledger.escrow.find? (fun e => decide (e.1 = a)) = some (a, p, o, none) → s.sumOf p o.step o.attempt = some m →
    s.runningSub a = some b → s.mayAssign = true → s.ledger.mode = 0 → s.quiet = true → b.covered = false → b.subkind = 1 →
    b.deadline ≠ 0 → b.deadline.toNat < s.fu.frame →
    ∃ t, exec (.commitTest account) s = .next t ∧ t.accts = s.accts ∧ t.ledger.escrow.find? (fun e => decide (e.1 = a)) = none ∧
      t.ledger.journal = s.ledger.journal ++ [{
        r := makeRec s.ledger.nextLsn (b.part.setWidth 8) (acctField b.account)
               (.complete o.step (BitVec.ofNat 32 b.tokens) 2 false b.sess b.ssn)
        frame := s.fu.frame, locally := true, acked := false, applied := false }])

/-- Submissions at a step boundary of their partition on a paired device: an accepted Generate becomes Running and holds its account; an
accepted Close takes its Close record and its Complete record in one act and stays unfinished until they are durable. On the other
devices the slot that the home device has fixed holds the account from the next boundary on (how they learn of it: log entry 85). -/
def Obligations.SubmissionsRunAtBoundaries : Prop :=
  (∀ (account : SlotNo) (b : Sub) (s : State),
    let a := account.val
    let x := s.acct a
    s.headSub a = some b → s.isHome a = true → s.mayAssign = true → s.justStarted x.part.toNat = true → b.doneLsn = none →
    b.st = .accepted → x.running = none → (b.subkind = 1 ∨ b.subkind = 2) → b.cancelLsn = none →
    (b.subkind = 1 → (b.deadline = 0 ∨ s.fu.frame ≤ b.deadline.toNat) ∧ ceilingNear x b = false) →
    ∃ t, exec (.submissionRunning account) s = .next t ∧ (t.acct a).running = some (b.sess, b.ssn) ∧
      (∃ c, t.findSub b.covered b.sess b.ssn = some c ∧ c.st = .running) ∧ t.ledger.journal = s.ledger.journal ∧
      (∀ n, n ≠ a → t.acct n = s.acct n)) ∧
  (∀ (account : SlotNo) (b : Sub) (s : State),
    let a := account.val
    let x := s.acct a
    x.unused = false → s.headSub a = some b → s.isHome a = true → s.mayAssign = true → s.justStarted x.part.toNat = true →
    b.doneLsn = none → b.st = .accepted → b.subkind = 6 → b.cancelLsn = none → b.covered = false → s.ledger.mode = 0 → s.quiet = true →
    ∃ t, exec (.accountOpenCloseAct account none) s = .next t ∧ t.accts = s.accts ∧ t.ledger.nextLsn = s.ledger.nextLsn + 2 ∧
      t.ledger.journal.map (fun j => j.r.body) = s.ledger.journal.map (fun j => j.r.body) ++
        [.close b.sess b.ssn, .complete (BitVec.allOnes 48) (BitVec.ofNat 32 b.tokens) 0 false b.sess b.ssn]) ∧
  (∀ (account : SlotNo) (n : AcctNews) (s : State),
    n.home ≠ s.dict.addr → s.alive = true → n.opened = true → (s.acct account.val).unused = true →
    ∃ t, exec (.accountOpenCloseAct account (some n)) s = .next t ∧ (t.acct account.val).ident = n.ident ∧
      (t.acct account.val).home = n.home ∧ (t.acct account.val).part = n.part.setWidth 8 ∧
      (t.acct account.val).batch = some n.batch.toNat ∧ (t.acct account.val).pos = n.pos ∧ (t.acct account.val).opening = true ∧
      (∀ a, a ≠ account.val → t.acct a = s.acct a) ∧ t.ledger = s.ledger)

/-- A replication that is not acknowledged within 8 frames fails on a paired device: counted, and an Active dimension-0 link has failed;
every record keeps its LSN and its place in the journal until the partner is decided (R272, R282). Ledger traffic of the partner and the
home devices, on a link in order: the next sound record joins the replica and is acknowledged; an acknowledgement marks every record up
to its LSN; a commit notice advances COMMITTED of the account's stream here and the account's committed counts, or its adapter
generation (log entry 88); one for another device passes on. The partner's acknowledgement of a record makes it durable, and only then
is its submission Accepted and its receipt sent: with one unacknowledged Accept record in the journal, the acknowledgement raises the
durable LSN to it, moves the submission to Accepted and sends one Accept receipt with the submission's SSN on its connected session
(R281, R284). -/
def Obligations.ReplicationAndLedgerMessages : Prop :=
  (∀ (j : JRec) (s : State), s.ledger.journal.find? (fun j => !j.acked && decide (j.frame + 8 ≤ s.fu.frame)) = some j →
    s.ledger.mode = 0 → (s.link 0).st = .active →
    ∃ t, exec .replicationFailure s = .next t ∧ t.ledger.replFails = bump32 s.ledger.replFails ∧
      t.ledger.journal = s.ledger.journal ∧ t.ledger.subs = s.ledger.subs ∧ (t.link 0).st = .failed ∧
      (t.link 0).failures = bump32 (s.link 0).failures ∧ ∀ p ∈ s.steppers, AbortsIn p s t) ∧
  ((∀ (f : UtlFrame) (r o : LRecord) (s : State), s.frameClear f (.ledgerRecord f r) = true → recSound r = true →
    s.ledger.replica.getLast? = some o → r.lsn = o.lsn + 1 →
    ∃ t, exec (.ledgerRecord f r) s = .next t ∧ t.ledger = { s.ledger with
      replica := s.ledger.replica ++ [r], restart := false, rpos := (s.ledger.rpos + recCount r) % ringLines } ∧ t.spad = s.spad ∧
      t.accts = s.accts ∧ ((s.link 0).st = .active → s.health.silent = false → f.link.val ≠ 0 → (s.link 0).waiting = [] →
        (s.link 0).canSend (.ledgerAck r.lsn) = true → (t.link 0).out = (s.link 0).out ++ [.ledgerAck r.lsn])) ∧
  (∀ (f : UtlFrame) (lsn : BitVec 64) (s : State), s.frameClear f (.ledgerAcknowledge f lsn) = true → s.quiet = true →
    (∀ j ∈ s.ledger.journal, j.applied = true ∨ lsn < j.r.lsn) →
    ∃ t, exec (.ledgerAcknowledge f lsn) s = .next t ∧
      t.ledger.journal = s.ledger.journal.map (fun (j : JRec) => if j.r.lsn ≤ lsn then { j with acked := true } else j) ∧
      t.ledger.replicated = some (match s.ledger.replicated with | some o => (if o < lsn then lsn else o) | none => lsn) ∧
      t.accts = s.accts) ∧
  (∀ (f : UtlFrame) (n : CommitNotice) (key : Nat) (s : State), s.frameClear f (.commitNotice f n) = true →
    n.dest = s.dict.addr → n.adapter = none → s.isHome n.slot.val = false → s.ctxKeys n.part.toNat n.slot.val false = [key] →
    s.ctxKeys n.part.toNat n.slot.val true = [] →
    (s.ctxAt key).committed.toNat < n.newCommit.toNat → n.newCommit.toNat < 8388608 →
    ∃ t, exec (.commitNotice f n) s = .next t ∧ (t.ctxAt key).committed = BitVec.ofNat 23 n.newCommit.toNat ∧
      (t.acct n.slot.val).tokens = (s.acct n.slot.val).tokens + n.count.toNat ∧
      (t.acct n.slot.val).accepted = (s.acct n.slot.val).accepted + n.accepted.toNat ∧ (t.acct n.slot.val).pos = n.newCommit ∧
      t.ledger = s.ledger) ∧
  (∀ (f : UtlFrame) (n : CommitNotice) (g : BitVec 32 × BitVec 61) (s : State), s.frameClear f (.commitNotice f n) = true →
    n.dest = s.dict.addr → n.adapter = some g → s.isHome n.slot.val = false →
    ∃ t, exec (.commitNotice f n) s = .next t ∧ (t.acct n.slot.val).agen = g.1 ∧ (t.acct n.slot.val).adigest = g.2 ∧
      (t.acct n.slot.val).cur = !(s.acct n.slot.val).cur ∧ (∀ k, k ≠ n.slot.val → t.acct k = s.acct k) ∧ t.ledger = s.ledger) ∧
  (∀ (f : UtlFrame) (n : CommitNotice) (s : State), s.frameClear f (.commitNotice f n) = true → n.dest ≠ s.dict.addr →
    ∃ t, exec (.commitNotice f n) s = .next t ∧ SameButLinks s t)) ∧
  (∀ (f : UtlFrame) (j : JRec) (b : Sub) (n : SessNo) (ssn : BitVec 32) (kind : BitVec 4) (d : BitVec 64) (mt : BitVec 32) (et : W32)
      (af : BitVec 64) (dg : BitVec 61) (pa : BitVec 33) (pl : BitVec 18) (s : State),
    s.frameClear f (.ledgerAcknowledge f j.r.lsn) = true → s.ledger.journal = [j] → j.locally = true → j.acked = false →
    j.applied = false → j.r.body = .accept n ssn kind d mt et af dg pa pl → s.ledger.covered = [] → s.health.st < 2 →
    s.ledger.subs = [b] → b.sess = n → b.ssn = ssn → b.covered = false → b.subkind ≠ 4 → (s.sess n.toNat).connected = true →
    s.health.silent = false →
    ∃ t m, exec (.ledgerAcknowledge f j.r.lsn) s = .next t ∧ t.ledger.durable = some j.r.lsn ∧
      t.ledger.subs = [{ b with st := .accepted }] ∧ t.host.out = s.host.out ++ [m] ∧ m.type = 0x11 ∧ m.session = n ∧ m.ssn = ssn ∧
      t.ledger.journal = [{ j with acked := true, applied := true }])

/-- Parks and restores of parts. A part whose window cannot be opened ends the park with status 5; part 0 is sealed at the home, behind
its header in an export window of its own; a part that another device has sealed is noted there. A part of a restore that passes its
checks has its streams written as the account's tail, and the home device notes it, here or by a report; one that fails its checks ends
the restore at home with status 4, counted. -/
def Obligations.PartsOfParksAndRestores : Prop :=
  (∀ (account : SlotNo) (part : BitVec 16) (info : RestorePart) (b : Sub) (s : State),
    let a := account.val
    let x := s.acct a
    s.isHome a = true → s.runningSub a = some b → x.st = .parking → b.subkind = 3 → b.doneLsn = none → b.st ≠ .completed →
    x.parts.contains part = false → s.mayAssign = true → b.covered = false → s.ledger.mode = 0 → s.quiet = true →
    ∃ t, exec (.parcelSealEnd account part false info false) s = .next t ∧ (t.acct a).st = .parking ∧ (t.acct a).exports = [] ∧
      (∀ n, n ≠ a → t.acct n = s.acct n) ∧
      t.ledger.journal.map (fun j => j.r.body) = s.ledger.journal.map (fun j => j.r.body) ++
        [.complete (BitVec.allOnes 48) (BitVec.ofNat 32 b.tokens) 5 false b.sess b.ssn]) ∧
  (∀ (account : SlotNo) (info : RestorePart) (i : Nat) (b : Sub) (s u : State),
    let a := account.val
    let x := s.acct a
    let p := x.part.toNat
    let mirror := s.coversAcct a || s.sealsFor info.device
    let sealed := s.sealedParcel p a mirror 0
    s.isHome a = true → s.runningSub a = some b → x.st = .parking → b.subkind = 3 → b.doneLsn = none → x.parts.contains 0 = false →
    s.mayAssign = true → (s.part p).sealed < 4294967296 → s.mgmt.entropy = true → b.st ≠ .completed →
    x.parts.length + 1 ≠ s.parcelParts b.part.toNat a → s.openWindow b.sess p false 1 0 2 (128 + sealed.2.length) = some (u, i) →
    ∃ t, exec (.parcelSealEnd account 0 true info false) s = .next t ∧ (t.acct a).parts = x.parts ++ [0] ∧
      (t.acct a).exports = x.exports ++ [i] ∧ (t.part p).sealed = (s.part p).sealed + 1 ∧
      t.memLine (u.window i).base = sealed.1 ∧
      t.ledger.journal = s.ledger.journal) ∧
  (∀ (account : SlotNo) (part : BitVec 16) (info : RestorePart) (b : Sub) (s : State),
    let a := account.val
    let x := s.acct a
    s.isHome a = true → s.runningSub a = some b → x.st = .parking → b.subkind = 3 → b.doneLsn = none → x.parts.contains part = false →
    s.mayAssign = true → part ≠ 0 → info.device ≠ s.dict.addr.setWidth 16 → s.sealsFor info.device = false →
    (s.part x.part.toNat).sealed < 4294967296 → s.mgmt.entropy = true → b.st ≠ .completed →
    x.parts.length + 1 ≠ s.parcelParts b.part.toNat a →
    ∃ t, exec (.parcelSealEnd account part true info false) s = .next t ∧ (t.acct a).parts = x.parts ++ [part] ∧ (t.acct a).st = .parking ∧
      t.ledger.journal = s.ledger.journal ∧ t.spad = s.spad) ∧
  (∀ (m : ParcelMsg) (b : Sub) (s : State),
    let a := m.account.val
    let x := s.acct a
    s.alive = true → s.parcelPart m < 128 → m.upset = false → s.checkParcel (s.parcelPart m) m = true → s.isHome a = true → s.headSub a = some b →
    x.st = .restoring → b.subkind = 4 → b.doneLsn = none → s.mayAssign = true → x.parts.contains m.part = false →
    x.parts.length + 1 < x.restParts.length →
    ∃ t, exec (.restorePartCheck m) s = .next t ∧ (t.acct a).parts = x.parts ++ [m.part] ∧ (t.acct a).st = .restoring ∧
      (m.part = 0 → ∃ r, (t.acct a).restored = some r ∧ r.committed = m.committed ∧ r.lastToken = m.lastToken ∧ r.seed = m.seed ∧
        r.ok = true) ∧ t.ledger.journal = s.ledger.journal ∧ t.spad = s.spad) ∧
  (∀ (m : ParcelMsg) (layer : BitVec 10) (head : BitVec 6) (hdim : Bool) (es : List EntryWords) (key l : Nat) (s u : State),
    let a := m.account.val
    let p := s.parcelPart m
    s.alive = true → p < 128 → m.upset = false → s.checkParcel p m = true → s.isHome a = false → (s.acct a).abase = none → m.rank = 0 → m.adapter = [] →
    m.streams = [(layer, head, hdim, es)] → s.openCtx p a layer head hdim 0 = (u, some key) →
    s.firstHop (s.acct a).home = some l → (s.link l).st = .active → s.health.silent = false → s.health.st ≠ 3 → (s.link l).waiting = [] →
    (∀ r, (s.link l).canSend (.report r) = true) →
    ∃ t r, exec (.restorePartCheck m) s = .next t ∧ (t.ctxAt key).written = es.length ∧ (t.ctxAt key).committed = 0 ∧
      (t.ctxAt key).tag = BitVec.ofNat 8 p ∧ (t.ctxAt key).layer = layer ∧ (t.ctxAt key).head = head ∧
      (t.link l).out = (s.link l).out ++ [.report r] ∧ r.dest = (s.acct a).home ∧ r.account = m.account ∧ r.part = m.part ∧ r.ok = true ∧
      t.ledger = s.ledger) ∧
  (∀ (m : ParcelMsg) (b : Sub) (s : State),
    let a := m.account.val
    s.alive = true → s.parcelPart m < 128 → m.upset = false → s.checkParcel (s.parcelPart m) m = false → s.isHome a = true → s.headSub a = some b →
    (s.acct a).st = .restoring → b.subkind = 4 → b.doneLsn = none → s.mayAssign = true → b.covered = false → s.ledger.mode = 0 →
    s.quiet = true →
    ∃ t, exec (.restorePartCheck m) s = .next t ∧ t.ledger.restFails = bump32 s.ledger.restFails ∧
      t.ledger.journal.map (fun j => j.r.body) = s.ledger.journal.map (fun j => j.r.body) ++
        [.complete (BitVec.allOnes 48) (BitVec.ofNat 32 b.tokens) 4 false b.sess b.ssn])

/-! ## Tensor links: arriving frames -/

/-- An idle frame returns credits up to the buffers' sizes and takes no sequence number; a frame message of the master's own or a later
epoch from the parent is followed: counted as received, with its master, its epoch and the announced length sixteen frames on. A frame
that is not intact has no effect but the request to send its sequence number again (R320); an idle frame has none, and is not asked for
(log entry 93). -/
def Obligations.IdleFramesMessagesAndBadFrames : Prop :=
  ((∀ (f : UtlFrame) (s : State),
    let e := s.link f.link.val
    s.alive = true → f.upset = false → e.st = .active → frameIntact f { op := 0, tc := 0, kind := none, lo := 0, hi := 0 } = true →
    f.hdr.nak = false → e.waiting = [] → e.mirrorSeq = none →
    ∃ t, exec (.idleFrame f) s = .next t ∧ SameButLinks s t ∧ (∀ k, k ≠ f.link.val → t.link k = s.link k) ∧
      t.link f.link.val = { e with
        lastRx := s.fu.frame
        peerAck := (match e.ackOf f.hdr.ackseq with | some a => some a | none => e.peerAck)
        cr0 := min 4 (e.cr0 + f.hdr.cr0.toNat), cr1 := min 64 (e.cr1 + f.hdr.cr1.toNat), cr3 := min 256 (e.cr3 + f.hdr.cr3.toNat) }) ∧
  (∀ (f : UtlFrame) (s : State),
    let line := f.payload.headD 0
    let master : DevAddr := line.extractLsb' 950 10
    let epoch : BitVec 16 := line.extractLsb' 932 16
    s.frameClear f (.frameMessage f) = true → s.fu.epoch ≤ epoch → s.fu.acting = false → s.fu.lock = true →
    s.fromParent f.link.val master = true →
    ∃ t, exec (.frameMessage f) s = .next t ∧ t.fu.gotMsg = true ∧ t.fu.missRun = 0 ∧ t.fu.curMaster = master ∧ t.fu.epoch = epoch ∧
      t.fu.frame = s.fu.frame ∧ t.fu.lock = true ∧
      ((line.extractLsb' 960 64).toNat + 16, line.extractLsb' 948 2) ∈ t.fu.lens)) ∧
  (∀ (f : UtlFrame) (c : Instr) (k : FrameKind) (s : State),
    frameKind c = some k → (s.link f.link.val).st = .active → s.alive = true → f.upset = false → frameIntact f k = false →
    SameButLinks s (s.receive f c) ∧ ((s.receive f c).link f.link.val).rxNext = (s.link f.link.val).rxNext ∧
      ((s.receive f c).link f.link.val).nakOut =
        (s.link f.link.val).nakOut ++ (if k.op = 0 then [] else [f.hdr.seq]) ∧
      ((s.receive f c).link f.link.val).rxSlots = (s.link f.link.val).rxSlots)

/-- Data frames land in order in the slots of a valid receive entry of their partition: a copy's line replaces the slot, an add's line
is added lane by lane and its COUNT too; a digest record joins the records of its entry. No scratchpad byte changes. -/
def Obligations.DataFramesLand : Prop :=
  (∀ (f : UtlFrame) (line : Line) (s : State),
    let l := f.link.val
    let e := s.link l
    let x := SMap.get e.rxEnts {} f.hdr.xfer.toNat
    let n := x.base.toNat + f.hdr.slot.toNat
    s.frameClear f (.dataCopy f) = true → f.payload = [line] → x.valid = true → f.hdr.slot.toNat < x.lines → x.tag = f.hdr.tag →
    e.slotFree x f.hdr.slot.toNat 1 = true → x.clear = 0 → x.digs.length < x.ndig.toNat →
    ∃ t, exec (.dataCopy f) s = .next t ∧ ((t.link l).slot n).data = line ∧ ((t.link l).slot n).count = 1 ∧
      (∀ m, m ≠ n → (t.link l).slot m = e.slot m) ∧ SameButLinks s t) ∧
  (∀ (f : UtlFrame) (line : Line) (s : State),
    let l := f.link.val
    let e := s.link l
    let x := SMap.get e.rxEnts {} f.hdr.xfer.toNat
    let n := x.base.toNat + f.hdr.slot.toNat
    s.frameClear f (.dataAdd f false) = true → f.payload = [line] → x.valid = true → f.hdr.slot.toNat < x.lines → x.tag = f.hdr.tag →
    e.slotFree x f.hdr.slot.toNat f.hdr.count.toNat = true → x.clear = 0 → x.digs.length < x.ndig.toNat →
    ∃ t, exec (.dataAdd f false) s = .next t ∧
      ((t.link l).slot n).data = lineOfWords (List.zipWith p32Add (wordsOfLine (e.slot n).data) (wordsOfLine line)) ∧
      ((t.link l).slot n).count = (e.slot n).count + f.hdr.count.toNat ∧ (∀ m, m ≠ n → (t.link l).slot m = e.slot m) ∧
      SameButLinks s t) ∧
  (∀ (f : UtlFrame) (line : Line) (s : State),
    let l := f.link.val
    let x := SMap.get (s.link l).rxEnts {} f.hdr.xfer.toNat
    s.frameClear f (.digestRecord f) = true → f.payload = [line] → x.valid = true → x.tag = f.hdr.tag → x.done = false → x.clear = 0 →
    x.digs.length + 1 < x.ndig.toNat →
    ∃ t, exec (.digestRecord f) s = .next t ∧ SameButLinks s t ∧
      SMap.get (t.link l).rxEnts {} f.hdr.xfer.toNat = { x with digs := x.digs ++ [(f.link, line)] } ∧
      (t.link l).rxSlots = (s.link l).rxSlots)

/-- The control messages of the cluster: an abort notice not seen before begins the abort of a loaded partition; a failure notice is
collected; a vote is kept by the acting master; a loading report names its device; the last round of a summary or of a boundary exchange
gives the joined line its effect; a restore report adds its part. -/
def Obligations.ControlMessagesTakeEffect : Prop :=
  (∀ (f : UtlFrame) (n : AbortNotice) (s : State), s.frameClear f (.abortNotice f n) = true →
    s.fu.seenAborts.contains (n.part, n.frame.toNat, n.origin) = false → (s.part n.part.toNat).st ≠ .free →
    (s.part n.part.toNat).abort = none → (s.part n.part.toNat).replayed.all (fun r => decide (r ≤ n.frame.toNat)) = true →
    ∃ t, exec (.abortNotice f n) s = .next t ∧ (t.part n.part.toNat).abort = some ⟨n.frame.toNat, n.variant, n.streams⟩ ∧
      (t.part n.part.toNat).nextStart = none ∧ t.fu.seenAborts = s.fu.seenAborts ++ [(n.part, n.frame.toNat, n.origin)] ∧
      t.spad = s.spad ∧ t.accts = s.accts) ∧
  (∀ (f : UtlFrame) (s : State),
    let n := noticeOf (f.payload.headD 0)
    s.frameClear f (.failureNotice f) = true → s.fu.seenFails.contains n = false →
    ∃ t, exec (.failureNotice f) s = .next t ∧ t.fu.notices = s.fu.notices ++ [n] ∧ t.fu.seenFails = s.fu.seenFails ++ [n] ∧
      t.parts = s.parts ∧ t.spad = s.spad) ∧
  (∀ (f : UtlFrame) (d : DevAddr) (len : BitVec 2) (enf : Bool) (s : State), s.frameClear f (.stretchVote f d len enf) = true →
    s.fu.acting = true → len ≠ 0 →
    ∃ t, exec (.stretchVote f d len enf) s = .next t ∧ t.fu.votes = s.fu.votes.filter (fun v => decide (v.1 ≠ d)) ++ [(d, len, enf)] ∧
      t.parts = s.parts) ∧
  (∀ (f : UtlFrame) (p : PartNo) (d : DevAddr) (s : State), s.frameClear f (.loadingReport f p d true) = true →
    (s.part p.toNat).st = .loading → (s.part p.toNat).loadedDevs.contains d = false →
    ∃ t, exec (.loadingReport f p d true) s = .next t ∧ (t.part p.toNat).loadedDevs = (s.part p.toNat).loadedDevs ++ [d] ∧
      (∀ k, k ≠ p.toNat → t.part k = s.part k)) ∧
  (∀ (f : UtlFrame) (k : Fin 10) (r : StepRun) (s : State),
    let m := summaryOf f.payload
    let p := m.part.toNat
    let j := r.summary.join m
    s.frameClear f (.clearingSummary f k) = true → s.fu.failedDevs = [] → s.dict.n = k.val + 1 → (s.part p).runs = [r] →
    r.rounds = some k.val → r.step = m.step → r.attempt = m.attempt → r.early = [] → (s.part p).abort = none →
    j.clearOk = true → j.devices.toNat = 2 ^ s.dict.n →
    ∃ t, exec (.clearingSummary f k) s = .next t ∧ t.ledger = { s.ledger with sums := s.ledger.sums ++ [j] } ∧
      (t.part p).allLoaded = j.loaded ∧ (t.part p).nextStreams = some j.streams ∧ (t.part p).anyLearn = j.learn ∧ t.accts = s.accts) ∧
  (∀ (f : UtlFrame) (k : Fin 10) (x : Summary) (s : State),
    let m := summaryOf f.payload
    let p := m.part.toNat
    let j := x.join m
    s.frameClear f (.boundaryExchange f k) = true → s.fu.failedDevs = [] → s.dict.n = k.val + 1 → (s.part p).st = .loading →
    (s.part p).exchEarly = [] → (s.part p).exchange = some (k.val, x) →
    ∃ t, exec (.boundaryExchange f k) s = .next t ∧ (t.part p).exchange = none ∧
      (t.part p).allLoaded = (j.clearOk && j.loaded && decide (j.devices.toNat = 2 ^ s.dict.n))) ∧
  (∀ (f : UtlFrame) (r : RestoreReport) (b : Sub) (s : State),
    let a := r.account.val
    let x := s.acct a
    s.frameClear f (.restoreReport f r) = true → s.isHome a = true → s.headSub a = some b → x.st = .restoring → b.subkind = 4 →
    b.doneLsn = none → s.mayAssign = true → r.ok = true → x.parts.contains r.part = false → x.parts.length + 1 < x.restParts.length →
    ∃ t, exec (.restoreReport f r) s = .next t ∧ (t.acct a).parts = x.parts ++ [r.part] ∧ (t.acct a).st = .restoring ∧
      t.ledger.journal = s.ledger.journal)

/-- The bulk messages: mirror entries and context pages whose residues hold reach the stream of their account, a refused transfer leaves
its account Active again, shard copy lines their granules, a Ledger copy the replica, attention partials the scratchpad lines of their
partition and no other byte; in stage 4 the peer's key is kept, and its chain, where it is good, takes the link to stage 5 with the key
of both; on an Active link the same renews the key (R323, R325, R341). -/
def Obligations.BulkAndTrainingMessages : Prop :=
  (∀ (f : UtlFrame) (m : MirrorMsg) (key : Nat) (s : State), s.frameClear f (.mirrorEntries f m) = true →
    s.findCtx m.part.toNat m.account.val m.layer m.head m.hdim (m.streamNo.setWidth 13 + 1) = some key →
    entriesOk m.hdim m.entries = true →
    ∃ t, exec (.mirrorEntries f m) s = .next t ∧
      (t.ctxAt key).written = max (s.ctxAt key).written (m.pos.toNat + m.entries.length) ∧
      (t.ctxAt key).committed = (s.ctxAt key).committed ∧ t.spad = s.spad ∧ t.accts = s.accts) ∧
  (∀ (f : UtlFrame) (m : PagesMsg) (key : Nat) (s : State), s.frameClear f (.contextPages f m) = true →
    s.findCtx m.part.toNat m.account.val m.layer m.head m.hdim 0 = some key → m.answer = none → s.ledger.mode ≠ 2 →
    (m.index = 0 ∧ m.firstPos = 0 ∨ (s.part m.part.toNat).refused.contains m.account.val = false) →
    entriesOk m.hdim m.entries = true → m.last = none →
    ∃ t, exec (.contextPages f m) s = .next t ∧
      (t.ctxAt key).written = max (s.ctxAt key).written (m.firstPos.toNat + m.entries.length) ∧
      (t.ctxAt key).committed = (s.ctxAt key).committed ∧ t.accts = s.accts) ∧
  (∀ (f : UtlFrame) (m : PagesMsg) (s : State), s.frameClear f (.contextPages f m) = true → m.answer = some false →
    (s.acct m.account.val).st = .transferring →
    ∃ t, exec (.contextPages f m) s = .next t ∧ (t.acct m.account.val).st = .active ∧
      (∀ k, k ≠ m.account.val → t.acct k = s.acct k)) ∧
  (∀ (f : UtlFrame) (m : ShardMsg) (line : Line) (s : State), s.frameClear f (.shardCopy f m) = true → m.lines = [line] →
    m.firstLine < 2 * granuleLines → m.last = none →
    ∃ t, exec (.shardCopy f m) s = .next t ∧ t.memLine ((if m.partner then 2 else 0) * granuleLines + m.firstLine) = line ∧
      t.health.copies = s.health.copies ∧ t.parts = s.parts) ∧
  (∀ (f : UtlFrame) (m : LedgerCopyMsg) (s : State), s.frameClear f (.ledgerCopy f m) = true → m.own = false →
    ∃ t, exec (.ledgerCopy f m) s = .next t ∧ t.ledger = { s.ledger with
      replica := (if m.first then [] else s.ledger.replica) ++ m.records.filter recSound, rpos := t.ledger.rpos } ∧ t.accts = s.accts) ∧
  (∀ (f : UtlFrame) (m : PartialsMsg) (line : Line) (s : State), s.frameClear f (.contextPartials f m) = true → m.lines = [line] →
    m.line.toNat ≤ 3071 → (s.tile m.tile.toNat).owns m.line.toNat 1 m.tag = true →
    ∃ t, exec (.contextPartials f m) s = .next t ∧ t.padLine m.tile.toNat m.line.toNat = line ∧
      PadOutside m.tile.toNat m.line.toNat 1 s t ∧ t.tiles = s.tiles) ∧
  (∀ (f : UtlFrame) (k : BitVec 776) (s : State),
    let e := s.link f.link.val
    s.alive = true → e.st = .training → e.stage = 4 → frameIntact f { op := 7, tc := 0, kind := none, lo := 1, hi := 1 } = true →
    (f.payload.headD 0).extractLsb' 913 4 = 4#4 → e.peerKey = some k →
    ∃ t, exec (.training f (some true)) s = .next t ∧ SameButLinks s t ∧ (t.link f.link.val).stage = 5 ∧
      (t.link f.link.val).st = .training ∧ (t.link f.link.val).keyGen = 0 ∧ (t.link f.link.val).peerKey = none ∧
      (t.link f.link.val).txKey =
        Config.utlKey (Config.ecdh (e.ownDraw.getD 0) k) s.dict.addr (s.peerOf f.link.val) f.link.val) ∧
  (∀ (f : UtlFrame) (d : Nat) (chain : Option Bool) (s : State),
    let e := s.link f.link.val
    s.alive = true → e.st = .training → e.stage = 4 → frameIntact f { op := 7, tc := 0, kind := none, lo := 1, hi := 1 } = true →
    (f.payload.headD 0).extractLsb' 913 4 = 4#4 → e.peerKey = none → e.ownDraw = some d →
    ∃ t, exec (.training f chain) s = .next t ∧ SameButLinks s t ∧ (t.link f.link.val).stage = 4 ∧
      (t.link f.link.val).peerKey = some ((f.payload.headD 0).extractLsb' 57 776)) ∧
  (∀ (f : UtlFrame) (k : BitVec 776) (s : State), s.frameClear f (.training f (some true)) = true →
    (f.payload.headD 0).extractLsb' 913 4 = 4#4 → (s.link f.link.val).peerKey = some k →
    ∃ t, exec (.training f (some true)) s = .next t ∧ SameButLinks s t ∧ (t.link f.link.val).keyGen = (s.link f.link.val).keyGen + 1 ∧
      (t.link f.link.val).keyUse = 0 ∧ (t.link f.link.val).st = .active)

/-! ## Tensor links: the device's own end -/

/-- What a link sends: a one-line copy entry whose line has landed leaves as one data frame and is empty again; a NAKed frame goes again
in the dusk that R321 names, after the one that went before it, and fails the link once that has passed, but for a wide optical link
that lost it to a laser's switch (R406), which narrows; after 2^32 sequenced frames the link takes a new own key of the next Vault draw
and sends it (R325); a waiting change of width takes place, to full width where both pairs are lit, and half width is voted for with an
enforced 1,536 (R313). A link on which no frame arrived for two frames fails: its failure is counted, its loopback test runs and every
partition with a stream on the die aborts; the test's end floods one failure notice with its result. -/
def Obligations.LinksSendAndFail : Prop :=
  ((∀ (link : LinkNo) (entry : BitVec 8) (s : State),
    let e := s.link link.val
    let x := SMap.get e.txEnts {} entry.toNat
    let v := SMap.get e.txLines {} x.base.toNat
    let m := LinkMsg.data false (BitVec.ofNat 8 (x.fwd.toNat / 16)) 0 0 x.tag [v.data]
    s.alive = true → s.health.st ≠ 3 → s.health.silent = false → e.st = .active → s.linkServes link.val x.tag = true →
    x.valid = true → x.lines = 1 → x.op = 0 → x.sent = 0 → x.clear = 0 →
    v.full = true → e.waiting = [] → e.canSend m = true →
    ∃ t, exec (.transmitEntrySend link entry false false) s = .next t ∧ SameButLinks s t ∧ (t.link link.val).out = e.out ++ [m] ∧
      (t.link link.val).sent = e.sent + 1 ∧ (SMap.get (t.link link.val).txLines {} x.base.toNat).full = false ∧
      SMap.get (t.link link.val).txEnts {} entry.toNat = { x with locals := [], inherit := none }) ∧
  (∀ (link : LinkNo) (rc f : Nat) (spare : Bool) (q : BitVec 16) (rest : List (BitVec 16 × Nat)) (s : State),
    let e := s.link link.val
    s.alive = true → s.health.st ≠ 3 → s.health.silent = false → e.st = .active → e.nakIn = (q, f) :: rest → s.fu.frame ≤ f + 1 →
    s.fu.hold = none → 960 + s.fu.held + s.fu.paused ≤ rc → (e.resendTo.1 = s.fu.frame → e.resendTo.2 ≤ rc) →
    rc + sendCycles e.lanes (e.sentFrame q).lines.toNat ≤ frameCycles s.fu.len →
    ∃ t, exec (.frameRetransmission link rc spare) s = .next t ∧ SameButLinks s t ∧ (t.link link.val).nakIn = rest ∧
      (t.link link.val).resent = e.resent ++ [match e.ackOf q with | some k => k | none => q.toNat] ∧ (t.link link.val).out = e.out ++ [.retransmit q]) ∧
  (∀ (link : LinkNo) (rc f : Nat) (spare : Bool) (q : BitVec 16) (rest : List (BitVec 16 × Nat)) (s : State),
    let e := s.link link.val
    s.alive = true → s.health.st ≠ 3 → s.health.silent = false → e.st = .active → e.nakIn = (q, f) :: rest →
    (f + 1 < s.fu.frame ∨ s.fu.frame = f + 1 ∧ s.fu.hold = none ∧
      frameCycles s.fu.len < max rc (s.resendFrom e) + sendCycles e.lanes (e.sentFrame q).lines.toNat) →
    ∃ t, exec (.frameRetransmission link rc spare) s = .next t ∧
      (spare = false ∨ link.val < 6 ∨ e.lanes ≠ 4 → (t.link link.val).st = .failed ∧ ∀ p ∈ s.steppers, AbortsIn p s t) ∧
      (spare = true → 6 ≤ link.val → e.lanes = 4 → SameButLinks s t ∧ (t.link link.val).width = some false ∧
        (t.link link.val).st = .active)) ∧
  (∀ (link : LinkNo) (s : State),
    let e := s.link link.val
    s.alive = true → e.st = .active → 4294967296 ≤ e.keyUse → e.nakIn = [] → e.ownDraw = none →
    ∃ t, exec (.keyRenewal link) s = .next t ∧ t = { s with links := t.links, mgmt := { s.mgmt with draws := s.mgmt.draws + 1 } } ∧
      (t.link link.val).ownDraw = some s.mgmt.draws ∧ (t.link link.val).keyGen = e.keyGen ∧ (t.link link.val).txKey = e.txKey ∧
      (t.link link.val).st = .active) ∧
  (∀ (link : LinkNo) (wide : Bool) (s : State),
    let e := s.link link.val
    s.alive = true → 6 ≤ link.val → e.st = .active → e.nakIn = [] → e.width = some wide → (e.resendTo.1 ≠ s.fu.frame ∨ e.resendTo.2 = 0) →
    (∀ m, m < 6 → (s.module m).removing = false) →
    ∃ t, exec (.opticalWidthChange link) s = .next t ∧ (t.link link.val).lanes = (if wide && s.bothLit link.val then 4 else 2) ∧
      (t.link link.val).width = none ∧ (t.link link.val).st = .active ∧ (wide = false → t.fu.vote = 3 ∧ t.fu.enforced = true))) ∧
  ((∀ (link : LinkNo) (s : State), s.alive = true → (s.link link.val).st = .active → (s.link link.val).lastRx + 2 < s.fu.frame →
    ∃ t, exec (.linkSilence link) s = .next t ∧ (t.link link.val).st = .failed ∧ (t.link link.val).loop = some none ∧
      (t.link link.val).failures = bump32 (s.link link.val).failures ∧ (t.link link.val).failFrame = s.fu.frame ∧
      ∀ p ∈ s.steppers, AbortsIn p s t) ∧
  (∀ (link : LinkNo) (intact signal : BitVec 16) (s : State),
    let fails := decide (intact ≠ 0xFFFF) || (List.range (s.link link.val).lanes).any (fun k => !signal.getLsbD k)
    s.alive = true → (s.link link.val).loop = some none → (s.link link.val).st = .failed →
    ∃ t, exec (.loopbackTestEnd link intact signal) s = .next t ∧ (t.link link.val).loop = some (some fails) ∧
      t.fu.notices = s.fu.notices ++ [{
        frame := (s.link link.val).failFrame, origin := s.dict.addr, link := BitVec.ofNat 4 link.val, loopFail := fails, cause := 0 }] ∧
      t.parts = s.parts))

/-- Training in order (R323): detection with every lane, or two lanes of an optical link, where an electrical link in service that has
lost a lane fails (R313); equalisation, after which its own idle frames go; measurement, which takes the smallest class whose bound
holds the measured delay; a stage out of time restarts three times and then fails the link. In service a delay above its class's bound
is counted and the class stays (R327). -/
def Obligations.LinksTrain : Prop :=
  (∀ (link : LinkNo) (lanes : BitVec 5) (s : State),
    let e := s.link link.val
    s.alive = true → e.st = .training → e.stage = 0 →
    (fullLanes link.val ≤ lanes.toNat → ∃ t, exec (.linkDetect link lanes) s = .next t ∧ SameButLinks s t ∧
      t.link link.val = { e with stage := 1, lanes := fullLanes link.val }) ∧
    (6 ≤ link.val → 2 ≤ lanes.toNat → lanes.toNat < 4 → ∃ t, exec (.linkDetect link lanes) s = .next t ∧ SameButLinks s t ∧
      t.link link.val = { e with stage := 1, lanes := 2 }) ∧
    (link.val < 6 → lanes.toNat < fullLanes link.val → exec (.linkDetect link lanes) s = .next s)) ∧
  (∀ (link : LinkNo) (lanes : BitVec 5) (s : State), s.alive = true → (s.link link.val).st = .active → link.val < 6 →
    lanes.toNat < fullLanes link.val →
    ∃ t, exec (.linkDetect link lanes) s = .next t ∧ (t.link link.val).st = .failed) ∧
  (∀ (link : LinkNo) (s : State), s.alive = true → (s.link link.val).st = .training → (s.link link.val).stage = 1 →
    ∃ t, exec (.linkEqualisationEnd link) s = .next t ∧ SameButLinks s t ∧
      t.link link.val = Endpoint.idle { s.link link.val with stage := 2 } s.fu.frame) ∧
  (∀ (link : LinkNo) (s : State),
    let e := s.link link.val
    s.alive = true → e.st = .training → e.stage ≠ 0 →
    (e.tries < 3 → ∃ t, exec (.trainingStageTimeout link) s = .next t ∧ (t.link link.val).stage = 0 ∧
      (t.link link.val).tries = e.tries + 1 ∧ (t.link link.val).st = .training) ∧
    (3 ≤ e.tries → ∃ t, exec (.trainingStageTimeout link) s = .next t ∧ (t.link link.val).st = .failed ∧
      (t.link link.val).failures = bump32 e.failures)) ∧
  (∀ (link : LinkNo) (roundTrip turn c : Nat) (s : State),
    let e := s.link link.val
    let d := (roundTrip - turn) / 2 + 96 + 64
    s.alive = true → e.st = .training → e.stage = 5 → s.fu.lock = false → s.fu.acting = false → c < 8 → d ≤ classBounds.getD c 0 →
    (∀ k, k < c → classBounds.getD k 0 < d) →
    ∃ t, exec (.delayRemeasure link roundTrip turn) s = .next t ∧ (t.link link.val).cls = c ∧ (t.link link.val).delay = d ∧
      (t.link link.val).stage = 6) ∧
  (∀ (link : LinkNo) (roundTrip turn : Nat) (s : State),
    let e := s.link link.val
    let d := (roundTrip - turn) / 2 + 96 + 64
    s.alive = true → e.st = .active → e.measured + 1048576 ≤ s.fu.frame → classBounds.getD e.cls 0 < d →
    ∃ t, exec (.delayRemeasure link roundTrip turn) s = .next t ∧ (t.link link.val).cls = e.cls ∧ (t.link link.val).delay = d ∧
      (t.link link.val).exceed = bump32 e.exceed ∧ (t.link link.val).st = .active)

/-- Frame reference and covering: 64 messages missed end the lock and mean Twilight, or without a backup master take the device back to
waiting for its reference; the backup master takes over after five silent frames with the next epoch; the failure decision adds every
device decided; at the return frame covering ends and the Ledger is paired again. -/
def Obligations.FrameReferenceAndCovering : Prop :=
  (∀ s : State, s.alive = true → s.fu.lock = true → s.fu.acting = false → 64 ≤ s.fu.missRun → s.fu.noBackup = false → s.health.st = 0 →
    s.health.decided = none →
    ∃ t, exec .frameLockLoss s = .next t ∧ t.fu.lock = false ∧ t.health.decided = some 7 ∧ t.health.cause = 7) ∧
  (∀ s : State, s.alive = true → s.fu.lock = true → s.fu.acting = false → 64 ≤ s.fu.missRun → s.fu.noBackup = true →
    ∃ t, exec .frameLockLoss s = .next t ∧ t.fu.lock = false ∧ t.dawn.step = 5 ∧ t.health = s.health) ∧
  (∀ s : State, s.alive = true → s.fu.lock = true → s.fu.acting = false → s.fu.noBackup = false → s.fu.refuseRole = false →
    s.dict.addr = complementOf s.dict.n s.fu.curMaster → 5 ≤ s.fu.foldRun →
    ∃ t, exec .masterTakeover s = .next t ∧ t.fu.acting = true ∧ t.fu.epoch = s.fu.epoch + 1 ∧ t.fu.curMaster = s.dict.addr ∧
      t.fu.takeovers = bump32 s.fu.takeovers ∧ t.fu.frame = s.fu.frame ∧ t.parts = s.parts) ∧
  (∀ (first : Nat) (s : State), (s.fu.notices.map (fun n => n.frame)).min? = some first → s.alive = true → first + 26 ≤ s.fu.frame →
    ∃ t, exec .failureDecision s = .next t ∧ t.fu.notices = s.fu.notices.filter (fun n => decide (first + 4 < n.frame)) ∧
      (∀ d ∈ decided s.dict.n (s.fu.notices.filter (fun n => decide (n.frame ≤ first + 4))), d ∈ t.fu.failedDevs) ∧
      (∀ d ∈ s.fu.failedDevs, d ∈ t.fu.failedDevs)) ∧
  (∀ (f : Nat) (s : State), s.fu.returnF = some f → s.alive = true → f ≤ s.fu.frame → s.stillCovering f = false →
    ∃ t, exec .coveringEnd s = .next t ∧ t.ledger.mode = 0 ∧ t.fu.failedDevs = [] ∧ t.fu.adopted = [] ∧ t.fu.returnF = none ∧
      t.fu.returnIn = some f ∧ t.health.ready = 0 ∧ t.ledger.covered = [] ∧ t.ledger.journal = s.ledger.journal ∧
      t.ledger.subs = s.ledger.subs.filter (fun b => !b.covered))

/-! ## Partitions and Twilight -/

/-- A partition's life: loading ends when every block is zeroed and the partition's tags read back as written, where tags that differ
decide Twilight (R365, R387); the start frame's boundary starts it, Serving if all its arrays are Resident and Streaming otherwise; the
close frame's boundary closes it, where its accounts are freed, and, once no RDMA WRITE holds one of its windows, its key is destroyed
and its granules wait for zeroing (R246-R249, R360). At the boundary of the switch frame every attached partition runs the staged
version (R269); a partition reset starts again 32 frames later with attempt 1 (R523). -/
def Obligations.PartitionsLoadStartCloseSwitchAndReset : Prop :=
  (∀ (part : PartNo) (s : State), (s.part part.toNat).st = .loading → (s.part part.toNat).loaded = false →
    s.blocksReady part.toNat = true → s.tagsAgree part.toNat = false → s.health.st = 0 → s.health.decided = none →
    ∃ t, exec (.loadingComplete part) s = .next t ∧ t.health.decided = some 0x0B ∧ t.parts = s.parts) ∧
  (∀ (part : PartNo) (s : State), (s.part part.toNat).st = .loading → s.blocksReady part.toNat = true →
    s.tagsAgree part.toNat = true →
    ∃ t, exec (.loadingComplete part) s = .next t ∧ t = { s with parts := t.parts } ∧
      t.part part.toNat = { s.part part.toNat with loaded := true } ∧ ∀ k, k ≠ part.toNat → t.part k = s.part k) ∧
  (∀ (part : PartNo) (fw : Boundary) (f : Nat) (s : State),
    let q := s.part part.toNat
    s.alive = true → fw.bases = [] → s.ledger.mode ≠ 2 → q.startF = some f → q.st = .loading → f ≤ s.fu.frame → s.fu.frame % 4096 = 0 →
    q.allLoaded = true → s.delaysFit q = true →
    ∃ t, exec (.partitionStart part fw) s = .next t ∧ t = { s with parts := t.parts, recd := t.recd } ∧
      (t.part part.toNat).st = (if s.allResident part.toNat then .serving else .streaming) ∧
      (t.part part.toNat).nextStart = some s.fu.frame ∧ (t.part part.toNat).startF = none ∧
      (t.part part.toNat).startIn = some f ∧ ∀ k, k ≠ part.toNat → t.part k = s.part k) ∧
  (∀ (part : PartNo) (f : Nat) (s : State),
    let q := s.part part.toNat
    s.alive = true → q.closeF = some f → q.steps = true → f ≤ s.fu.frame → q.nextStart = some s.fu.frame →
    s.workLeft part = false →
    ∃ t, exec (.partitionClose part) s = .next t ∧ ((t.part part.toNat).st = .closing ∨ (t.part part.toNat).st = .free) ∧
      (t.part part.toNat).nextStart = none ∧ (∀ x ∈ t.accts, x.2.part.toNat ≠ part.toNat) ∧ t.spad = s.spad ∧ t.arrays = s.arrays ∧
      ((∀ x ∈ s.host.windows, x.2.tag.toNat = part.toNat → x.2.busy = 0) → (∃ x ∈ s.mem.granules, x.2.toNat = part.toNat) →
        (∀ x ∈ t.mem.keys, x.1 ≠ part.toNat) ∧ (∀ x ∈ t.mem.granules, x.2.toNat ≠ part.toNat) ∧
        ∀ g ∈ q.granules, g ∈ t.mem.zeroing)) ∧
  (∀ (base : BitVec 5) (i : StagedImage) (p f : Nat) (s : State),
    s.alive = true → p ∈ s.attached base.toNat → (s.part p).switchF = some f → f ≤ s.fu.frame →
    (∀ k ∈ s.attached base.toNat, (s.part k).allReady = true ∧ (s.part k).repl = 3 ∧ s.atBoundary k = true) →
    (s.attached base.toNat).findSome? (fun k => (s.part k).staged) = some i →
    ∃ t, exec (.weightSwitch base) s = .next t ∧ (SMap.get t.dict.bases (0, 0) base.toNat).2 = i.version ∧
      t.free = s.free ∧ t.arrays = s.arrays ∧ t.spad = s.spad ∧
      ∀ k ∈ s.attached base.toNat, (t.part k).version = i.version ∧ (t.part k).digest = i.digest ∧ (t.part k).st = .serving ∧
        (t.part k).repl = 0 ∧ (t.part k).switchF = none ∧ (t.part k).staged = none) ∧
  (∀ (part : PartNo) (f : Nat) (s : State),
    let q := s.part part.toNat
    s.alive = true → q.resetF = some f → f ≤ s.fu.frame → q.st ≠ .stopped → q.nextStart = some s.fu.frame →
    ∃ t, exec (.partitionReset part) s = .next t ∧ (t.part part.toNat).nextStart = some (s.fu.frame + 32) ∧
      (t.part part.toNat).st = q.st ∧ (t.part part.toNat).resetF = none ∧ (t.part part.toNat).resetIn = true ∧
      (t.part part.toNat).abort = none ∧ (t.part part.toNat).abortRun = 0 ∧ (t.part part.toNat).due.2 = 1 ∧
      (∀ r, q.firstAborted s.fu.frame = some r → (t.part part.toNat).due.1 = r.step) ∧
      (q.firstAborted s.fu.frame = none → (t.part part.toNat).due.1 = q.due.1))

/-- Twilight (R388-R392): in its frame every partition with a stream on the die aborts and no LSN is assigned from then on; 32 frames
later nothing steps, the keys are gone and the flag goes to flash; Dark holds no partition, account, stream or Ledger record and keeps
its sessions. The OR of the two copies of a tree acts while they disagree: the Abort that one asserts aborts every partition with a
stream on the die, the hold that one asserts holds for those cycles; trees that disagree for more than two cycles (R377), and a failed
optical engine, whose ports and links go down (R13), decide Twilight. -/
def Obligations.TwilightRuns : Prop :=
  (∀ (c : BitVec 8) (s : State), s.alive = true → s.health.decided = some c → s.health.st = 0 → 11 ≤ s.dawn.step →
    s.replayDue = false →
    ∃ t, exec .twilightEntry s = .next t ∧
      t.health = { s.health with st := 1, frame := s.fu.frame, decided := none, cause := c } ∧ t.mayAssign = false ∧
      (∀ p ∈ s.steppers, AbortsIn p s t) ∧
      t.fu.notices = s.fu.notices ++ [{ frame := s.fu.frame, origin := s.dict.addr, link := 15, loopFail := false, cause := c }]) ∧
  (∀ s : State, s.alive = true → s.health.st = 1 → s.health.frame + 32 ≤ s.fu.frame →
    ∃ t, exec .twilightStop s = .next t ∧ t.health = { s.health with st := 2, flag := true } ∧ t.mem.keys = [] ∧
      t.mem.written = [] ∧ FlashCls.flag ∈ t.mgmt.fqueue ∧
      ∀ x ∈ t.parts, x.2.abort = none ∧ x.2.nextStart = none ∧ x.2.halt = true) ∧
  (∀ s : State, s.alive = true → s.health.st = 2 →
    ∃ t, exec .dark s = .next t ∧ t.health = { s.health with st := 3 } ∧ t.parts = [] ∧ t.accts = [] ∧
      (∀ n, (t.tile n).streams = []) ∧ t.ledger.journal = [] ∧ t.ledger.subs = [] ∧ t.ledger.replica = [] ∧
      t.ledger.escrow = [] ∧ t.host.sessions = s.host.sessions) ∧
  (∀ (cycles : Nat) (s : State), s.alive = true → 2 < cycles → s.health.st = 0 → s.health.decided = none →
    ∃ t, exec (.treeDisagreement cycles none) s = .next t ∧ t.health.trees = bump32 s.health.trees ∧
      t.health.decided = some 0x0A ∧ t.health.st = 0) ∧
  (∀ (cycles : Nat) (s : State), cycles ≤ 2 → exec (.treeDisagreement cycles none) s = .next s) ∧
  (∀ (cycles : Nat) (s : State), s.alive = true → cycles ≤ 2 →
    (∃ t, exec (.treeDisagreement cycles (some true)) s = .next t ∧ ∀ p ∈ s.steppers, AbortsIn p s t) ∧
    ∃ t, exec (.treeDisagreement cycles (some false)) s = .next t ∧
      t = { s with fu := { s.fu with held := s.fu.held + cycles, holds := s.fu.holds + cycles } }) ∧
  (∀ (oe : Fin 3) (s : State), s.alive = true → s.health.st = 0 → s.health.decided = none →
    ∃ t, exec (.opticalEngineFailure oe) s = .next t ∧ t.health.decided = some 0x06 ∧ t.health.st = 0 ∧
      (∀ p ∈ enginePorts oe.val, (t.port p).up = false) ∧
      ∀ l ∈ engineLinks oe.val, (s.link l).st = .active → (t.link l).st = .failed)

/-! ## Urius Object Access -/

/-- Writes that calibrate, drain, relight and reset links: an accepted write is answered and recorded, and 1 to the priority entry puts
the selected array among its tile's priority requests (R106), a point puts one for every Resident array behind them (R107), a new sweep
counts up (R108), a replacement is requested for every partition of the base (R268), a drain decides Twilight (R387), the flag is to be
cleared at the next Dawn (R394), a removal narrows the module's wide links and drops a widening that waits (R410), a relight of a module
with good identity starts its probe with the lasers enabled (R408), a flush covers what the buffer holds with this record (R506), a link
that is neither Active nor in training trains (R524). -/
def Obligations.ServiceWritesTakeEffect : Prop :=
  (∀ (m : UoaMsg) (u : UoaSess) (s : State),
    let a := selOf u 0x3100
    s.acceptsWrite m u 0x3100 0x03 (.num 1) = true → a < 32768 →
    ∃ t, exec (.requestFullCalibration m (.num 1)) s = .next t ∧ WriteAnswered m u 0x3100 0x03 s t ∧
      a ∈ (t.tile (a / 64)).calPrio) ∧
  (∀ (m : UoaMsg) (u : UoaSess) (n : Nat) (s : State), s.acceptsWrite m u 0x3100 0x06 (.num n) = true → n ≤ 3 →
    ∃ t, exec (.userCalibrationPoint m (.num n)) s = .next t ∧ WriteAnswered m u 0x3100 0x06 s t ∧ t.dict.calPoint = n ∧
      ∀ x ∈ s.arrays, x.2.st = .resident → (x.1, BitVec.ofNat 2 n) ∈ (t.tile (x.1 / 64)).calUser) ∧
  (∀ (m : UoaMsg) (u : UoaSess) (s : State), s.acceptsWrite m u 0x3100 0x10 (.num 1) = true → s.health.sweep.toNat < 0xFFFE →
    ∃ t, exec (.newSweep m (.num 1)) s = .next t ∧ WriteAnswered m u 0x3100 0x10 s t ∧
      t.health = { s.health with sweep := s.health.sweep + 1 }) ∧
  (∀ (m : UoaMsg) (u : UoaSess) (part : PartNo) (s : State),
    let q := s.part part.toNat
    s.acceptsWrite m u (partIndex part.toNat) 0x0B (.num 1) = true → (q.st = .serving ∨ q.st = .streaming) → q.repl = 0 →
    q.replReq = false →
    ∃ t, exec (.replacement m part (.num 1)) s = .next t ∧ WriteAnswered m u (partIndex part.toNat) 0x0B s t ∧
      ∀ k ∈ s.attached q.base.toNat, (t.part k).replReq = true ∧ (t.part k).st = (s.part k).st) ∧
  (∀ (m : UoaMsg) (u : UoaSess) (s : State), s.acceptsWrite m u 0xF010 0x05 (.num 1) = true → s.health.st = 0 →
    s.health.decided = none →
    ∃ t, exec (.requestDrain m (.num 1)) s = .next t ∧ WriteAnswered m u 0xF010 0x05 s t ∧ t.health.decided = some 1 ∧
      t.parts = s.parts) ∧
  (∀ (m : UoaMsg) (u : UoaSess) (s : State), s.acceptsWrite m u 0xF010 0x06 (.num 1) = true →
    ∃ t, exec (.clearFlag m (.num 1)) s = .next t ∧ WriteAnswered m u 0xF010 0x06 s t ∧
      t.health = { s.health with clearing := true }) ∧
  (∀ (m : UoaMsg) (u : UoaSess) (mm : ModuleNo) (l : Nat) (s : State),
    let x := s.module mm.val
    s.acceptsWrite m u (0x5000 + mm.val) 0x0B (.num 1) = true → 2 ≤ x.st → x.st ≤ 4 → l ∈ moduleLinks mm.val →
    (s.link l).st = .active → (s.link l).lanes = 4 →
    ∃ t, exec (.removalRequest m mm (.num 1)) s = .next t ∧ WriteAnswered m u (0x5000 + mm.val) 0x0B s t ∧
      t.module mm.val = { x with removing := true } ∧ t.link l = { s.link l with width := some false } ∧
      ∀ k ∈ moduleLinks mm.val, (s.link k).st = .active → (s.link k).lanes ≠ 4 → t.link k = { s.link k with width := none }) ∧
  (∀ (m : UoaMsg) (u : UoaSess) (mm : ModuleNo) (s : State),
    let x := s.module mm.val
    s.acceptsWrite m u (0x5000 + mm.val) 0x0C (.num 1) = true → x.st = 5 → x.probing = false → x.data.any modSound = true →
    ∃ t, exec (.relight m mm (.num 1)) s = .next t ∧ WriteAnswered m u (0x5000 + mm.val) 0x0C s t ∧
      t.module mm.val = { x with probing := true, en := true, cmisOff := false }) ∧
  (∀ (m : UoaMsg) (u : UoaSess) (s : State), s.acceptsWrite m u 0x9000 0x09 (.num 1) = true → s.recd.flushing = none →
    ∃ t, exec (.flushNow m (.num 1)) s = .next t ∧ WriteAnswered m u 0x9000 0x09 s t ∧
      t.recd.flushing = some (s.recd.buffer.length + 1) ∧ FlashCls.recorder ∈ t.mgmt.fqueue) ∧
  (∀ (m : UoaMsg) (u : UoaSess) (s : State),
    let l := selOf u 0x6000
    s.acceptsWrite m u 0x6000 0x0F (.num 1) = true → s.linkUsed l = true → (s.link l).st ≠ .active → (s.link l).st ≠ .training →
    ∃ t, exec (.linkReset m (.num 1)) s = .next t ∧ WriteAnswered m u 0x6000 0x0F s t ∧ (t.link l).st = .training ∧
      (t.link l).stage = 0 ∧ t.dict.clusterNow = s.dict.cluster)

/-- Writes that load, hold keys, update firmware and set anchors: a Free partition takes an image that fits (R246); a wrapping key is
drawn for the session that reads it, others' stay, and a parking key under it is installed within 60 s (R465, R472); image bytes go to
the inactive slot and a trial starts with three tries (R468); an anchor other than 0 is installed or removed, and its sessions end
(R482, R483). -/
def Obligations.LoadKeyFirmwareAndAnchorWritesTakeEffect : Prop :=
  (∀ (m : UoaMsg) (u : UoaSess) (part : PartNo) (tenant : BitVec 32) (img : Image) (s : State),
    s.acceptsWrite m u (partIndex part.toNat) 0x02 (.num tenant.toNat) = true → s.mgmt.entropy = true →
    (s.part part.toNat).st = .free → s.imageOk part.toNat img = true →
    ∃ t, exec (.partitionLoad m part tenant img) s = .next t ∧ WriteAnswered m u (partIndex part.toNat) 0x02 s t ∧
      (t.part part.toNat).st = .loading ∧ (t.part part.toNat).tenant = tenant ∧ (t.part part.toNat).version = img.version ∧
      (t.part part.toNat).digest = img.digest ∧ (t.part part.toNat).loaded = false ∧
      t.mgmt.draws = s.mgmt.draws + 1 ∧
      (∀ g ∈ img.granules, SMap.get t.mem.granules 0xFE g.toNat = BitVec.ofNat 8 part.toNat) ∧
      (img.arrays ≠ [] → (SMap.get t.dict.bases (0, 0) img.base.toNat).1.getLsbD part.toNat = true) ∧
      ((∀ x ∈ s.mem.held, x.part.toNat ≠ part.toNat) → t.mem.data = s.mem.data ∧ ∀ k, k ≠ part.toNat → t.part k = s.part k)) ∧
  (∀ (m : UoaMsg) (u : UoaSess) (part : PartNo) (e : Entry) (s : State),
    s.acceptsRequest m u 0x10 10 1 = true → findEntry (partIndex part.toNat) 0x80 = some e →
    s.readStatus u (partIndex part.toNat) 0x80 0 97 e = 0 →
    ∃ t, exec (.wrappingKey m part) s = .next t ∧ Replied m u 0x11 [0] s t ∧
      (t.part part.toNat).wrapKeys.find? (fun k => decide (k.1 = u.id)) = some (u.id, s.mgmt.draws, s.now s.fu.cycle) ∧
      (∀ k ∈ (s.part part.toNat).wrapKeys, k.1 ≠ u.id → k ∈ (t.part part.toNat).wrapKeys) ∧
      t.mgmt.draws = s.mgmt.draws + 1 ∧ t.recd = s.recd) ∧
  (∀ (m : UoaMsg) (u : UoaSess) (part : PartNo) (keyid : BitVec 32) (length age d read : Nat) (s : State),
    let value := (List.range length).map (fun k =>
      if 97 ≤ k ∧ k < 101 then (bytesOfNat 4 keyid.toNat).getD (k - 97) 0 else Config.sealedByte s.free k)
    s.acceptsWrite m u (partIndex part.toNat) 0x81 (.bytes value) = true →
    (s.part part.toNat).wrapKeys.find? (fun k => decide (k.1 = u.id)) = some (u.id, d, read) →
    s.now s.fu.cycle ≤ read + 60 * 1600000000 → age ≤ 60 →
    ∃ t, exec (.parkingKeyInstall m part keyid length true age) s = .next t ∧
      WriteAnswered m u (partIndex part.toNat) 0x81 s t ∧
      t.part part.toNat = { s.part part.toNat with
        keyid := keyidOf value, pkey := Config.parkingKey d part.toNat value, sealed := 0 } ∧
      (101 ≤ length → (t.part part.toNat).keyid = keyid) ∧ ∀ k, k ≠ part.toNat → t.part k = s.part k) ∧
  (∀ (m : UoaMsg) (u : UoaSess) (offset : BitVec 32) (data : List Byte) (s : State),
    s.acceptsWrite m u 0xF000 0x06 (.bytes (bytesOfNat 4 offset.toNat ++ data)) = true → offset.toNat + data.length ≤ 33554432 →
    ∃ t, exec (.imageTransfer m offset data) s = .next t ∧ WriteAnswered m u 0xF000 0x06 s t ∧
      (s.mgmt.boot.active = 0 → t.mgmt.boot = { s.mgmt.boot with slotB := Cells.write s.mgmt.boot.slotB offset.toNat data }) ∧
      (s.mgmt.boot.active ≠ 0 → t.mgmt.boot = { s.mgmt.boot with slotA := Cells.write s.mgmt.boot.slotA offset.toNat data })) ∧
  (∀ (m : UoaMsg) (u : UoaSess) (c : SlotCheck) (s : State),
    s.acceptsWrite m u 0xF000 0x07 (.num 1) = true → slotGood c s.mgmt.boot = true →
    ∃ t, exec (.startTrial m (.num 1) c) s = .next t ∧ WriteAnswered m u 0xF000 0x07 s t ∧ t.mgmt.boot.trial = 1 ∧
      t.mgmt.boot.tries = 3 ∧ t.mgmt.boot.seq = s.mgmt.boot.seq + 1 ∧ t.mgmt.boot.active = s.mgmt.boot.active ∧
      t.mgmt.boot.trialSvn = c.svn) ∧
  (∀ (m : UoaMsg) (u : UoaSess) (role : Nat) (cert : List Byte) (tenant : BitVec 32) (s : State),
    let k := selOf u 0xF020
    s.acceptsWrite m u 0xF020 0x06 (.num 1) = true → k ≠ 0 → u.holdRole = some role → role ≠ 0 → (role = 4 → u.role = 4) →
    u.holdCert = some cert → u.holdTen = some tenant →
    ∃ t, exec (.anchorInstall m (.num 1) true) s = .next t ∧ WriteAnswered m u 0xF020 0x06 s t ∧
      SMap.get t.dict.anchors none k =
        some { role := role, tenant := if role = 2 then tenant else 0, cert := cert, digest := sha384 cert } ∧
      (∀ n, n ≠ k → SMap.get t.dict.anchors none n = SMap.get s.dict.anchors none n) ∧
      ∀ x ∈ t.dict.sessions, x.anchor.val ≠ k) ∧
  (∀ (m : UoaMsg) (u : UoaSess) (s : State),
    let k := selOf u 0xF020
    s.acceptsWrite m u 0xF020 0x07 (.num 1) = true → k ≠ 0 →
    ∃ t, exec (.anchorRemove m (.num 1)) s = .next t ∧ WriteAnswered m u 0xF020 0x07 s t ∧
      SMap.get t.dict.anchors none k = none ∧
      (∀ n, n ≠ k → SMap.get t.dict.anchors none n = SMap.get s.dict.anchors none n) ∧
      ∀ x ∈ t.dict.sessions, x.anchor.val ≠ k)

/-- Teller sessions change state as R350 says: Open makes a Free bound session Configured with a fresh key, within its partition's quota
of sessions; Reopen gives a session in Error a fresh key and keeps its sequence state; Connect makes it Ready with the parameters
written; Close makes it Closing, and Free at once when it holds no submission. -/
def Obligations.TellerSessionsOpenConnectAndClose : Prop :=
  (∀ (m : UoaMsg) (u : UoaSess) (s : State),
    let n := selOf u 0x7100
    let x := s.sess n
    s.acceptsWrite m u 0x7100 0x04 (.num 1) = true → x.st = .free → Tag.isPart x.part = true → s.mgmt.entropy = true →
    s.openSessions x.part.toNat < (s.part x.part.toNat).quota.toNat →
    ∃ t, exec (.sessionOpen m (.num 1)) s = .next t ∧ WriteAnswered m u 0x7100 0x04 s t ∧
      t.sess n = { x with st := .configured, tenant := (s.part x.part.toNat).tenant,
                          a := if (s.heldOf (BitVec.ofNat 12 n)).isEmpty then 0 else x.a,
                          ack := if (s.heldOf (BitVec.ofNat 12 n)).isEmpty then 0 else x.ack,
                          key := some s.mgmt.draws, rxCtr := 0, txCtr := 0 } ∧
      t.mgmt.draws = s.mgmt.draws + 1 ∧ ∀ k, k ≠ n → t.sess k = s.sess k) ∧
  (∀ (m : UoaMsg) (u : UoaSess) (s : State),
    let n := selOf u 0x7100
    let x := s.sess n
    s.acceptsWrite m u 0x7100 0x05 (.num 1) = true → x.st = .error → s.mgmt.entropy = true →
    ∃ t, exec (.sessionReopen m (.num 1)) s = .next t ∧ WriteAnswered m u 0x7100 0x05 s t ∧
      t.sess n = { x with key := some s.mgmt.draws, rxCtr := 0, txCtr := 0 } ∧ t.mgmt.draws = s.mgmt.draws + 1) ∧
  (∀ (m : UoaMsg) (u : UoaSess) (s : State),
    let n := selOf u 0x7100
    let x := s.sess n
    s.acceptsWrite m u 0x7100 0x06 (.num 1) = true → n < 4096 → x.st ≠ .free → x.st ≠ .closing →
    ∃ t, exec (.sessionClose m (.num 1)) s = .next t ∧ WriteAnswered m u 0x7100 0x06 s t ∧
      (t.sess n).st = (if (s.heldOf (BitVec.ofNat 12 n)).isEmpty then .free else .closing) ∧
      t.ledger = s.ledger ∧ ∀ k, k ≠ n → t.sess k = s.sess k) ∧
  (∀ (m : UoaMsg) (u : UoaSess) (s : State),
    let n := selOf u 0x7100
    let x := s.sess n
    s.acceptsWrite m u 0x7100 0x0D (.num 1) = true → (x.st = .configured ∨ x.st = .error) → x.key ≠ none →
    s.mgmt.entropy = true → s.heldOf (BitVec.ofNat 12 n) = [] →
    ∃ t, exec (.connect m (.num 1)) s = .next t ∧ WriteAnswered m u 0x7100 0x0D s t ∧
      t.sess n = { x with st := .ready, port := x.portW, rqpn := x.rqpnW, raddr := x.raddrW, rpsn := x.rpsnW,
                          lpsn := Config.startPsn s.mgmt.draws, rate := none, retry := 7, rnr := 7,
                          ackTo := (s.port x.portW.toNat).ackTo } ∧
      t.host.out = s.host.out)

/-- Resets on request (R519-R522, R528): a warm reset keeps the Ledger and the retained blocks, zeroes every other block and stands
again before the first Dawn step; a cold reset keeps neither scratchpad, accounts nor stacks; an orderly shutdown with every partition
Free saves hours, counts and corrections, and once the recorder's flush has ended it falls silent with its lasers off. Each answers its
request. Where the flag of a Twilight is to be cleared, a warm reset keeps no more than a cold one (R394). -/
def Obligations.ResetsAndShutdownOnRequest : Prop :=
  (∀ (m : UoaMsg) (u : UoaSess) (s : State), s.acceptsWrite m u 0xF000 0x12 (.num 1) = true → s.ledger.mode ≠ 1 → s.health.clearing = true →
    ∃ t, exec (.warmResetRequest m (.num 1)) s = .next t ∧ Replied m u 0x13 [0] s t ∧ t.dawn.step = 0 ∧ t.dawn.warm = false ∧
      t.spad = [] ∧ t.accts = [] ∧ t.mem.data = [] ∧ t.ledger.journal = []) ∧
  (∀ (m : UoaMsg) (u : UoaSess) (s : State), s.acceptsWrite m u 0xF000 0x12 (.num 1) = true → s.ledger.mode ≠ 1 →
    s.health.clearing = false →
    ∃ t, exec (.warmResetRequest m (.num 1)) s = .next t ∧ Replied m u 0x13 [0] s t ∧ t.dawn.request = 1 ∧ t.dawn.step = 0 ∧
      t.dawn.warm = true ∧ t.ledger.journal = s.ledger.journal ∧ t.ledger.mode = 2 ∧
      (∀ a, (∀ x ∈ s.host.windows, x.2.st ≠ 0 → a < 128 * x.2.base ∨ 128 * x.2.base + 16384 * x.2.chunks ≤ a) →
        Cells.get t.mem.data a = Cells.get s.mem.data a) ∧ (∀ n, (t.window n).st = 0) ∧
      t.recd.buffer = [] ∧
      ∀ a, Cells.get t.spad a =
        (if (SMap.get (s.tile (a / padBytes)).blocks {} ((a % padBytes) / 32768)).retained then Cells.get s.spad a else 0)) ∧
  (∀ (m : UoaMsg) (u : UoaSess) (s : State), s.acceptsWrite m u 0xF000 0x12 (.num 2) = true →
    ∃ t, exec (.coldResetRequest m (.num 2)) s = .next t ∧ Replied m u 0x13 [0] s t ∧ t.dawn.request = 2 ∧ t.dawn.step = 0 ∧
      t.dawn.warm = false ∧ t.spad = [] ∧ t.accts = [] ∧ t.mem.data = [] ∧ t.ledger.journal = [] ∧ t.ledger.subs = [] ∧
      t.recd.buffer = []) ∧
  (∀ (m : UoaMsg) (u : UoaSess) (s : State), s.acceptsWrite m u 0xF000 0x12 (.num 3) = true → (∀ x ∈ s.parts, x.2.st = .free) →
    ∃ t, exec (.orderlyShutdown m (.num 3)) s = .next t ∧ Replied m u 0x13 [0] s t ∧ t.dawn.shutdown = 1 ∧
      t.dawn.hoursSaved = s.dawn.hours ∧ t.recd.flushing.isSome = true ∧ FlashCls.counts ∈ t.mgmt.fqueue ∧
      ∀ x ∈ t.arrays, x.2.corrSaved = x.2.corr) ∧
  (∀ (n : Nat) (s : State), s.power.rails = true → s.recd.flushing = some n → s.recd.again = false → s.dawn.shutdown = 1 →
    ∃ t, exec .flushEnd s = .next t ∧ t.health.silent = true ∧ t.dawn.shutdown = 2 ∧ t.recd.flushing = none ∧
      ∀ x ∈ t.mods, x.2.en = false ∧ x.2.lit = 0)

/-- The access protocol (R484-R492): a Hello that reaches an anchor opens a session in handshake with the anchor's role and tenant, and
a Finish with a good signature establishes it; a Read answers each item and changes nothing but the dictionary's own sessions and
replies; a refused Write item changes only the recorder and the reply; a staged start frame waits; Describe answers; Close and the idle
timeout end the session; a store that is full goes on in its other generation. -/
def Obligations.AccessProtocolRuns : Prop :=
  (∀ (m : UoaMsg) (nonce : BitVec 256) (key : BitVec 776) (c : ChainCheck) (second : Nat) (k : Fin 16) (a : Anchor) (s : State),
    s.uoaReaches m = true → m.upset = false → s.dict.hellosOf m.src.addr second < 8 → m.vmajor = 1 → m.gen = 0 → m.rsvd = 0 → m.type = 0x01 →
    131 ≤ m.length.toNat → m.length.toNat ≤ 4576 → m.count = 0 → s.helloAnchor c = some (k, a) → s.mgmt.entropy = true → s.dict.sessions.length < 32 →
    ∃ t x r, exec (.uoaHello m nonce key c second) s = .next t ∧ t.dict.sessions = s.dict.sessions ++ [x] ∧ x.id = s.dict.nextId ∧
      x.anchor = k ∧ x.role = a.role ∧ x.tenant = a.tenant ∧ x.done = false ∧ x.nonce = nonce ∧ x.key = key ∧ t.dict.out = s.dict.out ++ [r] ∧
      r.session = s.dict.nextId ∧ r.status = 0 ∧ r.type = 0x02) ∧
  (∀ (m : UoaMsg) (u : UoaSess) (s : State),
    s.uoaReaches m = true → m.upset = false → s.uoaSess m.session = some u → m.tagOk = true → u.fresh m.seq = true →
    u.done = false → m.seq = 1 →
    m.vmajor = 1 → m.gen = 0 → m.rsvd = 0 → m.type = 0x03 → m.length = 96 → m.count = 0 →
    ∃ t x, exec (.uoaFinish m true) s = .next t ∧ t.uoaSess u.id = some x ∧ x.done = true ∧ x.role = u.role ∧
      Replied m u 0x04 [0] s t) ∧
  (∀ (m : UoaMsg) (u : UoaSess) (sigOk : Bool) (s : State),
    s.uoaReaches m = true → m.upset = false → s.uoaSess m.session = some u → m.tagOk = true → u.fresh m.seq = true →
    u.done = true →
    ∃ t r, exec (.uoaFinish m sigOk) s = .next t ∧ t = { s with dict := t.dict } ∧ t.dict.out = s.dict.out ++ [r] ∧
      r.status = (if m.vmajor = 1 then 0x0001 else 0x0002) ∧ r.type = 0x04) ∧
  (∀ (m : UoaMsg) (u : UoaSess) (r : ReadItem) (e : Entry) (s : State),
    s.acceptsRequest m u 0x10 10 1 = true → r.rsvd = 0 → findEntry r.index.toNat r.sub.toNat = some e →
    s.readStatus u r.index.toNat r.sub.toNat r.offset.toNat r.maxlen.toNat e = 0 → r.sub ≠ 0x80 →
    ∃ t y, exec (.uoaRead m [r]) s = .next t ∧ t = { s with dict := t.dict } ∧ Replied m u 0x11 [0] s t ∧
      t.dict.out = s.dict.out ++ [y] ∧ y.items.map (fun x => x.value) =
        [some (cutVal (s.dictRead u r.index.toNat r.sub.toNat) r.offset.toNat r.maxlen.toNat)]) ∧
  (∀ (m : UoaMsg) (u : UoaSess) (n : Nat) (s : State),
    let w : WriteItem := { index := 0x1100, sub := 0x03, type := 0x05, offset := 0, value := .num n }
    s.acceptsWrite m u 0x1100 0x03 (.num n) = true →
    ∃ t, exec (.uoaWrite m [w]) s = .next t ∧ WriteAnswered m u 0x1100 0x03 s t ∧ t.dict.wall = BitVec.ofNat 64 n) ∧
  (∀ (m : UoaMsg) (u : UoaSess) (w : WriteItem) (e : Entry) (s : State),
    let st := s.itemStatus u (writeItemOf w) e
    s.firmware = true → s.acceptsRequest m u 0x12 (writeBytes [w]) 1 = true → findEntry w.index.toNat w.sub.toNat = some e →
    s.recorderFull (writeItemOf w) = false → s.power.failed = false → st ≠ 0 → st ≠ 0x0B →
    ∃ t, exec (.uoaWrite m [w]) s = .next t ∧ t = { s with dict := t.dict, recd := t.recd } ∧ Replied m u 0x13 [st] s t) ∧
  (∀ (m : UoaMsg) (u : UoaSess) (part : PartNo) (f : Nat) (e : Entry) (s : State),
    let w : StageItem :=
      { index := BitVec.ofNat 16 (partIndex part.toNat), sub := 0x07, type := 0x05, frame := 0, offset := 0, value := .num f }
    s.firmware = true → s.acceptsRequest m u 0x14 26 1 = true → findEntry (partIndex part.toNat) 0x07 = some e →
    s.itemStatus u (stageItemOf w) e = 0 → s.recorderFull (stageItemOf w) = false → s.power.failed = false →
    (s.part part.toNat).startF = none → s.fu.frame + 16 ≤ f → f < ones64 →
    ∃ t, exec (.uoaStage m [w]) s = .next t ∧ Replied m u 0x15 [0] s t ∧
      t.part part.toNat = { s.part part.toNat with startF := some f } ∧ ∀ k, k ≠ part.toNat → t.part k = s.part k) ∧
  (∀ (m : UoaMsg) (u : UoaSess) (items : List ReadItem) (s : State),
    s.acceptsRequest m u 0x16 (4 * items.length) items.length = true → (∀ i ∈ items, i.rsvd = 0) →
    ∃ t r, exec (.uoaDescribe m items) s = .next t ∧ t = { s with dict := t.dict } ∧ t.dict.out = s.dict.out ++ [r] ∧
      r.items = items.map describeItem ∧ r.status = 0 ∧ r.session = u.id) ∧
  (∀ (m : UoaMsg) (u : UoaSess) (s : State), s.acceptsRequest m u 0x1E 0 0 = true →
    ∃ t, exec (.uoaClose m) s = .next t ∧ t = { s with dict := t.dict } ∧ Replied m u 0x1F [] s t ∧
      ∀ x ∈ t.dict.sessions, x.id ≠ u.id) ∧
  (∀ (id : BitVec 32) (s : State), s.firmware = true →
    ∃ t, exec (.uoaIdleTimeout id) s = .next t ∧
      t = { s with dict := { s.dict with sessions := s.dict.sessions.filter (fun x => !decide (x.id = id)) } }) ∧
  (∀ s : State, s.firmware = true → s.power.failed = false →
    ∃ t, exec .dictionaryStoreRollover s = .next t ∧ t.dict = { s.dict with storeGen := 1 - s.dict.storeGen, storeLen := 0 } ∧
      FlashCls.store ∈ t.mgmt.fqueue)

/-! ## Host ports and the Teller -/

/-- Ports (R345-R348, R350, R401): a frame that the port does not take is dropped and counted; ARP is answered by the port; a marked
packet is answered by one congestion notification; a buffer above 75 % pauses a lossless priority; a notification cuts the session's
rate to three quarters and time restores it; PFC is honoured on lossless priorities only. A queue pair error and a port that goes down
put Ready sessions into Error, where a WRITE in progress ends; a retrained port with light enough takes its written addresses. -/
def Obligations.PortsTakeFramesAndPace : Prop :=
  (∀ (port : PortNo) (kind : EthKind) (bytes : Nat) (vlan : Option (BitVec 12)) (fcsOk ipOk icrcOk ecn : Bool) (us : Nat)
      (prio : BitVec 3) (fill : Nat) (s : State),
    s.alive = true → (s.port port.toNat).up = true → s.badFrame port.toNat kind bytes vlan fcsOk ipOk icrcOk = true →
    ∃ t, exec (.ethernetFrame port kind bytes vlan fcsOk ipOk icrcOk ecn us prio fill) s = .next t ∧
      t = { s with host := t.host } ∧ (t.port port.toNat).dropped = (s.port port.toNat).dropped + 1 ∧
      t.host.sessions = s.host.sessions ∧ t.host.out = s.host.out) ∧
  (∀ (port : PortNo) (bytes : Nat) (ipOk icrcOk ecn : Bool) (us : Nat) (prio : BitVec 3) (fill : Nat) (s : State),
    s.alive = true → (s.port port.toNat).up = true → bytes ≤ 9216 →
    ∃ t, exec (.ethernetFrame port .arp bytes none true ipOk icrcOk ecn us prio fill) s = .next t ∧
      t = { s with host := t.host } ∧ (t.port port.toNat).answered = (s.port port.toNat).answered + 1 ∧
      (t.port port.toNat).dropped = (s.port port.toNat).dropped ∧
      (3 * portBuffer < 4 * fill → (s.port port.toNat).lossless.getLsbD prio.toNat = true →
        (t.port port.toNat).pausing.getLsbD prio.toNat = true) ∧
      (2 * fill < portBuffer → (s.port port.toNat).lossless.getLsbD prio.toNat = true →
        (t.port port.toNat).pausing.getLsbD prio.toNat = false)) ∧
  (∀ (port : PortNo) (n : SessNo) (bytes : Nat) (us : Nat) (prio : BitVec 3) (fill : Nat) (s : State),
    s.alive = true → (s.port port.toNat).up = true → s.badFrame port.toNat (.roce n) bytes none true true true = false →
    (s.sess n.toNat).cnpAt = none →
    ∃ t, exec (.ethernetFrame port (.roce n) bytes none true true true true us prio fill) s = .next t ∧
      t = { s with host := t.host } ∧ t.sess n.toNat = { s.sess n.toNat with cnpAt := some us } ∧
      (t.port port.toNat).cnpTx = (s.port port.toNat).cnpTx + 1) ∧
  (∀ (n : SessNo) (s : State),
    let x := s.sess n.toNat
    s.alive = true → x.connected = true → (s.port x.port.toNat).up = true →
    ∃ t, exec (.congestionNotification n) s = .next t ∧ t = { s with host := t.host } ∧
      t.sess n.toNat = { x with rate := some (cutRate (s.rateOf x)) } ∧
      (t.port x.port.toNat).cnpRx = (s.port x.port.toNat).cnpRx + 1) ∧
  (∀ (n : SessNo) (a e : Nat) (s : State),
    let x := s.sess n.toNat
    let top := if (s.port x.port.toNat).full then 800 else 400
    s.alive = true → x.rate = some (a, e) →
    ∃ t, exec (.rateIncrease n) s = .next t ∧ t = { s with host := t.host } ∧
      t.sess n.toNat = { x with rate := if top * 4 ^ e ≤ a + 10 * 4 ^ e then none else some (a + 10 * 4 ^ e, e) }) ∧
  (∀ (port : PortNo) (prio : BitVec 3) (pause : Bool) (s : State), s.alive = true → (s.port port.toNat).up = true →
    ((s.port port.toNat).lossless.getLsbD prio.toNat = true →
      ∃ t, exec (.pfcFrame port prio pause) s = .next t ∧ t = { s with host := t.host } ∧
        (t.port port.toNat).paused.getLsbD prio.toNat = pause) ∧
    ((s.port port.toNat).lossless.getLsbD prio.toNat = false → exec (.pfcFrame port prio pause) s = .next s)) ∧
  (∀ (n : SessNo) (s : State), (s.sess n.toNat).st = .ready →
    ∃ t, exec (.queuePairError n) s = .next t ∧ t = { s with host := t.host, mem := t.mem } ∧ t.mem.data = s.mem.data ∧
      t.sess n.toNat = { s.sess n.toNat with st := .error, rdma := none } ∧ (∀ k, k ≠ n.toNat → t.sess k = s.sess k) ∧
      (∀ i va left, (s.sess n.toNat).rdma = some (i, va, left) → (s.part (s.window i.toNat).tag.toNat).st ≠ .closing →
        t.mem = s.mem ∧ (t.window i.toNat).busy = (s.window i.toNat).busy - 1) ∧
      ((s.sess n.toNat).rdma = none → t.mem = s.mem ∧ t.host.windows = s.host.windows)) ∧
  (∀ (port : PortNo) (s : State),
    ∃ t, exec (.ethernetPortDown port) s = .next t ∧ t = { s with host := t.host, mem := t.mem } ∧ t.mem.data = s.mem.data ∧
      (t.port port.toNat).up = false ∧
      (t.port port.toNat).paused = 0 ∧ (∀ n, ¬ ((t.sess n).st = .ready ∧ (t.sess n).port = port)) ∧
      (∀ n, (s.sess n).port ≠ port → t.sess n = s.sess n) ∧
      ((∀ p, (s.part p).st ≠ .closing) → t.mem = s.mem) ∧
      ((∀ x ∈ s.host.sessions, x.2.rdma = none) → t.mem = s.mem ∧ t.host.windows = s.host.windows)) ∧
  (∀ (port : PortNo) (full : Bool) (s : State), s.alive = true → SMap.rising s.mods = true → (∀ m, m < 6 → (s.module m).removing = false) →
    (if full then 2 else 1) ≤ s.portPairs port.toNat →
    ∃ t, exec (.portRetrained port full) s = .next t ∧
      t.port port.toNat = { s.port port.toNat with up := true, full := full, ipv4 := (s.port port.toNat).ipv4W,
                                                    ipv6 := (s.port port.toNat).ipv6W } ∧
      t.host.sessions = s.host.sessions ∧ t.links = s.links)

/-- One-sided access (R357-R360, R365, R367): the only packet of an RDMA WRITE that passes the checks lands its bytes in the window's
lines; the first of several lands its own and holds the window in use, the next ones go on behind it with no further check of the key,
and the last one lets the window go, and with the last of a closed partition its granules wait for zeroing. A packet lands only where
the lines it covers in part, which are read first, are sound: where one is poisoned nothing lands and fault 0x13 is raised (R217). A
READ that passes returns the bytes in packets of at most 4,096. Under a key that is not honoured nothing lands, the NAK and the notice
are sent and the session enters Error. A Closing window with nothing in progress becomes Closed, its chunks zeroed. The other messages
of a session (R286, R296, R357-R362): a cancel writes its record and marks the submission, or answers that nothing is held; an ACK above
the Ledger's writes a Retire record as far as Completed submissions reach; a release acknowledgement raises RELPOS; a window opens for
the session and is answered with its key, where its tags read back as written, and decides Twilight where they differ (R365, R387); a
close makes it Closing. -/
def Obligations.WindowsAndSessionMessages : Prop :=
  ((∀ (qp : SessNo) (port : PortNo) (key : BitVec 32) (va i : Nat) (data : List Byte) (psn : BitVec 24) (s : State),
    let w := s.window i
    s.qpReady qp port = true → s.rdmaCheck qp key va data.length 0 = .ok i → (s.sess qp.toNat).rdma = none →
    s.strayLine w.tag (w.lines va data.length) = none → s.readable (w.partLines va data.length) = true →
    ∃ t, exec (.rdmaWrite qp port .only key va data psn []) s = .next t ∧ t = { s with mem := t.mem, mesh := t.mesh } ∧
      LandedIn w va data s t) ∧
  (∀ (qp : SessNo) (port : PortNo) (key : BitVec 32) (va i : Nat) (data : List Byte) (psn : BitVec 24) (s : State),
    let w := s.window i
    s.qpReady qp port = true → s.rdmaCheck qp key va data.length 0 = .ok i → (s.sess qp.toNat).rdma = none →
    s.strayLine w.tag (w.lines va data.length) = none → (∃ l ∈ w.partLines va data.length, s.mem.lost.contains l = true) →
    w.tag.toNat < 128 →
    ∃ t, exec (.rdmaWrite qp port .only key va data psn []) s = .next t ∧ t.mem.data = s.mem.data ∧ t.mem.lost = s.mem.lost ∧
      AbortsIn w.tag.toNat s t) ∧
  (∀ (qp : SessNo) (port : PortNo) (key : BitVec 32) (va n i : Nat) (data : List Byte) (psn : BitVec 24) (s : State),
    let w := s.window i
    s.qpReady qp port = true → s.rdmaCheck qp key va n 0 = .ok i → (s.sess qp.toNat).rdma = none → data.length ≤ n → i < 4096 →
    s.strayLine w.tag (w.lines va data.length) = none → s.readable (w.partLines va data.length) = true →
    ∃ t, exec (.rdmaWrite qp port (.first n) key va data psn []) s = .next t ∧
      t = { s with mem := t.mem, mesh := t.mesh, host := t.host } ∧ LandedIn w va data s t ∧
      t.window i = { w with busy := w.busy + 1 } ∧
      t.sess qp.toNat = { s.sess qp.toNat with rdma := some (BitVec.ofNat 12 i, va + data.length, n - data.length) }) ∧
  (∀ (qp : SessNo) (port : PortNo) (key : BitVec 32) (u va left : Nat) (i : BitVec 12) (data : List Byte) (psn : BitVec 24)
      (isLast : Bool) (s : State),
    let w := s.window i.toNat
    s.qpReady qp port = true → (s.sess qp.toNat).rdma = some (i, va, left) → data.length ≤ left →
    s.strayLine w.tag (w.lines va data.length) = none → s.readable (w.partLines va data.length) = true →
    (isLast = true → (s.part w.tag.toNat).st ≠ .closing) →
    ∃ t, exec (.rdmaWrite qp port (if isLast then .last else .middle) key u data psn []) s = .next t ∧
      t = { s with mem := t.mem, mesh := t.mesh, host := t.host } ∧ LandedIn w va data s t ∧
      t.window i.toNat = { w with busy := if isLast then w.busy - 1 else w.busy } ∧
      t.sess qp.toNat = { s.sess qp.toNat with
        rdma := if isLast then none else some (i, va + data.length, left - data.length) }) ∧
  (∀ (qp : SessNo) (port : PortNo) (key : BitVec 32) (u va left : Nat) (i : BitVec 12) (data : List Byte) (psn : BitVec 24) (s : State),
    let w := s.window i.toNat
    s.qpReady qp port = true → (s.sess qp.toNat).rdma = some (i, va, left) → data.length ≤ left →
    s.strayLine w.tag (w.lines va data.length) = none → s.readable (w.partLines va data.length) = true →
    (s.part w.tag.toNat).st = .closing → w.busy ≤ 1 → (∃ x ∈ s.mem.granules, x.2.toNat = w.tag.toNat) →
    (∀ x ∈ s.host.windows, x.1 ≠ i.toNat → x.2.tag.toNat = w.tag.toNat → x.2.busy = 0) → SMap.rising s.host.windows = true →
    ∃ t, exec (.rdmaWrite qp port .last key u data psn []) s = .next t ∧ LandedIn w va data s t ∧ t.parts = s.parts ∧
      (∀ x ∈ t.mem.granules, x.2.toNat ≠ w.tag.toNat) ∧ (∀ g ∈ (s.part w.tag.toNat).granules, g ∈ t.mem.zeroing)) ∧
  (∀ (qp : SessNo) (port : PortNo) (key : BitVec 32) (va len i : Nat) (psn : BitVec 24) (s : State),
    let w := s.window i
    s.qpReady qp port = true → s.rdmaCheck qp key va len 1 = .ok i → s.strayLine w.tag (w.lines va len) = none →
    s.readable (w.lines va len) = true →
    ∃ t ps, exec (.rdmaRead qp port key va len psn []) s = .next t ∧ t.host = { s.host with readOut := s.host.readOut ++ ps } ∧
      (ps.map (fun x => x.2)).flatten = s.windowBytes w va len ∧ (∀ x ∈ ps, x.1 = qp ∧ x.2.length ≤ 4096) ∧
      t.mem.data = s.mem.data ∧ t.mem.written = s.mem.written ∧ t = { s with host := t.host, mem := t.mem, mesh := t.mesh }) ∧
  (∀ (qp : SessNo) (port : PortNo) (key : BitVec 32) (va : Nat) (data : List Byte) (psn : BitVec 24) (s : State),
    s.qpReady qp port = true → s.windowByKey key = none → (s.sess qp.toNat).st = .ready → s.health.st < 2 →
    ∃ t x, exec (.rdmaWrite qp port .only key va data psn []) s = .next t ∧ t = { s with host := t.host, mem := t.mem } ∧
      t.mem.data = s.mem.data ∧ t.host.nakOut = s.host.nakOut ++ [(qp, psn)] ∧ t.host.winClosed = s.host.winClosed + 1 ∧
      (t.sess qp.toNat).st = .error ∧ t.host.out = s.host.out ++ [x] ∧ x.type = 0x17 ∧ x.session = qp) ∧
  (∀ (index : BitVec 12) (s : State),
    let w := s.window index.toNat
    w.st = 2 → w.busy = 0 →
    ∃ t, exec (.windowDrained index) s = .next t ∧ (t.window index.toNat).st = 0 ∧ (t.window index.toNat).tag = 0xFE ∧
      (∀ l, w.base ≤ l → l < w.base + 128 * w.chunks → l ∈ t.mem.written) ∧
      (∀ a, Cells.get t.mem.data a =
        (if 128 * w.base ≤ a ∧ a < 128 * w.base + 16384 * w.chunks then 0 else Cells.get s.mem.data a)) ∧
      (w.chunks ≠ 0 → (s.part w.tag.toNat).granules.contains (w.base / 128 / granuleChunks) = true →
        (t.part w.tag.toNat).chunks = giveRun (w.base / 128) w.chunks (s.part w.tag.toNat).chunks))) ∧
  ((∀ (m : UwpMsg) (b : Sub) (s : State), s.passes m = true → headerOk m 2 0 = true → m.length = 0 → s.awayHome m = none →
    s.mayAssign = true → (s.heldOf m.qp).find? (fun k => decide (k.ssn = m.ssn)) = some b → b.doneLsn = none → b.cancelLsn = none →
    b.covered = false → s.ledger.mode = 0 → s.quiet = true →
    ∃ t j, exec (.cancel m) s = .next t ∧ t.ledger.journal = s.ledger.journal ++ [j] ∧ j.r.body = .cancel m.qp m.ssn ∧
      j.r.lsn = s.ledger.nextLsn ∧ t.host.out = s.host.out ∧
      { b with cancelLsn := some s.ledger.nextLsn } ∈ t.ledger.subs) ∧
  (∀ (m : UwpMsg) (s : State), s.passes m = true → headerOk m 2 0 = true → m.length = 0 → s.awayHome m = none →
    s.mayAssign = true → (s.heldOf m.qp).find? (fun k => decide (k.ssn = m.ssn)) = none →
    ∃ t x, exec (.cancel m) s = .next t ∧ t.ledger = s.ledger ∧ t.host.out = s.host.out ++ [x] ∧ x.type = 0x15 ∧ x.body = [0]) ∧
  (∀ (m : UwpMsg) (s : State), s.passes m = true → headerOk m 3 0 = true → m.length = 0 → s.awayHome m = none →
    s.mayAssign = true → s.ledger.mode = 0 → s.quiet = true → (s.sess m.qp.toNat).ack < s.ackLimit m.qp m.ack →
    ∃ t j, exec (.acknowledge m) s = .next t ∧ t.ledger.journal = s.ledger.journal ++ [j] ∧
      j.r.body = .retire m.qp (s.ackLimit m.qp m.ack) ∧ t.ledger.subs = s.ledger.subs ∧ t.host.out = s.host.out) ∧
  (∀ (m : UwpMsg) (relpos : BitVec 32) (a : Nat) (s : State), s.passes m = true → headerOk m 4 0 = true → m.length = 4 →
    s.acctByIdent m.part m.accountId = some a → s.isHome a = true →
    ∃ t, exec (.releaseAcknowledge m relpos) s = .next t ∧ t.ledger = s.ledger ∧
      t.acct a = { s.acct a with relpos := (match (s.acct a).relpos with
        | some r => some (if r < relpos then relpos else r)
        | none => some relpos) } ∧ ∀ k, k ≠ a → t.acct k = s.acct k) ∧
  (∀ (m : UwpMsg) (mxtype access any : BitVec 8) (bytes : BitVec 32) (s : State), s.passes m = true → headerOk m 5 0 = true →
    m.length = 8 → any.toNat ≤ 1 → access.toNat ≤ 3 →
    (s.openWindow m.qp m.part.toNat (decide (any = 1)) 0 mxtype access bytes.toNat).isSome = true →
    (∀ s1 i, s.openWindow m.qp m.part.toNat (decide (any = 1)) 0 mxtype access bytes.toNat = some (s1, i) →
      s1.strayLine (s1.window i).tag ((s1.window i).lines 0 (s1.window i).bytes) = none) →
    ∃ t i x, exec (.windowOpen m 0 mxtype access any bytes) s = .next t ∧ (s.window i).st = 0 ∧ (t.window i).st = 1 ∧
      (t.window i).session = m.qp ∧ (t.window i).tag = m.part ∧ (t.window i).bytes = bytes.toNat ∧ (t.window i).access = access ∧
      t.host.out = s.host.out ++ [x] ∧ x.type = 0x16 ∧ x.body = be32 ((t.window i).key i)) ∧
  (∀ (m : UwpMsg) (mxtype access any : BitVec 8) (bytes : BitVec 32) (i : Nat) (s1 s : State), s.passes m = true →
    headerOk m 5 0 = true → m.length = 8 → any.toNat ≤ 1 → access.toNat ≤ 3 → s.health.st = 0 → s.health.decided = none →
    s.openWindow m.qp m.part.toNat (decide (any = 1)) 0 mxtype access bytes.toNat = some (s1, i) →
    (s1.strayLine (s1.window i).tag ((s1.window i).lines 0 (s1.window i).bytes)).isSome = true →
    ∃ t, exec (.windowOpen m 0 mxtype access any bytes) s = .next t ∧ t.health.decided = some 0x0B ∧ t.host.out = s.host.out) ∧
  (∀ (m : UwpMsg) (key : BitVec 32) (i : Nat) (s : State), s.passes m = true → headerOk m 6 0 = true → m.length = 4 →
    s.windowByKey key = some i → (s.window i).admits m.qp (s.sess m.qp.toNat) = true →
    ∃ t x, exec (.windowClose m key) s = .next t ∧ t.window i = { s.window i with st := 2 } ∧ t.windowByKey key = none ∧
      t.host.out = s.host.out ++ [x] ∧ x.type = 0x16 ∧ x.body = be32 key))

/-- Submissions (R284-R286, R356, R361): each kind, sent as the next of its session to a home that takes it, is held Accepting with an
Accept record under the next LSN, and nothing is answered before that record is durable. An SSN at or below ACK is refused as stale, one
above A + 1 as a gap; a copy of an accepted one is answered with its receipt and accepts nothing. -/
def Obligations.SubmissionsAreHeldUntilDurable : Prop :=
  (∀ (m : UwpMsg) (ts : List W32) (s : State), s.submits m = true → headerOk m 1 1 = true → ts.length ≤ 16362 →
    m.length.toNat = 5 + 4 * ts.length → m.maxtok ≠ 0 → s.homeOf m = true → s.hasRoom m (genBody (.inline ts)).2.2 = true →
    ∃ t, exec (.generate m (.inline ts)) s = .next t ∧ HeldNow m 1 ts s t) ∧
  (∀ (m : UwpMsg) (first count : BitVec 32) (s : State), s.submits m = true → headerOk m 1 2 = true → m.length = 8 →
    s.homeOf m = true → s.hasRoom m (be32 first ++ be32 count) = true →
    ∃ t, exec (.learn m first count) s = .next t ∧ HeldNow m 2 [first, count] s t) ∧
  (∀ (m : UwpMsg) (s : State), s.submits m = true → headerOk m 1 3 = true → m.length = 0 → s.homeOf m = true →
    ∃ t, exec (.park m) s = .next t ∧ HeldNow m 3 [] s t) ∧
  (∀ (m : UwpMsg) (parts : List RestorePart) (s : State), s.submits m = true → headerOk m 1 4 = true →
    m.length.toNat = 2 + 14 * parts.length → s.openRefusal m = none → s.hasRoom m (restoreBytes parts) = true →
    ∃ t, exec (.restore m parts) s = .next t ∧ HeldNow m 4 [] s t) ∧
  (∀ (m : UwpMsg) (b : OpenBody) (s : State), s.submits m = true → headerOk m 1 5 = true → m.length = 23 →
    openOk b (s.part m.part.toNat).verify.toNat = true → (b.seed ≠ 0 ∨ s.mgmt.entropy = true) → s.openRefusal m = none →
    s.hasRoom m (openBytes b) = true →
    ∃ t, exec (.openAccount m b) s = .next t ∧ HeldNow m 5 [] s t) ∧
  (∀ (m : UwpMsg) (s : State), s.submits m = true → headerOk m 1 6 = true → m.length = 0 → s.homeOf m = true →
    ∃ t, exec (.closeAccount m) s = .next t ∧ HeldNow m 6 [] s t) ∧
  (∀ (m : UwpMsg) (s : State),
    let x := s.sess m.qp.toNat
    s.passes m = true → headerOk m 1 3 = true → m.length = 0 → (m.ssn ≤ x.ack ∨ x.a.toNat + 1 < m.ssn.toNat) →
    ∃ t y, exec (.park m) s = .next t ∧ t.ledger.subs = s.ledger.subs ∧ t.ledger.journal = s.ledger.journal ∧
      t.host.out = s.host.out ++ [y] ∧ y.type = 0x12 ∧ y.ssn = m.ssn ∧ y.code = (if m.ssn ≤ x.ack then 0x81 else 0x82)) ∧
  (∀ (m : UwpMsg) (b : Sub) (s : State),
    let x := s.sess m.qp.toNat
    s.passes m = true → headerOk m 1 3 = true → m.length = 0 → x.ack < m.ssn → m.ssn ≤ x.a → s.quiet = true → s.ledger.mode = 0 →
    (s.heldOf m.qp).find? (fun k => decide (k.ssn = m.ssn)) = some b → b.st = .accepted →
    ∃ t y, exec (.park m) s = .next t ∧ t.ledger.subs = s.ledger.subs ∧ t.host.out = s.host.out ++ [y] ∧ y.type = 0x11 ∧
      y.ssn = m.ssn ∧ (t.sess m.qp.toNat).a = x.a)

/-! ## Daylight, power and clocks -/

/-- Daylight modules (R2, R401-R411): a module that is found with good identity and a good probe is lit and judged, one whose probe
fails is Off, one whose identity fails stays Unready with its lasers off and is reported by a record; before Dawn's step 6 nothing of it
is read; removal leaves the position Absent and its history saved; lanes that do not darken mean Failed with the lasers off; an open
fibre darkens the module that feeds the lane; the poll only worsens a lit module's state; a relight probe ends lit or dark. -/
def Obligations.ModulesChangeState : Prop :=
  (∀ (mm : ModuleNo) (d : ModuleData) (s : State),
    let x := s.module mm.val
    let e : ModuleData := { d with lit := s.usedOutputs mm.val }
    s.alive = true → x.st = 0 → x.pres = false → x.fault = false → s.readsModules = true → modSound d = true →
    (∃ t, exec (.modulePresence mm d true) s = .next t ∧ (t.module mm.val).st = conditionOf e (s.usedOutputs mm.val) ∧
      (t.module mm.val).pres = true ∧ (t.module mm.val).data = some e ∧ (t.module mm.val).en = true ∧
      (t.module mm.val).lit = s.usedOutputs mm.val) ∧
    (∃ t, exec (.modulePresence mm d false) s = .next t ∧
      t.module mm.val = { x with pres := true, data := some d, arrived := none, st := 5 })) ∧
  (∀ (mm : ModuleNo) (d : ModuleData) (probeOk : Bool) (s : State),
    let x := s.module mm.val
    s.alive = true → x.st = 0 → x.pres = false → x.fault = false → s.readsModules = false →
    ∃ t, exec (.modulePresence mm d probeOk) s = .next t ∧ t = { s with mods := t.mods } ∧
      t.module mm.val = { x with pres := true, arrived := some (d, probeOk) }) ∧
  (∀ (mm : ModuleNo) (d : ModuleData) (probeOk : Bool) (s : State),
    let x := s.module mm.val
    s.alive = true → x.st = 0 → x.pres = false → x.fault = false → s.readsModules = true → modSound d = false →
    s.recd.buffer.length < 448 →
    ∃ t r, exec (.modulePresence mm d probeOk) s = .next t ∧ t = { s with mods := t.mods, recd := t.recd, mgmt := t.mgmt } ∧
      t.module mm.val = { x with
        pres := true, data := some d, arrived := none, st := 1, en := false, cmisOff := true, lit := 0, probing := false, removing := false } ∧
      t.recd.buffer[s.recd.buffer.length]? = some r ∧
      r.payload = .generic 0x0A 1 mm.val (BitVec.allOnes 64) 1 0 0) ∧
  (∀ (mm : ModuleNo) (s : State),
    let x := s.module mm.val
    s.alive = true → x.pres = true →
    ∃ t, exec (.moduleRemoval mm) s = .next t ∧ (t.module mm.val).st = 0 ∧ (t.module mm.val).pres = false ∧
      (t.module mm.val).en = false ∧ (t.module mm.val).openFib = (if x.en then bump32 x.openFib else x.openFib) ∧
      ∀ d, x.data = some d → (t.module mm.val).saved = some (modSerial d, modHours d, modBiasNow d)) ∧
  (∀ (lane : Fin 36) (s : State),
    let x := s.module (laneModule lane.val)
    s.alive = true → x.en = true →
    ∃ t, exec (.openFibre lane) s = .next t ∧ (t.module (laneModule lane.val)).en = false ∧
      (t.module (laneModule lane.val)).cmisOff = true ∧ (t.module (laneModule lane.val)).lit = 0 ∧
      (t.module (laneModule lane.val)).openFib = bump32 x.openFib ∧
      (2 ≤ x.st → x.st ≤ 5 → (t.module (laneModule lane.val)).st = 5)) ∧
  (∀ (mm : ModuleNo) (hardware : Bool) (s : State),
    let x := s.module mm.val
    s.alive = true → x.pres = true → (x.en = true → x.cmisOff = true) →
    (∃ t, exec (.darknessCheck mm false hardware) s = .next t ∧
      t.module mm.val = { x with st := 6, en := false, cmisOff := true, lit := 0, probing := false, pathFail := bump32 x.pathFail }) ∧
    exec (.darknessCheck mm true hardware) s = .next s) ∧
  (∀ (mm : ModuleNo) (d : ModuleData) (s : State),
    let x := s.module mm.val
    let e : ModuleData := { d with lit := d.lit &&& s.usedOutputs mm.val }
    s.alive = true → x.pres = true → x.arrived = none →
    ∃ t, exec (.moduleMonitorPoll mm d) s = .next t ∧ x.st ≤ (t.module mm.val).st ∧
      (t.module mm.val).data = (if 2 ≤ x.st ∧ x.st ≤ 4 then some e else some d) ∧
      (2 ≤ x.st → x.st ≤ 4 → (t.module mm.val).st = max x.st (conditionOf e (s.usedOutputs mm.val)))) ∧
  (∀ s : State, s.alive = true →
    ∃ t, exec .daylightHistorySave s = .next t ∧ t.links = s.links ∧
      ∀ m d, m < 6 → (s.module m).data = some d → t.module m = { s.module m with saved := some (modSerial d, modHours d, modBiasNow d) }) ∧
  (∀ (mm : ModuleNo) (d : ModuleData) (open_ : BitVec 6) (s : State),
    let x := s.module mm.val
    s.alive = true → x.probing = true → x.data = some d → modSound d = true →
    (open_ = 0 → ∃ t, exec (.relightProbeEnd mm open_) s = .next t ∧ (t.module mm.val).probing = false ∧
      (t.module mm.val).en = true ∧
      (t.module mm.val).st = conditionOf { d with lit := s.usedOutputs mm.val } (s.usedOutputs mm.val)) ∧
    (open_ ≠ 0 → ∃ t, exec (.relightProbeEnd mm open_) s = .next t ∧ t.module mm.val = x.dark ∧ t.links = s.links)) ∧
  (∀ (mm : ModuleNo) (d : ModuleData) (s : State),
    let x := s.module mm.val
    s.alive = true → x.probing = true → x.data = some d → modSound d = false →
    ∃ t, exec (.relightProbeEnd mm 0) s = .next t ∧ (t.module mm.val).st = 1 ∧ (t.module mm.val).en = false ∧
      (t.module mm.val).lit = 0 ∧ (t.module mm.val).probing = false ∧ t.links = s.links)

/-- Rails and trips (R384, R417-R420, R426): an under-voltage is counted and latches the power failure, which ends LSNs; sixteen frames
after the latch the die is silent and every laser off; the current limit takes the whole pause allowance until it ends; a hard trip
asserts THERMTRIP_N, silences the die and stops a Dawn; power off leaves a machine before its first Dawn step with nothing in volatile
memory and the flash as it was. -/
def Obligations.PowerFailsTripsAndEnds : Prop :=
  (∀ (rail : Fin 10) (s : State), s.power.rails = true → s.power.resetPin = false → s.power.failed = false →
    ∃ t, exec (.underVoltage rail) s = .next t ∧ t.power.failed = true ∧ t.power.failFrame = some s.fu.frame ∧
      SMap.get t.power.underV 0 rail.val = bump32 (SMap.get s.power.underV 0 rail.val) ∧
      t.power.sequences = bump32 s.power.sequences ∧ 54 ∈ t.mgmt.asserted ∧ 55 ∈ t.mgmt.asserted ∧ t.mayAssign = false) ∧
  (∀ s : State, s.power.rails = true → s.power.resetPin = false →
    (s.power.failed = false → ∃ t, exec .powerFailLatch s = .next t ∧ t.power.failed = true ∧
      t.power.failFrame = some s.fu.frame ∧ t.power.sequences = bump32 s.power.sequences ∧ 54 ∈ t.mgmt.asserted ∧
      t.mayAssign = false ∧ (s.inTwilight = true → t.health.flag = true)) ∧
    (s.power.failed = true → exec .powerFailLatch s = .next s)) ∧
  (∀ (f : Nat) (s : State), s.power.failFrame = some f → f + 16 ≤ s.fu.frame →
    ∃ t, exec .powerFailSilence s = .next t ∧ t.health.silent = true ∧ (∀ x ∈ t.mods, x.2.en = false) ∧ t.spad = s.spad) ∧
  (∀ s : State, s.power.rails = true → s.power.resetPin = false → s.power.curLimit = false →
    ∃ t, exec .currentLimitEntry s = .next t ∧ t.power.curLimit = true ∧ t.power.request = 544 ∧ 56 ∈ t.mgmt.asserted) ∧
  (∀ s : State, s.power.curLimit = true →
    ∃ t, exec .currentLimitExit s = .next t ∧ t.power.curLimit = false ∧ (s.power.tdie = none → t.power.request = 0)) ∧
  (∀ (b : Bool) (s : State), s.power.rails = true →
    ∃ t, exec (.hardTrip b) s = .next t ∧ t.power.tripped = true ∧ t.health.silent = true ∧ (∀ x ∈ t.mods, x.2.en = false) ∧
      (s.dawn.step < 11 → t.dawn.stopped = true)) ∧
  (∀ s : State, s.power.rails = true →
    ∃ t, exec .powerOff s = .next t ∧ t.power.rails = false ∧ t.power.resetPin = true ∧ t.power.tripped = false ∧
      t.dawn.step = 0 ∧ t.spad = [] ∧ t.mem.data = [] ∧ t.accts = [] ∧ t.recd.flash = s.recd.flash ∧ t.recd.buffer = [])

/-- Temperature and power votes (R424, R425, R428-R431): after a set of conversions T_die is the highest reading of the 128 sensors, a
faulty sensor stays faulty, thresholds written are in force and the stacks' reports are taken (R242); a power mean votes for the
shortest length that fits; 50 ms of voting enforce the vote; a release lowers the thermal vote by one length. Clocks (R433-R436, R441):
a lost reference is counted and a device that is neither master nor acting runs on its holdover oscillator without REFCLK and on REFCLK
again when it returns; firmware's correction takes the temperature; a crossing that times out is counted and aborts every partition with
a stream on the die. -/
def Obligations.VotesReferencesAndCrossings : Prop :=
  ((∀ (raw : SensorSet) (hbm : List (Option Int)) (s : State), s.power.rails = true → s.power.resetPin = false →
    ∃ t T, exec (.sensorConversionSet raw hbm) s = .next t ∧ t.power.tdie = some T ∧
      (∀ k, k < 128 → ∃ r, SMap.get t.power.readings none k = some r ∧ r ≤ T) ∧
      (∃ k, k < 128 ∧ SMap.get t.power.readings none k = some T) ∧
      (∀ k, k < 128 → k ∈ s.power.faulty → k ∈ t.power.faulty) ∧
      (s.power.faulty = [] → ∀ k, k < 128 → raw.getD k none = none → k ∈ t.power.faulty) ∧
      t.power.l1 = s.power.l1W.getD s.power.l1 ∧ t.power.l1W = none ∧ t.spad = s.spad ∧
      t.mem = { s.mem with stk := t.mem.stk } ∧
      ∀ k, k < 16 → (∀ n, hbm.getD k none = some n → (t.stack k).temp = BitVec.ofInt 32 n) ∧
        (hbm.getD k none = none → t.stack k = s.stack k)) ∧
  (∀ (mw : Nat) (s : State), s.alive = true →
    ∃ t, exec (.powerMean mw) s = .next t ∧ t.power.power = some mw ∧
      (powerFits mw s.power.limit 1024 = true → t.power.powerVote = 0) ∧
      (powerFits mw s.power.limit 1024 = false → powerFits mw s.power.limit 1152 = true → t.power.powerVote = 1) ∧
      (powerFits mw s.power.limit 1024 = false → powerFits mw s.power.limit 1152 = false → powerFits mw s.power.limit 1280 = true →
        t.power.powerVote = 2) ∧
      (powerFits mw s.power.limit 1024 = false → powerFits mw s.power.limit 1152 = false → powerFits mw s.power.limit 1280 = false →
        t.power.powerVote = 3)) ∧
  (∀ s : State, s.power.rails = true → s.fu.vote ≠ 0 → s.fu.enforced = false → 500 ≤ s.power.voteSets →
    ∃ t, exec .voteEnforce s = .next t ∧ t.fu.enforced = true ∧ t.fu.vote = s.ownVote ∧
      t.power.enforcements = bump32 s.power.enforcements) ∧
  (∀ s : State, s.power.rails = true → s.power.thermVote ≠ 0 → s.power.tdie.isSome = true →
    s.reached2 s.power.thermVote.toNat 3 = false → 1000 ≤ s.power.coolSets.getD 0 →
    ∃ t, exec .voteRelease s = .next t ∧ t.power.thermVote = s.power.thermVote - 1 ∧ t.power.powerVote = s.power.powerVote)) ∧
  ((∀ s : State, s.power.rails = true → s.power.resetPin = false → s.power.refclk = true → s.fu.master = false → s.fu.acting = false →
    ∃ t, exec (.referenceLoss .refclk) s = .next t ∧ t.power.refclk = false ∧ t.power.pllIn = 2 ∧
      t.power.losses = bump32 s.power.losses ∧ t.power.frameIn = s.power.frameIn) ∧
  (∀ s : State, s.power.rails = true → s.power.resetPin = false → s.power.refclk = false → s.fu.master = false → s.fu.acting = false →
    ∃ t, exec (.referenceReturn .refclk) s = .next t ∧ t.power.refclk = true ∧ t.power.pllIn = 1 ∧
      t.power.losses = s.power.losses) ∧
  (∀ s : State, s.power.rails = true → s.power.resetPin = false → s.power.frameIn = true → s.fu.master = true → s.fu.lockSrc = 0 →
    ∃ t, exec (.referenceLoss .frameIn) s = .next t ∧ t.power.frameIn = false ∧
      t.power.pllIn = (if s.power.refclk then 1 else 2)) ∧
  (∀ (temp : Int) (s : State), s.alive = true → 4 ≤ s.dawn.step →
    ∃ t, exec (.holdoverCorrection temp) s = .next t ∧
      t = { s with power := { s.power with holdTemp := some temp, holdCorr := holdoverCorr (s.power.tables.getLsbD 0) temp } }) ∧
  (∀ (unit : BitVec 8) (tile : TileNo) (s : State), s.alive = true →
    ∃ t, exec (.crossingTimeout unit tile) s = .next t ∧ t.power.crossings = bump32 s.power.crossings ∧
      ∀ p ∈ s.steppers, AbortsIn p s t))

/-! ## Management complex -/

/-- A module fault (R409): where ELS_FAULT_N is asserted, ELS_EN_N is deasserted and the module becomes Failed, and its CMIS flags are
recorded; asserted at insertion, the module is Failed and its lasers are not enabled. -/
def Obligations.ModuleFaultMeansFailedWithoutLasers : Prop :=
  (∀ (mm : ModuleNo) (flags : List (BitVec 32)) (s : State),
    let x := s.module mm.val
    s.alive = true → x.pres = true → s.recd.buffer.length < 448 →
    ∃ t r, exec (.moduleFault mm flags) s = .next t ∧
      t.module mm.val = { x with
        fault := true, en := false, lit := 0, probing := false, st := 6, arrived := none
        data := match x.arrived with | some a => some a.1 | none => x.data } ∧
      t.recd.buffer[s.recd.buffer.length]? = some r ∧
      r.payload = .generic 0x0A 4 mm.val (BitVec.allOnes 64) 6 (BitVec.ofNat 32 x.st) (flagWords flags) ∧
      (x.st ≠ 6 → 38 + mm.val ∈ t.mgmt.asserted)) ∧
  (∀ (mm : ModuleNo) (d : ModuleData) (probeOk : Bool) (s : State),
    let x := s.module mm.val
    s.alive = true → x.st = 0 → x.pres = false → x.fault = true → x.en = false →
    ∃ t, exec (.modulePresence mm d probeOk) s = .next t ∧
      t.module mm.val = { x with pres := true, data := some d, arrived := none, st := 6 } ∧ 38 + mm.val ∈ t.mgmt.asserted ∧ t.links = s.links)

/-- Watchdog and timer (R450, R451): 0x5A and then 0xA5 written by a core serve it; 15 ms without a service raise source 49, and expiry
after that silences the die; the housekeeping timer raises source 48. Interrupts (R454, R455): a core that reads a hart's CLAIM gets an
eligible source of highest PRIO, and of equal ones the lowest number, which enters service, where it is eligible for no hart; with none
eligible it reads 0; a write of CLAIM for the hart that holds the source ends its service, any other is only counted. An access outside
the map is an access fault (R448). Where the service register stands in its range is the model's open value (log entry 87). Housekeeping
ADC (R457-R460): a timer trigger starts the conversion of the entry at NEXT and NEXT advances, wrapping from LAST to 0; a trigger that
finds one waiting is missed; a sequence result goes to ADC_DATA and replaces an unread one; an urgent result goes to the capture latch
and never to ADC_DATA; a core's read of ADC_DATA gets it and clears VALID; an urgent conversion is requested for the first event that
waits for one. -/
def Obligations.WatchdogInterruptsAndAdc : Prop :=
  ((∀ (a1 a2 : CoreAcc) (s : State), s.hartRuns a1.hart = true → s.hartRuns a2.hart = true → s.mgmt.wdOn = true →
    a1.addr.toNat = 0x20010000 + Config.serviceReg.val → a2.addr = a1.addr → a1.size = 0 → a2.size = 0 →
    ∃ t, exec (.watchdogService a1 a2 0x5A 0xA5) s = .next t ∧
      t = { s with mgmt := { s.mgmt with
        wdHalf := false, wdServed := s.mgmt.wdServed + 1, wdWarned := false
        asserted := s.mgmt.asserted.filter (fun n => decide (n ≠ 49)) } }) ∧
  (∀ s : State, s.housekeeping = true → s.mgmt.wdOn = true → s.mgmt.wdFail = false →
    (s.mgmt.wdWarned = false → ∃ t, exec .watchdogWarning s = .next t ∧ t.mgmt.wdWarn = bump32 s.mgmt.wdWarn ∧ 49 ∈ t.mgmt.asserted ∧
      t.mgmt.wdWarned = true ∧ t.health = s.health) ∧
    (s.mgmt.wdWarned = true → ∃ t, exec .watchdogExpiry s = .next t ∧ t.mgmt.wdFail = true ∧ t.health.silent = true ∧
      t.alive = false)) ∧
  (∀ s : State, s.housekeeping = true → ∃ t, exec .housekeepingTimer s = .next t ∧ 48 ∈ t.mgmt.asserted ∧
    (s.mgmt.adc.trig ≠ 2 → t.mgmt.adc = s.mgmt.adc)) ∧
  (∀ (a : CoreAcc) (hart : BitVec 2) (k : Nat) (s : State), s.hartRuns a.hart = true →
    a.addr.toNat = 0x20001004 + 256 * hart.toNat → a.size = 2 → s.mgmt.eligible hart.toNat k = true →
    ∃ t n, exec (.interruptClaim a) s = .next t ∧ SMap.get t.mgmt.core 0 a.hart.toNat = n % 4294967296 ∧
      s.mgmt.eligible hart.toNat n = true ∧
      (∀ j, s.mgmt.eligible hart.toNat j = true → SMap.get s.mgmt.prio 0 j ≤ SMap.get s.mgmt.prio 0 n ∧
        (s.mgmt.asserted.Pairwise (· < ·) → SMap.get s.mgmt.prio 0 j = SMap.get s.mgmt.prio 0 n → n ≤ j)) ∧
      t.mgmt.service = s.mgmt.service ++ [(n, hart.toNat)] ∧ ∀ h, t.mgmt.eligible h n = false) ∧
  (∀ (a : CoreAcc) (hart : BitVec 2) (s : State), s.hartRuns a.hart = true → a.addr.toNat = 0x20001004 + 256 * hart.toNat →
    a.size = 2 → (∀ k, s.mgmt.eligible hart.toNat k = false) →
    ∃ t, exec (.interruptClaim a) s = .next t ∧ SMap.get t.mgmt.core 0 a.hart.toNat = 0 ∧
      t.mgmt.spurious = s.mgmt.spurious + 1 ∧ t.mgmt.service = s.mgmt.service) ∧
  (∀ (a : CoreAcc) (hart : BitVec 2) (source : BitVec 9) (s : State), s.hartRuns a.hart = true →
    a.addr.toNat = 0x20001004 + 256 * hart.toNat → a.size = 2 →
    ((source.toNat, hart.toNat) ∈ s.mgmt.service → ∃ t, exec (.interruptCompletion a (source.setWidth 64)) s = .next t ∧
      (source.toNat, hart.toNat) ∉ t.mgmt.service ∧ t.mgmt.stray = s.mgmt.stray) ∧
    ((source.toNat, hart.toNat) ∉ s.mgmt.service → ∃ t, exec (.interruptCompletion a (source.setWidth 64)) s = .next t ∧
      t = { s with mgmt := { s.mgmt with stray := bump32 s.mgmt.stray } })) ∧
  (∀ (a : CoreAcc) (data : W64) (s : State), s.hartRuns a.hart = true → (∀ r ∈ coreMap, r.2.2 < a.addr.toNat ∨ a.addr.toNat < r.2.1) →
    (∃ t, exec (.interruptClaim a) s = .next t ∧
      t = { s with mgmt := { s.mgmt with trap := SMap.set s.mgmt.trap none a.hart.toNat (some (a.addr, false)) } }) ∧
    ∃ t, exec (.interruptCompletion a data) s = .next t ∧
      t = { s with mgmt := { s.mgmt with trap := SMap.set s.mgmt.trap none a.hart.toNat (some (a.addr, true)) } })) ∧
  ((∀ (since : Nat) (s : State),
    let a := s.mgmt.adc
    s.housekeeping = true → a.trig = 2 → a.waiting = false → a.running = none → a.urgent = [] →
    ∃ t, exec (.adcTrigger false since) s = .next t ∧
      t.mgmt.adc.running = some (some a.next, SMap.get a.seq 0 a.next.toNat, a.settled) ∧
      t.mgmt.adc.next = (if a.next = a.last then 0 else a.next + 1) ∧ t.mgmt.adc.waiting = false ∧ t.mgmt.adc.missed = a.missed) ∧
  (∀ (since : Nat) (s : State),
    let a := s.mgmt.adc
    s.housekeeping = true → a.trig = 1 → a.div.toNat + 1 ≤ a.ticks → a.waiting = true → a.running ≠ none →
    ∃ t, exec (.adcTrigger true since) s = .next t ∧ t.mgmt.adc.missed = bump32 a.missed ∧ t.mgmt.adc.next = a.next ∧
      46 ∈ t.mgmt.asserted) ∧
  (∀ (e : BitVec 5) (chan : BitVec 6) (st : Bool) (code : BitVec 12) (s : State),
    let a := s.mgmt.adc
    s.housekeeping = true → a.running = some (some e, chan, st) →
    ∃ t, exec (.adcConversionEnd code) s = .next t ∧ t.mgmt.adc.valid = true ∧ t.mgmt.adc.entry = e ∧ t.mgmt.adc.chan = chan ∧
      t.mgmt.adc.code = adcCode chan code ∧ t.mgmt.adc.ovr = (a.ovr || a.valid) ∧ 45 ∈ t.mgmt.asserted ∧
      (a.valid = true → 46 ∈ t.mgmt.asserted) ∧ t.mgmt.adc.latch = a.latch) ∧
  (∀ (chan : BitVec 6) (st : Bool) (code : BitVec 12) (s : State),
    let a := s.mgmt.adc
    s.housekeeping = true → a.running = some (none, chan, st) →
    ∃ t, exec (.adcConversionEnd code) s = .next t ∧ t.mgmt.adc.latch = adcCode chan code ∧ 47 ∈ t.mgmt.asserted ∧
      t.mgmt.adc.valid = a.valid ∧ t.mgmt.adc.code = a.code ∧ t.mgmt.adc.entry = a.entry) ∧
  (∀ (a : CoreAcc) (s : State), s.hartRuns a.hart = true → a.addr = 0x20020008 → a.size = 2 →
    ∃ t, exec (.adcDataRead a) s = .next t ∧ SMap.get t.mgmt.core 0 a.hart.toNat = s.mgmt.adc.data.toNat ∧
      t.mgmt.adc = { s.mgmt.adc with valid := false } ∧ 45 ∉ t.mgmt.asserted) ∧
  (∀ (chan : BitVec 6) (since code object after before : Nat) (rest : List (BitVec 6 × Bool × Nat × Nat × Nat × Nat)) (s : State),
    let a := s.mgmt.adc
    s.housekeeping = true → a.running ≠ none → a.due = (chan, false, code, object, after, before) :: rest →
    ∃ t, exec (.adcUrgentRequest chan since) s = .next t ∧
      t = { s with mgmt := { s.mgmt with adc := { a with
        urgent := a.urgent ++ [chan], due := (chan, true, code, object, after, before) :: rest } } }) ∧
  (∀ s : State, s.housekeeping = true → ∃ t, exec .adcReferenceSettled s = .next t ∧
    t = { s with mgmt := { s.mgmt with adc := { s.mgmt.adc with settled := true } } }))

/-- Management requests and flash (R449, R461, R462, R464): an intact request is answered by one response on VC3, an address that is not
aligned with status 1; a write that the unit takes is read back from then on; a request of another tile than 313 reaches no register;
the response ends its request; a timeout is counted and aborts every partition with a stream on the die. The flash controller serves the
best waiting class and counts erases; a failure of the entropy tests raises source 53. Attestation (R469): each request is answered by
one response, which raises the port's source 34 and changes nothing else; certificates and challenges are of slot 0; measurements are
those of ROM, running firmware, fuses, store and chain. -/
def Obligations.ManagementFlashAndAttestation : Prop :=
  ((∀ (r : MgmtReq) (i : Instr) (op wait : Nat) (s : State),
    ((i, op) = (.managementRead r wait {}, 0) ∨ (i, op) = (.managementWrite r wait {}, 1) ∨
      (i, op) = (.managementWriteReadback r wait {}, 2)) →
    let st := regStatus r op s.free
    let held := r.stored.getD r.data
    s.firmware = true → r.srcTile = 313 → s.mgmt.requests.length < 16 → (∀ x ∈ s.mgmt.requests, x.1 ≠ r.id) →
    ∃ t f, exec i s = .next t ∧
      t.mgmt.requests = s.mgmt.requests ++ [(r.id, r.destTile, r.destPort, s.now s.fu.cycle, if op = 2 then some r.data else none)] ∧
      t.mesh.chan .vc3 = s.mesh.chan .vc3 ++ [f] ∧ f.says = (r.destTile.toNat, 313, 1, 0xFF,
        .mgmtResp (mgmtWord (if op = 0 then SMap.get s.mgmt.regs 0 (mgmtReg r) else if op = 2 then held else r.data) r.addr r.id st 0)) ∧
      (r.addr.toNat % 8 ≠ 0 → st = 1) ∧
      SMap.get t.mgmt.regs 0 (mgmtReg r) =
        (if op ≠ 0 ∧ st = 0 then held else SMap.get s.mgmt.regs 0 (mgmtReg r))) ∧
  (∀ (r : MgmtReq) (wait : Nat) (bad : FlitBad) (s : State), s.firmware = true → r.srcTile ≠ 313 →
    ∃ t, exec (.managementWrite r wait bad) s = .next t ∧ t.mgmt.regs = s.mgmt.regs ∧ t.mgmt.requests = s.mgmt.requests ∧
      t.mesh.chan .vc3 = s.mesh.chan .vc3) ∧
  (∀ (id : BitVec 8) (rc : Nat) (addr : BitVec 32) (data : W64) (st : BitVec 2) (m : Msg) (s1 s : State),
    s.firmware = true → s.takeMsg .vc3 rc (isResponse id) = some (m, s1) → m.msg = .mgmtResp (mgmtWord data addr id st 0) →
    (∃ x ∈ s.mgmt.requests, x.1 = id) →
    ∃ t, exec (.managementResponse id rc {}) s = .next t ∧ t.mgmt.response = some (id, addr, data, st) ∧
      t.mesh.chan .vc3 = s1.mesh.chan .vc3 ∧ ∀ x ∈ t.mgmt.requests, x.1 ≠ id) ∧
  (∀ (id : BitVec 8) (tile : TileNo) (port : BitVec 2) (sent rc : Nat) (d : Option W64) (s : State),
    s.firmware = true → s.mgmt.requests.find? (fun x => decide (x.1 = id)) = some (id, tile, port, sent, d) →
    sent + mgmtBound tile.toNat ≤ s.now rc →
    ∃ t, exec (.managementRequestTimeout id rc) s = .next t ∧ t.mgmt.timeouts = s.mgmt.timeouts + 1 ∧
      t.power.crossings = bump32 s.power.crossings ∧ (∀ x ∈ t.mgmt.requests, x.1 ≠ id) ∧
      ∀ p ∈ s.steppers, AbortsIn p s t) ∧
  (∀ (c : FlashCls) (s : State), s.power.rails = true → s.mgmt.fwriting = some c →
    ∃ t, exec .flashWriteEnd s = .next t ∧ t.mgmt.fwriting = bestFlash s.mgmt.fqueue s.power.failed ∧ 50 ∈ t.mgmt.asserted ∧
      ∀ k ∈ s.mgmt.fqueue, s.power.failed = false → ∃ b, t.mgmt.fwriting = some b ∧ b.rank ≤ k.rank) ∧
  (∀ (e : Nat × FlashCls × Bool) (s : State), s.power.rails = true → 1 < s.dawn.step →
    s.suspendErases.mgmt.ferase.find? (fun x => !x.2.2) = some e →
    ∃ t, exec .flashEraseEnd s = .next t ∧ t.mgmt.ferase = s.suspendErases.mgmt.ferase.erase e ∧
      SMap.get t.mgmt.fcounts 0 e.1 = SMap.get s.mgmt.fcounts 0 e.1 + 1 ∧ 50 ∈ t.mgmt.asserted) ∧
  (∀ s : State, s.firmware = true → s.mgmt.entropy = true →
    ∃ t, exec .entropyHealthFailure s = .next t ∧ t.mgmt.entropy = false ∧ 53 ∈ t.mgmt.asserted ∧ t.parts = s.parts)) ∧
  (∀ s : State, s.firmware = true →
    let said := fun (m : SpdmMsg) => { s with mgmt := { s.mgmt with
      spdm := s.mgmt.spdm ++ [m], asserted := insertRising s.mgmt.asserted 34 } }
    exec .getVersion s = .next (said .version) ∧ exec .getCapabilities s = .next (said .capabilities) ∧
    exec (.negotiateAlgorithms true) s = .next (said .algorithms) ∧ exec .getDigests s = .next (said .digests) ∧
    (∀ o l : BitVec 16, exec (.getCertificate 0 o l) s = .next (said (.certificate o.toNat l.toNat))) ∧
    (∀ n : BitVec 256, exec (.challenge 0 n) s = .next (said (.challengeAuth n))) ∧
    (∀ (k : BitVec 8) (n : BitVec 256), 1 ≤ k.toNat → k.toNat ≤ 5 → exec (.getMeasurements k n) s =
      .next (said (.measurements k.toNat n
        { rom := Config.romDigest, firmware := s.mgmt.boot.fwDigest, svn := s.mgmt.boot.svn, revoked := s.mgmt.boot.revoked
          debugLock := Config.debugLock, store := s.mgmt.boot.store, chain := s.mgmt.boot.chain }))) ∧
    (∀ c : BitVec 8, exec (.unsupportedRequest c) s = .next (said .unsupported)))

/-! ## Recorder, reset and Dawn -/

/-- The recorder (R504-R508): a due flush takes what is pending, and waits where one runs; its end makes those of them that flash keeps
readable durable and leaves the rest pending, and ends an orderly shutdown that waits for it (R528). First use, lifetime counters and
test access (R497, R525, R542): widened windows end once the count has reached 4,096; the hours are saved every 1/16 h with the
first-use count; BYPASS and IDCODE are taken at all times, and the other test instructions only while the boot ROM has stopped Dawn,
with BYPASS selected in their place otherwise. -/
def Obligations.RecorderAndLifetimeCounters : Prop :=
  ((∀ s : State, s.power.rails = true → s.flushDue = true → s.recd.buffer ≠ [] →
    (s.recd.flushing = none → ∃ t, exec .flushStart s = .next t ∧ t.recd = { s.recd with flushing := some s.recd.buffer.length } ∧
      FlashCls.recorder ∈ t.mgmt.fqueue) ∧
    (s.recd.flushing ≠ none → ∃ t, exec .flushStart s = .next t ∧ t = { s with recd := { s.recd with again := true } })) ∧
  (∀ (n : Nat) (s : State), s.power.rails = true → s.recd.flushing = some n → s.recd.lostNew = 0 → s.recd.again = false →
    ∃ t, exec .flushEnd s = .next t ∧ t.recd.buffer = s.recd.buffer.drop n ∧ t.recd.flushing = none ∧
      t.recd.flushes = s.recd.flushes + 1 ∧ t.recd.next = s.recd.next ∧
      (s.dawn.shutdown = 1 → t.dawn.shutdown = 2 ∧ t.health.silent = true) ∧
      ∀ x ∈ s.recd.buffer.take n, x.readable t.recd.oldest = true → x ∈ t.recd.flash)) ∧
  ((∀ s : State, s.health.widened = true →
    (4096 ≤ s.health.firstUse → ∃ t, exec .firstUseEnd s = .next t ∧ t = { s with health := { s.health with widened := false } }) ∧
    (s.health.firstUse < 4096 → exec .firstUseEnd s = .next s)) ∧
  (∀ s : State, s.housekeeping = true → s.dawn.step ≠ 0 →
    ∃ t, exec .hoursSave s = .next t ∧ t.dawn.hours = s.dawn.hours + 4096 ∧ t.dawn.hoursSaved = s.dawn.hours + 4096 ∧
      t.health.firstSaved = s.health.firstUse ∧ t.parts = s.parts ∧ t.recd = s.recd ∧ FlashCls.counts ∈ t.mgmt.fqueue) ∧
  (∀ (i : TapInstr) (s : State), s.power.rails = true →
    ((i = .bypass ∨ i = .idcode) → exec (.tapInstruction i) s =
      .next { s with mgmt := { s.mgmt with tap := i, tapData := if i = .idcode then idcodeWord else 0 } }) ∧
    ((i = .samplePreload ∨ i = .extest ∨ i = .highz ∨ ∃ image, i = .recover image) →
      (s.mgmt.boot.stopped = true → ∃ t, exec (.tapInstruction i) s = .next t ∧ t.mgmt.tap = i ∧ t.dawn = s.dawn) ∧
      (s.mgmt.boot.stopped = false →
        exec (.tapInstruction i) s = .next { s with mgmt := { s.mgmt with tap := .bypass, tapData := 0 } }))))

/-- Reset and the start of Dawn (R497, R513, R520, R521): RESET_N empties the scratchpad, the stacks, the accounts and the pending
records and keeps flash, where a flush that is due lands first; Dawn starts with its first step and the hours saved plus 1/16 h, and a
cold one counts a power cycle. The steps of Dawn (R513-R519): each completes after the one before it and by its own condition; failed
trip tests stop Dawn at step 3; step 4 puts the address and dimension for this Dawn in force and leaves a flagged device flagged; step 6
waits for its links and frame lock, step 9 for the partner; step 11 is service, and no step follows it; steps that run again because
frame lock was lost in service (R438) leave Ledger, partitions and windows as they stand, which is log entry 129's reading. A frame lock
that does not come repeats step 6; the Ledger partner's retry is recorded once. -/
def Obligations.ResetAndDawnStepsInOrder : Prop :=
  ((∀ s : State, s.power.rails = true →
    ∃ t, exec .resetAssertion s = .next t ∧ t.power.resetPin = true ∧ t.alive = false ∧ t.dawn.step = 0 ∧ t.spad = [] ∧
      t.mem.data = [] ∧ t.accts = [] ∧ t.recd.buffer = [] ∧
      (s.flushDue = false → s.recd.flushing = none → t.recd.flash = s.recd.flash ∧ t.recd.next = s.recd.next) ∧
      (s.flushDue = true → s.recd.flushing = none →
        ∀ x ∈ s.recd.buffer, x.readable t.recd.oldest = true → x ∈ t.recd.flash) ∧
      t.dawn.hoursSaved = s.dawn.hoursSaved) ∧
  (∀ s : State, s.dawn.step = 0 → s.dawn.request ≠ 1 →
    ∃ t, exec .dawnStart s = .next t ∧ t.dawn.step = 1 ∧ t.power.resetPin = false ∧ t.dawn.warm = false ∧
      t.dawn.cycles = bump32 s.dawn.cycles ∧ t.dawn.hours = s.dawn.hoursSaved + 4096 ∧ t.recd = s.recd) ∧
  (∀ s : State, s.dawn.step = 0 → s.dawn.request = 1 →
    ∃ t, exec .dawnStart s = .next t ∧ t.dawn.step = 1 ∧ t.dawn.warm = true ∧ t.dawn.cycles = s.dawn.cycles ∧
      t.dawn.hours = s.dawn.hoursSaved + 4096 ∧ t.spad = s.spad ∧ t.mem = s.mem)) ∧
  ((∀ (d : DawnIn) (s : State), s.alive = true → s.dawn.stopped = false → s.health.st < 3 → s.power.tripped = false →
    (s.dawn.step = 1 → ∃ t, exec (.dawnStepComplete d) s = .next t ∧ t.dawn.step = 2 ∧ t.power.pll = true) ∧
    (s.dawn.step = 2 → d.trips = 3 → ∀ b, s.mgmt.boot.load d.bootTorn = some b →
      slotGood (dawnSlot d b.choose.2) b.choose.1 = true →
      ∃ t, exec (.dawnStepComplete d) s = .next t ∧ t.dawn.step = 3 ∧ t.mgmt.boot.running = b.choose.2 ∧
        t.mgmt.boot.fwDigest = (dawnSlot d b.choose.2).digest ∧ t.mgmt.wdOn = true ∧ t.power.trips = 3) ∧
    (s.dawn.step = 2 → d.trips = 3 → ∀ b, s.mgmt.boot.load d.bootTorn = some b →
      slotGood (dawnSlot d b.choose.2) b.choose.1 = false → slotGood (dawnSlot d (1 - b.choose.2)) b.choose.1 = false →
      ∃ t, exec (.dawnStepComplete d) s = .next t ∧ t.dawn.step = 2 ∧ t.dawn.stopped = true ∧ t.mgmt.boot.stopped = true) ∧
    (s.dawn.step = 2 → d.trips ≠ 3 → ∃ t, exec (.dawnStepComplete d) s = .next t ∧ t.dawn.step = 2 ∧ t.dawn.stopped = true ∧
      t.power.trips = d.trips) ∧
    (s.dawn.step = 3 → ∃ t, exec (.dawnStepComplete d) s = .next t ∧ t.dawn.step = 4 ∧ t.dict.n = s.dict.nNext ∧
      t.dict.addr = s.dict.addrNext ∧ t.mgmt.entropy = d.entropyOk ∧ t.power.tables = d.tables ∧
      t.health.st = (if s.health.flag && !s.health.clearing then 4 else 0)) ∧
    (s.dawn.step = 4 → d.stacksOk = BitVec.allOnes 16 → s.dawn.warm = false → s.mgmt.entropy = true →
      ∃ t, exec (.dawnStepComplete d) s = .next t ∧ t.dawn.step = 5 ∧ t.mem.data = [] ∧ t.mem.written = []) ∧
    (s.dawn.step = 5 → (s.linksReady = true → ∃ t, exec (.dawnStepComplete d) s = .next t ∧ t.dawn.step = 6) ∧
      (s.linksReady = false → exec (.dawnStepComplete d) s = .next s)) ∧
    (s.dawn.step = 6 → s.power.tdie.isSome = true → ∃ t, exec (.dawnStepComplete d) s = .next t ∧ t.dawn.step = 7) ∧
    (s.dawn.step = 7 → ∃ t, exec (.dawnStepComplete d) s = .next t ∧ t.dawn.step = 8) ∧
    (s.dawn.step = 8 → (d.partner = true → ∃ t, exec (.dawnStepComplete d) s = .next t ∧ t.dawn.step = 9 ∧
      (s.dawn.regain = false → d.covers = true → t.ledger.mode = 2) ∧
      (s.dawn.regain = true → t.ledger = s.ledger ∧ t.accts = s.accts)) ∧
      (d.partner = false → exec (.dawnStepComplete d) s = .next s)) ∧
    (s.dawn.step = 9 → ∃ t, exec (.dawnStepComplete d) s = .next t ∧ t.dawn.step = 10 ∧
      (s.dawn.regain = false → s.dawn.warm = false → ∀ p, (t.part p).st = .free) ∧
      (s.dawn.regain = true → t.parts = s.parts ∧ t.tiles = s.tiles)) ∧
    (s.dawn.step = 10 → ∃ t, exec (.dawnStepComplete d) s = .next t ∧ t.dawn.step = 11 ∧ t.dawn.regain = false ∧
      (s.dawn.regain = false → t.dawn.served = true ∧ t.host.windows = []) ∧
      (s.dawn.regain = true → t.host = s.host)) ∧
    (11 ≤ s.dawn.step → exec (.dawnStepComplete d) s = .next s)) ∧
  (∀ s : State, s.alive = true → s.dawn.step = 5 → s.fu.lock = false → s.fu.acting = false →
    ∃ t, exec .frameLockTimeout s = .next t ∧ t.dawn.step = 5 ∧ t.dawn.stopped = true ∧ t.dawn.repeats = s.dawn.repeats + 1 ∧
      ∀ l, l < 11 → s.linkUsed l = true → (t.link l).st = .training ∧ (t.link l).stage = 0) ∧
  (∀ s : State, s.alive = true → s.dawn.step = 8 →
    (s.ledger.waited = false → ∃ t, exec .ledgerPartnerRetry s = .next t ∧ t.ledger = { s.ledger with waited := true } ∧
      t.dawn = s.dawn) ∧
    (s.ledger.waited = true → exec .ledgerPartnerRetry s = .next s)))

/-! ## The object dictionary -/

/-- Subindex 0 of every index is a U8, RO entry that holds the highest subindex in use; an index that is not implemented, and a subindex
above that value or not listed, answers 0x01, no such entry, to a read and to a write alike (R475, R487). -/
def Obligations.SubindexZeroAndMissingEntries : Prop :=
  (∀ index : Nat, entriesOf index ≠ [] →
    (∃ e, findEntry index 0 = some e ∧ e.type = .u8 ∧ e.access = .ro) ∧
    (∀ (s : State) (u : UoaSess), s.dictRead u index 0 = .num (highestSub index)) ∧
    (∃ e ∈ entriesOf index, e.sub = highestSub index) ∧ ∀ e ∈ entriesOf index, e.sub ≤ highestSub index) ∧
  (∀ index sub : Nat, entriesOf index = [] → findEntry index sub = none) ∧
  (∀ index sub : Nat, sub ≠ 0 → (∀ e ∈ entriesOf index, e.sub ≠ sub) → findEntry index sub = none) ∧
  (∀ (r : ReadItem) (s : State) (u : UoaSess), findEntry r.index.toNat r.sub.toNat = none →
    (s.readItem u r).1 = s ∧ (s.readItem u r).2.status = 0x01 ∧ (s.readItem u r).2.value = none) ∧
  (∀ (m : UoaMsg) (i : Item) (eff : Effect) (s : State) (u : UoaSess), s.firmware = true → s.recorderFull i = false →
    findEntry i.index i.sub = none → (s.tryItem m u i eff).2.status = (if s.power.failed then 0x09 else 0x01))
end

