-- ==== Sys2Proof/Laws/Map.lean ====
section
/-! SUPPORT. The laws of maps by number: what a read gives after a write, and that every operation keeps the canonical form. -/

namespace Sys2Proof.Machine

variable {α : Type}

/-- Every key of a list of pairs is greater than `n`. -/
def SMap.above (n : Nat) (m : SMap α) : Prop := ∀ p ∈ m, n < p.1

theorem SMap.rising_cons (p : Nat × α) (m : SMap α) : SMap.rising (p :: m) = true ↔ SMap.above p.1 m ∧ SMap.rising m = true := by
  induction m generalizing p with
  | nil => simp [SMap.rising, SMap.above]
  | cons q t ih =>
    simp only [SMap.rising, Bool.and_eq_true, decide_eq_true_eq, SMap.above, List.mem_cons, forall_eq_or_imp]
    constructor
    · rintro ⟨h, r⟩
      exact ⟨⟨h, fun x hx => lt_trans h (((ih q).1 r).1 x hx)⟩, r⟩
    · rintro ⟨⟨h, _⟩, r⟩
      exact ⟨h, r⟩

/-- Taking pairs out keeps keys rising. -/
theorem SMap.rising_filter (f : Nat × α → Bool) (m : SMap α) (h : SMap.rising m = true) : SMap.rising (m.filter f) = true := by
  induction m with
  | nil => rfl
  | cons p t ih =>
    obtain ⟨ha, hr⟩ := (SMap.rising_cons p t).1 h
    simp only [List.filter_cons]
    split
    · exact (SMap.rising_cons _ _).2 ⟨fun x hx => ha x (List.mem_filter.1 hx).1, ih hr⟩
    · exact ih hr

/-- Changing values in place keeps keys rising. -/
theorem SMap.rising_map {β : Type} (f : Nat → α → β) (m : SMap α) (h : SMap.rising m = true) :
    SMap.rising (m.map (fun p => (p.1, f p.1 p.2))) = true := by
  induction m with
  | nil => rfl
  | cons p t ih =>
    obtain ⟨ha, hr⟩ := (SMap.rising_cons p t).1 h
    refine (SMap.rising_cons _ _).2 ⟨?_, ih hr⟩
    intro x hx
    obtain ⟨y, hy, rfl⟩ := List.mem_map.1 hx
    exact ha y hy

theorem SMap.mem_put (m : SMap α) (n : Nat) (v : α) (x : Nat × α) : x ∈ SMap.put m n v ↔ x = (n, v) ∨ x ∈ m := by
  induction m with
  | nil => simp [SMap.put]
  | cons p t ih =>
    simp only [SMap.put]
    split
    · simp
    · simp only [List.mem_cons, ih]
      tauto

/-- A new key is put in its place. -/
theorem SMap.rising_put (m : SMap α) (n : Nat) (v : α) (h : SMap.rising m = true) (hn : ∀ p ∈ m, p.1 ≠ n) :
    SMap.rising (SMap.put m n v) = true := by
  induction m with
  | nil => rfl
  | cons p t ih =>
    obtain ⟨ha, hr⟩ := (SMap.rising_cons p t).1 h
    simp only [SMap.put]
    split
    · rename_i hlt
      refine (SMap.rising_cons _ _).2 ⟨?_, h⟩
      intro x hx
      rcases List.mem_cons.1 hx with rfl | hx
      · exact hlt
      · exact lt_trans hlt (ha x hx)
    · rename_i hge
      refine (SMap.rising_cons _ _).2 ⟨?_, ih hr (fun q hq => hn q (List.mem_cons_of_mem _ hq))⟩
      intro x hx
      rcases (SMap.mem_put t n v x).1 hx with rfl | hx
      · exact lt_of_le_of_ne (Nat.le_of_not_lt hge) (hn p List.mem_cons_self)
      · exact ha x hx

variable [DecidableEq α]

theorem SMap.wf_iff (d : α) (m : SMap α) : SMap.wf d m = true ↔ SMap.rising m = true ∧ ∀ p ∈ m, p.2 ≠ d := by
  simp [SMap.wf]

/-- The empty map is canonical. -/
@[simp] theorem SMap.wf_nil (d : α) : SMap.wf d [] = true := rfl

/-- Taking pairs out keeps the canonical form. -/
theorem SMap.wf_filter (d : α) (m : SMap α) (f : Nat × α → Bool) (h : SMap.wf d m = true) : SMap.wf d (m.filter f) = true := by
  rw [SMap.wf_iff] at *
  exact ⟨SMap.rising_filter f m h.1, fun p hp => h.2 p (List.mem_filter.1 hp).1⟩

/-- A write keeps the canonical form. -/
theorem SMap.wf_set (d : α) (m : SMap α) (n : Nat) (v : α) (h : SMap.wf d m = true) : SMap.wf d (SMap.set m d n v) = true := by
  have hd : SMap.wf d (SMap.drop m n) = true := SMap.wf_filter d m _ h
  simp only [SMap.set]
  split
  · exact hd
  · rename_i hv
    rw [SMap.wf_iff] at hd ⊢
    refine ⟨SMap.rising_put _ n v hd.1 ?_, ?_⟩
    · intro p hp
      simpa using (List.mem_filter.1 hp).2
    · intro p hp
      rcases (SMap.mem_put _ n v p).1 hp with rfl | hp
      · exact hv
      · exact hd.2 p hp

/-- A change of one value keeps the canonical form. -/
theorem SMap.wf_upd (d : α) (m : SMap α) (n : Nat) (f : α → α) (h : SMap.wf d m = true) : SMap.wf d (SMap.upd m d n f) = true :=
  SMap.wf_set d m n _ h

/-- A change of every value keeps the canonical form. -/
theorem SMap.wf_mapVals (d : α) (m : SMap α) (f : Nat → α → α) (h : SMap.wf d m = true) :
    SMap.wf d (SMap.mapVals m d f) = true := by
  rw [SMap.wf_iff] at *
  refine ⟨SMap.rising_filter _ _ (SMap.rising_map f m h.1), fun p hp => ?_⟩
  simpa using (List.mem_filter.1 hp).2

omit [DecidableEq α] in
/-- A read finds nothing among pairs without its key. -/
theorem SMap.get_none (m : SMap α) (d : α) (n : Nat) (h : ∀ p ∈ m, p.1 ≠ n) : SMap.get m d n = d := by
  induction m with
  | nil => rfl
  | cons p t ih =>
    simp only [SMap.get]
    rw [if_neg (h p List.mem_cons_self)]
    exact ih (fun q hq => h q (List.mem_cons_of_mem _ hq))

omit [DecidableEq α] in
theorem SMap.get_drop_same (m : SMap α) (d : α) (n : Nat) : SMap.get (SMap.drop m n) d n = d :=
  SMap.get_none _ d n (fun p hp => by simpa using (List.mem_filter.1 hp).2)

omit [DecidableEq α] in
theorem SMap.get_drop_other (m : SMap α) (d : α) (n k : Nat) (h : k ≠ n) : SMap.get (SMap.drop m n) d k = SMap.get m d k := by
  induction m with
  | nil => rfl
  | cons p t ih =>
    simp only [SMap.drop, List.filter_cons] at ih ⊢
    by_cases hp : p.1 = n
    · simp only [hp, ne_eq, not_true_eq_false, decide_false, Bool.false_eq_true, if_false, SMap.get]
      rw [if_neg (fun e => h e.symm)]
      exact ih
    · simp only [hp, ne_eq, not_false_eq_true, decide_true, if_true, SMap.get]
      split
      · rfl
      · exact ih

omit [DecidableEq α] in
theorem SMap.get_put_same (m : SMap α) (d : α) (n : Nat) (v : α) (h : ∀ p ∈ m, p.1 ≠ n) : SMap.get (SMap.put m n v) d n = v := by
  induction m with
  | nil => simp [SMap.put, SMap.get]
  | cons p t ih =>
    simp only [SMap.put]
    split
    · simp [SMap.get]
    · simp only [SMap.get]
      rw [if_neg (h p List.mem_cons_self)]
      exact ih (fun q hq => h q (List.mem_cons_of_mem _ hq))

omit [DecidableEq α] in
theorem SMap.get_put_other (m : SMap α) (d : α) (n k : Nat) (v : α) (h : k ≠ n) : SMap.get (SMap.put m n v) d k = SMap.get m d k := by
  induction m with
  | nil => simp [SMap.put, SMap.get, Ne.symm h]
  | cons p t ih =>
    simp only [SMap.put]
    split
    · simp [SMap.get, Ne.symm h]
    · simp only [SMap.get]
      split
      · rfl
      · exact ih

/-- A read of the key just written gives the value written. -/
@[simp] theorem SMap.get_set_same (m : SMap α) (d : α) (n : Nat) (v : α) : SMap.get (SMap.set m d n v) d n = v := by
  simp only [SMap.set]
  split
  · rename_i h
    rw [SMap.get_drop_same, h]
  · exact SMap.get_put_same _ d n v (fun p hp => by simpa using (List.mem_filter.1 hp).2)

/-- A write leaves every other key alone. -/
theorem SMap.get_set_other (m : SMap α) (d : α) (n k : Nat) (v : α) (h : k ≠ n) : SMap.get (SMap.set m d n v) d k = SMap.get m d k := by
  simp only [SMap.set]
  split
  · exact SMap.get_drop_other m d n k h
  · rw [SMap.get_put_other _ d n k v h, SMap.get_drop_other m d n k h]

/-- A read of any key after a write. -/
theorem SMap.get_set (m : SMap α) (d : α) (n k : Nat) (v : α) :
    SMap.get (SMap.set m d n v) d k = if k = n then v else SMap.get m d k := by
  split
  · rename_i h
    rw [h, SMap.get_set_same]
  · rename_i h
    exact SMap.get_set_other m d n k v h

/-- A read of any key after a change of one. -/
theorem SMap.get_upd (m : SMap α) (d : α) (n k : Nat) (f : α → α) :
    SMap.get (SMap.upd m d n f) d k = if k = n then f (SMap.get m d n) else SMap.get m d k := SMap.get_set m d n k _

/-- A read after every value of a canonical map was changed. -/
theorem SMap.get_mapVals (m : SMap α) (d : α) (f : Nat → α → α) (k : Nat) (h : SMap.rising m = true) (hd : f k d = d) :
    SMap.get (SMap.mapVals m d f) d k = f k (SMap.get m d k) := by
  induction m with
  | nil => exact hd.symm
  | cons p t ih =>
    obtain ⟨ha, hr⟩ := (SMap.rising_cons p t).1 h
    have hn : p.1 = k → ∀ q ∈ SMap.mapVals t d f, q.1 ≠ k := by
      intro e q hq
      obtain ⟨y, hy, rfl⟩ := List.mem_map.1 (List.mem_filter.1 hq).1
      have := ha y hy
      exact fun e2 => by simp only at e2; omega
    by_cases hk : p.1 = k
    · simp only [SMap.mapVals, List.map_cons, List.filter_cons, SMap.get, if_pos hk]
      split
      · simp [SMap.get, hk]
      · rename_i hz
        rw [show (List.filter (fun p => decide (p.2 ≠ d)) (List.map (fun p => (p.1, f p.1 p.2)) t)) = SMap.mapVals t d f from rfl,
          SMap.get_none _ d k (hn hk)]
        simpa [hk] using (eq_comm.1 (by simpa using hz : f p.1 p.2 = d))
    · simp only [SMap.mapVals, List.map_cons, List.filter_cons, SMap.get, if_neg hk]
      split
      · simp only [SMap.get, if_neg hk]
        exact ih hr
      · exact ih hr

/-- A map from a list of values is canonical. -/
theorem SMap.wf_ofList (d : α) (l : List α) : SMap.wf d (SMap.ofList d l) = true := by
  rw [SMap.wf_iff]
  constructor
  · refine SMap.rising_filter _ _ ?_
    have key : ∀ (l : List α) (n : Nat), SMap.rising ((l.zipIdx n).map (fun p => (p.2, p.1))) = true ∧
        SMap.above (n - 1 + 0) ((l.zipIdx (n + 0)).map (fun p => (p.2 + 1, p.1))) := by
      intro l
      induction l with
      | nil => intro n; exact ⟨rfl, fun p hp => by simp at hp⟩
      | cons a t ih =>
        intro n
        refine ⟨?_, ?_⟩
        · simp only [List.zipIdx_cons, List.map_cons]
          refine (SMap.rising_cons _ _).2 ⟨?_, (ih (n + 1)).1⟩
          intro x hx
          obtain ⟨y, hy, rfl⟩ := List.mem_map.1 hx
          have := List.le_snd_of_mem_zipIdx hy
          simp only
          omega
        · intro x hx
          obtain ⟨y, hy, rfl⟩ := List.mem_map.1 hx
          have := List.le_snd_of_mem_zipIdx hy
          simp only
          omega
    exact (key l 0).1
  · intro p hp
    simpa using (List.mem_filter.1 hp).2

end Sys2Proof.Machine
end

