-- ==== Sys2Proof/Laws/Cells.lean ====
section
/-! SUPPORT. The laws of byte memories: what a byte reads as after a write, and that every operation keeps the canonical form; and of
the CRC over a byte string. -/

namespace Sys2Proof.Machine

/-- A byte memory is a map by address whose default is the zero byte. -/
theorem Cells.wf_eq (m : Cells) : Cells.wf m = SMap.wf (0 : Byte) m := by
  have : ∀ m : Cells, Cells.rising m = SMap.rising m := by
    intro m
    induction m with
    | nil => rfl
    | cons p t ih =>
      cases t with
      | nil => rfl
      | cons q t => simp only [Cells.rising, SMap.rising, ih]
  simp only [Cells.wf, SMap.wf, this]

theorem Cells.get_eq (m : Cells) (a : Nat) : Cells.get m a = SMap.get m 0 a := by
  induction m with
  | nil => rfl
  | cons p t ih => simp only [Cells.get, SMap.get, ih]

/-- The empty memory is canonical. -/
@[simp] theorem Cells.wf_nil : Cells.wf [] = true := rfl

/-- Taking bytes out keeps the canonical form. -/
@[simp] theorem Cells.wf_filter (m : Cells) (f : Host.Cell → Bool) (h : Cells.wf m = true) : Cells.wf (m.filter f) = true := by
  rw [Cells.wf_eq] at *
  exact SMap.wf_filter 0 m f h

/-- Clearing a run keeps the canonical form. -/
@[simp] theorem Cells.wf_clear (m : Cells) (base n : Nat) (h : Cells.wf m = true) : Cells.wf (Cells.clear m base n) = true :=
  Cells.wf_filter m _ h

theorem Cells.run_bounds (base : Nat) (bs : List Byte) : ∀ p ∈ Cells.run base bs, base ≤ p.1 ∧ p.1 < base + bs.length := by
  induction bs generalizing base with
  | nil => intro p hp; simp [Cells.run] at hp
  | cons b t ih =>
    intro p hp
    simp only [Cells.run] at hp
    split at hp
    · have := ih (base + 1) p hp
      simp only [List.length_cons]
      omega
    · rcases List.mem_cons.1 hp with rfl | hp
      · simp
      · have := ih (base + 1) p hp
        simp only [List.length_cons]
        omega

theorem Cells.run_wf (base : Nat) (bs : List Byte) : SMap.wf (0 : Byte) (Cells.run base bs) = true := by
  induction bs generalizing base with
  | nil => rfl
  | cons b t ih =>
    simp only [Cells.run]
    split
    · exact ih (base + 1)
    · rename_i hb
      have := (SMap.wf_iff 0 _).1 (ih (base + 1))
      refine (SMap.wf_iff 0 _).2 ⟨(SMap.rising_cons _ _).2 ⟨fun p hp => ?_, this.1⟩, ?_⟩
      · have := (Cells.run_bounds (base + 1) t p hp).1
        simp only
        omega
      · intro p hp
        rcases List.mem_cons.1 hp with rfl | hp
        · exact hb
        · exact this.2 p hp

theorem SMap.rising_append {α : Type} (a b : SMap α) (ha : SMap.rising a = true) (hb : SMap.rising b = true)
    (h : ∀ p ∈ a, ∀ q ∈ b, p.1 < q.1) : SMap.rising (a ++ b) = true := by
  induction a with
  | nil => exact hb
  | cons p t ih =>
    obtain ⟨h1, h2⟩ := (SMap.rising_cons p t).1 ha
    refine (SMap.rising_cons _ _).2 ⟨?_, ih h2 (fun x hx => h x (List.mem_cons_of_mem _ hx))⟩
    intro x hx
    rcases List.mem_append.1 hx with hx | hx
    · exact h1 x hx
    · exact h p List.mem_cons_self x hx

/-- A write keeps the canonical form. -/
@[simp] theorem Cells.wf_write (m : Cells) (base : Nat) (bs : List Byte) (h : Cells.wf m = true) :
    Cells.wf (Cells.write m base bs) = true := by
  rw [Cells.wf_eq] at *
  have hl := (SMap.wf_iff 0 _).1 (SMap.wf_filter 0 m (fun p => decide (p.1 < base)) h)
  have hr := (SMap.wf_iff 0 _).1 (SMap.wf_filter 0 m (fun p => decide (base + bs.length ≤ p.1)) h)
  have hm := (SMap.wf_iff 0 _).1 (Cells.run_wf base bs)
  refine (SMap.wf_iff 0 _).2 ⟨?_, ?_⟩
  · refine SMap.rising_append _ _ (SMap.rising_append _ _ hl.1 hm.1 ?_) hr.1 ?_
    · intro p hp q hq
      have h1 := (List.mem_filter.1 hp).2
      have h2 := (Cells.run_bounds base bs q hq).1
      simp only [decide_eq_true_eq] at h1
      omega
    · intro p hp q hq
      have h2 := (List.mem_filter.1 hq).2
      simp only [decide_eq_true_eq] at h2
      rcases List.mem_append.1 hp with hp | hp
      · have h1 := (List.mem_filter.1 hp).2
        simp only [decide_eq_true_eq] at h1
        omega
      · have h1 := (Cells.run_bounds base bs p hp).2
        omega
  · intro p hp
    rcases List.mem_append.1 hp with hp | hp
    · rcases List.mem_append.1 hp with hp | hp
      · exact hl.2 p hp
      · exact hm.2 p hp
    · exact hr.2 p hp

theorem SMap.get_append {α : Type} (a b : SMap α) (d : α) (n : Nat) (h : ∀ p ∈ b, p.1 ≠ n) : SMap.get (a ++ b) d n = SMap.get a d n := by
  induction a with
  | nil =>
    induction b with
    | nil => rfl
    | cons p t ih =>
      simp only [List.nil_append, SMap.get] at ih ⊢
      rw [if_neg (h p List.mem_cons_self)]
      exact ih (fun q hq => h q (List.mem_cons_of_mem _ hq))
  | cons p t ih =>
    simp only [List.cons_append, SMap.get]
    split
    · rfl
    · exact ih

theorem SMap.get_append_right {α : Type} (a b : SMap α) (d : α) (n : Nat) (h : ∀ p ∈ a, p.1 ≠ n) : SMap.get (a ++ b) d n = SMap.get b d n := by
  induction a with
  | nil => rfl
  | cons p t ih =>
    simp only [List.cons_append, SMap.get]
    rw [if_neg (h p List.mem_cons_self)]
    exact ih (fun q hq => h q (List.mem_cons_of_mem _ hq))

theorem SMap.get_filter {α : Type} (m : SMap α) (d : α) (n : Nat) (f : Nat → Bool) (h : f n = true) :
    SMap.get (m.filter (fun p => f p.1)) d n = SMap.get m d n := by
  induction m with
  | nil => rfl
  | cons p t ih =>
    simp only [List.filter_cons, SMap.get]
    by_cases hp : p.1 = n
    · simp [hp, h, SMap.get]
    · split
      · simp [SMap.get, hp, ih]
      · simp [ih]

theorem Cells.get_run (base : Nat) (bs : List Byte) (i : Nat) (h : i < bs.length) :
    SMap.get (Cells.run base bs) 0 (base + i) = bs.getD i 0 := by
  induction bs generalizing base i with
  | nil => simp at h
  | cons b t ih =>
    simp only [Cells.run]
    cases i with
    | zero =>
      split
      · rename_i hb
        have : SMap.get (Cells.run (base + 1) t) 0 (base + 0) = 0 := by
          have hn : ∀ p ∈ Cells.run (base + 1) t, p.1 ≠ base := by
            intro p hp
            have := (Cells.run_bounds (base + 1) t p hp).1
            omega
          exact SMap.get_none _ 0 base hn
        simpa [hb] using this
      · simp [SMap.get]
    | succ i =>
      have e : base + (i + 1) = base + 1 + i := by omega
      have hi : i < t.length := by simpa using h
      split
      · rw [e, ih (base + 1) i hi]; simp
      · simp only [SMap.get]
        rw [if_neg (by omega), e, ih (base + 1) i hi]; simp

/-- A byte read inside the run just written. -/
theorem Cells.get_write_in (m : Cells) (base : Nat) (bs : List Byte) (i : Nat) (h : i < bs.length) :
    Cells.get (Cells.write m base bs) (base + i) = bs.getD i 0 := by
  rw [Cells.get_eq, Cells.write, SMap.get_append, SMap.get_append_right, Cells.get_run base bs i h]
  · intro p hp
    have := (List.mem_filter.1 hp).2
    simp only [decide_eq_true_eq] at this
    omega
  · intro p hp
    have := (List.mem_filter.1 hp).2
    simp only [decide_eq_true_eq] at this
    omega

/-- A write leaves every byte outside its run alone. -/
theorem Cells.get_write_out (m : Cells) (base : Nat) (bs : List Byte) (a : Nat) (h : a < base ∨ base + bs.length ≤ a) :
    Cells.get (Cells.write m base bs) a = Cells.get m a := by
  rw [Cells.get_eq, Cells.get_eq, Cells.write]
  have hrun : ∀ p ∈ Cells.run base bs, p.1 ≠ a := by
    intro p hp
    have := Cells.run_bounds base bs p hp
    omega
  rcases h with h | h
  · rw [SMap.get_append, SMap.get_append _ _ _ _ hrun]
    · exact SMap.get_filter m 0 a (fun n => decide (n < base)) (by simpa using h)
    · intro p hp
      have := (List.mem_filter.1 hp).2
      simp only [decide_eq_true_eq] at this
      omega
  · rw [List.append_assoc, SMap.get_append_right, SMap.get_append_right _ _ _ _ hrun]
    · exact SMap.get_filter m 0 a (fun n => decide (base + bs.length ≤ n)) (by simpa using h)
    · intro p hp
      have := (List.mem_filter.1 hp).2
      simp only [decide_eq_true_eq] at this
      omega

/-- A byte of a cleared run reads as zero; every other byte is left alone. -/
theorem Cells.get_clear (m : Cells) (base n a : Nat) :
    Cells.get (Cells.clear m base n) a = if base ≤ a ∧ a < base + n then 0 else Cells.get m a := by
  rw [Cells.get_eq, Cells.get_eq, Cells.clear]
  split
  · apply SMap.get_none
    intro p hp
    have := (List.mem_filter.1 hp).2
    simp only [decide_eq_true_eq] at this
    omega
  · exact SMap.get_filter m 0 a (fun k => decide (k < base ∨ base + n ≤ k)) (by simp only [decide_eq_true_eq]; omega)

/-- The CRC register takes one byte after the other. -/
theorem crcRun_cons (b : Byte) (t : List Byte) (c : W32) : crcRun (b :: t) c = crcRun t (crcBits 8 (c ^^^ b.setWidth 32)) := by
  have key : ∀ x : W32, BitVec.ofNat 32 x.toNat = x := fun x => by simp
  generalize h : crcBits 8 (c ^^^ b.setWidth 32) = x
  simp only [crcRun, h]
  split <;> rename_i e <;> have k := key x <;> rw [e] at k <;> subst k <;> rfl

end Sys2Proof.Machine
end

