-- ==== Sys2Proof/Laws/State.lean ====
section
/-! SUPPORT. What each named update of the State leaves and writes, field by field: every lemma holds by definition. -/

namespace Sys2Proof.Machine

variable (s : State)

@[simp] theorem State.freed_pending : s.freed.pending = s.pending := rfl
@[simp] theorem State.freed_free : s.freed.free = s.free + 1 := rfl
@[simp] theorem State.freed_arrays : s.freed.arrays = s.arrays := rfl
@[simp] theorem State.freed_tiles : s.freed.tiles = s.tiles := rfl
@[simp] theorem State.freed_spad : s.freed.spad = s.spad := rfl
@[simp] theorem State.freed_mesh : s.freed.mesh = s.mesh := rfl
@[simp] theorem State.freed_mem : s.freed.mem = s.mem := rfl
@[simp] theorem State.freed_parts : s.freed.parts = s.parts := rfl
@[simp] theorem State.freed_accts : s.freed.accts = s.accts := rfl
@[simp] theorem State.freed_ledger : s.freed.ledger = s.ledger := rfl
@[simp] theorem State.freed_links : s.freed.links = s.links := rfl
@[simp] theorem State.freed_fu : s.freed.fu = s.fu := rfl
@[simp] theorem State.freed_host : s.freed.host = s.host := rfl
@[simp] theorem State.freed_health : s.freed.health = s.health := rfl
@[simp] theorem State.freed_mods : s.freed.mods = s.mods := rfl
@[simp] theorem State.freed_power : s.freed.power = s.power := rfl
@[simp] theorem State.freed_mgmt : s.freed.mgmt = s.mgmt := rfl
@[simp] theorem State.freed_dict : s.freed.dict = s.dict := rfl
@[simp] theorem State.freed_recd : s.freed.recd = s.recd := rfl
@[simp] theorem State.freed_dawn : s.freed.dawn = s.dawn := rfl

@[simp] theorem State.setTile_pending (n : Nat) (v : Tile) : (s.setTile n v).pending = s.pending := rfl
@[simp] theorem State.setTile_free (n : Nat) (v : Tile) : (s.setTile n v).free = s.free := rfl
@[simp] theorem State.setTile_arrays (n : Nat) (v : Tile) : (s.setTile n v).arrays = s.arrays := rfl
@[simp] theorem State.setTile_tiles (n : Nat) (v : Tile) : (s.setTile n v).tiles = SMap.set s.tiles {} n v := rfl
@[simp] theorem State.setTile_spad (n : Nat) (v : Tile) : (s.setTile n v).spad = s.spad := rfl
@[simp] theorem State.setTile_mesh (n : Nat) (v : Tile) : (s.setTile n v).mesh = s.mesh := rfl
@[simp] theorem State.setTile_mem (n : Nat) (v : Tile) : (s.setTile n v).mem = s.mem := rfl
@[simp] theorem State.setTile_parts (n : Nat) (v : Tile) : (s.setTile n v).parts = s.parts := rfl
@[simp] theorem State.setTile_accts (n : Nat) (v : Tile) : (s.setTile n v).accts = s.accts := rfl
@[simp] theorem State.setTile_ledger (n : Nat) (v : Tile) : (s.setTile n v).ledger = s.ledger := rfl
@[simp] theorem State.setTile_links (n : Nat) (v : Tile) : (s.setTile n v).links = s.links := rfl
@[simp] theorem State.setTile_fu (n : Nat) (v : Tile) : (s.setTile n v).fu = s.fu := rfl
@[simp] theorem State.setTile_host (n : Nat) (v : Tile) : (s.setTile n v).host = s.host := rfl
@[simp] theorem State.setTile_health (n : Nat) (v : Tile) : (s.setTile n v).health = s.health := rfl
@[simp] theorem State.setTile_mods (n : Nat) (v : Tile) : (s.setTile n v).mods = s.mods := rfl
@[simp] theorem State.setTile_power (n : Nat) (v : Tile) : (s.setTile n v).power = s.power := rfl
@[simp] theorem State.setTile_mgmt (n : Nat) (v : Tile) : (s.setTile n v).mgmt = s.mgmt := rfl
@[simp] theorem State.setTile_dict (n : Nat) (v : Tile) : (s.setTile n v).dict = s.dict := rfl
@[simp] theorem State.setTile_recd (n : Nat) (v : Tile) : (s.setTile n v).recd = s.recd := rfl
@[simp] theorem State.setTile_dawn (n : Nat) (v : Tile) : (s.setTile n v).dawn = s.dawn := rfl

@[simp] theorem State.updTile_pending (n : Nat) (f : Tile → Tile) : (s.updTile n f).pending = s.pending := rfl
@[simp] theorem State.updTile_free (n : Nat) (f : Tile → Tile) : (s.updTile n f).free = s.free := rfl
@[simp] theorem State.updTile_arrays (n : Nat) (f : Tile → Tile) : (s.updTile n f).arrays = s.arrays := rfl
@[simp] theorem State.updTile_tiles (n : Nat) (f : Tile → Tile) : (s.updTile n f).tiles = SMap.set s.tiles {} n (f (SMap.get s.tiles {} n)) := rfl
@[simp] theorem State.updTile_spad (n : Nat) (f : Tile → Tile) : (s.updTile n f).spad = s.spad := rfl
@[simp] theorem State.updTile_mesh (n : Nat) (f : Tile → Tile) : (s.updTile n f).mesh = s.mesh := rfl
@[simp] theorem State.updTile_mem (n : Nat) (f : Tile → Tile) : (s.updTile n f).mem = s.mem := rfl
@[simp] theorem State.updTile_parts (n : Nat) (f : Tile → Tile) : (s.updTile n f).parts = s.parts := rfl
@[simp] theorem State.updTile_accts (n : Nat) (f : Tile → Tile) : (s.updTile n f).accts = s.accts := rfl
@[simp] theorem State.updTile_ledger (n : Nat) (f : Tile → Tile) : (s.updTile n f).ledger = s.ledger := rfl
@[simp] theorem State.updTile_links (n : Nat) (f : Tile → Tile) : (s.updTile n f).links = s.links := rfl
@[simp] theorem State.updTile_fu (n : Nat) (f : Tile → Tile) : (s.updTile n f).fu = s.fu := rfl
@[simp] theorem State.updTile_host (n : Nat) (f : Tile → Tile) : (s.updTile n f).host = s.host := rfl
@[simp] theorem State.updTile_health (n : Nat) (f : Tile → Tile) : (s.updTile n f).health = s.health := rfl
@[simp] theorem State.updTile_mods (n : Nat) (f : Tile → Tile) : (s.updTile n f).mods = s.mods := rfl
@[simp] theorem State.updTile_power (n : Nat) (f : Tile → Tile) : (s.updTile n f).power = s.power := rfl
@[simp] theorem State.updTile_mgmt (n : Nat) (f : Tile → Tile) : (s.updTile n f).mgmt = s.mgmt := rfl
@[simp] theorem State.updTile_dict (n : Nat) (f : Tile → Tile) : (s.updTile n f).dict = s.dict := rfl
@[simp] theorem State.updTile_recd (n : Nat) (f : Tile → Tile) : (s.updTile n f).recd = s.recd := rfl
@[simp] theorem State.updTile_dawn (n : Nat) (f : Tile → Tile) : (s.updTile n f).dawn = s.dawn := rfl

@[simp] theorem State.setArray_pending (n : Nat) (v : ArrayS) : (s.setArray n v).pending = s.pending := rfl
@[simp] theorem State.setArray_free (n : Nat) (v : ArrayS) : (s.setArray n v).free = s.free := rfl
@[simp] theorem State.setArray_arrays (n : Nat) (v : ArrayS) : (s.setArray n v).arrays = SMap.set s.arrays {} n v := rfl
@[simp] theorem State.setArray_tiles (n : Nat) (v : ArrayS) : (s.setArray n v).tiles = s.tiles := rfl
@[simp] theorem State.setArray_spad (n : Nat) (v : ArrayS) : (s.setArray n v).spad = s.spad := rfl
@[simp] theorem State.setArray_mesh (n : Nat) (v : ArrayS) : (s.setArray n v).mesh = s.mesh := rfl
@[simp] theorem State.setArray_mem (n : Nat) (v : ArrayS) : (s.setArray n v).mem = s.mem := rfl
@[simp] theorem State.setArray_parts (n : Nat) (v : ArrayS) : (s.setArray n v).parts = s.parts := rfl
@[simp] theorem State.setArray_accts (n : Nat) (v : ArrayS) : (s.setArray n v).accts = s.accts := rfl
@[simp] theorem State.setArray_ledger (n : Nat) (v : ArrayS) : (s.setArray n v).ledger = s.ledger := rfl
@[simp] theorem State.setArray_links (n : Nat) (v : ArrayS) : (s.setArray n v).links = s.links := rfl
@[simp] theorem State.setArray_fu (n : Nat) (v : ArrayS) : (s.setArray n v).fu = s.fu := rfl
@[simp] theorem State.setArray_host (n : Nat) (v : ArrayS) : (s.setArray n v).host = s.host := rfl
@[simp] theorem State.setArray_health (n : Nat) (v : ArrayS) : (s.setArray n v).health = s.health := rfl
@[simp] theorem State.setArray_mods (n : Nat) (v : ArrayS) : (s.setArray n v).mods = s.mods := rfl
@[simp] theorem State.setArray_power (n : Nat) (v : ArrayS) : (s.setArray n v).power = s.power := rfl
@[simp] theorem State.setArray_mgmt (n : Nat) (v : ArrayS) : (s.setArray n v).mgmt = s.mgmt := rfl
@[simp] theorem State.setArray_dict (n : Nat) (v : ArrayS) : (s.setArray n v).dict = s.dict := rfl
@[simp] theorem State.setArray_recd (n : Nat) (v : ArrayS) : (s.setArray n v).recd = s.recd := rfl
@[simp] theorem State.setArray_dawn (n : Nat) (v : ArrayS) : (s.setArray n v).dawn = s.dawn := rfl

@[simp] theorem State.updArray_pending (n : Nat) (f : ArrayS → ArrayS) : (s.updArray n f).pending = s.pending := rfl
@[simp] theorem State.updArray_free (n : Nat) (f : ArrayS → ArrayS) : (s.updArray n f).free = s.free := rfl
@[simp] theorem State.updArray_arrays (n : Nat) (f : ArrayS → ArrayS) : (s.updArray n f).arrays = SMap.set s.arrays {} n (f (SMap.get s.arrays {} n)) := rfl
@[simp] theorem State.updArray_tiles (n : Nat) (f : ArrayS → ArrayS) : (s.updArray n f).tiles = s.tiles := rfl
@[simp] theorem State.updArray_spad (n : Nat) (f : ArrayS → ArrayS) : (s.updArray n f).spad = s.spad := rfl
@[simp] theorem State.updArray_mesh (n : Nat) (f : ArrayS → ArrayS) : (s.updArray n f).mesh = s.mesh := rfl
@[simp] theorem State.updArray_mem (n : Nat) (f : ArrayS → ArrayS) : (s.updArray n f).mem = s.mem := rfl
@[simp] theorem State.updArray_parts (n : Nat) (f : ArrayS → ArrayS) : (s.updArray n f).parts = s.parts := rfl
@[simp] theorem State.updArray_accts (n : Nat) (f : ArrayS → ArrayS) : (s.updArray n f).accts = s.accts := rfl
@[simp] theorem State.updArray_ledger (n : Nat) (f : ArrayS → ArrayS) : (s.updArray n f).ledger = s.ledger := rfl
@[simp] theorem State.updArray_links (n : Nat) (f : ArrayS → ArrayS) : (s.updArray n f).links = s.links := rfl
@[simp] theorem State.updArray_fu (n : Nat) (f : ArrayS → ArrayS) : (s.updArray n f).fu = s.fu := rfl
@[simp] theorem State.updArray_host (n : Nat) (f : ArrayS → ArrayS) : (s.updArray n f).host = s.host := rfl
@[simp] theorem State.updArray_health (n : Nat) (f : ArrayS → ArrayS) : (s.updArray n f).health = s.health := rfl
@[simp] theorem State.updArray_mods (n : Nat) (f : ArrayS → ArrayS) : (s.updArray n f).mods = s.mods := rfl
@[simp] theorem State.updArray_power (n : Nat) (f : ArrayS → ArrayS) : (s.updArray n f).power = s.power := rfl
@[simp] theorem State.updArray_mgmt (n : Nat) (f : ArrayS → ArrayS) : (s.updArray n f).mgmt = s.mgmt := rfl
@[simp] theorem State.updArray_dict (n : Nat) (f : ArrayS → ArrayS) : (s.updArray n f).dict = s.dict := rfl
@[simp] theorem State.updArray_recd (n : Nat) (f : ArrayS → ArrayS) : (s.updArray n f).recd = s.recd := rfl
@[simp] theorem State.updArray_dawn (n : Nat) (f : ArrayS → ArrayS) : (s.updArray n f).dawn = s.dawn := rfl

@[simp] theorem State.setPart_pending (n : Nat) (v : Part) : (s.setPart n v).pending = s.pending := rfl
@[simp] theorem State.setPart_free (n : Nat) (v : Part) : (s.setPart n v).free = s.free := rfl
@[simp] theorem State.setPart_arrays (n : Nat) (v : Part) : (s.setPart n v).arrays = s.arrays := rfl
@[simp] theorem State.setPart_tiles (n : Nat) (v : Part) : (s.setPart n v).tiles = s.tiles := rfl
@[simp] theorem State.setPart_spad (n : Nat) (v : Part) : (s.setPart n v).spad = s.spad := rfl
@[simp] theorem State.setPart_mesh (n : Nat) (v : Part) : (s.setPart n v).mesh = s.mesh := rfl
@[simp] theorem State.setPart_mem (n : Nat) (v : Part) : (s.setPart n v).mem = s.mem := rfl
@[simp] theorem State.setPart_parts (n : Nat) (v : Part) : (s.setPart n v).parts = SMap.set s.parts {} n v := rfl
@[simp] theorem State.setPart_accts (n : Nat) (v : Part) : (s.setPart n v).accts = s.accts := rfl
@[simp] theorem State.setPart_ledger (n : Nat) (v : Part) : (s.setPart n v).ledger = s.ledger := rfl
@[simp] theorem State.setPart_links (n : Nat) (v : Part) : (s.setPart n v).links = s.links := rfl
@[simp] theorem State.setPart_fu (n : Nat) (v : Part) : (s.setPart n v).fu = s.fu := rfl
@[simp] theorem State.setPart_host (n : Nat) (v : Part) : (s.setPart n v).host = s.host := rfl
@[simp] theorem State.setPart_health (n : Nat) (v : Part) : (s.setPart n v).health = s.health := rfl
@[simp] theorem State.setPart_mods (n : Nat) (v : Part) : (s.setPart n v).mods = s.mods := rfl
@[simp] theorem State.setPart_power (n : Nat) (v : Part) : (s.setPart n v).power = s.power := rfl
@[simp] theorem State.setPart_mgmt (n : Nat) (v : Part) : (s.setPart n v).mgmt = s.mgmt := rfl
@[simp] theorem State.setPart_dict (n : Nat) (v : Part) : (s.setPart n v).dict = s.dict := rfl
@[simp] theorem State.setPart_recd (n : Nat) (v : Part) : (s.setPart n v).recd = s.recd := rfl
@[simp] theorem State.setPart_dawn (n : Nat) (v : Part) : (s.setPart n v).dawn = s.dawn := rfl

@[simp] theorem State.updPart_pending (n : Nat) (f : Part → Part) : (s.updPart n f).pending = s.pending := rfl
@[simp] theorem State.updPart_free (n : Nat) (f : Part → Part) : (s.updPart n f).free = s.free := rfl
@[simp] theorem State.updPart_arrays (n : Nat) (f : Part → Part) : (s.updPart n f).arrays = s.arrays := rfl
@[simp] theorem State.updPart_tiles (n : Nat) (f : Part → Part) : (s.updPart n f).tiles = s.tiles := rfl
@[simp] theorem State.updPart_spad (n : Nat) (f : Part → Part) : (s.updPart n f).spad = s.spad := rfl
@[simp] theorem State.updPart_mesh (n : Nat) (f : Part → Part) : (s.updPart n f).mesh = s.mesh := rfl
@[simp] theorem State.updPart_mem (n : Nat) (f : Part → Part) : (s.updPart n f).mem = s.mem := rfl
@[simp] theorem State.updPart_parts (n : Nat) (f : Part → Part) : (s.updPart n f).parts = SMap.set s.parts {} n (f (SMap.get s.parts {} n)) := rfl
@[simp] theorem State.updPart_accts (n : Nat) (f : Part → Part) : (s.updPart n f).accts = s.accts := rfl
@[simp] theorem State.updPart_ledger (n : Nat) (f : Part → Part) : (s.updPart n f).ledger = s.ledger := rfl
@[simp] theorem State.updPart_links (n : Nat) (f : Part → Part) : (s.updPart n f).links = s.links := rfl
@[simp] theorem State.updPart_fu (n : Nat) (f : Part → Part) : (s.updPart n f).fu = s.fu := rfl
@[simp] theorem State.updPart_host (n : Nat) (f : Part → Part) : (s.updPart n f).host = s.host := rfl
@[simp] theorem State.updPart_health (n : Nat) (f : Part → Part) : (s.updPart n f).health = s.health := rfl
@[simp] theorem State.updPart_mods (n : Nat) (f : Part → Part) : (s.updPart n f).mods = s.mods := rfl
@[simp] theorem State.updPart_power (n : Nat) (f : Part → Part) : (s.updPart n f).power = s.power := rfl
@[simp] theorem State.updPart_mgmt (n : Nat) (f : Part → Part) : (s.updPart n f).mgmt = s.mgmt := rfl
@[simp] theorem State.updPart_dict (n : Nat) (f : Part → Part) : (s.updPart n f).dict = s.dict := rfl
@[simp] theorem State.updPart_recd (n : Nat) (f : Part → Part) : (s.updPart n f).recd = s.recd := rfl
@[simp] theorem State.updPart_dawn (n : Nat) (f : Part → Part) : (s.updPart n f).dawn = s.dawn := rfl

@[simp] theorem State.setAcct_pending (n : Nat) (v : Account) : (s.setAcct n v).pending = s.pending := rfl
@[simp] theorem State.setAcct_free (n : Nat) (v : Account) : (s.setAcct n v).free = s.free := rfl
@[simp] theorem State.setAcct_arrays (n : Nat) (v : Account) : (s.setAcct n v).arrays = s.arrays := rfl
@[simp] theorem State.setAcct_tiles (n : Nat) (v : Account) : (s.setAcct n v).tiles = s.tiles := rfl
@[simp] theorem State.setAcct_spad (n : Nat) (v : Account) : (s.setAcct n v).spad = s.spad := rfl
@[simp] theorem State.setAcct_mesh (n : Nat) (v : Account) : (s.setAcct n v).mesh = s.mesh := rfl
@[simp] theorem State.setAcct_mem (n : Nat) (v : Account) : (s.setAcct n v).mem = s.mem := rfl
@[simp] theorem State.setAcct_parts (n : Nat) (v : Account) : (s.setAcct n v).parts = s.parts := rfl
@[simp] theorem State.setAcct_accts (n : Nat) (v : Account) : (s.setAcct n v).accts = SMap.set s.accts {} n v := rfl
@[simp] theorem State.setAcct_ledger (n : Nat) (v : Account) : (s.setAcct n v).ledger = s.ledger := rfl
@[simp] theorem State.setAcct_links (n : Nat) (v : Account) : (s.setAcct n v).links = s.links := rfl
@[simp] theorem State.setAcct_fu (n : Nat) (v : Account) : (s.setAcct n v).fu = s.fu := rfl
@[simp] theorem State.setAcct_host (n : Nat) (v : Account) : (s.setAcct n v).host = s.host := rfl
@[simp] theorem State.setAcct_health (n : Nat) (v : Account) : (s.setAcct n v).health = s.health := rfl
@[simp] theorem State.setAcct_mods (n : Nat) (v : Account) : (s.setAcct n v).mods = s.mods := rfl
@[simp] theorem State.setAcct_power (n : Nat) (v : Account) : (s.setAcct n v).power = s.power := rfl
@[simp] theorem State.setAcct_mgmt (n : Nat) (v : Account) : (s.setAcct n v).mgmt = s.mgmt := rfl
@[simp] theorem State.setAcct_dict (n : Nat) (v : Account) : (s.setAcct n v).dict = s.dict := rfl
@[simp] theorem State.setAcct_recd (n : Nat) (v : Account) : (s.setAcct n v).recd = s.recd := rfl
@[simp] theorem State.setAcct_dawn (n : Nat) (v : Account) : (s.setAcct n v).dawn = s.dawn := rfl

@[simp] theorem State.updAcct_pending (n : Nat) (f : Account → Account) : (s.updAcct n f).pending = s.pending := rfl
@[simp] theorem State.updAcct_free (n : Nat) (f : Account → Account) : (s.updAcct n f).free = s.free := rfl
@[simp] theorem State.updAcct_arrays (n : Nat) (f : Account → Account) : (s.updAcct n f).arrays = s.arrays := rfl
@[simp] theorem State.updAcct_tiles (n : Nat) (f : Account → Account) : (s.updAcct n f).tiles = s.tiles := rfl
@[simp] theorem State.updAcct_spad (n : Nat) (f : Account → Account) : (s.updAcct n f).spad = s.spad := rfl
@[simp] theorem State.updAcct_mesh (n : Nat) (f : Account → Account) : (s.updAcct n f).mesh = s.mesh := rfl
@[simp] theorem State.updAcct_mem (n : Nat) (f : Account → Account) : (s.updAcct n f).mem = s.mem := rfl
@[simp] theorem State.updAcct_parts (n : Nat) (f : Account → Account) : (s.updAcct n f).parts = s.parts := rfl
@[simp] theorem State.updAcct_accts (n : Nat) (f : Account → Account) : (s.updAcct n f).accts = SMap.set s.accts {} n (f (SMap.get s.accts {} n)) := rfl
@[simp] theorem State.updAcct_ledger (n : Nat) (f : Account → Account) : (s.updAcct n f).ledger = s.ledger := rfl
@[simp] theorem State.updAcct_links (n : Nat) (f : Account → Account) : (s.updAcct n f).links = s.links := rfl
@[simp] theorem State.updAcct_fu (n : Nat) (f : Account → Account) : (s.updAcct n f).fu = s.fu := rfl
@[simp] theorem State.updAcct_host (n : Nat) (f : Account → Account) : (s.updAcct n f).host = s.host := rfl
@[simp] theorem State.updAcct_health (n : Nat) (f : Account → Account) : (s.updAcct n f).health = s.health := rfl
@[simp] theorem State.updAcct_mods (n : Nat) (f : Account → Account) : (s.updAcct n f).mods = s.mods := rfl
@[simp] theorem State.updAcct_power (n : Nat) (f : Account → Account) : (s.updAcct n f).power = s.power := rfl
@[simp] theorem State.updAcct_mgmt (n : Nat) (f : Account → Account) : (s.updAcct n f).mgmt = s.mgmt := rfl
@[simp] theorem State.updAcct_dict (n : Nat) (f : Account → Account) : (s.updAcct n f).dict = s.dict := rfl
@[simp] theorem State.updAcct_recd (n : Nat) (f : Account → Account) : (s.updAcct n f).recd = s.recd := rfl
@[simp] theorem State.updAcct_dawn (n : Nat) (f : Account → Account) : (s.updAcct n f).dawn = s.dawn := rfl

@[simp] theorem State.setLink_pending (n : Nat) (v : Endpoint) : (s.setLink n v).pending = s.pending := rfl
@[simp] theorem State.setLink_free (n : Nat) (v : Endpoint) : (s.setLink n v).free = s.free := rfl
@[simp] theorem State.setLink_arrays (n : Nat) (v : Endpoint) : (s.setLink n v).arrays = s.arrays := rfl
@[simp] theorem State.setLink_tiles (n : Nat) (v : Endpoint) : (s.setLink n v).tiles = s.tiles := rfl
@[simp] theorem State.setLink_spad (n : Nat) (v : Endpoint) : (s.setLink n v).spad = s.spad := rfl
@[simp] theorem State.setLink_mesh (n : Nat) (v : Endpoint) : (s.setLink n v).mesh = s.mesh := rfl
@[simp] theorem State.setLink_mem (n : Nat) (v : Endpoint) : (s.setLink n v).mem = s.mem := rfl
@[simp] theorem State.setLink_parts (n : Nat) (v : Endpoint) : (s.setLink n v).parts = s.parts := rfl
@[simp] theorem State.setLink_accts (n : Nat) (v : Endpoint) : (s.setLink n v).accts = s.accts := rfl
@[simp] theorem State.setLink_ledger (n : Nat) (v : Endpoint) : (s.setLink n v).ledger = s.ledger := rfl
@[simp] theorem State.setLink_links (n : Nat) (v : Endpoint) : (s.setLink n v).links = SMap.set s.links {} n v := rfl
@[simp] theorem State.setLink_fu (n : Nat) (v : Endpoint) : (s.setLink n v).fu = s.fu := rfl
@[simp] theorem State.setLink_host (n : Nat) (v : Endpoint) : (s.setLink n v).host = s.host := rfl
@[simp] theorem State.setLink_health (n : Nat) (v : Endpoint) : (s.setLink n v).health = s.health := rfl
@[simp] theorem State.setLink_mods (n : Nat) (v : Endpoint) : (s.setLink n v).mods = s.mods := rfl
@[simp] theorem State.setLink_power (n : Nat) (v : Endpoint) : (s.setLink n v).power = s.power := rfl
@[simp] theorem State.setLink_mgmt (n : Nat) (v : Endpoint) : (s.setLink n v).mgmt = s.mgmt := rfl
@[simp] theorem State.setLink_dict (n : Nat) (v : Endpoint) : (s.setLink n v).dict = s.dict := rfl
@[simp] theorem State.setLink_recd (n : Nat) (v : Endpoint) : (s.setLink n v).recd = s.recd := rfl
@[simp] theorem State.setLink_dawn (n : Nat) (v : Endpoint) : (s.setLink n v).dawn = s.dawn := rfl

@[simp] theorem State.updLink_pending (n : Nat) (f : Endpoint → Endpoint) : (s.updLink n f).pending = s.pending := rfl
@[simp] theorem State.updLink_free (n : Nat) (f : Endpoint → Endpoint) : (s.updLink n f).free = s.free := rfl
@[simp] theorem State.updLink_arrays (n : Nat) (f : Endpoint → Endpoint) : (s.updLink n f).arrays = s.arrays := rfl
@[simp] theorem State.updLink_tiles (n : Nat) (f : Endpoint → Endpoint) : (s.updLink n f).tiles = s.tiles := rfl
@[simp] theorem State.updLink_spad (n : Nat) (f : Endpoint → Endpoint) : (s.updLink n f).spad = s.spad := rfl
@[simp] theorem State.updLink_mesh (n : Nat) (f : Endpoint → Endpoint) : (s.updLink n f).mesh = s.mesh := rfl
@[simp] theorem State.updLink_mem (n : Nat) (f : Endpoint → Endpoint) : (s.updLink n f).mem = s.mem := rfl
@[simp] theorem State.updLink_parts (n : Nat) (f : Endpoint → Endpoint) : (s.updLink n f).parts = s.parts := rfl
@[simp] theorem State.updLink_accts (n : Nat) (f : Endpoint → Endpoint) : (s.updLink n f).accts = s.accts := rfl
@[simp] theorem State.updLink_ledger (n : Nat) (f : Endpoint → Endpoint) : (s.updLink n f).ledger = s.ledger := rfl
@[simp] theorem State.updLink_links (n : Nat) (f : Endpoint → Endpoint) : (s.updLink n f).links = SMap.set s.links {} n (f (SMap.get s.links {} n)) := rfl
@[simp] theorem State.updLink_fu (n : Nat) (f : Endpoint → Endpoint) : (s.updLink n f).fu = s.fu := rfl
@[simp] theorem State.updLink_host (n : Nat) (f : Endpoint → Endpoint) : (s.updLink n f).host = s.host := rfl
@[simp] theorem State.updLink_health (n : Nat) (f : Endpoint → Endpoint) : (s.updLink n f).health = s.health := rfl
@[simp] theorem State.updLink_mods (n : Nat) (f : Endpoint → Endpoint) : (s.updLink n f).mods = s.mods := rfl
@[simp] theorem State.updLink_power (n : Nat) (f : Endpoint → Endpoint) : (s.updLink n f).power = s.power := rfl
@[simp] theorem State.updLink_mgmt (n : Nat) (f : Endpoint → Endpoint) : (s.updLink n f).mgmt = s.mgmt := rfl
@[simp] theorem State.updLink_dict (n : Nat) (f : Endpoint → Endpoint) : (s.updLink n f).dict = s.dict := rfl
@[simp] theorem State.updLink_recd (n : Nat) (f : Endpoint → Endpoint) : (s.updLink n f).recd = s.recd := rfl
@[simp] theorem State.updLink_dawn (n : Nat) (f : Endpoint → Endpoint) : (s.updLink n f).dawn = s.dawn := rfl

@[simp] theorem State.setModule_pending (n : Nat) (v : Module) : (s.setModule n v).pending = s.pending := rfl
@[simp] theorem State.setModule_free (n : Nat) (v : Module) : (s.setModule n v).free = s.free := rfl
@[simp] theorem State.setModule_arrays (n : Nat) (v : Module) : (s.setModule n v).arrays = s.arrays := rfl
@[simp] theorem State.setModule_tiles (n : Nat) (v : Module) : (s.setModule n v).tiles = s.tiles := rfl
@[simp] theorem State.setModule_spad (n : Nat) (v : Module) : (s.setModule n v).spad = s.spad := rfl
@[simp] theorem State.setModule_mesh (n : Nat) (v : Module) : (s.setModule n v).mesh = s.mesh := rfl
@[simp] theorem State.setModule_mem (n : Nat) (v : Module) : (s.setModule n v).mem = s.mem := rfl
@[simp] theorem State.setModule_parts (n : Nat) (v : Module) : (s.setModule n v).parts = s.parts := rfl
@[simp] theorem State.setModule_accts (n : Nat) (v : Module) : (s.setModule n v).accts = s.accts := rfl
@[simp] theorem State.setModule_ledger (n : Nat) (v : Module) : (s.setModule n v).ledger = s.ledger := rfl
@[simp] theorem State.setModule_links (n : Nat) (v : Module) : (s.setModule n v).links = s.links := rfl
@[simp] theorem State.setModule_fu (n : Nat) (v : Module) : (s.setModule n v).fu = s.fu := rfl
@[simp] theorem State.setModule_host (n : Nat) (v : Module) : (s.setModule n v).host = s.host := rfl
@[simp] theorem State.setModule_health (n : Nat) (v : Module) : (s.setModule n v).health = s.health := rfl
@[simp] theorem State.setModule_mods (n : Nat) (v : Module) : (s.setModule n v).mods = SMap.set s.mods {} n v := rfl
@[simp] theorem State.setModule_power (n : Nat) (v : Module) : (s.setModule n v).power = s.power := rfl
@[simp] theorem State.setModule_mgmt (n : Nat) (v : Module) : (s.setModule n v).mgmt = s.mgmt := rfl
@[simp] theorem State.setModule_dict (n : Nat) (v : Module) : (s.setModule n v).dict = s.dict := rfl
@[simp] theorem State.setModule_recd (n : Nat) (v : Module) : (s.setModule n v).recd = s.recd := rfl
@[simp] theorem State.setModule_dawn (n : Nat) (v : Module) : (s.setModule n v).dawn = s.dawn := rfl

@[simp] theorem State.updModule_pending (n : Nat) (f : Module → Module) : (s.updModule n f).pending = s.pending := rfl
@[simp] theorem State.updModule_free (n : Nat) (f : Module → Module) : (s.updModule n f).free = s.free := rfl
@[simp] theorem State.updModule_arrays (n : Nat) (f : Module → Module) : (s.updModule n f).arrays = s.arrays := rfl
@[simp] theorem State.updModule_tiles (n : Nat) (f : Module → Module) : (s.updModule n f).tiles = s.tiles := rfl
@[simp] theorem State.updModule_spad (n : Nat) (f : Module → Module) : (s.updModule n f).spad = s.spad := rfl
@[simp] theorem State.updModule_mesh (n : Nat) (f : Module → Module) : (s.updModule n f).mesh = s.mesh := rfl
@[simp] theorem State.updModule_mem (n : Nat) (f : Module → Module) : (s.updModule n f).mem = s.mem := rfl
@[simp] theorem State.updModule_parts (n : Nat) (f : Module → Module) : (s.updModule n f).parts = s.parts := rfl
@[simp] theorem State.updModule_accts (n : Nat) (f : Module → Module) : (s.updModule n f).accts = s.accts := rfl
@[simp] theorem State.updModule_ledger (n : Nat) (f : Module → Module) : (s.updModule n f).ledger = s.ledger := rfl
@[simp] theorem State.updModule_links (n : Nat) (f : Module → Module) : (s.updModule n f).links = s.links := rfl
@[simp] theorem State.updModule_fu (n : Nat) (f : Module → Module) : (s.updModule n f).fu = s.fu := rfl
@[simp] theorem State.updModule_host (n : Nat) (f : Module → Module) : (s.updModule n f).host = s.host := rfl
@[simp] theorem State.updModule_health (n : Nat) (f : Module → Module) : (s.updModule n f).health = s.health := rfl
@[simp] theorem State.updModule_mods (n : Nat) (f : Module → Module) : (s.updModule n f).mods = SMap.set s.mods {} n (f (SMap.get s.mods {} n)) := rfl
@[simp] theorem State.updModule_power (n : Nat) (f : Module → Module) : (s.updModule n f).power = s.power := rfl
@[simp] theorem State.updModule_mgmt (n : Nat) (f : Module → Module) : (s.updModule n f).mgmt = s.mgmt := rfl
@[simp] theorem State.updModule_dict (n : Nat) (f : Module → Module) : (s.updModule n f).dict = s.dict := rfl
@[simp] theorem State.updModule_recd (n : Nat) (f : Module → Module) : (s.updModule n f).recd = s.recd := rfl
@[simp] theorem State.updModule_dawn (n : Nat) (f : Module → Module) : (s.updModule n f).dawn = s.dawn := rfl

@[simp] theorem State.mapTiles_pending (f : Nat → Tile → Tile) : (s.mapTiles f).pending = s.pending := rfl
@[simp] theorem State.mapTiles_free (f : Nat → Tile → Tile) : (s.mapTiles f).free = s.free := rfl
@[simp] theorem State.mapTiles_arrays (f : Nat → Tile → Tile) : (s.mapTiles f).arrays = s.arrays := rfl
@[simp] theorem State.mapTiles_tiles (f : Nat → Tile → Tile) : (s.mapTiles f).tiles = SMap.mapVals s.tiles {} f := rfl
@[simp] theorem State.mapTiles_spad (f : Nat → Tile → Tile) : (s.mapTiles f).spad = s.spad := rfl
@[simp] theorem State.mapTiles_mesh (f : Nat → Tile → Tile) : (s.mapTiles f).mesh = s.mesh := rfl
@[simp] theorem State.mapTiles_mem (f : Nat → Tile → Tile) : (s.mapTiles f).mem = s.mem := rfl
@[simp] theorem State.mapTiles_parts (f : Nat → Tile → Tile) : (s.mapTiles f).parts = s.parts := rfl
@[simp] theorem State.mapTiles_accts (f : Nat → Tile → Tile) : (s.mapTiles f).accts = s.accts := rfl
@[simp] theorem State.mapTiles_ledger (f : Nat → Tile → Tile) : (s.mapTiles f).ledger = s.ledger := rfl
@[simp] theorem State.mapTiles_links (f : Nat → Tile → Tile) : (s.mapTiles f).links = s.links := rfl
@[simp] theorem State.mapTiles_fu (f : Nat → Tile → Tile) : (s.mapTiles f).fu = s.fu := rfl
@[simp] theorem State.mapTiles_host (f : Nat → Tile → Tile) : (s.mapTiles f).host = s.host := rfl
@[simp] theorem State.mapTiles_health (f : Nat → Tile → Tile) : (s.mapTiles f).health = s.health := rfl
@[simp] theorem State.mapTiles_mods (f : Nat → Tile → Tile) : (s.mapTiles f).mods = s.mods := rfl
@[simp] theorem State.mapTiles_power (f : Nat → Tile → Tile) : (s.mapTiles f).power = s.power := rfl
@[simp] theorem State.mapTiles_mgmt (f : Nat → Tile → Tile) : (s.mapTiles f).mgmt = s.mgmt := rfl
@[simp] theorem State.mapTiles_dict (f : Nat → Tile → Tile) : (s.mapTiles f).dict = s.dict := rfl
@[simp] theorem State.mapTiles_recd (f : Nat → Tile → Tile) : (s.mapTiles f).recd = s.recd := rfl
@[simp] theorem State.mapTiles_dawn (f : Nat → Tile → Tile) : (s.mapTiles f).dawn = s.dawn := rfl

@[simp] theorem State.mapParts_pending (f : Nat → Part → Part) : (s.mapParts f).pending = s.pending := rfl
@[simp] theorem State.mapParts_free (f : Nat → Part → Part) : (s.mapParts f).free = s.free := rfl
@[simp] theorem State.mapParts_arrays (f : Nat → Part → Part) : (s.mapParts f).arrays = s.arrays := rfl
@[simp] theorem State.mapParts_tiles (f : Nat → Part → Part) : (s.mapParts f).tiles = s.tiles := rfl
@[simp] theorem State.mapParts_spad (f : Nat → Part → Part) : (s.mapParts f).spad = s.spad := rfl
@[simp] theorem State.mapParts_mesh (f : Nat → Part → Part) : (s.mapParts f).mesh = s.mesh := rfl
@[simp] theorem State.mapParts_mem (f : Nat → Part → Part) : (s.mapParts f).mem = s.mem := rfl
@[simp] theorem State.mapParts_parts (f : Nat → Part → Part) : (s.mapParts f).parts = SMap.mapVals s.parts {} f := rfl
@[simp] theorem State.mapParts_accts (f : Nat → Part → Part) : (s.mapParts f).accts = s.accts := rfl
@[simp] theorem State.mapParts_ledger (f : Nat → Part → Part) : (s.mapParts f).ledger = s.ledger := rfl
@[simp] theorem State.mapParts_links (f : Nat → Part → Part) : (s.mapParts f).links = s.links := rfl
@[simp] theorem State.mapParts_fu (f : Nat → Part → Part) : (s.mapParts f).fu = s.fu := rfl
@[simp] theorem State.mapParts_host (f : Nat → Part → Part) : (s.mapParts f).host = s.host := rfl
@[simp] theorem State.mapParts_health (f : Nat → Part → Part) : (s.mapParts f).health = s.health := rfl
@[simp] theorem State.mapParts_mods (f : Nat → Part → Part) : (s.mapParts f).mods = s.mods := rfl
@[simp] theorem State.mapParts_power (f : Nat → Part → Part) : (s.mapParts f).power = s.power := rfl
@[simp] theorem State.mapParts_mgmt (f : Nat → Part → Part) : (s.mapParts f).mgmt = s.mgmt := rfl
@[simp] theorem State.mapParts_dict (f : Nat → Part → Part) : (s.mapParts f).dict = s.dict := rfl
@[simp] theorem State.mapParts_recd (f : Nat → Part → Part) : (s.mapParts f).recd = s.recd := rfl
@[simp] theorem State.mapParts_dawn (f : Nat → Part → Part) : (s.mapParts f).dawn = s.dawn := rfl

@[simp] theorem State.mapAccts_pending (f : Nat → Account → Account) : (s.mapAccts f).pending = s.pending := rfl
@[simp] theorem State.mapAccts_free (f : Nat → Account → Account) : (s.mapAccts f).free = s.free := rfl
@[simp] theorem State.mapAccts_arrays (f : Nat → Account → Account) : (s.mapAccts f).arrays = s.arrays := rfl
@[simp] theorem State.mapAccts_tiles (f : Nat → Account → Account) : (s.mapAccts f).tiles = s.tiles := rfl
@[simp] theorem State.mapAccts_spad (f : Nat → Account → Account) : (s.mapAccts f).spad = s.spad := rfl
@[simp] theorem State.mapAccts_mesh (f : Nat → Account → Account) : (s.mapAccts f).mesh = s.mesh := rfl
@[simp] theorem State.mapAccts_mem (f : Nat → Account → Account) : (s.mapAccts f).mem = s.mem := rfl
@[simp] theorem State.mapAccts_parts (f : Nat → Account → Account) : (s.mapAccts f).parts = s.parts := rfl
@[simp] theorem State.mapAccts_accts (f : Nat → Account → Account) : (s.mapAccts f).accts = SMap.mapVals s.accts {} f := rfl
@[simp] theorem State.mapAccts_ledger (f : Nat → Account → Account) : (s.mapAccts f).ledger = s.ledger := rfl
@[simp] theorem State.mapAccts_links (f : Nat → Account → Account) : (s.mapAccts f).links = s.links := rfl
@[simp] theorem State.mapAccts_fu (f : Nat → Account → Account) : (s.mapAccts f).fu = s.fu := rfl
@[simp] theorem State.mapAccts_host (f : Nat → Account → Account) : (s.mapAccts f).host = s.host := rfl
@[simp] theorem State.mapAccts_health (f : Nat → Account → Account) : (s.mapAccts f).health = s.health := rfl
@[simp] theorem State.mapAccts_mods (f : Nat → Account → Account) : (s.mapAccts f).mods = s.mods := rfl
@[simp] theorem State.mapAccts_power (f : Nat → Account → Account) : (s.mapAccts f).power = s.power := rfl
@[simp] theorem State.mapAccts_mgmt (f : Nat → Account → Account) : (s.mapAccts f).mgmt = s.mgmt := rfl
@[simp] theorem State.mapAccts_dict (f : Nat → Account → Account) : (s.mapAccts f).dict = s.dict := rfl
@[simp] theorem State.mapAccts_recd (f : Nat → Account → Account) : (s.mapAccts f).recd = s.recd := rfl
@[simp] theorem State.mapAccts_dawn (f : Nat → Account → Account) : (s.mapAccts f).dawn = s.dawn := rfl

@[simp] theorem State.setSess_pending (n : Nat) (v : Session) : (s.setSess n v).pending = s.pending := rfl
@[simp] theorem State.setSess_free (n : Nat) (v : Session) : (s.setSess n v).free = s.free := rfl
@[simp] theorem State.setSess_arrays (n : Nat) (v : Session) : (s.setSess n v).arrays = s.arrays := rfl
@[simp] theorem State.setSess_tiles (n : Nat) (v : Session) : (s.setSess n v).tiles = s.tiles := rfl
@[simp] theorem State.setSess_spad (n : Nat) (v : Session) : (s.setSess n v).spad = s.spad := rfl
@[simp] theorem State.setSess_mesh (n : Nat) (v : Session) : (s.setSess n v).mesh = s.mesh := rfl
@[simp] theorem State.setSess_mem (n : Nat) (v : Session) : (s.setSess n v).mem = s.mem := rfl
@[simp] theorem State.setSess_parts (n : Nat) (v : Session) : (s.setSess n v).parts = s.parts := rfl
@[simp] theorem State.setSess_accts (n : Nat) (v : Session) : (s.setSess n v).accts = s.accts := rfl
@[simp] theorem State.setSess_ledger (n : Nat) (v : Session) : (s.setSess n v).ledger = s.ledger := rfl
@[simp] theorem State.setSess_links (n : Nat) (v : Session) : (s.setSess n v).links = s.links := rfl
@[simp] theorem State.setSess_fu (n : Nat) (v : Session) : (s.setSess n v).fu = s.fu := rfl
@[simp] theorem State.setSess_health (n : Nat) (v : Session) : (s.setSess n v).health = s.health := rfl
@[simp] theorem State.setSess_mods (n : Nat) (v : Session) : (s.setSess n v).mods = s.mods := rfl
@[simp] theorem State.setSess_power (n : Nat) (v : Session) : (s.setSess n v).power = s.power := rfl
@[simp] theorem State.setSess_mgmt (n : Nat) (v : Session) : (s.setSess n v).mgmt = s.mgmt := rfl
@[simp] theorem State.setSess_dict (n : Nat) (v : Session) : (s.setSess n v).dict = s.dict := rfl
@[simp] theorem State.setSess_recd (n : Nat) (v : Session) : (s.setSess n v).recd = s.recd := rfl
@[simp] theorem State.setSess_dawn (n : Nat) (v : Session) : (s.setSess n v).dawn = s.dawn := rfl

@[simp] theorem State.updSess_pending (n : Nat) (f : Session → Session) : (s.updSess n f).pending = s.pending := rfl
@[simp] theorem State.updSess_free (n : Nat) (f : Session → Session) : (s.updSess n f).free = s.free := rfl
@[simp] theorem State.updSess_arrays (n : Nat) (f : Session → Session) : (s.updSess n f).arrays = s.arrays := rfl
@[simp] theorem State.updSess_tiles (n : Nat) (f : Session → Session) : (s.updSess n f).tiles = s.tiles := rfl
@[simp] theorem State.updSess_spad (n : Nat) (f : Session → Session) : (s.updSess n f).spad = s.spad := rfl
@[simp] theorem State.updSess_mesh (n : Nat) (f : Session → Session) : (s.updSess n f).mesh = s.mesh := rfl
@[simp] theorem State.updSess_mem (n : Nat) (f : Session → Session) : (s.updSess n f).mem = s.mem := rfl
@[simp] theorem State.updSess_parts (n : Nat) (f : Session → Session) : (s.updSess n f).parts = s.parts := rfl
@[simp] theorem State.updSess_accts (n : Nat) (f : Session → Session) : (s.updSess n f).accts = s.accts := rfl
@[simp] theorem State.updSess_ledger (n : Nat) (f : Session → Session) : (s.updSess n f).ledger = s.ledger := rfl
@[simp] theorem State.updSess_links (n : Nat) (f : Session → Session) : (s.updSess n f).links = s.links := rfl
@[simp] theorem State.updSess_fu (n : Nat) (f : Session → Session) : (s.updSess n f).fu = s.fu := rfl
@[simp] theorem State.updSess_health (n : Nat) (f : Session → Session) : (s.updSess n f).health = s.health := rfl
@[simp] theorem State.updSess_mods (n : Nat) (f : Session → Session) : (s.updSess n f).mods = s.mods := rfl
@[simp] theorem State.updSess_power (n : Nat) (f : Session → Session) : (s.updSess n f).power = s.power := rfl
@[simp] theorem State.updSess_mgmt (n : Nat) (f : Session → Session) : (s.updSess n f).mgmt = s.mgmt := rfl
@[simp] theorem State.updSess_dict (n : Nat) (f : Session → Session) : (s.updSess n f).dict = s.dict := rfl
@[simp] theorem State.updSess_recd (n : Nat) (f : Session → Session) : (s.updSess n f).recd = s.recd := rfl
@[simp] theorem State.updSess_dawn (n : Nat) (f : Session → Session) : (s.updSess n f).dawn = s.dawn := rfl

@[simp] theorem State.setWindow_pending (n : Nat) (v : Window) : (s.setWindow n v).pending = s.pending := rfl
@[simp] theorem State.setWindow_free (n : Nat) (v : Window) : (s.setWindow n v).free = s.free := rfl
@[simp] theorem State.setWindow_arrays (n : Nat) (v : Window) : (s.setWindow n v).arrays = s.arrays := rfl
@[simp] theorem State.setWindow_tiles (n : Nat) (v : Window) : (s.setWindow n v).tiles = s.tiles := rfl
@[simp] theorem State.setWindow_spad (n : Nat) (v : Window) : (s.setWindow n v).spad = s.spad := rfl
@[simp] theorem State.setWindow_mesh (n : Nat) (v : Window) : (s.setWindow n v).mesh = s.mesh := rfl
@[simp] theorem State.setWindow_mem (n : Nat) (v : Window) : (s.setWindow n v).mem = s.mem := rfl
@[simp] theorem State.setWindow_parts (n : Nat) (v : Window) : (s.setWindow n v).parts = s.parts := rfl
@[simp] theorem State.setWindow_accts (n : Nat) (v : Window) : (s.setWindow n v).accts = s.accts := rfl
@[simp] theorem State.setWindow_ledger (n : Nat) (v : Window) : (s.setWindow n v).ledger = s.ledger := rfl
@[simp] theorem State.setWindow_links (n : Nat) (v : Window) : (s.setWindow n v).links = s.links := rfl
@[simp] theorem State.setWindow_fu (n : Nat) (v : Window) : (s.setWindow n v).fu = s.fu := rfl
@[simp] theorem State.setWindow_health (n : Nat) (v : Window) : (s.setWindow n v).health = s.health := rfl
@[simp] theorem State.setWindow_mods (n : Nat) (v : Window) : (s.setWindow n v).mods = s.mods := rfl
@[simp] theorem State.setWindow_power (n : Nat) (v : Window) : (s.setWindow n v).power = s.power := rfl
@[simp] theorem State.setWindow_mgmt (n : Nat) (v : Window) : (s.setWindow n v).mgmt = s.mgmt := rfl
@[simp] theorem State.setWindow_dict (n : Nat) (v : Window) : (s.setWindow n v).dict = s.dict := rfl
@[simp] theorem State.setWindow_recd (n : Nat) (v : Window) : (s.setWindow n v).recd = s.recd := rfl
@[simp] theorem State.setWindow_dawn (n : Nat) (v : Window) : (s.setWindow n v).dawn = s.dawn := rfl

@[simp] theorem State.setPort_pending (n : Nat) (v : Port) : (s.setPort n v).pending = s.pending := rfl
@[simp] theorem State.setPort_free (n : Nat) (v : Port) : (s.setPort n v).free = s.free := rfl
@[simp] theorem State.setPort_arrays (n : Nat) (v : Port) : (s.setPort n v).arrays = s.arrays := rfl
@[simp] theorem State.setPort_tiles (n : Nat) (v : Port) : (s.setPort n v).tiles = s.tiles := rfl
@[simp] theorem State.setPort_spad (n : Nat) (v : Port) : (s.setPort n v).spad = s.spad := rfl
@[simp] theorem State.setPort_mesh (n : Nat) (v : Port) : (s.setPort n v).mesh = s.mesh := rfl
@[simp] theorem State.setPort_mem (n : Nat) (v : Port) : (s.setPort n v).mem = s.mem := rfl
@[simp] theorem State.setPort_parts (n : Nat) (v : Port) : (s.setPort n v).parts = s.parts := rfl
@[simp] theorem State.setPort_accts (n : Nat) (v : Port) : (s.setPort n v).accts = s.accts := rfl
@[simp] theorem State.setPort_ledger (n : Nat) (v : Port) : (s.setPort n v).ledger = s.ledger := rfl
@[simp] theorem State.setPort_links (n : Nat) (v : Port) : (s.setPort n v).links = s.links := rfl
@[simp] theorem State.setPort_fu (n : Nat) (v : Port) : (s.setPort n v).fu = s.fu := rfl
@[simp] theorem State.setPort_health (n : Nat) (v : Port) : (s.setPort n v).health = s.health := rfl
@[simp] theorem State.setPort_mods (n : Nat) (v : Port) : (s.setPort n v).mods = s.mods := rfl
@[simp] theorem State.setPort_power (n : Nat) (v : Port) : (s.setPort n v).power = s.power := rfl
@[simp] theorem State.setPort_mgmt (n : Nat) (v : Port) : (s.setPort n v).mgmt = s.mgmt := rfl
@[simp] theorem State.setPort_dict (n : Nat) (v : Port) : (s.setPort n v).dict = s.dict := rfl
@[simp] theorem State.setPort_recd (n : Nat) (v : Port) : (s.setPort n v).recd = s.recd := rfl
@[simp] theorem State.setPort_dawn (n : Nat) (v : Port) : (s.setPort n v).dawn = s.dawn := rfl

@[simp] theorem State.updPort_pending (n : Nat) (f : Port → Port) : (s.updPort n f).pending = s.pending := rfl
@[simp] theorem State.updPort_free (n : Nat) (f : Port → Port) : (s.updPort n f).free = s.free := rfl
@[simp] theorem State.updPort_arrays (n : Nat) (f : Port → Port) : (s.updPort n f).arrays = s.arrays := rfl
@[simp] theorem State.updPort_tiles (n : Nat) (f : Port → Port) : (s.updPort n f).tiles = s.tiles := rfl
@[simp] theorem State.updPort_spad (n : Nat) (f : Port → Port) : (s.updPort n f).spad = s.spad := rfl
@[simp] theorem State.updPort_mesh (n : Nat) (f : Port → Port) : (s.updPort n f).mesh = s.mesh := rfl
@[simp] theorem State.updPort_mem (n : Nat) (f : Port → Port) : (s.updPort n f).mem = s.mem := rfl
@[simp] theorem State.updPort_parts (n : Nat) (f : Port → Port) : (s.updPort n f).parts = s.parts := rfl
@[simp] theorem State.updPort_accts (n : Nat) (f : Port → Port) : (s.updPort n f).accts = s.accts := rfl
@[simp] theorem State.updPort_ledger (n : Nat) (f : Port → Port) : (s.updPort n f).ledger = s.ledger := rfl
@[simp] theorem State.updPort_links (n : Nat) (f : Port → Port) : (s.updPort n f).links = s.links := rfl
@[simp] theorem State.updPort_fu (n : Nat) (f : Port → Port) : (s.updPort n f).fu = s.fu := rfl
@[simp] theorem State.updPort_health (n : Nat) (f : Port → Port) : (s.updPort n f).health = s.health := rfl
@[simp] theorem State.updPort_mods (n : Nat) (f : Port → Port) : (s.updPort n f).mods = s.mods := rfl
@[simp] theorem State.updPort_power (n : Nat) (f : Port → Port) : (s.updPort n f).power = s.power := rfl
@[simp] theorem State.updPort_mgmt (n : Nat) (f : Port → Port) : (s.updPort n f).mgmt = s.mgmt := rfl
@[simp] theorem State.updPort_dict (n : Nat) (f : Port → Port) : (s.updPort n f).dict = s.dict := rfl
@[simp] theorem State.updPort_recd (n : Nat) (f : Port → Port) : (s.updPort n f).recd = s.recd := rfl
@[simp] theorem State.updPort_dawn (n : Nat) (f : Port → Port) : (s.updPort n f).dawn = s.dawn := rfl

@[simp] theorem State.updStack_pending (n : Nat) (f : Stack → Stack) : (s.updStack n f).pending = s.pending := rfl
@[simp] theorem State.updStack_free (n : Nat) (f : Stack → Stack) : (s.updStack n f).free = s.free := rfl
@[simp] theorem State.updStack_arrays (n : Nat) (f : Stack → Stack) : (s.updStack n f).arrays = s.arrays := rfl
@[simp] theorem State.updStack_tiles (n : Nat) (f : Stack → Stack) : (s.updStack n f).tiles = s.tiles := rfl
@[simp] theorem State.updStack_spad (n : Nat) (f : Stack → Stack) : (s.updStack n f).spad = s.spad := rfl
@[simp] theorem State.updStack_mesh (n : Nat) (f : Stack → Stack) : (s.updStack n f).mesh = s.mesh := rfl
@[simp] theorem State.updStack_parts (n : Nat) (f : Stack → Stack) : (s.updStack n f).parts = s.parts := rfl
@[simp] theorem State.updStack_accts (n : Nat) (f : Stack → Stack) : (s.updStack n f).accts = s.accts := rfl
@[simp] theorem State.updStack_ledger (n : Nat) (f : Stack → Stack) : (s.updStack n f).ledger = s.ledger := rfl
@[simp] theorem State.updStack_links (n : Nat) (f : Stack → Stack) : (s.updStack n f).links = s.links := rfl
@[simp] theorem State.updStack_fu (n : Nat) (f : Stack → Stack) : (s.updStack n f).fu = s.fu := rfl
@[simp] theorem State.updStack_host (n : Nat) (f : Stack → Stack) : (s.updStack n f).host = s.host := rfl
@[simp] theorem State.updStack_health (n : Nat) (f : Stack → Stack) : (s.updStack n f).health = s.health := rfl
@[simp] theorem State.updStack_mods (n : Nat) (f : Stack → Stack) : (s.updStack n f).mods = s.mods := rfl
@[simp] theorem State.updStack_power (n : Nat) (f : Stack → Stack) : (s.updStack n f).power = s.power := rfl
@[simp] theorem State.updStack_mgmt (n : Nat) (f : Stack → Stack) : (s.updStack n f).mgmt = s.mgmt := rfl
@[simp] theorem State.updStack_dict (n : Nat) (f : Stack → Stack) : (s.updStack n f).dict = s.dict := rfl
@[simp] theorem State.updStack_recd (n : Nat) (f : Stack → Stack) : (s.updStack n f).recd = s.recd := rfl
@[simp] theorem State.updStack_dawn (n : Nat) (f : Stack → Stack) : (s.updStack n f).dawn = s.dawn := rfl

@[simp] theorem State.updEngine_pending (n : Nat) (f : Engine → Engine) : (s.updEngine n f).pending = s.pending := rfl
@[simp] theorem State.updEngine_free (n : Nat) (f : Engine → Engine) : (s.updEngine n f).free = s.free := rfl
@[simp] theorem State.updEngine_arrays (n : Nat) (f : Engine → Engine) : (s.updEngine n f).arrays = s.arrays := rfl
@[simp] theorem State.updEngine_tiles (n : Nat) (f : Engine → Engine) : (s.updEngine n f).tiles = s.tiles := rfl
@[simp] theorem State.updEngine_spad (n : Nat) (f : Engine → Engine) : (s.updEngine n f).spad = s.spad := rfl
@[simp] theorem State.updEngine_mesh (n : Nat) (f : Engine → Engine) : (s.updEngine n f).mesh = s.mesh := rfl
@[simp] theorem State.updEngine_parts (n : Nat) (f : Engine → Engine) : (s.updEngine n f).parts = s.parts := rfl
@[simp] theorem State.updEngine_accts (n : Nat) (f : Engine → Engine) : (s.updEngine n f).accts = s.accts := rfl
@[simp] theorem State.updEngine_ledger (n : Nat) (f : Engine → Engine) : (s.updEngine n f).ledger = s.ledger := rfl
@[simp] theorem State.updEngine_links (n : Nat) (f : Engine → Engine) : (s.updEngine n f).links = s.links := rfl
@[simp] theorem State.updEngine_fu (n : Nat) (f : Engine → Engine) : (s.updEngine n f).fu = s.fu := rfl
@[simp] theorem State.updEngine_host (n : Nat) (f : Engine → Engine) : (s.updEngine n f).host = s.host := rfl
@[simp] theorem State.updEngine_health (n : Nat) (f : Engine → Engine) : (s.updEngine n f).health = s.health := rfl
@[simp] theorem State.updEngine_mods (n : Nat) (f : Engine → Engine) : (s.updEngine n f).mods = s.mods := rfl
@[simp] theorem State.updEngine_power (n : Nat) (f : Engine → Engine) : (s.updEngine n f).power = s.power := rfl
@[simp] theorem State.updEngine_mgmt (n : Nat) (f : Engine → Engine) : (s.updEngine n f).mgmt = s.mgmt := rfl
@[simp] theorem State.updEngine_dict (n : Nat) (f : Engine → Engine) : (s.updEngine n f).dict = s.dict := rfl
@[simp] theorem State.updEngine_recd (n : Nat) (f : Engine → Engine) : (s.updEngine n f).recd = s.recd := rfl
@[simp] theorem State.updEngine_dawn (n : Nat) (f : Engine → Engine) : (s.updEngine n f).dawn = s.dawn := rfl

@[simp] theorem State.updCtx_pending (n : Nat) (f : Ctx → Ctx) : (s.updCtx n f).pending = s.pending := rfl
@[simp] theorem State.updCtx_free (n : Nat) (f : Ctx → Ctx) : (s.updCtx n f).free = s.free := rfl
@[simp] theorem State.updCtx_arrays (n : Nat) (f : Ctx → Ctx) : (s.updCtx n f).arrays = s.arrays := rfl
@[simp] theorem State.updCtx_tiles (n : Nat) (f : Ctx → Ctx) : (s.updCtx n f).tiles = s.tiles := rfl
@[simp] theorem State.updCtx_spad (n : Nat) (f : Ctx → Ctx) : (s.updCtx n f).spad = s.spad := rfl
@[simp] theorem State.updCtx_mesh (n : Nat) (f : Ctx → Ctx) : (s.updCtx n f).mesh = s.mesh := rfl
@[simp] theorem State.updCtx_parts (n : Nat) (f : Ctx → Ctx) : (s.updCtx n f).parts = s.parts := rfl
@[simp] theorem State.updCtx_accts (n : Nat) (f : Ctx → Ctx) : (s.updCtx n f).accts = s.accts := rfl
@[simp] theorem State.updCtx_ledger (n : Nat) (f : Ctx → Ctx) : (s.updCtx n f).ledger = s.ledger := rfl
@[simp] theorem State.updCtx_links (n : Nat) (f : Ctx → Ctx) : (s.updCtx n f).links = s.links := rfl
@[simp] theorem State.updCtx_fu (n : Nat) (f : Ctx → Ctx) : (s.updCtx n f).fu = s.fu := rfl
@[simp] theorem State.updCtx_host (n : Nat) (f : Ctx → Ctx) : (s.updCtx n f).host = s.host := rfl
@[simp] theorem State.updCtx_health (n : Nat) (f : Ctx → Ctx) : (s.updCtx n f).health = s.health := rfl
@[simp] theorem State.updCtx_mods (n : Nat) (f : Ctx → Ctx) : (s.updCtx n f).mods = s.mods := rfl
@[simp] theorem State.updCtx_power (n : Nat) (f : Ctx → Ctx) : (s.updCtx n f).power = s.power := rfl
@[simp] theorem State.updCtx_mgmt (n : Nat) (f : Ctx → Ctx) : (s.updCtx n f).mgmt = s.mgmt := rfl
@[simp] theorem State.updCtx_dict (n : Nat) (f : Ctx → Ctx) : (s.updCtx n f).dict = s.dict := rfl
@[simp] theorem State.updCtx_recd (n : Nat) (f : Ctx → Ctx) : (s.updCtx n f).recd = s.recd := rfl
@[simp] theorem State.updCtx_dawn (n : Nat) (f : Ctx → Ctx) : (s.updCtx n f).dawn = s.dawn := rfl

@[simp] theorem State.updRouter_pending (n : Nat) (f : Router → Router) : (s.updRouter n f).pending = s.pending := rfl
@[simp] theorem State.updRouter_free (n : Nat) (f : Router → Router) : (s.updRouter n f).free = s.free := rfl
@[simp] theorem State.updRouter_arrays (n : Nat) (f : Router → Router) : (s.updRouter n f).arrays = s.arrays := rfl
@[simp] theorem State.updRouter_tiles (n : Nat) (f : Router → Router) : (s.updRouter n f).tiles = s.tiles := rfl
@[simp] theorem State.updRouter_spad (n : Nat) (f : Router → Router) : (s.updRouter n f).spad = s.spad := rfl
@[simp] theorem State.updRouter_mem (n : Nat) (f : Router → Router) : (s.updRouter n f).mem = s.mem := rfl
@[simp] theorem State.updRouter_parts (n : Nat) (f : Router → Router) : (s.updRouter n f).parts = s.parts := rfl
@[simp] theorem State.updRouter_accts (n : Nat) (f : Router → Router) : (s.updRouter n f).accts = s.accts := rfl
@[simp] theorem State.updRouter_ledger (n : Nat) (f : Router → Router) : (s.updRouter n f).ledger = s.ledger := rfl
@[simp] theorem State.updRouter_links (n : Nat) (f : Router → Router) : (s.updRouter n f).links = s.links := rfl
@[simp] theorem State.updRouter_fu (n : Nat) (f : Router → Router) : (s.updRouter n f).fu = s.fu := rfl
@[simp] theorem State.updRouter_host (n : Nat) (f : Router → Router) : (s.updRouter n f).host = s.host := rfl
@[simp] theorem State.updRouter_health (n : Nat) (f : Router → Router) : (s.updRouter n f).health = s.health := rfl
@[simp] theorem State.updRouter_mods (n : Nat) (f : Router → Router) : (s.updRouter n f).mods = s.mods := rfl
@[simp] theorem State.updRouter_power (n : Nat) (f : Router → Router) : (s.updRouter n f).power = s.power := rfl
@[simp] theorem State.updRouter_mgmt (n : Nat) (f : Router → Router) : (s.updRouter n f).mgmt = s.mgmt := rfl
@[simp] theorem State.updRouter_dict (n : Nat) (f : Router → Router) : (s.updRouter n f).dict = s.dict := rfl
@[simp] theorem State.updRouter_recd (n : Nat) (f : Router → Router) : (s.updRouter n f).recd = s.recd := rfl
@[simp] theorem State.updRouter_dawn (n : Nat) (f : Router → Router) : (s.updRouter n f).dawn = s.dawn := rfl

@[simp] theorem State.updFu_pending (f : FrameU → FrameU) : (s.updFu f).pending = s.pending := rfl
@[simp] theorem State.updFu_free (f : FrameU → FrameU) : (s.updFu f).free = s.free := rfl
@[simp] theorem State.updFu_arrays (f : FrameU → FrameU) : (s.updFu f).arrays = s.arrays := rfl
@[simp] theorem State.updFu_tiles (f : FrameU → FrameU) : (s.updFu f).tiles = s.tiles := rfl
@[simp] theorem State.updFu_spad (f : FrameU → FrameU) : (s.updFu f).spad = s.spad := rfl
@[simp] theorem State.updFu_mesh (f : FrameU → FrameU) : (s.updFu f).mesh = s.mesh := rfl
@[simp] theorem State.updFu_mem (f : FrameU → FrameU) : (s.updFu f).mem = s.mem := rfl
@[simp] theorem State.updFu_parts (f : FrameU → FrameU) : (s.updFu f).parts = s.parts := rfl
@[simp] theorem State.updFu_accts (f : FrameU → FrameU) : (s.updFu f).accts = s.accts := rfl
@[simp] theorem State.updFu_ledger (f : FrameU → FrameU) : (s.updFu f).ledger = s.ledger := rfl
@[simp] theorem State.updFu_links (f : FrameU → FrameU) : (s.updFu f).links = s.links := rfl
@[simp] theorem State.updFu_fu (f : FrameU → FrameU) : (s.updFu f).fu = f s.fu := rfl
@[simp] theorem State.updFu_host (f : FrameU → FrameU) : (s.updFu f).host = s.host := rfl
@[simp] theorem State.updFu_health (f : FrameU → FrameU) : (s.updFu f).health = s.health := rfl
@[simp] theorem State.updFu_mods (f : FrameU → FrameU) : (s.updFu f).mods = s.mods := rfl
@[simp] theorem State.updFu_power (f : FrameU → FrameU) : (s.updFu f).power = s.power := rfl
@[simp] theorem State.updFu_mgmt (f : FrameU → FrameU) : (s.updFu f).mgmt = s.mgmt := rfl
@[simp] theorem State.updFu_dict (f : FrameU → FrameU) : (s.updFu f).dict = s.dict := rfl
@[simp] theorem State.updFu_recd (f : FrameU → FrameU) : (s.updFu f).recd = s.recd := rfl
@[simp] theorem State.updFu_dawn (f : FrameU → FrameU) : (s.updFu f).dawn = s.dawn := rfl

@[simp] theorem State.updHealth_pending (f : Health → Health) : (s.updHealth f).pending = s.pending := rfl
@[simp] theorem State.updHealth_free (f : Health → Health) : (s.updHealth f).free = s.free := rfl
@[simp] theorem State.updHealth_arrays (f : Health → Health) : (s.updHealth f).arrays = s.arrays := rfl
@[simp] theorem State.updHealth_tiles (f : Health → Health) : (s.updHealth f).tiles = s.tiles := rfl
@[simp] theorem State.updHealth_spad (f : Health → Health) : (s.updHealth f).spad = s.spad := rfl
@[simp] theorem State.updHealth_mesh (f : Health → Health) : (s.updHealth f).mesh = s.mesh := rfl
@[simp] theorem State.updHealth_mem (f : Health → Health) : (s.updHealth f).mem = s.mem := rfl
@[simp] theorem State.updHealth_parts (f : Health → Health) : (s.updHealth f).parts = s.parts := rfl
@[simp] theorem State.updHealth_accts (f : Health → Health) : (s.updHealth f).accts = s.accts := rfl
@[simp] theorem State.updHealth_ledger (f : Health → Health) : (s.updHealth f).ledger = s.ledger := rfl
@[simp] theorem State.updHealth_links (f : Health → Health) : (s.updHealth f).links = s.links := rfl
@[simp] theorem State.updHealth_fu (f : Health → Health) : (s.updHealth f).fu = s.fu := rfl
@[simp] theorem State.updHealth_host (f : Health → Health) : (s.updHealth f).host = s.host := rfl
@[simp] theorem State.updHealth_health (f : Health → Health) : (s.updHealth f).health = f s.health := rfl
@[simp] theorem State.updHealth_mods (f : Health → Health) : (s.updHealth f).mods = s.mods := rfl
@[simp] theorem State.updHealth_power (f : Health → Health) : (s.updHealth f).power = s.power := rfl
@[simp] theorem State.updHealth_mgmt (f : Health → Health) : (s.updHealth f).mgmt = s.mgmt := rfl
@[simp] theorem State.updHealth_dict (f : Health → Health) : (s.updHealth f).dict = s.dict := rfl
@[simp] theorem State.updHealth_recd (f : Health → Health) : (s.updHealth f).recd = s.recd := rfl
@[simp] theorem State.updHealth_dawn (f : Health → Health) : (s.updHealth f).dawn = s.dawn := rfl

@[simp] theorem State.updLedger_pending (f : Ledger → Ledger) : (s.updLedger f).pending = s.pending := rfl
@[simp] theorem State.updLedger_free (f : Ledger → Ledger) : (s.updLedger f).free = s.free := rfl
@[simp] theorem State.updLedger_arrays (f : Ledger → Ledger) : (s.updLedger f).arrays = s.arrays := rfl
@[simp] theorem State.updLedger_tiles (f : Ledger → Ledger) : (s.updLedger f).tiles = s.tiles := rfl
@[simp] theorem State.updLedger_spad (f : Ledger → Ledger) : (s.updLedger f).spad = s.spad := rfl
@[simp] theorem State.updLedger_mesh (f : Ledger → Ledger) : (s.updLedger f).mesh = s.mesh := rfl
@[simp] theorem State.updLedger_mem (f : Ledger → Ledger) : (s.updLedger f).mem = s.mem := rfl
@[simp] theorem State.updLedger_parts (f : Ledger → Ledger) : (s.updLedger f).parts = s.parts := rfl
@[simp] theorem State.updLedger_accts (f : Ledger → Ledger) : (s.updLedger f).accts = s.accts := rfl
@[simp] theorem State.updLedger_ledger (f : Ledger → Ledger) : (s.updLedger f).ledger = f s.ledger := rfl
@[simp] theorem State.updLedger_links (f : Ledger → Ledger) : (s.updLedger f).links = s.links := rfl
@[simp] theorem State.updLedger_fu (f : Ledger → Ledger) : (s.updLedger f).fu = s.fu := rfl
@[simp] theorem State.updLedger_host (f : Ledger → Ledger) : (s.updLedger f).host = s.host := rfl
@[simp] theorem State.updLedger_health (f : Ledger → Ledger) : (s.updLedger f).health = s.health := rfl
@[simp] theorem State.updLedger_mods (f : Ledger → Ledger) : (s.updLedger f).mods = s.mods := rfl
@[simp] theorem State.updLedger_power (f : Ledger → Ledger) : (s.updLedger f).power = s.power := rfl
@[simp] theorem State.updLedger_mgmt (f : Ledger → Ledger) : (s.updLedger f).mgmt = s.mgmt := rfl
@[simp] theorem State.updLedger_dict (f : Ledger → Ledger) : (s.updLedger f).dict = s.dict := rfl
@[simp] theorem State.updLedger_recd (f : Ledger → Ledger) : (s.updLedger f).recd = s.recd := rfl
@[simp] theorem State.updLedger_dawn (f : Ledger → Ledger) : (s.updLedger f).dawn = s.dawn := rfl

@[simp] theorem State.updMgmt_pending (f : Mgmt → Mgmt) : (s.updMgmt f).pending = s.pending := rfl
@[simp] theorem State.updMgmt_free (f : Mgmt → Mgmt) : (s.updMgmt f).free = s.free := rfl
@[simp] theorem State.updMgmt_arrays (f : Mgmt → Mgmt) : (s.updMgmt f).arrays = s.arrays := rfl
@[simp] theorem State.updMgmt_tiles (f : Mgmt → Mgmt) : (s.updMgmt f).tiles = s.tiles := rfl
@[simp] theorem State.updMgmt_spad (f : Mgmt → Mgmt) : (s.updMgmt f).spad = s.spad := rfl
@[simp] theorem State.updMgmt_mesh (f : Mgmt → Mgmt) : (s.updMgmt f).mesh = s.mesh := rfl
@[simp] theorem State.updMgmt_mem (f : Mgmt → Mgmt) : (s.updMgmt f).mem = s.mem := rfl
@[simp] theorem State.updMgmt_parts (f : Mgmt → Mgmt) : (s.updMgmt f).parts = s.parts := rfl
@[simp] theorem State.updMgmt_accts (f : Mgmt → Mgmt) : (s.updMgmt f).accts = s.accts := rfl
@[simp] theorem State.updMgmt_ledger (f : Mgmt → Mgmt) : (s.updMgmt f).ledger = s.ledger := rfl
@[simp] theorem State.updMgmt_links (f : Mgmt → Mgmt) : (s.updMgmt f).links = s.links := rfl
@[simp] theorem State.updMgmt_fu (f : Mgmt → Mgmt) : (s.updMgmt f).fu = s.fu := rfl
@[simp] theorem State.updMgmt_host (f : Mgmt → Mgmt) : (s.updMgmt f).host = s.host := rfl
@[simp] theorem State.updMgmt_health (f : Mgmt → Mgmt) : (s.updMgmt f).health = s.health := rfl
@[simp] theorem State.updMgmt_mods (f : Mgmt → Mgmt) : (s.updMgmt f).mods = s.mods := rfl
@[simp] theorem State.updMgmt_power (f : Mgmt → Mgmt) : (s.updMgmt f).power = s.power := rfl
@[simp] theorem State.updMgmt_mgmt (f : Mgmt → Mgmt) : (s.updMgmt f).mgmt = f s.mgmt := rfl
@[simp] theorem State.updMgmt_dict (f : Mgmt → Mgmt) : (s.updMgmt f).dict = s.dict := rfl
@[simp] theorem State.updMgmt_recd (f : Mgmt → Mgmt) : (s.updMgmt f).recd = s.recd := rfl
@[simp] theorem State.updMgmt_dawn (f : Mgmt → Mgmt) : (s.updMgmt f).dawn = s.dawn := rfl

@[simp] theorem State.updDict_pending (f : Dict → Dict) : (s.updDict f).pending = s.pending := rfl
@[simp] theorem State.updDict_free (f : Dict → Dict) : (s.updDict f).free = s.free := rfl
@[simp] theorem State.updDict_arrays (f : Dict → Dict) : (s.updDict f).arrays = s.arrays := rfl
@[simp] theorem State.updDict_tiles (f : Dict → Dict) : (s.updDict f).tiles = s.tiles := rfl
@[simp] theorem State.updDict_spad (f : Dict → Dict) : (s.updDict f).spad = s.spad := rfl
@[simp] theorem State.updDict_mesh (f : Dict → Dict) : (s.updDict f).mesh = s.mesh := rfl
@[simp] theorem State.updDict_mem (f : Dict → Dict) : (s.updDict f).mem = s.mem := rfl
@[simp] theorem State.updDict_parts (f : Dict → Dict) : (s.updDict f).parts = s.parts := rfl
@[simp] theorem State.updDict_accts (f : Dict → Dict) : (s.updDict f).accts = s.accts := rfl
@[simp] theorem State.updDict_ledger (f : Dict → Dict) : (s.updDict f).ledger = s.ledger := rfl
@[simp] theorem State.updDict_links (f : Dict → Dict) : (s.updDict f).links = s.links := rfl
@[simp] theorem State.updDict_fu (f : Dict → Dict) : (s.updDict f).fu = s.fu := rfl
@[simp] theorem State.updDict_host (f : Dict → Dict) : (s.updDict f).host = s.host := rfl
@[simp] theorem State.updDict_health (f : Dict → Dict) : (s.updDict f).health = s.health := rfl
@[simp] theorem State.updDict_mods (f : Dict → Dict) : (s.updDict f).mods = s.mods := rfl
@[simp] theorem State.updDict_power (f : Dict → Dict) : (s.updDict f).power = s.power := rfl
@[simp] theorem State.updDict_mgmt (f : Dict → Dict) : (s.updDict f).mgmt = s.mgmt := rfl
@[simp] theorem State.updDict_dict (f : Dict → Dict) : (s.updDict f).dict = f s.dict := rfl
@[simp] theorem State.updDict_recd (f : Dict → Dict) : (s.updDict f).recd = s.recd := rfl
@[simp] theorem State.updDict_dawn (f : Dict → Dict) : (s.updDict f).dawn = s.dawn := rfl

@[simp] theorem State.updPower_pending (f : Power → Power) : (s.updPower f).pending = s.pending := rfl
@[simp] theorem State.updPower_free (f : Power → Power) : (s.updPower f).free = s.free := rfl
@[simp] theorem State.updPower_arrays (f : Power → Power) : (s.updPower f).arrays = s.arrays := rfl
@[simp] theorem State.updPower_tiles (f : Power → Power) : (s.updPower f).tiles = s.tiles := rfl
@[simp] theorem State.updPower_spad (f : Power → Power) : (s.updPower f).spad = s.spad := rfl
@[simp] theorem State.updPower_mesh (f : Power → Power) : (s.updPower f).mesh = s.mesh := rfl
@[simp] theorem State.updPower_mem (f : Power → Power) : (s.updPower f).mem = s.mem := rfl
@[simp] theorem State.updPower_parts (f : Power → Power) : (s.updPower f).parts = s.parts := rfl
@[simp] theorem State.updPower_accts (f : Power → Power) : (s.updPower f).accts = s.accts := rfl
@[simp] theorem State.updPower_ledger (f : Power → Power) : (s.updPower f).ledger = s.ledger := rfl
@[simp] theorem State.updPower_links (f : Power → Power) : (s.updPower f).links = s.links := rfl
@[simp] theorem State.updPower_fu (f : Power → Power) : (s.updPower f).fu = s.fu := rfl
@[simp] theorem State.updPower_host (f : Power → Power) : (s.updPower f).host = s.host := rfl
@[simp] theorem State.updPower_health (f : Power → Power) : (s.updPower f).health = s.health := rfl
@[simp] theorem State.updPower_mods (f : Power → Power) : (s.updPower f).mods = s.mods := rfl
@[simp] theorem State.updPower_power (f : Power → Power) : (s.updPower f).power = f s.power := rfl
@[simp] theorem State.updPower_mgmt (f : Power → Power) : (s.updPower f).mgmt = s.mgmt := rfl
@[simp] theorem State.updPower_dict (f : Power → Power) : (s.updPower f).dict = s.dict := rfl
@[simp] theorem State.updPower_recd (f : Power → Power) : (s.updPower f).recd = s.recd := rfl
@[simp] theorem State.updPower_dawn (f : Power → Power) : (s.updPower f).dawn = s.dawn := rfl

@[simp] theorem State.updHost_pending (f : HostSide → HostSide) : (s.updHost f).pending = s.pending := rfl
@[simp] theorem State.updHost_free (f : HostSide → HostSide) : (s.updHost f).free = s.free := rfl
@[simp] theorem State.updHost_arrays (f : HostSide → HostSide) : (s.updHost f).arrays = s.arrays := rfl
@[simp] theorem State.updHost_tiles (f : HostSide → HostSide) : (s.updHost f).tiles = s.tiles := rfl
@[simp] theorem State.updHost_spad (f : HostSide → HostSide) : (s.updHost f).spad = s.spad := rfl
@[simp] theorem State.updHost_mesh (f : HostSide → HostSide) : (s.updHost f).mesh = s.mesh := rfl
@[simp] theorem State.updHost_mem (f : HostSide → HostSide) : (s.updHost f).mem = s.mem := rfl
@[simp] theorem State.updHost_parts (f : HostSide → HostSide) : (s.updHost f).parts = s.parts := rfl
@[simp] theorem State.updHost_accts (f : HostSide → HostSide) : (s.updHost f).accts = s.accts := rfl
@[simp] theorem State.updHost_ledger (f : HostSide → HostSide) : (s.updHost f).ledger = s.ledger := rfl
@[simp] theorem State.updHost_links (f : HostSide → HostSide) : (s.updHost f).links = s.links := rfl
@[simp] theorem State.updHost_fu (f : HostSide → HostSide) : (s.updHost f).fu = s.fu := rfl
@[simp] theorem State.updHost_host (f : HostSide → HostSide) : (s.updHost f).host = f s.host := rfl
@[simp] theorem State.updHost_health (f : HostSide → HostSide) : (s.updHost f).health = s.health := rfl
@[simp] theorem State.updHost_mods (f : HostSide → HostSide) : (s.updHost f).mods = s.mods := rfl
@[simp] theorem State.updHost_power (f : HostSide → HostSide) : (s.updHost f).power = s.power := rfl
@[simp] theorem State.updHost_mgmt (f : HostSide → HostSide) : (s.updHost f).mgmt = s.mgmt := rfl
@[simp] theorem State.updHost_dict (f : HostSide → HostSide) : (s.updHost f).dict = s.dict := rfl
@[simp] theorem State.updHost_recd (f : HostSide → HostSide) : (s.updHost f).recd = s.recd := rfl
@[simp] theorem State.updHost_dawn (f : HostSide → HostSide) : (s.updHost f).dawn = s.dawn := rfl

@[simp] theorem State.updMem_pending (f : Memory → Memory) : (s.updMem f).pending = s.pending := rfl
@[simp] theorem State.updMem_free (f : Memory → Memory) : (s.updMem f).free = s.free := rfl
@[simp] theorem State.updMem_arrays (f : Memory → Memory) : (s.updMem f).arrays = s.arrays := rfl
@[simp] theorem State.updMem_tiles (f : Memory → Memory) : (s.updMem f).tiles = s.tiles := rfl
@[simp] theorem State.updMem_spad (f : Memory → Memory) : (s.updMem f).spad = s.spad := rfl
@[simp] theorem State.updMem_mesh (f : Memory → Memory) : (s.updMem f).mesh = s.mesh := rfl
@[simp] theorem State.updMem_mem (f : Memory → Memory) : (s.updMem f).mem = f s.mem := rfl
@[simp] theorem State.updMem_parts (f : Memory → Memory) : (s.updMem f).parts = s.parts := rfl
@[simp] theorem State.updMem_accts (f : Memory → Memory) : (s.updMem f).accts = s.accts := rfl
@[simp] theorem State.updMem_ledger (f : Memory → Memory) : (s.updMem f).ledger = s.ledger := rfl
@[simp] theorem State.updMem_links (f : Memory → Memory) : (s.updMem f).links = s.links := rfl
@[simp] theorem State.updMem_fu (f : Memory → Memory) : (s.updMem f).fu = s.fu := rfl
@[simp] theorem State.updMem_host (f : Memory → Memory) : (s.updMem f).host = s.host := rfl
@[simp] theorem State.updMem_health (f : Memory → Memory) : (s.updMem f).health = s.health := rfl
@[simp] theorem State.updMem_mods (f : Memory → Memory) : (s.updMem f).mods = s.mods := rfl
@[simp] theorem State.updMem_power (f : Memory → Memory) : (s.updMem f).power = s.power := rfl
@[simp] theorem State.updMem_mgmt (f : Memory → Memory) : (s.updMem f).mgmt = s.mgmt := rfl
@[simp] theorem State.updMem_dict (f : Memory → Memory) : (s.updMem f).dict = s.dict := rfl
@[simp] theorem State.updMem_recd (f : Memory → Memory) : (s.updMem f).recd = s.recd := rfl
@[simp] theorem State.updMem_dawn (f : Memory → Memory) : (s.updMem f).dawn = s.dawn := rfl

@[simp] theorem State.updMesh_pending (f : Mesh → Mesh) : (s.updMesh f).pending = s.pending := rfl
@[simp] theorem State.updMesh_free (f : Mesh → Mesh) : (s.updMesh f).free = s.free := rfl
@[simp] theorem State.updMesh_arrays (f : Mesh → Mesh) : (s.updMesh f).arrays = s.arrays := rfl
@[simp] theorem State.updMesh_tiles (f : Mesh → Mesh) : (s.updMesh f).tiles = s.tiles := rfl
@[simp] theorem State.updMesh_spad (f : Mesh → Mesh) : (s.updMesh f).spad = s.spad := rfl
@[simp] theorem State.updMesh_mesh (f : Mesh → Mesh) : (s.updMesh f).mesh = f s.mesh := rfl
@[simp] theorem State.updMesh_mem (f : Mesh → Mesh) : (s.updMesh f).mem = s.mem := rfl
@[simp] theorem State.updMesh_parts (f : Mesh → Mesh) : (s.updMesh f).parts = s.parts := rfl
@[simp] theorem State.updMesh_accts (f : Mesh → Mesh) : (s.updMesh f).accts = s.accts := rfl
@[simp] theorem State.updMesh_ledger (f : Mesh → Mesh) : (s.updMesh f).ledger = s.ledger := rfl
@[simp] theorem State.updMesh_links (f : Mesh → Mesh) : (s.updMesh f).links = s.links := rfl
@[simp] theorem State.updMesh_fu (f : Mesh → Mesh) : (s.updMesh f).fu = s.fu := rfl
@[simp] theorem State.updMesh_host (f : Mesh → Mesh) : (s.updMesh f).host = s.host := rfl
@[simp] theorem State.updMesh_health (f : Mesh → Mesh) : (s.updMesh f).health = s.health := rfl
@[simp] theorem State.updMesh_mods (f : Mesh → Mesh) : (s.updMesh f).mods = s.mods := rfl
@[simp] theorem State.updMesh_power (f : Mesh → Mesh) : (s.updMesh f).power = s.power := rfl
@[simp] theorem State.updMesh_mgmt (f : Mesh → Mesh) : (s.updMesh f).mgmt = s.mgmt := rfl
@[simp] theorem State.updMesh_dict (f : Mesh → Mesh) : (s.updMesh f).dict = s.dict := rfl
@[simp] theorem State.updMesh_recd (f : Mesh → Mesh) : (s.updMesh f).recd = s.recd := rfl
@[simp] theorem State.updMesh_dawn (f : Mesh → Mesh) : (s.updMesh f).dawn = s.dawn := rfl

@[simp] theorem State.updRec_pending (f : Recorder → Recorder) : (s.updRec f).pending = s.pending := rfl
@[simp] theorem State.updRec_free (f : Recorder → Recorder) : (s.updRec f).free = s.free := rfl
@[simp] theorem State.updRec_arrays (f : Recorder → Recorder) : (s.updRec f).arrays = s.arrays := rfl
@[simp] theorem State.updRec_tiles (f : Recorder → Recorder) : (s.updRec f).tiles = s.tiles := rfl
@[simp] theorem State.updRec_spad (f : Recorder → Recorder) : (s.updRec f).spad = s.spad := rfl
@[simp] theorem State.updRec_mesh (f : Recorder → Recorder) : (s.updRec f).mesh = s.mesh := rfl
@[simp] theorem State.updRec_mem (f : Recorder → Recorder) : (s.updRec f).mem = s.mem := rfl
@[simp] theorem State.updRec_parts (f : Recorder → Recorder) : (s.updRec f).parts = s.parts := rfl
@[simp] theorem State.updRec_accts (f : Recorder → Recorder) : (s.updRec f).accts = s.accts := rfl
@[simp] theorem State.updRec_ledger (f : Recorder → Recorder) : (s.updRec f).ledger = s.ledger := rfl
@[simp] theorem State.updRec_links (f : Recorder → Recorder) : (s.updRec f).links = s.links := rfl
@[simp] theorem State.updRec_fu (f : Recorder → Recorder) : (s.updRec f).fu = s.fu := rfl
@[simp] theorem State.updRec_host (f : Recorder → Recorder) : (s.updRec f).host = s.host := rfl
@[simp] theorem State.updRec_health (f : Recorder → Recorder) : (s.updRec f).health = s.health := rfl
@[simp] theorem State.updRec_mods (f : Recorder → Recorder) : (s.updRec f).mods = s.mods := rfl
@[simp] theorem State.updRec_power (f : Recorder → Recorder) : (s.updRec f).power = s.power := rfl
@[simp] theorem State.updRec_mgmt (f : Recorder → Recorder) : (s.updRec f).mgmt = s.mgmt := rfl
@[simp] theorem State.updRec_dict (f : Recorder → Recorder) : (s.updRec f).dict = s.dict := rfl
@[simp] theorem State.updRec_recd (f : Recorder → Recorder) : (s.updRec f).recd = f s.recd := rfl
@[simp] theorem State.updRec_dawn (f : Recorder → Recorder) : (s.updRec f).dawn = s.dawn := rfl

@[simp] theorem State.updDawn_pending (f : Dawn → Dawn) : (s.updDawn f).pending = s.pending := rfl
@[simp] theorem State.updDawn_free (f : Dawn → Dawn) : (s.updDawn f).free = s.free := rfl
@[simp] theorem State.updDawn_arrays (f : Dawn → Dawn) : (s.updDawn f).arrays = s.arrays := rfl
@[simp] theorem State.updDawn_tiles (f : Dawn → Dawn) : (s.updDawn f).tiles = s.tiles := rfl
@[simp] theorem State.updDawn_spad (f : Dawn → Dawn) : (s.updDawn f).spad = s.spad := rfl
@[simp] theorem State.updDawn_mesh (f : Dawn → Dawn) : (s.updDawn f).mesh = s.mesh := rfl
@[simp] theorem State.updDawn_mem (f : Dawn → Dawn) : (s.updDawn f).mem = s.mem := rfl
@[simp] theorem State.updDawn_parts (f : Dawn → Dawn) : (s.updDawn f).parts = s.parts := rfl
@[simp] theorem State.updDawn_accts (f : Dawn → Dawn) : (s.updDawn f).accts = s.accts := rfl
@[simp] theorem State.updDawn_ledger (f : Dawn → Dawn) : (s.updDawn f).ledger = s.ledger := rfl
@[simp] theorem State.updDawn_links (f : Dawn → Dawn) : (s.updDawn f).links = s.links := rfl
@[simp] theorem State.updDawn_fu (f : Dawn → Dawn) : (s.updDawn f).fu = s.fu := rfl
@[simp] theorem State.updDawn_host (f : Dawn → Dawn) : (s.updDawn f).host = s.host := rfl
@[simp] theorem State.updDawn_health (f : Dawn → Dawn) : (s.updDawn f).health = s.health := rfl
@[simp] theorem State.updDawn_mods (f : Dawn → Dawn) : (s.updDawn f).mods = s.mods := rfl
@[simp] theorem State.updDawn_power (f : Dawn → Dawn) : (s.updDawn f).power = s.power := rfl
@[simp] theorem State.updDawn_mgmt (f : Dawn → Dawn) : (s.updDawn f).mgmt = s.mgmt := rfl
@[simp] theorem State.updDawn_dict (f : Dawn → Dawn) : (s.updDawn f).dict = s.dict := rfl
@[simp] theorem State.updDawn_recd (f : Dawn → Dawn) : (s.updDawn f).recd = s.recd := rfl
@[simp] theorem State.updDawn_dawn (f : Dawn → Dawn) : (s.updDawn f).dawn = f s.dawn := rfl

@[simp] theorem State.pushRec_pending (p : Payload) (c : Bool) : (s.pushRec p c).pending = s.pending := rfl
@[simp] theorem State.pushRec_free (p : Payload) (c : Bool) : (s.pushRec p c).free = s.free := rfl
@[simp] theorem State.pushRec_arrays (p : Payload) (c : Bool) : (s.pushRec p c).arrays = s.arrays := rfl
@[simp] theorem State.pushRec_tiles (p : Payload) (c : Bool) : (s.pushRec p c).tiles = s.tiles := rfl
@[simp] theorem State.pushRec_spad (p : Payload) (c : Bool) : (s.pushRec p c).spad = s.spad := rfl
@[simp] theorem State.pushRec_mesh (p : Payload) (c : Bool) : (s.pushRec p c).mesh = s.mesh := rfl
@[simp] theorem State.pushRec_mem (p : Payload) (c : Bool) : (s.pushRec p c).mem = s.mem := rfl
@[simp] theorem State.pushRec_parts (p : Payload) (c : Bool) : (s.pushRec p c).parts = s.parts := rfl
@[simp] theorem State.pushRec_accts (p : Payload) (c : Bool) : (s.pushRec p c).accts = s.accts := rfl
@[simp] theorem State.pushRec_ledger (p : Payload) (c : Bool) : (s.pushRec p c).ledger = s.ledger := rfl
@[simp] theorem State.pushRec_links (p : Payload) (c : Bool) : (s.pushRec p c).links = s.links := rfl
@[simp] theorem State.pushRec_fu (p : Payload) (c : Bool) : (s.pushRec p c).fu = s.fu := rfl
@[simp] theorem State.pushRec_host (p : Payload) (c : Bool) : (s.pushRec p c).host = s.host := rfl
@[simp] theorem State.pushRec_health (p : Payload) (c : Bool) : (s.pushRec p c).health = s.health := rfl
@[simp] theorem State.pushRec_mods (p : Payload) (c : Bool) : (s.pushRec p c).mods = s.mods := rfl
@[simp] theorem State.pushRec_power (p : Payload) (c : Bool) : (s.pushRec p c).power = s.power := rfl
@[simp] theorem State.pushRec_mgmt (p : Payload) (c : Bool) : (s.pushRec p c).mgmt = s.mgmt := rfl
@[simp] theorem State.pushRec_dict (p : Payload) (c : Bool) : (s.pushRec p c).dict = s.dict := rfl
@[simp] theorem State.pushRec_dawn (p : Payload) (c : Bool) : (s.pushRec p c).dawn = s.dawn := rfl

@[simp] theorem State.assertSrc_pending (n : Nat) : (s.assertSrc n).pending = s.pending := rfl
@[simp] theorem State.assertSrc_free (n : Nat) : (s.assertSrc n).free = s.free := rfl
@[simp] theorem State.assertSrc_arrays (n : Nat) : (s.assertSrc n).arrays = s.arrays := rfl
@[simp] theorem State.assertSrc_tiles (n : Nat) : (s.assertSrc n).tiles = s.tiles := rfl
@[simp] theorem State.assertSrc_spad (n : Nat) : (s.assertSrc n).spad = s.spad := rfl
@[simp] theorem State.assertSrc_mesh (n : Nat) : (s.assertSrc n).mesh = s.mesh := rfl
@[simp] theorem State.assertSrc_mem (n : Nat) : (s.assertSrc n).mem = s.mem := rfl
@[simp] theorem State.assertSrc_parts (n : Nat) : (s.assertSrc n).parts = s.parts := rfl
@[simp] theorem State.assertSrc_accts (n : Nat) : (s.assertSrc n).accts = s.accts := rfl
@[simp] theorem State.assertSrc_ledger (n : Nat) : (s.assertSrc n).ledger = s.ledger := rfl
@[simp] theorem State.assertSrc_links (n : Nat) : (s.assertSrc n).links = s.links := rfl
@[simp] theorem State.assertSrc_fu (n : Nat) : (s.assertSrc n).fu = s.fu := rfl
@[simp] theorem State.assertSrc_host (n : Nat) : (s.assertSrc n).host = s.host := rfl
@[simp] theorem State.assertSrc_health (n : Nat) : (s.assertSrc n).health = s.health := rfl
@[simp] theorem State.assertSrc_mods (n : Nat) : (s.assertSrc n).mods = s.mods := rfl
@[simp] theorem State.assertSrc_power (n : Nat) : (s.assertSrc n).power = s.power := rfl
@[simp] theorem State.assertSrc_dict (n : Nat) : (s.assertSrc n).dict = s.dict := rfl
@[simp] theorem State.assertSrc_recd (n : Nat) : (s.assertSrc n).recd = s.recd := rfl
@[simp] theorem State.assertSrc_dawn (n : Nat) : (s.assertSrc n).dawn = s.dawn := rfl

@[simp] theorem State.clearSrc_pending (n : Nat) : (s.clearSrc n).pending = s.pending := rfl
@[simp] theorem State.clearSrc_free (n : Nat) : (s.clearSrc n).free = s.free := rfl
@[simp] theorem State.clearSrc_arrays (n : Nat) : (s.clearSrc n).arrays = s.arrays := rfl
@[simp] theorem State.clearSrc_tiles (n : Nat) : (s.clearSrc n).tiles = s.tiles := rfl
@[simp] theorem State.clearSrc_spad (n : Nat) : (s.clearSrc n).spad = s.spad := rfl
@[simp] theorem State.clearSrc_mesh (n : Nat) : (s.clearSrc n).mesh = s.mesh := rfl
@[simp] theorem State.clearSrc_mem (n : Nat) : (s.clearSrc n).mem = s.mem := rfl
@[simp] theorem State.clearSrc_parts (n : Nat) : (s.clearSrc n).parts = s.parts := rfl
@[simp] theorem State.clearSrc_accts (n : Nat) : (s.clearSrc n).accts = s.accts := rfl
@[simp] theorem State.clearSrc_ledger (n : Nat) : (s.clearSrc n).ledger = s.ledger := rfl
@[simp] theorem State.clearSrc_links (n : Nat) : (s.clearSrc n).links = s.links := rfl
@[simp] theorem State.clearSrc_fu (n : Nat) : (s.clearSrc n).fu = s.fu := rfl
@[simp] theorem State.clearSrc_host (n : Nat) : (s.clearSrc n).host = s.host := rfl
@[simp] theorem State.clearSrc_health (n : Nat) : (s.clearSrc n).health = s.health := rfl
@[simp] theorem State.clearSrc_mods (n : Nat) : (s.clearSrc n).mods = s.mods := rfl
@[simp] theorem State.clearSrc_power (n : Nat) : (s.clearSrc n).power = s.power := rfl
@[simp] theorem State.clearSrc_dict (n : Nat) : (s.clearSrc n).dict = s.dict := rfl
@[simp] theorem State.clearSrc_recd (n : Nat) : (s.clearSrc n).recd = s.recd := rfl
@[simp] theorem State.clearSrc_dawn (n : Nat) : (s.clearSrc n).dawn = s.dawn := rfl

@[simp] theorem State.flashWrite_pending (c : FlashCls) : (s.flashWrite c).pending = s.pending := rfl
@[simp] theorem State.flashWrite_free (c : FlashCls) : (s.flashWrite c).free = s.free := rfl
@[simp] theorem State.flashWrite_arrays (c : FlashCls) : (s.flashWrite c).arrays = s.arrays := rfl
@[simp] theorem State.flashWrite_tiles (c : FlashCls) : (s.flashWrite c).tiles = s.tiles := rfl
@[simp] theorem State.flashWrite_spad (c : FlashCls) : (s.flashWrite c).spad = s.spad := rfl
@[simp] theorem State.flashWrite_mesh (c : FlashCls) : (s.flashWrite c).mesh = s.mesh := rfl
@[simp] theorem State.flashWrite_mem (c : FlashCls) : (s.flashWrite c).mem = s.mem := rfl
@[simp] theorem State.flashWrite_parts (c : FlashCls) : (s.flashWrite c).parts = s.parts := rfl
@[simp] theorem State.flashWrite_accts (c : FlashCls) : (s.flashWrite c).accts = s.accts := rfl
@[simp] theorem State.flashWrite_ledger (c : FlashCls) : (s.flashWrite c).ledger = s.ledger := rfl
@[simp] theorem State.flashWrite_links (c : FlashCls) : (s.flashWrite c).links = s.links := rfl
@[simp] theorem State.flashWrite_fu (c : FlashCls) : (s.flashWrite c).fu = s.fu := rfl
@[simp] theorem State.flashWrite_host (c : FlashCls) : (s.flashWrite c).host = s.host := rfl
@[simp] theorem State.flashWrite_health (c : FlashCls) : (s.flashWrite c).health = s.health := rfl
@[simp] theorem State.flashWrite_mods (c : FlashCls) : (s.flashWrite c).mods = s.mods := rfl
@[simp] theorem State.flashWrite_power (c : FlashCls) : (s.flashWrite c).power = s.power := rfl
@[simp] theorem State.flashWrite_dict (c : FlashCls) : (s.flashWrite c).dict = s.dict := rfl
@[simp] theorem State.flashWrite_recd (c : FlashCls) : (s.flashWrite c).recd = s.recd := rfl
@[simp] theorem State.flashWrite_dawn (c : FlashCls) : (s.flashWrite c).dawn = s.dawn := rfl

@[simp] theorem State.setPadLine_pending (t l : Nat) (v : Line) : (s.setPadLine t l v).pending = s.pending := rfl
@[simp] theorem State.setPadLine_free (t l : Nat) (v : Line) : (s.setPadLine t l v).free = s.free := rfl
@[simp] theorem State.setPadLine_arrays (t l : Nat) (v : Line) : (s.setPadLine t l v).arrays = s.arrays := rfl
@[simp] theorem State.setPadLine_tiles (t l : Nat) (v : Line) : (s.setPadLine t l v).tiles = s.tiles := rfl
@[simp] theorem State.setPadLine_spad (t l : Nat) (v : Line) : (s.setPadLine t l v).spad = Cells.write s.spad (padBytes * t + 128 * l) (bytesOfLine v) := rfl
@[simp] theorem State.setPadLine_mesh (t l : Nat) (v : Line) : (s.setPadLine t l v).mesh = s.mesh := rfl
@[simp] theorem State.setPadLine_mem (t l : Nat) (v : Line) : (s.setPadLine t l v).mem = s.mem := rfl
@[simp] theorem State.setPadLine_parts (t l : Nat) (v : Line) : (s.setPadLine t l v).parts = s.parts := rfl
@[simp] theorem State.setPadLine_accts (t l : Nat) (v : Line) : (s.setPadLine t l v).accts = s.accts := rfl
@[simp] theorem State.setPadLine_ledger (t l : Nat) (v : Line) : (s.setPadLine t l v).ledger = s.ledger := rfl
@[simp] theorem State.setPadLine_links (t l : Nat) (v : Line) : (s.setPadLine t l v).links = s.links := rfl
@[simp] theorem State.setPadLine_fu (t l : Nat) (v : Line) : (s.setPadLine t l v).fu = s.fu := rfl
@[simp] theorem State.setPadLine_host (t l : Nat) (v : Line) : (s.setPadLine t l v).host = s.host := rfl
@[simp] theorem State.setPadLine_health (t l : Nat) (v : Line) : (s.setPadLine t l v).health = s.health := rfl
@[simp] theorem State.setPadLine_mods (t l : Nat) (v : Line) : (s.setPadLine t l v).mods = s.mods := rfl
@[simp] theorem State.setPadLine_power (t l : Nat) (v : Line) : (s.setPadLine t l v).power = s.power := rfl
@[simp] theorem State.setPadLine_mgmt (t l : Nat) (v : Line) : (s.setPadLine t l v).mgmt = s.mgmt := rfl
@[simp] theorem State.setPadLine_dict (t l : Nat) (v : Line) : (s.setPadLine t l v).dict = s.dict := rfl
@[simp] theorem State.setPadLine_recd (t l : Nat) (v : Line) : (s.setPadLine t l v).recd = s.recd := rfl
@[simp] theorem State.setPadLine_dawn (t l : Nat) (v : Line) : (s.setPadLine t l v).dawn = s.dawn := rfl

@[simp] theorem State.setPadWord_pending (t w : Nat) (v : W64) : (s.setPadWord t w v).pending = s.pending := rfl
@[simp] theorem State.setPadWord_free (t w : Nat) (v : W64) : (s.setPadWord t w v).free = s.free := rfl
@[simp] theorem State.setPadWord_arrays (t w : Nat) (v : W64) : (s.setPadWord t w v).arrays = s.arrays := rfl
@[simp] theorem State.setPadWord_tiles (t w : Nat) (v : W64) : (s.setPadWord t w v).tiles = s.tiles := rfl
@[simp] theorem State.setPadWord_spad (t w : Nat) (v : W64) : (s.setPadWord t w v).spad = Cells.write s.spad (padBytes * t + 8 * w) (bytesOfNat 8 v.toNat) := rfl
@[simp] theorem State.setPadWord_mesh (t w : Nat) (v : W64) : (s.setPadWord t w v).mesh = s.mesh := rfl
@[simp] theorem State.setPadWord_mem (t w : Nat) (v : W64) : (s.setPadWord t w v).mem = s.mem := rfl
@[simp] theorem State.setPadWord_parts (t w : Nat) (v : W64) : (s.setPadWord t w v).parts = s.parts := rfl
@[simp] theorem State.setPadWord_accts (t w : Nat) (v : W64) : (s.setPadWord t w v).accts = s.accts := rfl
@[simp] theorem State.setPadWord_ledger (t w : Nat) (v : W64) : (s.setPadWord t w v).ledger = s.ledger := rfl
@[simp] theorem State.setPadWord_links (t w : Nat) (v : W64) : (s.setPadWord t w v).links = s.links := rfl
@[simp] theorem State.setPadWord_fu (t w : Nat) (v : W64) : (s.setPadWord t w v).fu = s.fu := rfl
@[simp] theorem State.setPadWord_host (t w : Nat) (v : W64) : (s.setPadWord t w v).host = s.host := rfl
@[simp] theorem State.setPadWord_health (t w : Nat) (v : W64) : (s.setPadWord t w v).health = s.health := rfl
@[simp] theorem State.setPadWord_mods (t w : Nat) (v : W64) : (s.setPadWord t w v).mods = s.mods := rfl
@[simp] theorem State.setPadWord_power (t w : Nat) (v : W64) : (s.setPadWord t w v).power = s.power := rfl
@[simp] theorem State.setPadWord_mgmt (t w : Nat) (v : W64) : (s.setPadWord t w v).mgmt = s.mgmt := rfl
@[simp] theorem State.setPadWord_dict (t w : Nat) (v : W64) : (s.setPadWord t w v).dict = s.dict := rfl
@[simp] theorem State.setPadWord_recd (t w : Nat) (v : W64) : (s.setPadWord t w v).recd = s.recd := rfl
@[simp] theorem State.setPadWord_dawn (t w : Nat) (v : W64) : (s.setPadWord t w v).dawn = s.dawn := rfl

@[simp] theorem State.setMemLine_pending (l : Nat) (v : Line) : (s.setMemLine l v).pending = s.pending := rfl
@[simp] theorem State.setMemLine_free (l : Nat) (v : Line) : (s.setMemLine l v).free = s.free := rfl
@[simp] theorem State.setMemLine_arrays (l : Nat) (v : Line) : (s.setMemLine l v).arrays = s.arrays := rfl
@[simp] theorem State.setMemLine_tiles (l : Nat) (v : Line) : (s.setMemLine l v).tiles = s.tiles := rfl
@[simp] theorem State.setMemLine_spad (l : Nat) (v : Line) : (s.setMemLine l v).spad = s.spad := rfl
@[simp] theorem State.setMemLine_mesh (l : Nat) (v : Line) : (s.setMemLine l v).mesh = s.mesh := rfl
@[simp] theorem State.setMemLine_parts (l : Nat) (v : Line) : (s.setMemLine l v).parts = s.parts := rfl
@[simp] theorem State.setMemLine_accts (l : Nat) (v : Line) : (s.setMemLine l v).accts = s.accts := rfl
@[simp] theorem State.setMemLine_ledger (l : Nat) (v : Line) : (s.setMemLine l v).ledger = s.ledger := rfl
@[simp] theorem State.setMemLine_links (l : Nat) (v : Line) : (s.setMemLine l v).links = s.links := rfl
@[simp] theorem State.setMemLine_fu (l : Nat) (v : Line) : (s.setMemLine l v).fu = s.fu := rfl
@[simp] theorem State.setMemLine_host (l : Nat) (v : Line) : (s.setMemLine l v).host = s.host := rfl
@[simp] theorem State.setMemLine_health (l : Nat) (v : Line) : (s.setMemLine l v).health = s.health := rfl
@[simp] theorem State.setMemLine_mods (l : Nat) (v : Line) : (s.setMemLine l v).mods = s.mods := rfl
@[simp] theorem State.setMemLine_power (l : Nat) (v : Line) : (s.setMemLine l v).power = s.power := rfl
@[simp] theorem State.setMemLine_mgmt (l : Nat) (v : Line) : (s.setMemLine l v).mgmt = s.mgmt := rfl
@[simp] theorem State.setMemLine_dict (l : Nat) (v : Line) : (s.setMemLine l v).dict = s.dict := rfl
@[simp] theorem State.setMemLine_recd (l : Nat) (v : Line) : (s.setMemLine l v).recd = s.recd := rfl
@[simp] theorem State.setMemLine_dawn (l : Nat) (v : Line) : (s.setMemLine l v).dawn = s.dawn := rfl

@[simp] theorem State.tile_freed_of (k : Nat) : s.freed.tile k = s.tile k := rfl
@[simp] theorem State.array_freed_of (k : Nat) : s.freed.array k = s.array k := rfl
@[simp] theorem State.part_freed_of (k : Nat) : s.freed.part k = s.part k := rfl
@[simp] theorem State.acct_freed_of (k : Nat) : s.freed.acct k = s.acct k := rfl
@[simp] theorem State.link_freed_of (k : Nat) : s.freed.link k = s.link k := rfl
@[simp] theorem State.module_freed_of (k : Nat) : s.freed.module k = s.module k := rfl
@[simp] theorem State.sess_freed_of (k : Nat) : s.freed.sess k = s.sess k := rfl
@[simp] theorem State.window_freed_of (k : Nat) : s.freed.window k = s.window k := rfl
@[simp] theorem State.port_freed_of (k : Nat) : s.freed.port k = s.port k := rfl
@[simp] theorem State.stack_freed_of (k : Nat) : s.freed.stack k = s.stack k := rfl
@[simp] theorem State.engine_freed_of (k : Nat) : s.freed.engine k = s.engine k := rfl
@[simp] theorem State.ctxAt_freed_of (k : Nat) : s.freed.ctxAt k = s.ctxAt k := rfl

@[simp] theorem State.array_setTile_of (n : Nat) (v : Tile) (k : Nat) : (s.setTile n v).array k = s.array k := rfl
@[simp] theorem State.part_setTile_of (n : Nat) (v : Tile) (k : Nat) : (s.setTile n v).part k = s.part k := rfl
@[simp] theorem State.acct_setTile_of (n : Nat) (v : Tile) (k : Nat) : (s.setTile n v).acct k = s.acct k := rfl
@[simp] theorem State.link_setTile_of (n : Nat) (v : Tile) (k : Nat) : (s.setTile n v).link k = s.link k := rfl
@[simp] theorem State.module_setTile_of (n : Nat) (v : Tile) (k : Nat) : (s.setTile n v).module k = s.module k := rfl
@[simp] theorem State.sess_setTile_of (n : Nat) (v : Tile) (k : Nat) : (s.setTile n v).sess k = s.sess k := rfl
@[simp] theorem State.window_setTile_of (n : Nat) (v : Tile) (k : Nat) : (s.setTile n v).window k = s.window k := rfl
@[simp] theorem State.port_setTile_of (n : Nat) (v : Tile) (k : Nat) : (s.setTile n v).port k = s.port k := rfl
@[simp] theorem State.stack_setTile_of (n : Nat) (v : Tile) (k : Nat) : (s.setTile n v).stack k = s.stack k := rfl
@[simp] theorem State.engine_setTile_of (n : Nat) (v : Tile) (k : Nat) : (s.setTile n v).engine k = s.engine k := rfl
@[simp] theorem State.ctxAt_setTile_of (n : Nat) (v : Tile) (k : Nat) : (s.setTile n v).ctxAt k = s.ctxAt k := rfl

@[simp] theorem State.array_updTile_of (n : Nat) (f : Tile → Tile) (k : Nat) : (s.updTile n f).array k = s.array k := rfl
@[simp] theorem State.part_updTile_of (n : Nat) (f : Tile → Tile) (k : Nat) : (s.updTile n f).part k = s.part k := rfl
@[simp] theorem State.acct_updTile_of (n : Nat) (f : Tile → Tile) (k : Nat) : (s.updTile n f).acct k = s.acct k := rfl
@[simp] theorem State.link_updTile_of (n : Nat) (f : Tile → Tile) (k : Nat) : (s.updTile n f).link k = s.link k := rfl
@[simp] theorem State.module_updTile_of (n : Nat) (f : Tile → Tile) (k : Nat) : (s.updTile n f).module k = s.module k := rfl
@[simp] theorem State.sess_updTile_of (n : Nat) (f : Tile → Tile) (k : Nat) : (s.updTile n f).sess k = s.sess k := rfl
@[simp] theorem State.window_updTile_of (n : Nat) (f : Tile → Tile) (k : Nat) : (s.updTile n f).window k = s.window k := rfl
@[simp] theorem State.port_updTile_of (n : Nat) (f : Tile → Tile) (k : Nat) : (s.updTile n f).port k = s.port k := rfl
@[simp] theorem State.stack_updTile_of (n : Nat) (f : Tile → Tile) (k : Nat) : (s.updTile n f).stack k = s.stack k := rfl
@[simp] theorem State.engine_updTile_of (n : Nat) (f : Tile → Tile) (k : Nat) : (s.updTile n f).engine k = s.engine k := rfl
@[simp] theorem State.ctxAt_updTile_of (n : Nat) (f : Tile → Tile) (k : Nat) : (s.updTile n f).ctxAt k = s.ctxAt k := rfl

@[simp] theorem State.tile_setArray_of (n : Nat) (v : ArrayS) (k : Nat) : (s.setArray n v).tile k = s.tile k := rfl
@[simp] theorem State.part_setArray_of (n : Nat) (v : ArrayS) (k : Nat) : (s.setArray n v).part k = s.part k := rfl
@[simp] theorem State.acct_setArray_of (n : Nat) (v : ArrayS) (k : Nat) : (s.setArray n v).acct k = s.acct k := rfl
@[simp] theorem State.link_setArray_of (n : Nat) (v : ArrayS) (k : Nat) : (s.setArray n v).link k = s.link k := rfl
@[simp] theorem State.module_setArray_of (n : Nat) (v : ArrayS) (k : Nat) : (s.setArray n v).module k = s.module k := rfl
@[simp] theorem State.sess_setArray_of (n : Nat) (v : ArrayS) (k : Nat) : (s.setArray n v).sess k = s.sess k := rfl
@[simp] theorem State.window_setArray_of (n : Nat) (v : ArrayS) (k : Nat) : (s.setArray n v).window k = s.window k := rfl
@[simp] theorem State.port_setArray_of (n : Nat) (v : ArrayS) (k : Nat) : (s.setArray n v).port k = s.port k := rfl
@[simp] theorem State.stack_setArray_of (n : Nat) (v : ArrayS) (k : Nat) : (s.setArray n v).stack k = s.stack k := rfl
@[simp] theorem State.engine_setArray_of (n : Nat) (v : ArrayS) (k : Nat) : (s.setArray n v).engine k = s.engine k := rfl
@[simp] theorem State.ctxAt_setArray_of (n : Nat) (v : ArrayS) (k : Nat) : (s.setArray n v).ctxAt k = s.ctxAt k := rfl

@[simp] theorem State.tile_updArray_of (n : Nat) (f : ArrayS → ArrayS) (k : Nat) : (s.updArray n f).tile k = s.tile k := rfl
@[simp] theorem State.part_updArray_of (n : Nat) (f : ArrayS → ArrayS) (k : Nat) : (s.updArray n f).part k = s.part k := rfl
@[simp] theorem State.acct_updArray_of (n : Nat) (f : ArrayS → ArrayS) (k : Nat) : (s.updArray n f).acct k = s.acct k := rfl
@[simp] theorem State.link_updArray_of (n : Nat) (f : ArrayS → ArrayS) (k : Nat) : (s.updArray n f).link k = s.link k := rfl
@[simp] theorem State.module_updArray_of (n : Nat) (f : ArrayS → ArrayS) (k : Nat) : (s.updArray n f).module k = s.module k := rfl
@[simp] theorem State.sess_updArray_of (n : Nat) (f : ArrayS → ArrayS) (k : Nat) : (s.updArray n f).sess k = s.sess k := rfl
@[simp] theorem State.window_updArray_of (n : Nat) (f : ArrayS → ArrayS) (k : Nat) : (s.updArray n f).window k = s.window k := rfl
@[simp] theorem State.port_updArray_of (n : Nat) (f : ArrayS → ArrayS) (k : Nat) : (s.updArray n f).port k = s.port k := rfl
@[simp] theorem State.stack_updArray_of (n : Nat) (f : ArrayS → ArrayS) (k : Nat) : (s.updArray n f).stack k = s.stack k := rfl
@[simp] theorem State.engine_updArray_of (n : Nat) (f : ArrayS → ArrayS) (k : Nat) : (s.updArray n f).engine k = s.engine k := rfl
@[simp] theorem State.ctxAt_updArray_of (n : Nat) (f : ArrayS → ArrayS) (k : Nat) : (s.updArray n f).ctxAt k = s.ctxAt k := rfl

@[simp] theorem State.tile_setPart_of (n : Nat) (v : Part) (k : Nat) : (s.setPart n v).tile k = s.tile k := rfl
@[simp] theorem State.array_setPart_of (n : Nat) (v : Part) (k : Nat) : (s.setPart n v).array k = s.array k := rfl
@[simp] theorem State.acct_setPart_of (n : Nat) (v : Part) (k : Nat) : (s.setPart n v).acct k = s.acct k := rfl
@[simp] theorem State.link_setPart_of (n : Nat) (v : Part) (k : Nat) : (s.setPart n v).link k = s.link k := rfl
@[simp] theorem State.module_setPart_of (n : Nat) (v : Part) (k : Nat) : (s.setPart n v).module k = s.module k := rfl
@[simp] theorem State.sess_setPart_of (n : Nat) (v : Part) (k : Nat) : (s.setPart n v).sess k = s.sess k := rfl
@[simp] theorem State.window_setPart_of (n : Nat) (v : Part) (k : Nat) : (s.setPart n v).window k = s.window k := rfl
@[simp] theorem State.port_setPart_of (n : Nat) (v : Part) (k : Nat) : (s.setPart n v).port k = s.port k := rfl
@[simp] theorem State.stack_setPart_of (n : Nat) (v : Part) (k : Nat) : (s.setPart n v).stack k = s.stack k := rfl
@[simp] theorem State.engine_setPart_of (n : Nat) (v : Part) (k : Nat) : (s.setPart n v).engine k = s.engine k := rfl
@[simp] theorem State.ctxAt_setPart_of (n : Nat) (v : Part) (k : Nat) : (s.setPart n v).ctxAt k = s.ctxAt k := rfl

@[simp] theorem State.tile_updPart_of (n : Nat) (f : Part → Part) (k : Nat) : (s.updPart n f).tile k = s.tile k := rfl
@[simp] theorem State.array_updPart_of (n : Nat) (f : Part → Part) (k : Nat) : (s.updPart n f).array k = s.array k := rfl
@[simp] theorem State.acct_updPart_of (n : Nat) (f : Part → Part) (k : Nat) : (s.updPart n f).acct k = s.acct k := rfl
@[simp] theorem State.link_updPart_of (n : Nat) (f : Part → Part) (k : Nat) : (s.updPart n f).link k = s.link k := rfl
@[simp] theorem State.module_updPart_of (n : Nat) (f : Part → Part) (k : Nat) : (s.updPart n f).module k = s.module k := rfl
@[simp] theorem State.sess_updPart_of (n : Nat) (f : Part → Part) (k : Nat) : (s.updPart n f).sess k = s.sess k := rfl
@[simp] theorem State.window_updPart_of (n : Nat) (f : Part → Part) (k : Nat) : (s.updPart n f).window k = s.window k := rfl
@[simp] theorem State.port_updPart_of (n : Nat) (f : Part → Part) (k : Nat) : (s.updPart n f).port k = s.port k := rfl
@[simp] theorem State.stack_updPart_of (n : Nat) (f : Part → Part) (k : Nat) : (s.updPart n f).stack k = s.stack k := rfl
@[simp] theorem State.engine_updPart_of (n : Nat) (f : Part → Part) (k : Nat) : (s.updPart n f).engine k = s.engine k := rfl
@[simp] theorem State.ctxAt_updPart_of (n : Nat) (f : Part → Part) (k : Nat) : (s.updPart n f).ctxAt k = s.ctxAt k := rfl

@[simp] theorem State.tile_setAcct_of (n : Nat) (v : Account) (k : Nat) : (s.setAcct n v).tile k = s.tile k := rfl
@[simp] theorem State.array_setAcct_of (n : Nat) (v : Account) (k : Nat) : (s.setAcct n v).array k = s.array k := rfl
@[simp] theorem State.part_setAcct_of (n : Nat) (v : Account) (k : Nat) : (s.setAcct n v).part k = s.part k := rfl
@[simp] theorem State.link_setAcct_of (n : Nat) (v : Account) (k : Nat) : (s.setAcct n v).link k = s.link k := rfl
@[simp] theorem State.module_setAcct_of (n : Nat) (v : Account) (k : Nat) : (s.setAcct n v).module k = s.module k := rfl
@[simp] theorem State.sess_setAcct_of (n : Nat) (v : Account) (k : Nat) : (s.setAcct n v).sess k = s.sess k := rfl
@[simp] theorem State.window_setAcct_of (n : Nat) (v : Account) (k : Nat) : (s.setAcct n v).window k = s.window k := rfl
@[simp] theorem State.port_setAcct_of (n : Nat) (v : Account) (k : Nat) : (s.setAcct n v).port k = s.port k := rfl
@[simp] theorem State.stack_setAcct_of (n : Nat) (v : Account) (k : Nat) : (s.setAcct n v).stack k = s.stack k := rfl
@[simp] theorem State.engine_setAcct_of (n : Nat) (v : Account) (k : Nat) : (s.setAcct n v).engine k = s.engine k := rfl
@[simp] theorem State.ctxAt_setAcct_of (n : Nat) (v : Account) (k : Nat) : (s.setAcct n v).ctxAt k = s.ctxAt k := rfl

@[simp] theorem State.tile_updAcct_of (n : Nat) (f : Account → Account) (k : Nat) : (s.updAcct n f).tile k = s.tile k := rfl
@[simp] theorem State.array_updAcct_of (n : Nat) (f : Account → Account) (k : Nat) : (s.updAcct n f).array k = s.array k := rfl
@[simp] theorem State.part_updAcct_of (n : Nat) (f : Account → Account) (k : Nat) : (s.updAcct n f).part k = s.part k := rfl
@[simp] theorem State.link_updAcct_of (n : Nat) (f : Account → Account) (k : Nat) : (s.updAcct n f).link k = s.link k := rfl
@[simp] theorem State.module_updAcct_of (n : Nat) (f : Account → Account) (k : Nat) : (s.updAcct n f).module k = s.module k := rfl
@[simp] theorem State.sess_updAcct_of (n : Nat) (f : Account → Account) (k : Nat) : (s.updAcct n f).sess k = s.sess k := rfl
@[simp] theorem State.window_updAcct_of (n : Nat) (f : Account → Account) (k : Nat) : (s.updAcct n f).window k = s.window k := rfl
@[simp] theorem State.port_updAcct_of (n : Nat) (f : Account → Account) (k : Nat) : (s.updAcct n f).port k = s.port k := rfl
@[simp] theorem State.stack_updAcct_of (n : Nat) (f : Account → Account) (k : Nat) : (s.updAcct n f).stack k = s.stack k := rfl
@[simp] theorem State.engine_updAcct_of (n : Nat) (f : Account → Account) (k : Nat) : (s.updAcct n f).engine k = s.engine k := rfl
@[simp] theorem State.ctxAt_updAcct_of (n : Nat) (f : Account → Account) (k : Nat) : (s.updAcct n f).ctxAt k = s.ctxAt k := rfl

@[simp] theorem State.tile_setLink_of (n : Nat) (v : Endpoint) (k : Nat) : (s.setLink n v).tile k = s.tile k := rfl
@[simp] theorem State.array_setLink_of (n : Nat) (v : Endpoint) (k : Nat) : (s.setLink n v).array k = s.array k := rfl
@[simp] theorem State.part_setLink_of (n : Nat) (v : Endpoint) (k : Nat) : (s.setLink n v).part k = s.part k := rfl
@[simp] theorem State.acct_setLink_of (n : Nat) (v : Endpoint) (k : Nat) : (s.setLink n v).acct k = s.acct k := rfl
@[simp] theorem State.module_setLink_of (n : Nat) (v : Endpoint) (k : Nat) : (s.setLink n v).module k = s.module k := rfl
@[simp] theorem State.sess_setLink_of (n : Nat) (v : Endpoint) (k : Nat) : (s.setLink n v).sess k = s.sess k := rfl
@[simp] theorem State.window_setLink_of (n : Nat) (v : Endpoint) (k : Nat) : (s.setLink n v).window k = s.window k := rfl
@[simp] theorem State.port_setLink_of (n : Nat) (v : Endpoint) (k : Nat) : (s.setLink n v).port k = s.port k := rfl
@[simp] theorem State.stack_setLink_of (n : Nat) (v : Endpoint) (k : Nat) : (s.setLink n v).stack k = s.stack k := rfl
@[simp] theorem State.engine_setLink_of (n : Nat) (v : Endpoint) (k : Nat) : (s.setLink n v).engine k = s.engine k := rfl
@[simp] theorem State.ctxAt_setLink_of (n : Nat) (v : Endpoint) (k : Nat) : (s.setLink n v).ctxAt k = s.ctxAt k := rfl

@[simp] theorem State.tile_updLink_of (n : Nat) (f : Endpoint → Endpoint) (k : Nat) : (s.updLink n f).tile k = s.tile k := rfl
@[simp] theorem State.array_updLink_of (n : Nat) (f : Endpoint → Endpoint) (k : Nat) : (s.updLink n f).array k = s.array k := rfl
@[simp] theorem State.part_updLink_of (n : Nat) (f : Endpoint → Endpoint) (k : Nat) : (s.updLink n f).part k = s.part k := rfl
@[simp] theorem State.acct_updLink_of (n : Nat) (f : Endpoint → Endpoint) (k : Nat) : (s.updLink n f).acct k = s.acct k := rfl
@[simp] theorem State.module_updLink_of (n : Nat) (f : Endpoint → Endpoint) (k : Nat) : (s.updLink n f).module k = s.module k := rfl
@[simp] theorem State.sess_updLink_of (n : Nat) (f : Endpoint → Endpoint) (k : Nat) : (s.updLink n f).sess k = s.sess k := rfl
@[simp] theorem State.window_updLink_of (n : Nat) (f : Endpoint → Endpoint) (k : Nat) : (s.updLink n f).window k = s.window k := rfl
@[simp] theorem State.port_updLink_of (n : Nat) (f : Endpoint → Endpoint) (k : Nat) : (s.updLink n f).port k = s.port k := rfl
@[simp] theorem State.stack_updLink_of (n : Nat) (f : Endpoint → Endpoint) (k : Nat) : (s.updLink n f).stack k = s.stack k := rfl
@[simp] theorem State.engine_updLink_of (n : Nat) (f : Endpoint → Endpoint) (k : Nat) : (s.updLink n f).engine k = s.engine k := rfl
@[simp] theorem State.ctxAt_updLink_of (n : Nat) (f : Endpoint → Endpoint) (k : Nat) : (s.updLink n f).ctxAt k = s.ctxAt k := rfl

@[simp] theorem State.tile_setModule_of (n : Nat) (v : Module) (k : Nat) : (s.setModule n v).tile k = s.tile k := rfl
@[simp] theorem State.array_setModule_of (n : Nat) (v : Module) (k : Nat) : (s.setModule n v).array k = s.array k := rfl
@[simp] theorem State.part_setModule_of (n : Nat) (v : Module) (k : Nat) : (s.setModule n v).part k = s.part k := rfl
@[simp] theorem State.acct_setModule_of (n : Nat) (v : Module) (k : Nat) : (s.setModule n v).acct k = s.acct k := rfl
@[simp] theorem State.link_setModule_of (n : Nat) (v : Module) (k : Nat) : (s.setModule n v).link k = s.link k := rfl
@[simp] theorem State.sess_setModule_of (n : Nat) (v : Module) (k : Nat) : (s.setModule n v).sess k = s.sess k := rfl
@[simp] theorem State.window_setModule_of (n : Nat) (v : Module) (k : Nat) : (s.setModule n v).window k = s.window k := rfl
@[simp] theorem State.port_setModule_of (n : Nat) (v : Module) (k : Nat) : (s.setModule n v).port k = s.port k := rfl
@[simp] theorem State.stack_setModule_of (n : Nat) (v : Module) (k : Nat) : (s.setModule n v).stack k = s.stack k := rfl
@[simp] theorem State.engine_setModule_of (n : Nat) (v : Module) (k : Nat) : (s.setModule n v).engine k = s.engine k := rfl
@[simp] theorem State.ctxAt_setModule_of (n : Nat) (v : Module) (k : Nat) : (s.setModule n v).ctxAt k = s.ctxAt k := rfl

@[simp] theorem State.tile_updModule_of (n : Nat) (f : Module → Module) (k : Nat) : (s.updModule n f).tile k = s.tile k := rfl
@[simp] theorem State.array_updModule_of (n : Nat) (f : Module → Module) (k : Nat) : (s.updModule n f).array k = s.array k := rfl
@[simp] theorem State.part_updModule_of (n : Nat) (f : Module → Module) (k : Nat) : (s.updModule n f).part k = s.part k := rfl
@[simp] theorem State.acct_updModule_of (n : Nat) (f : Module → Module) (k : Nat) : (s.updModule n f).acct k = s.acct k := rfl
@[simp] theorem State.link_updModule_of (n : Nat) (f : Module → Module) (k : Nat) : (s.updModule n f).link k = s.link k := rfl
@[simp] theorem State.sess_updModule_of (n : Nat) (f : Module → Module) (k : Nat) : (s.updModule n f).sess k = s.sess k := rfl
@[simp] theorem State.window_updModule_of (n : Nat) (f : Module → Module) (k : Nat) : (s.updModule n f).window k = s.window k := rfl
@[simp] theorem State.port_updModule_of (n : Nat) (f : Module → Module) (k : Nat) : (s.updModule n f).port k = s.port k := rfl
@[simp] theorem State.stack_updModule_of (n : Nat) (f : Module → Module) (k : Nat) : (s.updModule n f).stack k = s.stack k := rfl
@[simp] theorem State.engine_updModule_of (n : Nat) (f : Module → Module) (k : Nat) : (s.updModule n f).engine k = s.engine k := rfl
@[simp] theorem State.ctxAt_updModule_of (n : Nat) (f : Module → Module) (k : Nat) : (s.updModule n f).ctxAt k = s.ctxAt k := rfl

@[simp] theorem State.array_mapTiles_of (f : Nat → Tile → Tile) (k : Nat) : (s.mapTiles f).array k = s.array k := rfl
@[simp] theorem State.part_mapTiles_of (f : Nat → Tile → Tile) (k : Nat) : (s.mapTiles f).part k = s.part k := rfl
@[simp] theorem State.acct_mapTiles_of (f : Nat → Tile → Tile) (k : Nat) : (s.mapTiles f).acct k = s.acct k := rfl
@[simp] theorem State.link_mapTiles_of (f : Nat → Tile → Tile) (k : Nat) : (s.mapTiles f).link k = s.link k := rfl
@[simp] theorem State.module_mapTiles_of (f : Nat → Tile → Tile) (k : Nat) : (s.mapTiles f).module k = s.module k := rfl
@[simp] theorem State.sess_mapTiles_of (f : Nat → Tile → Tile) (k : Nat) : (s.mapTiles f).sess k = s.sess k := rfl
@[simp] theorem State.window_mapTiles_of (f : Nat → Tile → Tile) (k : Nat) : (s.mapTiles f).window k = s.window k := rfl
@[simp] theorem State.port_mapTiles_of (f : Nat → Tile → Tile) (k : Nat) : (s.mapTiles f).port k = s.port k := rfl
@[simp] theorem State.stack_mapTiles_of (f : Nat → Tile → Tile) (k : Nat) : (s.mapTiles f).stack k = s.stack k := rfl
@[simp] theorem State.engine_mapTiles_of (f : Nat → Tile → Tile) (k : Nat) : (s.mapTiles f).engine k = s.engine k := rfl
@[simp] theorem State.ctxAt_mapTiles_of (f : Nat → Tile → Tile) (k : Nat) : (s.mapTiles f).ctxAt k = s.ctxAt k := rfl

@[simp] theorem State.tile_mapParts_of (f : Nat → Part → Part) (k : Nat) : (s.mapParts f).tile k = s.tile k := rfl
@[simp] theorem State.array_mapParts_of (f : Nat → Part → Part) (k : Nat) : (s.mapParts f).array k = s.array k := rfl
@[simp] theorem State.acct_mapParts_of (f : Nat → Part → Part) (k : Nat) : (s.mapParts f).acct k = s.acct k := rfl
@[simp] theorem State.link_mapParts_of (f : Nat → Part → Part) (k : Nat) : (s.mapParts f).link k = s.link k := rfl
@[simp] theorem State.module_mapParts_of (f : Nat → Part → Part) (k : Nat) : (s.mapParts f).module k = s.module k := rfl
@[simp] theorem State.sess_mapParts_of (f : Nat → Part → Part) (k : Nat) : (s.mapParts f).sess k = s.sess k := rfl
@[simp] theorem State.window_mapParts_of (f : Nat → Part → Part) (k : Nat) : (s.mapParts f).window k = s.window k := rfl
@[simp] theorem State.port_mapParts_of (f : Nat → Part → Part) (k : Nat) : (s.mapParts f).port k = s.port k := rfl
@[simp] theorem State.stack_mapParts_of (f : Nat → Part → Part) (k : Nat) : (s.mapParts f).stack k = s.stack k := rfl
@[simp] theorem State.engine_mapParts_of (f : Nat → Part → Part) (k : Nat) : (s.mapParts f).engine k = s.engine k := rfl
@[simp] theorem State.ctxAt_mapParts_of (f : Nat → Part → Part) (k : Nat) : (s.mapParts f).ctxAt k = s.ctxAt k := rfl

@[simp] theorem State.tile_mapAccts_of (f : Nat → Account → Account) (k : Nat) : (s.mapAccts f).tile k = s.tile k := rfl
@[simp] theorem State.array_mapAccts_of (f : Nat → Account → Account) (k : Nat) : (s.mapAccts f).array k = s.array k := rfl
@[simp] theorem State.part_mapAccts_of (f : Nat → Account → Account) (k : Nat) : (s.mapAccts f).part k = s.part k := rfl
@[simp] theorem State.link_mapAccts_of (f : Nat → Account → Account) (k : Nat) : (s.mapAccts f).link k = s.link k := rfl
@[simp] theorem State.module_mapAccts_of (f : Nat → Account → Account) (k : Nat) : (s.mapAccts f).module k = s.module k := rfl
@[simp] theorem State.sess_mapAccts_of (f : Nat → Account → Account) (k : Nat) : (s.mapAccts f).sess k = s.sess k := rfl
@[simp] theorem State.window_mapAccts_of (f : Nat → Account → Account) (k : Nat) : (s.mapAccts f).window k = s.window k := rfl
@[simp] theorem State.port_mapAccts_of (f : Nat → Account → Account) (k : Nat) : (s.mapAccts f).port k = s.port k := rfl
@[simp] theorem State.stack_mapAccts_of (f : Nat → Account → Account) (k : Nat) : (s.mapAccts f).stack k = s.stack k := rfl
@[simp] theorem State.engine_mapAccts_of (f : Nat → Account → Account) (k : Nat) : (s.mapAccts f).engine k = s.engine k := rfl
@[simp] theorem State.ctxAt_mapAccts_of (f : Nat → Account → Account) (k : Nat) : (s.mapAccts f).ctxAt k = s.ctxAt k := rfl

@[simp] theorem State.tile_setSess_of (n : Nat) (v : Session) (k : Nat) : (s.setSess n v).tile k = s.tile k := rfl
@[simp] theorem State.array_setSess_of (n : Nat) (v : Session) (k : Nat) : (s.setSess n v).array k = s.array k := rfl
@[simp] theorem State.part_setSess_of (n : Nat) (v : Session) (k : Nat) : (s.setSess n v).part k = s.part k := rfl
@[simp] theorem State.acct_setSess_of (n : Nat) (v : Session) (k : Nat) : (s.setSess n v).acct k = s.acct k := rfl
@[simp] theorem State.link_setSess_of (n : Nat) (v : Session) (k : Nat) : (s.setSess n v).link k = s.link k := rfl
@[simp] theorem State.module_setSess_of (n : Nat) (v : Session) (k : Nat) : (s.setSess n v).module k = s.module k := rfl
@[simp] theorem State.stack_setSess_of (n : Nat) (v : Session) (k : Nat) : (s.setSess n v).stack k = s.stack k := rfl
@[simp] theorem State.engine_setSess_of (n : Nat) (v : Session) (k : Nat) : (s.setSess n v).engine k = s.engine k := rfl
@[simp] theorem State.ctxAt_setSess_of (n : Nat) (v : Session) (k : Nat) : (s.setSess n v).ctxAt k = s.ctxAt k := rfl

@[simp] theorem State.tile_updSess_of (n : Nat) (f : Session → Session) (k : Nat) : (s.updSess n f).tile k = s.tile k := rfl
@[simp] theorem State.array_updSess_of (n : Nat) (f : Session → Session) (k : Nat) : (s.updSess n f).array k = s.array k := rfl
@[simp] theorem State.part_updSess_of (n : Nat) (f : Session → Session) (k : Nat) : (s.updSess n f).part k = s.part k := rfl
@[simp] theorem State.acct_updSess_of (n : Nat) (f : Session → Session) (k : Nat) : (s.updSess n f).acct k = s.acct k := rfl
@[simp] theorem State.link_updSess_of (n : Nat) (f : Session → Session) (k : Nat) : (s.updSess n f).link k = s.link k := rfl
@[simp] theorem State.module_updSess_of (n : Nat) (f : Session → Session) (k : Nat) : (s.updSess n f).module k = s.module k := rfl
@[simp] theorem State.stack_updSess_of (n : Nat) (f : Session → Session) (k : Nat) : (s.updSess n f).stack k = s.stack k := rfl
@[simp] theorem State.engine_updSess_of (n : Nat) (f : Session → Session) (k : Nat) : (s.updSess n f).engine k = s.engine k := rfl
@[simp] theorem State.ctxAt_updSess_of (n : Nat) (f : Session → Session) (k : Nat) : (s.updSess n f).ctxAt k = s.ctxAt k := rfl

@[simp] theorem State.tile_setWindow_of (n : Nat) (v : Window) (k : Nat) : (s.setWindow n v).tile k = s.tile k := rfl
@[simp] theorem State.array_setWindow_of (n : Nat) (v : Window) (k : Nat) : (s.setWindow n v).array k = s.array k := rfl
@[simp] theorem State.part_setWindow_of (n : Nat) (v : Window) (k : Nat) : (s.setWindow n v).part k = s.part k := rfl
@[simp] theorem State.acct_setWindow_of (n : Nat) (v : Window) (k : Nat) : (s.setWindow n v).acct k = s.acct k := rfl
@[simp] theorem State.link_setWindow_of (n : Nat) (v : Window) (k : Nat) : (s.setWindow n v).link k = s.link k := rfl
@[simp] theorem State.module_setWindow_of (n : Nat) (v : Window) (k : Nat) : (s.setWindow n v).module k = s.module k := rfl
@[simp] theorem State.stack_setWindow_of (n : Nat) (v : Window) (k : Nat) : (s.setWindow n v).stack k = s.stack k := rfl
@[simp] theorem State.engine_setWindow_of (n : Nat) (v : Window) (k : Nat) : (s.setWindow n v).engine k = s.engine k := rfl
@[simp] theorem State.ctxAt_setWindow_of (n : Nat) (v : Window) (k : Nat) : (s.setWindow n v).ctxAt k = s.ctxAt k := rfl

@[simp] theorem State.tile_setPort_of (n : Nat) (v : Port) (k : Nat) : (s.setPort n v).tile k = s.tile k := rfl
@[simp] theorem State.array_setPort_of (n : Nat) (v : Port) (k : Nat) : (s.setPort n v).array k = s.array k := rfl
@[simp] theorem State.part_setPort_of (n : Nat) (v : Port) (k : Nat) : (s.setPort n v).part k = s.part k := rfl
@[simp] theorem State.acct_setPort_of (n : Nat) (v : Port) (k : Nat) : (s.setPort n v).acct k = s.acct k := rfl
@[simp] theorem State.link_setPort_of (n : Nat) (v : Port) (k : Nat) : (s.setPort n v).link k = s.link k := rfl
@[simp] theorem State.module_setPort_of (n : Nat) (v : Port) (k : Nat) : (s.setPort n v).module k = s.module k := rfl
@[simp] theorem State.stack_setPort_of (n : Nat) (v : Port) (k : Nat) : (s.setPort n v).stack k = s.stack k := rfl
@[simp] theorem State.engine_setPort_of (n : Nat) (v : Port) (k : Nat) : (s.setPort n v).engine k = s.engine k := rfl
@[simp] theorem State.ctxAt_setPort_of (n : Nat) (v : Port) (k : Nat) : (s.setPort n v).ctxAt k = s.ctxAt k := rfl

@[simp] theorem State.tile_updPort_of (n : Nat) (f : Port → Port) (k : Nat) : (s.updPort n f).tile k = s.tile k := rfl
@[simp] theorem State.array_updPort_of (n : Nat) (f : Port → Port) (k : Nat) : (s.updPort n f).array k = s.array k := rfl
@[simp] theorem State.part_updPort_of (n : Nat) (f : Port → Port) (k : Nat) : (s.updPort n f).part k = s.part k := rfl
@[simp] theorem State.acct_updPort_of (n : Nat) (f : Port → Port) (k : Nat) : (s.updPort n f).acct k = s.acct k := rfl
@[simp] theorem State.link_updPort_of (n : Nat) (f : Port → Port) (k : Nat) : (s.updPort n f).link k = s.link k := rfl
@[simp] theorem State.module_updPort_of (n : Nat) (f : Port → Port) (k : Nat) : (s.updPort n f).module k = s.module k := rfl
@[simp] theorem State.stack_updPort_of (n : Nat) (f : Port → Port) (k : Nat) : (s.updPort n f).stack k = s.stack k := rfl
@[simp] theorem State.engine_updPort_of (n : Nat) (f : Port → Port) (k : Nat) : (s.updPort n f).engine k = s.engine k := rfl
@[simp] theorem State.ctxAt_updPort_of (n : Nat) (f : Port → Port) (k : Nat) : (s.updPort n f).ctxAt k = s.ctxAt k := rfl

@[simp] theorem State.tile_updStack_of (n : Nat) (f : Stack → Stack) (k : Nat) : (s.updStack n f).tile k = s.tile k := rfl
@[simp] theorem State.array_updStack_of (n : Nat) (f : Stack → Stack) (k : Nat) : (s.updStack n f).array k = s.array k := rfl
@[simp] theorem State.part_updStack_of (n : Nat) (f : Stack → Stack) (k : Nat) : (s.updStack n f).part k = s.part k := rfl
@[simp] theorem State.acct_updStack_of (n : Nat) (f : Stack → Stack) (k : Nat) : (s.updStack n f).acct k = s.acct k := rfl
@[simp] theorem State.link_updStack_of (n : Nat) (f : Stack → Stack) (k : Nat) : (s.updStack n f).link k = s.link k := rfl
@[simp] theorem State.module_updStack_of (n : Nat) (f : Stack → Stack) (k : Nat) : (s.updStack n f).module k = s.module k := rfl
@[simp] theorem State.sess_updStack_of (n : Nat) (f : Stack → Stack) (k : Nat) : (s.updStack n f).sess k = s.sess k := rfl
@[simp] theorem State.window_updStack_of (n : Nat) (f : Stack → Stack) (k : Nat) : (s.updStack n f).window k = s.window k := rfl
@[simp] theorem State.port_updStack_of (n : Nat) (f : Stack → Stack) (k : Nat) : (s.updStack n f).port k = s.port k := rfl

@[simp] theorem State.tile_updEngine_of (n : Nat) (f : Engine → Engine) (k : Nat) : (s.updEngine n f).tile k = s.tile k := rfl
@[simp] theorem State.array_updEngine_of (n : Nat) (f : Engine → Engine) (k : Nat) : (s.updEngine n f).array k = s.array k := rfl
@[simp] theorem State.part_updEngine_of (n : Nat) (f : Engine → Engine) (k : Nat) : (s.updEngine n f).part k = s.part k := rfl
@[simp] theorem State.acct_updEngine_of (n : Nat) (f : Engine → Engine) (k : Nat) : (s.updEngine n f).acct k = s.acct k := rfl
@[simp] theorem State.link_updEngine_of (n : Nat) (f : Engine → Engine) (k : Nat) : (s.updEngine n f).link k = s.link k := rfl
@[simp] theorem State.module_updEngine_of (n : Nat) (f : Engine → Engine) (k : Nat) : (s.updEngine n f).module k = s.module k := rfl
@[simp] theorem State.sess_updEngine_of (n : Nat) (f : Engine → Engine) (k : Nat) : (s.updEngine n f).sess k = s.sess k := rfl
@[simp] theorem State.window_updEngine_of (n : Nat) (f : Engine → Engine) (k : Nat) : (s.updEngine n f).window k = s.window k := rfl
@[simp] theorem State.port_updEngine_of (n : Nat) (f : Engine → Engine) (k : Nat) : (s.updEngine n f).port k = s.port k := rfl

@[simp] theorem State.tile_updCtx_of (n : Nat) (f : Ctx → Ctx) (k : Nat) : (s.updCtx n f).tile k = s.tile k := rfl
@[simp] theorem State.array_updCtx_of (n : Nat) (f : Ctx → Ctx) (k : Nat) : (s.updCtx n f).array k = s.array k := rfl
@[simp] theorem State.part_updCtx_of (n : Nat) (f : Ctx → Ctx) (k : Nat) : (s.updCtx n f).part k = s.part k := rfl
@[simp] theorem State.acct_updCtx_of (n : Nat) (f : Ctx → Ctx) (k : Nat) : (s.updCtx n f).acct k = s.acct k := rfl
@[simp] theorem State.link_updCtx_of (n : Nat) (f : Ctx → Ctx) (k : Nat) : (s.updCtx n f).link k = s.link k := rfl
@[simp] theorem State.module_updCtx_of (n : Nat) (f : Ctx → Ctx) (k : Nat) : (s.updCtx n f).module k = s.module k := rfl
@[simp] theorem State.sess_updCtx_of (n : Nat) (f : Ctx → Ctx) (k : Nat) : (s.updCtx n f).sess k = s.sess k := rfl
@[simp] theorem State.window_updCtx_of (n : Nat) (f : Ctx → Ctx) (k : Nat) : (s.updCtx n f).window k = s.window k := rfl
@[simp] theorem State.port_updCtx_of (n : Nat) (f : Ctx → Ctx) (k : Nat) : (s.updCtx n f).port k = s.port k := rfl

@[simp] theorem State.tile_updRouter_of (n : Nat) (f : Router → Router) (k : Nat) : (s.updRouter n f).tile k = s.tile k := rfl
@[simp] theorem State.array_updRouter_of (n : Nat) (f : Router → Router) (k : Nat) : (s.updRouter n f).array k = s.array k := rfl
@[simp] theorem State.part_updRouter_of (n : Nat) (f : Router → Router) (k : Nat) : (s.updRouter n f).part k = s.part k := rfl
@[simp] theorem State.acct_updRouter_of (n : Nat) (f : Router → Router) (k : Nat) : (s.updRouter n f).acct k = s.acct k := rfl
@[simp] theorem State.link_updRouter_of (n : Nat) (f : Router → Router) (k : Nat) : (s.updRouter n f).link k = s.link k := rfl
@[simp] theorem State.module_updRouter_of (n : Nat) (f : Router → Router) (k : Nat) : (s.updRouter n f).module k = s.module k := rfl
@[simp] theorem State.sess_updRouter_of (n : Nat) (f : Router → Router) (k : Nat) : (s.updRouter n f).sess k = s.sess k := rfl
@[simp] theorem State.window_updRouter_of (n : Nat) (f : Router → Router) (k : Nat) : (s.updRouter n f).window k = s.window k := rfl
@[simp] theorem State.port_updRouter_of (n : Nat) (f : Router → Router) (k : Nat) : (s.updRouter n f).port k = s.port k := rfl
@[simp] theorem State.stack_updRouter_of (n : Nat) (f : Router → Router) (k : Nat) : (s.updRouter n f).stack k = s.stack k := rfl
@[simp] theorem State.engine_updRouter_of (n : Nat) (f : Router → Router) (k : Nat) : (s.updRouter n f).engine k = s.engine k := rfl
@[simp] theorem State.ctxAt_updRouter_of (n : Nat) (f : Router → Router) (k : Nat) : (s.updRouter n f).ctxAt k = s.ctxAt k := rfl

@[simp] theorem State.tile_updFu_of (f : FrameU → FrameU) (k : Nat) : (s.updFu f).tile k = s.tile k := rfl
@[simp] theorem State.array_updFu_of (f : FrameU → FrameU) (k : Nat) : (s.updFu f).array k = s.array k := rfl
@[simp] theorem State.part_updFu_of (f : FrameU → FrameU) (k : Nat) : (s.updFu f).part k = s.part k := rfl
@[simp] theorem State.acct_updFu_of (f : FrameU → FrameU) (k : Nat) : (s.updFu f).acct k = s.acct k := rfl
@[simp] theorem State.link_updFu_of (f : FrameU → FrameU) (k : Nat) : (s.updFu f).link k = s.link k := rfl
@[simp] theorem State.module_updFu_of (f : FrameU → FrameU) (k : Nat) : (s.updFu f).module k = s.module k := rfl
@[simp] theorem State.sess_updFu_of (f : FrameU → FrameU) (k : Nat) : (s.updFu f).sess k = s.sess k := rfl
@[simp] theorem State.window_updFu_of (f : FrameU → FrameU) (k : Nat) : (s.updFu f).window k = s.window k := rfl
@[simp] theorem State.port_updFu_of (f : FrameU → FrameU) (k : Nat) : (s.updFu f).port k = s.port k := rfl
@[simp] theorem State.stack_updFu_of (f : FrameU → FrameU) (k : Nat) : (s.updFu f).stack k = s.stack k := rfl
@[simp] theorem State.engine_updFu_of (f : FrameU → FrameU) (k : Nat) : (s.updFu f).engine k = s.engine k := rfl
@[simp] theorem State.ctxAt_updFu_of (f : FrameU → FrameU) (k : Nat) : (s.updFu f).ctxAt k = s.ctxAt k := rfl

@[simp] theorem State.tile_updHealth_of (f : Health → Health) (k : Nat) : (s.updHealth f).tile k = s.tile k := rfl
@[simp] theorem State.array_updHealth_of (f : Health → Health) (k : Nat) : (s.updHealth f).array k = s.array k := rfl
@[simp] theorem State.part_updHealth_of (f : Health → Health) (k : Nat) : (s.updHealth f).part k = s.part k := rfl
@[simp] theorem State.acct_updHealth_of (f : Health → Health) (k : Nat) : (s.updHealth f).acct k = s.acct k := rfl
@[simp] theorem State.link_updHealth_of (f : Health → Health) (k : Nat) : (s.updHealth f).link k = s.link k := rfl
@[simp] theorem State.module_updHealth_of (f : Health → Health) (k : Nat) : (s.updHealth f).module k = s.module k := rfl
@[simp] theorem State.sess_updHealth_of (f : Health → Health) (k : Nat) : (s.updHealth f).sess k = s.sess k := rfl
@[simp] theorem State.window_updHealth_of (f : Health → Health) (k : Nat) : (s.updHealth f).window k = s.window k := rfl
@[simp] theorem State.port_updHealth_of (f : Health → Health) (k : Nat) : (s.updHealth f).port k = s.port k := rfl
@[simp] theorem State.stack_updHealth_of (f : Health → Health) (k : Nat) : (s.updHealth f).stack k = s.stack k := rfl
@[simp] theorem State.engine_updHealth_of (f : Health → Health) (k : Nat) : (s.updHealth f).engine k = s.engine k := rfl
@[simp] theorem State.ctxAt_updHealth_of (f : Health → Health) (k : Nat) : (s.updHealth f).ctxAt k = s.ctxAt k := rfl

@[simp] theorem State.tile_updLedger_of (f : Ledger → Ledger) (k : Nat) : (s.updLedger f).tile k = s.tile k := rfl
@[simp] theorem State.array_updLedger_of (f : Ledger → Ledger) (k : Nat) : (s.updLedger f).array k = s.array k := rfl
@[simp] theorem State.part_updLedger_of (f : Ledger → Ledger) (k : Nat) : (s.updLedger f).part k = s.part k := rfl
@[simp] theorem State.acct_updLedger_of (f : Ledger → Ledger) (k : Nat) : (s.updLedger f).acct k = s.acct k := rfl
@[simp] theorem State.link_updLedger_of (f : Ledger → Ledger) (k : Nat) : (s.updLedger f).link k = s.link k := rfl
@[simp] theorem State.module_updLedger_of (f : Ledger → Ledger) (k : Nat) : (s.updLedger f).module k = s.module k := rfl
@[simp] theorem State.sess_updLedger_of (f : Ledger → Ledger) (k : Nat) : (s.updLedger f).sess k = s.sess k := rfl
@[simp] theorem State.window_updLedger_of (f : Ledger → Ledger) (k : Nat) : (s.updLedger f).window k = s.window k := rfl
@[simp] theorem State.port_updLedger_of (f : Ledger → Ledger) (k : Nat) : (s.updLedger f).port k = s.port k := rfl
@[simp] theorem State.stack_updLedger_of (f : Ledger → Ledger) (k : Nat) : (s.updLedger f).stack k = s.stack k := rfl
@[simp] theorem State.engine_updLedger_of (f : Ledger → Ledger) (k : Nat) : (s.updLedger f).engine k = s.engine k := rfl
@[simp] theorem State.ctxAt_updLedger_of (f : Ledger → Ledger) (k : Nat) : (s.updLedger f).ctxAt k = s.ctxAt k := rfl

@[simp] theorem State.tile_updMgmt_of (f : Mgmt → Mgmt) (k : Nat) : (s.updMgmt f).tile k = s.tile k := rfl
@[simp] theorem State.array_updMgmt_of (f : Mgmt → Mgmt) (k : Nat) : (s.updMgmt f).array k = s.array k := rfl
@[simp] theorem State.part_updMgmt_of (f : Mgmt → Mgmt) (k : Nat) : (s.updMgmt f).part k = s.part k := rfl
@[simp] theorem State.acct_updMgmt_of (f : Mgmt → Mgmt) (k : Nat) : (s.updMgmt f).acct k = s.acct k := rfl
@[simp] theorem State.link_updMgmt_of (f : Mgmt → Mgmt) (k : Nat) : (s.updMgmt f).link k = s.link k := rfl
@[simp] theorem State.module_updMgmt_of (f : Mgmt → Mgmt) (k : Nat) : (s.updMgmt f).module k = s.module k := rfl
@[simp] theorem State.sess_updMgmt_of (f : Mgmt → Mgmt) (k : Nat) : (s.updMgmt f).sess k = s.sess k := rfl
@[simp] theorem State.window_updMgmt_of (f : Mgmt → Mgmt) (k : Nat) : (s.updMgmt f).window k = s.window k := rfl
@[simp] theorem State.port_updMgmt_of (f : Mgmt → Mgmt) (k : Nat) : (s.updMgmt f).port k = s.port k := rfl
@[simp] theorem State.stack_updMgmt_of (f : Mgmt → Mgmt) (k : Nat) : (s.updMgmt f).stack k = s.stack k := rfl
@[simp] theorem State.engine_updMgmt_of (f : Mgmt → Mgmt) (k : Nat) : (s.updMgmt f).engine k = s.engine k := rfl
@[simp] theorem State.ctxAt_updMgmt_of (f : Mgmt → Mgmt) (k : Nat) : (s.updMgmt f).ctxAt k = s.ctxAt k := rfl

@[simp] theorem State.tile_updDict_of (f : Dict → Dict) (k : Nat) : (s.updDict f).tile k = s.tile k := rfl
@[simp] theorem State.array_updDict_of (f : Dict → Dict) (k : Nat) : (s.updDict f).array k = s.array k := rfl
@[simp] theorem State.part_updDict_of (f : Dict → Dict) (k : Nat) : (s.updDict f).part k = s.part k := rfl
@[simp] theorem State.acct_updDict_of (f : Dict → Dict) (k : Nat) : (s.updDict f).acct k = s.acct k := rfl
@[simp] theorem State.link_updDict_of (f : Dict → Dict) (k : Nat) : (s.updDict f).link k = s.link k := rfl
@[simp] theorem State.module_updDict_of (f : Dict → Dict) (k : Nat) : (s.updDict f).module k = s.module k := rfl
@[simp] theorem State.sess_updDict_of (f : Dict → Dict) (k : Nat) : (s.updDict f).sess k = s.sess k := rfl
@[simp] theorem State.window_updDict_of (f : Dict → Dict) (k : Nat) : (s.updDict f).window k = s.window k := rfl
@[simp] theorem State.port_updDict_of (f : Dict → Dict) (k : Nat) : (s.updDict f).port k = s.port k := rfl
@[simp] theorem State.stack_updDict_of (f : Dict → Dict) (k : Nat) : (s.updDict f).stack k = s.stack k := rfl
@[simp] theorem State.engine_updDict_of (f : Dict → Dict) (k : Nat) : (s.updDict f).engine k = s.engine k := rfl
@[simp] theorem State.ctxAt_updDict_of (f : Dict → Dict) (k : Nat) : (s.updDict f).ctxAt k = s.ctxAt k := rfl

@[simp] theorem State.tile_updPower_of (f : Power → Power) (k : Nat) : (s.updPower f).tile k = s.tile k := rfl
@[simp] theorem State.array_updPower_of (f : Power → Power) (k : Nat) : (s.updPower f).array k = s.array k := rfl
@[simp] theorem State.part_updPower_of (f : Power → Power) (k : Nat) : (s.updPower f).part k = s.part k := rfl
@[simp] theorem State.acct_updPower_of (f : Power → Power) (k : Nat) : (s.updPower f).acct k = s.acct k := rfl
@[simp] theorem State.link_updPower_of (f : Power → Power) (k : Nat) : (s.updPower f).link k = s.link k := rfl
@[simp] theorem State.module_updPower_of (f : Power → Power) (k : Nat) : (s.updPower f).module k = s.module k := rfl
@[simp] theorem State.sess_updPower_of (f : Power → Power) (k : Nat) : (s.updPower f).sess k = s.sess k := rfl
@[simp] theorem State.window_updPower_of (f : Power → Power) (k : Nat) : (s.updPower f).window k = s.window k := rfl
@[simp] theorem State.port_updPower_of (f : Power → Power) (k : Nat) : (s.updPower f).port k = s.port k := rfl
@[simp] theorem State.stack_updPower_of (f : Power → Power) (k : Nat) : (s.updPower f).stack k = s.stack k := rfl
@[simp] theorem State.engine_updPower_of (f : Power → Power) (k : Nat) : (s.updPower f).engine k = s.engine k := rfl
@[simp] theorem State.ctxAt_updPower_of (f : Power → Power) (k : Nat) : (s.updPower f).ctxAt k = s.ctxAt k := rfl

@[simp] theorem State.tile_updHost_of (f : HostSide → HostSide) (k : Nat) : (s.updHost f).tile k = s.tile k := rfl
@[simp] theorem State.array_updHost_of (f : HostSide → HostSide) (k : Nat) : (s.updHost f).array k = s.array k := rfl
@[simp] theorem State.part_updHost_of (f : HostSide → HostSide) (k : Nat) : (s.updHost f).part k = s.part k := rfl
@[simp] theorem State.acct_updHost_of (f : HostSide → HostSide) (k : Nat) : (s.updHost f).acct k = s.acct k := rfl
@[simp] theorem State.link_updHost_of (f : HostSide → HostSide) (k : Nat) : (s.updHost f).link k = s.link k := rfl
@[simp] theorem State.module_updHost_of (f : HostSide → HostSide) (k : Nat) : (s.updHost f).module k = s.module k := rfl
@[simp] theorem State.stack_updHost_of (f : HostSide → HostSide) (k : Nat) : (s.updHost f).stack k = s.stack k := rfl
@[simp] theorem State.engine_updHost_of (f : HostSide → HostSide) (k : Nat) : (s.updHost f).engine k = s.engine k := rfl
@[simp] theorem State.ctxAt_updHost_of (f : HostSide → HostSide) (k : Nat) : (s.updHost f).ctxAt k = s.ctxAt k := rfl

@[simp] theorem State.tile_updMem_of (f : Memory → Memory) (k : Nat) : (s.updMem f).tile k = s.tile k := rfl
@[simp] theorem State.array_updMem_of (f : Memory → Memory) (k : Nat) : (s.updMem f).array k = s.array k := rfl
@[simp] theorem State.part_updMem_of (f : Memory → Memory) (k : Nat) : (s.updMem f).part k = s.part k := rfl
@[simp] theorem State.acct_updMem_of (f : Memory → Memory) (k : Nat) : (s.updMem f).acct k = s.acct k := rfl
@[simp] theorem State.link_updMem_of (f : Memory → Memory) (k : Nat) : (s.updMem f).link k = s.link k := rfl
@[simp] theorem State.module_updMem_of (f : Memory → Memory) (k : Nat) : (s.updMem f).module k = s.module k := rfl
@[simp] theorem State.sess_updMem_of (f : Memory → Memory) (k : Nat) : (s.updMem f).sess k = s.sess k := rfl
@[simp] theorem State.window_updMem_of (f : Memory → Memory) (k : Nat) : (s.updMem f).window k = s.window k := rfl
@[simp] theorem State.port_updMem_of (f : Memory → Memory) (k : Nat) : (s.updMem f).port k = s.port k := rfl

@[simp] theorem State.tile_updMesh_of (f : Mesh → Mesh) (k : Nat) : (s.updMesh f).tile k = s.tile k := rfl
@[simp] theorem State.array_updMesh_of (f : Mesh → Mesh) (k : Nat) : (s.updMesh f).array k = s.array k := rfl
@[simp] theorem State.part_updMesh_of (f : Mesh → Mesh) (k : Nat) : (s.updMesh f).part k = s.part k := rfl
@[simp] theorem State.acct_updMesh_of (f : Mesh → Mesh) (k : Nat) : (s.updMesh f).acct k = s.acct k := rfl
@[simp] theorem State.link_updMesh_of (f : Mesh → Mesh) (k : Nat) : (s.updMesh f).link k = s.link k := rfl
@[simp] theorem State.module_updMesh_of (f : Mesh → Mesh) (k : Nat) : (s.updMesh f).module k = s.module k := rfl
@[simp] theorem State.sess_updMesh_of (f : Mesh → Mesh) (k : Nat) : (s.updMesh f).sess k = s.sess k := rfl
@[simp] theorem State.window_updMesh_of (f : Mesh → Mesh) (k : Nat) : (s.updMesh f).window k = s.window k := rfl
@[simp] theorem State.port_updMesh_of (f : Mesh → Mesh) (k : Nat) : (s.updMesh f).port k = s.port k := rfl
@[simp] theorem State.stack_updMesh_of (f : Mesh → Mesh) (k : Nat) : (s.updMesh f).stack k = s.stack k := rfl
@[simp] theorem State.engine_updMesh_of (f : Mesh → Mesh) (k : Nat) : (s.updMesh f).engine k = s.engine k := rfl
@[simp] theorem State.ctxAt_updMesh_of (f : Mesh → Mesh) (k : Nat) : (s.updMesh f).ctxAt k = s.ctxAt k := rfl

@[simp] theorem State.tile_updRec_of (f : Recorder → Recorder) (k : Nat) : (s.updRec f).tile k = s.tile k := rfl
@[simp] theorem State.array_updRec_of (f : Recorder → Recorder) (k : Nat) : (s.updRec f).array k = s.array k := rfl
@[simp] theorem State.part_updRec_of (f : Recorder → Recorder) (k : Nat) : (s.updRec f).part k = s.part k := rfl
@[simp] theorem State.acct_updRec_of (f : Recorder → Recorder) (k : Nat) : (s.updRec f).acct k = s.acct k := rfl
@[simp] theorem State.link_updRec_of (f : Recorder → Recorder) (k : Nat) : (s.updRec f).link k = s.link k := rfl
@[simp] theorem State.module_updRec_of (f : Recorder → Recorder) (k : Nat) : (s.updRec f).module k = s.module k := rfl
@[simp] theorem State.sess_updRec_of (f : Recorder → Recorder) (k : Nat) : (s.updRec f).sess k = s.sess k := rfl
@[simp] theorem State.window_updRec_of (f : Recorder → Recorder) (k : Nat) : (s.updRec f).window k = s.window k := rfl
@[simp] theorem State.port_updRec_of (f : Recorder → Recorder) (k : Nat) : (s.updRec f).port k = s.port k := rfl
@[simp] theorem State.stack_updRec_of (f : Recorder → Recorder) (k : Nat) : (s.updRec f).stack k = s.stack k := rfl
@[simp] theorem State.engine_updRec_of (f : Recorder → Recorder) (k : Nat) : (s.updRec f).engine k = s.engine k := rfl
@[simp] theorem State.ctxAt_updRec_of (f : Recorder → Recorder) (k : Nat) : (s.updRec f).ctxAt k = s.ctxAt k := rfl

@[simp] theorem State.tile_updDawn_of (f : Dawn → Dawn) (k : Nat) : (s.updDawn f).tile k = s.tile k := rfl
@[simp] theorem State.array_updDawn_of (f : Dawn → Dawn) (k : Nat) : (s.updDawn f).array k = s.array k := rfl
@[simp] theorem State.part_updDawn_of (f : Dawn → Dawn) (k : Nat) : (s.updDawn f).part k = s.part k := rfl
@[simp] theorem State.acct_updDawn_of (f : Dawn → Dawn) (k : Nat) : (s.updDawn f).acct k = s.acct k := rfl
@[simp] theorem State.link_updDawn_of (f : Dawn → Dawn) (k : Nat) : (s.updDawn f).link k = s.link k := rfl
@[simp] theorem State.module_updDawn_of (f : Dawn → Dawn) (k : Nat) : (s.updDawn f).module k = s.module k := rfl
@[simp] theorem State.sess_updDawn_of (f : Dawn → Dawn) (k : Nat) : (s.updDawn f).sess k = s.sess k := rfl
@[simp] theorem State.window_updDawn_of (f : Dawn → Dawn) (k : Nat) : (s.updDawn f).window k = s.window k := rfl
@[simp] theorem State.port_updDawn_of (f : Dawn → Dawn) (k : Nat) : (s.updDawn f).port k = s.port k := rfl
@[simp] theorem State.stack_updDawn_of (f : Dawn → Dawn) (k : Nat) : (s.updDawn f).stack k = s.stack k := rfl
@[simp] theorem State.engine_updDawn_of (f : Dawn → Dawn) (k : Nat) : (s.updDawn f).engine k = s.engine k := rfl
@[simp] theorem State.ctxAt_updDawn_of (f : Dawn → Dawn) (k : Nat) : (s.updDawn f).ctxAt k = s.ctxAt k := rfl

@[simp] theorem State.tile_pushRec_of (p : Payload) (c : Bool) (k : Nat) : (s.pushRec p c).tile k = s.tile k := rfl
@[simp] theorem State.array_pushRec_of (p : Payload) (c : Bool) (k : Nat) : (s.pushRec p c).array k = s.array k := rfl
@[simp] theorem State.part_pushRec_of (p : Payload) (c : Bool) (k : Nat) : (s.pushRec p c).part k = s.part k := rfl
@[simp] theorem State.acct_pushRec_of (p : Payload) (c : Bool) (k : Nat) : (s.pushRec p c).acct k = s.acct k := rfl
@[simp] theorem State.link_pushRec_of (p : Payload) (c : Bool) (k : Nat) : (s.pushRec p c).link k = s.link k := rfl
@[simp] theorem State.module_pushRec_of (p : Payload) (c : Bool) (k : Nat) : (s.pushRec p c).module k = s.module k := rfl
@[simp] theorem State.sess_pushRec_of (p : Payload) (c : Bool) (k : Nat) : (s.pushRec p c).sess k = s.sess k := rfl
@[simp] theorem State.window_pushRec_of (p : Payload) (c : Bool) (k : Nat) : (s.pushRec p c).window k = s.window k := rfl
@[simp] theorem State.port_pushRec_of (p : Payload) (c : Bool) (k : Nat) : (s.pushRec p c).port k = s.port k := rfl
@[simp] theorem State.stack_pushRec_of (p : Payload) (c : Bool) (k : Nat) : (s.pushRec p c).stack k = s.stack k := rfl
@[simp] theorem State.engine_pushRec_of (p : Payload) (c : Bool) (k : Nat) : (s.pushRec p c).engine k = s.engine k := rfl
@[simp] theorem State.ctxAt_pushRec_of (p : Payload) (c : Bool) (k : Nat) : (s.pushRec p c).ctxAt k = s.ctxAt k := rfl

@[simp] theorem State.tile_assertSrc_of (n : Nat) (k : Nat) : (s.assertSrc n).tile k = s.tile k := rfl
@[simp] theorem State.array_assertSrc_of (n : Nat) (k : Nat) : (s.assertSrc n).array k = s.array k := rfl
@[simp] theorem State.part_assertSrc_of (n : Nat) (k : Nat) : (s.assertSrc n).part k = s.part k := rfl
@[simp] theorem State.acct_assertSrc_of (n : Nat) (k : Nat) : (s.assertSrc n).acct k = s.acct k := rfl
@[simp] theorem State.link_assertSrc_of (n : Nat) (k : Nat) : (s.assertSrc n).link k = s.link k := rfl
@[simp] theorem State.module_assertSrc_of (n : Nat) (k : Nat) : (s.assertSrc n).module k = s.module k := rfl
@[simp] theorem State.sess_assertSrc_of (n : Nat) (k : Nat) : (s.assertSrc n).sess k = s.sess k := rfl
@[simp] theorem State.window_assertSrc_of (n : Nat) (k : Nat) : (s.assertSrc n).window k = s.window k := rfl
@[simp] theorem State.port_assertSrc_of (n : Nat) (k : Nat) : (s.assertSrc n).port k = s.port k := rfl
@[simp] theorem State.stack_assertSrc_of (n : Nat) (k : Nat) : (s.assertSrc n).stack k = s.stack k := rfl
@[simp] theorem State.engine_assertSrc_of (n : Nat) (k : Nat) : (s.assertSrc n).engine k = s.engine k := rfl
@[simp] theorem State.ctxAt_assertSrc_of (n : Nat) (k : Nat) : (s.assertSrc n).ctxAt k = s.ctxAt k := rfl

@[simp] theorem State.tile_clearSrc_of (n : Nat) (k : Nat) : (s.clearSrc n).tile k = s.tile k := rfl
@[simp] theorem State.array_clearSrc_of (n : Nat) (k : Nat) : (s.clearSrc n).array k = s.array k := rfl
@[simp] theorem State.part_clearSrc_of (n : Nat) (k : Nat) : (s.clearSrc n).part k = s.part k := rfl
@[simp] theorem State.acct_clearSrc_of (n : Nat) (k : Nat) : (s.clearSrc n).acct k = s.acct k := rfl
@[simp] theorem State.link_clearSrc_of (n : Nat) (k : Nat) : (s.clearSrc n).link k = s.link k := rfl
@[simp] theorem State.module_clearSrc_of (n : Nat) (k : Nat) : (s.clearSrc n).module k = s.module k := rfl
@[simp] theorem State.sess_clearSrc_of (n : Nat) (k : Nat) : (s.clearSrc n).sess k = s.sess k := rfl
@[simp] theorem State.window_clearSrc_of (n : Nat) (k : Nat) : (s.clearSrc n).window k = s.window k := rfl
@[simp] theorem State.port_clearSrc_of (n : Nat) (k : Nat) : (s.clearSrc n).port k = s.port k := rfl
@[simp] theorem State.stack_clearSrc_of (n : Nat) (k : Nat) : (s.clearSrc n).stack k = s.stack k := rfl
@[simp] theorem State.engine_clearSrc_of (n : Nat) (k : Nat) : (s.clearSrc n).engine k = s.engine k := rfl
@[simp] theorem State.ctxAt_clearSrc_of (n : Nat) (k : Nat) : (s.clearSrc n).ctxAt k = s.ctxAt k := rfl

@[simp] theorem State.tile_flashWrite_of (c : FlashCls) (k : Nat) : (s.flashWrite c).tile k = s.tile k := rfl
@[simp] theorem State.array_flashWrite_of (c : FlashCls) (k : Nat) : (s.flashWrite c).array k = s.array k := rfl
@[simp] theorem State.part_flashWrite_of (c : FlashCls) (k : Nat) : (s.flashWrite c).part k = s.part k := rfl
@[simp] theorem State.acct_flashWrite_of (c : FlashCls) (k : Nat) : (s.flashWrite c).acct k = s.acct k := rfl
@[simp] theorem State.link_flashWrite_of (c : FlashCls) (k : Nat) : (s.flashWrite c).link k = s.link k := rfl
@[simp] theorem State.module_flashWrite_of (c : FlashCls) (k : Nat) : (s.flashWrite c).module k = s.module k := rfl
@[simp] theorem State.sess_flashWrite_of (c : FlashCls) (k : Nat) : (s.flashWrite c).sess k = s.sess k := rfl
@[simp] theorem State.window_flashWrite_of (c : FlashCls) (k : Nat) : (s.flashWrite c).window k = s.window k := rfl
@[simp] theorem State.port_flashWrite_of (c : FlashCls) (k : Nat) : (s.flashWrite c).port k = s.port k := rfl
@[simp] theorem State.stack_flashWrite_of (c : FlashCls) (k : Nat) : (s.flashWrite c).stack k = s.stack k := rfl
@[simp] theorem State.engine_flashWrite_of (c : FlashCls) (k : Nat) : (s.flashWrite c).engine k = s.engine k := rfl
@[simp] theorem State.ctxAt_flashWrite_of (c : FlashCls) (k : Nat) : (s.flashWrite c).ctxAt k = s.ctxAt k := rfl

@[simp] theorem State.tile_setPadLine_of (t l : Nat) (v : Line) (k : Nat) : (s.setPadLine t l v).tile k = s.tile k := rfl
@[simp] theorem State.array_setPadLine_of (t l : Nat) (v : Line) (k : Nat) : (s.setPadLine t l v).array k = s.array k := rfl
@[simp] theorem State.part_setPadLine_of (t l : Nat) (v : Line) (k : Nat) : (s.setPadLine t l v).part k = s.part k := rfl
@[simp] theorem State.acct_setPadLine_of (t l : Nat) (v : Line) (k : Nat) : (s.setPadLine t l v).acct k = s.acct k := rfl
@[simp] theorem State.link_setPadLine_of (t l : Nat) (v : Line) (k : Nat) : (s.setPadLine t l v).link k = s.link k := rfl
@[simp] theorem State.module_setPadLine_of (t l : Nat) (v : Line) (k : Nat) : (s.setPadLine t l v).module k = s.module k := rfl
@[simp] theorem State.sess_setPadLine_of (t l : Nat) (v : Line) (k : Nat) : (s.setPadLine t l v).sess k = s.sess k := rfl
@[simp] theorem State.window_setPadLine_of (t l : Nat) (v : Line) (k : Nat) : (s.setPadLine t l v).window k = s.window k := rfl
@[simp] theorem State.port_setPadLine_of (t l : Nat) (v : Line) (k : Nat) : (s.setPadLine t l v).port k = s.port k := rfl
@[simp] theorem State.stack_setPadLine_of (t l : Nat) (v : Line) (k : Nat) : (s.setPadLine t l v).stack k = s.stack k := rfl
@[simp] theorem State.engine_setPadLine_of (t l : Nat) (v : Line) (k : Nat) : (s.setPadLine t l v).engine k = s.engine k := rfl
@[simp] theorem State.ctxAt_setPadLine_of (t l : Nat) (v : Line) (k : Nat) : (s.setPadLine t l v).ctxAt k = s.ctxAt k := rfl

@[simp] theorem State.tile_setPadWord_of (t w : Nat) (v : W64) (k : Nat) : (s.setPadWord t w v).tile k = s.tile k := rfl
@[simp] theorem State.array_setPadWord_of (t w : Nat) (v : W64) (k : Nat) : (s.setPadWord t w v).array k = s.array k := rfl
@[simp] theorem State.part_setPadWord_of (t w : Nat) (v : W64) (k : Nat) : (s.setPadWord t w v).part k = s.part k := rfl
@[simp] theorem State.acct_setPadWord_of (t w : Nat) (v : W64) (k : Nat) : (s.setPadWord t w v).acct k = s.acct k := rfl
@[simp] theorem State.link_setPadWord_of (t w : Nat) (v : W64) (k : Nat) : (s.setPadWord t w v).link k = s.link k := rfl
@[simp] theorem State.module_setPadWord_of (t w : Nat) (v : W64) (k : Nat) : (s.setPadWord t w v).module k = s.module k := rfl
@[simp] theorem State.sess_setPadWord_of (t w : Nat) (v : W64) (k : Nat) : (s.setPadWord t w v).sess k = s.sess k := rfl
@[simp] theorem State.window_setPadWord_of (t w : Nat) (v : W64) (k : Nat) : (s.setPadWord t w v).window k = s.window k := rfl
@[simp] theorem State.port_setPadWord_of (t w : Nat) (v : W64) (k : Nat) : (s.setPadWord t w v).port k = s.port k := rfl
@[simp] theorem State.stack_setPadWord_of (t w : Nat) (v : W64) (k : Nat) : (s.setPadWord t w v).stack k = s.stack k := rfl
@[simp] theorem State.engine_setPadWord_of (t w : Nat) (v : W64) (k : Nat) : (s.setPadWord t w v).engine k = s.engine k := rfl
@[simp] theorem State.ctxAt_setPadWord_of (t w : Nat) (v : W64) (k : Nat) : (s.setPadWord t w v).ctxAt k = s.ctxAt k := rfl

@[simp] theorem State.tile_setMemLine_of (l : Nat) (v : Line) (k : Nat) : (s.setMemLine l v).tile k = s.tile k := rfl
@[simp] theorem State.array_setMemLine_of (l : Nat) (v : Line) (k : Nat) : (s.setMemLine l v).array k = s.array k := rfl
@[simp] theorem State.part_setMemLine_of (l : Nat) (v : Line) (k : Nat) : (s.setMemLine l v).part k = s.part k := rfl
@[simp] theorem State.acct_setMemLine_of (l : Nat) (v : Line) (k : Nat) : (s.setMemLine l v).acct k = s.acct k := rfl
@[simp] theorem State.link_setMemLine_of (l : Nat) (v : Line) (k : Nat) : (s.setMemLine l v).link k = s.link k := rfl
@[simp] theorem State.module_setMemLine_of (l : Nat) (v : Line) (k : Nat) : (s.setMemLine l v).module k = s.module k := rfl
@[simp] theorem State.sess_setMemLine_of (l : Nat) (v : Line) (k : Nat) : (s.setMemLine l v).sess k = s.sess k := rfl
@[simp] theorem State.window_setMemLine_of (l : Nat) (v : Line) (k : Nat) : (s.setMemLine l v).window k = s.window k := rfl
@[simp] theorem State.port_setMemLine_of (l : Nat) (v : Line) (k : Nat) : (s.setMemLine l v).port k = s.port k := rfl

theorem State.tile_get (n : Nat) : s.tile n = SMap.get s.tiles {} n := rfl
theorem State.array_get (n : Nat) : s.array n = SMap.get s.arrays {} n := rfl
theorem State.part_get (n : Nat) : s.part n = SMap.get s.parts {} n := rfl
theorem State.acct_get (n : Nat) : s.acct n = SMap.get s.accts {} n := rfl
theorem State.link_get (n : Nat) : s.link n = SMap.get s.links {} n := rfl
theorem State.module_get (n : Nat) : s.module n = SMap.get s.mods {} n := rfl

end Sys2Proof.Machine
end

