-- ==== Sys2Proof/Laws/Issue.lean ====
section
/-! SUPPORT. What an issue does: its checks passed, it is the instruction's own effect on the state advanced by one word; and the frame
of the advance and of a vector register write. -/

namespace Sys2Proof.Machine

@[simp] theorem State.tile_setTile_same (s : State) (n : Nat) (v : Tile) : (s.setTile n v).tile n = v :=
  SMap.get_set_same s.tiles {} n v

theorem State.tile_setTile_other (s : State) (n k : Nat) (v : Tile) (h : k ≠ n) : (s.setTile n v).tile k = s.tile k :=
  SMap.get_set_other s.tiles {} n k v h

@[simp] theorem State.tile_updTile_same (s : State) (n : Nat) (f : Tile → Tile) : (s.updTile n f).tile n = f (s.tile n) :=
  State.tile_setTile_same s n _

theorem State.tile_updTile_other (s : State) (n k : Nat) (f : Tile → Tile) (h : k ≠ n) : (s.updTile n f).tile k = s.tile k :=
  State.tile_setTile_other s n k _ h

/-- With its checks passed, an issue is the instruction's own effect on the advanced state. -/
theorem State.issue_clear (s : State) (i : Issue) (port : Nat) (w : W64) (ok : Bool) (act : State → State)
    (h : s.clearIssue i port = true) (hok : ok = true) : s.issue i port w ok act = act (s.advance i port i.cycle.toNat) := by
  subst hok
  simp only [State.clearIssue, Bool.and_eq_true, decide_eq_true_eq] at h
  obtain ⟨⟨⟨⟨h1, h0, -⟩, h2⟩, h3⟩, h4⟩ := h
  simp only [State.issue, State.issueAt, State.readStore, h0, h1, h3, Bool.true_eq_false, if_false, Nat.not_lt.2 h2]
  split
  · rename_i c hc
    rw [hc] at h4
    rw [if_neg (by simpa only [Bool.not_eq_true', decide_eq_false_iff_not] using h4)]
  · rfl

/-- A clear issue reads sound parity. -/
theorem State.clearIssue_parity (s : State) (i : Issue) (port : Nat) (h : s.clearIssue i port = true) : i.parity = false := by
  simp only [State.clearIssue, Bool.and_eq_true, decide_eq_true_eq] at h
  exact h.1.1.1.2.2

/-- A VEC function with a zero ADDR and no upset. -/
theorem State.vecOp_clear (s : State) (i : Issue) (func : BitVec 6) (v : VecOps) (act : State → State)
    (h : s.clearIssue i 7 = true) (ha : v.addr = 0) (hu : v.upset = false) :
    s.vecOp i func v act = act (s.advance i 7 i.cycle.toNat) := by
  rw [State.vecOp, State.issue_clear s i 7 _ _ _ h (by simp [ha])]
  simp [State.vecChecked, hu, s.clearIssue_parity i 7 h]

/-- The tile of the issue after the advance. -/
theorem State.advance_tile (s : State) (i : Issue) (port c : Nat) :
    (s.advance i port c).tile i.tile.toNat =
      { s.tile i.tile.toNat with
        streams := SMap.set (s.tile i.tile.toNat).streams {} i.stream.toNat
          { s.strm i with pc := (s.strm i).pc + 1, reached := c, branch := none }
        ports := SMap.set (s.tile i.tile.toNat).ports none port (some ⟨s.fu.frame, c, (s.strm i).tag⟩) } := by
  simp only [State.advance, State.updStrm, State.tile_updFu_of, State.tile_updTile_same, SMap.upd, State.strm]

theorem State.advance_tile_other (s : State) (i : Issue) (port c n : Nat) (h : n ≠ i.tile.toNat) :
    (s.advance i port c).tile n = s.tile n := by
  simp only [State.advance, State.updStrm, State.tile_updFu_of]
  rw [State.tile_updTile_other _ _ _ _ h, State.tile_updTile_other _ _ _ _ h]

theorem State.advance_same (s : State) (i : Issue) (port c : Nat) : SameButTiles s (s.advance i port c) := rfl

theorem State.advance_cycle (s : State) (i : Issue) (port c : Nat) : (s.advance i port c).fu.cycle = max s.fu.cycle c := rfl

/-- Vector registers are not touched by the advance. -/
theorem State.advance_vreg (s : State) (i : Issue) (port c : Nat) (r : BitVec 6) : (s.advance i port c).vreg i r = s.vreg i r := by
  simp only [State.vreg, Tile.vreg, State.advance_tile]

/-- The stream after the advance. -/
theorem State.advance_strm (s : State) (i : Issue) (port c : Nat) :
    (s.advance i port c).strm i = { s.strm i with pc := (s.strm i).pc + 1, reached := c, branch := none } := by
  rw [State.strm, State.advance_tile]
  exact SMap.get_set_same _ _ _ _

theorem Tile.lane_setLanes (m : SMap W32) (b : Nat) (ls : List W32) (n k : Nat) :
    SMap.get ((ls.zipIdx n).foldl (fun m x => SMap.set m 0 (b + x.2) x.1) m) 0 k =
      if b + n ≤ k ∧ k < b + n + ls.length then ls.getD (k - (b + n)) 0 else SMap.get m 0 k := by
  induction ls generalizing m n with
  | nil => simp
  | cons a t ih =>
    simp only [List.zipIdx_cons, List.foldl_cons, ih, SMap.get_set, List.length_cons]
    by_cases h1 : k = b + n
    · subst h1; simp
    · by_cases h2 : b + (n + 1) ≤ k ∧ k < b + (n + 1) + t.length
      · rw [if_pos h2, if_pos (by omega)]
        have : k - (b + n) = (k - (b + (n + 1))) + 1 := by omega
        rw [this, List.getD_cons_succ]
      · rw [if_neg h2, if_neg h1, if_neg (by omega)]

/-- Lane `l` of register `r` after lanes of register `q` are written from lane 0. -/
theorem State.vreg_setVreg (s : State) (i : Issue) (q r : BitVec 6) (ls : List W32) :
    (s.setVreg i q ls).vreg i r =
      if r = q then (List.range 64).map (fun l => if l < (ls.take 64).length then (ls.take 64).getD l 0 else (s.vreg i q).getD l 0)
      else s.vreg i r := by
  simp only [State.vreg, State.setVreg, State.tile_updTile_same, Tile.vreg, Tile.setLanes, Nat.add_assoc]
  have hq : q.toNat % 64 = q.toNat := Nat.mod_eq_of_lt q.isLt
  have hr : r.toNat % 64 = r.toNat := Nat.mod_eq_of_lt r.isLt
  have hlen : (ls.take 64).length ≤ 64 := by simp
  split
  · rename_i h
    subst h
    apply List.map_congr_left
    intro l hl
    have hl : l < 64 := by simpa using hl
    have := Tile.lane_setLanes (s.tile i.tile.toNat).vregs (64 * (r.toNat % 64)) (ls.take 64) 0 (64 * (r.toNat % 64) + l)
    simp only [Nat.zero_add, Nat.add_zero] at this ⊢
    rw [this]
    by_cases hh : l < (ls.take 64).length
    · rw [if_pos (by omega), if_pos hh]
      congr 1; omega
    · rw [if_neg (by omega), if_neg hh]
      simp [List.getD, List.getElem?_map, List.getElem?_range hl]
  · rename_i h
    apply List.map_congr_left
    intro l hl
    have hl : l < 64 := by simpa using hl
    have := Tile.lane_setLanes (s.tile i.tile.toNat).vregs (64 * (q.toNat % 64)) (ls.take 64) 0 (64 * (r.toNat % 64) + l)
    simp only [Nat.zero_add, Nat.add_zero] at this ⊢
    rw [this, if_neg]
    have hne : r.toNat ≠ q.toNat := fun e => h (BitVec.eq_of_toNat_eq e)
    omega

/-- A whole register written reads back. -/
theorem State.vreg_setVreg_same (s : State) (i : Issue) (r : BitVec 6) (ls : List W32) (h : ls.length = 64) :
    (s.setVreg i r ls).vreg i r = ls := by
  rw [State.vreg_setVreg, if_pos rfl]
  apply List.ext_getElem
  · simp [h]
  · intro n h1 h2
    have : n < 64 := by simpa using h1
    simp [h, this, List.getD, List.getElem?_take]

theorem State.vreg_setVreg_other (s : State) (i : Issue) (q r : BitVec 6) (ls : List W32) (h : r ≠ q) :
    (s.setVreg i q ls).vreg i r = s.vreg i r := by
  rw [State.vreg_setVreg, if_neg h]

@[simp] theorem State.vreg_length (s : State) (i : Issue) (r : BitVec 6) : (s.vreg i r).length = 64 := by
  simp [State.vreg, Tile.vreg]

/-- The frame of a vector function: the advance and one register. -/
theorem State.vec_frame (s : State) (i : Issue) (r : BitVec 6) (ls : List W32) :
    OtherVregs i r s ((s.advance i 7 i.cycle.toNat).setVreg i r ls) ∧
      TileButVregs i s ((s.advance i 7 i.cycle.toNat).setVreg i r ls) ∧
      IssueFrame i 7 s ((s.advance i 7 i.cycle.toNat).setVreg i r ls) := by
  have ht : ((s.advance i 7 i.cycle.toNat).setVreg i r ls).tile i.tile.toNat =
      ((s.advance i 7 i.cycle.toNat).tile i.tile.toNat).setLanes r.toNat 0 (ls.take 64) := by
    rw [State.setVreg, State.tile_updTile_same]
  have hp : (((s.advance i 7 i.cycle.toNat).setVreg i r ls).tile i.tile.toNat).ports =
      SMap.set (s.tile i.tile.toNat).ports none 7 (some ⟨s.fu.frame, i.cycle.toNat, (s.strm i).tag⟩) := by
    rw [ht, State.advance_tile]
    rfl
  refine ⟨?_, ?_, ?_, ?_, ?_, ?_, ?_, ?_, ?_⟩
  · intro q hq
    rw [State.vreg_setVreg_other _ _ _ _ _ hq, State.advance_vreg]
  · rw [TileButVregs, ht, State.advance_tile]
    rfl
  · rfl
  · rfl
  · intro n hn
    rw [State.setVreg, State.tile_updTile_other _ _ _ _ hn, State.advance_tile_other _ _ _ _ _ hn]
  · rw [State.strm, ht, State.advance_tile]
    exact SMap.get_set_same _ _ _ _
  · intro k hk
    rw [ht, State.advance_tile]
    exact SMap.get_set_other (s.tile i.tile.toNat).streams {} i.stream.toNat k _ hk
  · rw [hp]
    exact SMap.get_set_same _ _ _ _
  · intro k hk
    rw [hp]
    exact SMap.get_set_other _ _ _ _ _ hk

end Sys2Proof.Machine
end

