-- ==== Sys2Proof/Laws/KeepsQueue.lean ====
section
/-! SUPPORT. No operation on the State touches the queue of waiting commands. An operation that runs an act given to it keeps the queue where the
act does. -/

namespace Sys2Proof.Machine

set_option linter.all false

@[simp] theorem ite_pending {c : Prop} [Decidable c] (a b : State) :
    (if c then a else b).pending = if c then a.pending else b.pending :=
  apply_ite (fun s => s.pending) c a b

theorem foldl_pending {α : Type} (g : State → α → State) (h : ∀ t a, (g t a).pending = t.pending) (l : List α) (s : State) :
    (l.foldl g s).pending = s.pending := by
  induction l generalizing s with
  | nil => rfl
  | cons a t ih => rw [List.foldl_cons, ih, h]

/-- The form that simp applies: the conjunction with True keeps its proof of the premise from being definitional. -/
@[simp] theorem foldl_pending_simp {α : Type} (g : State → α → State) (h : ∀ t a, True ∧ (g t a).pending = t.pending) (l : List α)
    (s : State) : (l.foldl g s).pending = s.pending := foldl_pending g (fun t a => (h t a).2) l s

theorem foldlp_pending {α β : Type} (g : State × β → α → State × β) (h : ∀ x a, (g x a).1.pending = x.1.pending) (l : List α) (z : State × β) :
    (l.foldl g z).1.pending = z.1.pending := by
  induction l generalizing z with
  | nil => rfl
  | cons a t ih => rw [List.foldl_cons, ih, h]

@[simp] theorem State.reach_pending (s : State) (a1) : (State.reach s a1).pending = s.pending := by
  simp [State.reach]

@[simp] theorem State.record_pending (s : State) (a1) : (State.record s a1).pending = s.pending := by
  simp [State.record]

@[simp] theorem State.raise_pending (s : State) (a1) (a2) : (State.raise s a1 a2).pending = s.pending := by
  unfold State.raise
  split <;> simp

@[simp] theorem State.event_pending (s : State) (a1) (a2) (a3) (a4) (a5) (a6) (a7) :
    (State.event s a1 a2 a3 a4 a5 a6 a7).pending = s.pending := by
  simp [State.event]

@[simp] theorem State.partEvent_pending (s : State) (a1) (a2) (a3) (a4) :
    (State.partEvent s a1 a2 a3 a4).pending = s.pending := by
  simp [State.partEvent]

@[simp] theorem State.arrayEvent_pending (s : State) (a1) (a2) (a3) (a4) :
    (State.arrayEvent s a1 a2 a3 a4).pending = s.pending := by
  simp [State.arrayEvent]

@[simp] theorem State.arrayStepEvent_pending (s : State) (a1) (a2) (a3) (a4) (a5) :
    (State.arrayStepEvent s a1 a2 a3 a4 a5).pending = s.pending := by
  simp [State.arrayStepEvent]

@[simp] theorem State.sendOn_pending (s : State) (a1) (a2) : (State.sendOn s a1 a2).pending = s.pending := by
  simp [State.sendOn]

@[simp] theorem State.flood_pending (s : State) (a1) (a2) : (State.flood s a1 a2).pending = s.pending := by
  simp [State.flood]

@[simp] theorem State.endHoldWith_pending (s : State) (a1) (a2) : (State.endHoldWith s a1 a2).pending = s.pending := by
  simp [State.endHoldWith]

@[simp] theorem State.dropWaits_pending (s : State) (a1) : (State.dropWaits s a1).pending = s.pending := by
  unfold State.dropWaits
  split <;> simp

@[simp] theorem State.abortHere_pending (s : State) (a1) (a2) (a3) (a4) :
    (State.abortHere s a1 a2 a3 a4).pending = s.pending := by
  unfold State.abortHere
  dsimp only
  (repeat' split) <;> simp

@[simp] theorem State.abortOne_pending (s : State) (a1) (a2) (a3) : (State.abortOne s a1 a2 a3).pending = s.pending := by
  simp [State.abortOne]

@[simp] theorem State.abortAll_pending (s : State) (a1) (a2) (a3) : (State.abortAll s a1 a2 a3).pending = s.pending := by
  simp [State.abortAll]

@[simp] theorem State.twilight_pending (s : State) (a1) : (State.twilight s a1).pending = s.pending := by
  simp [State.twilight]

@[simp] theorem State.tryFreePart_pending (s : State) (a1) : (State.tryFreePart s a1).pending = s.pending := by
  simp [State.tryFreePart]

@[simp] theorem State.sendMsg_pending (s : State) (a1) (a2) (a3) (a4) (a5) (a6) :
    (State.sendMsg s a1 a2 a3 a4 a5 a6).pending = s.pending := by
  simp [State.sendMsg]

@[simp] theorem State.countFault_pending (s : State) (a1) : (State.countFault s a1).pending = s.pending := by
  unfold State.countFault
  (repeat' split) <;> simp

@[simp] theorem State.setReport_pending (s : State) (a1) (a2) : (State.setReport s a1 a2).pending = s.pending := by
  unfold State.setReport
  split <;> simp

@[simp] theorem State.report_pending (s : State) (a1) : (State.report s a1).pending = s.pending := by
  unfold State.report
  (repeat' split) <;> simp

@[simp] theorem State.abortTag_pending (s : State) (a1) (a2) : (State.abortTag s a1 a2).pending = s.pending := by
  simp [State.abortTag]

@[simp] theorem State.fault_pending (s : State) (a1) : (State.fault s a1).pending = s.pending := by
  simp [State.fault]

@[simp] theorem State.vaultFault_pending (s : State) (a1) : (State.vaultFault s a1).pending = s.pending := by
  simp [State.vaultFault]

@[simp] theorem State.faultDrop_pending (s : State) (a1) : (State.faultDrop s a1).pending = s.pending := by
  simp [State.faultDrop]

@[simp] theorem State.faultWide_pending (s : State) (a1) : (State.faultWide s a1).pending = s.pending := by
  simp [State.faultWide]

@[simp] theorem State.collision_pending (s : State) (a1) : (State.collision s a1).pending = s.pending := by
  simp [State.collision]

@[simp] theorem State.zeroLines_pending (s : State) (a1) (a2) : (State.zeroLines s a1 a2).pending = s.pending := by
  simp [State.zeroLines]

@[simp] theorem State.updStrm_pending (s : State) (a1) (a2) : (State.updStrm s a1 a2).pending = s.pending := by
  simp [State.updStrm]

@[simp] theorem State.issueClash_pending (s : State) (a1) (a2) (a3) (a4) :
    (State.issueClash s a1 a2 a3 a4).pending = s.pending := by
  simp [State.issueClash]

@[simp] theorem State.advance_pending (s : State) (a1) (a2) (a3) : (State.advance s a1 a2 a3).pending = s.pending := by
  simp [State.advance]

@[simp] theorem State.storeFault_pending (s : State) (a1) (a2) : (State.storeFault s a1 a2).pending = s.pending := by
  simp [State.storeFault]

@[simp] theorem State.readStore_pending (s : State) (a1) (a2) (a3 : State → State) (h : ∀ t, True ∧ (a3 t).pending = t.pending) :
    (State.readStore s a1 a2 a3).pending = s.pending := by
  simp only [State.readStore]
  (repeat' split) <;> simp_all

@[simp] theorem State.issueAt_pending (s : State) (a1) (a2) (a3) (a4) (a5) (a6 : State → State) (h : ∀ t, True ∧ (a6 t).pending = t.pending) : (State.issueAt s a1 a2 a3 a4 a5 a6).pending = s.pending := by
  unfold State.issueAt
  split
  · rfl
  · apply State.readStore_pending
    intro u
    refine ⟨trivial, ?_⟩
    try dsimp only
    (repeat' split) <;> simp [h]

@[simp] theorem State.issue_pending (s : State) (a1) (a2) (a3) (a4) (a5 : State → State) (h : ∀ t, True ∧ (a5 t).pending = t.pending) : (State.issue s a1 a2 a3 a4 a5).pending = s.pending := by
  simp only [State.issue]
  (repeat' split) <;> simp_all

@[simp] theorem State.portConflict_pending (s : State) (a1) : (State.portConflict s a1).pending = s.pending := by
  simp [State.portConflict]

@[simp] theorem State.checkNarrow_pending (s : State) (a1) : (State.checkNarrow s a1).pending = s.pending := by
  unfold State.checkNarrow
  split <;> simp

@[simp] theorem State.useNarrow_pending (s : State) (a1) (a2) (a3) : (State.useNarrow s a1 a2 a3).pending = s.pending := by
  simp [State.useNarrow]

@[simp] theorem State.moveFill_pending (s : State) (a1) (a2) : (State.moveFill s a1 a2).pending = s.pending := by
  simp [State.moveFill]

@[simp] theorem State.yieldFills_pending (s : State) (a1) : (State.yieldFills s a1).pending = s.pending := by
  simp [State.yieldFills]

@[simp] theorem State.useWideAt_pending (s : State) (a1) (a2) (a3) (a4) (a5 : State → State) (h : ∀ t, True ∧ (a5 t).pending = t.pending) : (State.useWideAt s a1 a2 a3 a4 a5).pending = s.pending := by
  unfold State.useWideAt
  extract_lets
  (repeat' split) <;> simp [*]

@[simp] theorem State.useWide_pending (s : State) (a1) (a2) (a3) (a4 : State → State) (h : ∀ t, True ∧ (a4 t).pending = t.pending) : (State.useWide s a1 a2 a3 a4).pending = s.pending := by
  simp only [State.useWide]
  (repeat' split) <;> simp_all

@[simp] theorem State.settle_pending (s : State) (a1) (a2) : (State.settle s a1 a2).pending = s.pending := by
  simp [State.settle]

@[simp] theorem State.settleLines_pending (s : State) (a1) (a2) (a3) : (State.settleLines s a1 a2 a3).pending = s.pending := by
  simp [State.settleLines]

@[simp] theorem State.writeLines_pending (s : State) (a1) (a2) (a3) : (State.writeLines s a1 a2 a3).pending = s.pending := by
  simp [State.writeLines]

@[simp] theorem State.tagFault_pending (s : State) (a1) (a2) (a3) : (State.tagFault s a1 a2 a3).pending = s.pending := by
  simp [State.tagFault]

@[simp] theorem State.lateClash_pending (s : State) (a1) (a2) (a3) : (State.lateClash s a1 a2 a3).pending = s.pending := by
  simp [State.lateClash]

@[simp] theorem State.charge_pending (s : State) (a1) (a2) : (State.charge s a1 a2).pending = s.pending := by
  simp [State.charge]

@[simp] theorem State.readError_pending (s : State) (a1) (a2) (a3) : (State.readError s a1 a2 a3).1.pending = s.pending := by
  unfold State.readError
  dsimp only
  (repeat' split) <;> simp

@[simp] theorem State.checkLines_pending (s : State) (a1) (a2) (a3) (a4) :
    (State.checkLines s a1 a2 a3 a4).1.pending = s.pending := by
  unfold State.checkLines
  exact foldlp_pending _ (fun x e => by simp) _ _

@[simp] theorem State.ownFault_pending (s : State) (a1) (a2) (a3) (a4) : (State.ownFault s a1 a2 a3 a4).pending = s.pending := by
  simp [State.ownFault]

@[simp] theorem State.readChecked_pending (s : State) (a1) (a2) (a3) (a4) (a5) (a6 : State → State) (h : ∀ t, True ∧ (a6 t).pending = t.pending) : (State.readChecked s a1 a2 a3 a4 a5 a6).pending = s.pending := by
  unfold State.readChecked
  split <;> (rename_i e; have e := congrArg (fun r => r.1.pending) e; simp at e; simp [← e, h])

@[simp] theorem State.linkFail_pending (s : State) (a1) : (State.linkFail s a1).pending = s.pending := by
  simp [State.linkFail]

@[simp] theorem State.clearingFail_pending (s : State) (a1) (a2) (a3) (a4) :
    (State.clearingFail s a1 a2 a3 a4).pending = s.pending := by
  unfold State.clearingFail
  split <;> simp

@[simp] theorem State.recipeDisagreement_pending (s : State) (a1) : (State.recipeDisagreement s a1).pending = s.pending := by
  simp [State.recipeDisagreement]

@[simp] theorem State.summaryDone_pending (s : State) (a1) (a2) : (State.summaryDone s a1 a2).pending = s.pending := by
  simp [State.summaryDone]

@[simp] theorem State.advanceRounds_pending (s : State) (a1) (a2) : (State.advanceRounds s a1 a2).pending = s.pending := by
  have fold : ∀ (l : List Nat) (g : Nat × Summary × State → Nat → Nat × Summary × State)
      (_ : ∀ z k, (g z k).2.2.pending = z.2.2.pending) (z : Nat × Summary × State), (l.foldl g z).2.2.pending = z.2.2.pending := by
    intro l g h
    induction l with
    | nil => intro z; rfl
    | cons a t ih => intro z; rw [List.foldl_cons, ih, h]
  unfold State.advanceRounds
  (repeat' split) <;> first | rfl | simp | skip
  all_goals
    try simp
    try rw [fold]
    intro z k
    try dsimp only
    (repeat' split) <;> simp

@[simp] theorem State.runExchange_pending (s : State) (a1) (a2) (a3) (a4) :
    (State.runExchange s a1 a2 a3 a4).pending = s.pending := by
  have fold : ∀ (l : List Nat) (g : Nat × Summary × State → Nat → Nat × Summary × State)
      (_ : ∀ z k, (g z k).2.2.pending = z.2.2.pending) (z : Nat × Summary × State), (l.foldl g z).2.2.pending = z.2.2.pending := by
    intro l g h
    induction l with
    | nil => intro z; rfl
    | cons a t ih => intro z; rw [List.foldl_cons, ih, h]
  unfold State.runExchange
  (repeat' split) <;> first | rfl | simp | skip
  all_goals
    try simp
    try rw [fold]
    intro z k
    try dsimp only
    (repeat' split) <;> simp

@[simp] theorem State.startSummary_pending (s : State) (a1) : (State.startSummary s a1).pending = s.pending := by
  unfold State.startSummary
  dsimp only
  (repeat' split) <;> simp

@[simp] theorem State.freeEntry_pending (s : State) (a1) (a2) : (State.freeEntry s a1 a2).pending = s.pending := by
  simp [State.freeEntry]

@[simp] theorem State.serveRecvs_pending (s : State) (a1) (a2) : (State.serveRecvs s a1 a2).pending = s.pending := by
  simp [State.serveRecvs]

@[simp] theorem State.entryEvent_pending (s : State) (a1) (a2) : (State.entryEvent s a1 a2).pending = s.pending := by
  unfold State.entryEvent
  dsimp only
  (repeat' split) <;> simp

@[simp] theorem State.landLocal_pending (s : State) (a1) (a2) (a3) (a4) :
    (State.landLocal s a1 a2 a3 a4).pending = s.pending := by
  unfold State.landLocal
  dsimp only
  (repeat' split) <;> simp

@[simp] theorem State.landTransmit_pending (s : State) (a1) (a2) (a3) : (State.landTransmit s a1 a2 a3).pending = s.pending := by
  unfold State.landTransmit
  dsimp only
  (repeat' split) <;> simp

@[simp] theorem fireAct_pending (a1) (a2) (a3) (a4) (a5) (a6) (a7) (s : State) :
    (fireAct a1 a2 a3 a4 a5 a6 a7 s).pending = s.pending := by
  simp [fireAct]

@[simp] theorem tfireAct_pending (a1) (a2) (a3) (a4) (a5) (a6) (a7) (s : State) :
    (tfireAct a1 a2 a3 a4 a5 a6 a7 s).pending = s.pending := by
  simp [tfireAct]

@[simp] theorem State.readReg_pending (s : State) (a1) (a2) (a3) (a4) (a5) (a6 : RegOut → AccReg → State → State) (h : ∀ r x t, True ∧ (a6 r x t).pending = t.pending) : (State.readReg s a1 a2 a3 a4 a5 a6).pending = s.pending := by
  unfold State.readReg
  extract_lets
  (repeat' split) <;> simp [*]

@[simp] theorem State.setVreg_pending (s : State) (a1) (a2) (a3) : (State.setVreg s a1 a2 a3).pending = s.pending := by
  simp [State.setVreg]

@[simp] theorem State.vecResidue_pending (s : State) (a1) (a2) : (State.vecResidue s a1 a2).pending = s.pending := by
  simp [State.vecResidue]

@[simp] theorem State.vecChecked_pending (s : State) (a1) (a2) (a3) (a4) (a5) (a6 : State → State) (h : ∀ t, True ∧ (a6 t).pending = t.pending) : (State.vecChecked s a1 a2 a3 a4 a5 a6).pending = s.pending := by
  simp only [State.vecChecked]
  (repeat' split) <;> simp_all

@[simp] theorem State.vecOp_pending (s : State) (a1) (a2) (a3) (a4 : State → State) (h : ∀ t, True ∧ (a4 t).pending = t.pending) : (State.vecOp s a1 a2 a3 a4).pending = s.pending := by
  simp only [State.vecOp]
  (repeat' split) <;> simp_all

@[simp] theorem State.vecLine_pending (s : State) (a1) (a2) (a3) (a4) (a5) (a6) (a7 : State → State) (h : ∀ t, True ∧ (a7 t).pending = t.pending) : (State.vecLine s a1 a2 a3 a4 a5 a6 a7).pending = s.pending := by
  unfold State.vecLine
  apply State.issue_pending
  intro u
  refine ⟨trivial, ?_⟩
  try dsimp only
  split
  · simp
  · apply State.useWide_pending
    intro u
    refine ⟨trivial, ?_⟩
    apply State.readChecked_pending
    intro u
    refine ⟨trivial, ?_⟩
    exact State.vecChecked_pending _ _ _ _ _ _ _ h

@[simp] theorem State.readOwn_pending (s : State) (a1) (a2) : (State.readOwn s a1 a2).1.pending = s.pending := by
  simp [State.readOwn]

@[simp] theorem State.vec2_pending (s : State) (a1) (a2) (a3) (a4) : (State.vec2 s a1 a2 a3 a4).pending = s.pending := by
  simp [State.vec2]

@[simp] theorem State.vec3_pending (s : State) (a1) (a2) (a3) (a4) : (State.vec3 s a1 a2 a3 a4).pending = s.pending := by
  simp [State.vec3]

@[simp] theorem State.vec1_pending (s : State) (a1) (a2) (a3) (a4) : (State.vec1 s a1 a2 a3 a4).pending = s.pending := by
  simp [State.vec1]

@[simp] theorem State.readLanes_pending (s : State) (a1) (a2) (a3) (a4) (a5 : State → State) (h : ∀ t, True ∧ (a5 t).pending = t.pending) : (State.readLanes s a1 a2 a3 a4 a5).pending = s.pending := by
  simp only [State.readLanes]
  (repeat' split) <;> simp_all

@[simp] theorem State.writeBurst_pending (s : State) (a1) (a2) (a3) (a4) :
    (State.writeBurst s a1 a2 a3 a4).pending = s.pending := by
  simp [State.writeBurst]

@[simp] theorem State.closeGroup_pending (s : State) (a1) : (State.closeGroup s a1).pending = s.pending := by
  simp [State.closeGroup]

@[simp] theorem State.reduceTo_pending (s : State) (a1) (a2) (a3) : (State.reduceTo s a1 a2 a3).pending = s.pending := by
  simp [State.reduceTo]

@[simp] theorem State.vecWordOp_pending (s : State) (a1) (a2) (a3) (a4) (a5 : State → State) (h : ∀ t, True ∧ (a5 t).pending = t.pending) : (State.vecWordOp s a1 a2 a3 a4 a5).pending = s.pending := by
  unfold State.vecWordOp
  apply State.issue_pending
  intro u
  refine ⟨trivial, ?_⟩
  try dsimp only
  split
  · simp
  · refine (State.readChecked_pending _ _ _ _ _ _ _ ?_).trans (by simp)
    intro u
    refine ⟨trivial, ?_⟩
    exact State.vecChecked_pending _ _ _ _ _ _ _ h

@[simp] theorem State.creditFault_pending (s : State) (a1) : (State.creditFault s a1).pending = s.pending := by
  simp [State.creditFault]

@[simp] theorem State.withCredit_pending (s : State) (a1) (a2) (a3) (a4) (a5) (a6) (a7 : State → State) (h : ∀ t, True ∧ (a7 t).pending = t.pending) : (State.withCredit s a1 a2 a3 a4 a5 a6 a7).pending = s.pending := by
  unfold State.withCredit
  extract_lets
  (repeat' split) <;> simp [*]

@[simp] theorem State.inject_pending (s : State) (a1) : (State.inject s a1).pending = s.pending := by
  simp [State.inject]

@[simp] theorem State.overfill_pending (s : State) (a1) (a2) : (State.overfill s a1 a2).pending = s.pending := by
  simp [State.overfill]

@[simp] theorem State.issueLoad_pending (s : State) (a1) (a2) (a3) (a4) (a5) (a6) (a7) :
    (State.issueLoad s a1 a2 a3 a4 a5 a6 a7).pending = s.pending := by
  simp [State.issueLoad]

@[simp] theorem State.resume_pending (s : State) (a1) : (State.resume s a1).pending = s.pending := by
  unfold State.resume
  split <;> simp

@[simp] theorem State.holdFor_pending (s : State) (a1) (a2) (a3) : (State.holdFor s a1 a2 a3).pending = s.pending := by
  simp [State.holdFor]

@[simp] theorem State.issueLast_pending (s : State) (a1) (a2) (a3) (a4 : State → State) (h : ∀ t, True ∧ (a4 t).pending = t.pending) : (State.issueLast s a1 a2 a3 a4).pending = s.pending := by
  unfold State.issueLast
  extract_lets
  (repeat' split) <;> simp [*]

@[simp] theorem State.dropFlits_pending (s : State) (a1) : (State.dropFlits s a1).pending = s.pending := by
  simp [State.dropFlits]

@[simp] theorem State.meshClash_pending (s : State) (a1) (a2) (a3) (a4) (a5) (a6) :
    (State.meshClash s a1 a2 a3 a4 a5 a6).pending = s.pending := by
  simp [State.meshClash]

@[simp] theorem State.routerError_pending (s : State) (a1) : (State.routerError s a1).pending = s.pending := by
  simp [State.routerError]

@[simp] theorem State.destFault_pending (s : State) (a1) (a2) : (State.destFault s a1 a2).pending = s.pending := by
  simp [State.destFault]

@[simp] theorem State.claim_pending (s : State) (a1) (a2) (a3) (a4) (a5) (a6) (a7) :
    (State.claim s a1 a2 a3 a4 a5 a6 a7).pending = s.pending := by
  unfold State.claim
  dsimp only
  (repeat' split) <;> simp

@[simp] theorem State.landTile_pending (s : State) (a1) (a2) : (State.landTile s a1 a2).pending = s.pending := by
  unfold State.landTile
  dsimp only
  (repeat' split) <;> simp

@[simp] theorem State.landSlot_pending (s : State) (a1) (a2) (a3) (a4) (a5) (a6) :
    (State.landSlot s a1 a2 a3 a4 a5 a6).pending = s.pending := by
  unfold State.landSlot
  (repeat' split) <;> simp

@[simp] theorem State.passRouters_pending (s : State) (a1) : (State.passRouters s a1).pending = s.pending := by
  simp [State.passRouters]

@[simp] theorem State.passQueue_pending (s : State) (a1) (a2) : (State.passQueue s a1 a2).pending = s.pending := by
  simp [State.passQueue]

@[simp] theorem State.dropMsg_pending (s : State) (a1) (a2) (a3) : (State.dropMsg s a1 a2 a3).pending = s.pending := by
  unfold State.dropMsg
  split <;> simp

@[simp] theorem State.ejectFault_pending (s : State) (a1) (a2) (a3) : (State.ejectFault s a1 a2 a3).pending = s.pending := by
  simp [State.ejectFault]

@[simp] theorem State.sawMsg_pending (s : State) (a1) (a2) : (State.sawMsg s a1 a2).pending = s.pending := by
  unfold State.sawMsg
  split <;> simp

@[simp] theorem State.deliver_pending (s : State) (a1) (a2) (a3) (a4 : State → State) (h : ∀ t, True ∧ (a4 t).pending = t.pending) : (State.deliver s a1 a2 a3 a4).pending = s.pending := by
  simp only [State.deliver]
  (repeat' split) <;> simp_all

@[simp] theorem State.poisonFault_pending (s : State) (a1) (a2) (a3) (a4) (a5) :
    (State.poisonFault s a1 a2 a3 a4 a5).pending = s.pending := by
  simp [State.poisonFault]

@[simp] theorem State.queueBytes_pending (s : State) (a1) : (State.queueBytes s a1).pending = s.pending := by
  simp [State.queueBytes]

@[simp] theorem State.failStack_pending (s : State) (a1) : (State.failStack s a1).pending = s.pending := by
  simp [State.failStack]

@[simp] theorem State.stackRead_pending (s : State) (a1) (a2) (a3) : (State.stackRead s a1 a2 a3).1.pending = s.pending := by
  unfold State.stackRead
  dsimp only
  (repeat' split) <;> simp

@[simp] theorem State.queueLine_pending (s : State) (a1) (a2) (a3) (a4) (a5) :
    (State.queueLine s a1 a2 a3 a4 a5).1.pending = s.pending := by
  unfold State.queueLine
  (repeat' split) <;> simp

@[simp] theorem State.fetchLines_pending (s : State) (a1) (a2) (a3) (a4) (a5) (a6) :
    (State.fetchLines s a1 a2 a3 a4 a5 a6).1.pending = s.pending := by
  unfold State.fetchLines
  refine foldlp_pending _ (fun x l => ?_) _ _
  dsimp only
  split
  · (repeat' split) <;> simp_all
  · (repeat' split) <;> simp_all

@[simp] theorem State.moveLines_pending (s : State) (a1) (a2) (a3) (a4) (a5) :
    (State.moveLines s a1 a2 a3 a4 a5).1.pending = s.pending := by
  unfold State.moveLines
  exact foldlp_pending _ (fun x l => by simp) _ _

@[simp] theorem State.servedLine_pending (s : State) (a1) : (State.servedLine s a1).pending = s.pending := by
  unfold State.servedLine
  split <;> simp

@[simp] theorem State.answerLoad_pending (s : State) (a1) (a2) (a3) (a4) (a5) (a6) (a7) (a8) (a9) :
    (State.answerLoad s a1 a2 a3 a4 a5 a6 a7 a8 a9).pending = s.pending := by
  simp [State.answerLoad]

@[simp] theorem State.zeroGranule_pending (s : State) (a1) : (State.zeroGranule s a1).pending = s.pending := by
  simp [State.zeroGranule]

@[simp] theorem State.descLand_pending (s : State) (a1) (a2) (a3) (a4) (a5) (a6) :
    (State.descLand s a1 a2 a3 a4 a5 a6).pending = s.pending := by
  unfold State.descLand
  dsimp only
  (repeat' split) <;> simp

@[simp] theorem State.setPage_pending (s : State) (a1) (a2) (a3) : (State.setPage s a1 a2 a3).pending = s.pending := by
  simp [State.setPage]

@[simp] theorem State.updDesc_pending (s : State) (a1) (a2) : (State.updDesc s a1 a2).pending = s.pending := by
  simp [State.updDesc]

@[simp] theorem State.putResults_pending (s : State) (a1) (a2) (a3) (a4) :
    (State.putResults s a1 a2 a3 a4).pending = s.pending := by
  unfold State.putResults
  dsimp only
  (repeat' split) <;> simp

@[simp] theorem State.writeEntry_pending (s : State) (a1) (a2) (a3) (a4) :
    (State.writeEntry s a1 a2 a3 a4).pending = s.pending := by
  simp [State.writeEntry]

@[simp] theorem State.writeEntries_pending (s : State) (a1) (a2) (a3) (a4) :
    (State.writeEntries s a1 a2 a3 a4).pending = s.pending := by
  unfold State.writeEntries
  refine foldl_pending _ (fun t a => ?_) _ _
  try dsimp only
  split
  · rfl
  · split <;> simp

@[simp] theorem State.appendTraffic_pending (s : State) (a1) (a2) (a3) (a4) (a5) :
    (State.appendTraffic s a1 a2 a3 a4 a5).1.pending = s.pending := by
  unfold State.appendTraffic
  dsimp only
  (repeat' split) <;> simp

@[simp] theorem State.append_pending (s : State) (a1) (a2) (a3) : (State.append s a1 a2 a3).pending = s.pending := by
  simp [State.append]

@[simp] theorem State.storeRows_pending (s : State) (a1) (a2) : (State.storeRows s a1 a2).pending = s.pending := by
  simp [State.storeRows]

@[simp] theorem State.sendPartials_pending (s : State) (a1) (a2) (a3) : (State.sendPartials s a1 a2 a3).pending = s.pending := by
  unfold State.sendPartials
  split <;> simp

@[simp] theorem State.finishAttend_pending (s : State) (a1) (a2) (a3) (a4) (a5) (a6) :
    (State.finishAttend s a1 a2 a3 a4 a5 a6).pending = s.pending := by
  simp [State.finishAttend]

@[simp] theorem State.finishAppend_pending (s : State) (a1) (a2) (a3) (a4) (a5) :
    (State.finishAppend s a1 a2 a3 a4 a5).pending = s.pending := by
  simp [State.finishAppend]

@[simp] theorem State.finishJob_pending (s : State) (a1) (a2) (a3) (a4) (a5) (a6) :
    (State.finishJob s a1 a2 a3 a4 a5 a6).pending = s.pending := by
  simp [State.finishJob]

@[simp] theorem State.withdraw_pending (s : State) (a1) (a2) : (State.withdraw s a1 a2).pending = s.pending := by
  simp [State.withdraw]

@[simp] theorem State.arrayFailed_pending (s : State) (a1) (a2) (a3) : (State.arrayFailed s a1 a2 a3).pending = s.pending := by
  simp [State.arrayFailed]

@[simp] theorem State.spFailed_pending (s : State) (a1) (a2) (a3) : (State.spFailed s a1 a2 a3).pending = s.pending := by
  simp [State.spFailed]

@[simp] theorem State.arrayRan_pending (s : State) (a1) (a2) (a3) : (State.arrayRan s a1 a2 a3).pending = s.pending := by
  simp [State.arrayRan]

@[simp] theorem State.arrayReadable_pending (s : State) (a1) (a2) (a3) (a4) :
    (State.arrayReadable s a1 a2 a3 a4).pending = s.pending := by
  simp [State.arrayReadable]

@[simp] theorem State.overwriteClash_pending (s : State) (a1) (a2) (a3) :
    (State.overwriteClash s a1 a2 a3).pending = s.pending := by
  simp [State.overwriteClash]

@[simp] theorem State.transitFailed_pending (s : State) (a1) (a2) (a3) :
    (State.transitFailed s a1 a2 a3).pending = s.pending := by
  simp [State.transitFailed]

@[simp] theorem State.unrepairable_pending (s : State) (a1) : (State.unrepairable s a1).pending = s.pending := by
  simp [State.unrepairable]

@[simp] theorem State.leaveStreams_pending (s : State) (a1) : (State.leaveStreams s a1).pending = s.pending := by
  simp [State.leaveStreams]

@[simp] theorem State.saveCorr_pending (s : State) : (State.saveCorr s).pending = s.pending := by
  simp [State.saveCorr]

@[simp] theorem State.afterUser_pending (s : State) (a1) : (State.afterUser s a1).pending = s.pending := by
  simp [State.afterUser]

@[simp] theorem State.dropCal_pending (s : State) (a1) : (State.dropCal s a1).pending = s.pending := by
  simp [State.dropCal]

@[simp] theorem State.programArray_pending (s : State) (a1) (a2) (a3) : (State.programArray s a1 a2 a3).pending = s.pending := by
  simp [State.programArray]

@[simp] theorem State.requestCal_pending (s : State) (a1) : (State.requestCal s a1).pending = s.pending := by
  simp [State.requestCal]

@[simp] theorem State.requestUser_pending (s : State) (a1) (a2) : (State.requestUser s a1 a2).pending = s.pending := by
  simp [State.requestUser]

@[simp] theorem State.requestRotation_pending (s : State) (a1) : (State.requestRotation s a1).pending = s.pending := by
  simp [State.requestRotation]

@[simp] theorem State.setQuality_pending (s : State) (a1) (a2) : (State.setQuality s a1 a2).pending = s.pending := by
  simp [State.setQuality]

@[simp] theorem State.countProgrammed_pending (s : State) (a1) : (State.countProgrammed s a1).pending = s.pending := by
  unfold State.countProgrammed
  dsimp only
  (repeat' split) <;> simp

@[simp] theorem State.windowEnd_pending (s : State) (a1) : (State.windowEnd s a1).pending = s.pending := by
  simp [State.windowEnd]

@[simp] theorem State.drift_pending (s : State) (a1) : (State.drift s a1).pending = s.pending := by
  simp [State.drift]

@[simp] theorem State.probeSlot_pending (s : State) (a1) : (State.probeSlot s a1).pending = s.pending := by
  simp [State.probeSlot]

@[simp] theorem State.setStandIn_pending (s : State) (a1) : (State.setStandIn s a1).pending = s.pending := by
  simp [State.setStandIn]

@[simp] theorem State.calSlot_pending (s : State) (a1) : (State.calSlot s a1).pending = s.pending := by
  simp [State.calSlot]

@[simp] theorem calAct_pending (a1) (a2) (a3) (s : State) : (calAct a1 a2 a3 s).pending = s.pending := by
  simp [calAct]

@[simp] theorem State.writeRows_pending (s : State) (a1) : (State.writeRows s a1).pending = s.pending := by
  unfold State.writeRows
  dsimp only
  (repeat' split) <;> simp

@[simp] theorem State.returnRebuilt_pending (s : State) : (State.returnRebuilt s).pending = s.pending := by
  simp [State.returnRebuilt]

@[simp] theorem State.evaluate_pending (s : State) (a1) : (State.evaluate s a1).pending = s.pending := by
  unfold State.evaluate
  dsimp only
  (repeat' split) <;> simp

@[simp] theorem State.takeChunk_pending (s : State) (a1) (a2) : (State.takeChunk s a1 a2).1.pending = s.pending := by
  unfold State.takeChunk
  split <;> simp

@[simp] theorem State.takeRun_pending (s : State) (a1) (a2) : (State.takeRun s a1 a2).1.pending = s.pending := by
  unfold State.takeRun
  split <;> simp

@[simp] theorem State.giveChunks_pending (s : State) (a1) (a2) (a3) : (State.giveChunks s a1 a2 a3).pending = s.pending := by
  simp [State.giveChunks]

@[simp] theorem State.mapPages_pending (s : State) (a1) (a2) : (State.mapPages s a1 a2).pending = s.pending := by
  induction a2 with
  | zero => rfl
  | succ n ih =>
    unfold State.mapPages
    try dsimp only
    split
    · exact ih
    · split <;> (rename_i h; have e := congrArg (fun r => r.1.pending) h; simp [ih] at e; simp [← e])

@[simp] theorem State.mapAhead_pending (s : State) (a1) : (State.mapAhead s a1).pending = s.pending := by
  simp [State.mapAhead]

@[simp] theorem State.descLine_pending (s : State) (a1) : (State.descLine s a1).1.pending = s.pending := by
  unfold State.descLine
  split
  · simp
  · split <;> (rename_i h; have e := congrArg (fun r => r.1.pending) h; simp at e; simp [← e])

@[simp] theorem State.openCtx_pending (s : State) (a1) (a2) (a3) (a4) (a5) (a6) :
    (State.openCtx s a1 a2 a3 a4 a5 a6).1.pending = s.pending := by
  unfold State.openCtx
  split
  · rename_i h
    have e := congrArg (fun r => r.1.pending) h
    simp at e
    simp [← e]
  · rename_i h
    have e := congrArg (fun r => r.1.pending) h
    simp at e
    split
    · rfl
    · rename_i h2
      have e2 := congrArg (fun r => r.1.pending) h2
      simp at e2
      simp [← e, ← e2]

@[simp] theorem State.openStreams_pending (s : State) (a1) (a2) : (State.openStreams s a1 a2).pending = s.pending := by
  simp [State.openStreams]

@[simp] theorem State.dropStream_pending (s : State) (a1) : (State.dropStream s a1).pending = s.pending := by
  simp [State.dropStream]

@[simp] theorem State.dropStreams_pending (s : State) (a1) (a2) : (State.dropStreams s a1 a2).pending = s.pending := by
  simp [State.dropStreams]

@[simp] theorem State.commitStream_pending (s : State) (a1) (a2) : (State.commitStream s a1 a2).pending = s.pending := by
  simp [State.commitStream]

@[simp] theorem State.commitStreams_pending (s : State) (a1) (a2) (a3) :
    (State.commitStreams s a1 a2 a3).pending = s.pending := by
  simp [State.commitStreams]

@[simp] theorem State.updAdapter_pending (s : State) (a1) (a2) : (State.updAdapter s a1 a2).pending = s.pending := by
  unfold State.updAdapter
  dsimp only
  (repeat' split) <;> simp

@[simp] theorem State.placeAdapter_pending (s : State) (a1) (a2) (a3) (a4) :
    (State.placeAdapter s a1 a2 a3 a4).pending = s.pending := by
  unfold State.placeAdapter
  split
  · rfl
  · split
    · rfl
    · rename_i h
      have e := congrArg (fun r => r.1.pending) h
      simp at e
      simp [← e]

@[simp] theorem State.dropAdapter_pending (s : State) (a1) (a2) : (State.dropAdapter s a1 a2).pending = s.pending := by
  unfold State.dropAdapter
  split <;> simp

@[simp] theorem State.setMemBytes_pending (s : State) (a1) (a2) : (State.setMemBytes s a1 a2).pending = s.pending := by
  simp [State.setMemBytes]

@[simp] theorem State.uwp_pending (s : State) (a1) (a2) (a3) (a4) (a5) (a6) (a7) (a8) :
    (State.uwp s a1 a2 a3 a4 a5 a6 a7 a8).pending = s.pending := by
  simp [State.uwp]

@[simp] theorem State.sendReceipt_pending (s : State) (a1) : (State.sendReceipt s a1).pending = s.pending := by
  simp [State.sendReceipt]

@[simp] theorem State.sendResult_pending (s : State) (a1) (a2) : (State.sendResult s a1 a2).pending = s.pending := by
  simp [State.sendResult]

@[simp] theorem State.sendTokens_pending (s : State) (a1) (a2) (a3) : (State.sendTokens s a1 a2 a3).pending = s.pending := by
  simp [State.sendTokens]

@[simp] theorem State.sendCancel_pending (s : State) (a1) (a2) (a3) (a4) (a5) :
    (State.sendCancel s a1 a2 a3 a4 a5).pending = s.pending := by
  simp [State.sendCancel]

@[simp] theorem State.drainWindow_pending (s : State) (a1) : (State.drainWindow s a1).pending = s.pending := by
  simp [State.drainWindow]

@[simp] theorem State.dropWindows_pending (s : State) : (State.dropWindows s).pending = s.pending := by
  simp [State.dropWindows]

@[simp] theorem State.dropGranules_pending (s : State) (a1) : (State.dropGranules s a1).pending = s.pending := by
  simp [State.dropGranules]

@[simp] theorem State.releaseGranules_pending (s : State) (a1) : (State.releaseGranules s a1).pending = s.pending := by
  simp [State.releaseGranules]

@[simp] theorem State.closeWindow_pending (s : State) (a1) : (State.closeWindow s a1).pending = s.pending := by
  simp [State.closeWindow]

@[simp] theorem State.closeWindows_pending (s : State) (a1) : (State.closeWindows s a1).pending = s.pending := by
  simp [State.closeWindows]

@[simp] theorem State.updSub_pending (s : State) (a1) (a2) (a3) (a4) : (State.updSub s a1 a2 a3 a4).pending = s.pending := by
  simp [State.updSub]

@[simp] theorem State.endRdma_pending (s : State) (a1) : (State.endRdma s a1).pending = s.pending := by
  unfold State.endRdma
  split <;> simp

@[simp] theorem State.freeSession_pending (s : State) (a1) : (State.freeSession s a1).pending = s.pending := by
  simp [State.freeSession]

@[simp] theorem State.tryFree_pending (s : State) (a1) : (State.tryFree s a1).pending = s.pending := by
  simp [State.tryFree]

@[simp] theorem State.beginClose_pending (s : State) (a1) : (State.beginClose s a1).pending = s.pending := by
  simp [State.beginClose]

@[simp] theorem State.writeTables_pending (s : State) (a1) (a2) (a3) : (State.writeTables s a1 a2 a3).pending = s.pending := by
  unfold State.writeTables
  (repeat' split) <;> simp

@[simp] theorem State.writeRing_pending (s : State) (a1) (a2) : (State.writeRing s a1 a2).pending = s.pending := by
  simp [State.writeRing]

@[simp] theorem State.assign_pending (s : State) (a1) (a2) (a3) (a4) : (State.assign s a1 a2 a3 a4).1.pending = s.pending := by
  unfold State.assign
  split <;> simp

@[simp] theorem State.complete_pending (s : State) (a1) (a2) (a3) (a4) : (State.complete s a1 a2 a3 a4).pending = s.pending := by
  simp [State.complete]

@[simp] theorem State.freeAccount_pending (s : State) (a1) : (State.freeAccount s a1).pending = s.pending := by
  simp [State.freeAccount]

@[simp] theorem State.closeExports_pending (s : State) (a1) : (State.closeExports s a1).pending = s.pending := by
  simp [State.closeExports]

@[simp] theorem State.directed_pending (s : State) (a1) (a2) : (State.directed s a1 a2).pending = s.pending := by
  unfold State.directed
  split <;> simp

@[simp] theorem State.noticeAll_pending (s : State) (a1) : (State.noticeAll s a1).pending = s.pending := by
  simp [State.noticeAll]

@[simp] theorem State.takeRestore_pending (s : State) (a1) : (State.takeRestore s a1).pending = s.pending := by
  unfold State.takeRestore
  split <;> simp

@[simp] theorem State.accepted_pending (s : State) (a1) : (State.accepted s a1).pending = s.pending := by
  unfold State.accepted
  dsimp only
  (repeat' split) <;> simp

@[simp] theorem State.parked_pending (s : State) (a1) (a2) : (State.parked s a1 a2).pending = s.pending := by
  simp [State.parked]

@[simp] theorem State.committed_pending (s : State) (a1) (a2) (a3) (a4) (a5) (a6) (a7) (a8) (a9) :
    (State.committed s a1 a2 a3 a4 a5 a6 a7 a8 a9).pending = s.pending := by
  simp [State.committed]

@[simp] theorem State.commitAdapter_pending (s : State) (a1) (a2) (a3) :
    (State.commitAdapter s a1 a2 a3).pending = s.pending := by
  simp [State.commitAdapter]

@[simp] theorem State.learned_pending (s : State) (a1) (a2) (a3) (a4) : (State.learned s a1 a2 a3 a4).pending = s.pending := by
  simp [State.learned]

@[simp] theorem State.restored_pending (s : State) (a1) (a2) : (State.restored s a1 a2).pending = s.pending := by
  unfold State.restored
  dsimp only
  (repeat' split) <;> simp

@[simp] theorem State.completed_pending (s : State) (a1) : (State.completed s a1).pending = s.pending := by
  unfold State.completed
  split <;> simp

@[simp] theorem State.retired_pending (s : State) (a1) (a2) : (State.retired s a1 a2).pending = s.pending := by
  unfold State.retired
  simp
  rw [foldl_pending]
  · rw [foldl_pending]
    intro t b
    simp
  · intro t b
    try dsimp only
    (repeat' split) <;> simp

@[simp] theorem State.applyRec_pending (s : State) (a1) (a2) : (State.applyRec s a1 a2).pending = s.pending := by
  unfold State.applyRec
  dsimp only
  (repeat' split) <;> simp

@[simp] theorem State.applyOnce_pending (s : State) (a1) (a2) : (State.applyOnce s a1 a2).pending = s.pending := by
  simp [State.applyOnce]

@[simp] theorem State.runJournal_pending (s : State) (a1) : (State.runJournal s a1).pending = s.pending := by
  induction a1 generalizing s with
  | zero => rfl
  | succ n ih =>
    unfold State.runJournal
    (repeat' split) <;> simp [ih]

@[simp] theorem State.runDurable_pending (s : State) : (State.runDurable s).pending = s.pending := by
  simp [State.runDurable]

@[simp] theorem State.ackLsn_pending (s : State) (a1) : (State.ackLsn s a1).pending = s.pending := by
  simp [State.ackLsn]

@[simp] theorem State.seenAcct_pending (s : State) (a1) (a2) (a3) : (State.seenAcct s a1 a2 a3).pending = s.pending := by
  simp [State.seenAcct]

@[simp] theorem State.replayAcct_pending (a1) (s : State) (a2) : (State.replayAcct a1 s a2).pending = s.pending := by
  unfold State.replayAcct
  (repeat' split) <;> simp

@[simp] theorem State.replaySub_pending (a1) (a2) (a3) (s : State) (a4) :
    (State.replaySub a1 a2 a3 s a4).pending = s.pending := by
  unfold State.replaySub
  dsimp only
  (repeat' split) <;> first | rfl | simp | skip
  all_goals
    refine foldl_pending _ (fun t b => ?_) _ _
    (repeat' split) <;> first | rfl | simp

@[simp] theorem State.replayRec_pending (a1) (a2) (a3) (s : State) (a4) :
    (State.replayRec a1 a2 a3 s a4).pending = s.pending := by
  simp [State.replayRec]

@[simp] theorem State.finishEnded_pending (s : State) (a1) : (State.finishEnded s a1).pending = s.pending := by
  unfold State.finishEnded
  refine foldl_pending _ (fun t b => ?_) _ _
  try dsimp only
  split
  · split <;> simp
  · rfl

@[simp] theorem State.resendSub_pending (s : State) (a1) : (State.resendSub s a1).pending = s.pending := by
  unfold State.resendSub
  dsimp only
  simp only [ite_pending, State.sendResult_pending, ite_self]
  refine foldl_pending _ (fun t j => ?_) _ _
  try dsimp only
  (repeat' split) <;> simp

@[simp] theorem State.resendAll_pending (s : State) (a1) : (State.resendAll s a1).pending = s.pending := by
  unfold State.resendAll
  simp
  rw [foldl_pending]
  intro t b
  try dsimp only
  split <;> simp

@[simp] theorem State.resumeRunning_pending (s : State) (a1) : (State.resumeRunning s a1).pending = s.pending := by
  unfold State.resumeRunning
  refine foldl_pending _ (fun t b => ?_) _ _
  try dsimp only
  split <;> simp

@[simp] theorem State.sealAgain_pending (s : State) : (State.sealAgain s).pending = s.pending := by
  unfold State.sealAgain
  refine foldl_pending _ (fun t b => ?_) _ _
  try dsimp only
  split <;> simp

@[simp] theorem State.adoptSessions_pending (s : State) (a1) : (State.adoptSessions s a1).pending = s.pending := by
  unfold State.adoptSessions
  dsimp only
  refine foldl_pending _ (fun t r => ?_) _ _
  (repeat' split) <;> first | rfl | simp

@[simp] theorem State.quietAccts_pending (s : State) (a1) : (State.quietAccts s a1).pending = s.pending := by
  simp [State.quietAccts]

@[simp] theorem State.takeOver_pending (s : State) : (State.takeOver s).pending = s.pending := by
  unfold State.takeOver
  split
  · rfl
  · simp

@[simp] theorem State.toChildren_pending (s : State) (a1) (a2) : (State.toChildren s a1 a2).pending = s.pending := by
  simp [State.toChildren]

@[simp] theorem State.masterMessage_pending (s : State) : (State.masterMessage s).pending = s.pending := by
  simp [State.masterMessage]

@[simp] theorem State.endHold_pending (s : State) (a1) : (State.endHold s a1).pending = s.pending := by
  unfold State.endHold
  split <;> simp

@[simp] theorem State.overrun_pending (s : State) (a1) : (State.overrun s a1).pending = s.pending := by
  simp [State.overrun]

@[simp] theorem State.dropCredits_pending (s : State) (a1) : (State.dropCredits s a1).pending = s.pending := by
  simp [State.dropCredits]

@[simp] theorem State.closeStep_pending (s : State) (a1) (a2) : (State.closeStep s a1 a2).pending = s.pending := by
  simp [State.closeStep]

@[simp] theorem State.endFrame_pending (s : State) (a1) : (State.endFrame s a1).pending = s.pending := by
  simp [State.endFrame]

@[simp] theorem State.idleSlots_pending (s : State) : (State.idleSlots s).pending = s.pending := by
  simp [State.idleSlots]

@[simp] theorem State.startExchange_pending (s : State) (a1) : (State.startExchange s a1).pending = s.pending := by
  simp [State.startExchange]

@[simp] theorem State.sendVote_pending (s : State) : (State.sendVote s).pending = s.pending := by
  simp [State.sendVote]

@[simp] theorem State.repeatVote_pending (s : State) : (State.repeatVote s).pending = s.pending := by
  simp [State.repeatVote]

@[simp] theorem State.startCovering_pending (s : State) (a1) : (State.startCovering s a1).pending = s.pending := by
  simp [State.startCovering]

@[simp] theorem State.coverFrame_pending (s : State) : (State.coverFrame s).pending = s.pending := by
  simp [State.coverFrame]

@[simp] theorem State.startFrame_pending (s : State) (a1) : (State.startFrame s a1).pending = s.pending := by
  simp [State.startFrame]

@[simp] theorem State.appliedRec_pending (s : State) (a1) (a2) (a3) (a4) :
    (State.appliedRec s a1 a2 a3 a4).pending = s.pending := by
  simp [State.appliedRec]

@[simp] theorem State.takeRecipe_pending (s : State) (a1) : (State.takeRecipe s a1).pending = s.pending := by
  unfold State.takeRecipe
  dsimp only
  (repeat' split) <;> simp

@[simp] theorem State.writeBases_pending (s : State) (a1) (a2) : (State.writeBases s a1 a2).pending = s.pending := by
  simp [State.writeBases]

@[simp] theorem State.writeAdapters_pending (s : State) (a1) (a2) : (State.writeAdapters s a1 a2).pending = s.pending := by
  unfold State.writeAdapters
  refine foldl_pending _ (fun t x => ?_) _ _
  generalize (if (t.acct x.account.val).part.toNat = a1 then _ else none) = o
  cases o <;> simp

@[simp] theorem State.startStreams_pending (s : State) (a1) (a2) (a3) (a4) :
    (State.startStreams s a1 a2 a3 a4).pending = s.pending := by
  simp [State.startStreams]

@[simp] theorem State.queuePrograms_pending (s : State) (a1) : (State.queuePrograms s a1).pending = s.pending := by
  simp [State.queuePrograms]

@[simp] theorem State.moveAcct_pending (s : State) (a1) (a2) (a3) : (State.moveAcct s a1 a2 a3).pending = s.pending := by
  simp [State.moveAcct]

@[simp] theorem State.leaveCompanion_pending (s : State) (a1) : (State.leaveCompanion s a1).pending = s.pending := by
  unfold State.leaveCompanion
  split <;> simp

@[simp] theorem State.startMove_pending (s : State) (a1) (a2) (a3) (a4) :
    (State.startMove s a1 a2 a3 a4).pending = s.pending := by
  simp [State.startMove]

@[simp] theorem State.startMoves_pending (s : State) (a1) (a2) : (State.startMoves s a1 a2).pending = s.pending := by
  simp [State.startMoves]

@[simp] theorem State.beginElsewhere_pending (s : State) (a1) (a2) : (State.beginElsewhere s a1 a2).pending = s.pending := by
  simp [State.beginElsewhere]

@[simp] theorem State.boundaryWork_pending (s : State) (a1) (a2) : (State.boundaryWork s a1 a2).pending = s.pending := by
  simp [State.boundaryWork]

@[simp] theorem State.countersOk_pending (s : State) (a1) (a2) : (State.countersOk s a1 a2).pending = s.pending := by
  simp [State.countersOk]

@[simp] theorem State.noticeAbort_pending (s : State) (a1) (a2) : (State.noticeAbort s a1 a2).pending = s.pending := by
  simp [State.noticeAbort]

@[simp] theorem State.zeroBlocks_pending (s : State) (a1) (a2) : (State.zeroBlocks s a1 a2).pending = s.pending := by
  simp [State.zeroBlocks]

@[simp] theorem State.reloadRetained_pending (s : State) (a1) (a2) : (State.reloadRetained s a1 a2).pending = s.pending := by
  simp [State.reloadRetained]

@[simp] theorem State.undo_pending (s : State) (a1) (a2) : (State.undo s a1 a2).pending = s.pending := by
  unfold State.undo
  split <;> simp

@[simp] theorem State.takeVariant_pending (s : State) (a1) (a2) : (State.takeVariant s a1 a2).pending = s.pending := by
  unfold State.takeVariant
  split <;> simp

@[simp] theorem State.stopPart_pending (s : State) (a1) (a2) (a3) : (State.stopPart s a1 a2 a3).pending = s.pending := by
  simp [State.stopPart]

@[simp] theorem State.dropOutcome_pending (s : State) : (State.dropOutcome s).pending = s.pending := by
  simp [State.dropOutcome]

@[simp] theorem State.unlearn_pending (s : State) (a1) (a2) : (State.unlearn s a1 a2).pending = s.pending := by
  unfold State.unlearn
  split <;> simp

@[simp] theorem State.numberEscrow_pending (s : State) (a1) (a2) : (State.numberEscrow s a1 a2).pending = s.pending := by
  simp [State.numberEscrow]

@[simp] theorem State.clearEscrow_pending (s : State) (a1) : (State.clearEscrow s a1).pending = s.pending := by
  simp [State.clearEscrow]

@[simp] theorem State.setRunning_pending (s : State) (a1) (a2) : (State.setRunning s a1 a2).pending = s.pending := by
  simp [State.setRunning]

@[simp] theorem State.newsAcct_pending (s : State) (a1) (a2) : (State.newsAcct s a1 a2).pending = s.pending := by
  simp [State.newsAcct]

@[simp] theorem State.partSealed_pending (s : State) (a1) (a2) (a3) (a4) :
    (State.partSealed s a1 a2 a3 a4).pending = s.pending := by
  simp [State.partSealed]

@[simp] theorem State.writeParcel_pending (s : State) (a1) (a2) (a3) : (State.writeParcel s a1 a2 a3).pending = s.pending := by
  unfold State.writeParcel
  try dsimp only
  rw [foldl_pending]
  · split <;> simp
  · intro t x
    try dsimp only
    split <;> (rename_i h; have e := congrArg (fun r => r.1.pending) h; simp at e; simp [← e])

@[simp] theorem State.partReport_pending (s : State) (a1) : (State.partReport s a1).pending = s.pending := by
  unfold State.partReport
  dsimp only
  (repeat' split) <;> simp

@[simp] theorem State.takeRecord_pending (s : State) (a1) : (State.takeRecord s a1).pending = s.pending := by
  unfold State.takeRecord
  dsimp only
  (repeat' split) <;> simp

@[simp] theorem State.noticeCommit_pending (s : State) (a1) : (State.noticeCommit s a1).pending = s.pending := by
  unfold State.noticeCommit
  (repeat' split) <;> simp

@[simp] theorem State.discardRecs_pending (s : State) (a1) : (State.discardRecs s a1).pending = s.pending := by
  simp [State.discardRecs]

@[simp] theorem State.castWith_pending (s : State) (a1) : (State.castWith s a1).pending = s.pending := by
  simp [State.castWith]

@[simp] theorem State.castVote_pending (s : State) : (State.castVote s).pending = s.pending := by
  simp [State.castVote]

@[simp] theorem State.sendShard_pending (s : State) (a1) (a2) : (State.sendShard s a1 a2).pending = s.pending := by
  simp [State.sendShard]

@[simp] theorem State.sendMirror_pending (s : State) (a1) : (State.sendMirror s a1).pending = s.pending := by
  simp [State.sendMirror]

@[simp] theorem State.sendLedgers_pending (s : State) : (State.sendLedgers s).pending = s.pending := by
  simp [State.sendLedgers]

@[simp] theorem State.resendRecords_pending (s : State) : (State.resendRecords s).pending = s.pending := by
  simp [State.resendRecords]

@[simp] theorem State.sendCopies_pending (s : State) : (State.sendCopies s).pending = s.pending := by
  simp [State.sendCopies]

@[simp] theorem State.activate_pending (s : State) (a1) : (State.activate s a1).pending = s.pending := by
  unfold State.activate
  dsimp only
  (repeat' split) <;> simp

@[simp] theorem State.lockLink_pending (s : State) (a1) : (State.lockLink s a1).pending = s.pending := by
  simp [State.lockLink]

@[simp] theorem State.lockLinks_pending (s : State) : (State.lockLinks s).pending = s.pending := by
  simp [State.lockLinks]

@[simp] theorem State.retrain_pending (s : State) (a1) : (State.retrain s a1).pending = s.pending := by
  simp [State.retrain]

@[simp] theorem State.startTraining_pending (s : State) (a1) : (State.startTraining s a1).pending = s.pending := by
  simp [State.startTraining]

@[simp] theorem State.sendTrainLine_pending (s : State) (a1) (a2) : (State.sendTrainLine s a1 a2).pending = s.pending := by
  simp [State.sendTrainLine]

@[simp] theorem State.sendTrainingAt_pending (s : State) (a1) (a2) : (State.sendTrainingAt s a1 a2).pending = s.pending := by
  simp [State.sendTrainingAt]

@[simp] theorem State.sendTraining_pending (s : State) (a1) : (State.sendTraining s a1).pending = s.pending := by
  simp [State.sendTraining]

@[simp] theorem State.sendSecure_pending (s : State) (a1) : (State.sendSecure s a1).pending = s.pending := by
  simp [State.sendSecure]

@[simp] theorem State.trainFail_pending (s : State) (a1) : (State.trainFail s a1).pending = s.pending := by
  simp [State.trainFail]

@[simp] theorem State.miswired_pending (s : State) (a1) : (State.miswired s a1).pending = s.pending := by
  simp [State.miswired]

@[simp] theorem State.identify_pending (s : State) (a1) (a2) : (State.identify s a1 a2).pending = s.pending := by
  unfold State.identify
  dsimp only
  (repeat' split) <;> simp

@[simp] theorem State.agree_pending (s : State) (a1) (a2) : (State.agree s a1 a2).pending = s.pending := by
  simp [State.agree]

@[simp] theorem State.secure_pending (s : State) (a1) (a2) (a3) : (State.secure s a1 a2 a3).pending = s.pending := by
  simp [State.secure]

@[simp] theorem State.takeSecure_pending (s : State) (a1) (a2) (a3) : (State.takeSecure s a1 a2 a3).pending = s.pending := by
  unfold State.takeSecure
  dsimp only
  (repeat' split) <;> simp

@[simp] theorem State.takeTraining_pending (s : State) (a1) (a2) (a3) (a4) :
    (State.takeTraining s a1 a2 a3 a4).pending = s.pending := by
  unfold State.takeTraining
  dsimp only
  (repeat' split) <;> simp

@[simp] theorem State.takeFrameMsg_pending (s : State) (a1) (a2) (a3) : (State.takeFrameMsg s a1 a2 a3).pending = s.pending := by
  simp [State.takeFrameMsg]

@[simp] theorem State.floodNotice_pending (s : State) (a1) : (State.floodNotice s a1).pending = s.pending := by
  simp [State.floodNotice]

@[simp] theorem State.takeNotice_pending (s : State) (a1) (a2) : (State.takeNotice s a1 a2).pending = s.pending := by
  simp [State.takeNotice]

@[simp] theorem State.relayRound_pending (s : State) (a1) (a2) : (State.relayRound s a1 a2).pending = s.pending := by
  simp [State.relayRound]

@[simp] theorem State.takeSummary_pending (s : State) (a1) (a2) : (State.takeSummary s a1 a2).pending = s.pending := by
  unfold State.takeSummary
  dsimp only
  (repeat' split) <;> simp

@[simp] theorem State.takeExchange_pending (s : State) (a1) (a2) : (State.takeExchange s a1 a2).pending = s.pending := by
  unfold State.takeExchange
  dsimp only
  (repeat' split) <;> simp

@[simp] theorem State.takeLoading_pending (s : State) (a1) (a2) (a3) : (State.takeLoading s a1 a2 a3).pending = s.pending := by
  simp [State.takeLoading]

@[simp] theorem State.takeVote_pending (s : State) (a1) (a2) (a3) : (State.takeVote s a1 a2 a3).pending = s.pending := by
  simp [State.takeVote]

@[simp] theorem State.landData_pending (s : State) (a1) (a2) (a3) (a4) (a5) :
    (State.landData s a1 a2 a3 a4 a5).pending = s.pending := by
  simp [State.landData]

@[simp] theorem State.landDigest_pending (s : State) (a1) (a2) (a3) : (State.landDigest s a1 a2 a3).pending = s.pending := by
  simp [State.landDigest]

@[simp] theorem State.putEntries_pending (s : State) (a1) (a2) (a3) : (State.putEntries s a1 a2 a3).pending = s.pending := by
  simp [State.putEntries]

@[simp] theorem State.entriesFault_pending (s : State) (a1) (a2) : (State.entriesFault s a1 a2).pending = s.pending := by
  simp [State.entriesFault]

@[simp] theorem State.takeMirror_pending (s : State) (a1) (a2) : (State.takeMirror s a1 a2).pending = s.pending := by
  unfold State.takeMirror
  try dsimp only
  split
  · simp
  · split
    · simp
    · split <;> (rename_i h; have e := congrArg (fun r => r.1.pending) h; simp at e; simp [← e])

@[simp] theorem State.answerPages_pending (s : State) (a1) (a2) (a3) : (State.answerPages s a1 a2 a3).pending = s.pending := by
  simp [State.answerPages]

@[simp] theorem State.refusePages_pending (s : State) (a1) (a2) (a3) : (State.refusePages s a1 a2 a3).pending = s.pending := by
  simp [State.refusePages]

@[simp] theorem State.markMirror_pending (s : State) (a1) (a2) : (State.markMirror s a1 a2).pending = s.pending := by
  simp [State.markMirror]

@[simp] theorem State.finishPages_pending (s : State) (a1) (a2) (a3) (a4) (a5) (a6) :
    (State.finishPages s a1 a2 a3 a4 a5 a6).pending = s.pending := by
  simp [State.finishPages]

@[simp] theorem State.pagesAnswer_pending (s : State) (a1) (a2) : (State.pagesAnswer s a1 a2).pending = s.pending := by
  simp [State.pagesAnswer]

@[simp] theorem State.takePages_pending (s : State) (a1) (a2) : (State.takePages s a1 a2).pending = s.pending := by
  unfold State.takePages
  split
  · simp
  · split
    · rfl
    · extract_lets p a s0 found
      have hs : s0.pending = s.pending := by
        simp only [s0]
        split <;> simp
      split
      · simp [hs]
      · split
        · exact hs
        · rename_i e1 e2
          have hf : (match s0.findCtx p a a2.layer a2.head a2.hdim 0 with
              | some key => (s0, some key)
              | none =>
                match s0.openCtx p a a2.layer a2.head a2.hdim 0 with
                | (s1, some key) => (s1.updDesc key (fun c => { c with st := 3 }), some key)
                | (s1, none) => (s1, none) : State × Option Nat).1.pending = s0.pending := by
            split
            · rfl
            · split <;> (rename_i h; have e := congrArg (fun r => r.1.pending) h; simp at e; simp [← e])
          change found.1.pending = s0.pending at hf
          clear_value found
          obtain ⟨s1, k⟩ := found
          dsimp only at hf
          (repeat' split) <;> rename_i h <;> simp_all

@[simp] theorem State.takeShard_pending (s : State) (a1) : (State.takeShard s a1).pending = s.pending := by
  unfold State.takeShard
  (repeat' split) <;> simp

@[simp] theorem State.ownLedger_pending (s : State) (a1) (a2) : (State.ownLedger s a1 a2).pending = s.pending := by
  simp [State.ownLedger]

@[simp] theorem State.putReplica_pending (s : State) (a1) : (State.putReplica s a1).pending = s.pending := by
  simp [State.putReplica]

@[simp] theorem State.takeCopy_pending (s : State) (a1) : (State.takeCopy s a1).pending = s.pending := by
  simp [State.takeCopy]

@[simp] theorem State.takePartials_pending (s : State) (a1) (a2) : (State.takePartials s a1 a2).pending = s.pending := by
  simp [State.takePartials]

@[simp] theorem State.lightLinks_pending (s : State) : (State.lightLinks s).pending = s.pending := by
  unfold State.lightLinks
  refine foldl_pending _ (fun t l => ?_) _ _
  try dsimp only
  split
  · rfl
  · split
    · simp
    · split <;> simp
    · split <;> simp

@[simp] theorem State.portDown_pending (s : State) (a1) : (State.portDown s a1).pending = s.pending := by
  simp [State.portDown]

@[simp] theorem State.lightChanged_pending (s : State) : (State.lightChanged s).pending = s.pending := by
  simp [State.lightChanged]

@[simp] theorem State.advanceRemoval_pending (s : State) (a1) : (State.advanceRemoval s a1).pending = s.pending := by
  simp [State.advanceRemoval]

@[simp] theorem State.advanceRemovals_pending (s : State) : (State.advanceRemovals s).pending = s.pending := by
  simp [State.advanceRemovals]

@[simp] theorem State.stopAll_pending (s : State) : (State.stopAll s).pending = s.pending := by
  simp [State.stopAll]

@[simp] theorem State.stopForLock_pending (s : State) : (State.stopForLock s).pending = s.pending := by
  simp [State.stopForLock]

@[simp] theorem State.declareFailed_pending (s : State) (a1) (a2) (a3) :
    (State.declareFailed s a1 a2 a3).pending = s.pending := by
  unfold State.declareFailed
  split
  · rfl
  · dsimp only
    split
    · simp
    · rw [foldl_pending]
      · simp
      · intro t p
        try dsimp only
        split <;> simp

@[simp] theorem State.takeReport_pending (s : State) (a1) : (State.takeReport s a1).pending = s.pending := by
  simp [State.takeReport]

@[simp] theorem State.frameEffect_pending (s : State) (a1) (a2) : (State.frameEffect s a1 a2).pending = s.pending := by
  unfold State.frameEffect
  (repeat' split) <;> simp

@[simp] theorem State.mirrorAck_pending (s : State) (a1) : (State.mirrorAck s a1).pending = s.pending := by
  unfold State.mirrorAck
  dsimp only
  (repeat' split) <;> simp

@[simp] theorem State.takeNak_pending (s : State) (a1) (a2) : (State.takeNak s a1 a2).pending = s.pending := by
  simp [State.takeNak]

@[simp] theorem State.takeHeader_pending (s : State) (a1) (a2) : (State.takeHeader s a1 a2).pending = s.pending := by
  simp [State.takeHeader]

@[simp] theorem State.catchUp_pending (s : State) (a1) (a2) : (State.catchUp s a1 a2).pending = s.pending := by
  induction a2 generalizing s with
  | zero => rfl
  | succ n ih =>
    unfold State.catchUp
    try dsimp only
    split
    · rw [ih]
      split
      · split <;> simp
      · simp
    · rfl

@[simp] theorem State.inSequence_pending (s : State) (a1) (a2) (a3) (a4) :
    (State.inSequence s a1 a2 a3 a4).pending = s.pending := by
  simp [State.inSequence]

@[simp] theorem State.trainRx_pending (s : State) (a1) (a2) : (State.trainRx s a1 a2).pending = s.pending := by
  unfold State.trainRx
  split <;> simp

@[simp] theorem State.receive_pending (s : State) (a1) (a2) : (State.receive s a1 a2).pending = s.pending := by
  unfold State.receive
  dsimp only
  (repeat' split) <;> simp

@[simp] theorem State.placeArray_pending (s : State) (a1) (a2) (a3) : (State.placeArray s a1 a2 a3).pending = s.pending := by
  simp [State.placeArray]

@[simp] theorem State.landHeld_pending (s : State) (a1) : (State.landHeld s a1).pending = s.pending := by
  simp [State.landHeld]

@[simp] theorem State.loadPartition_pending (s : State) (a1) (a2) (a3) :
    (State.loadPartition s a1 a2 a3).pending = s.pending := by
  simp [State.loadPartition]

@[simp] theorem State.tryLoad_pending (s : State) (a1) (a2) (a3) : (State.tryLoad s a1 a2 a3).1.pending = s.pending := by
  unfold State.tryLoad
  (repeat' split) <;> simp

@[simp] theorem State.startPart_pending (s : State) (a1) (a2) : (State.startPart s a1 a2).pending = s.pending := by
  simp [State.startPart]

@[simp] theorem State.withdrawnRec_pending (s : State) (a1) (a2) (a3) : (State.withdrawnRec s a1 a2 a3).pending = s.pending := by
  simp [State.withdrawnRec]

@[simp] theorem State.dropStaged_pending (s : State) (a1) : (State.dropStaged s a1).pending = s.pending := by
  unfold State.dropStaged
  dsimp only
  (repeat' split) <;> simp

@[simp] theorem State.revokeCredits_pending (s : State) (a1) : (State.revokeCredits s a1).pending = s.pending := by
  simp [State.revokeCredits]

@[simp] theorem State.evict_pending (s : State) (a1) : (State.evict s a1).pending = s.pending := by
  simp [State.evict]

@[simp] theorem State.closePartition_pending (s : State) (a1) : (State.closePartition s a1).pending = s.pending := by
  simp [State.closePartition]

@[simp] theorem State.replaceWeights_pending (s : State) (a1) (a2) : (State.replaceWeights s a1 a2).1.pending = s.pending := by
  unfold State.replaceWeights
  dsimp only
  (repeat' split) <;> simp

@[simp] theorem State.copyGranule_pending (s : State) (a1) (a2) : (State.copyGranule s a1 a2).pending = s.pending := by
  simp [State.copyGranule]

@[simp] theorem State.placeCopies_pending (s : State) (a1) : (State.placeCopies s a1).pending = s.pending := by
  unfold State.placeCopies
  split <;> simp

@[simp] theorem State.clearTags_pending (s : State) (a1) : (State.clearTags s a1).pending = s.pending := by
  simp [State.clearTags]

@[simp] theorem State.startFlush_pending (s : State) : (State.startFlush s).pending = s.pending := by
  unfold State.startFlush
  split <;> simp

@[simp] theorem State.reportLost_pending (s : State) : (State.reportLost s).pending = s.pending := by
  simp [State.reportLost]

@[simp] theorem State.endFlush_pending (s : State) : (State.endFlush s).pending = s.pending := by
  unfold State.endFlush
  split <;> simp

@[simp] theorem State.failSilent_pending (s : State) : (State.failSilent s).pending = s.pending := by
  simp [State.failSilent]

@[simp] theorem State.darkenAll_pending (s : State) : (State.darkenAll s).pending = s.pending := by
  simp [State.darkenAll]

@[simp] theorem State.dropFrame_pending (s : State) (a1) : (State.dropFrame s a1).pending = s.pending := by
  simp [State.dropFrame]

@[simp] theorem State.ecnMark_pending (s : State) (a1) (a2) (a3) : (State.ecnMark s a1 a2 a3).pending = s.pending := by
  simp [State.ecnMark]

@[simp] theorem State.qpError_pending (s : State) (a1) : (State.qpError s a1).pending = s.pending := by
  simp [State.qpError]

@[simp] theorem State.rejectRdma_pending (s : State) (a1) (a2) (a3) (a4) (a5) :
    (State.rejectRdma s a1 a2 a3 a4 a5).pending = s.pending := by
  simp [State.rejectRdma]

@[simp] theorem State.landBytes_pending (s : State) (a1) (a2) (a3) : (State.landBytes s a1 a2 a3).pending = s.pending := by
  simp [State.landBytes]

@[simp] theorem State.strayFault_pending (s : State) (a1) (a2) : (State.strayFault s a1 a2).pending = s.pending := by
  simp [State.strayFault]

@[simp] theorem State.portFetch_pending (s : State) (a1) (a2) (a3) (a4) :
    (State.portFetch s a1 a2 a3 a4).1.pending = s.pending := by
  simp [State.portFetch]

@[simp] theorem State.landPacket_pending (s : State) (a1) (a2) (a3) (a4) (a5) :
    (State.landPacket s a1 a2 a3 a4 a5).pending = s.pending := by
  unfold State.landPacket
  dsimp only
  (repeat' split) <;> simp

@[simp] theorem State.landMore_pending (s : State) (a1) (a2) (a3) (a4) (a5) :
    (State.landMore s a1 a2 a3 a4 a5).pending = s.pending := by
  unfold State.landMore
  split <;> simp

@[simp] theorem State.refuse_pending (s : State) (a1) (a2) (a3) : (State.refuse s a1 a2 a3).pending = s.pending := by
  simp [State.refuse]

@[simp] theorem State.notHome_pending (s : State) (a1) (a2) : (State.notHome s a1 a2).pending = s.pending := by
  simp [State.notHome]

@[simp] theorem State.noWindow_pending (s : State) (a1) : (State.noWindow s a1).pending = s.pending := by
  simp [State.noWindow]

@[simp] theorem State.tellerUpset_pending (s : State) (a1) : (State.tellerUpset s a1).pending = s.pending := by
  simp [State.tellerUpset]

@[simp] theorem State.gate_pending (s : State) (a1) (a2) : (State.gate s a1 a2).1.pending = s.pending := by
  unfold State.gate
  dsimp only
  (repeat' split) <;> simp

@[simp] theorem State.takeAck_pending (s : State) (a1) : (State.takeAck s a1).pending = s.pending := by
  simp [State.takeAck]

theorem State.writePayload_pending {s t : State} {p : Nat} {bs : List Byte} {x : Nat × Nat} (h : s.writePayload p bs = some (t, x)) :
    t.pending = s.pending := by
  unfold State.writePayload at h
  dsimp only at h
  split at h
  · cases h
    rfl
  · split at h
    · cases h
    · rename_i e
      have e := congrArg (fun r => r.1.pending) e
      cases h
      simp at e
      simp [← e]

@[simp] theorem State.accept_pending (s : State) (a1) (a2) (a3) : (State.accept s a1 a2 a3).pending = s.pending := by
  unfold State.accept
  split
  · simp
  · rename_i h
    have e := State.writePayload_pending h
    simp [e]

@[simp] theorem State.duplicate_pending (s : State) (a1) : (State.duplicate s a1).pending = s.pending := by
  unfold State.duplicate
  (repeat' split) <;> simp

theorem State.openRefusal_pending {s t : State} {m : UwpMsg} (h : s.openRefusal m = some t) : t.pending = s.pending := by
  unfold State.openRefusal at h
  dsimp only at h
  (repeat' split at h) <;> first | cases h | skip
  all_goals simp

@[simp] theorem State.takeSubmit_pending (s : State) (a1) (a2) : (State.takeSubmit s a1 a2).pending = s.pending := by
  unfold State.takeSubmit
  try dsimp only
  split
  · simp
  split
  · simp
  split
  · simp
  split
  · simp
  split
  · simp
  split
  · split
    · rename_i h
      exact State.openRefusal_pending h
    · split <;> simp
  · split
    · simp
    · (repeat' split) <;> simp

@[simp] theorem State.cancelSub_pending (s : State) (a1) : (State.cancelSub s a1).pending = s.pending := by
  unfold State.cancelSub
  split <;> simp

@[simp] theorem State.enterState_pending (s : State) (a1) (a2) (a3) : (State.enterState s a1 a2 a3).pending = s.pending := by
  simp [State.enterState]

@[simp] theorem State.unsupported_pending (s : State) (a1) : (State.unsupported s a1).pending = s.pending := by
  simp [State.unsupported]

@[simp] theorem State.judge_pending (s : State) (a1) (a2) : (State.judge s a1 a2).pending = s.pending := by
  simp [State.judge]

@[simp] theorem State.light_pending (s : State) (a1) (a2) : (State.light s a1 a2).pending = s.pending := by
  simp [State.light]

@[simp] theorem State.readModule_pending (s : State) (a1) (a2) (a3) : (State.readModule s a1 a2 a3).pending = s.pending := by
  simp [State.readModule]

@[simp] theorem State.readModules_pending (s : State) : (State.readModules s).pending = s.pending := by
  unfold State.readModules
  refine foldl_pending _ (fun t m => ?_) _ _
  split <;> simp

@[simp] theorem State.saveHistory_pending (s : State) (a1) : (State.saveHistory s a1).pending = s.pending := by
  unfold State.saveHistory
  split <;> simp

@[simp] theorem State.requestRemoval_pending (s : State) (a1) (a2) : (State.requestRemoval s a1 a2).1.pending = s.pending := by
  unfold State.requestRemoval
  dsimp only
  (repeat' split) <;> simp

@[simp] theorem State.relight_pending (s : State) (a1) (a2) : (State.relight s a1 a2).1.pending = s.pending := by
  unfold State.relight
  dsimp only
  (repeat' split) <;> simp

@[simp] theorem State.powerEvent_pending (s : State) (a1) (a2) (a3) (a4) :
    (State.powerEvent s a1 a2 a3 a4).pending = s.pending := by
  simp [State.powerEvent]

@[simp] theorem State.captureEvent_pending (s : State) (a1) (a2) (a3) (a4) (a5) :
    (State.captureEvent s a1 a2 a3 a4 a5).pending = s.pending := by
  simp [State.captureEvent]

@[simp] theorem State.powerFail_pending (s : State) (a1) : (State.powerFail s a1).pending = s.pending := by
  simp [State.powerFail]

@[simp] theorem State.setRequest_pending (s : State) : (State.setRequest s).pending = s.pending := by
  simp [State.setRequest]

@[simp] theorem State.retrimMoved_pending (s : State) : (State.retrimMoved s).pending = s.pending := by
  simp [State.retrimMoved]

@[simp] theorem State.movePll_pending (s : State) (a1) : (State.movePll s a1).pending = s.pending := by
  simp [State.movePll]

@[simp] theorem State.watchdogEnd_pending (s : State) : (State.watchdogEnd s).pending = s.pending := by
  simp [State.watchdogEnd]

@[simp] theorem State.adcTrigger_pending (s : State) (a1) (a2) : (State.adcTrigger s a1 a2).pending = s.pending := by
  simp [State.adcTrigger]

@[simp] theorem State.captured_pending (s : State) : (State.captured s).pending = s.pending := by
  unfold State.captured
  split <;> simp

@[simp] theorem State.claimRead_pending (s : State) (a1) : (State.claimRead s a1).pending = s.pending := by
  unfold State.claimRead
  split <;> simp

@[simp] theorem State.clearCause_pending (s : State) (a1) : (State.clearCause s a1).pending = s.pending := by
  unfold State.clearCause
  split <;> simp

@[simp] theorem State.claimWrite_pending (s : State) (a1) (a2) : (State.claimWrite s a1 a2).pending = s.pending := by
  simp [State.claimWrite]

@[simp] theorem State.mgmtRequest_pending (s : State) (a1) (a2) (a3) (a4) :
    (State.mgmtRequest s a1 a2 a3 a4).pending = s.pending := by
  simp [State.mgmtRequest]

@[simp] theorem State.accessFault_pending (s : State) (a1) (a2) : (State.accessFault s a1 a2).pending = s.pending := by
  simp [State.accessFault]

@[simp] theorem State.sramCheck_pending (s : State) (a1) : (State.sramCheck s a1).pending = s.pending := by
  unfold State.sramCheck
  split <;> simp

@[simp] theorem State.regTouch_pending (s : State) (a1) (a2) : (State.regTouch s a1 a2).pending = s.pending := by
  unfold State.regTouch
  split <;> simp

@[simp] theorem State.serviceByte_pending (s : State) (a1) : (State.serviceByte s a1).pending = s.pending := by
  simp [State.serviceByte]

@[simp] theorem State.regPut_pending (s : State) (a1) (a2) (a3) (a4) : (State.regPut s a1 a2 a3 a4).pending = s.pending := by
  unfold State.regPut
  split <;> simp

@[simp] theorem State.coreLines_pending (s : State) (a1) (a2) : (State.coreLines s a1 a2).1.pending = s.pending := by
  unfold State.coreLines
  simp

@[simp] theorem State.coreValue_pending (s : State) (a1) (a2) (a3) (a4) :
    (State.coreValue s a1 a2 a3 a4).1.pending = s.pending := by
  unfold State.coreValue
  dsimp only
  (repeat' split) <;> simp

@[simp] theorem State.coreRead_pending (s : State) (a1) : (State.coreRead s a1).pending = s.pending := by
  unfold State.coreRead
  dsimp only
  (repeat' split) <;> simp

@[simp] theorem State.corePut_pending (s : State) (a1) (a2) (a3) (a4) (a5) :
    (State.corePut s a1 a2 a3 a4 a5).pending = s.pending := by
  unfold State.corePut
  split <;> simp

@[simp] theorem State.coreWrite_pending (s : State) (a1) (a2) : (State.coreWrite s a1 a2).pending = s.pending := by
  unfold State.coreWrite
  dsimp only
  (repeat' split) <;> simp

@[simp] theorem State.suspendErases_pending (s : State) : (State.suspendErases s).pending = s.pending := by
  simp [State.suspendErases]

@[simp] theorem State.flashNext_pending (s : State) (a1) : (State.flashNext s a1).pending = s.pending := by
  unfold State.flashNext
  dsimp only
  (repeat' split) <;> simp

@[simp] theorem State.noEntropy_pending (s : State) : (State.noEntropy s).pending = s.pending := by
  simp [State.noEntropy]

@[simp] theorem State.attest_pending (s : State) (a1) : (State.attest s a1).pending = s.pending := by
  simp [State.attest]

@[simp] theorem State.endShutdown_pending (s : State) : (State.endShutdown s).pending = s.pending := by
  simp [State.endShutdown]

@[simp] theorem State.flushAll_pending (s : State) : (State.flushAll s).pending = s.pending := by
  simp [State.flushAll]

@[simp] theorem State.lose_pending (s : State) (a1) : (State.lose s a1).pending = s.pending := by
  simp [State.lose]

@[simp] theorem State.coldReset_pending (s : State) : (State.coldReset s).pending = s.pending := by
  simp [State.coldReset]

@[simp] theorem State.warmReset_pending (s : State) : (State.warmReset s).pending = s.pending := by
  simp [State.warmReset]

@[simp] theorem State.dawnRec_pending (s : State) (a1) (a2) : (State.dawnRec s a1 a2).pending = s.pending := by
  simp [State.dawnRec]

@[simp] theorem State.stopDawn_pending (s : State) : (State.stopDawn s).pending = s.pending := by
  simp [State.stopDawn]

@[simp] theorem State.stepDone_pending (s : State) : (State.stepDone s).pending = s.pending := by
  simp [State.stepDone]

@[simp] theorem State.dawn2_pending (s : State) (a1) : (State.dawn2 s a1).pending = s.pending := by
  simp [State.dawn2]

@[simp] theorem State.romStops_pending (s : State) (a1) : (State.romStops s a1).pending = s.pending := by
  simp [State.romStops]

@[simp] theorem State.dawn3_pending (s : State) (a1) : (State.dawn3 s a1).pending = s.pending := by
  unfold State.dawn3
  dsimp only
  (repeat' split) <;> simp

@[simp] theorem State.dawn4_pending (s : State) (a1) : (State.dawn4 s a1).pending = s.pending := by
  simp [State.dawn4]

@[simp] theorem State.startMaster_pending (s : State) : (State.startMaster s).pending = s.pending := by
  simp [State.startMaster]

@[simp] theorem State.beginLinks_pending (s : State) : (State.beginLinks s).pending = s.pending := by
  simp [State.beginLinks]

@[simp] theorem State.dawn5_pending (s : State) (a1) : (State.dawn5 s a1).pending = s.pending := by
  simp [State.dawn5]

@[simp] theorem State.writeStaged_pending (s : State) (a1) : (State.writeStaged s a1).pending = s.pending := by
  simp [State.writeStaged]

@[simp] theorem State.dawn7_pending (s : State) (a1) : (State.dawn7 s a1).pending = s.pending := by
  simp [State.dawn7]

@[simp] theorem State.failCold_pending (s : State) (a1) : (State.failCold s a1).pending = s.pending := by
  simp [State.failCold]

@[simp] theorem State.dawn8_pending (s : State) (a1) : (State.dawn8 s a1).pending = s.pending := by
  simp [State.dawn8]

@[simp] theorem State.keepOwn_pending (s : State) (a1) : (State.keepOwn s a1).pending = s.pending := by
  simp [State.keepOwn]

@[simp] theorem State.recover_pending (s : State) (a1) : (State.recover s a1).pending = s.pending := by
  simp [State.recover]

@[simp] theorem State.dawnSessions_pending (s : State) : (State.dawnSessions s).pending = s.pending := by
  simp [State.dawnSessions]

@[simp] theorem State.dawn9_pending (s : State) (a1) : (State.dawn9 s a1).pending = s.pending := by
  unfold State.dawn9
  try dsimp only
  simp

@[simp] theorem State.discard_pending (s : State) (a1) (a2) (a3) (a4) : (State.discard s a1 a2 a3 a4).pending = s.pending := by
  simp [State.discard]

@[simp] theorem State.discardPart_pending (s : State) (a1) (a2) : (State.discardPart s a1 a2).pending = s.pending := by
  simp [State.discardPart]

@[simp] theorem State.readdBlocks_pending (s : State) : (State.readdBlocks s).pending = s.pending := by
  simp [State.readdBlocks]

@[simp] theorem State.dawn10_pending (s : State) : (State.dawn10 s).pending = s.pending := by
  simp [State.dawn10]

@[simp] theorem State.confirmTrial_pending (s : State) : (State.confirmTrial s).pending = s.pending := by
  simp [State.confirmTrial]

@[simp] theorem State.dawn11_pending (s : State) (a1) : (State.dawn11 s a1).pending = s.pending := by
  simp [State.dawn11]

@[simp] theorem State.refusedBackup_pending (s : State) : (State.refusedBackup s).pending = s.pending := by
  simp [State.refusedBackup]

@[simp] theorem State.beforeReset_pending (s : State) : (State.beforeReset s).pending = s.pending := by
  simp [State.beforeReset]

@[simp] theorem State.shutDown_pending (s : State) : (State.shutDown s).pending = s.pending := by
  simp [State.shutDown]

@[simp] theorem done_pending (s : State) : (done s).1.pending = s.pending := by
  simp [done]

@[simp] theorem plain_fst_pending (r : State × BitVec 8) : (plain r).1.pending = r.1.pending := rfl

@[simp] theorem doneIf_pending (s : State) (a1) (t : State) (h : True ∧ t.pending = s.pending) :
    (doneIf s a1 t).1.pending = s.pending := by
  unfold doneIf
  split
  · exact h.2
  · rfl

@[simp] theorem no_pending (s : State) (a1) : (no s a1).1.pending = s.pending := by
  simp [no]

@[simp] theorem State.updUoa_pending (s : State) (a1) (a2) : (State.updUoa s a1 a2).pending = s.pending := by
  simp [State.updUoa]

@[simp] theorem State.endUoa_pending (s : State) (a1) : (State.endUoa s a1).pending = s.pending := by
  simp [State.endUoa]

@[simp] theorem State.select_pending (s : State) (a1) (a2) (a3) (a4) : (State.select s a1 a2 a3 a4).1.pending = s.pending := by
  simp [State.select]

@[simp] theorem State.installKey_pending (s : State) (a1) (a2) (a3) (a4) (a5) :
    (State.installKey s a1 a2 a3 a4 a5).1.pending = s.pending := by
  unfold State.installKey
  (repeat' split) <;> simp

@[simp] theorem State.write20_pending (s : State) (a1) (a2) (a3) (a4) : (State.write20 s a1 a2 a3 a4).1.pending = s.pending := by
  unfold State.write20
  try dsimp only
  split
  · split <;> rfl
  · simp
  · rfl
  · rfl
  · rfl
  · simp
  · rfl
  · simp
  · rfl

@[simp] theorem State.write2400_pending (s : State) (a1) (a2) (a3) (a4) :
    (State.write2400 s a1 a2 a3 a4).1.pending = s.pending := by
  unfold State.write2400
  dsimp only
  (repeat' split) <;> simp

@[simp] theorem State.userCal_pending (s : State) (a1) : (State.userCal s a1).pending = s.pending := by
  simp [State.userCal]

@[simp] theorem State.write3100_pending (s : State) (a1) (a2) (a3) (a4) :
    (State.write3100 s a1 a2 a3 a4).1.pending = s.pending := by
  unfold State.write3100
  dsimp only
  (repeat' split) <;> simp

@[simp] theorem State.write3400_pending (s : State) (a1) (a2) (a3) : (State.write3400 s a1 a2 a3).1.pending = s.pending := by
  unfold State.write3400
  split <;> simp

@[simp] theorem State.write4100_pending (s : State) (a1) (a2) : (State.write4100 s a1 a2).1.pending = s.pending := by
  unfold State.write4100
  split <;> simp

@[simp] theorem State.write4200_pending (s : State) (a1) (a2) (a3) : (State.write4200 s a1 a2 a3).1.pending = s.pending := by
  unfold State.write4200
  split <;> simp

@[simp] theorem State.resetLink_pending (s : State) (a1) (a2) : (State.resetLink s a1 a2).1.pending = s.pending := by
  unfold State.resetLink
  (repeat' split) <;> simp

@[simp] theorem State.write6000_pending (s : State) (a1) (a2) (a3) (a4) :
    (State.write6000 s a1 a2 a3 a4).1.pending = s.pending := by
  unfold State.write6000
  split <;> simp

@[simp] theorem State.write6100_pending (s : State) (a1) (a2) : (State.write6100 s a1 a2).1.pending = s.pending := by
  unfold State.write6100
  split <;> simp

@[simp] theorem State.write7000_pending (s : State) (a1) (a2) (a3) (a4) :
    (State.write7000 s a1 a2 a3 a4).1.pending = s.pending := by
  unfold State.write7000
  split <;> simp

@[simp] theorem State.openSession_pending (s : State) (a1) (a2) : (State.openSession s a1 a2).1.pending = s.pending := by
  unfold State.openSession
  dsimp only
  (repeat' split) <;> simp

@[simp] theorem State.reopenSession_pending (s : State) (a1) (a2) : (State.reopenSession s a1 a2).1.pending = s.pending := by
  unfold State.reopenSession
  dsimp only
  (repeat' split) <;> simp

@[simp] theorem State.closeSession_pending (s : State) (a1) (a2) (a3) :
    (State.closeSession s a1 a2 a3).1.pending = s.pending := by
  unfold State.closeSession
  dsimp only
  (repeat' split) <;> simp

@[simp] theorem State.connect_pending (s : State) (a1) (a2) : (State.connect s a1 a2).1.pending = s.pending := by
  unfold State.connect
  try dsimp only
  split
  · rfl
  split
  · rfl
  · try simp
    rw [foldl_pending]
    · try simp
    · intro t b
      split <;> rfl

@[simp] theorem State.write7100_pending (s : State) (a1) (a2) (a3) (a4) :
    (State.write7100 s a1 a2 a3 a4).1.pending = s.pending := by
  unfold State.write7100
  dsimp only
  (repeat' split) <;> simp

@[simp] theorem State.putImage_pending (s : State) (a1) (a2) : (State.putImage s a1 a2).1.pending = s.pending := by
  unfold State.putImage
  split <;> simp

@[simp] theorem State.startTrial_pending (s : State) (a1) (a2) : (State.startTrial s a1 a2).1.pending = s.pending := by
  unfold State.startTrial
  dsimp only
  (repeat' split) <;> simp

@[simp] theorem State.requestWarm_pending (s : State) : (State.requestWarm s).1.pending = s.pending := by
  unfold State.requestWarm
  split <;> simp

@[simp] theorem State.requestCold_pending (s : State) : (State.requestCold s).1.pending = s.pending := by
  simp [State.requestCold]

@[simp] theorem State.requestShutdown_pending (s : State) : (State.requestShutdown s).1.pending = s.pending := by
  unfold State.requestShutdown
  split <;> simp

@[simp] theorem State.writeF000_pending (s : State) (a1) (a2) : (State.writeF000 s a1 a2).1.pending = s.pending := by
  unfold State.writeF000
  dsimp only
  (repeat' split) <;> simp

@[simp] theorem State.requestDrain_pending (s : State) (a1) : (State.requestDrain s a1).1.pending = s.pending := by
  simp [State.requestDrain]

@[simp] theorem State.clearFlag_pending (s : State) (a1) : (State.clearFlag s a1).1.pending = s.pending := by
  simp [State.clearFlag]

@[simp] theorem State.flushNow_pending (s : State) (a1) : (State.flushNow s a1).1.pending = s.pending := by
  simp [State.flushNow]

@[simp] theorem State.installAnchor_pending (s : State) (a1) (a2) (a3) :
    (State.installAnchor s a1 a2 a3).1.pending = s.pending := by
  unfold State.installAnchor
  dsimp only
  (repeat' split) <;> simp

@[simp] theorem State.removeAnchor_pending (s : State) (a1) (a2) : (State.removeAnchor s a1 a2).1.pending = s.pending := by
  unfold State.removeAnchor
  dsimp only
  (repeat' split) <;> simp

@[simp] theorem State.writeF020_pending (s : State) (a1) (a2) (a3) (a4) :
    (State.writeF020 s a1 a2 a3 a4).1.pending = s.pending := by
  unfold State.writeF020
  (repeat' split) <;> simp

@[simp] theorem State.dictWrite_pending (s : State) (a1) (a2) (a3) (a4) (a5) :
    (State.dictWrite s a1 a2 a3 a4 a5).1.pending = s.pending := by
  unfold State.dictWrite
  try dsimp only
  split <;> (try split) <;> first | rfl | simp

@[simp] theorem State.setPending_pending (s : State) (a1) (a2) (a3) (a4) :
    (State.setPending s a1 a2 a3 a4).pending = s.pending := by
  simp [State.setPending]

@[simp] theorem State.dictStage_pending (s : State) (a1) (a2) (a3) (a4) (a5) :
    (State.dictStage s a1 a2 a3 a4 a5).1.pending = s.pending := by
  unfold State.dictStage
  dsimp only
  (repeat' split) <;> simp

@[simp] theorem State.changeRec_pending (s : State) (a1) (a2) (a3) (a4) :
    (State.changeRec s a1 a2 a3 a4).pending = s.pending := by
  simp [State.changeRec]

@[simp] theorem State.keep_pending (s : State) (a1) (a2) : (State.keep s a1 a2).pending = s.pending := by
  simp [State.keep]

@[simp] theorem State.refuseItem_pending (s : State) (a1) (a2) (a3) (a4) :
    (State.refuseItem s a1 a2 a3 a4).pending = s.pending := by
  simp [State.refuseItem]

@[simp] theorem State.tryItem_pending (s : State) (a1) (a2) (a3) (a4 : Effect) (h : ∀ t, True ∧ ((a4 t).1).pending = t.pending) :
    (State.tryItem s a1 a2 a3 a4).1.pending = s.pending := by
  simp only [State.tryItem]
  (repeat' split) <;> simp_all

@[simp] theorem Item.effect_pending (a1) (a2) (s : State) : (Item.effect a1 a2 s).1.pending = s.pending := by
  unfold Item.effect
  split <;> simp

@[simp] theorem State.runItems_pending (s : State) (a1) (a2) (a3) : (State.runItems s a1 a2 a3).1.pending = s.pending := by
  induction a3 generalizing s with
  | nil => rfl
  | cons i t ih =>
    unfold State.runItems
    simp [ih]

@[simp] theorem State.wrappingKey_pending (s : State) (a1) (a2) : (State.wrappingKey s a1 a2).1.pending = s.pending := by
  simp [State.wrappingKey]

@[simp] theorem State.readItem_pending (s : State) (a1) (a2) : (State.readItem s a1 a2).1.pending = s.pending := by
  unfold State.readItem
  dsimp only
  (repeat' split) <;> simp

@[simp] theorem State.readItems_pending (s : State) (a1) (a2) : (State.readItems s a1 a2).1.pending = s.pending := by
  induction a2 generalizing s with
  | nil => rfl
  | cons i t ih =>
    unfold State.readItems
    simp [ih]

@[simp] theorem State.uoaDrop_pending (s : State) : (State.uoaDrop s).pending = s.pending := by
  simp [State.uoaDrop]

@[simp] theorem State.resendReply_pending (s : State) (a1) (a2) : (State.resendReply s a1 a2).pending = s.pending := by
  unfold State.resendReply
  split <;> simp

@[simp] theorem State.reply_pending (s : State) (a1) (a2) (a3) (a4) (a5) :
    (State.reply s a1 a2 a3 a4 a5).pending = s.pending := by
  simp [State.reply]

@[simp] theorem State.uoaRequest_pending (s : State) (a1) (a2) (a3) (a4) (a5) (a6 : UoaSess → State → State × List UItem) (h : ∀ u t, True ∧ ((a6 u t).1).pending = t.pending) : (State.uoaRequest s a1 a2 a3 a4 a5 a6).pending = s.pending := by
  simp only [State.uoaRequest]
  (repeat' split) <;> simp_all

@[simp] theorem State.writeOne_pending (s : State) (a1) (a2) (a3) (a4) (a5 : UoaSess → Effect) (h : ∀ u t, True ∧ ((a5 u t).1).pending = t.pending) : (State.writeOne s a1 a2 a3 a4 a5).pending = s.pending := by
  unfold State.writeOne
  extract_lets
  (repeat' split) <;> simp [*]

@[simp] theorem State.writeOwn_pending (s : State) (a1) (a2) (a3) (a4) : (State.writeOwn s a1 a2 a3 a4).pending = s.pending := by
  simp [State.writeOwn]

@[simp] theorem State.helloReply_pending (s : State) (a1) (a2) (a3) : (State.helloReply s a1 a2 a3).pending = s.pending := by
  simp [State.helloReply]

@[simp] theorem State.hsFail_pending (s : State) : (State.hsFail s).pending = s.pending := by
  simp [State.hsFail]

@[simp] theorem State.withFetchWord_pending (s : State) (a1) (a2) : (State.withFetchWord s a1 a2).pending = s.pending := by
  rfl

end Sys2Proof.Machine
end

