-- ==== Sys2Proof/Laws/KeepsSpad.lean ====
section
/-! SUPPORT. Which operations leave the scratchpad as it is, and that the others keep its canonical form. -/

namespace Sys2Proof.Machine

set_option linter.all false

@[simp] theorem ite_spad {c : Prop} [Decidable c] (a b : State) : (if c then a else b).spad = if c then a.spad else b.spad :=
  apply_ite (fun s => s.spad) c a b

theorem foldl_spad {α : Type} (g : State → α → State) (h : ∀ t a, (g t a).spad = t.spad) (l : List α) (s : State) :
    (l.foldl g s).spad = s.spad := by
  induction l generalizing s with
  | nil => rfl
  | cons a t ih => rw [List.foldl_cons, ih, h]

/-- The form that simp applies: the conjunction with True keeps its proof of the premise from being definitional. -/
@[simp] theorem foldl_spad_simp {α : Type} (g : State → α → State) (h : ∀ t a, True ∧ (g t a).spad = t.spad) (l : List α)
    (s : State) : (l.foldl g s).spad = s.spad := foldl_spad g (fun t a => (h t a).2) l s

theorem foldlp_spad {α β : Type} (g : State × β → α → State × β) (h : ∀ x a, (g x a).1.spad = x.1.spad) (l : List α) (z : State × β) :
    (l.foldl g z).1.spad = z.1.spad := by
  induction l generalizing z with
  | nil => rfl
  | cons a t ih => rw [List.foldl_cons, ih, h]

@[simp] theorem State.reach_spad (s : State) (a1) : (State.reach s a1).spad = s.spad := by
  simp [State.reach]

@[simp] theorem State.record_spad (s : State) (a1) : (State.record s a1).spad = s.spad := by
  simp [State.record]

@[simp] theorem State.raise_spad (s : State) (a1) (a2) : (State.raise s a1 a2).spad = s.spad := by
  unfold State.raise
  split <;> simp

@[simp] theorem State.event_spad (s : State) (a1) (a2) (a3) (a4) (a5) (a6) (a7) :
    (State.event s a1 a2 a3 a4 a5 a6 a7).spad = s.spad := by
  simp [State.event]

@[simp] theorem State.partEvent_spad (s : State) (a1) (a2) (a3) (a4) : (State.partEvent s a1 a2 a3 a4).spad = s.spad := by
  simp [State.partEvent]

@[simp] theorem State.arrayEvent_spad (s : State) (a1) (a2) (a3) (a4) : (State.arrayEvent s a1 a2 a3 a4).spad = s.spad := by
  simp [State.arrayEvent]

@[simp] theorem State.arrayStepEvent_spad (s : State) (a1) (a2) (a3) (a4) (a5) :
    (State.arrayStepEvent s a1 a2 a3 a4 a5).spad = s.spad := by
  simp [State.arrayStepEvent]

@[simp] theorem State.sendOn_spad (s : State) (a1) (a2) : (State.sendOn s a1 a2).spad = s.spad := by
  simp [State.sendOn]

@[simp] theorem State.flood_spad (s : State) (a1) (a2) : (State.flood s a1 a2).spad = s.spad := by
  simp [State.flood]

@[simp] theorem State.endHoldWith_spad (s : State) (a1) (a2) : (State.endHoldWith s a1 a2).spad = s.spad := by
  simp [State.endHoldWith]

@[simp] theorem State.dropWaits_spad (s : State) (a1) : (State.dropWaits s a1).spad = s.spad := by
  unfold State.dropWaits
  split <;> simp

@[simp] theorem State.abortHere_spad (s : State) (a1) (a2) (a3) (a4) : (State.abortHere s a1 a2 a3 a4).spad = s.spad := by
  unfold State.abortHere
  dsimp only
  (repeat' split) <;> simp

@[simp] theorem State.abortOne_spad (s : State) (a1) (a2) (a3) : (State.abortOne s a1 a2 a3).spad = s.spad := by
  simp [State.abortOne]

@[simp] theorem State.abortAll_spad (s : State) (a1) (a2) (a3) : (State.abortAll s a1 a2 a3).spad = s.spad := by
  simp [State.abortAll]

@[simp] theorem State.twilight_spad (s : State) (a1) : (State.twilight s a1).spad = s.spad := by
  simp [State.twilight]

@[simp] theorem State.tryFreePart_spad (s : State) (a1) : (State.tryFreePart s a1).spad = s.spad := by
  simp [State.tryFreePart]

@[simp] theorem State.sendMsg_spad (s : State) (a1) (a2) (a3) (a4) (a5) (a6) :
    (State.sendMsg s a1 a2 a3 a4 a5 a6).spad = s.spad := by
  simp [State.sendMsg]

@[simp] theorem State.countFault_spad (s : State) (a1) : (State.countFault s a1).spad = s.spad := by
  unfold State.countFault
  (repeat' split) <;> simp

@[simp] theorem State.setReport_spad (s : State) (a1) (a2) : (State.setReport s a1 a2).spad = s.spad := by
  unfold State.setReport
  split <;> simp

@[simp] theorem State.report_spad (s : State) (a1) : (State.report s a1).spad = s.spad := by
  unfold State.report
  (repeat' split) <;> simp

@[simp] theorem State.abortTag_spad (s : State) (a1) (a2) : (State.abortTag s a1 a2).spad = s.spad := by
  simp [State.abortTag]

@[simp] theorem State.fault_spad (s : State) (a1) : (State.fault s a1).spad = s.spad := by
  simp [State.fault]

@[simp] theorem State.vaultFault_spad (s : State) (a1) : (State.vaultFault s a1).spad = s.spad := by
  simp [State.vaultFault]

@[simp] theorem State.faultDrop_spad (s : State) (a1) : (State.faultDrop s a1).spad = s.spad := by
  simp [State.faultDrop]

@[simp] theorem State.faultWide_spad (s : State) (a1) : (State.faultWide s a1).spad = s.spad := by
  simp [State.faultWide]

@[simp] theorem State.collision_spad (s : State) (a1) : (State.collision s a1).spad = s.spad := by
  simp [State.collision]

@[simp] theorem State.zeroLines_spad (s : State) (a1) (a2) : (State.zeroLines s a1 a2).spad = s.spad := by
  simp [State.zeroLines]

@[simp] theorem State.updStrm_spad (s : State) (a1) (a2) : (State.updStrm s a1 a2).spad = s.spad := by
  simp [State.updStrm]

@[simp] theorem State.issueClash_spad (s : State) (a1) (a2) (a3) (a4) : (State.issueClash s a1 a2 a3 a4).spad = s.spad := by
  simp [State.issueClash]

@[simp] theorem State.advance_spad (s : State) (a1) (a2) (a3) : (State.advance s a1 a2 a3).spad = s.spad := by
  simp [State.advance]

@[simp] theorem State.storeFault_spad (s : State) (a1) (a2) : (State.storeFault s a1 a2).spad = s.spad := by
  simp [State.storeFault]

@[simp] theorem State.readStore_spad (s : State) (a1) (a2) (a3 : State → State) (h : ∀ t, True ∧ (a3 t).spad = t.spad) :
    (State.readStore s a1 a2 a3).spad = s.spad := by
  simp only [State.readStore]
  (repeat' split) <;> simp_all

@[simp] theorem State.issueAt_spad (s : State) (a1) (a2) (a3) (a4) (a5) (a6 : State → State) (h : ∀ t, True ∧ (a6 t).spad = t.spad) : (State.issueAt s a1 a2 a3 a4 a5 a6).spad = s.spad := by
  unfold State.issueAt
  split
  · rfl
  · apply State.readStore_spad
    intro u
    refine ⟨trivial, ?_⟩
    try dsimp only
    (repeat' split) <;> simp [h]

@[simp] theorem State.issue_spad (s : State) (a1) (a2) (a3) (a4) (a5 : State → State) (h : ∀ t, True ∧ (a5 t).spad = t.spad) :
    (State.issue s a1 a2 a3 a4 a5).spad = s.spad := by
  simp only [State.issue]
  (repeat' split) <;> simp_all

@[simp] theorem State.portConflict_spad (s : State) (a1) : (State.portConflict s a1).spad = s.spad := by
  simp [State.portConflict]

@[simp] theorem State.checkNarrow_spad (s : State) (a1) : (State.checkNarrow s a1).spad = s.spad := by
  unfold State.checkNarrow
  split <;> simp

@[simp] theorem State.useNarrow_spad (s : State) (a1) (a2) (a3) : (State.useNarrow s a1 a2 a3).spad = s.spad := by
  simp [State.useNarrow]

@[simp] theorem State.moveFill_spad (s : State) (a1) (a2) : (State.moveFill s a1 a2).spad = s.spad := by
  simp [State.moveFill]

@[simp] theorem State.yieldFills_spad (s : State) (a1) : (State.yieldFills s a1).spad = s.spad := by
  simp [State.yieldFills]

@[simp] theorem State.useWideAt_spad (s : State) (a1) (a2) (a3) (a4) (a5 : State → State) (h : ∀ t, True ∧ (a5 t).spad = t.spad) : (State.useWideAt s a1 a2 a3 a4 a5).spad = s.spad := by
  unfold State.useWideAt
  extract_lets
  (repeat' split) <;> simp [*]

@[simp] theorem State.useWide_spad (s : State) (a1) (a2) (a3) (a4 : State → State) (h : ∀ t, True ∧ (a4 t).spad = t.spad) :
    (State.useWide s a1 a2 a3 a4).spad = s.spad := by
  simp only [State.useWide]
  (repeat' split) <;> simp_all

@[simp] theorem State.tagFault_spad (s : State) (a1) (a2) (a3) : (State.tagFault s a1 a2 a3).spad = s.spad := by
  simp [State.tagFault]

@[simp] theorem State.lateClash_spad (s : State) (a1) (a2) (a3) : (State.lateClash s a1 a2 a3).spad = s.spad := by
  simp [State.lateClash]

@[simp] theorem State.charge_spad (s : State) (a1) (a2) : (State.charge s a1 a2).spad = s.spad := by
  simp [State.charge]

@[simp] theorem State.readError_spad (s : State) (a1) (a2) (a3) : (State.readError s a1 a2 a3).1.spad = s.spad := by
  unfold State.readError
  dsimp only
  (repeat' split) <;> simp

@[simp] theorem State.checkLines_spad (s : State) (a1) (a2) (a3) (a4) : (State.checkLines s a1 a2 a3 a4).1.spad = s.spad := by
  unfold State.checkLines
  exact foldlp_spad _ (fun x e => by simp) _ _

@[simp] theorem State.ownFault_spad (s : State) (a1) (a2) (a3) (a4) : (State.ownFault s a1 a2 a3 a4).spad = s.spad := by
  simp [State.ownFault]

@[simp] theorem State.readChecked_spad (s : State) (a1) (a2) (a3) (a4) (a5) (a6 : State → State) (h : ∀ t, True ∧ (a6 t).spad = t.spad) : (State.readChecked s a1 a2 a3 a4 a5 a6).spad = s.spad := by
  unfold State.readChecked
  split <;> (rename_i e; have e := congrArg (fun r => r.1.spad) e; simp at e; simp [← e, h])

@[simp] theorem State.linkFail_spad (s : State) (a1) : (State.linkFail s a1).spad = s.spad := by
  simp [State.linkFail]

@[simp] theorem State.clearingFail_spad (s : State) (a1) (a2) (a3) (a4) : (State.clearingFail s a1 a2 a3 a4).spad = s.spad := by
  unfold State.clearingFail
  split <;> simp

@[simp] theorem State.recipeDisagreement_spad (s : State) (a1) : (State.recipeDisagreement s a1).spad = s.spad := by
  simp [State.recipeDisagreement]

@[simp] theorem State.summaryDone_spad (s : State) (a1) (a2) : (State.summaryDone s a1 a2).spad = s.spad := by
  simp [State.summaryDone]

@[simp] theorem State.advanceRounds_spad (s : State) (a1) (a2) : (State.advanceRounds s a1 a2).spad = s.spad := by
  have fold : ∀ (l : List Nat) (g : Nat × Summary × State → Nat → Nat × Summary × State)
      (_ : ∀ z k, (g z k).2.2.spad = z.2.2.spad) (z : Nat × Summary × State), (l.foldl g z).2.2.spad = z.2.2.spad := by
    intro l g h
    induction l with
    | nil => intro z; rfl
    | cons a t ih => intro z; rw [List.foldl_cons, ih, h]
  unfold State.advanceRounds
  (repeat' split) <;> first | rfl | simp | skip
  all_goals
    try simp
    try rw [fold]
    intro z k
    try dsimp only
    (repeat' split) <;> simp

@[simp] theorem State.runExchange_spad (s : State) (a1) (a2) (a3) (a4) : (State.runExchange s a1 a2 a3 a4).spad = s.spad := by
  have fold : ∀ (l : List Nat) (g : Nat × Summary × State → Nat → Nat × Summary × State)
      (_ : ∀ z k, (g z k).2.2.spad = z.2.2.spad) (z : Nat × Summary × State), (l.foldl g z).2.2.spad = z.2.2.spad := by
    intro l g h
    induction l with
    | nil => intro z; rfl
    | cons a t ih => intro z; rw [List.foldl_cons, ih, h]
  unfold State.runExchange
  (repeat' split) <;> first | rfl | simp | skip
  all_goals
    try simp
    try rw [fold]
    intro z k
    try dsimp only
    (repeat' split) <;> simp

@[simp] theorem State.startSummary_spad (s : State) (a1) : (State.startSummary s a1).spad = s.spad := by
  unfold State.startSummary
  dsimp only
  (repeat' split) <;> simp

@[simp] theorem State.freeEntry_spad (s : State) (a1) (a2) : (State.freeEntry s a1 a2).spad = s.spad := by
  simp [State.freeEntry]

@[simp] theorem State.serveRecvs_spad (s : State) (a1) (a2) : (State.serveRecvs s a1 a2).spad = s.spad := by
  simp [State.serveRecvs]

@[simp] theorem State.entryEvent_spad (s : State) (a1) (a2) : (State.entryEvent s a1 a2).spad = s.spad := by
  unfold State.entryEvent
  dsimp only
  (repeat' split) <;> simp

@[simp] theorem State.landLocal_spad (s : State) (a1) (a2) (a3) (a4) : (State.landLocal s a1 a2 a3 a4).spad = s.spad := by
  unfold State.landLocal
  dsimp only
  (repeat' split) <;> simp

@[simp] theorem State.landTransmit_spad (s : State) (a1) (a2) (a3) : (State.landTransmit s a1 a2 a3).spad = s.spad := by
  unfold State.landTransmit
  dsimp only
  (repeat' split) <;> simp

@[simp] theorem fireAct_spad (a1) (a2) (a3) (a4) (a5) (a6) (a7) (s : State) : (fireAct a1 a2 a3 a4 a5 a6 a7 s).spad = s.spad := by
  simp [fireAct]

@[simp] theorem tfireAct_spad (a1) (a2) (a3) (a4) (a5) (a6) (a7) (s : State) :
    (tfireAct a1 a2 a3 a4 a5 a6 a7 s).spad = s.spad := by
  simp [tfireAct]

@[simp] theorem State.readReg_spad (s : State) (a1) (a2) (a3) (a4) (a5) (a6 : RegOut → AccReg → State → State) (h : ∀ r x t, True ∧ (a6 r x t).spad = t.spad) : (State.readReg s a1 a2 a3 a4 a5 a6).spad = s.spad := by
  unfold State.readReg
  extract_lets
  (repeat' split) <;> simp [*]

@[simp] theorem State.setVreg_spad (s : State) (a1) (a2) (a3) : (State.setVreg s a1 a2 a3).spad = s.spad := by
  simp [State.setVreg]

@[simp] theorem State.vecResidue_spad (s : State) (a1) (a2) : (State.vecResidue s a1 a2).spad = s.spad := by
  simp [State.vecResidue]

@[simp] theorem State.vecChecked_spad (s : State) (a1) (a2) (a3) (a4) (a5) (a6 : State → State) (h : ∀ t, True ∧ (a6 t).spad = t.spad) : (State.vecChecked s a1 a2 a3 a4 a5 a6).spad = s.spad := by
  simp only [State.vecChecked]
  (repeat' split) <;> simp_all

@[simp] theorem State.vecOp_spad (s : State) (a1) (a2) (a3) (a4 : State → State) (h : ∀ t, True ∧ (a4 t).spad = t.spad) :
    (State.vecOp s a1 a2 a3 a4).spad = s.spad := by
  simp only [State.vecOp]
  (repeat' split) <;> simp_all

@[simp] theorem State.vecLine_spad (s : State) (a1) (a2) (a3) (a4) (a5) (a6) (a7 : State → State) (h : ∀ t, True ∧ (a7 t).spad = t.spad) : (State.vecLine s a1 a2 a3 a4 a5 a6 a7).spad = s.spad := by
  unfold State.vecLine
  apply State.issue_spad
  intro u
  refine ⟨trivial, ?_⟩
  try dsimp only
  split
  · simp
  · apply State.useWide_spad
    intro u
    refine ⟨trivial, ?_⟩
    apply State.readChecked_spad
    intro u
    refine ⟨trivial, ?_⟩
    exact State.vecChecked_spad _ _ _ _ _ _ _ h

@[simp] theorem State.vec2_spad (s : State) (a1) (a2) (a3) (a4) : (State.vec2 s a1 a2 a3 a4).spad = s.spad := by
  simp [State.vec2]

@[simp] theorem State.vec3_spad (s : State) (a1) (a2) (a3) (a4) : (State.vec3 s a1 a2 a3 a4).spad = s.spad := by
  simp [State.vec3]

@[simp] theorem State.vec1_spad (s : State) (a1) (a2) (a3) (a4) : (State.vec1 s a1 a2 a3 a4).spad = s.spad := by
  simp [State.vec1]

@[simp] theorem State.reduceTo_spad (s : State) (a1) (a2) (a3) : (State.reduceTo s a1 a2 a3).spad = s.spad := by
  simp [State.reduceTo]

@[simp] theorem State.vecWordOp_spad (s : State) (a1) (a2) (a3) (a4) (a5 : State → State) (h : ∀ t, True ∧ (a5 t).spad = t.spad) : (State.vecWordOp s a1 a2 a3 a4 a5).spad = s.spad := by
  unfold State.vecWordOp
  apply State.issue_spad
  intro u
  refine ⟨trivial, ?_⟩
  try dsimp only
  split
  · simp
  · refine (State.readChecked_spad _ _ _ _ _ _ _ ?_).trans (by simp)
    intro u
    refine ⟨trivial, ?_⟩
    exact State.vecChecked_spad _ _ _ _ _ _ _ h

@[simp] theorem State.creditFault_spad (s : State) (a1) : (State.creditFault s a1).spad = s.spad := by
  simp [State.creditFault]

@[simp] theorem State.withCredit_spad (s : State) (a1) (a2) (a3) (a4) (a5) (a6) (a7 : State → State) (h : ∀ t, True ∧ (a7 t).spad = t.spad) : (State.withCredit s a1 a2 a3 a4 a5 a6 a7).spad = s.spad := by
  unfold State.withCredit
  extract_lets
  (repeat' split) <;> simp [*]

@[simp] theorem State.inject_spad (s : State) (a1) : (State.inject s a1).spad = s.spad := by
  simp [State.inject]

@[simp] theorem State.overfill_spad (s : State) (a1) (a2) : (State.overfill s a1 a2).spad = s.spad := by
  simp [State.overfill]

@[simp] theorem State.issueLoad_spad (s : State) (a1) (a2) (a3) (a4) (a5) (a6) (a7) :
    (State.issueLoad s a1 a2 a3 a4 a5 a6 a7).spad = s.spad := by
  simp [State.issueLoad]

@[simp] theorem State.resume_spad (s : State) (a1) : (State.resume s a1).spad = s.spad := by
  unfold State.resume
  split <;> simp

@[simp] theorem State.holdFor_spad (s : State) (a1) (a2) (a3) : (State.holdFor s a1 a2 a3).spad = s.spad := by
  simp [State.holdFor]

@[simp] theorem State.issueLast_spad (s : State) (a1) (a2) (a3) (a4 : State → State) (h : ∀ t, True ∧ (a4 t).spad = t.spad) :
    (State.issueLast s a1 a2 a3 a4).spad = s.spad := by
  unfold State.issueLast
  extract_lets
  (repeat' split) <;> simp [*]

@[simp] theorem State.dropFlits_spad (s : State) (a1) : (State.dropFlits s a1).spad = s.spad := by
  simp [State.dropFlits]

@[simp] theorem State.meshClash_spad (s : State) (a1) (a2) (a3) (a4) (a5) (a6) :
    (State.meshClash s a1 a2 a3 a4 a5 a6).spad = s.spad := by
  simp [State.meshClash]

@[simp] theorem State.routerError_spad (s : State) (a1) : (State.routerError s a1).spad = s.spad := by
  simp [State.routerError]

@[simp] theorem State.destFault_spad (s : State) (a1) (a2) : (State.destFault s a1 a2).spad = s.spad := by
  simp [State.destFault]

@[simp] theorem State.claim_spad (s : State) (a1) (a2) (a3) (a4) (a5) (a6) (a7) :
    (State.claim s a1 a2 a3 a4 a5 a6 a7).spad = s.spad := by
  unfold State.claim
  dsimp only
  (repeat' split) <;> simp

@[simp] theorem State.landSlot_spad (s : State) (a1) (a2) (a3) (a4) (a5) (a6) :
    (State.landSlot s a1 a2 a3 a4 a5 a6).spad = s.spad := by
  unfold State.landSlot
  (repeat' split) <;> simp

@[simp] theorem State.passRouters_spad (s : State) (a1) : (State.passRouters s a1).spad = s.spad := by
  simp [State.passRouters]

@[simp] theorem State.passQueue_spad (s : State) (a1) (a2) : (State.passQueue s a1 a2).spad = s.spad := by
  simp [State.passQueue]

@[simp] theorem State.dropMsg_spad (s : State) (a1) (a2) (a3) : (State.dropMsg s a1 a2 a3).spad = s.spad := by
  unfold State.dropMsg
  split <;> simp

@[simp] theorem State.ejectFault_spad (s : State) (a1) (a2) (a3) : (State.ejectFault s a1 a2 a3).spad = s.spad := by
  simp [State.ejectFault]

@[simp] theorem State.sawMsg_spad (s : State) (a1) (a2) : (State.sawMsg s a1 a2).spad = s.spad := by
  unfold State.sawMsg
  split <;> simp

@[simp] theorem State.deliver_spad (s : State) (a1) (a2) (a3) (a4 : State → State) (h : ∀ t, True ∧ (a4 t).spad = t.spad) :
    (State.deliver s a1 a2 a3 a4).spad = s.spad := by
  simp only [State.deliver]
  (repeat' split) <;> simp_all

@[simp] theorem State.poisonFault_spad (s : State) (a1) (a2) (a3) (a4) (a5) :
    (State.poisonFault s a1 a2 a3 a4 a5).spad = s.spad := by
  simp [State.poisonFault]

@[simp] theorem State.queueBytes_spad (s : State) (a1) : (State.queueBytes s a1).spad = s.spad := by
  simp [State.queueBytes]

@[simp] theorem State.failStack_spad (s : State) (a1) : (State.failStack s a1).spad = s.spad := by
  simp [State.failStack]

@[simp] theorem State.stackRead_spad (s : State) (a1) (a2) (a3) : (State.stackRead s a1 a2 a3).1.spad = s.spad := by
  unfold State.stackRead
  dsimp only
  (repeat' split) <;> simp

@[simp] theorem State.queueLine_spad (s : State) (a1) (a2) (a3) (a4) (a5) :
    (State.queueLine s a1 a2 a3 a4 a5).1.spad = s.spad := by
  unfold State.queueLine
  (repeat' split) <;> simp

@[simp] theorem State.fetchLines_spad (s : State) (a1) (a2) (a3) (a4) (a5) (a6) :
    (State.fetchLines s a1 a2 a3 a4 a5 a6).1.spad = s.spad := by
  unfold State.fetchLines
  refine foldlp_spad _ (fun x l => ?_) _ _
  dsimp only
  split
  · (repeat' split) <;> simp_all
  · (repeat' split) <;> simp_all

@[simp] theorem State.moveLines_spad (s : State) (a1) (a2) (a3) (a4) (a5) :
    (State.moveLines s a1 a2 a3 a4 a5).1.spad = s.spad := by
  unfold State.moveLines
  exact foldlp_spad _ (fun x l => by simp) _ _

@[simp] theorem State.servedLine_spad (s : State) (a1) : (State.servedLine s a1).spad = s.spad := by
  unfold State.servedLine
  split <;> simp

@[simp] theorem State.answerLoad_spad (s : State) (a1) (a2) (a3) (a4) (a5) (a6) (a7) (a8) (a9) :
    (State.answerLoad s a1 a2 a3 a4 a5 a6 a7 a8 a9).spad = s.spad := by
  simp [State.answerLoad]

@[simp] theorem State.zeroGranule_spad (s : State) (a1) : (State.zeroGranule s a1).spad = s.spad := by
  simp [State.zeroGranule]

@[simp] theorem State.descLand_spad (s : State) (a1) (a2) (a3) (a4) (a5) (a6) :
    (State.descLand s a1 a2 a3 a4 a5 a6).spad = s.spad := by
  unfold State.descLand
  dsimp only
  (repeat' split) <;> simp

@[simp] theorem State.setPage_spad (s : State) (a1) (a2) (a3) : (State.setPage s a1 a2 a3).spad = s.spad := by
  simp [State.setPage]

@[simp] theorem State.updDesc_spad (s : State) (a1) (a2) : (State.updDesc s a1 a2).spad = s.spad := by
  simp [State.updDesc]

@[simp] theorem State.putResults_spad (s : State) (a1) (a2) (a3) (a4) : (State.putResults s a1 a2 a3 a4).spad = s.spad := by
  unfold State.putResults
  dsimp only
  (repeat' split) <;> simp

@[simp] theorem State.writeEntry_spad (s : State) (a1) (a2) (a3) (a4) : (State.writeEntry s a1 a2 a3 a4).spad = s.spad := by
  simp [State.writeEntry]

@[simp] theorem State.writeEntries_spad (s : State) (a1) (a2) (a3) (a4) : (State.writeEntries s a1 a2 a3 a4).spad = s.spad := by
  unfold State.writeEntries
  refine foldl_spad _ (fun t a => ?_) _ _
  try dsimp only
  split
  · rfl
  · split <;> simp

@[simp] theorem State.appendTraffic_spad (s : State) (a1) (a2) (a3) (a4) (a5) :
    (State.appendTraffic s a1 a2 a3 a4 a5).1.spad = s.spad := by
  unfold State.appendTraffic
  dsimp only
  (repeat' split) <;> simp

@[simp] theorem State.append_spad (s : State) (a1) (a2) (a3) : (State.append s a1 a2 a3).spad = s.spad := by
  simp [State.append]

@[simp] theorem State.storeRows_spad (s : State) (a1) (a2) : (State.storeRows s a1 a2).spad = s.spad := by
  simp [State.storeRows]

@[simp] theorem State.sendPartials_spad (s : State) (a1) (a2) (a3) : (State.sendPartials s a1 a2 a3).spad = s.spad := by
  unfold State.sendPartials
  split <;> simp

@[simp] theorem State.finishAttend_spad (s : State) (a1) (a2) (a3) (a4) (a5) (a6) :
    (State.finishAttend s a1 a2 a3 a4 a5 a6).spad = s.spad := by
  simp [State.finishAttend]

@[simp] theorem State.finishAppend_spad (s : State) (a1) (a2) (a3) (a4) (a5) :
    (State.finishAppend s a1 a2 a3 a4 a5).spad = s.spad := by
  simp [State.finishAppend]

@[simp] theorem State.finishJob_spad (s : State) (a1) (a2) (a3) (a4) (a5) (a6) :
    (State.finishJob s a1 a2 a3 a4 a5 a6).spad = s.spad := by
  simp [State.finishJob]

@[simp] theorem State.withdraw_spad (s : State) (a1) (a2) : (State.withdraw s a1 a2).spad = s.spad := by
  simp [State.withdraw]

@[simp] theorem State.arrayFailed_spad (s : State) (a1) (a2) (a3) : (State.arrayFailed s a1 a2 a3).spad = s.spad := by
  simp [State.arrayFailed]

@[simp] theorem State.spFailed_spad (s : State) (a1) (a2) (a3) : (State.spFailed s a1 a2 a3).spad = s.spad := by
  simp [State.spFailed]

@[simp] theorem State.arrayRan_spad (s : State) (a1) (a2) (a3) : (State.arrayRan s a1 a2 a3).spad = s.spad := by
  simp [State.arrayRan]

@[simp] theorem State.arrayReadable_spad (s : State) (a1) (a2) (a3) (a4) : (State.arrayReadable s a1 a2 a3 a4).spad = s.spad := by
  simp [State.arrayReadable]

@[simp] theorem State.overwriteClash_spad (s : State) (a1) (a2) (a3) : (State.overwriteClash s a1 a2 a3).spad = s.spad := by
  simp [State.overwriteClash]

@[simp] theorem State.transitFailed_spad (s : State) (a1) (a2) (a3) : (State.transitFailed s a1 a2 a3).spad = s.spad := by
  simp [State.transitFailed]

@[simp] theorem State.unrepairable_spad (s : State) (a1) : (State.unrepairable s a1).spad = s.spad := by
  simp [State.unrepairable]

@[simp] theorem State.leaveStreams_spad (s : State) (a1) : (State.leaveStreams s a1).spad = s.spad := by
  simp [State.leaveStreams]

@[simp] theorem State.saveCorr_spad (s : State) : (State.saveCorr s).spad = s.spad := by
  simp [State.saveCorr]

@[simp] theorem State.afterUser_spad (s : State) (a1) : (State.afterUser s a1).spad = s.spad := by
  simp [State.afterUser]

@[simp] theorem State.dropCal_spad (s : State) (a1) : (State.dropCal s a1).spad = s.spad := by
  simp [State.dropCal]

@[simp] theorem State.programArray_spad (s : State) (a1) (a2) (a3) : (State.programArray s a1 a2 a3).spad = s.spad := by
  simp [State.programArray]

@[simp] theorem State.requestCal_spad (s : State) (a1) : (State.requestCal s a1).spad = s.spad := by
  simp [State.requestCal]

@[simp] theorem State.requestUser_spad (s : State) (a1) (a2) : (State.requestUser s a1 a2).spad = s.spad := by
  simp [State.requestUser]

@[simp] theorem State.requestRotation_spad (s : State) (a1) : (State.requestRotation s a1).spad = s.spad := by
  simp [State.requestRotation]

@[simp] theorem State.setQuality_spad (s : State) (a1) (a2) : (State.setQuality s a1 a2).spad = s.spad := by
  simp [State.setQuality]

@[simp] theorem State.countProgrammed_spad (s : State) (a1) : (State.countProgrammed s a1).spad = s.spad := by
  unfold State.countProgrammed
  dsimp only
  (repeat' split) <;> simp

@[simp] theorem State.windowEnd_spad (s : State) (a1) : (State.windowEnd s a1).spad = s.spad := by
  simp [State.windowEnd]

@[simp] theorem State.drift_spad (s : State) (a1) : (State.drift s a1).spad = s.spad := by
  simp [State.drift]

@[simp] theorem State.probeSlot_spad (s : State) (a1) : (State.probeSlot s a1).spad = s.spad := by
  simp [State.probeSlot]

@[simp] theorem State.setStandIn_spad (s : State) (a1) : (State.setStandIn s a1).spad = s.spad := by
  simp [State.setStandIn]

@[simp] theorem State.calSlot_spad (s : State) (a1) : (State.calSlot s a1).spad = s.spad := by
  simp [State.calSlot]

@[simp] theorem calAct_spad (a1) (a2) (a3) (s : State) : (calAct a1 a2 a3 s).spad = s.spad := by
  simp [calAct]

@[simp] theorem State.writeRows_spad (s : State) (a1) : (State.writeRows s a1).spad = s.spad := by
  unfold State.writeRows
  dsimp only
  (repeat' split) <;> simp

@[simp] theorem State.returnRebuilt_spad (s : State) : (State.returnRebuilt s).spad = s.spad := by
  simp [State.returnRebuilt]

@[simp] theorem State.evaluate_spad (s : State) (a1) : (State.evaluate s a1).spad = s.spad := by
  unfold State.evaluate
  dsimp only
  (repeat' split) <;> simp

@[simp] theorem State.takeChunk_spad (s : State) (a1) (a2) : (State.takeChunk s a1 a2).1.spad = s.spad := by
  unfold State.takeChunk
  split <;> simp

@[simp] theorem State.takeRun_spad (s : State) (a1) (a2) : (State.takeRun s a1 a2).1.spad = s.spad := by
  unfold State.takeRun
  split <;> simp

@[simp] theorem State.giveChunks_spad (s : State) (a1) (a2) (a3) : (State.giveChunks s a1 a2 a3).spad = s.spad := by
  simp [State.giveChunks]

@[simp] theorem State.mapPages_spad (s : State) (a1) (a2) : (State.mapPages s a1 a2).spad = s.spad := by
  induction a2 with
  | zero => rfl
  | succ n ih =>
    unfold State.mapPages
    try dsimp only
    split
    · exact ih
    · split <;> (rename_i h; have e := congrArg (fun r => r.1.spad) h; simp [ih] at e; simp [← e])

@[simp] theorem State.mapAhead_spad (s : State) (a1) : (State.mapAhead s a1).spad = s.spad := by
  simp [State.mapAhead]

@[simp] theorem State.descLine_spad (s : State) (a1) : (State.descLine s a1).1.spad = s.spad := by
  unfold State.descLine
  split
  · simp
  · split <;> (rename_i h; have e := congrArg (fun r => r.1.spad) h; simp at e; simp [← e])

@[simp] theorem State.openCtx_spad (s : State) (a1) (a2) (a3) (a4) (a5) (a6) :
    (State.openCtx s a1 a2 a3 a4 a5 a6).1.spad = s.spad := by
  unfold State.openCtx
  split
  · rename_i h
    have e := congrArg (fun r => r.1.spad) h
    simp at e
    simp [← e]
  · rename_i h
    have e := congrArg (fun r => r.1.spad) h
    simp at e
    split
    · rfl
    · rename_i h2
      have e2 := congrArg (fun r => r.1.spad) h2
      simp at e2
      simp [← e, ← e2]

@[simp] theorem State.openStreams_spad (s : State) (a1) (a2) : (State.openStreams s a1 a2).spad = s.spad := by
  simp [State.openStreams]

@[simp] theorem State.dropStream_spad (s : State) (a1) : (State.dropStream s a1).spad = s.spad := by
  simp [State.dropStream]

@[simp] theorem State.dropStreams_spad (s : State) (a1) (a2) : (State.dropStreams s a1 a2).spad = s.spad := by
  simp [State.dropStreams]

@[simp] theorem State.commitStream_spad (s : State) (a1) (a2) : (State.commitStream s a1 a2).spad = s.spad := by
  simp [State.commitStream]

@[simp] theorem State.commitStreams_spad (s : State) (a1) (a2) (a3) : (State.commitStreams s a1 a2 a3).spad = s.spad := by
  simp [State.commitStreams]

@[simp] theorem State.updAdapter_spad (s : State) (a1) (a2) : (State.updAdapter s a1 a2).spad = s.spad := by
  unfold State.updAdapter
  dsimp only
  (repeat' split) <;> simp

@[simp] theorem State.placeAdapter_spad (s : State) (a1) (a2) (a3) (a4) : (State.placeAdapter s a1 a2 a3 a4).spad = s.spad := by
  unfold State.placeAdapter
  split
  · rfl
  · split
    · rfl
    · rename_i h
      have e := congrArg (fun r => r.1.spad) h
      simp at e
      simp [← e]

@[simp] theorem State.dropAdapter_spad (s : State) (a1) (a2) : (State.dropAdapter s a1 a2).spad = s.spad := by
  unfold State.dropAdapter
  split <;> simp

@[simp] theorem State.setMemBytes_spad (s : State) (a1) (a2) : (State.setMemBytes s a1 a2).spad = s.spad := by
  simp [State.setMemBytes]

@[simp] theorem State.uwp_spad (s : State) (a1) (a2) (a3) (a4) (a5) (a6) (a7) (a8) :
    (State.uwp s a1 a2 a3 a4 a5 a6 a7 a8).spad = s.spad := by
  simp [State.uwp]

@[simp] theorem State.sendReceipt_spad (s : State) (a1) : (State.sendReceipt s a1).spad = s.spad := by
  simp [State.sendReceipt]

@[simp] theorem State.sendResult_spad (s : State) (a1) (a2) : (State.sendResult s a1 a2).spad = s.spad := by
  simp [State.sendResult]

@[simp] theorem State.sendTokens_spad (s : State) (a1) (a2) (a3) : (State.sendTokens s a1 a2 a3).spad = s.spad := by
  simp [State.sendTokens]

@[simp] theorem State.sendCancel_spad (s : State) (a1) (a2) (a3) (a4) (a5) :
    (State.sendCancel s a1 a2 a3 a4 a5).spad = s.spad := by
  simp [State.sendCancel]

@[simp] theorem State.drainWindow_spad (s : State) (a1) : (State.drainWindow s a1).spad = s.spad := by
  simp [State.drainWindow]

@[simp] theorem State.dropWindows_spad (s : State) : (State.dropWindows s).spad = s.spad := by
  simp [State.dropWindows]

@[simp] theorem State.dropGranules_spad (s : State) (a1) : (State.dropGranules s a1).spad = s.spad := by
  simp [State.dropGranules]

@[simp] theorem State.releaseGranules_spad (s : State) (a1) : (State.releaseGranules s a1).spad = s.spad := by
  simp [State.releaseGranules]

@[simp] theorem State.closeWindow_spad (s : State) (a1) : (State.closeWindow s a1).spad = s.spad := by
  simp [State.closeWindow]

@[simp] theorem State.closeWindows_spad (s : State) (a1) : (State.closeWindows s a1).spad = s.spad := by
  simp [State.closeWindows]

@[simp] theorem State.updSub_spad (s : State) (a1) (a2) (a3) (a4) : (State.updSub s a1 a2 a3 a4).spad = s.spad := by
  simp [State.updSub]

@[simp] theorem State.endRdma_spad (s : State) (a1) : (State.endRdma s a1).spad = s.spad := by
  unfold State.endRdma
  split <;> simp

@[simp] theorem State.freeSession_spad (s : State) (a1) : (State.freeSession s a1).spad = s.spad := by
  simp [State.freeSession]

@[simp] theorem State.tryFree_spad (s : State) (a1) : (State.tryFree s a1).spad = s.spad := by
  simp [State.tryFree]

@[simp] theorem State.beginClose_spad (s : State) (a1) : (State.beginClose s a1).spad = s.spad := by
  simp [State.beginClose]

@[simp] theorem State.writeTables_spad (s : State) (a1) (a2) (a3) : (State.writeTables s a1 a2 a3).spad = s.spad := by
  unfold State.writeTables
  (repeat' split) <;> simp

@[simp] theorem State.writeRing_spad (s : State) (a1) (a2) : (State.writeRing s a1 a2).spad = s.spad := by
  simp [State.writeRing]

@[simp] theorem State.assign_spad (s : State) (a1) (a2) (a3) (a4) : (State.assign s a1 a2 a3 a4).1.spad = s.spad := by
  unfold State.assign
  split <;> simp

@[simp] theorem State.complete_spad (s : State) (a1) (a2) (a3) (a4) : (State.complete s a1 a2 a3 a4).spad = s.spad := by
  simp [State.complete]

@[simp] theorem State.freeAccount_spad (s : State) (a1) : (State.freeAccount s a1).spad = s.spad := by
  simp [State.freeAccount]

@[simp] theorem State.closeExports_spad (s : State) (a1) : (State.closeExports s a1).spad = s.spad := by
  simp [State.closeExports]

@[simp] theorem State.directed_spad (s : State) (a1) (a2) : (State.directed s a1 a2).spad = s.spad := by
  unfold State.directed
  split <;> simp

@[simp] theorem State.noticeAll_spad (s : State) (a1) : (State.noticeAll s a1).spad = s.spad := by
  simp [State.noticeAll]

@[simp] theorem State.takeRestore_spad (s : State) (a1) : (State.takeRestore s a1).spad = s.spad := by
  unfold State.takeRestore
  split <;> simp

@[simp] theorem State.accepted_spad (s : State) (a1) : (State.accepted s a1).spad = s.spad := by
  unfold State.accepted
  dsimp only
  (repeat' split) <;> simp

@[simp] theorem State.parked_spad (s : State) (a1) (a2) : (State.parked s a1 a2).spad = s.spad := by
  simp [State.parked]

@[simp] theorem State.committed_spad (s : State) (a1) (a2) (a3) (a4) (a5) (a6) (a7) (a8) (a9) :
    (State.committed s a1 a2 a3 a4 a5 a6 a7 a8 a9).spad = s.spad := by
  simp [State.committed]

@[simp] theorem State.commitAdapter_spad (s : State) (a1) (a2) (a3) : (State.commitAdapter s a1 a2 a3).spad = s.spad := by
  simp [State.commitAdapter]

@[simp] theorem State.learned_spad (s : State) (a1) (a2) (a3) (a4) : (State.learned s a1 a2 a3 a4).spad = s.spad := by
  simp [State.learned]

@[simp] theorem State.restored_spad (s : State) (a1) (a2) : (State.restored s a1 a2).spad = s.spad := by
  unfold State.restored
  dsimp only
  (repeat' split) <;> simp

@[simp] theorem State.completed_spad (s : State) (a1) : (State.completed s a1).spad = s.spad := by
  unfold State.completed
  split <;> simp

@[simp] theorem State.retired_spad (s : State) (a1) (a2) : (State.retired s a1 a2).spad = s.spad := by
  unfold State.retired
  simp
  rw [foldl_spad]
  · rw [foldl_spad]
    intro t b
    simp
  · intro t b
    try dsimp only
    (repeat' split) <;> simp

@[simp] theorem State.applyRec_spad (s : State) (a1) (a2) : (State.applyRec s a1 a2).spad = s.spad := by
  unfold State.applyRec
  dsimp only
  (repeat' split) <;> simp

@[simp] theorem State.applyOnce_spad (s : State) (a1) (a2) : (State.applyOnce s a1 a2).spad = s.spad := by
  simp [State.applyOnce]

@[simp] theorem State.runJournal_spad (s : State) (a1) : (State.runJournal s a1).spad = s.spad := by
  induction a1 generalizing s with
  | zero => rfl
  | succ n ih =>
    unfold State.runJournal
    (repeat' split) <;> simp [ih]

@[simp] theorem State.runDurable_spad (s : State) : (State.runDurable s).spad = s.spad := by
  simp [State.runDurable]

@[simp] theorem State.ackLsn_spad (s : State) (a1) : (State.ackLsn s a1).spad = s.spad := by
  simp [State.ackLsn]

@[simp] theorem State.seenAcct_spad (s : State) (a1) (a2) (a3) : (State.seenAcct s a1 a2 a3).spad = s.spad := by
  simp [State.seenAcct]

@[simp] theorem State.replayAcct_spad (a1) (s : State) (a2) : (State.replayAcct a1 s a2).spad = s.spad := by
  unfold State.replayAcct
  (repeat' split) <;> simp

@[simp] theorem State.replaySub_spad (a1) (a2) (a3) (s : State) (a4) : (State.replaySub a1 a2 a3 s a4).spad = s.spad := by
  unfold State.replaySub
  dsimp only
  (repeat' split) <;> first | rfl | simp | skip
  all_goals
    refine foldl_spad _ (fun t b => ?_) _ _
    (repeat' split) <;> first | rfl | simp

@[simp] theorem State.replayRec_spad (a1) (a2) (a3) (s : State) (a4) : (State.replayRec a1 a2 a3 s a4).spad = s.spad := by
  simp [State.replayRec]

@[simp] theorem State.finishEnded_spad (s : State) (a1) : (State.finishEnded s a1).spad = s.spad := by
  unfold State.finishEnded
  refine foldl_spad _ (fun t b => ?_) _ _
  try dsimp only
  split
  · split <;> simp
  · rfl

@[simp] theorem State.resendSub_spad (s : State) (a1) : (State.resendSub s a1).spad = s.spad := by
  unfold State.resendSub
  dsimp only
  simp only [ite_spad, State.sendResult_spad, ite_self]
  refine foldl_spad _ (fun t j => ?_) _ _
  try dsimp only
  (repeat' split) <;> simp

@[simp] theorem State.resendAll_spad (s : State) (a1) : (State.resendAll s a1).spad = s.spad := by
  unfold State.resendAll
  simp
  rw [foldl_spad]
  intro t b
  try dsimp only
  split <;> simp

@[simp] theorem State.resumeRunning_spad (s : State) (a1) : (State.resumeRunning s a1).spad = s.spad := by
  unfold State.resumeRunning
  refine foldl_spad _ (fun t b => ?_) _ _
  try dsimp only
  split <;> simp

@[simp] theorem State.sealAgain_spad (s : State) : (State.sealAgain s).spad = s.spad := by
  unfold State.sealAgain
  refine foldl_spad _ (fun t b => ?_) _ _
  try dsimp only
  split <;> simp

@[simp] theorem State.adoptSessions_spad (s : State) (a1) : (State.adoptSessions s a1).spad = s.spad := by
  unfold State.adoptSessions
  dsimp only
  refine foldl_spad _ (fun t r => ?_) _ _
  (repeat' split) <;> first | rfl | simp

@[simp] theorem State.quietAccts_spad (s : State) (a1) : (State.quietAccts s a1).spad = s.spad := by
  simp [State.quietAccts]

@[simp] theorem State.takeOver_spad (s : State) : (State.takeOver s).spad = s.spad := by
  unfold State.takeOver
  split
  · rfl
  · simp

@[simp] theorem State.toChildren_spad (s : State) (a1) (a2) : (State.toChildren s a1 a2).spad = s.spad := by
  simp [State.toChildren]

@[simp] theorem State.masterMessage_spad (s : State) : (State.masterMessage s).spad = s.spad := by
  simp [State.masterMessage]

@[simp] theorem State.endHold_spad (s : State) (a1) : (State.endHold s a1).spad = s.spad := by
  unfold State.endHold
  split <;> simp

@[simp] theorem State.overrun_spad (s : State) (a1) : (State.overrun s a1).spad = s.spad := by
  simp [State.overrun]

@[simp] theorem State.dropCredits_spad (s : State) (a1) : (State.dropCredits s a1).spad = s.spad := by
  simp [State.dropCredits]

@[simp] theorem State.closeStep_spad (s : State) (a1) (a2) : (State.closeStep s a1 a2).spad = s.spad := by
  simp [State.closeStep]

@[simp] theorem State.endFrame_spad (s : State) (a1) : (State.endFrame s a1).spad = s.spad := by
  simp [State.endFrame]

@[simp] theorem State.idleSlots_spad (s : State) : (State.idleSlots s).spad = s.spad := by
  simp [State.idleSlots]

@[simp] theorem State.startExchange_spad (s : State) (a1) : (State.startExchange s a1).spad = s.spad := by
  simp [State.startExchange]

@[simp] theorem State.sendVote_spad (s : State) : (State.sendVote s).spad = s.spad := by
  simp [State.sendVote]

@[simp] theorem State.repeatVote_spad (s : State) : (State.repeatVote s).spad = s.spad := by
  simp [State.repeatVote]

@[simp] theorem State.startCovering_spad (s : State) (a1) : (State.startCovering s a1).spad = s.spad := by
  simp [State.startCovering]

@[simp] theorem State.coverFrame_spad (s : State) : (State.coverFrame s).spad = s.spad := by
  simp [State.coverFrame]

@[simp] theorem State.appliedRec_spad (s : State) (a1) (a2) (a3) (a4) : (State.appliedRec s a1 a2 a3 a4).spad = s.spad := by
  simp [State.appliedRec]

@[simp] theorem State.takeRecipe_spad (s : State) (a1) : (State.takeRecipe s a1).spad = s.spad := by
  unfold State.takeRecipe
  dsimp only
  (repeat' split) <;> simp

@[simp] theorem State.writeBases_spad (s : State) (a1) (a2) : (State.writeBases s a1 a2).spad = s.spad := by
  simp [State.writeBases]

@[simp] theorem State.writeAdapters_spad (s : State) (a1) (a2) : (State.writeAdapters s a1 a2).spad = s.spad := by
  unfold State.writeAdapters
  refine foldl_spad _ (fun t x => ?_) _ _
  generalize (if (t.acct x.account.val).part.toNat = a1 then _ else none) = o
  cases o <;> simp

@[simp] theorem State.startStreams_spad (s : State) (a1) (a2) (a3) (a4) : (State.startStreams s a1 a2 a3 a4).spad = s.spad := by
  simp [State.startStreams]

@[simp] theorem State.queuePrograms_spad (s : State) (a1) : (State.queuePrograms s a1).spad = s.spad := by
  simp [State.queuePrograms]

@[simp] theorem State.moveAcct_spad (s : State) (a1) (a2) (a3) : (State.moveAcct s a1 a2 a3).spad = s.spad := by
  simp [State.moveAcct]

@[simp] theorem State.leaveCompanion_spad (s : State) (a1) : (State.leaveCompanion s a1).spad = s.spad := by
  unfold State.leaveCompanion
  split <;> simp

@[simp] theorem State.startMove_spad (s : State) (a1) (a2) (a3) (a4) : (State.startMove s a1 a2 a3 a4).spad = s.spad := by
  simp [State.startMove]

@[simp] theorem State.startMoves_spad (s : State) (a1) (a2) : (State.startMoves s a1 a2).spad = s.spad := by
  simp [State.startMoves]

@[simp] theorem State.beginElsewhere_spad (s : State) (a1) (a2) : (State.beginElsewhere s a1 a2).spad = s.spad := by
  simp [State.beginElsewhere]

@[simp] theorem State.boundaryWork_spad (s : State) (a1) (a2) : (State.boundaryWork s a1 a2).spad = s.spad := by
  simp [State.boundaryWork]

@[simp] theorem State.countersOk_spad (s : State) (a1) (a2) : (State.countersOk s a1 a2).spad = s.spad := by
  simp [State.countersOk]

@[simp] theorem State.noticeAbort_spad (s : State) (a1) (a2) : (State.noticeAbort s a1 a2).spad = s.spad := by
  simp [State.noticeAbort]

@[simp] theorem State.takeVariant_spad (s : State) (a1) (a2) : (State.takeVariant s a1 a2).spad = s.spad := by
  unfold State.takeVariant
  split <;> simp

@[simp] theorem State.stopPart_spad (s : State) (a1) (a2) (a3) : (State.stopPart s a1 a2 a3).spad = s.spad := by
  simp [State.stopPart]

@[simp] theorem State.dropOutcome_spad (s : State) : (State.dropOutcome s).spad = s.spad := by
  simp [State.dropOutcome]

@[simp] theorem State.unlearn_spad (s : State) (a1) (a2) : (State.unlearn s a1 a2).spad = s.spad := by
  unfold State.unlearn
  split <;> simp

@[simp] theorem State.numberEscrow_spad (s : State) (a1) (a2) : (State.numberEscrow s a1 a2).spad = s.spad := by
  simp [State.numberEscrow]

@[simp] theorem State.clearEscrow_spad (s : State) (a1) : (State.clearEscrow s a1).spad = s.spad := by
  simp [State.clearEscrow]

@[simp] theorem State.setRunning_spad (s : State) (a1) (a2) : (State.setRunning s a1 a2).spad = s.spad := by
  simp [State.setRunning]

@[simp] theorem State.newsAcct_spad (s : State) (a1) (a2) : (State.newsAcct s a1 a2).spad = s.spad := by
  simp [State.newsAcct]

@[simp] theorem State.partSealed_spad (s : State) (a1) (a2) (a3) (a4) : (State.partSealed s a1 a2 a3 a4).spad = s.spad := by
  simp [State.partSealed]

@[simp] theorem State.writeParcel_spad (s : State) (a1) (a2) (a3) : (State.writeParcel s a1 a2 a3).spad = s.spad := by
  unfold State.writeParcel
  try dsimp only
  rw [foldl_spad]
  · split <;> simp
  · intro t x
    try dsimp only
    split <;> (rename_i h; have e := congrArg (fun r => r.1.spad) h; simp at e; simp [← e])

@[simp] theorem State.partReport_spad (s : State) (a1) : (State.partReport s a1).spad = s.spad := by
  unfold State.partReport
  dsimp only
  (repeat' split) <;> simp

@[simp] theorem State.takeRecord_spad (s : State) (a1) : (State.takeRecord s a1).spad = s.spad := by
  unfold State.takeRecord
  dsimp only
  (repeat' split) <;> simp

@[simp] theorem State.noticeCommit_spad (s : State) (a1) : (State.noticeCommit s a1).spad = s.spad := by
  unfold State.noticeCommit
  (repeat' split) <;> simp

@[simp] theorem State.discardRecs_spad (s : State) (a1) : (State.discardRecs s a1).spad = s.spad := by
  simp [State.discardRecs]

@[simp] theorem State.castWith_spad (s : State) (a1) : (State.castWith s a1).spad = s.spad := by
  simp [State.castWith]

@[simp] theorem State.castVote_spad (s : State) : (State.castVote s).spad = s.spad := by
  simp [State.castVote]

@[simp] theorem State.sendShard_spad (s : State) (a1) (a2) : (State.sendShard s a1 a2).spad = s.spad := by
  simp [State.sendShard]

@[simp] theorem State.sendMirror_spad (s : State) (a1) : (State.sendMirror s a1).spad = s.spad := by
  simp [State.sendMirror]

@[simp] theorem State.sendLedgers_spad (s : State) : (State.sendLedgers s).spad = s.spad := by
  simp [State.sendLedgers]

@[simp] theorem State.resendRecords_spad (s : State) : (State.resendRecords s).spad = s.spad := by
  simp [State.resendRecords]

@[simp] theorem State.sendCopies_spad (s : State) : (State.sendCopies s).spad = s.spad := by
  simp [State.sendCopies]

@[simp] theorem State.activate_spad (s : State) (a1) : (State.activate s a1).spad = s.spad := by
  unfold State.activate
  dsimp only
  (repeat' split) <;> simp

@[simp] theorem State.lockLink_spad (s : State) (a1) : (State.lockLink s a1).spad = s.spad := by
  simp [State.lockLink]

@[simp] theorem State.lockLinks_spad (s : State) : (State.lockLinks s).spad = s.spad := by
  simp [State.lockLinks]

@[simp] theorem State.retrain_spad (s : State) (a1) : (State.retrain s a1).spad = s.spad := by
  simp [State.retrain]

@[simp] theorem State.startTraining_spad (s : State) (a1) : (State.startTraining s a1).spad = s.spad := by
  simp [State.startTraining]

@[simp] theorem State.sendTrainLine_spad (s : State) (a1) (a2) : (State.sendTrainLine s a1 a2).spad = s.spad := by
  simp [State.sendTrainLine]

@[simp] theorem State.sendTrainingAt_spad (s : State) (a1) (a2) : (State.sendTrainingAt s a1 a2).spad = s.spad := by
  simp [State.sendTrainingAt]

@[simp] theorem State.sendTraining_spad (s : State) (a1) : (State.sendTraining s a1).spad = s.spad := by
  simp [State.sendTraining]

@[simp] theorem State.sendSecure_spad (s : State) (a1) : (State.sendSecure s a1).spad = s.spad := by
  simp [State.sendSecure]

@[simp] theorem State.trainFail_spad (s : State) (a1) : (State.trainFail s a1).spad = s.spad := by
  simp [State.trainFail]

@[simp] theorem State.miswired_spad (s : State) (a1) : (State.miswired s a1).spad = s.spad := by
  simp [State.miswired]

@[simp] theorem State.identify_spad (s : State) (a1) (a2) : (State.identify s a1 a2).spad = s.spad := by
  unfold State.identify
  dsimp only
  (repeat' split) <;> simp

@[simp] theorem State.agree_spad (s : State) (a1) (a2) : (State.agree s a1 a2).spad = s.spad := by
  simp [State.agree]

@[simp] theorem State.secure_spad (s : State) (a1) (a2) (a3) : (State.secure s a1 a2 a3).spad = s.spad := by
  simp [State.secure]

@[simp] theorem State.takeSecure_spad (s : State) (a1) (a2) (a3) : (State.takeSecure s a1 a2 a3).spad = s.spad := by
  unfold State.takeSecure
  dsimp only
  (repeat' split) <;> simp

@[simp] theorem State.takeTraining_spad (s : State) (a1) (a2) (a3) (a4) : (State.takeTraining s a1 a2 a3 a4).spad = s.spad := by
  unfold State.takeTraining
  dsimp only
  (repeat' split) <;> simp

@[simp] theorem State.takeFrameMsg_spad (s : State) (a1) (a2) (a3) : (State.takeFrameMsg s a1 a2 a3).spad = s.spad := by
  simp [State.takeFrameMsg]

@[simp] theorem State.floodNotice_spad (s : State) (a1) : (State.floodNotice s a1).spad = s.spad := by
  simp [State.floodNotice]

@[simp] theorem State.takeNotice_spad (s : State) (a1) (a2) : (State.takeNotice s a1 a2).spad = s.spad := by
  simp [State.takeNotice]

@[simp] theorem State.relayRound_spad (s : State) (a1) (a2) : (State.relayRound s a1 a2).spad = s.spad := by
  simp [State.relayRound]

@[simp] theorem State.takeSummary_spad (s : State) (a1) (a2) : (State.takeSummary s a1 a2).spad = s.spad := by
  unfold State.takeSummary
  dsimp only
  (repeat' split) <;> simp

@[simp] theorem State.takeExchange_spad (s : State) (a1) (a2) : (State.takeExchange s a1 a2).spad = s.spad := by
  unfold State.takeExchange
  dsimp only
  (repeat' split) <;> simp

@[simp] theorem State.takeLoading_spad (s : State) (a1) (a2) (a3) : (State.takeLoading s a1 a2 a3).spad = s.spad := by
  simp [State.takeLoading]

@[simp] theorem State.takeVote_spad (s : State) (a1) (a2) (a3) : (State.takeVote s a1 a2 a3).spad = s.spad := by
  simp [State.takeVote]

@[simp] theorem State.landData_spad (s : State) (a1) (a2) (a3) (a4) (a5) : (State.landData s a1 a2 a3 a4 a5).spad = s.spad := by
  simp [State.landData]

@[simp] theorem State.landDigest_spad (s : State) (a1) (a2) (a3) : (State.landDigest s a1 a2 a3).spad = s.spad := by
  simp [State.landDigest]

@[simp] theorem State.putEntries_spad (s : State) (a1) (a2) (a3) : (State.putEntries s a1 a2 a3).spad = s.spad := by
  simp [State.putEntries]

@[simp] theorem State.entriesFault_spad (s : State) (a1) (a2) : (State.entriesFault s a1 a2).spad = s.spad := by
  simp [State.entriesFault]

@[simp] theorem State.takeMirror_spad (s : State) (a1) (a2) : (State.takeMirror s a1 a2).spad = s.spad := by
  unfold State.takeMirror
  try dsimp only
  split
  · simp
  · split
    · simp
    · split <;> (rename_i h; have e := congrArg (fun r => r.1.spad) h; simp at e; simp [← e])

@[simp] theorem State.answerPages_spad (s : State) (a1) (a2) (a3) : (State.answerPages s a1 a2 a3).spad = s.spad := by
  simp [State.answerPages]

@[simp] theorem State.refusePages_spad (s : State) (a1) (a2) (a3) : (State.refusePages s a1 a2 a3).spad = s.spad := by
  simp [State.refusePages]

@[simp] theorem State.markMirror_spad (s : State) (a1) (a2) : (State.markMirror s a1 a2).spad = s.spad := by
  simp [State.markMirror]

@[simp] theorem State.finishPages_spad (s : State) (a1) (a2) (a3) (a4) (a5) (a6) :
    (State.finishPages s a1 a2 a3 a4 a5 a6).spad = s.spad := by
  simp [State.finishPages]

@[simp] theorem State.pagesAnswer_spad (s : State) (a1) (a2) : (State.pagesAnswer s a1 a2).spad = s.spad := by
  simp [State.pagesAnswer]

@[simp] theorem State.takePages_spad (s : State) (a1) (a2) : (State.takePages s a1 a2).spad = s.spad := by
  unfold State.takePages
  split
  · simp
  · split
    · rfl
    · extract_lets p a s0 found
      have hs : s0.spad = s.spad := by
        simp only [s0]
        split <;> simp
      split
      · simp [hs]
      · split
        · exact hs
        · rename_i e1 e2
          have hf : (match s0.findCtx p a a2.layer a2.head a2.hdim 0 with
              | some key => (s0, some key)
              | none =>
                match s0.openCtx p a a2.layer a2.head a2.hdim 0 with
                | (s1, some key) => (s1.updDesc key (fun c => { c with st := 3 }), some key)
                | (s1, none) => (s1, none) : State × Option Nat).1.spad = s0.spad := by
            split
            · rfl
            · split <;> (rename_i h; have e := congrArg (fun r => r.1.spad) h; simp at e; simp [← e])
          change found.1.spad = s0.spad at hf
          clear_value found
          obtain ⟨s1, k⟩ := found
          dsimp only at hf
          (repeat' split) <;> rename_i h <;> simp_all

@[simp] theorem State.takeShard_spad (s : State) (a1) : (State.takeShard s a1).spad = s.spad := by
  unfold State.takeShard
  (repeat' split) <;> simp

@[simp] theorem State.ownLedger_spad (s : State) (a1) (a2) : (State.ownLedger s a1 a2).spad = s.spad := by
  simp [State.ownLedger]

@[simp] theorem State.putReplica_spad (s : State) (a1) : (State.putReplica s a1).spad = s.spad := by
  simp [State.putReplica]

@[simp] theorem State.takeCopy_spad (s : State) (a1) : (State.takeCopy s a1).spad = s.spad := by
  simp [State.takeCopy]

@[simp] theorem State.lightLinks_spad (s : State) : (State.lightLinks s).spad = s.spad := by
  unfold State.lightLinks
  refine foldl_spad _ (fun t l => ?_) _ _
  try dsimp only
  split
  · rfl
  · split
    · simp
    · split <;> simp
    · split <;> simp

@[simp] theorem State.portDown_spad (s : State) (a1) : (State.portDown s a1).spad = s.spad := by
  simp [State.portDown]

@[simp] theorem State.lightChanged_spad (s : State) : (State.lightChanged s).spad = s.spad := by
  simp [State.lightChanged]

@[simp] theorem State.advanceRemoval_spad (s : State) (a1) : (State.advanceRemoval s a1).spad = s.spad := by
  simp [State.advanceRemoval]

@[simp] theorem State.advanceRemovals_spad (s : State) : (State.advanceRemovals s).spad = s.spad := by
  simp [State.advanceRemovals]

@[simp] theorem State.stopAll_spad (s : State) : (State.stopAll s).spad = s.spad := by
  simp [State.stopAll]

@[simp] theorem State.declareFailed_spad (s : State) (a1) (a2) (a3) : (State.declareFailed s a1 a2 a3).spad = s.spad := by
  unfold State.declareFailed
  split
  · rfl
  · dsimp only
    split
    · simp
    · rw [foldl_spad]
      · simp
      · intro t p
        try dsimp only
        split <;> simp

@[simp] theorem State.takeReport_spad (s : State) (a1) : (State.takeReport s a1).spad = s.spad := by
  simp [State.takeReport]

@[simp] theorem State.mirrorAck_spad (s : State) (a1) : (State.mirrorAck s a1).spad = s.spad := by
  unfold State.mirrorAck
  dsimp only
  (repeat' split) <;> simp

@[simp] theorem State.takeNak_spad (s : State) (a1) (a2) : (State.takeNak s a1 a2).spad = s.spad := by
  simp [State.takeNak]

@[simp] theorem State.takeHeader_spad (s : State) (a1) (a2) : (State.takeHeader s a1 a2).spad = s.spad := by
  simp [State.takeHeader]

@[simp] theorem State.trainRx_spad (s : State) (a1) (a2) : (State.trainRx s a1 a2).spad = s.spad := by
  unfold State.trainRx
  split <;> simp

@[simp] theorem State.placeArray_spad (s : State) (a1) (a2) (a3) : (State.placeArray s a1 a2 a3).spad = s.spad := by
  simp [State.placeArray]

@[simp] theorem State.landHeld_spad (s : State) (a1) : (State.landHeld s a1).spad = s.spad := by
  simp [State.landHeld]

@[simp] theorem State.loadPartition_spad (s : State) (a1) (a2) (a3) : (State.loadPartition s a1 a2 a3).spad = s.spad := by
  simp [State.loadPartition]

@[simp] theorem State.tryLoad_spad (s : State) (a1) (a2) (a3) : (State.tryLoad s a1 a2 a3).1.spad = s.spad := by
  unfold State.tryLoad
  (repeat' split) <;> simp

@[simp] theorem State.startPart_spad (s : State) (a1) (a2) : (State.startPart s a1 a2).spad = s.spad := by
  simp [State.startPart]

@[simp] theorem State.withdrawnRec_spad (s : State) (a1) (a2) (a3) : (State.withdrawnRec s a1 a2 a3).spad = s.spad := by
  simp [State.withdrawnRec]

@[simp] theorem State.dropStaged_spad (s : State) (a1) : (State.dropStaged s a1).spad = s.spad := by
  unfold State.dropStaged
  dsimp only
  (repeat' split) <;> simp

@[simp] theorem State.revokeCredits_spad (s : State) (a1) : (State.revokeCredits s a1).spad = s.spad := by
  simp [State.revokeCredits]

@[simp] theorem State.evict_spad (s : State) (a1) : (State.evict s a1).spad = s.spad := by
  simp [State.evict]

@[simp] theorem State.closePartition_spad (s : State) (a1) : (State.closePartition s a1).spad = s.spad := by
  simp [State.closePartition]

@[simp] theorem State.replaceWeights_spad (s : State) (a1) (a2) : (State.replaceWeights s a1 a2).1.spad = s.spad := by
  unfold State.replaceWeights
  dsimp only
  (repeat' split) <;> simp

@[simp] theorem State.copyGranule_spad (s : State) (a1) (a2) : (State.copyGranule s a1 a2).spad = s.spad := by
  simp [State.copyGranule]

@[simp] theorem State.placeCopies_spad (s : State) (a1) : (State.placeCopies s a1).spad = s.spad := by
  unfold State.placeCopies
  split <;> simp

@[simp] theorem State.clearTags_spad (s : State) (a1) : (State.clearTags s a1).spad = s.spad := by
  simp [State.clearTags]

@[simp] theorem State.startFlush_spad (s : State) : (State.startFlush s).spad = s.spad := by
  unfold State.startFlush
  split <;> simp

@[simp] theorem State.reportLost_spad (s : State) : (State.reportLost s).spad = s.spad := by
  simp [State.reportLost]

@[simp] theorem State.endFlush_spad (s : State) : (State.endFlush s).spad = s.spad := by
  unfold State.endFlush
  split <;> simp

@[simp] theorem State.failSilent_spad (s : State) : (State.failSilent s).spad = s.spad := by
  simp [State.failSilent]

@[simp] theorem State.darkenAll_spad (s : State) : (State.darkenAll s).spad = s.spad := by
  simp [State.darkenAll]

@[simp] theorem State.dropFrame_spad (s : State) (a1) : (State.dropFrame s a1).spad = s.spad := by
  simp [State.dropFrame]

@[simp] theorem State.ecnMark_spad (s : State) (a1) (a2) (a3) : (State.ecnMark s a1 a2 a3).spad = s.spad := by
  simp [State.ecnMark]

@[simp] theorem State.qpError_spad (s : State) (a1) : (State.qpError s a1).spad = s.spad := by
  simp [State.qpError]

@[simp] theorem State.rejectRdma_spad (s : State) (a1) (a2) (a3) (a4) (a5) :
    (State.rejectRdma s a1 a2 a3 a4 a5).spad = s.spad := by
  simp [State.rejectRdma]

@[simp] theorem State.landBytes_spad (s : State) (a1) (a2) (a3) : (State.landBytes s a1 a2 a3).spad = s.spad := by
  simp [State.landBytes]

@[simp] theorem State.strayFault_spad (s : State) (a1) (a2) : (State.strayFault s a1 a2).spad = s.spad := by
  simp [State.strayFault]

@[simp] theorem State.portFetch_spad (s : State) (a1) (a2) (a3) (a4) : (State.portFetch s a1 a2 a3 a4).1.spad = s.spad := by
  simp [State.portFetch]

@[simp] theorem State.landPacket_spad (s : State) (a1) (a2) (a3) (a4) (a5) :
    (State.landPacket s a1 a2 a3 a4 a5).spad = s.spad := by
  unfold State.landPacket
  dsimp only
  (repeat' split) <;> simp

@[simp] theorem State.landMore_spad (s : State) (a1) (a2) (a3) (a4) (a5) : (State.landMore s a1 a2 a3 a4 a5).spad = s.spad := by
  unfold State.landMore
  split <;> simp

@[simp] theorem State.refuse_spad (s : State) (a1) (a2) (a3) : (State.refuse s a1 a2 a3).spad = s.spad := by
  simp [State.refuse]

@[simp] theorem State.notHome_spad (s : State) (a1) (a2) : (State.notHome s a1 a2).spad = s.spad := by
  simp [State.notHome]

@[simp] theorem State.noWindow_spad (s : State) (a1) : (State.noWindow s a1).spad = s.spad := by
  simp [State.noWindow]

@[simp] theorem State.tellerUpset_spad (s : State) (a1) : (State.tellerUpset s a1).spad = s.spad := by
  simp [State.tellerUpset]

@[simp] theorem State.gate_spad (s : State) (a1) (a2) : (State.gate s a1 a2).1.spad = s.spad := by
  unfold State.gate
  dsimp only
  (repeat' split) <;> simp

@[simp] theorem State.takeAck_spad (s : State) (a1) : (State.takeAck s a1).spad = s.spad := by
  simp [State.takeAck]

theorem State.writePayload_spad {s t : State} {p : Nat} {bs : List Byte} {x : Nat × Nat} (h : s.writePayload p bs = some (t, x)) :
    t.spad = s.spad := by
  unfold State.writePayload at h
  dsimp only at h
  split at h
  · cases h
    rfl
  · split at h
    · cases h
    · rename_i e
      have e := congrArg (fun r => r.1.spad) e
      cases h
      simp at e
      simp [← e]

@[simp] theorem State.accept_spad (s : State) (a1) (a2) (a3) : (State.accept s a1 a2 a3).spad = s.spad := by
  unfold State.accept
  split
  · simp
  · rename_i h
    have e := State.writePayload_spad h
    simp [e]

@[simp] theorem State.duplicate_spad (s : State) (a1) : (State.duplicate s a1).spad = s.spad := by
  unfold State.duplicate
  (repeat' split) <;> simp

theorem State.openRefusal_spad {s t : State} {m : UwpMsg} (h : s.openRefusal m = some t) : t.spad = s.spad := by
  unfold State.openRefusal at h
  dsimp only at h
  (repeat' split at h) <;> first | cases h | skip
  all_goals simp

@[simp] theorem State.takeSubmit_spad (s : State) (a1) (a2) : (State.takeSubmit s a1 a2).spad = s.spad := by
  unfold State.takeSubmit
  try dsimp only
  split
  · simp
  split
  · simp
  split
  · simp
  split
  · simp
  split
  · simp
  split
  · split
    · rename_i h
      exact State.openRefusal_spad h
    · split <;> simp
  · split
    · simp
    · (repeat' split) <;> simp

@[simp] theorem State.cancelSub_spad (s : State) (a1) : (State.cancelSub s a1).spad = s.spad := by
  unfold State.cancelSub
  split <;> simp

@[simp] theorem State.enterState_spad (s : State) (a1) (a2) (a3) : (State.enterState s a1 a2 a3).spad = s.spad := by
  simp [State.enterState]

@[simp] theorem State.unsupported_spad (s : State) (a1) : (State.unsupported s a1).spad = s.spad := by
  simp [State.unsupported]

@[simp] theorem State.judge_spad (s : State) (a1) (a2) : (State.judge s a1 a2).spad = s.spad := by
  simp [State.judge]

@[simp] theorem State.light_spad (s : State) (a1) (a2) : (State.light s a1 a2).spad = s.spad := by
  simp [State.light]

@[simp] theorem State.readModule_spad (s : State) (a1) (a2) (a3) : (State.readModule s a1 a2 a3).spad = s.spad := by
  simp [State.readModule]

@[simp] theorem State.readModules_spad (s : State) : (State.readModules s).spad = s.spad := by
  unfold State.readModules
  refine foldl_spad _ (fun t m => ?_) _ _
  split <;> simp

@[simp] theorem State.saveHistory_spad (s : State) (a1) : (State.saveHistory s a1).spad = s.spad := by
  unfold State.saveHistory
  split <;> simp

@[simp] theorem State.requestRemoval_spad (s : State) (a1) (a2) : (State.requestRemoval s a1 a2).1.spad = s.spad := by
  unfold State.requestRemoval
  dsimp only
  (repeat' split) <;> simp

@[simp] theorem State.relight_spad (s : State) (a1) (a2) : (State.relight s a1 a2).1.spad = s.spad := by
  unfold State.relight
  dsimp only
  (repeat' split) <;> simp

@[simp] theorem State.powerEvent_spad (s : State) (a1) (a2) (a3) (a4) : (State.powerEvent s a1 a2 a3 a4).spad = s.spad := by
  simp [State.powerEvent]

@[simp] theorem State.captureEvent_spad (s : State) (a1) (a2) (a3) (a4) (a5) :
    (State.captureEvent s a1 a2 a3 a4 a5).spad = s.spad := by
  simp [State.captureEvent]

@[simp] theorem State.powerFail_spad (s : State) (a1) : (State.powerFail s a1).spad = s.spad := by
  simp [State.powerFail]

@[simp] theorem State.setRequest_spad (s : State) : (State.setRequest s).spad = s.spad := by
  simp [State.setRequest]

@[simp] theorem State.retrimMoved_spad (s : State) : (State.retrimMoved s).spad = s.spad := by
  simp [State.retrimMoved]

@[simp] theorem State.movePll_spad (s : State) (a1) : (State.movePll s a1).spad = s.spad := by
  simp [State.movePll]

@[simp] theorem State.watchdogEnd_spad (s : State) : (State.watchdogEnd s).spad = s.spad := by
  simp [State.watchdogEnd]

@[simp] theorem State.adcTrigger_spad (s : State) (a1) (a2) : (State.adcTrigger s a1 a2).spad = s.spad := by
  simp [State.adcTrigger]

@[simp] theorem State.captured_spad (s : State) : (State.captured s).spad = s.spad := by
  unfold State.captured
  split <;> simp

@[simp] theorem State.claimRead_spad (s : State) (a1) : (State.claimRead s a1).spad = s.spad := by
  unfold State.claimRead
  split <;> simp

@[simp] theorem State.clearCause_spad (s : State) (a1) : (State.clearCause s a1).spad = s.spad := by
  unfold State.clearCause
  split <;> simp

@[simp] theorem State.claimWrite_spad (s : State) (a1) (a2) : (State.claimWrite s a1 a2).spad = s.spad := by
  simp [State.claimWrite]

@[simp] theorem State.mgmtRequest_spad (s : State) (a1) (a2) (a3) (a4) : (State.mgmtRequest s a1 a2 a3 a4).spad = s.spad := by
  simp [State.mgmtRequest]

@[simp] theorem State.accessFault_spad (s : State) (a1) (a2) : (State.accessFault s a1 a2).spad = s.spad := by
  simp [State.accessFault]

@[simp] theorem State.sramCheck_spad (s : State) (a1) : (State.sramCheck s a1).spad = s.spad := by
  unfold State.sramCheck
  split <;> simp

@[simp] theorem State.regTouch_spad (s : State) (a1) (a2) : (State.regTouch s a1 a2).spad = s.spad := by
  unfold State.regTouch
  split <;> simp

@[simp] theorem State.serviceByte_spad (s : State) (a1) : (State.serviceByte s a1).spad = s.spad := by
  simp [State.serviceByte]

@[simp] theorem State.regPut_spad (s : State) (a1) (a2) (a3) (a4) : (State.regPut s a1 a2 a3 a4).spad = s.spad := by
  unfold State.regPut
  split <;> simp

@[simp] theorem State.coreLines_spad (s : State) (a1) (a2) : (State.coreLines s a1 a2).1.spad = s.spad := by
  unfold State.coreLines
  simp

@[simp] theorem State.coreValue_spad (s : State) (a1) (a2) (a3) (a4) : (State.coreValue s a1 a2 a3 a4).1.spad = s.spad := by
  unfold State.coreValue
  dsimp only
  (repeat' split) <;> simp

@[simp] theorem State.coreRead_spad (s : State) (a1) : (State.coreRead s a1).spad = s.spad := by
  unfold State.coreRead
  dsimp only
  (repeat' split) <;> simp

@[simp] theorem State.corePut_spad (s : State) (a1) (a2) (a3) (a4) (a5) : (State.corePut s a1 a2 a3 a4 a5).spad = s.spad := by
  unfold State.corePut
  split <;> simp

@[simp] theorem State.coreWrite_spad (s : State) (a1) (a2) : (State.coreWrite s a1 a2).spad = s.spad := by
  unfold State.coreWrite
  dsimp only
  (repeat' split) <;> simp

@[simp] theorem State.suspendErases_spad (s : State) : (State.suspendErases s).spad = s.spad := by
  simp [State.suspendErases]

@[simp] theorem State.flashNext_spad (s : State) (a1) : (State.flashNext s a1).spad = s.spad := by
  unfold State.flashNext
  dsimp only
  (repeat' split) <;> simp

@[simp] theorem State.noEntropy_spad (s : State) : (State.noEntropy s).spad = s.spad := by
  simp [State.noEntropy]

@[simp] theorem State.attest_spad (s : State) (a1) : (State.attest s a1).spad = s.spad := by
  simp [State.attest]

@[simp] theorem State.endShutdown_spad (s : State) : (State.endShutdown s).spad = s.spad := by
  simp [State.endShutdown]

@[simp] theorem State.flushAll_spad (s : State) : (State.flushAll s).spad = s.spad := by
  simp [State.flushAll]

@[simp] theorem State.lose_spad (s : State) (a1) : (State.lose s a1).spad = s.spad := by
  simp [State.lose]

@[simp] theorem State.dawnRec_spad (s : State) (a1) (a2) : (State.dawnRec s a1 a2).spad = s.spad := by
  simp [State.dawnRec]

@[simp] theorem State.stopDawn_spad (s : State) : (State.stopDawn s).spad = s.spad := by
  simp [State.stopDawn]

@[simp] theorem State.stepDone_spad (s : State) : (State.stepDone s).spad = s.spad := by
  simp [State.stepDone]

@[simp] theorem State.dawn2_spad (s : State) (a1) : (State.dawn2 s a1).spad = s.spad := by
  simp [State.dawn2]

@[simp] theorem State.romStops_spad (s : State) (a1) : (State.romStops s a1).spad = s.spad := by
  simp [State.romStops]

@[simp] theorem State.dawn3_spad (s : State) (a1) : (State.dawn3 s a1).spad = s.spad := by
  unfold State.dawn3
  dsimp only
  (repeat' split) <;> simp

@[simp] theorem State.dawn4_spad (s : State) (a1) : (State.dawn4 s a1).spad = s.spad := by
  simp [State.dawn4]

@[simp] theorem State.startMaster_spad (s : State) : (State.startMaster s).spad = s.spad := by
  simp [State.startMaster]

@[simp] theorem State.beginLinks_spad (s : State) : (State.beginLinks s).spad = s.spad := by
  simp [State.beginLinks]

@[simp] theorem State.dawn5_spad (s : State) (a1) : (State.dawn5 s a1).spad = s.spad := by
  simp [State.dawn5]

@[simp] theorem State.writeStaged_spad (s : State) (a1) : (State.writeStaged s a1).spad = s.spad := by
  simp [State.writeStaged]

@[simp] theorem State.dawn7_spad (s : State) (a1) : (State.dawn7 s a1).spad = s.spad := by
  simp [State.dawn7]

@[simp] theorem State.failCold_spad (s : State) (a1) : (State.failCold s a1).spad = s.spad := by
  simp [State.failCold]

@[simp] theorem State.dawn8_spad (s : State) (a1) : (State.dawn8 s a1).spad = s.spad := by
  simp [State.dawn8]

@[simp] theorem State.keepOwn_spad (s : State) (a1) : (State.keepOwn s a1).spad = s.spad := by
  simp [State.keepOwn]

@[simp] theorem State.recover_spad (s : State) (a1) : (State.recover s a1).spad = s.spad := by
  simp [State.recover]

@[simp] theorem State.dawnSessions_spad (s : State) : (State.dawnSessions s).spad = s.spad := by
  simp [State.dawnSessions]

@[simp] theorem State.dawn9_spad (s : State) (a1) : (State.dawn9 s a1).spad = s.spad := by
  unfold State.dawn9
  try dsimp only
  simp

@[simp] theorem State.discard_spad (s : State) (a1) (a2) (a3) (a4) : (State.discard s a1 a2 a3 a4).spad = s.spad := by
  simp [State.discard]

@[simp] theorem State.discardPart_spad (s : State) (a1) (a2) : (State.discardPart s a1 a2).spad = s.spad := by
  simp [State.discardPart]

@[simp] theorem State.readdBlocks_spad (s : State) : (State.readdBlocks s).spad = s.spad := by
  simp [State.readdBlocks]

@[simp] theorem State.dawn10_spad (s : State) : (State.dawn10 s).spad = s.spad := by
  simp [State.dawn10]

@[simp] theorem State.confirmTrial_spad (s : State) : (State.confirmTrial s).spad = s.spad := by
  simp [State.confirmTrial]

@[simp] theorem State.dawn11_spad (s : State) (a1) : (State.dawn11 s a1).spad = s.spad := by
  simp [State.dawn11]

@[simp] theorem State.refusedBackup_spad (s : State) : (State.refusedBackup s).spad = s.spad := by
  simp [State.refusedBackup]

@[simp] theorem State.beforeReset_spad (s : State) : (State.beforeReset s).spad = s.spad := by
  simp [State.beforeReset]

@[simp] theorem State.shutDown_spad (s : State) : (State.shutDown s).spad = s.spad := by
  simp [State.shutDown]

@[simp] theorem done_spad (s : State) : (done s).1.spad = s.spad := by
  simp [done]

@[simp] theorem plain_fst_spad (r : State × BitVec 8) : (plain r).1.spad = r.1.spad := rfl

@[simp] theorem doneIf_spad (s : State) (a1) (t : State) (h : True ∧ t.spad = s.spad) : (doneIf s a1 t).1.spad = s.spad := by
  unfold doneIf
  split
  · exact h.2
  · rfl

@[simp] theorem no_spad (s : State) (a1) : (no s a1).1.spad = s.spad := by
  simp [no]

@[simp] theorem State.updUoa_spad (s : State) (a1) (a2) : (State.updUoa s a1 a2).spad = s.spad := by
  simp [State.updUoa]

@[simp] theorem State.endUoa_spad (s : State) (a1) : (State.endUoa s a1).spad = s.spad := by
  simp [State.endUoa]

@[simp] theorem State.select_spad (s : State) (a1) (a2) (a3) (a4) : (State.select s a1 a2 a3 a4).1.spad = s.spad := by
  simp [State.select]

@[simp] theorem State.installKey_spad (s : State) (a1) (a2) (a3) (a4) (a5) :
    (State.installKey s a1 a2 a3 a4 a5).1.spad = s.spad := by
  unfold State.installKey
  (repeat' split) <;> simp

@[simp] theorem State.write20_spad (s : State) (a1) (a2) (a3) (a4) : (State.write20 s a1 a2 a3 a4).1.spad = s.spad := by
  unfold State.write20
  try dsimp only
  split
  · split <;> rfl
  · simp
  · rfl
  · rfl
  · rfl
  · simp
  · rfl
  · simp
  · rfl

@[simp] theorem State.write2400_spad (s : State) (a1) (a2) (a3) (a4) : (State.write2400 s a1 a2 a3 a4).1.spad = s.spad := by
  unfold State.write2400
  dsimp only
  (repeat' split) <;> simp

@[simp] theorem State.userCal_spad (s : State) (a1) : (State.userCal s a1).spad = s.spad := by
  simp [State.userCal]

@[simp] theorem State.write3100_spad (s : State) (a1) (a2) (a3) (a4) : (State.write3100 s a1 a2 a3 a4).1.spad = s.spad := by
  unfold State.write3100
  dsimp only
  (repeat' split) <;> simp

@[simp] theorem State.write3400_spad (s : State) (a1) (a2) (a3) : (State.write3400 s a1 a2 a3).1.spad = s.spad := by
  unfold State.write3400
  split <;> simp

@[simp] theorem State.write4100_spad (s : State) (a1) (a2) : (State.write4100 s a1 a2).1.spad = s.spad := by
  unfold State.write4100
  split <;> simp

@[simp] theorem State.write4200_spad (s : State) (a1) (a2) (a3) : (State.write4200 s a1 a2 a3).1.spad = s.spad := by
  unfold State.write4200
  split <;> simp

@[simp] theorem State.resetLink_spad (s : State) (a1) (a2) : (State.resetLink s a1 a2).1.spad = s.spad := by
  unfold State.resetLink
  (repeat' split) <;> simp

@[simp] theorem State.write6000_spad (s : State) (a1) (a2) (a3) (a4) : (State.write6000 s a1 a2 a3 a4).1.spad = s.spad := by
  unfold State.write6000
  split <;> simp

@[simp] theorem State.write6100_spad (s : State) (a1) (a2) : (State.write6100 s a1 a2).1.spad = s.spad := by
  unfold State.write6100
  split <;> simp

@[simp] theorem State.write7000_spad (s : State) (a1) (a2) (a3) (a4) : (State.write7000 s a1 a2 a3 a4).1.spad = s.spad := by
  unfold State.write7000
  split <;> simp

@[simp] theorem State.openSession_spad (s : State) (a1) (a2) : (State.openSession s a1 a2).1.spad = s.spad := by
  unfold State.openSession
  dsimp only
  (repeat' split) <;> simp

@[simp] theorem State.reopenSession_spad (s : State) (a1) (a2) : (State.reopenSession s a1 a2).1.spad = s.spad := by
  unfold State.reopenSession
  dsimp only
  (repeat' split) <;> simp

@[simp] theorem State.closeSession_spad (s : State) (a1) (a2) (a3) : (State.closeSession s a1 a2 a3).1.spad = s.spad := by
  unfold State.closeSession
  dsimp only
  (repeat' split) <;> simp

@[simp] theorem State.connect_spad (s : State) (a1) (a2) : (State.connect s a1 a2).1.spad = s.spad := by
  unfold State.connect
  try dsimp only
  split
  · rfl
  split
  · rfl
  · try simp
    rw [foldl_spad]
    · try simp
    · intro t b
      split <;> rfl

@[simp] theorem State.write7100_spad (s : State) (a1) (a2) (a3) (a4) : (State.write7100 s a1 a2 a3 a4).1.spad = s.spad := by
  unfold State.write7100
  dsimp only
  (repeat' split) <;> simp

@[simp] theorem State.putImage_spad (s : State) (a1) (a2) : (State.putImage s a1 a2).1.spad = s.spad := by
  unfold State.putImage
  split <;> simp

@[simp] theorem State.startTrial_spad (s : State) (a1) (a2) : (State.startTrial s a1 a2).1.spad = s.spad := by
  unfold State.startTrial
  dsimp only
  (repeat' split) <;> simp

@[simp] theorem State.requestShutdown_spad (s : State) : (State.requestShutdown s).1.spad = s.spad := by
  unfold State.requestShutdown
  split <;> simp

@[simp] theorem State.requestDrain_spad (s : State) (a1) : (State.requestDrain s a1).1.spad = s.spad := by
  simp [State.requestDrain]

@[simp] theorem State.clearFlag_spad (s : State) (a1) : (State.clearFlag s a1).1.spad = s.spad := by
  simp [State.clearFlag]

@[simp] theorem State.flushNow_spad (s : State) (a1) : (State.flushNow s a1).1.spad = s.spad := by
  simp [State.flushNow]

@[simp] theorem State.installAnchor_spad (s : State) (a1) (a2) (a3) : (State.installAnchor s a1 a2 a3).1.spad = s.spad := by
  unfold State.installAnchor
  dsimp only
  (repeat' split) <;> simp

@[simp] theorem State.removeAnchor_spad (s : State) (a1) (a2) : (State.removeAnchor s a1 a2).1.spad = s.spad := by
  unfold State.removeAnchor
  dsimp only
  (repeat' split) <;> simp

@[simp] theorem State.writeF020_spad (s : State) (a1) (a2) (a3) (a4) : (State.writeF020 s a1 a2 a3 a4).1.spad = s.spad := by
  unfold State.writeF020
  (repeat' split) <;> simp

@[simp] theorem State.setPending_spad (s : State) (a1) (a2) (a3) (a4) : (State.setPending s a1 a2 a3 a4).spad = s.spad := by
  simp [State.setPending]

@[simp] theorem State.dictStage_spad (s : State) (a1) (a2) (a3) (a4) (a5) :
    (State.dictStage s a1 a2 a3 a4 a5).1.spad = s.spad := by
  unfold State.dictStage
  dsimp only
  (repeat' split) <;> simp

@[simp] theorem State.changeRec_spad (s : State) (a1) (a2) (a3) (a4) : (State.changeRec s a1 a2 a3 a4).spad = s.spad := by
  simp [State.changeRec]

@[simp] theorem State.keep_spad (s : State) (a1) (a2) : (State.keep s a1 a2).spad = s.spad := by
  simp [State.keep]

@[simp] theorem State.refuseItem_spad (s : State) (a1) (a2) (a3) (a4) : (State.refuseItem s a1 a2 a3 a4).spad = s.spad := by
  simp [State.refuseItem]

@[simp] theorem State.tryItem_spad (s : State) (a1) (a2) (a3) (a4 : Effect) (h : ∀ t, True ∧ ((a4 t).1).spad = t.spad) :
    (State.tryItem s a1 a2 a3 a4).1.spad = s.spad := by
  simp only [State.tryItem]
  (repeat' split) <;> simp_all

@[simp] theorem State.wrappingKey_spad (s : State) (a1) (a2) : (State.wrappingKey s a1 a2).1.spad = s.spad := by
  simp [State.wrappingKey]

@[simp] theorem State.readItem_spad (s : State) (a1) (a2) : (State.readItem s a1 a2).1.spad = s.spad := by
  unfold State.readItem
  dsimp only
  (repeat' split) <;> simp

@[simp] theorem State.readItems_spad (s : State) (a1) (a2) : (State.readItems s a1 a2).1.spad = s.spad := by
  induction a2 generalizing s with
  | nil => rfl
  | cons i t ih =>
    unfold State.readItems
    simp [ih]

@[simp] theorem State.uoaDrop_spad (s : State) : (State.uoaDrop s).spad = s.spad := by
  simp [State.uoaDrop]

@[simp] theorem State.resendReply_spad (s : State) (a1) (a2) : (State.resendReply s a1 a2).spad = s.spad := by
  unfold State.resendReply
  split <;> simp

@[simp] theorem State.reply_spad (s : State) (a1) (a2) (a3) (a4) (a5) : (State.reply s a1 a2 a3 a4 a5).spad = s.spad := by
  simp [State.reply]

@[simp] theorem State.uoaRequest_spad (s : State) (a1) (a2) (a3) (a4) (a5) (a6 : UoaSess → State → State × List UItem) (h : ∀ u t, True ∧ ((a6 u t).1).spad = t.spad) : (State.uoaRequest s a1 a2 a3 a4 a5 a6).spad = s.spad := by
  simp only [State.uoaRequest]
  (repeat' split) <;> simp_all

@[simp] theorem State.writeOne_spad (s : State) (a1) (a2) (a3) (a4) (a5 : UoaSess → Effect) (h : ∀ u t, True ∧ ((a5 u t).1).spad = t.spad) : (State.writeOne s a1 a2 a3 a4 a5).spad = s.spad := by
  unfold State.writeOne
  extract_lets
  (repeat' split) <;> simp [*]

@[simp] theorem State.helloReply_spad (s : State) (a1) (a2) (a3) : (State.helloReply s a1 a2 a3).spad = s.spad := by
  simp [State.helloReply]

@[simp] theorem State.hsFail_spad (s : State) : (State.hsFail s).spad = s.spad := by
  simp [State.hsFail]

@[simp] theorem State.withFetchWord_spad (s : State) (a1) (a2) : (State.withFetchWord s a1 a2).spad = s.spad := by
  unfold State.withFetchWord
  split <;> simp

/-! ## Operations that write the scratchpad -/

theorem foldl_spad_wf {α : Type} (g : State → α → State)
    (h : ∀ t a, Cells.wf t.spad = true → Cells.wf (g t a).spad = true) (l : List α) (s : State) (hs : Cells.wf s.spad = true) :
    Cells.wf (l.foldl g s).spad = true := by
  induction l generalizing s with
  | nil => exact hs
  | cons a t ih => exact ih _ (h s a hs)

@[simp] theorem foldl_spad_wf_simp {α : Type} (g : State → α → State) (l : List α) (s : State)
    (h : True ∧ ∀ t a, Cells.wf t.spad = true → Cells.wf (g t a).spad = true) (hs : Cells.wf s.spad = true) :
    Cells.wf (l.foldl g s).spad = true := foldl_spad_wf g h.2 l s hs

theorem foldlp_spad_wf {α β : Type} (g : State × β → α → State × β)
    (h : ∀ x a, Cells.wf x.1.spad = true → Cells.wf (g x a).1.spad = true) (l : List α) (z : State × β) (hz : Cells.wf z.1.spad = true) :
    Cells.wf (l.foldl g z).1.spad = true := by
  induction l generalizing z with
  | nil => exact hz
  | cons a t ih => exact ih _ (h z a hz)

@[simp] theorem State.readStore_spad_wf (s : State) (a1) (a2) (a3 : State → State) (h : ∀ t, Cells.wf t.spad = true → Cells.wf (a3 t).spad = true) (hs : Cells.wf s.spad = true) :
    Cells.wf (State.readStore s a1 a2 a3).spad = true := by
  unfold State.readStore
  split
  · exact h _ hs
  · exact h _ (by simp [hs])
  · simp [hs]

@[simp] theorem State.issueAt_spad_wf (s : State) (a1) (a2) (a3) (a4) (a5) (a6 : State → State) (h : ∀ t, Cells.wf t.spad = true → Cells.wf (a6 t).spad = true) (hs : Cells.wf s.spad = true) :
    Cells.wf (State.issueAt s a1 a2 a3 a4 a5 a6).spad = true := by
  unfold State.issueAt
  split
  · exact hs
  · refine State.readStore_spad_wf _ _ _ _ (fun t ht => ?_) hs
    try dsimp only
    (repeat' split) <;> first | exact h _ (by simp [ht]) | simp [ht]

@[simp] theorem State.issue_spad_wf (s : State) (a1) (a2) (a3) (a4) (a5 : State → State) (h : ∀ t, Cells.wf t.spad = true → Cells.wf (a5 t).spad = true) (hs : Cells.wf s.spad = true) :
    Cells.wf (State.issue s a1 a2 a3 a4 a5).spad = true := by
  unfold State.issue
  exact State.issueAt_spad_wf _ _ _ _ _ _ _ h hs

@[simp] theorem State.useWideAt_spad_wf (s : State) (a1) (a2) (a3) (a4) (a5 : State → State) (h : ∀ t, Cells.wf t.spad = true → Cells.wf (a5 t).spad = true) (hs : Cells.wf s.spad = true) :
    Cells.wf (State.useWideAt s a1 a2 a3 a4 a5).spad = true := by
  unfold State.useWideAt
  split
  · simp [hs]
  · exact h _ (by simp [hs])

@[simp] theorem State.useWide_spad_wf (s : State) (a1) (a2) (a3) (a4 : State → State) (h : ∀ t, Cells.wf t.spad = true → Cells.wf (a4 t).spad = true) (hs : Cells.wf s.spad = true) :
    Cells.wf (State.useWide s a1 a2 a3 a4).spad = true := by
  unfold State.useWide
  (try dsimp only)
  (repeat' split) <;> first | (simp_all; done) | (rename_i e; have k := congrArg (fun r => Cells.wf r.1.spad) e; simp [hs] at k; simp [k]; done)

@[simp] theorem State.settle_spad_wf (s : State) (a1) (a2) (hs : Cells.wf s.spad = true) :
    Cells.wf (State.settle s a1 a2).spad = true := by
  unfold State.settle
  try dsimp only
  split
  · exact hs
  · exact foldl_spad_wf _ (fun t a ht => by simp [ht]) _ _ (by simpa using hs)

@[simp] theorem State.settleLines_spad_wf (s : State) (a1) (a2) (a3) (hs : Cells.wf s.spad = true) :
    Cells.wf (State.settleLines s a1 a2 a3).spad = true := by
  unfold State.settleLines
  try dsimp only
  split
  · exact hs
  · exact foldl_spad_wf _ (fun t a ht => by simp [ht]) _ _ (by simpa using hs)

@[simp] theorem State.writeLines_spad_wf (s : State) (a1) (a2) (a3) (hs : Cells.wf s.spad = true) :
    Cells.wf (State.writeLines s a1 a2 a3).spad = true := by
  unfold State.writeLines
  exact foldl_spad_wf _ (fun t a ht => by simp [ht]) _ _ (by simp [hs])

@[simp] theorem State.readChecked_spad_wf (s : State) (a1) (a2) (a3) (a4) (a5) (a6 : State → State) (h : ∀ t, Cells.wf t.spad = true → Cells.wf (a6 t).spad = true) (hs : Cells.wf s.spad = true) :
    Cells.wf (State.readChecked s a1 a2 a3 a4 a5 a6).spad = true := by
  unfold State.readChecked
  split <;> (rename_i e; have k := congrArg (fun r => Cells.wf r.1.spad) e; simp [hs] at k)
  · exact h _ k
  · simp [k]

@[simp] theorem State.readReg_spad_wf (s : State) (a1) (a2) (a3) (a4) (a5) (a6 : RegOut → AccReg → State → State) (h : ∀ r x t, Cells.wf t.spad = true → Cells.wf (a6 r x t).spad = true) (hs : Cells.wf s.spad = true) :
    Cells.wf (State.readReg s a1 a2 a3 a4 a5 a6).spad = true := by
  unfold State.readReg
  dsimp only
  (repeat' split) <;> simp_all

@[simp] theorem State.vecChecked_spad_wf (s : State) (a1) (a2) (a3) (a4) (a5) (a6 : State → State) (h : ∀ t, Cells.wf t.spad = true → Cells.wf (a6 t).spad = true) (hs : Cells.wf s.spad = true) :
    Cells.wf (State.vecChecked s a1 a2 a3 a4 a5 a6).spad = true := by
  unfold State.vecChecked
  (repeat' split) <;> first | exact h _ hs | simp [hs]

@[simp] theorem State.vecOp_spad_wf (s : State) (a1) (a2) (a3) (a4 : State → State) (h : ∀ t, Cells.wf t.spad = true → Cells.wf (a4 t).spad = true) (hs : Cells.wf s.spad = true) :
    Cells.wf (State.vecOp s a1 a2 a3 a4).spad = true := by
  unfold State.vecOp
  refine State.issue_spad_wf _ _ _ _ _ _ (fun t ht => ?_) hs
  exact State.vecChecked_spad_wf _ _ _ _ _ _ _ h ht

@[simp] theorem State.vecLine_spad_wf (s : State) (a1) (a2) (a3) (a4) (a5) (a6) (a7 : State → State) (h : ∀ t, Cells.wf t.spad = true → Cells.wf (a7 t).spad = true) (hs : Cells.wf s.spad = true) :
    Cells.wf (State.vecLine s a1 a2 a3 a4 a5 a6 a7).spad = true := by
  unfold State.vecLine
  refine State.issue_spad_wf _ _ _ _ _ _ (fun t ht => ?_) hs
  try dsimp only
  split
  · simpa using ht
  · refine State.useWide_spad_wf _ _ _ _ _ (fun u hu => ?_) ht
    refine State.readChecked_spad_wf _ _ _ _ _ _ _ (fun u hu => ?_) hu
    exact State.vecChecked_spad_wf _ _ _ _ _ _ _ h hu

@[simp] theorem State.readOwn_spad_wf (s : State) (a1) (a2) (hs : Cells.wf s.spad = true) :
    Cells.wf (State.readOwn s a1 a2).1.spad = true := by
  simp [State.readOwn, *]

@[simp] theorem State.readLanes_spad_wf (s : State) (a1) (a2) (a3) (a4) (a5 : State → State) (h : ∀ t, Cells.wf t.spad = true → Cells.wf (a5 t).spad = true) (hs : Cells.wf s.spad = true) :
    Cells.wf (State.readLanes s a1 a2 a3 a4 a5).spad = true := by
  unfold State.readLanes
  (try dsimp only)
  (repeat' split) <;> first | (simp_all; done) | (rename_i e; have k := congrArg (fun r => Cells.wf r.1.spad) e; simp [hs] at k; simp [k]; done)

@[simp] theorem State.writeBurst_spad_wf (s : State) (a1) (a2) (a3) (a4) (hs : Cells.wf s.spad = true) :
    Cells.wf (State.writeBurst s a1 a2 a3 a4).spad = true := by
  simp [State.writeBurst, *]

@[simp] theorem State.closeGroup_spad_wf (s : State) (a1) (hs : Cells.wf s.spad = true) :
    Cells.wf (State.closeGroup s a1).spad = true := by
  unfold State.closeGroup
  try dsimp only
  simp
  exact foldl_spad_wf _ (fun t b ht => by simp [ht]) _ _ hs

@[simp] theorem State.vecWordOp_spad_wf (s : State) (a1) (a2) (a3) (a4) (a5 : State → State) (h : ∀ t, Cells.wf t.spad = true → Cells.wf (a5 t).spad = true) (hs : Cells.wf s.spad = true) :
    Cells.wf (State.vecWordOp s a1 a2 a3 a4 a5).spad = true := by
  unfold State.vecWordOp
  refine State.issue_spad_wf _ _ _ _ _ _ (fun t ht => ?_) hs
  try dsimp only
  split
  · simpa using ht
  · refine State.readChecked_spad_wf _ _ _ _ _ _ _ (fun u hu => ?_) (by simpa using ht)
    exact State.vecChecked_spad_wf _ _ _ _ _ _ _ h hu

@[simp] theorem State.withCredit_spad_wf (s : State) (a1) (a2) (a3) (a4) (a5) (a6) (a7 : State → State) (h : ∀ t, Cells.wf t.spad = true → Cells.wf (a7 t).spad = true) (hs : Cells.wf s.spad = true) :
    Cells.wf (State.withCredit s a1 a2 a3 a4 a5 a6 a7).spad = true := by
  unfold State.withCredit
  (repeat' split) <;> simp [*]

@[simp] theorem State.issueLast_spad_wf (s : State) (a1) (a2) (a3) (a4 : State → State) (h : ∀ t, Cells.wf t.spad = true → Cells.wf (a4 t).spad = true) (hs : Cells.wf s.spad = true) :
    Cells.wf (State.issueLast s a1 a2 a3 a4).spad = true := by
  unfold State.issueLast
  dsimp only
  (repeat' split) <;> simp_all

@[simp] theorem State.landTile_spad_wf (s : State) (a1) (a2) (hs : Cells.wf s.spad = true) :
    Cells.wf (State.landTile s a1 a2).spad = true := by
  unfold State.landTile
  dsimp only
  (repeat' split) <;> simp_all

@[simp] theorem State.deliver_spad_wf (s : State) (a1) (a2) (a3) (a4 : State → State) (h : ∀ t, Cells.wf t.spad = true → Cells.wf (a4 t).spad = true) (hs : Cells.wf s.spad = true) :
    Cells.wf (State.deliver s a1 a2 a3 a4).spad = true := by
  unfold State.deliver
  split
  · simp [hs]
  · extract_lets s1 atStack
    have k : Cells.wf s1.spad = true := by
      simp only [s1]
      split <;> simp [hs]
    clear_value s1 atStack
    (repeat' split) <;> first | exact h _ k | simp [k]

@[simp] theorem State.startFrame_spad_wf (s : State) (a1) (hs : Cells.wf s.spad = true) :
    Cells.wf (State.startFrame s a1).spad = true := by
  unfold State.startFrame
  have e := foldl_spad_wf (fun t n => State.settle t n 4096) (fun t n ht => by simp [ht]) (s.tiles.map (fun x => x.1)) s hs
  dsimp only
  split <;> simp [e]

@[simp] theorem State.zeroBlocks_spad_wf (s : State) (a1) (a2) (hs : Cells.wf s.spad = true) :
    Cells.wf (State.zeroBlocks s a1 a2).spad = true := by
  simp [State.zeroBlocks, *]

@[simp] theorem State.reloadRetained_spad_wf (s : State) (a1) (a2) (hs : Cells.wf s.spad = true) :
    Cells.wf (State.reloadRetained s a1 a2).spad = true := by
  unfold State.reloadRetained
  have e : ∀ (l : List Host.Cell) (m : Cells), Cells.wf m = true →
      Cells.wf (l.foldl (fun m c => Cells.write m c.1 [c.2]) m) = true := by
    intro l
    induction l with
    | nil => exact fun m h => h
    | cons c t ih => exact fun m h => ih _ (Cells.wf_write _ _ _ h)
  exact e _ _ (State.zeroBlocks_spad_wf _ _ _ hs)

@[simp] theorem State.undo_spad_wf (s : State) (a1) (a2) (hs : Cells.wf s.spad = true) :
    Cells.wf (State.undo s a1 a2).spad = true := by
  unfold State.undo
  have e : ∀ (l : List Host.Cell) (m : Cells), Cells.wf m = true →
      Cells.wf (l.foldl (fun m c => Cells.write m c.1 [c.2]) m) = true := by
    intro l
    induction l with
    | nil => exact fun m h => h
    | cons c t ih => exact fun m h => ih _ (Cells.wf_write _ _ _ h)
  try dsimp only
  split <;> simp
  · exact e _ _ (Cells.wf_filter _ _ hs)
  · exact hs

@[simp] theorem State.takePartials_spad_wf (s : State) (a1) (a2) (hs : Cells.wf s.spad = true) :
    Cells.wf (State.takePartials s a1 a2).spad = true := by
  unfold State.takePartials
  try dsimp only
  split
  · simpa using hs
  · exact foldl_spad_wf _ (fun t a ht => by simp [ht]) _ _ hs

@[simp] theorem State.stopForLock_spad_wf (s : State) (hs : Cells.wf s.spad = true) :
    Cells.wf (State.stopForLock s).spad = true := by
  unfold State.stopForLock
  dsimp only
  (repeat' split) <;> simp_all

@[simp] theorem State.frameEffect_spad_wf (s : State) (a1) (a2) (hs : Cells.wf s.spad = true) :
    Cells.wf (State.frameEffect s a1 a2).spad = true := by
  unfold State.frameEffect
  split
  · exact hs
  · split <;> first | exact hs | simp [hs]

@[simp] theorem State.catchUp_spad_wf (s : State) (a1) (a2) (hs : Cells.wf s.spad = true) :
    Cells.wf (State.catchUp s a1 a2).spad = true := by
  induction a2 generalizing s with
  | zero => exact hs
  | succ n ih =>
    unfold State.catchUp
    try dsimp only
    split
    · refine ih _ ?_
      split
      · split <;> simp [hs]
      · simpa using hs
    · exact hs

@[simp] theorem State.inSequence_spad_wf (s : State) (a1) (a2) (a3) (a4) (hs : Cells.wf s.spad = true) :
    Cells.wf (State.inSequence s a1 a2 a3 a4).spad = true := by
  unfold State.inSequence
  dsimp only
  (repeat' split) <;> simp_all

@[simp] theorem State.receive_spad_wf (s : State) (a1) (a2) (hs : Cells.wf s.spad = true) :
    Cells.wf (State.receive s a1 a2).spad = true := by
  unfold State.receive
  dsimp only
  split
  · exact hs
  · split
    · exact hs
    · split
      · split <;> simp [hs]
      · (repeat' split) <;> simp [hs]
      · exact hs

@[simp] theorem State.coldReset_spad_wf (s : State) (hs : Cells.wf s.spad = true) :
    Cells.wf (State.coldReset s).spad = true := by
  simp [State.coldReset, *]

@[simp] theorem State.warmReset_spad_wf (s : State) (hs : Cells.wf s.spad = true) :
    Cells.wf (State.warmReset s).spad = true := by
  unfold State.warmReset
  (repeat' split) <;> simp [*]

@[simp] theorem State.requestWarm_spad_wf (s : State) (hs : Cells.wf s.spad = true) :
    Cells.wf (State.requestWarm s).1.spad = true := by
  unfold State.requestWarm
  (repeat' split) <;> simp [*]

@[simp] theorem State.requestCold_spad_wf (s : State) (hs : Cells.wf s.spad = true) :
    Cells.wf (State.requestCold s).1.spad = true := by
  simp [State.requestCold, *]

@[simp] theorem State.writeF000_spad_wf (s : State) (a1) (a2) (hs : Cells.wf s.spad = true) :
    Cells.wf (State.writeF000 s a1 a2).1.spad = true := by
  unfold State.writeF000
  dsimp only
  (repeat' split) <;> simp_all

@[simp] theorem State.dictWrite_spad_wf (s : State) (a1) (a2) (a3) (a4) (a5) (hs : Cells.wf s.spad = true) :
    Cells.wf (State.dictWrite s a1 a2 a3 a4 a5).1.spad = true := by
  unfold State.dictWrite
  (repeat' split) <;> simp [*]

@[simp] theorem State.tryItem_spad_wf (s : State) (a1) (a2) (a3) (a4 : Effect) (h : ∀ t, Cells.wf t.spad = true → Cells.wf ((a4 t).1).spad = true) (hs : Cells.wf s.spad = true) :
    Cells.wf (State.tryItem s a1 a2 a3 a4).1.spad = true := by
  unfold State.tryItem
  dsimp only
  (repeat' split) <;> simp_all

@[simp] theorem Item.effect_spad_wf (a1) (a2) (s : State) (hs : Cells.wf s.spad = true) :
    Cells.wf (Item.effect a1 a2 s).1.spad = true := by
  unfold Item.effect
  split <;> simp [hs]

@[simp] theorem State.runItems_spad_wf (s : State) (a1) (a2) (a3) (hs : Cells.wf s.spad = true) :
    Cells.wf (State.runItems s a1 a2 a3).1.spad = true := by
  induction a3 generalizing s with
  | nil => exact hs
  | cons i t ih =>
    unfold State.runItems
    try dsimp only
    exact ih _ (State.tryItem_spad_wf _ _ _ _ _ (fun t ht => by simp [ht]) hs)

@[simp] theorem State.uoaRequest_spad_wf (s : State) (a1) (a2) (a3) (a4) (a5) (a6 : UoaSess → State → State × List UItem) (h : ∀ u t, Cells.wf t.spad = true → Cells.wf ((a6 u t).1).spad = true) (hs : Cells.wf s.spad = true) :
    Cells.wf (State.uoaRequest s a1 a2 a3 a4 a5 a6).spad = true := by
  unfold State.uoaRequest
  dsimp only
  (repeat' split) <;> simp_all

@[simp] theorem State.writeOne_spad_wf (s : State) (a1) (a2) (a3) (a4) (a5 : UoaSess → Effect) (h : ∀ u t, Cells.wf t.spad = true → Cells.wf ((a5 u t).1).spad = true) (hs : Cells.wf s.spad = true) :
    Cells.wf (State.writeOne s a1 a2 a3 a4 a5).spad = true := by
  unfold State.writeOne
  refine State.uoaRequest_spad_wf _ _ _ _ _ _ _ (fun u t ht => ?_) hs
  exact State.tryItem_spad_wf _ _ _ _ _ (fun t ht => h u t ht) ht

@[simp] theorem State.writeOwn_spad_wf (s : State) (a1) (a2) (a3) (a4) (hs : Cells.wf s.spad = true) :
    Cells.wf (State.writeOwn s a1 a2 a3 a4).spad = true := by
  unfold State.writeOwn
  exact State.writeOne_spad_wf _ _ _ _ _ _ (fun u t ht => by simp [ht]) hs

end Sys2Proof.Machine
end

