-- ==== Sys2Proof/Laws/KeepsStack.lean ====
section
/-! SUPPORT. Which operations leave the data space of the stacks as it is, and that the others keep its canonical form. -/

namespace Sys2Proof.Machine

set_option linter.all false

@[simp] theorem ite_mem_data {c : Prop} [Decidable c] (a b : State) :
    (if c then a else b).mem.data = if c then a.mem.data else b.mem.data :=
  apply_ite (fun s => s.mem.data) c a b

theorem foldl_mem_data {α : Type} (g : State → α → State) (h : ∀ t a, (g t a).mem.data = t.mem.data) (l : List α) (s : State) :
    (l.foldl g s).mem.data = s.mem.data := by
  induction l generalizing s with
  | nil => rfl
  | cons a t ih => rw [List.foldl_cons, ih, h]

/-- The form that simp applies: the conjunction with True keeps its proof of the premise from being definitional. -/
@[simp] theorem foldl_mem_data_simp {α : Type} (g : State → α → State) (h : ∀ t a, True ∧ (g t a).mem.data = t.mem.data) (l : List α)
    (s : State) : (l.foldl g s).mem.data = s.mem.data := foldl_mem_data g (fun t a => (h t a).2) l s

theorem foldlp_mem_data {α β : Type} (g : State × β → α → State × β) (h : ∀ x a, (g x a).1.mem.data = x.1.mem.data) (l : List α) (z : State × β) :
    (l.foldl g z).1.mem.data = z.1.mem.data := by
  induction l generalizing z with
  | nil => rfl
  | cons a t ih => rw [List.foldl_cons, ih, h]

@[simp] theorem State.setTile_mem_data (s : State) (a1) (a2) : (State.setTile s a1 a2).mem.data = s.mem.data := by
  simp [State.setTile]

@[simp] theorem State.updTile_mem_data (s : State) (a1) (a2) : (State.updTile s a1 a2).mem.data = s.mem.data := by
  simp [State.updTile]

@[simp] theorem State.mapTiles_mem_data (s : State) (a1) : (State.mapTiles s a1).mem.data = s.mem.data := by
  simp [State.mapTiles]

@[simp] theorem State.setArray_mem_data (s : State) (a1) (a2) : (State.setArray s a1 a2).mem.data = s.mem.data := by
  simp [State.setArray]

@[simp] theorem State.updArray_mem_data (s : State) (a1) (a2) : (State.updArray s a1 a2).mem.data = s.mem.data := by
  simp [State.updArray]

@[simp] theorem State.setPart_mem_data (s : State) (a1) (a2) : (State.setPart s a1 a2).mem.data = s.mem.data := by
  simp [State.setPart]

@[simp] theorem State.updPart_mem_data (s : State) (a1) (a2) : (State.updPart s a1 a2).mem.data = s.mem.data := by
  simp [State.updPart]

@[simp] theorem State.mapParts_mem_data (s : State) (a1) : (State.mapParts s a1).mem.data = s.mem.data := by
  simp [State.mapParts]

@[simp] theorem State.setAcct_mem_data (s : State) (a1) (a2) : (State.setAcct s a1 a2).mem.data = s.mem.data := by
  simp [State.setAcct]

@[simp] theorem State.updAcct_mem_data (s : State) (a1) (a2) : (State.updAcct s a1 a2).mem.data = s.mem.data := by
  simp [State.updAcct]

@[simp] theorem State.mapAccts_mem_data (s : State) (a1) : (State.mapAccts s a1).mem.data = s.mem.data := by
  simp [State.mapAccts]

@[simp] theorem State.setLink_mem_data (s : State) (a1) (a2) : (State.setLink s a1 a2).mem.data = s.mem.data := by
  simp [State.setLink]

@[simp] theorem State.updLink_mem_data (s : State) (a1) (a2) : (State.updLink s a1 a2).mem.data = s.mem.data := by
  simp [State.updLink]

@[simp] theorem State.setModule_mem_data (s : State) (a1) (a2) : (State.setModule s a1 a2).mem.data = s.mem.data := by
  simp [State.setModule]

@[simp] theorem State.updModule_mem_data (s : State) (a1) (a2) : (State.updModule s a1 a2).mem.data = s.mem.data := by
  simp [State.updModule]

@[simp] theorem State.setSess_mem_data (s : State) (a1) (a2) : (State.setSess s a1 a2).mem.data = s.mem.data := by
  simp [State.setSess]

@[simp] theorem State.updSess_mem_data (s : State) (a1) (a2) : (State.updSess s a1 a2).mem.data = s.mem.data := by
  simp [State.updSess]

@[simp] theorem State.setWindow_mem_data (s : State) (a1) (a2) : (State.setWindow s a1 a2).mem.data = s.mem.data := by
  simp [State.setWindow]

@[simp] theorem State.setPort_mem_data (s : State) (a1) (a2) : (State.setPort s a1 a2).mem.data = s.mem.data := by
  simp [State.setPort]

@[simp] theorem State.updPort_mem_data (s : State) (a1) (a2) : (State.updPort s a1 a2).mem.data = s.mem.data := by
  simp [State.updPort]

@[simp] theorem State.updStack_mem_data (s : State) (a1) (a2) : (State.updStack s a1 a2).mem.data = s.mem.data := by
  simp [State.updStack]

@[simp] theorem State.updEngine_mem_data (s : State) (a1) (a2) : (State.updEngine s a1 a2).mem.data = s.mem.data := by
  simp [State.updEngine]

@[simp] theorem State.updCtx_mem_data (s : State) (a1) (a2) : (State.updCtx s a1 a2).mem.data = s.mem.data := by
  simp [State.updCtx]

@[simp] theorem State.updRouter_mem_data (s : State) (a1) (a2) : (State.updRouter s a1 a2).mem.data = s.mem.data := by
  simp [State.updRouter]

@[simp] theorem State.updFu_mem_data (s : State) (a1) : (State.updFu s a1).mem.data = s.mem.data := by
  simp [State.updFu]

@[simp] theorem State.updHealth_mem_data (s : State) (a1) : (State.updHealth s a1).mem.data = s.mem.data := by
  simp [State.updHealth]

@[simp] theorem State.updLedger_mem_data (s : State) (a1) : (State.updLedger s a1).mem.data = s.mem.data := by
  simp [State.updLedger]

@[simp] theorem State.updMgmt_mem_data (s : State) (a1) : (State.updMgmt s a1).mem.data = s.mem.data := by
  simp [State.updMgmt]

@[simp] theorem State.updDict_mem_data (s : State) (a1) : (State.updDict s a1).mem.data = s.mem.data := by
  simp [State.updDict]

@[simp] theorem State.updPower_mem_data (s : State) (a1) : (State.updPower s a1).mem.data = s.mem.data := by
  simp [State.updPower]

@[simp] theorem State.updHost_mem_data (s : State) (a1) : (State.updHost s a1).mem.data = s.mem.data := by
  simp [State.updHost]

@[simp] theorem State.updMesh_mem_data (s : State) (a1) : (State.updMesh s a1).mem.data = s.mem.data := by
  simp [State.updMesh]

@[simp] theorem State.updRec_mem_data (s : State) (a1) : (State.updRec s a1).mem.data = s.mem.data := by
  simp [State.updRec]

@[simp] theorem State.updDawn_mem_data (s : State) (a1) : (State.updDawn s a1).mem.data = s.mem.data := by
  simp [State.updDawn]

@[simp] theorem State.freed_mem_data (s : State) : (State.freed s).mem.data = s.mem.data := by
  simp [State.freed]

@[simp] theorem State.reach_mem_data (s : State) (a1) : (State.reach s a1).mem.data = s.mem.data := by
  simp [State.reach]

@[simp] theorem State.pushRec_mem_data (s : State) (a1) (a2) : (State.pushRec s a1 a2).mem.data = s.mem.data := by
  simp [State.pushRec]

@[simp] theorem State.record_mem_data (s : State) (a1) : (State.record s a1).mem.data = s.mem.data := by
  simp [State.record]

@[simp] theorem State.assertSrc_mem_data (s : State) (a1) : (State.assertSrc s a1).mem.data = s.mem.data := by
  simp [State.assertSrc]

@[simp] theorem State.raise_mem_data (s : State) (a1) (a2) : (State.raise s a1 a2).mem.data = s.mem.data := by
  unfold State.raise
  split <;> simp

@[simp] theorem State.event_mem_data (s : State) (a1) (a2) (a3) (a4) (a5) (a6) (a7) :
    (State.event s a1 a2 a3 a4 a5 a6 a7).mem.data = s.mem.data := by
  simp [State.event]

@[simp] theorem State.partEvent_mem_data (s : State) (a1) (a2) (a3) (a4) :
    (State.partEvent s a1 a2 a3 a4).mem.data = s.mem.data := by
  simp [State.partEvent]

@[simp] theorem State.arrayEvent_mem_data (s : State) (a1) (a2) (a3) (a4) :
    (State.arrayEvent s a1 a2 a3 a4).mem.data = s.mem.data := by
  simp [State.arrayEvent]

@[simp] theorem State.arrayStepEvent_mem_data (s : State) (a1) (a2) (a3) (a4) (a5) :
    (State.arrayStepEvent s a1 a2 a3 a4 a5).mem.data = s.mem.data := by
  simp [State.arrayStepEvent]

@[simp] theorem State.clearSrc_mem_data (s : State) (a1) : (State.clearSrc s a1).mem.data = s.mem.data := by
  simp [State.clearSrc]

@[simp] theorem State.flashWrite_mem_data (s : State) (a1) : (State.flashWrite s a1).mem.data = s.mem.data := by
  simp [State.flashWrite]

@[simp] theorem State.sendOn_mem_data (s : State) (a1) (a2) : (State.sendOn s a1 a2).mem.data = s.mem.data := by
  simp [State.sendOn]

@[simp] theorem State.flood_mem_data (s : State) (a1) (a2) : (State.flood s a1 a2).mem.data = s.mem.data := by
  simp [State.flood]

@[simp] theorem State.endHoldWith_mem_data (s : State) (a1) (a2) : (State.endHoldWith s a1 a2).mem.data = s.mem.data := by
  simp [State.endHoldWith]

@[simp] theorem State.dropWaits_mem_data (s : State) (a1) : (State.dropWaits s a1).mem.data = s.mem.data := by
  unfold State.dropWaits
  split <;> simp

@[simp] theorem State.abortHere_mem_data (s : State) (a1) (a2) (a3) (a4) :
    (State.abortHere s a1 a2 a3 a4).mem.data = s.mem.data := by
  unfold State.abortHere
  dsimp only
  (repeat' split) <;> simp

@[simp] theorem State.abortOne_mem_data (s : State) (a1) (a2) (a3) : (State.abortOne s a1 a2 a3).mem.data = s.mem.data := by
  simp [State.abortOne]

@[simp] theorem State.abortAll_mem_data (s : State) (a1) (a2) (a3) : (State.abortAll s a1 a2 a3).mem.data = s.mem.data := by
  simp [State.abortAll]

@[simp] theorem State.twilight_mem_data (s : State) (a1) : (State.twilight s a1).mem.data = s.mem.data := by
  simp [State.twilight]

@[simp] theorem State.tryFreePart_mem_data (s : State) (a1) : (State.tryFreePart s a1).mem.data = s.mem.data := by
  simp [State.tryFreePart]

@[simp] theorem State.sendMsg_mem_data (s : State) (a1) (a2) (a3) (a4) (a5) (a6) :
    (State.sendMsg s a1 a2 a3 a4 a5 a6).mem.data = s.mem.data := by
  simp [State.sendMsg]

@[simp] theorem State.countFault_mem_data (s : State) (a1) : (State.countFault s a1).mem.data = s.mem.data := by
  unfold State.countFault
  (repeat' split) <;> simp

@[simp] theorem State.setReport_mem_data (s : State) (a1) (a2) : (State.setReport s a1 a2).mem.data = s.mem.data := by
  unfold State.setReport
  split <;> simp

@[simp] theorem State.report_mem_data (s : State) (a1) : (State.report s a1).mem.data = s.mem.data := by
  unfold State.report
  (repeat' split) <;> simp

@[simp] theorem State.abortTag_mem_data (s : State) (a1) (a2) : (State.abortTag s a1 a2).mem.data = s.mem.data := by
  simp [State.abortTag]

@[simp] theorem State.fault_mem_data (s : State) (a1) : (State.fault s a1).mem.data = s.mem.data := by
  simp [State.fault]

@[simp] theorem State.vaultFault_mem_data (s : State) (a1) : (State.vaultFault s a1).mem.data = s.mem.data := by
  simp [State.vaultFault]

@[simp] theorem State.faultDrop_mem_data (s : State) (a1) : (State.faultDrop s a1).mem.data = s.mem.data := by
  simp [State.faultDrop]

@[simp] theorem State.faultWide_mem_data (s : State) (a1) : (State.faultWide s a1).mem.data = s.mem.data := by
  simp [State.faultWide]

@[simp] theorem State.collision_mem_data (s : State) (a1) : (State.collision s a1).mem.data = s.mem.data := by
  simp [State.collision]

@[simp] theorem State.setPadLine_mem_data (s : State) (a1) (a2) (a3) : (State.setPadLine s a1 a2 a3).mem.data = s.mem.data := by
  simp [State.setPadLine]

@[simp] theorem State.setPadWord_mem_data (s : State) (a1) (a2) (a3) : (State.setPadWord s a1 a2 a3).mem.data = s.mem.data := by
  simp [State.setPadWord]

@[simp] theorem State.updStrm_mem_data (s : State) (a1) (a2) : (State.updStrm s a1 a2).mem.data = s.mem.data := by
  simp [State.updStrm]

@[simp] theorem State.issueClash_mem_data (s : State) (a1) (a2) (a3) (a4) :
    (State.issueClash s a1 a2 a3 a4).mem.data = s.mem.data := by
  simp [State.issueClash]

@[simp] theorem State.advance_mem_data (s : State) (a1) (a2) (a3) : (State.advance s a1 a2 a3).mem.data = s.mem.data := by
  simp [State.advance]

@[simp] theorem State.storeFault_mem_data (s : State) (a1) (a2) : (State.storeFault s a1 a2).mem.data = s.mem.data := by
  simp [State.storeFault]

@[simp] theorem State.readStore_mem_data (s : State) (a1) (a2) (a3 : State → State) (h : ∀ t, True ∧ (a3 t).mem.data = t.mem.data) : (State.readStore s a1 a2 a3).mem.data = s.mem.data := by
  simp only [State.readStore]
  (repeat' split) <;> simp_all

@[simp] theorem State.issueAt_mem_data (s : State) (a1) (a2) (a3) (a4) (a5) (a6 : State → State) (h : ∀ t, True ∧ (a6 t).mem.data = t.mem.data) : (State.issueAt s a1 a2 a3 a4 a5 a6).mem.data = s.mem.data := by
  unfold State.issueAt
  split
  · rfl
  · apply State.readStore_mem_data
    intro u
    refine ⟨trivial, ?_⟩
    try dsimp only
    (repeat' split) <;> simp [h]

@[simp] theorem State.issue_mem_data (s : State) (a1) (a2) (a3) (a4) (a5 : State → State) (h : ∀ t, True ∧ (a5 t).mem.data = t.mem.data) : (State.issue s a1 a2 a3 a4 a5).mem.data = s.mem.data := by
  simp only [State.issue]
  (repeat' split) <;> simp_all

@[simp] theorem State.portConflict_mem_data (s : State) (a1) : (State.portConflict s a1).mem.data = s.mem.data := by
  simp [State.portConflict]

@[simp] theorem State.checkNarrow_mem_data (s : State) (a1) : (State.checkNarrow s a1).mem.data = s.mem.data := by
  unfold State.checkNarrow
  split <;> simp

@[simp] theorem State.useNarrow_mem_data (s : State) (a1) (a2) (a3) : (State.useNarrow s a1 a2 a3).mem.data = s.mem.data := by
  simp [State.useNarrow]

@[simp] theorem State.moveFill_mem_data (s : State) (a1) (a2) : (State.moveFill s a1 a2).mem.data = s.mem.data := by
  simp [State.moveFill]

@[simp] theorem State.yieldFills_mem_data (s : State) (a1) : (State.yieldFills s a1).mem.data = s.mem.data := by
  simp [State.yieldFills]

@[simp] theorem State.useWideAt_mem_data (s : State) (a1) (a2) (a3) (a4) (a5 : State → State) (h : ∀ t, True ∧ (a5 t).mem.data = t.mem.data) : (State.useWideAt s a1 a2 a3 a4 a5).mem.data = s.mem.data := by
  unfold State.useWideAt
  extract_lets
  (repeat' split) <;> simp [*]

@[simp] theorem State.useWide_mem_data (s : State) (a1) (a2) (a3) (a4 : State → State) (h : ∀ t, True ∧ (a4 t).mem.data = t.mem.data) : (State.useWide s a1 a2 a3 a4).mem.data = s.mem.data := by
  simp only [State.useWide]
  (repeat' split) <;> simp_all

@[simp] theorem State.settle_mem_data (s : State) (a1) (a2) : (State.settle s a1 a2).mem.data = s.mem.data := by
  simp [State.settle]

@[simp] theorem State.settleLines_mem_data (s : State) (a1) (a2) (a3) : (State.settleLines s a1 a2 a3).mem.data = s.mem.data := by
  simp [State.settleLines]

@[simp] theorem State.writeLines_mem_data (s : State) (a1) (a2) (a3) : (State.writeLines s a1 a2 a3).mem.data = s.mem.data := by
  simp [State.writeLines]

@[simp] theorem State.tagFault_mem_data (s : State) (a1) (a2) (a3) : (State.tagFault s a1 a2 a3).mem.data = s.mem.data := by
  simp [State.tagFault]

@[simp] theorem State.lateClash_mem_data (s : State) (a1) (a2) (a3) : (State.lateClash s a1 a2 a3).mem.data = s.mem.data := by
  simp [State.lateClash]

@[simp] theorem State.charge_mem_data (s : State) (a1) (a2) : (State.charge s a1 a2).mem.data = s.mem.data := by
  simp [State.charge]

@[simp] theorem State.readError_mem_data (s : State) (a1) (a2) (a3) : (State.readError s a1 a2 a3).1.mem.data = s.mem.data := by
  unfold State.readError
  dsimp only
  (repeat' split) <;> simp

@[simp] theorem State.checkLines_mem_data (s : State) (a1) (a2) (a3) (a4) :
    (State.checkLines s a1 a2 a3 a4).1.mem.data = s.mem.data := by
  unfold State.checkLines
  exact foldlp_mem_data _ (fun x e => by simp) _ _

@[simp] theorem State.ownFault_mem_data (s : State) (a1) (a2) (a3) (a4) :
    (State.ownFault s a1 a2 a3 a4).mem.data = s.mem.data := by
  simp [State.ownFault]

@[simp] theorem State.readChecked_mem_data (s : State) (a1) (a2) (a3) (a4) (a5) (a6 : State → State) (h : ∀ t, True ∧ (a6 t).mem.data = t.mem.data) : (State.readChecked s a1 a2 a3 a4 a5 a6).mem.data = s.mem.data := by
  unfold State.readChecked
  split <;> (rename_i e; have e := congrArg (fun r => r.1.mem.data) e; simp at e; simp [← e, h])

@[simp] theorem State.linkFail_mem_data (s : State) (a1) : (State.linkFail s a1).mem.data = s.mem.data := by
  simp [State.linkFail]

@[simp] theorem State.clearingFail_mem_data (s : State) (a1) (a2) (a3) (a4) :
    (State.clearingFail s a1 a2 a3 a4).mem.data = s.mem.data := by
  unfold State.clearingFail
  split <;> simp

@[simp] theorem State.recipeDisagreement_mem_data (s : State) (a1) : (State.recipeDisagreement s a1).mem.data = s.mem.data := by
  simp [State.recipeDisagreement]

@[simp] theorem State.summaryDone_mem_data (s : State) (a1) (a2) : (State.summaryDone s a1 a2).mem.data = s.mem.data := by
  simp [State.summaryDone]

@[simp] theorem State.advanceRounds_mem_data (s : State) (a1) (a2) : (State.advanceRounds s a1 a2).mem.data = s.mem.data := by
  have fold : ∀ (l : List Nat) (g : Nat × Summary × State → Nat → Nat × Summary × State)
      (_ : ∀ z k, (g z k).2.2.mem.data = z.2.2.mem.data) (z : Nat × Summary × State), (l.foldl g z).2.2.mem.data = z.2.2.mem.data := by
    intro l g h
    induction l with
    | nil => intro z; rfl
    | cons a t ih => intro z; rw [List.foldl_cons, ih, h]
  unfold State.advanceRounds
  (repeat' split) <;> first | rfl | simp | skip
  all_goals
    try simp
    try rw [fold]
    intro z k
    try dsimp only
    (repeat' split) <;> simp

@[simp] theorem State.runExchange_mem_data (s : State) (a1) (a2) (a3) (a4) :
    (State.runExchange s a1 a2 a3 a4).mem.data = s.mem.data := by
  have fold : ∀ (l : List Nat) (g : Nat × Summary × State → Nat → Nat × Summary × State)
      (_ : ∀ z k, (g z k).2.2.mem.data = z.2.2.mem.data) (z : Nat × Summary × State), (l.foldl g z).2.2.mem.data = z.2.2.mem.data := by
    intro l g h
    induction l with
    | nil => intro z; rfl
    | cons a t ih => intro z; rw [List.foldl_cons, ih, h]
  unfold State.runExchange
  (repeat' split) <;> first | rfl | simp | skip
  all_goals
    try simp
    try rw [fold]
    intro z k
    try dsimp only
    (repeat' split) <;> simp

@[simp] theorem State.startSummary_mem_data (s : State) (a1) : (State.startSummary s a1).mem.data = s.mem.data := by
  unfold State.startSummary
  dsimp only
  (repeat' split) <;> simp

@[simp] theorem State.freeEntry_mem_data (s : State) (a1) (a2) : (State.freeEntry s a1 a2).mem.data = s.mem.data := by
  simp [State.freeEntry]

@[simp] theorem State.serveRecvs_mem_data (s : State) (a1) (a2) : (State.serveRecvs s a1 a2).mem.data = s.mem.data := by
  simp [State.serveRecvs]

@[simp] theorem State.entryEvent_mem_data (s : State) (a1) (a2) : (State.entryEvent s a1 a2).mem.data = s.mem.data := by
  unfold State.entryEvent
  dsimp only
  (repeat' split) <;> simp

@[simp] theorem State.landLocal_mem_data (s : State) (a1) (a2) (a3) (a4) :
    (State.landLocal s a1 a2 a3 a4).mem.data = s.mem.data := by
  unfold State.landLocal
  dsimp only
  (repeat' split) <;> simp

@[simp] theorem State.landTransmit_mem_data (s : State) (a1) (a2) (a3) :
    (State.landTransmit s a1 a2 a3).mem.data = s.mem.data := by
  unfold State.landTransmit
  dsimp only
  (repeat' split) <;> simp

@[simp] theorem fireAct_mem_data (a1) (a2) (a3) (a4) (a5) (a6) (a7) (s : State) :
    (fireAct a1 a2 a3 a4 a5 a6 a7 s).mem.data = s.mem.data := by
  simp [fireAct]

@[simp] theorem tfireAct_mem_data (a1) (a2) (a3) (a4) (a5) (a6) (a7) (s : State) :
    (tfireAct a1 a2 a3 a4 a5 a6 a7 s).mem.data = s.mem.data := by
  simp [tfireAct]

@[simp] theorem State.readReg_mem_data (s : State) (a1) (a2) (a3) (a4) (a5) (a6 : RegOut → AccReg → State → State) (h : ∀ r x t, True ∧ (a6 r x t).mem.data = t.mem.data) : (State.readReg s a1 a2 a3 a4 a5 a6).mem.data = s.mem.data := by
  unfold State.readReg
  extract_lets
  (repeat' split) <;> simp [*]

@[simp] theorem State.setVreg_mem_data (s : State) (a1) (a2) (a3) : (State.setVreg s a1 a2 a3).mem.data = s.mem.data := by
  simp [State.setVreg]

@[simp] theorem State.vecResidue_mem_data (s : State) (a1) (a2) : (State.vecResidue s a1 a2).mem.data = s.mem.data := by
  simp [State.vecResidue]

@[simp] theorem State.vecChecked_mem_data (s : State) (a1) (a2) (a3) (a4) (a5) (a6 : State → State) (h : ∀ t, True ∧ (a6 t).mem.data = t.mem.data) : (State.vecChecked s a1 a2 a3 a4 a5 a6).mem.data = s.mem.data := by
  simp only [State.vecChecked]
  (repeat' split) <;> simp_all

@[simp] theorem State.vecOp_mem_data (s : State) (a1) (a2) (a3) (a4 : State → State) (h : ∀ t, True ∧ (a4 t).mem.data = t.mem.data) : (State.vecOp s a1 a2 a3 a4).mem.data = s.mem.data := by
  simp only [State.vecOp]
  (repeat' split) <;> simp_all

@[simp] theorem State.vecLine_mem_data (s : State) (a1) (a2) (a3) (a4) (a5) (a6) (a7 : State → State) (h : ∀ t, True ∧ (a7 t).mem.data = t.mem.data) : (State.vecLine s a1 a2 a3 a4 a5 a6 a7).mem.data = s.mem.data := by
  unfold State.vecLine
  apply State.issue_mem_data
  intro u
  refine ⟨trivial, ?_⟩
  try dsimp only
  split
  · simp
  · apply State.useWide_mem_data
    intro u
    refine ⟨trivial, ?_⟩
    apply State.readChecked_mem_data
    intro u
    refine ⟨trivial, ?_⟩
    exact State.vecChecked_mem_data _ _ _ _ _ _ _ h

@[simp] theorem State.readOwn_mem_data (s : State) (a1) (a2) : (State.readOwn s a1 a2).1.mem.data = s.mem.data := by
  simp [State.readOwn]

@[simp] theorem State.vec2_mem_data (s : State) (a1) (a2) (a3) (a4) : (State.vec2 s a1 a2 a3 a4).mem.data = s.mem.data := by
  simp [State.vec2]

@[simp] theorem State.vec3_mem_data (s : State) (a1) (a2) (a3) (a4) : (State.vec3 s a1 a2 a3 a4).mem.data = s.mem.data := by
  simp [State.vec3]

@[simp] theorem State.vec1_mem_data (s : State) (a1) (a2) (a3) (a4) : (State.vec1 s a1 a2 a3 a4).mem.data = s.mem.data := by
  simp [State.vec1]

@[simp] theorem State.readLanes_mem_data (s : State) (a1) (a2) (a3) (a4) (a5 : State → State) (h : ∀ t, True ∧ (a5 t).mem.data = t.mem.data) : (State.readLanes s a1 a2 a3 a4 a5).mem.data = s.mem.data := by
  simp only [State.readLanes]
  (repeat' split) <;> simp_all

@[simp] theorem State.writeBurst_mem_data (s : State) (a1) (a2) (a3) (a4) :
    (State.writeBurst s a1 a2 a3 a4).mem.data = s.mem.data := by
  simp [State.writeBurst]

@[simp] theorem State.closeGroup_mem_data (s : State) (a1) : (State.closeGroup s a1).mem.data = s.mem.data := by
  simp [State.closeGroup]

@[simp] theorem State.reduceTo_mem_data (s : State) (a1) (a2) (a3) : (State.reduceTo s a1 a2 a3).mem.data = s.mem.data := by
  simp [State.reduceTo]

@[simp] theorem State.vecWordOp_mem_data (s : State) (a1) (a2) (a3) (a4) (a5 : State → State) (h : ∀ t, True ∧ (a5 t).mem.data = t.mem.data) : (State.vecWordOp s a1 a2 a3 a4 a5).mem.data = s.mem.data := by
  unfold State.vecWordOp
  apply State.issue_mem_data
  intro u
  refine ⟨trivial, ?_⟩
  try dsimp only
  split
  · simp
  · refine (State.readChecked_mem_data _ _ _ _ _ _ _ ?_).trans (by simp)
    intro u
    refine ⟨trivial, ?_⟩
    exact State.vecChecked_mem_data _ _ _ _ _ _ _ h

@[simp] theorem State.creditFault_mem_data (s : State) (a1) : (State.creditFault s a1).mem.data = s.mem.data := by
  simp [State.creditFault]

@[simp] theorem State.withCredit_mem_data (s : State) (a1) (a2) (a3) (a4) (a5) (a6) (a7 : State → State) (h : ∀ t, True ∧ (a7 t).mem.data = t.mem.data) : (State.withCredit s a1 a2 a3 a4 a5 a6 a7).mem.data = s.mem.data := by
  unfold State.withCredit
  extract_lets
  (repeat' split) <;> simp [*]

@[simp] theorem State.inject_mem_data (s : State) (a1) : (State.inject s a1).mem.data = s.mem.data := by
  simp [State.inject]

@[simp] theorem State.overfill_mem_data (s : State) (a1) (a2) : (State.overfill s a1 a2).mem.data = s.mem.data := by
  simp [State.overfill]

@[simp] theorem State.issueLoad_mem_data (s : State) (a1) (a2) (a3) (a4) (a5) (a6) (a7) :
    (State.issueLoad s a1 a2 a3 a4 a5 a6 a7).mem.data = s.mem.data := by
  simp [State.issueLoad]

@[simp] theorem State.resume_mem_data (s : State) (a1) : (State.resume s a1).mem.data = s.mem.data := by
  unfold State.resume
  split <;> simp

@[simp] theorem State.holdFor_mem_data (s : State) (a1) (a2) (a3) : (State.holdFor s a1 a2 a3).mem.data = s.mem.data := by
  simp [State.holdFor]

@[simp] theorem State.issueLast_mem_data (s : State) (a1) (a2) (a3) (a4 : State → State) (h : ∀ t, True ∧ (a4 t).mem.data = t.mem.data) : (State.issueLast s a1 a2 a3 a4).mem.data = s.mem.data := by
  unfold State.issueLast
  extract_lets
  (repeat' split) <;> simp [*]

@[simp] theorem State.dropFlits_mem_data (s : State) (a1) : (State.dropFlits s a1).mem.data = s.mem.data := by
  simp [State.dropFlits]

@[simp] theorem State.meshClash_mem_data (s : State) (a1) (a2) (a3) (a4) (a5) (a6) :
    (State.meshClash s a1 a2 a3 a4 a5 a6).mem.data = s.mem.data := by
  simp [State.meshClash]

@[simp] theorem State.routerError_mem_data (s : State) (a1) : (State.routerError s a1).mem.data = s.mem.data := by
  simp [State.routerError]

@[simp] theorem State.destFault_mem_data (s : State) (a1) (a2) : (State.destFault s a1 a2).mem.data = s.mem.data := by
  simp [State.destFault]

@[simp] theorem State.claim_mem_data (s : State) (a1) (a2) (a3) (a4) (a5) (a6) (a7) :
    (State.claim s a1 a2 a3 a4 a5 a6 a7).mem.data = s.mem.data := by
  unfold State.claim
  dsimp only
  (repeat' split) <;> simp

@[simp] theorem State.landTile_mem_data (s : State) (a1) (a2) : (State.landTile s a1 a2).mem.data = s.mem.data := by
  unfold State.landTile
  dsimp only
  (repeat' split) <;> simp

@[simp] theorem State.landSlot_mem_data (s : State) (a1) (a2) (a3) (a4) (a5) (a6) :
    (State.landSlot s a1 a2 a3 a4 a5 a6).mem.data = s.mem.data := by
  unfold State.landSlot
  (repeat' split) <;> simp

@[simp] theorem State.passRouters_mem_data (s : State) (a1) : (State.passRouters s a1).mem.data = s.mem.data := by
  simp [State.passRouters]

@[simp] theorem State.passQueue_mem_data (s : State) (a1) (a2) : (State.passQueue s a1 a2).mem.data = s.mem.data := by
  simp [State.passQueue]

@[simp] theorem State.dropMsg_mem_data (s : State) (a1) (a2) (a3) : (State.dropMsg s a1 a2 a3).mem.data = s.mem.data := by
  unfold State.dropMsg
  split <;> simp

@[simp] theorem State.ejectFault_mem_data (s : State) (a1) (a2) (a3) : (State.ejectFault s a1 a2 a3).mem.data = s.mem.data := by
  simp [State.ejectFault]

@[simp] theorem State.sawMsg_mem_data (s : State) (a1) (a2) : (State.sawMsg s a1 a2).mem.data = s.mem.data := by
  unfold State.sawMsg
  split <;> simp

@[simp] theorem State.deliver_mem_data (s : State) (a1) (a2) (a3) (a4 : State → State) (h : ∀ t, True ∧ (a4 t).mem.data = t.mem.data) : (State.deliver s a1 a2 a3 a4).mem.data = s.mem.data := by
  simp only [State.deliver]
  (repeat' split) <;> simp_all

@[simp] theorem State.poisonFault_mem_data (s : State) (a1) (a2) (a3) (a4) (a5) :
    (State.poisonFault s a1 a2 a3 a4 a5).mem.data = s.mem.data := by
  simp [State.poisonFault]

@[simp] theorem State.queueBytes_mem_data (s : State) (a1) : (State.queueBytes s a1).mem.data = s.mem.data := by
  simp [State.queueBytes]

@[simp] theorem State.failStack_mem_data (s : State) (a1) : (State.failStack s a1).mem.data = s.mem.data := by
  simp [State.failStack]

@[simp] theorem State.stackRead_mem_data (s : State) (a1) (a2) (a3) : (State.stackRead s a1 a2 a3).1.mem.data = s.mem.data := by
  unfold State.stackRead
  dsimp only
  (repeat' split) <;> simp

@[simp] theorem State.queueLine_mem_data (s : State) (a1) (a2) (a3) (a4) (a5) :
    (State.queueLine s a1 a2 a3 a4 a5).1.mem.data = s.mem.data := by
  unfold State.queueLine
  (repeat' split) <;> simp

@[simp] theorem State.fetchLines_mem_data (s : State) (a1) (a2) (a3) (a4) (a5) (a6) :
    (State.fetchLines s a1 a2 a3 a4 a5 a6).1.mem.data = s.mem.data := by
  unfold State.fetchLines
  refine foldlp_mem_data _ (fun x l => ?_) _ _
  dsimp only
  split
  · (repeat' split) <;> simp_all
  · (repeat' split) <;> simp_all

@[simp] theorem State.moveLines_mem_data (s : State) (a1) (a2) (a3) (a4) (a5) :
    (State.moveLines s a1 a2 a3 a4 a5).1.mem.data = s.mem.data := by
  unfold State.moveLines
  exact foldlp_mem_data _ (fun x l => by simp) _ _

@[simp] theorem State.servedLine_mem_data (s : State) (a1) : (State.servedLine s a1).mem.data = s.mem.data := by
  unfold State.servedLine
  split <;> simp

@[simp] theorem State.answerLoad_mem_data (s : State) (a1) (a2) (a3) (a4) (a5) (a6) (a7) (a8) (a9) :
    (State.answerLoad s a1 a2 a3 a4 a5 a6 a7 a8 a9).mem.data = s.mem.data := by
  simp [State.answerLoad]

@[simp] theorem State.descLand_mem_data (s : State) (a1) (a2) (a3) (a4) (a5) (a6) :
    (State.descLand s a1 a2 a3 a4 a5 a6).mem.data = s.mem.data := by
  unfold State.descLand
  dsimp only
  (repeat' split) <;> simp

@[simp] theorem State.putResults_mem_data (s : State) (a1) (a2) (a3) (a4) :
    (State.putResults s a1 a2 a3 a4).mem.data = s.mem.data := by
  unfold State.putResults
  dsimp only
  (repeat' split) <;> simp

@[simp] theorem State.appendTraffic_mem_data (s : State) (a1) (a2) (a3) (a4) (a5) :
    (State.appendTraffic s a1 a2 a3 a4 a5).1.mem.data = s.mem.data := by
  unfold State.appendTraffic
  dsimp only
  (repeat' split) <;> simp

@[simp] theorem State.sendPartials_mem_data (s : State) (a1) (a2) (a3) :
    (State.sendPartials s a1 a2 a3).mem.data = s.mem.data := by
  unfold State.sendPartials
  split <;> simp

@[simp] theorem State.withdraw_mem_data (s : State) (a1) (a2) : (State.withdraw s a1 a2).mem.data = s.mem.data := by
  simp [State.withdraw]

@[simp] theorem State.arrayFailed_mem_data (s : State) (a1) (a2) (a3) : (State.arrayFailed s a1 a2 a3).mem.data = s.mem.data := by
  simp [State.arrayFailed]

@[simp] theorem State.spFailed_mem_data (s : State) (a1) (a2) (a3) : (State.spFailed s a1 a2 a3).mem.data = s.mem.data := by
  simp [State.spFailed]

@[simp] theorem State.arrayRan_mem_data (s : State) (a1) (a2) (a3) : (State.arrayRan s a1 a2 a3).mem.data = s.mem.data := by
  simp [State.arrayRan]

@[simp] theorem State.arrayReadable_mem_data (s : State) (a1) (a2) (a3) (a4) :
    (State.arrayReadable s a1 a2 a3 a4).mem.data = s.mem.data := by
  simp [State.arrayReadable]

@[simp] theorem State.overwriteClash_mem_data (s : State) (a1) (a2) (a3) :
    (State.overwriteClash s a1 a2 a3).mem.data = s.mem.data := by
  simp [State.overwriteClash]

@[simp] theorem State.transitFailed_mem_data (s : State) (a1) (a2) (a3) :
    (State.transitFailed s a1 a2 a3).mem.data = s.mem.data := by
  simp [State.transitFailed]

@[simp] theorem State.unrepairable_mem_data (s : State) (a1) : (State.unrepairable s a1).mem.data = s.mem.data := by
  simp [State.unrepairable]

@[simp] theorem State.leaveStreams_mem_data (s : State) (a1) : (State.leaveStreams s a1).mem.data = s.mem.data := by
  simp [State.leaveStreams]

@[simp] theorem State.saveCorr_mem_data (s : State) : (State.saveCorr s).mem.data = s.mem.data := by
  simp [State.saveCorr]

@[simp] theorem State.afterUser_mem_data (s : State) (a1) : (State.afterUser s a1).mem.data = s.mem.data := by
  simp [State.afterUser]

@[simp] theorem State.dropCal_mem_data (s : State) (a1) : (State.dropCal s a1).mem.data = s.mem.data := by
  simp [State.dropCal]

@[simp] theorem State.programArray_mem_data (s : State) (a1) (a2) (a3) :
    (State.programArray s a1 a2 a3).mem.data = s.mem.data := by
  simp [State.programArray]

@[simp] theorem State.requestCal_mem_data (s : State) (a1) : (State.requestCal s a1).mem.data = s.mem.data := by
  simp [State.requestCal]

@[simp] theorem State.requestUser_mem_data (s : State) (a1) (a2) : (State.requestUser s a1 a2).mem.data = s.mem.data := by
  simp [State.requestUser]

@[simp] theorem State.requestRotation_mem_data (s : State) (a1) : (State.requestRotation s a1).mem.data = s.mem.data := by
  simp [State.requestRotation]

@[simp] theorem State.setQuality_mem_data (s : State) (a1) (a2) : (State.setQuality s a1 a2).mem.data = s.mem.data := by
  simp [State.setQuality]

@[simp] theorem State.countProgrammed_mem_data (s : State) (a1) : (State.countProgrammed s a1).mem.data = s.mem.data := by
  unfold State.countProgrammed
  dsimp only
  (repeat' split) <;> simp

@[simp] theorem State.windowEnd_mem_data (s : State) (a1) : (State.windowEnd s a1).mem.data = s.mem.data := by
  simp [State.windowEnd]

@[simp] theorem State.drift_mem_data (s : State) (a1) : (State.drift s a1).mem.data = s.mem.data := by
  simp [State.drift]

@[simp] theorem State.probeSlot_mem_data (s : State) (a1) : (State.probeSlot s a1).mem.data = s.mem.data := by
  simp [State.probeSlot]

@[simp] theorem State.setStandIn_mem_data (s : State) (a1) : (State.setStandIn s a1).mem.data = s.mem.data := by
  simp [State.setStandIn]

@[simp] theorem State.calSlot_mem_data (s : State) (a1) : (State.calSlot s a1).mem.data = s.mem.data := by
  simp [State.calSlot]

@[simp] theorem calAct_mem_data (a1) (a2) (a3) (s : State) : (calAct a1 a2 a3 s).mem.data = s.mem.data := by
  simp [calAct]

@[simp] theorem State.writeRows_mem_data (s : State) (a1) : (State.writeRows s a1).mem.data = s.mem.data := by
  unfold State.writeRows
  dsimp only
  (repeat' split) <;> simp

@[simp] theorem State.returnRebuilt_mem_data (s : State) : (State.returnRebuilt s).mem.data = s.mem.data := by
  simp [State.returnRebuilt]

@[simp] theorem State.evaluate_mem_data (s : State) (a1) : (State.evaluate s a1).mem.data = s.mem.data := by
  unfold State.evaluate
  dsimp only
  (repeat' split) <;> simp

@[simp] theorem State.takeChunk_mem_data (s : State) (a1) (a2) : (State.takeChunk s a1 a2).1.mem.data = s.mem.data := by
  unfold State.takeChunk
  split <;> simp

@[simp] theorem State.takeRun_mem_data (s : State) (a1) (a2) : (State.takeRun s a1 a2).1.mem.data = s.mem.data := by
  unfold State.takeRun
  split <;> simp

@[simp] theorem State.giveChunks_mem_data (s : State) (a1) (a2) (a3) : (State.giveChunks s a1 a2 a3).mem.data = s.mem.data := by
  simp [State.giveChunks]

@[simp] theorem State.dropAdapter_mem_data (s : State) (a1) (a2) : (State.dropAdapter s a1 a2).mem.data = s.mem.data := by
  unfold State.dropAdapter
  split <;> simp

@[simp] theorem State.uwp_mem_data (s : State) (a1) (a2) (a3) (a4) (a5) (a6) (a7) (a8) :
    (State.uwp s a1 a2 a3 a4 a5 a6 a7 a8).mem.data = s.mem.data := by
  simp [State.uwp]

@[simp] theorem State.sendReceipt_mem_data (s : State) (a1) : (State.sendReceipt s a1).mem.data = s.mem.data := by
  simp [State.sendReceipt]

@[simp] theorem State.sendResult_mem_data (s : State) (a1) (a2) : (State.sendResult s a1 a2).mem.data = s.mem.data := by
  simp [State.sendResult]

@[simp] theorem State.sendTokens_mem_data (s : State) (a1) (a2) (a3) : (State.sendTokens s a1 a2 a3).mem.data = s.mem.data := by
  simp [State.sendTokens]

@[simp] theorem State.sendCancel_mem_data (s : State) (a1) (a2) (a3) (a4) (a5) :
    (State.sendCancel s a1 a2 a3 a4 a5).mem.data = s.mem.data := by
  simp [State.sendCancel]

@[simp] theorem State.dropGranules_mem_data (s : State) (a1) : (State.dropGranules s a1).mem.data = s.mem.data := by
  simp [State.dropGranules]

@[simp] theorem State.releaseGranules_mem_data (s : State) (a1) : (State.releaseGranules s a1).mem.data = s.mem.data := by
  simp [State.releaseGranules]

@[simp] theorem State.closeWindow_mem_data (s : State) (a1) : (State.closeWindow s a1).mem.data = s.mem.data := by
  simp [State.closeWindow]

@[simp] theorem State.closeWindows_mem_data (s : State) (a1) : (State.closeWindows s a1).mem.data = s.mem.data := by
  simp [State.closeWindows]

@[simp] theorem State.updSub_mem_data (s : State) (a1) (a2) (a3) (a4) : (State.updSub s a1 a2 a3 a4).mem.data = s.mem.data := by
  simp [State.updSub]

@[simp] theorem State.endRdma_mem_data (s : State) (a1) : (State.endRdma s a1).mem.data = s.mem.data := by
  unfold State.endRdma
  split <;> simp

@[simp] theorem State.freeSession_mem_data (s : State) (a1) : (State.freeSession s a1).mem.data = s.mem.data := by
  simp [State.freeSession]

@[simp] theorem State.tryFree_mem_data (s : State) (a1) : (State.tryFree s a1).mem.data = s.mem.data := by
  simp [State.tryFree]

@[simp] theorem State.beginClose_mem_data (s : State) (a1) : (State.beginClose s a1).mem.data = s.mem.data := by
  simp [State.beginClose]

@[simp] theorem State.closeExports_mem_data (s : State) (a1) : (State.closeExports s a1).mem.data = s.mem.data := by
  simp [State.closeExports]

@[simp] theorem State.directed_mem_data (s : State) (a1) (a2) : (State.directed s a1 a2).mem.data = s.mem.data := by
  unfold State.directed
  split <;> simp

@[simp] theorem State.noticeAll_mem_data (s : State) (a1) : (State.noticeAll s a1).mem.data = s.mem.data := by
  simp [State.noticeAll]

@[simp] theorem State.takeRestore_mem_data (s : State) (a1) : (State.takeRestore s a1).mem.data = s.mem.data := by
  unfold State.takeRestore
  split <;> simp

@[simp] theorem State.accepted_mem_data (s : State) (a1) : (State.accepted s a1).mem.data = s.mem.data := by
  unfold State.accepted
  dsimp only
  (repeat' split) <;> simp

@[simp] theorem State.seenAcct_mem_data (s : State) (a1) (a2) (a3) : (State.seenAcct s a1 a2 a3).mem.data = s.mem.data := by
  simp [State.seenAcct]

@[simp] theorem State.resendSub_mem_data (s : State) (a1) : (State.resendSub s a1).mem.data = s.mem.data := by
  unfold State.resendSub
  dsimp only
  simp only [ite_mem_data, State.sendResult_mem_data, ite_self]
  refine foldl_mem_data _ (fun t j => ?_) _ _
  try dsimp only
  (repeat' split) <;> simp

@[simp] theorem State.resendAll_mem_data (s : State) (a1) : (State.resendAll s a1).mem.data = s.mem.data := by
  unfold State.resendAll
  simp
  rw [foldl_mem_data]
  intro t b
  try dsimp only
  split <;> simp

@[simp] theorem State.resumeRunning_mem_data (s : State) (a1) : (State.resumeRunning s a1).mem.data = s.mem.data := by
  unfold State.resumeRunning
  refine foldl_mem_data _ (fun t b => ?_) _ _
  try dsimp only
  split <;> simp

@[simp] theorem State.sealAgain_mem_data (s : State) : (State.sealAgain s).mem.data = s.mem.data := by
  unfold State.sealAgain
  refine foldl_mem_data _ (fun t b => ?_) _ _
  try dsimp only
  split <;> simp

@[simp] theorem State.adoptSessions_mem_data (s : State) (a1) : (State.adoptSessions s a1).mem.data = s.mem.data := by
  unfold State.adoptSessions
  dsimp only
  refine foldl_mem_data _ (fun t r => ?_) _ _
  (repeat' split) <;> first | rfl | simp

@[simp] theorem State.quietAccts_mem_data (s : State) (a1) : (State.quietAccts s a1).mem.data = s.mem.data := by
  simp [State.quietAccts]

@[simp] theorem State.toChildren_mem_data (s : State) (a1) (a2) : (State.toChildren s a1 a2).mem.data = s.mem.data := by
  simp [State.toChildren]

@[simp] theorem State.masterMessage_mem_data (s : State) : (State.masterMessage s).mem.data = s.mem.data := by
  simp [State.masterMessage]

@[simp] theorem State.endHold_mem_data (s : State) (a1) : (State.endHold s a1).mem.data = s.mem.data := by
  unfold State.endHold
  split <;> simp

@[simp] theorem State.overrun_mem_data (s : State) (a1) : (State.overrun s a1).mem.data = s.mem.data := by
  simp [State.overrun]

@[simp] theorem State.dropCredits_mem_data (s : State) (a1) : (State.dropCredits s a1).mem.data = s.mem.data := by
  simp [State.dropCredits]

@[simp] theorem State.closeStep_mem_data (s : State) (a1) (a2) : (State.closeStep s a1 a2).mem.data = s.mem.data := by
  simp [State.closeStep]

@[simp] theorem State.endFrame_mem_data (s : State) (a1) : (State.endFrame s a1).mem.data = s.mem.data := by
  simp [State.endFrame]

@[simp] theorem State.idleSlots_mem_data (s : State) : (State.idleSlots s).mem.data = s.mem.data := by
  simp [State.idleSlots]

@[simp] theorem State.startExchange_mem_data (s : State) (a1) : (State.startExchange s a1).mem.data = s.mem.data := by
  simp [State.startExchange]

@[simp] theorem State.sendVote_mem_data (s : State) : (State.sendVote s).mem.data = s.mem.data := by
  simp [State.sendVote]

@[simp] theorem State.repeatVote_mem_data (s : State) : (State.repeatVote s).mem.data = s.mem.data := by
  simp [State.repeatVote]

@[simp] theorem State.appliedRec_mem_data (s : State) (a1) (a2) (a3) (a4) :
    (State.appliedRec s a1 a2 a3 a4).mem.data = s.mem.data := by
  simp [State.appliedRec]

@[simp] theorem State.takeRecipe_mem_data (s : State) (a1) : (State.takeRecipe s a1).mem.data = s.mem.data := by
  unfold State.takeRecipe
  dsimp only
  (repeat' split) <;> simp

@[simp] theorem State.writeBases_mem_data (s : State) (a1) (a2) : (State.writeBases s a1 a2).mem.data = s.mem.data := by
  simp [State.writeBases]

@[simp] theorem State.writeAdapters_mem_data (s : State) (a1) (a2) : (State.writeAdapters s a1 a2).mem.data = s.mem.data := by
  unfold State.writeAdapters
  refine foldl_mem_data _ (fun t x => ?_) _ _
  generalize (if (t.acct x.account.val).part.toNat = a1 then _ else none) = o
  cases o <;> simp

@[simp] theorem State.queuePrograms_mem_data (s : State) (a1) : (State.queuePrograms s a1).mem.data = s.mem.data := by
  simp [State.queuePrograms]

@[simp] theorem State.beginElsewhere_mem_data (s : State) (a1) (a2) : (State.beginElsewhere s a1 a2).mem.data = s.mem.data := by
  simp [State.beginElsewhere]

@[simp] theorem State.countersOk_mem_data (s : State) (a1) (a2) : (State.countersOk s a1 a2).mem.data = s.mem.data := by
  simp [State.countersOk]

@[simp] theorem State.noticeAbort_mem_data (s : State) (a1) (a2) : (State.noticeAbort s a1 a2).mem.data = s.mem.data := by
  simp [State.noticeAbort]

@[simp] theorem State.zeroBlocks_mem_data (s : State) (a1) (a2) : (State.zeroBlocks s a1 a2).mem.data = s.mem.data := by
  simp [State.zeroBlocks]

@[simp] theorem State.reloadRetained_mem_data (s : State) (a1) (a2) : (State.reloadRetained s a1 a2).mem.data = s.mem.data := by
  simp [State.reloadRetained]

@[simp] theorem State.undo_mem_data (s : State) (a1) (a2) : (State.undo s a1 a2).mem.data = s.mem.data := by
  unfold State.undo
  split <;> simp

@[simp] theorem State.stopPart_mem_data (s : State) (a1) (a2) (a3) : (State.stopPart s a1 a2 a3).mem.data = s.mem.data := by
  simp [State.stopPart]

@[simp] theorem State.dropOutcome_mem_data (s : State) : (State.dropOutcome s).mem.data = s.mem.data := by
  simp [State.dropOutcome]

@[simp] theorem State.unlearn_mem_data (s : State) (a1) (a2) : (State.unlearn s a1 a2).mem.data = s.mem.data := by
  unfold State.unlearn
  split <;> simp

@[simp] theorem State.numberEscrow_mem_data (s : State) (a1) (a2) : (State.numberEscrow s a1 a2).mem.data = s.mem.data := by
  simp [State.numberEscrow]

@[simp] theorem State.clearEscrow_mem_data (s : State) (a1) : (State.clearEscrow s a1).mem.data = s.mem.data := by
  simp [State.clearEscrow]

@[simp] theorem State.setRunning_mem_data (s : State) (a1) (a2) : (State.setRunning s a1 a2).mem.data = s.mem.data := by
  simp [State.setRunning]

@[simp] theorem State.discardRecs_mem_data (s : State) (a1) : (State.discardRecs s a1).mem.data = s.mem.data := by
  simp [State.discardRecs]

@[simp] theorem State.castWith_mem_data (s : State) (a1) : (State.castWith s a1).mem.data = s.mem.data := by
  simp [State.castWith]

@[simp] theorem State.castVote_mem_data (s : State) : (State.castVote s).mem.data = s.mem.data := by
  simp [State.castVote]

@[simp] theorem State.sendShard_mem_data (s : State) (a1) (a2) : (State.sendShard s a1 a2).mem.data = s.mem.data := by
  simp [State.sendShard]

@[simp] theorem State.sendMirror_mem_data (s : State) (a1) : (State.sendMirror s a1).mem.data = s.mem.data := by
  simp [State.sendMirror]

@[simp] theorem State.sendLedgers_mem_data (s : State) : (State.sendLedgers s).mem.data = s.mem.data := by
  simp [State.sendLedgers]

@[simp] theorem State.resendRecords_mem_data (s : State) : (State.resendRecords s).mem.data = s.mem.data := by
  simp [State.resendRecords]

@[simp] theorem State.sendCopies_mem_data (s : State) : (State.sendCopies s).mem.data = s.mem.data := by
  simp [State.sendCopies]

@[simp] theorem State.activate_mem_data (s : State) (a1) : (State.activate s a1).mem.data = s.mem.data := by
  unfold State.activate
  dsimp only
  (repeat' split) <;> simp

@[simp] theorem State.lockLink_mem_data (s : State) (a1) : (State.lockLink s a1).mem.data = s.mem.data := by
  simp [State.lockLink]

@[simp] theorem State.lockLinks_mem_data (s : State) : (State.lockLinks s).mem.data = s.mem.data := by
  simp [State.lockLinks]

@[simp] theorem State.retrain_mem_data (s : State) (a1) : (State.retrain s a1).mem.data = s.mem.data := by
  simp [State.retrain]

@[simp] theorem State.startTraining_mem_data (s : State) (a1) : (State.startTraining s a1).mem.data = s.mem.data := by
  simp [State.startTraining]

@[simp] theorem State.sendTrainLine_mem_data (s : State) (a1) (a2) : (State.sendTrainLine s a1 a2).mem.data = s.mem.data := by
  simp [State.sendTrainLine]

@[simp] theorem State.sendTrainingAt_mem_data (s : State) (a1) (a2) : (State.sendTrainingAt s a1 a2).mem.data = s.mem.data := by
  simp [State.sendTrainingAt]

@[simp] theorem State.sendTraining_mem_data (s : State) (a1) : (State.sendTraining s a1).mem.data = s.mem.data := by
  simp [State.sendTraining]

@[simp] theorem State.sendSecure_mem_data (s : State) (a1) : (State.sendSecure s a1).mem.data = s.mem.data := by
  simp [State.sendSecure]

@[simp] theorem State.trainFail_mem_data (s : State) (a1) : (State.trainFail s a1).mem.data = s.mem.data := by
  simp [State.trainFail]

@[simp] theorem State.miswired_mem_data (s : State) (a1) : (State.miswired s a1).mem.data = s.mem.data := by
  simp [State.miswired]

@[simp] theorem State.identify_mem_data (s : State) (a1) (a2) : (State.identify s a1 a2).mem.data = s.mem.data := by
  unfold State.identify
  dsimp only
  (repeat' split) <;> simp

@[simp] theorem State.agree_mem_data (s : State) (a1) (a2) : (State.agree s a1 a2).mem.data = s.mem.data := by
  simp [State.agree]

@[simp] theorem State.secure_mem_data (s : State) (a1) (a2) (a3) : (State.secure s a1 a2 a3).mem.data = s.mem.data := by
  simp [State.secure]

@[simp] theorem State.takeSecure_mem_data (s : State) (a1) (a2) (a3) : (State.takeSecure s a1 a2 a3).mem.data = s.mem.data := by
  unfold State.takeSecure
  dsimp only
  (repeat' split) <;> simp

@[simp] theorem State.takeTraining_mem_data (s : State) (a1) (a2) (a3) (a4) :
    (State.takeTraining s a1 a2 a3 a4).mem.data = s.mem.data := by
  unfold State.takeTraining
  dsimp only
  (repeat' split) <;> simp

@[simp] theorem State.takeFrameMsg_mem_data (s : State) (a1) (a2) (a3) :
    (State.takeFrameMsg s a1 a2 a3).mem.data = s.mem.data := by
  simp [State.takeFrameMsg]

@[simp] theorem State.floodNotice_mem_data (s : State) (a1) : (State.floodNotice s a1).mem.data = s.mem.data := by
  simp [State.floodNotice]

@[simp] theorem State.takeNotice_mem_data (s : State) (a1) (a2) : (State.takeNotice s a1 a2).mem.data = s.mem.data := by
  simp [State.takeNotice]

@[simp] theorem State.relayRound_mem_data (s : State) (a1) (a2) : (State.relayRound s a1 a2).mem.data = s.mem.data := by
  simp [State.relayRound]

@[simp] theorem State.takeSummary_mem_data (s : State) (a1) (a2) : (State.takeSummary s a1 a2).mem.data = s.mem.data := by
  unfold State.takeSummary
  dsimp only
  (repeat' split) <;> simp

@[simp] theorem State.takeExchange_mem_data (s : State) (a1) (a2) : (State.takeExchange s a1 a2).mem.data = s.mem.data := by
  unfold State.takeExchange
  dsimp only
  (repeat' split) <;> simp

@[simp] theorem State.takeLoading_mem_data (s : State) (a1) (a2) (a3) : (State.takeLoading s a1 a2 a3).mem.data = s.mem.data := by
  simp [State.takeLoading]

@[simp] theorem State.takeVote_mem_data (s : State) (a1) (a2) (a3) : (State.takeVote s a1 a2 a3).mem.data = s.mem.data := by
  simp [State.takeVote]

@[simp] theorem State.landData_mem_data (s : State) (a1) (a2) (a3) (a4) (a5) :
    (State.landData s a1 a2 a3 a4 a5).mem.data = s.mem.data := by
  simp [State.landData]

@[simp] theorem State.landDigest_mem_data (s : State) (a1) (a2) (a3) : (State.landDigest s a1 a2 a3).mem.data = s.mem.data := by
  simp [State.landDigest]

@[simp] theorem State.entriesFault_mem_data (s : State) (a1) (a2) : (State.entriesFault s a1 a2).mem.data = s.mem.data := by
  simp [State.entriesFault]

@[simp] theorem State.answerPages_mem_data (s : State) (a1) (a2) (a3) : (State.answerPages s a1 a2 a3).mem.data = s.mem.data := by
  simp [State.answerPages]

@[simp] theorem State.markMirror_mem_data (s : State) (a1) (a2) : (State.markMirror s a1 a2).mem.data = s.mem.data := by
  simp [State.markMirror]

@[simp] theorem State.takePartials_mem_data (s : State) (a1) (a2) : (State.takePartials s a1 a2).mem.data = s.mem.data := by
  simp [State.takePartials]

@[simp] theorem State.lightLinks_mem_data (s : State) : (State.lightLinks s).mem.data = s.mem.data := by
  unfold State.lightLinks
  refine foldl_mem_data _ (fun t l => ?_) _ _
  try dsimp only
  split
  · rfl
  · split
    · simp
    · split <;> simp
    · split <;> simp

@[simp] theorem State.portDown_mem_data (s : State) (a1) : (State.portDown s a1).mem.data = s.mem.data := by
  simp [State.portDown]

@[simp] theorem State.lightChanged_mem_data (s : State) : (State.lightChanged s).mem.data = s.mem.data := by
  simp [State.lightChanged]

@[simp] theorem State.advanceRemoval_mem_data (s : State) (a1) : (State.advanceRemoval s a1).mem.data = s.mem.data := by
  simp [State.advanceRemoval]

@[simp] theorem State.advanceRemovals_mem_data (s : State) : (State.advanceRemovals s).mem.data = s.mem.data := by
  simp [State.advanceRemovals]

@[simp] theorem State.stopAll_mem_data (s : State) : (State.stopAll s).mem.data = s.mem.data := by
  simp [State.stopAll]

@[simp] theorem State.stopForLock_mem_data (s : State) : (State.stopForLock s).mem.data = s.mem.data := by
  simp [State.stopForLock]

@[simp] theorem State.declareFailed_mem_data (s : State) (a1) (a2) (a3) :
    (State.declareFailed s a1 a2 a3).mem.data = s.mem.data := by
  unfold State.declareFailed
  split
  · rfl
  · dsimp only
    split
    · simp
    · rw [foldl_mem_data]
      · simp
      · intro t p
        try dsimp only
        split <;> simp

@[simp] theorem State.mirrorAck_mem_data (s : State) (a1) : (State.mirrorAck s a1).mem.data = s.mem.data := by
  unfold State.mirrorAck
  dsimp only
  (repeat' split) <;> simp

@[simp] theorem State.takeNak_mem_data (s : State) (a1) (a2) : (State.takeNak s a1 a2).mem.data = s.mem.data := by
  simp [State.takeNak]

@[simp] theorem State.takeHeader_mem_data (s : State) (a1) (a2) : (State.takeHeader s a1 a2).mem.data = s.mem.data := by
  simp [State.takeHeader]

@[simp] theorem State.trainRx_mem_data (s : State) (a1) (a2) : (State.trainRx s a1 a2).mem.data = s.mem.data := by
  unfold State.trainRx
  split <;> simp

@[simp] theorem State.placeArray_mem_data (s : State) (a1) (a2) (a3) : (State.placeArray s a1 a2 a3).mem.data = s.mem.data := by
  simp [State.placeArray]

@[simp] theorem State.startPart_mem_data (s : State) (a1) (a2) : (State.startPart s a1 a2).mem.data = s.mem.data := by
  simp [State.startPart]

@[simp] theorem State.withdrawnRec_mem_data (s : State) (a1) (a2) (a3) :
    (State.withdrawnRec s a1 a2 a3).mem.data = s.mem.data := by
  simp [State.withdrawnRec]

@[simp] theorem State.dropStaged_mem_data (s : State) (a1) : (State.dropStaged s a1).mem.data = s.mem.data := by
  unfold State.dropStaged
  dsimp only
  (repeat' split) <;> simp

@[simp] theorem State.revokeCredits_mem_data (s : State) (a1) : (State.revokeCredits s a1).mem.data = s.mem.data := by
  simp [State.revokeCredits]

@[simp] theorem State.evict_mem_data (s : State) (a1) : (State.evict s a1).mem.data = s.mem.data := by
  simp [State.evict]

@[simp] theorem State.replaceWeights_mem_data (s : State) (a1) (a2) : (State.replaceWeights s a1 a2).1.mem.data = s.mem.data := by
  unfold State.replaceWeights
  dsimp only
  (repeat' split) <;> simp

@[simp] theorem State.clearTags_mem_data (s : State) (a1) : (State.clearTags s a1).mem.data = s.mem.data := by
  simp [State.clearTags]

@[simp] theorem State.startFlush_mem_data (s : State) : (State.startFlush s).mem.data = s.mem.data := by
  unfold State.startFlush
  split <;> simp

@[simp] theorem State.reportLost_mem_data (s : State) : (State.reportLost s).mem.data = s.mem.data := by
  simp [State.reportLost]

@[simp] theorem State.endFlush_mem_data (s : State) : (State.endFlush s).mem.data = s.mem.data := by
  unfold State.endFlush
  split <;> simp

@[simp] theorem State.failSilent_mem_data (s : State) : (State.failSilent s).mem.data = s.mem.data := by
  simp [State.failSilent]

@[simp] theorem State.darkenAll_mem_data (s : State) : (State.darkenAll s).mem.data = s.mem.data := by
  simp [State.darkenAll]

@[simp] theorem State.dropFrame_mem_data (s : State) (a1) : (State.dropFrame s a1).mem.data = s.mem.data := by
  simp [State.dropFrame]

@[simp] theorem State.ecnMark_mem_data (s : State) (a1) (a2) (a3) : (State.ecnMark s a1 a2 a3).mem.data = s.mem.data := by
  simp [State.ecnMark]

@[simp] theorem State.qpError_mem_data (s : State) (a1) : (State.qpError s a1).mem.data = s.mem.data := by
  simp [State.qpError]

@[simp] theorem State.rejectRdma_mem_data (s : State) (a1) (a2) (a3) (a4) (a5) :
    (State.rejectRdma s a1 a2 a3 a4 a5).mem.data = s.mem.data := by
  simp [State.rejectRdma]

@[simp] theorem State.strayFault_mem_data (s : State) (a1) (a2) : (State.strayFault s a1 a2).mem.data = s.mem.data := by
  simp [State.strayFault]

@[simp] theorem State.portFetch_mem_data (s : State) (a1) (a2) (a3) (a4) :
    (State.portFetch s a1 a2 a3 a4).1.mem.data = s.mem.data := by
  simp [State.portFetch]

@[simp] theorem State.refuse_mem_data (s : State) (a1) (a2) (a3) : (State.refuse s a1 a2 a3).mem.data = s.mem.data := by
  simp [State.refuse]

@[simp] theorem State.notHome_mem_data (s : State) (a1) (a2) : (State.notHome s a1 a2).mem.data = s.mem.data := by
  simp [State.notHome]

@[simp] theorem State.noWindow_mem_data (s : State) (a1) : (State.noWindow s a1).mem.data = s.mem.data := by
  simp [State.noWindow]

@[simp] theorem State.tellerUpset_mem_data (s : State) (a1) : (State.tellerUpset s a1).mem.data = s.mem.data := by
  simp [State.tellerUpset]

@[simp] theorem State.gate_mem_data (s : State) (a1) (a2) : (State.gate s a1 a2).1.mem.data = s.mem.data := by
  unfold State.gate
  dsimp only
  (repeat' split) <;> simp

@[simp] theorem State.duplicate_mem_data (s : State) (a1) : (State.duplicate s a1).mem.data = s.mem.data := by
  unfold State.duplicate
  (repeat' split) <;> simp

theorem State.openRefusal_mem_data {s t : State} {m : UwpMsg} (h : s.openRefusal m = some t) : t.mem.data = s.mem.data := by
  unfold State.openRefusal at h
  dsimp only at h
  (repeat' split at h) <;> first | cases h | skip
  all_goals simp

@[simp] theorem State.enterState_mem_data (s : State) (a1) (a2) (a3) : (State.enterState s a1 a2 a3).mem.data = s.mem.data := by
  simp [State.enterState]

@[simp] theorem State.unsupported_mem_data (s : State) (a1) : (State.unsupported s a1).mem.data = s.mem.data := by
  simp [State.unsupported]

@[simp] theorem State.judge_mem_data (s : State) (a1) (a2) : (State.judge s a1 a2).mem.data = s.mem.data := by
  simp [State.judge]

@[simp] theorem State.light_mem_data (s : State) (a1) (a2) : (State.light s a1 a2).mem.data = s.mem.data := by
  simp [State.light]

@[simp] theorem State.readModule_mem_data (s : State) (a1) (a2) (a3) : (State.readModule s a1 a2 a3).mem.data = s.mem.data := by
  simp [State.readModule]

@[simp] theorem State.readModules_mem_data (s : State) : (State.readModules s).mem.data = s.mem.data := by
  unfold State.readModules
  refine foldl_mem_data _ (fun t m => ?_) _ _
  split <;> simp

@[simp] theorem State.saveHistory_mem_data (s : State) (a1) : (State.saveHistory s a1).mem.data = s.mem.data := by
  unfold State.saveHistory
  split <;> simp

@[simp] theorem State.requestRemoval_mem_data (s : State) (a1) (a2) : (State.requestRemoval s a1 a2).1.mem.data = s.mem.data := by
  unfold State.requestRemoval
  dsimp only
  (repeat' split) <;> simp

@[simp] theorem State.relight_mem_data (s : State) (a1) (a2) : (State.relight s a1 a2).1.mem.data = s.mem.data := by
  unfold State.relight
  dsimp only
  (repeat' split) <;> simp

@[simp] theorem State.powerEvent_mem_data (s : State) (a1) (a2) (a3) (a4) :
    (State.powerEvent s a1 a2 a3 a4).mem.data = s.mem.data := by
  simp [State.powerEvent]

@[simp] theorem State.captureEvent_mem_data (s : State) (a1) (a2) (a3) (a4) (a5) :
    (State.captureEvent s a1 a2 a3 a4 a5).mem.data = s.mem.data := by
  simp [State.captureEvent]

@[simp] theorem State.powerFail_mem_data (s : State) (a1) : (State.powerFail s a1).mem.data = s.mem.data := by
  simp [State.powerFail]

@[simp] theorem State.setRequest_mem_data (s : State) : (State.setRequest s).mem.data = s.mem.data := by
  simp [State.setRequest]

@[simp] theorem State.retrimMoved_mem_data (s : State) : (State.retrimMoved s).mem.data = s.mem.data := by
  simp [State.retrimMoved]

@[simp] theorem State.movePll_mem_data (s : State) (a1) : (State.movePll s a1).mem.data = s.mem.data := by
  simp [State.movePll]

@[simp] theorem State.watchdogEnd_mem_data (s : State) : (State.watchdogEnd s).mem.data = s.mem.data := by
  simp [State.watchdogEnd]

@[simp] theorem State.adcTrigger_mem_data (s : State) (a1) (a2) : (State.adcTrigger s a1 a2).mem.data = s.mem.data := by
  simp [State.adcTrigger]

@[simp] theorem State.captured_mem_data (s : State) : (State.captured s).mem.data = s.mem.data := by
  unfold State.captured
  split <;> simp

@[simp] theorem State.claimRead_mem_data (s : State) (a1) : (State.claimRead s a1).mem.data = s.mem.data := by
  unfold State.claimRead
  split <;> simp

@[simp] theorem State.clearCause_mem_data (s : State) (a1) : (State.clearCause s a1).mem.data = s.mem.data := by
  unfold State.clearCause
  split <;> simp

@[simp] theorem State.claimWrite_mem_data (s : State) (a1) (a2) : (State.claimWrite s a1 a2).mem.data = s.mem.data := by
  simp [State.claimWrite]

@[simp] theorem State.mgmtRequest_mem_data (s : State) (a1) (a2) (a3) (a4) :
    (State.mgmtRequest s a1 a2 a3 a4).mem.data = s.mem.data := by
  simp [State.mgmtRequest]

@[simp] theorem State.accessFault_mem_data (s : State) (a1) (a2) : (State.accessFault s a1 a2).mem.data = s.mem.data := by
  simp [State.accessFault]

@[simp] theorem State.sramCheck_mem_data (s : State) (a1) : (State.sramCheck s a1).mem.data = s.mem.data := by
  unfold State.sramCheck
  split <;> simp

@[simp] theorem State.regTouch_mem_data (s : State) (a1) (a2) : (State.regTouch s a1 a2).mem.data = s.mem.data := by
  unfold State.regTouch
  split <;> simp

@[simp] theorem State.serviceByte_mem_data (s : State) (a1) : (State.serviceByte s a1).mem.data = s.mem.data := by
  simp [State.serviceByte]

@[simp] theorem State.regPut_mem_data (s : State) (a1) (a2) (a3) (a4) : (State.regPut s a1 a2 a3 a4).mem.data = s.mem.data := by
  unfold State.regPut
  split <;> simp

@[simp] theorem State.coreLines_mem_data (s : State) (a1) (a2) : (State.coreLines s a1 a2).1.mem.data = s.mem.data := by
  unfold State.coreLines
  simp

@[simp] theorem State.coreValue_mem_data (s : State) (a1) (a2) (a3) (a4) :
    (State.coreValue s a1 a2 a3 a4).1.mem.data = s.mem.data := by
  unfold State.coreValue
  dsimp only
  (repeat' split) <;> simp

@[simp] theorem State.coreRead_mem_data (s : State) (a1) : (State.coreRead s a1).mem.data = s.mem.data := by
  unfold State.coreRead
  dsimp only
  (repeat' split) <;> simp

@[simp] theorem State.suspendErases_mem_data (s : State) : (State.suspendErases s).mem.data = s.mem.data := by
  simp [State.suspendErases]

@[simp] theorem State.flashNext_mem_data (s : State) (a1) : (State.flashNext s a1).mem.data = s.mem.data := by
  unfold State.flashNext
  dsimp only
  (repeat' split) <;> simp

@[simp] theorem State.noEntropy_mem_data (s : State) : (State.noEntropy s).mem.data = s.mem.data := by
  simp [State.noEntropy]

@[simp] theorem State.attest_mem_data (s : State) (a1) : (State.attest s a1).mem.data = s.mem.data := by
  simp [State.attest]

@[simp] theorem State.endShutdown_mem_data (s : State) : (State.endShutdown s).mem.data = s.mem.data := by
  simp [State.endShutdown]

@[simp] theorem State.flushAll_mem_data (s : State) : (State.flushAll s).mem.data = s.mem.data := by
  simp [State.flushAll]

@[simp] theorem State.lose_mem_data (s : State) (a1) : (State.lose s a1).mem.data = s.mem.data := by
  simp [State.lose]

@[simp] theorem State.dawnRec_mem_data (s : State) (a1) (a2) : (State.dawnRec s a1 a2).mem.data = s.mem.data := by
  simp [State.dawnRec]

@[simp] theorem State.stopDawn_mem_data (s : State) : (State.stopDawn s).mem.data = s.mem.data := by
  simp [State.stopDawn]

@[simp] theorem State.stepDone_mem_data (s : State) : (State.stepDone s).mem.data = s.mem.data := by
  simp [State.stepDone]

@[simp] theorem State.dawn2_mem_data (s : State) (a1) : (State.dawn2 s a1).mem.data = s.mem.data := by
  simp [State.dawn2]

@[simp] theorem State.romStops_mem_data (s : State) (a1) : (State.romStops s a1).mem.data = s.mem.data := by
  simp [State.romStops]

@[simp] theorem State.dawn3_mem_data (s : State) (a1) : (State.dawn3 s a1).mem.data = s.mem.data := by
  unfold State.dawn3
  dsimp only
  (repeat' split) <;> simp

@[simp] theorem State.dawn4_mem_data (s : State) (a1) : (State.dawn4 s a1).mem.data = s.mem.data := by
  simp [State.dawn4]

@[simp] theorem State.startMaster_mem_data (s : State) : (State.startMaster s).mem.data = s.mem.data := by
  simp [State.startMaster]

@[simp] theorem State.beginLinks_mem_data (s : State) : (State.beginLinks s).mem.data = s.mem.data := by
  simp [State.beginLinks]

@[simp] theorem State.writeStaged_mem_data (s : State) (a1) : (State.writeStaged s a1).mem.data = s.mem.data := by
  simp [State.writeStaged]

@[simp] theorem State.dawn7_mem_data (s : State) (a1) : (State.dawn7 s a1).mem.data = s.mem.data := by
  simp [State.dawn7]

@[simp] theorem State.failCold_mem_data (s : State) (a1) : (State.failCold s a1).mem.data = s.mem.data := by
  simp [State.failCold]

@[simp] theorem State.dawn8_mem_data (s : State) (a1) : (State.dawn8 s a1).mem.data = s.mem.data := by
  simp [State.dawn8]

@[simp] theorem State.keepOwn_mem_data (s : State) (a1) : (State.keepOwn s a1).mem.data = s.mem.data := by
  simp [State.keepOwn]

@[simp] theorem State.dawnSessions_mem_data (s : State) : (State.dawnSessions s).mem.data = s.mem.data := by
  simp [State.dawnSessions]

@[simp] theorem State.discard_mem_data (s : State) (a1) (a2) (a3) (a4) : (State.discard s a1 a2 a3 a4).mem.data = s.mem.data := by
  simp [State.discard]

@[simp] theorem State.discardPart_mem_data (s : State) (a1) (a2) : (State.discardPart s a1 a2).mem.data = s.mem.data := by
  simp [State.discardPart]

@[simp] theorem State.readdBlocks_mem_data (s : State) : (State.readdBlocks s).mem.data = s.mem.data := by
  simp [State.readdBlocks]

@[simp] theorem State.dawn10_mem_data (s : State) : (State.dawn10 s).mem.data = s.mem.data := by
  simp [State.dawn10]

@[simp] theorem State.confirmTrial_mem_data (s : State) : (State.confirmTrial s).mem.data = s.mem.data := by
  simp [State.confirmTrial]

@[simp] theorem State.dawn11_mem_data (s : State) (a1) : (State.dawn11 s a1).mem.data = s.mem.data := by
  simp [State.dawn11]

@[simp] theorem State.refusedBackup_mem_data (s : State) : (State.refusedBackup s).mem.data = s.mem.data := by
  simp [State.refusedBackup]

@[simp] theorem State.beforeReset_mem_data (s : State) : (State.beforeReset s).mem.data = s.mem.data := by
  simp [State.beforeReset]

@[simp] theorem State.shutDown_mem_data (s : State) : (State.shutDown s).mem.data = s.mem.data := by
  simp [State.shutDown]

@[simp] theorem done_mem_data (s : State) : (done s).1.mem.data = s.mem.data := by
  simp [done]

@[simp] theorem plain_fst_mem_data (r : State × BitVec 8) : (plain r).1.mem.data = r.1.mem.data := rfl

@[simp] theorem doneIf_mem_data (s : State) (a1) (t : State) (h : True ∧ t.mem.data = s.mem.data) :
    (doneIf s a1 t).1.mem.data = s.mem.data := by
  unfold doneIf
  split
  · exact h.2
  · rfl

@[simp] theorem no_mem_data (s : State) (a1) : (no s a1).1.mem.data = s.mem.data := by
  simp [no]

@[simp] theorem State.updUoa_mem_data (s : State) (a1) (a2) : (State.updUoa s a1 a2).mem.data = s.mem.data := by
  simp [State.updUoa]

@[simp] theorem State.endUoa_mem_data (s : State) (a1) : (State.endUoa s a1).mem.data = s.mem.data := by
  simp [State.endUoa]

@[simp] theorem State.select_mem_data (s : State) (a1) (a2) (a3) (a4) : (State.select s a1 a2 a3 a4).1.mem.data = s.mem.data := by
  simp [State.select]

@[simp] theorem State.installKey_mem_data (s : State) (a1) (a2) (a3) (a4) (a5) :
    (State.installKey s a1 a2 a3 a4 a5).1.mem.data = s.mem.data := by
  unfold State.installKey
  (repeat' split) <;> simp

@[simp] theorem State.write20_mem_data (s : State) (a1) (a2) (a3) (a4) :
    (State.write20 s a1 a2 a3 a4).1.mem.data = s.mem.data := by
  unfold State.write20
  try dsimp only
  split
  · split <;> rfl
  · simp
  · rfl
  · rfl
  · rfl
  · simp
  · rfl
  · simp
  · rfl

@[simp] theorem State.write2400_mem_data (s : State) (a1) (a2) (a3) (a4) :
    (State.write2400 s a1 a2 a3 a4).1.mem.data = s.mem.data := by
  unfold State.write2400
  dsimp only
  (repeat' split) <;> simp

@[simp] theorem State.userCal_mem_data (s : State) (a1) : (State.userCal s a1).mem.data = s.mem.data := by
  simp [State.userCal]

@[simp] theorem State.write3100_mem_data (s : State) (a1) (a2) (a3) (a4) :
    (State.write3100 s a1 a2 a3 a4).1.mem.data = s.mem.data := by
  unfold State.write3100
  dsimp only
  (repeat' split) <;> simp

@[simp] theorem State.write3400_mem_data (s : State) (a1) (a2) (a3) : (State.write3400 s a1 a2 a3).1.mem.data = s.mem.data := by
  unfold State.write3400
  split <;> simp

@[simp] theorem State.write4100_mem_data (s : State) (a1) (a2) : (State.write4100 s a1 a2).1.mem.data = s.mem.data := by
  unfold State.write4100
  split <;> simp

@[simp] theorem State.write4200_mem_data (s : State) (a1) (a2) (a3) : (State.write4200 s a1 a2 a3).1.mem.data = s.mem.data := by
  unfold State.write4200
  split <;> simp

@[simp] theorem State.resetLink_mem_data (s : State) (a1) (a2) : (State.resetLink s a1 a2).1.mem.data = s.mem.data := by
  unfold State.resetLink
  (repeat' split) <;> simp

@[simp] theorem State.write6000_mem_data (s : State) (a1) (a2) (a3) (a4) :
    (State.write6000 s a1 a2 a3 a4).1.mem.data = s.mem.data := by
  unfold State.write6000
  split <;> simp

@[simp] theorem State.write6100_mem_data (s : State) (a1) (a2) : (State.write6100 s a1 a2).1.mem.data = s.mem.data := by
  unfold State.write6100
  split <;> simp

@[simp] theorem State.write7000_mem_data (s : State) (a1) (a2) (a3) (a4) :
    (State.write7000 s a1 a2 a3 a4).1.mem.data = s.mem.data := by
  unfold State.write7000
  split <;> simp

@[simp] theorem State.openSession_mem_data (s : State) (a1) (a2) : (State.openSession s a1 a2).1.mem.data = s.mem.data := by
  unfold State.openSession
  dsimp only
  (repeat' split) <;> simp

@[simp] theorem State.reopenSession_mem_data (s : State) (a1) (a2) : (State.reopenSession s a1 a2).1.mem.data = s.mem.data := by
  unfold State.reopenSession
  dsimp only
  (repeat' split) <;> simp

@[simp] theorem State.connect_mem_data (s : State) (a1) (a2) : (State.connect s a1 a2).1.mem.data = s.mem.data := by
  unfold State.connect
  try dsimp only
  split
  · rfl
  split
  · rfl
  · try simp
    rw [foldl_mem_data]
    · try simp
    · intro t b
      split <;> rfl

@[simp] theorem State.putImage_mem_data (s : State) (a1) (a2) : (State.putImage s a1 a2).1.mem.data = s.mem.data := by
  unfold State.putImage
  split <;> simp

@[simp] theorem State.startTrial_mem_data (s : State) (a1) (a2) : (State.startTrial s a1 a2).1.mem.data = s.mem.data := by
  unfold State.startTrial
  dsimp only
  (repeat' split) <;> simp

@[simp] theorem State.requestShutdown_mem_data (s : State) : (State.requestShutdown s).1.mem.data = s.mem.data := by
  unfold State.requestShutdown
  split <;> simp

@[simp] theorem State.requestDrain_mem_data (s : State) (a1) : (State.requestDrain s a1).1.mem.data = s.mem.data := by
  simp [State.requestDrain]

@[simp] theorem State.clearFlag_mem_data (s : State) (a1) : (State.clearFlag s a1).1.mem.data = s.mem.data := by
  simp [State.clearFlag]

@[simp] theorem State.flushNow_mem_data (s : State) (a1) : (State.flushNow s a1).1.mem.data = s.mem.data := by
  simp [State.flushNow]

@[simp] theorem State.installAnchor_mem_data (s : State) (a1) (a2) (a3) :
    (State.installAnchor s a1 a2 a3).1.mem.data = s.mem.data := by
  unfold State.installAnchor
  dsimp only
  (repeat' split) <;> simp

@[simp] theorem State.removeAnchor_mem_data (s : State) (a1) (a2) : (State.removeAnchor s a1 a2).1.mem.data = s.mem.data := by
  unfold State.removeAnchor
  dsimp only
  (repeat' split) <;> simp

@[simp] theorem State.writeF020_mem_data (s : State) (a1) (a2) (a3) (a4) :
    (State.writeF020 s a1 a2 a3 a4).1.mem.data = s.mem.data := by
  unfold State.writeF020
  (repeat' split) <;> simp

@[simp] theorem State.setPending_mem_data (s : State) (a1) (a2) (a3) (a4) :
    (State.setPending s a1 a2 a3 a4).mem.data = s.mem.data := by
  simp [State.setPending]

@[simp] theorem State.dictStage_mem_data (s : State) (a1) (a2) (a3) (a4) (a5) :
    (State.dictStage s a1 a2 a3 a4 a5).1.mem.data = s.mem.data := by
  unfold State.dictStage
  dsimp only
  (repeat' split) <;> simp

@[simp] theorem State.changeRec_mem_data (s : State) (a1) (a2) (a3) (a4) :
    (State.changeRec s a1 a2 a3 a4).mem.data = s.mem.data := by
  simp [State.changeRec]

@[simp] theorem State.keep_mem_data (s : State) (a1) (a2) : (State.keep s a1 a2).mem.data = s.mem.data := by
  simp [State.keep]

@[simp] theorem State.refuseItem_mem_data (s : State) (a1) (a2) (a3) (a4) :
    (State.refuseItem s a1 a2 a3 a4).mem.data = s.mem.data := by
  simp [State.refuseItem]

@[simp] theorem State.tryItem_mem_data (s : State) (a1) (a2) (a3) (a4 : Effect) (h : ∀ t, True ∧ ((a4 t).1).mem.data = t.mem.data) : (State.tryItem s a1 a2 a3 a4).1.mem.data = s.mem.data := by
  simp only [State.tryItem]
  (repeat' split) <;> simp_all

@[simp] theorem State.wrappingKey_mem_data (s : State) (a1) (a2) : (State.wrappingKey s a1 a2).1.mem.data = s.mem.data := by
  simp [State.wrappingKey]

@[simp] theorem State.readItem_mem_data (s : State) (a1) (a2) : (State.readItem s a1 a2).1.mem.data = s.mem.data := by
  unfold State.readItem
  dsimp only
  (repeat' split) <;> simp

@[simp] theorem State.readItems_mem_data (s : State) (a1) (a2) : (State.readItems s a1 a2).1.mem.data = s.mem.data := by
  induction a2 generalizing s with
  | nil => rfl
  | cons i t ih =>
    unfold State.readItems
    simp [ih]

@[simp] theorem State.uoaDrop_mem_data (s : State) : (State.uoaDrop s).mem.data = s.mem.data := by
  simp [State.uoaDrop]

@[simp] theorem State.resendReply_mem_data (s : State) (a1) (a2) : (State.resendReply s a1 a2).mem.data = s.mem.data := by
  unfold State.resendReply
  split <;> simp

@[simp] theorem State.reply_mem_data (s : State) (a1) (a2) (a3) (a4) (a5) :
    (State.reply s a1 a2 a3 a4 a5).mem.data = s.mem.data := by
  simp [State.reply]

@[simp] theorem State.uoaRequest_mem_data (s : State) (a1) (a2) (a3) (a4) (a5) (a6 : UoaSess → State → State × List UItem) (h : ∀ u t, True ∧ ((a6 u t).1).mem.data = t.mem.data) : (State.uoaRequest s a1 a2 a3 a4 a5 a6).mem.data = s.mem.data := by
  simp only [State.uoaRequest]
  (repeat' split) <;> simp_all

@[simp] theorem State.writeOne_mem_data (s : State) (a1) (a2) (a3) (a4) (a5 : UoaSess → Effect) (h : ∀ u t, True ∧ ((a5 u t).1).mem.data = t.mem.data) : (State.writeOne s a1 a2 a3 a4 a5).mem.data = s.mem.data := by
  unfold State.writeOne
  extract_lets
  (repeat' split) <;> simp [*]

@[simp] theorem State.helloReply_mem_data (s : State) (a1) (a2) (a3) : (State.helloReply s a1 a2 a3).mem.data = s.mem.data := by
  simp [State.helloReply]

@[simp] theorem State.hsFail_mem_data (s : State) : (State.hsFail s).mem.data = s.mem.data := by
  simp [State.hsFail]

@[simp] theorem State.withFetchWord_mem_data (s : State) (a1) (a2) : (State.withFetchWord s a1 a2).mem.data = s.mem.data := by
  unfold State.withFetchWord
  split <;> simp

/-! ## Operations that write the data space -/

theorem Cells.wf_setLine (m : Cells) (line : Nat) (v : Line) (h : Cells.wf m = true) :
    Cells.wf (Cells.setLine m line v) = true := by
  unfold Cells.setLine
  exact Cells.wf_write _ _ _ h

@[simp] theorem State.setMemLine_data_wf (s : State) (line : Nat) (v : Line) (hs : Cells.wf s.mem.data = true) :
    Cells.wf (s.setMemLine line v).mem.data = true := Cells.wf_setLine _ _ _ hs

theorem foldl_data_wf {α : Type} (g : State → α → State)
    (h : ∀ t a, Cells.wf t.mem.data = true → Cells.wf (g t a).mem.data = true) (l : List α) (s : State)
    (hs : Cells.wf s.mem.data = true) : Cells.wf (l.foldl g s).mem.data = true := by
  induction l generalizing s with
  | nil => exact hs
  | cons a t ih => exact ih _ (h s a hs)

@[simp] theorem foldl_data_wf_simp {α : Type} (g : State → α → State) (l : List α) (s : State)
    (h : True ∧ ∀ t a, Cells.wf t.mem.data = true → Cells.wf (g t a).mem.data = true) (hs : Cells.wf s.mem.data = true) :
    Cells.wf (l.foldl g s).mem.data = true := foldl_data_wf g h.2 l s hs

theorem foldlp_data_wf {α β : Type} (g : State × β → α → State × β)
    (h : ∀ x a, Cells.wf x.1.mem.data = true → Cells.wf (g x a).1.mem.data = true) (l : List α) (z : State × β) (hz : Cells.wf z.1.mem.data = true) :
    Cells.wf (l.foldl g z).1.mem.data = true := by
  induction l generalizing z with
  | nil => exact hz
  | cons a t ih => exact ih _ (h z a hz)

@[simp] theorem State.zeroLines_data_wf (s : State) (a1) (a2) (hs : Cells.wf s.mem.data = true) :
    Cells.wf (State.zeroLines s a1 a2).mem.data = true := by
  simp [State.zeroLines, *]

@[simp] theorem State.readStore_data_wf (s : State) (a1) (a2) (a3 : State → State) (h : ∀ t, Cells.wf t.mem.data = true → Cells.wf (a3 t).mem.data = true) (hs : Cells.wf s.mem.data = true) :
    Cells.wf (State.readStore s a1 a2 a3).mem.data = true := by
  unfold State.readStore
  split
  · exact h _ hs
  · exact h _ (by simp [hs])
  · simp [hs]

@[simp] theorem State.issueAt_data_wf (s : State) (a1) (a2) (a3) (a4) (a5) (a6 : State → State) (h : ∀ t, Cells.wf t.mem.data = true → Cells.wf (a6 t).mem.data = true) (hs : Cells.wf s.mem.data = true) :
    Cells.wf (State.issueAt s a1 a2 a3 a4 a5 a6).mem.data = true := by
  unfold State.issueAt
  split
  · exact hs
  · refine State.readStore_data_wf _ _ _ _ (fun t ht => ?_) hs
    try dsimp only
    (repeat' split) <;> first | exact h _ (by simp [ht]) | simp [ht]

@[simp] theorem State.issue_data_wf (s : State) (a1) (a2) (a3) (a4) (a5 : State → State) (h : ∀ t, Cells.wf t.mem.data = true → Cells.wf (a5 t).mem.data = true) (hs : Cells.wf s.mem.data = true) :
    Cells.wf (State.issue s a1 a2 a3 a4 a5).mem.data = true := by
  unfold State.issue
  exact State.issueAt_data_wf _ _ _ _ _ _ _ h hs

@[simp] theorem State.useWideAt_data_wf (s : State) (a1) (a2) (a3) (a4) (a5 : State → State) (h : ∀ t, Cells.wf t.mem.data = true → Cells.wf (a5 t).mem.data = true) (hs : Cells.wf s.mem.data = true) :
    Cells.wf (State.useWideAt s a1 a2 a3 a4 a5).mem.data = true := by
  unfold State.useWideAt
  split
  · simp [hs]
  · exact h _ (by simp [hs])

@[simp] theorem State.useWide_data_wf (s : State) (a1) (a2) (a3) (a4 : State → State) (h : ∀ t, Cells.wf t.mem.data = true → Cells.wf (a4 t).mem.data = true) (hs : Cells.wf s.mem.data = true) :
    Cells.wf (State.useWide s a1 a2 a3 a4).mem.data = true := by
  unfold State.useWide
  (try dsimp only)
  (repeat' split) <;> first | (simp_all; done) | (rename_i e; have k := congrArg (fun r => Cells.wf r.1.mem.data) e; simp [hs] at k; simp [k]; done)

@[simp] theorem State.readChecked_data_wf (s : State) (a1) (a2) (a3) (a4) (a5) (a6 : State → State) (h : ∀ t, Cells.wf t.mem.data = true → Cells.wf (a6 t).mem.data = true) (hs : Cells.wf s.mem.data = true) :
    Cells.wf (State.readChecked s a1 a2 a3 a4 a5 a6).mem.data = true := by
  unfold State.readChecked
  split <;> (rename_i e; have k := congrArg (fun r => Cells.wf r.1.mem.data) e; simp [hs] at k)
  · exact h _ k
  · simp [k]

@[simp] theorem State.readReg_data_wf (s : State) (a1) (a2) (a3) (a4) (a5) (a6 : RegOut → AccReg → State → State) (h : ∀ r x t, Cells.wf t.mem.data = true → Cells.wf (a6 r x t).mem.data = true) (hs : Cells.wf s.mem.data = true) :
    Cells.wf (State.readReg s a1 a2 a3 a4 a5 a6).mem.data = true := by
  unfold State.readReg
  dsimp only
  (repeat' split) <;> simp_all

@[simp] theorem State.vecChecked_data_wf (s : State) (a1) (a2) (a3) (a4) (a5) (a6 : State → State) (h : ∀ t, Cells.wf t.mem.data = true → Cells.wf (a6 t).mem.data = true) (hs : Cells.wf s.mem.data = true) :
    Cells.wf (State.vecChecked s a1 a2 a3 a4 a5 a6).mem.data = true := by
  unfold State.vecChecked
  (repeat' split) <;> first | exact h _ hs | simp [hs]

@[simp] theorem State.vecOp_data_wf (s : State) (a1) (a2) (a3) (a4 : State → State) (h : ∀ t, Cells.wf t.mem.data = true → Cells.wf (a4 t).mem.data = true) (hs : Cells.wf s.mem.data = true) :
    Cells.wf (State.vecOp s a1 a2 a3 a4).mem.data = true := by
  unfold State.vecOp
  refine State.issue_data_wf _ _ _ _ _ _ (fun t ht => ?_) hs
  exact State.vecChecked_data_wf _ _ _ _ _ _ _ h ht

@[simp] theorem State.vecLine_data_wf (s : State) (a1) (a2) (a3) (a4) (a5) (a6) (a7 : State → State) (h : ∀ t, Cells.wf t.mem.data = true → Cells.wf (a7 t).mem.data = true) (hs : Cells.wf s.mem.data = true) :
    Cells.wf (State.vecLine s a1 a2 a3 a4 a5 a6 a7).mem.data = true := by
  unfold State.vecLine
  refine State.issue_data_wf _ _ _ _ _ _ (fun t ht => ?_) hs
  try dsimp only
  split
  · simpa using ht
  · refine State.useWide_data_wf _ _ _ _ _ (fun u hu => ?_) ht
    refine State.readChecked_data_wf _ _ _ _ _ _ _ (fun u hu => ?_) hu
    exact State.vecChecked_data_wf _ _ _ _ _ _ _ h hu

@[simp] theorem State.readLanes_data_wf (s : State) (a1) (a2) (a3) (a4) (a5 : State → State) (h : ∀ t, Cells.wf t.mem.data = true → Cells.wf (a5 t).mem.data = true) (hs : Cells.wf s.mem.data = true) :
    Cells.wf (State.readLanes s a1 a2 a3 a4 a5).mem.data = true := by
  unfold State.readLanes
  (try dsimp only)
  (repeat' split) <;> first | (simp_all; done) | (rename_i e; have k := congrArg (fun r => Cells.wf r.1.mem.data) e; simp [hs] at k; simp [k]; done)

@[simp] theorem State.vecWordOp_data_wf (s : State) (a1) (a2) (a3) (a4) (a5 : State → State) (h : ∀ t, Cells.wf t.mem.data = true → Cells.wf (a5 t).mem.data = true) (hs : Cells.wf s.mem.data = true) :
    Cells.wf (State.vecWordOp s a1 a2 a3 a4 a5).mem.data = true := by
  unfold State.vecWordOp
  refine State.issue_data_wf _ _ _ _ _ _ (fun t ht => ?_) hs
  try dsimp only
  split
  · simpa using ht
  · refine State.readChecked_data_wf _ _ _ _ _ _ _ (fun u hu => ?_) (by simpa using ht)
    exact State.vecChecked_data_wf _ _ _ _ _ _ _ h hu

@[simp] theorem State.withCredit_data_wf (s : State) (a1) (a2) (a3) (a4) (a5) (a6) (a7 : State → State) (h : ∀ t, Cells.wf t.mem.data = true → Cells.wf (a7 t).mem.data = true) (hs : Cells.wf s.mem.data = true) :
    Cells.wf (State.withCredit s a1 a2 a3 a4 a5 a6 a7).mem.data = true := by
  unfold State.withCredit
  (repeat' split) <;> simp [*]

@[simp] theorem State.issueLast_data_wf (s : State) (a1) (a2) (a3) (a4 : State → State) (h : ∀ t, Cells.wf t.mem.data = true → Cells.wf (a4 t).mem.data = true) (hs : Cells.wf s.mem.data = true) :
    Cells.wf (State.issueLast s a1 a2 a3 a4).mem.data = true := by
  unfold State.issueLast
  dsimp only
  (repeat' split) <;> simp_all

@[simp] theorem State.deliver_data_wf (s : State) (a1) (a2) (a3) (a4 : State → State) (h : ∀ t, Cells.wf t.mem.data = true → Cells.wf (a4 t).mem.data = true) (hs : Cells.wf s.mem.data = true) :
    Cells.wf (State.deliver s a1 a2 a3 a4).mem.data = true := by
  unfold State.deliver
  split
  · simp [hs]
  · extract_lets s1 atStack
    have k : Cells.wf s1.mem.data = true := by
      simp only [s1]
      split <;> simp [hs]
    clear_value s1 atStack
    (repeat' split) <;> first | exact h _ k | simp [k]

@[simp] theorem State.zeroGranule_data_wf (s : State) (a1) (hs : Cells.wf s.mem.data = true) :
    Cells.wf (State.zeroGranule s a1).mem.data = true := by
  simp [State.zeroGranule, *]

@[simp] theorem State.setPage_data_wf (s : State) (a1) (a2) (a3) (hs : Cells.wf s.mem.data = true) :
    Cells.wf (State.setPage s a1 a2 a3).mem.data = true := by
  simp [State.setPage, *]

@[simp] theorem State.updDesc_data_wf (s : State) (a1) (a2) (hs : Cells.wf s.mem.data = true) :
    Cells.wf (State.updDesc s a1 a2).mem.data = true := by
  simp [State.updDesc, *]

@[simp] theorem State.writeEntry_data_wf (s : State) (a1) (a2) (a3) (a4) (hs : Cells.wf s.mem.data = true) :
    Cells.wf (State.writeEntry s a1 a2 a3 a4).mem.data = true := by
  unfold State.writeEntry
  exact State.setMemLine_data_wf _ _ _ (State.setMemLine_data_wf _ _ _ (foldl_data_wf _ (fun t a ht => by simp [ht]) _ _ hs))

@[simp] theorem State.writeEntries_data_wf (s : State) (a1) (a2) (a3) (a4) (hs : Cells.wf s.mem.data = true) :
    Cells.wf (State.writeEntries s a1 a2 a3 a4).mem.data = true := by
  unfold State.writeEntries
  refine foldl_data_wf _ (fun t a ht => ?_) _ _ hs
  try dsimp only
  split
  · exact ht
  · split <;> simp [ht]

@[simp] theorem State.append_data_wf (s : State) (a1) (a2) (a3) (hs : Cells.wf s.mem.data = true) :
    Cells.wf (State.append s a1 a2 a3).mem.data = true := by
  simp [State.append, *]

@[simp] theorem State.storeRows_data_wf (s : State) (a1) (a2) (hs : Cells.wf s.mem.data = true) :
    Cells.wf (State.storeRows s a1 a2).mem.data = true := by
  unfold State.storeRows
  exact foldl_data_wf _ (fun t a ht => by simp [ht]) _ _ hs

@[simp] theorem State.finishAttend_data_wf (s : State) (a1) (a2) (a3) (a4) (a5) (a6) (hs : Cells.wf s.mem.data = true) :
    Cells.wf (State.finishAttend s a1 a2 a3 a4 a5 a6).mem.data = true := by
  unfold State.finishAttend
  dsimp only
  generalize hr : State.fetchLines _ _ _ _ _ _ _ = r
  have k : Cells.wf r.1.mem.data = true := by
    rw [← hr, State.fetchLines_mem_data]
    (repeat' split) <;> simp [hs]
  obtain ⟨s2, ok⟩ := r
  (repeat' split) <;> first | simp_all | skip
  all_goals
    generalize hm : State.moveLines _ _ _ _ _ _ = m
    have km : Cells.wf m.1.mem.data = true := by rw [← hm, State.moveLines_mem_data]; exact k
    obtain ⟨s3, ok3⟩ := m
    (repeat' split) <;> simp_all

@[simp] theorem State.finishAppend_data_wf (s : State) (a1) (a2) (a3) (a4) (a5) (hs : Cells.wf s.mem.data = true) :
    Cells.wf (State.finishAppend s a1 a2 a3 a4 a5).mem.data = true := by
  unfold State.finishAppend
  dsimp only
  split
  · simp [hs]
  · generalize hr : State.appendTraffic _ _ _ _ _ _ = r
    have k : Cells.wf r.1.mem.data = true := by rw [← hr, State.appendTraffic_mem_data]; exact hs
    obtain ⟨s1, ok⟩ := r
    (repeat' split) <;> simp_all

@[simp] theorem State.finishJob_data_wf (s : State) (a1) (a2) (a3) (a4) (a5) (a6) (hs : Cells.wf s.mem.data = true) :
    Cells.wf (State.finishJob s a1 a2 a3 a4 a5 a6).mem.data = true := by
  unfold State.finishJob
  split <;> simp [hs]

@[simp] theorem State.mapPages_data_wf (s : State) (a1) (a2) (hs : Cells.wf s.mem.data = true) :
    Cells.wf (State.mapPages s a1 a2).mem.data = true := by
  induction a2 with
  | zero => exact hs
  | succ n ih =>
    unfold State.mapPages
    try dsimp only
    split
    · exact ih
    · split <;> (rename_i e; have e := congrArg (fun r => r.1.mem.data) e; simp at e)
      · rw [← e]
        exact ih
      · exact State.updDesc_data_wf _ _ _ (State.setPage_data_wf _ _ _ _ (State.zeroLines_data_wf _ _ _ (e ▸ ih)))

@[simp] theorem State.mapAhead_data_wf (s : State) (a1) (hs : Cells.wf s.mem.data = true) :
    Cells.wf (State.mapAhead s a1).mem.data = true := by
  simp [State.mapAhead, *]

@[simp] theorem State.descLine_data_wf (s : State) (a1) (hs : Cells.wf s.mem.data = true) :
    Cells.wf (State.descLine s a1).1.mem.data = true := by
  unfold State.descLine
  (try dsimp only)
  (repeat' split) <;> first | (simp_all; done) | (rename_i e; have k := congrArg (fun r => Cells.wf r.1.mem.data) e; simp [hs] at k; simp [k]; done)

@[simp] theorem State.openCtx_data_wf (s : State) (a1) (a2) (a3) (a4) (a5) (a6) (hs : Cells.wf s.mem.data = true) :
    Cells.wf (State.openCtx s a1 a2 a3 a4 a5 a6).1.mem.data = true := by
  unfold State.openCtx
  split <;> (rename_i e; have k := congrArg (fun r => Cells.wf r.1.mem.data) e; simp [hs] at k)
  · exact k
  · split
    · exact hs
    · rename_i e2
      have k2 := congrArg (fun r => Cells.wf r.1.mem.data) e2
      simp [k] at k2
      exact State.mapAhead_data_wf _ _ (State.updDesc_data_wf _ _ _ (State.zeroLines_data_wf _ _ _ k2))

@[simp] theorem State.openStreams_data_wf (s : State) (a1) (a2) (hs : Cells.wf s.mem.data = true) :
    Cells.wf (State.openStreams s a1 a2).mem.data = true := by
  unfold State.openStreams
  exact foldl_data_wf _ (fun t a ht => by simp [ht]) _ _ hs

@[simp] theorem State.dropStream_data_wf (s : State) (a1) (hs : Cells.wf s.mem.data = true) :
    Cells.wf (State.dropStream s a1).mem.data = true := by
  unfold State.dropStream
  dsimp only
  simp only [State.updPart_mem]
  apply State.updDesc_data_wf
  rw [State.giveChunks_mem_data]
  exact foldl_data_wf _ (fun t a ht => by simp [ht]) _ _ hs

@[simp] theorem State.dropStreams_data_wf (s : State) (a1) (a2) (hs : Cells.wf s.mem.data = true) :
    Cells.wf (State.dropStreams s a1 a2).mem.data = true := by
  unfold State.dropStreams
  exact foldl_data_wf _ (fun t a ht => by simp [ht]) _ _ hs

@[simp] theorem State.commitStream_data_wf (s : State) (a1) (a2) (hs : Cells.wf s.mem.data = true) :
    Cells.wf (State.commitStream s a1 a2).mem.data = true := by
  unfold State.commitStream
  dsimp only
  (repeat' split) <;> simp_all

@[simp] theorem State.commitStreams_data_wf (s : State) (a1) (a2) (a3) (hs : Cells.wf s.mem.data = true) :
    Cells.wf (State.commitStreams s a1 a2 a3).mem.data = true := by
  unfold State.commitStreams
  exact foldl_data_wf _ (fun t a ht => by simp [ht]) _ _ hs

@[simp] theorem State.updAdapter_data_wf (s : State) (a1) (a2) (hs : Cells.wf s.mem.data = true) :
    Cells.wf (State.updAdapter s a1 a2).mem.data = true := by
  unfold State.updAdapter
  dsimp only
  (repeat' split) <;> simp_all

@[simp] theorem State.placeAdapter_data_wf (s : State) (a1) (a2) (a3) (a4) (hs : Cells.wf s.mem.data = true) :
    Cells.wf (State.placeAdapter s a1 a2 a3 a4).mem.data = true := by
  unfold State.placeAdapter
  (try dsimp only)
  (repeat' split) <;> first | (simp_all; done) | (rename_i e; have k := congrArg (fun r => Cells.wf r.1.mem.data) e; simp [hs] at k; simp [k]; done)

@[simp] theorem State.setMemBytes_data_wf (s : State) (a1) (a2) (hs : Cells.wf s.mem.data = true) :
    Cells.wf (State.setMemBytes s a1 a2).mem.data = true := by
  unfold State.setMemBytes
  (try dsimp only)
  (repeat' split) <;> first | (simp_all; done) | (rename_i e; have k := congrArg (fun r => Cells.wf r.1.mem.data) e; simp [hs] at k; simp [k]; done)

@[simp] theorem State.drainWindow_data_wf (s : State) (a1) (hs : Cells.wf s.mem.data = true) :
    Cells.wf (State.drainWindow s a1).mem.data = true := by
  unfold State.drainWindow
  dsimp only
  split
  · simp
    apply State.zeroLines_data_wf
    simp [hs]
  · exact hs

@[simp] theorem State.dropWindows_data_wf (s : State) (hs : Cells.wf s.mem.data = true) :
    Cells.wf (State.dropWindows s).mem.data = true := by
  unfold State.dropWindows
  refine foldl_data_wf _ (fun t x ht => ?_) _ _ hs
  split
  · exact ht
  · exact State.drainWindow_data_wf _ _ (by simpa using ht)

@[simp] theorem State.writeTables_data_wf (s : State) (a1) (a2) (a3) (hs : Cells.wf s.mem.data = true) :
    Cells.wf (State.writeTables s a1 a2 a3).mem.data = true := by
  unfold State.writeTables
  extract_lets at_ s1 s2
  have k1 : Cells.wf s1.mem.data = true := State.setMemLine_data_wf _ _ _ hs
  have k2 : Cells.wf s2.mem.data = true := by
    simp only [s2]
    split
    · exact State.setMemLine_data_wf _ _ _ k1
    · exact k1
  split
  · exact k2
  · split
    · exact State.setMemLine_data_wf _ _ _ k2
    · exact k2

@[simp] theorem State.writeRing_data_wf (s : State) (a1) (a2) (hs : Cells.wf s.mem.data = true) :
    Cells.wf (State.writeRing s a1 a2).mem.data = true := by
  unfold State.writeRing
  dsimp only
  (repeat' split) <;> simp_all

@[simp] theorem State.assign_data_wf (s : State) (a1) (a2) (a3) (a4) (hs : Cells.wf s.mem.data = true) :
    Cells.wf (State.assign s a1 a2 a3 a4).1.mem.data = true := by
  unfold State.assign
  (repeat' split) <;> simp [*]

@[simp] theorem State.complete_data_wf (s : State) (a1) (a2) (a3) (a4) (hs : Cells.wf s.mem.data = true) :
    Cells.wf (State.complete s a1 a2 a3 a4).mem.data = true := by
  simp [State.complete, *]

@[simp] theorem State.freeAccount_data_wf (s : State) (a1) (hs : Cells.wf s.mem.data = true) :
    Cells.wf (State.freeAccount s a1).mem.data = true := by
  unfold State.freeAccount
  dsimp only
  simp [hs]

@[simp] theorem State.parked_data_wf (s : State) (a1) (a2) (hs : Cells.wf s.mem.data = true) :
    Cells.wf (State.parked s a1 a2).mem.data = true := by
  unfold State.parked
  (repeat' split) <;> simp [*]

@[simp] theorem State.committed_data_wf (s : State) (a1) (a2) (a3) (a4) (a5) (a6) (a7) (a8) (a9) (hs : Cells.wf s.mem.data = true) :
    Cells.wf (State.committed s a1 a2 a3 a4 a5 a6 a7 a8 a9).mem.data = true := by
  unfold State.committed
  dsimp only
  split <;> simp [hs]

@[simp] theorem State.commitAdapter_data_wf (s : State) (a1) (a2) (a3) (hs : Cells.wf s.mem.data = true) :
    Cells.wf (State.commitAdapter s a1 a2 a3).mem.data = true := by
  simp [State.commitAdapter, *]

@[simp] theorem State.learned_data_wf (s : State) (a1) (a2) (a3) (a4) (hs : Cells.wf s.mem.data = true) :
    Cells.wf (State.learned s a1 a2 a3 a4).mem.data = true := by
  unfold State.learned
  dsimp only
  split <;> simp [hs]

@[simp] theorem State.restored_data_wf (s : State) (a1) (a2) (hs : Cells.wf s.mem.data = true) :
    Cells.wf (State.restored s a1 a2).mem.data = true := by
  unfold State.restored
  extract_lets a x s1
  have k : Cells.wf s1.mem.data = true := by
    simp only [s1]
    split
    · exact hs
    · exact State.commitStreams_data_wf _ _ _ _ (State.updAdapter_data_wf _ _ _ (by simpa using hs))
  clear_value s1
  split <;> simp [k]

@[simp] theorem State.completed_data_wf (s : State) (a1) (hs : Cells.wf s.mem.data = true) :
    Cells.wf (State.completed s a1).mem.data = true := by
  unfold State.completed
  (repeat' split) <;> simp [*]

@[simp] theorem State.retired_data_wf (s : State) (a1) (a2) (hs : Cells.wf s.mem.data = true) :
    Cells.wf (State.retired s a1 a2).mem.data = true := by
  unfold State.retired
  extract_lets gone s1 s2 src s3 s4
  have k : Cells.wf s1.mem.data = true := by
    simp only [s1]
    refine foldl_data_wf _ (fun t b ht => ?_) _ _ (foldl_data_wf _ (fun t a ht => by simp [ht]) _ _ hs)
    split
    · split <;> simp [ht]
    · exact ht
  have k3 : Cells.wf s3.mem.data = true := by simpa [s3, s2] using k
  clear_value s3
  have k4 : Cells.wf s4.mem.data = true := by
    simp only [s4]
    exact foldl_data_wf _ (fun t b ht => State.writeTables_data_wf _ _ _ _ (State.setMemLine_data_wf _ _ _ ht)) _ _ k3
  rw [State.tryFree_mem_data]
  exact k4

@[simp] theorem State.applyRec_data_wf (s : State) (a1) (a2) (hs : Cells.wf s.mem.data = true) :
    Cells.wf (State.applyRec s a1 a2).mem.data = true := by
  unfold State.applyRec
  dsimp only
  (repeat' split) <;> simp_all

@[simp] theorem State.applyOnce_data_wf (s : State) (a1) (a2) (hs : Cells.wf s.mem.data = true) :
    Cells.wf (State.applyOnce s a1 a2).mem.data = true := by
  simp [State.applyOnce, *]

@[simp] theorem State.runJournal_data_wf (s : State) (a1) (hs : Cells.wf s.mem.data = true) :
    Cells.wf (State.runJournal s a1).mem.data = true := by
  induction a1 generalizing s with
  | zero => exact hs
  | succ n ih =>
    unfold State.runJournal
    split
    · exact ih _ (State.applyOnce_data_wf _ _ _ hs)
    · split
      · exact ih _ (State.applyOnce_data_wf _ _ _ hs)
      · exact hs

@[simp] theorem State.runDurable_data_wf (s : State) (hs : Cells.wf s.mem.data = true) :
    Cells.wf (State.runDurable s).mem.data = true := by
  unfold State.runDurable
  (repeat' split) <;> simp [*]

@[simp] theorem State.ackLsn_data_wf (s : State) (a1) (hs : Cells.wf s.mem.data = true) :
    Cells.wf (State.ackLsn s a1).mem.data = true := by
  simp [State.ackLsn, *]

@[simp] theorem State.replayAcct_data_wf (a1) (s : State) (a2) (hs : Cells.wf s.mem.data = true) :
    Cells.wf (State.replayAcct a1 s a2).mem.data = true := by
  unfold State.replayAcct
  (repeat' split) <;> simp [*]

@[simp] theorem State.replaySub_data_wf (a1) (a2) (a3) (s : State) (a4) (hs : Cells.wf s.mem.data = true) :
    Cells.wf (State.replaySub a1 a2 a3 s a4).mem.data = true := by
  unfold State.replaySub
  extract_lets a
  split
  case h_6 n ack e =>
    have k : Cells.wf (List.foldl (fun (t : State) (b : Sub) => match b.account with
        | some k => if a3 k.val ≤ b.lsn then t.freeAccount k.val else t
        | none => t) s ((s.ledger.subs.filter (fun b => decide (b.sess = n ∧ b.covered = a2 ∧ b.ssn ≤ ack ∧ b.st = .completed) &&
          decide (b.subkind = 3 ∧ b.status = 0))))).mem.data = true := by
      refine foldl_data_wf _ (fun t b ht => ?_) _ _ hs
      (repeat' split) <;> simp [ht]
    dsimp only
    split
    · exact k
    · rw [State.updSess_mem]
      exact k
  all_goals (try dsimp only); (repeat' split) <;> first | exact hs | simp [hs]

@[simp] theorem State.replayRec_data_wf (a1) (a2) (a3) (s : State) (a4) (hs : Cells.wf s.mem.data = true) :
    Cells.wf (State.replayRec a1 a2 a3 s a4).mem.data = true := by
  unfold State.replayRec
  extract_lets s1 s2
  have k : Cells.wf s1.mem.data = true := State.replaySub_data_wf _ _ _ _ _ hs
  have k2 : Cells.wf s2.mem.data = true := by
    simp only [s2]
    split
    · exact State.replayAcct_data_wf _ _ _ k
    · exact k
  exact State.writeTables_data_wf _ _ _ _ k2

@[simp] theorem State.finishEnded_data_wf (s : State) (a1) (hs : Cells.wf s.mem.data = true) :
    Cells.wf (State.finishEnded s a1).mem.data = true := by
  unfold State.finishEnded
  refine foldl_data_wf _ (fun t b ht => ?_) _ _ hs
  try dsimp only
  split
  · split <;> simp [ht]
  · exact ht

@[simp] theorem State.takeOver_data_wf (s : State) (hs : Cells.wf s.mem.data = true) :
    Cells.wf (State.takeOver s).mem.data = true := by
  unfold State.takeOver
  split
  · exact hs
  · extract_lets recs sm sl s1 s2
    have k1 : Cells.wf s1.mem.data = true := hs
    have k2 : Cells.wf s2.mem.data = true := by
      simp only [s2, State.adoptSessions_mem_data]
      exact foldl_data_wf _ (fun t r ht => State.replayRec_data_wf _ _ _ _ _ ht) _ _ (by simpa using k1)
    clear_value s2
    rw [State.resendAll_mem_data]
    exact State.runDurable_data_wf _ (State.finishEnded_data_wf _ _ (State.runDurable_data_wf _ (State.finishEnded_data_wf _ _
      (by simpa using k2))))

@[simp] theorem State.startCovering_data_wf (s : State) (a1) (hs : Cells.wf s.mem.data = true) :
    Cells.wf (State.startCovering s a1).mem.data = true := by
  unfold State.startCovering
  (repeat' split) <;> simp [*]

@[simp] theorem State.coverFrame_data_wf (s : State) (hs : Cells.wf s.mem.data = true) :
    Cells.wf (State.coverFrame s).mem.data = true := by
  unfold State.coverFrame
  dsimp only
  (repeat' split) <;> simp_all

@[simp] theorem State.startFrame_data_wf (s : State) (a1) (hs : Cells.wf s.mem.data = true) :
    Cells.wf (State.startFrame s a1).mem.data = true := by
  simp [State.startFrame, *]

@[simp] theorem State.startStreams_data_wf (s : State) (a1) (a2) (a3) (a4) (hs : Cells.wf s.mem.data = true) :
    Cells.wf (State.startStreams s a1 a2 a3 a4).mem.data = true := by
  unfold State.startStreams
  dsimp only
  (repeat' split) <;> simp_all

@[simp] theorem State.moveAcct_data_wf (s : State) (a1) (a2) (a3) (hs : Cells.wf s.mem.data = true) :
    Cells.wf (State.moveAcct s a1 a2 a3).mem.data = true := by
  unfold State.moveAcct
  dsimp only
  (repeat' split) <;> simp_all

@[simp] theorem State.leaveCompanion_data_wf (s : State) (a1) (hs : Cells.wf s.mem.data = true) :
    Cells.wf (State.leaveCompanion s a1).mem.data = true := by
  unfold State.leaveCompanion
  dsimp only
  (repeat' split) <;> simp_all

@[simp] theorem State.startMove_data_wf (s : State) (a1) (a2) (a3) (a4) (hs : Cells.wf s.mem.data = true) :
    Cells.wf (State.startMove s a1 a2 a3 a4).mem.data = true := by
  unfold State.startMove
  dsimp only
  (repeat' split) <;> simp_all

@[simp] theorem State.startMoves_data_wf (s : State) (a1) (a2) (hs : Cells.wf s.mem.data = true) :
    Cells.wf (State.startMoves s a1 a2).mem.data = true := by
  unfold State.startMoves
  (try dsimp only)
  (repeat' split) <;> first | (simp_all; done) | (rename_i e; have k := congrArg (fun r => Cells.wf r.1.mem.data) e; simp [hs] at k; simp [k]; done)

@[simp] theorem State.boundaryWork_data_wf (s : State) (a1) (a2) (hs : Cells.wf s.mem.data = true) :
    Cells.wf (State.boundaryWork s a1 a2).mem.data = true := by
  unfold State.boundaryWork
  dsimp only
  split
  · simp [hs]
  · split <;> simp [hs]

@[simp] theorem State.takeVariant_data_wf (s : State) (a1) (a2) (hs : Cells.wf s.mem.data = true) :
    Cells.wf (State.takeVariant s a1 a2).mem.data = true := by
  unfold State.takeVariant
  (repeat' split) <;> simp [*]

@[simp] theorem State.newsAcct_data_wf (s : State) (a1) (a2) (hs : Cells.wf s.mem.data = true) :
    Cells.wf (State.newsAcct s a1 a2).mem.data = true := by
  unfold State.newsAcct
  extract_lets x p s1 s2
  split
  · exact hs
  split
  · split
    · exact State.updAdapter_data_wf _ _ _ hs
    · split
      · exact hs
      · have k1 : Cells.wf s1.mem.data = true := hs
        have k2 : Cells.wf s2.mem.data = true := by
          simp only [s2]
          split
          · exact State.openStreams_data_wf _ _ _ k1
          · exact k1
        exact State.commitStreams_data_wf _ _ _ _ (State.updAdapter_data_wf _ _ _ k2)
  · split
    · simp [hs]
    · exact hs

@[simp] theorem State.partSealed_data_wf (s : State) (a1) (a2) (a3) (a4) (hs : Cells.wf s.mem.data = true) :
    Cells.wf (State.partSealed s a1 a2 a3 a4).mem.data = true := by
  unfold State.partSealed
  dsimp only
  (repeat' split) <;> simp_all

@[simp] theorem State.writeParcel_data_wf (s : State) (a1) (a2) (a3) (hs : Cells.wf s.mem.data = true) :
    Cells.wf (State.writeParcel s a1 a2 a3).mem.data = true := by
  unfold State.writeParcel
  dsimp only
  refine foldl_data_wf _ (fun t x ht => ?_) _ _ ?_
  · have k := State.openCtx_data_wf t a1 a2 x.1 x.2.1 x.2.2.1 0 ht
    try dsimp only
    split <;> (rename_i e; rw [e] at k; simp at k; simp [k])
  · split <;> simp [hs]

@[simp] theorem State.partReport_data_wf (s : State) (a1) (hs : Cells.wf s.mem.data = true) :
    Cells.wf (State.partReport s a1).mem.data = true := by
  unfold State.partReport
  dsimp only
  (repeat' split) <;> simp_all

@[simp] theorem State.takeRecord_data_wf (s : State) (a1) (hs : Cells.wf s.mem.data = true) :
    Cells.wf (State.takeRecord s a1).mem.data = true := by
  unfold State.takeRecord
  dsimp only
  (repeat' split) <;> simp_all

@[simp] theorem State.noticeCommit_data_wf (s : State) (a1) (hs : Cells.wf s.mem.data = true) :
    Cells.wf (State.noticeCommit s a1).mem.data = true := by
  unfold State.noticeCommit
  dsimp only
  (repeat' split) <;> simp_all

@[simp] theorem State.putEntries_data_wf (s : State) (a1) (a2) (a3) (hs : Cells.wf s.mem.data = true) :
    Cells.wf (State.putEntries s a1 a2 a3).mem.data = true := by
  simp [State.putEntries, *]

@[simp] theorem State.takeMirror_data_wf (s : State) (a1) (a2) (hs : Cells.wf s.mem.data = true) :
    Cells.wf (State.takeMirror s a1 a2).mem.data = true := by
  unfold State.takeMirror
  dsimp only
  split
  · simp [hs]
  · split
    · simp [hs]
    · have k := State.openCtx_data_wf s a2.part.toNat a2.account.val a2.layer a2.head a2.hdim (a2.streamNo.setWidth 13 + 1) hs
      split <;> (rename_i e; rw [e] at k; simp at k; simp [k])

@[simp] theorem State.refusePages_data_wf (s : State) (a1) (a2) (a3) (hs : Cells.wf s.mem.data = true) :
    Cells.wf (State.refusePages s a1 a2 a3).mem.data = true := by
  unfold State.refusePages
  dsimp only
  (repeat' split) <;> simp_all

@[simp] theorem State.finishPages_data_wf (s : State) (a1) (a2) (a3) (a4) (a5) (a6) (hs : Cells.wf s.mem.data = true) :
    Cells.wf (State.finishPages s a1 a2 a3 a4 a5 a6).mem.data = true := by
  unfold State.finishPages
  extract_lets c p s1 open_
  have k1 : Cells.wf s1.mem.data = true := State.updDesc_data_wf _ _ _ hs
  have ho : ∀ t k, Cells.wf t.mem.data = true → Cells.wf (open_ t k).mem.data = true := fun t k ht => by simp [open_, ht]
  clear_value s1 open_
  split
  · split
    · rw [State.markMirror_mem_data]
      exact State.dropStream_data_wf _ _ hs
    · exact State.refusePages_data_wf _ _ _ _ hs
  · split
    · rw [State.markMirror_mem_data]
      exact ho _ _ k1
    · split
      · exact k1
      · rw [State.answerPages_mem_data, State.updAcct_mem]
        exact foldl_data_wf _ (fun t k ht => ho _ _ ht) _ _ k1

@[simp] theorem State.pagesAnswer_data_wf (s : State) (a1) (a2) (hs : Cells.wf s.mem.data = true) :
    Cells.wf (State.pagesAnswer s a1 a2).mem.data = true := by
  unfold State.pagesAnswer
  dsimp only
  (repeat' split) <;> simp_all

@[simp] theorem State.takePages_data_wf (s : State) (a1) (a2) (hs : Cells.wf s.mem.data = true) :
    Cells.wf (State.takePages s a1 a2).mem.data = true := by
  unfold State.takePages
  split
  · simp [hs]
  · split
    · exact hs
    · extract_lets p a s0 found
      have k0 : Cells.wf s0.mem.data = true := by
        simp only [s0]
        split <;> simp [hs]
      have hf : Cells.wf found.1.mem.data = true := by
        simp only [found]
        have k := State.openCtx_data_wf s0 p a a2.layer a2.head a2.hdim 0 k0
        split
        · exact k0
        · split <;> (rename_i e; rw [e] at k; simp at k; simp [k])
      clear_value found
      obtain ⟨s1, key⟩ := found
      dsimp only at hf
      (repeat' split) <;> rename_i h <;> simp_all

@[simp] theorem State.takeShard_data_wf (s : State) (a1) (hs : Cells.wf s.mem.data = true) :
    Cells.wf (State.takeShard s a1).mem.data = true := by
  unfold State.takeShard
  dsimp only
  have k := foldl_data_wf (fun (t : State) (x : Line × Nat) => if a1.firstLine + x.2 < 2 * granuleLines then
    t.setMemLine ((if a1.partner then 2 else 0) * granuleLines + a1.firstLine + x.2) x.1 else t)
    (fun t a ht => by split <;> simp [ht]) a1.lines.zipIdx s hs
  split <;> exact k

@[simp] theorem State.ownLedger_data_wf (s : State) (a1) (a2) (hs : Cells.wf s.mem.data = true) :
    Cells.wf (State.ownLedger s a1 a2).mem.data = true := by
  unfold State.ownLedger
  dsimp only
  simp
  exact foldl_data_wf _ (fun t r ht => by simp [ht]) _ _ hs

@[simp] theorem State.putReplica_data_wf (s : State) (a1) (hs : Cells.wf s.mem.data = true) :
    Cells.wf (State.putReplica s a1).mem.data = true := by
  unfold State.putReplica
  (try dsimp only)
  (repeat' split) <;> first | (simp_all; done) | (rename_i e; have k := congrArg (fun r => Cells.wf r.1.mem.data) e; simp [hs] at k; simp [k]; done)

@[simp] theorem State.takeCopy_data_wf (s : State) (a1) (hs : Cells.wf s.mem.data = true) :
    Cells.wf (State.takeCopy s a1).mem.data = true := by
  unfold State.takeCopy
  dsimp only
  (repeat' split) <;> simp_all

@[simp] theorem State.takeReport_data_wf (s : State) (a1) (hs : Cells.wf s.mem.data = true) :
    Cells.wf (State.takeReport s a1).mem.data = true := by
  unfold State.takeReport
  (repeat' split) <;> simp [*]

@[simp] theorem State.frameEffect_data_wf (s : State) (a1) (a2) (hs : Cells.wf s.mem.data = true) :
    Cells.wf (State.frameEffect s a1 a2).mem.data = true := by
  unfold State.frameEffect
  split
  · exact hs
  · split <;> first | exact hs | simp [hs]

@[simp] theorem State.catchUp_data_wf (s : State) (a1) (a2) (hs : Cells.wf s.mem.data = true) :
    Cells.wf (State.catchUp s a1 a2).mem.data = true := by
  induction a2 generalizing s with
  | zero => exact hs
  | succ n ih =>
    unfold State.catchUp
    try dsimp only
    split
    · refine ih _ ?_
      split
      · split <;> simp [hs]
      · simpa using hs
    · exact hs

@[simp] theorem State.inSequence_data_wf (s : State) (a1) (a2) (a3) (a4) (hs : Cells.wf s.mem.data = true) :
    Cells.wf (State.inSequence s a1 a2 a3 a4).mem.data = true := by
  unfold State.inSequence
  dsimp only
  (repeat' split) <;> simp_all

@[simp] theorem State.receive_data_wf (s : State) (a1) (a2) (hs : Cells.wf s.mem.data = true) :
    Cells.wf (State.receive s a1 a2).mem.data = true := by
  unfold State.receive
  dsimp only
  split
  · exact hs
  · split
    · exact hs
    · split
      · split <;> simp [hs]
      · (repeat' split) <;> simp [hs]
      · exact hs

@[simp] theorem State.landHeld_data_wf (s : State) (a1) (hs : Cells.wf s.mem.data = true) :
    Cells.wf (State.landHeld s a1).mem.data = true := by
  unfold State.landHeld
  dsimp only
  (repeat' split) <;> simp_all

@[simp] theorem State.loadPartition_data_wf (s : State) (a1) (a2) (a3) (hs : Cells.wf s.mem.data = true) :
    Cells.wf (State.loadPartition s a1 a2 a3).mem.data = true := by
  simp [State.loadPartition, *]

@[simp] theorem State.tryLoad_data_wf (s : State) (a1) (a2) (a3) (hs : Cells.wf s.mem.data = true) :
    Cells.wf (State.tryLoad s a1 a2 a3).1.mem.data = true := by
  unfold State.tryLoad
  (repeat' split) <;> simp [*]

@[simp] theorem State.closePartition_data_wf (s : State) (a1) (hs : Cells.wf s.mem.data = true) :
    Cells.wf (State.closePartition s a1).mem.data = true := by
  unfold State.closePartition
  dsimp only
  (repeat' split) <;> simp_all

@[simp] theorem State.copyGranule_data_wf (s : State) (a1) (a2) (hs : Cells.wf s.mem.data = true) :
    Cells.wf (State.copyGranule s a1 a2).mem.data = true := by
  unfold State.copyGranule
  dsimp only
  (repeat' split) <;> simp_all

@[simp] theorem State.placeCopies_data_wf (s : State) (a1) (hs : Cells.wf s.mem.data = true) :
    Cells.wf (State.placeCopies s a1).mem.data = true := by
  unfold State.placeCopies
  extract_lets s1
  have k1 : Cells.wf s1.mem.data = true := State.copyGranule_data_wf _ _ _ (State.copyGranule_data_wf _ _ _ hs)
  split
  · exact State.copyGranule_data_wf _ _ _ (State.copyGranule_data_wf _ _ _ k1)
  · exact k1

@[simp] theorem State.landBytes_data_wf (s : State) (a1) (a2) (a3) (hs : Cells.wf s.mem.data = true) :
    Cells.wf (State.landBytes s a1 a2 a3).mem.data = true := by
  unfold State.landBytes
  exact foldl_data_wf _ (fun t a ht => by simp [ht]) _ _ hs

@[simp] theorem State.landPacket_data_wf (s : State) (a1) (a2) (a3) (a4) (a5) (hs : Cells.wf s.mem.data = true) :
    Cells.wf (State.landPacket s a1 a2 a3 a4 a5).mem.data = true := by
  unfold State.landPacket
  dsimp only
  split
  · simp [hs]
  · split
    · exact State.landBytes_data_wf _ _ _ _ (by simp [hs])
    · simp [hs]

@[simp] theorem State.landMore_data_wf (s : State) (a1) (a2) (a3) (a4) (a5) (hs : Cells.wf s.mem.data = true) :
    Cells.wf (State.landMore s a1 a2 a3 a4 a5).mem.data = true := by
  unfold State.landMore
  split
  · exact hs
  · dsimp only
    split <;> simp [hs]

@[simp] theorem State.takeAck_data_wf (s : State) (a1) (hs : Cells.wf s.mem.data = true) :
    Cells.wf (State.takeAck s a1).mem.data = true := by
  unfold State.takeAck
  dsimp only
  (repeat' split) <;> simp_all

theorem State.writePayload_data_wf {s t : State} {p : Nat} {bs : List Byte} {x : Nat × Nat} (h : s.writePayload p bs = some (t, x)) (hs : Cells.wf s.mem.data = true) :
    Cells.wf t.mem.data = true := by
  unfold State.writePayload at h
  dsimp only at h
  split at h
  · cases h
    exact hs
  · split at h
    · cases h
    · rename_i e
      have e := congrArg (fun r => r.1.mem.data) e
      cases h
      simp at e
      exact foldl_data_wf _ (fun t a ht => by simp [ht]) _ _ (by rw [← e]; exact hs)

@[simp] theorem State.accept_data_wf (s : State) (a1) (a2) (a3) (hs : Cells.wf s.mem.data = true) :
    Cells.wf (State.accept s a1 a2 a3).mem.data = true := by
  unfold State.accept
  split
  · simp [hs]
  · rename_i e
    have k := State.writePayload_data_wf e hs
    dsimp only
    refine State.runDurable_data_wf _ (State.takeAck_data_wf _ _ ?_)
    simp only [State.updSess_mem, State.updLedger_mem]
    exact State.assign_data_wf _ _ _ _ _ k

@[simp] theorem State.takeSubmit_data_wf (s : State) (a1) (a2) (hs : Cells.wf s.mem.data = true) :
    Cells.wf (State.takeSubmit s a1 a2).mem.data = true := by
  unfold State.takeSubmit
  try dsimp only
  split
  · simp [hs]
  split
  · simp [hs]
  split
  · simp [hs]
  split
  · simp [hs]
  split
  · simp [hs]
  split
  · split
    · rename_i e
      rw [State.openRefusal_mem_data e]
      exact hs
    · split
      · simp [hs]
      · simp [hs]
  · split
    · simp [hs]
    · (repeat' split) <;> simp [hs]

@[simp] theorem State.cancelSub_data_wf (s : State) (a1) (hs : Cells.wf s.mem.data = true) :
    Cells.wf (State.cancelSub s a1).mem.data = true := by
  unfold State.cancelSub
  dsimp only
  (repeat' split) <;> simp_all

@[simp] theorem State.corePut_data_wf (s : State) (a1) (a2) (a3) (a4) (a5) (hs : Cells.wf s.mem.data = true) :
    Cells.wf (State.corePut s a1 a2 a3 a4 a5).mem.data = true := by
  unfold State.corePut
  split
  · simp [hs]
  · dsimp only
    split
    · refine foldl_data_wf _ (fun t a ht => by simp [ht]) _ _ ?_
      simp [hs]
    · simp [hs]
  · split
    · simp [hs]
    · exact foldl_data_wf _ (fun t a ht => by simp [ht]) _ _ hs
  · exact foldl_data_wf _ (fun t a ht => by simp [ht]) _ _ hs
  · exact foldl_data_wf _ (fun t a ht => by simp [ht]) _ _ hs
  · exact hs

@[simp] theorem State.coreWrite_data_wf (s : State) (a1) (a2) (hs : Cells.wf s.mem.data = true) :
    Cells.wf (State.coreWrite s a1 a2).mem.data = true := by
  unfold State.coreWrite
  dsimp only
  (repeat' split) <;> simp [hs]

@[simp] theorem State.coldReset_data_wf (s : State) (hs : Cells.wf s.mem.data = true) :
    Cells.wf (State.coldReset s).mem.data = true := by
  simp [State.coldReset, *]

@[simp] theorem State.warmReset_data_wf (s : State) (hs : Cells.wf s.mem.data = true) :
    Cells.wf (State.warmReset s).mem.data = true := by
  unfold State.warmReset
  (repeat' split) <;> simp [*]

@[simp] theorem State.dawn5_data_wf (s : State) (a1) (hs : Cells.wf s.mem.data = true) :
    Cells.wf (State.dawn5 s a1).mem.data = true := by
  unfold State.dawn5
  dsimp only
  (repeat' split) <;> simp_all

@[simp] theorem State.recover_data_wf (s : State) (a1) (hs : Cells.wf s.mem.data = true) :
    Cells.wf (State.recover s a1).mem.data = true := by
  unfold State.recover
  dsimp only
  (repeat' split) <;> simp_all

@[simp] theorem State.dawn9_data_wf (s : State) (a1) (hs : Cells.wf s.mem.data = true) :
    Cells.wf (State.dawn9 s a1).mem.data = true := by
  unfold State.dawn9
  split
  · simp [hs]
  · extract_lets s1 s2
    have k1 : Cells.wf s1.mem.data = true := by
      simp only [s1, State.dawnSessions_mem_data]
      exact State.recover_data_wf _ _ hs
    have k2 : Cells.wf s2.mem.data = true := by
      simp only [s2, State.updLedger_mem]
      exact State.putReplica_data_wf _ _ k1
    clear_value s2
    rw [State.stepDone_mem_data]
    split
    · exact k2
    · rw [State.resendAll_mem_data]
      exact State.runDurable_data_wf _ (State.finishEnded_data_wf _ _ (State.runDurable_data_wf _ k2))

@[simp] theorem State.closeSession_data_wf (s : State) (a1) (a2) (a3) (hs : Cells.wf s.mem.data = true) :
    Cells.wf (State.closeSession s a1 a2 a3).1.mem.data = true := by
  unfold State.closeSession
  dsimp only
  split
  · exact hs
  · split
    · exact hs
    · split
      · exact hs
      · simp only [done, State.event_mem_data]
        apply State.runDurable_data_wf
        rw [State.tryFree_mem_data]
        exact State.retired_data_wf _ _ _ (State.assign_data_wf _ _ _ _ _ hs)
    · simp [done, hs]

@[simp] theorem State.write7100_data_wf (s : State) (a1) (a2) (a3) (a4) (hs : Cells.wf s.mem.data = true) :
    Cells.wf (State.write7100 s a1 a2 a3 a4).1.mem.data = true := by
  unfold State.write7100
  dsimp only
  (repeat' split) <;> simp_all

@[simp] theorem State.requestWarm_data_wf (s : State) (hs : Cells.wf s.mem.data = true) :
    Cells.wf (State.requestWarm s).1.mem.data = true := by
  unfold State.requestWarm
  (repeat' split) <;> simp [*]

@[simp] theorem State.requestCold_data_wf (s : State) (hs : Cells.wf s.mem.data = true) :
    Cells.wf (State.requestCold s).1.mem.data = true := by
  simp [State.requestCold, *]

@[simp] theorem State.writeF000_data_wf (s : State) (a1) (a2) (hs : Cells.wf s.mem.data = true) :
    Cells.wf (State.writeF000 s a1 a2).1.mem.data = true := by
  unfold State.writeF000
  dsimp only
  (repeat' split) <;> simp_all

@[simp] theorem State.dictWrite_data_wf (s : State) (a1) (a2) (a3) (a4) (a5) (hs : Cells.wf s.mem.data = true) :
    Cells.wf (State.dictWrite s a1 a2 a3 a4 a5).1.mem.data = true := by
  unfold State.dictWrite
  (repeat' split) <;> simp [*]

@[simp] theorem State.tryItem_data_wf (s : State) (a1) (a2) (a3) (a4 : Effect) (h : ∀ t, Cells.wf t.mem.data = true → Cells.wf ((a4 t).1).mem.data = true) (hs : Cells.wf s.mem.data = true) :
    Cells.wf (State.tryItem s a1 a2 a3 a4).1.mem.data = true := by
  unfold State.tryItem
  dsimp only
  (repeat' split) <;> simp_all

@[simp] theorem Item.effect_data_wf (a1) (a2) (s : State) (hs : Cells.wf s.mem.data = true) :
    Cells.wf (Item.effect a1 a2 s).1.mem.data = true := by
  unfold Item.effect
  split <;> simp [hs]

@[simp] theorem State.runItems_data_wf (s : State) (a1) (a2) (a3) (hs : Cells.wf s.mem.data = true) :
    Cells.wf (State.runItems s a1 a2 a3).1.mem.data = true := by
  induction a3 generalizing s with
  | nil => exact hs
  | cons i t ih =>
    unfold State.runItems
    try dsimp only
    exact ih _ (State.tryItem_data_wf _ _ _ _ _ (fun t ht => by simp [ht]) hs)

@[simp] theorem State.uoaRequest_data_wf (s : State) (a1) (a2) (a3) (a4) (a5) (a6 : UoaSess → State → State × List UItem) (h : ∀ u t, Cells.wf t.mem.data = true → Cells.wf ((a6 u t).1).mem.data = true) (hs : Cells.wf s.mem.data = true) :
    Cells.wf (State.uoaRequest s a1 a2 a3 a4 a5 a6).mem.data = true := by
  unfold State.uoaRequest
  dsimp only
  (repeat' split) <;> simp_all

@[simp] theorem State.writeOne_data_wf (s : State) (a1) (a2) (a3) (a4) (a5 : UoaSess → Effect) (h : ∀ u t, Cells.wf t.mem.data = true → Cells.wf ((a5 u t).1).mem.data = true) (hs : Cells.wf s.mem.data = true) :
    Cells.wf (State.writeOne s a1 a2 a3 a4 a5).mem.data = true := by
  unfold State.writeOne
  refine State.uoaRequest_data_wf _ _ _ _ _ _ _ (fun u t ht => ?_) hs
  exact State.tryItem_data_wf _ _ _ _ _ (fun t ht => h u t ht) ht

@[simp] theorem State.writeOwn_data_wf (s : State) (a1) (a2) (a3) (a4) (hs : Cells.wf s.mem.data = true) :
    Cells.wf (State.writeOwn s a1 a2 a3 a4).mem.data = true := by
  unfold State.writeOwn
  exact State.writeOne_data_wf _ _ _ _ _ _ (fun u t ht => by simp [ht]) hs

end Sys2Proof.Machine
end

