-- ==== Sys2Proof/Laws/Pad.lean ====
section
/-! SUPPORT. Scratchpad lines: what a line reads as after a write, the frame of a write, and the line forms of VEC with their checks
passed. -/

namespace Sys2Proof.Machine

theorem natOfBytes_lt (l : List Byte) : natOfBytes l < 256 ^ l.length := by
  induction l with
  | nil => simp [natOfBytes]
  | cons b t ih =>
    have := b.isLt
    simp only [natOfBytes, List.length_cons, pow_succ]
    omega

theorem bytesOfNat_succ (n v : Nat) : bytesOfNat (n + 1) v = BitVec.ofNat 8 v :: bytesOfNat n (v / 256) := by
  simp only [bytesOfNat, List.range_succ_eq_map, List.map_cons, List.map_map, pow_zero, Nat.div_one]
  congr 1
  apply List.map_congr_left
  intro k _
  simp only [Function.comp, Nat.succ_eq_add_one, pow_succ, Nat.div_div_eq_div_mul, Nat.mul_comm]

/-- The bytes of a number make the number again, as far as they reach. -/
theorem natOfBytes_bytesOfNat (n v : Nat) : natOfBytes (bytesOfNat n v) = v % 256 ^ n := by
  induction n generalizing v with
  | zero => simp [bytesOfNat, natOfBytes, Nat.mod_one]
  | succ n ih =>
    have e : (256 : Nat) ^ (n + 1) = 256 * 256 ^ n := by ring
    rw [bytesOfNat_succ, natOfBytes, ih, BitVec.toNat_ofNat, e, Nat.mod_mul]

@[simp] theorem bytesOfNat_length (n v : Nat) : (bytesOfNat n v).length = n := by simp [bytesOfNat]

/-- A line is what its bytes make. -/
@[simp] theorem lineOfBytes_bytesOfLine (l : Line) : lineOfBytes (bytesOfLine l) = l := by
  apply BitVec.eq_of_toNat_eq
  simp only [lineOfBytes, bytesOfLine, natOfBytes_bytesOfNat, BitVec.toNat_ofNat]
  have := l.isLt
  have e : (256 : Nat) ^ 128 = 2 ^ 1024 := by rw [show (256 : Nat) = 2 ^ 8 from rfl, ← pow_mul]
  rw [e, Nat.mod_mod, Nat.mod_eq_of_lt this]

/-- The bytes of a run, one by one. -/
theorem Cells.bytes_eq (m : Cells) (base n : Nat) : Cells.bytes m base n = (List.range n).map (fun i => Cells.get m (base + i)) := by
  apply List.map_congr_left
  intro i hi
  have hi : i < n := by simpa using hi
  rw [Cells.get_eq, Cells.get_eq]
  exact SMap.get_filter m 0 (base + i) (fun k => decide (base ≤ k ∧ k < base + n)) (by simp only [decide_eq_true_eq]; omega)

/-- A run just written reads back. -/
theorem Cells.bytes_write_same (m : Cells) (base : Nat) (bs : List Byte) : Cells.bytes (Cells.write m base bs) base bs.length = bs := by
  rw [Cells.bytes_eq]
  apply List.ext_getElem
  · simp
  · intro i h1 h2
    simp only [List.getElem_map, List.getElem_range]
    rw [Cells.get_write_in m base bs i h2]
    simp [List.getD, h2]

/-- A run apart from the one written reads as before. -/
theorem Cells.bytes_write_other (m : Cells) (base : Nat) (bs : List Byte) (b n : Nat) (h : b + n ≤ base ∨ base + bs.length ≤ b) :
    Cells.bytes (Cells.write m base bs) b n = Cells.bytes m b n := by
  rw [Cells.bytes_eq, Cells.bytes_eq]
  apply List.map_congr_left
  intro i hi
  have hi : i < n := by simpa using hi
  exact Cells.get_write_out m base bs (b + i) (by omega)

@[simp] theorem bytesOfLine_length (l : Line) : (bytesOfLine l).length = 128 := by simp [bytesOfLine]

/-- The line just written. -/
@[simp] theorem State.padLine_setPadLine_same (s : State) (t l : Nat) (v : Line) : (s.setPadLine t l v).padLine t l = v := by
  have := Cells.bytes_write_same s.spad (padBytes * t + 128 * l) (bytesOfLine v)
  simp only [bytesOfLine_length] at this
  simp only [State.padLine, State.setPadLine, this, lineOfBytes_bytesOfLine]

/-- Another line of the same tile. -/
theorem State.padLine_setPadLine_other (s : State) (t l k : Nat) (v : Line) (h : k ≠ l) :
    (s.setPadLine t l v).padLine t k = s.padLine t k := by
  simp only [State.padLine, State.setPadLine]
  rw [Cells.bytes_write_other]
  simp only [bytesOfLine_length]
  omega

/-- A line write leaves every byte outside its line alone. -/
theorem State.setPadLine_out (s : State) (t l : Nat) (v : Line) : PadOutside t l 1 s (s.setPadLine t l v) := by
  intro a h
  exact Cells.get_write_out _ _ _ _ (by simp only [bytesOfLine_length]; omega)

@[simp] theorem State.padLine_updTile (s : State) (n : Nat) (f : Tile → Tile) (t l : Nat) :
    (s.updTile n f).padLine t l = s.padLine t l := rfl
@[simp] theorem State.padLine_setTile (s : State) (n : Nat) (v : Tile) (t l : Nat) : (s.setTile n v).padLine t l = s.padLine t l := rfl
@[simp] theorem State.padWord_updTile (s : State) (n : Nat) (f : Tile → Tile) (t w : Nat) :
    (s.updTile n f).padWord t w = s.padWord t w := rfl
@[simp] theorem State.padWord_setTile (s : State) (n : Nat) (v : Tile) (t w : Nat) : (s.setTile n v).padWord t w = s.padWord t w := rfl
@[simp] theorem State.padLine_advance (s : State) (i : Issue) (port c t l : Nat) : (s.advance i port c).padLine t l = s.padLine t l := rfl
@[simp] theorem State.padWord_advance (s : State) (i : Issue) (port c t w : Nat) : (s.advance i port c).padWord t w = s.padWord t w := rfl
@[simp] theorem State.spad_advance (s : State) (i : Issue) (port c : Nat) : (s.advance i port c).spad = s.spad := rfl

/-- With no narrow write under way nothing settles. -/
theorem State.settle_nil (s : State) (t c : Nat) (h : (s.tile t).narrowW = []) : s.settle t c = s := by
  simp [State.settle, h]

theorem State.settleLines_nil (s : State) (t l n : Nat) (h : (s.tile t).narrowW = []) : s.settleLines t l n = s := by
  simp [State.settleLines, h]

/-- With no narrow access under way none fails. -/
theorem State.checkNarrow_nil (s : State) (i : TileNo) (h : (s.tile i.toNat).narrow = []) : s.checkNarrow i = s := by
  simp [State.checkNarrow, Tile.narrowFail, h]

/-- The advance does not touch what a line access looks at. -/
theorem State.portsClear_advance (s : State) (i : Issue) (port c line n : Nat) :
    (s.advance i port c).portsClear i line n = s.portsClear i line n := by
  simp only [State.portsClear, State.advance_tile, State.advance_strm, Tile.takeWide, Tile.owns, Tile.blockOf,
    apply_ite (Option.map Tile.fillsClear), Option.map_some]
  rfl

/-- The tile with the wide cycles of `n` lines taken. -/
def Tile.withWide (t : Tile) (c line n : Nat) : Tile := { t with wide := t.wide ++ (List.range n).map (fun k => (c + k, (line + k) % 16)) }

/-- Where no fill stands at a taken cycle, none moves. -/
theorem State.yieldFills_clear (s : State) (tile : TileNo) (h : (s.tile tile.toNat).fillsClear = true) : s.yieldFills tile = s := by
  unfold State.yieldFills
  dsimp only
  rw [List.filter_eq_nil_iff.2 (fun f hf => ?_)]
  · rfl
  · have k := List.all_eq_true.1 h f hf
    split at k <;> simp_all

/-- A clear wide use is its own effect on the state with the port cycles taken. -/
theorem State.useWide_clear (s : State) (i : Issue) (line n : Nat) (act : State → State) (h : s.portsClear i line n = true) :
    s.useWide i line n act = act (s.setTile i.tile.toNat ((s.tile i.tile.toNat).withWide i.cycle.toNat line n)) := by
  simp only [State.portsClear, Bool.and_eq_true, List.isEmpty_iff] at h
  obtain ⟨⟨⟨_, h2⟩, h3⟩, _⟩ := h
  simp only [State.useWide, State.useWideAt]
  simp only [Tile.takeWide] at h2 ⊢
  split at h2
  · simp at h2
  · rename_i hc
    rw [if_neg hc]
    simp only
    rw [State.yieldFills_clear, State.checkNarrow_nil]
    · rfl
    · rw [State.tile_setTile_same]
      exact h3
    · rw [State.tile_setTile_same]
      simpa using h2

/-- The state on which a line form of VEC acts. -/
def State.lineState (s : State) (i : Issue) (line n : Nat) : State :=
  (s.advance i 7 i.cycle.toNat).setTile i.tile.toNat
    (((s.advance i 7 i.cycle.toNat).tile i.tile.toNat).withWide i.cycle.toNat line n)

/-- Lines without a read error go to the act as they are. -/
theorem State.readChecked_clear (s : State) (i : Issue) (unit : BitVec 8) (line n : Nat) (act : State → State) :
    s.readChecked i unit line n [] act = act s := rfl

/-- A line form with its checks passed. -/
theorem State.vecLine_clear (s : State) (i : Issue) (func : BitVec 6) (v : VecOps) (n reads : Nat) (dest : Bool) (act : State → State)
    (h : s.clearVecLines i v n = true) : s.vecLine i func v n reads dest act = act (s.lineState i (vlineNo v) n) := by
  simp only [State.clearVecLines, Bool.and_eq_true, decide_eq_true_eq] at h
  obtain ⟨⟨h1, h2, h3, h4, h6⟩, h5⟩ := h
  rw [State.vecLine, State.issue_clear s i 7 _ _ _ h1 (by simp [h2, h3])]
  have h7 := h5
  rw [← State.portsClear_advance s i 7 i.cycle.toNat] at h7
  have ho : ((s.advance i 7 i.cycle.toNat).tile i.tile.toNat).owns (vlineNo v) n ((s.advance i 7 i.cycle.toNat).strm i).tag = true := by
    simp only [State.portsClear, Bool.and_eq_true] at h7
    exact h7.1.1.1
  rw [if_neg (by simp [ho]), State.useWide_clear _ _ _ _ _ h7, h6, State.readChecked_clear]
  simp [State.vecChecked, h4, State.clearIssue_parity _ _ _ h1, State.lineState]

theorem State.lineState_tile (s : State) (i : Issue) (line n : Nat) :
    (s.lineState i line n).tile i.tile.toNat =
      { s.tile i.tile.toNat with
        streams := SMap.set (s.tile i.tile.toNat).streams {} i.stream.toNat
          { s.strm i with pc := (s.strm i).pc + 1, reached := i.cycle.toNat, branch := none }
        ports := SMap.set (s.tile i.tile.toNat).ports none 7 (some ⟨s.fu.frame, i.cycle.toNat, (s.strm i).tag⟩)
        wide := (s.tile i.tile.toNat).wide ++ (List.range n).map (fun k => (i.cycle.toNat + k, (line + k) % 16)) } := by
  rw [State.lineState, State.tile_setTile_same, State.advance_tile]
  rfl

theorem State.lineState_strm (s : State) (i : Issue) (line n : Nat) :
    (s.lineState i line n).strm i = { s.strm i with pc := (s.strm i).pc + 1, reached := i.cycle.toNat, branch := none } := by
  rw [State.strm, State.lineState_tile]
  exact SMap.get_set_same _ _ _ _

theorem State.lineState_vreg (s : State) (i : Issue) (line n : Nat) (r : BitVec 6) : (s.lineState i line n).vreg i r = s.vreg i r := by
  simp only [State.vreg, Tile.vreg, State.lineState_tile]

@[simp] theorem State.lineState_padLine (s : State) (i : Issue) (line n t l : Nat) : (s.lineState i line n).padLine t l = s.padLine t l := rfl
@[simp] theorem State.lineState_spad (s : State) (i : Issue) (line n : Nat) : (s.lineState i line n).spad = s.spad := rfl

theorem State.lineState_other (s : State) (i : Issue) (line n k : Nat) (h : k ≠ i.tile.toNat) :
    (s.lineState i line n).tile k = s.tile k := by
  rw [State.lineState, State.tile_setTile_other _ _ _ _ h, State.advance_tile_other _ _ _ _ _ h]

/-- The clear line's narrow writes: none. -/
theorem State.clearVecLine_narrowW (s : State) (i : Issue) (v : VecOps) (h : s.clearVecLine i v = true) :
    ((s.lineState i (vlineNo v) 1).tile i.tile.toNat).narrowW = [] := by
  rw [State.lineState_tile]
  simp only [State.clearVecLine, State.clearVecLines, State.portsClear, Bool.and_eq_true, List.isEmpty_iff] at h
  exact h.2.2

theorem State.readOwn_lineState (s : State) (i : Issue) (v : VecOps) (h : s.clearVecLine i v = true) :
   (s.lineState i (vlineNo v) 1).readOwn i (vlineNo v) = (s.lineState i (vlineNo v) 1, s.padLine i.tile.toNat (vlineNo v)) := by
  have hn := State.clearVecLine_narrowW s i v h
  simp only [State.readOwn, State.settleLines_nil _ _ _ _ hn, State.lineState_padLine]

theorem State.lineState_own (s : State) (i : Issue) (l n : Nat) : OnlyOwnTile i s (s.lineState i l n) :=
  ⟨rfl, fun k hk => State.lineState_other s i l n k hk⟩
theorem OnlyOwnTile.updTile (s u : State) (i : Issue) (f : Tile → Tile) (h : OnlyOwnTile i s u) : OnlyOwnTile i s (u.updTile i.tile.toNat f) := by
  refine ⟨?_, fun k hk => by rw [State.tile_updTile_other _ _ _ _ hk, h.2 k hk]⟩
  have := h.1
  rw [this]
  rfl
theorem OnlyOwnTile.setPadLine (s u : State) (i : Issue) (t l : Nat) (v : Line) (h : OnlyOwnTile i s u) : OnlyOwnTile i s (u.setPadLine t l v) := by
  refine ⟨?_, fun k hk => h.2 k hk⟩
  have := h.1
  rw [this]
  rfl

theorem State.vreg_setLanes (u : State) (i : Issue) (q r : BitVec 6) (b : Nat) (ls : List W32) (hb : b + ls.length ≤ 64) :
    (u.updTile i.tile.toNat (fun t => t.setLanes q.toNat b ls)).vreg i r =
     if r = q then (List.range 64).map (fun l => if b ≤ l ∧ l < b + ls.length then ls.getD (l - b) 0 else (u.vreg i q).getD l 0) else u.vreg i r := by
  simp only [State.vreg, State.tile_updTile_same, Tile.vreg, Tile.setLanes]
  have hq : q.toNat % 64 = q.toNat := Nat.mod_eq_of_lt q.isLt
  have hr : r.toNat % 64 = r.toNat := Nat.mod_eq_of_lt r.isLt
  split
  · rename_i h
    subst h
    apply List.map_congr_left
    intro l hl
    have hl : l < 64 := by simpa using hl
    have := Tile.lane_setLanes (u.tile i.tile.toNat).vregs (64 * (r.toNat % 64) + b) ls 0 (64 * (r.toNat % 64) + l)
    rw [this]
    by_cases hh : b ≤ l ∧ l < b + ls.length
    · rw [if_pos (by omega), if_pos hh]
      congr 1; omega
    · rw [if_neg (by omega), if_neg hh]
      simp [List.getD, List.getElem?_map, List.getElem?_range hl]
  · rename_i h
    apply List.map_congr_left
    intro l hl
    have hl : l < 64 := by simpa using hl
    have := Tile.lane_setLanes (u.tile i.tile.toNat).vregs (64 * (q.toNat % 64) + b) ls 0 (64 * (r.toNat % 64) + l)
    rw [this, if_neg]
    have hne : r.toNat ≠ q.toNat := fun e => h (BitVec.eq_of_toNat_eq e)
    omega

theorem wordsOfLine_length (l : Line) : (wordsOfLine l).length = 32 := by simp [wordsOfLine]

theorem State.writeLines_one (u : State) (t l : Nat) (x : Line) (h : (u.tile t).narrowW = []) : u.writeLines t l [x] = u.setPadLine t l x := by
  simp [State.writeLines, State.settleLines_nil _ _ _ _ h]
theorem State.writeLines_two (u : State) (t l : Nat) (x y : Line) (h : (u.tile t).narrowW = []) : u.writeLines t l [x,y] = (u.setPadLine t l x).setPadLine t (l+1) y := by
  simp [State.writeLines, State.settleLines_nil _ _ _ _ h]


end Sys2Proof.Machine
end

