-- ==== Sys2Proof/Tests/Slice0.lean ====
section
/-! SUPPORT. Small tests, each of one step on a small state. A test named `wit_<statement>_<clause>` shows a concrete state and operands
that meet the hypotheses of that clause of Certificates/Slice0/Obligations.lean together, and where the answer does not rest on a free
value also what the clause concludes. Expected values come from the spec's own numbers and tables or by hand from them. -/

open Sys2Proof Sys2Proof.Machine

namespace Sys2Proof.Tests

set_option Elab.async false

/-! ## Helpers -/

/-- The command has a next state, and the predicate holds of it. -/
def next (c : Instr) (s : State) (p : State → Bool) : Bool :=
  match exec c s with
  | .next t => p t
  | .fault _ => false
  | .refused _ => false

/-- The command has a next state, which is the state it was given. -/
def same (c : Instr) (s : State) : Bool := next c s (fun t => decide (t = s))

/-- A device in service with nothing loaded. -/
def dev : State :=
  { State.reset with power := { State.reset.power with resetPin := false }
                     dawn := { State.reset.dawn with step := 11, served := true }
                     mgmt := { State.reset.mgmt with entropy := true } }

/-- Stream 0 of partition 0, in its block of frame 0. -/
def strm0 : Stream := { tag := 0, last := 63, block := some 0 }

/-- A tile of partition 0 with two blocks of scratchpad. -/
def tile0 : Tile := { streams := [(0, strm0)], blocks := [(0, { powered := true, tag := 0 }), (1, { powered := true, tag := 0 })] }

/-- Partition 0, serving, with a stream on tile 0. -/
def run : State := { dev with parts := [(0, { st := .serving, layers := 4 })], tiles := [(0, tile0)] }

/-- `run` with tile 0 changed. -/
def runT (f : Tile → Tile) : State := { run with tiles := [(0, f tile0)] }

/-- `run` with stream 0 changed. -/
def runS (f : Stream → Stream) : State := runT (fun t => { t with streams := [(0, f strm0)] })

/-- Tile 0, stream 0, cycle 5. -/
def i0 : Issue := { tile := 0, stream := 0, gen := 0, cycle := 5 }

/-- VD 1, VA 2, VB 3. -/
def v0 : VecOps := { vd := 1, va := 2, vb := 3, addr := 0, lacc := 0, md := 0, upset := false }

/-- `v0` at line 4. -/
def vl : VecOps := { v0 with addr := 64 }

/-- `run` with the first lane of VD, VA and VB. -/
def lanes (d a b : W32) : State := runT (fun t => { t with vregs := [(64, d), (128, a), (192, b)] })

/-- Lane 0 of VD after the command. -/
def lane0 (c : Instr) (s : State) (w : W32) : Bool := next c s (fun t => decide ((t.vreg i0 1).getD 0 0 = w))

/-- A header of zeros, and an intact frame with it. -/
def hdr0 : UtlHdr :=
  { gen := 0, tc := 0, op := 0, lines := 0, seq := 0, ackseq := 0, nak := false, nakseq := 0
    cr0 := 0, cr1 := 0, cr3 := 0, tag := 0, slot := 0, xfer := 0, count := 0, rsvd := 0 }

def frame0 : UtlFrame := { link := 0, hdr := hdr0, payload := [], gcmOk := true, parityOk := true, rc := 0 }

/-- A UOA request of session 1 with SEQ 1. -/
def om : UoaMsg :=
  { src := ⟨0x0A000001, 4⟩, tagOk := true, tag := 0, vmajor := 1, vminor := 0, gen := 0, type := 0x12, length := 11
    session := 1, seq := 1, status := 0, count := 1, reqseq := 0, rsvd := 0 }

/-- A UWP message on session 0 to partition 0. -/
def wm : UwpMsg :=
  { port := 0, qp := 0, tagOk := true, vmajor := 1, vminor := 0, gen := 0, type := 1, length := 0, session := 0, ssn := 1, ack := 0
    accountId := 0, part := 0, subkind := 0, deadline := 0, maxtok := 0, endtok := 0, frame := 0, counter := 1, code := 0
    late := false, rsvd := 0 }

/-- A module of part number UXD-8 with 7 operating hours and full light. -/
def md : ModuleData :=
  { page00 := List.replicate 20 0 ++ [0x55, 0x58, 0x44, 0x2D, 0x38] ++ List.replicate 11 0x20 ++ List.replicate 92 0
    pageB0 := [0, 0, 0, 0, 0, 0, 0, 7] ++ List.replicate 120 0, pageB1 := List.replicate 128 0
    sumsOk := true, ready := true, lit := 63 }

/-- An image of nothing. -/
def img0 : Image :=
  { digest := 0, layout := 0, version := 1, base := 0, layers := 1, batch := 1, verify := 0, vocab := 16, recipe := 0, wideOnly := 0
    streams := [], blocks := [], granules := [], xfers := [], arrays := [], homes := [], delays := [], summaryOff := 0
    lastClear := 0, ctx := [], hasLearn := false, adapters := false
    rank := 0, adapterLines := 0, projs := [] }

/-- An outcome of one token at position 0. -/
def out1 : Outcome :=
  { kind := .tokens, tokens := [7], states := [⟨0, 1, 0, 0, 0, 0, 0, false, 0⟩], step := 0, attempt := 1, pos := 0, drafts := 0, accepted := 0 }

/-- A parcel of nothing. -/
def parcel0 : ParcelMsg :=
  { account := 0, part := 0, tenant := 0, version := 0, layout := 0, keyid := 0, committed := 0, agen := 0, cdigest := 0, adigest := 0
    tagOk := false, streams := [], adapter := [], rank := 0, lastToken := 0, seed := 0, tau := 0, topk := 0, pi := 0, draft := 0
    cap := 0, pinned := 0 }

/-- `dev` with array 0 as given. -/
def devA (x : ArrayS) : State := { dev with arrays := [(0, x)] }

/-- `run` with array 0 Resident on base 0, which is attached to partition 0. -/
def arun : State := { run with arrays := [(0, { st := .resident, base := some 0 })], dict := { run.dict with bases := [(0, (1, 0))] } }

/-- `run` with one byte of line 4. -/
def pad4 (b : Byte) : State := { run with spad := [(512, b)] }

/-- `run` with its power changed. -/
def pw (f : Power → Power) : State := { run with power := f run.power }

/-! ## The machine as a whole -/

theorem wit_step_takes_front :
    ({ dev with pending := [.powerOff, .dark] } : State).pending = .powerOff :: [.dark] ∧
      step { dev with pending := [.powerOff, .dark] } = exec .powerOff { dev with pending := [.dark] } := ⟨rfl, rfl⟩

theorem wit_empty_queue_idles : dev.pending = [] ∧ step dev = .next dev := ⟨rfl, rfl⟩

theorem wit_memories_canonical : Cells.wf dev.spad = true ∧ dev.mem.wf = true := by decide +kernel

theorem test_reset_canonical : State.reset.canonical = true := by decide +kernel

theorem test_first_step_after_reset :
    (match step { State.reset with pending := [.dawnStart] } with
      | .next t => decide (t.dawn.step = 1 ∧ t.pending = []) | _ => false) = true := by decide +kernel

/-! ## Operands in range: an ill-formed term for each check -/

def rr : ReadErr := .single 1024

theorem test_wf_refuses_result_codes :
    (Instr.arrayResultReadable 0 [] false).wf = true ∧ (Instr.arrayResultReadable 0 (List.replicate 33 []) false).wf = false ∧
      (Instr.arrayResultReadable 0 [List.replicate 266 0] false).wf = false := by decide +kernel

theorem test_wf_refuses_lane_group : (Instr.transitResultReadable 0 true false (some 7)).wf = true ∧
    (Instr.transitResultReadable 0 true false (some 8)).wf = false := by decide +kernel

theorem test_wf_refuses_cells :
    cellsOk [(0, 1), (131071, -7)] = true ∧ cellsOk [(0, 0)] = false ∧ cellsOk [(0, 8)] = false ∧ cellsOk [(1, 1), (1, 1)] = false ∧
      cellsOk [(131072, 1)] = false ∧ (Instr.arrayProgrammingStart 0 [(0, 8)] 0 true).wf = false := by decide +kernel

theorem test_wf_refuses_read_error : (Instr.ldl i0 { v0 with errs := [(0, rr)] }).wf = false ∧ (Instr.loadRequest 0 0 {} rr false).wf = false ∧
    (Instr.engineJobStart 0 0 [{ line := 0, err := rr }]).wf = false ∧ (Instr.ldl i0 { v0 with errs := [(0, .single 1023)] }).wf = true ∧
    (Instr.ldl i0 { v0 with errs := [(256, .none)] }).wf = false := by decide +kernel

theorem test_wf_refuses_cycle : (Instr.frameBoundary 4096 false).wf = false ∧ (Instr.frameBoundary 4095 false).wf = true ∧
    (Instr.scheduledFlitClaim 0 false 0 4096 false false false).wf = false := by decide +kernel

theorem test_wf_refuses_frame : (Instr.idleFrame frame0).wf = true ∧ (Instr.idleFrame { frame0 with payload := [0] }).wf = false ∧
    (Instr.idleFrame { frame0 with payload := List.replicate 9 0, hdr := { hdr0 with lines := 9 } }).wf = false := by decide +kernel

theorem test_wf_refuses_entry_lengths :
    sameLength [[1], [2]] = true ∧ sameLength [[1], [2, 3]] = false ∧
      (Instr.mirrorEntries frame0 ⟨0, 0, 0, 0, false, 0, 0, [[1], []]⟩).wf = false ∧
      (Instr.contextPages frame0 ⟨0, 0, 0, 0, false, 0, [[1], []], none, 0, 1, none⟩).wf = false ∧
      (Instr.restorePartCheck { parcel0 with streams := [(0, 0, false, [[1], []])] }).wf = false := by decide +kernel

theorem test_wf_refuses_value : valueOk (.num (2 ^ 64 - 1)) = true ∧ valueOk (.num (2 ^ 64)) = false ∧
    valueOk (.bytes (List.replicate 4097 0)) = false ∧ (Instr.flushNow om (.num (2 ^ 64))).wf = false ∧
    (Instr.uoaWrite om [⟨0, 0, 0, 0, .num (2 ^ 64)⟩]).wf = false ∧ (Instr.uoaStage om [⟨0, 0, 0, 0, 0, .num (2 ^ 64)⟩]).wf = false := by
  decide +kernel

theorem test_wf_refuses_item_count :
    (Instr.uoaRead om (List.replicate 33 ⟨0, 0, 0, 0, 0⟩)).wf = false ∧ (Instr.uoaDescribe om (List.replicate 33 ⟨0, 0, 0, 0, 0⟩)).wf = false ∧
      (Instr.uoaWrite om (List.replicate 33 ⟨0, 0, 0, 0, .num 0⟩)).wf = false ∧
      (Instr.uoaStage om (List.replicate 33 ⟨0, 0, 0, 0, 0, .num 0⟩)).wf = false ∧ (Instr.uoaRead om []).wf = true := by decide +kernel

theorem test_wf_refuses_outcome : outcomeOk out1 = true ∧ outcomeOk { out1 with tokens := List.replicate 18 0 } = false ∧
    (Instr.escrowArrival 0 0 { out1 with states := List.replicate 18 ⟨0, 1, 0, 0, 0, 0, 0, false, 0⟩ }).wf = false ∧
    (Instr.mintRun 0 0 (List.replicate 18 []) [] [] false false).wf = false ∧ (Instr.mintRun 0 0 [] (List.replicate 17 []) [] false false).wf = false ∧
    (Instr.mintRun 0 0 [] [] (List.replicate 17 0) false false).wf = false := by decide +kernel

theorem test_wf_refuses_image : imageOk img0 = true ∧
    imageOk { img0 with streams := [⟨0, 0, 0, 0, 0, [], List.replicate 16385 0⟩] } = false ∧
    imageOk { img0 with arrays := [⟨0, [], [(0, 8)]⟩] } = false ∧
    (Instr.partitionLoad om 0 0 { img0 with arrays := [⟨0, [], [(0, 8)]⟩] }).wf = false := by
  decide +kernel

theorem test_wf_refuses_lengths : (Instr.ethernetFrame 0 .arp 65536 none true true true false 0 0 0).wf = false ∧
    (Instr.generate wm (.window 0 4194305)).wf = false ∧ (Instr.restore wm (List.replicate 4682 ⟨0, 0, 0⟩)).wf = false ∧
    (Instr.sensorConversionSet [] []).wf = false ∧ (Instr.moduleMonitorPoll 0 { md with page00 := [] }).wf = false ∧
    (Instr.modulePresence 0 { md with page00 := [] } true).wf = false ∧
    (Instr.adcTrigger false 65536).wf = false ∧ (Instr.adcUrgentRequest 0 65536).wf = false ∧
    (Instr.parkingKeyInstall om 0 0 4097 true 0).wf = false ∧ (Instr.imageTransfer om 0 (List.replicate 4097 0)).wf = false := by
  decide +kernel

theorem test_wf_refuses_long_data : (Instr.rdmaWrite 0 0 .only 0 0 (List.replicate 4097 0) 0 []).wf = false ∧
    (Instr.generate wm (.inline (List.replicate 16363 0))).wf = false := by decide +kernel

/-! ## Vector core -/

theorem wit_vector_two_source :
    (lanes 0 0x3F800000 0x40000000).clearIssue i0 7 = true ∧ v0.addr = 0 ∧ v0.upset = false ∧
      lane0 (.fadd i0 v0) (lanes 0 0x3F800000 0x40000000) 0x40400000 = true ∧
      lane0 (.fsub i0 v0) (lanes 0 0x3F800000 0x40000000) 0xBF800000 = true ∧
      lane0 (.fmul i0 v0) (lanes 0 0x3FC00000 0x40000000) 0x40400000 = true ∧
      lane0 (.fmin i0 v0) (lanes 0 0x3F800000 0xC0000000) 0xC0000000 = true ∧
      lane0 (.fmax i0 v0) (lanes 0 0x3F800000 0xC0000000) 0x3F800000 = true ∧
      next (.fcmp i0 v0) (lanes 0 1 2) (fun t => decide ((t.strm i0).pc = 1)) = true ∧
      lane0 (.badd i0 v0) (lanes 0 0x3F803F80 0x40003F80) 0x40404000 = true ∧
      lane0 (.bmul i0 v0) (lanes 0 0x40403F80 0x40003F80) 0x40C03F80 = true ∧
      lane0 (.iadd32 i0 v0) (lanes 0 0xFFFFFFFF 2) 1 = true := by decide +kernel

theorem wit_vector_three_source :
    (lanes 0x40800000 0x3F800000 0x40000000).clearIssue i0 7 = true ∧
      lane0 (.ffma i0 v0) (lanes 0x40800000 0x3F800000 0x40000000) 0x40C00000 = true ∧
      next (.fsel i0 v0) (lanes 1 2 3) (fun t => decide ((t.strm i0).pc = 1)) = true ∧
      lane0 (.bfma i0 v0) (lanes 0x40804080 0x3F803F80 0x40004000) 0x40C040C0 = true ∧
      lane0 (.imac8 i0 v0) (lanes 10 0xFF010203 0x02010101) 14 = true := by decide +kernel

/-- `run` with every lane of VA the same. -/
def fill (a : W32) : State := runT (fun t => { t with vregs := (List.range 64).map (fun l => (128 + l, a)) })

theorem wit_vector_one_source :
    (fill 0x7F800000).clearIssue i0 7 = true ∧
      lane0 (.cvt i0 v0) (fill 0x3F800000) 0x3F80 = true ∧ lane0 (.fexp i0 v0) (fill 0xFF800000) 0 = true ∧
      lane0 (.flog i0 v0) (fill 0x7F800000) 0x7F800000 = true ∧ lane0 (.frcp i0 v0) (fill 0x7F800000) 0 = true ∧
      lane0 (.frsq i0 v0) (fill 0x7F800000) 0 = true ∧ lane0 (.fsig i0 v0) (fill 0x7F800000) 0x3F800000 = true ∧
      lane0 (.ferf i0 v0) (fill 0x7F800000) 0x3F800000 = true := by decide +kernel

theorem wit_vector_generators_reductions :
    next (.lcvt i0 v0) (lanes 0 0 0) (fun t => decide ((t.strm i0).pc = 1)) = true ∧
      next (.strm i0 v0) (lanes 0 0 0) (fun t => decide ((t.vreg i0 1).getD 0 0 = 0x6627E8D5)) = true ∧
      next (.rsum i0 v0) (lanes 0 0 0) (fun t => decide ((t.strm i0).pc = 1)) = true ∧
      next (.rmax i0 v0) (lanes 0 0 0) (fun t => decide ((t.strm i0).pc = 1)) = true := by decide +kernel

theorem wit_vector_line_reads :
    (pad4 9).clearVecLine i0 vl = true ∧ lane0 (.ldl i0 vl) (pad4 9) 9 = true ∧
      next (.pacc i0 vl) (pad4 9) (fun t => decide (t.spad = [(512, 9)] ∧ (t.strm i0).pc = 1)) = true ∧
      (pad4 0).clearVecLine i0 { vl with md := 1 } = true ∧
      burstRes (elemsOf (lanesHdr (run.vreg i0 2)) (run.padLine 0 4) false) = (lanesHdr (run.vreg i0 2)).res ∧
      next (.deq i0 { vl with md := 1 }) run (fun t => decide (t.spad = [] ∧ (t.strm i0).pc = 1)) = true := by decide +kernel

theorem wit_vector_stores :
    (lanes 0 5 0).clearVecLine i0 vl = true ∧
      next (.stl i0 vl) (lanes 0 5 0) (fun t => decide (t.spad = [(512, 5)] ∧ (t.strm i0).pc = 1)) = true := by decide +kernel

theorem wit_vector_words :
    ({ v0 with addr := 3 } : VecOps).addr.toNat ≤ 49151 ∧ (run.tile 0).owns (3 / 16) 1 (run.strm i0).tag = true ∧
      (run.tile 0).narrow = [] ∧ (run.tile 0).narrowW = [] ∧ (run.tile 0).wideUses = [] ∧
      next (.ldw i0 { v0 with addr := 3 }) { run with spad := [(24, 6)] } (fun t => decide ((t.vreg i0 1).getD 0 0 = 6)) = true ∧
      next (.stw i0 { v0 with addr := 3 }) (lanes 0 5 0) (fun t => decide ((t.tile 0).narrowW = [(15, 3, 5)] ∧ t.spad = [])) = true := by
  decide +kernel

/-- A correctable bit is counted and mended; in an activation line every error is poison (R126). -/
theorem wit_scratchpad_read_errors :
    let r : State := { (runT (fun t => { t with blocks := [(0, { powered := true, retained := true, tag := 0 })] })) with spad := [(512, 9)] }
    r.clearVecLine i0 vl = true ∧ ((r.tile 0).blockOf (vlineNo vl)).retained = true ∧
      next (.ldl i0 { vl with errs := [(0, .single 3)] }) r (fun t => decide ((t.vreg i0 1).getD 0 0 = 9 ∧ (t.tile 0).corrected = 1)) = true ∧
      (pad4 9).clearVecLine i0 vl = true ∧ (((pad4 9).tile 0).blockOf (vlineNo vl)).retained = false ∧
      next (.ldl i0 { vl with errs := [(0, .single 3)] }) (pad4 9)
        (fun t => decide ((t.vreg i0 1).getD 0 0 = 0) && (t.part 0).abort.isSome) = true ∧
      next (.ldl i0 { vl with errs := [(0, .uncorrectable)] }) r
        (fun t => decide ((t.vreg i0 1).getD 0 0 = 0) && (t.part 0).abort.isSome) = true := by decide +kernel

theorem wit_scratchpad_poison :
    run.clearIssue i0 8 = true ∧ run.portsClear i0 4 1 = true ∧ run.clearIssue i0 6 = true ∧ SMap.get (run.strm i0).maskAt none 0 = none ∧
      next (.send i0 4 false 1 0 9 0 true false [(0, .uncorrectable)]) run (fun t => decide (t.mesh.flits = [])) = true ∧
      next (.feed i0 4 1 0 0 [(0, .uncorrectable)]) (runS (fun x => { x with masks := [(0, 4)] }))
        (fun t => decide ((t.tile 0).feeds = []) && (t.part 0).abort.isSome) = true := by decide +kernel

theorem wit_program_store_reads :
    run.issuing i0 = true ∧ run.steppers = [0] ∧
      next (.fadd { i0 with store := .single 3 } v0) run (fun t => decide ((t.tile 0).corrected = 1 ∧ (t.strm i0).pc = 1)) = true ∧
      next (.fadd { i0 with store := .uncorrectable } v0) run
        (fun t => (t.tile 0).reload && (t.part 0).abort.isSome) = true := by decide +kernel

/-- A stream whose quantiser makes UX4 groups of one burst with exponents 120 to 135. -/
def qrun : State := { run with tiles := [(0, { tile0 with streams := [(0, { strm0 with qcfg := { floor := 120, cap := 135 } })]
                                                          vregs := [(128, 0x3F800000)] })] }

theorem wit_quantiser_configuration :
    run.clearIssue i0 7 = true ∧ (run.strm i0).qpend = [] ∧
      next (.qcfg i0 false 0 false 120 135 0 false 0) run (fun t => decide ((t.strm i0).qcfg = ⟨false, 0, false, 120, 135, 0, false⟩)) = true := by
  decide +kernel

/-- 1.0 alone in its burst: the smallest exponent that holds it within 7 quanta is 2^-2, so the element is 4 (R64). -/
theorem wit_quantiser_bursts :
    qrun.clearVecLine i0 vl = true ∧ (qrun.strm i0).qcfg.lanes = false ∧ (qrun.strm i0).qpend = [] ∧ (qrun.strm i0).qcfg.glog = 0 ∧
      (qrun.strm i0).qcfg.sr = false ∧
      next (.quant i0 vl) qrun (fun t => decide (t.spad = [(512, 4)] ∧ (t.vreg i0 1).getD 3 0 = 0x7D000000)) = true := by decide +kernel

/-- The lane-map line of zeros names element 0, which then gives no exponent: 1.0 is 128 quanta of 2^-7, clipped to 63 = 8 * 7 + 7 (R64). -/
theorem wit_quantiser_lanes :
    let s : State := { run with tiles := [(0, { tile0 with
      streams := [(0, { strm0 with qcfg := { floor := 120, cap := 135, sr := true, lanes := true, laneLine := 5 } })]
      vregs := [(128, 0x3F800000)] })] }
    s.clearVecLine i0 vl = true ∧ (s.tile 0).owns ((s.strm i0).qcfg.laneOf 0) 1 (s.strm i0).tag = true ∧
      next (.quant i0 vl) s (fun t => decide (t.spad = [(512, 7)])) = true := by decide +kernel

theorem wit_quantiser_gathers :
    (runS (fun x => { x with qcfg := { floor := 120, cap := 135, glog := 1 } })).clearVecLine i0 vl = true ∧
      next (.quant i0 vl) (runS (fun x => { x with qcfg := { floor := 120, cap := 135, glog := 1 } }))
        (fun t => decide (t.spad = [] ∧ (t.strm i0).qpend.length = 1)) = true := by decide +kernel

theorem wit_lane_feed :
    run.clearVecLines i0 vl 8 = true ∧ (run.tile 0).owns 8 2 (run.strm i0).tag = true ∧ (run.tile 0).wide = [] ∧
      next (.lanef i0 vl) { run with spad := [(1024, 7)] } (fun t => decide (t.spad = [])) = true := by decide +kernel

theorem wit_mx_conversions :
    run.clearVecLine i0 vl = true ∧ ¬ (2 ≤ vl.md.toNat ∧ vl.lacc ≠ 0) ∧
      next (.mxin i0 vl) run (fun t => decide ((t.strm i0).pc = 1)) = true ∧
      run.clearVecLine i0 { vl with md := 2, lacc := 1 } = true ∧
      next (.mxin i0 { vl with md := 2, lacc := 1 }) run (fun t => decide ((t.strm i0).pc = 1 ∧ t.spad = [])) = true ∧
      burstRes (elemsOf (lanesHdr (run.vreg i0 2)) (run.padLine 0 4) false) = (lanesHdr (run.vreg i0 2)).res ∧
      next (.mxout i0 vl) run (fun t => decide ((t.vreg i0 1).getD 0 0 = 0x06060606)) = true := by decide +kernel

/-! ## Arrays -/

/-- An operation of array 0 in mode 0 into register 0 of bank 0. -/
def op0 : PendOp :=
  { resident := true, unit := 0, mode := 0, dir := false, infmt := false, rge := 15, reg := 0, acc := false, tag := 0, stream := 0
    iaddr := 0, input := [], frame := 0, ready := 9, isCal := false, void := false }

theorem wit_fire : arun.clearIssue i0 0 = true ∧ arun.mayFire (arrayNo 0 0 0) (arun.strm i0).tag = true ∧
    ((arun.tile 0).feed 0).usable (arun.strm i0).tag = true ∧ busyAt (arun.array 0).busy arun.fu.frame 5 = false ∧
    5 + modeBusy 0 ≤ 960 ∧
    (∀ r ∈ fireRegs 0 0 0, (SMap.get (arun.tile 0).regs {} r).foreign (arun.strm i0).tag = false) ∧
    next (.fire i0 0 0 0 15 0 true 0) arun (fun t => decide ((t.array 0).busy = some ⟨0, 5 + modeBusy 0, 0⟩ ∧
      (t.tile 0).ops = [{ op0 with acc := true, ready := 5 + modeReadable 0 }])) = true := by decide +kernel

/-- `run` with both transit halves of partition 0. -/
def trun : State := runT (fun t => { t with halfA := { tag := 0 }, halfB := { tag := 0 } })

theorem wit_tfire : trun.clearIssue i0 4 = true ∧ (∀ b ∈ halvesOf 2, ((trun.tile 0).half b).tag = (trun.strm i0).tag ∧
      ((trun.tile 0).half b).loading = none ∧ ((trun.tile 0).half b).copying 0 5 = false) ∧ ((trun.tile 0).feed 0).usable (trun.strm i0).tag = true ∧
    busyAt (trun.tile 0).tbusy trun.fu.frame 5 = false ∧ 5 + transitBusy 2 false false ≤ 960 ∧
    next (.tfire i0 2 false false 0 false 0 0) trun (fun t => decide ((t.tile 0).tbusy = some ⟨0, 5 + transitBusy 2 false false, 0⟩ ∧
      (t.tile 0).ops.length = 1)) = true := by decide +kernel

theorem wit_cal : arun.clearIssue i0 0 = true ∧ arun.mayFire 0 (arun.strm i0).tag = true ∧
    busyAt (arun.array 0).busy arun.fu.frame 5 = false ∧
    next (.cal i0 0 0 0) arun (fun t => decide ((t.array 0).busy = some ⟨0, 197, 0⟩ ∧ (t.array 0).slots = 1 ∧ (t.array 0).slotsAll = 1)) = true := by decide +kernel

theorem wit_fire_outside_partition : run.clearIssue i0 0 = true ∧ (run.array 0).st ≠ .resident ∧
    next (.fire i0 0 0 0 15 0 false 0) run (fun t => (t.part 0).abort.isSome && decide (t.arrays = [])) = true := by decide +kernel

theorem wit_xfer : (run.clearIssue i0 5) = true ∧ regFieldsOk false 0 0 0 = true ∧
    (run.tile 0).pendingInto run.fu.frame 5 false 0 0 = none ∧ ((run.tile 0).register false 0 0).foreign (run.strm i0).tag = false ∧
    run.portsClear i0 4 9 = true ∧
    next (.xfer i0 false 0 0 0 4 0) (runT (fun t => { t with regs := [(0, { tag := 0, vals := [(33, 6)] })] }))
      (fun t => decide (Cells.get t.spad (128 * 5 + 4) = 6)) = true := by decide +kernel

theorem wit_feed : run.clearIssue i0 6 = true ∧ run.portsClear i0 4 1 = true ∧ SMap.get (run.strm i0).maskAt none 0 = none ∧
    next (.feed i0 4 1 0 0 []) { runS (fun x => { x with masks := [(0, 4)] }) with spad := [(512, 3)] }
      (fun t => decide ((t.tile 0).feeds = [(2, ⟨0, [(1, 3)]⟩)])) = true := by decide +kernel

/-- `run` with block 1 retained. -/
def rrun : State := { (runT (fun t => { t with blocks := [(1, { powered := true, retained := true, tag := 0 })] })) with spad := [(32768, 9)] }

theorem wit_tload : rrun.clearIssue i0 4 = true ∧ (SMap.get (rrun.tile 0).blocks {} 1).retained = true ∧
    ((rrun.tile 0).half false).tag = 0xFE ∧ (rrun.tile 0).opOn rrun.fu.frame 5 false = false ∧ ((rrun.tile 0).half false).loading = none ∧
    rrun.portsClear i0 256 256 = true := by decide +kernel

theorem test_tload_first_line :
    next (.tload i0 false true 1 0 []) rrun (fun t => decide ((t.tile 0).halfA.tag = 0 ∧ SMap.get (t.tile 0).halfA.lines 0 0 = 9 ∧
      (t.tile 0).halfA.wfmt = true)) = true := by decide +kernel

/-- A sum past the bound in each direction, and one on it (R36). -/
theorem wit_accumulator_saturates :
    ((({ tag := 0, vals := [(0, 0x7FFFFFFF), (1, 0x80000001)] } : AccReg).update
        { tag := 0, acc := true, vals := [1, -1, 2147483647], status := {}, pred := [], win := [], noPred := false }).vals.map
          (fun x => x.2.toInt)) = [2147483647, -2147483647, 2147483647] := by decide +kernel

/-- `arun` with one operation of array 0 under way. -/
def prun : State := { arun with tiles := [(0, { tile0 with ops := [op0] })] }

theorem wit_array_result :
    (prun.tile 0).ops.find? (fun q => q.resident && !q.isCal && decide (q.unit = 0 % 64)) = some op0 ∧
      ((prun.tile 0).ops.erase op0).find? (fun b => sameTarget op0 b && !b.acc && !b.void) = none ∧ op0.void = false ∧
      op0.mode.toNat ≤ 3 ∧ (op0.conv []).failMask (prun.array 0) op0.input prun.health.widened = 0 ∧
      (SMap.get (prun.tile 0).regs {} (regKey (op0.unit / 16) op0.reg)).foreign op0.tag = false ∧
      next (.arrayResultReadable 0 [] false) prun (fun t => decide ((t.tile 0).ops = [] ∧
        (SMap.get (t.tile 0).regs {} 0).tag = 0)) = true := by decide +kernel

/-- A transit operation of half A. -/
def top : PendOp := { op0 with resident := false, rge := 15 }

/-- `trun` with that operation under way. -/
def turn : State := runT (fun t => { t with halfA := { tag := 0 }, ops := [top] })

theorem wit_transit_result :
    (turn.tile 0).ops.find? (fun q => !q.resident) = some top ∧ top.void = false ∧
      ((turn.tile 0).ops.erase top).find? (fun b => sameTarget top b && !b.acc && !top.acc && !b.void) = none ∧
      (SMap.get (turn.tile 0).tregs {} top.reg).foreign top.tag = false ∧
      next (.transitResultReadable 0 false false none) turn (fun t => decide ((t.tile 0).ops = [] ∧
        (SMap.get (t.tile 0).tregs {} 0).tag = 0)) = true := by decide +kernel

theorem wit_diagnosis : (devA { st := .withdrawn, diagnosing := true }).array 0 = { st := .withdrawn, diagnosing := true } ∧
    next (.arrayDiagnosisEnd 0 [3]) (devA { st := .withdrawn, diagnosing := true })
      (fun t => decide ((t.array 0).st = .withdrawn ∧ (t.array 0).failedCols = [3])) = true ∧
    next (.arrayDiagnosisEnd 0 []) (devA { st := .withdrawn, diagnosing := true }) (fun t => decide ((t.array 0).st = .failed)) = true ∧
    next (.arrayDiagnosisEnd 0 [0, 1, 2, 3, 4, 5, 6, 7]) (devA { st := .withdrawn, diagnosing := true })
      (fun t => decide ((t.array 0).st = .failed)) = true := by decide +kernel

theorem wit_spare_programming :
    ({ st := .withdrawn, failedCols := [3] } : ArrayS).failedCols.contains 3 = true ∧
      ({ st := .withdrawn, failedCols := [3] } : ArrayS).freeSpares.head? = some 0 ∧
      next (.spareProgrammingEnd 0 3) (devA { st := .withdrawn, failedCols := [3], cells := [(3, 5)] })
        (fun t => decide (SMap.get (t.array 0).colMapNew 0 0 = 0xC003 ∧ SMap.get (t.array 0).spare 0 0 = 5 ∧
          (t.array 0).failedCols = [])) = true := by decide +kernel

theorem wit_array_return :
    ((devA { st := .withdrawn, colMapNew := [(0, 0xC003)] }).usersOf 0).all (devA { st := .withdrawn, colMapNew := [(0, 0xC003)] }).atBoundary
        = true ∧
      next (.arrayReturn 0) (devA { st := .withdrawn, colMapNew := [(0, 0xC003)] })
        (fun t => decide ((t.array 0).st = .resident ∧ (t.array 0).colMap = [(0, 0xC003)])) = true := by decide +kernel

/-- `devA` with array 0 waiting at the program engine of tile 0. -/
def pdev : State := { (devA { st := .erased, progCount := 9999 }) with tiles := [(0, { progQueue := [0, 1] })] }

theorem wit_programming_start : (pdev.tile 0).progQueue = 0 :: [1] ∧ (pdev.tile 0).progNow = none ∧
    (pdev.array 0).st.programmable = true ∧ (pdev.array 0).progCount < 10000 ∧
    next (.arrayProgrammingStart 0 [(0, 7), (2, -3)] 0 true) pdev (fun t => decide ((t.array 0).st = .programming ∧
      (t.array 0).progCount = 10000 ∧ (t.array 0).marker = true ∧ SMap.get (t.array 0).tally 0 0 = 4)) = true := by decide +kernel

theorem wit_programming_end :
    next (.arrayProgrammingEnd 0 [] [] [] [] 7) (devA { st := .programming, marker := true })
      (fun t => decide ((t.array 0).st = .resident ∧ (t.array 0).marker = false ∧ (t.array 0).quality = 7)) = true ∧
    next (.arrayProgrammingEnd 0 [0, 1, 2, 3, 4, 5, 6, 7] [] [] [] 7) (devA { st := .programming, marker := true })
      (fun t => decide ((t.array 0).st = .failed ∧ (t.array 0).marker = true)) = true := by decide +kernel

theorem wit_release_erase :
    SMap.rising (devA { st := .resident, base := some 2 }).arrays = true ∧
      (SMap.get (devA { st := .resident, base := some 2 }).dict.bases (0, 0) 2).1 = 0 ∧
      next (.releaseErase 2 false) (devA { st := .resident, base := some 2, progCount := 9999 })
        (fun t => decide ((t.array 0).st = .erased ∧ (t.array 0).progCount = 10000)) = true := by decide +kernel

/-! ## Calibration -/

/-- Array 0 Resident, waiting for a full calibration at its tile for a priority request, and array 1 by rotation. -/
def cdev : State := { (devA { st := .resident }) with tiles := [(0, { calPrio := [0], calRot := [1] })] }

theorem wit_full_calibration_start : (cdev.tile 0).calNow = none ∧
    (cdev.tile 0).nextCal (fun n => decide ((cdev.array n).st = .resident)) = some 0 ∧
    next (.fullCalibrationStart 0) cdev (fun t => decide ((t.tile 0).calNow = some 0 ∧ (t.tile 0).calPrio = [] ∧ (t.tile 0).calRot = [1] ∧
      (t.array 0).stale = true ∧ (t.array 0).stage = 1 ∧ (t.array 0).running = some { prio := true })) = true := by decide +kernel

/-- Array 0 in slot 1,024 of the last stage of a full calibration. -/
def cend : State := devA { st := .resident, running := some { prio := true }, stage := 5, stageSlots := 1024, stale := true }

theorem wit_full_calibration_end : SMap.rising cend.arrays = true ∧ (cend.array 0).running = some { prio := true } ∧
    (cend.array 0).suspended = false ∧ (cend.array 0).stage = 5 ∧ (cend.array 0).stageSlots = 1024 ∧
    next (.fullCalibrationEnd 0 [3] [] [] 12) cend
      (fun t => decide ((t.array 0).running = none ∧ (t.array 0).quality = 12 ∧ (t.array 0).stale = false)) = true ∧
    (dev.array 0).running = none ∧ same (.fullCalibrationEnd 0 [3] [] [] 12) dev = true := by decide +kernel

/-- Array 0 with one staged set. -/
def stg : State := devA { staging := [{ set := { sweeps := [1, 1, 1, 1] }, zero := true, user := true, points := 1 }], corr := [(0, ⟨1, 0⟩)] }

theorem wit_calibration_write_end : SMap.rising stg.arrays = true ∧ (stg.array 0).staging = [{ set := { sweeps := [1, 1, 1, 1] }, zero := true, user := true, points := 1 }] ∧
    next (.calibrationWriteEnd 0) stg (fun t => decide ((t.array 0).cal.sweeps = [1, 1, 1, 1] ∧ (t.array 0).corr = [] ∧
      (t.array 0).staging = [] ∧ (t.array 0).cal.writes = 9 ∧ t.dict.calWritten = 1)) = true := by decide +kernel

theorem wit_background_window :
    4096 ≤ ((devA { st := .resident, win := { ops := 4096 } }).array 0).win.ops ∧ ((devA { st := .resident, win := { ops := 4096 } }).array 0).running = none ∧
      ((devA { st := .resident, win := { ops := 4096 } }).array 0).st = .resident ∧
      (devA { st := .resident, win := { ops := 4096 } }).dict.bgEnable = true ∧
      next (.backgroundWindowEnd 0) (devA { st := .resident, win := { ops := 4096 } })
        (fun t => decide ((t.array 0).windows = 1 ∧ (t.array 0).win = {})) = true := by decide +kernel

theorem wit_set_status :
    (devA {}).setStatus 0 = 0 ∧ (devA { cal := { sweeps := [0xFFFF, 0, 1, 2] } }).setStatus 0 = 3 ∧
      (devA { cal := { sweeps := [0, 0, 1, 2] } }).setStatus 0 = 2 ∧
      ({ (devA { cal := { sweeps := [5, 5, 5, 5] } }) with health := { dev.health with sweep := 5 } } : State).setStatus 0 = 1 := by
  decide +kernel

theorem wit_rotation : ((devA { st := .resident }).array 0).st = .resident ∧ (devA { st := .resident }).dict.rotation ≠ 0 ∧
    next (.rotationDue 0) (devA { st := .resident }) (fun t => decide ((t.tile 0).calRot = [0])) = true := by decide +kernel

/-- `arun` with k calibration slots in the latest whole run of array 0. -/
def srun (k : Nat) : State := { arun with parts := [(0, { st := .serving, layers := 4, arrays := [0] })], arrays := [(0, { st := .resident, base := some 0, slotsRun := some k })] }

theorem wit_slot_shortfall : (srun 63).usersOf 0 ≠ [] ∧ ((srun 63).array 0).slotsRun = some 63 ∧ (srun 63).recd.buffer.length < 448 ∧
    next (.slotShortfall 0) (srun 63) (fun t => decide (t.recd.buffer.length = 1 ∧ t.dict.shortfalls = 1)) = true ∧
    (srun 64).usersOf 0 ≠ [] ∧ ((srun 64).array 0).slotsRun = some 64 ∧ same (.slotShortfall 0) (srun 64) = true := by decide +kernel

theorem wit_correction_save : SMap.rising (devA { corr := [(1, ⟨2, 0⟩)] }).arrays = true ∧
    next .correctionSave (devA { corr := [(1, ⟨2, 0⟩)] }) (fun t => decide ((t.array 0).corrSaved = [(1, ⟨2, 0⟩)])) = true := by
  decide +kernel

theorem wit_drift_evaluation : arun.attachedArrays 0 = [0] ∧ (arun.part 0).step.toNat % 256 = 0 ∧ (arun.part 0).st = .serving ∧
    (arun.array 0).win.slices < 256 ∧ (arun.array 0).probe = none ∧
    next (.driftEvaluation 0) arun (fun t => decide ((t.array 0).awaitProbe = true ∧ t.health.driftEvals = 1)) = true := by decide +kernel

/-! ## Sends, queues, waits, credits, control -/

theorem wit_send : run.clearIssue i0 8 = true ∧ sendFieldsOk 0 0 0 false = true ∧ run.portsClear i0 4 1 = true ∧
    remoteTile 0 0 0 = false ∧
    next (.send i0 4 false 0 0 8 0 false false []) (pad4 6)
      (fun t => t.mesh.flits.map (fun f => (f.data, f.line, f.sent)) == [(6, 8, 5)]) = true := by decide +kernel

theorem wit_send_without_credit : run.clearIssue i0 8 = true ∧
    (run.tile 0).mirrors.any (mirrorFor (run.strm i0).tag 1 8) = false ∧
    next (.send i0 4 false 1 0 8 0 false false []) run (fun t => (t.part 0).abort.isSome && decide ((t.tile 0).violations = 1)) = true := by
  decide +kernel

theorem wit_sendr : run.clearIssue i0 5 = true ∧ regFieldsOk false 0 0 0 = true ∧ sendFieldsOk 0 0 0 false = true ∧
    (run.tile 0).pendingInto run.fu.frame 5 false 0 0 = none ∧ ((run.tile 0).register false 0 0).foreign (run.strm i0).tag = false ∧
    next (.sendr i0 false 0 0 0 false 0 0 8 0 0 false) run (fun t => t.mesh.flits.map (fun f => f.sent) == [5, 6, 7, 8, 9, 10, 11, 12]) = true := by
  decide +kernel

theorem wit_load : run.clearIssue i0 9 = true ∧ ((run.tile 0).load 0).st = .free ∧ (8 : Nat) + 1 ≤ 3071 ∧
    next (.load i0 0 false false 8 1 0 20) run (fun t => decide (((t.tile 0).load 0).st = .issued ∧ t.mesh.qreq.length = 1)) = true := by
  decide +kernel

theorem wit_load_half : ((run.tile 0).half true).tag = 0xFE ∧ (0x800 : BitVec 12).extractLsb' 8 3 = 0 ∧
    next (.load i0 0 true true 0x800 1 0 20) run (fun t => decide (((t.tile 0).load 0).toHalf = some true ∧ t.mesh.qreq.length = 1)) = true := by
  decide +kernel

theorem wit_store : ((run.tile 0).storeE 31).st = .free ∧ (run.tile 0).owns 8 2 (run.strm i0).tag = true ∧
    next (.store i0 31 false false 8 1 0 20) run (fun t => decide (((t.tile 0).storeE 31).lines = 2 ∧ t.mesh = run.mesh)) = true := by
  decide +kernel

theorem wit_rread : next (.rread i0 63 5 3071 4 0) run (fun t => t.mesh.vc2.map Msg.says == [(0, 5, 0, 0, .readReq 63 3071 0)]) = true := by
  decide +kernel

/-- `run` with load entry 0 as given. -/
def lrun (st : QState) : State := runT (fun t => { t with loads := [(0, { st := st, epoch := 3 })] })

theorem wit_queue_overfill : ((lrun .complete).tile 0).load 0 ≠ {} ∧ ((lrun .complete).tile 0).load 0 = { st := .complete, epoch := 3 } ∧
    next (.rread i0 0 5 4 4 0) (lrun .complete) (fun t => (t.part 0).abort.isSome && decide (t.mesh.vc2 = [])) = true := by decide +kernel

/-- A receive entry of partition 0 with four slots from slot 8 on link 0. -/
def rx0 : Xfer := { tag := 0, base := 8, linesM1 := 3, contrib := 1, ndig := 2, valid := true, readsM1 := 1 }

/-- `run` with that entry. -/
def xrun : State := { run with links := [(0, { st := .active, rxEnts := [(2, rx0)] })] }

theorem wit_recv : xrun.clearIssue i0 8 = true ∧ ((xrun.tile 0).load 0).st = .free ∧ (xrun.link 0).rxAt 9 = some (2, rx0) ∧
    SMap.get (xrun.link 0).rxEnts {} 2 = rx0 ∧ 9 - 8 + (1 + 1) ≤ rx0.lines ∧ (xrun.link 0).full rx0 = false ∧ rx0.clear = 0 ∧
    ¬ ((xrun.stepPos i0).1 < rx0.frameOff.toNat ∨ ((xrun.stepPos i0).1 = rx0.frameOff.toNat ∧ (xrun.stepPos i0).2 < rx0.cycle.toNat)) ∧
    next (.recv i0 0 9 4 1 0 0) xrun (fun t => decide (((t.tile 0).load 0).st = .issued ∧
      (SMap.get (t.link 0).rxEnts {} 2).recvs = [(0, 0, 1, 2, 4, 0)])) = true := by decide +kernel

/-- `xrun` with every line and digest of the entry come. -/
def rxFull : Xfer := { rx0 with digs := [(0, 0), (0, 0)], done := true }
def xrun1 : State := { run with links := [(0, { st := .active, rxEnts := [(2, rxFull)], rxSlots := [(8, ⟨6, 1, false, none⟩), (9, ⟨7, 1, false, none⟩),
  (10, ⟨8, 1, false, none⟩), (11, ⟨9, 1, false, none⟩)] })] }

theorem wit_recv_done : (xrun1.link 0).rxAt 9 = some (2, rxFull) ∧ SMap.get (xrun1.link 0).rxEnts {} 2 = rxFull ∧ (xrun1.link 0).full rxFull = true ∧
    rxFull.clear = 0 ∧ rxFull.done = true ∧ rxFull.recvs = [] ∧
    next (.recv i0 0 9 4 1 0 0) xrun1 (fun t => t.mesh.qresp.map (fun m => (m.dest, m.msg)) ==
      [(0, .loadData 0 0 7 0), (0, .loadData 0 1 8 0)]) = true := by decide +kernel

theorem wit_wait : (lrun .complete).clearIssue i0 10 = true ∧
    next (.wait i0 0 0) (lrun .complete) (fun t => decide ((t.tile 0).load 0 = { epoch := 3 } ∧ t.fu.hold = none)) = true ∧
    next (.wait i0 0 0) (lrun .issued) (fun t => decide (t.fu.hold = some (5, 5, [(0, 0, 0)]) ∧ t.fu.causes = [0])) = true ∧
    next (.wait i0 95 0) run (fun t => (t.part 0).abort.isSome) = true := by decide +kernel

/-- An entry that became Complete in the WAIT's own cycle holds the schedule until the next one (R194). -/
theorem wit_wait_holds : (let s := runT (fun t => { t with loads := [(0, { st := .complete, epoch := 3, doneAt := run.now (run.realOf 5) })] })
    s.clearIssue i0 10 = true ∧ s.fu.hold = none ∧
      next (.wait i0 0 0) s (fun t => decide (t.fu.held = 1 ∧ t.fu.hold = none ∧ (t.tile 0).load 0 = { epoch := 3 })) = true) := by decide +kernel

theorem wit_credit : run.clearIssue i0 9 = true ∧
    next (.credit i0 false 7 3008 64 1 0) run (fun t => decide (t.mesh.vc1.length = 1 ∧
      (SMap.get (t.tile 0).credits {} 1).remain = 64)) = true ∧
    next (.credit i0 true 7 0 1 15 0) run (fun t => decide (t.mesh.vc1 = [] ∧ (SMap.get (t.tile 0).credits {} 15).live = true)) = true ∧
    next (.credit i0 false 7 3009 64 1 0) run (fun t => (t.part 0).abort.isSome && decide ((t.tile 0).violations = 1)) = true ∧
    next (.credit i0 false 7 0 65 1 0) run (fun t => (t.part 0).abort.isSome && decide ((t.tile 0).violations = 1)) = true := by
  decide +kernel

/-- Cycle 0 of stream 0. -/
def ic : Issue := { i0 with cycle := 0 }

theorem wit_next_end : run.issuing ic = true ∧ ic.store = .none ∧ run.fu.hold = none ∧ (run.strm ic).pc ≤ (run.strm ic).last.toNat ∧
    (run.part 0).nextStart = none ∧
    next (.next ic 1 0) run (fun t => decide ((t.strm ic).block = some 1)) = true ∧
    next (.end_ ic 2 0) run (fun t => decide ((t.strm ic).block = none ∧ (t.strm ic).ended = some (0, 2) ∧ (t.part 0).nextStart = some 3)) = true := by decide +kernel

theorem wit_wait_store : next (.wait i0 95 0) (runT (fun t => { t with stores := [(31, { st := .complete, epoch := 3 })] }))
    (fun t => decide ((t.tile 0).storeE 31 = { epoch := 3 } ∧ t.fu.hold = none)) = true := by decide +kernel

theorem wit_layer : run.clearIssue i0 10 = true ∧ (3 : Nat) < (run.part 0).layers.toNat ∧
    next (.layer i0 3 9 8 0) run (fun t => decide ((t.strm i0).layer = 3 ∧ (t.strm i0).pc = 1)) = true ∧
    next (.layer i0 3 9 8 0) { run with parts := [(0, { st := .serving, layers := 4, streams := 8 })] }
      (fun t => decide ((t.strm i0).pc = 8)) = true ∧
    next (.layer i0 3 9 8 0) { run with parts := [(0, { st := .serving, layers := 4, recipe := 8 })] }
      (fun t => decide ((t.strm i0).pc = 9)) = true := by decide +kernel

theorem wit_jump_base_mask : (63 : Nat) ≤ (run.strm i0).last.toNat ∧
    next (.jump i0 63 0) run (fun t => decide ((t.strm i0).pc = 63 ∧ (t.strm i0).branch = some 5)) = true ∧
    next (.base i0 2 7 0) (runS (fun x => { x with table := [(7, 99)] })) (fun t => decide ((t.strm i0).bregs = [(2, 99)])) = true ∧
    (run.tile 0).owns (31 / 16) 1 (run.strm i0).tag = true ∧ (run.tile 0).narrow = [] ∧ (run.tile 0).narrowW = [] ∧ (run.tile 0).wideUses = [] ∧
    next (.mask i0 7 31 0 []) { run with spad := [(248, 5)] } (fun t => decide (SMap.get (t.strm i0).masks 0 7 = 5)) = true := by
  decide +kernel

/-! ## Scratchpad upkeep and the mesh -/

theorem wit_ecc_write_back : (runT (fun t => { t with writeBack := [4, 9] })).inDusk 970 = true ∧
    next (.eccWriteBack 0 970) (runT (fun t => { t with writeBack := [4, 9] })) (fun t => decide ((t.tile 0).writeBack = [9])) = true := by
  decide +kernel

theorem wit_block_zeroing :
    SMap.get ((runT (fun t => { t with blocks := [(1, { powered := true, zeroed := some 240 })] })).tile 0).blocks {} 1 =
        { powered := true, zeroed := some 240 } ∧
      next (.blockZeroing 0 1 970) { runT (fun t => { t with blocks := [(1, { powered := true, zeroed := some 240 })] }) with
          spad := [(63487, 1), (63488, 2), (65535, 3), (65536, 4)] }
        (fun t => decide (t.spad = [(63487, 1), (65536, 4)] ∧ (SMap.get (t.tile 0).blocks {} 1).zeroed = none)) = true := by decide +kernel

/-- A row of bank 1 past its threshold, with `n` spare rows of the bank in use. -/
def mapDev (n : Nat) : State := { dev with tiles := [(0, { awaiting := [200, 7], spareRows := [(1, n)] })] }

theorem wit_row_map_out : (mapDev 31).tile 0 = { awaiting := 200 :: [7], spareRows := [(1, 31)] } ∧ (mapDev 31).inDusk 970 = true ∧
    next (.rowMapOut 0 970) (mapDev 31) (fun t => decide ((t.tile 0).mapping = [(200, 31)] ∧ (t.tile 0).awaiting = [7])) = true ∧
    32 ≤ SMap.get ((mapDev 32).tile 0).spareRows 0 (200 / 192) ∧ (mapDev 32).health.st = 0 ∧ (mapDev 32).health.decided = none ∧
    next (.rowMapOut 0 970) (mapDev 32) (fun t => decide (t.health.decided = some 4 ∧ (t.tile 0).mapping = [])) = true := by decide +kernel

/-- A flit of tile 0 for line 4 of tile 0, sent at cycle 1, as an addend of one. -/
def flit0 (add : Bool) (b : Line) : Flit :=
  { add := add, src := 0, dest := 0, port := 0, line := 4, tag := 0, xfer := 0, count := if add then 1 else 0
    res := if add then flitRes b else 0, plane := false, data := b, frame := 0, sent := 1, hop := 0, anyc := false, pred := none
    stream := 0, void := false }

/-- `run` with these flits. -/
def frun (l : List Flit) : State := { run with mesh := { run.mesh with flits := l } }

theorem wit_flit_claim :
    (frun [flit0 false 9]).mesh.flits.filter (fun g => g.claims 0 0 0 4 5) = [flit0 false 9] ∧
      next (.scheduledFlitClaim 0 false 4 5 false false false) (frun [flit0 false 9])
        (fun t => t.mesh.flits == [{ flit0 false 9 with hop := 1 }]) = true := by decide +kernel

theorem wit_flits_added :
    (frun [flit0 true 3, flit0 true 4]).mesh.flits.filter (fun g => g.claims 0 0 0 4 5) = [flit0 true 3, flit0 true 4] ∧
      flitRes (sumFlit (flit0 true 3) [flit0 true 3, flit0 true 4]).data = (sumFlit (flit0 true 3) [flit0 true 3, flit0 true 4]).res ∧
      next (.scheduledFlitClaim 0 false 4 5 false false false) (frun [flit0 true 3, flit0 true 4])
        (fun t => t.mesh.flits.map (fun f => (f.data, f.count, f.res, f.hop)) == [(7, 2, 7, 1)]) = true := by decide +kernel

theorem wit_flits_collide :
    (frun [flit0 false 3, flit0 true 4]).mesh.flits.filter (fun g => g.claims 0 0 0 4 5) = [flit0 false 3, flit0 true 4] ∧
      next (.scheduledFlitClaim 0 false 4 5 false false false) (frun [flit0 false 3, flit0 true 4])
        (fun t => t.mesh.flits == [] && (t.part 0).abort.isSome && decide (t.health.collisions = 1)) = true := by decide +kernel

/-- 15 uses of a link in the cycles 4-18, one of partition 2 among those of partition 1. -/
def fifteen : List FlitUse :=
  (List.range 15).map (fun k => { cycle := k + 4, tag := if k = 6 then 2 else 1, xfer := BitVec.ofNat 8 k, stream := 0 })

theorem test_sixteenth_flit_in_a_row : fullRun fifteen 19 = some fifteen ∧ fullRun fifteen 20 = none ∧
    (clashRecords 0 0 19 false (fifteen ++ [(flit0 false 9).useAt 19]) (fifteen ++ [(flit0 false 9).useAt 19]).reverse).map
      (fun f => (f.tag, f.detail)) = [(2, 0x0000), (1, 0x0000), (0, 0x010E)] := by decide +kernel

theorem wit_flit_landing :
    ({ flit0 false 9 with hop := hops 0 0 + 1 } : Flit).sent + 3 * hops 0 0 + 10 = 11 ∧
      (frun [{ flit0 false 9 with hop := 1 }]).tile 0 = tile0 ∧
      ({ flit0 false 9 with hop := 1 } : Flit).remotes = [] ∧
      next (.scheduledFlitLanding 0 0 false 11 false false) (frun [{ flit0 false 9 with hop := 1 }])
        (fun t => t.mesh.flits == [] && decide (t.spad = [(512, 9)])) = true := by decide +kernel

/-- A flit of tile 1 for tile 0, past its last hop, and the credit that covers it. -/
def remoteFlit : State :=
  { frun [{ flit0 false 9 with src := 1, hop := 2 }] with
    tiles := [(0, { tile0 with credits := [(3, { live := true, writer := 1, tag := 0, base := 4, count := 1, remain := 1 })] })] }

theorem wit_flit_landing_spends_credit :
    ((remoteFlit.tile 0).credits.find? (fun x => creditFor { flit0 false 9 with src := 1, hop := 2 } x.2)).isSome = true ∧
      next (.scheduledFlitLanding 0 0 false 14 false false) remoteFlit
        (fun t => decide (t.spad = [(512, 9)] ∧ (SMap.get (t.tile 0).credits {} 3).live = false)) = true := by decide +kernel

/-- A message injected at a router at cycle 0, and one under way at `run` in a channel. -/
def msg (src dest port : Nat) (m : MeshMsg) : Msg := ⟨src, dest, port, 0, 0, 0, m⟩
def vc (c : Chan) (l : List Msg) (s : State := run) : State := { s with mesh := s.mesh.setChan c l }

theorem wit_message_arrives :
    ((vc .vc1 [msg 3 1 0 (.revoke 1), msg 3 0 0 (.revoke 1), msg 3 0 0 (.grant 1 {})]).takeMsg .vc1 19
      (fun m => m.isFor 0 0 && decide (m.msg.op = 0x02))).isSome = true ∧
    (vc .vc1 [msg 3 0 0 (.revoke 1)]).takeMsg .vc1 18 (fun m => m.isFor 0 0) = none ∧
    (vc .vc1 [msg 3 0 0 (.revoke 1), msg 3 0 0 (.grant 1 {})]).takeMsg .vc1 19 (fun m => m.isFor 0 0 && decide (m.msg.op = 0x01)) = none := by
  decide +kernel

theorem wit_credit_messages :
    next (.creditGrant 0 22 {}) (vc .vc1 [msg 3 0 0 (.grant 1 { live := true })])
        (fun t => decide ((t.tile 0).mirrors = [(3, 1, { live := true })] ∧ (SMap.get t.mesh.routers {} 0).peakHigh = 22)) = true ∧
      next (.creditRevoke 0 22 {}) (vc .vc1 [msg 3 0 0 (.revoke 1)] { run with
          tiles := [(0, { tile0 with mirrors := [(3, 1, { live := true }), (3, 2, { live := true })] })] })
        (fun t => decide ((t.tile 0).mirrors = [(3, 2, { live := true })] ∧ t.mesh.vc1 = [])) = true ∧
      (vc .vc0 [msg 313 313 1 (.fault 77)]).recd.buffer.length < 512 ∧
      next (.faultReport 29 {}) (vc .vc0 [msg 313 313 1 (.fault 77)])
        (fun t => decide (t.mgmt.faultFifo = [77] ∧ 1 ∈ t.mgmt.asserted ∧ t.recd.buffer.length = 1)) = true := by decide +kernel

theorem wit_remote_read_request :
    next (.remoteReadRequest 0 29 {}) (vc .vc2 [msg 5 0 0 (.readReq 1 4 7)])
      (fun t => decide ((t.tile 0).remote = [(5, 1, 4, 0, 7)])) = true := by decide +kernel

/-- Tile 0 with a request of tile 5 for line 4, and its latest line served at cycle 22. -/
def remServe : State := { runT (fun t => { t with remote := [(5, 1, 4, 0, 0)], served := some 22 }) with spad := [(512, 8)] }

theorem wit_remote_read_serve : (remServe.takeFill 0 30 4 none).isSome = true ∧
    next (.remoteReadServe 0 30 []) remServe
      (fun t => t.mesh.vc3.map (fun m => (m.says, m.time)) == [((0, 5, 0, 0, .readResp 1 8 0), 30)]) = true ∧
    same (.remoteReadServe 0 29 []) remServe = true := by decide +kernel

theorem wit_remote_read_response :
    next (.remoteReadResponse 0 40 {}) (vc .vc3 [msg 5 0 0 (.readResp 1 8 2)] { run with
        tiles := [(0, { tile0 with loads := [(1, { st := .issued, tag := 0, line := 4, lines := 1, epoch := 2 })] })] })
      (fun t => decide (t.spad = [(512, 8)] ∧ ((t.tile 0).load 1).st = .complete)) = true := by decide +kernel

theorem wit_bad_flits :
    next (.loadData 0 960 { header := some 1 }) (vc .qresp [msg 32 0 0 (.loadData 1 0 6 0)])
      (fun t => decide (t.mesh.qresp = [] ∧ t.spad = [] ∧ (SMap.get t.mesh.routers {} (routerAfter 32 0 1)).dropped = 1)) = true ∧
    next (.loadData 0 960 { parity := true }) (vc .qresp [msg 32 0 0 (.loadData 1 0 6 0)])
      (fun t => decide (t.mesh.qresp = [] ∧ t.spad = []) && (t.part 0).abort.isSome) = true := by decide +kernel

/-! ## Memory stacks and engines -/

/-- `run` with granule 8 of partition 0, a written line in it, and queue requests. -/
def grun (q : List Msg) : State :=
  { run with mesh := { run.mesh with qreq := q }
             mem := { run.mem with granules := SMap.set run.mem.granules 0xFE 8 0, data := [(8589934592, 6)], written := [67108864] } }

/-- A load request of tile 5 to engine and stack 0. -/
def ldq (port a : Nat) : Msg := msg 5 32 port (.loadReq 1 0 a 1 0 7)

theorem wit_load_request : ((grun [ldq 1 67108864]).takeMsg .qreq 970 ((grun [ldq 1 67108864]).servable 0)).isSome = true ∧
    (67108864 : Nat) < dataLines ∧ (grun []).mayReach 0 67108864 = true ∧ ((grun []).stack 0).st ≠ 2 ∧
    next (.loadRequest 0 970 {} .none false) (grun [ldq 1 67108864])
      (fun t => decide (t.mesh.qreq = []) && t.mesh.qresp.map Msg.says == [(32, 5, 0, 0, .loadData 1 0 6 7)]) = true ∧
    (grun []).mayReach 0 0 = false ∧
    next (.loadRequest 0 970 {} .none false) (grun [ldq 1 0])
      (fun t => (t.part 0).abort.isSome && decide (t.mesh.qresp = [] ∧ t.mesh.qreq = [])) = true := by decide +kernel

/-- A request of two lines stays with its unit until the second is answered. -/
theorem test_load_of_two_lines :
    (let s := grun [{ ldq 1 67108864 with msg := .loadReq 1 0 67108864 2 0 7 }]
     next (.loadRequest 0 970 {} .none false) { s with mem := { s.mem with written := [67108864, 67108865] } } (fun t =>
      t.mesh.qreq.map (fun m => m.msg) == [.loadReq 1 0 67108864 2 1 7] && t.mesh.qresp.map (fun m => m.msg) == [.loadData 1 0 6 7])) = true := by
  decide +kernel

/-- `grun` with result line 9 of engine 0 written. -/
def resrun : State := let s := grun [ldq 2 (dataLines + 9)]
  { s with mem := { s.mem with engines := [(0, { results := [(9, ⟨0, 0, 3⟩)] })] } }

theorem wit_load_of_result : (resrun.takeMsg .qreq 970 (resrun.servable 0)).isSome = true ∧
    next (.loadRequest 0 970 {} .none false) resrun
      (fun t => decide ((t.engine 0).results = []) && t.mesh.qresp.map Msg.says == [(32, 5, 0, 0, .loadData 1 0 3 7)]) = true := by
  decide +kernel

/-- A request for an address that no unit has goes to router 313. -/
def norun : State := grun [msg 5 313 1 (.loadReq 1 0 (dataLines + 24 * 65536) 1 0 7)]

theorem wit_load_of_no_unit : (norun.takeMsg .qreq 970 (norun.servable 24)).isSome = true ∧
    next (.loadRequest 24 970 {} .none false) norun (fun t => (t.part 0).abort.isSome && decide (t.mesh.qresp = [])) = true := by
  decide +kernel

theorem wit_stack_errors :
    next (.loadRequest 0 970 {} (.single 3) false) (grun [ldq 1 67108864])
      (fun t => t.mesh.qresp.map (fun m => m.msg) == [.loadData 1 0 6 7] && decide ((t.stack 0).corrected = 1)) = true ∧
    (grun []).mem.lost.contains 67108864 = false ∧
    next (.loadRequest 0 970 {} .none false) (let s := grun [ldq 1 67108864]; { s with mem := { s.mem with stk := [(0, { st := 2 })] } })
      (fun t => t.mesh.qresp.map (fun m => m.msg) == [.loadData 1 0 6 7] && decide ((t.stack 0).rebuilt = 1)) = true ∧
    next (.loadRequest 0 970 {} .none true) (let s := grun [ldq 1 67108864]; { s with mem := { s.mem with stk := [(0, { st := 2 })] } })
      (fun t => (t.part 0).abort.isSome && decide (t.mesh.qresp = [] ∧ (t.stack 0).poisoned = 1 ∧ t.mem.lost = [67108864])) = true := by
  decide +kernel

/-- `run` with load data of engine 0 for entry 1 of tile 0, which waits for its second line. -/
def ldrun (h : Option Bool) : State := vc .qresp [msg 32 0 0 (.loadData 1 1 6 2)] { run with
  tiles := [(0, { tile0 with loads := [(1, { st := .issued, tag := 0, toHalf := h, wfmt := true, line := 4, lines := 2, done := 1, epoch := 2 })] })] }

theorem wit_load_data : ((ldrun none).takeFill 0 970 5 (some 1)).isSome = true ∧
    next (.loadData 0 970 {}) (ldrun none) (fun t => decide (t.spad = [(640, 6)] ∧ ((t.tile 0).load 1).st = .complete)) = true ∧
    ((ldrun (some true)).tile 0).ops = [] ∧
    next (.loadData 0 970 {}) (ldrun (some true)) (fun t => decide (t.spad = [] ∧ ((t.tile 0).load 1).st = .complete ∧
      SMap.get ((t.tile 0).half true).lines 0 5 = 6 ∧ ((t.tile 0).half true).tag = 0 ∧ ((t.tile 0).half true).wfmt = true)) = true := by
  decide +kernel

/-- `grun` with store entry 2 issued for line 67108865. -/
def strun (q : List Msg) : State :=
  { grun q with tiles := [(0, { tile0 with stores := [(2, { st := .issued, tag := 0, line := 4, lines := 1, addr := 67108865 })] })]
                spad := [(512, 5)] }

theorem wit_store_drain : ((strun []).tile 0).draining = some (2, { st := .issued, tag := 0, line := 4, lines := 1, addr := 67108865 }) ∧
    ((strun []).takeFill 0 970 4 none).isSome = true ∧
    next (.storeDrain 0 970 []) (strun []) (fun t => decide (((t.tile 0).storeE 2).done = 1) &&
      t.mesh.qreq.map (fun m => (m.says, m.time)) == [((0, 32, 1, 0, .storeData 2 67108865 5 0), 970)]) = true := by decide +kernel

theorem wit_store_data :
    next (.storeData 0 970 {}) (strun [msg 0 32 1 (.storeData 2 67108865 5 0)])
      (fun t => decide (t.memLine 67108865 = 5) &&
        t.mesh.qresp.map (fun m => (m.says, m.time)) == [((32, 0, 0, 0, .storeAck 2 0), 970 + 56)]) = true := by decide +kernel

theorem wit_store_acknowledge :
    next (.storeAcknowledge 0 970 {}) (vc .qresp [msg 32 0 0 (.storeAck 2 0)] (strun []))
      (fun t => decide (((t.tile 0).storeE 2).st = .complete)) = true := by decide +kernel

theorem wit_stack_failed : (run.stack 15).st ≠ 2 ∧ run.health.st = 0 ∧ run.health.decided = none ∧
    next (.stackFailed 15 0) run (fun t => (t.part 0).abort.isSome && decide ((t.stack 15).st = 2 ∧ t.health.decided = some 5)) = true := by
  decide +kernel

theorem wit_granule_zeroing :
    next (.granuleZeroingEnd 8) { run with mem := { run.mem with zeroing := [8, 9], data := [(8589934592, 6), (9663676416, 7)] } }
      (fun t => decide (t.mem.zeroing = [9] ∧ t.mem.data = [(9663676416, 7)])) = true := by decide +kernel

/-- A descriptor of partition 0 at line 67108864, with the page table at line 67108866. -/
def ctx0 : Ctx := { tag := 0, st := 1, maxPages := 1, pages := 1, ptAddr := 67108866 }

/-- `grun` with that descriptor, and its one page mapped at chunk 524289, whose line 67108992 lies in the same granule. -/
def crun : State := let s := grun []
  { s with mem := { s.mem with data := [(8589934592, 6), (8589934848, 1), (8589934850, 8), (8589934851, 128)]
                               written := [67108864, 67108866], ctx := [(67108864, ctx0)] } }

/-- A descriptor line: OP, stream line 67108864, `n` tokens at position 0, one row each, RSLOT 0. -/
def descLine (prompt : Bool) (op n : Nat) : Line :=
  BitVec.ofNat 1024 (op * 2 ^ 252 + 67108864 * 2 ^ 219 + (n - 1) * 2 ^ (if prompt then 206 else 214))

theorem wit_engine_job_queues :
    crun.pageLine ctx0 0 = some 67108992 ∧
      descOk false (descLine false 1 1) (jobOf false 0 0 (descLine false 1 1)) ctx0 5 = true ∧
      crun.ctxAt (jobOf false 0 0 (descLine false 1 1)).stream = ctx0 ∧ (crun.stack 0).st ≠ 2 ∧ (crun.engine 0).waiting = [] ∧
      next (.attend 0 5 0 0 (descLine false 1 1) 9) crun (fun t => decide ((t.engine 0).waiting.length = 1 ∧ (t.part 0).abort = none)) = true ∧
      descOk false (descLine false 2 1) (jobOf false 0 0 (descLine false 2 1)) ctx0 5 = true ∧
      next (.append 0 5 0 0 (descLine false 2 1) 9) crun (fun t => decide ((t.engine 0).waiting.length = 1)) = true ∧
      descOk true (descLine true 3 1) (jobOf true 0 0 (descLine true 3 1)) ctx0 0 = true ∧
      next (.chunkAttend 0 0 0 0 (descLine true 3 1) 9) crun (fun t => decide ((t.engine 16).waiting.length = 1)) = true ∧
      next (.bulkAppend 0 0 0 0 (descLine true 4 1) 9) crun (fun t => decide ((t.engine 16).waiting.length = 1)) = true := by decide +kernel

/-- An append job of one token of that stream. -/
def job0 : Job :=
  { op := 2, tag := 0, stream := 67108864, n := 1, g := 1, scale := 0, window := 0, qpos := 0, rslot := 9, qaddr := 0, raddr := 0
    xfer := 0, slots := [], input := [], void := false, bad := false }

theorem wit_engine_job_starts :
    next (.engineJobStart 0 9 []) (let s := crun
        { s with mem := { s.mem with engines := [(0, { waiting := [job0] })] } })
      (fun t => decide ((t.engine 0).running.isSome = true ∧ (t.engine 0).waiting = [])) = true ∧
    inputOk [] (job0.inBursts ctx0) = true := by decide +kernel

/-- A chunk attend of one row, whose query lies at line 67108992 of its partition's granule, waiting at prompt engine 16. -/
def prun16 : State := let s := crun
  { s with mem := { s.mem with engines := [(16, { waiting := [{ job0 with op := 3, qaddr := 67108992 }] })] } }

theorem wit_prompt_job_starts :
    (let j : Job := { job0 with op := 3, qaddr := 67108992 }
     let n := j.inBursts ctx0
     let l := (List.range (n + (n + 7) / 8)).map (fun k => j.qaddr + k)
     (∀ a ∈ l, prun16.mayReach 0 a = true ∧ prun16.mem.lost.contains a = false) ∧ inputOk (l.map prun16.readMem) n = true) ∧
    next (.engineJobStart 16 9 []) prun16
      (fun t => decide ((t.engine 16).running.isSome = true ∧ (t.engine 16).waiting = [] ∧ (t.engine 16).buffer ≠ [])) = true := by
  decide +kernel

/-- `crun` with a running job of engine 0. -/
def jrun (j : Job) : State := let s := crun
  { s with mem := { s.mem with engines := [(0, { running := some j })] } }

theorem wit_append_ends : job0.inTail ctx0 = true ∧ (jrun job0).mapped job0 ctx0 = true ∧
    next (.engineJobEnd 0 970 100 [] none false) (jrun job0) (fun t => decide ((t.engine 0).running = none ∧
      SMap.get (t.engine 0).results ⟨0xFE, 0, 0⟩ 9 = ⟨0, 0, 1⟩)) = true ∧
    ({ job0 with qpos := 4096 } : Job).inTail ctx0 = false ∧
    next (.engineJobEnd 0 970 100 [] none false) (jrun { job0 with qpos := 4096 })
      (fun t => (t.part 0).abort.isSome && decide ((t.part 0).refusals = 1 ∧ (t.engine 0).results = [])) = true := by decide +kernel

/-- An attend job of no page of engine 0: its only page lies at engine 1. -/
def ctx1 : Ctx := { ctx0 with s0 := 1 }

theorem wit_attend_ends_masked :
    ((({ job0 with op := 1 } : Job).pages ctx1).filter (fun p => decide (ctx1.engineOf p = 0))) = [] ∧
      next (.engineJobEnd 0 970 100 [] none false) (let s := jrun { job0 with op := 1 }
          { s with mem := { s.mem with ctx := [(67108864, ctx1)] } })
        (fun t => decide ((t.engine 0).running = none ∧ (t.part 0).attends = 1)) = true := by decide +kernel

theorem wit_fully_masked_row :
    (∀ p ∈ [1], ∀ x ∈ ctx0.pagePositions p, visible 0 0 x = false) ∧ (crun.attendRow ctx0 [1] [] 0 0 0).m = 0xFF800000 := by decide +kernel

/-! ## Frames, steps, aborts -/

/-- `run` with the frame unit changed. -/
def runF (f : FrameU → FrameU) : State := { run with fu := f run.fu }

theorem wit_frame_boundary :
    (runF (fun u => { u with held := 60, paused := 4, lens := [(1, 2)] })).alive = true ∧
      (runF (fun u => { u with held := 60, paused := 4, lens := [(1, 2)] })).framed = true ∧ (runF id).fu.hold = none ∧ (60 : Nat) + 4 ≤ duskCycles 0 ∧
      next (.frameBoundary 1024 false) (runF (fun u => { u with held := 60, paused := 4, lens := [(1, 2)] }))
        (fun t => decide (t.fu.frame = 1 ∧ t.fu.len = 2 ∧ t.fu.budget = 64 ∧ t.fu.overruns = 0)) = true ∧
      duskCycles 0 < 60 + 5 ∧
      next (.frameBoundary 1024 false) (runF (fun u => { u with held := 60, paused := 5 }))
        (fun t => (t.part 0).abort.isSome && decide (t.fu.frame = 1 ∧ t.fu.overruns = 1)) = true := by decide +kernel

/-- 1,024-cycle frame: an allowance of 32 pause cycles (R196). -/
theorem wit_pause_insertion :
    next (.pauseInsertion 5 40) { run with power := { run.power with request := 100 } } (fun t => decide (t.fu.paused = 32)) = true ∧
      next (.pauseInsertion 5 40) { run with power := { run.power with request := 9 } } (fun t => decide (t.fu.paused = 9)) = true := by
  decide +kernel

/-- A run of step 3 that started in frame 0. -/
def run3 : StepRun :=
  { step := 3, attempt := 1, start := 0, cover := false, learn := false, recipe := 0, overflow := 0, clearFail := false, passed := []
    rounds := none, summary := {}, early := [], retained := [], halves := [], learners := [], since := 0 }

theorem wit_step_start :
    ({ st := .serving, nextStart := some 0, due := (4, 2) } : Part).steps = true ∧
      next (.stepStart 0 {}) { run with parts := [(0, { st := .serving, nextStart := some 0, due := (4, 2) })] }
        (fun t => decide ((t.part 0).step = 4 ∧ (t.part 0).attempt = 2 ∧ (t.part 0).due = (5, 1))) = true ∧
      (run.part 0).nextStart ≠ some run.fu.frame ∧ same (.stepStart 0 {}) run = true := by decide +kernel

/-- `run` at the start of step 4. -/
def strt : State := { run with parts := [(0, { st := .serving, nextStart := some 0, due := (4, 2) })] }

theorem wit_step_start_base : SMap.rising strt.tiles = true ∧ SMap.rising (strt.tile 0).streams = true ∧
    (SMap.get (strt.tile 0).streams {} 0).tag.toNat = 0 ∧
    next (.stepStart 0 { bases := [(0, 0, 7, 99)] }) strt
      (fun t => decide (SMap.get (SMap.get (t.tile 0).streams {} 0).table 0 7 = 99 ∧ (SMap.get (t.tile 0).streams {} 0).breg 0 0 7 = 99)) = true := by
  decide +kernel

theorem wit_step_start_upset : next (.stepStart 0 { upset := true }) strt (fun t => (t.part 0).abort.isSome) = true := by decide +kernel

/-- `run` in frame 40 with partition 0 aborted in frame 8. -/
def abrun (att : BitVec 8) (start : Nat) : State :=
  { runF (fun u => { u with frame := 40 }) with
    parts := [(0, { st := .serving, runs := [{ run3 with attempt := att, start := start }], due := (4, 7), abort := some ⟨8, .normal, 0⟩ })]
    mesh := { run.mesh with flits := [flit0 false 9] } }

theorem wit_replay :
    ((abrun 15 0).part 0).firstAborted 8 = none ∧ ((abrun 15 8).part 0).firstAborted 8 = some { run3 with attempt := 15, start := 8 } ∧
      ((abrun 15 8).part 0).steps = true ∧ (abrun 15 8).health.st = 0 ∧ ((abrun 15 0).part 0).abortedRuns 8 = [] ∧
      (∀ x ∈ ((abrun 15 8).part 0).abortedRuns 8, x.attempt.toNat < 16) ∧ (∃ x ∈ ((abrun 16 8).part 0).abortedRuns 8, 16 ≤ x.attempt.toNat) ∧ (⟨8, .normal, 0⟩ : AbortS).replay ≤ 40 ∧
      next (.replayStart 0 {}) (abrun 15 8) (fun t => decide ((t.part 0).abort = none ∧ (t.part 0).step = 3 ∧ (t.part 0).attempt = 16 ∧
        t.mesh.flits = [])) = true ∧
      next (.replayStart 0 {}) (abrun 15 0) (fun t => decide ((t.part 0).step = 4 ∧ (t.part 0).attempt = 7)) = true ∧
      next (.replayStart 0 {}) (abrun 16 8) (fun t => decide ((t.part 0).st = .stopped ∧ (t.part 0).stopped = true)) = true ∧
      same (.replayStart 0 {}) { abrun 15 8 with fu := { (abrun 15 8).fu with frame := 39 } } = true := by decide +kernel

/-! ## Mint, Escrow, Ledger -/

/-- A Generate submission of session 0. -/
def sub1 : Sub :=
  { sess := 0, ssn := 1, lsn := 0, st := .running, subkind := 1, account := some 0, part := 0, ident := 0, deadline := 0, maxtok := 4
    endtok := 99, aframe := 0, pdigest := 0, payload := [], open_ := none, parts := [], tokens := 0, doneLsn := none, status := 0
    late := false, step := 0, cancelLsn := none, covered := false, here := true, fed := 0, paddr := 0, plines := 0 }

/-- `run` on a paired device with account 0 Active, at home, with this submission. -/
def lgr (b : Sub) : State :=
  { run with accts := [(0, { st := .active, part := 0, running := if b.st = .running then some (0, 1) else none })]
             ledger := { run.ledger with mode := 0, subs := [b] } }

theorem wit_mint : (lgr sub1).alive = true ∧ ((lgr sub1).acct 0).st = .active ∧ ((lgr sub1).acct 0).part = 0 ∧
    ((lgr sub1).part 0).steps = true ∧ ((lgr sub1).part 0).abort = none ∧
    ((lgr sub1).part 0).curRun = none ∧
    (let s := lgr sub1
     let u : State := { s with parts := [(0, { st := .serving, step := 3, attempt := 1, runs := [{ run3 with learn := true }] })] }
     ((u.part 0).curRun.map (fun r => r.learn)) = some true ∧ same (.mintRun 0 0 [] [] [] false false) u = true) := by decide +kernel

theorem wit_escrow : (lgr sub1).isHome 0 = true ∧ (lgr sub1).ledger.escrow.any (fun e => decide (e.1 = 0)) = false ∧
    (lgr sub1).runningSub 0 = some sub1 ∧ out1.pos = ((lgr sub1).acct 0).pos ∧
    next (.escrowArrival 0 0 out1) (lgr sub1) (fun t => decide (t.ledger.escrow = [(0, 0, out1, none)])) = true ∧
    (lgr { sub1 with st := .accepted }).runningSub 0 = none ∧
    next (.escrowArrival 0 0 out1) (lgr { sub1 with st := .accepted }) (fun t => decide (t.ledger.escrow = [] ∧ t.ledger.drops = 1)) = true := by
  decide +kernel

/-- `lgr` with an outcome in Escrow and the summary of its step. -/
def esc (b : Sub) : State := let s := lgr b
  { s with ledger := { s.ledger with escrow := [(0, 0, out1, none)], sums := [{ part := 0, step := 0, attempt := 1, clearOk := true }] } }

theorem wit_escrow_holds_one : (esc sub1).ledger.escrow.any (fun e => decide (e.1 = 0)) = true ∧
    next (.escrowArrival 0 0 out1) (esc sub1) (fun t => (t.part 0).abort.isSome && decide (t.ledger.escrow = [] ∧ t.ledger.journal = [])) = true := by
  decide +kernel

theorem wit_commit : (esc sub1).sumOf 0 0 1 = some { part := 0, step := 0, attempt := 1, clearOk := true } ∧
    (esc sub1).mayAssign = true ∧ (esc sub1).quiet = true ∧ (esc sub1).ledger.escrow.find? (fun e => decide (e.1 = 0)) = some (0, 0, out1, none) ∧
    next (.commitTest 0) (esc sub1) (fun t => decide (t.ledger.nextLsn = 1 ∧ t.accts = (esc sub1).accts) &&
      t.ledger.journal.map (fun j => (j.r.body, j.acked)) == [(.commit [7] out1.states 0 0 1 1 1 0 0 1 3, false)]) = true := by decide +kernel

theorem wit_commit_past_deadline :
    ({ sub1 with deadline := 6 } : Sub).deadline ≠ 0 ∧ (6 : Nat) < 7 ∧
      next (.commitTest 0) (let s := esc { sub1 with deadline := 6 }
          { s with fu := { s.fu with frame := 7 } })
        (fun t => decide (t.ledger.escrow = []) && t.ledger.journal.map (fun j => j.r.body) == [.complete 0 0 2 false 0 1]) = true ∧
      next (.commitTest 0) (let s := esc { sub1 with deadline := 7 }
          { s with fu := { s.fu with frame := 7 } })
        (fun t => decide (t.ledger.escrow.length = 1 ∧ t.ledger.journal.length = 1)) = true := by decide +kernel

/-- `lgr` at a step boundary of partition 0. -/
def bdry (b : Sub) : State := { lgr b with parts := [(0, { st := .serving, runs := [run3] })] }

theorem wit_submission_running : (bdry { sub1 with st := .accepted }).headSub 0 = some { sub1 with st := .accepted } ∧
    (bdry { sub1 with st := .accepted }).justStarted 0 = true ∧ ceilingNear ((bdry { sub1 with st := .accepted }).acct 0) sub1 = false ∧
    next (.submissionRunning 0) (bdry { sub1 with st := .accepted })
      (fun t => decide ((t.acct 0).running = some (0, 1) ∧ t.ledger.subs.map (fun b => b.st) = [.running])) = true := by decide +kernel

theorem wit_account_close : ((bdry { sub1 with st := .accepted, subkind := 6 }).acct 0).unused = false ∧
    (bdry { sub1 with st := .accepted, subkind := 6 }).quiet = true ∧ (bdry { sub1 with st := .accepted, subkind := 6 }).mayAssign = true ∧
    next (.accountOpenCloseAct 0 none) (bdry { sub1 with st := .accepted, subkind := 6 })
      (fun t => t.ledger.journal.map (fun j => j.r.body) == [.close 0 1, .complete (BitVec.allOnes 48) 0 0 false 0 1]) = true := by
  decide +kernel

/-- What another device fixed of account 5. -/
def news5 : AcctNews :=
  { opened := true, part := 0, ident := 77, home := 1, seed := 5, tau := 0, topk := 0, pi := 0, cap := 4, pinned := 0, batch := 3, pos := 9
    lastTok := 0, draft := 2, agen := 0, adigest := 0, rank := 0 }

theorem wit_account_elsewhere : news5.home ≠ (lgr sub1).dict.addr ∧ (lgr sub1).alive = true ∧ ((lgr sub1).acct 5).unused = true ∧
    next (.accountOpenCloseAct 5 (some news5)) (lgr sub1)
      (fun t => decide ((t.acct 5).ident = 77 ∧ (t.acct 5).home = 1 ∧ (t.acct 5).batch = some 3 ∧ (t.acct 5).pos = 9)) = true := by
  decide +kernel

/-- A record that waits for its acknowledgement since frame 0. -/
def jr (body : RecBody) : JRec := { r := makeRec 0 0 0 body, frame := 0, locally := true, acked := false, applied := false }

/-- A paired device in service in frame `n` with link 0 Active. -/
def net (n : Nat) : State :=
  { run with fu := { run.fu with frame := n }, links := [(0, { st := .active, lastRx := n }), (1, { st := .active })]
             ledger := { run.ledger with mode := 0 } }

/-- `net` with one unacknowledged record. -/
def netJ (n : Nat) : State := let s := net n
  { s with ledger := { s.ledger with journal := [jr (.cancel 0 1)], nextLsn := 1 } }

theorem wit_replication_failure : (netJ 8).ledger.journal.find? (fun j => !j.acked && decide (j.frame + 8 ≤ (netJ 8).fu.frame)) = some (jr (.cancel 0 1)) ∧
    ((netJ 8).link 0).st = .active ∧
    next .replicationFailure (netJ 8) (fun t => (t.part 0).abort.isSome && decide (t.ledger.journal = [jr (.cancel 0 1)] ∧ t.ledger.replFails = 1 ∧ (t.link 0).st = .failed)) = true ∧
    same .replicationFailure (netJ 7) = true := by decide +kernel

/-- An intact frame of this operation, payload lines and kind on link 1. -/
def fr (op : BitVec 4) (slot : BitVec 11) (l : List Line) : UtlFrame :=
  { frame0 with link := 1, hdr := { hdr0 with op := op, slot := slot, lines := BitVec.ofNat 4 l.length }, payload := l }

/-- A Cancel record with this LSN. -/
def rec (lsn : BitVec 64) : LRecord := makeRec lsn 0 0 (.cancel 0 1)

theorem wit_ledger_record : recSound (rec 5) = true ∧
    (net 8).frameClear (fr 5 1 [0]) (.ledgerRecord (fr 5 1 [0]) (rec 5)) = true ∧
      ((net 8).link 0).canSend (.ledgerAck 5) = true ∧
      next (.ledgerRecord (fr 5 1 [0]) (rec 5)) (let s := net 8
          { s with ledger := { s.ledger with replica := [rec 4] } })
        (fun t => decide (t.ledger.replica = [rec 4, rec 5] ∧ (t.link 0).out = [.ledgerAck 5])) = true := by decide +kernel

theorem wit_ledger_acknowledge :
    (netJ 8).frameClear (fr 5 2 [0]) (.ledgerAcknowledge (fr 5 2 [0]) 0) = true ∧ (netJ 8).quiet = true ∧
      (∀ j ∈ (net 8).ledger.journal, j.applied = true ∨ (0 : BitVec 64) < j.r.lsn) ∧
      next (.ledgerAcknowledge (fr 5 2 [0]) 0) (let s := net 8
          { s with ledger := { s.ledger with journal := [{ jr (.cancel 0 1) with applied := true }] } })
        (fun t => decide (t.ledger.replicated = some 0 ∧ t.ledger.journal.map (fun j => j.acked) = [true])) = true := by decide +kernel

theorem wit_accept_receipt :
    (let s := net 8
     next (.ledgerAcknowledge (fr 5 2 [0]) 0)
      { s with ledger := { s.ledger with journal := [jr (.accept 0 1 1 0 4 99 0 0 0 0)], subs := [{ sub1 with st := .accepting }] }
               host := { s.host with sessions := [(0, { st := .ready, part := 0, key := some 0 })], ports := [(0, { up := true })] } }
      (fun t => decide (t.ledger.durable = some 0 ∧ t.ledger.subs.map (fun b => b.st) = [.accepted] ∧
        t.host.out.map (fun x => (x.type, x.ssn)) = [(0x11, 1)]))) = true := by decide +kernel

/-- A descriptor of account 5 of partition 0 whose home is another device. -/
def away : State := let s := net 8
  { s with mem := { s.mem with ctx := [(64, { tag := 0, account := 5, st := 1, committed := 8388605 })] }
           accts := [(5, { st := .active, part := 0, home := 1 })] }

theorem wit_commit_notice :
    away.isHome 5 = false ∧ away.ctxKeys 0 5 false = [64] ∧ away.ctxKeys 0 5 true = [] ∧
      away.frameClear (fr 5 3 [0]) (.commitNotice (fr 5 3 [0]) ⟨0, 5, 8388607, 1, 4, 0, 2, 0, 0, none⟩) = true ∧
      next (.commitNotice (fr 5 3 [0]) ⟨0, 5, 8388607, 1, 4, 0, 2, 0, 0, none⟩) away
        (fun t => decide ((t.ctxAt 64).committed = 8388607 ∧ (t.acct 5).tokens = 4 ∧ (t.acct 5).accepted = 2)) = true := by decide +kernel

theorem wit_commit_notice_elsewhere :
    away.frameClear (fr 5 3 [0]) (.commitNotice (fr 5 3 [0]) ⟨0, 5, 9, 1, 4, 0, 2, 0, 1, none⟩) = true ∧ (1 : DevAddr) ≠ away.dict.addr ∧
    next (.commitNotice (fr 5 3 [0]) ⟨0, 5, 9, 1, 4, 0, 2, 0, 1, none⟩) away
      (fun t => decide (t.accts = away.accts ∧ t.mem = away.mem)) = true ∧
    next (.commitNotice (fr 5 3 [0]) ⟨0, 5, 9, 1, 4, 0, 2, 0, 0, some (3, 8)⟩) away
      (fun t => decide ((t.acct 5).agen = 3 ∧ (t.acct 5).adigest = 8 ∧ (t.acct 5).cur = true)) = true := by decide +kernel

/-- Account 0 Parking by a Park submission that runs, in a partition with granule 8 on a device with its entropy source up. -/
def parking : State := let s := lgr { sub1 with subkind := 3 }
  { s with accts := [(0, { st := .parking, part := 0, running := some (0, 1) })], mem := (grun []).mem, dict := { s.dict with n := 2 }
           parts := [(0, { st := .serving, layers := 4, chunks := [(524288, 65536)], holders := [1] })]
           mgmt := { s.mgmt with entropy := true } }

/-- A part sealed on device 1. -/
def info1 : RestorePart := ⟨1, 7, 128⟩

theorem wit_parcel_seal : parking.isHome 0 = true ∧ parking.runningSub 0 = some { sub1 with subkind := 3 } ∧ (parking.acct 0).st = .parking ∧
    (parking.acct 0).parts.contains 1 = false ∧ parking.mayAssign = true ∧ parking.quiet = true ∧
    (parking.acct 0).parts.length + 1 ≠ parking.parcelParts 0 0 ∧ parking.sealsFor info1.device = false ∧ info1.device ≠ parking.dict.addr.setWidth 16 ∧
    next (.parcelSealEnd 0 1 false info1 false) parking (fun t => t.ledger.journal.map (fun j => j.r.body) == [.complete (BitVec.allOnes 48) 0 5 false 0 1]) = true ∧
    next (.parcelSealEnd 0 1 true info1 false) parking (fun t => decide ((t.acct 0).parts = [1] ∧ t.ledger.journal = [])) = true := by decide +kernel

theorem wit_parcel_seal_here : (parking.part 0).sealed < 4294967296 ∧ (parking.acct 0).parts.contains 0 = false ∧
    (parking.openWindow 0 0 false 1 0 2 (128 + (parking.sealedParcel 0 0 (parking.coversAcct 0 || parking.sealsFor info1.device) 0).2.length)).isSome = true ∧
    next (.parcelSealEnd 0 0 true info1 false) parking (fun t => decide ((t.acct 0).parts = [0] ∧ (t.part 0).sealed = 1)) = true := by
  decide +kernel

/-- Account 0 Restoring by a Restore submission at its head, with two parts. -/
def restoring : State := let s := lgr { sub1 with subkind := 4, st := .accepted }
  { s with accts := [(0, { st := .restoring, part := 0, restParts := [⟨0, 0, 0⟩, ⟨1, 0, 0⟩] })], links := (net 8).links, mem := (grun []).mem }

/-- A parcel of part 1 without streams or adapter, whose tag verifies. -/
def parcel1 : ParcelMsg := { parcel0 with part := 1, tagOk := true }

theorem wit_restore_part : restoring.parcelPart parcel1 = 0 ∧ restoring.checkParcel 0 parcel1 = true ∧
    next (.restorePartCheck parcel1) restoring (fun t => decide ((t.acct 0).parts = [1] ∧ (t.acct 0).st = .restoring ∧ (t.acct 0).restored = none)) = true ∧
    next (.restorePartCheck { parcel1 with part := 0, seed := 6 }) restoring
      (fun t => decide ((t.acct 0).parts = [0] ∧ (t.acct 0).restored.map (fun r => r.seed) = some 6)) = true := by decide +kernel

theorem wit_restore_part_fails : restoring.parcelPart parcel0 = 0 ∧ restoring.checkParcel 0 parcel0 = false ∧
    restoring.headSub 0 = some { sub1 with subkind := 4, st := .accepted } ∧
    next (.restorePartCheck parcel0) restoring (fun t => decide (t.ledger.restFails = 1) &&
      t.ledger.journal.map (fun j => j.r.body) == [.complete (BitVec.allOnes 48) 0 4 false 0 1]) = true := by decide +kernel

/-- A device that is not account 5's home, whose home is the peer of link 0, in a partition with granule 8. -/
def faraway : State := let s := net 8
  { s with accts := [(5, { st := .restoring, part := 0, home := 1 })], mem := (grun []).mem, dict := { s.dict with n := 1 }
           parts := [(0, { st := .serving, layers := 4, chunks := [(524288, 65536)] })] }

/-- A parcel of account 5 with one empty stream of layer 2, head 3. -/
def parcel5 : ParcelMsg := { parcel1 with account := 5, streams := [(2, 3, false, [])] }

theorem wit_restore_part_elsewhere : faraway.parcelPart parcel5 = 0 ∧ faraway.checkParcel 0 parcel5 = true ∧ faraway.isHome 5 = false ∧
    (faraway.acct 5).abase = none ∧ (faraway.openCtx 0 5 2 3 false 0).2.isSome = true ∧ faraway.firstHop 1 = some 0 ∧
    (faraway.link 0).st = .active ∧ faraway.health.silent = false ∧ faraway.health.st ≠ 3 ∧ (faraway.link 0).waiting = [] := by decide +kernel

theorem wit_restore_report_fits : ∀ r, (faraway.link 0).canSend (.report r) = true := by
  intro r
  have h : (LinkMsg.report r).frames = 1 := by simp [LinkMsg.frames, LinkMsg.lines, LinkMsg.payload, framesOf]
  simp only [Endpoint.canSend, h, LinkMsg.tc]
  decide +kernel

/-! ## Tensor links: arriving frames -/

theorem wit_idle_frame : frameIntact (fr 0 0 []) { op := 0, tc := 0, kind := none, lo := 0, hi := 0 } = true ∧
    ((net 9).link 1).waiting = [] ∧ ((net 9).link 1).mirrorSeq = none ∧
    next (.idleFrame { fr 0 0 [] with hdr := { hdr0 with cr0 := 7, cr1 := 63, cr3 := 255 } })
      (let s := net 9
       { s with links := [(1, { st := .active, cr0 := 1, cr1 := 1, cr3 := 1 })] })
      (fun t => decide ((t.link 1).cr0 = 4 ∧ (t.link 1).cr1 = 64 ∧ (t.link 1).cr3 = 256 ∧ (t.link 1).lastRx = 9)) = true := by decide +kernel

/-- A frame message for frame 20 of master 2 with EPOCH 3 and length code 1. -/
def fmLine : Line := BitVec.ofNat 1024 (20 * 2 ^ 960 + 2 * 2 ^ 950 + 1 * 2 ^ 948 + 3 * 2 ^ 932)

/-- A locked device that follows. -/
def locked : State := let s := net 20
  { s with fu := { s.fu with lock := true, epoch := 3 } }

theorem wit_frame_message : locked.frameClear (fr 1 0 [fmLine]) (.frameMessage (fr 1 0 [fmLine])) = true ∧ locked.fromParent 1 2 = true ∧
    fmLine.extractLsb' 950 10 = 2 ∧ fmLine.extractLsb' 932 16 = 3 ∧
    next (.frameMessage (fr 1 0 [fmLine])) locked (fun t => decide (t.fu.gotMsg = true ∧ t.fu.curMaster = 2 ∧ (36, 1) ∈ t.fu.lens)) = true := by
  decide +kernel

theorem wit_bad_frame : frameIntact { fr 5 8 [0] with gcmOk := false } (ctlKind 8) = false ∧
    frameKind (.stretchVote { fr 5 8 [0] with gcmOk := false } 1 2 false) = some (ctlKind 8) ∧
    next (.stretchVote { fr 5 8 [0] with gcmOk := false } 1 2 false) (net 9)
      (fun t => decide ((t.link 1).nakOut = [0] ∧ (t.link 1).rxNext = 0 ∧ t.fu.votes = [])) = true := by decide +kernel

/-- A receive entry of link 1 with two slots from slot 8 that waits for digest records. -/
def rx1 (op : BitVec 2) : Xfer := { tag := 0, op := op, base := 8, linesM1 := 1, contrib := 2, ndig := 2, valid := true }

/-- `net` with that entry. -/
def dnet (op : BitVec 2) : State := let s := net 9
  { s with links := [(1, { st := .active, rxEnts := [(0, rx1 op)], rxSlots := [(9, { data := 5, count := 1 })] })] }

/-- A data frame for slot 1 of entry 0 that counts one. -/
def dfr (op : BitVec 4) : UtlFrame := let f := fr op 1 [4]
  { f with hdr := { f.hdr with count := 1 } }

theorem wit_data_copy : (dnet 0).frameClear (fr 2 0 [4]) (.dataCopy (fr 2 0 [4])) = true ∧ (0 : Nat) < (rx1 0).lines ∧
    ((dnet 0).link 1).slotFree (rx1 0) 0 0 = true ∧ (rx1 0).digs.length < (rx1 0).ndig.toNat ∧
    next (.dataCopy (fr 2 0 [4])) (dnet 0) (fun t => decide (((t.link 1).slot 8).data = 4 ∧ ((t.link 1).slot 8).count = 1 ∧
      ((t.link 1).slot 9).data = 5)) = true := by decide +kernel

theorem wit_data_add : (dnet 1).frameClear (dfr 3) (.dataAdd (dfr 3) false) = true ∧ ((dnet 1).link 1).slotFree (rx1 1) 1 1 = true ∧
    next (.dataAdd (dfr 3) false) (dnet 1) (fun t => decide (((t.link 1).slot 9).data = 9 ∧ ((t.link 1).slot 9).count = 2)) = true := by
  decide +kernel

theorem wit_digest_record : (dnet 0).frameClear (fr 4 0 [6]) (.digestRecord (fr 4 0 [6])) = true ∧ (rx1 0).digs.length + 1 < (rx1 0).ndig.toNat ∧
    next (.digestRecord (fr 4 0 [6])) (dnet 0) (fun t => decide ((SMap.get (t.link 1).rxEnts {} 0).digs = [(1, 6)])) = true := by decide +kernel

theorem wit_abort_notice : (net 9).frameClear (fr 5 4 [0]) (.abortNotice (fr 5 4 [0]) ⟨0, 8, 3, 2, .normal, 7, false⟩) = true ∧
    (net 9).fu.seenAborts.contains (0, 8, 2) = false ∧ ((net 9).part 0).st ≠ .free ∧
    next (.abortNotice (fr 5 4 [0]) ⟨0, 8, 3, 2, .normal, 7, false⟩) (net 9) (fun t => decide ((t.part 0).abort = some ⟨8, .normal, 7⟩)) = true := by
  decide +kernel

theorem wit_failure_notice : (net 9).frameClear (fr 5 5 [0]) (.failureNotice (fr 5 5 [0])) = true ∧
    (net 9).fu.seenFails.contains (noticeOf 0) = false ∧
    next (.failureNotice (fr 5 5 [0])) (net 9) (fun t => decide (t.fu.notices.length = 1)) = true := by decide +kernel

theorem wit_stretch_vote :
    next (.stretchVote (fr 5 8 [0]) 3 2 true) (let s := net 9
        { s with fu := { s.fu with acting := true } }) (fun t => decide (t.fu.votes = [(3, 2, true)])) = true := by decide +kernel

/-- `net` with partition 0 as given. -/
def netP (q : Part) : State := { net 9 with parts := [(0, q)] }

theorem wit_loading_report : next (.loadingReport (fr 5 10 [0]) 0 3 true) (netP { st := .loading })
    (fun t => decide ((t.part 0).loadedDevs = [3])) = true := by decide +kernel

/-- Line 0 of a summary of partition 0, step 3, attempt 1: all Clearing passed, loaded, four devices. -/
def sumLine : Line := BitVec.ofNat 1024 (3 * 2 ^ 968 + 1 * 2 ^ 960 + 2 ^ 959 + 2 ^ 958 + 4 * 2 ^ 945)

/-- The same summary as this device's own part of the last round. -/
def own4 : Summary := { part := 0, step := 3, attempt := 1, clearOk := true, loaded := true, devices := 4 }

theorem wit_clearing_summary :
    (netP { st := .serving, runs := [{ run3 with rounds := some 2, summary := own4 }] }).frameClear (fr 5 6 [sumLine])
        (.clearingSummary (fr 5 6 [sumLine]) 2) = true ∧
      (own4.join (summaryOf [sumLine])).clearOk = true ∧ (own4.join (summaryOf [sumLine])).devices.toNat = 2 ^ 3 ∧ (net 9).dict.n = 2 + 1 ∧
      next (.clearingSummary (fr 5 6 [sumLine]) 2) (netP { st := .serving, runs := [{ run3 with rounds := some 2, summary := own4 }] })
        (fun t => decide (t.ledger.sums.length = 1 ∧ (t.part 0).allLoaded = true)) = true := by decide +kernel

theorem wit_boundary_exchange :
    (netP { st := .loading, exchange := some (2, own4) }).frameClear (fr 5 7 [sumLine]) (.boundaryExchange (fr 5 7 [sumLine]) 2) = true ∧
      next (.boundaryExchange (fr 5 7 [sumLine]) 2) (netP { st := .loading, exchange := some (2, own4) })
        (fun t => decide ((t.part 0).exchange = none ∧ (t.part 0).allLoaded = true)) = true := by decide +kernel

/-- A good report on part 1 of account 0. -/
def rep1 : RestoreReport :=
  { dest := 0, account := 0, part := 1, ok := true, committed := 0, lastToken := 0, seed := 0, tau := 0, topk := 0, pi := 0, draft := 0, cap := 0
    pinned := 0, agen := 0, cdigest := 0, adigest := 0 }

theorem wit_restore_report : restoring.frameClear (fr 5 9 [0]) (.restoreReport (fr 5 9 [0]) rep1) = true ∧
    (restoring.acct 0).parts.length + 1 < (restoring.acct 0).restParts.length ∧
    next (.restoreReport (fr 5 9 [0]) rep1) restoring (fun t => decide ((t.acct 0).parts = [1] ∧ (t.acct 0).st = .restoring)) = true := by
  decide +kernel

/-- `net` with a mirror and a page stream of account 5 of partition 0. -/
def bulk : State := let s := net 9
  { s with mem := { s.mem with ctx := [(64, { tag := 0, account := 5, st := 1, mirror := 3 }), (65, { tag := 0, account := 5, st := 3 })] } }

theorem wit_mirror_entries : bulk.findCtx 0 5 0 0 false (2 + 1) = some 64 ∧
    bulk.frameClear (fr 6 1 [0]) (.mirrorEntries (fr 6 1 [0]) ⟨0, 5, 0, 0, false, 2, 7, []⟩) = true ∧
    next (.mirrorEntries (fr 6 1 [0]) ⟨0, 5, 0, 0, false, 2, 7, []⟩) bulk (fun t => decide ((t.ctxAt 64).written = 7)) = true := by decide +kernel

theorem wit_context_pages : bulk.findCtx 0 5 0 0 false 0 = some 65 ∧
    next (.contextPages (fr 6 2 [0]) ⟨0, 5, 0, 0, false, 7, [], none, 0, 1, none⟩) bulk (fun t => decide ((t.ctxAt 65).written = 7)) = true := by decide +kernel

theorem wit_context_pages_refused : next (.contextPages (fr 6 2 [0]) ⟨0, 5, 0, 0, false, 7, [], none, 0, 1, some false⟩)
    { bulk with accts := [(5, { st := .transferring, part := 0 })] } (fun t => decide ((t.acct 5).st = .active)) = true := by decide +kernel

theorem wit_shard_copy : (16777215 : Nat) < 2 * granuleLines ∧
    next (.shardCopy (fr 6 3 [0]) ⟨true, 16777215, [4], none⟩) (net 9) (fun t => decide (t.memLine 33554431 = 4)) = true := by decide +kernel

theorem wit_ledger_copy : next (.ledgerCopy (fr 6 4 [0]) ⟨false, true, [rec 1, rec 2], 3⟩) (net 9)
    (fun t => decide (t.ledger.replica = [rec 1, rec 2])) = true := by decide +kernel

theorem wit_context_partials : next (.contextPartials (fr 6 5 [0]) ⟨0, 4, [7], 0⟩) (net 9) (fun t => decide (t.spad = [(512, 7)])) = true := by
  decide +kernel

/-- A training line of stage 4. -/
def trLine : Line := BitVec.ofNat 1024 (4 * 2 ^ 913 + 9 * 2 ^ 57)

/-- Link 1 in stage 4 with an own draw, and with this key of its peer. -/
def tr4 (k : Option (BitVec 776)) : State :=
  { net 9 with links := [(1, { st := .training, stage := 4, ownDraw := some 0, peerKey := k })] }

theorem wit_training : frameIntact (fr 7 0 [trLine]) { op := 7, tc := 0, kind := none, lo := 1, hi := 1 } = true ∧
    trLine.extractLsb' 913 4 = 4#4 ∧
    next (.training (fr 7 0 [trLine]) none) (tr4 none) (fun t => decide ((t.link 1).stage = 4 ∧ (t.link 1).peerKey = some 9)) = true ∧
    ((tr4 (some 9)).link 1).peerKey = some 9 ∧ next (.training (fr 7 0 [trLine]) (some true)) (tr4 (some 9)) (fun t => decide ((t.link 1).stage = 5)) = true := by
  decide +kernel

theorem wit_key_arrives : (let s := net 9
    let u : State := { s with links := [(1, { st := .active, peerKey := some 9 })] }
    u.frameClear (fr 7 0 [trLine]) (.training (fr 7 0 [trLine]) (some true)) = true ∧ (u.link 1).peerKey = some 9 ∧
      next (.training (fr 7 0 [trLine]) (some true)) u (fun t => decide ((t.link 1).keyGen = 1 ∧ (t.link 1).st = .active)) = true) := by decide +kernel
/-! ## Tensor links: the device's own end -/

/-- `net 9` with link 1 as given. -/
def netL (e : Endpoint) : State := { net 9 with links := [(0, { st := .active, lastRx := 9 }), (1, e)] }

/-- Link 7 as given. -/
def netO (e : Endpoint) : State := { net 9 with links := [(7, e)] }

/-- Transmit entry 3: one line from line 5, all of it there. -/
def tx1 : Endpoint := { st := .active, txEnts := [(3, { tag := 0, base := 5, fwd := 32, valid := true })], txLines := [(5, { data := 6, count := 1, full := true })] }

theorem wit_transmit : (SMap.get tx1.txEnts {} 3).lines = 1 ∧ tx1.canSend (.data false 2 0 0 0 [6]) = true ∧
    next (.transmitEntrySend 1 3 false false) (netL tx1) (fun t => decide ((t.link 1).out = [.data false 2 0 0 0 [6]] ∧ (t.link 1).sent = 1)) = true := by
  decide +kernel

theorem wit_retransmission : (9 : Nat) ≤ 8 + 1 ∧ 1000 + sendCycles 16 8 ≤ frameCycles 0 ∧
    next (.frameRetransmission 1 1000 false) (netL { st := .active, lanes := 16, nakIn := [(7, 8)] })
      (fun t => decide ((t.link 1).resent = [7] ∧ (t.link 1).out = [.retransmit 7] ∧ (t.link 1).nakIn = [])) = true ∧
    frameCycles 0 < 1020 + sendCycles 16 8 ∧
    next (.frameRetransmission 1 1020 false) (netL { st := .active, lanes := 16, nakIn := [(7, 8)] })
      (fun t => (t.part 0).abort.isSome && decide ((t.link 1).st = .failed)) = true ∧
    next (.frameRetransmission 1 1000 true) (netL { st := .active, lanes := 16, nakIn := [(7, 7)] })
      (fun t => decide ((t.link 1).st = .failed)) = true ∧
    next (.frameRetransmission 7 1000 true) (netO { st := .active, lanes := 4, nakIn := [(7, 7)] })
      (fun t => decide ((t.link 7).st = .active ∧ (t.link 7).width = some false)) = true := by
  decide +kernel

/-- A link whose key has served 2^32 frames may renew it. -/
theorem wit_key_renewal : (let e := (netL { st := .active, keyUse := 4294967296 }).link 1
    e.st = .active ∧ 4294967296 ≤ e.keyUse ∧ e.nakIn = [] ∧ e.ownDraw = none) ∧ same (.keyRenewal 1) (netL { st := .active, keyUse := 4294967295 }) = true := by
  decide +kernel

/-- Link 7 narrow, to be widened, with every laser lit. -/
def wideO : State :=
  { netO { st := .active, lanes := 2, width := some true } with mods := (List.range 6).map (fun m => (m, { st := 2, en := true, lit := 0x3F })) }

theorem wit_width_change : (∀ m, m < 6 → ((netO { st := .active, lanes := 4, width := some false }).module m).removing = false) ∧
    next (.opticalWidthChange 7) (netO { st := .active, lanes := 4, width := some false })
      (fun t => decide ((t.link 7).lanes = 2 ∧ t.fu.vote = 3 ∧ t.fu.enforced = true)) = true ∧
    wideO.bothLit 7 = true ∧ next (.opticalWidthChange 7) wideO (fun t => decide ((t.link 7).lanes = 4)) = true ∧
    next (.opticalWidthChange 7) (netO { st := .active, lanes := 2, width := some true }) (fun t => decide ((t.link 7).lanes = 2)) = true := by
  decide +kernel

theorem wit_link_silence : (6 : Nat) + 2 < 9 ∧
    next (.linkSilence 1) (netL { st := .active, lastRx := 6 })
      (fun t => (t.part 0).abort.isSome && decide ((t.link 1).st = .failed ∧ (t.link 1).loop = some none)) = true ∧
    same (.linkSilence 1) (netL { st := .active, lastRx := 7 }) = true ∧
    next (.loopbackTestEnd 1 0xFFFE 0xFFFF) (netL { st := .failed, loop := some none, failFrame := 6, lanes := 16 })
      (fun t => decide (t.fu.notices.map (fun n => (n.frame, n.link, n.loopFail)) = [(6, 1, true)])) = true ∧
    next (.loopbackTestEnd 1 0xFFFF 0xFFFF) (netL { st := .failed, loop := some none, failFrame := 6, lanes := 16 })
      (fun t => decide ((t.link 1).loop = some (some false))) = true ∧
    next (.loopbackTestEnd 1 0xFFFF 0x7FFF) (netL { st := .failed, loop := some none, failFrame := 6, lanes := 16 })
      (fun t => decide ((t.link 1).loop = some (some true))) = true := by decide +kernel

theorem wit_training_stages :
    next (.linkDetect 1 31) (netL { st := .training }) (fun t => decide ((t.link 1).stage = 1 ∧ (t.link 1).lanes = fullLanes 1)) = true ∧
      next (.linkDetect 7 3) (netO { st := .training }) (fun t => decide ((t.link 7).stage = 1 ∧ (t.link 7).lanes = 2)) = true ∧
      same (.linkDetect 1 (BitVec.ofNat 5 (fullLanes 1 - 1))) (netL { st := .training }) = true ∧
      next (.linkDetect 1 (BitVec.ofNat 5 (fullLanes 1 - 1))) (netL { st := .active }) (fun t => decide ((t.link 1).st = .failed)) = true ∧
      next (.linkEqualisationEnd 1) (netL { st := .training, stage := 1 }) (fun t => decide ((t.link 1).stage = 2)) = true ∧
      next (.trainingStageTimeout 1) (netL { st := .training, stage := 2, tries := 2 })
        (fun t => decide ((t.link 1).stage = 0 ∧ (t.link 1).tries = 3)) = true ∧
      next (.trainingStageTimeout 1) (netL { st := .training, stage := 2, tries := 3 }) (fun t => decide ((t.link 1).st = .failed)) = true := by
  decide +kernel

theorem wit_delay_measure : classBounds.getD 0 0 < 500 + 160 ∧
    next (.delayRemeasure 1 10 10) (netL { st := .training, stage := 5 })
      (fun t => decide ((t.link 1).delay = 160 ∧ (t.link 1).stage = 6 ∧ 160 ≤ classBounds.getD (t.link 1).cls 0)) = true ∧
    next (.delayRemeasure 1 1000000 0) { netL { st := .active, cls := 0 } with fu := { (net 9).fu with frame := 1048576 } }
      (fun t => decide ((t.link 1).exceed = 1 ∧ (t.link 1).cls = 0)) = true := by decide +kernel

theorem wit_frame_lock_loss :
    next .frameLockLoss (runF (fun u => { u with lock := true, missRun := 64 })) (fun t => decide (t.fu.lock = false ∧ t.health.decided = some 7)) = true ∧
      next .frameLockLoss (runF (fun u => { u with lock := true, missRun := 64, noBackup := true })) (fun t => decide (t.dawn.step = 5)) = true ∧
      same .frameLockLoss (runF (fun u => { u with lock := true, missRun := 63 })) = true := by decide +kernel

theorem wit_master_takeover : run.dict.addr = complementOf run.dict.n 7 ∧
    next .masterTakeover (runF (fun u => { u with lock := true, curMaster := 7, foldRun := 5, epoch := 2 }))
      (fun t => decide (t.fu.acting = true ∧ t.fu.epoch = 3 ∧ t.fu.curMaster = 0)) = true ∧
    same .masterTakeover (runF (fun u => { u with lock := true, curMaster := 7, foldRun := 4, epoch := 2 })) = true := by decide +kernel

/-- A Twilight notice of device 2 in frame 3. -/
def tw2 : Notice := { frame := 3, origin := 2, link := 15, loopFail := false, cause := 1 }

theorem wit_failure_decision : ([tw2].map (fun n => n.frame)).min? = some 3 ∧ (3 : Nat) + 26 ≤ 29 ∧
    next .failureDecision (runF (fun u => { u with notices := [tw2], frame := 29 })) (fun t => decide (2 ∈ t.fu.failedDevs ∧ t.fu.notices = [])) = true ∧
    same .failureDecision (runF (fun u => { u with notices := [tw2], frame := 28 })) = true := by decide +kernel

/-- A device that covers device 1 until frame 9. -/
def cov : State := { net 9 with fu := { (net 9).fu with returnF := some 9, failedDevs := [1] }, ledger := { (net 9).ledger with mode := 1, covered := [jr (.cancel 0 1)] } }

theorem wit_covering_end : cov.stillCovering 9 = false ∧
    next .coveringEnd cov (fun t => decide (t.ledger.mode = 0 ∧ t.fu.failedDevs = [] ∧ t.fu.returnIn = some 9 ∧ t.ledger.covered = [])) = true := by
  decide +kernel

/-! ## Partitions and Twilight -/

/-- Partition 0 Loading with granule 8, whose tag reads back as this. -/
def loadT (g : Tag) : State := let s := netP { st := .loading, granules := [8] }
  { s with mem := { s.mem with granules := SMap.set s.mem.granules 0xFE 8 g } }

theorem wit_tags_differ : (loadT 1).blocksReady 0 = true ∧ (loadT 1).tagsAgree 0 = false ∧ (loadT 0).tagsAgree 0 = true ∧
    next (.loadingComplete 0) (loadT 1) (fun t => decide (t.health.decided = some 0x0B ∧ (t.part 0).loaded = false)) = true := by decide +kernel

theorem wit_loading_complete : (netP { st := .loading }).blocksReady 0 = true ∧ (netP { st := .loading }).tagsAgree 0 = true ∧
    next (.loadingComplete 0) (netP { st := .loading }) (fun t => decide ((t.part 0).loaded = true)) = true := by decide +kernel

/-- A device in frame 4096 with every link in use of a class that the partition's delays allow. -/
def startDev (q : Part) : State :=
  { runF (fun u => { u with frame := 4096 }) with parts := [(0, q)], ledger := { run.ledger with mode := 0 }
                                                  links := [(0, { cls := 3 }), (1, { cls := 3 }), (2, { cls := 3 }), (10, { cls := 3 })] }

theorem wit_partition_start :
    (startDev {}).delaysFit { delays := [3, 3, 3] } = true ∧ (startDev {}).fu.frame % 4096 = 0 ∧
      next (.partitionStart 0 {}) (startDev { st := .loading, startF := some 4096, allLoaded := true, delays := [3, 3, 3] })
        (fun t => decide ((t.part 0).st = .serving ∧ (t.part 0).nextStart = some 4096 ∧ (t.part 0).startIn = some 4096)) = true ∧
      next (.partitionStart 0 {}) (startDev { st := .loading, startF := some 4096, allLoaded := true, delays := [3, 3, 3], arrays := [9] })
        (fun t => decide ((t.part 0).st = .streaming)) = true := by decide +kernel

theorem wit_partition_close :
    ({ st := .serving, closeF := some 9, nextStart := some 9 } : Part).steps = true ∧
      (netP { st := .serving, closeF := some 9, nextStart := some 9 }).workLeft 0 = false ∧
      next (.partitionClose 0) (let s := netP { st := .serving, closeF := some 9, nextStart := some 9, granules := [8] }
          { s with accts := [(0, { st := .active, part := 0 })], mem := { s.mem with keys := [(0, 5)], granules := SMap.set s.mem.granules 0xFE 8 0 } })
        (fun t => decide (t.accts = [] ∧ t.mem.keys = [] ∧ t.mem.zeroing = [8] ∧ (t.part 0).nextStart = none)) = true := by decide +kernel

/-- A WRITE in progress holds the granules of a partition that closes (R360). -/
theorem test_close_keeps_busy_window :
    next (.partitionClose 0) (let s := netP { st := .serving, closeF := some 9, nextStart := some 9, granules := [8] }
        { s with mem := { s.mem with granules := SMap.set s.mem.granules 0xFE 8 0 }
                 host := { s.host with windows := [(2, { st := 1, tag := 0, busy := 1 })] } })
      (fun t => decide (t.mem.zeroing = [] ∧ (t.part 0).st = .closing ∧ (t.window 2).st = 2)) = true := by decide +kernel

/-- A new image of version 5. -/
def img5 : StagedImage := { version := 5, digest := 6, own := (8, 9), partner := none }

/-- Partition 0 attached to base 0, with its replacement ready in its switch frame. -/
def swDev : State := let s := netP { st := .streaming, switchF := some 9, allReady := true, repl := 3, nextStart := some 9, staged := some img5 }
  { s with dict := { s.dict with bases := [(0, (1, 4))] } }

theorem wit_weight_switch : (0 : Nat) ∈ swDev.attached 0 ∧ (swDev.part 0).switchF = some 9 ∧
    (∀ k ∈ swDev.attached 0, (swDev.part k).allReady = true ∧ (swDev.part k).repl = 3 ∧ swDev.atBoundary k = true) ∧
    (swDev.attached 0).findSome? (fun k => (swDev.part k).staged) = some img5 := by decide +kernel

theorem wit_partition_reset :
    next (.partitionReset 0) (netP { st := .serving, resetF := some 9, nextStart := some 9, due := (7, 3) })
        (fun t => decide ((t.part 0).nextStart = some 41 ∧ (t.part 0).due = (7, 1) ∧ (t.part 0).resetIn = true)) = true ∧
      next (.partitionReset 0) (netP { st := .serving, resetF := some 9, nextStart := some 9, due := (7, 3), runs := [{ run3 with start := 9 }] })
        (fun t => decide ((t.part 0).due = (3, 1))) = true := by decide +kernel

/-- `net 9` with this health. -/
def netH (h : Health) : State := { net 9 with health := h, mem := { (net 9).mem with keys := [(0, 5)] } }

theorem wit_twilight :
    (netH { decided := some 6 }).replayDue = false ∧
      next .twilightEntry (netH { decided := some 6 }) (fun t => (t.part 0).abort.isSome && decide (t.health.st = 1 ∧ t.health.cause = 6 ∧
        t.mayAssign = false)) = true ∧
      next .twilightStop { netH { st := 1, frame := 9 } with fu := { (net 9).fu with frame := 41 } }
        (fun t => decide (t.health.st = 2 ∧ t.health.flag = true ∧ t.mem.keys = [])) = true ∧
      same .twilightStop { netH { st := 1, frame := 9 } with fu := { (net 9).fu with frame := 40 } } = true ∧
      next .dark (netH { st := 2 }) (fun t => decide (t.health.st = 3 ∧ t.parts = [] ∧ (t.tile 0).streams = [])) = true ∧
      next (.treeDisagreement 3 none) (net 9) (fun t => decide (t.health.decided = some 10 ∧ t.health.trees = 1)) = true ∧
      same (.treeDisagreement 2 none) (net 9) = true ∧
      next (.treeDisagreement 2 (some true)) (net 9) (fun t => (t.part 0).abort.isSome) = true ∧
      next (.treeDisagreement 2 (some false)) (net 9) (fun t => decide (t.fu.held = (net 9).fu.held + 2)) = true ∧
      next (.opticalEngineFailure 2) (net 9) (fun t => decide (t.health.decided = some 6)) = true ∧
      next (.opticalEngineFailure 1) (netO { st := .active }) (fun t => decide ((t.link 7).st = .failed)) = true := by decide +kernel

/-! ## Urius Object Access -/

/-- Session 1 in this role, with a selector. -/
def us (role : Nat) (sel : SMap Nat) : UoaSess :=
  { id := 1, nonce := 0, key := 0, draw := 0, anchor := 0, role := role, tenant := 7, done := true, src := om.src, high := 0, recent := [], txSeq := 0, sel := sel
    holdRole := none, holdTen := none, holdCert := none }

/-- `net 9` with that session. -/
def od (u : UoaSess) : State := let s := net 9
  { s with dict := { s.dict with sessions := [u] } }

/-- The Write request of one item. -/
def ow (index sub : Nat) (v : DVal) : UoaMsg := { om with length := BitVec.ofNat 16 (10 + valueBytes (ownItem index sub v).type v) }

/-- The session's Write of 1 to a trigger is accepted in this state. -/
def acc (role index sub : Nat) (s : State) (sel : SMap Nat) : Bool :=
  s.acceptsWrite (ow index sub (.num 1)) (us role sel) index sub (.num 1)

/-- The Write of 1. -/
def w1 (index sub : Nat) : UoaMsg := ow index sub (.num 1)

/-- The only reply has one item of this status. -/
def answered (st : BitVec 8) (t : State) : Bool := decide (t.dict.out.map (fun r => r.items.map (fun i => i.status)) = [[st]])

/-- Array 64 Resident, selected by a session. -/
def calDev : State := { od (us 4 [(0x3100, 64)]) with arrays := [(64, { st := .resident })] }

theorem wit_calibration_writes :
    acc 4 0x3100 0x03 calDev [(0x3100, 64)] = true ∧
      next (.requestFullCalibration (w1 0x3100 3) (.num 1)) calDev (fun t => answered 0 t && decide ((t.tile 1).calPrio = [64])) = true ∧
      calDev.acceptsWrite (ow 0x3100 6 (.num 3)) (us 4 [(0x3100, 64)]) 0x3100 6 (.num 3) = true ∧
      next (.userCalibrationPoint (ow 0x3100 6 (.num 3)) (.num 3)) calDev
        (fun t => answered 0 t && decide (t.dict.calPoint = 3 ∧ (t.tile 1).calUser = [(64, 3)])) = true := by decide +kernel

theorem wit_new_sweep : acc 4 0x3100 0x10 (od (us 4 [])) [] = true ∧
    next (.newSweep (w1 0x3100 0x10) (.num 1)) (od (us 4 [])) (fun t => answered 0 t && decide (t.health.sweep = 1)) = true := by decide +kernel

theorem wit_replacement : acc 3 0x2000 0x0B { od (us 3 []) with parts := [(0, { st := .streaming })] } [] = true ∧
    next (.replacement (w1 0x2000 0x0B) 0 (.num 1)) (let s := od (us 3 [])
        { s with parts := [(0, { st := .streaming })], dict := { s.dict with bases := [(0, (1, 0))] } })
      (fun t => answered 0 t && decide ((t.part 0).replReq = true)) = true := by decide +kernel

theorem wit_drain_and_flag : acc 3 0xF010 5 (od (us 3 [])) [] = true ∧
    next (.requestDrain (w1 0xF010 5) (.num 1)) (od (us 3 [])) (fun t => answered 0 t && decide (t.health.decided = some 1)) = true ∧
    acc 4 0xF010 6 (od (us 4 [])) [] = true ∧
    next (.clearFlag (w1 0xF010 6) (.num 1)) (od (us 4 [])) (fun t => answered 0 t && decide (t.health.clearing = true)) = true := by
  decide +kernel

/-- The session with a module at position 1 and link 7 Active at full width. -/
def modDev (x : Module) (n : Nat) : State := { od (us 3 []) with mods := [(n, x)], links := [(6, { st := .active, lanes := 4 }), (7, { st := .active, lanes := 4 })] }

theorem wit_module_writes : (moduleLinks 0).contains 6 = true ∧ acc 3 0x5000 0x0B (modDev { st := 2 } 0) [] = true ∧
    next (.removalRequest (w1 0x5000 0x0B) 0 (.num 1)) (modDev { st := 2 } 0)
      (fun t => answered 0 t && decide ((t.module 0).removing = true ∧ (t.link 6).width = some false)) = true ∧
    acc 3 0x5000 0x0C (modDev { st := 5, pres := true, data := some md } 0) [] = true ∧ modSound md = true ∧
    next (.relight (w1 0x5000 0x0C) 0 (.num 1)) (modDev { st := 5, pres := true, data := some md } 0)
      (fun t => answered 0 t && decide ((t.module 0).probing = true ∧ (t.module 0).en = true)) = true := by decide +kernel

theorem wit_flush_and_link_reset : acc 3 0x9000 9 (od (us 3 [])) [] = true ∧
    next (.flushNow (w1 0x9000 9) (.num 1)) (od (us 3 [])) (fun t => answered 0 t && decide (t.recd.flushing = some 1)) = true ∧
    acc 4 0x6000 0x0F { od (us 4 [(0x6000, 1)]) with links := [(1, { st := .failed })] } [(0x6000, 1)] = true ∧
    next (.linkReset (w1 0x6000 0x0F) (.num 1)) { od (us 4 [(0x6000, 1)]) with links := [(1, { st := .failed })] }
      (fun t => answered 0 t && decide ((t.link 1).st = .training)) = true := by decide +kernel

theorem wit_partition_load :
    (od (us 3 [])).acceptsWrite (ow 0x2001 2 (.num 7)) (us 3 []) (partIndex 1) 2 (.num 7) = true ∧ (od (us 3 [])).mgmt.entropy = true ∧
      ((od (us 3 [])).part 1).st = .free ∧ (od (us 3 [])).imageOk 1 { img0 with granules := [8, 959] } = true ∧
      next (.partitionLoad (ow 0x2001 2 (.num 7)) 1 7 { img0 with granules := [8, 959] }) (od (us 3 []))
        (fun t => answered 0 t && decide ((t.part 1).st = .loading ∧ (t.part 1).tenant = 7 ∧ SMap.get t.mem.granules 0xFE 959 = 1)) = true := by
  decide +kernel

/-- `od` with partition 0 of the session's tenant. -/
def own (u : UoaSess) (q : Part) : State := { od u with parts := [(0, { q with tenant := 7, st := .serving })] }

theorem wit_wrapping_key :
    (own (us 2 []) {}).acceptsRequest { om with type := 0x10, length := 10 } (us 2 []) 0x10 10 1 = true ∧
      (findEntry 0x2000 0x80).isSome = true ∧
      next (.wrappingKey { om with type := 0x10, length := 10 } 0) (own (us 2 []) {})
        (fun t => answered 0 t && decide ((t.part 0).wrapKeys = [(1, 0, 0)] ∧ t.mgmt.draws = 1)) = true := by decide +kernel

/-- The bytes of a parking key with KEYID 9, as the command brings them. -/
def keyBytes (s : State) : DVal := .bytes ((List.range 161).map (fun k =>
  if 97 ≤ k ∧ k < 101 then (bytesOfNat 4 9).getD (k - 97) 0 else Config.sealedByte s.free k))

theorem wit_parking_key :
    (let s := own (us 2 []) { wrapKeys := [(1, 0, 0)], sealed := 3 }
     s.acceptsWrite (ow 0x2000 0x81 (keyBytes s)) (us 2 []) 0x2000 0x81 (keyBytes s) = true ∧ s.now s.fu.cycle ≤ 60 * 1600000000 ∧
      (s.part 0).wrapKeys.find? (fun k => decide (k.1 = (us 2 []).id)) = some ((us 2 []).id, 0, 0) ∧
      next (.parkingKeyInstall (ow 0x2000 0x81 (keyBytes s)) 0 9 161 true 60) s
        (fun t => answered 0 t && decide ((t.part 0).keyid = 9 ∧ (t.part 0).sealed = 0)) = true) := by decide +kernel

/-- The offset and one byte of an image. -/
def imgBytes : DVal := .bytes (bytesOfNat 4 33554431 ++ [5])

theorem wit_image_transfer : (od (us 4 [])).acceptsWrite (ow 0xF000 6 imgBytes) (us 4 []) 0xF000 6 imgBytes = true ∧
    next (.imageTransfer (ow 0xF000 6 imgBytes) 33554431 [5]) (od (us 4 []))
      (fun t => answered 0 t && decide (t.mgmt.boot.slotB = [(33554431, 5)] ∧ t.mgmt.boot.slotA = [])) = true := by decide +kernel

theorem wit_start_trial : acc 4 0xF000 7 (od (us 4 [])) [] = true ∧ slotGood ⟨true, true, 0, true, 3, 1, 0⟩ (od (us 4 [])).mgmt.boot = true ∧
    next (.startTrial (w1 0xF000 7) (.num 1) ⟨true, true, 0, true, 3, 1, 0⟩) (od (us 4 []))
      (fun t => answered 0 t && decide (t.mgmt.boot.trial = 1 ∧ t.mgmt.boot.tries = 3 ∧ t.mgmt.boot.trialSvn = 3)) = true := by decide +kernel

/-- A Service session that selects anchor 5 and holds an Operator's certificate. -/
def ua : UoaSess := { us 4 [(0xF020, 5)] with holdRole := some 3, holdTen := some 0, holdCert := some [0x30] }

theorem wit_anchor_writes : (od ua).acceptsWrite (w1 0xF020 6) ua 0xF020 6 (.num 1) = true ∧
    next (.anchorInstall (w1 0xF020 6) (.num 1) true) (od ua)
      (fun t => answered 0 t && decide ((SMap.get t.dict.anchors none 5).isSome = true ∧ (SMap.get t.dict.anchors none 0).isSome = true)) = true ∧
    (od ua).acceptsWrite (w1 0xF020 7) ua 0xF020 7 (.num 1) = true ∧
    next (.anchorRemove (w1 0xF020 7) (.num 1)) (let s := od ua
        { s with dict := { s.dict with anchors := SMap.set s.dict.anchors none 5 (some { role := 1, tenant := 0, cert := [], digest := 0 }) } })
      (fun t => answered 0 t && decide (SMap.get t.dict.anchors none 5 = none)) = true := by decide +kernel

/-- A Tenant's device whose session selects Teller session 2, bound to its partition 0. -/
def tdev (x : Session) : State := let s := own (us 2 [(0x7100, 2)]) {}
  { s with host := { s.host with sessions := [(2, { x with part := 0, tenant := 7 })], ports := [(0, { up := true })] } }

theorem wit_session_open : acc 2 0x7100 4 (tdev {}) [(0x7100, 2)] = true ∧ Tag.isPart ((tdev {}).sess 2).part = true ∧
    (tdev {}).openSessions 0 < ((tdev {}).part 0).quota.toNat ∧
    next (.sessionOpen (w1 0x7100 4) (.num 1)) (tdev {})
      (fun t => answered 0 t && decide ((t.sess 2).st = .configured ∧ (t.sess 2).key = some 0)) = true := by decide +kernel

theorem wit_session_reopen : acc 2 0x7100 5 (tdev { st := .error }) [(0x7100, 2)] = true ∧
    next (.sessionReopen (w1 0x7100 5) (.num 1)) (tdev { st := .error, a := 4, rxCtr := 9 })
      (fun t => answered 0 t && decide ((t.sess 2).key = some 0 ∧ (t.sess 2).a = 4 ∧ (t.sess 2).rxCtr = 0)) = true := by decide +kernel

theorem wit_session_close : acc 2 0x7100 6 (tdev { st := .ready }) [(0x7100, 2)] = true ∧
    next (.sessionClose (w1 0x7100 6) (.num 1)) (tdev { st := .ready }) (fun t => answered 0 t && decide ((t.sess 2).st = .free)) = true ∧
    next (.sessionClose (w1 0x7100 6) (.num 1)) (let s := tdev { st := .ready }
        { s with ledger := { s.ledger with subs := [{ sub1 with sess := 2 }] } })
      (fun t => answered 0 t && decide ((t.sess 2).st = .closing)) = true := by decide +kernel

theorem wit_connect : acc 2 0x7100 0x0D (tdev { st := .configured, key := some 0 }) [(0x7100, 2)] = true ∧
    (tdev { st := .configured, key := some 0 }).heldOf 2 = [] := by decide +kernel

theorem wit_resets : acc 4 0xF000 0x12 (od (us 4 [])) [] = true ∧
    next (.warmResetRequest (w1 0xF000 0x12) (.num 1)) (let s := od (us 4 [])
        { s with tiles := [(0, { blocks := [(1, { powered := true, retained := true })] })], spad := [(0, 1), (32768, 2)]
                 ledger := { s.ledger with mode := 0, journal := [jr (.cancel 0 1)] } })
      (fun t => answered 0 t && decide (t.dawn.request = 1 ∧ t.dawn.step = 0 ∧ t.spad = [(32768, 2)] ∧ t.ledger.journal.length = 1)) = true ∧
    (od (us 4 [])).health.clearing = false ∧
    next (.warmResetRequest (w1 0xF000 0x12) (.num 1)) (let s := od (us 4 [])
        { s with accts := [(0, { st := .active })], health := { s.health with clearing := true } })
      (fun t => answered 0 t && decide (t.dawn.warm = false ∧ t.dawn.step = 0 ∧ t.accts = [])) = true ∧
    (od (us 4 [])).acceptsWrite (ow 0xF000 0x12 (.num 2)) (us 4 []) 0xF000 0x12 (.num 2) = true ∧
    next (.coldResetRequest (ow 0xF000 0x12 (.num 2)) (.num 2)) { od (us 4 []) with spad := [(0, 1)] }
      (fun t => answered 0 t && decide (t.dawn.request = 2 ∧ t.spad = [])) = true ∧
    (od (us 4 [])).acceptsWrite (ow 0xF000 0x12 (.num 3)) (us 4 []) 0xF000 0x12 (.num 3) = true ∧
    next (.orderlyShutdown (ow 0xF000 0x12 (.num 3)) (.num 3)) { od (us 4 []) with parts := [] }
      (fun t => answered 0 t && decide (t.dawn.shutdown = 1 ∧ t.recd.flushing.isSome = true)) = true ∧
    next .flushEnd { od (us 4 []) with dawn := { dev.dawn with shutdown := 1 }, recd := { dev.recd with flushing := some 1 } }
      (fun t => decide (t.dawn.shutdown = 2 ∧ t.health.silent = true)) = true := by decide +kernel

theorem wit_hello_finish :
    (od (us 1 [])).uoaReaches om = true ∧ (od (us 1 [])).dict.hellosOf om.src.addr 3 < 8 ∧
      (od (us 1 [])).helloAnchor ⟨some 0, true⟩ = some (0, { role := 4, tenant := 0, cert := [], digest := 0 }) ∧
      next (.uoaHello { om with type := 1, length := 4576, count := 0 } 5 6 ⟨some 0, true⟩ 3) (od (us 1 []))
        (fun t => decide (t.dict.sessions.length = 2 ∧ t.dict.out.map (fun r => (r.type, r.status)) = [(2, 0)])) = true ∧
      next (.uoaFinish { om with type := 3, length := 96, count := 0 } true) (od { us 1 [] with done := false })
        (fun t => answered 0 t && decide (t.dict.sessions.map (fun x => x.done) = [true])) = true ∧
      next (.uoaFinish { om with type := 3, length := 96, count := 0 } true) (od (us 1 []))
        (fun t => decide (t.dict.out.map (fun r => (r.type, r.status)) = [(4, 1)])) = true := by decide +kernel

/-- A Read of one item. -/
def rd (index : BitVec 16) (sub : BitVec 8) : ReadItem := ⟨index, sub, 0, 0, 64⟩

theorem wit_uoa_read :
    (od (us 1 [])).acceptsRequest { om with type := 0x10, length := 10 } (us 1 []) 0x10 10 1 = true ∧
      (findEntry 0x1100 3).isSome = true ∧
      next (.uoaRead { om with type := 0x10, length := 10 } [rd 0x1100 3]) (let s := od (us 1 [])
          { s with dict := { s.dict with wall := 77 } })
        (fun t => answered 0 t && decide (t.dict.out.map (fun r => r.items.map (fun i => i.value)) = [[some (.num 77)]])) = true := by
  decide +kernel

theorem wit_uoa_write :
    (od (us 3 [])).acceptsWrite (ow 0x1100 3 (.num 99)) (us 3 []) 0x1100 3 (.num 99) = true ∧
      next (.uoaWrite (ow 0x1100 3 (.num 99)) [⟨0x1100, 3, 5, 0, .num 99⟩]) (od (us 3 []))
        (fun t => answered 0 t && decide (t.dict.wall = 99)) = true ∧
      (od (us 1 [])).acceptsRequest (ow 0x1100 3 (.num 99)) (us 1 []) 0x12 (writeBytes [⟨0x1100, 3, 5, 0, .num 99⟩]) 1 = true ∧
      next (.uoaWrite (ow 0x1100 3 (.num 99)) [⟨0x1100, 3, 5, 0, .num 99⟩]) (od (us 1 []))
        (fun t => answered 2 t && decide (t.dict.wall = 0)) = true := by decide +kernel

theorem wit_uoa_stage :
    (own (us 3 []) {}).acceptsRequest { om with type := 0x14, length := 26 } (us 3 []) 0x14 26 1 = true ∧ (findEntry 0x2000 7).isSome = true ∧
      (9 : Nat) + 16 ≤ 4096 ∧
      next (.uoaStage { om with type := 0x14, length := 26 } [⟨0x2000, 7, 5, 0, 0, .num 4096⟩]) (own (us 3 []) {})
        (fun t => answered 0 t && decide ((t.part 0).startF = some 4096)) = true := by decide +kernel

theorem wit_uoa_describe_close :
    next (.uoaDescribe { om with type := 0x16, length := 4 } [rd 0x1100 3]) (od (us 1 [])) (fun t => decide (t.dict.out.length = 1)) = true ∧
      next (.uoaClose { om with type := 0x1E, length := 0, count := 0 }) (od (us 1 [])) (fun t => decide (t.dict.sessions = [] ∧ t.dict.out.length = 1)) = true ∧
      (od (us 1 [])).firmware = true ∧ (od (us 1 [])).power.failed = false ∧
      (od (us 1 [])).acceptsRequest { om with type := 0x1E, length := 0, count := 0 } (us 1 []) 0x1E 0 0 = true ∧
      (od (us 1 [])).acceptsRequest { om with type := 0x16, length := 4 } (us 1 []) 0x16 4 1 = true ∧
      next (.uoaIdleTimeout 1) (od (us 1 [])) (fun t => decide (t.dict.sessions = [])) = true ∧
      next .dictionaryStoreRollover (od (us 1 [])) (fun t => decide (t.dict.storeGen = 1)) = true := by decide +kernel

/-! ## Host ports and the Teller -/

/-- A device with port 0 up and session 3 Ready on it, bound to partition 0 with granule 8; account 0 is at home. -/
def hd : State := let s := net 9
  { s with
    host := { s.host with ports := [(0, { up := true })], sessions := [(3, { st := .ready, part := 0, key := some 0 })] }
    parts := [(0, { st := .serving, chunks := [(524288, 65536)], batch := 4, homes := [0] })]
    mem := { s.mem with granules := SMap.set s.mem.granules 0xFE 8 0 }
    accts := [(0, { st := .active, part := 0 })] }

/-- `hd` with session 3 as given. -/
def hs (x : Session) : State := { hd with host := { hd.host with sessions := [(3, x)] } }

theorem wit_ports :
    hd.badFrame 0 (.roce 3) 9216 none true true true = false ∧ hd.badFrame 0 .fragment 64 none true true true = true ∧
      next (.ethernetFrame 0 .fragment 64 none true true true false 0 0 0) hd (fun t => decide ((t.port 0).dropped = 1)) = true ∧
      next (.ethernetFrame 0 .arp 64 none true true true false 0 3 200000000) hd
        (fun t => decide ((t.port 0).answered = 1 ∧ (t.port 0).pausing = 8)) = true ∧
      (hd.sess 3).cnpAt = none ∧
      next (.ethernetFrame 0 (.roce 3) 64 none true true true true 50 3 0) hd
        (fun t => decide ((t.port 0).cnpTx = 1 ∧ (t.sess 3).cnpAt = some 50)) = true := by decide +kernel

theorem wit_pacing : (hd.sess 3).connected = true ∧
    next (.congestionNotification 3) hd (fun t => decide ((t.sess 3).rate = some (cutRate (hd.rateOf (hd.sess 3))) ∧ (t.port 0).cnpRx = 1)) = true ∧
    next (.rateIncrease 3) (hs { st := .ready, part := 0, rate := some (790, 0) }) (fun t => decide ((t.sess 3).rate = none)) = true ∧
    next (.rateIncrease 3) (hs { st := .ready, part := 0, rate := some (789, 0) }) (fun t => decide ((t.sess 3).rate = some (799, 0))) = true ∧
    next (.pfcFrame 0 3 true) hd (fun t => decide ((t.port 0).paused = 8)) = true ∧ same (.pfcFrame 0 2 true) hd = true := by decide +kernel

theorem wit_port_state : next (.queuePairError 3) hd (fun t => decide ((t.sess 3).st = .error)) = true ∧
    next (.ethernetPortDown 0) hd (fun t => decide ((t.port 0).up = false ∧ (t.sess 3).st = .error)) = true ∧
    (let s : State := { hd with host := { hd.host with ports := [(0, { ipv4W := 5 })] }, mods := [(0, { en := true, cmisOff := false, lit := 63 }),
      (1, { en := true, cmisOff := false, lit := 63 }), (2, { en := true, cmisOff := false, lit := 63 })] }
    SMap.rising s.mods = true ∧ 1 ≤ s.portPairs 0 ∧ next (.portRetrained 0 false) s
      (fun t => decide ((t.port 0).up = true ∧ (t.port 0).ipv4 = 5 ∧ (t.port 0).full = false)) = true) := by decide +kernel

/-- Window 2 of session 3: 256 bytes at line 67108864, read and write. -/
def win2 : Window := { st := 1, gen := 1, tag := 0, session := 3, access := 3, base := 67108864, bytes := 256 }

/-- `hd` with that window in this state. -/
def wd (st : Nat) : State := { hd with host := { hd.host with windows := [(2, { win2 with st := st })] } }

/-- `wd 1` with line 67108865 written already. -/
def ww : State := { wd 1 with mem := { (wd 1).mem with written := [67108865] } }

theorem wit_rdma_write : ww.qpReady 3 0 = true ∧ ww.rdmaCheck 3 (win2.key 2) 254 2 0 = .ok 2 ∧ (ww.sess 3).rdma = none ∧
    ww.strayLine win2.tag (win2.lines 254 2) = none ∧ ww.readable (win2.partLines 254 2) = true ∧
    next (.rdmaWrite 3 0 .only (win2.key 2) 254 [1, 2] 0 []) ww (fun t => decide (t.mem.data = [(8589934846, 1), (8589934847, 2)])) = true ∧
    ww.rdmaCheck 3 (win2.key 2) 252 4 0 = .ok 2 ∧
    next (.rdmaWrite 3 0 (.first 4) (win2.key 2) 252 [1] 0 []) ww
      (fun t => decide (t.mem.data = [(8589934844, 1)] ∧ (t.window 2).busy = 1 ∧ (t.sess 3).rdma = some (2, 253, 3))) = true := by
  decide +kernel

/-- `ww` with three bytes of a WRITE still to come. -/
def wp : State := { ww with host := { ww.host with sessions := [(3, { (ww.sess 3) with rdma := some (2, 253, 3) })], windows := [(2, { win2 with busy := 1 })] } }

theorem wit_rdma_write_goes_on : wp.qpReady 3 0 = true ∧
    next (.rdmaWrite 3 0 .middle 0 0 [7] 0 []) wp (fun t => decide (t.mem.data = [(8589934845, 7)] ∧ (t.sess 3).rdma = some (2, 254, 2))) = true ∧
    next (.rdmaWrite 3 0 .last 0 0 [7, 8, 9] 0 []) wp
      (fun t => decide (t.mem.data = [(8589934845, 7), (8589934846, 8), (8589934847, 9)] ∧ (t.sess 3).rdma = none ∧ (t.window 2).busy = 0)) = true ∧
    next (.queuePairError 3) wp (fun t => decide ((t.window 2).busy = 0 ∧ (t.sess 3).rdma = none)) = true := by decide +kernel

/-- `ww` with that line poisoned. -/
def wlost : State := { ww with mem := { ww.mem with lost := [67108865] } }

theorem wit_rdma_write_poisoned : (win2.partLines 254 2).all (fun l => wlost.mem.lost.contains l) = true ∧ win2.partLines 254 2 ≠ [] ∧
    wlost.strayLine win2.tag (win2.lines 254 2) = none ∧
    next (.rdmaWrite 3 0 .only (win2.key 2) 254 [1, 2] 0 []) wlost (fun t => (t.part 0).abort.isSome && decide (t.mem.data = [])) = true := by
  decide +kernel

/-- `wp` whose partition closes and waits for this WRITE. -/
def wclose : State := { wp with parts := [(0, { (wp.part 0) with st := .closing, granules := [8] })] }

theorem wit_rdma_write_closes : (wclose.part 0).st = .closing ∧ SMap.rising wclose.host.windows = true ∧
    wclose.mem.granules.any (fun x => decide (x.2.toNat = 0)) = true ∧ wclose.qpReady 3 0 = true ∧
    next (.rdmaWrite 3 0 .last 0 0 [7, 8, 9] 0 []) wclose
      (fun t => decide (t.mem.zeroing = [8] ∧ t.mem.granules.all (fun x => decide (x.2.toNat ≠ 0)) = true ∧
        t.mem.data = [(8589934845, 7), (8589934846, 8), (8589934847, 9)])) = true := by decide +kernel

theorem wit_rdma_read : (wd 1).rdmaCheck 3 (win2.key 2) 255 1 1 = .ok 2 ∧
    next (.rdmaRead 3 0 (win2.key 2) 255 1 0 []) (let s := wd 1
        { s with mem := { s.mem with data := [(8589934847, 2)], written := [67108865] } })
      (fun t => decide (t.host.readOut = [(3, [2])])) = true := by decide +kernel

theorem wit_window_key_not_honoured : (wd 0).windowByKey (win2.key 2) = none ∧
    next (.rdmaWrite 3 0 .only (win2.key 2) 0 [1] 7 []) (wd 0)
      (fun t => decide ((t.sess 3).st = .error ∧ t.host.nakOut = [(3, 7)] ∧ t.host.out.map (fun x => x.type) = [0x17])) = true := by
  decide +kernel

theorem wit_window_drained : (win2.chunks ≠ 0) ∧
    next (.windowDrained 2) (let s := wd 2
        { s with mem := { s.mem with data := [(8589934591, 1), (8589934847, 2), (8589950976, 3)] }
                 parts := [(0, { st := .serving, granules := [8] })] })
      (fun t => decide ((t.window 2).st = 0 ∧ t.mem.data = [(8589934591, 1), (8589950976, 3)] ∧ (t.part 0).chunks = [(524288, 1)])) = true := by
  decide +kernel

/-- A message of session 3. -/
def sm (type : BitVec 6) (subkind : BitVec 4) (length : BitVec 16) : UwpMsg :=
  { wm with qp := 3, session := 3, type := type, subkind := subkind, length := length
            endtok := if subkind = 1 then 99 else BitVec.allOnes 32, maxtok := if subkind = 1 then 4 else 0 }

/-- `hd` that holds a submission with SSN 1 of session 3. -/
def held (st : SubState) : State := { hs { st := .ready, part := 0, key := some 0, a := 1 } with
  ledger := { hd.ledger with subs := [{ sub1 with sess := 3, st := st }] } }

theorem wit_session_messages :
    hd.passes (sm 2 0 0) = true ∧ headerOk (sm 2 0 0) 2 0 = true ∧ (held .accepted).awayHome (sm 2 0 0) = none ∧ (held .accepted).quiet = true ∧
      next (.cancel (sm 2 0 0)) (held .accepted)
        (fun t => decide (t.ledger.journal.map (fun j => j.r.body) = [.cancel 3 1] ∧ t.ledger.subs.map (fun b => b.cancelLsn) = [some 0])) = true ∧
      next (.cancel (sm 2 0 0)) hd (fun t => decide (t.host.out.map (fun x => (x.type, x.body)) = [(0x15, [0])])) = true ∧
      ((held .completed).sess 3).ack < (held .completed).ackLimit 3 1 ∧
      next (.acknowledge { sm 3 0 0 with ack := 1 }) (held .completed)
        (fun t => decide (t.ledger.journal.map (fun j => j.r.body) = [.retire 3 1])) = true ∧
      hd.acctByIdent 0 0 = some 0 ∧ hd.isHome 0 = true ∧
      next (.releaseAcknowledge (sm 4 0 4) 8) hd (fun t => decide ((t.acct 0).relpos = some 8)) = true ∧
      (hd.openWindow 3 0 false 0 0 3 256).isSome = true := by decide +kernel

/-- `hd` whose granule 8 reads back as another partition's. -/
def stray : State := { hd with mem := { hd.mem with granules := SMap.set hd.mem.granules 0xFE 8 1 } }

theorem wit_window_open :
    (hd.openWindow 3 0 false 0 0 3 256).any (fun x => (x.1.strayLine (x.1.window x.2).tag ((x.1.window x.2).lines 0 (x.1.window x.2).bytes)).isNone) = true ∧
      (stray.openWindow 3 0 false 0 0 3 256).any (fun x => (x.1.strayLine (x.1.window x.2).tag ((x.1.window x.2).lines 0 (x.1.window x.2).bytes)).isSome) = true ∧
      next (.windowOpen (sm 5 0 8) 0 0 3 0 256) hd (fun t => decide (t.host.out.map (fun x => x.type) = [0x16])) = true ∧
      next (.windowOpen (sm 5 0 8) 0 0 3 0 256) stray (fun t => decide (t.host.out = [] ∧ t.health.decided = some 0x0B)) = true := by decide +kernel

theorem wit_window_close :
    next (.windowClose { sm 6 0 4 with counter := 2 } (win2.key 2)) (wd 1)
      (fun t => decide ((t.window 2).st = 2 ∧ t.host.out.map (fun x => x.type) = [0x16])) = true ∧
    (wd 1).windowByKey (win2.key 2) = some 2 ∧ win2.admits 3 (hd.sess 3) = true := by decide +kernel

/-- Held under LSN 0 with its Accept record, and nothing sent. -/
def heldNow (kind : BitVec 4) (t : State) : Bool :=
  decide (t.ledger.subs.map (fun b => (b.st, b.subkind, b.ssn, b.lsn)) = [(.accepting, kind, 1, 0)] ∧ t.ledger.journal.length = 1 ∧
    t.ledger.nextLsn = 1 ∧ t.host.out = [] ∧ (t.sess 3).a = 1)

/-- A good Open body. -/
def ob : OpenBody := { seed := 1, tau := 0x3F800000, k := 1024, pi := 0x3F800000, cap := 16, pinned := 0 }

theorem wit_submissions :
    hd.submits (sm 1 1 9) = true ∧ headerOk (sm 1 1 9) 1 1 = true ∧ hd.homeOf (sm 1 1 9) = true ∧
      hd.hasRoom (sm 1 1 9) (genBody (.inline [5])).2.2 = true ∧
      next (.generate (sm 1 1 9) (.inline [5])) hd (heldNow 1) = true ∧
      hd.submits (sm 1 2 8) = true ∧ headerOk (sm 1 2 8) 1 2 = true ∧ next (.learn (sm 1 2 8) 3 4) hd (heldNow 2) = true ∧
      next (.park (sm 1 3 0)) hd (heldNow 3) = true ∧
      hd.openRefusal { sm 1 4 16 with accountId := 6 } = none ∧ hd.hasRoom (sm 1 4 16) (restoreBytes [⟨0, 0, 0⟩]) = true ∧
      next (.restore { sm 1 4 16 with accountId := 6 } [⟨0, 0, 0⟩]) hd (heldNow 4) = true ∧
      openOk ob 4 = true ∧ next (.openAccount { sm 1 5 23 with accountId := 6 } ob) hd (heldNow 5) = true ∧
      next (.closeAccount (sm 1 6 0)) hd (heldNow 6) = true := by decide +kernel

/-- Stale at ACK, a gap one beyond A + 1, a copy of an accepted one. -/
theorem wit_submission_order :
    next (.park (sm 1 3 0)) (hs { st := .ready, part := 0, key := some 0, a := 1, ack := 1 })
        (fun t => decide (t.host.out.map (fun x => (x.type, x.code)) = [(0x12, 0x81)] ∧ t.ledger.subs = [])) = true ∧
      next (.park { sm 1 3 0 with ssn := 2 }) hd (fun t => decide (t.host.out.map (fun x => (x.type, x.code)) = [(0x12, 0x82)])) = true ∧
      (held .accepted).passes (sm 1 3 0) = true ∧ ((held .accepted).sess 3).ack < 1 ∧
      next (.park (sm 1 3 0)) (held .accepted) (fun t => decide (t.host.out.map (fun x => (x.type, x.ssn)) = [(0x11, 1)] ∧ t.ledger.subs.length = 1)) = true := by
  decide +kernel

/-! ## Daylight, power and clocks -/

/-- A device with module 0 as given. -/
def mdev (x : Module) : State := { run with mods := [(0, x)] }

/-- `md` as a lit module shows it: the outputs in use of a dimension-10 device or a smaller one. -/
def seen : ModuleData := { md with lit := run.usedOutputs 0 }

theorem wit_module_presence : modSound md = true ∧ run.readsModules = true ∧
    next (.modulePresence 0 md true) run (fun t => decide ((t.module 0).st = conditionOf seen (run.usedOutputs 0) ∧ (t.module 0).data = some seen)) = true ∧
      next (.modulePresence 0 md false) run (fun t => decide ((t.module 0).st = 5)) = true ∧
      modSound { md with sumsOk := false } = false ∧
      run.recd.buffer.length < 448 ∧
      next (.modulePresence 0 { md with sumsOk := false } true) run (fun t => decide ((t.module 0).st = 1) &&
        t.recd.buffer.map (fun r => r.payload) == [.generic 0x0A 1 0 (BitVec.allOnes 64) 1 0 0]) = true ∧
      next (.modulePresence 0 md true) (mdev { fault := true }) (fun t => decide ((t.module 0).st = 6 ∧ 38 ∈ t.mgmt.asserted)) = true := by
  decide +kernel

/-- Before step 6 of Dawn nothing of a module is read (R402, R411, R515). -/
theorem wit_module_arrives : (let s : State := { run with dawn := { run.dawn with step := 4 } }
    s.readsModules = false ∧
      next (.modulePresence 0 md true) s (fun t => decide ((t.module 0).st = 0 ∧ (t.module 0).en = false ∧ (t.module 0).arrived = some (md, true))) = true) := by
  decide +kernel

/-- A lit module of good identity. -/
def lit : Module := { st := 2, pres := true, en := true, cmisOff := false, lit := 63, data := some md }

/-- Its pages with two spares used. -/
def spent : ModuleData := { md with pageB0 := [0, 0, 0, 0, 0, 0, 0, 7, 0, 0, 0, 0, 2] ++ List.replicate 115 0 }

theorem wit_module_events :
    next (.moduleRemoval 0) (mdev lit) (fun t => decide ((t.module 0).st = 0 ∧ (t.module 0).saved = some (modSerial md, 7, modBiasNow md) ∧ (t.module 0).openFib = 1)) = true ∧
      next (.moduleFault 0 [1]) (mdev lit) (fun t => decide ((t.module 0).st = 6 ∧ (t.module 0).en = false ∧ 38 ∈ t.mgmt.asserted)) = true ∧
      laneModule 0 = 0 ∧ next (.openFibre 0) (mdev lit) (fun t => decide ((t.module 0).st = 5 ∧ (t.module 0).lit = 0)) = true ∧
      next (.darknessCheck 0 false true) (mdev { lit with cmisOff := true }) (fun t => decide ((t.module 0).st = 6 ∧ (t.module 0).pathFail = 1)) = true ∧
      same (.darknessCheck 0 true true) (mdev { lit with cmisOff := true }) = true ∧
      next (.moduleMonitorPoll 0 spent) (mdev lit) (fun t => decide ((t.module 0).st = 4)) = true ∧
      next .daylightHistorySave (mdev lit) (fun t => decide ((t.module 0).saved = some (modSerial md, 7, modBiasNow md))) = true ∧
      next (.relightProbeEnd 0 0) (mdev { lit with st := 5, probing := true }) (fun t => decide ((t.module 0).probing = false ∧ (t.module 0).st = conditionOf seen (run.usedOutputs 0))) = true ∧
      next (.relightProbeEnd 0 1) (mdev { lit with st := 5, probing := true }) (fun t => decide ((t.module 0).en = false)) = true ∧
      next (.relightProbeEnd 0 0) (mdev { lit with st := 5, probing := true, data := some { md with sumsOk := false } }) (fun t => decide ((t.module 0).st = 1 ∧ (t.module 0).en = false)) = true := by
  decide +kernel

theorem wit_power_fails :
    run.power.rails = true ∧ run.power.resetPin = false ∧
      next (.underVoltage 9) run (fun t => decide (t.power.failed = true ∧ t.power.underV = [(9, 1)] ∧ t.mayAssign = false)) = true ∧
      next .powerFailLatch run (fun t => decide (t.power.failed = true ∧ t.power.failFrame = some 0 ∧ 54 ∈ t.mgmt.asserted)) = true ∧
      same .powerFailLatch (pw (fun p => { p with failed := true })) = true ∧
      next .powerFailSilence { pw (fun p => { p with failFrame := some 4 }) with fu := { run.fu with frame := 20 }, mods := [(0, lit)] }
        (fun t => decide (t.health.silent = true ∧ (t.module 0).en = false)) = true ∧
      next .currentLimitEntry run (fun t => decide (t.power.request = 544 ∧ 56 ∈ t.mgmt.asserted)) = true ∧
      next .currentLimitExit (pw (fun p => { p with curLimit := true, request := 544 })) (fun t => decide (t.power.request = 0)) = true ∧
      next (.hardTrip true) { run with mods := [(0, lit)] } (fun t => decide (t.power.tripped = true ∧ t.health.silent = true ∧ (t.module 0).en = false)) = true ∧
      next .powerOff { run with spad := [(0, 1)] } (fun t => decide (t.power.rails = false ∧ t.spad = [] ∧ t.dawn.step = 0)) = true := by
  decide +kernel

theorem wit_sensors :
    next (.sensorConversionSet (List.replicate 127 (some 800) ++ [some 816]) [some 720]) run
        (fun t => decide (t.power.tdie = some ((SMap.get t.power.readings none 127).getD 0) ∧ 127 ∉ t.power.faulty ∧ (t.stack 0).temp = 720 ∧ t.stack 1 = run.stack 1)) = true ∧
      next (.sensorConversionSet (List.replicate 127 (some 800) ++ [none]) []) run (fun t => decide (127 ∈ t.power.faulty)) = true := by decide +kernel

theorem wit_votes :
    next (.powerMean 1600000) run (fun t => decide (t.power.powerVote = 0)) = true ∧
      next (.powerMean 1600001) run (fun t => decide (t.power.powerVote = 1)) = true ∧
      next (.powerMean 1800001) run (fun t => decide (t.power.powerVote = 2)) = true ∧
      next (.powerMean 2000001) run (fun t => decide (t.power.powerVote = 3)) = true ∧
      next .voteEnforce { pw (fun p => { p with thermVote := 2, voteSets := 500 }) with fu := { run.fu with vote := 2 } }
        (fun t => decide (t.fu.enforced = true ∧ t.power.enforcements = 1)) = true ∧
      (pw (fun p => { p with thermVote := 2, tdie := some 800 })).reached2 2 3 = false ∧
      next .voteRelease (pw (fun p => { p with thermVote := 2, tdie := some 800, coolSets := some 1000 })) (fun t => decide (t.power.thermVote = 1)) = true := by
  decide +kernel

theorem wit_references :
    next (.referenceLoss .refclk) run (fun t => decide (t.power.pllIn = 2 ∧ t.power.losses = 1)) = true ∧
      next (.referenceReturn .refclk) (pw (fun p => { p with refclk := false, pllIn := 2 })) (fun t => decide (t.power.pllIn = 1)) = true ∧
      next (.referenceLoss .frameIn) { run with fu := { run.fu with master := true } } (fun t => decide (t.power.frameIn = false ∧ t.power.pllIn = 1)) = true ∧
      next (.holdoverCorrection 400) run (fun t => decide (t.power.holdTemp = some 400)) = true ∧
      next (.crossingTimeout 3 0) run (fun t => (t.part 0).abort.isSome && decide (t.power.crossings = 1)) = true := by decide +kernel

/-! ## Management complex -/

/-- `run` with the management complex changed. -/
def mg (f : Mgmt → Mgmt) : State := { run with mgmt := f run.mgmt }

/-- `run` with the housekeeping ADC as given. -/
def ad (a : Adc) : State := mg (fun m => { m with adc := a })

/-- A byte access of hart 0 to the watchdog's service register. -/
def svc : CoreAcc := { hart := 0, addr := BitVec.ofNat 56 (0x20010000 + Config.serviceReg.val), size := 0 }

theorem wit_watchdog_service : run.hartRuns svc.hart = true ∧ svc.addr.toNat = 0x20010000 + Config.serviceReg.val ∧ svc.size = 0 := by
  have := Config.serviceReg.isLt
  refine ⟨by decide +kernel, ?_, rfl⟩
  simp only [svc, BitVec.toNat_ofNat]
  omega

theorem wit_watchdog :
    run.housekeeping = true ∧
      next .watchdogWarning (mg (fun m => { m with wdOn := true })) (fun t => decide (t.mgmt.wdWarn = 1 ∧ t.mgmt.wdWarned = true ∧ 49 ∈ t.mgmt.asserted)) = true ∧
      next .watchdogExpiry (mg (fun m => { m with wdOn := true, wdWarned := true })) (fun t => decide (t.mgmt.wdFail = true ∧ t.health.silent = true)) = true ∧
      next .housekeepingTimer run (fun t => decide (48 ∈ t.mgmt.asserted ∧ t.mgmt.adc = run.mgmt.adc)) = true := by decide +kernel

/-- Sources 9, 30 and 31 asserted for hart 0, the last two of priority 5. -/
def intr : State := mg (fun m => { m with asserted := [9, 30, 31], prio := [(9, 2), (30, 5), (31, 5)], target := [(9, 1), (30, 1), (31, 1)]
                                          thresh := [(0, 1)] })

/-- An access of hart 0 to the CLAIM register of hart 0, and one outside the map. -/
def claim0 : CoreAcc := { hart := 0, addr := 0x20001004, size := 2 }
def nowhere : CoreAcc := { claim0 with addr := 0x20000 }

theorem wit_interrupts :
    intr.hartRuns 0 = true ∧ intr.mgmt.eligible 0 30 = true ∧ intr.mgmt.eligible 0 9 = true ∧ intr.mgmt.asserted.Pairwise (· < ·) ∧
      next (.interruptClaim claim0) intr (fun t => decide (SMap.get t.mgmt.core 0 0 = 30 ∧ t.mgmt.service = [(30, 0)])) = true ∧
      next (.interruptClaim claim0) run (fun t => decide (SMap.get t.mgmt.core 0 0 = 0 ∧ t.mgmt.spurious = 1 ∧ t.mgmt.service = [])) = true ∧
      next (.interruptCompletion claim0 30) (mg (fun m => { m with service := [(30, 0)] })) (fun t => decide (t.mgmt.service = [])) = true ∧
      next (.interruptCompletion claim0 31) (mg (fun m => { m with service := [(30, 0)] })) (fun t => decide (t.mgmt.stray = 1 ∧ t.mgmt.service = [(30, 0)])) = true := by
  decide +kernel

theorem wit_core_access_fault : run.hartRuns nowhere.hart = true ∧ (∀ r ∈ coreMap, r.2.2 < nowhere.addr.toNat ∨ nowhere.addr.toNat < r.2.1) ∧
    next (.interruptClaim nowhere) run (fun t => decide (SMap.get t.mgmt.trap none 0 = some (0x20000, false))) = true ∧
    next (.interruptCompletion nowhere 3) run (fun t => decide (SMap.get t.mgmt.trap none 0 = some (0x20000, true))) = true := by decide +kernel

theorem wit_no_interrupt : ∀ k, run.mgmt.eligible 0 k = false := fun _ => rfl

theorem wit_adc :
    next (.adcTrigger false 0) (ad { trig := 2, last := 3, next := 3, seq := [(3, 9)], settled := true })
        (fun t => decide (t.mgmt.adc.running = some (some 3, 9, true) ∧ t.mgmt.adc.next = 0)) = true ∧
      (0 : BitVec 16).toNat + 1 ≤ 1 ∧
      next (.adcTrigger true 0) (ad { trig := 1, ticks := 1, waiting := true, running := some (none, 0, true) })
        (fun t => decide (t.mgmt.adc.missed = 1 ∧ 46 ∈ t.mgmt.asserted)) = true ∧
      next (.adcConversionEnd 0x123) (ad { running := some (some 3, 2, true), valid := true })
        (fun t => decide (t.mgmt.adc.valid = true ∧ t.mgmt.adc.ovr = true ∧ t.mgmt.adc.entry = 3 ∧ t.mgmt.adc.code = adcCode 2 0x123)) = true ∧
      next (.adcConversionEnd 0x123) (ad { running := some (none, 2, true) }) (fun t => decide (t.mgmt.adc.latch = adcCode 2 0x123 ∧ t.mgmt.adc.valid = false)) = true ∧
      next (.adcDataRead { claim0 with addr := 0x20020008 }) (ad { valid := true, code := 0x123 })
        (fun t => decide (t.mgmt.adc.valid = false ∧ SMap.get t.mgmt.core 0 0 = (ad { valid := true, code := 0x123 }).mgmt.adc.data.toNat)) = true ∧
      next (.adcUrgentRequest 7 0) (ad { running := some (none, 2, true), due := [(7, false, 1, 0, 0, 0)] })
        (fun t => decide (t.mgmt.adc.urgent = [7] ∧ t.mgmt.adc.due = [(7, true, 1, 0, 0, 0)])) = true ∧
      next .adcReferenceSettled run (fun t => decide (t.mgmt.adc.settled = true)) = true := by decide +kernel

/-- A management request to an address that is not aligned. -/
def req : MgmtReq := { destTile := 5, destPort := 1, srcTile := 313, id := 4, addr := 12, data := 8, rsvd := 0 }

/-- What stands in VC3. -/
def vc3 (t : State) : List (Nat × Nat × Nat × Tag × MeshMsg) := t.mesh.vc3.map Msg.says

theorem wit_management_requests :
    run.firmware = true ∧ run.mgmt.requests.length < 16 ∧ run.mgmt.requests = [] ∧
      next (.managementRead req 0 {}) run (fun t => vc3 t == [(5, 313, 1, 0xFF, .mgmtResp (mgmtWord 0 12 4 1 0))] &&
        decide (t.mgmt.requests = [(4, 5, 1, 0, none)])) = true ∧
      next (.managementWrite req 0 {}) run (fun t => vc3 t == [(5, 313, 1, 0xFF, .mgmtResp (mgmtWord 8 12 4 1 0))] && decide (t.mgmt.regs = [])) = true ∧
      next (.managementWriteReadback req 0 {}) run (fun t => decide (t.mgmt.requests = [(4, 5, 1, 0, some 8)])) = true ∧
      next (.managementWrite { req with addr := 16, srcTile := 5 } 0 {}) run (fun t => decide (t.mgmt.regs = [] ∧ t.mesh.vc3 = [] ∧ t.mgmt.requests = [])) = true := by
  decide +kernel

/-- `run` with request 4 under way since cycle 0. -/
def asked (l : List Msg) : State := { mg (fun m => { m with requests := [(4, 5, 1, 0, none)] }) with mesh := run.mesh.setChan .vc3 l }

theorem wit_management_responses :
    ((asked [msg 5 313 1 (.mgmtResp (mgmtWord 8 12 4 1 0))]).takeMsg .vc3 970 (isResponse 4)).isSome = true ∧
      next (.managementResponse 4 970 {}) (asked [msg 5 313 1 (.mgmtResp (mgmtWord 8 12 4 1 0))])
        (fun t => decide (t.mgmt.response = some (4, 12, 8, 1) ∧ t.mgmt.requests = [] ∧ t.mesh.vc3 = [])) = true := by decide +kernel

theorem wit_management_timeout : mgmtBound 5 ≤ (asked []).now 50000 ∧
    next (.managementRequestTimeout 4 50000) (asked []) (fun t => (t.part 0).abort.isSome) = true ∧
      next (.managementRequestTimeout 4 50000) (asked []) (fun t => decide (t.mgmt.timeouts = 1 ∧ t.mgmt.requests = [])) = true := by
  decide +kernel

theorem wit_flash_and_entropy :
    next .flashWriteEnd (mg (fun m => { m with fwriting := some .counts, fqueue := [.counts, .flag] }))
        (fun t => decide (t.mgmt.fwriting = bestFlash [.counts, .flag] false ∧ 50 ∈ t.mgmt.asserted)) = true ∧
      (mg (fun m => { m with ferase := [(7, .recorder, false)] })).suspendErases.mgmt.ferase.find? (fun x => !x.2.2) = some (7, .recorder, false) ∧
      next .flashEraseEnd (mg (fun m => { m with ferase := [(7, .recorder, false)] })) (fun t => decide (t.mgmt.ferase = [] ∧ t.mgmt.fcounts = [(7, 1)])) = true ∧
      run.mgmt.entropy = true ∧ next .entropyHealthFailure run (fun t => decide (t.mgmt.entropy = false ∧ 53 ∈ t.mgmt.asserted)) = true := by
  decide +kernel

theorem wit_attestation :
    next .getVersion run (fun t => decide (t.mgmt.spdm = [.version])) = true ∧
      next .getCapabilities run (fun t => decide (t.mgmt.spdm = [.capabilities])) = true ∧
      next (.negotiateAlgorithms true) run (fun t => decide (t.mgmt.spdm = [.algorithms])) = true ∧
      next .getDigests run (fun t => decide (t.mgmt.spdm = [.digests])) = true ∧
      next (.getCertificate 0 4 8) run (fun t => decide (t.mgmt.spdm = [.certificate 4 8])) = true ∧
      next (.challenge 0 9) run (fun t => decide (t.mgmt.spdm = [.challengeAuth 9])) = true ∧
      next (.getMeasurements 5 9) run (fun t => decide (t.mgmt.spdm.length = 1 ∧ 34 ∈ t.mgmt.asserted)) = true ∧
      next (.unsupportedRequest 3) run (fun t => decide (t.mgmt.spdm = [.unsupported])) = true := by decide +kernel

/-! ## Recorder, reset and Dawn -/

/-- A recorder entry. -/
def er (n : Nat) : ERec := { seq := n, hours := 0, cycles := 0, frame := 0, flock := false, cont := false, payload := .cont 0 }

theorem wit_recorder :
    (pw (fun p => { p with failed := true })).flushDue = true ∧
      next .flushStart { pw (fun p => { p with failed := true }) with recd := { run.recd with buffer := [er 0] } }
        (fun t => decide (t.recd.flushing = some 1 ∧ .recorder ∈ t.mgmt.fqueue)) = true ∧
      next .flushStart { pw (fun p => { p with failed := true }) with recd := { run.recd with buffer := [er 0], flushing := some 0 } }
        (fun t => decide (t.recd.again = true)) = true ∧
      next .flushEnd { run with recd := { run.recd with buffer := [er 0, er 1], flushing := some 1, next := 2 } }
        (fun t => decide (t.recd.buffer = [er 1] ∧ t.recd.flushes = 1 ∧ t.recd.next = 2 ∧ t.recd.flash = [er 0])) = true := by decide +kernel

theorem wit_lifetime :
    run.health.widened = true ∧
      next .firstUseEnd { run with health := { run.health with firstUse := 4096 } } (fun t => decide (t.health.widened = false)) = true ∧
      same .firstUseEnd { run with health := { run.health with firstUse := 4095 } } = true ∧
      next .hoursSave run (fun t => decide (t.dawn.hours = 4096 ∧ t.dawn.hoursSaved = 4096 ∧ .counts ∈ t.mgmt.fqueue)) = true ∧
      next (.tapInstruction .idcode) run (fun t => decide (t.mgmt.tap = .idcode)) = true ∧
      next (.tapInstruction (.recover [7])) (mg (fun m => { m with boot := { m.boot with stopped := true } })) (fun t => decide (t.mgmt.tap = .recover [7])) = true ∧
      next (.tapInstruction .highz) run (fun t => decide (t.mgmt.tap = .bypass)) = true ∧
      next (.tapInstruction .highz) (mg (fun m => { m with boot := { m.boot with stopped := true } })) (fun t => decide (t.mgmt.tap = .highz)) = true := by
  decide +kernel

theorem wit_reset_and_dawn_start :
    next .resetAssertion { run with spad := [(0, 1)] } (fun t => decide (t.power.resetPin = true ∧ t.spad = [] ∧ t.dawn.step = 0)) = true ∧
      run.flushDue = false ∧ run.recd.flushing = none ∧
      next .resetAssertion { pw (fun p => { p with failed := true }) with recd := { run.recd with buffer := [er 0] } }
        (fun t => decide (t.recd.flash = [er 0] ∧ t.recd.buffer = [])) = true ∧
      next .dawnStart { State.reset with dawn := { State.reset.dawn with hoursSaved := 5 } }
        (fun t => decide (t.dawn.step = 1 ∧ t.dawn.cycles = 1 ∧ t.dawn.hours = 4101 ∧ t.power.resetPin = false)) = true ∧
      next .dawnStart { State.reset with dawn := { State.reset.dawn with request := 1, hoursSaved := 5 }, spad := [(32768, 1)] }
        (fun t => decide (t.dawn.step = 1 ∧ t.dawn.warm = true ∧ t.dawn.hours = 4101 ∧ t.spad = [(32768, 1)])) = true := by decide +kernel

/-- What a good Dawn brings back. -/
def din : DawnIn :=
  { ms := 0, torn := 0, bootTorn := 0, trips := 3, slotA := ⟨true, true, 0, true, 0, 0, 0⟩, slotB := ⟨true, true, 0, true, 0, 0, 0⟩, tables := 7, entropyOk := true
    stacksOk := BitVec.allOnes 16, setsBad := [], checkFail := [], figures := [], partner := true, covers := false, partnerAck := none
    replica := [], partnerOwn := [] }

/-- A device of no dimension with this Dawn step last completed. -/
def dn (n : Nat) : State :=
  { State.reset with power := { State.reset.power with resetPin := false, tdie := some 400 }, dawn := { State.reset.dawn with step := n }
                     fu := { State.reset.fu with acting := true }, links := [(0, { st := .active }), (1, { st := .active }), (2, { st := .active }), (10, { st := .failed })] }

/-- The command takes step `n` to the next. -/
def goes (c : Instr) (n : Nat) : Bool := next c (dn n) (fun t => decide (t.dawn.step = n + 1))

theorem wit_dawn_steps :
    (dn 1).alive = true ∧ (dn 1).dawn.stopped = false ∧ (dn 1).health.st < 3 ∧ (dn 1).power.tripped = false ∧
      goes (.dawnStepComplete din) 1 = true ∧ ((dn 2).mgmt.boot.load 0).any (fun b => slotGood (dawnSlot din b.choose.2) b.choose.1) = true ∧ goes (.dawnStepComplete din) 2 = true ∧
      next (.dawnStepComplete { din with trips := 1 }) (dn 2) (fun t => decide (t.dawn.step = 2 ∧ t.dawn.stopped = true ∧ t.power.trips = 1)) = true ∧
      (let d := { din with slotA := ⟨false, true, 0, true, 0, 0, 0⟩, slotB := ⟨true, true, 0, false, 0, 0, 0⟩ }
       ((dn 2).mgmt.boot.load 0).any (fun b => !slotGood (dawnSlot d b.choose.2) b.choose.1 && !slotGood (dawnSlot d (1 - b.choose.2)) b.choose.1) = true ∧
       next (.dawnStepComplete d) (dn 2) (fun t => decide (t.dawn.step = 2 ∧ t.dawn.stopped = true ∧ t.mgmt.boot.stopped = true)) = true) ∧
      goes (.dawnStepComplete din) 3 = true ∧ goes (.dawnStepComplete din) 4 = true ∧ (dn 5).linksReady = true ∧ goes (.dawnStepComplete din) 5 = true ∧
      same (.dawnStepComplete din) { dn 5 with fu := State.reset.fu } = true ∧ goes (.dawnStepComplete din) 6 = true ∧ goes (.dawnStepComplete din) 7 = true ∧ goes (.dawnStepComplete din) 8 = true ∧
      same (.dawnStepComplete { din with partner := false }) (dn 8) = true ∧ goes (.dawnStepComplete din) 9 = true ∧ goes (.dawnStepComplete din) 10 = true ∧
      same (.dawnStepComplete din) (dn 11) = true := by decide +kernel

theorem wit_dawn_flagged :
    next (.dawnStepComplete din) { dn 3 with health := { (dn 3).health with flag := true } } (fun t => decide (t.dawn.step = 4 ∧ t.health.st = 4)) = true ∧
      next (.dawnStepComplete din) { dn 3 with health := { (dn 3).health with flag := true, clearing := true } } (fun t => decide (t.health.st = 0)) = true ∧
      next (.dawnStepComplete { din with covers := true }) (dn 8) (fun t => decide (t.dawn.step = 9 ∧ t.ledger.mode = 2)) = true := by
  decide +kernel

/-- `dn` whose steps run again because frame lock was lost in service (R438, log entry 129). -/
def again (n : Nat) : State := { dn n with dawn := { (dn n).dawn with regain := true, served := true }, accts := [(0, { st := .active })] }

theorem wit_dawn_regain :
    next (.dawnStepComplete din) (again 8) (fun t => decide (t.dawn.step = 9 ∧ t.accts = (again 8).accts ∧ t.ledger = (again 8).ledger)) = true ∧
      next (.dawnStepComplete din) (again 9) (fun t => decide (t.dawn.step = 10 ∧ t.parts = (again 9).parts)) = true ∧
      next (.dawnStepComplete din) (again 10) (fun t => decide (t.dawn.step = 11 ∧ t.dawn.regain = false ∧ t.host = (again 10).host)) = true := by
  decide +kernel

theorem wit_dawn_retries :
    next .frameLockTimeout { dn 5 with fu := State.reset.fu }
        (fun t => decide (t.dawn.step = 5 ∧ t.dawn.stopped = true ∧ t.dawn.repeats = 1 ∧ (t.link 10).st = .training)) = true ∧
      next .ledgerPartnerRetry (dn 8) (fun t => decide (t.ledger.waited = true)) = true ∧
      same .ledgerPartnerRetry { dn 8 with ledger := { (dn 8).ledger with waited := true } } = true := by decide +kernel

/-! ## The object dictionary -/

theorem wit_dictionary : entriesOf 0x1100 ≠ [] ∧ entriesOf 0x0FFF = [] ∧ (∀ e ∈ entriesOf 0x1100, e.sub ≠ 0xFE) ∧
    findEntry 0x0FFF 1 = none ∧ run.firmware = true ∧
    (run.readItem (us 1 []) (rd 0x0FFF 1)).2.status = 1 := by decide +kernel

end Sys2Proof.Tests
end

section
/-! SUPPORT. What events, faults, link failures and the light of the ports leave alone of the Daylight modules, and what an event record
leaves in the recorder. -/

namespace Sys2Proof.Machine

variable (s : State)

/-! ## Event records (R499-R505) -/

theorem State.raise_frame (kind object : Nat) : s.raise kind object = { s with mgmt := (s.raise kind object).mgmt } := by
  unfold State.raise
  split <;> rfl

theorem State.record_frame (p : Payload) : s.record p = { s with recd := (s.record p).recd } := by
  unfold State.record
  split <;> rfl

/-- A generic record changes the recorder and, with its source, the management complex. -/
theorem State.event_frame (kind code object : Nat) (n : Option (BitVec 48)) (after before : Nat) (words : BitVec 160) :
    s.event kind code object n after before words =
      { s with
        recd := (s.event kind code object n after before words).recd
        mgmt := (s.event kind code object n after before words).mgmt } := by
  unfold State.event
  rw [State.record_frame, State.raise_frame]

@[simp] theorem State.event_mods (kind code object : Nat) (n : Option (BitVec 48)) (after before : Nat) (words : BitVec 160) :
    (s.event kind code object n after before words).mods = s.mods := by
  rw [State.event_frame]

@[simp] theorem State.event_links (kind code object : Nat) (n : Option (BitVec 48)) (after before : Nat) (words : BitVec 160) :
    (s.event kind code object n after before words).links = s.links := by
  rw [State.event_frame]

@[simp] theorem State.module_event (kind code object : Nat) (n : Option (BitVec 48)) (after before : Nat) (words : BitVec 160) (k : Nat) :
    (s.event kind code object n after before words).module k = s.module k := by
  rw [State.event_frame]
  rfl

/-- With room in the buffer, a generic record joins it as the last one (R504, R505). -/
theorem State.event_joins_buffer (kind code object : Nat) (after before : Nat) (words : BitVec 160) (h : s.recd.buffer.length < 448) :
    ∃ r, (s.event kind code object none after before words).recd.buffer[s.recd.buffer.length]? = some r ∧
      r.payload = .generic kind code object (BitVec.allOnes 64) (BitVec.ofNat 32 after) (BitVec.ofNat 32 before) words := by
  have hr : (s.raise kind object).recd = s.recd := by rw [State.raise_frame]
  have ha : (s.raise kind object).admits kind = true := by simp [State.admits, hr, h]
  simp only [State.event, State.record, Payload.kind, ha, if_true, State.pushRec, hr, List.getElem?_concat_length]
  exact ⟨_, rfl, rfl⟩

/-! ## Faults, aborts and the links' failure leave the modules alone -/

theorem foldl_mods {α : Type} (g : State → α → State) (h : ∀ t a, (g t a).mods = t.mods) (l : List α) (s : State) :
    (l.foldl g s).mods = s.mods := by
  induction l generalizing s with
  | nil => rfl
  | cons a t ih => rw [List.foldl_cons, ih, h]

@[simp] theorem State.twilight_mods (cause : Nat) : (s.twilight cause).mods = s.mods := by
  unfold State.twilight
  dsimp only
  (repeat' split) <;> simp

@[simp] theorem State.countFault_mods (f : FaultInfo) : (s.countFault f).mods = s.mods := by
  unfold State.countFault
  dsimp only
  (repeat' split) <;> simp

@[simp] theorem State.setReport_mods (f : FaultInfo) (r : Report) : (s.setReport f r).mods = s.mods := by
  unfold State.setReport
  split <;> rfl

@[simp] theorem State.report_mods (f : FaultInfo) : (s.report f).mods = s.mods := by
  unfold State.report
  dsimp only
  (repeat' split) <;> simp [State.sendMsg]

@[simp] theorem State.flood_mods (except : Option Nat) (m : LinkMsg) : (s.flood except m).mods = s.mods := by
  refine foldl_mods _ (fun t l => ?_) _ _
  unfold State.sendOn
  (repeat' split) <;> simp

@[simp] theorem State.endHoldWith_mods (n : Nat) (ws : List (TileNo × Nat × Tag)) : (s.endHoldWith n ws).mods = s.mods := by
  exact foldl_mods (fun t (w : TileNo × Nat × Tag) => t.updTile w.1.toNat (fun x => x.claim w.2.1)) (fun t w => rfl) ws s

@[simp] theorem State.dropWaits_mods (p : Nat) : (s.dropWaits p).mods = s.mods := by
  unfold State.dropWaits
  dsimp only
  (repeat' split) <;> simp

@[simp] theorem State.abortHere_mods (p frame : Nat) (v : VariantSel) (streams : Line) : (s.abortHere p frame v streams).mods = s.mods := by
  unfold State.abortHere
  dsimp only
  (repeat' split) <;> simp

@[simp] theorem State.abortAll_mods (code : BitVec 8) (v : VariantSel) (ps : List Nat) : (s.abortAll code v ps).mods = s.mods := by
  unfold State.abortAll
  split
  · rfl
  · exact foldl_mods _ (fun t p => by simp [State.abortOne]) _ _

@[simp] theorem State.linkFail_mods (l : Nat) : (s.linkFail l).mods = s.mods := by
  unfold State.linkFail
  dsimp only
  (repeat' split) <;> simp [State.faultWide]

/-! ## Light and its loss (R401) leave the modules alone -/

@[simp] theorem State.lightLinks_mods : s.lightLinks.mods = s.mods := by
  refine foldl_mods _ (fun t l => ?_) _ _
  dsimp only
  (repeat' split) <;> simp

@[simp] theorem State.releaseGranules_mods (p : Nat) : (s.releaseGranules p).mods = s.mods := by
  unfold State.releaseGranules
  split <;> rfl

@[simp] theorem State.endRdma_mods (n : Nat) : (s.endRdma n).mods = s.mods := by
  unfold State.endRdma
  split
  · rfl
  · simp

@[simp] theorem State.portDown_mods (p : Nat) : (s.portDown p).mods = s.mods := by
  refine foldl_mods _ (fun t n => ?_) _ _
  exact State.endRdma_mods t n

@[simp] theorem State.lightChanged_mods : s.lightChanged.mods = s.mods := by
  refine (foldl_mods _ (fun t p => ?_) _ _).trans s.lightLinks_mods
  (repeat' split) <;> simp

@[simp] theorem State.module_lightChanged (k : Nat) : s.lightChanged.module k = s.module k := by
  rw [State.module_get, State.lightChanged_mods, State.module_get]

@[simp] theorem State.module_setModule_same (m : Nat) (v : Module) : (s.setModule m v).module m = v :=
  SMap.get_set_same s.mods {} m v

theorem State.module_setModule_other (m k : Nat) (v : Module) (h : k ≠ m) : (s.setModule m v).module k = s.module k :=
  SMap.get_set_other s.mods {} m k v h

end Sys2Proof.Machine
end

section
/-! SUPPORT. What the operations on Daylight modules make of a module: darkening, judging, lighting, the history and the removals that
go on (R401-R410). -/

namespace Sys2Proof.Machine

/-! ## Condition (R404, R405) -/

theorem two_le_conditionOf (d : ModuleData) (used : BitVec 6) : 2 ≤ conditionOf d used := by
  unfold conditionOf
  (repeat' split) <;> omega

/-- With every used output lit, a module's condition is not Failed. -/
theorem conditionOf_ne_failed (d : ModuleData) (used : BitVec 6) (h : d.lit &&& used = used) : conditionOf d used ≠ 6 := by
  unfold conditionOf
  rw [if_neg (fun hc => hc.1 h)]
  (repeat' split) <;> omega

/-! ## Darkening (R407) -/

/-- A dark module stays as it is when it is darkened again. -/
@[simp] theorem Module.dark_dark (x : Module) : x.dark.dark = x.dark := by
  simp only [Module.dark]
  congr 1
  (repeat' split) <;> omega

/-- A module whose checks fail is dark and Unready. -/
@[simp] theorem State.module_unsupported (s : State) (m : Nat) :
    (s.unsupported m).module m = { (s.module m).dark with st := 1, removing := false } := by
  simp [State.unsupported]

@[simp] theorem State.unsupported_links (s : State) (m : Nat) : (s.unsupported m).links = s.links := by
  simp [State.unsupported]

/-- A module whose checks fail changes the module, the recorder and the interrupt sources only. -/
theorem State.unsupported_frame (s : State) (m : Nat) :
    s.unsupported m =
      { s with mods := (s.unsupported m).mods, recd := (s.unsupported m).recd, mgmt := (s.unsupported m).mgmt } := by
  unfold State.unsupported
  rw [State.event_frame]
  rfl

/-- A module whose lanes lost their light through an open fibre (R407): dark, with one more event counted. -/
def Module.opened (x : Module) : Module := { x.dark with openFib := bump32 x.openFib }

@[simp] theorem Module.opened_dark (x : Module) : x.opened.dark = x.opened :=
  congrArg (fun y : Module => { y with openFib := bump32 x.openFib }) x.dark_dark

/-! ## Judging and lighting (R402, R405, R408) -/

@[simp] theorem State.module_enterState (s : State) (m old new k : Nat) : (s.enterState m old new).module k = s.module k := by
  unfold State.enterState
  split <;> simp

/-- Which outputs are used is a matter of the dimension, not of the modules (R400). -/
@[simp] theorem State.usedOutputs_setModule (s : State) (m k : Nat) (v : Module) : (s.setModule m v).usedOutputs k = s.usedOutputs k := rfl

/-- A judged module never gets a better state. -/
theorem State.judge_st (s : State) (m : Nat) (d : ModuleData) :
    ((s.judge m d).module m).st =
      max (s.module m).st (conditionOf { d with lit := d.lit &&& s.usedOutputs m } (s.usedOutputs m)) := by
  simp only [State.judge, State.module_lightChanged, State.module_enterState, State.module_setModule_same]
  split <;> rfl

theorem State.judge_data (s : State) (m : Nat) (d : ModuleData) :
    ((s.judge m d).module m).data = some { d with lit := d.lit &&& s.usedOutputs m } := by
  simp only [State.judge, State.module_lightChanged, State.module_enterState, State.module_setModule_same]
  split <;> rfl

/-- A judged module that has not failed keeps its lasers as they are. -/
theorem State.module_judge_of_ne_failed (s : State) (m c : Nat) (d : ModuleData)
    (hc : max (s.module m).st (conditionOf { d with lit := d.lit &&& s.usedOutputs m } (s.usedOutputs m)) = c) (h : c ≠ 6) :
    (s.judge m d).module m =
      { s.module m with data := some { d with lit := d.lit &&& s.usedOutputs m }, lit := d.lit &&& s.usedOutputs m, st := c } := by
  simp only [State.judge, State.module_lightChanged, State.module_enterState, State.module_setModule_same, hc, if_neg h]

/-- A sound module that is lit at full power has every used output lit and the state that its condition gives. -/
theorem State.module_light (s : State) (m : Nat) (d : ModuleData) (h : modSound d = true) :
    (s.light m d).module m =
      { s.module m with
        st := conditionOf { d with lit := s.usedOutputs m } (s.usedOutputs m), data := some { d with lit := s.usedOutputs m }
        lit := s.usedOutputs m, en := true, cmisOff := false, probing := false, removing := false } := by
  have hused : (0x3F : BitVec 6) &&& s.usedOutputs m = s.usedOutputs m := BitVec.allOnes_and
  have hcond := conditionOf_ne_failed { d with lit := s.usedOutputs m } (s.usedOutputs m) BitVec.and_self
  unfold State.light
  dsimp only
  rw [if_pos h, State.module_judge_of_ne_failed (h := hcond)]
  · simp only [State.module_setModule_same, State.usedOutputs_setModule, hused]
  · simp only [State.module_setModule_same, State.usedOutputs_setModule, hused]
    exact max_eq_right (two_le_conditionOf _ _)

theorem State.light_of_unsound (s : State) (m : Nat) (d : ModuleData) (h : modSound d = false) : s.light m d = s.unsupported m := by
  simp [State.light, h]

/-! ## History (R403) -/

/-- A module whose history, where it has data, is in flash. -/
def Module.withHistory (x : Module) : Module :=
  match x.data with
  | none => x
  | some d => { x with saved := some (modSerial d, modHours d, modBiasNow d) }

theorem Module.withHistory_of_data (x : Module) (d : ModuleData) (h : x.data = some d) :
    x.withHistory = { x with saved := some (modSerial d, modHours d, modBiasNow d) } := by
  simp [Module.withHistory, h]

@[simp] theorem Module.withHistory_withHistory (x : Module) : x.withHistory.withHistory = x.withHistory := by
  cases h : x.data <;> simp [Module.withHistory, h]

@[simp] theorem Module.withHistory_openFib (x : Module) : x.withHistory.openFib = x.openFib := by
  unfold Module.withHistory
  split <;> rfl

theorem State.module_saveHistory (s : State) (m k : Nat) :
    (s.saveHistory m).module k = if k = m then (s.module k).withHistory else s.module k := by
  unfold State.saveHistory
  split
  next hd =>
    split
    · subst_vars
      simp [Module.withHistory, hd]
    · rfl
  next d hd =>
    rw [State.module_flashWrite_of]
    split
    next hk => rw [hk, State.updModule, State.module_setModule_same, Module.withHistory_of_data _ d hd]
    next hk => exact State.module_setModule_other _ _ _ _ hk

@[simp] theorem State.saveHistory_links (s : State) (m : Nat) : (s.saveHistory m).links = s.links := by
  unfold State.saveHistory
  split <;> rfl

/-- The histories of several modules saved: those modules have theirs in flash, the others are as before. -/
theorem State.module_foldl_saveHistory (l : List Nat) (s : State) (k : Nat) :
    (l.foldl (fun t m => t.saveHistory m) s).module k = if k ∈ l then (s.module k).withHistory else s.module k := by
  induction l generalizing s with
  | nil => simp
  | cons m l ih =>
    rw [List.foldl_cons, ih, State.module_saveHistory]
    by_cases hm : k = m <;> by_cases hl : k ∈ l <;> simp [hm, hl]

theorem State.foldl_saveHistory_links (l : List Nat) (s : State) : (l.foldl (fun t m => t.saveHistory m) s).links = s.links := by
  induction l generalizing s with
  | nil => rfl
  | cons m l ih => rw [List.foldl_cons, ih, State.saveHistory_links]

/-! ## Removals that go on (R410) -/

/-- One removal that goes on leaves a dark module as it is, but for its part in the removal. -/
theorem State.module_advanceRemoval_of_dark (s : State) (m k : Nat) (h : (s.module k).dark = s.module k) :
    ∃ r w, (s.advanceRemoval m).module k = { s.module k with removing := r, waitPorts := w } := by
  have hports (l : List Nat) : (l.foldl (fun t p => t.portDown p) s).mods = s.mods := foldl_mods _ (fun t p => by simp) l s
  by_cases hk : k = m
  · subst hk
    unfold State.advanceRemoval
    dsimp only
    split
    · exact ⟨_, _, rfl⟩
    · split
      · exact ⟨_, _, State.module_setModule_same ..⟩
      · split
        · exact ⟨_, _, rfl⟩
        · exact ⟨false, _, by rw [State.module_lightChanged, State.module_setModule_same, h]⟩
  · refine ⟨(s.module k).removing, (s.module k).waitPorts, ?_⟩
    unfold State.advanceRemoval
    dsimp only
    split
    · rfl
    · split
      · rw [State.module_setModule_other _ _ _ _ hk, State.module_get, hports, State.module_get]
      · split
        · rfl
        · rw [State.module_lightChanged, State.module_setModule_other _ _ _ _ hk]

theorem State.module_foldl_advanceRemoval_of_dark (l : List Nat) (s : State) (k : Nat) (h : (s.module k).dark = s.module k) :
    ∃ r w, (l.foldl (fun t m => t.advanceRemoval m) s).module k = { s.module k with removing := r, waitPorts := w } := by
  induction l generalizing s with
  | nil => exact ⟨_, _, rfl⟩
  | cons m l ih =>
    obtain ⟨r, w, hm⟩ := s.module_advanceRemoval_of_dark m k h
    have hdark : ((s.advanceRemoval m).module k).dark = (s.advanceRemoval m).module k := by
      rw [hm]
      exact congrArg (fun x : Module => { x with removing := r, waitPorts := w }) h
    obtain ⟨r', w', hl⟩ := ih (s.advanceRemoval m) hdark
    exact ⟨r', w', by rw [List.foldl_cons, hl, hm]⟩

theorem State.module_advanceRemovals_of_dark (s : State) (k : Nat) (h : (s.module k).dark = s.module k) :
    ∃ r w, s.advanceRemovals.module k = { s.module k with removing := r, waitPorts := w } :=
  State.module_foldl_advanceRemoval_of_dark _ s k h

end Sys2Proof.Machine
end

section
/-! Certificate of O52: the commands on Daylight modules (R2, R401-R411), a lemma for each, and the statement from them. -/

namespace Sys2Proof.Machine

variable {s : State} {mm : ModuleNo} {d : ModuleData}

/-! ## A module is found (R2, R402, R408-R411) -/

/-- A seated module whose identity has been read. -/
def Module.seated (x : Module) (d : ModuleData) : Module := { x with pres := true, data := some d, arrived := none }

theorem exec_modulePresence_read (probeOk : Bool) (ha : s.alive = true) (hst : (s.module mm.val).st = 0)
    (hp : (s.module mm.val).pres = false) (hr : s.readsModules = true) :
    exec (.modulePresence mm d probeOk) s = .next (s.readModule mm.val d probeOk) := by
  change execModulePresence mm d probeOk s = _
  simp [execModulePresence, ha, hst, hp, hr]

/-- Before Dawn reads the modules, one that arrives is only noted (R402, R411). -/
theorem exec_modulePresence_noted (probeOk : Bool) (ha : s.alive = true) (hst : (s.module mm.val).st = 0)
    (hp : (s.module mm.val).pres = false) (hf : (s.module mm.val).fault = false) (hr : s.readsModules = false) :
    exec (.modulePresence mm d probeOk) s =
      .next (s.setModule mm.val { s.module mm.val with pres := true, arrived := some (d, probeOk) }) := by
  change execModulePresence mm d probeOk s = _
  simp [execModulePresence, ha, hst, hp, hf, hr]

theorem State.readModule_of_unsound {m : Nat} (probeOk : Bool) (hf : (s.module m).fault = false) (hd : modSound d = false) :
    s.readModule m d probeOk = (s.setModule m ((s.module m).seated d)).unsupported m := by
  simp [State.readModule, Module.seated, hf, hd]

theorem State.module_readModule_of_probed {m : Nat} (hf : (s.module m).fault = false) (hd : modSound d = true) :
    (s.readModule m d true).module m =
      { (s.module m).seated d with
        st := conditionOf { d with lit := s.usedOutputs m } (s.usedOutputs m), data := some { d with lit := s.usedOutputs m }
        lit := s.usedOutputs m, en := true, cmisOff := false, probing := false, removing := false } := by
  have hread : s.readModule m d true = (s.setModule m ((s.module m).seated d)).light m d := by
    simp [State.readModule, Module.seated, hf, hd]
  rw [hread, State.module_light _ _ _ hd, State.module_setModule_same]
  rfl

theorem State.module_readModule_of_open {m : Nat} (hf : (s.module m).fault = false) (hd : modSound d = true) :
    (s.readModule m d false).module m = { (s.module m).seated d with st := 5 } := by
  simp [State.readModule, Module.seated, hf, hd]

/-- A good identity: lit and judged after a good probe, Off after a bad one. -/
theorem modulePresence_of_sound (ha : s.alive = true) (hst : (s.module mm.val).st = 0) (hp : (s.module mm.val).pres = false)
    (hf : (s.module mm.val).fault = false) (hr : s.readsModules = true) (hd : modSound d = true) :
    let e : ModuleData := { d with lit := s.usedOutputs mm.val }
    (∃ t, exec (.modulePresence mm d true) s = .next t ∧ (t.module mm.val).st = conditionOf e (s.usedOutputs mm.val) ∧
      (t.module mm.val).pres = true ∧ (t.module mm.val).data = some e ∧ (t.module mm.val).en = true ∧
      (t.module mm.val).lit = s.usedOutputs mm.val) ∧
    (∃ t, exec (.modulePresence mm d false) s = .next t ∧
      t.module mm.val = { s.module mm.val with pres := true, data := some d, arrived := none, st := 5 }) := by
  constructor
  · refine ⟨_, exec_modulePresence_read true ha hst hp hr, ?_⟩
    rw [State.module_readModule_of_probed hf hd]
    exact ⟨rfl, rfl, rfl, rfl, rfl⟩
  · exact ⟨_, exec_modulePresence_read false ha hst hp hr, State.module_readModule_of_open hf hd⟩

/-- A bad identity: Unready, dark, and reported by a record. -/
theorem modulePresence_of_unsound (probeOk : Bool) (ha : s.alive = true) (hst : (s.module mm.val).st = 0)
    (hp : (s.module mm.val).pres = false) (hf : (s.module mm.val).fault = false) (hr : s.readsModules = true)
    (hd : modSound d = false) (hroom : s.recd.buffer.length < 448) :
    ∃ t r, exec (.modulePresence mm d probeOk) s = .next t ∧ t = { s with mods := t.mods, recd := t.recd, mgmt := t.mgmt } ∧
      t.module mm.val = { s.module mm.val with
        pres := true, data := some d, arrived := none, st := 1, en := false, cmisOff := true, lit := 0, probing := false
        removing := false } ∧
      t.recd.buffer[s.recd.buffer.length]? = some r ∧ r.payload = .generic 0x0A 1 mm.val (BitVec.allOnes 64) 1 0 0 := by
  obtain ⟨r, hbuf, hpay⟩ := State.event_joins_buffer
    ((s.setModule mm.val ((s.module mm.val).seated d)).setModule mm.val
      { ((s.module mm.val).seated d).dark with st := 1, removing := false }) 0x0A 1 mm.val 1 0 0 hroom
  refine ⟨_, r, exec_modulePresence_read probeOk ha hst hp hr, ?_, ?_, ?_, hpay⟩ <;>
    rw [State.readModule_of_unsound probeOk hf hd]
  · exact State.unsupported_frame _ _
  · rw [State.module_unsupported, State.module_setModule_same]
    rfl
  · simpa [State.unsupported, Module.seated, hst] using hbuf

/-! ## A module is removed, and the histories (R403, R405, R410) -/

/-- A removed position keeps its counts and the module's history, and nothing else. -/
theorem module_moduleRemoval (ha : s.alive = true) (hp : (s.module mm.val).pres = true) :
    let x := s.module mm.val
    ∃ t, exec (.moduleRemoval mm) s = .next t ∧ ∃ y : Module, y.data = x.data ∧
      y.openFib = (if x.en then bump32 x.openFib else x.openFib) ∧
      t.module mm.val = { openFib := y.openFib, pathFail := y.withHistory.pathFail, saved := y.withHistory.saved } := by
  refine ⟨_, by change execModuleRemoval mm s = _; simp only [execModuleRemoval, ha, hp]; rfl, ?_⟩
  simp only [State.module_lightChanged, State.module_setModule_same, State.module_saveHistory, if_true, Module.withHistory_openFib]
  by_cases he : (s.module mm.val).en = true
  · exact ⟨(s.module mm.val).opened, rfl, by simp [he, Module.opened], by simp [he, Module.opened]⟩
  · exact ⟨s.module mm.val, rfl, by simp [he], by simp [he]⟩

theorem moduleRemoval_absent (ha : s.alive = true) (hp : (s.module mm.val).pres = true) :
    let x := s.module mm.val
    ∃ t, exec (.moduleRemoval mm) s = .next t ∧ (t.module mm.val).st = 0 ∧ (t.module mm.val).pres = false ∧
      (t.module mm.val).en = false ∧ (t.module mm.val).openFib = (if x.en then bump32 x.openFib else x.openFib) ∧
      ∀ d, x.data = some d → (t.module mm.val).saved = some (modSerial d, modHours d, modBiasNow d) := by
  obtain ⟨t, ht, y, hdata, hopen, hm⟩ := module_moduleRemoval ha hp
  refine ⟨t, ht, ?_⟩
  rw [hm]
  exact ⟨rfl, rfl, rfl, hopen, fun d hd => by rw [Module.withHistory_of_data y d (hdata.trans hd)]⟩

theorem daylightHistorySave_saves (ha : s.alive = true) :
    ∃ t, exec .daylightHistorySave s = .next t ∧ t.links = s.links ∧
      ∀ m d, m < 6 → (s.module m).data = some d →
        t.module m = { s.module m with saved := some (modSerial d, modHours d, modBiasNow d) } := by
  refine ⟨_, if_pos ha, State.foldl_saveHistory_links _ s, fun m d hm hd => ?_⟩
  rw [State.module_foldl_saveHistory, if_pos (List.mem_range.2 hm), Module.withHistory_of_data _ d hd]

/-! ## Open fibres and darkness (R405, R407) -/

/-- The device when a module's fibre has opened, before removals go on. -/
def State.loseLight (s : State) (m : Nat) : State :=
  ((s.setModule m (s.module m).opened).event 0x0A 3 m none (s.module m).dark.st (s.module m).st).lightChanged

theorem State.module_loseLight (s : State) (m : Nat) : (s.loseLight m).module m = (s.module m).opened := by
  simp [State.loseLight]

theorem exec_openFibre_lit (lane : Fin 36) (ha : s.alive = true) (he : (s.module (laneModule lane.val)).en = true) :
    exec (.openFibre lane) s = .next (s.loseLight (laneModule lane.val)).advanceRemovals := by
  change execOpenFibre lane s = _
  simp only [execOpenFibre, ha, he, Bool.true_eq_false, or_self, if_false]
  rfl

/-- An open fibre leaves its module dark with one more event counted, whatever removals go on after it. -/
theorem module_openFibre (lane : Fin 36) (ha : s.alive = true) (he : (s.module (laneModule lane.val)).en = true) :
    ∃ t r w, exec (.openFibre lane) s = .next t ∧
      t.module (laneModule lane.val) = { (s.module (laneModule lane.val)).opened with removing := r, waitPorts := w } := by
  have hlost := s.module_loseLight (laneModule lane.val)
  obtain ⟨r, w, h⟩ := State.module_advanceRemovals_of_dark _ (laneModule lane.val) (by rw [hlost, Module.opened_dark])
  exact ⟨_, r, w, exec_openFibre_lit lane ha he, by rw [h, hlost]⟩

theorem openFibre_darkens (lane : Fin 36) (ha : s.alive = true) (he : (s.module (laneModule lane.val)).en = true) :
    let x := s.module (laneModule lane.val)
    ∃ t, exec (.openFibre lane) s = .next t ∧ (t.module (laneModule lane.val)).en = false ∧
      (t.module (laneModule lane.val)).cmisOff = true ∧ (t.module (laneModule lane.val)).lit = 0 ∧
      (t.module (laneModule lane.val)).openFib = bump32 x.openFib ∧
      (2 ≤ x.st → x.st ≤ 5 → (t.module (laneModule lane.val)).st = 5) := by
  obtain ⟨t, r, w, ht, hm⟩ := module_openFibre lane ha he
  refine ⟨t, ht, ?_⟩
  rw [hm]
  exact ⟨rfl, rfl, rfl, rfl, fun h2 h5 => if_pos ⟨h2, h5⟩⟩

/-- Lanes that are not dark after a path has acted: Failed with the lasers off; dark ones change nothing. -/
theorem darknessCheck_fails (hardware : Bool) (ha : s.alive = true) (hp : (s.module mm.val).pres = true)
    (hpath : (s.module mm.val).en = true → (s.module mm.val).cmisOff = true) :
    let x := s.module mm.val
    (∃ t, exec (.darknessCheck mm false hardware) s = .next t ∧
      t.module mm.val = { x with st := 6, en := false, cmisOff := true, lit := 0, probing := false, pathFail := bump32 x.pathFail }) ∧
    exec (.darknessCheck mm true hardware) s = .next s := by
  constructor
  · have hguard : ¬(s.alive = false ∨ false = true ∨ (s.module mm.val).pres = false ∨
        ((s.module mm.val).en = true ∧ (s.module mm.val).cmisOff = false)) := by
      simp only [ha, hp, Bool.true_eq_false, Bool.false_eq_true, false_or]
      exact fun h => by simp [hpath h.1] at h
    refine ⟨_, if_neg hguard, ?_⟩
    simp only [State.module_lightChanged, State.module_enterState, State.module_event, State.module_setModule_same]
  · exact if_pos (Or.inr (Or.inl rfl))

/-! ## The poll (R404-R406) -/

theorem moduleMonitorPoll_worsens (ha : s.alive = true) (hp : (s.module mm.val).pres = true) (hr : (s.module mm.val).arrived = none) :
    let x := s.module mm.val
    let e : ModuleData := { d with lit := d.lit &&& s.usedOutputs mm.val }
    ∃ t, exec (.moduleMonitorPoll mm d) s = .next t ∧ x.st ≤ (t.module mm.val).st ∧
      (t.module mm.val).data = (if 2 ≤ x.st ∧ x.st ≤ 4 then some e else some d) ∧
      (2 ≤ x.st → x.st ≤ 4 → (t.module mm.val).st = max x.st (conditionOf e (s.usedOutputs mm.val))) := by
  intro x e
  have hexec : exec (.moduleMonitorPoll mm d) s =
      if 2 ≤ x.st ∧ x.st ≤ 4 then .next (s.judge mm.val d) else .next (s.setModule mm.val { x with data := some d }) := by
    change execModuleMonitorPoll mm d s = _
    simp [execModuleMonitorPoll, ha, hp, hr, x]
  by_cases hlit : 2 ≤ x.st ∧ x.st ≤ 4
  · have hst := State.judge_st s mm.val d
    refine ⟨_, hexec.trans (if_pos hlit), ?_, ?_, fun _ _ => hst⟩
    · rw [hst]
      exact le_max_left _ _
    · rw [if_pos hlit, State.judge_data]
  · refine ⟨_, hexec.trans (if_neg hlit), ?_⟩
    rw [State.module_setModule_same, if_neg hlit]
    exact ⟨le_rfl, rfl, fun h2 h4 => absurd ⟨h2, h4⟩ hlit⟩

/-! ## The end of a relight probe (R408) -/

/-- Every lane continuous: the module is lit, if its checks still hold. -/
theorem exec_relightProbeEnd_continuous (ha : s.alive = true) (hp : (s.module mm.val).probing = true)
    (hdata : (s.module mm.val).data = some d) : exec (.relightProbeEnd mm 0) s = .next (s.light mm.val d) := by
  change execRelightProbeEnd mm 0 s = _
  simp [execRelightProbeEnd, ha, hp, hdata]

theorem exec_relightProbeEnd_open (openLanes : BitVec 6) (ha : s.alive = true) (hp : (s.module mm.val).probing = true)
    (h : openLanes ≠ 0) :
    exec (.relightProbeEnd mm openLanes) s =
      .next ((s.setModule mm.val (s.module mm.val).dark).event 0x0A 3 mm.val none 5 5) := by
  change execRelightProbeEnd mm openLanes s = _
  simp only [execRelightProbeEnd, ha, hp, decide_eq_false h, Bool.true_eq_false, or_self, if_false]
  cases (s.module mm.val).data <;> rfl

theorem relightProbeEnd_of_sound (openLanes : BitVec 6) (ha : s.alive = true) (hp : (s.module mm.val).probing = true)
    (hdata : (s.module mm.val).data = some d) (hd : modSound d = true) :
    (openLanes = 0 → ∃ t, exec (.relightProbeEnd mm openLanes) s = .next t ∧ (t.module mm.val).probing = false ∧
      (t.module mm.val).en = true ∧
      (t.module mm.val).st = conditionOf { d with lit := s.usedOutputs mm.val } (s.usedOutputs mm.val)) ∧
    (openLanes ≠ 0 → ∃ t, exec (.relightProbeEnd mm openLanes) s = .next t ∧ t.module mm.val = (s.module mm.val).dark ∧
      t.links = s.links) := by
  constructor
  · rintro rfl
    refine ⟨_, exec_relightProbeEnd_continuous ha hp hdata, ?_⟩
    rw [State.module_light _ _ _ hd]
    exact ⟨rfl, rfl, rfl⟩
  · intro h
    exact ⟨_, exec_relightProbeEnd_open openLanes ha hp h, by simp, by simp⟩

theorem relightProbeEnd_of_unsound (ha : s.alive = true) (hp : (s.module mm.val).probing = true)
    (hdata : (s.module mm.val).data = some d) (hd : modSound d = false) :
    ∃ t, exec (.relightProbeEnd mm 0) s = .next t ∧ (t.module mm.val).st = 1 ∧ (t.module mm.val).en = false ∧
      (t.module mm.val).lit = 0 ∧ (t.module mm.val).probing = false ∧ t.links = s.links := by
  refine ⟨_, exec_relightProbeEnd_continuous ha hp hdata, ?_⟩
  rw [State.light_of_unsound s mm.val d hd, State.module_unsupported]
  exact ⟨rfl, rfl, rfl, rfl, State.unsupported_links s mm.val⟩

end Sys2Proof.Machine
end

section
open Sys2Proof Sys2Proof.Machine

/-- Settles O52, command by command: presence, removal, open fibre, darkness check, poll, history save and the end of a relight probe. -/
theorem modulesChangeState : Obligations.ModulesChangeState := by
  unfold Obligations.ModulesChangeState
  refine ⟨?_, ?_, ?_, ?_, ?_, ?_, ?_, ?_, ?_, ?_⟩
  · exact fun _ _ _ ha hst hp hf hr hd => modulePresence_of_sound ha hst hp hf hr hd
  · exact fun _ _ probeOk _ ha hst hp hf hr =>
      ⟨_, exec_modulePresence_noted probeOk ha hst hp hf hr, rfl, State.module_setModule_same ..⟩
  · exact fun _ _ probeOk _ ha hst hp hf hr hd hroom => modulePresence_of_unsound probeOk ha hst hp hf hr hd hroom
  · exact fun _ _ ha hp => moduleRemoval_absent ha hp
  · exact fun lane _ ha he => openFibre_darkens lane ha he
  · exact fun _ hardware _ ha hp hpath => darknessCheck_fails hardware ha hp hpath
  · exact fun _ _ _ ha hp hr => moduleMonitorPoll_worsens ha hp hr
  · exact fun _ ha => daylightHistorySave_saves ha
  · exact fun _ _ openLanes _ ha hp hdata hd => relightProbeEnd_of_sound openLanes ha hp hdata hd
  · exact fun _ _ _ ha hp hdata hd => relightProbeEnd_of_unsound ha hp hdata hd

end

section
/-! SUPPORT. What an abort of partitions (R198, R199) makes of them where the map of partitions is canonical, and what it leaves alone; what
a fault of the die and a failed link leave alone. -/

namespace Sys2Proof.Machine

/-! ## Folds and maps -/

/-- What every step of a fold leaves alone, the fold leaves alone. -/
theorem foldl_keeps {α β : Type} (view : State → β) (g : State → α → State) (h : ∀ t a, view (g t a) = view t) (l : List α) (s : State) :
    view (l.foldl g s) = view s := by
  induction l generalizing s with
  | nil => rfl
  | cons a l ih => rw [List.foldl_cons, ih, h]

/-- With rising keys, what no change of a value shows is the same under each key after all of them. -/
theorem SMap.view_get_mapVals {α β : Type} [DecidableEq α] (view : α → β) (m : SMap α) (d : α) (f : Nat → α → α) (k : Nat)
    (h : SMap.rising m = true) (hf : ∀ v, view (f k v) = view v) : view (SMap.get (SMap.mapVals m d f) d k) = view (SMap.get m d k) := by
  induction m with
  | nil => rfl
  | cons p t ih =>
    obtain ⟨habove, hrising⟩ := (SMap.rising_cons p t).1 h
    have hcons : SMap.mapVals (p :: t) d f = if f p.1 p.2 = d then SMap.mapVals t d f else (p.1, f p.1 p.2) :: SMap.mapVals t d f := by
      simp [SMap.mapVals, List.filter_cons]
    rw [hcons]
    by_cases hk : p.1 = k
    · have hnone : SMap.get (SMap.mapVals t d f) d k = d := by
        refine SMap.get_none _ d k fun q hq => ?_
        obtain ⟨y, hy, rfl⟩ := List.mem_map.1 (List.mem_filter.1 hq).1
        exact hk ▸ (habove y hy).ne'
      subst hk
      split
      next hd => rw [hnone, SMap.get, if_pos rfl, ← hf p.2, hd]
      next => simp [SMap.get, hf]
    · have hget : SMap.get (p :: t) d k = SMap.get t d k := by simp [SMap.get, hk]
      rw [hget, ← ih hrising]
      split
      next => rfl
      next => simp [SMap.get, hk]

/-- What holds of the default and of every changed value holds under each key. -/
theorem SMap.get_mapVals_of_all {α : Type} [DecidableEq α] (P : α → Prop) (m : SMap α) (d : α) (f : Nat → α → α) (k : Nat) (hd : P d)
    (hf : ∀ n v, P (f n v)) : P (SMap.get (SMap.mapVals m d f) d k) := by
  induction m with
  | nil => exact hd
  | cons p t ih =>
    simp only [SMap.mapVals, List.map_cons, List.filter_cons] at ih ⊢
    split
    · simp only [SMap.get]
      split
      · exact hf _ _
      · exact ih
    · exact ih

/-! ## Endpoints keep their state as messages leave (R315-R320) -/

@[simp] theorem Endpoint.spaced_st (e : Endpoint) (at_ : Nat × Bool) (m : LinkMsg) : (e.spaced at_ m).st = e.st := by
  unfold Endpoint.spaced
  split
  · exact List.foldlRecOn (motive := fun x : Endpoint => x.st = e.st) _ _ rfl fun _ h _ _ => h
  · rfl

@[simp] theorem Endpoint.emit_st (at_ : Nat × Bool) (e : Endpoint) (m : LinkMsg) : (e.emit at_ m).st = e.st :=
  List.foldlRecOn (motive := fun x : Endpoint => x.st = e.st) _ _ rfl fun _ h _ _ => (Endpoint.spaced_st _ at_ m).trans h

@[simp] theorem Endpoint.post_st (at_ : Nat × Bool) (e : Endpoint) (m : LinkMsg) : (e.post at_ m).st = e.st := by
  unfold Endpoint.post
  split
  · rfl
  · exact Endpoint.emit_st at_ e m

variable (s : State)

theorem State.link_setLink (l k : Nat) (v : Endpoint) : (s.setLink l v).link k = if k = l then v else s.link k :=
  SMap.get_set s.links {} l k v

theorem State.part_setPart (p k : Nat) (v : Part) : (s.setPart p v).part k = if k = p then v else s.part k :=
  SMap.get_set s.parts {} p k v

/-! ## What an abort leaves alone (R198) -/

/-- What the statements about aborts say that they leave alone. -/
def State.besideAborts (s : State) : HostSide × Health × List Notice := (s.host, s.health, s.fu.notices)

/-- A message sent changes links only. -/
theorem State.sendOn_frame (l : Nat) (m : LinkMsg) : s.sendOn l m = { s with links := (s.sendOn l m).links } := by
  unfold State.sendOn
  split <;> rfl

/-- A flood changes links only. -/
theorem State.flood_frame (except : Option Nat) (m : LinkMsg) : s.flood except m = { s with links := (s.flood except m).links } := by
  have h : { s.flood except m with links := [] } = { s with links := [] } := by
    refine foldl_keeps (fun t : State => { t with links := [] }) _ (fun t l => ?_) _ s
    split
    · rfl
    · rw [State.sendOn_frame]
  calc s.flood except m = { { s.flood except m with links := [] } with links := (s.flood except m).links } := rfl
    _ = _ := by rw [h]

theorem State.flood_part (except : Option Nat) (m : LinkMsg) (k : Nat) : (s.flood except m).part k = s.part k := by
  rw [State.flood_frame]
  rfl

theorem State.flood_besideAborts (except : Option Nat) (m : LinkMsg) : (s.flood except m).besideAborts = s.besideAborts := by
  rw [State.flood_frame]
  rfl

@[simp] theorem State.flood_link_st (except : Option Nat) (m : LinkMsg) (k : Nat) : ((s.flood except m).link k).st = (s.link k).st := by
  refine foldl_keeps (fun t : State => (t.link k).st) _ (fun t l => ?_) _ s
  unfold State.sendOn State.updLink
  (repeat' split) <;> try rfl
  rw [State.link_setLink]
  split
  · subst_vars
    exact Endpoint.post_st ..
  · rfl

/-- The waits of a hold that ends claim their entries (R136). -/
def State.claimWaits (s : State) (ws : List (TileNo × Nat × Tag)) : State :=
  ws.foldl (fun t w => t.updTile w.1.toNat (fun x => x.claim w.2.1)) s

/-- Partition `k` charged with a hold that it caused (R195). -/
def Part.chargeHold (causes : List Tag) (n k : Nat) (q : Part) : Part :=
  if causes.any (fun t => t.toNat = k) then { q with holds := q.holds + n } else q

@[simp] theorem Part.chargeHold_abort (causes : List Tag) (n k : Nat) (q : Part) : (q.chargeHold causes n k).abort = q.abort := by
  unfold Part.chargeHold
  split <;> rfl

@[simp] theorem Part.chargeHold_replayed (causes : List Tag) (n k : Nat) (q : Part) : (q.chargeHold causes n k).replayed = q.replayed := by
  unfold Part.chargeHold
  split <;> rfl

theorem State.claimWaits_frame (ws : List (TileNo × Nat × Tag)) : s.claimWaits ws = { s with tiles := (s.claimWaits ws).tiles } := by
  have h : { s.claimWaits ws with tiles := [] } = { s with tiles := [] } :=
    foldl_keeps (fun t : State => { t with tiles := [] })
      (fun t (w : TileNo × Nat × Tag) => t.updTile w.1.toNat (fun x => x.claim w.2.1)) (fun _ _ => rfl) ws s
  calc s.claimWaits ws = { { s.claimWaits ws with tiles := [] } with tiles := (s.claimWaits ws).tiles } := rfl
    _ = _ := by rw [h]

/-- The end of a hold: entries claimed, the hold's length charged to the frame and to the partitions that caused it (R194, R195). -/
theorem State.endHoldWith_eq (n : Nat) (ws : List (TileNo × Nat × Tag)) :
    s.endHoldWith n ws =
      { s with
        tiles := (s.claimWaits ws).tiles
        fu := { s.fu with hold := none, held := s.fu.held + n, holds := s.fu.holds + n, causes := [] }
        parts := SMap.mapVals s.parts {} (Part.chargeHold s.fu.causes n) } := by
  have h : s.endHoldWith n ws =
      { s.claimWaits ws with
        fu := { (s.claimWaits ws).fu with
          hold := none, held := (s.claimWaits ws).fu.held + n, holds := (s.claimWaits ws).fu.holds + n, causes := [] }
        parts := SMap.mapVals (s.claimWaits ws).parts {} (Part.chargeHold (s.claimWaits ws).fu.causes n) } := rfl
  rw [h, State.claimWaits_frame]

@[simp] theorem State.dropWaits_besideAborts (p : Nat) : (s.dropWaits p).besideAborts = s.besideAborts := by
  unfold State.dropWaits
  split
  · rfl
  · dsimp only
    split
    · rw [State.endHoldWith_eq]
      rfl
    · rfl

/-- The first abort of a partition, before its waits are withdrawn: its streams stop, what they issued is void, its outcomes that hold no
LSN are dropped (R198, R294). -/
def State.beginAbort (s : State) (p frame : Nat) (v : VariantSel) (streams : Line) : State :=
  { s.setPart p { s.part p with abort := some ⟨frame, v, streams⟩, nextStart := none } with
    tiles := SMap.mapVals s.tiles {} (fun _ t => Tile.stopStreams t p)
    mesh := { s.mesh with flits := s.mesh.flits.map (fun f => if f.tag.toNat = p then { f with void := true } else f) }
    mem := { s.mem with engines := SMap.mapVals s.mem.engines {} (fun _ e =>
      { e with
        running := e.running.map (fun j => if j.tag.toNat = p then { j with void := true } else j)
        waiting := e.waiting.map (fun j => if j.tag.toNat = p then { j with void := true } else j) }) }
    ledger := { s.ledger with escrow := s.ledger.escrow.filter (fun x => decide (x.2.1.toNat ≠ p) || x.2.2.2.isSome) } }

/-- What an abort that takes effect does, case by case (R199): it joins the one that stands, begins, or is stale. -/
theorem State.abortHere_cases (p frame : Nat) (v : VariantSel) (streams : Line) :
    (∃ a, s.abortHere p frame v streams = s.setPart p { s.part p with abort := some a }) ∨
    s.abortHere p frame v streams = (s.beginAbort p frame v streams).dropWaits p ∨
    ((∃ r, (s.part p).replayed = some r ∧ frame < r) ∧ s.abortHere p frame v streams = s) := by
  unfold State.abortHere
  dsimp only
  split
  · split <;> exact .inl ⟨_, rfl⟩
  · split
    next hahead => exact .inr (.inr ⟨by simpa [Option.any_eq_true] using hahead, rfl⟩)
    next => exact .inr (.inl rfl)

/-- The aborts seen, replaced. -/
def State.withSeenAborts (s : State) (seen : List (BitVec 7 × Nat × DevAddr)) : State := { s with fu := { s.fu with seenAborts := seen } }

theorem State.withSeenAborts_part (seen : List (BitVec 7 × Nat × DevAddr)) (k : Nat) : (s.withSeenAborts seen).part k = s.part k := rfl

theorem State.withSeenAborts_besideAborts (seen : List (BitVec 7 × Nat × DevAddr)) :
    (s.withSeenAborts seen).besideAborts = s.besideAborts := rfl

/-- An abort raised here takes effect, is noted and flooded (R198, R340). -/
theorem State.abortOne_eq (code : BitVec 8) (v : VariantSel) (p : Nat) :
    ∃ streams seen m, s.abortOne code v p = ((s.abortHere p s.fu.frame v streams).withSeenAborts seen).flood none m := ⟨_, _, _, rfl⟩

theorem State.abortHere_besideAborts (p frame : Nat) (v : VariantSel) (streams : Line) :
    (s.abortHere p frame v streams).besideAborts = s.besideAborts := by
  obtain ⟨a, h⟩ | h | ⟨-, h⟩ := s.abortHere_cases p frame v streams <;> rw [h]
  · rfl
  · rw [State.dropWaits_besideAborts]
    rfl

theorem State.abortOne_besideAborts (code : BitVec 8) (v : VariantSel) (p : Nat) :
    (s.abortOne code v p).besideAborts = s.besideAborts := by
  obtain ⟨streams, seen, m, h⟩ := s.abortOne_eq code v p
  rw [h, State.flood_besideAborts, State.withSeenAborts_besideAborts, State.abortHere_besideAborts]

/-- Aborts of partitions leave the host side, health and the failure notices alone. -/
theorem State.abortAll_besideAborts (code : BitVec 8) (v : VariantSel) (ps : List Nat) :
    (s.abortAll code v ps).besideAborts = s.besideAborts := by
  unfold State.abortAll
  split
  · rfl
  · exact foldl_keeps State.besideAborts (fun t p => t.abortOne code v p) (fun t p => t.abortOne_besideAborts code v p) _ _

@[simp] theorem State.abortAll_host (code : BitVec 8) (v : VariantSel) (ps : List Nat) : (s.abortAll code v ps).host = s.host :=
  congrArg (·.1) (s.abortAll_besideAborts code v ps)

@[simp] theorem State.abortAll_health (code : BitVec 8) (v : VariantSel) (ps : List Nat) : (s.abortAll code v ps).health = s.health :=
  congrArg (·.2.1) (s.abortAll_besideAborts code v ps)

@[simp] theorem State.abortAll_notices (code : BitVec 8) (v : VariantSel) (ps : List Nat) :
    (s.abortAll code v ps).fu.notices = s.fu.notices :=
  congrArg (·.2.2) (s.abortAll_besideAborts code v ps)

/-! ## Links as partitions abort -/

@[simp] theorem State.dropWaits_links (p : Nat) : (s.dropWaits p).links = s.links := by
  unfold State.dropWaits
  split
  · rfl
  · dsimp only
    split
    · rw [State.endHoldWith_eq]
      rfl
    · rfl

theorem State.abortHere_links (p frame : Nat) (v : VariantSel) (streams : Line) : (s.abortHere p frame v streams).links = s.links := by
  obtain ⟨a, h⟩ | h | ⟨-, h⟩ := s.abortHere_cases p frame v streams <;> rw [h]
  · rfl
  · rw [State.dropWaits_links]
    rfl

theorem State.abortOne_link_st (code : BitVec 8) (v : VariantSel) (p k : Nat) :
    ((s.abortOne code v p).link k).st = (s.link k).st := by
  obtain ⟨streams, seen, m, h⟩ := s.abortOne_eq code v p
  have hlinks : ((s.abortHere p s.fu.frame v streams).withSeenAborts seen).links = s.links := s.abortHere_links p s.fu.frame v streams
  rw [h, State.flood_link_st, State.link_get, hlinks, State.link_get]

@[simp] theorem State.abortAll_link_st (code : BitVec 8) (v : VariantSel) (ps : List Nat) (k : Nat) :
    ((s.abortAll code v ps).link k).st = (s.link k).st := by
  unfold State.abortAll
  split
  · rfl
  · exact foldl_keeps (fun t : State => (t.link k).st) (fun t p => t.abortOne code v p) (fun t p => t.abortOne_link_st code v p k) _ _

/-! ## Partitions abort (R198, R199) -/

/-- From one state to another no frame passes, no replay frame changes and no abort is lost, where the map of partitions is canonical. -/
def State.KeepsAborts (s t : State) : Prop :=
  SMap.wf ({} : Part) s.parts = true →
    SMap.wf ({} : Part) t.parts = true ∧ t.fu.frame = s.fu.frame ∧
      ∀ k, (t.part k).replayed = (s.part k).replayed ∧ ((s.part k).abort.isSome = true → (t.part k).abort.isSome = true)

variable {s} {t u : State}

theorem State.KeepsAborts.trans (h : s.KeepsAborts t) (h' : t.KeepsAborts u) : s.KeepsAborts u := by
  intro hwf
  obtain ⟨hwf, hframe, hparts⟩ := h hwf
  obtain ⟨hwf', hframe', hparts'⟩ := h' hwf
  exact ⟨hwf', hframe'.trans hframe, fun k => ⟨(hparts' k).1.trans (hparts k).1, fun ha => (hparts' k).2 ((hparts k).2 ha)⟩⟩

theorem State.keepsAborts_of_parts (hparts : t.parts = s.parts) (hframe : t.fu.frame = s.fu.frame) : s.KeepsAborts t := by
  intro hwf
  have hpart (k : Nat) : t.part k = s.part k := by rw [State.part_get, hparts, State.part_get]
  exact ⟨hparts ▸ hwf, hframe, fun k => by rw [hpart]; exact ⟨rfl, id⟩⟩

/-- A partition changed in its abort and its next start alone, and left with an abort. -/
theorem State.keepsAborts_setPart (p : Nat) (q : Part) (hr : q.replayed = (s.part p).replayed) (ha : q.abort.isSome = true) :
    s.KeepsAborts (s.setPart p q) := by
  refine fun hwf => ⟨SMap.wf_set _ _ _ _ hwf, rfl, fun k => ?_⟩
  rw [State.part_setPart]
  split
  · subst_vars
    exact ⟨hr, fun _ => ha⟩
  · exact ⟨rfl, id⟩

theorem State.keepsAborts_dropWaits (s : State) (p : Nat) : s.KeepsAborts (s.dropWaits p) := by
  unfold State.dropWaits
  split
  · exact State.keepsAborts_of_parts rfl rfl
  · dsimp only
    split
    · rw [State.endHoldWith_eq]
      refine fun hwf => ⟨SMap.wf_mapVals _ _ _ hwf, rfl, fun k => ?_⟩
      have hrising := ((SMap.wf_iff _ _).1 hwf).1
      have habort := SMap.view_get_mapVals Part.abort s.parts {} (Part.chargeHold s.fu.causes (Config.holdLength s.free)) k hrising (by simp)
      have hreplayed :=
        SMap.view_get_mapVals Part.replayed s.parts {} (Part.chargeHold s.fu.causes (Config.holdLength s.free)) k hrising (by simp)
      exact ⟨hreplayed, fun h => (congrArg Option.isSome habort).trans h⟩
    · exact State.keepsAborts_of_parts rfl rfl

theorem State.abortHere_keepsAborts (s : State) (p frame : Nat) (v : VariantSel) (streams : Line) :
    s.KeepsAborts (s.abortHere p frame v streams) := by
  obtain ⟨a, h⟩ | h | ⟨-, h⟩ := s.abortHere_cases p frame v streams <;> rw [h]
  · exact State.keepsAborts_setPart _ _ rfl rfl
  · have hbegin : s.KeepsAborts (s.beginAbort p frame v streams) :=
      (State.keepsAborts_setPart p { s.part p with abort := some ⟨frame, v, streams⟩, nextStart := none } rfl rfl).trans
        (State.keepsAborts_of_parts rfl rfl)
    exact hbegin.trans (State.keepsAborts_dropWaits _ p)
  · exact State.keepsAborts_of_parts rfl rfl

/-- An abort takes effect unless a replay frame already computed lies ahead of it (R199). -/
theorem State.abortHere_aborts (p frame : Nat) (v : VariantSel) (streams : Line) (hwf : SMap.wf ({} : Part) s.parts = true)
    (hbehind : (s.part p).replayed.all (fun r => decide (r ≤ frame)) = true) :
    ((s.abortHere p frame v streams).part p).abort.isSome = true := by
  obtain ⟨a, h⟩ | h | ⟨⟨r, hr, hlt⟩, h⟩ := s.abortHere_cases p frame v streams
  · rw [h, State.part_setPart, if_pos rfl]
    rfl
  · have hset : ((s.beginAbort p frame v streams).part p).abort = some ⟨frame, v, streams⟩ :=
      congrArg Part.abort (SMap.get_set_same s.parts {} p _)
    have hwf' : SMap.wf ({} : Part) (s.beginAbort p frame v streams).parts = true := SMap.wf_set _ _ _ _ hwf
    obtain ⟨-, -, hparts⟩ := State.keepsAborts_dropWaits (s.beginAbort p frame v streams) p hwf'
    rw [h]
    exact (hparts p).2 (by rw [hset]; rfl)
  · simp only [hr, Option.all_some, decide_eq_true_eq] at hbehind
    omega

theorem State.abortOne_keepsAborts (s : State) (code : BitVec 8) (v : VariantSel) (p : Nat) : s.KeepsAborts (s.abortOne code v p) := by
  obtain ⟨streams, seen, m, h⟩ := s.abortOne_eq code v p
  have hhere := s.abortHere_keepsAborts p s.fu.frame v streams
  rw [h, State.flood_frame]
  exact hhere.trans (State.keepsAborts_of_parts rfl rfl)

/-- The abort of a partition stands once it is raised (R198). -/
theorem State.abortOne_aborts (code : BitVec 8) (v : VariantSel) (p : Nat) (hwf : SMap.wf ({} : Part) s.parts = true) :
    AbortsIn p s (s.abortOne code v p) := by
  intro hbehind
  obtain ⟨streams, seen, m, h⟩ := s.abortOne_eq code v p
  rw [h, State.flood_part, State.withSeenAborts_part]
  exact State.abortHere_aborts p s.fu.frame v streams hwf hbehind

/-- Where an abort stood or was due before, it stands or is due after. -/
theorem AbortsIn.of_keepsAborts {p : Nat} (hwf : SMap.wf ({} : Part) s.parts = true) (h : s.KeepsAborts t) (ha : AbortsIn p t u) :
    AbortsIn p s u := by
  obtain ⟨-, hframe, hparts⟩ := h hwf
  exact fun hbehind => ha (by rw [(hparts p).1, hframe]; exact hbehind)

theorem foldl_abortOne_keepsAborts (code : BitVec 8) (v : VariantSel) (ps : List Nat) (s : State) :
    s.KeepsAborts (ps.foldl (fun t p => t.abortOne code v p) s) := by
  induction ps generalizing s with
  | nil => exact State.keepsAborts_of_parts rfl rfl
  | cons q ps ih =>
    rw [List.foldl_cons]
    exact (s.abortOne_keepsAborts code v q).trans (ih (s.abortOne code v q))

theorem foldl_abortOne_aborts (code : BitVec 8) (v : VariantSel) (ps : List Nat) (s : State) (hwf : SMap.wf ({} : Part) s.parts = true) :
    ∀ p ∈ ps, AbortsIn p s (ps.foldl (fun t q => t.abortOne code v q) s) := by
  induction ps generalizing s with
  | nil => simp
  | cons q ps ih =>
    have hfirst := s.abortOne_keepsAborts code v q
    obtain ⟨hwf', -, -⟩ := hfirst hwf
    intro p hp
    rw [List.foldl_cons]
    obtain rfl | hp := List.mem_cons.1 hp
    · obtain ⟨-, -, hparts⟩ := foldl_abortOne_keepsAborts code v ps (s.abortOne code v p) hwf'
      exact fun hbehind => (hparts p).2 (State.abortOne_aborts code v p hwf hbehind)
    · exact AbortsIn.of_keepsAborts hwf hfirst (ih _ hwf' p hp)

/-- Every partition of an abort of several aborts, where the map of partitions is canonical (R198). -/
theorem State.abortAll_aborts (code : BitVec 8) (v : VariantSel) (ps : List Nat) (hwf : SMap.wf ({} : Part) s.parts = true) :
    ∀ p ∈ ps, AbortsIn p s (s.abortAll code v ps) := by
  intro p hp
  have hne : ps.isEmpty = false := by
    cases ps with
    | nil => cases hp
    | cons => rfl
  rw [State.abortAll, hne, if_neg Bool.false_ne_true]
  exact foldl_abortOne_aborts code v ps { s with fu := { s.fu with aborts := s.fu.aborts + 1 } } hwf p hp

end Sys2Proof.Machine
end

section
/-! SUPPORT. What a fault, a failed link, a port that goes down and an evicted partition leave alone, and what the decision for Twilight
sets (R204, R222, R246, R322, R350, R387). -/

namespace Sys2Proof.Machine

variable (s : State)

/-! ## The decision for Twilight (R387, R395) -/

/-- A cause for Twilight changes health, the recorder, the management complex and Dawn. -/
theorem State.twilight_frame (cause : Nat) :
    s.twilight cause =
      { s with
        health := (s.twilight cause).health, recd := (s.twilight cause).recd, mgmt := (s.twilight cause).mgmt
        dawn := (s.twilight cause).dawn } := by
  unfold State.twilight
  dsimp only
  split
  · split <;> (rw [State.event_frame]; try rfl)
  · rw [State.event_frame]

/-- The first cause decides. -/
theorem State.twilight_decides (cause : Nat) (hst : s.health.st = 0) (hd : s.health.decided = none) :
    ∃ flag, (s.twilight cause).health =
      { s.health with cause := BitVec.ofNat 8 cause, decided := some (BitVec.ofNat 8 cause), flag := flag } := by
  unfold State.twilight
  rw [if_pos ⟨hst, hd⟩]
  dsimp only
  split <;> (rw [State.event_frame]; exact ⟨_, rfl⟩)

theorem State.twilight_host (cause : Nat) : (s.twilight cause).host = s.host := by rw [State.twilight_frame]

theorem State.twilight_link (cause k : Nat) : (s.twilight cause).link k = s.link k := by
  rw [State.twilight_frame]
  rfl

/-! ## Faults (R204, R382) -/

/-- What a fault's record and count leave alone. -/
def State.besideFault (s : State) : SMap Part × Nat × HostSide × SMap Endpoint := (s.parts, s.fu.frame, s.host, s.links)

theorem State.report_besideFault (f : FaultInfo) : (s.report f).besideFault = s.besideFault := by
  unfold State.report State.setReport
  dsimp only
  (repeat' split) <;> rfl

theorem State.report_health (f : FaultInfo) : (s.report f).health = s.health := by
  unfold State.report State.setReport
  dsimp only
  (repeat' split) <;> rfl

theorem State.countFault_besideFault (f : FaultInfo) : (s.countFault f).besideFault = s.besideFault := by
  unfold State.countFault
  dsimp only
  (repeat' split) <;> (try rw [State.twilight_frame]) <;> rfl

/-- A fault of a kind without a limit counts for nothing (R382). -/
theorem State.countFault_of_unlimited (f : FaultInfo) (h : f.limit = none) (hcode : f.code ≠ 0x12) : s.countFault f = s := by
  simp only [State.countFault, h, if_neg hcode]

/-- Every partition with a stream on the die aborts with a fault of what they share (R198), where the map of partitions is canonical. -/
theorem State.faultWide_aborts (f : FaultInfo) (hwf : SMap.wf ({} : Part) s.parts = true) :
    ∀ p ∈ s.steppers, AbortsIn p s (s.faultWide f) := by
  have hbeside : ((s.report f).countFault f).besideFault = s.besideFault :=
    (State.countFault_besideFault _ f).trans (s.report_besideFault f)
  have hparts : ((s.report f).countFault f).parts = s.parts := congrArg (·.1) hbeside
  have hframe : ((s.report f).countFault f).fu.frame = s.fu.frame := congrArg (·.2.1) hbeside
  intro p hp
  exact AbortsIn.of_keepsAborts hwf (State.keepsAborts_of_parts hparts hframe)
    (State.abortAll_aborts f.code .unchanged s.steppers (hparts ▸ hwf) p hp)

theorem State.faultWide_host (f : FaultInfo) : (s.faultWide f).host = s.host := by
  rw [State.faultWide, State.abortAll_host]
  exact congrArg (·.2.2.1) ((State.countFault_besideFault _ f).trans (s.report_besideFault f))

theorem State.faultWide_link_st (f : FaultInfo) (k : Nat) : ((s.faultWide f).link k).st = (s.link k).st := by
  have hlinks : ((s.report f).countFault f).links = s.links :=
    congrArg (·.2.2.2) ((State.countFault_besideFault _ f).trans (s.report_besideFault f))
  rw [State.faultWide, State.abortAll_link_st, State.link_get, hlinks, State.link_get]

theorem State.faultWide_health_of_unlimited (f : FaultInfo) (h : f.limit = none) (hcode : f.code ≠ 0x12) :
    (s.faultWide f).health = s.health := by
  rw [State.faultWide, State.abortAll_health, State.countFault_of_unlimited _ f h hcode, State.report_health]

/-! ## A link that fails (R322) -/

/-- The device when an Active link has left service, before the abort. -/
def State.linkLost (s : State) (l : Nat) : State :=
  let e := s.link l
  let s1 := s.setLink l { e with st := .failed, failures := bump32 e.failures, failFrame := s.fu.frame, loop := some none }
  let s2 := if l = 0 then s1.updLedger (fun m => { m with copied := false }) else s1
  s2.event 0x07 1 l none (bump32 e.failures) e.failures

theorem State.linkFail_of_active (l : Nat) (h : (s.link l).st = .active) :
    s.linkFail l = (s.linkLost l).faultWide (linkFault 0x16 0xFE l s.fu.cycle (BitVec.ofNat 32 l)) := by
  simp [State.linkFail, State.linkLost, h]

theorem State.linkLost_health (l : Nat) : (s.linkLost l).health = s.health := by
  unfold State.linkLost
  dsimp only
  split <;> (rw [State.event_frame]; rfl)

theorem State.linkLost_host (l : Nat) : (s.linkLost l).host = s.host := by
  unfold State.linkLost
  dsimp only
  split <;> (rw [State.event_frame]; rfl)

theorem State.linkLost_link_st (l k : Nat) : ((s.linkLost l).link k).st = if k = l then .failed else (s.link k).st := by
  have hlinks : (s.linkLost l).links = SMap.set s.links {} l
      { s.link l with st := .failed, failures := bump32 (s.link l).failures, failFrame := s.fu.frame, loop := some none } := by
    unfold State.linkLost
    dsimp only
    split <;> (rw [State.event_links]; rfl)
  rw [State.link_get, hlinks, SMap.get_set, apply_ite Endpoint.st]
  rfl

theorem State.linkFail_health (l : Nat) (h : (s.link l).st = .active) : (s.linkFail l).health = s.health := by
  rw [State.linkFail_of_active s l h, State.faultWide_health_of_unlimited _ _ rfl (show (0x16 : BitVec 8) ≠ 0x12 by decide), State.linkLost_health]

theorem State.linkFail_host (l : Nat) (h : (s.link l).st = .active) : (s.linkFail l).host = s.host := by
  rw [State.linkFail_of_active s l h, State.faultWide_host, State.linkLost_host]

theorem State.linkFail_link_st (l k : Nat) (h : (s.link l).st = .active) :
    ((s.linkFail l).link k).st = if k = l then .failed else (s.link k).st := by
  rw [State.linkFail_of_active s l h, State.faultWide_link_st, State.linkLost_link_st]

/-! ## A port that goes down (R350) -/

/-- What the end of an RDMA WRITE and of a session's service leave alone. -/
def State.besideRdma (s : State) : Health × SMap Endpoint × SMap Port := (s.health, s.links, s.host.ports)

theorem State.releaseGranules_besideRdma (p : Nat) : (s.releaseGranules p).besideRdma = s.besideRdma := by
  unfold State.releaseGranules
  split <;> rfl

theorem State.endRdma_besideRdma (n : Nat) : (s.endRdma n).besideRdma = s.besideRdma := by
  unfold State.endRdma
  split
  · rfl
  · exact State.releaseGranules_besideRdma _ _

/-- A port that is down holds no frames and pauses nothing. -/
def Port.taken (x : Port) : Port := { x with up := false, pausing := 0, paused := 0, buffered := [] }

theorem State.portDown_besideRdma (p : Nat) : (s.portDown p).besideRdma = (s.setPort p (s.port p).taken).besideRdma :=
  foldl_keeps State.besideRdma (fun t n => (t.endRdma n).updSess n (fun x => { x with st := .error }))
    (fun t n => t.endRdma_besideRdma n) _ _

theorem State.portDown_health (p : Nat) : (s.portDown p).health = s.health := congrArg (·.1) (s.portDown_besideRdma p)

theorem State.portDown_links (p : Nat) : (s.portDown p).links = s.links := congrArg (·.2.1) (s.portDown_besideRdma p)

theorem State.portDown_port (p k : Nat) : (s.portDown p).port k = if k = p then (s.port p).taken else s.port k := by
  have hports : (s.portDown p).host.ports = SMap.set s.host.ports {} p (s.port p).taken := congrArg (·.2.2) (s.portDown_besideRdma p)
  rw [State.port, hports, SMap.get_set]
  rfl

/-! ## A partition that is evicted (R246) -/

theorem State.revokeCredits_beside (p : Nat) : (s.revokeCredits p).health = s.health ∧ (s.revokeCredits p).host = s.host := by
  have hsend (src : Nat) (l : List (Nat × Credit)) (t : State) :=
    foldl_keeps (fun u : State => (u.health, u.host))
      (fun u (c : Nat × Credit) => u.sendMsg src c.2.writer.toNat 0 c.2.tag (u.now (u.realOf u.fu.cycle)) (.revoke c.1)) (fun _ _ => rfl) l t
  refine Prod.ext_iff.1 (foldl_keeps (fun u : State => (u.health, u.host)) _ (fun t x => ?_) s.tiles s)
  exact (hsend _ _ _).trans rfl

theorem State.evict_beside (p : Nat) : (s.evict p).health = s.health ∧ (s.evict p).host = s.host := by
  unfold State.evict
  dsimp only
  split <;> exact State.revokeCredits_beside _ p

end Sys2Proof.Machine
end

section
/-! Certificate of O43, what holds: the commands of Twilight (R13, R377, R387-R392), a lemma for each clause. The two clauses on the
partitions that abort hold where the map of partitions is canonical. -/

namespace Sys2Proof.Machine

variable {s : State}

/-! ## Entry, stop and Dark (R388-R392) -/

theorem State.floodNotice_health (s : State) (n : Notice) : (s.floodNotice n).health = s.health := by
  rw [State.floodNotice, State.flood_frame]

theorem State.floodNotice_part (s : State) (n : Notice) (k : Nat) : (s.floodNotice n).part k = s.part k := by
  rw [State.floodNotice, State.flood_part]
  rfl

theorem State.floodNotice_notices (s : State) (n : Notice) : (s.floodNotice n).fu.notices = s.fu.notices ++ [n] := by
  rw [State.floodNotice, State.flood_frame]

/-- A device that has begun Twilight assigns no LSN (R389). -/
theorem State.mayAssign_of_st (h : s.health.st ≠ 0) : s.mayAssign = false := by
  simp [State.mayAssign, h]

theorem AbortsIn.of_part {p : Nat} {t u : State} (ha : AbortsIn p s t) (h : u.part p = t.part p) : AbortsIn p s u := by
  rw [AbortsIn, h]
  exact ha

theorem twilightEntry_runs (c : BitVec 8) (ha : s.alive = true) (hd : s.health.decided = some c) (hst : s.health.st = 0)
    (hdawn : 11 ≤ s.dawn.step) (hr : s.replayDue = false) (hwf : SMap.wf ({} : Part) s.parts = true) :
    ∃ t, exec .twilightEntry s = .next t ∧
      t.health = { s.health with st := 1, frame := s.fu.frame, decided := none, cause := c } ∧ t.mayAssign = false ∧
      (∀ p ∈ s.steppers, AbortsIn p s t) ∧
      t.fu.notices = s.fu.notices ++ [{ frame := s.fu.frame, origin := s.dict.addr, link := 15, loopFail := false, cause := c }] := by
  have hguard : ¬(s.alive = false ∨ s.health.st ≠ 0 ∨ s.dawn.step < 11 ∨ s.replayDue = true) := by
    simp [ha, hst, hr, hdawn]
  refine ⟨_, by change execTwilightEntry s = _; rw [execTwilightEntry, hd]; exact if_neg hguard, ?_⟩
  have haborts := State.abortAll_aborts Config.twilightCode .unchanged s.steppers hwf
  refine ⟨?_, ?_, fun p hp => ?_, ?_⟩
  · rw [State.floodNotice_health, State.updHealth_health, State.abortAll_health]
  · exact State.mayAssign_of_st (by rw [State.floodNotice_health, State.updHealth_health]; exact Nat.one_ne_zero)
  · exact (haborts p hp).of_part (by rw [State.floodNotice_part, State.part_updHealth_of])
  · rw [State.floodNotice_notices, State.updHealth_fu, State.abortAll_notices]

/-- A flush that starts keeps what waits for the flash controller, and changes it and the recorder alone. -/
theorem State.startFlush_frame (s : State) :
    ∃ l, s.startFlush = { s with recd := s.startFlush.recd, mgmt := { s.mgmt with fqueue := s.mgmt.fqueue ++ l } } := by
  unfold State.startFlush
  split
  · exact ⟨[], by simp [State.updRec]⟩
  · split
    · exact ⟨[], by simp⟩
    · exact ⟨[.recorder], rfl⟩

theorem twilightStop_runs (ha : s.alive = true) (hst : s.health.st = 1) (hf : s.health.frame + 32 ≤ s.fu.frame) :
    ∃ t, exec .twilightStop s = .next t ∧ t.health = { s.health with st := 2, flag := true } ∧ t.mem.keys = [] ∧
      t.mem.written = [] ∧ FlashCls.flag ∈ t.mgmt.fqueue ∧
      ∀ x ∈ t.parts, x.2.abort = none ∧ x.2.nextStart = none ∧ x.2.halt = true := by
  have hguard : ¬(s.alive = false ∨ s.health.st ≠ 1 ∨ s.fu.frame < s.health.frame + 32) := by
    simp [ha, hst, hf]
  refine ⟨_, if_neg hguard, ?_⟩
  obtain ⟨l, hl⟩ := State.startFlush_frame (State.flashWrite { s with
    tiles := SMap.mapVals s.tiles {} (fun _ t => s.steppers.foldl (fun u p => Tile.stopStreams u p) t)
    parts := SMap.mapVals s.parts {} (fun _ q => { q with abort := none, nextStart := none, halt := true })
    mem := { s.mem with keys := [], written := [] }
    health := { s.health with st := 2, flag := true } } .flag)
  rw [hl]
  refine ⟨rfl, rfl, rfl, by simp [State.flashWrite], fun x hx => ?_⟩
  obtain ⟨y, -, rfl⟩ := List.mem_map.1 (List.mem_filter.1 hx).1
  exact ⟨rfl, rfl, rfl⟩

/-- The device without what its partitions held, the partitions themselves not yet dropped. -/
def State.evictAll (s : State) : State :=
  (s.parts.map (fun x => x.1)).foldl (fun t p => (t.evict p).dropGranules p) (s.closeWindows (fun _ => true))

theorem State.evictAll_beside (s : State) : s.evictAll.health = s.health ∧ s.evictAll.host.sessions = s.host.sessions := by
  refine Prod.ext_iff.1 (foldl_keeps (fun t : State => (t.health, t.host.sessions)) (fun t p => (t.evict p).dropGranules p)
    (fun t p => ?_) (s.parts.map (fun x => x.1)) (s.closeWindows (fun _ => true)))
  obtain ⟨hhealth, hhost⟩ := t.evict_beside p
  have hsessions : ((t.evict p).dropGranules p).host.sessions = (t.evict p).host.sessions := rfl
  exact Prod.ext hhealth (by rw [hsessions, hhost])

theorem dark_runs (ha : s.alive = true) (hst : s.health.st = 2) :
    ∃ t, exec .dark s = .next t ∧ t.health = { s.health with st := 3 } ∧ t.parts = [] ∧ t.accts = [] ∧
      (∀ n, (t.tile n).streams = []) ∧ t.ledger.journal = [] ∧ t.ledger.subs = [] ∧ t.ledger.replica = [] ∧
      t.ledger.escrow = [] ∧ t.host.sessions = s.host.sessions := by
  obtain ⟨hhealth, hsessions⟩ := s.evictAll_beside
  refine ⟨_, if_neg (by simp [ha, hst]), congrArg (fun h : Health => { h with st := 3 }) hhealth, rfl, rfl, fun n => ?_, rfl, rfl, rfl,
    rfl, hsessions⟩
  exact SMap.get_mapVals_of_all (fun t : Tile => t.streams = []) _ _ (fun _ t => { t with streams := [] }) n rfl fun _ _ => rfl

/-! ## Trees that disagree (R377) -/

theorem treeDisagreement_decides (cycles : Nat) (ha : s.alive = true) (hc : 2 < cycles) (hst : s.health.st = 0)
    (hd : s.health.decided = none) :
    ∃ t, exec (.treeDisagreement cycles none) s = .next t ∧ t.health.trees = bump32 s.health.trees ∧
      t.health.decided = some 0x0A ∧ t.health.st = 0 := by
  refine ⟨(s.updHealth (fun h => { h with trees := bump32 h.trees })).twilight 0x0A, ?_, ?_⟩
  · change execTreeDisagreement cycles none s = _
    simp [execTreeDisagreement, ha, hc]
  · obtain ⟨flag, h⟩ := State.twilight_decides (s.updHealth (fun h => { h with trees := bump32 h.trees })) 0x0A hst hd
    rw [h]
    exact ⟨rfl, rfl, hst⟩

theorem treeDisagreement_short (cycles : Nat) (hc : cycles ≤ 2) : exec (.treeDisagreement cycles none) s = .next s := by
  change execTreeDisagreement cycles none s = _
  simp [execTreeDisagreement, hc]

/-- The fault of a wrongly asserted abort tree, as the mismatch of a duplicated unit. -/
def State.treeFault (s : State) : FaultInfo := { code := 0x12, tag := 0xFE, unit := 0x70, cycle := s.fu.cycle }

theorem exec_treeDisagreement_abort {cycles : Nat} (ha : s.alive = true) (hc : cycles ≤ 2) :
    exec (.treeDisagreement cycles (some true)) s = .next (s.faultWide s.treeFault) := by
  change execTreeDisagreement cycles (some true) s = _
  simp [execTreeDisagreement, ha, hc, State.treeFault]

theorem treeDisagreement_asserted (cycles : Nat) (ha : s.alive = true) (hc : cycles ≤ 2) (hwf : SMap.wf ({} : Part) s.parts = true) :
    (∃ t, exec (.treeDisagreement cycles (some true)) s = .next t ∧ ∀ p ∈ s.steppers, AbortsIn p s t) ∧
    ∃ t, exec (.treeDisagreement cycles (some false)) s = .next t ∧
      t = { s with fu := { s.fu with held := s.fu.held + cycles, holds := s.fu.holds + cycles } } := by
  refine ⟨⟨_, exec_treeDisagreement_abort ha hc, s.faultWide_aborts s.treeFault hwf⟩, _, ?_, rfl⟩
  change execTreeDisagreement cycles (some false) s = _
  simp [execTreeDisagreement, ha, hc, State.updFu]

/-! ## A failed optical engine (R13) -/

/-- The links of an engine fail in turn, those that are Active. -/
def State.failLinks (s : State) (ls : List Nat) : State := ls.foldl (fun t l => if (t.link l).st = .active then t.linkFail l else t) s

theorem State.failLinks_beside (s : State) (ls : List Nat) : (s.failLinks ls).health = s.health ∧ (s.failLinks ls).host = s.host := by
  refine Prod.ext_iff.1 (foldl_keeps (fun t : State => (t.health, t.host))
    (fun t l => if (t.link l).st = .active then t.linkFail l else t) (fun t l => ?_) ls s)
  split
  next h => exact Prod.ext (t.linkFail_health l h) (t.linkFail_host l h)
  next => rfl

theorem State.failLinks_cons (s : State) (l : Nat) (ls : List Nat) :
    s.failLinks (l :: ls) = (if (s.link l).st = .active then s.linkFail l else s).failLinks ls := rfl

theorem State.failLinks_link_st (s : State) (ls : List Nat) (k : Nat) :
    ((s.failLinks ls).link k).st = if k ∈ ls ∧ (s.link k).st = .active then .failed else (s.link k).st := by
  induction ls generalizing s with
  | nil => simp [State.failLinks]
  | cons l ls ih =>
    rw [State.failLinks_cons, ih]
    by_cases hl : (s.link l).st = .active
    · rw [if_pos hl, State.linkFail_link_st s l k hl]
      by_cases hk : k = l
      · simp [hk, hl]
      · simp [hk]
    · rw [if_neg hl]
      by_cases hk : k = l
      · simp [hk, hl]
      · simp [hk]

/-- The ports of an engine go down in turn. -/
def State.takePorts (s : State) (ps : List Nat) : State := ps.foldl (fun t p => t.portDown p) s

theorem State.takePorts_beside (s : State) (ps : List Nat) : (s.takePorts ps).health = s.health ∧ (s.takePorts ps).links = s.links :=
  Prod.ext_iff.1 (foldl_keeps (fun t : State => (t.health, t.links)) (fun t p => t.portDown p)
    (fun t p => Prod.ext (t.portDown_health p) (t.portDown_links p)) ps s)

theorem State.takePorts_port_up (s : State) (ps : List Nat) (k : Nat) (h : k ∈ ps ∨ (s.port k).up = false) :
    ((s.takePorts ps).port k).up = false := by
  induction ps generalizing s with
  | nil => exact h.resolve_left List.not_mem_nil
  | cons p ps ih =>
    refine ih (s.portDown p) ?_
    rw [State.portDown_port]
    by_cases hk : k = p
    · exact .inr (by rw [if_pos hk]; rfl)
    · rw [if_neg hk]
      simpa [hk] using h

theorem opticalEngineFailure_decides (oe : Fin 3) (ha : s.alive = true) (hst : s.health.st = 0) (hd : s.health.decided = none) :
    ∃ t, exec (.opticalEngineFailure oe) s = .next t ∧ t.health.decided = some 0x06 ∧ t.health.st = 0 ∧
      (∀ p ∈ enginePorts oe.val, (t.port p).up = false) ∧
      ∀ l ∈ engineLinks oe.val, (s.link l).st = .active → (t.link l).st = .failed := by
  have hexec : exec (.opticalEngineFailure oe) s =
      .next (((s.takePorts (enginePorts oe.val)).failLinks (engineLinks oe.val)).twilight 0x06) := by
    change execOpticalEngineFailure oe s = _
    simp only [execOpticalEngineFailure, ha, Bool.true_eq_false, if_false]
    rfl
  obtain ⟨htaken, hlinks⟩ := s.takePorts_beside (enginePorts oe.val)
  obtain ⟨hfailed, hhost⟩ := (s.takePorts (enginePorts oe.val)).failLinks_beside (engineLinks oe.val)
  have hhealth := hfailed.trans htaken
  obtain ⟨flag, htwilight⟩ := State.twilight_decides ((s.takePorts (enginePorts oe.val)).failLinks (engineLinks oe.val)) 0x06
    (by rw [hhealth, hst]) (by rw [hhealth, hd])
  refine ⟨_, hexec, by rw [htwilight]; rfl, ?_, fun p hp => ?_, fun l hl hactive => ?_⟩
  · rw [htwilight, hhealth]
    exact hst
  · rw [State.port, State.twilight_host, hhost]
    exact s.takePorts_port_up _ p (.inl hp)
  · have hsame : ((s.takePorts (enginePorts oe.val)).link l).st = .active := by rw [State.link_get, hlinks]; exact hactive
    rw [State.twilight_link, State.failLinks_link_st, if_pos ⟨hl, hsame⟩]

end Sys2Proof.Machine
end

section
/-! Refutation of O43: its clauses on the partitions that abort take every list of partitions, and one that lists a partition twice escapes
them. -/

namespace Sys2Proof.Machine

/-- A running device whose map of partitions is not canonical: it lists partition 1 twice, the second time with a replay of frame 1 behind
it. Partitions 0 and 1 have a stream each on tile 0, and partition 0 holds the die in a WAIT. -/
def partitionListedTwice : State :=
  { parts := [(0, {}), (1, {}), (1, { replayed := some 1 })]
    tiles := [(0, { streams := [(0, { tag := 0 }), (1, { tag := 1 })] })]
    fu := { hold := some (0, 0, [(0, 5, 0)]) }
    power := { resetPin := false, rails := true }
    dawn := { step := 11 } }

theorem partitionListedTwice_alive : partitionListedTwice.alive = true := by decide

theorem partitionListedTwice_steppers : partitionListedTwice.steppers = [0, 1, 1] := by decide +kernel

/-- No replay frame of partition 1 is seen to lie ahead: its first entry is read. -/
theorem partitionListedTwice_replayed : (partitionListedTwice.part 1).replayed = none := rfl

theorem partitionListedTwice_not_canonical : SMap.wf ({} : Part) partitionListedTwice.parts = false := by decide +kernel

/-- The abort of partition 0 withdraws its WAIT and ends the hold; the hold's end rewrites the partitions and drops the first entry of
partition 1, which is the default. The second one's replay frame 1 lies ahead of frame 0, and the abort of partition 1 is stale. -/
theorem partitionListedTwice_keeps_running :
    ((partitionListedTwice.faultWide partitionListedTwice.treeFault).part 1).abort = none := by decide +kernel

end Sys2Proof.Machine
end

section
open Sys2Proof Sys2Proof.Machine

/-- Refutes O43 at the wrongly asserted abort tree: on a device whose map of partitions lists partition 1 twice, partition 1 has a stream
and no replay ahead, and does not abort. The statement asks for no canonical map; where the map is canonical, every clause holds:
`twilightEntry_runs`, `twilightStop_runs`, `dark_runs`, `treeDisagreement_decides`, `treeDisagreement_short`,
`treeDisagreement_asserted` and `opticalEngineFailure_decides`. -/
theorem not_twilightRuns : ¬ Obligations.TwilightRuns := by
  unfold Obligations.TwilightRuns
  rintro ⟨-, -, -, -, -, htrees, -⟩
  obtain ⟨⟨t, ht, haborts⟩, -⟩ := htrees 0 partitionListedTwice partitionListedTwice_alive (Nat.zero_le 2)
  have hone : 1 ∈ partitionListedTwice.steppers := by simp [partitionListedTwice_steppers]
  have habort : (t.part 1).abort.isSome = true := haborts 1 hone (by simp [partitionListedTwice_replayed])
  rw [exec_treeDisagreement_abort partitionListedTwice_alive (Nat.zero_le 2)] at ht
  injection ht with ht
  subst ht
  simp [partitionListedTwice_keeps_running] at habort

end

section
/-! SUPPORT. What maps made from lists, rewritten throughout or written once hold; the arrays and tiles of a state after a named update;
what events, faults and aborts leave of the arrays (R198, R204, R499). -/

namespace Sys2Proof.Machine

/-! ## Maps -/

section
variable {α : Type} [DecidableEq α]

theorem SMap.rising_set (d : α) (m : SMap α) (n : Nat) (v : α) (h : SMap.rising m = true) : SMap.rising (SMap.set m d n v) = true := by
  have hdrop : SMap.rising (SMap.drop m n) = true := SMap.rising_filter _ m h
  unfold SMap.set
  split
  · exact hdrop
  · exact SMap.rising_put _ n v hdrop fun p hp => by simpa using (List.mem_filter.1 hp).2

theorem SMap.rising_mapVals (d : α) (m : SMap α) (f : Nat → α → α) (h : SMap.rising m = true) : SMap.rising (SMap.mapVals m d f) = true :=
  SMap.rising_filter _ _ (SMap.rising_map f m h)

omit [DecidableEq α] in
/-- The keys of a rising map differ. -/
theorem SMap.nodup_keys (m : SMap α) (h : SMap.rising m = true) : (m.map Prod.fst).Nodup := by
  induction m with
  | nil => exact List.nodup_nil
  | cons p t ih =>
    obtain ⟨habove, hrising⟩ := (SMap.rising_cons p t).1 h
    refine List.nodup_cons.2 ⟨fun hp => ?_, ih hrising⟩
    obtain ⟨q, hq, he⟩ := List.mem_map.1 hp
    exact (habove q hq).ne' he

omit [DecidableEq α] in
/-- A key that reads other than the default is listed. -/
theorem SMap.mem_of_get_ne (m : SMap α) (d : α) (n : Nat) (h : SMap.get m d n ≠ d) : (n, SMap.get m d n) ∈ m := by
  induction m with
  | nil => exact absurd rfl h
  | cons p t ih =>
    obtain ⟨k, v⟩ := p
    by_cases hk : k = n
    · simp [SMap.get, hk]
    · have hget : SMap.get ((k, v) :: t) d n = SMap.get t d n := by simp [SMap.get, hk]
      rw [hget] at h ⊢
      exact List.mem_cons_of_mem _ (ih h)

/-- A key that no pair has reads as the default after every value was changed. -/
theorem SMap.get_mapVals_none (m : SMap α) (d : α) (f : Nat → α → α) (n : Nat) (h : ∀ p ∈ m, p.1 ≠ n) :
    SMap.get (SMap.mapVals m d f) d n = d := by
  refine SMap.get_none _ d n fun q hq => ?_
  obtain ⟨p, hp, rfl⟩ := List.mem_map.1 (List.mem_filter.1 hq).1
  exact h p hp

theorem SMap.mapVals_cons (p : Nat × α) (m : SMap α) (d : α) (f : Nat → α → α) :
    SMap.mapVals (p :: m) d f = if f p.1 p.2 = d then SMap.mapVals m d f else (p.1, f p.1 p.2) :: SMap.mapVals m d f := by
  simp [SMap.mapVals, List.filter_cons]

theorem SMap.get_mapVals_put (m : SMap α) (d : α) (f : Nat → α → α) (n : Nat) (v : α) (h : ∀ p ∈ m, p.1 ≠ n) :
    SMap.get (SMap.mapVals (SMap.put m n v) d f) d n = f n v := by
  have hhead (l : SMap α) (hl : ∀ p ∈ l, p.1 ≠ n) : SMap.get (SMap.mapVals ((n, v) :: l) d f) d n = f n v := by
    rw [SMap.mapVals_cons]
    split
    next hd => rw [SMap.get_mapVals_none l d f n hl, hd]
    next => simp [SMap.get]
  induction m with
  | nil => exact hhead [] (by simp)
  | cons p t ih =>
    unfold SMap.put
    split
    · exact hhead (p :: t) h
    · have ht := ih fun q hq => h q (List.mem_cons_of_mem _ hq)
      rw [SMap.mapVals_cons]
      split
      · exact ht
      · simpa [SMap.get, h p List.mem_cons_self] using ht

/-- The key written last reads as its changed value once every value is changed, whatever other pairs the map lists. -/
theorem SMap.get_mapVals_set_same (m : SMap α) (d : α) (f : Nat → α → α) (n : Nat) (v : α) (h : v = d → f n d = d) :
    SMap.get (SMap.mapVals (SMap.set m d n v) d f) d n = f n v := by
  have hdrop : ∀ p ∈ SMap.drop m n, p.1 ≠ n := fun p hp => by simpa using (List.mem_filter.1 hp).2
  unfold SMap.set
  split
  next hv => rw [SMap.get_mapVals_none _ d f n hdrop, hv, h hv]
  next => exact SMap.get_mapVals_put _ d f n v hdrop

theorem SMap.get_zipIdx (d : α) (l : List α) (n k : Nat) :
    SMap.get (((l.zipIdx n).map (fun p => (p.2, p.1))).filter (fun p => decide (p.2 ≠ d))) d k = if n ≤ k then l.getD (k - n) d else d := by
  induction l generalizing n with
  | nil => simp [SMap.get]
  | cons a t ih =>
    have hrest := ih (n + 1)
    rw [List.zipIdx_cons, List.map_cons, List.filter_cons]
    generalize ((t.zipIdx (n + 1)).map (fun p => (p.2, p.1))).filter (fun p => decide (p.2 ≠ d)) = rest at hrest ⊢
    have hcons : SMap.get (if decide (a ≠ d) = true then (n, a) :: rest else rest) d k = if k = n then a else SMap.get rest d k := by
      by_cases hk : k = n
      · subst hk
        by_cases ha : a = d <;> simp [SMap.get, ha, hrest]
      · by_cases ha : a = d <;> simp [SMap.get, ha, hk, Ne.symm hk]
    rw [hcons, hrest]
    rcases Nat.lt_trichotomy k n with hlt | rfl | hgt
    · rw [if_neg hlt.ne, if_neg (by omega), if_neg (by omega)]
    · simp
    · rw [if_neg hgt.ne', if_pos (by omega), if_pos hgt.le, show k - n = k - (n + 1) + 1 by omega, List.getD_cons_succ]

/-- A map from a list reads as the list. -/
theorem SMap.get_ofList (d : α) (l : List α) (k : Nat) : SMap.get (SMap.ofList d l) d k = l.getD k d :=
  (SMap.get_zipIdx d l 0 k).trans (if_pos (Nat.zero_le k))

/-- Values written one after the other under different keys. -/
theorem SMap.get_foldl_set (d : α) (key : Nat → Nat) (v : Nat → α) (hkey : Function.Injective key) (n k : Nat) (m : SMap α) :
    SMap.get ((List.range n).foldl (fun x r => SMap.set x d (key r) (v r)) m) d (key k) = if k < n then v k else SMap.get m d (key k) := by
  induction n with
  | zero => simp
  | succ n ih =>
    rw [List.range_succ, List.foldl_append, List.foldl_cons, List.foldl_nil, SMap.get_set, ih]
    by_cases hk : k = n
    · simp [hk]
    · have hlt : k < n + 1 ↔ k < n := by omega
      simp [hkey.ne hk, hlt]

/-- Values changed one after the other, each under its own key, where a test holds of the key. -/
theorem SMap.get_foldl_upd (d : α) (p : Nat → Bool) (f : α → α) (n k : Nat) (m : SMap α) :
    SMap.get ((List.range n).foldl (fun x r => if p r then SMap.upd x d r f else x) m) d k =
      if k < n ∧ p k = true then f (SMap.get m d k) else SMap.get m d k := by
  induction n with
  | zero => simp
  | succ n ih =>
    rw [List.range_succ, List.foldl_append, List.foldl_cons, List.foldl_nil]
    have hlt (hk : k ≠ n) : k < n + 1 ↔ k < n := by omega
    split
    next hp =>
      rw [SMap.get_upd]
      by_cases hk : k = n
      · subst hk
        simp [ih, hp]
      · simp [hk, ih, hlt hk]
    next hp =>
      by_cases hk : k = n
      · subst hk
        simp [ih, hp]
      · simp [ih, hlt hk]

end

/-! ## Arrays and tiles after a named update -/

variable (s : State)

theorem State.array_setArray (a b : Nat) (v : ArrayS) : (s.setArray a v).array b = if b = a then v else s.array b :=
  SMap.get_set s.arrays {} a b v

@[simp] theorem State.array_setArray_same (a : Nat) (v : ArrayS) : (s.setArray a v).array a = v := SMap.get_set_same s.arrays {} a v

theorem State.array_setArray_other {a b : Nat} (v : ArrayS) (h : b ≠ a) : (s.setArray a v).array b = s.array b :=
  SMap.get_set_other s.arrays {} a b v h

@[simp] theorem State.array_updArray_same (a : Nat) (f : ArrayS → ArrayS) : (s.updArray a f).array a = f (s.array a) :=
  s.array_setArray_same a _

theorem State.array_updArray_other {a b : Nat} (f : ArrayS → ArrayS) (h : b ≠ a) : (s.updArray a f).array b = s.array b :=
  s.array_setArray_other _ h

/-- Equal maps of arrays hold equal arrays. -/
theorem State.array_congr {s t : State} (h : t.arrays = s.arrays) (a : Nat) : t.array a = s.array a :=
  congrArg (fun m : SMap ArrayS => SMap.get m {} a) h

/-- Equal maps of tiles hold equal tiles. -/
theorem State.tile_congr {s t : State} (h : t.tiles = s.tiles) (n : Nat) : t.tile n = s.tile n :=
  congrArg (fun m : SMap Tile => SMap.get m {} n) h

/-- Equal maps of partitions hold equal partitions. -/
theorem State.part_congr {s t : State} (h : t.parts = s.parts) (p : Nat) : t.part p = s.part p :=
  congrArg (fun m : SMap Part => SMap.get m {} p) h

/-! ## Events (R499-R504) -/

/-- What an event record and a decision for Twilight leave of the block: its arrays, tiles, partitions, scratchpad and dictionary. -/
def State.besideEvents (s : State) : SMap ArrayS × SMap Tile × SMap Part × Cells × Dict := (s.arrays, s.tiles, s.parts, s.spad, s.dict)

theorem State.arrayEvent_besideEvents (code a after before : Nat) : (s.arrayEvent code a after before).besideEvents = s.besideEvents := by
  rw [State.arrayEvent, State.event_frame]
  rfl

@[simp] theorem State.arrayEvent_arrays (code a after before : Nat) : (s.arrayEvent code a after before).arrays = s.arrays :=
  congrArg (·.1) (s.arrayEvent_besideEvents code a after before)

@[simp] theorem State.arrayEvent_tiles (code a after before : Nat) : (s.arrayEvent code a after before).tiles = s.tiles :=
  congrArg (·.2.1) (s.arrayEvent_besideEvents code a after before)

@[simp] theorem State.arrayEvent_parts (code a after before : Nat) : (s.arrayEvent code a after before).parts = s.parts :=
  congrArg (·.2.2.1) (s.arrayEvent_besideEvents code a after before)

@[simp] theorem State.array_arrayEvent (code a after before b : Nat) : (s.arrayEvent code a after before).array b = s.array b :=
  State.array_congr (s.arrayEvent_arrays code a after before) b

@[simp] theorem State.tile_arrayEvent (code a after before n : Nat) : (s.arrayEvent code a after before).tile n = s.tile n :=
  State.tile_congr (s.arrayEvent_tiles code a after before) n

@[simp] theorem State.part_arrayEvent (code a after before p : Nat) : (s.arrayEvent code a after before).part p = s.part p :=
  State.part_congr (s.arrayEvent_parts code a after before) p

@[simp] theorem State.twilight_arrays (cause : Nat) : (s.twilight cause).arrays = s.arrays := by rw [State.twilight_frame]

@[simp] theorem State.array_twilight (cause a : Nat) : (s.twilight cause).array a = s.array a :=
  State.array_congr (s.twilight_arrays cause) a

@[simp] theorem State.tile_twilight (cause n : Nat) : (s.twilight cause).tile n = s.tile n := by
  rw [State.twilight_frame]
  rfl

/-! ## Faults leave the arrays alone, and abort the partition of their tag (R198, R204) -/

theorem State.report_arrays (f : FaultInfo) : (s.report f).arrays = s.arrays := by
  unfold State.report State.setReport
  dsimp only
  (repeat' split) <;> rfl

theorem State.countFault_arrays (f : FaultInfo) : (s.countFault f).arrays = s.arrays := by
  unfold State.countFault
  dsimp only
  (repeat' split) <;> (try rw [State.twilight_frame]) <;> rfl

theorem State.dropWaits_arrays (p : Nat) : (s.dropWaits p).arrays = s.arrays := by
  unfold State.dropWaits
  dsimp only
  split
  · rfl
  · split
    · rw [State.endHoldWith_eq]
      rfl
    · rfl

theorem State.abortHere_arrays (p frame : Nat) (v : VariantSel) (streams : Line) : (s.abortHere p frame v streams).arrays = s.arrays := by
  obtain ⟨a, h⟩ | h | ⟨-, h⟩ := s.abortHere_cases p frame v streams <;> rw [h]
  · rfl
  · rw [State.dropWaits_arrays]
    rfl

theorem State.abortOne_arrays (code : BitVec 8) (v : VariantSel) (p : Nat) : (s.abortOne code v p).arrays = s.arrays := by
  obtain ⟨streams, seen, m, h⟩ := s.abortOne_eq code v p
  rw [h, State.flood_frame]
  exact s.abortHere_arrays p s.fu.frame v streams

theorem State.abortAll_arrays (code : BitVec 8) (v : VariantSel) (ps : List Nat) : (s.abortAll code v ps).arrays = s.arrays := by
  unfold State.abortAll
  split
  · rfl
  · exact foldl_keeps State.arrays (fun t p => t.abortOne code v p) (fun t p => t.abortOne_arrays code v p) _ _

theorem State.fault_arrays (f : FaultInfo) : (s.fault f).arrays = s.arrays := by
  have hcount : ((s.report f).countFault f).arrays = s.arrays := by rw [State.countFault_arrays, State.report_arrays]
  unfold State.fault State.abortTag
  split
  · rw [State.abortAll_arrays, hcount]
  · exact hcount

/-- A partition's first abort stands once its waits are withdrawn. -/
theorem State.beginAbort_dropWaits_aborts (p frame : Nat) (v : VariantSel) (streams : Line) :
    (((s.beginAbort p frame v streams).dropWaits p).part p).abort.isSome = true := by
  have hset : (s.beginAbort p frame v streams).part p = { s.part p with abort := some ⟨frame, v, streams⟩, nextStart := none } :=
    SMap.get_set_same s.parts {} p _
  unfold State.dropWaits
  split
  · rw [hset]
    rfl
  · dsimp only
    split
    · rw [State.endHoldWith_eq]
      refine (congrArg (fun q : Part => q.abort.isSome) (SMap.get_mapVals_set_same s.parts {} _ p _ fun h => ?_)).trans ?_
      · exact absurd (congrArg Part.abort h) (by simp)
      · simp
    · exact congrArg (fun q : Part => q.abort.isSome) hset

/-- An abort takes effect on a partition that has not aborted, unless a replay frame already computed lies ahead of it (R199). -/
theorem State.abortHere_aborts_first (p frame : Nat) (v : VariantSel) (streams : Line)
    (hbehind : (s.part p).replayed.all (fun r => decide (r ≤ frame)) = true) :
    ((s.abortHere p frame v streams).part p).abort.isSome = true := by
  obtain ⟨a, h⟩ | h | ⟨⟨r, hr, hlt⟩, h⟩ := s.abortHere_cases p frame v streams
  · rw [h, State.part_setPart, if_pos rfl]
    rfl
  · rw [h]
    exact s.beginAbort_dropWaits_aborts p frame v streams
  · simp only [hr, Option.all_some, decide_eq_true_eq] at hbehind
    omega

/-- One partition's abort raised on this device takes effect (R198). -/
theorem State.abortAll_single_aborts (code : BitVec 8) (v : VariantSel) (p : Nat) : AbortsIn p s (s.abortAll code v [p]) := by
  intro hbehind
  obtain ⟨streams, seen, m, h⟩ := ({ s with fu := { s.fu with aborts := s.fu.aborts + 1 } } : State).abortOne_eq code v p
  rw [State.abortAll, List.isEmpty_cons, if_neg Bool.false_ne_true, List.foldl_cons, List.foldl_nil, h, State.flood_part,
    State.withSeenAborts_part]
  exact State.abortHere_aborts_first _ p _ v streams hbehind

/-- A fault of an operation aborts the partition of its tag (R198). -/
theorem State.fault_aborts (f : FaultInfo) (htag : Tag.isPart f.tag = true) : AbortsIn f.tag.toNat s (s.fault f) := by
  have hbeside : ((s.report f).countFault f).besideFault = s.besideFault := (State.countFault_besideFault _ f).trans (s.report_besideFault f)
  have hparts : ((s.report f).countFault f).parts = s.parts := congrArg (·.1) hbeside
  have hframe : ((s.report f).countFault f).fu.frame = s.fu.frame := congrArg (·.2.1) hbeside
  intro hbehind
  rw [State.fault, State.abortTag, if_pos htag]
  exact State.abortAll_single_aborts _ f.code .unchanged f.tag.toNat (by rw [State.part_congr hparts, hframe]; exact hbehind)

end Sys2Proof.Machine
end

section
/-! Certificates of O5 and O12: what reset leaves, and the bound of register values (R36). -/

namespace Sys2Proof.Machine

/-! ## Saturation (R36) -/

theorem accClamp_of_above {v : Int} (h : 2147483647 < v) : accClamp v = 2147483647 := if_pos h

theorem accClamp_of_below {v : Int} (h : v < -2147483647) : accClamp v = -2147483647 := by
  unfold accClamp accMax
  rw [if_neg (by omega), if_pos h]

theorem accClamp_of_within {v : Int} (hlow : -2147483647 ≤ v) (hhigh : v ≤ 2147483647) : accClamp v = v := by
  unfold accClamp accMax
  rw [if_neg (by omega), if_neg (by omega)]

theorem accClamp_within (v : Int) : -2147483647 ≤ accClamp v ∧ accClamp v ≤ 2147483647 := by
  unfold accClamp accMax
  split
  · omega
  · split <;> omega

/-- A value within the bound reads back from its register word. -/
theorem toInt_ofInt_accClamp (v : Int) : (BitVec.ofInt 32 (accClamp v)).toInt = accClamp v := by
  obtain ⟨hlow, hhigh⟩ := accClamp_within v
  rw [BitVec.toInt_ofInt]
  exact Int.bmod_eq_of_le (by omega) (by omega)

/-- What an operation would leave under lane `l` without the bound of R36: its value, on top of the old one where it adds. -/
def AccReg.sumOf (r : AccReg) (o : OpOut) (l : Nat) : Int :=
  (if o.acc = true ∧ r.tag ≠ 0xFE then (SMap.get r.vals 0 l).toInt else 0) + o.vals.getD l 0

/-- Each lane of a register after an operation holds its sum, held at the bound. -/
theorem AccReg.get_update_vals (r : AccReg) (o : OpOut) {l : Nat} (hl : l < 256) :
    SMap.get (r.update o).vals 0 l = BitVec.ofInt 32 (accClamp (r.sumOf o l)) := by
  simp only [AccReg.update, SMap.get_ofList, AccReg.sumOf, Bool.and_eq_true, decide_eq_true_eq]
  simp [List.getD, List.getElem?_range hl]

/-- A lane whose sum passes the bound sets ACC_SAT. -/
theorem AccReg.update_accSat (r : AccReg) (o : OpOut) {l : Nat} (hl : l < 256) (h : accClamp (r.sumOf o l) ≠ r.sumOf o l) :
    (r.update o).status.accSat = true := by
  simp only [AccReg.update, Bool.or_eq_true, List.any_eq_true, decide_eq_true_eq, List.mem_map, List.mem_range]
  refine .inr ⟨r.sumOf o l, ⟨l, hl, ?_⟩, h⟩
  simp [AccReg.sumOf]

end Sys2Proof.Machine
end

section
open Sys2Proof Sys2Proof.Machine

/-- Settles O5: every map of the State at reset is empty, so each read gives the default of its record. -/
theorem resetLeavesTheSpecValues : Obligations.ResetLeavesTheSpecValues := by
  unfold Obligations.ResetLeavesTheSpecValues
  refine ⟨by decide, rfl, fun t k => ?_, fun a => ⟨rfl, rfl, rfl, rfl⟩, fun p => rfl, fun a => rfl, rfl, rfl, rfl, rfl⟩
  exact ⟨rfl, rfl, rfl, rfl, rfl, rfl, rfl⟩

/-- Settles O12: a lane holds the clamped sum (`AccReg.get_update_vals`), and the clamp moves it where it would pass the bound. -/
theorem accumulatorSaturates : Obligations.AccumulatorSaturates := by
  unfold Obligations.AccumulatorSaturates
  intro r o l hl
  have hval : (SMap.get (r.update o).vals 0 l).toInt = accClamp (r.sumOf o l) := by rw [r.get_update_vals o hl, toInt_ofInt_accClamp]
  refine ⟨fun (habove : _ < r.sumOf o l) => ?_, fun (hbelow : r.sumOf o l < _) => ?_, fun (hlow : _ ≤ r.sumOf o l) (hhigh : r.sumOf o l ≤ _) => ?_,
    fun hcode => ?_⟩
  · rw [hval, accClamp_of_above habove]
    exact ⟨rfl, r.update_accSat o hl (by rw [accClamp_of_above habove]; exact habove.ne)⟩
  · rw [hval, accClamp_of_below hbelow]
    exact ⟨rfl, r.update_accSat o hl (by rw [accClamp_of_below hbelow]; exact hbelow.ne')⟩
  · rw [hval]
    exact accClamp_of_within hlow hhigh
  · rw [hcode] at hval
    have hlow := (accClamp_within (r.sumOf o l)).1
    rw [← hval] at hlow
    exact absurd hlow (by decide)

end

section
/-! SUPPORT. What an issue that advances leaves for its instruction to read, on any port; the state on which a scheduled wide access acts;
lines written together (R119-R121, R174). -/

namespace Sys2Proof.Machine

variable (s : State) (i : Issue) (port : Nat)

/-! ## The advance -/

@[simp] theorem State.advance_arrays (c : Nat) : (s.advance i port c).arrays = s.arrays := rfl
@[simp] theorem State.array_advance (c a : Nat) : (s.advance i port c).array a = s.array a := rfl
@[simp] theorem State.part_advance (c p : Nat) : (s.advance i port c).part p = s.part p := rfl
@[simp] theorem State.advance_frame (c : Nat) : (s.advance i port c).fu.frame = s.fu.frame := rfl
@[simp] theorem State.advance_mayFire (c a : Nat) (tag : Tag) : (s.advance i port c).mayFire a tag = s.mayFire a tag := rfl

@[simp] theorem State.advance_tag (c : Nat) : ((s.advance i port c).strm i).tag = (s.strm i).tag := by rw [State.advance_strm]

@[simp] theorem State.advance_pc_pred (c : Nat) : ((s.advance i port c).strm i).pc - 1 = (s.strm i).pc := by
  rw [State.advance_strm]
  rfl

/-- The issuing tile after the advance: its streams and its ports apart, it is as it was. -/
theorem State.tile_advance (c : Nat) :
    (s.advance i port c).tile i.tile.toNat =
      { s.tile i.tile.toNat with
        streams := ((s.advance i port c).tile i.tile.toNat).streams, ports := ((s.advance i port c).tile i.tile.toNat).ports } := by
  rw [State.advance_tile]

theorem OnlyOwnTile.advance (c : Nat) : OnlyOwnTile i s (s.advance i port c) := by
  refine ⟨?_, fun n hn => s.advance_tile_other i port c n hn⟩
  have hsame := s.advance_same i port c
  rw [SameButTiles] at hsame
  rw [hsame]

/-- A clear issue comes of a partition's stream. -/
theorem State.clearIssue_isPart {s : State} {i : Issue} {port : Nat} (h : s.clearIssue i port = true) : Tag.isPart (s.strm i).tag = true := by
  simp only [State.clearIssue, State.issuing, Bool.and_eq_true] at h
  exact h.1.1.1.1.1.1.1.2

/-! ## Scheduled wide accesses (R119-R121) -/

/-- The advanced state with the wide cycles of `n` lines from `line` taken. -/
def State.accessState (s : State) (i : Issue) (port line n : Nat) : State :=
  (s.advance i port i.cycle.toNat).setTile i.tile.toNat
    (((s.advance i port i.cycle.toNat).tile i.tile.toNat).withWide i.cycle.toNat line n)

variable {s i} {line n : Nat}

theorem State.portsClear_owns (h : s.portsClear i line n = true) : (s.tile i.tile.toNat).owns line n (s.strm i).tag = true := by
  simp only [State.portsClear, Bool.and_eq_true] at h
  exact h.1.1.1

theorem State.portsClear_narrowW (h : s.portsClear i line n = true) : (s.tile i.tile.toNat).narrowW = [] := by
  simp only [State.portsClear, Bool.and_eq_true, List.isEmpty_iff] at h
  exact h.2

variable (s i line n)

/-- The issuing tile of a wide access: its streams, its ports and its wide cycles apart, it is as it was. -/
theorem State.tile_accessState :
    (s.accessState i port line n).tile i.tile.toNat =
      { s.tile i.tile.toNat with
        streams := ((s.accessState i port line n).tile i.tile.toNat).streams, ports := ((s.accessState i port line n).tile i.tile.toNat).ports
        wide := ((s.accessState i port line n).tile i.tile.toNat).wide } := by
  rw [State.accessState, State.tile_setTile_same, State.advance_tile]
  rfl

theorem State.accessState_own : OnlyOwnTile i s (s.accessState i port line n) :=
  OnlyOwnTile.updTile s _ i (fun t => t.withWide i.cycle.toNat line n) (OnlyOwnTile.advance s i port i.cycle.toNat)

@[simp] theorem State.accessState_spad : (s.accessState i port line n).spad = s.spad := by
  rw [State.accessState, State.setTile_spad, State.spad_advance]

variable {s i line n}

/-- A clear wide use of the issuing instruction acts on the access state. -/
theorem State.useWide_advance (act : State → State) (h : s.portsClear i line n = true) :
    (s.advance i port i.cycle.toNat).useWide i line n act = act (s.accessState i port line n) :=
  State.useWide_clear _ i line n act (by rw [State.portsClear_advance]; exact h)

theorem State.accessState_narrowW (h : s.portsClear i line n = true) (line' n' : Nat) :
    ((s.accessState i port line' n').tile i.tile.toNat).narrowW = [] := by
  rw [State.tile_accessState]
  exact State.portsClear_narrowW h

/-! ## Lines written together -/

/-- Lines written one after the other from a line of a tile. -/
def State.setPadLines (u : State) (t line : Nat) (ls : List (Line × Nat)) : State :=
  ls.foldl (fun a x => a.setPadLine t (line + x.2) x.1) u

theorem State.writeLines_eq (u : State) (t line : Nat) (ls : List Line) (h : (u.tile t).narrowW = []) :
    u.writeLines t line ls = u.setPadLines t line ls.zipIdx := by
  rw [State.writeLines, State.settleLines_nil _ _ _ _ h]
  rfl

theorem State.padLine_setPadLines (u : State) (t line : Nat) (ls : List Line) (b k : Nat) :
    (u.setPadLines t line (ls.zipIdx b)).padLine t (line + k) =
      if b ≤ k ∧ k < b + ls.length then ls.getD (k - b) 0 else u.padLine t (line + k) := by
  induction ls generalizing u b with
  | nil => exact (if_neg fun (h : b ≤ k ∧ k < b + 0) => by omega).symm
  | cons a t' ih =>
    rw [List.zipIdx_cons, State.setPadLines, List.foldl_cons, ← State.setPadLines, ih]
    by_cases hk : k = b
    · subst hk
      simp
    · have hrest : b + 1 ≤ k ∧ k < b + 1 + t'.length ↔ b ≤ k ∧ k < b + (a :: t').length := by simp only [List.length_cons]; omega
      rw [State.padLine_setPadLine_other _ _ _ _ _ (by omega)]
      simp only [hrest]
      split
      next hin =>
        rw [show k - b = k - (b + 1) + 1 by omega, List.getD_cons_succ]
      next => rfl

theorem State.setPadLines_outside (u : State) (t line : Nat) (ls : List (Line × Nat)) (n : Nat) (h : ∀ x ∈ ls, x.2 < n) :
    PadOutside t line n u (u.setPadLines t line ls) := by
  induction ls generalizing u with
  | nil => exact fun _ _ => rfl
  | cons x ls ih =>
    intro a ha
    have hx : x.2 < n := h x List.mem_cons_self
    rw [State.setPadLines, List.foldl_cons, ← State.setPadLines, ih _ (fun y hy => h y (List.mem_cons_of_mem _ hy)) a ha]
    exact State.setPadLine_out u t (line + x.2) x.1 a (by omega)

@[simp] theorem State.tile_setPadLines (u : State) (t line : Nat) (ls : List (Line × Nat)) (k : Nat) :
    (u.setPadLines t line ls).tile k = u.tile k :=
  foldl_keeps (fun v => v.tile k) (fun a (x : Line × Nat) => a.setPadLine t (line + x.2) x.1) (fun _ _ => rfl) ls u

@[simp] theorem State.tile_charge (u : State) (n k : Nat) : (u.charge i n).tile k = u.tile k := by
  unfold State.charge
  split <;> rfl

@[simp] theorem State.padLine_charge (u : State) (n t l : Nat) : (u.charge i n).padLine t l = u.padLine t l := by
  rw [State.padLine, State.charge_spad, State.padLine]

end Sys2Proof.Machine
end

section
/-! Certificate of O11: XFER, FEED and TLOAD with their conditions met (R27, R138, R140, R179-R181), a lemma for each. -/

namespace Sys2Proof.Machine

variable {s : State} {i : Issue}

/-! ## XFER (R179) -/

theorem Tile.pendingInto_congr {t u : Tile} (h : u.ops = t.ops) (frame c : Nat) (transit : Bool) (bank reg : Nat) :
    u.pendingInto frame c transit bank reg = t.pendingInto frame c transit bank reg := by
  unfold Tile.pendingInto
  rw [h]

theorem xferLines_length (o : RegOut) (r : AccReg) : (xferLines o r).length = 9 := rfl

/-- An XFER with its conditions met writes its nine lines and charges the layer where a value clamped (R76, R77, R179). -/
theorem exec_xfer (src : Bool) (bank : BitVec 2) (reg : BitVec 4) (shift : BitVec 5) (line : BitVec 12)
    (hissue : s.clearIssue i 5 = true) (hline : line.toNat ≤ 3063) (hfields : regFieldsOk src bank reg shift = true)
    (hpending : (s.tile i.tile.toNat).pendingInto s.fu.frame i.cycle.toNat src bank.toNat reg.toNat = none)
    (hown : ((s.tile i.tile.toNat).register src bank.toNat reg.toNat).foreign (s.strm i).tag = false)
    (hdusk : i.cycle.toNat + 9 ≤ 960) (hupset : i.upset = false) (hports : s.portsClear i line.toNat 9 = true) :
    let r := (s.tile i.tile.toNat).register src bank.toNat reg.toNat
    let o := r.out src shift.toNat
    exec (.xfer i src bank reg shift line 0) s =
      .next (((s.accessState i 5 line.toNat 9).setPadLines i.tile.toNat line.toNat (xferLines o r).zipIdx).charge i
        (if o.povf then 1 else 0)) := by
  intro r o
  have hreg : ((s.advance i 5 i.cycle.toNat).tile i.tile.toNat).register src bank.toNat reg.toNat = r := by
    rw [State.tile_advance]
    rfl
  have hnone : ((s.advance i 5 i.cycle.toNat).tile i.tile.toNat).pendingInto s.fu.frame i.cycle.toNat src bank.toNat reg.toNat = none := by
    rw [← hpending]
    exact Tile.pendingInto_congr (by rw [State.tile_advance]) _ _ _ _ _
  have howns : ((s.advance i 5 i.cycle.toNat).tile i.tile.toNat).owns line.toNat 9 (s.strm i).tag = true := by
    rw [State.tile_advance]
    exact State.portsClear_owns hports
  change execXfer i src bank reg shift line 0 s = _
  rw [execXfer, State.issue_clear s i 5 _ _ _ hissue (by simp [hline, hfields])]
  refine congrArg Host.Outcome.next ?_
  simp only [State.readReg, State.advance_frame, hnone, hreg, State.advance_tag]
  rw [if_neg (by rw [hown]; exact Bool.false_ne_true), if_neg (by simp [hupset]), if_neg (by simp [howns]), if_neg (by omega),
    State.useWide_advance 5 _ hports, if_neg (by simp [State.clearIssue_parity s i 5 hissue]),
    State.writeLines_eq _ _ _ _ (State.accessState_narrowW 5 hports _ _)]

theorem xfer_writesLines (src : Bool) (bank : BitVec 2) (reg : BitVec 4) (shift : BitVec 5) (line : BitVec 12)
    (hissue : s.clearIssue i 5 = true) (hline : line.toNat ≤ 3063) (hfields : regFieldsOk src bank reg shift = true)
    (hpending : (s.tile i.tile.toNat).pendingInto s.fu.frame i.cycle.toNat src bank.toNat reg.toNat = none)
    (hown : ((s.tile i.tile.toNat).register src bank.toNat reg.toNat).foreign (s.strm i).tag = false)
    (hdusk : i.cycle.toNat + 9 ≤ 960) (hupset : i.upset = false) (hports : s.portsClear i line.toNat 9 = true) :
    let u := s.tile i.tile.toNat
    let r := u.register src bank.toNat reg.toNat
    ∃ t, exec (.xfer i src bank reg shift line 0) s = .next t ∧
      (∀ k, k < 8 → t.padLine i.tile.toNat (line.toNat + k) = lineOfWords (((r.out src shift.toNat).vals.drop (32 * k)).take 32)) ∧
      t.padLine i.tile.toNat (line.toNat + 8) = lineOfWords [if r.tag = 0xFE then 0 else r.status.bits] ∧
      PadOutside i.tile.toNat line.toNat 9 s t ∧ (t.tile i.tile.toNat).regs = u.regs ∧ (t.tile i.tile.toNat).tregs = u.tregs := by
  intro u r
  have hlines (k : Nat) := (s.accessState i 5 line.toNat 9).padLine_setPadLines i.tile.toNat line.toNat
    (xferLines (r.out src shift.toNat) r) 0 k
  refine ⟨_, exec_xfer src bank reg shift line hissue hline hfields hpending hown hdusk hupset hports, fun k hk => ?_, ?_, ?_, ?_, ?_⟩
  · rw [State.padLine_charge, hlines k, if_pos ⟨Nat.zero_le k, by rw [xferLines_length]; omega⟩]
    simp [xferLines, List.getD, List.getElem?_append, hk]
  · rw [State.padLine_charge, hlines 8, if_pos ⟨Nat.zero_le 8, by rw [xferLines_length]; omega⟩]
    rfl
  · intro a ha
    rw [State.charge_spad]
    refine State.setPadLines_outside _ _ _ _ 9 (fun x hx => ?_) a ha
    have := List.snd_lt_of_mem_zipIdx hx
    rwa [xferLines_length] at this
  · rw [State.tile_charge, State.tile_setPadLines, State.tile_accessState]
  · rw [State.tile_charge, State.tile_setPadLines, State.tile_accessState]

/-! ## FEED (R27, R180) -/

/-- Every feed buffer of a mask takes one segment (R27). -/
def fedBuffers (feeds : SMap FeedBuf) (mask : BitVec 64) (tag : Tag) (seg : Nat) (l : Line) : SMap FeedBuf :=
  (List.range 64).foldl (fun f n => if mask.getLsbD n then SMap.upd f {} n (fun b => b.fed tag seg l) else f) feeds

theorem get_fedBuffers (feeds : SMap FeedBuf) (mask : BitVec 64) (tag : Tag) (seg : Nat) (l : Line) {n : Nat} (hn : n < 64) :
    SMap.get (fedBuffers feeds mask tag seg l) {} n = if mask.getLsbD n then (SMap.get feeds {} n).fed tag seg l else SMap.get feeds {} n := by
  rw [fedBuffers, SMap.get_foldl_upd]
  simp [hn]

theorem exec_feed (line : BitVec 12) (seg : BitVec 2) (mreg : BitVec 3) (hissue : s.clearIssue i 6 = true) (hline : line.toNat ≤ 3071)
    (hports : s.portsClear i line.toNat 1 = true)
    (hmask : ∀ m, SMap.get (s.strm i).maskAt none mreg.toNat = some m → ¬ (m.frame = s.fu.frame ∧ i.cycle.toNat < m.cycle + 10)) :
    exec (.feed i line seg mreg 0 []) s =
      .next ((s.accessState i 6 line.toNat 1).updTile i.tile.toNat (fun t => { t with
        feeds := fedBuffers t.feeds (SMap.get (s.strm i).masks 0 mreg.toNat) (s.strm i).tag seg.toNat
          (s.padLine i.tile.toNat line.toNat) })) := by
  have howns : ((s.advance i 6 i.cycle.toNat).tile i.tile.toNat).owns line.toNat 1 (s.strm i).tag = true := by
    rw [State.tile_advance]
    exact State.portsClear_owns hports
  change execFeed i line seg mreg 0 [] s = _
  rw [execFeed, State.issue_clear s i 6 _ _ _ hissue (by simp [hline])]
  refine congrArg Host.Outcome.next ?_
  simp only [State.advance_strm]
  rw [if_neg, if_neg (by simp [howns]), State.useWide_advance 6 _ hports, State.readChecked_clear,
    State.settleLines_nil _ _ _ _ (State.accessState_narrowW 6 hports _ _)]
  · rfl
  · split
    · exact Bool.false_ne_true
    next m hm => exact fun h => hmask m hm (of_decide_eq_true h)

/-! ## TLOAD (R135, R136, R181) -/

/-- The 256 lines of a retained block put into a half. -/
def Half.loaded (h : Half) (block : Nat) (l : Nat → Line) : Half :=
  (List.range 256).foldl (fun h k => h.put k (l k) (.pad (256 * block + k))) h

/-- A load of a half leaves its tag, its format and its marks alone. -/
theorem Half.loaded_frame (h : Half) (block : Nat) (l : Nat → Line) :
    (h.loaded block l).tag = h.tag ∧ (h.loaded block l).wfmt = h.wfmt ∧ (h.loaded block l).loading = h.loading ∧
      (h.loaded block l).copy = h.copy :=
  List.foldlRecOn (motive := fun x : Half => x.tag = h.tag ∧ x.wfmt = h.wfmt ∧ x.loading = h.loading ∧ x.copy = h.copy) _ _
    ⟨rfl, rfl, rfl, rfl⟩ fun _ hx _ _ => hx

theorem Half.get_loaded_lines (h : Half) (block : Nat) (l : Nat → Line) {r : Nat} (hr : r < 256) :
    SMap.get (h.loaded block l).lines 0 r = l r := by
  have hlines : (h.loaded block l).lines = (List.range 256).foldl (fun m k => SMap.set m 0 (id k) (l k)) h.lines :=
    (List.foldl_hom Half.lines fun _ _ => rfl).symm
  exact hlines ▸ (SMap.get_foldl_set 0 id l Function.injective_id 256 r h.lines).trans (if_pos hr)

@[simp] theorem Tile.half_setHalf (t : Tile) (b : Bool) (h : Half) : (t.setHalf b h).half b = h := by
  cases b <;> rfl

@[simp] theorem Tile.half_setHalf_not (t : Tile) (b : Bool) (h : Half) : (t.setHalf b h).half (!b) = t.half (!b) := by
  cases b <;> rfl

theorem Tile.half_congr {t u : Tile} (hA : u.halfA = t.halfA) (hB : u.halfB = t.halfB) (b : Bool) : u.half b = t.half b := by
  cases b
  · exact hA
  · exact hB

theorem Tile.opOn_congr {t u : Tile} (h : u.ops = t.ops) (frame c : Nat) (b : Bool) : u.opOn frame c b = t.opOn frame c b := by
  unfold Tile.opOn
  rw [h]

/-- Lines of a block lie in that block (R118, R122). -/
theorem Tile.block_tag_of_owns {t : Tile} {block : Nat} {tag : Tag} (h : t.owns (256 * block) 256 tag = true) :
    (SMap.get t.blocks {} block).tag = tag := by
  have hfirst := List.all_eq_true.1 h 0 (by decide)
  simpa [Tile.blockOf] using hfirst

/-- What TLOAD makes of its half: tag, format, the copy under way, and the lines of the block (R136, R181). -/
def State.loadedHalf (s : State) (i : Issue) (wfmt : Bool) (block : Nat) : Half :=
  ({ tag := (s.strm i).tag, wfmt := wfmt, copy := some (s.fu.frame, i.cycle.toNat, block) } : Half).loaded block
    (fun k => s.padLine i.tile.toNat (256 * block + k))

theorem exec_tload (half wfmt : Bool) (block : BitVec 4) (hissue : s.clearIssue i 4 = true) (hblock : block.toNat ≤ 11)
    (hretained : (SMap.get (s.tile i.tile.toNat).blocks {} block.toNat).retained = true)
    (hhalf : ((s.tile i.tile.toNat).half half).tag = (s.strm i).tag ∨ ((s.tile i.tile.toNat).half half).tag = 0xFE)
    (hop : (s.tile i.tile.toNat).opOn s.fu.frame i.cycle.toNat half = false) (hloading : ((s.tile i.tile.toNat).half half).loading = none)
    (hdusk : i.cycle.toNat + 256 ≤ 960) (hports : s.portsClear i (256 * block.toNat) 256 = true) :
    exec (.tload i half wfmt block 0 []) s =
      .next ((s.accessState i 4 (256 * block.toNat) 256).updTile i.tile.toNat
        (fun t => t.setHalf half (s.loadedHalf i wfmt block.toNat))) := by
  have hblocks : ((s.advance i 4 i.cycle.toNat).tile i.tile.toNat).blocks = (s.tile i.tile.toNat).blocks := by rw [State.tile_advance]
  have hhalves : ((s.advance i 4 i.cycle.toNat).tile i.tile.toNat).half half = (s.tile i.tile.toNat).half half :=
    Tile.half_congr (by rw [State.tile_advance]) (by rw [State.tile_advance]) half
  have hopOn : ((s.advance i 4 i.cycle.toNat).tile i.tile.toNat).opOn s.fu.frame i.cycle.toNat half = false := by
    rw [← hop]
    exact Tile.opOn_congr (by rw [State.tile_advance]) _ _ _
  have htag := Tile.block_tag_of_owns (State.portsClear_owns hports)
  change execTload i half wfmt block 0 [] s = _
  rw [execTload, State.issue_clear s i 4 _ _ _ hissue (by simp [hblock])]
  refine congrArg Host.Outcome.next ?_
  simp only [State.advance_tag, State.advance_frame, hblocks, hhalves, hopOn]
  rw [if_neg (not_or.2 ⟨fun h => Bool.false_ne_true (h.symm.trans hretained), not_not.2 htag⟩), if_neg (by tauto), if_neg Bool.false_ne_true, if_neg (by simp [hloading]), if_neg (by omega),
    State.useWide_advance 4 _ hports, State.readChecked_clear, if_neg (by simp [State.clearIssue_parity s i 4 hissue]),
    State.settleLines_nil _ _ _ _ (State.accessState_narrowW 4 hports _ _)]
  rfl

end Sys2Proof.Machine
end

section
open Sys2Proof Sys2Proof.Machine

/-- Settles O11, instruction by instruction: `xfer_writesLines`, and the effects of FEED and TLOAD (`exec_feed`, `exec_tload`). -/
theorem feedsTransfersAndRetainedLoads : Obligations.FeedsTransfersAndRetainedLoads := by
  unfold Obligations.FeedsTransfersAndRetainedLoads
  refine ⟨fun i src bank reg shift line s => xfer_writesLines src bank reg shift line, ?_, ?_⟩
  · intro i line seg mreg s u hissue hline hports hmask
    refine ⟨_, exec_feed line seg mreg hissue hline hports hmask, s.accessState_spad i 6 line.toNat 1, (s.accessState_own i 6 line.toNat 1).updTile _ _ _ _, fun n hn => ?_⟩
    rw [State.tile_updTile_same, get_fedBuffers _ _ _ _ _ hn, State.tile_accessState]
  · intro i half wfmt block s u tag hissue hblock hretained hhalf hop hloading hdusk hports
    refine ⟨_, exec_tload half wfmt block hissue hblock hretained hhalf hop hloading hdusk hports, s.accessState_spad i 4 (256 * block.toNat) 256,
      (s.accessState_own i 4 (256 * block.toNat) 256).updTile _ _ _ _, ?_⟩
    obtain ⟨htag, hwfmt, hload, hcopy⟩ := Half.loaded_frame
      { tag := (s.strm i).tag, wfmt := wfmt, copy := some (s.fu.frame, i.cycle.toNat, block.toNat) } block.toNat
      (fun k => s.padLine i.tile.toNat (256 * block.toNat + k))
    rw [State.tile_updTile_same, Tile.half_setHalf, Tile.half_setHalf_not]
    refine ⟨htag, hwfmt, hload, hcopy, ?_, fun r hr => Half.get_loaded_lines _ _ _ hr⟩
    exact Tile.half_congr (by rw [State.tile_accessState]) (by rw [State.tile_accessState]) _

end

section
/-! SUPPORT. What a calibration slot makes of its array (R103-R105, R380, R381), and what it leaves of the others and of the tiles. -/

namespace Sys2Proof.Machine

variable (s : State)

/-- New trims change the shadow bank and its marks only (R96-R98). -/
theorem ArrayS.retrim_frame (x : ArrayS) (temp : Option Int) :
    x.retrim temp = { x with shadow := (x.retrim temp).shadow, untrim := (x.retrim temp).untrim, trimTemp := (x.retrim temp).trimTemp } := by
  unfold ArrayS.retrim
  split <;> rfl

/-- A slot of the running calibration changes its stage and the slots used in it only (R104, R105). -/
theorem ArrayS.stageSlot_frame (x : ArrayS) :
    x.stageSlot = { x with stage := x.stageSlot.stage, stageSlots := x.stageSlot.stageSlots } := by
  unfold ArrayS.stageSlot
  repeat' split
  all_goals rfl

/-- A priority request changes the queue of its tile only (R106). -/
theorem State.tile_requestCal (a n : Nat) : (s.requestCal a).tile n = { s.tile n with calPrio := ((s.requestCal a).tile n).calPrio } := by
  unfold State.requestCal
  by_cases hn : n = a / 64
  · subst hn
    rw [State.tile_updTile_same]
    split <;> rfl
  · rw [State.tile_updTile_other _ _ _ _ hn]

@[simp] theorem State.array_requestCal (a b : Nat) : (s.requestCal a).array b = s.array b := rfl

@[simp] theorem State.array_drift (a b : Nat) : (s.drift a).array b = s.array b := by
  rw [State.drift, State.array_requestCal, State.array_arrayEvent]
  rfl

theorem State.tile_drift (a n : Nat) : (s.drift a).tile n = { s.tile n with calPrio := ((s.drift a).tile n).calPrio } := by
  rw [State.drift, State.tile_requestCal, State.tile_arrayEvent]
  rfl

/-- What a calibration slot leaves of an array: its claim, and the slots it counted. -/
def ArrayS.slotView (x : ArrayS) : Option Claim × Nat × Nat := (x.busy, x.slots, x.slotsAll)

theorem State.probeSlot_array (a : Nat) :
    ((s.probeSlot a).array a).slotView = (s.array a).slotView ∧ ∀ b, b ≠ a → (s.probeSlot a).array b = s.array b := by
  unfold State.probeSlot
  dsimp only
  split
  · split
    · exact ⟨by rw [State.array_drift, State.array_setArray_same]; rfl,
        fun b hb => by rw [State.array_drift, State.array_setArray_other _ _ hb]; rfl⟩
    · exact ⟨by rw [State.array_setArray_same]; rfl, fun b hb => by rw [State.array_setArray_other _ _ hb]; rfl⟩
  · exact ⟨by rw [State.array_setArray_same]; rfl, fun b hb => by rw [State.array_setArray_other _ _ hb]; rfl⟩

theorem State.tile_probeSlot (a n : Nat) :
    (s.probeSlot a).tile n = { s.tile n with calPrio := ((s.probeSlot a).tile n).calPrio } := by
  unfold State.probeSlot
  dsimp only
  split
  · split
    · rw [State.tile_drift]
      rfl
    · rfl
  · rfl

theorem State.setStandIn_array (a : Nat) :
    ((s.setStandIn a).array a).slotView = (s.array a).slotView ∧ ∀ b, b ≠ a → (s.setStandIn a).array b = s.array b := by
  unfold State.setStandIn
  dsimp only
  refine ⟨?_, fun b hb => State.array_updArray_other _ _ hb⟩
  rw [State.array_updArray_same, ArrayS.retrim_frame]
  rfl

/-- A calibration slot is counted on its array, whose claim stands; no other array changes (R103). -/
theorem State.calSlot_array (a : Nat) :
    ((s.calSlot a).array a).slotView = ((s.array a).busy, (s.array a).slots + 1, (s.array a).slotsAll + 1) ∧
      ∀ b, b ≠ a → (s.calSlot a).array b = s.array b := by
  unfold State.calSlot
  dsimp only
  split
  · obtain ⟨hview, hothers⟩ := State.probeSlot_array
      (s.setArray a { s.array a with slots := (s.array a).slots + 1, slotsAll := (s.array a).slotsAll + 1 }) a
    refine ⟨hview.trans (by rw [State.array_setArray_same]; rfl), fun b hb => (hothers b hb).trans (s.array_setArray_other _ hb)⟩
  · generalize hy : ({ s.array a with slots := (s.array a).slots + 1, slotsAll := (s.array a).slotsAll + 1 } : ArrayS) = y
    have hview : ((s.setArray a y.stageSlot).array a).slotView = y.slotView := by
      rw [State.array_setArray_same, ArrayS.stageSlot_frame]
      rfl
    have hcounted : y.slotView = ((s.array a).busy, (s.array a).slots + 1, (s.array a).slotsAll + 1) := by
      rw [← hy]
      rfl
    split
    · obtain ⟨hstand, hothers⟩ := State.setStandIn_array (s.setArray a y.stageSlot) a
      exact ⟨hstand.trans (hview.trans hcounted), fun b hb => (hothers b hb).trans (s.array_setArray_other _ hb)⟩
    · exact ⟨hview.trans hcounted, fun b hb => s.array_setArray_other _ hb⟩

/-- A calibration slot can put its array's priority request into its tile's queue, and changes nothing else of a tile. -/
theorem State.tile_calSlot (a n : Nat) : (s.calSlot a).tile n = { s.tile n with calPrio := ((s.calSlot a).tile n).calPrio } := by
  unfold State.calSlot
  dsimp only
  split
  · rw [State.tile_probeSlot]
    rfl
  · split
    · rfl
    · rfl

end Sys2Proof.Machine
end

section
/-! Certificate of O10: FIRE, TFIRE and CAL with their conditions met, and a FIRE at an array that is not Resident (R27, R30, R54, R103,
R137, R177-R179), a lemma for each. -/

namespace Sys2Proof.Machine

variable {s : State} {i : Issue} {bank : BitVec 2} {array : BitVec 4}

/-! ## FIRE (R30, R177) -/

/-- The operation that a FIRE leaves under way. -/
def State.firedOp (s : State) (i : Issue) (bank : BitVec 2) (array : BitVec 4) (mode : BitVec 3) (rge reg : BitVec 4) (acc : Bool) : PendOp :=
  { resident := true, unit := 16 * bank.toNat + array.toNat, mode := mode, dir := false, infmt := false, rge := rge, reg := reg.toNat
    acc := acc, tag := (s.strm i).tag, stream := i.stream, iaddr := (s.strm i).pc
    input := latched ((s.tile i.tile.toNat).feed (16 * bank.toNat + array.toNat)) (s.strm i).tag (modeSegs mode.toNat)
    frame := s.fu.frame, ready := i.cycle.toNat + modeReadable mode.toNat, isCal := false, void := false }

theorem Tile.feed_congr {t u : Tile} (h : u.feeds = t.feeds) (n : Nat) : u.feed n = t.feed n := by
  unfold Tile.feed
  rw [h]

/-- With its conditions met a FIRE claims its array and leaves its operation under way. -/
theorem exec_fire (mode : BitVec 3) (rge reg : BitVec 4) (acc : Bool) (hissue : s.clearIssue i bank.toNat = true) (hmode : mode.toNat ≤ 4)
    (hmay : s.mayFire (arrayNo i.tile bank array) (s.strm i).tag = true)
    (hfeed : ((s.tile i.tile.toNat).feed (16 * bank.toNat + array.toNat)).usable (s.strm i).tag = true)
    (hown : acc = true → ∀ r ∈ fireRegs mode.toNat bank.toNat reg.toNat,
      (SMap.get (s.tile i.tile.toNat).regs {} r).foreign (s.strm i).tag = false)
    (hfree : busyAt (s.array (arrayNo i.tile bank array)).busy s.fu.frame i.cycle.toNat = false)
    (hdusk : i.cycle.toNat + modeBusy mode.toNat ≤ 960) :
    let a := arrayNo i.tile bank array
    exec (.fire i bank array mode rge reg acc 0) s =
      .next (((s.advance i bank.toNat i.cycle.toNat).setArray a { s.array a with
        busy := some ⟨s.fu.frame, i.cycle.toNat + modeBusy mode.toNat, (s.strm i).tag⟩ }).updTile i.tile.toNat
          (fun u => { u with ops := u.ops ++ [s.firedOp i bank array mode rge reg acc] })) := by
  intro a
  have hbuf : ((s.advance i bank.toNat i.cycle.toNat).tile i.tile.toNat).feed (16 * bank.toNat + array.toNat) =
      (s.tile i.tile.toNat).feed (16 * bank.toNat + array.toNat) := Tile.feed_congr (by rw [State.tile_advance]) _
  have hregs : ((s.advance i bank.toNat i.cycle.toNat).tile i.tile.toNat).regs = (s.tile i.tile.toNat).regs := by rw [State.tile_advance]
  have hadd : ¬ (acc && (fireRegs mode.toNat bank.toNat reg.toNat).any
      (fun r => (SMap.get (s.tile i.tile.toNat).regs {} r).foreign (s.strm i).tag)) = true := by
    rw [Bool.and_eq_true, List.any_eq_true]
    rintro ⟨hacc, r, hr, hforeign⟩
    exact Bool.false_ne_true ((hown hacc r hr).symm.trans hforeign)
  change execFire i bank array mode rge reg acc 0 s = _
  rw [execFire, State.issue_clear s i bank.toNat _ _ _ hissue (by simp [hmode])]
  refine congrArg Host.Outcome.next ?_
  simp only [fireAct, State.advance_mayFire, State.advance_tag, State.advance_pc_pred, State.array_advance, State.advance_frame, hbuf, hregs]
  rw [if_neg (by simp [hmay]), if_neg (by simp [hfeed]), if_neg hadd, if_neg (by rw [hfree]; exact Bool.false_ne_true),
    if_neg (by omega), if_neg (by simp [State.clearIssue_parity s i bank.toNat hissue])]
  rfl

theorem fire_issues (mode : BitVec 3) (rge reg : BitVec 4) (acc : Bool) (hissue : s.clearIssue i bank.toNat = true) (hmode : mode.toNat ≤ 4)
    (hmay : s.mayFire (arrayNo i.tile bank array) (s.strm i).tag = true)
    (hfeed : ((s.tile i.tile.toNat).feed (16 * bank.toNat + array.toNat)).usable (s.strm i).tag = true)
    (hown : acc = true → ∀ r ∈ fireRegs mode.toNat bank.toNat reg.toNat,
      (SMap.get (s.tile i.tile.toNat).regs {} r).foreign (s.strm i).tag = false)
    (hfree : busyAt (s.array (arrayNo i.tile bank array)).busy s.fu.frame i.cycle.toNat = false)
    (hdusk : i.cycle.toNat + modeBusy mode.toNat ≤ 960) :
    let a := arrayNo i.tile bank array
    let u := s.tile i.tile.toNat
    ∃ t, exec (.fire i bank array mode rge reg acc 0) s = .next t ∧
      t.array a = { s.array a with busy := some ⟨s.fu.frame, i.cycle.toNat + modeBusy mode.toNat, (s.strm i).tag⟩ } ∧
      (∀ b, b ≠ a → t.array b = s.array b) ∧ (t.tile i.tile.toNat).regs = u.regs ∧ t.spad = s.spad ∧
      (t.tile i.tile.toNat).ops = u.ops ++ [s.firedOp i bank array mode rge reg acc] := by
  refine ⟨_, exec_fire mode rge reg acc hissue hmode hmay hfeed hown hfree hdusk, ?_, fun b hb => ?_, ?_, ?_, ?_⟩
  · rw [State.array_updTile_of, State.array_setArray_same]
  · rw [State.array_updTile_of, State.array_setArray_other _ _ hb, State.array_advance]
  · rw [State.tile_updTile_same, State.tile_setArray_of, State.tile_advance]
  · rw [State.updTile_spad, State.setArray_spad, State.spad_advance]
  · rw [State.tile_updTile_same, State.tile_setArray_of, State.tile_advance]

/-- A tag fault of the issuing instruction aborts its partition (R132, R198). -/
theorem State.tagFault_aborts {unit : BitVec 8} {dest : Bool} (h : Tag.isPart (s.strm i).tag = true) :
    AbortsIn (s.strm i).tag.toNat s (s.tagFault i unit dest) := by
  unfold State.tagFault
  exact State.fault_aborts s { s.issueFault i 0x06 unit i.cycle.toNat (tagDetail (s.strm i).tag dest) with
    iaddr := (s.issueFault i 0x06 unit i.cycle.toNat (tagDetail (s.strm i).tag dest)).iaddr - 1 } h

/-- The advance changes nothing that the abort of a partition rests on. -/
theorem AbortsIn.of_advance {p port c : Nat} {t : State} (h : AbortsIn p (s.advance i port c) t) : AbortsIn p s t := fun hbehind =>
  h (by rw [State.part_advance, State.advance_frame]; exact hbehind)

/-- A FIRE that its partition may not give is a tag fault: the step aborts, and nothing is fired (R54, R198). -/
theorem fire_aborts (mode : BitVec 3) (rge reg : BitVec 4) (acc : Bool) (hissue : s.clearIssue i bank.toNat = true) (hmode : mode.toNat ≤ 4)
    (hmay : s.mayFire (arrayNo i.tile bank array) (s.strm i).tag = false) :
    ∃ t, exec (.fire i bank array mode rge reg acc 0) s = .next t ∧ AbortsIn (s.strm i).tag.toNat s t ∧ t.arrays = s.arrays ∧
      t.spad = s.spad := by
  have hpart := State.clearIssue_isPart hissue
  have hexec : exec (.fire i bank array mode rge reg acc 0) s =
      .next ((s.advance i bank.toNat i.cycle.toNat).tagFault i (BitVec.ofNat 8 (16 * bank.toNat + array.toNat)) false) := by
    change execFire i bank array mode rge reg acc 0 s = _
    rw [execFire, State.issue_clear s i bank.toNat _ _ _ hissue (by simp [hmode])]
    refine congrArg Host.Outcome.next ?_
    rw [fireAct, State.advance_tag, State.advance_mayFire, if_pos hmay]
  refine ⟨_, hexec, ?_, ?_, ?_⟩
  · refine AbortsIn.of_advance (i := i) (port := bank.toNat) (c := i.cycle.toNat) ?_
    rw [← s.advance_tag i bank.toNat i.cycle.toNat] at hpart ⊢
    exact State.tagFault_aborts hpart
  · rw [State.tagFault, State.fault_arrays, State.advance_arrays]
  · rw [State.tagFault, State.fault_spad, State.spad_advance]

theorem State.mayFire_of_not_resident {a : Nat} (tag : Tag) (h : (s.array a).st ≠ .resident) : s.mayFire a tag = false := by
  simp [State.mayFire, h]

/-! ## TFIRE (R137, R178) -/

/-- The operation that a TFIRE leaves under way. -/
def State.transitOp (s : State) (i : Issue) (half : BitVec 2) (dir infmt : Bool) (treg : BitVec 2) (acc : Bool) (fb : BitVec 6) : PendOp :=
  { resident := false, unit := half.toNat, mode := 0, dir := dir && decide (half ≠ 2), infmt := infmt, rge := 0xF, reg := treg.toNat
    acc := acc, tag := (s.strm i).tag, stream := i.stream, iaddr := (s.strm i).pc
    input := latched ((s.tile i.tile.toNat).feed fb.toNat) (s.strm i).tag (transitSegs half.toNat dir infmt), frame := s.fu.frame
    ready := i.cycle.toNat + transitBusy half.toNat dir infmt + 6, isCal := false, void := false
    halves := some ((s.tile i.tile.toNat).halfA, (s.tile i.tile.toNat).halfB) }

/-- With its conditions met a TFIRE claims the transit array and leaves its operation under way. -/
theorem exec_tfire (half : BitVec 2) (dir infmt : Bool) (treg : BitVec 2) (acc : Bool) (fb : BitVec 6) (hissue : s.clearIssue i 4 = true)
    (hhalf : half.toNat ≤ 2)
    (hhalves : ∀ b ∈ halvesOf half.toNat, ((s.tile i.tile.toNat).half b).tag = (s.strm i).tag ∧
      ((s.tile i.tile.toNat).half b).loading = none ∧ ((s.tile i.tile.toNat).half b).copying s.fu.frame i.cycle.toNat = false)
    (hfeed : ((s.tile i.tile.toNat).feed fb.toNat).usable (s.strm i).tag = true)
    (hown : acc = true → (SMap.get (s.tile i.tile.toNat).tregs {} treg.toNat).foreign (s.strm i).tag = false)
    (hfree : busyAt (s.tile i.tile.toNat).tbusy s.fu.frame i.cycle.toNat = false)
    (hdusk : i.cycle.toNat + transitBusy half.toNat dir infmt ≤ 960) :
    exec (.tfire i half dir infmt treg acc fb 0) s =
      .next ((s.advance i 4 i.cycle.toNat).updTile i.tile.toNat (fun t => { t with
        ops := t.ops ++ [s.transitOp i half dir infmt treg acc fb]
        tbusy := some ⟨s.fu.frame, i.cycle.toNat + transitBusy half.toNat dir infmt, (s.strm i).tag⟩ })) := by
  have hbuf : ((s.advance i 4 i.cycle.toNat).tile i.tile.toNat).feed fb.toNat = (s.tile i.tile.toNat).feed fb.toNat :=
    Tile.feed_congr (by rw [State.tile_advance]) _
  have hhalfOf (b : Bool) : ((s.advance i 4 i.cycle.toNat).tile i.tile.toNat).half b = (s.tile i.tile.toNat).half b :=
    Tile.half_congr (by rw [State.tile_advance]) (by rw [State.tile_advance]) b
  have htregs : ((s.advance i 4 i.cycle.toNat).tile i.tile.toNat).tregs = (s.tile i.tile.toNat).tregs := by rw [State.tile_advance]
  have htbusy : ((s.advance i 4 i.cycle.toNat).tile i.tile.toNat).tbusy = (s.tile i.tile.toNat).tbusy := by rw [State.tile_advance]
  have hA : ((s.advance i 4 i.cycle.toNat).tile i.tile.toNat).halfA = (s.tile i.tile.toNat).halfA := by rw [State.tile_advance]
  have hB : ((s.advance i 4 i.cycle.toNat).tile i.tile.toNat).halfB = (s.tile i.tile.toNat).halfB := by rw [State.tile_advance]
  have htags : ¬ (halvesOf half.toNat).any (fun b => decide (((s.tile i.tile.toNat).half b).tag ≠ (s.strm i).tag)) = true := by
    rw [List.any_eq_true]
    rintro ⟨b, hb, htag⟩
    exact of_decide_eq_true htag (hhalves b hb).1
  have hloads : ¬ (halvesOf half.toNat).any (fun b => ((s.tile i.tile.toNat).half b).loading.isSome ||
      ((s.tile i.tile.toNat).half b).copying s.fu.frame i.cycle.toNat) = true := by
    rw [List.any_eq_true]
    rintro ⟨b, hb, hload⟩
    obtain ⟨-, hnone, hcopy⟩ := hhalves b hb
    simp [hnone, hcopy] at hload
  have hadd : ¬ (acc && (SMap.get (s.tile i.tile.toNat).tregs {} treg.toNat).foreign (s.strm i).tag) = true := by
    rw [Bool.and_eq_true]
    exact fun ⟨hacc, hforeign⟩ => Bool.false_ne_true ((hown hacc).symm.trans hforeign)
  change execTfire i half dir infmt treg acc fb 0 s = _
  rw [execTfire, State.issue_clear s i 4 _ _ _ hissue (by simp [hhalf])]
  refine congrArg Host.Outcome.next ?_
  simp only [tfireAct, State.advance_tag, State.advance_pc_pred, State.advance_frame, hbuf, hhalfOf, htregs, htbusy, hA, hB]
  rw [if_neg htags, if_neg (by simp [hfeed]), if_neg hadd, if_neg hloads, if_neg (by rw [hfree]; exact Bool.false_ne_true),
    if_neg (by omega), if_neg (by simp [State.clearIssue_parity s i 4 hissue])]
  simp only [State.updTile, htregs, hA, hB]
  rfl

/-! ## CAL (R103, R177) -/

/-- With its conditions met a CAL claims its array and gives it one calibration slot. -/
theorem exec_cal (hissue : s.clearIssue i bank.toNat = true) (hmay : s.mayFire (arrayNo i.tile bank array) (s.strm i).tag = true)
    (hfree : busyAt (s.array (arrayNo i.tile bank array)).busy s.fu.frame i.cycle.toNat = false) (hdusk : i.cycle.toNat + 192 ≤ 960) :
    let a := arrayNo i.tile bank array
    exec (.cal i bank array 0) s =
      .next (((s.advance i bank.toNat i.cycle.toNat).setArray a
        { s.array a with busy := some ⟨s.fu.frame, i.cycle.toNat + 192, (s.strm i).tag⟩ }).calSlot a) := by
  intro a
  change execCal i bank array 0 s = _
  rw [execCal, State.issue_clear s i bank.toNat _ _ _ hissue (by simp)]
  refine congrArg Host.Outcome.next ?_
  simp only [calAct, State.advance_mayFire, State.advance_tag, State.array_advance, State.advance_frame]
  rw [if_neg (by simp [hmay]), if_neg (by rw [hfree]; exact Bool.false_ne_true), if_neg (by omega)]

theorem cal_givesSlot (hissue : s.clearIssue i bank.toNat = true) (hmay : s.mayFire (arrayNo i.tile bank array) (s.strm i).tag = true)
    (hfree : busyAt (s.array (arrayNo i.tile bank array)).busy s.fu.frame i.cycle.toNat = false) (hdusk : i.cycle.toNat + 192 ≤ 960) :
    let a := arrayNo i.tile bank array
    ∃ t, exec (.cal i bank array 0) s = .next t ∧
      (t.array a).busy = some ⟨s.fu.frame, i.cycle.toNat + 192, (s.strm i).tag⟩ ∧ (t.array a).slots = (s.array a).slots + 1 ∧
      (t.array a).slotsAll = (s.array a).slotsAll + 1 ∧ (∀ b, b ≠ a → t.array b = s.array b) ∧
      (t.tile i.tile.toNat).ops = (s.tile i.tile.toNat).ops ∧ (t.tile i.tile.toNat).regs = (s.tile i.tile.toNat).regs ∧
      t.spad = s.spad := by
  intro a
  refine ⟨_, exec_cal hissue hmay hfree hdusk, ?_⟩
  generalize hu : (s.advance i bank.toNat i.cycle.toNat).setArray a
    { s.array a with busy := some ⟨s.fu.frame, i.cycle.toNat + 192, (s.strm i).tag⟩ } = u
  have harray : u.array a = { s.array a with busy := some ⟨s.fu.frame, i.cycle.toNat + 192, (s.strm i).tag⟩ } := by
    rw [← hu, State.array_setArray_same]
  have hothers (b : Nat) (hb : b ≠ a) : u.array b = s.array b := by rw [← hu, State.array_setArray_other _ _ hb, State.array_advance]
  have htile : u.tile i.tile.toNat = (s.advance i bank.toNat i.cycle.toNat).tile i.tile.toNat := by rw [← hu, State.tile_setArray_of]
  have hspad : u.spad = s.spad := by rw [← hu, State.setArray_spad, State.spad_advance]
  obtain ⟨hview, hkept⟩ := u.calSlot_array a
  rw [harray] at hview
  simp only [ArrayS.slotView, Prod.mk.injEq] at hview
  obtain ⟨hbusy, hslots, hall⟩ := hview
  refine ⟨hbusy, hslots, hall, fun b hb => (hkept b hb).trans (hothers b hb), ?_, ?_, by rw [State.calSlot_spad, hspad]⟩
  · rw [State.tile_calSlot, htile, State.tile_advance]
  · rw [State.tile_calSlot, htile, State.tile_advance]

end Sys2Proof.Machine
end

section
open Sys2Proof Sys2Proof.Machine

/-- Settles O10, clause by clause: `fire_issues`, `exec_tfire`, `cal_givesSlot`, and `fire_aborts` where the array is not Resident. -/
theorem arrayOperationsAndSlotsIssue : Obligations.ArrayOperationsAndSlotsIssue := by
  unfold Obligations.ArrayOperationsAndSlotsIssue
  refine ⟨⟨?_, ?_⟩, ?_, ?_⟩
  · intro i bank array mode rge reg acc s a k tag u
    exact fire_issues mode rge reg acc
  · intro i half dir infmt treg acc fb s tag u busy hissue hhalf hhalves hfeed hown hfree hdusk
    refine ⟨_, exec_tfire half dir infmt treg acc fb hissue hhalf hhalves hfeed hown hfree hdusk, ?_, ?_, ?_, ?_, ?_⟩
    · rw [State.tile_updTile_same]
    · rw [State.tile_updTile_same, State.tile_advance]
    · rw [State.updTile_spad, State.spad_advance]
    · rw [State.updTile_arrays, State.advance_arrays]
    · rw [State.tile_updTile_same, State.tile_advance]
      rfl
  · intro i bank array s a tag
    exact cal_givesSlot
  · intro i bank array mode rge reg acc s a hissue hmode hst
    exact fire_aborts mode rge reg acc hissue hmode (State.mayFire_of_not_resident _ hst)

end

section
/-! Certificate of O13: a forward operation of an array and an operation of the transit array that pass their checks (R34, R40, R46, R139,
R140, R252), a lemma for each. -/

namespace Sys2Proof.Machine

variable {s : State} {o : PendOp}

/-! ## Operations of an array (R34-R46) -/

/-- The window of an array leaves the count of its fired operations alone (R100). -/
@[simp] theorem ArrayS.windowOp_fired (x : ArrayS) (c : Conv) (enabled : Bool) : (x.windowOp c enabled).fired = x.fired := by
  unfold ArrayS.windowOp
  split
  · rfl
  · refine List.foldlRecOn (motive := fun y : ArrayS => y.fired = x.fired) _ _ rfl fun y hy k _ => ?_
    split <;> exact hy

theorem State.arrayRan_array_fired (s : State) (a : Nat) (c : Conv) (o : PendOp) :
    ((s.arrayRan a c o).array a).fired = if c.silent then (s.array a).fired else (s.array a).fired + 1 := by
  rw [State.arrayRan, State.array_updArray_same]
  dsimp only
  split
  · exact ArrayS.windowOp_fired _ _ _
  · rfl

@[simp] theorem State.tile_arrayRan (s : State) (a : Nat) (c : Conv) (o : PendOp) (n : Nat) : (s.arrayRan a c o).tile n = s.tile n := rfl

/-- What a forward operation completes into its register (R34, R46). -/
def Conv.forwardOut (c : Conv) (x : ArrayS) (o : PendOp) (widened : Bool) : OpOut :=
  { tag := o.tag, acc := o.acc, vals := (List.range 256).map c.out, status := c.status x o widened
    pred := (List.range 8).map (fun k => c.out (256 + k)), win := (List.range 8).map (fun _ => outWindow c.mode widened)
    noPred := decide (c.mode = 3) }

/-- Forward modes write one register (R33, R34). -/
theorem Conv.results_of_forward (c : Conv) (x : ArrayS) (o : PendOp) (widened : Bool) (h : c.mode ≠ 4) :
    c.results x o widened = [(regKey (o.unit / 16) o.reg, c.forwardOut x o widened)] := by
  rw [Conv.results, if_neg h]
  rfl

/-- The register of one result after it is written. -/
theorem get_writeRegs_single (regs : SMap AccReg) (key : Nat) (r : OpOut) (k : Nat) :
    SMap.get (writeRegs regs [(key, r)]) {} k = if k = key then (SMap.get regs {} key).update r else SMap.get regs {} k :=
  SMap.get_upd regs {} key k (fun x => x.update r)

/-- A forward operation that passes its checks leaves the queue, is counted, and completes into its register. -/
theorem State.arrayReadable_of_pass {a : Nat} {codes : List (List Int)} (hvoid : o.void = false) (hmode : o.mode.toNat ≤ 3)
    (hpass : (o.conv codes).failMask (s.array a) o.input s.health.widened = 0)
    (hown : (SMap.get (s.tile (a / 64)).regs {} (regKey (o.unit / 16) o.reg)).foreign o.tag = false) :
    s.arrayReadable a o codes false =
      ((s.updTile (a / 64) (fun t => t.dropOp o)).arrayRan a (o.conv codes) o).updTile (a / 64) (fun t => { t with
        regs := writeRegs t.regs [(regKey (o.unit / 16) o.reg, (o.conv codes).forwardOut (s.array a) o s.health.widened)] }) := by
  have hforward : (o.conv codes).mode ≠ 4 := fun h => absurd (h ▸ hmode : 4 ≤ 3) (by decide)
  have hadd : ¬ (o.acc && ([(regKey (o.unit / 16) o.reg, (o.conv codes).forwardOut (s.array a) o s.health.widened)] : List (Nat × OpOut)).any
      (fun r => (SMap.get (s.tile (a / 64)).regs {} r.1).foreign o.tag)) = true := by
    rw [List.any_cons, hown, List.any_nil, Bool.or_self, Bool.and_false]
    exact Bool.false_ne_true
  unfold State.arrayReadable
  dsimp only
  rw [Conv.results_of_forward _ _ _ _ hforward, if_neg (by simp [hvoid]), if_neg Bool.false_ne_true, if_neg hadd, if_pos hpass]

theorem arrayResult_reachesRegister {array : ArrayNo} {codes : List (List Int)}
    (hfind : (s.tile (array.toNat / 64)).ops.find? (fun q => q.resident && !q.isCal && decide (q.unit = array.toNat % 64)) = some o)
    (halone : ((s.tile (array.toNat / 64)).ops.erase o).find? (fun b => sameTarget o b && !b.acc && !b.void) = none)
    (hvoid : o.void = false) (hmode : o.mode.toNat ≤ 3)
    (hpass : (o.conv codes).failMask (s.array array.toNat) o.input s.health.widened = 0)
    (hown : (SMap.get (s.tile (array.toNat / 64)).regs {} (regKey (o.unit / 16) o.reg)).foreign o.tag = false) :
    let u := s.tile (array.toNat / 64)
    let x := s.array array.toNat
    let c := o.conv codes
    ∃ t, exec (.arrayResultReadable array codes false) s = .next t ∧ (t.tile (array.toNat / 64)).ops = u.ops.erase o ∧
      SMap.get (t.tile (array.toNat / 64)).regs {} (regKey (o.unit / 16) o.reg) =
        (SMap.get u.regs {} (regKey (o.unit / 16) o.reg)).update (c.forwardOut x o s.health.widened) ∧
      (t.array array.toNat).fired = (if c.silent then x.fired else x.fired + 1) ∧ t.spad = s.spad ∧ t.parts = s.parts := by
  intro u x c
  have hexec : exec (.arrayResultReadable array codes false) s = .next (s.arrayReadable array.toNat o codes false) := by
    change execArrayResultReadable array codes false s = _
    simp only [execArrayResultReadable, hfind, halone]
  refine ⟨_, hexec, ?_, ?_, ?_, State.arrayReadable_spad .., ?_⟩ <;> rw [State.arrayReadable_of_pass hvoid hmode hpass hown]
  · rw [State.tile_updTile_same, State.tile_arrayRan, State.tile_updTile_same]
    rfl
  · rw [State.tile_updTile_same, State.tile_arrayRan, State.tile_updTile_same, get_writeRegs_single, if_pos rfl]
    rfl
  · rw [State.array_updTile_of, State.arrayRan_array_fired, State.array_updTile_of]
  · rfl

/-! ## Operations of the transit array (R139, R140) -/

/-- A transit operation that passes its checks leaves the queue and completes into its register. -/
theorem exec_transitResultReadable {tile : TileNo} (hfind : (s.tile tile.toNat).ops.find? (fun q => !q.resident) = some o)
    (hvoid : o.void = false) (htally : o.tallyMiss = none)
    (halone : ((s.tile tile.toNat).ops.erase o).find? (fun b => sameTarget o b && !b.acc && !o.acc && !b.void) = none)
    (hown : (SMap.get (s.tile tile.toNat).tregs {} o.reg).foreign o.tag = false) :
    exec (.transitResultReadable tile false false none) s =
      .next ((s.updTile tile.toNat (fun t => t.dropOp o)).updTile tile.toNat (fun t => { t with
        tregs := writeRegs t.tregs [(o.reg, o.transitResult)] })) := by
  change execTransitResultReadable tile false false none s = _
  simp only [execTransitResultReadable, hfind, halone, hvoid, htally, hown, Option.isSome_none, Bool.or_self, Bool.and_false,
    Bool.false_eq_true, if_false]

end Sys2Proof.Machine
end

section
open Sys2Proof Sys2Proof.Machine

/-- Settles O13: `arrayResult_reachesRegister`, and the effect of a transit result (`exec_transitResultReadable`) register by register. -/
theorem resultsReachTheirRegisters : Obligations.ResultsReachTheirRegisters := by
  unfold Obligations.ResultsReachTheirRegisters
  refine ⟨fun array codes s o => arrayResult_reachesRegister, ?_⟩
  intro tile s o u hfind hvoid htally halone hown
  refine ⟨_, exec_transitResultReadable hfind hvoid htally halone hown, ?_, ?_, fun k hk => ?_, ?_, ?_⟩
  · rw [State.tile_updTile_same, State.tile_updTile_same]
    rfl
  · rw [State.tile_updTile_same, State.tile_updTile_same, get_writeRegs_single, if_pos rfl]
    rfl
  · rw [State.tile_updTile_same, State.tile_updTile_same, get_writeRegs_single, if_neg hk]
    rfl
  · rw [State.updTile_spad, State.updTile_spad]
  · rw [State.updTile_arrays, State.updTile_arrays]

end

section
/-! SUPPORT. What the operations of repair, programming and erase make of an array (R47-R57), and what they leave of the other arrays,
the tiles and the partitions. -/

namespace Sys2Proof.Machine

variable (s : State)

/-! ## Repair (R47-R49) -/

/-- A column programmed into a spare changes the spares' cells only (R49). -/
theorem ArrayS.programSpare_frame (x : ArrayS) (k col : Nat) : x.programSpare k col = { x with spare := (x.programSpare k col).spare } := by
  simp only [ArrayS.programSpare]

theorem ArrayS.get_programSpare (x : ArrayS) (k col : Nat) {r : Nat} (hr : r < 512) :
    SMap.get (x.programSpare k col).spare 0 (8 * r + k) = x.colCell col r := by
  have hkey : Function.Injective (fun r => 8 * r + k) := fun a b (h : 8 * a + k = 8 * b + k) => by omega
  have hget := SMap.get_foldl_set 0 (fun r => 8 * r + k) (x.colCell col) hkey 512 r x.spare
  rw [if_pos hr] at hget
  simpa only [ArrayS.programSpare] using hget

/-- The lowest free spare takes a failed column, and its entry waits for the return (R49). -/
theorem ArrayS.repairCol_of_free (x : ArrayS) (col : Nat) {k : Nat} (h : x.freeSpares.head? = some k) :
    x.repairCol col = { x with
      spare := (x.programSpare k col).spare, colMapNew := SMap.set x.colMapNew 0 k (fieldEntry col)
      failedCols := x.failedCols.filter (fun c => decide (c.toNat ≠ col)) } := by
  obtain ⟨rest, hfree⟩ := List.head?_eq_some_iff.1 h
  rw [ArrayS.repairCol, hfree]
  dsimp only
  rw [ArrayS.programSpare_frame]

@[simp] theorem ArrayS.repairCol_progCount (x : ArrayS) (col : Nat) : (x.repairCol col).progCount = x.progCount := by
  cases hfree : x.freeSpares with
  | nil => rw [ArrayS.repairCol, hfree]
  | cons k rest => rw [x.repairCol_of_free col (by rw [hfree]; rfl)]

theorem ArrayS.repairCols_progCount (x : ArrayS) (cols : List (BitVec 9)) :
    (cols.foldl (fun y c => y.repairCol c.toNat) x).progCount = x.progCount :=
  List.foldlRecOn (motive := fun y : ArrayS => y.progCount = x.progCount) _ _ rfl fun y hy c _ => (y.repairCol_progCount c.toNat).trans hy

/-- An array that cannot be repaired is Failed (R49, R51). -/
theorem State.array_unrepairable (a : Nat) :
    (s.unrepairable a).array a = { s.array a with st := .failed, diagnosing := false } := by
  rw [State.unrepairable, State.array_twilight, State.array_arrayEvent, State.array_updArray_same]

theorem State.tile_unrepairable (a n : Nat) : (s.unrepairable a).tile n = s.tile n := by
  rw [State.unrepairable, State.tile_twilight, State.tile_arrayEvent, State.tile_updArray_of]

/-! ## Return (R49) -/

/-- A repaired array as it returns (R49, R50). -/
def ArrayS.returned (x : ArrayS) : ArrayS :=
  let y := if x.suspended then x.mapCols.restartStage else x.mapCols
  { y with st := .resident, stale := y.running.isSome }

theorem ArrayS.returned_colMap (x : ArrayS) :
    x.returned.colMapNew = [] ∧ x.returned.colMap = x.colMapNew.foldl (fun m e => SMap.set m 0 e.1 e.2) x.colMap ∧
      x.returned.layers = x.layers := by
  unfold ArrayS.returned
  dsimp only
  split <;> exact ⟨rfl, rfl, rfl⟩

/-- A partition leaves the streamed variants of layers `own`, and requests those that it still needs (R49, R111). -/
def Part.leave (own request : Line) (q : Part) : Part :=
  { q with streams := (q.nextStreams.getD q.streams &&& ~~~ own) ||| request, nextStreams := none }

/-- A partition that has left its streamed variants leaves nothing more the second time. -/
theorem Part.leave_leave (own request : Line) (q : Part) : (q.leave own request).leave own request = q.leave own request := by
  have hstreams (l : Line) : (((l &&& ~~~ own) ||| request) &&& ~~~ own) ||| request = (l &&& ~~~ own) ||| request := by
    ext i
    simp only [BitVec.getElem_or, BitVec.getElem_and, BitVec.getElem_not]
    cases l[i] <;> cases own[i] <;> cases request[i] <;> rfl
  simp only [Part.leave, Option.getD_none, hstreams]

/-- A stream request rests on the partition's state and arrays, and on the arrays of the device (R248). -/
theorem State.streamRequest_congr {s t : State} {p : Nat} (hst : (t.part p).st = (s.part p).st) (harrays : (t.part p).arrays = (s.part p).arrays)
    (h : t.arrays = s.arrays) : t.streamRequest p = s.streamRequest p := by
  simp only [State.streamRequest, hst, harrays, State.array_congr h]

/-- One partition leaves its streamed variants (R49). -/
def State.leaveOne (s : State) (own : Line) (p : Nat) : State := s.updPart p (Part.leave own (s.streamRequest p))

theorem State.part_leaveOne (own : Line) (p k : Nat) :
    (s.leaveOne own p).part k = if k = p then (s.part p).leave own (s.streamRequest p) else s.part k := s.part_setPart p k _

@[simp] theorem State.leaveOne_streamRequest (own : Line) (p k : Nat) : (s.leaveOne own p).streamRequest k = s.streamRequest k := by
  have hpart := s.part_leaveOne own p k
  have hkept : ((s.leaveOne own p).part k).st = (s.part k).st ∧ ((s.leaveOne own p).part k).arrays = (s.part k).arrays := by
    rw [hpart]
    split
    next hk => subst hk; exact ⟨rfl, rfl⟩
    next => exact ⟨rfl, rfl⟩
  exact State.streamRequest_congr hkept.1 hkept.2 rfl

theorem State.leaveStreams_eq (a : Nat) : s.leaveStreams a = (s.usersOf a).foldl (fun t p => t.leaveOne (layerBits (s.array a).layers) p) s := rfl

theorem foldl_leaveOne_arrays (own : Line) (ps : List Nat) : (ps.foldl (fun t p => t.leaveOne own p) s).arrays = s.arrays :=
  foldl_keeps State.arrays (fun t p => t.leaveOne own p) (fun _ _ => rfl) ps s

theorem foldl_leaveOne_streamRequest (own : Line) (ps : List Nat) (k : Nat) :
    (ps.foldl (fun t p => t.leaveOne own p) s).streamRequest k = s.streamRequest k :=
  foldl_keeps (fun t => t.streamRequest k) (fun t p => t.leaveOne own p) (fun t p => t.leaveOne_streamRequest own p k) ps s

/-- Every partition of a list leaves its streamed variants, once however often it is listed. -/
theorem foldl_leaveOne_part (own : Line) (ps : List Nat) (k : Nat) :
    (ps.foldl (fun t p => t.leaveOne own p) s).part k = if k ∈ ps then (s.part k).leave own (s.streamRequest k) else s.part k := by
  induction ps generalizing s with
  | nil => rfl
  | cons p ps ih =>
    rw [List.foldl_cons, ih, State.leaveOne_streamRequest, State.part_leaveOne]
    by_cases hk : k = p
    · subst hk
      simp [Part.leave_leave]
    · simp [hk]

/-! ## Corrections saved (R99) -/

/-- An array with its saved corrections set aside: what a save leaves of it. -/
def ArrayS.unsaved (x : ArrayS) : ArrayS := { x with corrSaved := [] }

/-- An array with its corrections saved (R99). -/
def ArrayS.withSaved (x : ArrayS) : ArrayS := { x with corrSaved := x.corr }

theorem State.saveCorr_arrays : s.saveCorr.arrays = SMap.mapVals s.arrays {} (fun _ => ArrayS.withSaved) := rfl

theorem ArrayS.withSaved_unsaved (x : ArrayS) : x.withSaved.unsaved = x.unsaved := rfl

/-- A save that may follow a user calibration changes the saved corrections of arrays only. -/
theorem State.afterUser_arrays (open_ : Bool) (h : SMap.rising s.arrays = true) :
    SMap.rising (s.afterUser open_).arrays = true ∧ ∀ b, ((s.afterUser open_).array b).unsaved = (s.array b).unsaved := by
  unfold State.afterUser
  split
  · refine ⟨s.saveCorr_arrays ▸ SMap.rising_mapVals _ _ _ h, fun b => ?_⟩
    rw [State.array_get, State.saveCorr_arrays]
    exact SMap.view_get_mapVals ArrayS.unsaved s.arrays {} _ b h fun x => x.withSaved_unsaved
  · exact ⟨h, fun _ => rfl⟩

/-- The array written last keeps what was written, its saved corrections apart, whatever other arrays the map lists. -/
theorem State.afterUser_setArray (open_ : Bool) (a : Nat) (v : ArrayS) :
    (((s.setArray a v).afterUser open_).array a).unsaved = v.unsaved := by
  unfold State.afterUser
  split
  · rw [State.array_get, State.saveCorr_arrays, State.setArray_arrays, SMap.get_mapVals_set_same _ _ _ _ _ fun _ => rfl,
      ArrayS.withSaved_unsaved]
  · rw [State.array_setArray_same]

@[simp] theorem State.tile_afterUser (open_ : Bool) (n : Nat) : (s.afterUser open_).tile n = s.tile n := by
  unfold State.afterUser
  split <;> rfl

/-- An array whose full calibration is given up (R112). -/
def ArrayS.givenUp (x : ArrayS) : ArrayS := { x with running := none, stage := 0, stageSlots := 0, detached := none, suspended := false }

/-- The full calibration of an array given up, before the corrections are saved. -/
def State.leaveCal (s : State) (a : Nat) : State :=
  s.updTile (a / 64) (fun t => { t.dropRequests a with calNow := if t.calNow = some (BitVec.ofNat 15 a) then none else t.calNow })

theorem State.dropCal_eq (a : Nat) :
    s.dropCal a = ((s.leaveCal a).setArray a ((s.array a).givenUp)).afterUser s.userOpen := rfl

theorem State.array_dropCal_same (a : Nat) : ((s.dropCal a).array a).unsaved = (s.array a).givenUp.unsaved := by
  rw [State.dropCal_eq, State.afterUser_setArray]

theorem State.rising_setArray (a : Nat) (v : ArrayS) (h : SMap.rising s.arrays = true) : SMap.rising (s.setArray a v).arrays = true := by
  rw [State.setArray_arrays]
  exact SMap.rising_set {} s.arrays a v h

theorem State.dropCal_arrays (a : Nat) (h : SMap.rising s.arrays = true) :
    SMap.rising (s.dropCal a).arrays = true ∧ ∀ b, b ≠ a → ((s.dropCal a).array b).unsaved = (s.array b).unsaved := by
  rw [State.dropCal_eq]
  obtain ⟨hrising, hothers⟩ := State.afterUser_arrays ((s.leaveCal a).setArray a (s.array a).givenUp) s.userOpen
    ((s.leaveCal a).rising_setArray a _ h)
  refine ⟨hrising, fun b hb => (hothers b).trans ?_⟩
  rw [State.array_setArray_other _ _ hb]
  rfl

/-- A calibration given up leaves the tile's program engine alone. -/
theorem State.tile_dropCal_engine (a n : Nat) :
    ((s.dropCal a).tile n).progQueue = (s.tile n).progQueue ∧ ((s.dropCal a).tile n).progNow = (s.tile n).progNow := by
  rw [State.dropCal_eq, State.tile_afterUser, State.tile_setArray_of, State.leaveCal]
  by_cases hn : n = a / 64
  · subst hn
    rw [State.tile_updTile_same]
    exact ⟨rfl, rfl⟩
  · rw [State.tile_updTile_other _ _ _ _ hn]
    exact ⟨rfl, rfl⟩

/-! ## Programming (R51) -/

/-- An array after its rows are programmed: weights and tally sums, and the mapped spares written. -/
theorem ArrayS.programmed_eq (x : ArrayS) (cells : SMap Int) :
    ∃ spare, x.programmed cells = { x with cells := cells, tally := tallySums cells, spare := spare } := by
  unfold ArrayS.programmed
  dsimp only
  refine List.foldlRecOn (motive := fun z : ArrayS => ∃ spare, z = { x with cells := cells, tally := tallySums cells, spare := spare })
    _ _ ⟨[], rfl⟩ ?_
  rintro _ ⟨spare, rfl⟩ e -
  split
  · exact ⟨_, ArrayS.programSpare_frame _ _ _⟩
  · exact ⟨spare, rfl⟩

/-! ## The figure and the replacement (R101, R102, R268) -/

@[simp] theorem State.array_setQuality (a : Nat) (q : BitVec 16) : (s.setQuality a q).array a = { s.array a with quality := q } := by
  unfold State.setQuality
  dsimp only
  split
  · rw [State.array_requestCal, State.array_arrayEvent, State.array_updArray_same]
  · rw [State.array_updArray_same]

theorem State.tile_setQuality (a n : Nat) (q : BitVec 16) :
    (s.setQuality a q).tile n = { s.tile n with calPrio := ((s.setQuality a q).tile n).calPrio } := by
  unfold State.setQuality
  dsimp only
  split
  · rw [State.tile_requestCal, State.tile_arrayEvent, State.tile_updArray_of]
  · rfl

/-- Arrays counted for a replacement change partitions only. -/
theorem State.countProgrammed_beside (p : Nat) : (s.countProgrammed p).arrays = s.arrays ∧ (s.countProgrammed p).tiles = s.tiles := by
  unfold State.countProgrammed
  dsimp only
  split <;> exact ⟨rfl, rfl⟩

theorem foldl_countProgrammed_beside (ps : List Nat) :
    (ps.foldl (fun u p => u.countProgrammed p) s).arrays = s.arrays ∧ (ps.foldl (fun u p => u.countProgrammed p) s).tiles = s.tiles :=
  ⟨foldl_keeps State.arrays (fun u p => u.countProgrammed p) (fun u p => (u.countProgrammed_beside p).1) ps s,
    foldl_keeps State.tiles (fun u p => u.countProgrammed p) (fun u p => (u.countProgrammed_beside p).2) ps s⟩

end Sys2Proof.Machine
end

section
/-! Certificate of O14: diagnosis, spare programming and return of a Withdrawn array, the program engine's start and end, and the release
erase (R47-R54, R251), a lemma for each. -/

namespace Sys2Proof.Machine

variable {s : State} {array : ArrayNo}

/-! ## Diagnosis (R49) -/

theorem exec_arrayDiagnosisEnd_failed {failed : List (BitVec 9)} (hst : (s.array array.toNat).st = .withdrawn)
    (hdiag : (s.array array.toNat).diagnosing = true) (h : failed = [] ∨ (s.array array.toNat).freeSpares.length < failed.length) :
    exec (.arrayDiagnosisEnd array failed) s = .next (s.unrepairable array.toNat) := by
  change execArrayDiagnosisEnd array failed s = _
  rw [execArrayDiagnosisEnd, if_pos ⟨hst, hdiag⟩, if_pos (by simpa only [List.isEmpty_iff] using h)]

theorem exec_arrayDiagnosisEnd_repaired {failed : List (BitVec 9)} (hst : (s.array array.toNat).st = .withdrawn)
    (hdiag : (s.array array.toNat).diagnosing = true) (h : ¬ (failed = [] ∨ (s.array array.toNat).freeSpares.length < failed.length)) :
    exec (.arrayDiagnosisEnd array failed) s =
      .next ((s.setArray array.toNat { s.array array.toNat with diagnosing := false, failedCols := failed }).arrayEvent 2 array.toNat 3 3) := by
  change execArrayDiagnosisEnd array failed s = _
  rw [execArrayDiagnosisEnd, if_pos ⟨hst, hdiag⟩, if_neg (by simpa only [List.isEmpty_iff] using h)]

theorem arrayDiagnosisEnd_decides (failed : List (BitVec 9)) (hst : (s.array array.toNat).st = .withdrawn)
    (hdiag : (s.array array.toNat).diagnosing = true) :
    let x := s.array array.toNat
    ∃ t, exec (.arrayDiagnosisEnd array failed) s = .next t ∧
      (if failed = [] ∨ x.freeSpares.length < failed.length then (t.array array.toNat).st = .failed
       else (t.array array.toNat).st = .withdrawn ∧ (t.array array.toNat).failedCols = failed) ∧
      (t.array array.toNat).diagnosing = false ∧ (t.array array.toNat).progCount = x.progCount ∧ t.spad = s.spad := by
  intro x
  by_cases h : failed = [] ∨ x.freeSpares.length < failed.length
  · have harray := s.array_unrepairable array.toNat
    refine ⟨_, exec_arrayDiagnosisEnd_failed hst hdiag h, ?_⟩
    rw [if_pos h, harray]
    exact ⟨rfl, rfl, rfl, State.unrepairable_spad s _⟩
  · refine ⟨_, exec_arrayDiagnosisEnd_repaired hst hdiag h, ?_⟩
    rw [if_neg h, State.array_arrayEvent, State.array_setArray_same, State.arrayEvent_spad, State.setArray_spad]
    exact ⟨⟨hst, rfl⟩, rfl, rfl, rfl⟩

/-! ## Spare programming and return (R47-R49) -/

theorem spareProgrammingEnd_programs (column : BitVec 9) {k : Nat} (hst : (s.array array.toNat).st = .withdrawn)
    (hcol : (s.array array.toNat).failedCols.contains column = true) (hfree : (s.array array.toNat).freeSpares.head? = some k) :
    let x := s.array array.toNat
    ∃ t, exec (.spareProgrammingEnd array column) s = .next t ∧
      SMap.get (t.array array.toNat).colMapNew 0 k = fieldEntry column.toNat ∧ (t.array array.toNat).colMap = x.colMap ∧
      (∀ r, r < 512 → SMap.get (t.array array.toNat).spare 0 (8 * r + k) = x.colCell column.toNat r) ∧
      column ∉ (t.array array.toNat).failedCols ∧ (t.array array.toNat).progCount = x.progCount := by
  intro x
  have hexec : exec (.spareProgrammingEnd array column) s = .next (s.setArray array.toNat (x.repairCol column.toNat)) := by
    change execSpareProgrammingEnd array column s = _
    rw [execSpareProgrammingEnd, if_pos ⟨hst, hcol⟩]
  refine ⟨_, hexec, ?_⟩
  rw [State.array_setArray_same, x.repairCol_of_free column.toNat hfree]
  dsimp only
  exact ⟨SMap.get_set_same _ _ _ _, rfl, fun r hr => x.get_programSpare k column.toNat hr, by simp, rfl⟩

/-- The array that returns, before its users leave their streamed variants. -/
def State.arrayBack (s : State) (a : Nat) : State := (s.setArray a (s.array a).returned).arrayEvent 2 a 2 3

theorem State.array_arrayBack (s : State) (a b : Nat) : (s.arrayBack a).array b = if b = a then (s.array a).returned else s.array b := by
  rw [State.arrayBack, State.array_arrayEvent, State.array_setArray]

@[simp] theorem State.part_arrayBack (s : State) (a p : Nat) : (s.arrayBack a).part p = s.part p := by
  rw [State.arrayBack, State.part_arrayEvent, State.part_setArray_of]

theorem State.usersOf_arrayBack (s : State) (a b : Nat) : (s.arrayBack a).usersOf b = s.usersOf b := by
  rw [State.usersOf, State.arrayBack, State.arrayEvent_parts, State.setArray_parts, State.usersOf]

theorem exec_arrayReturn (hst : (s.array array.toNat).st = .withdrawn) (hdiag : (s.array array.toNat).diagnosing = false)
    (hcols : (s.array array.toNat).failedCols = []) (hboundary : (s.usersOf array.toNat).all s.atBoundary = true) :
    exec (.arrayReturn array) s = .next ((s.usersOf array.toNat).foldl
      (fun t p => t.leaveOne (layerBits (s.array array.toNat).layers) p) (s.arrayBack array.toNat)) := by
  change execArrayReturn array s = _
  rw [execArrayReturn, if_pos ⟨hst, hdiag, hcols, hboundary⟩]
  have hlayers : ((s.arrayBack array.toNat).array array.toNat).layers = (s.array array.toNat).layers := by
    rw [State.array_arrayBack, if_pos rfl, (ArrayS.returned_colMap _).2.2]
  have hleave := (s.arrayBack array.toNat).leaveStreams_eq array.toNat
  rw [State.usersOf_arrayBack, hlayers] at hleave
  exact congrArg Host.Outcome.next hleave

theorem arrayReturn_returns (hst : (s.array array.toNat).st = .withdrawn) (hdiag : (s.array array.toNat).diagnosing = false)
    (hcols : (s.array array.toNat).failedCols = []) (hboundary : (s.usersOf array.toNat).all s.atBoundary = true) :
    let x := s.array array.toNat
    ∃ t, exec (.arrayReturn array) s = .next t ∧ (t.array array.toNat).st = .resident ∧ (t.array array.toNat).colMapNew = [] ∧
      (t.array array.toNat).colMap = x.colMapNew.foldl (fun m e => SMap.set m 0 e.1 e.2) x.colMap ∧
      (∀ a, a ≠ array.toNat → t.array a = s.array a) ∧ (∀ p, p ∉ s.usersOf array.toNat → t.part p = s.part p) ∧
      ∀ p ∈ s.usersOf array.toNat, (t.part p).nextStreams = none ∧ (t.part p).streams =
        ((s.part p).nextStreams.getD (s.part p).streams &&& ~~~ layerBits x.layers) ||| t.streamRequest p := by
  intro x
  refine ⟨_, exec_arrayReturn hst hdiag hcols hboundary, ?_⟩
  generalize hu : s.arrayBack array.toNat = u
  have harray (a : Nat) : ((s.usersOf array.toNat).foldl (fun t p => t.leaveOne (layerBits x.layers) p) u).array a =
      if a = array.toNat then x.returned else s.array a := by
    rw [State.array_congr (foldl_leaveOne_arrays u (layerBits x.layers) (s.usersOf array.toNat)), ← hu, State.array_arrayBack]
  have hpart (p : Nat) : ((s.usersOf array.toNat).foldl (fun t p => t.leaveOne (layerBits x.layers) p) u).part p =
      if p ∈ s.usersOf array.toNat then (s.part p).leave (layerBits x.layers) (u.streamRequest p) else s.part p := by
    rw [foldl_leaveOne_part, ← hu, State.part_arrayBack]
  obtain ⟨hnew, hmap, -⟩ := x.returned_colMap
  refine ⟨?_, ?_, ?_, fun a ha => ?_, fun p hp => ?_, fun p hp => ?_⟩
  · rw [harray, if_pos rfl]
    rfl
  · rw [harray, if_pos rfl, hnew]
  · rw [harray, if_pos rfl, hmap]
  · rw [harray, if_neg ha]
  · rw [hpart, if_neg hp]
  · rw [hpart, if_pos hp, foldl_leaveOne_streamRequest]
    exact ⟨rfl, rfl⟩

/-! ## The program engine starts (R51) -/

/-- The array that the program engine has erased and programmed (R51 steps 2 to 4), no column awaiting repair. -/
def ArrayS.underProgramming (x : ArrayS) (cells : List (Nat × Int)) (dig : BitVec 384) : ArrayS :=
  ({ x with st := .programming, progCount := x.progCount + 1, marker := true, diagnosing := false, failedCols := [], image := some dig
            win := {} } : ArrayS).programmed (cellMap cells)

/-- The program engine has taken array `a`, the next of its queue. -/
def State.engineTakes (s : State) (a : Nat) (cells : List (Nat × Int)) (dig : BitVec 384) : State :=
  ((s.setArray a ((s.array a).underProgramming cells dig)).dropCal a).updTile (a / 64) (fun t =>
    { t.nextProgram with progNow := some (BitVec.ofNat 15 a) })

/-- With no column awaiting repair the engine takes the array, and an event says where the program count calls for one (R53). -/
theorem State.programArray_of_whole (s : State) (a : Nat) (cells : List (Nat × Int)) (dig : BitVec 384) (h : (s.array a).failedCols = []) :
    s.programArray a cells dig =
      if (s.array a).progCount + 1 = s.dict.warnAt.toNat ∨ 10000 < (s.array a).progCount + 1 then
        (s.engineTakes a cells dig).arrayEvent 3 a ((s.array a).progCount + 1) (s.array a).progCount
      else s.engineTakes a cells dig := by
  unfold State.programArray
  dsimp only
  rw [h, if_neg (by simp)]
  rfl

theorem State.array_programArray {s : State} {a : Nat} (cells : List (Nat × Int)) (dig : BitVec 384) (h : (s.array a).failedCols = []) :
    ((s.programArray a cells dig).array a).unsaved = ((s.array a).underProgramming cells dig).givenUp.unsaved := by
  have htakes : ((s.engineTakes a cells dig).array a).unsaved = ((s.array a).underProgramming cells dig).givenUp.unsaved := by
    rw [State.engineTakes, State.array_updTile_of, State.array_dropCal_same, State.array_setArray_same]
  rw [s.programArray_of_whole a cells dig h]
  split
  · rw [State.array_arrayEvent, htakes]
  · exact htakes

theorem State.tile_programArray {s : State} {a : Nat} (cells : List (Nat × Int)) (dig : BitVec 384) (h : (s.array a).failedCols = []) :
    ((s.programArray a cells dig).tile (a / 64)).progNow = some (BitVec.ofNat 15 a) ∧
      ((s.programArray a cells dig).tile (a / 64)).progQueue = (s.tile (a / 64)).progQueue.drop 1 := by
  have htakes : ((s.engineTakes a cells dig).tile (a / 64)).progNow = some (BitVec.ofNat 15 a) ∧
      ((s.engineTakes a cells dig).tile (a / 64)).progQueue = (s.tile (a / 64)).progQueue.drop 1 := by
    rw [State.engineTakes, State.tile_updTile_same]
    exact ⟨rfl, congrArg (List.drop 1) (State.tile_dropCal_engine _ a (a / 64)).1⟩
  rw [s.programArray_of_whole a cells dig h]
  split
  · rw [State.tile_arrayEvent]
    exact htakes
  · exact htakes

theorem exec_arrayProgrammingStart {tile : TileNo} {a : ArrayNo} {rest : List ArrayNo} {cells : List (Nat × Int)} (d : BitVec 384)
    (hqueue : (s.tile tile.toNat).progQueue = a :: rest) (hnow : (s.tile tile.toNat).progNow = none)
    (hst : (s.array a.toNat).st.programmable = true) (hcells : ∀ c ∈ cells, -7 ≤ c.2 ∧ c.2 ≤ 7) (hcount : (s.array a.toNat).progCount < 10000) :
    exec (.arrayProgrammingStart tile cells d true) s = .next (s.programArray a.toNat cells d) := by
  have hweights : cells.any (fun c => decide (c.2 < -7 ∨ 7 < c.2)) = false :=
    List.any_eq_false.2 fun c hc => by have := hcells c hc; simp only [decide_eq_true_eq]; omega
  change execArrayProgrammingStart tile cells d true s = _
  rw [execArrayProgrammingStart]
  simp only [hqueue]
  rw [if_neg (by simp [hnow, hst]), if_neg (by simp only [hweights]; simp), if_neg (by omega)]

theorem arrayProgrammingStart_programs {tile : TileNo} {a : ArrayNo} {rest : List ArrayNo} {cells : List (Nat × Int)} (d : BitVec 384)
    (hqueue : (s.tile tile.toNat).progQueue = a :: rest) (hnow : (s.tile tile.toNat).progNow = none)
    (hst : (s.array a.toNat).st.programmable = true) (htile : a.toNat / 64 = tile.toNat) (hcells : ∀ c ∈ cells, -7 ≤ c.2 ∧ c.2 ≤ 7)
    (hcount : (s.array a.toNat).progCount < 10000) (hcols : (s.array a.toNat).failedCols = []) :
    ∃ t, exec (.arrayProgrammingStart tile cells d true) s = .next t ∧ (t.array a.toNat).st = .programming ∧
      (t.array a.toNat).progCount = (s.array a.toNat).progCount + 1 ∧ (t.array a.toNat).marker = true ∧
      (t.array a.toNat).cells = cellMap cells ∧ (t.array a.toNat).tally = tallySums (cellMap cells) ∧
      (t.tile tile.toNat).progNow = some a ∧ (t.tile tile.toNat).progQueue = rest := by
  obtain ⟨spare, hunder⟩ := ArrayS.programmed_eq { s.array a.toNat with
    st := .programming, progCount := (s.array a.toNat).progCount + 1, marker := true, diagnosing := false, failedCols := []
    image := some d, win := {} } (cellMap cells)
  have harray := State.array_programArray cells d hcols
  rw [ArrayS.underProgramming, hunder] at harray
  obtain ⟨hprogNow, hprogQueue⟩ := State.tile_programArray cells d hcols
  rw [htile, hqueue] at hprogQueue
  rw [htile, BitVec.ofNat_toNat, BitVec.setWidth_eq] at hprogNow
  exact ⟨_, exec_arrayProgrammingStart d hqueue hnow hst hcells hcount, congrArg ArrayS.st harray, congrArg ArrayS.progCount harray,
    congrArg ArrayS.marker harray, congrArg ArrayS.cells harray, congrArg ArrayS.tally harray, hprogNow, hprogQueue⟩

/-! ## The program engine ends (R51, R104, R113) -/

theorem arrayProgrammingEnd_fails {bad : List (BitVec 9)} (offsets gains : List Int) (sums : List (BitVec 12)) (q : BitVec 16)
    (hst : (s.array array.toNat).st = .programming) (hbad : (s.array array.toNat).freeSpares.length < bad.length) :
    ∃ t, exec (.arrayProgrammingEnd array bad offsets gains sums q) s = .next t ∧ (t.array array.toNat).st = .failed ∧
      (t.array array.toNat).marker = (s.array array.toNat).marker ∧ (t.tile (array.toNat / 64)).progNow = none := by
  have hexec : exec (.arrayProgrammingEnd array bad offsets gains sums q) s =
      .next ((s.updTile (array.toNat / 64) (fun t => { t with progNow := none })).unrepairable array.toNat) := by
    change execArrayProgrammingEnd array bad offsets gains sums q s = _
    unfold execArrayProgrammingEnd
    dsimp only
    rw [if_neg (not_not.2 hst), if_pos hbad]
  refine ⟨_, hexec, ?_⟩
  rw [State.array_unrepairable, State.tile_unrepairable, State.array_updTile_of, State.tile_updTile_same]
  exact ⟨rfl, rfl, rfl⟩

/-- A calibration set with the sums of a programming (R95). -/
def CalSet.withSums (c : CalSet) (sums : List (BitVec 12)) (count : Nat) : CalSet :=
  { c with sums := sumsOf sums, sumsProg := BitVec.ofNat 32 count }

/-- The array at the end of its programming: its failing columns repaired, Resident, its marker clear, calibrated (R51 steps 5 to 7). -/
def State.programmedArray (s : State) (a : Nat) (bad : List (BitVec 9)) (offsets gains : List Int) (sums : List (BitVec 12)) : ArrayS :=
  let x := bad.foldl (fun y c => y.repairCol c.toNat) (s.array a)
  ({ x with
    st := .resident, marker := false, stale := false, lastFull := s.dawn.hours, corr := corrOf offsets gains
    cal := { x.cal.withSums sums x.progCount with writes := x.cal.writes + 29, hours := BitVec.ofNat 48 s.dawn.hours }
    staging := x.staging.map (fun (e : StagedSet) => { e with set := e.set.withSums sums x.progCount }) } : ArrayS).retrim (s.tileTemp (a / 64))

theorem State.programmedArray_fields (s : State) (a : Nat) (bad : List (BitVec 9)) (offsets gains : List Int) (sums : List (BitVec 12)) :
    let y := s.programmedArray a bad offsets gains sums
    y.st = .resident ∧ y.marker = false ∧ y.cal.sums = sumsOf sums ∧ y.corr = corrOf offsets gains ∧ y.lastFull = s.dawn.hours ∧
      y.progCount = (s.array a).progCount := by
  intro y
  have hy : y = s.programmedArray a bad offsets gains sums := rfl
  rw [State.programmedArray, ArrayS.retrim_frame] at hy
  rw [hy]
  exact ⟨rfl, rfl, rfl, rfl, rfl, ArrayS.repairCols_progCount (s.array a) bad⟩

/-- What follows once the array stands as programmed: its figure, a request where its set waits for a rebuild, the replacements that
count it, and Twilight where a converter is out of range (R51, R111, R113, R268). -/
def State.closeProgramming (s : State) (a : Nat) (y : ArrayS) (q : BitVec 16) : State :=
  let s1 := (s.setArray a y).setQuality a q
  let s2 := if y.rebuild = 1 then s1.requestCal a else s1
  let s3 := (s2.usersOf a).foldl (fun u p => u.countProgrammed p) s2
  if y.untrim ≠ [] then s3.twilight 0x03 else s3

theorem State.array_closeProgramming (s : State) (a : Nat) (y : ArrayS) (q : BitVec 16) :
    (s.closeProgramming a y q).array a = { y with quality := q } := by
  have hcount (u : State) (ps : List Nat) : (ps.foldl (fun u p => u.countProgrammed p) u).array a = u.array a :=
    State.array_congr (foldl_countProgrammed_beside u ps).1 a
  have hquality : ((s.setArray a y).setQuality a q).array a = { y with quality := q } := by
    rw [State.array_setQuality, State.array_setArray_same]
  unfold State.closeProgramming
  dsimp only
  split <;> split <;> simp only [State.array_twilight, hcount, State.array_requestCal, hquality]

theorem State.tile_closeProgramming (s : State) (a n : Nat) (y : ArrayS) (q : BitVec 16) :
    ((s.closeProgramming a y q).tile n).progNow = (s.tile n).progNow := by
  have hcount (u : State) (ps : List Nat) : (ps.foldl (fun u p => u.countProgrammed p) u).tile n = u.tile n :=
    State.tile_congr (foldl_countProgrammed_beside u ps).2 n
  have hquality : (((s.setArray a y).setQuality a q).tile n).progNow = (s.tile n).progNow := by
    rw [State.tile_setQuality, State.tile_setArray_of]
  have hrequest (u : State) : ((u.requestCal a).tile n).progNow = (u.tile n).progNow := by rw [State.tile_requestCal]
  unfold State.closeProgramming
  dsimp only
  split <;> split <;> simp only [State.tile_twilight, hcount, hrequest, hquality]

theorem exec_arrayProgrammingEnd {bad : List (BitVec 9)} (offsets gains : List Int) (sums : List (BitVec 12)) (q : BitVec 16)
    (hst : (s.array array.toNat).st = .programming) (hbad : bad.length ≤ (s.array array.toNat).freeSpares.length) :
    exec (.arrayProgrammingEnd array bad offsets gains sums q) s =
      .next ((s.updTile (array.toNat / 64) (fun t => { t with progNow := none })).closeProgramming array.toNat
        (s.programmedArray array.toNat bad offsets gains sums) q) := by
  change execArrayProgrammingEnd array bad offsets gains sums q s = _
  unfold execArrayProgrammingEnd
  dsimp only
  rw [if_neg (not_not.2 hst), if_neg (Nat.not_lt.2 hbad)]
  rfl

/-! ## Release erase (R57, R251) -/

/-- One array of a release erase, with its event where the program count calls for one (R53, R57). -/
def State.releaseOne (s : State) (lost : Bool) (warnAt a : Nat) : State :=
  let t := (s.updArray a (fun x => x.released lost)).dropCal a
  if (s.array a).progCount + 1 = warnAt ∨ 10000 ≤ (s.array a).progCount then t.arrayEvent 3 a ((s.array a).progCount + 1) (s.array a).progCount
  else t

theorem State.releaseOne_arrays (s : State) (lost : Bool) (warnAt a : Nat) :
    (s.releaseOne lost warnAt a).arrays = ((s.updArray a (fun x => x.released lost)).dropCal a).arrays := by
  unfold State.releaseOne
  dsimp only
  split
  · rw [State.arrayEvent_arrays]
  · rfl

theorem State.releaseOne_same (s : State) (lost : Bool) (warnAt a : Nat) :
    ((s.releaseOne lost warnAt a).array a).unsaved = ((s.array a).released lost).givenUp.unsaved := by
  rw [State.array_congr (s.releaseOne_arrays lost warnAt a), State.array_dropCal_same, State.array_updArray_same]

theorem State.releaseOne_others (s : State) (lost : Bool) (warnAt a : Nat) (h : SMap.rising s.arrays = true) :
    SMap.rising (s.releaseOne lost warnAt a).arrays = true ∧
      ∀ b, b ≠ a → ((s.releaseOne lost warnAt a).array b).unsaved = (s.array b).unsaved := by
  obtain ⟨hrising, hothers⟩ := State.dropCal_arrays (s.updArray a (fun x => x.released lost)) a (s.rising_setArray a _ h)
  refine ⟨s.releaseOne_arrays lost warnAt a ▸ hrising, fun b hb => ?_⟩
  rw [State.array_congr (s.releaseOne_arrays lost warnAt a), hothers b hb, State.array_updArray_other _ _ hb]

/-- An array that a release erase does not name keeps what it holds. -/
theorem foldl_releaseOne_others (lost : Bool) (warnAt : Nat) (l : List Nat) (s : State) (h : SMap.rising s.arrays = true) {a : Nat}
    (ha : a ∉ l) : ((l.foldl (fun t b => t.releaseOne lost warnAt b) s).array a).unsaved = (s.array a).unsaved := by
  induction l generalizing s with
  | nil => rfl
  | cons b l ih =>
    obtain ⟨hb, hl⟩ := not_or.1 (mt List.mem_cons.2 ha)
    obtain ⟨hrising, hothers⟩ := s.releaseOne_others lost warnAt b h
    rw [List.foldl_cons, ih _ hrising hl, hothers a hb]

/-- An array that a release erase names once is erased once. -/
theorem foldl_releaseOne_same (lost : Bool) (warnAt : Nat) (l : List Nat) (s : State) (h : SMap.rising s.arrays = true) {a : Nat}
    (hnodup : l.Nodup) (ha : a ∈ l) : let x := (l.foldl (fun t b => t.releaseOne lost warnAt b) s).array a
    x.st = .erased ∧ x.progCount = (s.array a).progCount + 1 ∧ x.cells = [] ∧ x.marker = lost := by
  induction l generalizing s with
  | nil => cases ha
  | cons b l ih =>
    obtain ⟨hb, hnodup⟩ := List.nodup_cons.1 hnodup
    obtain ⟨hrising, hothers⟩ := s.releaseOne_others lost warnAt b h
    rw [List.foldl_cons]
    obtain rfl | ha := List.mem_cons.1 ha
    · have hx := (foldl_releaseOne_others lost warnAt l (s.releaseOne lost warnAt a) hrising hb).trans (s.releaseOne_same lost warnAt a)
      exact ⟨congrArg ArrayS.st hx, congrArg ArrayS.progCount hx, congrArg ArrayS.cells hx, congrArg ArrayS.marker hx⟩
    · have hne : a ≠ b := fun he => hb (he ▸ ha)
      obtain ⟨hst, hcount, hrest⟩ := ih (s.releaseOne lost warnAt b) hrising hnodup ha
      have hcountb : ((s.releaseOne lost warnAt b).array a).progCount = (s.array a).progCount :=
        (congrArg ArrayS.progCount (hothers a hne) :)
      exact ⟨hst, hcount.trans (congrArg (· + 1) hcountb), hrest⟩

/-- The arrays that a release erase names: Resident, of the base, below the endurance limit or past it by override (R53, R251). -/
def State.toRelease (s : State) (base : BitVec 5) : List Nat :=
  (s.arrays.filter (fun x => decide (x.2.base = some base ∧ x.2.st = .resident) &&
    (decide (x.2.progCount < 10000) || s.dict.override))).map (fun x => x.1)

theorem State.nodup_toRelease (base : BitVec 5) (h : SMap.rising s.arrays = true) : (s.toRelease base).Nodup :=
  SMap.nodup_keys _ (SMap.rising_filter _ _ h)

theorem State.mem_toRelease {base : BitVec 5} {a : Nat} (hbase : (s.array a).base = some base) (hst : (s.array a).st = .resident)
    (hcount : (s.array a).progCount < 10000) : a ∈ s.toRelease base := by
  have hne : SMap.get s.arrays {} a ≠ {} := fun he => by
    rw [State.array_get, he] at hst
    cases hst
  refine List.mem_map.2 ⟨(a, s.array a), List.mem_filter.2 ⟨SMap.mem_of_get_ne s.arrays {} a hne, ?_⟩, rfl⟩
  simp [hbase, hst, hcount]

theorem exec_releaseErase (base : BitVec 5) (lost : Bool) (hfree : (SMap.get s.dict.bases (0, 0) base.toNat).1 = 0) :
    exec (.releaseErase base lost) s =
      .next ((s.toRelease base).foldl (fun t a => t.releaseOne lost s.dict.warnAt.toNat a) s) := by
  change execReleaseErase base lost s = _
  rw [execReleaseErase, if_neg (not_not.2 hfree)]
  rfl

end Sys2Proof.Machine
end

section
open Sys2Proof Sys2Proof.Machine

/-- Settles O14, command by command: `arrayDiagnosisEnd_decides`, `spareProgrammingEnd_programs`, `arrayReturn_returns`,
`arrayProgrammingStart_programs`, the two ends of a programming, and the erase of each array that a release names
(`foldl_releaseOne_same`). -/
theorem arrayRepairAndProgramming : Obligations.ArrayRepairAndProgramming := by
  unfold Obligations.ArrayRepairAndProgramming
  refine ⟨⟨fun array failed s => arrayDiagnosisEnd_decides failed, fun array column k s => spareProgrammingEnd_programs column,
    fun array s => arrayReturn_returns⟩, fun tile a rest cells d s => arrayProgrammingStart_programs d,
    fun array bad offsets gains sums q s => arrayProgrammingEnd_fails offsets gains sums q, ?_, ?_⟩
  · intro array bad offsets gains sums q s x hst hbad
    refine ⟨_, exec_arrayProgrammingEnd offsets gains sums q hst hbad, ?_⟩
    obtain ⟨hres, hmarker, hsums, hcorr, hfull, hcount⟩ := s.programmedArray_fields array.toNat bad offsets gains sums
    rw [State.array_closeProgramming, State.tile_closeProgramming, State.tile_updTile_same]
    exact ⟨hres, hmarker, rfl, hsums, hcorr, hfull, hcount, rfl⟩
  · intro base lost a s hrising hfree hbase hst hcount
    obtain ⟨herased, hprog, hcells, hmarker⟩ := foldl_releaseOne_same lost s.dict.warnAt.toNat (s.toRelease base) s hrising
      (State.nodup_toRelease base hrising) (State.mem_toRelease hbase hst hcount)
    exact ⟨_, exec_releaseErase base lost hfree, herased, hprog, hcells, hmarker⟩

end

section
/-! Certificate of O6: the lane-wise functions, the generators and the reductions of the vector core (R62, R80, R133, R134, R182), a lemma
for each form. -/

namespace Sys2Proof.Machine

variable {s : State} {i : Issue} {v : VecOps} {c : Instr} {func : BitVec 6}

/-- A VEC function whose act writes 64 lanes of VD leaves them there and changes nothing else (R182). -/
theorem vecOp_gives {act : State → State} (ls : List W32) (hexec : exec c s = .next (s.vecOp i func v act))
    (hact : act (s.advance i 7 i.cycle.toNat) = (s.advance i 7 i.cycle.toNat).setVreg i v.vd ls) (hlen : ls.length = 64)
    (hissue : s.clearIssue i 7 = true) (haddr : v.addr = 0) (hupset : v.upset = false) :
    ∃ t, exec c s = .next t ∧ t.vreg i v.vd = ls ∧ OtherVregs i v.vd s t ∧ TileButVregs i s t ∧ IssueFrame i 7 s t := by
  rw [State.vecOp_clear s i func v act hissue haddr hupset, hact] at hexec
  exact ⟨_, hexec, State.vreg_setVreg_same _ i v.vd ls hlen, State.vec_frame s i v.vd ls⟩

theorem vec2_gives (f : W32 → W32 → W32) (hexec : exec c s = .next (s.vec2 i func v f))
    (hissue : s.clearIssue i 7 = true) (haddr : v.addr = 0) (hupset : v.upset = false) :
    ∃ t, exec c s = .next t ∧ t.vreg i v.vd = List.zipWith f (s.vreg i v.va) (s.vreg i v.vb) ∧
      OtherVregs i v.vd s t ∧ TileButVregs i s t ∧ IssueFrame i 7 s t :=
  vecOp_gives _ hexec (by simp only [State.advance_vreg]) (by simp) hissue haddr hupset

theorem vec1_gives (f : W32 → W32) (hexec : exec c s = .next (s.vec1 i func v f))
    (hissue : s.clearIssue i 7 = true) (haddr : v.addr = 0) (hupset : v.upset = false) :
    ∃ t, exec c s = .next t ∧ t.vreg i v.vd = (s.vreg i v.va).map f ∧
      OtherVregs i v.vd s t ∧ TileButVregs i s t ∧ IssueFrame i 7 s t :=
  vecOp_gives _ hexec (by simp only [State.advance_vreg]) (by simp) hissue haddr hupset

/-- Lane `l` of a function of two sources and the old destination. -/
theorem getD_zipWith_zip (f : W32 → W32 → W32 → W32) {a b d : List W32} {l : Nat} (ha : l < a.length) (hb : l < b.length)
    (hd : l < d.length) :
    (List.zipWith (fun p e => f p.1 p.2 e) (List.zip a b) d).getD l 0 = f (a.getD l 0) (b.getD l 0) (d.getD l 0) := by
  simp [List.getD, List.zip, ha, hb, hd]

theorem vec3_gives (f : W32 → W32 → W32 → W32) (hexec : exec c s = .next (s.vec3 i func v f))
    (hissue : s.clearIssue i 7 = true) (haddr : v.addr = 0) (hupset : v.upset = false) :
    ∃ t, exec c s = .next t ∧
      (∀ l, l < 64 → (t.vreg i v.vd).getD l 0 = f ((s.vreg i v.va).getD l 0) ((s.vreg i v.vb).getD l 0) ((s.vreg i v.vd).getD l 0)) ∧
      OtherVregs i v.vd s t ∧ TileButVregs i s t ∧ IssueFrame i 7 s t := by
  obtain ⟨t, ht, hvd, hframe⟩ := vecOp_gives
    (List.zipWith (fun p e => f p.1 p.2 e) (List.zip (s.vreg i v.va) (s.vreg i v.vb)) (s.vreg i v.vd)) hexec
    (by simp only [State.advance_vreg]) (by simp) hissue haddr hupset
  refine ⟨t, ht, fun l hl => ?_, hframe⟩
  rw [hvd]
  exact getD_zipWith_zip f (by simpa using hl) (by simpa using hl) (by simpa using hl)

/-- A reduction puts its word into every lane, or into lane 0, as the part is built (R62, R133). -/
theorem reduceTo_gives (f : List W32 → W32) (hexec : exec c s = .next (s.vecOp i func v (fun s => s.reduceTo i v.vd (f (s.vreg i v.va)))))
    (hissue : s.clearIssue i 7 = true) (haddr : v.addr = 0) (hupset : v.upset = false) :
    ∃ t, exec c s = .next t ∧
      t.vreg i v.vd = (if Config.reduceAll then List.replicate 64 (f (s.vreg i v.va)) else f (s.vreg i v.va) :: (s.vreg i v.vd).drop 1) ∧
      OtherVregs i v.vd s t ∧ TileButVregs i s t ∧ IssueFrame i 7 s t := by
  refine vecOp_gives _ hexec (by simp only [State.reduceTo, State.advance_vreg]) ?_ hissue haddr hupset
  split <;> simp

theorem lcvt_gives (hissue : s.clearIssue i 7 = true) (haddr : v.addr = 0) (hupset : v.upset = false) :
    ∃ t, exec (.lcvt i v) s = .next t ∧
      t.vreg i v.vd = List.zipWith (lcvtLane (s.strm i).qcfg.floor) (s.vreg i v.vb) ((s.tile i.tile.toNat).lacc v.lacc.toNat) ∧
      OtherVregs i v.vd s t ∧ TileButVregs i s t ∧ IssueFrame i 7 s t := by
  have hlacc : ((s.advance i 7 i.cycle.toNat).tile i.tile.toNat).lacc v.lacc.toNat = (s.tile i.tile.toNat).lacc v.lacc.toNat := by
    rw [State.tile_advance]
    rfl
  have hfloor : ((s.advance i 7 i.cycle.toNat).strm i).qcfg = (s.strm i).qcfg := by rw [State.advance_strm]
  exact vecOp_gives _ rfl (by simp only [State.advance_vreg, hlacc, hfloor]) (by simp [Tile.lacc]) hissue haddr hupset

/-- The Philox words of R80 as STRM spreads them over the lanes: `k` is the key register, `n` the counter register. -/
def philoxLanes (k n : List W32) : List W32 :=
  (List.range 64).map (fun l =>
    (philox (k.getD 0 0) (k.getD 1 0) (n.getD 0 0 + BitVec.ofNat 32 (l / 4)) (n.getD 1 0) (n.getD 2 0) (n.getD 3 0)).word l)

theorem strm_gives (hissue : s.clearIssue i 7 = true) (haddr : v.addr = 0) (hupset : v.upset = false) :
    ∃ t, exec (.strm i v) s = .next t ∧ t.vreg i v.vd = philoxLanes (s.vreg i v.va) (s.vreg i v.vb) ∧
      OtherVregs i v.vd s t ∧ TileButVregs i s t ∧ IssueFrame i 7 s t :=
  vecOp_gives (func := 0x23)
    (act := fun u => u.setVreg i v.vd (philoxLanes (u.vreg i v.va) (u.vreg i v.vb))) _ rfl (by simp only [State.advance_vreg])
    (by simp [philoxLanes]) hissue haddr hupset

end Sys2Proof.Machine
end

section
open Sys2Proof Sys2Proof.Machine

/-- Settles O6, form by form: `vec2_gives`, `vec3_gives`, `vec1_gives`, `lcvt_gives`, `strm_gives` and `reduceTo_gives`. -/
theorem vectorResults : Obligations.VectorResults := by
  unfold Obligations.VectorResults
  simp only [List.forall_mem_cons, List.not_mem_nil, false_implies, implies_true, and_true]
  refine ⟨⟨?_, ?_, ?_, ?_, ?_, ?_, ?_, ?_, ?_⟩, ⟨?_, ?_, ?_, ?_⟩, ?_, ?_, ?_, ?_, ?_, ?_, ?_, ?_, ?_, ?_, ?_⟩
  · exact fun i v s => vec2_gives f32Add rfl
  · exact fun i v s => vec2_gives f32Sub rfl
  · exact fun i v s => vec2_gives f32Mul rfl
  · exact fun i v s => vec2_gives (f32MinMax false) rfl
  · exact fun i v s => vec2_gives (f32MinMax true) rfl
  · exact fun i v s => vec2_gives (cmpLane v.md) rfl
  · exact fun i v s => vec2_gives (bf16Lane fvAdd) rfl
  · exact fun i v s => vec2_gives (bf16Lane fvMul) rfl
  · exact fun i v s => vec2_gives (fun a b => a + b) rfl
  · exact fun i v s => vec3_gives f32Fma rfl
  · exact fun i v s => vec3_gives (fun a b c => if Config.selFirst c then a else b) rfl
  · exact fun i v s => vec3_gives bf16Fma rfl
  · exact fun i v s => vec3_gives (fun a b c => c + BitVec.ofInt 32 (dot8 a b)) rfl
  · exact fun i v s => vec1_gives (cvtLane v.md) rfl
  · exact fun i v s => vec1_gives (f32Fn .exp) rfl
  · exact fun i v s => vec1_gives (f32Fn .log) rfl
  · exact fun i v s => vec1_gives (f32Fn .rcp) rfl
  · exact fun i v s => vec1_gives (f32Fn .rsq) rfl
  · exact fun i v s => vec1_gives (f32Fn .sig) rfl
  · exact fun i v s => vec1_gives (f32Fn .erf) rfl
  · exact fun i v s => lcvt_gives
  · exact fun i v s => strm_gives
  · exact fun i v s => reduceTo_gives (treeReduce f32Add 64) rfl
  · exact fun i v s => reduceTo_gives (treeReduce (f32MinMax true) 64) rfl

end

section
/-! SUPPORT. The stream of an issue after an update, a wide access at a later cycle than the issue's, and a line rewritten in place with a
header in the first lanes of a register (R66, R119-R121, R182). -/

namespace Sys2Proof.Machine

variable {s : State} {i : Issue}

/-! ## The stream of an issue -/

@[simp] theorem State.strm_updStrm (s : State) (i : Issue) (f : Stream → Stream) : (s.updStrm i f).strm i = f (s.strm i) := by
  rw [State.strm, State.updStrm, State.tile_updTile_same]
  exact SMap.get_set_same _ _ _ _

@[simp] theorem State.vreg_updStrm (s : State) (i : Issue) (f : Stream → Stream) (r : BitVec 6) : (s.updStrm i f).vreg i r = s.vreg i r := by
  rw [State.vreg, State.updStrm, State.tile_updTile_same]
  rfl

theorem OnlyOwnTile.updStrm {u : State} (h : OnlyOwnTile i s u) (f : Stream → Stream) : OnlyOwnTile i s (u.updStrm i f) :=
  OnlyOwnTile.updTile s u i (fun t => { t with streams := SMap.upd t.streams {} i.stream.toNat f }) h

theorem OnlyOwnTile.setVreg {u : State} (h : OnlyOwnTile i s u) (r : BitVec 6) (ls : List W32) : OnlyOwnTile i s (u.setVreg i r ls) :=
  OnlyOwnTile.updTile s u i (fun t => t.setLanes r.toNat 0 (ls.take 64)) h

theorem OnlyOwnTile.setPadLines {u : State} (h : OnlyOwnTile i s u) (t line : Nat) (ls : List (Line × Nat)) :
    OnlyOwnTile i s (u.setPadLines t line ls) :=
  List.foldlRecOn ls _ h fun w hw x _ => OnlyOwnTile.setPadLine s w i t (line + x.2) x.1 hw

@[simp] theorem State.vreg_charge (s : State) (i : Issue) (n : Nat) (r : BitVec 6) : (s.charge i n).vreg i r = s.vreg i r := by
  rw [State.vreg, State.tile_charge, State.vreg]

/-- What the stream holds beside its place in the program is the same on the state on which a line form acts. -/
theorem State.lineState_qcfg (s : State) (i : Issue) (line n : Nat) : ((s.lineState i line n).strm i).qcfg = (s.strm i).qcfg := by
  rw [State.lineState_strm]

theorem State.lineState_qpend (s : State) (i : Issue) (line n : Nat) : ((s.lineState i line n).strm i).qpend = (s.strm i).qpend := by
  rw [State.lineState_strm]

theorem State.lineState_tag (s : State) (i : Issue) (line n : Nat) : ((s.lineState i line n).strm i).tag = (s.strm i).tag := by
  rw [State.lineState_strm]

theorem State.lineState_owns (s : State) (i : Issue) (line n line' n' : Nat) (tag : Tag) :
    ((s.lineState i line n).tile i.tile.toNat).owns line' n' tag = (s.tile i.tile.toNat).owns line' n' tag := by
  rw [State.lineState_tile]
  rfl

theorem State.lineState_narrowW {v : VecOps} {n : Nat} (h : s.clearVecLines i v n = true) (line k : Nat) :
    ((s.lineState i line k).tile i.tile.toNat).narrowW = [] := by
  simp only [State.clearVecLines, Bool.and_eq_true] at h
  rw [State.lineState_tile]
  exact State.portsClear_narrowW h.2

/-! ## Wide accesses at a later cycle (R119-R121) -/

@[simp] theorem Tile.narrowW_withWide (t : Tile) (c line n : Nat) : (t.withWide c line n).narrowW = t.narrowW := rfl

@[simp] theorem Tile.vreg_withWide (t : Tile) (c line n r : Nat) : (t.withWide c line n).vreg r = t.vreg r := rfl

theorem Tile.takeWide_of_free {t : Tile} {c : Nat} (line : Nat) {n : Nat} (h : ∀ w ∈ t.wide, w.1 < c ∨ c + n ≤ w.1) :
    t.takeWide c line n = some (t.withWide c line n) := by
  rw [Tile.takeWide, if_neg]
  · rfl
  · simp only [List.any_map, List.any_eq_true, List.mem_range, Function.comp, decide_eq_true_eq, not_exists, not_and]
    intro k hk w hw
    have := h w hw
    omega

/-- Fills that stand clear of the cycles taken so far and of the new ones stand clear of all. -/
theorem Tile.fillsClear_withWide {t : Tile} {c : Nat} (line : Nat) {n : Nat} (hclear : t.fillsClear = true)
    (h : ∀ f ∈ t.fills, ∀ k < n, f.cycle ≠ some ((c + k : Nat) : Int)) : (t.withWide c line n).fillsClear = true := by
  refine List.all_eq_true.2 fun f hf => ?_
  have hold := List.all_eq_true.1 hclear f hf
  have hnew := h f hf
  cases hc : f.cycle with
  | none => rfl
  | some d =>
    simp only [hc, Bool.not_eq_true', Tile.wideAt, Tile.withWide, List.any_append, List.any_map, Bool.or_eq_false_iff] at hold ⊢
    refine ⟨hold, List.any_eq_false.2 fun k hk => ?_⟩
    have hne := hnew k (List.mem_range.1 hk)
    rw [hc] at hne
    simpa [eq_comm] using hne

/-- A wide use at cycles that are free, where no narrow access waits, is its own effect with the cycles taken. -/
theorem State.useWideAt_free (u : State) (i : Issue) {c : Nat} (line : Nat) {n : Nat} (act : State → State)
    (hwide : ∀ w ∈ (u.tile i.tile.toNat).wide, w.1 < c ∨ c + n ≤ w.1)
    (hfills : ((u.tile i.tile.toNat).withWide c line n).fillsClear = true) (hnarrow : (u.tile i.tile.toNat).narrow = []) :
    u.useWideAt i c line n act = act (u.setTile i.tile.toNat ((u.tile i.tile.toNat).withWide c line n)) := by
  simp only [State.useWideAt, Tile.takeWide_of_free line hwide]
  rw [State.yieldFills_clear _ _ (by rw [State.tile_setTile_same]; exact hfills),
    State.checkNarrow_nil _ _ (by rw [State.tile_setTile_same]; exact hnarrow)]

/-- The fills of a clear line access stand clear of the cycles it takes. -/
theorem State.lineState_fillsClear {line n : Nat} (h : s.portsClear i line n = true) :
    ((s.lineState i line n).tile i.tile.toNat).fillsClear = true := by
  simp only [State.portsClear, Bool.and_eq_true] at h
  obtain ⟨⟨⟨-, hclear⟩, -⟩, -⟩ := h
  rw [Tile.takeWide] at hclear
  split at hclear
  · exact absurd hclear Bool.false_ne_true
  · rw [State.lineState_tile]
    exact hclear

/-! ## A line rewritten in place -/

/-- A line and the first lanes of a vector register written together. -/
def State.rewriteLine (u : State) (i : Issue) (line : Nat) (l : Line) (vd : Nat) (ls : List W32) : State :=
  (u.setPadLine i.tile.toNat line l).updTile i.tile.toNat (fun t => t.setLanes vd 0 ls)

theorem State.rewriteLine_padLine (u : State) (i : Issue) (line : Nat) (l : Line) (vd : Nat) (ls : List W32) :
    (u.rewriteLine i line l vd ls).padLine i.tile.toNat line = l := by
  rw [State.rewriteLine, State.padLine_updTile, State.padLine_setPadLine_same]

theorem State.rewriteLine_outside {u : State} (h : u.spad = s.spad) (line : Nat) (l : Line) (vd : Nat) (ls : List W32) :
    PadOutside i.tile.toNat line 1 s (u.rewriteLine i line l vd ls) := by
  intro a ha
  rw [← h]
  exact u.setPadLine_out i.tile.toNat line l a ha

theorem State.rewriteLine_lane (u : State) (i : Issue) (line : Nat) (l : Line) (r : BitVec 6) (ls : List W32) (hlen : ls.length ≤ 64)
    {k : Nat} (hk : k < ls.length) : ((u.rewriteLine i line l r.toNat ls).vreg i r).getD k 0 = ls.getD k 0 := by
  rw [State.rewriteLine, State.vreg_setLanes _ _ _ _ _ _ (by omega), if_pos rfl]
  have hk64 : k < 64 := by omega
  simp [List.getD, hk64, hk]

theorem State.rewriteLine_take (u : State) (i : Issue) (line : Nat) (l : Line) (r : BitVec 6) (ls : List W32) (hlen : ls.length ≤ 64) :
    ((u.rewriteLine i line l r.toNat ls).vreg i r).take ls.length = ls := by
  refine List.ext_getElem (by simp [hlen]) fun k h1 h2 => ?_
  have hlane := u.rewriteLine_lane i line l r ls hlen h2
  have hk64 : k < 64 := by omega
  simpa [List.getD, h2, hk64] using hlane

theorem State.rewriteLine_own {u : State} (h : OnlyOwnTile i s u) (line : Nat) (l : Line) (vd : Nat) (ls : List W32) :
    OnlyOwnTile i s (u.rewriteLine i line l vd ls) :=
  (h.setPadLine s u i i.tile.toNat line l).updTile s _ i (fun t => t.setLanes vd 0 ls)

end Sys2Proof.Machine
end

section
/-! Certificate of O8, what holds: QCFG, QUANT, MXIN and MXOUT, a lemma for each clause (R64, R65, R89, R182, R183); and LANEF (R74) where no
queue use stands at the two cycles of its writes. -/

namespace Sys2Proof.Machine

variable {s : State} {i : Issue} {v : VecOps}

theorem hdrLanes_length (h : BurstHdr) : (hdrLanes h).length = 4 := rfl

/-! ## QCFG (R183) -/

/-- The group that the stream has begun, if any, closed. -/
def State.closeBegun (u : State) (i : Issue) : State := if (u.strm i).qpend.isEmpty then u else u.closeGroup i

theorem State.closeBegun_qpend (u : State) (i : Issue) : ((u.closeBegun i).strm i).qpend = [] := by
  unfold State.closeBegun
  split
  next h => exact List.isEmpty_iff.1 h
  next => rw [State.closeGroup, State.strm_updStrm]

theorem State.closeBegun_of_none {u : State} (h : (u.strm i).qpend = []) : u.closeBegun i = u :=
  if_pos (List.isEmpty_iff.2 h)

theorem qcfg_configures (fmt : Bool) (glog : BitVec 3) (sr : Bool) (floor cap : BitVec 8) (ll : BitVec 12) (lanes : Bool)
    (hissue : s.clearIssue i 7 = true) (hglog : glog ≠ 7) (hfloor : floor.toNat ≤ cap.toNat) (hcap : cap.toNat ≤ 254)
    (hwindow : cap.toNat ≤ floor.toNat + 15) (hlanes : ¬ (lanes = true ∧ fmt = true)) :
    ∃ t, exec (.qcfg i fmt glog sr floor cap ll lanes 0) s = .next t ∧
      (t.strm i).qcfg = ⟨fmt, glog, sr, floor, cap, ll, lanes⟩ ∧ (t.strm i).qpend = [] ∧
      ((s.strm i).qpend = [] → t.spad = s.spad ∧ OnlyOwnTile i s t ∧ (t.strm i).pc = (s.strm i).pc + 1) := by
  have hexec : exec (.qcfg i fmt glog sr floor cap ll lanes 0) s = .next (((s.advance i 7 i.cycle.toNat).closeBegun i).updStrm i
      (fun st => { st with qcfg := ⟨fmt, glog, sr, floor, cap, ll, lanes⟩ })) := by
    change execQcfg i fmt glog sr floor cap ll lanes 0 s = _
    rw [execQcfg, State.issue_clear s i 7 _ _ _ hissue (decide_eq_true ⟨rfl, hglog, hfloor, hcap, hwindow, hlanes⟩)]
    rfl
  refine ⟨_, hexec, by rw [State.strm_updStrm], ?_, fun hnone => ?_⟩
  · rw [State.strm_updStrm]
    exact (State.closeBegun_qpend (s.advance i 7 i.cycle.toNat) i :)
  · rw [State.closeBegun_of_none (by rw [State.advance_strm]; exact hnone)]
    exact ⟨by rw [State.updStrm_spad, State.spad_advance], (OnlyOwnTile.advance s i 7 i.cycle.toNat).updStrm _,
      by rw [State.strm_updStrm, State.advance_strm]⟩

/-! ## QUANT (R64, R72, R183) -/

/-- The inputs of a QUANT: 128 BF16 values of VA, or 128 FP32 values of VA and VA + 1. -/
def State.quantInput (s : State) (i : Issue) (v : VecOps) : List W32 :=
  if v.md.getLsbD 1 then bf16Lanes (s.vreg i v.va) else s.vreg i v.va ++ s.vreg i (v.va + 1)

/-- The burst that a QUANT gathers as number `n` of its group. -/
def State.quantGathers (s : State) (i : Issue) (v : VecOps) (n : Nat) : QBurst :=
  ⟨s.quantInput i v, s.vreg i v.vb ++ s.vreg i (v.vb + 1), v.vd.toNat, vlineNo v, v.md.getLsbD 0, n, s.lanePos i (s.strm i).qcfg n⟩

/-- The state with the burst of a QUANT gathered. -/
def State.gathered (s : State) (i : Issue) (v : VecOps) : State :=
  (s.lineState i (vlineNo v) 1).updStrm i (fun st => { st with qpend := st.qpend ++ [s.quantGathers i v (s.strm i).qpend.length] })

theorem State.gathered_strm (s : State) (i : Issue) (v : VecOps) :
    ((s.gathered i v).strm i).qcfg = (s.strm i).qcfg ∧
      ((s.gathered i v).strm i).qpend = (s.strm i).qpend ++ [s.quantGathers i v (s.strm i).qpend.length] := by
  rw [State.gathered, State.strm_updStrm]
  exact ⟨(s.lineState_qcfg i (vlineNo v) 1 :), by rw [State.lineState_qpend]⟩

theorem State.gathered_spad (s : State) (i : Issue) (v : VecOps) : (s.gathered i v).spad = s.spad := by
  rw [State.gathered, State.updStrm_spad, State.lineState_spad]

theorem State.gathered_padLine (s : State) (i : Issue) (v : VecOps) (t l : Nat) : (s.gathered i v).padLine t l = s.padLine t l := by
  rw [State.padLine, State.gathered_spad, State.padLine]

theorem State.gathered_own (s : State) (i : Issue) (v : VecOps) : OnlyOwnTile i s (s.gathered i v) := by
  rw [State.gathered]
  exact (s.lineState_own i (vlineNo v) 1).updStrm _

theorem State.gathered_narrowW (h : s.clearVecLine i v = true) : ((s.gathered i v).tile i.tile.toNat).narrowW = [] := by
  rw [State.gathered, State.updStrm, State.tile_updTile_same]
  exact (State.clearVecLine_narrowW s i v h :)

/-- The lane-map line of a QUANT without read errors is read as it is (R119, R126). -/
theorem State.readLanes_clear (u : State) (i : Issue) (q : QCfg) (n : Nat) (act : State → State)
    (h : (u.tile i.tile.toNat).narrowW = []) : u.readLanes i q n [] act = act u := by
  unfold State.readLanes
  split
  · rfl
  · rw [State.settleLines_nil _ _ _ _ h]
    rfl

theorem State.clearVecLine_errs (h : s.clearVecLine i v = true) : v.errs = [] := by
  simp only [State.clearVecLine, State.clearVecLines, Bool.and_eq_true, decide_eq_true_eq] at h
  obtain ⟨⟨-, -, -, -, herrs⟩, -⟩ := h
  exact herrs

/-- A QUANT with its checks passed gathers its burst, and closes the group that it makes whole. -/
theorem exec_quant (hline : s.clearVecLine i v = true)
    (hlanes : (s.strm i).qcfg.lanes = true →
      (s.tile i.tile.toNat).owns ((s.strm i).qcfg.laneOf (s.strm i).qpend.length) 1 (s.strm i).tag = true) :
    exec (.quant i v) s = .next (if (s.strm i).qpend.length + 1 < 2 ^ (s.strm i).qcfg.glog.toNat then s.gathered i v
      else (s.gathered i v).closeGroup i) := by
  change execQuant i v s = _
  rw [execQuant, State.vecLine_clear s i _ v 1 _ _ _ hline]
  refine congrArg Host.Outcome.next ?_
  simp only [State.lineState_qcfg, State.lineState_qpend, State.lineState_tag, State.lineState_owns]
  rw [if_neg (by simpa using hlanes), State.clearVecLine_errs hline,
    State.readLanes_clear _ _ _ _ _ (State.clearVecLine_narrowW s i v hline)]
  simp only [State.lineState_vreg]
  rfl

theorem quant_gathers (hline : s.clearVecLine i v = true)
    (hlanes : (s.strm i).qcfg.lanes = true →
      (s.tile i.tile.toNat).owns ((s.strm i).qcfg.laneOf (s.strm i).qpend.length) 1 (s.strm i).tag = true)
    (hpart : (s.strm i).qpend.length + 1 < 2 ^ (s.strm i).qcfg.glog.toNat) :
    ∃ t, exec (.quant i v) s = .next t ∧ t.spad = s.spad ∧ OnlyOwnTile i s t ∧ (∀ r, t.vreg i r = s.vreg i r) ∧
      (t.strm i).qpend = (s.strm i).qpend ++ [s.quantGathers i v (s.strm i).qpend.length] := by
  refine ⟨s.gathered i v, by rw [exec_quant hline hlanes, if_pos hpart], s.gathered_spad i v, s.gathered_own i v, fun r => ?_,
    (s.gathered_strm i v).2⟩
  rw [State.gathered, State.vreg_updStrm, State.lineState_vreg]

/-- One burst written: its line and its header, and the charge of what it clipped (R72, R82). -/
theorem State.writeBurst_eq (u : State) (i : Issue) (q : QCfg) (exp : Nat) (b : QBurst) (h : (u.tile i.tile.toNat).narrowW = []) :
    let r := quantBurst q.fmt exp b.lanes (if q.sr then some b.words else none) b.index (b.input.map f32Val)
    u.writeBurst i q exp b =
      (u.rewriteLine i b.line (putBlock q.fmt b.upper (u.padLine i.tile.toNat b.line) r.q) b.vd (hdrLanes r.hdr)).charge i
        (r.hdr.satn + (if r.hdr.lsat then 1 else 0)) := by
  intro r
  rw [State.writeBurst, State.settleLines_nil _ _ _ _ h]
  rfl

/-- A group of one burst closed. -/
theorem State.closeGroup_one {u : State} {i : Issue} {q : QCfg} {b : QBurst} (hq : (u.strm i).qcfg = q) (h : (u.strm i).qpend = [b]) :
    u.closeGroup i =
      (u.writeBurst i q (groupExp q.fmt q.floor.toNat q.cap.toNat (counted b.lanes ((b.input.map f32Val).map nanZero))) b).updStrm i
        (fun st => { st with qpend := [] }) := by
  simp [State.closeGroup, h, hq]

theorem quant_writesBurst (hline : s.clearVecLine i v = true)
    (hlanes : (s.strm i).qcfg.lanes = true →
      (s.tile i.tile.toNat).owns ((s.strm i).qcfg.laneOf (s.strm i).qpend.length) 1 (s.strm i).tag = true)
    (hnone : (s.strm i).qpend = []) (hglog : (s.strm i).qcfg.glog = 0) :
    let q := (s.strm i).qcfg
    let x := (s.quantInput i v).map f32Val
    let at_ := s.lanePos i q 0
    let r := quantBurst q.fmt (groupExp q.fmt q.floor.toNat q.cap.toNat (counted at_ (x.map nanZero))) at_
      (if q.sr then some (s.vreg i v.vb ++ s.vreg i (v.vb + 1)) else none) 0 x
    ∃ t, exec (.quant i v) s = .next t ∧
      t.padLine i.tile.toNat (vlineNo v) = putBlock q.fmt (v.md.getLsbD 0) (s.padLine i.tile.toNat (vlineNo v)) r.q ∧
      (t.vreg i v.vd).take 4 = hdrLanes r.hdr ∧ (t.strm i).qpend = [] ∧ PadOutside i.tile.toNat (vlineNo v) 1 s t := by
  intro q x at_ r
  obtain ⟨hqcfg, hqpend⟩ := s.gathered_strm i v
  rw [hnone] at hqpend
  have hclose := State.closeGroup_one hqcfg hqpend
  rw [State.writeBurst_eq _ _ _ _ _ (State.gathered_narrowW hline)] at hclose
  refine ⟨(s.gathered i v).closeGroup i, by rw [exec_quant hline hlanes, if_neg (by simp [hglog])], ?_⟩
  rw [hclose]
  refine ⟨?_, ?_, by rw [State.strm_updStrm], fun a ha => ?_⟩
  · rw [State.updStrm, State.padLine_updTile, State.padLine_charge]
    refine (State.rewriteLine_padLine (s.gathered i v) i (vlineNo v) _ _ _).trans ?_
    rw [State.gathered_padLine]
    rfl
  · rw [State.vreg_updStrm, State.vreg_charge]
    exact State.rewriteLine_take _ _ _ _ v.vd (hdrLanes r.hdr) (by simp [hdrLanes_length])
  · rw [State.updStrm_spad, State.charge_spad]
    exact State.rewriteLine_outside (s.gathered_spad i v) _ _ _ _ a ha

/-! ## LANEF (R74, R182) -/

/-- The feed that LANEF makes of the 60 headers in eight lines from `line`. -/
def State.laneFeedAt (s : State) (t line : Nat) : List Int :=
  laneFeed ((List.range 60).map (fun n => hdrOf ((s.padLine t (line + n / 8)).extractLsb' (128 * (n % 8)) 128)))

/-- The state on which LANEF writes: the cycles of its reads and of its two writes are taken. -/
def State.lanefState (s : State) (i : Issue) (v : VecOps) : State :=
  let u := s.lineState i (vlineNo v) 8
  u.setTile i.tile.toNat ((u.tile i.tile.toNat).withWide (i.cycle.toNat + 8) (vlineNo v + 4 * v.vd.toNat) 2)

theorem State.lanefState_narrowW (h : s.clearVecLines i v 8 = true) : ((s.lanefState i v).tile i.tile.toNat).narrowW = [] := by
  rw [State.lanefState, State.tile_setTile_same, Tile.narrowW_withWide, State.lineState_narrowW h]

@[simp] theorem State.lanefState_spad (s : State) (i : Issue) (v : VecOps) : (s.lanefState i v).spad = s.spad := by
  rw [State.lanefState, State.setTile_spad, State.lineState_spad]

@[simp] theorem State.lanefState_padLine (s : State) (i : Issue) (v : VecOps) (t l : Nat) :
    (s.lanefState i v).padLine t l = s.padLine t l := by
  rw [State.padLine, State.lanefState_spad, State.padLine]

theorem State.lanefState_own (s : State) (i : Issue) (v : VecOps) : OnlyOwnTile i s (s.lanefState i v) :=
  OnlyOwnTile.updTile s _ i (fun t => t.withWide (i.cycle.toNat + 8) (vlineNo v + 4 * v.vd.toNat) 2) (s.lineState_own i (vlineNo v) 8)

theorem State.lanefState_vreg (s : State) (i : Issue) (v : VecOps) (r : BitVec 6) : (s.lanefState i v).vreg i r = s.vreg i r := by
  rw [State.vreg, State.lanefState, State.tile_setTile_same, Tile.vreg_withWide, ← State.vreg, State.lineState_vreg]

section
variable (hlines : s.clearVecLines i v 8 = true)
  (howns : (s.tile i.tile.toNat).owns (vlineNo v + 4 * v.vd.toNat) 2 (s.strm i).tag = true)
  (hwide : ∀ w ∈ (s.tile i.tile.toNat).wide, w.1 ≠ i.cycle.toNat + 8 ∧ w.1 ≠ i.cycle.toNat + 9)
  (hfills : ∀ f ∈ (s.tile i.tile.toNat).fills, ∀ k < 2, f.cycle ≠ some ((i.cycle.toNat + 8 + k : Nat) : Int))

include hlines hwide hfills in
/-- The writes of LANEF take their two cycles after its eight reads have taken theirs. -/
theorem State.useWideAt_lanef (act : State → State) :
    (s.lineState i (vlineNo v) 8).useWideAt i (i.cycle.toNat + 8) (vlineNo v + 4 * v.vd.toNat) 2 act = act (s.lanefState i v) := by
  obtain ⟨-, hports⟩ := Bool.and_eq_true_iff.1 hlines
  refine State.useWideAt_free _ i _ act (fun w hw => ?_) (Tile.fillsClear_withWide _ (State.lineState_fillsClear hports) ?_) ?_
  · rw [State.lineState_tile] at hw
    rcases List.mem_append.1 hw with hw | hw
    · have := hwide w hw
      omega
    · obtain ⟨k, hk, rfl⟩ := List.mem_map.1 hw
      have := List.mem_range.1 hk
      exact .inl (by dsimp only; omega)
  · rw [State.lineState_tile]
    exact hfills
  · rw [State.lineState_tile]
    simp only [State.portsClear, Bool.and_eq_true, List.isEmpty_iff] at hports
    exact hports.1.2

include hlines howns hwide hfills

theorem exec_lanef :
    let f := s.laneFeedAt i.tile.toNat (vlineNo v)
    exec (.lanef i v) s = .next ((s.lanefState i v).setPadLines i.tile.toNat (vlineNo v + 4 * v.vd.toNat)
      [BitVec.ofNat 1024 (blockBits false (f.take 256)), BitVec.ofNat 1024 (blockBits false (f.drop 256))].zipIdx) := by
  intro f
  change execLanef i v s = _
  rw [execLanef, State.vecLine_clear s i _ v 8 _ _ _ hlines]
  refine congrArg Host.Outcome.next ?_
  dsimp only
  rw [if_neg (by simp [State.lineState_owns, State.lineState_tag, howns]), State.useWideAt_lanef hlines hwide hfills,
    State.settleLines_nil _ _ _ _ (State.lanefState_narrowW hlines), State.writeLines_eq _ _ _ _ (State.lanefState_narrowW hlines)]
  simp only [State.lanefState_padLine, f, State.laneFeedAt, State.setPadLines]

/-- LANEF where no fill, drain or serve of the tile stands at the cycles of its two writes. -/
theorem lanef_writesFeed :
    let d := vlineNo v + 4 * v.vd.toNat
    let f := s.laneFeedAt i.tile.toNat (vlineNo v)
    ∃ t, exec (.lanef i v) s = .next t ∧ OnlyOwnTile i s t ∧ PadOutside i.tile.toNat d 2 s t ∧ (∀ r, t.vreg i r = s.vreg i r) ∧
      t.padLine i.tile.toNat d = BitVec.ofNat 1024 (blockBits false (f.take 256)) ∧
      t.padLine i.tile.toNat (d + 1) = BitVec.ofNat 1024 (blockBits false (f.drop 256)) := by
  intro d f
  have hpad (k : Nat) := (s.lanefState i v).padLine_setPadLines i.tile.toNat d
    [BitVec.ofNat 1024 (blockBits false (f.take 256)), BitVec.ofNat 1024 (blockBits false (f.drop 256))] 0 k
  refine ⟨_, exec_lanef hlines howns hwide hfills, (s.lanefState_own i v).setPadLines _ _ _, fun a ha => ?_, fun r => ?_,
    by simpa using hpad 0, by simpa using hpad 1⟩
  · rw [(s.lanefState i v).setPadLines_outside _ _ _ 2 (fun x hx => List.snd_lt_of_mem_zipIdx hx) a ha, State.lanefState_spad]
  · rw [State.vreg, State.tile_setPadLines]
    exact s.lanefState_vreg i v r

end

/-! ## MXIN and MXOUT (R89, R182) -/

theorem mxin_rewritesLine (hline : s.clearVecLine i v = true) (hburst : ¬ (2 ≤ v.md.toNat ∧ v.lacc ≠ 0)) :
    let r := mxImport v.md (s.strm i).qcfg (mxScales ((s.vreg i v.va).getD 0 0)) (s.padLine i.tile.toNat (vlineNo v))
    ∃ t, exec (.mxin i v) s = .next t ∧ PadOutside i.tile.toNat (vlineNo v) 1 s t ∧
      t.padLine i.tile.toNat (vlineNo v) = BitVec.ofNat 1024 (blockBits true r.q) ∧ (t.vreg i v.vd).take 4 = hdrLanes r.hdr := by
  intro r
  have hexec : exec (.mxin i v) s = .next (((s.lineState i (vlineNo v) 1).rewriteLine i (vlineNo v)
      (BitVec.ofNat 1024 (blockBits true r.q)) v.vd.toNat (hdrLanes r.hdr)).charge i r.hdr.satn) := by
    change execMxin i v s = _
    rw [execMxin, State.vecLine_clear s i _ v 1 _ _ _ hline]
    simp only [State.readOwn_lineState s i v hline, State.lineState_vreg, State.lineState_qcfg, if_neg hburst]
    rfl
  refine ⟨_, hexec, fun a ha => ?_, ?_, ?_⟩
  · rw [State.charge_spad]
    exact State.rewriteLine_outside (s.lineState_spad i _ 1) _ _ _ _ a ha
  · rw [State.padLine_charge, State.rewriteLine_padLine]
  · rw [State.vreg_charge]
    exact State.rewriteLine_take _ _ _ _ v.vd (hdrLanes r.hdr) (by simp [hdrLanes_length])

/-- Element `k` of a line of MXFP8 as BF16; a scale of 255 makes every element a NaN (R89). -/
def mxBf16 (md : BitVec 2) (scales : List Nat) (l : Line) (k : Nat) : BitVec 16 :=
  if scales.contains 255 then 0x7FC0
  else
    let b := l.extractLsb' (8 * k) 8
    fvToBf16 (f32Val (fvToF32 (fvScale (if md = 2 then e4m3 b else e5m2 b) ((scales.getD (k / 32) 0 : Nat) - 127))))

/-- The BF16 elements of a line of MXFP8, two to a lane. -/
def mxLanes (md : BitVec 2) (scales : List Nat) (l : Line) : List W32 :=
  (List.range 64).map (fun n => mxBf16 md scales l (2 * n + 1) ++ mxBf16 md scales l (2 * n))

theorem mxLanes_noValue (md : BitVec 2) {scales : List Nat} (l : Line) (h : scales.contains 255 = true) :
    mxLanes md scales l = List.replicate 64 0x7FC07FC0 := by
  have helem (k : Nat) : mxBf16 md scales l k = 0x7FC0 := if_pos h
  simp only [mxLanes, helem, List.map_const', List.length_range]
  rfl

theorem mxin_writesLanes (hline : s.clearVecLine i v = true) (hmd : 2 ≤ v.md.toNat) (hlacc : v.lacc ≠ 0) :
    let sc := mxScales ((s.vreg i v.va).getD 0 0)
    ∃ t, exec (.mxin i v) s = .next t ∧ t.spad = s.spad ∧ OnlyOwnTile i s t ∧ OtherVregs i v.vd s t ∧
      t.vreg i v.vd = mxLanes v.md sc (s.padLine i.tile.toNat (vlineNo v)) ∧
      (sc.contains 255 = true → t.vreg i v.vd = List.replicate 64 0x7FC07FC0) := by
  intro sc
  have hexec : exec (.mxin i v) s = .next ((s.lineState i (vlineNo v) 1).setVreg i v.vd
      (mxLanes v.md sc (s.padLine i.tile.toNat (vlineNo v)))) := by
    change execMxin i v s = _
    rw [execMxin, State.vecLine_clear s i _ v 1 _ _ _ hline]
    simp only [State.readOwn_lineState s i v hline, State.lineState_vreg, if_pos (And.intro hmd hlacc)]
    rfl
  have hlanes := (s.lineState i (vlineNo v) 1).vreg_setVreg_same i v.vd (mxLanes v.md sc (s.padLine i.tile.toNat (vlineNo v)))
    (by simp [mxLanes])
  refine ⟨_, hexec, by rw [State.setVreg_spad, State.lineState_spad], (s.lineState_own i (vlineNo v) 1).setVreg _ _,
    fun q hq => ?_, hlanes, fun h => ?_⟩
  · rw [State.vreg_setVreg_other _ _ _ _ _ hq, State.lineState_vreg]
  · rw [hlanes, mxLanes_noValue _ _ h]

/-- The four scales that MXOUT gives a burst of exponent `exp`: an element of MXINT8 counts 64ths of its scale (R89). -/
def mxOutScales (exp : Nat) : W32 :=
  let b : BitVec 8 := if exp = 255 then 0xFF else if exp + 6 ≤ 254 then BitVec.ofNat 8 (exp + 6) else Config.mxExp (exp + 6)
  b ++ b ++ b ++ b

theorem mxout_rewritesLine (hline : s.clearVecLine i v = true) :
    let h := lanesHdr (s.vreg i v.va)
    let e := elemsOf h (s.padLine i.tile.toNat (vlineNo v)) (v.md.getLsbD 1)
    burstRes e = h.res →
      ∃ t, exec (.mxout i v) s = .next t ∧ OnlyOwnTile i s t ∧ PadOutside i.tile.toNat (vlineNo v) 1 s t ∧
        t.padLine i.tile.toNat (vlineNo v) = BitVec.ofNat 1024 (blockBits true e) ∧
        (t.vreg i v.vd).getD 0 0 = mxOutScales h.exp := by
  intro h e hres
  have hexec : exec (.mxout i v) s = .next ((s.lineState i (vlineNo v) 1).rewriteLine i (vlineNo v)
      (BitVec.ofNat 1024 (blockBits true e)) v.vd.toNat [mxOutScales h.exp]) := by
    change execMxout i v s = _
    rw [execMxout, State.vecLine_clear s i _ v 1 _ _ _ hline]
    simp only [State.readOwn_lineState s i v hline, State.lineState_vreg]
    rw [if_neg (not_not.2 hres)]
    rfl
  refine ⟨_, hexec, State.rewriteLine_own (s.lineState_own i (vlineNo v) 1) _ _ _ _, State.rewriteLine_outside (s.lineState_spad i _ 1) _ _ _ _,
    State.rewriteLine_padLine .., ?_⟩
  exact State.rewriteLine_lane (s.lineState i (vlineNo v) 1) i (vlineNo v) _ v.vd [mxOutScales h.exp] (by simp) Nat.one_pos

end Sys2Proof.Machine
end

section
/-! Refutation of O8: LANEF takes two wide cycles beyond those of its reads, and a queue use that stands in one of them gives way (R120); what it
has sent goes later, which is a change outside the tile. -/

namespace Sys2Proof.Machine

/-- A LANEF of tile 0 at cycle 5: its reads take the cycles 5 to 12, its writes the cycles 13 and 14. -/
def lanefIssue : Issue := { tile := 0, stream := 0, gen := 0, cycle := 5 }

/-- The headers stand from line 4 on, and the feed goes to line 8 and the next. -/
def lanefOps : VecOps := { vd := 1, va := 0, vb := 0, addr := 64, lacc := 0, md := 0, upset := false }

/-- A running device whose tile 0 reads a line for its store queue in cycle 13, and has the line's data on the mesh as of that cycle. -/
def drainAtWriteCycle : State :=
  { parts := [(0, { st := .serving })]
    tiles := [(0, { streams := [(0, { tag := 0, last := 63, block := some 0 })], blocks := [(0, { powered := true, tag := 0 })]
                    fills := [{ time := 13, cycle := some 13, bank := 1, entry := none }] })]
    mesh := { qreq := [{ src := 0, dest := 16, port := 0, tag := 0, seq := 0, time := 13, msg := .storeData 0 0 0 0 }] }
    power := { resetPin := false, rails := true }
    dawn := { step := 11 } }

theorem drainAtWriteCycle_clear : drainAtWriteCycle.clearVecLines lanefIssue lanefOps 8 = true := by decide +kernel

theorem drainAtWriteCycle_owns :
    (drainAtWriteCycle.tile lanefIssue.tile.toNat).owns (vlineNo lanefOps + 4 * lanefOps.vd.toNat) 2
      (drainAtWriteCycle.strm lanefIssue).tag = true := by decide +kernel

theorem drainAtWriteCycle_wide : (drainAtWriteCycle.tile lanefIssue.tile.toNat).wide = [] := rfl

/-- The cycles at which the queue requests in flight were injected, after a command. -/
def injectedAfter (c : Instr) (s : State) : List Nat :=
  match exec c s with
  | .next t => t.mesh.qreq.map (fun m => m.time)
  | .fault _ => []
  | .refused _ => []

theorem injectedAfter_of_next {c : Instr} {s t : State} (h : exec c s = .next t) :
    injectedAfter c s = t.mesh.qreq.map (fun m => m.time) := by
  rw [injectedAfter, h]

/-- The read gives way to both writes of LANEF, and its data leave at cycle 15. -/
theorem lanef_delays_storeData : injectedAfter (.lanef lanefIssue lanefOps) drainAtWriteCycle = [15] := by decide +kernel

end Sys2Proof.Machine
end

section
open Sys2Proof Sys2Proof.Machine

/-- Refutes O8 at LANEF: its condition on the wide port names the scheduled accesses at the cycles of the two writes, and no queue use. A read
of the store queue at cycle issue + 8 gives way and its data leave two cycles later, so that the mesh changes. Where no queue use stands at
those cycles, LANEF does what is stated (`lanef_writesFeed`); and every other clause holds: `qcfg_configures`, `quant_gathers`,
`quant_writesBurst`, `mxin_rewritesLine`, `mxin_writesLanes` and `mxout_rewritesLine`. -/
theorem not_quantiserAndConversions : ¬ Obligations.QuantiserAndConversions := by
  unfold Obligations.QuantiserAndConversions
  rintro ⟨-, -, hlanef, -⟩
  obtain ⟨t, ht, ⟨hown, -⟩, -⟩ := hlanef lanefIssue lanefOps drainAtWriteCycle drainAtWriteCycle_clear drainAtWriteCycle_owns
    (by simp [drainAtWriteCycle_wide])
  have hmesh : t.mesh = drainAtWriteCycle.mesh := by rw [hown]
  have hlater := lanef_delays_storeData
  rw [injectedAfter_of_next ht, hmesh] at hlater
  exact absurd hlater (by decide)

end

section
/-! SUPPORT. A Write of one entry that passes every check (R486-R492, R503): its change record, its entry's effect and its reply, and
what the end of a Write leaves of the state that the effect gave. -/

namespace Sys2Proof.Machine

variable {m : UoaMsg} {u : UoaSess} {index sub : Nat} {v : DVal} {s : State}

/-- An effect leaves the replies sent as they are, and the records pending before it where they stand. -/
def KeepsAnswers (s t : State) : Prop := t.dict.out = s.dict.out ∧ s.recd.buffer <+: t.recd.buffer

/-- An effect that changes neither the dictionary nor the recorder keeps what was answered. -/
theorem KeepsAnswers.of_eq {s t : State} (hdict : t.dict = s.dict) (hrecd : t.recd = s.recd) : KeepsAnswers s t :=
  ⟨by rw [hdict], by rw [hrecd]⟩

/-- What the end of a Write adds to the state that its effect gave: the reply, in the session and among those sent; the change of a kept
entry in the store, and its flash write (R481, R485, R490). -/
def EndsWrite (s t : State) : Prop :=
  ∃ out sessions n l, t = { s with
    dict := { s.dict with out := out, sessions := sessions, storeLen := n }
    mgmt := { s.mgmt with fqueue := s.mgmt.fqueue ++ l } }

theorem State.keep_endsWrite (s : State) (e : Entry) (i : Item) : EndsWrite s (s.keep e i) ∧ (s.keep e i).dict.out = s.dict.out := by
  unfold State.keep
  split
  · exact ⟨⟨_, _, _, _, rfl⟩, rfl⟩
  · exact ⟨⟨s.dict.out, s.dict.sessions, s.dict.storeLen, [], by rw [List.append_nil]⟩, rfl⟩

theorem EndsWrite.reply {s t : State} (h : EndsWrite s t) (m : UoaMsg) (u : UoaSess) (type : Nat) (status : BitVec 16)
    (items : List UItem) : EndsWrite s (t.reply m u type status items) := by
  obtain ⟨out, sessions, n, l, rfl⟩ := h
  exact ⟨_, _, n, l, rfl⟩

theorem EndsWrite.recd {s t : State} (h : EndsWrite s t) : t.recd = s.recd := by
  obtain ⟨out, sessions, n, l, rfl⟩ := h
  rfl

/-- A request that passes every check runs and is answered (R485, R490). -/
theorem State.uoaRequest_accepted {type len count : Nat} (run : UoaSess → State → State × List UItem)
    (h : s.acceptsRequest m u type len count = true) :
    s.uoaRequest m type len count true run = (run u s).1.reply m u (type + 1) 0 (run u s).2 := by
  simp only [State.acceptsRequest, Bool.and_eq_true, decide_eq_true_eq] at h
  obtain ⟨⟨hreach, hfresh⟩, hsess, hupset, htag, hdone, hmajor, hgen, hrsvd, htype, hlen, hmax, hcount, hitems⟩ := h
  have hform : ¬(m.gen ≠ 0 ∨ m.rsvd ≠ 0 ∨ m.type.toNat ≠ type ∨ m.length.toNat ≠ len ∨ 4576 < m.length.toNat ∨
      m.count.toNat ≠ count ∨ 32 < count ∨ true = false) := by
    simp [hgen, hrsvd, htype, hlen, hcount, hmax, hitems]
  rw [State.uoaRequest, if_neg (by simp [hreach]), if_neg (by simp [hupset]), hsess]
  dsimp only
  rw [if_neg (by simp [htag, hdone]), if_pos hfresh, if_neg (not_not.2 hmajor), if_neg hform]

/-- The reply's item of a Write that was done. -/
def Item.doneReply (i : Item) (result : Option DVal) : UItem :=
  { index := BitVec.ofNat 16 i.index, sub := BitVec.ofNat 8 i.sub, status := 0, value := result, pending := none, desc := [] }

/-- An item that passes every check is recorded and done (R491, R492). -/
theorem State.tryItem_accepted {i : Item} {e : Entry} {eff : Effect} (hfirm : s.firmware = true) (hroom : s.recorderFull i = false)
    (he : findEntry i.index i.sub = some e) (hpower : s.power.failed = false) (hstatus : s.itemStatus u i e = 0)
    (heff : (eff s).2.1 = 0) :
    s.tryItem m u i eff = ((eff (s.changeRec m u i 0)).1.keep e i, i.doneReply (eff (s.changeRec m u i 0)).2.2) := by
  unfold State.tryItem
  rw [if_neg (by simp [hfirm]), if_neg (by simp [hroom]), he]
  dsimp only
  rw [hpower, hstatus, heff]
  rfl

theorem State.writeOwn_eq (s : State) (m : UoaMsg) (index sub : Nat) (v : DVal) :
    s.writeOwn m index sub v = s.uoaRequest m 0x12 (10 + valueBytes (ownItem index sub v).type v) 1 true (fun u t =>
      let x := t.tryItem m u (ownItem index sub v) (fun t => t.dictWrite u index sub 0 v)
      (x.1, [x.2])) := rfl

/-- An accepted Write whose effect succeeds: the effect on the state with its record, then the store and the reply. -/
theorem State.writeOwn_accepted (h : s.acceptsWrite m u index sub v = true) (heff : (s.dictWrite u index sub 0 v).2.1 = 0) :
    ∃ e, s.writeOwn m index sub v =
      (((s.changeRec m u (ownItem index sub v) 0).dictWrite u index sub 0 v).1.keep e (ownItem index sub v)).reply m u 0x13 0
        [(ownItem index sub v).doneReply ((s.changeRec m u (ownItem index sub v) 0).dictWrite u index sub 0 v).2.2] := by
  simp only [State.acceptsWrite, Bool.and_eq_true, Bool.not_eq_true'] at h
  obtain ⟨⟨⟨⟨hfirm, hreq⟩, hpower⟩, hroom⟩, hentry⟩ := h
  cases he : findEntry index sub with
  | none => simp [he] at hentry
  | some e =>
    rw [he] at hentry
    have hstatus : s.itemStatus u (ownItem index sub v) e = 0 := by simpa using hentry
    have hitem := State.tryItem_accepted (m := m) (eff := fun t => t.dictWrite u index sub 0 v) hfirm hroom he hpower hstatus heff
    refine ⟨e, ?_⟩
    rw [State.writeOwn_eq, State.uoaRequest_accepted _ hreq]
    dsimp only
    rw [hitem]

/-- The change record of a Write done (R503). -/
def changeOf (m : UoaMsg) (u : UoaSess) (i : Item) : Payload :=
  .change 0 (BitVec.ofNat 16 i.index) (BitVec.ofNat 8 i.sub) 0 u.role m.src.port.val u.tenant u.id m.src.addr
    (changeValue i.index i.sub i.type i.value)

theorem State.changeRec_ownItem (s : State) (m : UoaMsg) (u : UoaSess) (index sub : Nat) (v : DVal) :
    s.changeRec m u (ownItem index sub v) 0 = s.pushRec (changeOf m u (ownItem index sub v)) false := rfl

/-- A record that is made stands last in the buffer. -/
theorem State.pushRec_last (s : State) (p : Payload) (cont : Bool) :
    ∃ x, (s.pushRec p cont).recd.buffer[s.recd.buffer.length]? = some x ∧ x.payload = p :=
  ⟨_, List.getElem?_concat_length, rfl⟩

/-- A reply of status 0 answers its request. -/
theorem State.reply_replied {t : State} (h : t.dict.out = s.dict.out) (m : UoaMsg) (u : UoaSess) (type : Nat) (items : List UItem) :
    Replied m u (BitVec.ofNat 6 type) (items.map (fun x => x.status)) s (t.reply m u type 0 items) :=
  ⟨_, congrArg (· ++ _) h, rfl, rfl, rfl, rfl, rfl⟩

/-- An accepted Write whose effect does `E`, whatever records are pending: with its change record pending, `E` acts; the reply and the
store follow, and the Write is answered. -/
theorem writeOwn_takesEffect (h : s.acceptsWrite m u index sub v = true) (E : State → State)
    (heff : ∀ f, (s.updRec f).dictWrite u index sub 0 v = done (E (s.updRec f)))
    (hkeeps : ∀ f, KeepsAnswers (s.updRec f) (E (s.updRec f))) :
    ∃ p, EndsWrite (E (s.pushRec p false)) (s.writeOwn m index sub v) ∧ WriteAnswered m u index sub s (s.writeOwn m index sub v) := by
  obtain ⟨e, hwrite⟩ := State.writeOwn_accepted h (congrArg (·.2.1) (heff id))
  let p := changeOf m u (ownItem index sub v)
  have hdone : (s.pushRec p false).dictWrite u index sub 0 v = done (E (s.pushRec p false)) := heff fun _ => (s.pushRec p false).recd
  obtain ⟨hout, hbuffer⟩ : KeepsAnswers (s.pushRec p false) (E (s.pushRec p false)) := hkeeps fun _ => (s.pushRec p false).recd
  rw [State.changeRec_ownItem, hdone] at hwrite
  obtain ⟨hends, hsent⟩ := (E (s.pushRec p false)).keep_endsWrite e (ownItem index sub v)
  have hend : EndsWrite (E (s.pushRec p false)) (s.writeOwn m index sub v) := hwrite ▸ hends.reply ..
  obtain ⟨x, hlast, hpayload⟩ := s.pushRec_last p false
  refine ⟨p, hend, ?_, x, _, ?_, hpayload⟩
  · rw [hwrite]
    exact State.reply_replied (hsent.trans hout) m u 0x13 _
  · obtain ⟨l, hl⟩ := hbuffer
    rw [hend.recd, ← hl, List.getElem?_append_left (List.getElem?_eq_some_iff.1 hlast).1, hlast]

end Sys2Proof.Machine
end

section
/-! Certificate of O44: the Writes that calibrate, replace, drain, relight, remove, flush and reset a link, a lemma for each. -/

namespace Sys2Proof.Machine

variable {m : UoaMsg} {u : UoaSess} {s : State}

/-! ## Calibration (R106-R108) -/

/-- An array stands among its tile's priority requests once one was made for it. -/
theorem State.mem_calPrio_requestCal (s : State) (a : Nat) : a ∈ ((s.requestCal a).tile (a / 64)).calPrio := by
  rw [State.requestCal, State.tile_updTile_same]
  split
  next h => exact List.contains_iff_mem.1 h
  next => exact List.mem_append_right _ (List.mem_singleton_self a)

theorem requestFullCalibration_queues (h : s.acceptsWrite m u 0x3100 0x03 (.num 1) = true) :
    ∃ t, exec (.requestFullCalibration m (.num 1)) s = .next t ∧ WriteAnswered m u 0x3100 0x03 s t ∧
      selOf u 0x3100 ∈ (t.tile (selOf u 0x3100 / 64)).calPrio := by
  obtain ⟨p, ⟨out, sessions, n, l, ht⟩, hans⟩ :=
    writeOwn_takesEffect h (fun t => t.requestCal (selOf u 0x3100)) (fun _ => rfl) (fun _ => .of_eq rfl rfl)
  refine ⟨_, rfl, hans, ?_⟩
  rw [ht]
  exact (s.pushRec p false).mem_calPrio_requestCal _

/-- A user calibration stands in its array's tile once it was requested (R106). -/
theorem State.mem_calUser_requestUser (s : State) (a : Nat) (p : BitVec 2) : (a, p) ∈ ((s.requestUser a p).tile (a / 64)).calUser := by
  rw [State.requestUser, State.tile_updTile_same]
  split
  next h => exact List.contains_iff_mem.1 h
  next => exact List.mem_append_right _ (List.mem_singleton_self _)

/-- Another request leaves a user calibration in its queue. -/
theorem State.calUser_requestUser_subset (s : State) (a n : Nat) (p : BitVec 2) :
    (s.tile n).calUser ⊆ ((s.requestUser a p).tile n).calUser := by
  by_cases hn : n = a / 64
  · subst hn
    rw [State.requestUser, State.tile_updTile_same]
    split
    · exact List.Subset.refl _
    · exact List.subset_append_left _ _
  · rw [State.requestUser, State.tile_updTile_other _ _ _ _ hn]
    exact List.Subset.refl _

theorem foldl_requestUser_subset (p : BitVec 2) (l : List Nat) (s : State) (n : Nat) :
    (s.tile n).calUser ⊆ ((l.foldl (fun t a => t.requestUser a p) s).tile n).calUser :=
  List.foldlRecOn (motive := fun t : State => (s.tile n).calUser ⊆ (t.tile n).calUser) _ _ (List.Subset.refl _)
    fun t h a _ => List.Subset.trans h (t.calUser_requestUser_subset a n p)

/-- Every array of a list waits for its user calibration once all were requested. -/
theorem mem_calUser_foldl_requestUser (p : BitVec 2) (l : List Nat) (s : State) {a : Nat} (h : a ∈ l) :
    (a, p) ∈ ((l.foldl (fun t a => t.requestUser a p) s).tile (a / 64)).calUser := by
  induction l generalizing s with
  | nil => cases h
  | cons b l ih =>
    rw [List.foldl_cons]
    obtain rfl | h := List.mem_cons.1 h
    · exact foldl_requestUser_subset p l _ _ (s.mem_calUser_requestUser a p)
    · exact ih _ h

theorem State.mem_calUser_userCal (s : State) (n : Nat) {x : Nat × ArrayS} (hx : x ∈ s.arrays) (hst : x.2.st = .resident) :
    (x.1, BitVec.ofNat 2 n) ∈ ((s.userCal n).tile (x.1 / 64)).calUser :=
  mem_calUser_foldl_requestUser _ _ _ (List.mem_map.2 ⟨x, List.mem_filter.2 ⟨hx, by simp [hst]⟩, rfl⟩)

theorem State.userCal_dict (s : State) (n : Nat) :
    (s.userCal n).dict = { s.dict with calPoint := n, calWritten := 0, calSkipped := 0 } :=
  foldl_keeps State.dict (fun t a => t.requestUser a (BitVec.ofNat 2 n)) (fun _ _ => rfl) _ _

theorem State.userCal_recd (s : State) (n : Nat) : (s.userCal n).recd = s.recd :=
  foldl_keeps State.recd (fun t a => t.requestUser a (BitVec.ofNat 2 n)) (fun _ _ => rfl) _ _

theorem userCalibrationPoint_queues {n : Nat} (h : s.acceptsWrite m u 0x3100 0x06 (.num n) = true) (hn : n ≤ 3) :
    ∃ t, exec (.userCalibrationPoint m (.num n)) s = .next t ∧ WriteAnswered m u 0x3100 0x06 s t ∧ t.dict.calPoint = n ∧
      ∀ x ∈ s.arrays, x.2.st = .resident → (x.1, BitVec.ofNat 2 n) ∈ (t.tile (x.1 / 64)).calUser := by
  obtain ⟨p, ⟨out, sessions, k, l, ht⟩, hans⟩ :=
    writeOwn_takesEffect h (fun t => t.userCal n) (fun _ => if_pos (decide_eq_true hn))
      (fun f => ⟨by rw [State.userCal_dict], by rw [State.userCal_recd]⟩)
  refine ⟨_, rfl, hans, ?_, fun x hx hst => ?_⟩
  · rw [ht, State.userCal_dict]
  · rw [ht]
    exact (s.pushRec p false).mem_calUser_userCal n hx hst

theorem newSweep_countsUp (h : s.acceptsWrite m u 0x3100 0x10 (.num 1) = true) (hsweep : s.health.sweep.toNat < 0xFFFE) :
    ∃ t, exec (.newSweep m (.num 1)) s = .next t ∧ WriteAnswered m u 0x3100 0x10 s t ∧
      t.health = { s.health with sweep := s.health.sweep + 1 } := by
  obtain ⟨p, ⟨out, sessions, n, l, ht⟩, hans⟩ :=
    writeOwn_takesEffect h (fun t => t.updHealth (fun x => { x with sweep := x.sweep + 1 })) (fun _ => if_neg (Nat.not_le.2 hsweep))
      (fun _ => .of_eq rfl rfl)
  exact ⟨_, rfl, hans, by rw [ht]; rfl⟩

/-! ## Replacement, drain and the Twilight flag (R268, R387, R394) -/

theorem baseIndex_partIndex (part : PartNo) : baseIndex (partIndex part.toNat) = 0x2000 := by
  have hlt := part.isLt
  unfold baseIndex partIndex
  rw [if_pos (by omega)]

/-- A partition is asked to replace its weights (R268, R270). -/
def State.askReplacement (s : State) (k : Nat) : State :=
  s.setPart k { s.part k with replReq := true, companion := s.companionOf k }

theorem State.part_askReplacement (s : State) (p k : Nat) :
    (s.askReplacement p).part k = if k = p then { s.part p with replReq := true, companion := s.companionOf p } else s.part k :=
  s.part_setPart p k _

/-- Every partition of a list is asked, and each keeps its state. -/
theorem foldl_askReplacement_part (ps : List Nat) (s : State) (k : Nat) :
    let q := (ps.foldl (fun t p => t.askReplacement p) s).part k
    q.st = (s.part k).st ∧ (k ∈ ps ∨ (s.part k).replReq = true → q.replReq = true) := by
  induction ps generalizing s with
  | nil => exact ⟨rfl, fun h => h.resolve_left List.not_mem_nil⟩
  | cons p ps ih =>
    obtain ⟨hst, hreq⟩ := ih (s.askReplacement p)
    rw [State.part_askReplacement] at hst hreq
    rw [List.foldl_cons]
    by_cases hk : k = p
    · subst hk
      rw [if_pos rfl] at hst hreq
      exact ⟨hst, fun _ => hreq (.inr rfl)⟩
    · rw [if_neg hk] at hst hreq
      exact ⟨hst, fun h => hreq (h.imp_left fun hm => (List.mem_cons.1 hm).resolve_left hk)⟩

/-- Every partition of a base is asked to replace its weights (R268). -/
def State.askAll (s : State) (base : Nat) : State := (s.attached base).foldl (fun t k => t.askReplacement k) s

theorem State.askAll_keeps (s : State) (base : Nat) : KeepsAnswers s (s.askAll base) :=
  .of_eq (foldl_keeps State.dict (fun t k => t.askReplacement k) (fun _ _ => rfl) _ _)
    (foldl_keeps State.recd (fun t k => t.askReplacement k) (fun _ _ => rfl) _ _)

theorem State.replaceWeights_asks (s : State) (p : Nat) (hst : (s.part p).st = .serving ∨ (s.part p).st = .streaming)
    (hrepl : (s.part p).repl = 0) (hreq : (s.part p).replReq = false) :
    s.replaceWeights p 1 = (s.askAll (s.part p).base.toNat, 0) := by
  unfold State.replaceWeights
  rw [if_neg (not_not.2 rfl), if_neg (by simp [hst, hrepl, hreq])]
  rfl

theorem replacement_asks {part : PartNo} (h : s.acceptsWrite m u (partIndex part.toNat) 0x0B (.num 1) = true)
    (hst : (s.part part.toNat).st = .serving ∨ (s.part part.toNat).st = .streaming) (hrepl : (s.part part.toNat).repl = 0)
    (hreq : (s.part part.toNat).replReq = false) :
    ∃ t, exec (.replacement m part (.num 1)) s = .next t ∧ WriteAnswered m u (partIndex part.toNat) 0x0B s t ∧
      ∀ k ∈ s.attached (s.part part.toNat).base.toNat, (t.part k).replReq = true ∧ (t.part k).st = (s.part k).st := by
  have hindex : partIndex part.toNat - 0x2000 = part.toNat := Nat.add_sub_cancel_left ..
  have heff (f : Recorder → Recorder) : (s.updRec f).dictWrite u (partIndex part.toNat) 0x0B 0 (.num 1) =
      done ((s.updRec f).askAll (s.part part.toNat).base.toNat) := by
    unfold State.dictWrite
    dsimp only
    rw [baseIndex_partIndex]
    change plain ((s.updRec f).replaceWeights (partIndex part.toNat - 0x2000) 1) = _
    rw [hindex, State.replaceWeights_asks (s.updRec f) _ hst hrepl hreq]
    rfl
  obtain ⟨p, ⟨out, sessions, n, l, ht⟩, hans⟩ :=
    writeOwn_takesEffect h (fun t => t.askAll (s.part part.toNat).base.toNat) heff (fun f => (s.updRec f).askAll_keeps _)
  refine ⟨_, rfl, hans, fun k hk => ?_⟩
  obtain ⟨hkst, hkreq⟩ := foldl_askReplacement_part (s.attached (s.part part.toNat).base.toNat) (s.pushRec p false) k
  rw [ht]
  exact ⟨hkreq (.inl hk), hkst⟩

/-- A record joins the buffer behind those pending, or is lost. -/
theorem State.record_keepsAnswers (s : State) (p : Payload) : KeepsAnswers s (s.record p) := by
  unfold State.record
  split
  · exact ⟨rfl, List.prefix_append _ _⟩
  · exact ⟨rfl, List.prefix_refl _⟩

theorem State.event_keepsAnswers (s : State) (kind code object : Nat) (n : Option (BitVec 48)) (after before : Nat) :
    KeepsAnswers s (s.event kind code object n after before) := by
  unfold State.event
  rw [State.raise_frame]
  exact State.record_keepsAnswers { s with mgmt := (s.raise kind object).mgmt } _

theorem State.twilight_keepsAnswers (s : State) (cause : Nat) : KeepsAnswers s (s.twilight cause) := by
  unfold State.twilight
  split
  · dsimp only
    split <;> exact State.event_keepsAnswers _ _ _ _ _ _ _
  · exact State.event_keepsAnswers _ _ _ _ _ _ _

theorem requestDrain_decides (h : s.acceptsWrite m u 0xF010 0x05 (.num 1) = true) (hst : s.health.st = 0)
    (hd : s.health.decided = none) :
    ∃ t, exec (.requestDrain m (.num 1)) s = .next t ∧ WriteAnswered m u 0xF010 0x05 s t ∧ t.health.decided = some 1 ∧
      t.parts = s.parts := by
  obtain ⟨p, ⟨out, sessions, n, l, ht⟩, hans⟩ :=
    writeOwn_takesEffect h (fun t => t.twilight 1) (fun _ => rfl) (fun f => (s.updRec f).twilight_keepsAnswers 1)
  obtain ⟨flag, hhealth⟩ := State.twilight_decides (s.pushRec p false) 1 hst hd
  refine ⟨_, rfl, hans, ?_, ?_⟩
  · rw [ht, hhealth]
    rfl
  · rw [ht, State.twilight_frame]
    rfl

theorem clearFlag_clears (h : s.acceptsWrite m u 0xF010 0x06 (.num 1) = true) :
    ∃ t, exec (.clearFlag m (.num 1)) s = .next t ∧ WriteAnswered m u 0xF010 0x06 s t ∧
      t.health = { s.health with clearing := true } := by
  obtain ⟨p, ⟨out, sessions, n, l, ht⟩, hans⟩ :=
    writeOwn_takesEffect h (fun t => t.updHealth (fun x => { x with clearing := true })) (fun _ => rfl) (fun _ => .of_eq rfl rfl)
  exact ⟨_, rfl, hans, by rw [ht]; rfl⟩

/-! ## Daylight modules (R408, R410) -/

theorem baseIndex_module (mm : ModuleNo) : baseIndex (0x5000 + mm.val) = 0x5000 := by
  have hlt := mm.isLt
  unfold baseIndex
  rw [if_neg (by omega), if_pos (by omega)]

/-- A Write to an entry of a module is a removal request or a relight. -/
theorem State.dictWrite_module (s : State) (u : UoaSess) (mm : ModuleNo) (sub n : Nat) :
    s.dictWrite u (0x5000 + mm.val) sub 0 (.num n) =
      plain (if sub = 0x0B then s.requestRemoval mm.val n else s.relight mm.val n) := by
  have hindex : 0x5000 + mm.val - 0x5000 = mm.val := Nat.add_sub_cancel_left ..
  unfold State.dictWrite
  dsimp only
  rw [baseIndex_module]
  change plain (if sub = 0x0B then s.requestRemoval (0x5000 + mm.val - 0x5000) n else s.relight (0x5000 + mm.val - 0x5000) n) = _
  rw [hindex]

/-- An Active link that is to run narrow: at full width it narrows in the next dusk, else a widening that waits is dropped (R410). -/
def Endpoint.narrowing (e : Endpoint) : Endpoint := { e with width := if e.lanes = 4 then some false else none }

def State.narrowLink (s : State) (l : Nat) : State :=
  if (s.link l).st = .active then s.setLink l (s.link l).narrowing else s

theorem State.link_narrowLink (s : State) (l k : Nat) :
    (s.narrowLink l).link k = if k = l ∧ (s.link k).st = .active then (s.link k).narrowing else s.link k := by
  unfold State.narrowLink
  split
  next h =>
    rw [State.link_setLink]
    by_cases hk : k = l
    · subst hk
      rw [if_pos rfl, if_pos ⟨rfl, h⟩]
    · rw [if_neg hk, if_neg fun hc => hk hc.1]
  next h => rw [if_neg fun (hc : k = l ∧ _) => h (hc.1 ▸ hc.2)]

/-- The Active links of a list narrow, once however often they are listed. -/
theorem foldl_narrowLink_link (ls : List Nat) (s : State) (k : Nat) :
    (ls.foldl (fun t l => t.narrowLink l) s).link k =
      if k ∈ ls ∧ (s.link k).st = .active then (s.link k).narrowing else s.link k := by
  induction ls generalizing s with
  | nil => simp
  | cons l ls ih =>
    rw [List.foldl_cons, ih, State.link_narrowLink]
    by_cases hk : k = l ∧ (s.link k).st = .active
    · rw [if_pos hk, if_pos (c := k ∈ l :: ls ∧ (s.link k).st = .active) ⟨hk.1 ▸ List.mem_cons_self, hk.2⟩]
      exact ite_self _
    · have hmem : k ∈ l :: ls ∧ (s.link k).st = .active ↔ k ∈ ls ∧ (s.link k).st = .active :=
        ⟨fun h => ⟨(List.mem_cons.1 h.1).resolve_left fun he => hk ⟨he, h.2⟩, h.2⟩, fun h => ⟨List.mem_cons_of_mem _ h.1, h.2⟩⟩
      rw [if_neg hk]
      simp only [hmem]

/-- What narrowing links leaves alone. -/
theorem foldl_narrowLink_beside (ls : List Nat) (s : State) :
    (ls.foldl (fun t l => t.narrowLink l) s).dict = s.dict ∧ (ls.foldl (fun t l => t.narrowLink l) s).recd = s.recd ∧
      (ls.foldl (fun t l => t.narrowLink l) s).mods = s.mods := by
  have hview := foldl_keeps (fun t : State => (t.dict, t.recd, t.mods)) (fun t l => t.narrowLink l)
    (fun t l => by unfold State.narrowLink; split <;> rfl) ls s
  exact ⟨congrArg (·.1) hview, congrArg (·.2.1) hview, congrArg (·.2.2) hview⟩

/-- A removal waits while a link of its module runs wide (R410). -/
theorem State.advanceRemoval_of_wide (s : State) {l k : Nat} (hl : l ∈ moduleLinks k) (hst : (s.link l).st = .active)
    (hlanes : (s.link l).lanes = 4) : s.advanceRemoval k = s := by
  unfold State.advanceRemoval
  exact if_pos (.inr (List.all_eq_false.2 ⟨l, hl, by simp [hst, hlanes]⟩))

/-- A removal that has just been requested: the module is to be removed and its links narrow (R410 step 1). -/
def State.removalBegun (s : State) (k : Nat) : State :=
  (moduleLinks k).foldl (fun t l => t.narrowLink l) (s.setModule k { s.module k with removing := true })

theorem State.requestRemoval_begins (s : State) {k l : Nat} (hlow : 2 ≤ (s.module k).st) (hhigh : (s.module k).st ≤ 4)
    (hl : l ∈ moduleLinks k) (hst : (s.link l).st = .active) (hlanes : (s.link l).lanes = 4) :
    s.requestRemoval k 1 = (s.removalBegun k, 0) := by
  have hbegun : (s.removalBegun k).link l = (s.link l).narrowing :=
    (foldl_narrowLink_link (moduleLinks k) (s.setModule k { s.module k with removing := true }) l).trans (if_pos ⟨hl, hst⟩)
  unfold State.requestRemoval
  dsimp only
  rw [if_neg (not_not.2 rfl), if_neg (by omega)]
  exact congrArg (·, (0 : BitVec 8)) (State.advanceRemoval_of_wide (s.removalBegun k) hl (by rw [hbegun]; exact hst) (by rw [hbegun]; exact hlanes))

theorem removalRequest_narrows {mm : ModuleNo} {l : Nat} (h : s.acceptsWrite m u (0x5000 + mm.val) 0x0B (.num 1) = true)
    (hlow : 2 ≤ (s.module mm.val).st) (hhigh : (s.module mm.val).st ≤ 4) (hl : l ∈ moduleLinks mm.val)
    (hst : (s.link l).st = .active) (hlanes : (s.link l).lanes = 4) :
    ∃ t, exec (.removalRequest m mm (.num 1)) s = .next t ∧ WriteAnswered m u (0x5000 + mm.val) 0x0B s t ∧
      t.module mm.val = { s.module mm.val with removing := true } ∧ t.link l = { s.link l with width := some false } ∧
      ∀ k ∈ moduleLinks mm.val, (s.link k).st = .active → (s.link k).lanes ≠ 4 → t.link k = { s.link k with width := none } := by
  obtain ⟨p, ⟨out, sessions, n, r, ht⟩, hans⟩ := writeOwn_takesEffect h (fun t => t.removalBegun mm.val)
    (fun f => by
      rw [State.dictWrite_module, if_pos rfl, State.requestRemoval_begins (s.updRec f) hlow hhigh hl hst hlanes]
      rfl)
    (fun f => by
      obtain ⟨hdict, hrecd, -⟩ := foldl_narrowLink_beside (moduleLinks mm.val)
        ((s.updRec f).setModule mm.val { (s.updRec f).module mm.val with removing := true })
      exact .of_eq hdict hrecd)
  have hlink (k : Nat) (hk : k ∈ moduleLinks mm.val) (hactive : (s.link k).st = .active) :
      ((s.pushRec p false).removalBegun mm.val).link k = (s.link k).narrowing :=
    (foldl_narrowLink_link (moduleLinks mm.val) _ k).trans (if_pos ⟨hk, hactive⟩)
  obtain ⟨-, -, hmods⟩ := foldl_narrowLink_beside (moduleLinks mm.val)
    ((s.pushRec p false).setModule mm.val { (s.pushRec p false).module mm.val with removing := true })
  refine ⟨_, rfl, hans, ?_, ?_, fun k hk hactive hwide => ?_⟩ <;> rw [ht]
  · exact (congrArg (fun x : SMap Module => SMap.get x {} mm.val) hmods).trans (SMap.get_set_same s.mods {} mm.val _)
  · exact (hlink l hl hst).trans (by rw [Endpoint.narrowing, if_pos hlanes])
  · exact (hlink k hk hactive).trans (by rw [Endpoint.narrowing, if_neg hwide])

theorem relight_probes {mm : ModuleNo} (h : s.acceptsWrite m u (0x5000 + mm.val) 0x0C (.num 1) = true)
    (hst : (s.module mm.val).st = 5) (hprobing : (s.module mm.val).probing = false)
    (hsound : (s.module mm.val).data.any modSound = true) :
    ∃ t, exec (.relight m mm (.num 1)) s = .next t ∧ WriteAnswered m u (0x5000 + mm.val) 0x0C s t ∧
      t.module mm.val = { s.module mm.val with probing := true, en := true, cmisOff := false } := by
  have hrelight (f : Recorder → Recorder) : (s.updRec f).relight mm.val 1 =
      ((s.updRec f).setModule mm.val { s.module mm.val with probing := true, en := true, cmisOff := false }, 0) := by
    unfold State.relight
    simp only [State.module_updRec_of, hst, hprobing, hsound]
    rfl
  obtain ⟨p, ⟨out, sessions, n, r, ht⟩, hans⟩ :=
    writeOwn_takesEffect h (fun t => t.setModule mm.val { s.module mm.val with probing := true, en := true, cmisOff := false })
      (fun f => by rw [State.dictWrite_module, if_neg (by decide), hrelight]; rfl) (fun _ => .of_eq rfl rfl)
  refine ⟨_, rfl, hans, ?_⟩
  rw [ht]
  exact State.module_setModule_same (s.pushRec p false) mm.val _

/-! ## The recorder and the links (R506, R524) -/

theorem State.startFlush_of_pending (s : State) (hidle : s.recd.flushing = none) (hpending : s.recd.buffer ≠ []) :
    s.startFlush = (s.updRec (fun r => { r with flushing := some r.buffer.length })).flashWrite .recorder := by
  unfold State.startFlush
  rw [hidle]
  exact if_neg (by simpa using hpending)

theorem flushNow_flushes (h : s.acceptsWrite m u 0x9000 0x09 (.num 1) = true) (hidle : s.recd.flushing = none) :
    ∃ t, exec (.flushNow m (.num 1)) s = .next t ∧ WriteAnswered m u 0x9000 0x09 s t ∧
      t.recd.flushing = some (s.recd.buffer.length + 1) ∧ FlashCls.recorder ∈ t.mgmt.fqueue := by
  have hkeeps (t : State) : KeepsAnswers t t.startFlush := by
    unfold State.startFlush
    split
    · exact ⟨rfl, List.prefix_refl _⟩
    · split <;> exact ⟨rfl, List.prefix_refl _⟩
  obtain ⟨p, ⟨out, sessions, n, l, ht⟩, hans⟩ :=
    writeOwn_takesEffect h (fun t => t.startFlush) (fun _ => rfl) (fun _ => hkeeps _)
  rw [State.startFlush_of_pending (s.pushRec p false) hidle (by simp [State.pushRec])] at ht
  refine ⟨_, rfl, hans, ?_, ?_⟩ <;> rw [ht]
  · exact congrArg some (List.length_append ..)
  · simp [State.flashWrite]

theorem State.link_retrain (s : State) (l : Nat) :
    (s.retrain l).link l = { (s.link l).restart 0 with st := .training, loop := none, keyGen := 0, keyUse := 0, role := 0 } := by
  rw [State.retrain, State.updLink, State.link_setLink, if_pos rfl]
  rfl

theorem linkReset_trains (h : s.acceptsWrite m u 0x6000 0x0F (.num 1) = true)
    (hactive : (s.link (selOf u 0x6000)).st ≠ .active) (htraining : (s.link (selOf u 0x6000)).st ≠ .training) :
    ∃ t, exec (.linkReset m (.num 1)) s = .next t ∧ WriteAnswered m u 0x6000 0x0F s t ∧
      (t.link (selOf u 0x6000)).st = .training ∧ (t.link (selOf u 0x6000)).stage = 0 ∧ t.dict.clusterNow = s.dict.cluster := by
  have hreset (f : Recorder → Recorder) :
      (s.updRec f).resetLink (selOf u 0x6000) 1 = done ((s.updRec f).retrain (selOf u 0x6000)) := by
    unfold State.resetLink
    exact (if_neg (not_not.2 rfl)).trans (if_neg (not_or.2 ⟨hactive, htraining⟩))
  obtain ⟨p, ⟨out, sessions, n, l, ht⟩, hans⟩ :=
    writeOwn_takesEffect h (fun t => t.retrain (selOf u 0x6000)) hreset (fun _ => ⟨rfl, List.prefix_refl _⟩)
  have hlink := (s.pushRec p false).link_retrain (selOf u 0x6000)
  refine ⟨_, rfl, hans, ?_, ?_, ?_⟩ <;> rw [ht]
  · exact congrArg Endpoint.st hlink
  · exact congrArg Endpoint.stage hlink
  · rfl

end Sys2Proof.Machine
end

section
open Sys2Proof Sys2Proof.Machine

/-- Settles O44, Write by Write: each is the effect of its entry behind the change record (`writeOwn_takesEffect`), with the effect's own
conditions met. -/
theorem serviceWritesTakeEffect : Obligations.ServiceWritesTakeEffect := by
  unfold Obligations.ServiceWritesTakeEffect
  refine ⟨?_, ?_, ?_, ?_, ?_, ?_, ?_, ?_, ?_, ?_⟩
  · exact fun _ _ _ h _ => requestFullCalibration_queues h
  · exact fun _ _ _ _ h hn => userCalibrationPoint_queues h hn
  · exact fun _ _ _ h hsweep => newSweep_countsUp h hsweep
  · exact fun _ _ _ _ h hst hrepl hreq => replacement_asks h hst hrepl hreq
  · exact fun _ _ _ h hst hd => requestDrain_decides h hst hd
  · exact fun _ _ _ h => clearFlag_clears h
  · exact fun _ _ _ _ _ h hlow hhigh hl hst hlanes => removalRequest_narrows h hlow hhigh hl hst hlanes
  · exact fun _ _ _ _ h hst hprobing hsound => relight_probes h hst hprobing hsound
  · exact fun _ _ _ h hidle => flushNow_flushes h hidle
  · exact fun _ _ _ h _ hactive htraining => linkReset_trains h hactive htraining

end

section
/-! SUPPORT. What the ends of a full calibration and of a background window, the write of calibration rows and an event make of an array
(R99-R104, R107, R110), and what they leave of the other arrays and of the tiles. -/

namespace Sys2Proof.Machine

variable (s : State)

@[simp] theorem State.arrayEvent_dict (code a after before : Nat) : (s.arrayEvent code a after before).dict = s.dict :=
  congrArg (·.2.2.2.2) (s.arrayEvent_besideEvents code a after before)

/-- With room in the buffer, an event is one record more (R505). -/
theorem State.arrayEvent_buffer_length (code a after before : Nat) (h : s.recd.buffer.length < 448) :
    (s.arrayEvent code a after before).recd.buffer.length = s.recd.buffer.length + 1 := by
  have hraise : (s.raise 0x05 a).recd = s.recd := by rw [State.raise_frame]
  have hadmits : (s.raise 0x05 a).admits 0x05 = true := by simp [State.admits, hraise, h]
  simp only [State.arrayEvent, State.event, State.record, Payload.kind, hadmits, if_true, State.pushRec, hraise]
  exact List.length_append ..

/-! ## A full calibration (R104, R107, R112) -/

/-- An array whose full calibration has begun (R101, R106). -/
def ArrayS.calBegun (x : ArrayS) (why : CalWhy) : ArrayS :=
  { x with running := some why, stage := 1, stageSlots := 0, detached := none, suspended := false, stale := true, win := {} }

/-- The array whose corrections a full calibration found, its trims new. -/
def ArrayS.corrected (x : ArrayS) (offsets gains : List Int) (temp : Option Int) : ArrayS :=
  ({ x with corr := x.fullCorr offsets gains } : ArrayS).retrim temp

/-- An array whose full calibration has ended (R101, R104), with the set that the run gives. -/
def ArrayS.calEnded (x : ArrayS) (new : Option StagedSet) (hours : Nat) : ArrayS :=
  { x with running := none, stage := 0, stageSlots := 0, detached := none, stale := false, win := {}, lastFull := hours
           staging := x.staging ++ new.toList }

/-- A tile whose calibration unit an array leaves: the user calibrations that a priority request outran wait again (R107, R112), and the
points that the tile was out of tolerance for are counted. -/
def State.leaveUnit (s : State) (a : Nat) (r : CalWhy) : State :=
  let later := (s.tile (a / 64)).calPrio.contains a
  let points := if later then [] else r.user
  (s.updTile (a / 64) (fun t =>
    { t with calNow := none, calUser := if later then t.calUser ++ r.user.map (fun p => (a, p)) else t.calUser })).updDict
      (fun d => { d with calSkipped := d.calSkipped + (points.filter (fun p => !inTolerance (s.tileTemp (a / 64)) p.toNat)).length })

/-- What follows once the array stands as a full calibration left it: its tile's unit is free, the corrections are saved after the last
user calibration, the figure is set, and Twilight is decided where a converter, or the figure of a requested run, is out of range (R99,
R101, R113). -/
def State.closeCalibration (s : State) (a : Nat) (r : CalWhy) (y : ArrayS) (q : BitVec 16) : State :=
  let t := (((s.leaveUnit a r).setArray a y).afterUser s.userOpen).setQuality a q
  if y.untrim ≠ [] ∨ (r.prio = true ∧ 768 < q.toNat) then t.twilight 0x03 else t

/-- Whether or not Twilight is decided, the array holds what it was left with and its new figure. -/
theorem State.array_closeCalibration (a : Nat) (r : CalWhy) (y : ArrayS) (q : BitVec 16) :
    ((s.closeCalibration a r y q).array a).unsaved = { y.unsaved with quality := q } := by
  have hset : ((((s.leaveUnit a r).setArray a y).afterUser s.userOpen).setQuality a q).array a =
      { (((s.leaveUnit a r).setArray a y).afterUser s.userOpen).array a with quality := q } := State.array_setQuality _ a q
  have hfigure : (((((s.leaveUnit a r).setArray a y).afterUser s.userOpen).setQuality a q).array a).unsaved =
      { y.unsaved with quality := q } := by
    rw [hset, ← (s.leaveUnit a r).afterUser_setArray s.userOpen a y]
    rfl
  unfold State.closeCalibration
  dsimp only
  split
  · rw [State.array_twilight, hfigure]
  · exact hfigure

theorem State.tile_closeCalibration (a : Nat) (r : CalWhy) (y : ArrayS) (q : BitVec 16) :
    ((s.closeCalibration a r y q).tile (a / 64)).calNow = none := by
  have hleft : ((s.leaveUnit a r).tile (a / 64)).calNow = none := by
    rw [State.leaveUnit, State.tile_updDict_of, State.tile_updTile_same]
  have hfree : (((((s.leaveUnit a r).setArray a y).afterUser s.userOpen).setQuality a q).tile (a / 64)).calNow = none := by
    rw [State.tile_setQuality, State.tile_afterUser, State.tile_setArray_of]
    exact hleft
  unfold State.closeCalibration
  dsimp only
  split
  · rw [State.tile_twilight, hfree]
  · exact hfree

/-! ## The write of calibration rows (R93, R107, R110) -/

/-- An array whose oldest staged set is written. -/
def ArrayS.rowsWritten (x : ArrayS) (e : StagedSet) (rest : List StagedSet) (hours : Nat) : ArrayS :=
  { x with
    cal := { e.set with
      writes := x.cal.writes + BitVec.ofNat 32 e.rows, hours := BitVec.ofNat 48 hours,
      sumsProg := if e.sums then BitVec.ofNat 32 x.progCount else e.set.sumsProg }
    staging := rest, corr := if e.zero then [] else x.corr
    rebuild := if x.rebuild = 1 ∧ e.rebuilt = true then 2 else x.rebuild }

/-- The write of an array's oldest staged set: one of a user calibration is counted, and the corrections are saved after the last. -/
theorem State.writeRows_eq {a : Nat} {e : StagedSet} {rest : List StagedSet} (h : (s.array a).staging = e :: rest) :
    s.writeRows a =
      let t := s.setArray a (((s.array a).rowsWritten e rest s.dawn.hours).retrim (s.tileTemp (a / 64)))
      if e.user then (t.updDict (fun d => { d with calWritten := d.calWritten + 1 })).afterUser s.userOpen else t := by
  simp only [State.writeRows, h]
  rfl

theorem State.afterUser_calWritten (open_ : Bool) : (s.afterUser open_).dict.calWritten = s.dict.calWritten := by
  unfold State.afterUser
  split <;> rfl

/-! ## Background windows (R100, R101) -/

/-- A group's corrections change the corrections of an array and its counts of unresolved errors only. -/
theorem ArrayS.groupCorrect_frame (es : List Rat) (w : CalWindow) (x : ArrayS) (t : Nat) :
    ∃ c n k, ArrayS.groupCorrect es w x t = { x with corr := c, unres := n, unresRun := k } := by
  unfold ArrayS.groupCorrect
  dsimp only
  split
  · exact ⟨_, x.unres, _, rfl⟩
  · exact ⟨x.corr, _, _, rfl⟩

/-- What the end of a window leaves of an array, and its count and new window. -/
def ArrayS.windowView (x : ArrayS) : Nat × CalWindow × SMap Int × CalSet × BitVec 16 := (x.windows, x.win, x.cells, x.cal, x.quality)

theorem ArrayS.windowView_retrim (x : ArrayS) (temp : Option Int) : (x.retrim temp).windowView = x.windowView := by
  rw [ArrayS.retrim_frame]
  rfl

theorem ArrayS.windowView_groupCorrects (x : ArrayS) (w : CalWindow) (ts : List Nat) :
    (ts.foldl (fun y t => y.groupCorrect w.errs w t) x).windowView = x.windowView :=
  List.foldlRecOn (motive := fun y : ArrayS => y.windowView = x.windowView) _ _ rfl fun y h t _ => by
    obtain ⟨c, n, k, hy⟩ := ArrayS.groupCorrect_frame w.errs w y t
    rw [hy]
    exact h

theorem ArrayS.windowView_endWindow (x : ArrayS) (temp : Option Int) :
    (x.endWindow temp).windowView = (x.windows + 1, {}, x.cells, x.cal, x.quality) := by
  have hkept := x.windowView_groupCorrects x.win (List.range 8)
  have hwindows := congrArg (·.1) hkept
  have hrest := congrArg (·.2.2) hkept
  unfold ArrayS.endWindow
  dsimp only
  split
  · exact Prod.ext (congrArg (· + 1) hwindows) (Prod.ext rfl hrest)
  · rw [ArrayS.windowView_retrim]
    exact Prod.ext (congrArg (· + 1) hwindows) (Prod.ext rfl hrest)

/-- The array at the end of its background window (R100, R101). -/
theorem State.array_windowEnd (a : Nat) :
    (s.windowEnd a).array a =
      { (s.array a).endWindow (s.tileTemp (a / 64)) with
        stale := false
        quality := if 1024 ≤ (s.array a).win.count then (s.array a).win.figure else ((s.array a).endWindow (s.tileTemp (a / 64))).quality } := by
  unfold State.windowEnd
  dsimp only
  split <;> split <;> simp

end Sys2Proof.Machine
end

section
/-! Certificate of O15: full calibration from start to write, background windows, and the upkeep of calibration (R99-R114, R380, R381), a
lemma for each. -/

namespace Sys2Proof.Machine

variable {s : State} {tile : TileNo} {array : ArrayNo}

/-! ## A full calibration (R101, R104, R106, R107, R112) -/

theorem exec_fullCalibrationStart {a : Nat} (hidle : (s.tile tile.toNat).calNow = none)
    (hnext : (s.tile tile.toNat).nextCal (fun n => decide ((s.array n).st = .resident)) = some a) :
    exec (.fullCalibrationStart tile) s =
      .next ((s.setTile tile.toNat { (s.tile tile.toNat).dropRequests a with calNow := some (BitVec.ofNat 15 a) }).setArray a
        ((s.array a).calBegun ((s.tile tile.toNat).calWhy a (decide ((s.array a).rebuild = 1))))) := by
  change execFullCalibrationStart tile s = _
  simp only [execFullCalibrationStart, hidle, hnext]
  rfl

theorem fullCalibrationStart_takesNext {a : Nat} (hidle : (s.tile tile.toNat).calNow = none)
    (hnext : (s.tile tile.toNat).nextCal (fun n => decide ((s.array n).st = .resident)) = some a) :
    let u := s.tile tile.toNat
    ∃ t, exec (.fullCalibrationStart tile) s = .next t ∧ (t.tile tile.toNat).calNow = some (BitVec.ofNat 15 a) ∧
      (∀ n ∈ (t.tile tile.toNat).calPrio, n ≠ a ∧ n ∈ u.calPrio) ∧ (∀ n ∈ (t.tile tile.toNat).calRot, n ≠ a ∧ n ∈ u.calRot) ∧
      (∀ n ∈ (t.tile tile.toNat).calUser, n.1 ≠ a ∧ n ∈ u.calUser) ∧
      (t.array a).running = some (u.calWhy a (decide ((s.array a).rebuild = 1))) ∧
      (t.array a).stage = 1 ∧ (t.array a).stale = true ∧ (t.array a).cal = (s.array a).cal ∧ (∀ b, b ≠ a → t.array b = s.array b) := by
  refine ⟨_, exec_fullCalibrationStart hidle hnext, ?_⟩
  rw [State.tile_setArray_of, State.tile_setTile_same, State.array_setArray_same]
  refine ⟨rfl, fun n hn => ?_, fun n hn => ?_, fun n hn => ?_, rfl, rfl, rfl, rfl, fun b hb => State.array_setArray_other _ _ hb⟩ <;>
  · obtain ⟨hmem, hne⟩ := List.mem_filter.1 hn
    exact ⟨of_decide_eq_true hne, hmem⟩

/-- The set that a run gives: none where a priority request has outrun a user calibration (R107, R112). -/
def State.runSet (s : State) (a : Nat) (r : CalWhy) (offsets gains : List Int) (sums : List (BitVec 12)) : Option StagedSet :=
  let later := (s.tile (a / 64)).calPrio.contains a
  if later = true ∧ r.user ≠ [] then none
  else ((s.array a).corrected offsets gains (s.tileTemp (a / 64))).newSet r (if later then [] else r.user) (s.tileTemp (a / 64)) (sumsOf sums)
    s.health.sweep s.medianSlope

theorem exec_fullCalibrationEnd (offsets gains : List Int) (sums : List (BitVec 12)) (q : BitVec 16) {r : CalWhy}
    (hrun : (s.array array.toNat).running = some r) (hgoing : (s.array array.toNat).suspended = false)
    (hstage : (s.array array.toNat).stage = 5) (hslots : (s.array array.toNat).stageSlots = 1024) :
    exec (.fullCalibrationEnd array offsets gains sums q) s = .next (s.closeCalibration array.toNat r
      (((s.array array.toNat).corrected offsets gains (s.tileTemp (array.toNat / 64))).calEnded
        (s.runSet array.toNat r offsets gains sums) s.dawn.hours) q) := by
  have hguard : ¬((s.array array.toNat).suspended = true ∨ (s.array array.toNat).stage ≠ 5 ∨
      (s.array array.toNat).stageSlots ≠ stageLen 5) := by
    simp [hgoing, hstage, hslots, stageLen]
  have hset : s.runSet array.toNat r offsets gains sums =
      if ((s.tile (array.toNat / 64)).calPrio.contains array.toNat && !r.user.isEmpty) = true then none
      else ((s.array array.toNat).corrected offsets gains (s.tileTemp (array.toNat / 64))).newSet r
        (if (s.tile (array.toNat / 64)).calPrio.contains array.toNat then [] else r.user) (s.tileTemp (array.toNat / 64)) (sumsOf sums)
        s.health.sweep s.medianSlope := by
    simp [State.runSet]
  rw [hset]
  change execFullCalibrationEnd array offsets gains sums q s = _
  unfold execFullCalibrationEnd
  dsimp only
  split
  next hnone => cases hrun.symm.trans hnone
  next r' hr =>
    obtain rfl : r = r' := Option.some.inj (hrun.symm.trans hr)
    rw [if_neg hguard]
    exact (apply_ite Host.Outcome.next _ _ _).symm

/-- Before the last slot of the last stage, and while it is suspended, a full calibration does not end. -/
theorem exec_fullCalibrationEnd_early (offsets gains : List Int) (sums : List (BitVec 12)) (q : BitVec 16)
    (h : (s.array array.toNat).running = none ∨ (s.array array.toNat).suspended = true ∨ (s.array array.toNat).stage ≠ 5 ∨
      (s.array array.toNat).stageSlots ≠ 1024) :
    exec (.fullCalibrationEnd array offsets gains sums q) s = .next s := by
  change execFullCalibrationEnd array offsets gains sums q s = _
  unfold execFullCalibrationEnd
  dsimp only
  split
  · rfl
  next r hrun => exact if_pos (h.resolve_left (by simp [hrun]))

theorem fullCalibrationEnd_stages (offsets gains : List Int) (sums : List (BitVec 12)) (q : BitVec 16) {r : CalWhy}
    (hrun : (s.array array.toNat).running = some r) (hgoing : (s.array array.toNat).suspended = false)
    (hstage : (s.array array.toNat).stage = 5) (hslots : (s.array array.toNat).stageSlots = 1024) :
    let x := s.array array.toNat
    ∃ t, exec (.fullCalibrationEnd array offsets gains sums q) s = .next t ∧ (t.array array.toNat).running = none ∧
      (t.array array.toNat).corr = x.fullCorr offsets gains ∧ (t.array array.toNat).quality = q ∧ (t.array array.toNat).stale = false ∧
      (t.array array.toNat).lastFull = s.dawn.hours ∧ (t.tile (array.toNat / 64)).calNow = none ∧
      (t.array array.toNat).staging = x.staging ++ (s.runSet array.toNat r offsets gains sums).toList := by
  intro x
  refine ⟨_, exec_fullCalibrationEnd offsets gains sums q hrun hgoing hstage hslots, ?_⟩
  have hx := s.array_closeCalibration array.toNat r ((x.corrected offsets gains (s.tileTemp (array.toNat / 64))).calEnded
    (s.runSet array.toNat r offsets gains sums) s.dawn.hours) q
  have hkept : (x.corrected offsets gains (s.tileTemp (array.toNat / 64))).corr = x.fullCorr offsets gains ∧
      (x.corrected offsets gains (s.tileTemp (array.toNat / 64))).staging = x.staging := by
    rw [ArrayS.corrected, ArrayS.retrim_frame]
    exact ⟨rfl, rfl⟩
  obtain ⟨hcorr, hstaging⟩ := hkept
  refine ⟨(congrArg ArrayS.running hx :), (congrArg ArrayS.corr hx).trans hcorr, (congrArg ArrayS.quality hx :), (congrArg ArrayS.stale hx :),
    (congrArg ArrayS.lastFull hx :), s.tile_closeCalibration .., (congrArg ArrayS.staging hx).trans ?_⟩
  exact congrArg (· ++ (s.runSet array.toNat r offsets gains sums).toList) hstaging

/-! ## Rows written, and background windows (R93, R100, R101, R110) -/

theorem calibrationWriteEnd_writes {e : StagedSet} {rest : List StagedSet}
    (h : (s.array array.toNat).staging = e :: rest) :
    let x := s.array array.toNat
    ∃ t, exec (.calibrationWriteEnd array) s = .next t ∧ (t.array array.toNat).staging = rest ∧
      (t.array array.toNat).cal.trims = e.set.trims ∧ (t.array array.toNat).cal.sums = e.set.sums ∧
      (t.array array.toNat).cal.sweeps = e.set.sweeps ∧
      (t.array array.toNat).cal.writes = x.cal.writes + BitVec.ofNat 32 e.rows ∧
      (t.array array.toNat).corr = (if e.zero then [] else x.corr) ∧
      (if e.user then t.dict.calWritten = s.dict.calWritten + 1 else ∀ b, b ≠ array.toNat → t.array b = s.array b) := by
  intro x
  have hview (y : ArrayS) (hy : y.unsaved = (x.rowsWritten e rest s.dawn.hours |>.retrim (s.tileTemp (array.toNat / 64))).unsaved) :
      y.staging = rest ∧ y.cal = (x.rowsWritten e rest s.dawn.hours).cal ∧ y.corr = (if e.zero then [] else x.corr) := by
    rw [ArrayS.retrim_frame] at hy
    exact ⟨(congrArg ArrayS.staging hy :), (congrArg ArrayS.cal hy :), (congrArg ArrayS.corr hy :)⟩
  refine ⟨_, congrArg Host.Outcome.next (s.writeRows_eq h), ?_⟩
  dsimp only
  by_cases huser : e.user = true
  · simp only [if_pos huser]
    obtain ⟨hstaging, hcal, hcorr⟩ := hview _ (State.afterUser_setArray
      (s.updDict (fun d => { d with calWritten := d.calWritten + 1 })) s.userOpen array.toNat _)
    exact ⟨hstaging, (congrArg CalSet.trims hcal :), (congrArg CalSet.sums hcal :), (congrArg CalSet.sweeps hcal :),
      (congrArg CalSet.writes hcal :), hcorr, State.afterUser_calWritten _ _⟩
  · simp only [if_neg huser]
    obtain ⟨hstaging, hcal, hcorr⟩ := hview _ (congrArg ArrayS.unsaved (State.array_setArray_same s array.toNat _))
    exact ⟨hstaging, (congrArg CalSet.trims hcal :), (congrArg CalSet.sums hcal :), (congrArg CalSet.sweeps hcal :),
      (congrArg CalSet.writes hcal :), hcorr, fun b hb => State.array_setArray_other _ _ hb⟩

theorem backgroundWindowEnd_counts (hops : 4096 ≤ (s.array array.toNat).win.ops) (hrun : (s.array array.toNat).running = none)
    (hst : (s.array array.toNat).st = .resident) (hon : s.dict.bgEnable = true) :
    let x := s.array array.toNat
    ∃ t, exec (.backgroundWindowEnd array) s = .next t ∧ (t.array array.toNat).windows = x.windows + 1 ∧
      (t.array array.toNat).win = {} ∧ (t.array array.toNat).stale = false ∧ (t.array array.toNat).cells = x.cells ∧
      (t.array array.toNat).cal = x.cal ∧
      (t.array array.toNat).quality = (if 1024 ≤ x.win.count then x.win.figure else x.quality) := by
  intro x
  refine ⟨s.windowEnd array.toNat, if_pos ⟨hops, hrun, hst, hon⟩, ?_⟩
  have hview := ArrayS.windowView_endWindow x (s.tileTemp (array.toNat / 64))
  simp only [ArrayS.windowView, Prod.mk.injEq] at hview
  obtain ⟨hwindows, hwin, hcells, hcal, hquality⟩ := hview
  rw [State.array_windowEnd]
  exact ⟨hwindows, hwin, rfl, hcells, hcal, by rw [hquality]⟩

/-! ## The upkeep of calibration (R99, R103, R106, R380) -/

theorem rotationDue_queues (hst : (s.array array.toNat).st = .resident) (hon : s.dict.rotation ≠ 0) :
    ∃ t, exec (.rotationDue array) s = .next t ∧
      (t.tile (array.toNat / 64)).calRot = insertRising (s.tile (array.toNat / 64)).calRot array.toNat ∧
      (t.tile (array.toNat / 64)).calPrio = (s.tile (array.toNat / 64)).calPrio ∧
      (t.tile (array.toNat / 64)).calUser = (s.tile (array.toNat / 64)).calUser ∧ t.arrays = s.arrays := by
  refine ⟨s.requestRotation array.toNat, if_pos ⟨hst, hon⟩, ?_⟩
  rw [State.requestRotation, State.tile_updTile_same]
  exact ⟨rfl, rfl, rfl, rfl⟩

theorem exec_slotShortfall {k : Nat} (husers : s.usersOf array.toNat ≠ []) (hrun : (s.array array.toNat).slotsRun = some k) :
    exec (.slotShortfall array) s =
      if k < 64 then
        .next (((s.updDict (fun d => { d with shortfalls := bump32 s.dict.shortfalls })).setArray array.toNat
          { s.array array.toNat with slotsRun := none }).arrayEvent 5 array.toNat (bump32 s.dict.shortfalls) s.dict.shortfalls)
      else .next s := by
  change execSlotShortfall array s = _
  unfold execSlotShortfall
  dsimp only
  rw [if_neg (by simpa using husers), hrun]
  rfl

theorem slotShortfall_counts {k : Nat} (husers : s.usersOf array.toNat ≠ []) (hrun : (s.array array.toNat).slotsRun = some k) :
    (k < 64 → s.recd.buffer.length < 448 →
      ∃ t, exec (.slotShortfall array) s = .next t ∧ t.dict.shortfalls = bump32 s.dict.shortfalls ∧
        t.recd.buffer.length = s.recd.buffer.length + 1 ∧ (t.array array.toNat).slotsRun = none ∧
        (∀ b, b ≠ array.toNat → t.array b = s.array b)) ∧
    (64 ≤ k → exec (.slotShortfall array) s = .next s) := by
  refine ⟨fun hk hroom => ⟨_, (exec_slotShortfall husers hrun).trans (if_pos hk), ?_, ?_, ?_, fun b hb => ?_⟩,
    fun hk => (exec_slotShortfall husers hrun).trans (if_neg (Nat.not_lt.2 hk))⟩
  · rw [State.arrayEvent_dict]
    rfl
  · exact State.arrayEvent_buffer_length _ _ _ _ _ hroom
  · rw [State.array_arrayEvent, State.array_setArray_same]
  · rw [State.array_arrayEvent, State.array_setArray_other _ _ hb]
    rfl

theorem correctionSave_saves (a : Nat) (hrising : SMap.rising s.arrays = true) :
    ∃ t, exec .correctionSave s = .next t ∧ (t.array a).corrSaved = (s.array a).corr ∧ (t.array a).corr = (s.array a).corr ∧
      t.dict.corrGen = 1 - s.dict.corrGen ∧ t.tiles = s.tiles := by
  have hsaved : s.saveCorr.array a = (s.array a).withSaved := by
    rw [State.array_get, State.saveCorr_arrays]
    exact SMap.get_mapVals s.arrays {} _ a hrising rfl
  refine ⟨s.saveCorr, rfl, ?_, ?_, rfl, rfl⟩ <;> rw [hsaved] <;> rfl

/-- An array with neither probe nor slices enough waits for its next probe (R380). -/
theorem State.evaluate_awaits (a : Nat) (hst : (s.array a).st = .resident) (hslices : (s.array a).win.slices < 256)
    (hprobe : (s.array a).probe = none) :
    s.evaluate a = ({ s with health := { s.health with driftEvals := s.health.driftEvals + 1 } } : State).setArray a
      { s.array a with awaitProbe := true } := by
  unfold State.evaluate
  dsimp only
  rw [if_neg (not_not.2 hst), if_neg (Nat.not_le.2 hslices), hprobe]

theorem driftEvaluation_awaits {part : PartNo} {a : Nat} (hone : s.attachedArrays part.toNat = [a])
    (hstep : (s.part part.toNat).step.toNat % 256 = 0) (hserving : (s.part part.toNat).st = .serving)
    (hst : (s.array a).st = .resident) (hslices : (s.array a).win.slices < 256) (hprobe : (s.array a).probe = none) :
    ∃ t, exec (.driftEvaluation part) s = .next t ∧ (t.array a).awaitProbe = true ∧ t.health.driftEvals = s.health.driftEvals + 1 := by
  have hexec : exec (.driftEvaluation part) s = .next (s.evaluate a) := by
    change execDriftEvaluation part s = _
    unfold execDriftEvaluation
    rw [hone]
    exact if_pos ⟨hstep, .inl hserving⟩
  refine ⟨_, hexec, ?_⟩
  rw [State.evaluate_awaits a hst hslices hprobe, State.array_setArray_same]
  exact ⟨rfl, rfl⟩

/-! ## The set status (R109, R114) -/

theorem State.setStatus_of_sweeps {a : Nat} {w0 w1 w2 w3 : BitVec 16} (h : (s.array a).cal.sweeps = [w0, w1, w2, w3]) :
    s.setStatus a =
      if w0 = 0xFFFF ∨ w1 = 0xFFFF ∨ w2 = 0xFFFF ∨ w3 = 0xFFFF then 3
      else if w0 = 0 ∧ w1 = 0 ∧ w2 = 0 ∧ w3 = 0 then 0
      else if w1 = w0 ∧ w2 = w0 ∧ w3 = w0 then (if w0 = s.health.sweep then 1 else partNum 0x3100 0x0E a)
      else 2 := by
  simp [State.setStatus, h]

theorem setStatus_cases {a : Nat} {w0 w1 w2 w3 : BitVec 16} (h : (s.array a).cal.sweeps = [w0, w1, w2, w3]) :
    let st := s.setStatus a
    (w0 = 0 → w1 = 0 → w2 = 0 → w3 = 0 → st = 0) ∧
    (w0 = w1 → w1 = w2 → w2 = w3 → w0 ≠ 0 → w0 ≠ 0xFFFF → w0 = s.health.sweep → st = 1) ∧
    ((w0 = 0xFFFF ∨ w1 = 0xFFFF ∨ w2 = 0xFFFF ∨ w3 = 0xFFFF) → st = 3) ∧
    (¬ (w0 = w1 ∧ w1 = w2 ∧ w2 = w3) → w0 ≠ 0xFFFF → w1 ≠ 0xFFFF → w2 ≠ 0xFFFF → w3 ≠ 0xFFFF → st = 2) := by
  have hst := State.setStatus_of_sweeps h
  refine ⟨?_, ?_, fun hrebuilt => hst.trans (if_pos hrebuilt), fun hmixed h0 h1 h2 h3 => ?_⟩
  · rintro rfl rfl rfl rfl
    exact hst.trans (by simp)
  · rintro rfl rfl rfl hzero hones hsweep
    exact hst.trans (by rw [if_neg (by simpa using hones), if_neg fun hz => hzero hz.1, if_pos ⟨rfl, rfl, rfl⟩, if_pos hsweep])
  · have hzero : ¬(w0 = 0 ∧ w1 = 0 ∧ w2 = 0 ∧ w3 = 0) := by
      rintro ⟨rfl, rfl, rfl, rfl⟩
      exact hmixed ⟨rfl, rfl, rfl⟩
    have hequal : ¬(w1 = w0 ∧ w2 = w0 ∧ w3 = w0) := by
      rintro ⟨rfl, rfl, rfl⟩
      exact hmixed ⟨rfl, rfl, rfl⟩
    rw [hst, if_neg (not_or.2 ⟨h0, not_or.2 ⟨h1, not_or.2 ⟨h2, h3⟩⟩⟩), if_neg hzero, if_neg hequal]

end Sys2Proof.Machine
end

section
open Sys2Proof Sys2Proof.Machine

/-- Settles O15, command by command: a full calibration from its start to the write of its rows, the window's end, the upkeep, and the set
status as a function of the sweep numbers (`setStatus_cases`). -/
theorem calibrationRunsAndUpkeep : Obligations.CalibrationRunsAndUpkeep := by
  unfold Obligations.CalibrationRunsAndUpkeep
  refine ⟨⟨?_, ?_, ?_, ?_, ?_⟩, ⟨?_, ?_, ?_, ?_⟩, ?_⟩
  · exact fun _ _ _ hidle hnext => fullCalibrationStart_takesNext hidle hnext
  · exact fun _ offsets gains sums q _ _ _ hrun hgoing hstage hslots => fullCalibrationEnd_stages offsets gains sums q hrun hgoing hstage hslots
  · exact fun _ offsets gains sums q _ h => exec_fullCalibrationEnd_early offsets gains sums q h
  · exact fun _ _ _ _ _ h => calibrationWriteEnd_writes h
  · exact fun _ _ hops hrun hst hon => backgroundWindowEnd_counts hops hrun hst hon
  · exact fun _ _ hst hon => rotationDue_queues hst hon
  · exact fun _ _ _ husers hrun => slotShortfall_counts husers hrun
  · exact fun _ a hrising => correctionSave_saves a hrising
  · exact fun _ _ _ hone hstep hserving hst hslices hprobe => driftEvaluation_awaits hone hstep hserving hst hslices hprobe
  · exact fun _ _ _ _ _ _ h => setStatus_cases h

end

section
/-! SUPPORT. Every command keeps the canonical form of the scratchpad and of the stack space: the relation between a state and the next one,
the operations that run an act, and the commands that pass on a state they were given. -/

namespace Sys2Proof.Machine

/-- Each memory of `t` is canonical where the same memory of `s` is. -/
def KeepsWf (s t : State) : Prop :=
  (Cells.wf s.spad = true → Cells.wf t.spad = true) ∧ (Cells.wf s.mem.data = true → Cells.wf t.mem.data = true)

/-- The next state of an outcome, if there is one, keeps the canonical form of `s`. -/
structure NextKeepsWf (s : State) (o : Host.Outcome State Fault Refusal) : Prop where
  keeps : ∀ t, o = .next t → KeepsWf s t

section
variable {s t u : State} (i : Issue)

theorem KeepsWf.of_eq (hp : t.spad = s.spad) (hd : t.mem.data = s.mem.data) : KeepsWf s t := by
  unfold KeepsWf
  rw [hp, hd]
  exact ⟨id, id⟩

theorem KeepsWf.refl (s : State) : KeepsWf s s := ⟨id, id⟩

theorem KeepsWf.trans (h : KeepsWf s t) (k : KeepsWf t u) : KeepsWf s u := ⟨k.1 ∘ h.1, k.2 ∘ h.2⟩

theorem KeepsWf.next (h : KeepsWf s t) : NextKeepsWf s (.next t) := by
  constructor
  rintro u ⟨⟩
  exact h

theorem NextKeepsWf.after {o : Host.Outcome State Fault Refusal} (h : KeepsWf s t) (k : NextKeepsWf t o) : NextKeepsWf s o :=
  ⟨fun u hu => h.trans (k.keeps u hu)⟩

theorem KeepsWf.ite {c : Prop} [Decidable c] (h : KeepsWf s t) (k : KeepsWf s u) : KeepsWf s (if c then t else u) := by
  split
  · exact h
  · exact k

theorem State.foldl_keepsWf {α : Type} {g : State → α → State} (h : ∀ t a, KeepsWf t (g t a)) (l : List α) (s : State) :
    KeepsWf s (l.foldl g s) := by
  induction l generalizing s with
  | nil => exact .refl s
  | cons a l ih => exact (h s a).trans (ih (g s a))

theorem NextKeepsWf.ite {c : Prop} [Decidable c] {o o' : Host.Outcome State Fault Refusal} (h : NextKeepsWf s o) (k : NextKeepsWf s o') :
    NextKeepsWf s (if c then o else o') := by
  split
  · exact h
  · exact k

/-! ### Operations that run an act -/

variable {act : State → State} (hact : ∀ t, KeepsWf t (act t))
include hact

theorem State.issue_keepsWf (s : State) (port : Nat) (w : W64) (ok : Bool) : KeepsWf s (s.issue i port w ok act) :=
  ⟨State.issue_spad_wf _ _ _ _ _ _ fun t => (hact t).1, State.issue_data_wf _ _ _ _ _ _ fun t => (hact t).2⟩

theorem State.issueLast_keepsWf (s : State) (w : W64) (ok : Bool) : KeepsWf s (s.issueLast i w ok act) :=
  ⟨State.issueLast_spad_wf _ _ _ _ _ fun t => (hact t).1, State.issueLast_data_wf _ _ _ _ _ fun t => (hact t).2⟩

theorem State.useWide_keepsWf (s : State) (line n : Nat) : KeepsWf s (s.useWide i line n act) :=
  ⟨State.useWide_spad_wf _ _ _ _ _ fun t => (hact t).1, State.useWide_data_wf _ _ _ _ _ fun t => (hact t).2⟩

theorem State.useWideAt_keepsWf (s : State) (c line n : Nat) : KeepsWf s (s.useWideAt i c line n act) :=
  ⟨State.useWideAt_spad_wf _ _ _ _ _ _ fun t => (hact t).1, State.useWideAt_data_wf _ _ _ _ _ _ fun t => (hact t).2⟩

theorem State.readChecked_keepsWf (s : State) (unit : BitVec 8) (line n : Nat) (errs : ReadErrs) :
    KeepsWf s (s.readChecked i unit line n errs act) :=
  ⟨State.readChecked_spad_wf _ _ _ _ _ _ _ fun t => (hact t).1, State.readChecked_data_wf _ _ _ _ _ _ _ fun t => (hact t).2⟩

theorem State.vecLine_keepsWf (s : State) (func : BitVec 6) (v : VecOps) (n reads : Nat) (dest : Bool) :
    KeepsWf s (s.vecLine i func v n reads dest act) :=
  ⟨State.vecLine_spad_wf _ _ _ _ _ _ _ _ fun t => (hact t).1, State.vecLine_data_wf _ _ _ _ _ _ _ _ fun t => (hact t).2⟩

theorem State.vecWordOp_keepsWf (s : State) (func : BitVec 6) (v : VecOps) (dest : Bool) :
    KeepsWf s (s.vecWordOp i func v dest act) :=
  ⟨State.vecWordOp_spad_wf _ _ _ _ _ _ fun t => (hact t).1, State.vecWordOp_data_wf _ _ _ _ _ _ fun t => (hact t).2⟩

theorem State.readLanes_keepsWf (s : State) (q : QCfg) (index : Nat) (errs : ReadErrs) :
    KeepsWf s (s.readLanes i q index errs act) :=
  ⟨State.readLanes_spad_wf _ _ _ _ _ _ fun t => (hact t).1, State.readLanes_data_wf _ _ _ _ _ _ fun t => (hact t).2⟩

theorem State.withCredit_keepsWf (s : State) (dest : TileNo) (port : BitVec 2) (line n : Nat) (anyc : Bool) :
    KeepsWf s (s.withCredit i dest port line n anyc act) :=
  ⟨State.withCredit_spad_wf _ _ _ _ _ _ _ _ fun t => (hact t).1, State.withCredit_data_wf _ _ _ _ _ _ _ _ fun t => (hact t).2⟩

theorem State.deliver_keepsWf (s : State) (m : Msg) (rc : Nat) (bad : FlitBad) : KeepsWf s (s.deliver m rc bad act) :=
  ⟨State.deliver_spad_wf _ _ _ _ _ fun t => (hact t).1, State.deliver_data_wf _ _ _ _ _ fun t => (hact t).2⟩

omit hact in
theorem State.readReg_keepsWf {act : RegOut → AccReg → State → State} (hact : ∀ o r t, KeepsWf t (act o r t)) (s : State)
    (transit : Bool) (bank reg d : Nat) : KeepsWf s (s.readReg i transit bank reg d act) :=
  ⟨State.readReg_spad_wf _ _ _ _ _ _ _ fun o r t => (hact o r t).1, State.readReg_data_wf _ _ _ _ _ _ _ fun o r t => (hact o r t).2⟩

omit hact in
theorem State.uoaRequest_keepsWf {run : UoaSess → State → State × List UItem} (hrun : ∀ u t, KeepsWf t (run u t).1) (s : State)
    (m : UoaMsg) (type len count : Nat) (rsvd : Bool) : KeepsWf s (s.uoaRequest m type len count rsvd run) :=
  ⟨State.uoaRequest_spad_wf _ _ _ _ _ _ _ fun u t => (hrun u t).1, State.uoaRequest_data_wf _ _ _ _ _ _ _ fun u t => (hrun u t).2⟩

omit hact in
theorem State.writeOne_keepsWf {eff : UoaSess → Effect} (heff : ∀ u t, KeepsWf t (eff u t).1) (s : State) (m : UoaMsg)
    (index sub : Nat) (value : DVal) : KeepsWf s (s.writeOne m index sub value eff) :=
  ⟨State.writeOne_spad_wf _ _ _ _ _ _ fun u t => (heff u t).1, State.writeOne_data_wf _ _ _ _ _ _ fun u t => (heff u t).2⟩

end


/-! ### Operations whose answer holds the next state -/

theorem State.takeMsg_frame {s u : State} {c : Chan} {rc : Nat} {p : Msg → Bool} {m : Msg} (h : s.takeMsg c rc p = some (m, u)) :
    u = { s with mesh := u.mesh } := by
  obtain ⟨x, -, hx⟩ := Option.map_eq_some_iff.1 h
  cases hx
  rfl

theorem State.takeMsg_keepsWf {s u : State} {c : Chan} {rc : Nat} {p : Msg → Bool} {m : Msg} (h : s.takeMsg c rc p = some (m, u)) :
    KeepsWf s u := by
  rw [State.takeMsg_frame h]
  exact .refl s

theorem State.gate_keepsWf {s u : State} {m : UwpMsg} {formOk b : Bool} (h : s.gate m formOk = (u, b)) : KeepsWf s u := by
  have hp := s.gate_spad m formOk
  have hd := s.gate_mem_data m formOk
  rw [h] at hp hd
  exact .of_eq hp hd

theorem State.checkLines_keepsWf {s u : State} {tile : TileNo} {line n : Nat} {errs : ReadErrs} {k : Option Nat}
    (h : s.checkLines tile line n errs = (u, k)) : KeepsWf s u := by
  have hp := s.checkLines_spad tile line n errs
  have hd := s.checkLines_mem_data tile line n errs
  rw [h] at hp hd
  exact .of_eq hp hd

theorem State.takeFill_keepsWf {s u : State} {tile : TileNo} {rc line : Nat} {entry : Option Nat}
    (h : s.takeFill tile rc line entry = some u) : KeepsWf s u := by
  unfold State.takeFill at h
  dsimp only at h
  split at h
  · cases h
  · cases h
    exact .of_eq (by simp) (by simp)

theorem State.landLoad_keepsWf {s u : State} {tile : TileNo} {entry index : Nat} {l : Line} {tag : Tag} {epoch rc : Nat}
    (h : s.landLoad tile entry index l tag epoch rc = some u) : KeepsWf s u := by
  unfold State.landLoad at h
  dsimp only at h
  split at h
  · cases h
    exact .refl s
  · split at h
    · split at h <;> cases h <;> exact .of_eq (by simp) (by simp)
    · split at h
      · cases h
        exact .of_eq (by simp) (by simp)
      · obtain ⟨w, hw, rfl⟩ := Option.map_eq_some_iff.1 h
        exact (State.takeFill_keepsWf hw).trans (by simp +contextual [KeepsWf])

theorem State.landBeat_keepsWf {s u : State} (hu : KeepsWf s u) (m : Msg) (tile : TileNo) (entry index : Nat) (l : Line)
    (epoch rc : Nat) (bad : FlitBad) : KeepsWf s (s.landBeat m tile entry index l epoch rc bad u) := by
  have hd : KeepsWf s (u.deliver m rc bad id) := hu.trans (State.deliver_keepsWf (fun t => .refl t) ..)
  unfold State.landBeat
  split
  · exact hd
  · split
    next hl => exact hd.trans (State.landLoad_keepsWf hl)
    next => exact .refl s

theorem State.openWindow_keepsWf {s u : State} {n : SessNo} {part : Nat} {any : Bool} {kind mxtype access : BitVec 8} {bytes i : Nat}
    (h : s.openWindow n part any kind mxtype access bytes = some (u, i)) : KeepsWf s u := by
  unfold State.openWindow at h
  split at h
  · cases h
  · split at h
    · cases h
    · have hp := s.takeRun_spad part ((bytes + 16383) / 16384)
      have hd := s.takeRun_mem_data part ((bytes + 16383) / 16384)
      split at h
      · cases h
      next hr =>
        rw [hr] at hp hd
        cases h
        exact .of_eq (by simpa using hp) (by simpa using hd)

theorem State.sealPart_keepsWf {s u : State} {p a : Nat} {mirror : Bool} {part : BitVec 16} {n : SessNo} {any : Bool} {r : RestorePart}
    (h : s.sealPart p a mirror part n any = some (u, r)) : KeepsWf s u := by
  unfold State.sealPart at h
  dsimp only at h
  split at h
  · cases h
  next hw =>
    cases h
    exact (State.openWindow_keepsWf hw).trans (by simp +contextual [KeepsWf])

end Sys2Proof.Machine
end

section
/-! SUPPORT. The commands that run an act, hand on another state or branch widely, one by one: each keeps both memories canonical. -/

namespace Sys2Proof.Machine

/-! ### Vector core, arrays and transit (R136, R141, R180-R182) -/

theorem execXfer_keepsWf (i : Issue) (src : Bool) (bank : BitVec 2) (reg : BitVec 4) (shift : BitVec 5) (line : BitVec 12)
    (rsvd : BitVec 22) (s : State) :
    NextKeepsWf s (execXfer i src bank reg shift line rsvd s) := by
  unfold execXfer
  refine (State.issue_keepsWf _ (fun t => State.readReg_keepsWf _ (fun o r u => ?_) ..) ..).next
  (repeat' split) <;> simp +contextual [KeepsWf]

theorem execFeed_keepsWf (i : Issue) (line : BitVec 12) (seg : BitVec 2) (mreg : BitVec 3) (rsvd : BitVec 29) (errs : ReadErrs)
    (s : State) :
    NextKeepsWf s (execFeed i line seg mreg rsvd errs s) := by
  unfold execFeed
  refine (State.issue_keepsWf _ (fun t => ?_) ..).next
  dsimp only
  refine .ite (by simp [KeepsWf]) (.ite (by simp [KeepsWf])
    (State.useWide_keepsWf _ (fun u => State.readChecked_keepsWf _ (fun w => ?_) ..) ..))
  simp +contextual [KeepsWf]

theorem execTload_keepsWf (i : Issue) (half wfmt : Bool) (block : BitVec 4) (rsvd : BitVec 40) (errs : ReadErrs) (s : State) :
    NextKeepsWf s (execTload i half wfmt block rsvd errs s) := by
  unfold execTload
  refine (State.issue_keepsWf _ (fun t => ?_) ..).next
  dsimp only
  refine .ite (by simp [KeepsWf]) (.ite (by simp [KeepsWf]) (.ite (by simp [KeepsWf]) (.ite (by simp [KeepsWf]) (.ite (by simp [KeepsWf])
    (State.useWide_keepsWf _ (fun u => State.readChecked_keepsWf _ (fun w => ?_) ..) ..)))))
  split <;> simp +contextual [KeepsWf]

theorem execFullCalibrationEnd_keepsWf (array : ArrayNo) (offsets gains : List Int) (sums : List (BitVec 12)) (quality : BitVec 16)
    (s : State) :
    NextKeepsWf s (execFullCalibrationEnd array offsets gains sums quality s) := by
  unfold execFullCalibrationEnd
  dsimp only
  (repeat' split) <;> exact KeepsWf.next (by simp +contextual [KeepsWf])

theorem execArrayProgrammingEnd_keepsWf (array : ArrayNo) (badColumns : List (BitVec 9)) (offsets gains : List Int)
    (sums : List (BitVec 12)) (quality : BitVec 16) (s : State) :
    NextKeepsWf s (execArrayProgrammingEnd array badColumns offsets gains sums quality s) := by
  unfold execArrayProgrammingEnd
  dsimp only
  (repeat' split) <;> exact KeepsWf.next (by simp +contextual [KeepsWf])

theorem execPacc_keepsWf (i : Issue) (v : VecOps) (s : State) :
    NextKeepsWf s (execPacc i v s) := by
  unfold execPacc
  refine (State.vecLine_keepsWf _ (fun t => ?_) ..).next
  dsimp only
  (repeat' split) <;> simp +contextual [KeepsWf]

theorem execQcfg_keepsWf (i : Issue) (fmt : Bool) (glog : BitVec 3) (sr : Bool) (floor cap : BitVec 8) (laneline : BitVec 12) (lanes : Bool)
    (rsvd : BitVec 6) (s : State) :
    NextKeepsWf s (execQcfg i fmt glog sr floor cap laneline lanes rsvd s) := by
  unfold execQcfg
  refine (State.issue_keepsWf _ (fun t => ?_) ..).next
  dsimp only
  split <;> simp +contextual [KeepsWf]

theorem execQuant_keepsWf (i : Issue) (v : VecOps) (s : State) :
    NextKeepsWf s (execQuant i v s) := by
  unfold execQuant
  refine (State.vecLine_keepsWf _ (fun t => ?_) ..).next
  dsimp only
  split
  · simp [KeepsWf]
  · refine State.readLanes_keepsWf _ (fun u => ?_) ..
    split <;> simp +contextual [KeepsWf]

theorem execLanef_keepsWf (i : Issue) (v : VecOps) (s : State) :
    NextKeepsWf s (execLanef i v s) := by
  unfold execLanef
  refine (State.vecLine_keepsWf _ (fun t => ?_) ..).next
  dsimp only
  split
  · simp [KeepsWf]
  · exact State.useWideAt_keepsWf _ (fun u => by simp +contextual [KeepsWf]) ..

theorem execDeq_keepsWf (i : Issue) (v : VecOps) (s : State) :
    NextKeepsWf s (execDeq i v s) := by
  unfold execDeq
  refine (State.vecLine_keepsWf _ (fun t => ?_) ..).next
  dsimp only
  (repeat' split) <;> simp +contextual [KeepsWf]

theorem execMxin_keepsWf (i : Issue) (v : VecOps) (s : State) :
    NextKeepsWf s (execMxin i v s) := by
  unfold execMxin
  refine (State.vecLine_keepsWf _ (fun t => ?_) ..).next
  dsimp only
  (repeat' split) <;> simp +contextual [KeepsWf]

theorem execMxout_keepsWf (i : Issue) (v : VecOps) (s : State) :
    NextKeepsWf s (execMxout i v s) := by
  unfold execMxout
  refine (State.vecLine_keepsWf _ (fun t => ?_) ..).next
  dsimp only
  (repeat' split) <;> simp +contextual [KeepsWf]

theorem execLdl_keepsWf (i : Issue) (v : VecOps) (s : State) :
    NextKeepsWf s (execLdl i v s) := by
  unfold execLdl
  refine (State.vecLine_keepsWf _ (fun t => ?_) ..).next
  dsimp only
  (repeat' split) <;> simp +contextual [KeepsWf]

theorem execStl_keepsWf (i : Issue) (v : VecOps) (s : State) :
    NextKeepsWf s (execStl i v s) := by
  unfold execStl
  exact (State.vecLine_keepsWf _ (fun t => by simp +contextual [KeepsWf]) ..).next

theorem execLdw_keepsWf (i : Issue) (v : VecOps) (s : State) :
    NextKeepsWf s (execLdw i v s) := by
  unfold execLdw
  refine (State.vecWordOp_keepsWf _ (fun t => ?_) ..).next
  simp +contextual [KeepsWf]

/-! ### Sends, waits and control (R184-R191) -/

theorem execSend_keepsWf (i : Issue) (srcline : BitVec 12) (plane : Bool) (destTile : TileNo) (destPort : BitVec 2) (destLine : BitVec 12)
    (xfer : BitVec 8) (add anyc : Bool) (errs : ReadErrs) (s : State) :
    NextKeepsWf s (execSend i srcline plane destTile destPort destLine xfer add anyc errs s) := by
  unfold execSend
  refine (State.issue_keepsWf _ (fun t => ?_) ..).next
  dsimp only
  split
  · simp [KeepsWf]
  · exact State.withCredit_keepsWf _ (fun u => State.useWide_keepsWf _ (fun w => State.readChecked_keepsWf _
      (fun x => by simp +contextual [KeepsWf]) ..) ..) ..

theorem execSendr_keepsWf (i : Issue) (src : Bool) (bank : BitVec 2) (reg : BitVec 4) (shift : BitVec 5) (plane : Bool) (destTile : TileNo)
    (destPort : BitVec 2) (destLine : BitVec 12) (xfer : BitVec 8) (rsvd : BitVec 1) (anyc : Bool) (s : State) :
    NextKeepsWf s (execSendr i src bank reg shift plane destTile destPort destLine xfer rsvd anyc s) := by
  unfold execSendr
  refine (State.issue_keepsWf _ (fun t => State.readReg_keepsWf _ (fun o r u => ?_) ..) ..).next
  split
  · simp [KeepsWf]
  · exact State.withCredit_keepsWf _ (fun w => by simp [KeepsWf]) ..

theorem execRecv_keepsWf (i : Issue) (link : BitVec 4) (slot line : BitVec 12) (lines entry : BitVec 6) (rsvd : BitVec 6) (s : State) :
    NextKeepsWf s (execRecv i link slot line lines entry rsvd s) := by
  unfold execRecv
  refine (State.issue_keepsWf _ (fun t => ?_) ..).next
  dsimp only
  (repeat' split) <;> simp [KeepsWf]

theorem execEnd_keepsWf (i : Issue) (gap : BitVec 16) (rsvd : BitVec 30) (s : State) :
    NextKeepsWf s (execEnd i gap rsvd s) := by
  unfold execEnd
  refine (State.issueLast_keepsWf _ (fun t => ?_) ..).next
  dsimp only
  (repeat' split) <;> simp [KeepsWf]

theorem execMask_keepsWf (i : Issue) (mreg : BitVec 3) (waddr : BitVec 16) (rsvd : BitVec 27) (errs : ReadErrs) (s : State) :
    NextKeepsWf s (execMask i mreg waddr rsvd errs s) := by
  unfold execMask
  refine (State.issue_keepsWf _ (fun t => ?_) ..).next
  dsimp only
  split
  · simp [KeepsWf]
  · exact .trans (by simp [KeepsWf]) (State.readChecked_keepsWf _ (fun u => by simp +contextual [KeepsWf]) ..)

/-! ### Mesh, queues and stacks (R150-R161, R193) -/

theorem execScheduledFlitLanding_keepsWf (router : TileNo) (port : BitVec 2) (plane : Bool) (cycle : Nat) (parityBad upset : Bool)
    (s : State) :
    NextKeepsWf s (execScheduledFlitLanding router port plane cycle parityBad upset s) := by
  unfold execScheduledFlitLanding
  dsimp only
  (repeat' split) <;> exact KeepsWf.next (by simp +contextual [KeepsWf])

theorem execCreditGrant_keepsWf (tile : TileNo) (rc : Nat) (bad : FlitBad) (s : State) :
    NextKeepsWf s (execCreditGrant tile rc bad s) := by
  unfold execCreditGrant
  split
  next m u htake =>
    refine (KeepsWf.trans (State.takeMsg_keepsWf htake) (State.deliver_keepsWf (fun t => ?_) ..)).next
    (repeat' split) <;> simp +contextual [KeepsWf]
  next => exact (KeepsWf.refl s).next

theorem execCreditRevoke_keepsWf (tile : TileNo) (rc : Nat) (bad : FlitBad) (s : State) :
    NextKeepsWf s (execCreditRevoke tile rc bad s) := by
  unfold execCreditRevoke
  split
  next m u htake =>
    refine (KeepsWf.trans (State.takeMsg_keepsWf htake) (State.deliver_keepsWf (fun t => ?_) ..)).next
    (repeat' split) <;> simp +contextual [KeepsWf]
  next => exact (KeepsWf.refl s).next

theorem execFaultReport_keepsWf (rc : Nat) (bad : FlitBad) (s : State) :
    NextKeepsWf s (execFaultReport rc bad s) := by
  unfold execFaultReport
  split
  next m u htake =>
    refine ((State.takeMsg_keepsWf htake).trans (.trans ?_ (State.deliver_keepsWf (fun t => ?_) ..))).next
    · split <;> simp [KeepsWf]
    · split <;> simp [KeepsWf]
  next => exact (KeepsWf.refl s).next

theorem execRemoteReadRequest_keepsWf (tile : TileNo) (rc : Nat) (bad : FlitBad) (s : State) :
    NextKeepsWf s (execRemoteReadRequest tile rc bad s) := by
  unfold execRemoteReadRequest
  split
  next m u htake =>
    refine (KeepsWf.trans (State.takeMsg_keepsWf htake) (State.deliver_keepsWf (fun t => ?_) ..)).next
    (repeat' split) <;> simp +contextual [KeepsWf]
  next => exact (KeepsWf.refl s).next

theorem execRemoteReadServe_keepsWf (tile : TileNo) (rc : Nat) (errs : ReadErrs) (s : State) :
    NextKeepsWf s (execRemoteReadServe tile rc errs s) := by
  unfold execRemoteReadServe
  dsimp only
  split
  · exact (KeepsWf.refl s).next
  split
  · exact (KeepsWf.refl s).next
  split
  · exact (KeepsWf.refl s).next
  next u hfill =>
    refine .after (State.takeFill_keepsWf hfill) ?_
    split <;> (rename_i hlines; refine .after (.trans ?_ (State.checkLines_keepsWf hlines)) (KeepsWf.next (by simp [KeepsWf])))
    all_goals simp +contextual [KeepsWf]

theorem execRemoteReadResponse_keepsWf (tile : TileNo) (rc : Nat) (bad : FlitBad) (s : State) :
    NextKeepsWf s (execRemoteReadResponse tile rc bad s) := by
  unfold execRemoteReadResponse
  split
  next m u htake =>
    split
    · exact (State.landBeat_keepsWf (State.takeMsg_keepsWf htake) ..).next
    · exact (KeepsWf.refl s).next
  next => exact (KeepsWf.refl s).next

theorem execLoadRequest_keepsWf (unit : Fin 25) (rc : Nat) (bad : FlitBad) (err : ReadErr) (rebuildFails : Bool) (s : State) :
    NextKeepsWf s (execLoadRequest unit rc bad err rebuildFails s) := by
  unfold execLoadRequest
  dsimp only
  split
  next m u htake =>
    have hu := State.takeMsg_keepsWf htake
    split
    · split
      · exact (hu.trans (State.deliver_keepsWf (fun t => by simp [KeepsWf]) ..)).next
      · split
        · split <;> exact KeepsWf.next (by simp [KeepsWf])
        · split
          · exact (hu.trans (State.deliver_keepsWf (fun t => .refl t) ..)).next
          · exact KeepsWf.next (.trans (by simp [KeepsWf]) (State.deliver_keepsWf (fun t => by simp [KeepsWf]) ..))
    · exact (KeepsWf.refl s).next
  next => exact (KeepsWf.refl s).next

theorem execLoadData_keepsWf (tile : TileNo) (rc : Nat) (bad : FlitBad) (s : State) :
    NextKeepsWf s (execLoadData tile rc bad s) := by
  unfold execLoadData
  split
  next m u htake =>
    split
    · exact (State.landBeat_keepsWf (State.takeMsg_keepsWf htake) ..).next
    · exact (KeepsWf.refl s).next
  next => exact (KeepsWf.refl s).next

theorem execStoreDrain_keepsWf (tile : TileNo) (rc : Nat) (errs : ReadErrs) (s : State) :
    NextKeepsWf s (execStoreDrain tile rc errs s) := by
  unfold execStoreDrain
  dsimp only
  split
  · exact (KeepsWf.refl s).next
  split
  · exact (KeepsWf.refl s).next
  next u hfill =>
    refine .after (State.takeFill_keepsWf hfill) ?_
    split <;> (rename_i hlines; refine .after (.trans ?_ (State.checkLines_keepsWf hlines)) (KeepsWf.next (by simp [KeepsWf])))
    all_goals simp +contextual [KeepsWf]

theorem execStoreData_keepsWf (stack : BitVec 4) (rc : Nat) (bad : FlitBad) (s : State) :
    NextKeepsWf s (execStoreData stack rc bad s) := by
  unfold execStoreData
  split
  next m u htake =>
    refine (KeepsWf.trans (State.takeMsg_keepsWf htake) (State.deliver_keepsWf (fun t => ?_) ..)).next
    (repeat' split) <;> simp +contextual [KeepsWf]
  next => exact (KeepsWf.refl s).next

theorem execStoreAcknowledge_keepsWf (tile : TileNo) (rc : Nat) (bad : FlitBad) (s : State) :
    NextKeepsWf s (execStoreAcknowledge tile rc bad s) := by
  unfold execStoreAcknowledge
  split
  next m u htake =>
    refine (KeepsWf.trans (State.takeMsg_keepsWf htake) (State.deliver_keepsWf (fun t => ?_) ..)).next
    (repeat' split) <;> simp +contextual [KeepsWf]
  next => exact (KeepsWf.refl s).next

theorem execEngineJobStart_keepsWf (unit : Fin 24) (rc : Nat) (errs : StackErrs) (s : State) :
    NextKeepsWf s (execEngineJobStart unit rc errs s) := by
  unfold execEngineJobStart
  dsimp only
  (repeat' split) <;> exact KeepsWf.next (by simp +contextual [KeepsWf])

theorem execEngineJobEnd_keepsWf (unit : Fin 24) (rc cycles : Nat) (errs : StackErrs) (ret : Option (LinkNo × TileNo × BitVec 12))
    (upset : Bool) (s : State) :
    NextKeepsWf s (execEngineJobEnd unit rc cycles errs ret upset s) := by
  unfold execEngineJobEnd
  dsimp only
  (repeat' split) <;> exact KeepsWf.next (by simp +contextual [KeepsWf])

/-! ### Partitions, accounts, parcels and links -/

theorem execReplayStart_keepsWf (part : PartNo) (fw : Boundary) (s : State) :
    NextKeepsWf s (execReplayStart part fw s) := by
  unfold execReplayStart
  dsimp only
  split
  · exact (KeepsWf.refl s).next
  · split
    · exact (KeepsWf.refl s).next
    · split
      · split
        · exact KeepsWf.next (by simp +contextual [KeepsWf])
        · exact KeepsWf.next ⟨by simp +contextual, fun h => by
            rw [State.countersOk_mem_data]
            exact State.startStreams_data_wf _ _ _ _ _ (State.boundaryWork_data_wf _ _ _ (State.takeVariant_data_wf _ _ _ (by simpa using h)))⟩
      · exact KeepsWf.next ⟨by simp +contextual, fun h => by
          rw [State.countersOk_mem_data]
          exact State.startStreams_data_wf _ _ _ _ _ (State.boundaryWork_data_wf _ _ _ (State.takeVariant_data_wf _ _ _ (by simpa using h)))⟩

theorem execMintRun_keepsWf (part : PartNo) (account : SlotNo) (full draft : List (List (Nat × W32))) (drafts : List Nat)
    (upset tableBad : Bool) (s : State) :
    NextKeepsWf s (execMintRun part account full draft drafts upset tableBad s) := by
  unfold execMintRun
  dsimp only
  (repeat' split) <;> exact KeepsWf.next (by simp [KeepsWf])

theorem execCommitTest_keepsWf (account : SlotNo) (s : State) :
    NextKeepsWf s (execCommitTest account s) := by
  unfold execCommitTest
  dsimp only
  (repeat' split) <;> exact KeepsWf.next (by simp +contextual [KeepsWf])

theorem execSubmissionRunning_keepsWf (account : SlotNo) (s : State) :
    NextKeepsWf s (execSubmissionRunning account s) := by
  unfold execSubmissionRunning
  dsimp only
  (repeat' split) <;> exact KeepsWf.next (by simp +contextual [KeepsWf])

theorem execAccountOpenCloseAct_keepsWf (account : SlotNo) (news : Option AcctNews) (s : State) :
    NextKeepsWf s (execAccountOpenCloseAct account news s) := by
  unfold execAccountOpenCloseAct
  have hopen (u v : State) (b c : Sub) (p part : Tag) (r : RecBody) (h : KeepsWf u v) :
      KeepsWf u ((v.assign b.covered p part r).1.complete c 0 (BitVec.allOnes 48) false).runDurable :=
    h.trans ⟨by simp, fun h => State.runDurable_data_wf _ (State.complete_data_wf _ _ _ _ _ (State.assign_data_wf _ _ _ _ _ h))⟩
  dsimp only
  split
  · exact KeepsWf.next (by simp +contextual [KeepsWf])
  · split
    · exact (KeepsWf.refl s).next
    · split
      · split
        · exact (KeepsWf.refl s).next
        · split
          · exact KeepsWf.next (by simp +contextual [KeepsWf])
          · split
            · exact (KeepsWf.refl s).next
            · split
              · exact (KeepsWf.refl s).next
              · exact (hopen _ _ _ _ _ _ _ (by simp +contextual [KeepsWf])).next
      · split
        · exact (KeepsWf.refl s).next
        · split
          · exact (KeepsWf.refl s).next
          · split
            · exact KeepsWf.next (by simp +contextual [KeepsWf])
            · exact (hopen _ _ _ _ _ _ _ (by simp +contextual [KeepsWf])).next

theorem execParcelSealEnd_keepsWf (account : SlotNo) (part : BitVec 16) (windowOk : Bool) (info : RestorePart) (upset : Bool) (s : State) :
    NextKeepsWf s (execParcelSealEnd account part windowOk info upset s) := by
  unfold execParcelSealEnd
  dsimp only
  have hfail (a : Nat) (b : Sub) : KeepsWf s (if b.st = .completed then s
      else ((s.closeExports a).complete b 5 (BitVec.allOnes 48) false).runDurable) :=
    .ite (.refl s) (by simp +contextual [KeepsWf])
  split
  · exact KeepsWf.next (by simp [KeepsWf])
  · split
    · split
      · exact (KeepsWf.refl s).next
      · split
        · exact (KeepsWf.refl s).next
        · split
          · exact (hfail _ _).next
          · split
            · split
              · exact (hfail _ _).next
              next hseal => exact ((State.sealPart_keepsWf hseal).trans (by simp +contextual [KeepsWf])).next
            · exact KeepsWf.next (by simp +contextual [KeepsWf])
    · split
      · exact (KeepsWf.refl s).next
      · split
        · exact (KeepsWf.refl s).next
        next hseal => exact (State.sealPart_keepsWf hseal).next

theorem execRestorePartCheck_keepsWf (m : ParcelMsg) (s : State) :
    NextKeepsWf s (execRestorePartCheck m s) := by
  unfold execRestorePartCheck
  dsimp only
  (repeat' split) <;> exact KeepsWf.next (by simp +contextual [KeepsWf])

theorem execTransmitEntrySend_keepsWf (link : LinkNo) (entry : BitVec 8) (parityBad shaBad : Bool) (s : State) :
    NextKeepsWf s (execTransmitEntrySend link entry parityBad shaBad s) := by
  unfold execTransmitEntrySend
  dsimp only
  (repeat' split) <;> exact KeepsWf.next (by simp +contextual [KeepsWf])

theorem execFrameRetransmission_keepsWf (link : LinkNo) (rc : Nat) (spare : Bool) (s : State) :
    NextKeepsWf s (execFrameRetransmission link rc spare s) := by
  unfold execFrameRetransmission
  dsimp only
  (repeat' split) <;> exact KeepsWf.next (by simp +contextual [KeepsWf])

theorem execDelayRemeasure_keepsWf (link : LinkNo) (roundTrip turn : Nat) (s : State) :
    NextKeepsWf s (execDelayRemeasure link roundTrip turn s) := by
  unfold execDelayRemeasure
  dsimp only
  (repeat' split) <;> exact KeepsWf.next (by simp +contextual [KeepsWf])

theorem execWeightSwitch_keepsWf (base : BitVec 5) (s : State) :
    NextKeepsWf s (execWeightSwitch base s) := by
  unfold execWeightSwitch
  dsimp only
  split
  · exact (KeepsWf.refl s).next
  next i _ =>
    have hcopies : KeepsWf s (s.placeCopies i) := by simp +contextual [KeepsWf]
    refine KeepsWf.next (hcopies.trans (.trans ?_ (State.foldl_keepsWf (fun t p => ?_) _ _)))
    · exact .of_eq rfl rfl
    · have hmove (l : List Nat) (p : Nat) : KeepsWf t (l.foldl (fun u a => u.moveAcct a p true) t) :=
        State.foldl_keepsWf (fun u a => by simp +contextual [KeepsWf]) _ _
      split
      · exact (KeepsWf.ite (hmove _ _) (.refl t)).trans (.of_eq (by rw [State.appliedRec_spad]; rfl) (by rw [State.appliedRec_mem_data]; rfl))
      · exact (KeepsWf.ite (hmove _ _) (.refl t)).trans (.of_eq rfl rfl)

theorem execPartitionReset_keepsWf (part : PartNo) (s : State) :
    NextKeepsWf s (execPartitionReset part s) := by
  unfold execPartitionReset
  dsimp only
  split
  · exact (KeepsWf.refl s).next
  · refine .ite (KeepsWf.refl s).next (KeepsWf.next ⟨fun h => ?_, fun h => by simpa using h⟩)
    rw [State.appliedRec_spad, State.closeWindows_spad, State.updPart_spad, State.mapTiles_spad]
    exact State.reloadRetained_spad_wf _ _ _ (State.zeroBlocks_spad_wf _ _ _
      (by rw [State.clearTags_spad]; exact State.undo_spad_wf _ _ _ h))

theorem execPartitionLoad_keepsWf (m : UoaMsg) (part : PartNo) (tenant : BitVec 32) (img : Image) (s : State) :
    NextKeepsWf s (execPartitionLoad m part tenant img s) := by
  unfold execPartitionLoad
  refine (State.writeOne_keepsWf (fun u t => ?_) ..).next
  split <;> simp +contextual [KeepsWf]

/-! ### Host messages, management and object access -/

theorem execGenerate_keepsWf (m : UwpMsg) (src : GenSrc) (s : State) :
    NextKeepsWf s (execGenerate m src s) := by
  unfold execGenerate
  dsimp only
  split
  next u hgate => exact (State.gate_keepsWf hgate).next
  next u hgate =>
    refine .after (State.gate_keepsWf hgate) ?_
    (repeat' split) <;> exact KeepsWf.next (by simp +contextual [KeepsWf])

theorem execLearn_keepsWf (m : UwpMsg) (first count : BitVec 32) (s : State) :
    NextKeepsWf s (execLearn m first count s) := by
  unfold execLearn
  split
  next u hgate => exact (State.gate_keepsWf hgate).next
  next u hgate => exact .after (State.gate_keepsWf hgate) (KeepsWf.next (by simp +contextual [KeepsWf]))

theorem execPark_keepsWf (m : UwpMsg) (s : State) :
    NextKeepsWf s (execPark m s) := by
  unfold execPark
  split
  next u hgate => exact (State.gate_keepsWf hgate).next
  next u hgate => exact .after (State.gate_keepsWf hgate) (KeepsWf.next (by simp +contextual [KeepsWf]))

theorem execRestore_keepsWf (m : UwpMsg) (parts : List RestorePart) (s : State) :
    NextKeepsWf s (execRestore m parts s) := by
  unfold execRestore
  split
  next u hgate => exact (State.gate_keepsWf hgate).next
  next u hgate => exact .after (State.gate_keepsWf hgate) (KeepsWf.next (by simp +contextual [KeepsWf]))

theorem execOpenAccount_keepsWf (m : UwpMsg) (b : OpenBody) (s : State) :
    NextKeepsWf s (execOpenAccount m b s) := by
  unfold execOpenAccount
  dsimp only
  split
  next u hgate => exact (State.gate_keepsWf hgate).next
  next u hgate => exact .after (State.gate_keepsWf hgate) (KeepsWf.next (by simp +contextual [KeepsWf]))

theorem execCloseAccount_keepsWf (m : UwpMsg) (s : State) :
    NextKeepsWf s (execCloseAccount m s) := by
  unfold execCloseAccount
  split
  next u hgate => exact (State.gate_keepsWf hgate).next
  next u hgate => exact .after (State.gate_keepsWf hgate) (KeepsWf.next (by simp +contextual [KeepsWf]))

theorem execCancel_keepsWf (m : UwpMsg) (s : State) :
    NextKeepsWf s (execCancel m s) := by
  unfold execCancel
  split
  next u hgate => exact (State.gate_keepsWf hgate).next
  next u hgate =>
    refine .after (State.gate_keepsWf hgate) ?_
    (repeat' split) <;> exact KeepsWf.next (by simp +contextual [KeepsWf])

theorem execAcknowledge_keepsWf (m : UwpMsg) (s : State) :
    NextKeepsWf s (execAcknowledge m s) := by
  unfold execAcknowledge
  split
  next u hgate => exact (State.gate_keepsWf hgate).next
  next u hgate =>
    refine .after (State.gate_keepsWf hgate) ?_
    (repeat' split) <;> exact KeepsWf.next (by simp +contextual [KeepsWf])

theorem execReleaseAcknowledge_keepsWf (m : UwpMsg) (relpos : BitVec 32) (s : State) :
    NextKeepsWf s (execReleaseAcknowledge m relpos s) := by
  unfold execReleaseAcknowledge
  split
  next u hgate => exact (State.gate_keepsWf hgate).next
  next u hgate =>
    refine .after (State.gate_keepsWf hgate) ?_
    (repeat' split) <;> exact KeepsWf.next (by simp +contextual [KeepsWf])

theorem execWindowOpen_keepsWf (m : UwpMsg) (kind mxtype access any : BitVec 8) (bytes : BitVec 32) (s : State) :
    NextKeepsWf s (execWindowOpen m kind mxtype access any bytes s) := by
  unfold execWindowOpen
  dsimp only
  split
  next u hgate => exact (State.gate_keepsWf hgate).next
  next u hgate =>
    refine .after (State.gate_keepsWf hgate) ?_
    split
    · exact KeepsWf.next (by simp [KeepsWf])
    · split
      · exact KeepsWf.next (by simp [KeepsWf])
      next w i hopen =>
        refine .after (State.openWindow_keepsWf hopen) ?_
        split <;> exact KeepsWf.next (by simp [KeepsWf])

theorem execWindowClose_keepsWf (m : UwpMsg) (key : BitVec 32) (s : State) :
    NextKeepsWf s (execWindowClose m key s) := by
  unfold execWindowClose
  split
  next u hgate => exact (State.gate_keepsWf hgate).next
  next u hgate =>
    refine .after (State.gate_keepsWf hgate) ?_
    (repeat' split) <;> exact KeepsWf.next (by simp +contextual [KeepsWf])

theorem execSensorConversionSet_keepsWf (raw : SensorSet) (hbm : List (Option Int)) (s : State) :
    NextKeepsWf s (execSensorConversionSet raw hbm s) := by
  unfold execSensorConversionSet
  split
  · exact (KeepsWf.refl s).next
  · extract_lets p fresh s0 s1 s2 s3 s4 s5
    have h1 : KeepsWf s s1 := by
      refine .trans ?_ (State.foldl_keepsWf (fun t k => ?_) _ _)
      · exact .refl s
      · split <;> simp [KeepsWf]
    have h2 : KeepsWf s s2 := h1.trans (State.foldl_keepsWf (fun t k => by simp [KeepsWf]) _ _)
    clear_value s2
    have h3 : KeepsWf s s3 := h2.trans (.of_eq rfl rfl)
    clear_value s3
    have h4 : KeepsWf s s4 := h3.trans (.of_eq (by simp [s4]) (by simp [s4]))
    clear_value s4
    have h5 : KeepsWf s s5 := h4.trans (.of_eq rfl rfl)
    exact (KeepsWf.ite (h5.trans (.of_eq (by simp) (by simp))) h5).next

theorem execAdcConversionEnd_keepsWf (code : BitVec 12) (s : State) :
    NextKeepsWf s (execAdcConversionEnd code s) := by
  unfold execAdcConversionEnd
  dsimp only
  (repeat' split) <;> exact KeepsWf.next (by simp +contextual [KeepsWf])

theorem execManagementResponse_keepsWf (id : BitVec 8) (rc : Nat) (bad : FlitBad) (s : State) :
    NextKeepsWf s (execManagementResponse id rc bad s) := by
  unfold execManagementResponse
  split
  next m u htake =>
    refine (KeepsWf.trans (State.takeMsg_keepsWf htake) (State.deliver_keepsWf (fun t => ?_) ..)).next
    (repeat' split) <;> simp +contextual [KeepsWf]
  next => exact (KeepsWf.refl s).next

theorem execTapInstruction_keepsWf (t : TapInstr) (s : State) :
    NextKeepsWf s (execTapInstruction t s) := by
  unfold execTapInstruction
  dsimp only
  (repeat' split) <;> exact KeepsWf.next (by simp +contextual [KeepsWf])

theorem execUoaHello_keepsWf (m : UoaMsg) (nonce : BitVec 256) (key : BitVec 776) (chain : ChainCheck) (second : Nat) (s : State) :
    NextKeepsWf s (execUoaHello m nonce key chain second s) := by
  unfold execUoaHello
  dsimp only
  (repeat' split) <;> exact KeepsWf.next (by simp +contextual [KeepsWf])

theorem execUoaFinish_keepsWf (m : UoaMsg) (sigOk : Bool) (s : State) :
    NextKeepsWf s (execUoaFinish m sigOk s) := by
  unfold execUoaFinish
  dsimp only
  (repeat' split) <;> exact KeepsWf.next (by simp +contextual [KeepsWf])

theorem execUoaWrite_keepsWf (m : UoaMsg) (items : List WriteItem) (s : State) :
    NextKeepsWf s (execUoaWrite m items s) := by
  unfold execUoaWrite
  exact (State.uoaRequest_keepsWf (fun u t => by simp +contextual [KeepsWf]) ..).next

theorem execUoaStage_keepsWf (m : UoaMsg) (items : List StageItem) (s : State) :
    NextKeepsWf s (execUoaStage m items s) := by
  unfold execUoaStage
  exact (State.uoaRequest_keepsWf (fun u t => by simp +contextual [KeepsWf]) ..).next

theorem execWarmResetRequest_keepsWf (m : UoaMsg) (value : DVal) (s : State) :
    NextKeepsWf s (execWarmResetRequest m value s) := by
  unfold execWarmResetRequest
  refine (State.writeOne_keepsWf (fun u t => ?_) ..).next
  split <;> simp +contextual [KeepsWf]

theorem execColdResetRequest_keepsWf (m : UoaMsg) (value : DVal) (s : State) :
    NextKeepsWf s (execColdResetRequest m value s) := by
  unfold execColdResetRequest
  refine (State.writeOne_keepsWf (fun u t => ?_) ..).next
  split <;> simp +contextual [KeepsWf]

theorem execOrderlyShutdown_keepsWf (m : UoaMsg) (value : DVal) (s : State) :
    NextKeepsWf s (execOrderlyShutdown m value s) := by
  unfold execOrderlyShutdown
  refine (State.writeOne_keepsWf (fun u t => ?_) ..).next
  split <;> simp +contextual [KeepsWf]

end Sys2Proof.Machine
end

section
/-! SUPPORT. Every command, and so every step, keeps both memories canonical. -/

namespace Sys2Proof.Machine

/-- A command with a lemma of its own cites it; one that is a single operation of the State, and one that tests before it acts, keep the
canonical form by the laws of those operations. -/
theorem exec_keepsWf (c : Instr) (s : State) : NextKeepsWf s (exec c s) := by
  cases c with
  | xfer => exact execXfer_keepsWf ..
  | feed => exact execFeed_keepsWf ..
  | tload => exact execTload_keepsWf ..
  | fullCalibrationEnd => exact execFullCalibrationEnd_keepsWf ..
  | arrayProgrammingEnd => exact execArrayProgrammingEnd_keepsWf ..
  | pacc => exact execPacc_keepsWf ..
  | qcfg => exact execQcfg_keepsWf ..
  | quant => exact execQuant_keepsWf ..
  | lanef => exact execLanef_keepsWf ..
  | deq => exact execDeq_keepsWf ..
  | mxin => exact execMxin_keepsWf ..
  | mxout => exact execMxout_keepsWf ..
  | ldl => exact execLdl_keepsWf ..
  | stl => exact execStl_keepsWf ..
  | ldw => exact execLdw_keepsWf ..
  | send => exact execSend_keepsWf ..
  | sendr => exact execSendr_keepsWf ..
  | recv => exact execRecv_keepsWf ..
  | end_ => exact execEnd_keepsWf ..
  | mask => exact execMask_keepsWf ..
  | scheduledFlitLanding => exact execScheduledFlitLanding_keepsWf ..
  | creditGrant => exact execCreditGrant_keepsWf ..
  | creditRevoke => exact execCreditRevoke_keepsWf ..
  | faultReport => exact execFaultReport_keepsWf ..
  | remoteReadRequest => exact execRemoteReadRequest_keepsWf ..
  | remoteReadServe => exact execRemoteReadServe_keepsWf ..
  | remoteReadResponse => exact execRemoteReadResponse_keepsWf ..
  | loadRequest => exact execLoadRequest_keepsWf ..
  | loadData => exact execLoadData_keepsWf ..
  | storeDrain => exact execStoreDrain_keepsWf ..
  | storeData => exact execStoreData_keepsWf ..
  | storeAcknowledge => exact execStoreAcknowledge_keepsWf ..
  | engineJobStart => exact execEngineJobStart_keepsWf ..
  | engineJobEnd => exact execEngineJobEnd_keepsWf ..
  | replayStart => exact execReplayStart_keepsWf ..
  | mintRun => exact execMintRun_keepsWf ..
  | commitTest => exact execCommitTest_keepsWf ..
  | submissionRunning => exact execSubmissionRunning_keepsWf ..
  | accountOpenCloseAct => exact execAccountOpenCloseAct_keepsWf ..
  | parcelSealEnd => exact execParcelSealEnd_keepsWf ..
  | restorePartCheck => exact execRestorePartCheck_keepsWf ..
  | transmitEntrySend => exact execTransmitEntrySend_keepsWf ..
  | frameRetransmission => exact execFrameRetransmission_keepsWf ..
  | delayRemeasure => exact execDelayRemeasure_keepsWf ..
  | weightSwitch => exact execWeightSwitch_keepsWf ..
  | partitionReset => exact execPartitionReset_keepsWf ..
  | generate => exact execGenerate_keepsWf ..
  | learn => exact execLearn_keepsWf ..
  | park => exact execPark_keepsWf ..
  | restore => exact execRestore_keepsWf ..
  | openAccount => exact execOpenAccount_keepsWf ..
  | closeAccount => exact execCloseAccount_keepsWf ..
  | cancel => exact execCancel_keepsWf ..
  | acknowledge => exact execAcknowledge_keepsWf ..
  | releaseAcknowledge => exact execReleaseAcknowledge_keepsWf ..
  | windowOpen => exact execWindowOpen_keepsWf ..
  | windowClose => exact execWindowClose_keepsWf ..
  | sensorConversionSet => exact execSensorConversionSet_keepsWf ..
  | adcConversionEnd => exact execAdcConversionEnd_keepsWf ..
  | managementResponse => exact execManagementResponse_keepsWf ..
  | tapInstruction => exact execTapInstruction_keepsWf ..
  | uoaHello => exact execUoaHello_keepsWf ..
  | uoaFinish => exact execUoaFinish_keepsWf ..
  | uoaWrite => exact execUoaWrite_keepsWf ..
  | uoaStage => exact execUoaStage_keepsWf ..
  | partitionLoad => exact execPartitionLoad_keepsWf ..
  | warmResetRequest => exact execWarmResetRequest_keepsWf ..
  | coldResetRequest => exact execColdResetRequest_keepsWf ..
  | orderlyShutdown => exact execOrderlyShutdown_keepsWf ..
  | fire | tfire | cal | calibrationWriteEnd | correctionSave | fadd | fsub | fmul | ffma | fmin | fmax | fcmp | fsel | badd |
    bmul | bfma | cvt | imac8 | iadd32 | lcvt | fexp | flog | frcp | frsq | fsig | ferf | strm | rsum | rmax | stw | load | store
    | rread | wait | credit | next | jump | base | stackFailed | attend | append | chunkAttend | bulkAppend | idleFrame |
    frameMessage | dataCopy | dataAdd | digestRecord | clearingSummary | boundaryExchange | loadingReport | failureNotice |
    stretchVote | restoreReport | mirrorEntries | contextPages | shardCopy | ledgerCopy | contextPartials | training | abortNotice
    | commitNotice | ledgerRecord | ledgerAcknowledge | windowDrained | queuePairError | ethernetPortDown | watchdogService |
    interruptClaim | interruptCompletion | adcDataRead | getVersion | getCapabilities | negotiateAlgorithms | getDigests |
    getCertificate | challenge | getMeasurements | unsupportedRequest | uoaRead | uoaDescribe | uoaClose | requestFullCalibration
    | userCalibrationPoint | newSweep | replacement | wrappingKey | requestDrain | clearFlag | removalRequest | relight |
    sessionOpen | sessionReopen | sessionClose | connect | imageTransfer | startTrial | anchorInstall | anchorRemove | flushNow |
    linkReset =>
    exact KeepsWf.next (by simp +contextual [KeepsWf])
  | arrayResultReadable | transitResultReadable | arrayDiagnosisEnd | spareProgrammingEnd | arrayReturn | arrayProgrammingStart |
    releaseErase | backgroundWindowEnd | slotShortfall | fullCalibrationStart | rotationDue | driftEvaluation | layer |
    eccWriteBack | blockZeroing | rowMapOut | scheduledFlitClaim | granuleZeroingEnd | frameBoundary | pauseInsertion | stepStart
    | escrowArrival | replicationFailure | linkSilence | loopbackTestEnd | linkDetect | linkEqualisationEnd | trainingStageTimeout
    | keyRenewal | opticalWidthChange | frameLockLoss | masterTakeover | failureDecision | coveringEnd | loadingComplete |
    partitionStart | partitionClose | twilightEntry | twilightStop | dark | treeDisagreement | opticalEngineFailure |
    ethernetFrame | congestionNotification | rateIncrease | pfcFrame | rdmaWrite | rdmaRead | portRetrained | modulePresence |
    moduleRemoval | moduleFault | openFibre | darknessCheck | moduleMonitorPoll | daylightHistorySave | relightProbeEnd |
    underVoltage | powerFailLatch | powerFailSilence | currentLimitEntry | currentLimitExit | powerMean | hardTrip | voteEnforce |
    voteRelease | referenceLoss | referenceReturn | holdoverCorrection | crossingTimeout | watchdogWarning | watchdogExpiry |
    housekeepingTimer | adcTrigger | adcUrgentRequest | adcReferenceSettled | managementRead | managementWrite |
    managementWriteReadback | managementRequestTimeout | flashWriteEnd | flashEraseEnd | entropyHealthFailure | flushStart |
    flushEnd | resetAssertion | powerOff | dawnStart | dawnStepComplete | frameLockTimeout | ledgerPartnerRetry | firstUseEnd |
    hoursSave | dictionaryStoreRollover | uoaIdleTimeout | parkingKeyInstall =>
    simp only [exec, execArrayResultReadable, execTransitResultReadable, execArrayDiagnosisEnd, execSpareProgrammingEnd, execArrayReturn,
      execArrayProgrammingStart, execReleaseErase, execBackgroundWindowEnd, execSlotShortfall, execFullCalibrationStart,
      execRotationDue, execDriftEvaluation, execLayer, execEccWriteBack, execBlockZeroing, execRowMapOut, execScheduledFlitClaim,
      execGranuleZeroingEnd, execFrameBoundary, execPauseInsertion, execStepStart, execEscrowArrival, execReplicationFailure,
      execLinkSilence, execLoopbackTestEnd, execLinkDetect, execLinkEqualisationEnd, execTrainingStageTimeout, execKeyRenewal,
      execOpticalWidthChange, execFrameLockLoss, execMasterTakeover, execFailureDecision, execCoveringEnd, execLoadingComplete,
      execPartitionStart, execPartitionClose, execTwilightEntry, execTwilightStop, execDark, execTreeDisagreement,
      execOpticalEngineFailure, execEthernetFrame, execCongestionNotification, execRateIncrease, execPfcFrame, execRdmaWrite,
      execRdmaRead, execPortRetrained, execModulePresence, execModuleRemoval, execModuleFault, execOpenFibre, execDarknessCheck,
      execModuleMonitorPoll, execDaylightHistorySave, execRelightProbeEnd, execUnderVoltage, execPowerFailLatch,
      execPowerFailSilence, execCurrentLimitEntry, execCurrentLimitExit, execPowerMean, execHardTrip, execVoteEnforce,
      execVoteRelease, execReferenceLoss, execReferenceReturn, execHoldoverCorrection, execCrossingTimeout, execWatchdogWarning,
      execWatchdogExpiry, execHousekeepingTimer, execAdcTrigger, execAdcUrgentRequest, execAdcReferenceSettled,
      execManagementRead, execManagementWrite, execManagementWriteReadback, execManagementRequestTimeout, execFlashWriteEnd,
      execFlashEraseEnd, execEntropyHealthFailure, execFlushStart, execFlushEnd, execResetAssertion, execPowerOff, execDawnStart,
      execDawnStepComplete, execFrameLockTimeout, execLedgerPartnerRetry, execFirstUseEnd, execHoursSave,
      execDictionaryStoreRollover, execUoaIdleTimeout, execParkingKeyInstall]
    (repeat' split) <;> exact KeepsWf.next (by simp +contextual [KeepsWf])

theorem step_keepsWf (s : State) : NextKeepsWf s (step s) := by
  unfold step
  split
  · exact (KeepsWf.refl s).next
  next c rest _ => exact ⟨(exec_keepsWf c { s with pending := rest }).keeps⟩

end Sys2Proof.Machine
end

section
open Sys2Proof Sys2Proof.Machine

/-- Settles O4: every step keeps the canonical form of both memories (`step_keepsWf`), each by itself. -/
theorem memoriesStayCanonical : Obligations.MemoriesStayCanonical := by
  unfold Obligations.MemoriesStayCanonical
  exact ⟨fun s t hs h => ((step_keepsWf s).keeps t h).1 hs, fun s t hs h => ((step_keepsWf s).keeps t h).2 hs⟩

end

section
/-! SUPPORT. A narrow access where no other use stands at the ports of its tile, and long accumulators after an addition of lanes (R119, R121,
R182). -/

namespace Sys2Proof.Machine

variable {s : State} {i : Issue} {v : VecOps}

/-! ## Narrow accesses -/

@[simp] theorem narrowMiss_nil (wide : List (Nat × Nat)) (n c : Nat) : narrowMiss wide n c [] = none := by
  induction n generalizing c with
  | zero => rfl
  | succ n ih => exact ih (c + 1)

/-- A lone narrow access at ports without a wide use is served in the cycle after its issue. -/
theorem narrowMiss_single (n : Nat) (a : NarrowUse) : narrowMiss [] n a.cycle [a] = none := by
  cases n with
  | zero => rfl
  | succ n =>
    cases n with
    | zero => simp [narrowMiss]
    | succ n => simp [narrowMiss, pickNarrow]

theorem Tile.narrowFail_single {t : Tile} {a : NarrowUse} (hnarrow : t.narrow = [a]) (hwide : t.wideUses = []) : t.narrowFail = none := by
  rw [Tile.narrowFail, hnarrow, hwide]
  exact narrowMiss_single _ a

/-- The narrow use that an issue makes of a line's bank. -/
def State.narrowUse (s : State) (i : Issue) (port line : Nat) : NarrowUse :=
  { cycle := i.cycle.toNat, port := port, bank := line % 16, tag := (s.strm i).tag, stream := i.stream
    iaddr := BitVec.ofNat 14 (s.strm i).pc }

/-- The state on which a narrow form acts: the issue advanced, its narrow use alone in the list. -/
def State.narrowState (s : State) (i : Issue) (port line : Nat) : State :=
  (s.advance i port i.cycle.toNat).updTile i.tile.toNat (fun t => { t with narrow := [s.narrowUse i port line] })

theorem State.useNarrow_alone {port line : Nat} (hnarrow : (s.tile i.tile.toNat).narrow = []) (hwide : (s.tile i.tile.toNat).wideUses = []) :
    (s.advance i port i.cycle.toNat).useNarrow i port line = s.narrowState i port line := by
  have hlist : ((s.advance i port i.cycle.toNat).tile i.tile.toNat).narrow = [] := by
    rw [State.tile_advance]
    exact hnarrow
  have huse : ((s.advance i port i.cycle.toNat).updTile i.tile.toNat (fun t => { t with
      narrow := insertNarrow (s.narrowUse i port line) t.narrow })) = s.narrowState i port line := by
    rw [State.narrowState, State.updTile, State.updTile, hlist]
    rfl
  have hserved : ((s.narrowState i port line).tile i.tile.toNat).narrowFail = none := by
    refine Tile.narrowFail_single (a := s.narrowUse i port line) ?_ ?_
    · rw [State.narrowState, State.tile_updTile_same]
    · rw [State.narrowState, State.tile_updTile_same, State.tile_advance]
      exact hwide
  unfold State.useNarrow
  simp only [State.advance_tag, State.advance_pc_pred]
  rw [← State.narrowUse, huse, State.checkNarrow, hserved]

theorem State.tile_narrowState (s : State) (i : Issue) (port line : Nat) :
    (s.narrowState i port line).tile i.tile.toNat =
      { s.tile i.tile.toNat with
        streams := ((s.narrowState i port line).tile i.tile.toNat).streams
        ports := ((s.narrowState i port line).tile i.tile.toNat).ports
        narrow := [s.narrowUse i port line] } := by
  rw [State.narrowState, State.tile_updTile_same, State.advance_tile]

theorem State.narrowState_own (s : State) (i : Issue) (port line : Nat) : OnlyOwnTile i s (s.narrowState i port line) :=
  OnlyOwnTile.updTile s _ i _ (OnlyOwnTile.advance s i port i.cycle.toNat)

@[simp] theorem State.narrowState_spad (s : State) (i : Issue) (port line : Nat) : (s.narrowState i port line).spad = s.spad := by
  rw [State.narrowState, State.updTile_spad, State.spad_advance]

theorem State.narrowState_vreg (s : State) (i : Issue) (port line : Nat) (r : BitVec 6) :
    (s.narrowState i port line).vreg i r = s.vreg i r := by
  rw [State.vreg, State.tile_narrowState]
  rfl

theorem State.narrowState_narrowW (port line : Nat) (h : (s.tile i.tile.toNat).narrowW = []) :
    ((s.narrowState i port line).tile i.tile.toNat).narrowW = [] := by
  rw [State.tile_narrowState]
  exact h

/-- A narrow form with its checks passed acts on the narrow state. -/
theorem State.vecWordOp_clear (func : BitVec 6) (dest : Bool) (act : State → State) (hissue : s.clearIssue i 7 = true)
    (haddr : v.addr.toNat ≤ 49151) (hupset : v.upset = false) (herrs : v.errs = [])
    (howns : (s.tile i.tile.toNat).owns (v.addr.toNat / 16) 1 (s.strm i).tag = true)
    (hnarrow : (s.tile i.tile.toNat).narrow = []) (hwide : (s.tile i.tile.toNat).wideUses = []) :
    s.vecWordOp i func v dest act = act (s.narrowState i 7 (v.addr.toNat / 16)) := by
  have hown : ((s.advance i 7 i.cycle.toNat).tile i.tile.toNat).owns (v.addr.toNat / 16) 1 ((s.advance i 7 i.cycle.toNat).strm i).tag = true := by
    rw [State.tile_advance, State.advance_tag]
    exact howns
  rw [State.vecWordOp, State.issue_clear s i 7 _ _ _ hissue (decide_eq_true haddr)]
  dsimp only
  rw [if_neg (by rw [hown]; decide), State.useNarrow_alone hnarrow hwide, herrs, State.readChecked_clear, State.vecChecked,
    if_neg (by simp [hupset]), if_neg (by simp [State.clearIssue_parity s i 7 hissue])]

/-! ## Long accumulators -/

/-- A map after the values of consecutive keys were changed, each by the element of a list at its place. -/
theorem SMap.get_foldl_upd_zipIdx {α β : Type} [DecidableEq α] (d : α) (f : β → α → α) (base : Nat) (ls : List β)
    (n k : Nat) (m : SMap α) :
    SMap.get ((ls.zipIdx n).foldl (fun m x => SMap.upd m d (base + x.2) (f x.1)) m) d k =
      match (if base + n ≤ k then ls[k - (base + n)]? else none) with
      | some b => f b (SMap.get m d k)
      | none => SMap.get m d k := by
  induction ls generalizing m n with
  | nil => simp
  | cons b ls ih =>
    rw [List.zipIdx_cons, List.foldl_cons, ih, SMap.get_upd]
    rcases Nat.lt_trichotomy k (base + n) with hk | rfl | hk
    · rw [if_neg (by omega), if_neg (by omega), if_neg (by omega)]
    · rw [if_neg (by omega), if_pos rfl, if_pos le_rfl, Nat.sub_self]
      rfl
    · rw [if_pos (by omega), if_neg (by omega), if_pos (by omega), show k - (base + n) = k - (base + (n + 1)) + 1 by omega,
        List.getElem?_cons_succ]

end Sys2Proof.Machine
end

section
/-! Certificate of O7: LDL, PACC, DEQ, STL, LDW and STW with their conditions met (R119-R121, R132, R182), a lemma for each. -/

namespace Sys2Proof.Machine

variable {s : State} {i : Issue} {v : VecOps}

/-- The first of the lanes that a line form names by MOD bit 0 (R182). -/
def halfBase (v : VecOps) : Nat := if v.md.getLsbD 0 then 32 else 0

theorem halfBase_eq (v : VecOps) : halfBase v = 0 ∨ halfBase v = 32 := by
  unfold halfBase
  split <;> simp

theorem div_32_eq_iff (v : VecOps) {l : Nat} (hl : l < 64) :
    l / 32 = (if v.md.getLsbD 0 then 1 else 0) ↔ halfBase v ≤ l ∧ l < halfBase v + 32 := by
  unfold halfBase
  split <;> omega

theorem sub_halfBase {v : VecOps} {l : Nat} (h : halfBase v ≤ l ∧ l < halfBase v + 32) : l - halfBase v = l % 32 := by
  have hbase := halfBase_eq v
  omega

/-! ## Reads of a line -/

theorem exec_ldl (hline : s.clearVecLine i v = true) :
    exec (.ldl i v) s = .next ((s.lineState i (vlineNo v) 1).updTile i.tile.toNat (fun t =>
      t.setLanes v.vd.toNat (halfBase v) (wordsOfLine (s.padLine i.tile.toNat (vlineNo v))))) := by
  change execLdl i v s = _
  rw [execLdl, State.vecLine_clear s i _ v 1 _ _ _ hline]
  simp only [State.readOwn_lineState s i v hline]
  rfl

theorem ldl_reads (hline : s.clearVecLine i v = true) :
    ∃ t, exec (.ldl i v) s = .next t ∧ t.spad = s.spad ∧ OnlyOwnTile i s t ∧ OtherVregs i v.vd s t ∧
      ∀ l, l < 64 → (t.vreg i v.vd).getD l 0 =
        if l / 32 = (if v.md.getLsbD 0 then 1 else 0) then (wordsOfLine (s.padLine i.tile.toNat (vlineNo v))).getD (l % 32) 0
        else (s.vreg i v.vd).getD l 0 := by
  have hlen := wordsOfLine_length (s.padLine i.tile.toNat (vlineNo v))
  have hbase := halfBase_eq v
  have hlanes (r : BitVec 6) := State.vreg_setLanes (s.lineState i (vlineNo v) 1) i v.vd r (halfBase v)
    (wordsOfLine (s.padLine i.tile.toNat (vlineNo v))) (by omega)
  refine ⟨_, exec_ldl hline, by simp, (s.lineState_own i (vlineNo v) 1).updTile s _ i _, fun q hq => ?_, fun l hl => ?_⟩
  · rw [hlanes, if_neg hq, State.lineState_vreg]
  · rw [hlanes, if_pos rfl, List.getD_eq_getElem _ _ (by simpa using hl), List.getElem_map, List.getElem_range, hlen, State.lineState_vreg]
    simp only [div_32_eq_iff v hl]
    split
    next h => rw [sub_halfBase h]
    next => rfl

/-- Lane `l` of a long accumulator. -/
theorem Tile.getD_lacc (t : Tile) (n : Nat) {l : Nat} (hl : l < 64) : (t.lacc n).getD l 0 = SMap.get t.laccs 0 (64 * n + l) := by
  simp [Tile.lacc, List.getD, hl]

/-- The tile with the words of a line added to half the lanes of a long accumulator. -/
def Tile.accumulate (t : Tile) (v : VecOps) (l : Line) : Tile :=
  { t with laccs := (wordsOfLine l).zipIdx.foldl (fun m x => SMap.upd m 0 (64 * v.lacc.toNat + halfBase v + x.2) (fun o => paccLane o x.1)) t.laccs }

theorem Tile.getD_lacc_accumulate (t : Tile) (v : VecOps) (w : Line) {l : Nat} (hl : l < 64) :
    ((t.accumulate v w).lacc v.lacc.toNat).getD l 0 =
      if l / 32 = (if v.md.getLsbD 0 then 1 else 0) then paccLane ((t.lacc v.lacc.toNat).getD l 0) ((wordsOfLine w).getD (l % 32) 0)
      else (t.lacc v.lacc.toNat).getD l 0 := by
  have hlen := wordsOfLine_length w
  have hget := SMap.get_foldl_upd_zipIdx (0 : W64) (fun (p : W32) o => paccLane o p) (64 * v.lacc.toNat + halfBase v) (wordsOfLine w) 0
    (64 * v.lacc.toNat + l) t.laccs
  rw [Tile.getD_lacc _ _ hl, Tile.getD_lacc _ _ hl, Tile.accumulate, hget]
  simp only [div_32_eq_iff v hl]
  by_cases h : halfBase v ≤ l ∧ l < halfBase v + 32
  · have hat : 64 * v.lacc.toNat + l - (64 * v.lacc.toNat + halfBase v + 0) = l % 32 := by
      rw [← sub_halfBase h]
      omega
    rw [if_pos h, if_pos (by omega), hat, List.getElem?_eq_getElem (by omega), List.getD_eq_getElem _ _ (by omega)]
  · have hout : (if 64 * v.lacc.toNat + halfBase v + 0 ≤ 64 * v.lacc.toNat + l then
        (wordsOfLine w)[64 * v.lacc.toNat + l - (64 * v.lacc.toNat + halfBase v + 0)]? else none) = none := by
      split
      · exact List.getElem?_eq_none (by omega)
      · rfl
    rw [if_neg h, hout]

theorem exec_pacc (hline : s.clearVecLine i v = true) :
    exec (.pacc i v) s = .next ((s.lineState i (vlineNo v) 1).updTile i.tile.toNat (fun t =>
      t.accumulate v (s.padLine i.tile.toNat (vlineNo v)))) := by
  change execPacc i v s = _
  rw [execPacc, State.vecLine_clear s i _ v 1 _ _ _ hline]
  simp only [State.readOwn_lineState s i v hline]
  rfl

theorem pacc_adds (hline : s.clearVecLine i v = true) :
    ∃ t, exec (.pacc i v) s = .next t ∧ t.spad = s.spad ∧ OnlyOwnTile i s t ∧ (∀ r, t.vreg i r = s.vreg i r) ∧
      ∀ l, l < 64 → ((t.tile i.tile.toNat).lacc v.lacc.toNat).getD l 0 =
        if l / 32 = (if v.md.getLsbD 0 then 1 else 0) then
          paccLane (((s.tile i.tile.toNat).lacc v.lacc.toNat).getD l 0)
            ((wordsOfLine (s.padLine i.tile.toNat (vlineNo v))).getD (l % 32) 0)
        else ((s.tile i.tile.toNat).lacc v.lacc.toNat).getD l 0 := by
  refine ⟨_, exec_pacc hline, by simp, (s.lineState_own i (vlineNo v) 1).updTile s _ i _, fun r => ?_, fun l hl => ?_⟩
  · rw [State.vreg, State.tile_updTile_same]
    exact s.lineState_vreg i (vlineNo v) 1 r
  · rw [State.tile_updTile_same, Tile.getD_lacc_accumulate _ _ _ hl, State.lineState_tile]
    rfl

/-- The state with the values of a DEQ in its register, or its two (R63, R68). -/
def State.dequantised (u : State) (i : Issue) (v : VecOps) (f : List FVal) : State :=
  if v.md.getLsbD 0 then
    u.setVreg i v.vd ((List.range 64).map (fun n => fvToBf16 (f.getD (2 * n + 1) .nan) ++ fvToBf16 (f.getD (2 * n) .nan)))
  else (u.setVreg i v.vd ((f.take 64).map fvToF32)).setVreg i (v.vd + 1) ((f.drop 64).map fvToF32)

@[simp] theorem elemsOf_length (h : BurstHdr) (l : Line) (upper : Bool) : (elemsOf h l upper).length = 128 := by
  unfold elemsOf burstVals
  split <;> simp

theorem exec_deq (hline : s.clearVecLine i v = true) :
    let h := lanesHdr (s.vreg i v.va)
    let e := elemsOf h (s.padLine i.tile.toNat (vlineNo v)) (v.md.getLsbD 1)
    burstRes e = h.res →
      exec (.deq i v) s = .next ((s.lineState i (vlineNo v) 1).dequantised i v (e.map (burstElem h.exp))) := by
  intro h e hres
  change execDeq i v s = _
  rw [execDeq, State.vecLine_clear s i _ v 1 _ _ _ hline]
  simp only [State.readOwn_lineState s i v hline, State.lineState_vreg]
  rw [if_neg (not_not.2 hres)]
  rfl

theorem deq_writesValues (hline : s.clearVecLine i v = true) :
    let h := lanesHdr (s.vreg i v.va)
    let e := elemsOf h (s.padLine i.tile.toNat (vlineNo v)) (v.md.getLsbD 1)
    let f := e.map (burstElem h.exp)
    burstRes e = h.res →
      ∃ t, exec (.deq i v) s = .next t ∧ t.spad = s.spad ∧ OnlyOwnTile i s t ∧
        (v.md.getLsbD 0 = true → OtherVregs i v.vd s t ∧
          t.vreg i v.vd = (List.range 64).map (fun n => fvToBf16 (f.getD (2 * n + 1) .nan) ++ fvToBf16 (f.getD (2 * n) .nan))) ∧
        (v.md.getLsbD 0 = false → (∀ q : BitVec 6, q ≠ v.vd → q ≠ v.vd + 1 → t.vreg i q = s.vreg i q) ∧
          t.vreg i v.vd = (f.take 64).map fvToF32 ∧ t.vreg i (v.vd + 1) = (f.drop 64).map fvToF32) := by
  intro h e f hres
  have hown := s.lineState_own i (vlineNo v) 1
  refine ⟨_, exec_deq hline hres, ?_, ?_, fun hmd => ?_, fun hmd => ?_⟩
  · unfold State.dequantised
    split <;> simp
  · unfold State.dequantised
    split
    · exact hown.setVreg _ _
    · exact (hown.setVreg _ _).setVreg _ _
  · rw [State.dequantised, if_pos hmd]
    exact ⟨fun q hq => by rw [State.vreg_setVreg_other _ _ _ _ _ hq, State.lineState_vreg],
      State.vreg_setVreg_same _ _ _ _ (by simp)⟩
  · have hnext : v.vd ≠ v.vd + 1 := by bv_omega
    rw [State.dequantised, if_neg (by rw [hmd]; decide)]
    refine ⟨fun q hq hq1 => ?_, ?_, State.vreg_setVreg_same _ _ _ _ (by simp)⟩
    · rw [State.vreg_setVreg_other _ _ _ _ _ hq1, State.vreg_setVreg_other _ _ _ _ _ hq, State.lineState_vreg]
    · rw [State.vreg_setVreg_other _ _ _ _ _ hnext, State.vreg_setVreg_same _ _ _ _ (by simp)]

/-! ## Writes of a line -/

theorem exec_stl (hline : s.clearVecLine i v = true) :
    exec (.stl i v) s = .next ((s.lineState i (vlineNo v) 1).setPadLine i.tile.toNat (vlineNo v)
      (lineOfWords ((s.vreg i v.va).drop (if v.md.getLsbD 0 then 32 else 0)))) := by
  change execStl i v s = _
  rw [execStl, State.vecLine_clear s i _ v 1 _ _ _ hline, State.writeLines_one _ _ _ _ (State.clearVecLine_narrowW s i v hline),
    State.lineState_vreg]

theorem stl_writesLine (hline : s.clearVecLine i v = true) :
    ∃ t, exec (.stl i v) s = .next t ∧ OnlyOwnTile i s t ∧ (∀ r, t.vreg i r = s.vreg i r) ∧
      t.padLine i.tile.toNat (vlineNo v) = lineOfWords ((s.vreg i v.va).drop (if v.md.getLsbD 0 then 32 else 0)) ∧
      PadOutside i.tile.toNat (vlineNo v) 1 s t :=
  ⟨_, exec_stl hline, (s.lineState_own i (vlineNo v) 1).setPadLine s _ i _ _ _, fun r => s.lineState_vreg i (vlineNo v) 1 r,
    State.padLine_setPadLine_same _ _ _ _, State.setPadLine_out (s.lineState i (vlineNo v) 1) _ _ _⟩

/-! ## Narrow words -/

section
variable (hissue : s.clearIssue i 7 = true) (haddr : v.addr.toNat ≤ 49151) (hupset : v.upset = false) (herrs : v.errs = [])
  (howns : (s.tile i.tile.toNat).owns (v.addr.toNat / 16) 1 (s.strm i).tag = true)
  (hnarrow : (s.tile i.tile.toNat).narrow = []) (hnarrowW : (s.tile i.tile.toNat).narrowW = []) (hwide : (s.tile i.tile.toNat).wideUses = [])
include hissue haddr hupset herrs howns hnarrow hnarrowW hwide

theorem exec_ldw :
    let w := s.padWord i.tile.toNat v.addr.toNat
    exec (.ldw i v) s = .next ((s.narrowState i 7 (v.addr.toNat / 16)).updTile i.tile.toNat (fun t =>
      t.setLanes v.vd.toNat (16 * v.md.toNat) [w.extractLsb' 0 32, w.extractLsb' 32 32])) := by
  intro w
  change execLdw i v s = _
  rw [execLdw, State.vecWordOp_clear _ _ _ hissue haddr hupset herrs howns hnarrow hwide,
    State.settleLines_nil _ _ _ _ (State.narrowState_narrowW _ _ hnarrowW)]
  rfl

theorem ldw_reads :
    ∃ t, exec (.ldw i v) s = .next t ∧ t.spad = s.spad ∧ OnlyOwnTile i s t ∧ OtherVregs i v.vd s t ∧
      (t.vreg i v.vd).getD (16 * v.md.toNat) 0 = (s.padWord i.tile.toNat v.addr.toNat).extractLsb' 0 32 ∧
      (t.vreg i v.vd).getD (16 * v.md.toNat + 1) 0 = (s.padWord i.tile.toNat v.addr.toNat).extractLsb' 32 32 := by
  have hmd := v.md.isLt
  have hlanes (r : BitVec 6) := State.vreg_setLanes (s.narrowState i 7 (v.addr.toNat / 16)) i v.vd r (16 * v.md.toNat)
    [(s.padWord i.tile.toNat v.addr.toNat).extractLsb' 0 32, (s.padWord i.tile.toNat v.addr.toNat).extractLsb' 32 32]
    (by simp only [List.length_cons, List.length_nil]; omega)
  refine ⟨_, exec_ldw hissue haddr hupset herrs howns hnarrow hnarrowW hwide, by simp,
    (s.narrowState_own i 7 _).updTile s _ i _, fun q hq => ?_, ?_, ?_⟩
  · rw [hlanes, if_neg hq, State.narrowState_vreg]
  · rw [hlanes, if_pos rfl]
    have h : 16 * v.md.toNat < 64 := by omega
    simp [List.getD, h]
  · rw [hlanes, if_pos rfl]
    have h : 16 * v.md.toNat + 1 < 64 := by omega
    simp [List.getD, h]

/-- The word that STW posts (R182). -/
def State.storedWord (s : State) (i : Issue) (v : VecOps) : W64 :=
  (s.vreg i v.va).getD (16 * v.md.toNat + 1) 0 ++ (s.vreg i v.va).getD (16 * v.md.toNat) 0

theorem stw_posts :
    ∃ t, exec (.stw i v) s = .next t ∧ t.spad = s.spad ∧ OnlyOwnTile i s t ∧ (∀ r, t.vreg i r = s.vreg i r) ∧
      (t.tile i.tile.toNat).narrowW = [(i.cycle.toNat + 10, v.addr.toNat, s.storedWord i v)] := by
  have hexec := State.vecWordOp_clear 0x33 true (fun u => u.updTile i.tile.toNat (fun t => { t with
      narrowW := t.narrowW ++ [(i.cycle.toNat + 10, v.addr.toNat, u.storedWord i v)]
      halfA := t.halfA.follow u.fu.frame i.cycle.toNat v.addr.toNat (u.storedWord i v)
      halfB := t.halfB.follow u.fu.frame i.cycle.toNat v.addr.toNat (u.storedWord i v) }))
    hissue haddr hupset herrs howns hnarrow hwide
  refine ⟨_, congrArg Host.Outcome.next hexec, by simp, (s.narrowState_own i 7 _).updTile s _ i _, fun r => ?_, ?_⟩
  · rw [State.vreg, State.tile_updTile_same]
    exact s.narrowState_vreg i 7 _ r
  · rw [State.tile_updTile_same]
    dsimp only
    rw [State.narrowState_narrowW _ _ hnarrowW, State.storedWord, State.narrowState_vreg]
    rfl

end

end Sys2Proof.Machine
end

section
open Sys2Proof Sys2Proof.Machine

/-- Settles O7, form by form: `ldl_reads`, `pacc_adds`, `deq_writesValues`, `stl_writesLine`, `ldw_reads` and `stw_posts`. -/
theorem vectorLineAccesses : Obligations.VectorLineAccesses := by
  unfold Obligations.VectorLineAccesses
  refine ⟨fun i v s hline => ⟨ldl_reads hline, pacc_adds hline, deq_writesValues hline⟩, fun i v s hline => stl_writesLine hline, ?_⟩
  exact fun i v s hissue haddr hupset herrs howns hnarrow hnarrowW hwide =>
    ⟨ldw_reads hissue haddr hupset herrs howns hnarrow hnarrowW hwide, stw_posts hissue haddr hupset herrs howns hnarrow hnarrowW hwide⟩

end

section
/-! Refutation of O9: its clause on the program store takes NEXT and END at a die that holds, where they wait and read no word. -/

namespace Sys2Proof.Machine

/-- A running device, its maps in canonical form, that holds at cycle 0 for a WAIT; stream 0 of tile 0 has its frame block. -/
def heldIssuer : State :=
  { tiles := [(0, { streams := [(0, { tag := 0, block := some 0 })] })]
    fu := { hold := some (0, 0, [(0, 5, 0)]) }
    power := { resetPin := false, rails := true }
    dawn := { step := 11 } }

/-- The word of stream 0 on tile 0, which the program store reads with an error it cannot correct (R166). -/
def uncorrectableWord : Issue := { tile := 0, stream := 0, gen := 0, cycle := 0, store := .uncorrectable }

theorem heldIssuer_canonical : heldIssuer.canonical = true := by decide +kernel

theorem heldIssuer_issuing : heldIssuer.issuing uncorrectableWord = true := by decide +kernel

/-- The last word of a frame block does not issue while the die holds (R168, R194). -/
theorem State.issueLast_held (s : State) (i : Issue) (word : W64) (ok : Bool) (act : State → State) (h : s.fu.hold ≠ none) :
    s.issueLast i word ok act = s := if_pos (.inl h)

theorem exec_next_held (s : State) (i : Issue) (n : BitVec 16) (h : s.fu.hold ≠ none) : exec (.next i n 0) s = .next s := by
  change execNext i n 0 s = _
  rw [execNext, State.issueLast_held _ _ _ _ _ h]

end Sys2Proof.Machine
end

section
open Sys2Proof Sys2Proof.Machine

/-- Refutes O9 at its first clause: a stream of a die that holds at cycle 0 passes `State.issuing` with a NEXT of cycle 0, but the NEXT
waits for the end of the hold. It reads no word, and the uncorrectable one calls for no reload. The statement lacks `hold = none` for NEXT
and END. -/
theorem not_memoryReadErrors : ¬ Obligations.MemoryReadErrors := by
  unfold Obligations.MemoryReadErrors
  rintro ⟨hstore, -⟩
  let v : VecOps := { vd := 0, va := 0, vb := 0, addr := 0, lacc := 0, md := 0, upset := false }
  obtain ⟨-, t, ht, hreload, -⟩ := hstore v 0 0 false false 0 0 0 1 [] (fun i => .next i 1 0) (by simp) uncorrectableWord heldIssuer
    heldIssuer_issuing
  rw [exec_next_held _ _ _ (by decide)] at ht
  injection ht with ht
  subst ht
  exact absurd hreload (by decide)

end

section
/-! SUPPORT. The source check of a remote write where it passes and where it fails (R131), and what a fault leaves of a tile (R198, R204). -/

namespace Sys2Proof.Machine

/-! ## A key listed once -/

section
variable {α β : Type}

/-- A map lists a key at most once. -/
def SMap.listedOnce (m : SMap α) (n : Nat) : Prop := (m.map Prod.fst).count n ≤ 1

theorem SMap.count_put (m : SMap α) (k : Nat) (v : α) (n : Nat) :
    ((SMap.put m k v).map Prod.fst).count n = (m.map Prod.fst).count n + if k = n then 1 else 0 := by
  induction m with
  | nil => simp [SMap.put, List.count_cons]
  | cons p m ih =>
    unfold SMap.put
    split
    · simp [List.count_cons]
    · simp only [List.map_cons, List.count_cons, ih]
      omega

theorem SMap.count_drop_same (m : SMap α) (n : Nat) : ((SMap.drop m n).map Prod.fst).count n = 0 := by
  simp [SMap.drop, List.count_eq_zero]

theorem SMap.count_drop_le (m : SMap α) (k n : Nat) : ((SMap.drop m k).map Prod.fst).count n ≤ (m.map Prod.fst).count n :=
  (List.Sublist.map _ List.filter_sublist).count_le _

variable [DecidableEq α]

/-- What is written stands once. -/
theorem SMap.listedOnce_set_same (m : SMap α) (d : α) (n : Nat) (v : α) : SMap.listedOnce (SMap.set m d n v) n := by
  have hdrop := SMap.count_drop_same m n
  unfold SMap.listedOnce SMap.set
  split
  · omega
  · rw [SMap.count_put, hdrop, if_pos rfl]

theorem SMap.listedOnce_set {m : SMap α} {n : Nat} (h : SMap.listedOnce m n) (d : α) (k : Nat) (v : α) :
    SMap.listedOnce (SMap.set m d k v) n := by
  by_cases hk : k = n
  · exact hk ▸ SMap.listedOnce_set_same m d k v
  · have hdrop := SMap.count_drop_le m k n
    unfold SMap.listedOnce SMap.set at *
    split
    · omega
    · rw [SMap.count_put, if_neg hk]
      omega

theorem SMap.listedOnce_mapVals {m : SMap α} {n : Nat} (h : SMap.listedOnce m n) (d : α) (f : Nat → α → α) :
    SMap.listedOnce (SMap.mapVals m d f) n := by
  have hkeys : ((m.map fun p => (p.1, f p.1 p.2)).map Prod.fst) = m.map Prod.fst := by simp
  exact ((List.Sublist.map _ List.filter_sublist).count_le n).trans (hkeys ▸ h)

/-- What no change of a value shows is the same under a key listed once after all of them. -/
theorem SMap.view_get_mapVals_of_once (view : α → β) (m : SMap α) (d : α) (f : Nat → α → α) (n : Nat) (h : SMap.listedOnce m n)
    (hf : ∀ v, view (f n v) = view v) : view (SMap.get (SMap.mapVals m d f) d n) = view (SMap.get m d n) := by
  induction m with
  | nil => rfl
  | cons p m ih =>
    rw [SMap.mapVals_cons, SMap.get]
    by_cases hk : p.1 = n
    · have hnone : ∀ q ∈ m, q.1 ≠ n := by
        have hcount : (m.map Prod.fst).count n = 0 := by simpa [SMap.listedOnce, List.count_cons, hk] using h
        exact fun q hq hqn => List.count_eq_zero.1 hcount (List.mem_map.2 ⟨q, hq, hqn⟩)
      rw [if_pos hk, ← hf p.2, hk]
      split
      next hd => rw [SMap.get_mapVals_none m d f n hnone, hd]
      next => rw [SMap.get, if_pos rfl]
    · have hrest : SMap.listedOnce m n := by simpa [SMap.listedOnce, List.count_cons, hk] using h
      rw [if_neg hk, ← ih hrest]
      split
      · rfl
      · rw [SMap.get, if_neg hk]

end

/-! ## What a fault leaves of a tile (R198, R204) -/

/-- What reports, aborts and the end of a hold leave of a tile: its credit violations, its credits, its mirrors and its feed buffers. -/
def Tile.besideFaults (t : Tile) : Nat × SMap Credit × List (Nat × Nat × Credit) × SMap FeedBuf := (t.violations, t.credits, t.mirrors, t.feeds)

/-- Tile `n`, where it is listed once, is still listed once and keeps what no fault touches. -/
def State.KeepsTile (n : Nat) (s t : State) : Prop :=
  SMap.listedOnce s.tiles n → SMap.listedOnce t.tiles n ∧ (t.tile n).besideFaults = (s.tile n).besideFaults

variable {n : Nat} {s t u : State}

theorem State.KeepsTile.of_tiles (h : t.tiles = s.tiles) : State.KeepsTile n s t := fun honce => by
  rw [State.tile_congr h, h]
  exact ⟨honce, rfl⟩

theorem State.KeepsTile.trans (h : State.KeepsTile n s t) (h' : State.KeepsTile n t u) : State.KeepsTile n s u := fun honce =>
  ⟨(h' (h honce).1).1, (h' (h honce).1).2.trans (h honce).2⟩

theorem State.keepsTile_updTile (s : State) (k : Nat) (f : Tile → Tile) (hf : ∀ x, (f x).besideFaults = x.besideFaults) :
    State.KeepsTile n s (s.updTile k f) := by
  refine fun honce => ⟨SMap.listedOnce_set honce {} k _, ?_⟩
  by_cases hk : n = k
  · rw [hk, State.tile_updTile_same, hf]
  · rw [State.tile_updTile_other _ _ _ _ hk]

theorem Tile.claim_besideFaults (x : Tile) (k : Nat) : (x.claim k).besideFaults = x.besideFaults := by
  unfold Tile.claim Tile.setHalf
  dsimp only
  (repeat' split) <;> rfl

theorem State.keepsTile_claimWaits (s : State) (ws : List (TileNo × Nat × Tag)) : State.KeepsTile n s (s.claimWaits ws) :=
  List.foldlRecOn (motive := State.KeepsTile n s) ws _ (.of_tiles rfl) fun _ h w _ =>
    h.trans (State.keepsTile_updTile _ _ _ fun x => x.claim_besideFaults w.2.1)

theorem State.keepsTile_dropWaits (s : State) (p : Nat) : State.KeepsTile n s (s.dropWaits p) := by
  unfold State.dropWaits
  split
  · exact .of_tiles rfl
  · dsimp only
    split
    · rw [State.endHoldWith_eq]
      exact (State.keepsTile_claimWaits s.freed _).trans (.of_tiles rfl)
    · exact .of_tiles rfl

theorem State.keepsTile_beginAbort (s : State) (p frame : Nat) (v : VariantSel) (streams : Line) :
    State.KeepsTile n s (s.beginAbort p frame v streams) := fun honce =>
  ⟨SMap.listedOnce_mapVals honce {} (fun _ t => Tile.stopStreams t p),
    SMap.view_get_mapVals_of_once Tile.besideFaults s.tiles {} (fun _ t => Tile.stopStreams t p) n honce fun _ => rfl⟩

theorem State.keepsTile_abortHere (s : State) (p frame : Nat) (v : VariantSel) (streams : Line) :
    State.KeepsTile n s (s.abortHere p frame v streams) := by
  obtain ⟨a, h⟩ | h | ⟨-, h⟩ := s.abortHere_cases p frame v streams <;> rw [h]
  · exact .of_tiles rfl
  · exact (s.keepsTile_beginAbort p frame v streams).trans (State.keepsTile_dropWaits _ p)
  · exact .of_tiles rfl

theorem State.keepsTile_abortOne (s : State) (code : BitVec 8) (v : VariantSel) (p : Nat) : State.KeepsTile n s (s.abortOne code v p) := by
  obtain ⟨streams, seen, m, h⟩ := s.abortOne_eq code v p
  rw [h, State.flood_frame]
  exact (s.keepsTile_abortHere p s.fu.frame v streams).trans (.of_tiles rfl)

theorem State.keepsTile_abortAll (s : State) (code : BitVec 8) (v : VariantSel) (ps : List Nat) : State.KeepsTile n s (s.abortAll code v ps) := by
  unfold State.abortAll
  split
  · exact .of_tiles rfl
  · exact List.foldlRecOn (motive := State.KeepsTile n s) ps _ (.of_tiles rfl) fun _ h p _ => h.trans (State.keepsTile_abortOne _ code v p)

theorem State.keepsTile_setReport (s : State) (f : FaultInfo) (r : Report) : State.KeepsTile n s (s.setReport f r) := by
  unfold State.setReport
  split
  · exact s.keepsTile_updTile _ _ fun _ => rfl
  · exact .of_tiles rfl

theorem State.keepsTile_report (s : State) (f : FaultInfo) : State.KeepsTile n s (s.report f) := by
  have hsent (r : Report) := s.keepsTile_setReport f r (n := n)
  have hmissed : State.KeepsTile n s (s.updFu fun u => { u with unreported := bump32 u.unreported }) := .of_tiles rfl
  unfold State.report
  dsimp only
  split
  · exact (hsent _).trans (.of_tiles rfl)
  · split
    · split
      · exact (hmissed.trans (State.keepsTile_setReport _ f _)).trans (.of_tiles rfl)
      · exact .of_tiles rfl
    · exact (hsent _).trans (.of_tiles rfl)

/-- The count of a fault changes health and, with a decision for Twilight, the recorder, the management complex and Dawn (R382, R387). -/
theorem State.countFault_frame (s : State) (f : FaultInfo) :
    s.countFault f =
      { s with
        health := (s.countFault f).health, recd := (s.countFault f).recd, mgmt := (s.countFault f).mgmt, dawn := (s.countFault f).dawn } := by
  unfold State.countFault
  dsimp only
  (repeat' split) <;> (try rw [State.twilight_frame]) <;> rfl

theorem State.keepsTile_countFault (s : State) (f : FaultInfo) : State.KeepsTile n s (s.countFault f) :=
  .of_tiles (by rw [State.countFault_frame])

theorem State.keepsTile_fault (s : State) (f : FaultInfo) : State.KeepsTile n s (s.fault f) := by
  have hcount := (s.keepsTile_report f).trans ((s.report f).keepsTile_countFault f (n := n))
  unfold State.fault State.abortTag
  split
  · exact hcount.trans (State.keepsTile_abortAll _ _ _ _)
  · exact hcount

/-- A credit violation of a tile is counted there, leaves its credits and every scratchpad byte alone, and aborts its partition (R131,
R198). -/
theorem State.creditFault_violates {f : FaultInfo} {k : TileNo} (hpart : Tag.isPart f.tag = true) (htile : f.tile = some k) :
    (s.creditFault f).spad = s.spad ∧ ((s.creditFault f).tile k.toNat).credits = (s.tile k.toNat).credits ∧
      ((s.creditFault f).tile k.toNat).violations = bump32 (s.tile k.toNat).violations ∧ AbortsIn f.tag.toNat s (s.creditFault f) := by
  have hkept := State.keepsTile_fault (n := k.toNat) (s.updTile k.toNat (fun t => { t with violations := bump32 t.violations })) f
    (SMap.listedOnce_set_same _ _ _ _)
  have hview := hkept.2
  rw [State.tile_updTile_same] at hview
  simp only [Tile.besideFaults, Prod.mk.injEq] at hview
  obtain ⟨hviolations, hcredits, -⟩ := hview
  rw [State.creditFault, htile, Option.getD_some]
  exact ⟨by rw [State.fault_spad, State.updTile_spad], hcredits, hviolations, fun hbehind => State.fault_aborts _ f hpart hbehind⟩

/-! ## The source check of a remote write (R131) -/

variable {i : Issue} {dest : TileNo} {port : BitVec 2} {line k : Nat} {anyc : Bool}

/-- Each of `k` lines from `line` is written to its own tile, under an any-writer credit or under a live mirror (R131). -/
def State.sendable (u : State) (i : Issue) (dest : TileNo) (port : BitVec 2) (line k : Nat) (anyc : Bool) : Prop :=
  remoteTile i.tile dest port = false ∨ anyc = true ∨
    (spendMirrors (u.strm i).tag dest.toNat k line (u.tile i.tile.toNat).mirrors).isSome = true

/-- The mirrors of the sending tile spent, where the source check asks for any. -/
def State.spent (u : State) (i : Issue) (dest : TileNo) (port : BitVec 2) (line k : Nat) (anyc : Bool) : State :=
  if !remoteTile i.tile dest port || anyc then u
  else
    match spendMirrors (u.strm i).tag dest.toNat k line (u.tile i.tile.toNat).mirrors with
    | some ms => u.updTile i.tile.toNat (fun t => { t with mirrors := ms })
    | none => u

theorem State.withCredit_sendable (act : State → State) (h : u.sendable i dest port line k anyc) :
    u.withCredit i dest port line k anyc act = act (u.spent i dest port line k anyc) := by
  unfold State.withCredit State.spent
  split
  · rfl
  next hremote =>
    obtain ⟨hr, ha⟩ : remoteTile i.tile dest port = true ∧ anyc = false := by simpa using hremote
    obtain ⟨ms, hms⟩ := Option.isSome_iff_exists.1 ((h.resolve_left (by simp [hr])).resolve_left (by simp [ha]))
    rw [hms]

/-- The mirrors apart, the sending tile is as it was. -/
theorem State.tile_spent (u : State) (i : Issue) (dest : TileNo) (port : BitVec 2) (line k : Nat) (anyc : Bool) :
    ∃ ms, (u.spent i dest port line k anyc).tile i.tile.toNat = { u.tile i.tile.toNat with mirrors := ms } := by
  unfold State.spent
  split
  · exact ⟨_, rfl⟩
  · split
    · exact ⟨_, State.tile_updTile_same _ _ _⟩
    · exact ⟨_, rfl⟩

theorem State.spent_frame (u : State) (i : Issue) (dest : TileNo) (port : BitVec 2) (line k : Nat) (anyc : Bool) :
    u.spent i dest port line k anyc = { u with tiles := (u.spent i dest port line k anyc).tiles } := by
  unfold State.spent
  (repeat' split) <;> rfl

theorem State.spent_fu (u : State) (i : Issue) (dest : TileNo) (port : BitVec 2) (line k : Nat) (anyc : Bool) :
    (u.spent i dest port line k anyc).fu = u.fu := by
  rw [State.spent_frame]

theorem State.spent_mesh (u : State) (i : Issue) (dest : TileNo) (port : BitVec 2) (line k : Nat) (anyc : Bool) :
    (u.spent i dest port line k anyc).mesh = u.mesh := by
  rw [State.spent_frame]

@[simp] theorem State.spent_spad (u : State) (i : Issue) (dest : TileNo) (port : BitVec 2) (line k : Nat) (anyc : Bool) :
    (u.spent i dest port line k anyc).spad = u.spad := by
  rw [State.spent_frame]

theorem State.spent_portsClear (u : State) (i : Issue) (dest : TileNo) (port : BitVec 2) (line k : Nat) (anyc : Bool) (l n : Nat) :
    (u.spent i dest port line k anyc).portsClear i l n = u.portsClear i l n := by
  obtain ⟨ms, h⟩ := u.tile_spent i dest port line k anyc
  simp only [State.portsClear, State.strm, h, Tile.takeWide, Tile.owns, Tile.blockOf, apply_ite (Option.map Tile.fillsClear),
    Option.map_some]
  rfl

/-- The advance changes nothing that the source check reads. -/
theorem State.sendable_advance {c p : Nat} (h : s.sendable i dest port line k anyc) : (s.advance i p c).sendable i dest port line k anyc := by
  unfold State.sendable
  rw [State.advance_tag, State.tile_advance]
  exact h

end Sys2Proof.Machine
end

section
/-! Certificate of O16: SEND and SENDR with their conditions met, and a SEND without a live mirror (R130, R131, R184, R185), a lemma for
each. -/

namespace Sys2Proof.Machine

variable {s : State} {i : Issue}

/-! ## SEND -/

/-- The flit of a SEND (R147). -/
def State.sentFlit (s : State) (i : Issue) (srcline : BitVec 12) (plane : Bool) (dest : TileNo) (port : BitVec 2) (dline : BitVec 12)
    (xfer : BitVec 8) (add anyc : Bool) : Flit :=
  { add := add, src := i.tile, dest := dest, port := port, line := dline, tag := (s.strm i).tag, xfer := xfer
    count := if add then 1 else 0, res := if add then flitRes (s.padLine i.tile.toNat srcline.toNat) else 0, plane := plane
    data := s.padLine i.tile.toNat srcline.toNat, frame := s.fu.frame, sent := i.cycle.toNat, hop := 0, anyc := anyc, pred := none
    stream := i.stream, void := false }

theorem exec_send (srcline : BitVec 12) (plane : Bool) (dest : TileNo) (port : BitVec 2) (dline : BitVec 12) (xfer : BitVec 8)
    (add anyc : Bool) (hissue : s.clearIssue i 8 = true) (hline : srcline.toNat ≤ 3071) (hfields : sendFieldsOk i.tile dest port anyc = true)
    (hports : s.portsClear i srcline.toNat 1 = true) (hcredit : s.sendable i dest port dline.toNat 1 anyc) :
    let u := (s.advance i 8 i.cycle.toNat).spent i dest port dline.toNat 1 anyc
    exec (.send i srcline plane dest port dline xfer add anyc []) s =
      .next ((u.setTile i.tile.toNat ((u.tile i.tile.toNat).withWide i.cycle.toNat srcline.toNat 1)).inject
        (s.sentFlit i srcline plane dest port dline xfer add anyc)) := by
  intro u
  have hclear : u.portsClear i srcline.toNat 1 = true := by rw [State.spent_portsClear, State.portsClear_advance, hports]
  have howns : ((s.advance i 8 i.cycle.toNat).tile i.tile.toNat).owns srcline.toNat 1 (s.strm i).tag = true := by
    rw [State.tile_advance]
    exact State.portsClear_owns hports
  have hnarrowW := State.portsClear_narrowW hclear
  change execSend i srcline plane dest port dline xfer add anyc [] s = _
  rw [execSend, State.issue_clear s i 8 _ _ _ hissue (by simp [hline, hfields])]
  refine congrArg Host.Outcome.next ?_
  simp only [State.advance_tag]
  rw [if_neg (by simp [howns]), State.withCredit_sendable _ (State.sendable_advance hcredit), State.useWide_clear _ _ _ _ _ hclear,
    State.readChecked_clear]
  simp only [State.readOwn]
  rw [State.settleLines_nil _ _ _ _ (by rw [State.tile_setTile_same]; exact hnarrowW)]
  have hline : u.padLine i.tile.toNat srcline.toNat = s.padLine i.tile.toNat srcline.toNat := by rw [State.padLine, State.spent_spad]; rfl
  have hframe : u.fu.frame = s.fu.frame := by rw [State.spent_fu, State.advance_frame]
  rw [State.sentFlit, ← hline, ← hframe]
  rfl

theorem send_injects (srcline : BitVec 12) (plane : Bool) (dest : TileNo) (port : BitVec 2) (dline : BitVec 12) (xfer : BitVec 8)
    (add anyc : Bool) (hissue : s.clearIssue i 8 = true) (hline : srcline.toNat ≤ 3071) (hfields : sendFieldsOk i.tile dest port anyc = true)
    (hports : s.portsClear i srcline.toNat 1 = true) (hcredit : s.sendable i dest port dline.toNat 1 anyc) :
    ∃ t, exec (.send i srcline plane dest port dline xfer add anyc []) s = .next t ∧ t.spad = s.spad ∧
      t.mesh = { s.mesh with flits := s.mesh.flits ++ [s.sentFlit i srcline plane dest port dline xfer add anyc] } := by
  refine ⟨_, exec_send srcline plane dest port dline xfer add anyc hissue hline hfields hports hcredit, ?_, ?_⟩
  · rw [State.inject, State.setTile_spad, State.spent_spad, State.spad_advance]
  · rw [State.inject, State.setTile_mesh, State.spent_mesh]
    rfl

/-- The fault of a remote write without a credit (R131). -/
def State.creditInfo (s : State) (i : Issue) (dline : BitVec 12) : FaultInfo :=
  { s.issueFault i 0x03 0x4B i.cycle.toNat (BitVec.ofNat 32 dline.toNat) with iaddr := BitVec.ofNat 14 (s.strm i).pc - 1 }

theorem exec_send_uncredited (srcline : BitVec 12) (plane : Bool) (dest : TileNo) (dline : BitVec 12) (xfer : BitVec 8) (add : Bool)
    (hissue : s.clearIssue i 8 = true) (hline : srcline.toNat ≤ 3071) (hremote : dest ≠ i.tile)
    (hports : s.portsClear i srcline.toNat 1 = true)
    (hnone : (s.tile i.tile.toNat).mirrors.any (mirrorFor (s.strm i).tag dest.toNat dline.toNat) = false) :
    let u := s.advance i 8 i.cycle.toNat
    exec (.send i srcline plane dest 0 dline xfer add false []) s = .next (u.creditFault (u.creditInfo i dline)) := by
  intro u
  have howns : (u.tile i.tile.toNat).owns srcline.toNat 1 (u.strm i).tag = true := by
    rw [State.tile_advance, State.advance_tag]
    exact State.portsClear_owns hports
  have hmirrors : spendMirrors (u.strm i).tag dest.toNat 1 dline.toNat (u.tile i.tile.toNat).mirrors = none := by
    rw [State.tile_advance, State.advance_tag, spendMirrors, if_neg (by simp only [hnone]; decide)]
  change execSend i srcline plane dest 0 dline xfer add false [] s = _
  rw [execSend, State.issue_clear s i 8 _ _ _ hissue (by simp [hline, sendFieldsOk])]
  refine congrArg Host.Outcome.next ?_
  dsimp only
  rw [if_neg (by rw [howns]; decide), State.withCredit, if_neg (by simp [remoteTile, hremote]), hmirrors]
  rfl

theorem send_violates (srcline : BitVec 12) (plane : Bool) (dest : TileNo) (dline : BitVec 12) (xfer : BitVec 8) (add : Bool)
    (hissue : s.clearIssue i 8 = true) (hline : srcline.toNat ≤ 3071) (hremote : dest ≠ i.tile)
    (hports : s.portsClear i srcline.toNat 1 = true)
    (hnone : (s.tile i.tile.toNat).mirrors.any (mirrorFor (s.strm i).tag dest.toNat dline.toNat) = false) :
    ∃ t, exec (.send i srcline plane dest 0 dline xfer add false []) s = .next t ∧ t.spad = s.spad ∧
      (t.tile i.tile.toNat).violations = bump32 (s.tile i.tile.toNat).violations ∧ AbortsIn (s.strm i).tag.toNat s t := by
  have htag : ((s.advance i 8 i.cycle.toNat).creditInfo i dline).tag = (s.strm i).tag := s.advance_tag i 8 i.cycle.toNat
  obtain ⟨hspad, -, hviolations, haborts⟩ := State.creditFault_violates (s := s.advance i 8 i.cycle.toNat) (k := i.tile)
    (f := (s.advance i 8 i.cycle.toNat).creditInfo i dline) (htag ▸ State.clearIssue_isPart hissue) rfl
  refine ⟨_, exec_send_uncredited srcline plane dest dline xfer add hissue hline hremote hports hnone, hspad, ?_,
    AbortsIn.of_advance (htag ▸ haborts)⟩
  rw [hviolations, State.tile_advance]

/-! ## SENDR -/

/-- Flits enter the mesh one after the other. -/
def State.injectAll (u : State) (fs : List Flit) : State := { u with mesh := { u.mesh with flits := u.mesh.flits ++ fs } }

theorem State.injectAll_flits (u : State) (fs : List Flit) : (u.injectAll fs).mesh.flits = u.mesh.flits ++ fs := rfl

theorem State.foldl_inject (g : State → Nat → Flit) (hg : ∀ u f k, g (u.inject f) k = g u k) (ks : List Nat) (u : State) :
    ks.foldl (fun a k => a.inject (g a k)) u = u.injectAll (ks.map (g u)) := by
  induction ks generalizing u with
  | nil => simp [State.injectAll]
  | cons k ks ih =>
    rw [List.foldl_cons, ih, List.map_congr_left fun x _ => hg u (g u k) x, State.inject]
    simp [State.injectAll]

/-- The flit of a SENDR with part `k` of what its register gives (R147, R185, R336); `digest`: it goes to the digest tree. -/
def State.registerFlit (u : State) (i : Issue) (tag : Tag) (o : RegOut) (digest plane : Bool) (dest : TileNo) (port : BitVec 2)
    (dline : BitVec 12) (xfer : BitVec 8) (anyc : Bool) (k : Nat) : Flit :=
  let l := lineOfWords ((o.vals.drop (32 * k)).take 32)
  { add := true, src := i.tile, dest := dest, port := port, line := dline + BitVec.ofNat 12 k, tag := tag, xfer := xfer, count := 1
    res := flitRes l, plane := plane, data := l, frame := u.fu.frame, sent := i.cycle.toNat + k, hop := 0, reg := true, anyc := anyc
    pred := if digest then o.pred[k]? else none, stream := i.stream, void := false }

theorem exec_sendr (src : Bool) (bank : BitVec 2) (reg : BitVec 4) (shift : BitVec 5) (plane : Bool) (dest : TileNo) (port : BitVec 2)
    (dline : BitVec 12) (xfer : BitVec 8) (anyc : Bool) (hissue : s.clearIssue i 5 = true) (hreg : regFieldsOk src bank reg shift = true)
    (hfields : sendFieldsOk i.tile dest port anyc = true)
    (hpending : (s.tile i.tile.toNat).pendingInto s.fu.frame i.cycle.toNat src bank.toNat reg.toNat = none)
    (hown : ((s.tile i.tile.toNat).register src bank.toNat reg.toNat).foreign (s.strm i).tag = false) (hupset : i.upset = false)
    (hcredit : s.sendable i dest port dline.toNat 8 anyc) :
    let r := (s.tile i.tile.toNat).register src bank.toNat reg.toNat
    let o := r.out src shift.toNat
    let u := (s.advance i 5 i.cycle.toNat).spent i dest port dline.toNat 8 anyc
    let digest := decide (port = 1) && (endpointAt dest.toNat).isSome && !r.noPred
    exec (.sendr i src bank reg shift plane dest port dline xfer 0 anyc) s =
      .next ((u.injectAll ((List.range 8).map (u.registerFlit i (s.strm i).tag o digest plane dest port dline xfer anyc))).charge i
        (if o.povf then 1 else 0)) := by
  intro r o u digest
  have hr : ((s.advance i 5 i.cycle.toNat).tile i.tile.toNat).register src bank.toNat reg.toNat = r := by
    rw [State.tile_advance]
    rfl
  have hnone : ((s.advance i 5 i.cycle.toNat).tile i.tile.toNat).pendingInto s.fu.frame i.cycle.toNat src bank.toNat reg.toNat = none := by
    rw [← hpending]
    exact Tile.pendingInto_congr (by rw [State.tile_advance]) _ _ _ _ _
  change execSendr i src bank reg shift plane dest port dline xfer 0 anyc s = _
  rw [execSendr, State.issue_clear s i 5 _ _ _ hissue (by simp [hreg, hfields])]
  refine congrArg Host.Outcome.next ?_
  simp only [State.readReg, State.advance_frame, hnone, hr, State.advance_tag]
  rw [if_neg (by rw [hown]; decide), if_neg (by simp [hupset]), State.withCredit_sendable _ (State.sendable_advance hcredit)]
  exact congrArg (fun a : State => a.charge i (if o.povf then 1 else 0)) (State.foldl_inject
    (fun a k => a.registerFlit i (s.strm i).tag o digest plane dest port dline xfer anyc k) (fun _ _ _ => rfl) (List.range 8) u)

theorem State.charge_mesh (u : State) (n : Nat) : (u.charge i n).mesh = u.mesh := by
  unfold State.charge
  split <;> rfl

theorem sendr_injects (src : Bool) (bank : BitVec 2) (reg : BitVec 4) (shift : BitVec 5) (plane : Bool) (dest : TileNo) (port : BitVec 2)
    (dline : BitVec 12) (xfer : BitVec 8) (anyc : Bool) (hissue : s.clearIssue i 5 = true) (hreg : regFieldsOk src bank reg shift = true)
    (hfields : sendFieldsOk i.tile dest port anyc = true)
    (hpending : (s.tile i.tile.toNat).pendingInto s.fu.frame i.cycle.toNat src bank.toNat reg.toNat = none)
    (hown : ((s.tile i.tile.toNat).register src bank.toNat reg.toNat).foreign (s.strm i).tag = false) (hupset : i.upset = false)
    (hcredit : s.sendable i dest port dline.toNat 8 anyc) :
    let r := (s.tile i.tile.toNat).register src bank.toNat reg.toNat
    ∃ t, exec (.sendr i src bank reg shift plane dest port dline xfer 0 anyc) s = .next t ∧ t.spad = s.spad ∧
      t.mesh.flits.length = s.mesh.flits.length + 8 ∧ s.mesh.flits <+: t.mesh.flits ∧
      ∀ k, k < 8 → ∀ f, t.mesh.flits[s.mesh.flits.length + k]? = some f →
        f.add = true ∧ f.dest = dest ∧ f.port = port ∧ f.line = dline + BitVec.ofNat 12 k ∧ f.count = 1 ∧
        f.sent = i.cycle.toNat + k ∧ f.tag = (s.strm i).tag ∧
        f.data = lineOfWords (((r.out src shift.toNat).vals.drop (32 * k)).take 32) := by
  intro r
  refine ⟨_, exec_sendr src bank reg shift plane dest port dline xfer anyc hissue hreg hfields hpending hown hupset hcredit, ?_, ?_⟩
  · rw [State.charge_spad]
    exact State.spent_spad _ _ _ _ _ _ _
  · rw [State.charge_mesh, State.injectAll_flits, State.spent_mesh, show (s.advance i 5 i.cycle.toNat).mesh = s.mesh from rfl]
    refine ⟨by simp, List.prefix_append _ _, fun k hk f hf => ?_⟩
    rw [List.getElem?_append_right (Nat.le_add_right _ _), Nat.add_sub_cancel_left, List.getElem?_map, List.getElem?_range hk] at hf
    obtain rfl := Option.some.inj hf
    exact ⟨rfl, rfl, rfl, rfl, rfl, rfl, rfl, rfl⟩

end Sys2Proof.Machine
end

section
open Sys2Proof Sys2Proof.Machine

/-- Settles O16: `send_injects`, `send_violates` and `sendr_injects`. -/
theorem sendsInjectFlits : Obligations.SendsInjectFlits := by
  unfold Obligations.SendsInjectFlits
  refine ⟨fun i srcline plane dest port dline xfer add anyc s => send_injects srcline plane dest port dline xfer add anyc,
    fun i srcline plane dest dline xfer add s => send_violates srcline plane dest dline xfer add, ?_⟩
  exact fun i src bank reg shift plane dest port dline xfer anyc s => sendr_injects src bank reg shift plane dest port dline xfer anyc

end

section
/-! SUPPORT. What a channel holds once a message has entered it (R154, R155), faults of the instruction that has just issued, and load
entries issued and claimed (R136, R193). -/

namespace Sys2Proof.Machine

variable {s : State} {i : Issue}

/-! ## Messages on their way -/

/-- The message that enters a channel (R147, R155). -/
def State.msgOf (s : State) (src dest port : Nat) (tag : Tag) (time : Nat) (m : MeshMsg) : Msg :=
  { src := src, dest := dest, port := port, tag := tag, seq := SMap.get s.mesh.seqs 0 (8 * src + m.chan.num)
    time := if m.chan = .vc1 then max time (SMap.get s.mesh.nextVc1 0 src) else time, msg := m }

theorem State.chan_sendMsg (s : State) (src dest port : Nat) (tag : Tag) (time : Nat) (m : MeshMsg) (c : Chan) :
    (s.sendMsg src dest port tag time m).mesh.chan c =
      if c = m.chan then s.mesh.chan c ++ [s.msgOf src dest port tag time m] else s.mesh.chan c := by
  unfold State.sendMsg State.msgOf
  cases m.chan <;> cases c <;> rfl

theorem State.chan_sendMsg_same (s : State) (src dest port : Nat) (tag : Tag) (time : Nat) (m : MeshMsg) :
    (s.sendMsg src dest port tag time m).mesh.chan m.chan = s.mesh.chan m.chan ++ [s.msgOf src dest port tag time m] := by
  rw [State.chan_sendMsg, if_pos rfl]

/-- A message that enters a channel changes the mesh. -/
theorem State.sendMsg_frame (s : State) (src dest port : Nat) (tag : Tag) (time : Nat) (m : MeshMsg) :
    s.sendMsg src dest port tag time m = { s with mesh := (s.sendMsg src dest port tag time m).mesh } := rfl

/-! ## Faults of the instruction that has just issued -/

theorem State.ownFault_aborts {code unit : BitVec 8} {detail : BitVec 32} (h : Tag.isPart (s.strm i).tag = true) :
    AbortsIn (s.strm i).tag.toNat s (s.ownFault i code unit detail) :=
  State.fault_aborts s { s.issueFault i code unit i.cycle.toNat detail with iaddr := (s.issueFault i code unit i.cycle.toNat detail).iaddr - 1 } h

/-! ## Entries -/

/-- What a load entry is once a queue instruction has issued it (R193). -/
def State.issuedEntry (s : State) (i : Issue) (line lines epoch : Nat) : QEntry :=
  { st := .issued, tag := (s.strm i).tag, stream := i.stream, toHalf := none, line := line, lines := lines, done := 0, acked := 0, addr := 0
    epoch := epoch }

theorem State.load_issueLoad (s : State) (i : Issue) (entry line lines : Nat) :
    ((s.issueLoad i entry none false line lines 0).tile i.tile.toNat).load entry =
      s.issuedEntry i line lines ((s.tile i.tile.toNat).load entry).epoch := by
  rw [State.issueLoad, State.tile_updTile_same]
  simp only [Tile.load, SMap.get_upd, if_true]
  rfl

/-- A claim of a load entry frees it, keeps its epoch, and leaves the other load entries alone (R136). -/
theorem Tile.load_claim (t : Tile) {n : Nat} (hn : n < 64) (k : Nat) :
    (t.claim n).load k = if k = n then { epoch := (t.load n).epoch } else t.load k := by
  have hloads : (t.claim n).loads = SMap.set t.loads {} n { epoch := (t.load n).epoch } := by
    unfold Tile.claim Tile.setHalf
    rw [if_pos hn]
    dsimp only
    (repeat' split) <;> rfl
  rw [Tile.load, hloads, SMap.get_set]
  rfl

/-- A claim of a store entry frees it, keeps its epoch, and leaves the load entries alone. -/
theorem Tile.claim_store (t : Tile) (n : Nat) :
    t.claim (64 + n) = { t with stores := SMap.set t.stores {} n { epoch := (t.storeE n).epoch } } := by
  rw [Tile.claim, if_neg (by omega), Nat.add_sub_cancel_left]

theorem Tile.token_of_lt (t : Tile) {n : Nat} (hn : n < 64) : t.token n = t.load n := if_pos hn

theorem Tile.token_store (t : Tile) (n : Nat) : t.token (64 + n) = t.storeE n := by
  rw [Tile.token, if_neg (by omega), Nat.add_sub_cancel_left]

/-- The tokens of the issuing tile are those before the advance. -/
theorem State.token_advance (port c n : Nat) : ((s.advance i port c).tile i.tile.toNat).token n = (s.tile i.tile.toNat).token n := by
  rw [State.tile_advance]
  rfl

end Sys2Proof.Machine
end

section
/-! Certificate of O18: RECV, WAIT and CREDIT (R130, R131, R186, R189, R190, R193, R194), a lemma for each outcome. -/

namespace Sys2Proof.Machine

variable {s : State} {i : Issue}

/-! ## WAIT -/

theorem exec_wait (token : BitVec 7) (hissue : s.clearIssue i 10 = true) (htoken : token.toNat < 96) :
    let u := s.advance i 10 i.cycle.toNat
    let e := (s.tile i.tile.toNat).token token.toNat
    exec (.wait i token 0) s = .next (
      if e.st = .free then u.ownFault i 0x04 0x4C (token.setWidth 32)
      else if e.st = .complete ∧ e.doneAt < s.now (s.heldAt i.cycle.toNat).1 then u.updTile i.tile.toNat (fun t => t.claim token.toNat)
      else u.holdFor i token.toNat e) := by
  intro u e
  have htok : (u.tile i.tile.toNat).token token.toNat = e := State.token_advance 10 _ _
  change execWait i token 0 s = _
  rw [execWait, State.issue_clear s i 10 _ _ _ hissue (by simp [htoken])]
  dsimp only
  rw [htok]
  rfl

/-- A WAIT on an entry that was Complete a cycle before claims it. -/
theorem exec_wait_complete (token : BitVec 7) (hissue : s.clearIssue i 10 = true) (htoken : token.toNat < 96)
    (hst : ((s.tile i.tile.toNat).token token.toNat).st = .complete)
    (hdone : ((s.tile i.tile.toNat).token token.toNat).doneAt < s.now (s.heldAt i.cycle.toNat).1) :
    exec (.wait i token 0) s = .next ((s.advance i 10 i.cycle.toNat).updTile i.tile.toNat (fun t => t.claim token.toNat)) := by
  rw [exec_wait token hissue htoken, if_neg (by rw [hst]; decide), if_pos ⟨hst, hdone⟩]

theorem wait_claimsLoad (token : BitVec 7) (hissue : s.clearIssue i 10 = true) (htoken : token.toNat < 64)
    (hst : ((s.tile i.tile.toNat).load token.toNat).st = .complete)
    (hdone : ((s.tile i.tile.toNat).load token.toNat).doneAt < s.now (s.heldAt i.cycle.toNat).1) :
    ∃ t, exec (.wait i token 0) s = .next t ∧ t.spad = s.spad ∧ t.fu.hold = s.fu.hold ∧
      (t.tile i.tile.toNat).load token.toNat = { epoch := ((s.tile i.tile.toNat).load token.toNat).epoch } ∧
      (∀ k, k ≠ token.toNat → (t.tile i.tile.toNat).load k = (s.tile i.tile.toNat).load k) := by
  rw [← Tile.token_of_lt _ htoken] at hst hdone
  have hload (k : Nat) : ((s.advance i 10 i.cycle.toNat).tile i.tile.toNat).load k = (s.tile i.tile.toNat).load k := by
    rw [State.tile_advance]
    rfl
  refine ⟨_, exec_wait_complete token hissue (by omega) hst hdone, by simp, rfl, ?_, fun k hk => ?_⟩
  · rw [State.tile_updTile_same, Tile.load_claim _ htoken, if_pos rfl, hload]
  · rw [State.tile_updTile_same, Tile.load_claim _ htoken, if_neg hk, hload]

theorem wait_claimsStore (token : BitVec 7) (n : Nat) (hissue : s.clearIssue i 10 = true) (htoken : token.toNat = 64 + n) (hn : n < 32)
    (hst : ((s.tile i.tile.toNat).storeE n).st = .complete)
    (hdone : ((s.tile i.tile.toNat).storeE n).doneAt < s.now (s.heldAt i.cycle.toNat).1) :
    ∃ t, exec (.wait i token 0) s = .next t ∧ t.spad = s.spad ∧ t.fu.hold = s.fu.hold ∧
      (t.tile i.tile.toNat).storeE n = { epoch := ((s.tile i.tile.toNat).storeE n).epoch } ∧
      (t.tile i.tile.toNat).loads = (s.tile i.tile.toNat).loads := by
  rw [← Tile.token_store, ← htoken] at hst hdone
  refine ⟨_, exec_wait_complete token hissue (by omega) hst hdone, by simp, rfl, ?_, ?_⟩
  · rw [State.tile_updTile_same, htoken, Tile.claim_store, State.tile_advance]
    exact SMap.get_set_same (s.tile i.tile.toNat).stores {} n _
  · rw [State.tile_updTile_same, htoken, Tile.claim_store, State.tile_advance]

/-- The die held at the cycle of an unsatisfied WAIT, where it did not stand before (R194). -/
def State.firstHold (s : State) (i : Issue) (token : Nat) : State :=
  s.updFu (fun f => { f with
    hold := some (i.cycle.toNat, s.realOf i.cycle.toNat, [(i.tile, token, (s.strm i).tag)])
    causes := if f.causes.contains (s.strm i).tag then f.causes else f.causes ++ [(s.strm i).tag] })

theorem State.holdFor_first (token : Nat) (e : QEntry) (h : s.fu.hold = none) :
    s.holdFor i token e =
      if e.st = .complete then (s.firstHold i token).resume (e.doneAt - s.fu.base) else s.firstHold i token := by
  unfold State.holdFor State.heldAt
  rw [h]
  rfl

theorem wait_holds (token : BitVec 7) (hissue : s.clearIssue i 10 = true) (htoken : token.toNat < 96)
    (hst : ((s.tile i.tile.toNat).token token.toNat).st = .issued) (hhold : s.fu.hold = none) (hcauses : s.fu.causes = []) :
    ∃ t, exec (.wait i token 0) s = .next t ∧ t.spad = s.spad ∧
      t.fu.hold = some (i.cycle.toNat, s.realOf i.cycle.toNat, [(i.tile, token.toNat, (s.strm i).tag)]) ∧ t.fu.causes = [(s.strm i).tag] := by
  have hexec : exec (.wait i token 0) s = .next ((s.advance i 10 i.cycle.toNat).firstHold i token.toNat) := by
    rw [exec_wait token hissue htoken, if_neg (by rw [hst]; decide), if_neg (by rw [hst]; simp),
      State.holdFor_first (s := s.advance i 10 i.cycle.toNat) _ _ hhold, if_neg (by rw [hst]; decide)]
  refine ⟨_, hexec, by simp [State.firstHold], ?_, ?_⟩
  · rw [State.firstHold, State.advance_tag]
    rfl
  · change (if s.fu.causes.contains _ then s.fu.causes else s.fu.causes ++ [_]) = _
    rw [hcauses, State.advance_tag]
    rfl

/-- Where the awaited entry is Complete, the end of the hold claims it and charges the cycles that the counter stood (R194, R195). -/
theorem State.resume_firstHold (rc : Nat) {token : Nat} (hst : ((s.tile i.tile.toNat).token token).st = .complete) :
    (s.firstHold i token).resume rc = (s.firstHold i token).endHoldWith (rc + 1 - s.realOf i.cycle.toNat) [(i.tile, token, (s.strm i).tag)] := by
  have hdone : (s.firstHold i token).waitsDone [(i.tile, token, (s.strm i).tag)] = true := by
    simpa [State.waitsDone, State.firstHold] using hst
  exact if_pos hdone

theorem wait_holdsFor (token : BitVec 7) (d : Nat) (hissue : s.clearIssue i 10 = true) (htoken : token.toNat < 64)
    (hst : ((s.tile i.tile.toNat).load token.toNat).st = .complete) (hhold : s.fu.hold = none)
    (hdone : ((s.tile i.tile.toNat).load token.toNat).doneAt = s.now (s.realOf i.cycle.toNat) + d) :
    ∃ t, exec (.wait i token 0) s = .next t ∧ t.spad = s.spad ∧ t.fu.hold = none ∧ t.fu.held = s.fu.held + (d + 1) ∧
      (t.tile i.tile.toNat).load token.toNat = { epoch := ((s.tile i.tile.toNat).load token.toNat).epoch } := by
  rw [← Tile.token_of_lt _ htoken] at hst hdone
  let u := s.advance i 10 i.cycle.toNat
  have htok : (u.tile i.tile.toNat).token token.toNat = (s.tile i.tile.toNat).token token.toNat := State.token_advance 10 _ _
  have hlength : ((s.tile i.tile.toNat).token token.toNat).doneAt - u.fu.base + 1 - u.realOf i.cycle.toNat = d + 1 := by
    rw [hdone]
    change s.fu.base + s.realOf i.cycle.toNat + d - s.fu.base + 1 - s.realOf i.cycle.toNat = d + 1
    omega
  have hexec : exec (.wait i token 0) s =
      .next ((u.firstHold i token.toNat).endHoldWith (d + 1) [(i.tile, token.toNat, (u.strm i).tag)]) := by
    rw [exec_wait token hissue (by omega), if_neg (by rw [hst]; decide), if_neg, State.holdFor_first (s := u) _ _ hhold, if_pos hst,
      State.resume_firstHold _ (by rw [htok, hst]), hlength]
    rw [State.heldAt, hhold, hdone]
    exact fun h => absurd h.2 (Nat.not_lt.2 (Nat.le_add_right _ _))
  refine ⟨_, hexec, ?_, ?_, ?_, ?_⟩
  · rw [State.endHoldWith_eq]
    rfl
  · rw [State.endHoldWith_eq]
  · rw [State.endHoldWith_eq]
    rfl
  · rw [State.endHoldWith_eq]
    change (((u.firstHold i token.toNat).updTile i.tile.toNat (fun t => t.claim token.toNat)).tile i.tile.toNat).load token.toNat = _
    rw [State.tile_updTile_same, Tile.load_claim _ htoken, if_pos rfl]
    change ({ epoch := ((u.tile i.tile.toNat).load token.toNat).epoch } : QEntry) = _
    rw [← Tile.token_of_lt _ htoken, htok, Tile.token_of_lt _ htoken]

theorem wait_free_aborts (token : BitVec 7) (hissue : s.clearIssue i 10 = true) (htoken : token.toNat < 96)
    (hst : ((s.tile i.tile.toNat).token token.toNat).st = .free) :
    ∃ t, exec (.wait i token 0) s = .next t ∧ t.spad = s.spad ∧ AbortsIn (s.strm i).tag.toNat s t := by
  have htag := s.advance_tag i 10 i.cycle.toNat
  have haborts := State.ownFault_aborts (s := s.advance i 10 i.cycle.toNat) (i := i) (code := 0x04) (unit := 0x4C)
    (detail := token.setWidth 32) (by rw [htag]; exact State.clearIssue_isPart hissue)
  rw [htag] at haborts
  exact ⟨_, by rw [exec_wait token hissue htoken, if_pos hst], by simp, haborts.of_advance⟩

/-! ## CREDIT -/

/-- A CREDIT is refused: its range is too long, leaves the scratchpad, or its entry or its lines are those of a live credit (R131). -/
def Tile.refusesCredit (t : Tile) (base : BitVec 12) (count : BitVec 7) (entry : BitVec 4) : Bool :=
  decide (64 < count.toNat ∨ 3072 < base.toNat + count.toNat) ||
    t.credits.any (fun x => x.2.live && (decide (x.1 = entry.toNat) || rangesMeet x.2.base.toNat x.2.count.toNat base.toNat count.toNat))

/-- The credit that a CREDIT sets up (R130). -/
def State.creditOf (s : State) (i : Issue) (any : Bool) (writer : TileNo) (base : BitVec 12) (count : BitVec 7) : Credit :=
  { live := true, any := any, writer := writer, tag := (s.strm i).tag, base := base, count := count, remain := count }

/-- A credit stands in its entry of the issuing tile. -/
def State.putCredit (u : State) (i : Issue) (entry : BitVec 4) (c : Credit) : State :=
  u.setTile i.tile.toNat { u.tile i.tile.toNat with credits := SMap.set (u.tile i.tile.toNat).credits {} entry.toNat c }

theorem State.putCredit_get (u : State) (i : Issue) (entry : BitVec 4) (c : Credit) :
    SMap.get ((u.putCredit i entry c).tile i.tile.toNat).credits {} entry.toNat = c := by
  rw [State.putCredit, State.tile_setTile_same]
  exact SMap.get_set_same (u.tile i.tile.toNat).credits {} entry.toNat c

@[simp] theorem State.putCredit_spad (u : State) (i : Issue) (entry : BitVec 4) (c : Credit) : (u.putCredit i entry c).spad = u.spad := rfl

/-- The fault of a CREDIT that is refused (R131). -/
def State.refusalInfo (u : State) (i : Issue) (base : BitVec 12) : FaultInfo :=
  { u.issueFault i 0x03 0x4B i.cycle.toNat (base.setWidth 32) with iaddr := BitVec.ofNat 14 (u.strm i).pc - 1 }

theorem exec_credit (any : Bool) (writer : TileNo) (base : BitVec 12) (count : BitVec 7) (entry : BitVec 4)
    (hissue : s.clearIssue i 9 = true) (hcount : count ≠ 0) :
    let u := s.advance i 9 i.cycle.toNat
    let c := s.creditOf i any writer base count
    exec (.credit i any writer base count entry 0) s = .next (
      if (s.tile i.tile.toNat).refusesCredit base count entry then u.creditFault (u.refusalInfo i base)
      else if any then u.putCredit i entry c
      else (u.putCredit i entry c).sendMsg i.tile.toNat writer.toNat 0 (s.strm i).tag (u.issuedAt i) (.grant entry.toNat c)) := by
  intro u c
  have hbad : (u.tile i.tile.toNat).refusesCredit base count entry = (s.tile i.tile.toNat).refusesCredit base count entry := by
    rw [State.tile_advance]
    rfl
  have htag : (u.strm i).tag = (s.strm i).tag := s.advance_tag i 9 _
  change execCredit i any writer base count entry 0 s = _
  rw [execCredit, State.issue_clear s i 9 _ _ _ hissue (decide_eq_true ⟨rfl, hcount⟩)]
  refine congrArg Host.Outcome.next ?_
  dsimp only
  rw [← Bool.decide_or, ← hbad, htag]
  rfl

theorem credit_grants (any : Bool) (writer : TileNo) (base : BitVec 12) (count : BitVec 7) (entry : BitVec 4)
    (hissue : s.clearIssue i 9 = true) (hcount : count ≠ 0) (hfree : (s.tile i.tile.toNat).refusesCredit base count entry = false) :
    let c := s.creditOf i any writer base count
    ∃ t, exec (.credit i any writer base count entry 0) s = .next t ∧ t.spad = s.spad ∧
      SMap.get (t.tile i.tile.toNat).credits {} entry.toNat = c ∧
      t.mesh.vc1.map Msg.says = s.mesh.vc1.map Msg.says ++
        (if any then [] else [(i.tile.toNat, writer.toNat, 0, (s.strm i).tag, .grant entry.toNat c)]) := by
  intro c
  refine ⟨_, by rw [exec_credit any writer base count entry hissue hcount, if_neg (by rw [hfree]; decide)], ?_, ?_, ?_⟩
  · split <;> simp
  · split <;> exact State.putCredit_get _ i entry c
  · split
    · exact (List.append_nil _).symm
    next hany =>
      have hsent := State.chan_sendMsg_same ((s.advance i 9 i.cycle.toNat).putCredit i entry c) i.tile.toNat writer.toNat 0 (s.strm i).tag
        ((s.advance i 9 i.cycle.toNat).issuedAt i) (.grant entry.toNat c)
      exact (congrArg (List.map Msg.says) hsent).trans (List.map_append ..)

theorem credit_violates (any : Bool) (writer : TileNo) (base : BitVec 12) (count : BitVec 7) (entry : BitVec 4)
    (hissue : s.clearIssue i 9 = true) (hcount : count ≠ 0) (hbad : (s.tile i.tile.toNat).refusesCredit base count entry = true) :
    ∃ t, exec (.credit i any writer base count entry 0) s = .next t ∧
      (t.tile i.tile.toNat).credits = (s.tile i.tile.toNat).credits ∧
      (t.tile i.tile.toNat).violations = bump32 (s.tile i.tile.toNat).violations ∧ AbortsIn (s.strm i).tag.toNat s t := by
  have htag : ((s.advance i 9 i.cycle.toNat).refusalInfo i base).tag = (s.strm i).tag := s.advance_tag i 9 i.cycle.toNat
  obtain ⟨-, hcredits, hviolations, haborts⟩ := State.creditFault_violates (s := s.advance i 9 i.cycle.toNat) (k := i.tile)
    (f := (s.advance i 9 i.cycle.toNat).refusalInfo i base) (htag ▸ State.clearIssue_isPart hissue) rfl
  refine ⟨_, by rw [exec_credit any writer base count entry hissue hcount, if_pos hbad], ?_, ?_, AbortsIn.of_advance (htag ▸ haborts)⟩
  · rw [hcredits, State.tile_advance]
  · rw [hviolations, State.tile_advance]

/-! ## RECV -/

/-- A RECV's place in the queue of its receive entry (R186): tile, load entry, first slot, lines, landing line, epoch. -/
def State.recvOf (s : State) (i : Issue) (entry : BitVec 6) (off n line : Nat) : TileNo × Nat × Nat × Nat × Nat × Nat :=
  (i.tile, entry.toNat, off, n, line, ((s.tile i.tile.toNat).load entry.toNat).epoch)

/-- A receive entry with one more RECV waiting. -/
def Endpoint.addRecv (e : Endpoint) (k : Nat) (r : TileNo × Nat × Nat × Nat × Nat × Nat) : Endpoint :=
  { e with rxEnts := SMap.upd e.rxEnts {} k (fun y => { y with recvs := y.recvs ++ [r] }) }

/-- The load entry is Issued and the receive entry has the RECV waiting (R186, R193). -/
def State.recvQueued (s : State) (i : Issue) (l k : Nat) (entry : BitVec 6) (off n line : Nat) : State :=
  let u := (s.advance i 8 i.cycle.toNat).issueLoad i entry.toNat none false line n 0
  u.setLink l ((u.link l).addRecv k (s.recvOf i entry off n line))

variable {link : BitVec 4} {slot line : BitVec 12} {lines entry : BitVec 6} {k : Nat} {x : Xfer}

theorem exec_recv (hissue : s.clearIssue i 8 = true) (hlink : link.toNat ≤ 10) (hslot : slot.toNat ≤ 2047)
    (hline : line.toNat + lines.toNat ≤ 3071) (hfree : ((s.tile i.tile.toNat).load entry.toNat).st = .free)
    (hrx : (s.link link.toNat).rxAt slot.toNat = some (k, x)) (htag : x.tag = (s.strm i).tag)
    (hfit : slot.toNat - x.base.toNat + (lines.toNat + 1) ≤ x.lines)
    (hready : (s.link link.toNat).full x = true ∨
      ¬ ((s.stepPos i).1 < x.frameOff.toNat ∨ ((s.stepPos i).1 = x.frameOff.toNat ∧ (s.stepPos i).2 < x.cycle.toNat))) :
    exec (.recv i link slot line lines entry 0) s =
      .next ((s.recvQueued i link.toNat k entry (slot.toNat - x.base.toNat) (lines.toNat + 1) line.toNat).entryEvent link.toNat k) := by
  have hload : ((s.advance i 8 i.cycle.toNat).tile i.tile.toNat).load entry.toNat = (s.tile i.tile.toNat).load entry.toNat := by
    rw [State.tile_advance]
    rfl
  have hpos : (s.advance i 8 i.cycle.toNat).stepPos i = s.stepPos i := by
    rw [State.stepPos, State.advance_tag]
    rfl
  have hlinks : (s.advance i 8 i.cycle.toNat).link link.toNat = s.link link.toNat := rfl
  change execRecv i link slot line lines entry 0 s = _
  rw [execRecv, State.issue_clear s i 8 _ _ _ hissue (by simp [hlink, hslot, hline])]
  refine congrArg Host.Outcome.next ?_
  simp only [hload, hlinks, hrx, hpos, State.advance_tag]
  rw [if_neg (by rw [hfree]; simp), if_neg (not_or.2 ⟨not_not.2 htag, by omega⟩), if_neg]
  · rfl
  · exact fun h => hready.elim (fun hfull => by simp [hfull] at h) fun hcome => hcome (of_decide_eq_true h.2)

theorem State.entryEvent_of_incomplete {l : Nat} (hclear : (SMap.get (s.link l).rxEnts {} k).clear = 0)
    (hfull : (s.link l).full (SMap.get (s.link l).rxEnts {} k) = false) : s.entryEvent l k = s := by
  unfold State.entryEvent
  dsimp only
  rw [if_neg fun h => h.1 hclear, if_pos hfull]

theorem State.entryEvent_of_done {l : Nat} (hclear : (SMap.get (s.link l).rxEnts {} k).clear = 0)
    (hfull : (s.link l).full (SMap.get (s.link l).rxEnts {} k) = true) (hdone : (SMap.get (s.link l).rxEnts {} k).done = true) :
    s.entryEvent l k = s.serveRecvs l k := by
  unfold State.entryEvent
  dsimp only
  rw [if_neg fun h => h.1 hclear, if_neg (by rw [hfull]; decide), if_pos hdone]

theorem Endpoint.get_addRecv (e : Endpoint) (k : Nat) (r : TileNo × Nat × Nat × Nat × Nat × Nat) :
    SMap.get (e.addRecv k r).rxEnts {} k = { SMap.get e.rxEnts {} k with recvs := (SMap.get e.rxEnts {} k).recvs ++ [r] } := by
  rw [Endpoint.addRecv, SMap.get_upd, if_pos rfl]

theorem Endpoint.full_addRecv (e : Endpoint) (k : Nat) (r : TileNo × Nat × Nat × Nat × Nat × Nat) (x : Xfer)
    (rs : List (TileNo × Nat × Nat × Nat × Nat × Nat)) : (e.addRecv k r).full { x with recvs := rs } = e.full x := rfl

variable {l off n ln : Nat}

theorem State.recvQueued_link : (s.recvQueued i l k entry off n ln).link l = (s.link l).addRecv k (s.recvOf i entry off n ln) := by
  rw [State.recvQueued, State.link_setLink, if_pos rfl]
  rfl

theorem State.recvQueued_spad : (s.recvQueued i l k entry off n ln).spad = s.spad := rfl

theorem State.recvQueued_parts : (s.recvQueued i l k entry off n ln).parts = s.parts := rfl

theorem State.recvQueued_mesh : (s.recvQueued i l k entry off n ln).mesh = s.mesh := by
  rw [State.recvQueued, State.setLink_mesh, State.issueLoad, State.updTile_mesh]
  rfl

theorem State.recvQueued_load :
    ((s.recvQueued i l k entry off n ln).tile i.tile.toNat).load entry.toNat =
      s.issuedEntry i ln n ((s.tile i.tile.toNat).load entry.toNat).epoch := by
  have hload := (s.advance i 8 i.cycle.toNat).load_issueLoad i entry.toNat ln n
  rw [State.issuedEntry, State.advance_tag, State.tile_advance] at hload
  exact hload

theorem recv_waits (hissue : s.clearIssue i 8 = true) (hlink : link.toNat ≤ 10) (hslot : slot.toNat ≤ 2047)
    (hline : line.toNat + lines.toNat ≤ 3071) (hfree : ((s.tile i.tile.toNat).load entry.toNat).st = .free)
    (hrx : (s.link link.toNat).rxAt slot.toNat = some (k, x)) (hx : SMap.get (s.link link.toNat).rxEnts {} k = x)
    (htag : x.tag = (s.strm i).tag) (hfit : slot.toNat - x.base.toNat + (lines.toNat + 1) ≤ x.lines)
    (hfull : (s.link link.toNat).full x = false) (hclear : x.clear = 0)
    (hcome : ¬ ((s.stepPos i).1 < x.frameOff.toNat ∨ ((s.stepPos i).1 = x.frameOff.toNat ∧ (s.stepPos i).2 < x.cycle.toNat))) :
    ∃ t, exec (.recv i link slot line lines entry 0) s = .next t ∧ t.spad = s.spad ∧ t.parts = s.parts ∧ t.mesh = s.mesh ∧
      (t.tile i.tile.toNat).load entry.toNat =
        s.issuedEntry i line.toNat (lines.toNat + 1) ((s.tile i.tile.toNat).load entry.toNat).epoch ∧
      SMap.get (t.link link.toNat).rxEnts {} k =
        { x with recvs := x.recvs ++ [s.recvOf i entry (slot.toNat - x.base.toNat) (lines.toNat + 1) line.toNat] } := by
  have hget := (s.link link.toNat).get_addRecv k (s.recvOf i entry (slot.toNat - x.base.toNat) (lines.toNat + 1) line.toNat)
  rw [hx] at hget
  refine ⟨_, exec_recv hissue hlink hslot hline hfree hrx htag hfit (.inr hcome), ?_⟩
  rw [State.entryEvent_of_incomplete (by rw [State.recvQueued_link, hget]; exact hclear)
    (by rw [State.recvQueued_link, hget, Endpoint.full_addRecv, hfull])]
  exact ⟨State.recvQueued_spad, State.recvQueued_parts, State.recvQueued_mesh, State.recvQueued_load, by rw [State.recvQueued_link, hget]⟩

/-! ## RECV of a complete entry -/

/-- What a message tells a tile: its destination, its tag and what it says. -/
def Msg.brings (m : Msg) : Nat × Tag × MeshMsg := (m.dest, m.tag, m.msg)

theorem State.foldl_sendMsg_frame (src dest port : Nat) (tag : Tag) (time : Nat) (f : Nat → MeshMsg) (ks : List Nat) (u : State) :
    ks.foldl (fun t k => t.sendMsg src dest port tag time (f k)) u =
      { u with mesh := (ks.foldl (fun t k => t.sendMsg src dest port tag time (f k)) u).mesh } := by
  induction ks generalizing u with
  | nil => rfl
  | cons k ks ih =>
    rw [List.foldl_cons, ih]
    rfl

/-- Messages sent one after the other stand at the end of their channel. -/
theorem State.foldl_sendMsg_brings (src dest port : Nat) (tag : Tag) (time : Nat) (f : Nat → MeshMsg) (c : Chan) (hf : ∀ k, (f k).chan = c)
    (ks : List Nat) (u : State) :
    ((ks.foldl (fun t k => t.sendMsg src dest port tag time (f k)) u).mesh.chan c).map Msg.brings =
      (u.mesh.chan c).map Msg.brings ++ ks.map (fun k => (dest, tag, f k)) := by
  induction ks generalizing u with
  | nil => simp
  | cons k ks ih =>
    rw [List.foldl_cons, ih, State.chan_sendMsg, if_pos (hf k).symm]
    simp [Msg.brings, State.msgOf]

theorem State.freeEntry_frame (u : State) (l k : Nat) : u.freeEntry l k = { u with links := (u.freeEntry l k).links } := by
  unfold State.freeEntry
  dsimp only
  split <;> rfl

/-- The lines that a complete entry sends to its one waiting RECV (R186). -/
def State.recvServed (u : State) (l k : Nat) (r : TileNo × Nat × Nat × Nat × Nat × Nat) : State :=
  let x := SMap.get (u.link l).rxEnts {} k
  (List.range r.2.2.2.1).foldl (fun t j => t.sendMsg (endpointRouter l) r.1.toNat 0 x.tag (u.now (u.realOf u.fu.cycle))
    (.loadData r.2.1 j ((u.link l).slot (x.base.toNat + r.2.2.1 + j)).data r.2.2.2.2.2)) u

theorem State.recvServed_frame (u : State) (l k : Nat) (r : TileNo × Nat × Nat × Nat × Nat × Nat) :
    u.recvServed l k r = { u with mesh := (u.recvServed l k r).mesh } := State.foldl_sendMsg_frame ..

theorem State.recvServed_qresp (u : State) {l k : Nat} (r : TileNo × Nat × Nat × Nat × Nat × Nat) {x : Xfer}
    (hx : SMap.get (u.link l).rxEnts {} k = x) :
    (u.recvServed l k r).mesh.qresp.map Msg.brings = u.mesh.qresp.map Msg.brings ++ (List.range r.2.2.2.1).map (fun j => (r.1.toNat, x.tag,
      .loadData r.2.1 j ((u.link l).slot (x.base.toNat + r.2.2.1 + j)).data r.2.2.2.2.2)) := by
  unfold State.recvServed
  rw [hx]
  exact State.foldl_sendMsg_brings _ _ _ _ _ _ .qresp (fun _ => rfl) _ u

theorem State.serveRecvs_one (u : State) {l k : Nat} {r : TileNo × Nat × Nat × Nat × Nat × Nat}
    (hr : (SMap.get (u.link l).rxEnts {} k).recvs = [r]) :
    (u.serveRecvs l k).tiles = u.tiles ∧ (u.serveRecvs l k).parts = u.parts ∧ (u.serveRecvs l k).mesh = (u.recvServed l k r).mesh := by
  have hlinks : u.serveRecvs l k = { u.recvServed l k r with links := (u.serveRecvs l k).links } := by
    unfold State.serveRecvs
    dsimp only
    rw [hr]
    split
    · rw [State.freeEntry_frame]
      rfl
    · rfl
  rw [hlinks]
  exact ⟨by rw [State.recvServed_frame], by rw [State.recvServed_frame], rfl⟩

theorem recv_serves (hissue : s.clearIssue i 8 = true) (hlink : link.toNat ≤ 10) (hslot : slot.toNat ≤ 2047)
    (hline : line.toNat + lines.toNat ≤ 3071) (hfree : ((s.tile i.tile.toNat).load entry.toNat).st = .free)
    (hrx : (s.link link.toNat).rxAt slot.toNat = some (k, x)) (hx : SMap.get (s.link link.toNat).rxEnts {} k = x)
    (htag : x.tag = (s.strm i).tag) (hfit : slot.toNat - x.base.toNat + (lines.toNat + 1) ≤ x.lines)
    (hfull : (s.link link.toNat).full x = true) (hclear : x.clear = 0) (hdone : x.done = true) (hrecvs : x.recvs = []) :
    ∃ t, exec (.recv i link slot line lines entry 0) s = .next t ∧ t.spad = s.spad ∧ t.parts = s.parts ∧
      ((t.tile i.tile.toNat).load entry.toNat).st = .issued ∧
      t.mesh.qresp.map Msg.brings = s.mesh.qresp.map Msg.brings ++
        (List.range (lines.toNat + 1)).map (fun j => (i.tile.toNat, x.tag,
          .loadData entry.toNat j ((s.link link.toNat).slot (slot.toNat + j)).data ((s.tile i.tile.toNat).load entry.toNat).epoch)) := by
  let r := s.recvOf i entry (slot.toNat - x.base.toNat) (lines.toNat + 1) line.toNat
  let u := s.recvQueued i link.toNat k entry (slot.toNat - x.base.toNat) (lines.toNat + 1) line.toNat
  have hget : SMap.get (u.link link.toNat).rxEnts {} k = { x with recvs := [r] } := by
    rw [State.recvQueued_link, Endpoint.get_addRecv, hx, hrecvs]
    rfl
  have hbase : x.base.toNat ≤ slot.toNat := by
    have hcovers : x.covers slot.toNat = true := List.find?_some (p := fun y : Nat × Xfer => y.2.covers slot.toNat) hrx
    simp only [Xfer.covers, Bool.and_eq_true, decide_eq_true_eq] at hcovers
    exact hcovers.2.1
  have hslots (j : Nat) : ((u.link link.toNat).slot (x.base.toNat + (slot.toNat - x.base.toNat) + j)) =
      (s.link link.toNat).slot (slot.toNat + j) := by
    rw [State.recvQueued_link, Nat.add_sub_cancel' hbase]
    rfl
  obtain ⟨htiles, hparts, hmesh⟩ := State.serveRecvs_one u (l := link.toNat) (k := k) (r := r) (by rw [hget])
  refine ⟨_, exec_recv hissue hlink hslot hline hfree hrx htag hfit (.inl hfull), ?_⟩
  rw [State.entryEvent_of_done (by rw [hget]; exact hclear) (by rw [hget, State.recvQueued_link, Endpoint.full_addRecv, hfull])
    (by rw [hget]; exact hdone), hparts, State.tile_congr htiles, hmesh, State.recvServed_qresp u r hget, State.recvQueued_mesh,
    State.recvQueued_load, State.serveRecvs_spad]
  exact ⟨State.recvQueued_spad, State.recvQueued_parts, rfl, by simp only [r, State.recvOf, hslots]⟩

end Sys2Proof.Machine
end

section
open Sys2Proof Sys2Proof.Machine

/-- Settles O18: `recv_waits` and `recv_serves`; `wait_claimsLoad`, `wait_claimsStore`, `wait_holdsFor`, `wait_holds` and
`wait_free_aborts`; `credit_grants` and `credit_violates`. -/
theorem receivesWaitsAndCredits : Obligations.ReceivesWaitsAndCredits := by
  unfold Obligations.ReceivesWaitsAndCredits
  refine ⟨⟨?_, ?_⟩, ⟨fun i token s => wait_claimsLoad token, fun i token n s => wait_claimsStore token n,
    fun i token d s => wait_holdsFor token d, fun i token s => wait_holds token, fun i token s => wait_free_aborts token⟩, ?_⟩
  · exact fun i link slot line lines entry s k x => recv_waits
  · exact fun i link slot line lines entry s k x => recv_serves
  · exact fun i any writer base count entry s hissue hcount =>
      ⟨credit_grants any writer base count entry hissue hcount, credit_violates any writer base count entry hissue hcount⟩

end

section
/-! Certificate of O20: the dusk work of a tile (R124, R126-R128), a lemma for each command. -/

namespace Sys2Proof.Machine

variable {s : State} {tile : TileNo} {rc : Nat}

/-! ## Write-back and zeroing -/

theorem eccWriteBack_takesFirst (hdusk : s.inDusk rc = true) :
    ∃ t, exec (.eccWriteBack tile rc) s = .next t ∧ (t.tile tile.toNat).writeBack = (s.tile tile.toNat).writeBack.tail ∧ t.spad = s.spad ∧
      (∀ n, n ≠ tile.toNat → t.tile n = s.tile n) := by
  refine ⟨_, if_pos hdusk, ?_, State.updTile_spad .., fun n hn => State.tile_updTile_other _ _ _ _ hn⟩
  rw [State.tile_updTile_same, List.drop_one]

/-- The block after 16 of its lines were cleared in this dusk (R124). -/
def Block.zeroedFrom (b : Block) (frame n : Nat) : Block :=
  { b with powerAt := none, zeroed := if 256 ≤ n + 16 then none else some (n + 16), zeroAt := some frame }

theorem Block.zeroedFrom_eq (b : Block) (frame n : Nat) :
    b.zeroedFrom frame n = { b with powerAt := none, zeroed := if 240 ≤ n then none else some (n + 16), zeroAt := some frame } := by
  have hend : 256 ≤ n + 16 ↔ 240 ≤ n := by omega
  simp only [Block.zeroedFrom, hend]

/-- The device with 16 lines of a block cleared. -/
def State.zeroedBlock (s : State) (tile : TileNo) (block : BitVec 4) (n : Nat) : State :=
  let t := s.tile tile.toNat
  let b := SMap.get t.blocks {} block.toNat
  let u := s.setTile tile.toNat { t with blocks := SMap.set t.blocks {} block.toNat (b.zeroedFrom s.fu.frame n) }
  { u with spad := Cells.clear s.spad (padBytes * tile.toNat + 128 * (256 * block.toNat + n)) 2048 }

theorem exec_blockZeroing {block : BitVec 4} {n : Nat} (hzeroed : (SMap.get (s.tile tile.toNat).blocks {} block.toNat).zeroed = some n)
    (hpower : ∀ f, (SMap.get (s.tile tile.toNat).blocks {} block.toNat).powerAt = some f → f ≤ s.fu.frame) (hdusk : s.inDusk rc = true)
    (hfirst : (SMap.get (s.tile tile.toNat).blocks {} block.toNat).zeroAt ≠ some s.fu.frame) :
    exec (.blockZeroing tile block rc) s = .next (s.zeroedBlock tile block n) := by
  change execBlockZeroing tile block rc s = _
  unfold execBlockZeroing
  dsimp only
  rw [hzeroed]
  dsimp only
  rw [if_neg]
  · rfl
  · rintro (hdue | hout | hagain)
    · split at hdue
      · exact Bool.false_ne_true hdue.symm
      next f hf => exact of_decide_eq_false hdue (hpower f hf)
    · exact Bool.false_ne_true (hout.symm.trans hdusk)
    · exact hfirst hagain

theorem blockZeroing_clears {block : BitVec 4} {n : Nat}
    (hzeroed : (SMap.get (s.tile tile.toNat).blocks {} block.toNat).zeroed = some n)
    (hpower : ∀ f, (SMap.get (s.tile tile.toNat).blocks {} block.toNat).powerAt = some f → f ≤ s.fu.frame) (hdusk : s.inDusk rc = true)
    (hfirst : (SMap.get (s.tile tile.toNat).blocks {} block.toNat).zeroAt ≠ some s.fu.frame) :
    let b := SMap.get (s.tile tile.toNat).blocks {} block.toNat
    let base := padBytes * tile.toNat + 128 * (256 * block.toNat + n)
    ∃ t, exec (.blockZeroing tile block rc) s = .next t ∧
      (∀ a, base ≤ a → a < base + 2048 → Cells.get t.spad a = 0) ∧
      (∀ a, a < base ∨ base + 2048 ≤ a → Cells.get t.spad a = Cells.get s.spad a) ∧
      SMap.get (t.tile tile.toNat).blocks {} block.toNat =
        { b with powerAt := none, zeroed := if 240 ≤ n then none else some (n + 16), zeroAt := some s.fu.frame } ∧
      (∀ k, k ≠ block.toNat → SMap.get (t.tile tile.toNat).blocks {} k = SMap.get (s.tile tile.toNat).blocks {} k) := by
  intro b base
  have hblocks : ((s.zeroedBlock tile block n).tile tile.toNat).blocks =
      SMap.set (s.tile tile.toNat).blocks {} block.toNat (b.zeroedFrom s.fu.frame n) :=
    congrArg Tile.blocks (State.tile_setTile_same s tile.toNat _)
  refine ⟨_, exec_blockZeroing hzeroed hpower hdusk hfirst, fun a hlow hhigh => ?_, fun a ha => ?_, ?_, fun k hk => ?_⟩
  · exact (Cells.get_clear s.spad base 2048 a).trans (if_pos ⟨hlow, hhigh⟩)
  · exact (Cells.get_clear s.spad base 2048 a).trans (if_neg (by omega))
  · rw [hblocks, SMap.get_set_same, Block.zeroedFrom_eq]
  · rw [hblocks, SMap.get_set_other _ _ _ _ _ hk]

/-! ## Row mapping -/

theorem State.event_fqueue (s : State) (kind code object : Nat) (n : Option (BitVec 48)) (after before : Nat) (words : BitVec 160) :
    (s.event kind code object n after before words).mgmt.fqueue = s.mgmt.fqueue := by
  unfold State.event
  rw [State.record_frame]
  unfold State.raise
  split <;> rfl

theorem State.event_tiles (s : State) (kind code object : Nat) (n : Option (BitVec 48)) (after before : Nat) (words : BitVec 160) :
    (s.event kind code object n after before words).tiles = s.tiles := by
  rw [State.event_frame]

theorem State.event_health (s : State) (kind code object : Nat) (n : Option (BitVec 48)) (after before : Nat) (words : BitVec 160) :
    (s.event kind code object n after before words).health = s.health := by
  rw [State.event_frame]

/-- The first row past its threshold takes spare row `used` of its bank (R128). -/
def Tile.mapRow (t : Tile) (k used : Nat) (rest : List Nat) : Tile :=
  { t with awaiting := rest, mapping := t.mapping ++ [(k, used)], spareRows := SMap.set t.spareRows 0 (k / 192) (used + 1) }

theorem exec_rowMapOut {k : Nat} {rest : List Nat} (hawaiting : (s.tile tile.toNat).awaiting = k :: rest)
    (hfour : (s.tile tile.toNat).mapping.length < 4) (hdusk : s.inDusk rc = true) :
    let u := s.tile tile.toNat
    let used := SMap.get u.spareRows 0 (k / 192)
    exec (.rowMapOut tile rc) s = .next (
      if 32 ≤ used then ((s.setTile tile.toNat { u with awaiting := rest }).event 0x06 2 tile.toNat none used used).twilight 0x04
      else ((s.setTile tile.toNat (u.mapRow k used rest)).event 0x06 1 tile.toNat none (used + 1) used).flashWrite .repair) := by
  intro u used
  change execRowMapOut tile rc s = _
  unfold execRowMapOut
  dsimp only
  rw [hawaiting]
  dsimp only
  rw [if_neg (by simp [hdusk, hfour])]
  split <;> rfl

theorem rowMapOut_maps {k : Nat} {rest : List Nat} (hawaiting : (s.tile tile.toNat).awaiting = k :: rest)
    (hfour : (s.tile tile.toNat).mapping.length < 4) (hspare : SMap.get (s.tile tile.toNat).spareRows 0 (k / 192) < 32)
    (hdusk : s.inDusk rc = true) :
    let u := s.tile tile.toNat
    let used := SMap.get u.spareRows 0 (k / 192)
    ∃ t, exec (.rowMapOut tile rc) s = .next t ∧ (t.tile tile.toNat).awaiting = rest ∧
      (t.tile tile.toNat).mapping = u.mapping ++ [(k, used)] ∧ SMap.get (t.tile tile.toNat).spareRows 0 (k / 192) = used + 1 ∧
      t.mgmt.fqueue = s.mgmt.fqueue ++ [.repair] ∧ t.spad = s.spad := by
  intro u used
  let t := ((s.setTile tile.toNat (u.mapRow k used rest)).event 0x06 1 tile.toNat none (used + 1) used).flashWrite .repair
  have htile : t.tile tile.toNat = u.mapRow k used rest := by
    rw [State.tile_flashWrite_of, State.event_frame]
    exact State.tile_setTile_same s tile.toNat _
  refine ⟨t, by rw [exec_rowMapOut hawaiting hfour hdusk, if_neg (by omega)], ?_, ?_, ?_, ?_, ?_⟩
  · rw [htile, Tile.mapRow]
  · rw [htile, Tile.mapRow]
  · rw [htile]
    exact SMap.get_set_same u.spareRows 0 (k / 192) (used + 1)
  · exact congrArg (· ++ [FlashCls.repair]) (State.event_fqueue _ 0x06 1 tile.toNat none (used + 1) used 0)
  · simp [t]

theorem rowMapOut_decides {k : Nat} {rest : List Nat} (hawaiting : (s.tile tile.toNat).awaiting = k :: rest)
    (hfour : (s.tile tile.toNat).mapping.length < 4) (hdusk : s.inDusk rc = true)
    (hspare : 32 ≤ SMap.get (s.tile tile.toNat).spareRows 0 (k / 192)) (hst : s.health.st = 0) (hundecided : s.health.decided = none) :
    ∃ t, exec (.rowMapOut tile rc) s = .next t ∧ t.health.decided = some 4 ∧ t.health.cause = 4 ∧
      (t.tile tile.toNat).mapping = (s.tile tile.toNat).mapping := by
  let used := SMap.get (s.tile tile.toNat).spareRows 0 (k / 192)
  let v := (s.setTile tile.toNat { s.tile tile.toNat with awaiting := rest }).event 0x06 2 tile.toNat none used used
  have hhealth : v.health = s.health := State.event_health _ 0x06 2 tile.toNat none used used 0
  obtain ⟨flag, hdecides⟩ := v.twilight_decides 0x04 (by rw [hhealth, hst]) (by rw [hhealth, hundecided])
  refine ⟨v.twilight 0x04, by rw [exec_rowMapOut hawaiting hfour hdusk, if_pos hspare], by rw [hdecides]; rfl, by rw [hdecides]; rfl, ?_⟩
  have htile : v.tile tile.toNat = { s.tile tile.toNat with awaiting := rest } :=
    (State.tile_congr (State.event_tiles _ 0x06 2 tile.toNat none used used 0) _).trans (State.tile_setTile_same s tile.toNat _)
  rw [State.tile_twilight, htile]

end Sys2Proof.Machine
end

section
open Sys2Proof Sys2Proof.Machine

/-- Settles O20: `eccWriteBack_takesFirst`, `blockZeroing_clears`, `rowMapOut_maps` and `rowMapOut_decides`. -/
theorem scratchpadUpkeepAndSpareRows : Obligations.ScratchpadUpkeepAndSpareRows := by
  unfold Obligations.ScratchpadUpkeepAndSpareRows
  refine ⟨⟨fun tile rc s => eccWriteBack_takesFirst, fun tile block n rc s hzeroed hpower hdusk hfirst =>
    blockZeroing_clears hzeroed hpower hdusk hfirst, fun tile k rc rest s => rowMapOut_maps⟩, fun tile k rc rest s => rowMapOut_decides⟩

end

section
/-! Certificate of O21, what holds: a scheduled flit alone, two that are added, and one that lands, for every state; a slot collision where
the map of partitions is canonical (R129-R131, R145, R149-R153). -/

namespace Sys2Proof.Machine

variable {s : State} {router : TileNo} {plane : Bool} {output : Fin 7} {cycle : Nat}

/-! ## The claim of an output -/

/-- A router after its counters changed (R163). -/
theorem State.router_updRouter (s : State) (r : Nat) (f : Router → Router) :
    SMap.get (s.updRouter r f).mesh.routers {} r = f (SMap.get s.mesh.routers {} r) :=
  (SMap.get_upd ..).trans (if_pos rfl)

/-- Flits reach a router and are counted there (R163). -/
def State.reachRouter (s : State) (router n : Nat) : State := s.updRouter router (fun r => { r with flits := r.flits + n })

/-- The claim of an output by the flits that reach it, with good headers (R145, R149). -/
theorem exec_scheduledFlitClaim {f : Flit} {rest : List Flit} (hfrozen : s.frozen cycle = false)
    (hclaim : s.mesh.flits.filter (fun x => x.claims s.fu.frame router.toNat plane.toNat output.val cycle) = f :: rest) :
    exec (.scheduledFlitClaim router plane output cycle false false false) s =
      .next ((s.reachRouter router.toNat (f :: rest).length).claim router plane output.val cycle false false (f :: rest)) := by
  change execScheduledFlitClaim router plane output cycle false false false s = _
  unfold execScheduledFlitClaim
  rw [hfrozen, if_neg Bool.false_ne_true, hclaim]
  rfl

/-- The key of a router's output among the uses of outputs. -/
def outputKey (router : TileNo) (plane : Bool) (output : Fin 7) : Nat := 14 * router.toNat + 7 * plane.toNat + output.val

/-- No run of 16 cycles bars the output (R149). -/
theorem no_fullRun {used : List FlitUse} (h : 4 ≤ output.val ∨ fullRun used cycle = none) :
    (if output.val < 4 then fullRun used cycle else none) = none := by
  obtain hout | hrun := h
  · exact if_neg (Nat.not_lt.2 hout)
  · rw [hrun, ite_self]

/-- The use of an output by a flit is noted (R149). -/
def State.markUse (s : State) (key : Nat) (u : FlitUse) : State :=
  { s with mesh := { s.mesh with used := SMap.set s.mesh.used [] key (u :: SMap.get s.mesh.used [] key) } }

/-- A flit goes on to the next router. -/
def State.stepFlit (s : State) (f : Flit) : State :=
  { s with mesh := { s.mesh with flits := s.mesh.flits.map (fun g => if g = f then { g with hop := g.hop + 1 } else g) } }

/-- Flits leave the mesh, their sum goes on, and the addition is counted (R152, R163). -/
def State.sumFlits (s : State) (router : Nat) (f : Flit) (fs : List Flit) : State :=
  ((s.dropFlits fs).inject { sumFlit f fs with hop := (sumFlit f fs).hop + 1 }).updRouter router (fun r => { r with adds := r.adds + 1 })

theorem State.router_reachRouter (s : State) (r n : Nat) :
    SMap.get (s.reachRouter r n).mesh.routers {} r = { SMap.get s.mesh.routers {} r with flits := (SMap.get s.mesh.routers {} r).flits + n } :=
  s.router_updRouter r _

theorem State.router_sumFlits (s : State) (r : Nat) (f : Flit) (fs : List Flit) :
    SMap.get (s.sumFlits r f fs).mesh.routers {} r = { SMap.get s.mesh.routers {} r with adds := (SMap.get s.mesh.routers {} r).adds + 1 } :=
  State.router_updRouter _ r _

theorem State.markUse_routers (s : State) (key : Nat) (u : FlitUse) : (s.markUse key u).mesh.routers = s.mesh.routers := rfl

theorem State.stepFlit_routers (s : State) (f : Flit) : (s.stepFlit f).mesh.routers = s.mesh.routers := rfl

theorem State.used_markUse (s : State) (key : Nat) (u : FlitUse) :
    SMap.get (s.markUse key u).mesh.used [] key = u :: SMap.get s.mesh.used [] key :=
  (SMap.get_set_same s.mesh.used [] key (u :: SMap.get s.mesh.used [] key) :)

section
variable {f g : Flit} {rest : List Flit} (hcycle : cycle < 960)
  (hrun : 4 ≤ output.val ∨ fullRun (SMap.get s.mesh.used [] (outputKey router plane output)) cycle = none)
include hcycle hrun

/-- A lone flit goes on (R145). -/
theorem State.claim_single :
    s.claim router plane output.val cycle false false [f] =
      (s.stepFlit f).markUse (outputKey router plane output) (f.useAt cycle) := by
  have hopen := no_fullRun hrun
  unfold outputKey at hopen
  unfold State.claim
  dsimp only
  rw [if_neg (Nat.not_le.2 hcycle), hopen]
  rfl

/-- Flits that may be added, with right residues, leave as their sum (R152). -/
theorem State.claim_sum (hadd : addable (f :: g :: rest) = true) (hres : ∀ x ∈ f :: g :: rest, x.res = flitRes x.data)
    (hsum : flitRes (sumFlit f (f :: g :: rest)).data = (sumFlit f (f :: g :: rest)).res) :
    s.claim router plane output.val cycle false false (f :: g :: rest) =
      (s.sumFlits router.toNat f (f :: g :: rest)).markUse (outputKey router plane output) (f.useAt cycle) := by
  have hgood : ¬ ((f :: g :: rest).any (fun x => decide (x.res ≠ flitRes x.data)) = true ∨ false = true ∨
      flitRes (sumFlit f (f :: g :: rest)).data ≠ (sumFlit f (f :: g :: rest)).res) := by
    rintro (h | h | h)
    · obtain ⟨x, hx, hne⟩ := List.any_eq_true.1 h
      exact of_decide_eq_true hne (hres x hx)
    · exact Bool.false_ne_true h
    · exact h hsum
  have hopen := no_fullRun hrun
  unfold outputKey at hopen
  unfold State.claim
  dsimp only
  rw [if_neg (Nat.not_le.2 hcycle), hopen]
  dsimp only
  rw [if_neg (List.cons_ne_nil g rest), if_neg (by simp [hadd]), if_neg Bool.false_ne_true, if_neg hgood]
  rfl

/-- Flits that may not be added collide (R150). -/
theorem State.claim_clash (hadd : addable (f :: g :: rest) = false) :
    s.claim router plane output.val cycle false false (f :: g :: rest) =
      s.meshClash router (routerUnit plane output.val) cycle false [] (f :: g :: rest) := by
  have hopen := no_fullRun hrun
  unfold outputKey at hopen
  unfold State.claim
  dsimp only
  rw [if_neg (Nat.not_le.2 hcycle), hopen]
  dsimp only
  rw [if_neg (List.cons_ne_nil g rest), if_pos hadd]

/-- A lone flit takes the output and goes on (R145, R149). -/
theorem loneFlit_goes_on (hfrozen : s.frozen cycle = false)
    (hclaim : s.mesh.flits.filter (fun x => x.claims s.fu.frame router.toNat plane.toNat output.val cycle) = [f]) :
    ∃ t, exec (.scheduledFlitClaim router plane output cycle false false false) s = .next t ∧
      t.mesh.flits = s.mesh.flits.map (fun g => if g = f then { g with hop := g.hop + 1 } else g) ∧
      SMap.get t.mesh.used [] (outputKey router plane output) =
        f.useAt cycle :: SMap.get s.mesh.used [] (outputKey router plane output) ∧
      (SMap.get t.mesh.routers {} router.toNat).flits = (SMap.get s.mesh.routers {} router.toNat).flits + 1 ∧
      t.spad = s.spad ∧ t.tiles = s.tiles ∧ t.parts = s.parts := by
  have hexec := exec_scheduledFlitClaim hfrozen hclaim
  rw [State.claim_single (s := s.reachRouter router.toNat [f].length) hcycle hrun] at hexec
  refine ⟨_, hexec, rfl, State.used_markUse .., ?_, rfl, rfl, rfl⟩
  rw [State.markUse_routers, State.stepFlit_routers, State.router_reachRouter]
  rfl

/-- Two flits that may be added leave as their sum (R152). -/
theorem twoFlits_add (hfrozen : s.frozen cycle = false)
    (hclaim : s.mesh.flits.filter (fun x => x.claims s.fu.frame router.toNat plane.toNat output.val cycle) = [f, g])
    (hf : f.add = true) (hg : g.add = true) (hto : g.dest = f.dest ∧ g.port = f.port ∧ g.line = f.line ∧ g.xfer = f.xfer ∧ g.tag = f.tag)
    (hcount : f.count + g.count ≤ 127) (hresf : f.res = flitRes f.data) (hresg : g.res = flitRes g.data)
    (hsum : flitRes (sumFlit f [f, g]).data = (sumFlit f [f, g]).res) :
    ∃ t, exec (.scheduledFlitClaim router plane output cycle false false false) s = .next t ∧
      t.mesh.flits = s.mesh.flits.filter (fun x => !([f, g] : List Flit).contains x) ++ [{ f with
        data := lineOfWords (List.zipWith p32Add (wordsOfLine f.data) (wordsOfLine g.data)), count := f.count + g.count
        res := (f.res + g.res) % 255, others := f.others ++ (g.src :: g.others), pred := sumPred [f, g], hop := f.hop + 1 }] ∧
      (SMap.get t.mesh.routers {} router.toNat).adds = (SMap.get s.mesh.routers {} router.toNat).adds + 1 ∧ t.spad = s.spad := by
  have hfew : (([f, g] : List Flit).filter (fun x => x.reg && decide (x.hop = 0))).length ≤ 4 :=
    (List.length_filter_le _ _).trans (by simp)
  have hadd : addable [f, g] = true := by simp [addable, hfew, hf, hg, hto, hcount]
  have hexec := exec_scheduledFlitClaim hfrozen hclaim
  rw [State.claim_sum (s := s.reachRouter router.toNat [f, g].length) hcycle hrun hadd (by simp [hresf, hresg]) hsum] at hexec
  refine ⟨_, hexec, ?_, ?_, rfl⟩
  · change s.mesh.flits.filter _ ++ [_] = _
    simp [sumFlit]
  · rw [State.markUse_routers, State.router_sumFlits, State.router_reachRouter]

end

/-! ## Slot collisions -/

theorem State.dropWaits_mesh (s : State) (p : Nat) : (s.dropWaits p).mesh = s.mesh := by
  unfold State.dropWaits
  split
  · rfl
  · dsimp only
    split
    · rw [State.endHoldWith_eq]
      rfl
    · rfl

/-- One record for each partition with a flit in the collision (R150). -/
theorem clashRecords_tags (unit : BitVec 8) (cycle : Nat) (dusk : Bool) (us all : List FlitUse) :
    (clashRecords router unit cycle dusk us all).map (fun r => r.tag) = (us.map (fun u => u.tag)).dedup := by
  induction us with
  | nil => rfl
  | cons u us ih =>
    have hmem : us.any (fun g => decide (g.tag = u.tag)) = true ↔ u.tag ∈ us.map (fun g => g.tag) := by simp
    unfold clashRecords
    dsimp only
    by_cases h : u.tag ∈ us.map (fun g => g.tag)
    · rw [if_pos (hmem.2 h), ih, List.map_cons, List.dedup_cons_of_mem h]
    · rw [if_neg (fun hm => h (hmem.1 hm)), List.map_cons, ih, List.map_cons, List.dedup_cons_of_notMem h]

/-- The flits of an aborted partition are void. -/
def Mesh.voidFlits (m : Mesh) (p : Nat) : Mesh :=
  { m with flits := m.flits.map (fun f => if f.tag.toNat = p then { f with void := true } else f) }

/-- Aborts leave alone what of the mesh does not show that flits are void. -/
theorem State.abortAll_mesh {β : Type} (view : Mesh → β) (hvoid : ∀ m p, view (Mesh.voidFlits m p) = view m) (s : State) (code : BitVec 8)
    (v : VariantSel) (ps : List Nat) : view (s.abortAll code v ps).mesh = view s.mesh := by
  unfold State.abortAll
  split
  · rfl
  · refine foldl_keeps (fun u : State => view u.mesh) (fun t p => t.abortOne code v p) (fun t p => ?_) _ _
    obtain ⟨streams, seen, x, h⟩ := t.abortOne_eq code v p
    rw [h, State.flood_frame]
    change view (t.abortHere p t.fu.frame v streams).mesh = view t.mesh
    obtain ⟨a, h⟩ | h | ⟨-, h⟩ := t.abortHere_cases p t.fu.frame v streams <;> rw [h]
    · rfl
    · rw [State.dropWaits_mesh]
      exact hvoid t.mesh p

/-- What the report of a collision leaves alone. -/
def State.besideReports (s : State) : SMap Part × Nat × Health × List Flit × SMap Router :=
  (s.parts, s.fu.frame, s.health, s.mesh.flits, s.mesh.routers)

theorem State.report_besideReports (s : State) (f : FaultInfo) : (s.report f).besideReports = s.besideReports := by
  unfold State.report State.setReport
  dsimp only
  (repeat' split) <;> rfl

/-- The device with the reports of a collision sent. -/
def State.reportAll (s : State) (rs : List FaultInfo) : State := rs.foldl (fun t r => t.report r) s

theorem State.reportAll_besideReports (s : State) (rs : List FaultInfo) : (s.reportAll rs).besideReports = s.besideReports :=
  foldl_keeps State.besideReports (fun t r => t.report r) (fun t r => t.report_besideReports r) rs s

/-- What a collision leaves of the mesh, where voiding flits does not show. -/
theorem State.collision_mesh {β : Type} (view : List Flit × SMap Router → β)
    (hvoid : ∀ (m : Mesh) p, view ((m.voidFlits p).flits, m.routers) = view (m.flits, m.routers)) (s : State) (rs : List FaultInfo) :
    view ((s.collision rs).mesh.flits, (s.collision rs).mesh.routers) = view (s.mesh.flits, s.mesh.routers) := by
  have hreport : (s.reportAll rs).besideReports = s.besideReports := s.reportAll_besideReports rs
  refine (State.abortAll_mesh (fun m => view (m.flits, m.routers)) hvoid (s.reportAll rs) _ _ _).trans ?_
  exact congrArg (fun x : SMap Part × Nat × Health × List Flit × SMap Router => view x.2.2.2) hreport

theorem State.collision_health (s : State) (rs : List FaultInfo) : (s.collision rs).health = s.health :=
  ((s.reportAll rs).abortAll_health _ _ _).trans (congrArg (·.2.2.1) (s.reportAll_besideReports rs))

/-- Every partition with a record of a collision aborts, where the map of partitions is canonical (R150, R198). -/
theorem State.collision_aborts {rs : List FaultInfo} {tag : Tag} (hwf : SMap.wf ({} : Part) s.parts = true)
    (htag : tag ∈ rs.map (fun r => r.tag)) (hpart : tag.toNat < 128) : AbortsIn tag.toNat s (s.collision rs) := by
  have hbeside := s.reportAll_besideReports rs
  have hparts : (s.reportAll rs).parts = s.parts := congrArg (·.1) hbeside
  have hframe : (s.reportAll rs).fu.frame = s.fu.frame := congrArg (·.2.1) hbeside
  obtain ⟨r, hr, rfl⟩ := List.mem_map.1 htag
  refine AbortsIn.of_keepsAborts hwf (State.keepsAborts_of_parts hparts hframe)
    (State.abortAll_aborts 0x02 .unchanged _ (hparts ▸ hwf) r.tag.toNat (List.mem_dedup.2 (List.mem_filter.2 ⟨?_, decide_eq_true hpart⟩)))
  exact List.mem_map.2 ⟨r, hr, rfl⟩

/-- The device whose flits collide, before the records are sent (R150, R163). -/
def State.clashCounted (s : State) (router n : Nat) (fs : List Flit) : State :=
  let s1 := (s.dropFlits fs).updRouter router (fun r => { r with collisions := min (r.collisions + n) 4294967295 })
  { s1 with health := { s1.health with collisions := min (s1.health.collisions + n) 4294967295 } }

theorem State.router_clashCounted (s : State) (r n : Nat) (fs : List Flit) :
    SMap.get (s.clashCounted r n fs).mesh.routers {} r =
      { SMap.get s.mesh.routers {} r with collisions := min ((SMap.get s.mesh.routers {} r).collisions + n) 4294967295 } :=
  State.router_updRouter (s.dropFlits fs) r _

/-- A collision of the flits that claim an output: one record for each of their partitions, counted as often (R150, R163). -/
theorem State.meshClash_eq (s : State) (unit : BitVec 8) (cycle : Nat) (fs : List Flit) :
    ∃ rs, rs.map (fun r => r.tag) = (fs.map (fun f => f.tag)).dedup ∧
      s.meshClash router unit cycle false [] fs = (s.clashCounted router.toNat (fs.map (fun f => f.tag)).dedup.length fs).collision rs := by
  have htags := clashRecords_tags (router := router) unit cycle false (fs.map (fun f => f.useAt cycle))
    (fs.map (fun f => f.useAt cycle)).reverse
  rw [List.map_map] at htags
  refine ⟨_, htags, ?_⟩
  have hlen := congrArg List.length htags
  rw [List.length_map] at hlen
  unfold State.meshClash State.clashCounted
  rw [List.nil_append]
  dsimp only
  rw [hlen]
  rfl

/-- Whether a flit claims an output does not depend on its being void. -/
theorem any_claims_voidFlits (frame r plane_ out c : Nat) (m : Mesh) (p : Nat) :
    (m.voidFlits p).flits.any (fun x => x.claims frame r plane_ out c) = m.flits.any (fun x => x.claims frame r plane_ out c) := by
  unfold Mesh.voidFlits
  dsimp only
  rw [List.any_map]
  refine congrArg m.flits.any (funext fun x => ?_)
  simp only [Function.comp]
  split <;> rfl

/-- Flits of two owners or for two lines, and a flit that is not for adding, may not be added (R152). -/
theorem not_addable {f g : Flit} (rest : List Flit) (h : f.add = false ∨ f.tag ≠ g.tag ∨ f.xfer ≠ g.xfer ∨ f.line ≠ g.line) :
    addable (f :: g :: rest) = false := by
  by_contra hadd
  simp only [addable, Bool.not_eq_false, Bool.and_eq_true, List.all_cons, decide_eq_true_eq] at hadd
  obtain ⟨⟨⟨-, hf⟩, ⟨-, -, -, hline, hxfer, htag⟩, -⟩, -⟩ := hadd
  obtain h | h | h | h := h
  · exact Bool.false_ne_true (h.symm.trans hf)
  · exact h htag.symm
  · exact h hxfer.symm
  · exact h hline.symm

section
variable {f g : Flit} {rest : List Flit} (hcycle : cycle < 960)
  (hrun : 4 ≤ output.val ∨ fullRun (SMap.get s.mesh.used [] (outputKey router plane output)) cycle = none)
include hcycle hrun

/-- Flits that may not be added are discarded as a slot collision, which is counted once for each of their partitions and aborts them,
where the map of partitions is canonical (R150, R163, R198). -/
theorem flits_collide (hwf : SMap.wf ({} : Part) s.parts = true) (hfrozen : s.frozen cycle = false)
    (hclaim : s.mesh.flits.filter (fun x => x.claims s.fu.frame router.toNat plane.toNat output.val cycle) = f :: g :: rest)
    (hapart : f.add = false ∨ f.tag ≠ g.tag ∨ f.xfer ≠ g.xfer ∨ f.line ≠ g.line) :
    let n := ((f :: g :: rest).map (fun x => x.tag)).dedup.length
    ∃ t, exec (.scheduledFlitClaim router plane output cycle false false false) s = .next t ∧
      (∀ x ∈ f :: g :: rest, x ∉ t.mesh.flits) ∧
      (∀ x ∈ f :: g :: rest, x.tag.toNat < 128 → AbortsIn x.tag.toNat s t) ∧ t.spad = s.spad ∧
      t.health.collisions = min (s.health.collisions + n) 4294967295 ∧
      (SMap.get t.mesh.routers {} router.toNat).collisions =
        min ((SMap.get s.mesh.routers {} router.toNat).collisions + n) 4294967295 := by
  intro n
  have hexec := exec_scheduledFlitClaim hfrozen hclaim
  rw [State.claim_clash (s := s.reachRouter router.toNat (f :: g :: rest).length) hcycle hrun (not_addable rest hapart)] at hexec
  obtain ⟨rs, htags, hclash⟩ := (s.reachRouter router.toNat (f :: g :: rest).length).meshClash_eq (router := router)
    (routerUnit plane output.val) cycle (f :: g :: rest)
  rw [hclash] at hexec
  refine ⟨_, hexec, fun x hx hxt => ?_, fun x hx hpart => ?_, ?_, ?_, ?_⟩
  · have hmem : x ∈ s.mesh.flits.filter (fun x => x.claims s.fu.frame router.toNat plane.toNat output.val cycle) := hclaim ▸ hx
    have hany := State.collision_mesh (fun m => m.1.any (fun x => x.claims s.fu.frame router.toNat plane.toNat output.val cycle))
      (any_claims_voidFlits s.fu.frame router.toNat plane.toNat output.val cycle)
      ((s.reachRouter router.toNat (f :: g :: rest).length).clashCounted router.toNat n (f :: g :: rest)) rs
    have hnone := hany.symm.trans (List.any_eq_true.2 ⟨x, hxt, (List.mem_filter.1 hmem).2⟩)
    obtain ⟨y, hy, hyclaims⟩ := List.any_eq_true.1 hnone
    obtain ⟨hyflits, hynot⟩ := List.mem_filter.1 (show y ∈ s.mesh.flits.filter (fun x => !(f :: g :: rest).contains x) from hy)
    have hyin : y ∈ f :: g :: rest := hclaim ▸ List.mem_filter.2 ⟨hyflits, hyclaims⟩
    rw [List.contains_iff_mem.2 hyin] at hynot
    exact Bool.false_ne_true hynot
  · refine State.collision_aborts (s := (s.reachRouter _ _).clashCounted _ _ _) hwf ?_ hpart
    exact htags ▸ List.mem_dedup.2 (List.mem_map.2 ⟨x, hx, rfl⟩)
  · rw [State.collision_spad]
    rfl
  · rw [State.collision_health]
    rfl
  · refine (congrArg (fun m => (SMap.get m {} router.toNat).collisions) (State.collision_mesh (·.2) (fun _ _ => rfl) _ rs)).trans ?_
    dsimp only
    rw [State.router_clashCounted, State.router_reachRouter]

end

/-! ## Landing (R129, R131, R147) -/

/-- What a queue use that moves leaves alone: the narrow accesses and the credits of its tile, and the flits. -/
def State.besideFills (tile : TileNo) (s : State) : List NarrowUse × List (Nat × Nat × W64) × SMap Credit × List Flit :=
  ((s.tile tile.toNat).narrow, (s.tile tile.toNat).narrowW, (s.tile tile.toNat).credits, s.mesh.flits)

theorem State.besideFills_setTile (s : State) (tile : TileNo) (v : Tile) :
    (s.setTile tile.toNat v).besideFills tile = (v.narrow, v.narrowW, v.credits, s.mesh.flits) := by
  rw [State.besideFills, State.tile_setTile_same]
  rfl

theorem State.moveFill_besideFills (s : State) (tile : TileNo) (f : FillUse) : (s.moveFill tile f).besideFills tile = s.besideFills tile := by
  unfold State.moveFill
  dsimp only
  split
  · exact s.besideFills_setTile tile _
  · exact s.besideFills_setTile tile _

theorem State.yieldFills_besideFills (s : State) (tile : TileNo) : (s.yieldFills tile).besideFills tile = s.besideFills tile :=
  foldl_keeps (State.besideFills tile) (fun u f => u.moveFill tile f) (fun u f => u.moveFill_besideFills tile f) _ s

/-- A tile where a credit has paid for a flit's line, if remote tiles wrote into it (R131). -/
def Tile.paid (u : Tile) (f : Flit) (n : Nat) (c : Credit) : Tile :=
  if f.remotes = [] then u else { u with credits := SMap.set u.credits {} n c.spend }

variable {f : Flit}

/-- A flit that its tile takes: the wide cycle is taken, the credit paid, and the line written (R129-R131). -/
theorem State.landTile_takes {n : Nat} {c : Credit} (hline : f.line.toNat ≤ 3071)
    (howns : (s.tile f.dest.toNat).owns f.line.toNat 1 f.tag = true)
    (hcredit : f.remotes = [] ∨ (s.tile f.dest.toNat).credits.find? (fun x => creditFor f x.2) = some (n, c))
    (hwide : (s.tile f.dest.toNat).wide.any (fun w => decide (w.1 = cycle)) = false) :
    s.landTile f cycle =
      (((s.setTile f.dest.toNat (((s.tile f.dest.toNat).paid f n c).withWide cycle f.line.toNat 1)).yieldFills f.dest).checkNarrow
        f.dest).writeLines f.dest.toNat f.line.toNat [f.data] := by
  have hwides : ((s.tile f.dest.toNat).paid f n c).wide = (s.tile f.dest.toNat).wide := by
    unfold Tile.paid
    split <;> rfl
  have htake : ((s.tile f.dest.toNat).paid f n c).takeWide cycle f.line.toNat 1 =
      some (((s.tile f.dest.toNat).paid f n c).withWide cycle f.line.toNat 1) := by
    refine Tile.takeWide_of_free _ fun w hw => ?_
    have hne := List.any_eq_false.1 hwide w (hwides ▸ hw)
    have : w.1 ≠ cycle := by simpa using hne
    omega
  unfold State.landTile
  dsimp only
  rw [if_neg (by simp [howns, hline])]
  by_cases h : f.remotes = []
  · have hpaid : (s.tile f.dest.toNat).paid f n c = s.tile f.dest.toNat := if_pos h
    rw [if_pos (List.isEmpty_iff.2 h)]
    rw [hpaid] at htake ⊢
    dsimp only
    rw [htake]
  · have hpaid : (s.tile f.dest.toNat).paid f n c =
        { s.tile f.dest.toNat with credits := SMap.set (s.tile f.dest.toNat).credits {} n c.spend } := if_neg h
    rw [if_neg (fun he => h (List.isEmpty_iff.1 he)), hcredit.resolve_left h]
    rw [hpaid] at htake ⊢
    dsimp only
    rw [htake]

/-- The flit that stands before a router's local output, its last hop taken, lands there (R145, R147). -/
theorem exec_scheduledFlitLanding (hflit : f ∈ s.mesh.flits)
    (honly : ∀ g ∈ s.mesh.flits, g.dest = router → g.port = 0 → g.plane = plane → g = f)
    (hframe : f.frame = s.fu.frame) (hdest : f.dest = router) (hport : f.port = 0) (hplane : f.plane = plane)
    (hhop : f.hop = hops f.src.toNat f.dest.toNat + 1) (hsent : f.sent + 3 * hops f.src.toNat f.dest.toNat + 10 = cycle)
    (hvoid : f.void = false) (hcycle : cycle < 960) (hfrozen : s.frozen cycle = false) (hres : f.add = true → f.res = flitRes f.data) :
    exec (.scheduledFlitLanding router 0 plane cycle false false) s = .next (((s.dropFlits [f]).reach cycle).landTile f cycle) := by
  have hfind : s.mesh.flits.find? (fun f =>
      decide (f.frame = s.fu.frame ∧ f.dest = router ∧ f.port = 0 ∧ f.hop = hops f.src.toNat f.dest.toNat + 1 ∧
        f.sent + 3 * hops f.src.toNat f.dest.toNat + 10 = cycle) && (f.plane == plane)) = some f := by
    cases hfound : s.mesh.flits.find? _ with
    | none => exact absurd (List.find?_eq_none.1 hfound f hflit) (by simp [hframe, hdest, hport, hplane, hhop, hdest ▸ hsent])
    | some g =>
      have hg := List.find?_some hfound
      simp only [Bool.and_eq_true, decide_eq_true_eq, beq_iff_eq] at hg
      rw [honly g (List.mem_of_find?_eq_some hfound) hg.1.2.1 hg.1.2.2.1 hg.2]
  change execScheduledFlitLanding router 0 plane cycle false false s = _
  unfold execScheduledFlitLanding
  dsimp only
  rw [hfrozen, if_neg Bool.false_ne_true, hfind]
  dsimp only
  rw [if_neg (by simp [hvoid]), if_neg (Nat.not_le.2 hcycle), if_neg Bool.false_ne_true, if_neg (by simpa using hres), if_pos rfl]

/-- A flit that lands at a tile spends the credit that covers its remote writers, if it has any, and writes its line and no other byte
(R129-R131, R147). -/
theorem flit_lands (hflit : f ∈ s.mesh.flits)
    (honly : ∀ g ∈ s.mesh.flits, g.dest = router → g.port = 0 → g.plane = plane → g = f)
    (hframe : f.frame = s.fu.frame) (hdest : f.dest = router) (hport : f.port = 0) (hplane : f.plane = plane)
    (hhop : f.hop = hops f.src.toNat f.dest.toNat + 1) (hsent : f.sent + 3 * hops f.src.toNat f.dest.toNat + 10 = cycle)
    (hvoid : f.void = false) (hcycle : cycle < 960) (hfrozen : s.frozen cycle = false) (hres : f.add = true → f.res = flitRes f.data)
    (hline : f.line.toNat ≤ 3071) (howns : (s.tile router.toNat).owns f.line.toNat 1 f.tag = true)
    (hnarrow : (s.tile router.toNat).narrow = []) (hnarrowW : (s.tile router.toNat).narrowW = [])
    (hwide : (s.tile router.toNat).wide.any (fun w => decide (w.1 = cycle)) = false) (n : Nat) (c : Credit)
    (hcredit : f.remotes = [] ∨ (s.tile router.toNat).credits.find? (fun x => creditFor f x.2) = some (n, c)) :
    ∃ t, exec (.scheduledFlitLanding router 0 plane cycle false false) s = .next t ∧
      t.padLine router.toNat f.line.toNat = f.data ∧ PadOutside router.toNat f.line.toNat 1 s t ∧ f ∉ t.mesh.flits ∧
      (f.remotes ≠ [] → SMap.get (t.tile router.toNat).credits {} n = c.spend) := by
  have hexec := exec_scheduledFlitLanding hflit honly hframe hdest hport hplane hhop hsent hvoid hcycle hfrozen hres
  subst hdest
  let u := (s.dropFlits [f]).reach cycle
  let x := ((s.tile f.dest.toNat).paid f n c).withWide cycle f.line.toNat 1
  let w := (u.setTile f.dest.toNat x).yieldFills f.dest
  have hbeside : w.besideFills f.dest = (x.narrow, x.narrowW, x.credits, u.mesh.flits) :=
    (State.yieldFills_besideFills _ _).trans (State.besideFills_setTile _ _ _)
  have hpaid : x.narrow = [] ∧ x.narrowW = [] ∧ (f.remotes ≠ [] → SMap.get x.credits {} n = c.spend) := by
    change ((s.tile f.dest.toNat).paid f n c).narrow = [] ∧ ((s.tile f.dest.toNat).paid f n c).narrowW = [] ∧
      (f.remotes ≠ [] → SMap.get ((s.tile f.dest.toNat).paid f n c).credits {} n = c.spend)
    unfold Tile.paid
    split
    next h => exact ⟨hnarrow, hnarrowW, absurd h⟩
    next => exact ⟨hnarrow, hnarrowW, fun _ => SMap.get_set_same ..⟩
  obtain ⟨hxnarrow, hxnarrowW, hxcredit⟩ := hpaid
  have hwnarrow : (w.tile f.dest.toNat).narrow = [] := (congrArg (·.1) hbeside).trans hxnarrow
  have hwnarrowW : (w.tile f.dest.toNat).narrowW = [] := (congrArg (·.2.1) hbeside).trans hxnarrowW
  have hwspad : w.spad = s.spad := State.yieldFills_spad ..
  have hland : u.landTile f cycle = w.setPadLine f.dest.toNat f.line.toNat f.data := by
    refine (State.landTile_takes (s := u) hline howns hcredit hwide).trans ?_
    change (w.checkNarrow f.dest).writeLines _ _ _ = _
    rw [State.checkNarrow_nil w f.dest hwnarrow, State.writeLines_one w _ _ _ hwnarrowW]
  rw [hland] at hexec
  refine ⟨_, hexec, State.padLine_setPadLine_same .., fun a ha => ?_, ?_, fun h => ?_⟩
  · exact (w.setPadLine_out _ _ _ a ha).trans (by rw [hwspad])
  · rw [State.setPadLine_mesh, show w.mesh.flits = u.mesh.flits from congrArg (·.2.2.2) hbeside]
    exact fun h => by simpa using (List.mem_filter.1 h).2
  · rw [State.tile_setPadLine_of, show (w.tile f.dest.toNat).credits = x.credits from congrArg (·.2.2.1) hbeside]
    exact hxcredit h

end Sys2Proof.Machine
end

section
/-! Refutation of O21: its clause on a slot collision takes every list of partitions, and one that lists a partition twice escapes the
abort. -/

namespace Sys2Proof.Machine

/-- A flit of a partition that claims the local output of router 0 in cycle 4 of frame 0. -/
def localFlit (tag : Tag) (xfer : BitVec 8) : Flit :=
  { add := false, src := 0, dest := 0, port := 0, line := 0, tag := tag, xfer := xfer, count := 0, res := 0, plane := false, data := 0
    frame := 0, sent := 0, hop := 0, anyc := false, pred := none, stream := 0, void := false }

/-- The device of `partitionListedTwice`, held from cycle 4 on, with two flits of partition 1 and one of partition 0 that claim one output
in cycle 4. -/
def collidingAmongTwice : State :=
  { partitionListedTwice with
    mesh := { flits := [localFlit 1 0, localFlit 0 0, localFlit 1 1] }
    fu := { hold := some (4, 4, [(0, 5, 0)]) } }

theorem collidingAmongTwice_claims :
    collidingAmongTwice.mesh.flits.filter (fun x => x.claims collidingAmongTwice.fu.frame (0 : TileNo).toNat false.toNat (4 : Fin 7).val 4) =
      localFlit 1 0 :: localFlit 0 0 :: [localFlit 1 1] := by decide +kernel

/-- The device after the collision. -/
def collidedAmongTwice : State :=
  let fs := [localFlit 1 0, localFlit 0 0, localFlit 1 1]
  (collidingAmongTwice.reachRouter (0 : TileNo).toNat fs.length).claim 0 false (4 : Fin 7).val 4 false false fs

theorem exec_collidingAmongTwice :
    exec (.scheduledFlitClaim 0 false 4 4 false false false) collidingAmongTwice = .next collidedAmongTwice := by
  rw [exec_scheduledFlitClaim (by decide) collidingAmongTwice_claims, collidedAmongTwice]

/-- The last flit of each partition counts, so partition 0 aborts first. As in `partitionListedTwice_keeps_running`, the end of its hold
drops the first entry of partition 1, and the second one's replay frame makes its abort stale. -/
theorem collidedAmongTwice_keeps_running : (collidedAmongTwice.part 1).abort = none := by decide +kernel

end Sys2Proof.Machine
end

section
open Sys2Proof Sys2Proof.Machine

/-- Refutes O21 at its clause on a slot collision: on a device whose map of partitions lists partition 1 twice, the first flit that
collides is partition 1's, which has no replay ahead, and does not abort. The statement asks for no canonical map. Where
the map is canonical, it holds by `loneFlit_goes_on`, `twoFlits_add`, `flits_collide` and `flit_lands`. -/
theorem not_scheduledFlitsTravel : ¬ Obligations.ScheduledFlitsTravel := by
  unfold Obligations.ScheduledFlitsTravel
  rintro ⟨-, -, hclash, -⟩
  obtain ⟨t, ht, -, haborts, -⟩ := hclash 0 false 4 4 (localFlit 1 0) (localFlit 0 0) [localFlit 1 1] collidingAmongTwice
    collidingAmongTwice_claims (by decide) (by decide) (.inl rfl) (.inl (by decide)) (by decide)
  have habort : (t.part 1).abort.isSome = true := haborts (by rfl)
  rw [exec_collidingAmongTwice] at ht
  injection ht with ht
  subst ht
  simp [collidedAmongTwice_keeps_running] at habort

end

section
/-! SUPPORT. Which message a unit takes from a channel (R155), its delivery without an error, the wide cycle that a queue use takes where no
narrow access waits (R120), and what a fault leaves of a channel (R161, R198, R204). -/

namespace Sys2Proof.Machine

variable {s u : State} {m : Msg} {rc : Nat}

/-! ## The message that is taken -/

theorem takeFrom_eq_some {now : Nat} {p : Msg → Bool} {l seen rest : List Msg} (h : takeFrom now p seen l = some (m, rest)) :
    ∃ pre post, l = pre ++ m :: post ∧ p m = true ∧ m.time + 10 + 3 * hops m.src m.dest ≤ now ∧
      (∀ x ∈ seen ++ pre, (x.src, x.dest, x.port) ≠ (m.src, m.dest, m.port)) ∧ rest = seen ++ pre ++ post := by
  induction l generalizing seen with
  | nil => simp [takeFrom] at h
  | cons y l ih =>
    unfold takeFrom at h
    split at h
    next htaken =>
      obtain ⟨rfl, rfl⟩ := Prod.mk.inj (Option.some.inj h)
      simp only [Bool.and_eq_true, decide_eq_true_eq, Bool.not_eq_true', List.any_eq_false] at htaken
      obtain ⟨⟨hp, htime⟩, hfirst⟩ := htaken
      refine ⟨[], l, rfl, hp, htime, fun x hx heq => ?_, by simp⟩
      simp only [Prod.mk.injEq] at heq
      exact hfirst x (by simpa using hx) heq
    next =>
      obtain ⟨pre, post, rfl, hp, htime, hfirst, rfl⟩ := ih h
      exact ⟨y :: pre, post, rfl, hp, htime, by simpa using hfirst, by simp⟩

theorem State.takeMsg_eq_some {c : Chan} {p : Msg → Bool} (h : s.takeMsg c rc p = some (m, u)) :
    ∃ pre post, s.mesh.chan c = pre ++ m :: post ∧ p m = true ∧ m.time + 10 + 3 * hops m.src m.dest ≤ s.now rc ∧
      (∀ x ∈ pre, (x.src, x.dest, x.port) ≠ (m.src, m.dest, m.port)) ∧ u = { s with mesh := s.mesh.setChan c (pre ++ post) } := by
  obtain ⟨⟨m', rest⟩, htake, heq⟩ := Option.map_eq_some_iff.1 h
  obtain ⟨rfl, rfl⟩ := Prod.mk.inj heq
  obtain ⟨pre, post, hchan, hp, htime, hfirst, rfl⟩ := takeFrom_eq_some htake
  exact ⟨pre, post, hchan, hp, htime, by simpa using hfirst, rfl⟩

theorem State.takeMsg_test {c : Chan} {p : Msg → Bool} (h : s.takeMsg c rc p = some (m, u)) : p m = true := by
  obtain ⟨-, -, -, hp, -⟩ := State.takeMsg_eq_some h
  exact hp

/-- A message taken for a unit is bound for it. -/
theorem Msg.dest_of_isFor {router port : Nat} {b : Bool} (h : (m.isFor router port && b) = true) : m.dest = router := by
  simp only [Msg.isFor, Bool.and_eq_true, decide_eq_true_eq] at h
  exact h.1.1

/-- The machine without the message taken is as it was, but for that channel. -/
theorem State.takeMsg_routers {c : Chan} {p : Msg → Bool} (h : s.takeMsg c rc p = some (m, u)) : u.mesh.routers = s.mesh.routers := by
  obtain ⟨-, -, -, -, -, -, rfl⟩ := State.takeMsg_eq_some h
  cases c <;> rfl

theorem State.tile_takeMsg {c : Chan} {p : Msg → Bool} (h : s.takeMsg c rc p = some (m, u)) (n : Nat) : u.tile n = s.tile n := by
  rw [State.takeMsg_frame h]
  rfl

theorem State.now_takeMsg {c : Chan} {p : Msg → Bool} (h : s.takeMsg c rc p = some (m, u)) (n : Nat) : u.now n = s.now n := by
  rw [State.takeMsg_frame h]
  rfl

/-! ## Delivery -/

theorem State.sawMsg_frame (s : State) (m : Msg) (rc : Nat) :
    s.sawMsg m rc = { s with mesh := { s.mesh with routers := (s.sawMsg m rc).mesh.routers } } := by
  unfold State.sawMsg
  dsimp only
  split <;> rfl

@[simp] theorem State.tile_sawMsg (s : State) (m : Msg) (rc n : Nat) : (s.sawMsg m rc).tile n = s.tile n := by
  rw [State.sawMsg_frame]
  rfl

/-- The latency of a message of high priority (R163). -/
theorem State.sawMsg_high {x : MeshMsg} (hmsg : m.msg = x) (hchan : x.chan = .vc1) :
    (SMap.get (s.sawMsg m rc).mesh.routers {} m.dest).peakHigh =
      max (SMap.get s.mesh.routers {} m.dest).peakHigh (min (s.now rc - m.time) 4294967295) := by
  unfold State.sawMsg State.updRouter
  rw [hmsg, hchan]
  dsimp only
  rw [SMap.get_upd, if_pos rfl]

/-- An unscheduled message without an error is delivered, and its latency counted (R161, R163). -/
theorem State.deliver_unscheduled {c : Chan} (act : State → State) (hchan : m.msg.chan = c) (hc : c ≠ .qreq ∧ c ≠ .qresp) :
    s.deliver m rc {} act = act (s.sawMsg m rc) := by
  unfold State.deliver
  dsimp only
  rw [if_neg Bool.false_ne_true, Bool.false_and, if_neg Bool.false_ne_true]
  split
  next h => exact absurd (hchan.symm.trans h) hc.1
  next h => exact absurd (hchan.symm.trans h) hc.2
  next => rfl

/-! ## Wide cycles of the queues (R120) -/

/-- Where no narrow access waits, the cycle taken joins the fills and nothing else changes. -/
theorem State.takeFill_narrowless {tile : TileNo} {line : Nat} {entry : Option Nat} (hsome : (s.takeFill tile rc line entry).isSome = true)
    (hnarrow : (s.tile tile.toNat).narrow = []) :
    ∃ f, s.takeFill tile rc line entry = some (s.setTile tile.toNat { s.tile tile.toNat with fills := (s.tile tile.toNat).fills ++ [f] }) := by
  unfold State.takeFill at hsome ⊢
  dsimp only at hsome ⊢
  split at hsome
  · exact absurd hsome (by simp)
  next hfree =>
    rw [if_neg hfree, State.checkNarrow_nil _ _ (by rw [State.tile_setTile_same]; exact hnarrow)]
    exact ⟨_, rfl⟩

/-! ## What a report and an abort leave of the mesh (R161, R198, R204) -/

/-- What a fault's report leaves alone. -/
def State.besideReport (s : State) : Cells × Memory × SMap Part × List Msg × SMap Router :=
  (s.spad, s.mem, s.parts, s.mesh.qresp, s.mesh.routers)

theorem State.report_besideReport (s : State) (f : FaultInfo) : (s.report f).besideReport = s.besideReport := by
  unfold State.report State.setReport
  dsimp only
  (repeat' split) <;> rfl

theorem State.faultDrop_besideReport (s : State) (f : FaultInfo) : (s.faultDrop f).besideReport = s.besideReport := by
  rw [State.faultDrop, State.countFault_frame]
  exact s.report_besideReport f

theorem State.loads_setReport (s : State) (f : FaultInfo) (r : Report) (n : Nat) : ((s.setReport f r).tile n).loads = (s.tile n).loads := by
  unfold State.setReport
  split
  next k _ =>
    by_cases hn : n = k.toNat
    · rw [hn, State.tile_updTile_same]
    · rw [State.tile_updTile_other _ _ _ _ hn]
  next => rfl

theorem State.loads_report (s : State) (f : FaultInfo) (n : Nat) : ((s.report f).tile n).loads = (s.tile n).loads := by
  unfold State.report
  dsimp only
  split
  · exact s.loads_setReport f _ n
  · split
    · split
      · exact State.loads_setReport (s.updFu fun u => { u with unreported := bump32 u.unreported }) f _ n
      · rfl
    · exact s.loads_setReport f _ n

theorem State.loads_faultDrop (s : State) (f : FaultInfo) (n : Nat) : ((s.faultDrop f).tile n).loads = (s.tile n).loads := by
  rw [State.faultDrop, State.countFault_frame]
  exact s.loads_report f n

theorem State.abortHere_qresp (s : State) (p frame : Nat) (v : VariantSel) (streams : Line) :
    (s.abortHere p frame v streams).mesh.qresp = s.mesh.qresp := by
  obtain ⟨a, h⟩ | h | ⟨-, h⟩ := s.abortHere_cases p frame v streams <;> rw [h]
  · rfl
  · rw [State.dropWaits_mesh]
    rfl

theorem State.abortAll_qresp (s : State) (code : BitVec 8) (v : VariantSel) (ps : List Nat) :
    (s.abortAll code v ps).mesh.qresp = s.mesh.qresp := by
  unfold State.abortAll
  split
  · rfl
  · refine foldl_keeps (fun u : State => u.mesh.qresp) (fun t p => t.abortOne code v p) (fun t p => ?_) _ _
    obtain ⟨streams, seen, x, h⟩ := t.abortOne_eq code v p
    rw [h, State.flood_frame]
    exact t.abortHere_qresp p t.fu.frame v streams

theorem State.fault_qresp (s : State) (f : FaultInfo) : (s.fault f).mesh.qresp = s.mesh.qresp := by
  have hcount : ((s.report f).countFault f).mesh.qresp = s.mesh.qresp := congrArg (·.2.2.2.1) (s.faultDrop_besideReport f)
  unfold State.fault State.abortTag
  split
  · rw [State.abortAll_qresp, hcount]
  · exact hcount

/-! ## Routers passed -/

theorem State.passRouters_frame (s : State) (rs : List Nat) :
    s.passRouters rs = { s with mesh := { s.mesh with routers := (s.passRouters rs).mesh.routers } } := by
  induction rs generalizing s with
  | nil => rfl
  | cons r rs ih =>
    rw [State.passRouters, List.foldl_cons, ← State.passRouters, ih]
    rfl

theorem State.passRouters_dropped (s : State) (rs : List Nat) (k : Nat) :
    (SMap.get (s.passRouters rs).mesh.routers {} k).dropped = (SMap.get s.mesh.routers {} k).dropped := by
  refine foldl_keeps (fun u : State => (SMap.get u.mesh.routers {} k).dropped)
    (fun u (r : Nat) => u.updRouter r (fun x => { x with queue := x.queue + 1 })) (fun u r => ?_) rs s
  rw [State.updRouter, SMap.get_upd]
  split
  next h => rw [h]
  next => rfl

end Sys2Proof.Machine
end

section
/-! Certificate of O22: messages arrive, one at a time and in their order, and bad flits do not land (R129-R132, R155, R161, R204), a lemma
for each message. -/

namespace Sys2Proof.Machine

variable {s u : State} {m : Msg} {rc : Nat} {tile : TileNo}

/-! ## Grants and revokes -/

theorem creditGrant_mirrors {entry : Nat} {c : Credit}
    (htake : s.takeMsg .vc1 rc (fun m => m.isFor tile.toNat 0 && decide (m.msg.op = 0x01)) = some (m, u)) (hmsg : m.msg = .grant entry c) :
    ∃ t, exec (.creditGrant tile rc {}) s = .next t ∧ t.mesh.vc1 = u.mesh.vc1 ∧ (m.src, entry, c) ∈ (t.tile tile.toNat).mirrors ∧
      (∀ x ∈ (t.tile tile.toNat).mirrors, x.1 = m.src → x.2.1 = entry → x.2.2 = c) ∧ t.spad = s.spad ∧
      (SMap.get t.mesh.routers {} tile.toNat).peakHigh =
        max (SMap.get s.mesh.routers {} tile.toNat).peakHigh (min (s.now rc - m.time) 4294967295) := by
  have hdest := Msg.dest_of_isFor (State.takeMsg_test htake)
  have hexec : exec (.creditGrant tile rc {}) s = .next ((u.sawMsg m rc).updTile tile.toNat (fun t =>
      { t with mirrors := t.mirrors.filter (fun x => decide ((x.1, x.2.1) ≠ (m.src, entry))) ++ [(m.src, entry, c)] })) := by
    change execCreditGrant tile rc {} s = _
    unfold execCreditGrant
    rw [htake]
    dsimp only
    rw [State.deliver_unscheduled (c := .vc1) _ (by rw [hmsg]; rfl) (by decide), hmsg]
  refine ⟨_, hexec, ?_, ?_, ?_, ?_, ?_⟩
  · rw [State.updTile_mesh, State.sawMsg_frame]
  · rw [State.tile_updTile_same]
    simp
  · rw [State.tile_updTile_same]
    intro x hx hsrc hentry
    rcases List.mem_append.1 hx with hold | hnew
    · have hother := (List.mem_filter.1 hold).2
      simp [hsrc, hentry] at hother
    · rw [List.mem_singleton.1 hnew]
  · rw [State.updTile_spad, State.sawMsg_frame, State.takeMsg_frame htake]
  · rw [State.updTile_mesh, ← hdest, State.sawMsg_high hmsg rfl, State.takeMsg_routers htake, State.now_takeMsg htake]

theorem creditRevoke_mirrors {entry : Nat}
    (htake : s.takeMsg .vc1 rc (fun m => m.isFor tile.toNat 0 && decide (m.msg.op = 0x02)) = some (m, u)) (hmsg : m.msg = .revoke entry) :
    ∃ t, exec (.creditRevoke tile rc {}) s = .next t ∧ t.mesh.vc1 = u.mesh.vc1 ∧ t.spad = s.spad ∧
      (t.tile tile.toNat).mirrors = (s.tile tile.toNat).mirrors.filter (fun x => decide ((x.1, x.2.1) ≠ (m.src, entry))) := by
  have hexec : exec (.creditRevoke tile rc {}) s = .next ((u.sawMsg m rc).updTile tile.toNat (fun t =>
      { t with mirrors := t.mirrors.filter (fun x => decide ((x.1, x.2.1) ≠ (m.src, entry))) })) := by
    change execCreditRevoke tile rc {} s = _
    unfold execCreditRevoke
    rw [htake]
    dsimp only
    rw [State.deliver_unscheduled (c := .vc1) _ (by rw [hmsg]; rfl) (by decide), hmsg]
  refine ⟨_, hexec, ?_, ?_, ?_⟩
  · rw [State.updTile_mesh, State.sawMsg_frame]
  · rw [State.updTile_spad, State.sawMsg_frame, State.takeMsg_frame htake]
  · rw [State.tile_updTile_same, State.tile_sawMsg, State.tile_takeMsg htake]

/-! ## Fault reports -/

theorem self_mem_insertRising (l : List Nat) (n : Nat) : n ∈ insertRising l n := by
  induction l with
  | nil => simp [insertRising]
  | cons y l ih =>
    unfold insertRising
    split
    · simp
    · split
      next h => simp [h]
      next => exact List.mem_cons_of_mem _ ih

theorem faultReport_enters {w : BitVec 256}
    (htake : s.takeMsg .vc0 rc (fun m => m.isFor 313 1 && decide (m.msg.op = 0x03)) = some (m, u)) (hmsg : m.msg = .fault w)
    (hroom : s.recd.buffer.length < 512) :
    ∃ t, exec (.faultReport rc {}) s = .next t ∧ t.mesh.vc0 = u.mesh.vc0 ∧ t.mgmt.faultFifo = s.mgmt.faultFifo ++ [w] ∧
      1 ∈ t.mgmt.asserted ∧ (∃ r, t.recd.buffer = s.recd.buffer ++ [r] ∧ r.payload = .fault w ∧ r.seq = s.recd.next) := by
  have hrecd : (u.sawMsg m rc).recd = s.recd := by rw [State.sawMsg_frame, State.takeMsg_frame htake]
  have hmgmt : (u.sawMsg m rc).mgmt = s.mgmt := by rw [State.sawMsg_frame, State.takeMsg_frame htake]
  have hadmits : (u.sawMsg m rc).admits (Payload.fault w).kind = true := by
    simp [State.admits, hrecd, hroom, Payload.kind]
  let v := (u.sawMsg m rc).pushRec (.fault w) false
  have hexec : exec (.faultReport rc {}) s =
      .next (({ v with mgmt := { v.mgmt with faultFifo := v.mgmt.faultFifo ++ [w] } } : State).assertSrc 1) := by
    change execFaultReport rc {} s = _
    unfold execFaultReport
    rw [htake]
    dsimp only
    rw [Option.isSome_none, Bool.false_or, if_neg Bool.false_ne_true,
      State.deliver_unscheduled (c := .vc0) _ (by rw [hmsg]; rfl) (by decide), hmsg]
    dsimp only
    rw [State.record, if_pos hadmits]
  refine ⟨_, hexec, ?_, ?_, self_mem_insertRising _ 1, ?_⟩
  · change (u.sawMsg m rc).mesh.vc0 = u.mesh.vc0
    rw [State.sawMsg_frame]
  · change (u.sawMsg m rc).mgmt.faultFifo ++ [w] = s.mgmt.faultFifo ++ [w]
    rw [hmgmt]
  · rw [← hrecd]
    exact ⟨_, rfl, rfl, rfl⟩

/-! ## Remote reads -/

theorem remoteReadRequest_waits {entry line epoch : Nat}
    (htake : s.takeMsg .vc2 rc (fun m => m.isFor tile.toNat 0 && decide (m.msg.op = 0x08)) = some (m, u))
    (hmsg : m.msg = .readReq entry line epoch) (howns : (s.tile tile.toNat).owns line 1 m.tag = true) :
    ∃ t, exec (.remoteReadRequest tile rc {}) s = .next t ∧ t.mesh.vc2 = u.mesh.vc2 ∧ t.spad = s.spad ∧
      (t.tile tile.toNat).remote = (s.tile tile.toNat).remote ++ [(m.src, entry, line, m.tag, epoch)] := by
  have hexec : exec (.remoteReadRequest tile rc {}) s = .next ((u.sawMsg m rc).updTile tile.toNat (fun t =>
      { t with remote := t.remote ++ [(m.src, entry, line, m.tag, epoch)] })) := by
    change execRemoteReadRequest tile rc {} s = _
    unfold execRemoteReadRequest
    rw [htake]
    dsimp only
    rw [State.deliver_unscheduled (c := .vc2) _ (by rw [hmsg]; rfl) (by decide), hmsg]
    dsimp only
    rw [if_neg (by rw [State.tile_sawMsg, State.tile_takeMsg htake, howns]; decide)]
  refine ⟨_, hexec, ?_, ?_, ?_⟩
  · rw [State.updTile_mesh, State.sawMsg_frame]
  · rw [State.updTile_spad, State.sawMsg_frame, State.takeMsg_frame htake]
  · rw [State.tile_updTile_same, State.tile_sawMsg, State.tile_takeMsg htake]

theorem remoteReadServe_answers {req entry line epoch : Nat} {tag : Tag} {rest : List (Nat × Nat × Nat × Tag × Nat)}
    (hremote : (s.tile tile.toNat).remote = (req, entry, line, tag, epoch) :: rest)
    (hfill : (s.takeFill tile rc line none).isSome = true) (hnarrow : (s.tile tile.toNat).narrow = [])
    (hnarrowW : (s.tile tile.toNat).narrowW = []) (hserved : ∀ n, (s.tile tile.toNat).served = some n → n + 8 ≤ s.now rc) :
    ∃ t m, exec (.remoteReadServe tile rc []) s = .next t ∧ (t.tile tile.toNat).remote = rest ∧ t.spad = s.spad ∧
      (t.tile tile.toNat).served = some (s.now rc) ∧ t.mesh.vc3 = s.mesh.vc3 ++ [m] ∧ m.time = s.now rc ∧
      m.says = (tile.toNat, req, 0, tag, .readResp entry (s.padLine tile.toNat line) epoch) := by
  obtain ⟨f, hf⟩ := State.takeFill_narrowless hfill hnarrow
  let v := (s.setTile tile.toNat { s.tile tile.toNat with fills := (s.tile tile.toNat).fills ++ [f] }).updTile tile.toNat (fun x =>
    { x with remote := rest, served := some (s.now rc) })
  have htile : v.tile tile.toNat =
      { s.tile tile.toNat with fills := (s.tile tile.toNat).fills ++ [f], remote := rest, served := some (s.now rc) } := by
    rw [State.tile_updTile_same, State.tile_setTile_same]
  have hexec : exec (.remoteReadServe tile rc []) s = .next (v.sendMsg tile.toNat req 0 tag (s.now rc)
      (.readResp entry (s.padLine tile.toNat line) epoch)) := by
    change execRemoteReadServe tile rc [] s = _
    unfold execRemoteReadServe
    dsimp only
    rw [hremote]
    dsimp only
    rw [if_neg, hf]
    · dsimp only
      rw [State.settleLines_nil _ _ _ _ (by rw [htile]; exact hnarrowW)]
      rfl
    · intro hrecent
      obtain ⟨n, hn, hlt⟩ := (Option.any_eq_true _ _).1 hrecent
      exact absurd (hserved n hn) (Nat.not_le.2 (of_decide_eq_true hlt))
  refine ⟨_, v.msgOf tile.toNat req 0 tag (s.now rc) (.readResp entry (s.padLine tile.toNat line) epoch), hexec, ?_, ?_, ?_, ?_, rfl, rfl⟩
  · change (v.tile tile.toNat).remote = rest
    rw [htile]
  · rw [State.sendMsg_spad, State.updTile_spad, State.setTile_spad]
  · change (v.tile tile.toNat).served = some (s.now rc)
    rw [htile]
  · exact State.chan_sendMsg_same v tile.toNat req 0 tag (s.now rc) (.readResp entry (s.padLine tile.toNat line) epoch)

/-- A tile with one more fill and a beat of a load entry. -/
def Tile.beaten (t : Tile) (f : FillUse) (entry : Nat) (e : QEntry) : Tile :=
  { t with fills := t.fills ++ [f], loads := SMap.set t.loads {} entry e }

theorem State.resume_unheld (rc : Nat) (h : s.fu.hold = none) : s.resume rc = s := by
  rw [State.resume, h]

theorem State.landLoad_lands {entry index epoch : Nat} {l : Line} {tag : Tag} (hst : ((s.tile tile.toNat).load entry).st = .issued)
    (hepoch : ((s.tile tile.toNat).load entry).epoch = epoch) (hhalf : ((s.tile tile.toNat).load entry).toHalf = none)
    (howns : (s.tile tile.toNat).owns (((s.tile tile.toNat).load entry).line + index) 1 tag = true)
    (hfill : (s.takeFill tile rc (((s.tile tile.toNat).load entry).line + index) (some entry)).isSome = true)
    (hnarrow : (s.tile tile.toNat).narrow = []) (hnarrowW : (s.tile tile.toNat).narrowW = []) (hhold : s.fu.hold = none) :
    ∃ (v : State) (f : FillUse), s.landLoad tile entry index l tag epoch rc =
        some (v.setPadLine tile.toNat (((s.tile tile.toNat).load entry).line + index) l) ∧
      v.mesh = s.mesh ∧ v.spad = s.spad ∧
      v.tile tile.toNat = (s.tile tile.toNat).beaten f entry (((s.tile tile.toNat).load entry).beat (s.now rc)) := by
  obtain ⟨f, hf⟩ := State.takeFill_narrowless hfill hnarrow
  let v := (s.setTile tile.toNat { s.tile tile.toNat with fills := (s.tile tile.toNat).fills ++ [f] }).updTile tile.toNat (fun x =>
    { x with loads := SMap.set x.loads {} entry (((s.tile tile.toNat).load entry).beat (s.now rc)) })
  have htile : v.tile tile.toNat = (s.tile tile.toNat).beaten f entry (((s.tile tile.toNat).load entry).beat (s.now rc)) := by
    rw [State.tile_updTile_same, State.tile_setTile_same, Tile.beaten]
  refine ⟨v, f, ?_, rfl, rfl, htile⟩
  unfold State.landLoad
  dsimp only
  rw [if_neg (by simp [hst, hepoch]), hhalf]
  dsimp only
  rw [if_neg (by simp [howns]), hf, Option.map_some]
  refine congrArg some ?_
  rw [State.settleLines_nil _ _ _ _ (by rw [htile]; exact hnarrowW)]
  exact State.resume_unheld rc hhold

/-- The free wide cycle does not depend on the mesh. -/
theorem State.takeFill_isSome_mesh (s : State) (x : Mesh) (tile : TileNo) (rc line : Nat) (entry : Option Nat) :
    (({ s with mesh := x } : State).takeFill tile rc line entry).isSome = (s.takeFill tile rc line entry).isSome := by
  simp only [State.takeFill, apply_ite Option.isSome, Option.isSome_none, Option.isSome_some]
  rfl

/-- The machine to which a message has been delivered differs from the one before in its mesh. -/
theorem State.delivered_frame {c : Chan} {p : Msg → Bool} (htake : s.takeMsg c rc p = some (m, u)) :
    u.sawMsg m rc = { s with mesh := (u.sawMsg m rc).mesh } := by
  rw [State.sawMsg_frame, State.takeMsg_frame htake]

theorem remoteReadResponse_lands {entry epoch : Nat} {l : Line}
    (htake : s.takeMsg .vc3 rc (fun m => m.isFor tile.toNat 0 && decide (m.msg.op = 0x09)) = some (m, u))
    (hmsg : m.msg = .readResp entry l epoch) (hst : ((s.tile tile.toNat).load entry).st = .issued)
    (hepoch : ((s.tile tile.toNat).load entry).epoch = epoch) (hhalf : ((s.tile tile.toNat).load entry).toHalf = none)
    (howns : (s.tile tile.toNat).owns ((s.tile tile.toNat).load entry).line 1 m.tag = true)
    (hfill : (s.takeFill tile rc ((s.tile tile.toNat).load entry).line (some entry)).isSome = true)
    (hnarrow : (s.tile tile.toNat).narrow = []) (hnarrowW : (s.tile tile.toNat).narrowW = []) (hhold : s.fu.hold = none)
    (hlast : ((s.tile tile.toNat).load entry).lines = ((s.tile tile.toNat).load entry).done + 1) :
    let e := (s.tile tile.toNat).load entry
    ∃ t, exec (.remoteReadResponse tile rc {}) s = .next t ∧ t.mesh.vc3 = u.mesh.vc3 ∧
      t.padLine tile.toNat e.line = l ∧ PadOutside tile.toNat e.line 1 s t ∧
      (t.tile tile.toNat).load entry = { e with done := e.done + 1, st := .complete, doneAt := s.now rc } := by
  intro e
  have hframe := State.delivered_frame htake
  have htile : (u.sawMsg m rc).tile tile.toNat = s.tile tile.toNat := by rw [State.tile_sawMsg, State.tile_takeMsg htake]
  have hnow : (u.sawMsg m rc).now rc = s.now rc := by rw [hframe]; rfl
  have hbeat : e.beat (s.now rc) = { e with done := e.done + 1, st := .complete, doneAt := s.now rc } := if_pos (Nat.le_of_eq hlast)
  obtain ⟨v, f, hland, hmesh, hspad, hvtile⟩ := State.landLoad_lands (s := u.sawMsg m rc) (tile := tile) (rc := rc) (entry := entry)
    (index := 0) (epoch := epoch) (l := l) (tag := m.tag) (by rw [htile, hst]) (by rw [htile, hepoch]) (by rw [htile, hhalf])
    (by rw [htile, Nat.add_zero, howns]) (by rw [htile, hframe, State.takeFill_isSome_mesh, Nat.add_zero, hfill])
    (by rw [htile, hnarrow]) (by rw [htile, hnarrowW]) (by rw [hframe, hhold])
  rw [htile, Nat.add_zero] at hland
  rw [htile, hnow] at hvtile
  have hexec : exec (.remoteReadResponse tile rc {}) s = .next (v.setPadLine tile.toNat e.line l) := by
    change execRemoteReadResponse tile rc {} s = _
    unfold execRemoteReadResponse
    rw [htake]
    dsimp only
    rw [hmsg]
    dsimp only
    rw [State.landBeat, if_neg (by decide), State.deliver_unscheduled (c := .vc3) _ (by rw [hmsg]; rfl) (by decide), id, hland]
  refine ⟨_, hexec, ?_, State.padLine_setPadLine_same v _ _ _, ?_, ?_⟩
  · rw [State.setPadLine_mesh, hmesh, State.sawMsg_frame]
  · intro a ha
    rw [State.setPadLine_out v _ _ _ a ha, hspad, hframe]
  · rw [State.tile_setPadLine_of, hvtile, Tile.load, Tile.beaten, SMap.get_set_same]
    exact hbeat

/-! ## Bad flits (R161) -/

theorem MeshMsg.eq_loadData_of_op {x : MeshMsg} (h : x.op = 0x11) : ∃ entry index l epoch, x = .loadData entry index l epoch := by
  cases x with
  | loadData entry index l epoch => exact ⟨entry, index, l, epoch, rfl⟩
  | _ => simp [MeshMsg.op] at h

/-- What is taken of the queue responses for a tile is a beat. -/
theorem Msg.beat_of_test (h : (m.isFor tile.toNat 0 && decide (m.msg.op = 0x11)) = true) :
    ∃ entry index l epoch, m.msg = .loadData entry index l epoch := by
  simp only [Bool.and_eq_true, decide_eq_true_eq] at h
  exact MeshMsg.eq_loadData_of_op h.2

/-- A beat with a bad flit is not landed. -/
theorem exec_loadData_bad {bad : FlitBad} (htake : s.takeMsg .qresp rc (fun m => m.isFor tile.toNat 0 && decide (m.msg.op = 0x11)) = some (m, u))
    (hbad : (bad.header.isSome || bad.parity) = true) : exec (.loadData tile rc bad) s = .next (u.deliver m rc bad id) := by
  obtain ⟨entry, index, l, epoch, hmsg⟩ := Msg.beat_of_test (State.takeMsg_test htake)
  change execLoadData tile rc bad s = _
  unfold execLoadData
  rw [htake]
  dsimp only
  rw [hmsg]
  dsimp only
  rw [State.landBeat, if_pos hbad]

theorem State.dropMsg_qresp (hchan : m.msg.chan = .qresp) (hop : Nat) :
    ∃ f, s.dropMsg m hop rc = (((s.passRouters ((routeOf m.src m.dest).take hop)).updRouter (routerAfter m.src m.dest hop)
      (fun x => { x with dropped := bump32 x.dropped })).routerError (routerAfter m.src m.dest hop)).faultDrop f := by
  unfold State.dropMsg
  rw [hchan]
  exact ⟨_, rfl⟩

theorem loadData_dropped {h : Nat} {par enc : Bool}
    (htake : s.takeMsg .qresp rc (fun m => m.isFor tile.toNat 0 && decide (m.msg.op = 0x11)) = some (m, u)) :
    let r := routerAfter m.src m.dest h
    ∃ t, exec (.loadData tile rc ⟨some h, par, enc⟩) s = .next t ∧ t.mesh.qresp = u.mesh.qresp ∧ t.spad = s.spad ∧ t.mem = s.mem ∧
      (t.tile tile.toNat).loads = (s.tile tile.toNat).loads ∧ t.parts = s.parts ∧
      (SMap.get t.mesh.routers {} r).dropped = bump32 (SMap.get s.mesh.routers {} r).dropped := by
  intro r
  obtain ⟨entry, index, l, epoch, hmsg⟩ := Msg.beat_of_test (State.takeMsg_test htake)
  obtain ⟨f, hdrop⟩ := State.dropMsg_qresp (s := u) (m := m) (rc := rc) (by rw [hmsg]; rfl) h
  let v := ((u.passRouters ((routeOf m.src m.dest).take h)).updRouter r (fun x => { x with dropped := bump32 x.dropped })).routerError r
  have hv : v = { s with mesh := v.mesh } :=
    calc v = { u.passRouters ((routeOf m.src m.dest).take h) with mesh := v.mesh } := rfl
      _ = { u with mesh := v.mesh } := by rw [State.passRouters_frame]
      _ = { s with mesh := v.mesh } := by rw [State.takeMsg_frame htake]
  have hqresp : v.mesh.qresp = u.mesh.qresp := by
    change (u.passRouters _).mesh.qresp = u.mesh.qresp
    rw [State.passRouters_frame]
  have hrouter : (SMap.get v.mesh.routers {} r).dropped = bump32 (SMap.get s.mesh.routers {} r).dropped := by
    simp only [v, State.routerError, State.updRouter, SMap.get_upd, if_true]
    rw [State.passRouters_dropped, State.takeMsg_routers htake]
  obtain ⟨hspad, hmem, hparts, hresp, hrouters⟩ : _ ∧ _ ∧ _ ∧ _ ∧ _ := by
    simpa only [State.besideReport, Prod.mk.injEq] using v.faultDrop_besideReport f
  refine ⟨v.faultDrop f, by rw [exec_loadData_bad htake rfl]; exact congrArg Host.Outcome.next hdrop, ?_, ?_, ?_, ?_, ?_, ?_⟩
  · rw [hresp, hqresp]
  · rw [hspad, hv]
  · rw [hmem, hv]
  · rw [State.loads_faultDrop, hv]
    rfl
  · rw [hparts, hv]
  · rw [hrouters, hrouter]

/-- Data with bad parity at their ejection are a fault of their partition (R161). -/
theorem State.deliver_poisoned (hchan : m.msg.chan = .qresp) (enc : Bool) (act : State → State) :
    ∃ f, f.tag = m.tag ∧ s.deliver m rc ⟨none, true, enc⟩ act = ((s.passQueue m.src m.dest).routerError m.dest).fault f := by
  unfold State.deliver
  dsimp only
  rw [hchan]
  exact ⟨_, rfl, rfl⟩

theorem loadData_poisoned {enc : Bool}
    (htake : s.takeMsg .qresp rc (fun m => m.isFor tile.toNat 0 && decide (m.msg.op = 0x11)) = some (m, u)) (hpart : m.tag.toNat < 128) :
    ∃ t, exec (.loadData tile rc ⟨none, true, enc⟩) s = .next t ∧ t.mesh.qresp = u.mesh.qresp ∧ t.spad = s.spad ∧
      AbortsIn m.tag.toNat s t := by
  obtain ⟨entry, index, l, epoch, hmsg⟩ := Msg.beat_of_test (State.takeMsg_test htake)
  obtain ⟨f, htag, hpoison⟩ := State.deliver_poisoned (s := u) (m := m) (rc := rc) (by rw [hmsg]; rfl) enc id
  have hpassed : u.passQueue m.src m.dest = { s with mesh := (u.passQueue m.src m.dest).mesh } :=
    calc u.passQueue m.src m.dest = { u with mesh := (u.passQueue m.src m.dest).mesh } := by rw [State.passQueue, State.passRouters_frame]
      _ = { s with mesh := (u.passQueue m.src m.dest).mesh } := by rw [State.takeMsg_frame htake]
  have hparts : (u.passQueue m.src m.dest).parts = s.parts := by rw [hpassed]
  have hframe : (u.passQueue m.src m.dest).fu = s.fu := by rw [hpassed]
  have haborts := State.fault_aborts ((u.passQueue m.src m.dest).routerError m.dest) f (by rw [htag]; exact decide_eq_true hpart)
  refine ⟨_, by rw [exec_loadData_bad htake rfl, hpoison], ?_, ?_, fun hbehind => ?_⟩
  · rw [State.fault_qresp]
    change (u.passQueue m.src m.dest).mesh.qresp = u.mesh.qresp
    rw [State.passQueue, State.passRouters_frame]
  · rw [State.fault_spad]
    change (u.passQueue m.src m.dest).spad = s.spad
    rw [hpassed]
  · refine htag ▸ haborts ?_
    change ((u.passQueue m.src m.dest).part f.tag.toNat).replayed.all (fun r => decide (r ≤ (u.passQueue m.src m.dest).fu.frame)) = true
    rw [State.part_congr hparts, hframe, htag]
    exact hbehind

end Sys2Proof.Machine
end

section
open Sys2Proof Sys2Proof.Machine

/-- Settles O22: `State.takeMsg_eq_some`; `creditGrant_mirrors`, `creditRevoke_mirrors`, `faultReport_enters`, `remoteReadRequest_waits`,
`remoteReadServe_answers` and `remoteReadResponse_lands`; `loadData_dropped` and `loadData_poisoned`. -/
theorem messagesArriveInOrderAndWhole : Obligations.MessagesArriveInOrderAndWhole := by
  unfold Obligations.MessagesArriveInOrderAndWhole
  refine ⟨fun c rc p m s u => State.takeMsg_eq_some, ⟨fun tile entry rc c m s u => creditGrant_mirrors,
    fun tile entry rc m s u => creditRevoke_mirrors, fun rc w m s u => faultReport_enters,
    fun tile entry line rc epoch m s u => remoteReadRequest_waits, ?_, ?_⟩, ?_, ?_⟩
  · exact fun tile rc req entry line epoch tag rest s => remoteReadServe_answers
  · exact fun tile rc entry epoch l m s u => remoteReadResponse_lands
  · exact fun tile rc h par enc m s u => loadData_dropped
  · exact fun tile rc enc m s u => loadData_poisoned

end

section
/-! SUPPORT. Every command has a next state, with the queue that it ran on: the relation between a state and an outcome, the operations whose
answer holds the next state, and the commands that run an act or branch widely, one by one. -/

namespace Sys2Proof.Machine

/-- The outcome is a next state, whose queue is that of `s`. -/
def NextKeepsQueue (s : State) (o : Host.Outcome State Fault Refusal) : Prop := ∃ t, o = .next t ∧ t.pending = s.pending

variable {s t u : State} {o o' : Host.Outcome State Fault Refusal}

theorem NextKeepsQueue.of_pending (h : t.pending = s.pending) : NextKeepsQueue s (.next t) := ⟨t, rfl, h⟩

theorem NextKeepsQueue.idle (s : State) : NextKeepsQueue s (.next s) := .of_pending rfl

theorem NextKeepsQueue.after (h : t.pending = s.pending) (k : NextKeepsQueue t o) : NextKeepsQueue s o := by
  obtain ⟨u, hu, hqueue⟩ := k
  exact ⟨u, hu, hqueue.trans h⟩

theorem pending_ite {c : Prop} [Decidable c] (ht : t.pending = s.pending) (hu : u.pending = s.pending) :
    (if c then t else u).pending = s.pending := by
  split
  · exact ht
  · exact hu

/-! ### Operations whose answer holds the next state -/

theorem State.takeMsg_pending {c : Chan} {rc : Nat} {p : Msg → Bool} {m : Msg} (h : s.takeMsg c rc p = some (m, u)) :
    u.pending = s.pending := by
  rw [State.takeMsg_frame h]

theorem State.checkLines_eq_pending {tile : TileNo} {line n : Nat} {errs : ReadErrs} {k : Option Nat}
    (h : s.checkLines tile line n errs = (u, k)) : u.pending = s.pending := by
  rw [← s.checkLines_pending tile line n errs, h]

theorem State.takeFill_pending {tile : TileNo} {rc line : Nat} {entry : Option Nat} (h : s.takeFill tile rc line entry = some u) :
    u.pending = s.pending := by
  unfold State.takeFill at h
  dsimp only at h
  split at h
  · cases h
  · cases h
    simp

theorem State.landLoad_pending {tile : TileNo} {entry index : Nat} {l : Line} {tag : Tag} {epoch rc : Nat}
    (h : s.landLoad tile entry index l tag epoch rc = some u) : u.pending = s.pending := by
  unfold State.landLoad at h
  dsimp only at h
  split at h
  · cases h
    rfl
  · split at h
    · split at h <;> cases h <;> simp
    · split at h
      · cases h
        simp
      · obtain ⟨w, hfill, rfl⟩ := Option.map_eq_some_iff.1 h
        exact .trans (by simp) (State.takeFill_pending hfill)

theorem State.landBeat_pending (hu : u.pending = s.pending) (m : Msg) (tile : TileNo) (entry index : Nat) (l : Line) (epoch rc : Nat)
    (bad : FlitBad) : (s.landBeat m tile entry index l epoch rc bad u).pending = s.pending := by
  have hdelivered : (u.deliver m rc bad id).pending = s.pending := by simpa using hu
  unfold State.landBeat
  split
  · exact hdelivered
  · split
    next hland => exact (State.landLoad_pending hland).trans hdelivered
    next => rfl

theorem State.openWindow_pending {n : SessNo} {part : Nat} {any : Bool} {kind mxtype access : BitVec 8} {bytes i : Nat}
    (h : s.openWindow n part any kind mxtype access bytes = some (u, i)) : u.pending = s.pending := by
  unfold State.openWindow at h
  split at h
  · cases h
  · split at h
    · cases h
    · have hrun := s.takeRun_pending part ((bytes + 16383) / 16384)
      split at h
      · cases h
      next hr =>
        rw [hr] at hrun
        cases h
        simpa using hrun

theorem State.sealPart_pending {p a : Nat} {mirror : Bool} {part : BitVec 16} {n : SessNo} {any : Bool} {r : RestorePart}
    (h : s.sealPart p a mirror part n any = some (u, r)) : u.pending = s.pending := by
  unfold State.sealPart at h
  dsimp only at h
  split at h
  · cases h
  next hwindow =>
    cases h
    exact .trans (by simp) (State.openWindow_pending hwindow)

/-- A message of a host session is refused at its gate or handed on with the state that the gate leaves. -/
theorem State.gate_keepsQueue (m : UwpMsg) (ok : Bool) {run : State → Host.Outcome State Fault Refusal}
    (hrun : ∀ t, NextKeepsQueue t (run t)) :
    NextKeepsQueue s (match s.gate m ok with | (t, false) => .next t | (t, true) => run t) := by
  have hgate := s.gate_pending m ok
  split
  next h => exact .of_pending (by rwa [h] at hgate)
  next h => exact .after (by rwa [h] at hgate) (hrun _)

/-! ### Instructions that run an act (R136, R141, R180-R186, R190) -/

theorem execXfer_keepsQueue (i : Issue) (src : Bool) (bank : BitVec 2) (reg : BitVec 4) (shift : BitVec 5) (line : BitVec 12)
    (rsvd : BitVec 22) (s : State) : NextKeepsQueue s (execXfer i src bank reg shift line rsvd s) := by
  refine .of_pending (State.issue_pending _ _ _ _ _ _ fun t => ⟨trivial, State.readReg_pending _ _ _ _ _ _ _ fun o r u => ⟨trivial, ?_⟩⟩)
  refine pending_ite (by simp) (pending_ite (by simp) (pending_ite (by simp) (State.useWide_pending _ _ _ _ _ fun w => ⟨trivial, ?_⟩)))
  exact pending_ite (by simp) (by simp)

theorem execFeed_keepsQueue (i : Issue) (line : BitVec 12) (seg : BitVec 2) (mreg : BitVec 3) (rsvd : BitVec 29) (errs : ReadErrs)
    (s : State) : NextKeepsQueue s (execFeed i line seg mreg rsvd errs s) := by
  refine .of_pending (State.issue_pending _ _ _ _ _ _ fun t => ⟨trivial, ?_⟩)
  refine pending_ite (by simp) (pending_ite (by simp) (State.useWide_pending _ _ _ _ _ fun u => ⟨trivial, ?_⟩))
  exact State.readChecked_pending _ _ _ _ _ _ _ fun w => ⟨trivial, by simp⟩

theorem execTload_keepsQueue (i : Issue) (half wfmt : Bool) (block : BitVec 4) (rsvd : BitVec 40) (errs : ReadErrs) (s : State) :
    NextKeepsQueue s (execTload i half wfmt block rsvd errs s) := by
  refine .of_pending (State.issue_pending _ _ _ _ _ _ fun t => ⟨trivial, ?_⟩)
  refine pending_ite (by simp) (pending_ite (by simp) (pending_ite (by simp) (pending_ite (by simp) (pending_ite (by simp)
    (State.useWide_pending _ _ _ _ _ fun u => ⟨trivial, State.readChecked_pending _ _ _ _ _ _ _ fun w => ⟨trivial, ?_⟩⟩)))))
  exact pending_ite (by simp) (by simp)

theorem execSend_keepsQueue (i : Issue) (srcline : BitVec 12) (plane : Bool) (destTile : TileNo) (destPort : BitVec 2)
    (destLine : BitVec 12) (xfer : BitVec 8) (add anyc : Bool) (errs : ReadErrs) (s : State) :
    NextKeepsQueue s (execSend i srcline plane destTile destPort destLine xfer add anyc errs s) := by
  refine .of_pending (State.issue_pending _ _ _ _ _ _ fun t => ⟨trivial, ?_⟩)
  refine pending_ite (by simp) (State.withCredit_pending _ _ _ _ _ _ _ _ fun u => ⟨trivial, ?_⟩)
  exact State.useWide_pending _ _ _ _ _ fun v => ⟨trivial, State.readChecked_pending _ _ _ _ _ _ _ fun w => ⟨trivial, by simp⟩⟩

theorem execSendr_keepsQueue (i : Issue) (src : Bool) (bank : BitVec 2) (reg : BitVec 4) (shift : BitVec 5) (plane : Bool)
    (destTile : TileNo) (destPort : BitVec 2) (destLine : BitVec 12) (xfer : BitVec 8) (rsvd : BitVec 1) (anyc : Bool) (s : State) :
    NextKeepsQueue s (execSendr i src bank reg shift plane destTile destPort destLine xfer rsvd anyc s) := by
  refine .of_pending (State.issue_pending _ _ _ _ _ _ fun t => ⟨trivial, State.readReg_pending _ _ _ _ _ _ _ fun o r u => ⟨trivial, ?_⟩⟩)
  exact pending_ite (by simp) (State.withCredit_pending _ _ _ _ _ _ _ _ fun w => ⟨trivial, by simp⟩)

theorem execRecv_keepsQueue (i : Issue) (link : BitVec 4) (slot line : BitVec 12) (lines entry : BitVec 6) (rsvd : BitVec 6) (s : State) :
    NextKeepsQueue s (execRecv i link slot line lines entry rsvd s) := by
  refine .of_pending (State.issue_pending _ _ _ _ _ _ fun t => ⟨trivial, ?_⟩)
  refine pending_ite (by simp) ?_
  split
  · simp
  · exact pending_ite (by simp) (pending_ite (by simp) (by simp))

theorem execEnd_keepsQueue (i : Issue) (gap : BitVec 16) (rsvd : BitVec 30) (s : State) :
    NextKeepsQueue s (execEnd i gap rsvd s) := by
  refine .of_pending (State.issueLast_pending _ _ _ _ _ fun t => ⟨trivial, ?_⟩)
  dsimp only
  split
  · exact pending_ite (by simp) (by simp)
  · simp

/-! ### Mesh, queues and stacks (R132, R148, R193, R206, R216) -/

theorem execCreditGrant_keepsQueue (tile : TileNo) (rc : Nat) (bad : FlitBad) (s : State) :
    NextKeepsQueue s (execCreditGrant tile rc bad s) := by
  unfold execCreditGrant
  split
  next m u htake =>
    refine .after (State.takeMsg_pending htake) (.of_pending (State.deliver_pending _ _ _ _ _ fun t => ⟨trivial, ?_⟩))
    split <;> simp
  next => exact .idle s

theorem execCreditRevoke_keepsQueue (tile : TileNo) (rc : Nat) (bad : FlitBad) (s : State) :
    NextKeepsQueue s (execCreditRevoke tile rc bad s) := by
  unfold execCreditRevoke
  split
  next m u htake =>
    refine .after (State.takeMsg_pending htake) (.of_pending (State.deliver_pending _ _ _ _ _ fun t => ⟨trivial, ?_⟩))
    split <;> simp
  next => exact .idle s

theorem execFaultReport_keepsQueue (rc : Nat) (bad : FlitBad) (s : State) : NextKeepsQueue s (execFaultReport rc bad s) := by
  unfold execFaultReport
  split
  next m u htake =>
    refine .after (State.takeMsg_pending htake) (.of_pending ((State.deliver_pending _ _ _ _ _ fun t => ⟨trivial, ?_⟩).trans ?_))
    · split <;> simp
    · exact pending_ite (by simp) rfl
  next => exact .idle s

theorem execRemoteReadRequest_keepsQueue (tile : TileNo) (rc : Nat) (bad : FlitBad) (s : State) :
    NextKeepsQueue s (execRemoteReadRequest tile rc bad s) := by
  unfold execRemoteReadRequest
  split
  next m u htake =>
    refine .after (State.takeMsg_pending htake) (.of_pending (State.deliver_pending _ _ _ _ _ fun t => ⟨trivial, ?_⟩))
    split
    · exact pending_ite (by simp) (by simp)
    · rfl
  next => exact .idle s

theorem execRemoteReadServe_keepsQueue (tile : TileNo) (rc : Nat) (errs : ReadErrs) (s : State) :
    NextKeepsQueue s (execRemoteReadServe tile rc errs s) := by
  unfold execRemoteReadServe
  dsimp only
  split
  · exact .idle s
  split
  · exact .idle s
  split
  · exact .idle s
  next u hfill =>
    refine .after (State.takeFill_pending hfill) ?_
    split <;> (rename_i hlines; exact .of_pending (.trans (by simp) ((State.checkLines_eq_pending hlines).trans (by simp))))

theorem execRemoteReadResponse_keepsQueue (tile : TileNo) (rc : Nat) (bad : FlitBad) (s : State) :
    NextKeepsQueue s (execRemoteReadResponse tile rc bad s) := by
  unfold execRemoteReadResponse
  split
  next m u htake =>
    split
    · exact .of_pending (State.landBeat_pending (State.takeMsg_pending htake) ..)
    · exact .idle s
  next => exact .idle s

theorem execLoadRequest_keepsQueue (unit : Fin 25) (rc : Nat) (bad : FlitBad) (err : ReadErr) (rebuildFails : Bool) (s : State) :
    NextKeepsQueue s (execLoadRequest unit rc bad err rebuildFails s) := by
  unfold execLoadRequest
  dsimp only
  split
  next m u htake =>
    split
    · split
      · exact .after (State.takeMsg_pending htake) (.of_pending (by simp))
      · split
        · split <;> exact .of_pending (by simp)
        · split
          · exact .after (State.takeMsg_pending htake) (.of_pending (by simp))
          · exact .of_pending (by simp)
    · exact .idle s
  next => exact .idle s

theorem execLoadData_keepsQueue (tile : TileNo) (rc : Nat) (bad : FlitBad) (s : State) :
    NextKeepsQueue s (execLoadData tile rc bad s) := by
  unfold execLoadData
  split
  next m u htake =>
    split
    · exact .of_pending (State.landBeat_pending (State.takeMsg_pending htake) ..)
    · exact .idle s
  next => exact .idle s

theorem execStoreDrain_keepsQueue (tile : TileNo) (rc : Nat) (errs : ReadErrs) (s : State) :
    NextKeepsQueue s (execStoreDrain tile rc errs s) := by
  unfold execStoreDrain
  dsimp only
  split
  · exact .idle s
  split
  · exact .idle s
  next u hfill =>
    refine .after (State.takeFill_pending hfill) ?_
    split <;> (rename_i hlines; exact .of_pending (.trans (by simp) ((State.checkLines_eq_pending hlines).trans (by simp))))

theorem execStoreData_keepsQueue (stack : BitVec 4) (rc : Nat) (bad : FlitBad) (s : State) :
    NextKeepsQueue s (execStoreData stack rc bad s) := by
  unfold execStoreData
  split
  next m u htake =>
    refine .after (State.takeMsg_pending htake) (.of_pending (State.deliver_pending _ _ _ _ _ fun t => ⟨trivial, ?_⟩))
    split
    · exact pending_ite (by simp) (by simp)
    · rfl
  next => exact .idle s

theorem execStoreAcknowledge_keepsQueue (tile : TileNo) (rc : Nat) (bad : FlitBad) (s : State) :
    NextKeepsQueue s (execStoreAcknowledge tile rc bad s) := by
  unfold execStoreAcknowledge
  split
  next m u htake =>
    refine .after (State.takeMsg_pending htake) (.of_pending (State.deliver_pending _ _ _ _ _ fun t => ⟨trivial, ?_⟩))
    split
    · exact pending_ite rfl (by simp)
    · rfl
  next => exact .idle s

/-! ### Parcels, partitions and host messages (R268, R304-R309, R361) -/

theorem execParcelSealEnd_keepsQueue (account : SlotNo) (part : BitVec 16) (windowOk : Bool) (info : RestorePart) (upset : Bool)
    (s : State) : NextKeepsQueue s (execParcelSealEnd account part windowOk info upset s) := by
  unfold execParcelSealEnd
  dsimp only
  have hfail (a : Nat) (b : Sub) : (if b.st = .completed then s
      else ((s.closeExports a).complete b 5 (BitVec.allOnes 48) false).runDurable).pending = s.pending := pending_ite rfl (by simp)
  split
  · exact .of_pending (by simp)
  · split
    · split
      · exact .idle s
      · split
        · exact .idle s
        · split
          · exact .of_pending (hfail _ _)
          · split
            · split
              · exact .of_pending (hfail _ _)
              next hseal => exact .of_pending (.trans (by simp) (State.sealPart_pending hseal))
            · exact .of_pending (by simp)
    · split
      · exact .idle s
      · split
        · exact .idle s
        next hseal => exact .of_pending (State.sealPart_pending hseal)

theorem execWeightSwitch_keepsQueue (base : BitVec 5) (s : State) : NextKeepsQueue s (execWeightSwitch base s) := by
  unfold execWeightSwitch
  dsimp only
  split
  · exact .idle s
  next i _ =>
    refine .of_pending ((foldl_pending _ (fun t p => ?_) _ _).trans (State.placeCopies_pending s i))
    have hmoved (l : List Nat) (p : Nat) : (l.foldl (fun u a => u.moveAcct a p true) t).pending = t.pending :=
      foldl_pending _ (fun u a => by simp) _ _
    split
    · rw [State.appliedRec_pending]
      exact pending_ite (hmoved _ _) rfl
    · exact pending_ite (hmoved _ _) rfl

theorem execPartitionLoad_keepsQueue (m : UoaMsg) (part : PartNo) (tenant : BitVec 32) (img : Image) (s : State) :
    NextKeepsQueue s (execPartitionLoad m part tenant img s) := by
  refine .of_pending (State.writeOne_pending _ _ _ _ _ _ fun u t => ⟨trivial, ?_⟩)
  split <;> simp

theorem execGenerate_keepsQueue (m : UwpMsg) (src : GenSrc) (s : State) : NextKeepsQueue s (execGenerate m src s) := by
  refine State.gate_keepsQueue m _ fun t => ?_
  split
  · split
    · split <;> exact .of_pending (by simp)
    · exact .of_pending (by simp)
  · exact .of_pending (by simp)
  · exact .of_pending (by simp)

theorem execCancel_keepsQueue (m : UwpMsg) (s : State) : NextKeepsQueue s (execCancel m s) := by
  refine State.gate_keepsQueue m _ fun t => ?_
  split
  · exact .of_pending (by simp)
  · split <;> exact .of_pending (by simp)

theorem execAcknowledge_keepsQueue (m : UwpMsg) (s : State) : NextKeepsQueue s (execAcknowledge m s) := by
  refine State.gate_keepsQueue m _ fun t => ?_
  split
  · exact .of_pending (by simp)
  · split <;> exact .of_pending (by simp)

theorem execReleaseAcknowledge_keepsQueue (m : UwpMsg) (relpos : BitVec 32) (s : State) :
    NextKeepsQueue s (execReleaseAcknowledge m relpos s) := by
  refine State.gate_keepsQueue m _ fun t => ?_
  split
  · exact .of_pending (by simp)
  · split
    · exact .idle t
    · exact .of_pending (by simp)

theorem execWindowOpen_keepsQueue (m : UwpMsg) (kind mxtype access any : BitVec 8) (bytes : BitVec 32) (s : State) :
    NextKeepsQueue s (execWindowOpen m kind mxtype access any bytes s) := by
  refine State.gate_keepsQueue m _ fun t => ?_
  split
  · exact .of_pending (by simp)
  · split
    · exact .of_pending (by simp)
    next hopen =>
      refine .after (State.openWindow_pending hopen) ?_
      dsimp only
      split <;> exact .of_pending (by simp)

theorem execWindowClose_keepsQueue (m : UwpMsg) (key : BitVec 32) (s : State) : NextKeepsQueue s (execWindowClose m key s) := by
  refine State.gate_keepsQueue m _ fun t => ?_
  split
  · exact .of_pending (by simp)
  · split <;> exact .of_pending (by simp)

/-! ### Sensors and management responses (R417, R449) -/

theorem execSensorConversionSet_keepsQueue (raw : SensorSet) (hbm : List (Option Int)) (s : State) :
    NextKeepsQueue s (execSensorConversionSet raw hbm s) := by
  unfold execSensorConversionSet
  split
  · exact .idle s
  · extract_lets p fresh s0 s1 s2 s3 s4 s5
    have h1 : s1.pending = s.pending := by
      refine foldl_pending _ (fun t k => ?_) _ _
      split <;> simp
    clear_value s1
    have h2 : s2.pending = s.pending := (foldl_pending _ (fun t k => by simp) _ _).trans h1
    clear_value s2
    have h3 : s3.pending = s.pending := h2
    clear_value s3
    have h4 : s4.pending = s.pending := by simpa [s4] using h3
    clear_value s4
    have h5 : s5.pending = s.pending := h4
    exact .of_pending (pending_ite ((State.retrimMoved_pending _).trans h5) h5)

theorem execManagementResponse_keepsQueue (id : BitVec 8) (rc : Nat) (bad : FlitBad) (s : State) :
    NextKeepsQueue s (execManagementResponse id rc bad s) := by
  unfold execManagementResponse
  split
  next m u htake =>
    refine .after (State.takeMsg_pending htake) (.of_pending (State.deliver_pending _ _ _ _ _ fun t => ⟨trivial, ?_⟩))
    split
    · exact pending_ite (pending_ite (by simp) (by simp)) rfl
    · rfl
  next => exact .idle s

/-! ### Commands with many branches -/

theorem execArrayProgrammingEnd_keepsQueue (array : ArrayNo) (badColumns : List (BitVec 9)) (offsets gains : List Int) (sums : List
    (BitVec 12)) (quality : BitVec 16) (s : State) :
    NextKeepsQueue s (execArrayProgrammingEnd array badColumns offsets gains sums quality s) := by
  unfold execArrayProgrammingEnd
  dsimp only
  (repeat' split) <;> exact .of_pending (by simp)

theorem execScheduledFlitLanding_keepsQueue (router : TileNo) (port : BitVec 2) (plane : Bool) (cycle : Nat) (parityBad upset : Bool)
    (s : State) : NextKeepsQueue s (execScheduledFlitLanding router port plane cycle parityBad upset s) := by
  unfold execScheduledFlitLanding
  dsimp only
  (repeat' split) <;> exact .of_pending (by simp)

theorem execEngineJobStart_keepsQueue (unit : Fin 24) (rc : Nat) (errs : StackErrs) (s : State) :
    NextKeepsQueue s (execEngineJobStart unit rc errs s) := by
  unfold execEngineJobStart
  dsimp only
  (repeat' split) <;> exact .of_pending (by simp)

theorem execEngineJobEnd_keepsQueue (unit : Fin 24) (rc cycles : Nat) (errs : StackErrs) (ret : Option (LinkNo × TileNo × BitVec 12))
    (upset : Bool) (s : State) : NextKeepsQueue s (execEngineJobEnd unit rc cycles errs ret upset s) := by
  unfold execEngineJobEnd
  dsimp only
  (repeat' split) <;> exact .of_pending (by simp)

theorem execReplayStart_keepsQueue (part : PartNo) (fw : Boundary) (s : State) : NextKeepsQueue s (execReplayStart part fw s) := by
  unfold execReplayStart
  dsimp only
  (repeat' split) <;> exact .of_pending (by simp)

theorem execSubmissionRunning_keepsQueue (account : SlotNo) (s : State) : NextKeepsQueue s (execSubmissionRunning account s) := by
  unfold execSubmissionRunning
  dsimp only
  (repeat' split) <;> exact .of_pending (by simp)

theorem execAccountOpenCloseAct_keepsQueue (account : SlotNo) (news : Option AcctNews) (s : State) :
    NextKeepsQueue s (execAccountOpenCloseAct account news s) := by
  unfold execAccountOpenCloseAct
  dsimp only
  (repeat' split) <;> exact .of_pending (by simp)

theorem execTransmitEntrySend_keepsQueue (link : LinkNo) (entry : BitVec 8) (parityBad shaBad : Bool) (s : State) :
    NextKeepsQueue s (execTransmitEntrySend link entry parityBad shaBad s) := by
  unfold execTransmitEntrySend
  dsimp only
  (repeat' split) <;> exact .of_pending (by simp)

theorem execAdcConversionEnd_keepsQueue (code : BitVec 12) (s : State) : NextKeepsQueue s (execAdcConversionEnd code s) := by
  unfold execAdcConversionEnd
  dsimp only
  (repeat' split) <;> exact .of_pending (by simp)

theorem execUoaHello_keepsQueue (m : UoaMsg) (nonce : BitVec 256) (key : BitVec 776) (chain : ChainCheck) (second : Nat) (s : State) :
    NextKeepsQueue s (execUoaHello m nonce key chain second s) := by
  unfold execUoaHello
  dsimp only
  (repeat' split) <;> exact .of_pending (by simp)

theorem execUoaFinish_keepsQueue (m : UoaMsg) (sigOk : Bool) (s : State) : NextKeepsQueue s (execUoaFinish m sigOk s) := by
  unfold execUoaFinish
  dsimp only
  (repeat' split) <;> exact .of_pending (by simp)

end Sys2Proof.Machine
end

section
/-! SUPPORT. Every command has a next state with the queue that it ran on. -/

namespace Sys2Proof.Machine

/-- A command with a lemma of its own cites it; one that is a single operation of the State, and one that tests before it acts, keep the
queue by the laws of those operations. -/
theorem exec_keepsQueue (c : Instr) (s : State) : NextKeepsQueue s (exec c s) := by
  cases c with
  | xfer => exact execXfer_keepsQueue ..
  | feed => exact execFeed_keepsQueue ..
  | tload => exact execTload_keepsQueue ..
  | send => exact execSend_keepsQueue ..
  | sendr => exact execSendr_keepsQueue ..
  | recv => exact execRecv_keepsQueue ..
  | end_ => exact execEnd_keepsQueue ..
  | creditGrant => exact execCreditGrant_keepsQueue ..
  | creditRevoke => exact execCreditRevoke_keepsQueue ..
  | faultReport => exact execFaultReport_keepsQueue ..
  | remoteReadRequest => exact execRemoteReadRequest_keepsQueue ..
  | remoteReadServe => exact execRemoteReadServe_keepsQueue ..
  | remoteReadResponse => exact execRemoteReadResponse_keepsQueue ..
  | loadRequest => exact execLoadRequest_keepsQueue ..
  | loadData => exact execLoadData_keepsQueue ..
  | storeDrain => exact execStoreDrain_keepsQueue ..
  | storeData => exact execStoreData_keepsQueue ..
  | storeAcknowledge => exact execStoreAcknowledge_keepsQueue ..
  | parcelSealEnd => exact execParcelSealEnd_keepsQueue ..
  | partitionLoad => exact execPartitionLoad_keepsQueue ..
  | weightSwitch => exact execWeightSwitch_keepsQueue ..
  | generate => exact execGenerate_keepsQueue ..
  | cancel => exact execCancel_keepsQueue ..
  | acknowledge => exact execAcknowledge_keepsQueue ..
  | releaseAcknowledge => exact execReleaseAcknowledge_keepsQueue ..
  | windowOpen => exact execWindowOpen_keepsQueue ..
  | windowClose => exact execWindowClose_keepsQueue ..
  | sensorConversionSet => exact execSensorConversionSet_keepsQueue ..
  | managementResponse => exact execManagementResponse_keepsQueue ..
  | arrayProgrammingEnd => exact execArrayProgrammingEnd_keepsQueue ..
  | scheduledFlitLanding => exact execScheduledFlitLanding_keepsQueue ..
  | engineJobStart => exact execEngineJobStart_keepsQueue ..
  | engineJobEnd => exact execEngineJobEnd_keepsQueue ..
  | replayStart => exact execReplayStart_keepsQueue ..
  | submissionRunning => exact execSubmissionRunning_keepsQueue ..
  | accountOpenCloseAct => exact execAccountOpenCloseAct_keepsQueue ..
  | transmitEntrySend => exact execTransmitEntrySend_keepsQueue ..
  | adcConversionEnd => exact execAdcConversionEnd_keepsQueue ..
  | uoaHello => exact execUoaHello_keepsQueue ..
  | uoaFinish => exact execUoaFinish_keepsQueue ..
  | learn | park | restore | openAccount | closeAccount =>
    exact State.gate_keepsQueue _ _ fun t => .of_pending (by simp)
  | fire | cal | tfire | fadd | fsub | fmul | ffma | fmin | fmax | fcmp | fsel | badd | bmul | bfma | cvt | imac8 | pacc | lcvt |
    iadd32 | fexp | flog | frcp | frsq | fsig | ferf | qcfg | quant | lanef | strm | deq | mxin | mxout | rsum | rmax | ldl | stl |
    ldw | stw | load | store | rread | wait | credit | next | layer | jump | base | mask | calibrationWriteEnd | correctionSave |
    requestFullCalibration | userCalibrationPoint | newSweep | stackFailed | attend | append | chunkAttend | bulkAppend | abortNotice |
    ledgerRecord | ledgerAcknowledge | commitNotice | idleFrame | frameMessage | dataCopy | dataAdd | digestRecord | clearingSummary |
    boundaryExchange | loadingReport | failureNotice | stretchVote | restoreReport | mirrorEntries | contextPages | shardCopy |
    ledgerCopy | contextPartials | training | replacement | requestDrain | clearFlag | windowDrained | queuePairError |
    ethernetPortDown | sessionOpen | sessionReopen | sessionClose | connect | removalRequest | relight | watchdogService |
    interruptClaim | interruptCompletion | adcDataRead | wrappingKey | parkingKeyInstall | imageTransfer | startTrial | getVersion |
    getCapabilities | negotiateAlgorithms | getDigests | getCertificate | challenge | getMeasurements | unsupportedRequest | uoaRead |
    uoaWrite | uoaStage | uoaDescribe | uoaClose | anchorInstall | anchorRemove | flushNow | linkReset =>
    exact .of_pending (by simp)
  | arrayResultReadable | transitResultReadable | arrayDiagnosisEnd | spareProgrammingEnd | arrayReturn | arrayProgrammingStart |
    releaseErase | backgroundWindowEnd | fullCalibrationStart | fullCalibrationEnd | rotationDue | slotShortfall | driftEvaluation |
    eccWriteBack | blockZeroing | rowMapOut | scheduledFlitClaim | granuleZeroingEnd | frameBoundary | pauseInsertion | stepStart |
    mintRun | escrowArrival | commitTest | replicationFailure | restorePartCheck | frameRetransmission | linkSilence | loopbackTestEnd |
    linkDetect | trainingStageTimeout | keyRenewal | delayRemeasure | opticalWidthChange | frameLockLoss | masterTakeover |
    failureDecision | coveringEnd | loadingComplete | partitionStart | partitionClose | twilightEntry | twilightStop | dark |
    treeDisagreement | ethernetFrame | congestionNotification | rateIncrease | pfcFrame | rdmaWrite | rdmaRead | portRetrained |
    modulePresence | moduleRemoval | moduleFault | openFibre | darknessCheck | moduleMonitorPoll | daylightHistorySave |
    relightProbeEnd | underVoltage | powerFailLatch | powerFailSilence | currentLimitEntry | currentLimitExit | powerMean | hardTrip |
    voteEnforce | voteRelease | referenceLoss | referenceReturn | holdoverCorrection | crossingTimeout | watchdogWarning |
    watchdogExpiry | housekeepingTimer | adcTrigger | adcUrgentRequest | adcReferenceSettled | managementRead | managementWrite |
    managementWriteReadback | managementRequestTimeout | flashWriteEnd | flashEraseEnd | entropyHealthFailure | uoaIdleTimeout |
    dictionaryStoreRollover | flushStart | flushEnd | resetAssertion | dawnStart | dawnStepComplete | frameLockTimeout |
    ledgerPartnerRetry | warmResetRequest | coldResetRequest | orderlyShutdown | partitionReset | firstUseEnd | hoursSave |
    tapInstruction | opticalEngineFailure | powerOff | linkEqualisationEnd =>
    simp only [exec, execArrayResultReadable, execTransitResultReadable, execArrayDiagnosisEnd, execSpareProgrammingEnd,
      execArrayReturn, execArrayProgrammingStart, execReleaseErase, execBackgroundWindowEnd, execFullCalibrationStart,
      execFullCalibrationEnd, execRotationDue, execSlotShortfall, execDriftEvaluation, execEccWriteBack, execBlockZeroing,
      execRowMapOut, execScheduledFlitClaim, execGranuleZeroingEnd, execFrameBoundary, execPauseInsertion, execStepStart, execMintRun,
      execEscrowArrival, execCommitTest, execReplicationFailure, execRestorePartCheck, execFrameRetransmission, execLinkSilence,
      execLoopbackTestEnd, execLinkDetect, execTrainingStageTimeout, execKeyRenewal, execDelayRemeasure, execOpticalWidthChange,
      execFrameLockLoss, execMasterTakeover, execFailureDecision, execCoveringEnd, execLoadingComplete, execPartitionStart,
      execPartitionClose, execTwilightEntry, execTwilightStop, execDark, execTreeDisagreement, execEthernetFrame,
      execCongestionNotification, execRateIncrease, execPfcFrame, execRdmaWrite, execRdmaRead, execPortRetrained, execModulePresence,
      execModuleRemoval, execModuleFault, execOpenFibre, execDarknessCheck, execModuleMonitorPoll, execDaylightHistorySave,
      execRelightProbeEnd, execUnderVoltage, execPowerFailLatch, execPowerFailSilence, execCurrentLimitEntry, execCurrentLimitExit,
      execPowerMean, execHardTrip, execVoteEnforce, execVoteRelease, execReferenceLoss, execReferenceReturn, execHoldoverCorrection,
      execCrossingTimeout, execWatchdogWarning, execWatchdogExpiry, execHousekeepingTimer, execAdcTrigger, execAdcUrgentRequest,
      execAdcReferenceSettled, execManagementRead, execManagementWrite, execManagementWriteReadback, execManagementRequestTimeout,
      execFlashWriteEnd, execFlashEraseEnd, execEntropyHealthFailure, execUoaIdleTimeout, execDictionaryStoreRollover, execFlushStart,
      execFlushEnd, execResetAssertion, execDawnStart, execDawnStepComplete, execFrameLockTimeout, execLedgerPartnerRetry,
      execWarmResetRequest, execColdResetRequest, execOrderlyShutdown, execPartitionReset, execFirstUseEnd, execHoursSave,
      execTapInstruction, execOpticalEngineFailure, execPowerOff, execLinkEqualisationEnd]
    (repeat' split) <;> exact .of_pending (by simp)

end Sys2Proof.Machine
end

section
open Sys2Proof Sys2Proof.Machine

/-- Settles O1: a step is `exec` of the front command by its definition. -/
theorem stepRunsTheFrontCommandOrIdles : Obligations.StepRunsTheFrontCommandOrIdles := by
  unfold Obligations.StepRunsTheFrontCommandOrIdles
  refine ⟨fun c rest s h => ?_, fun s h => ?_⟩
  · rw [step, h]
  · rw [step, h]

/-- Settles O2: no command answers a fault or a refusal (`exec_keepsQueue`). -/
theorem everyCommandGoesOn : Obligations.EveryCommandGoesOn := by
  unfold Obligations.EveryCommandGoesOn
  intro c s
  obtain ⟨t, ht, -⟩ := exec_keepsQueue c s
  exact ⟨t, ht⟩

/-- Settles O3: the command runs on the queue's rest and leaves it alone (`exec_keepsQueue`). -/
theorem stepTakesExactlyOneCommand : Obligations.StepTakesExactlyOneCommand := by
  unfold Obligations.StepTakesExactlyOneCommand
  obtain ⟨runs, idles⟩ := stepRunsTheFrontCommandOrIdles
  intro s t hstep
  cases hqueue : s.pending with
  | nil =>
    rw [idles s hqueue] at hstep
    cases hstep
    exact hqueue
  | cons c rest =>
    rw [runs c rest s hqueue] at hstep
    obtain ⟨u, hu, hkept⟩ := exec_keepsQueue c { s with pending := rest }
    rw [hu] at hstep
    cases hstep
    exact hkept

end

section
/-! Refutation of O24: its clause on a stack that fails takes every list of partitions, and one that lists a partition twice escapes it. -/

namespace Sys2Proof.Machine

/-- The abort of partition 0 ends the hold, which rewrites the partitions and drops the first entry of partition 1, the default; the replay
frame of its second entry lies ahead, and the abort of partition 1 is stale. -/
theorem partitionListedTwice_runs_past_failed_stack : ((partitionListedTwice.failStack 0).part 1).abort = none := by decide +kernel

theorem exec_stackFailed (stack : BitVec 4) (reason : BitVec 2) (s : State) :
    exec (.stackFailed stack reason) s = .next (s.failStack stack.toNat) := rfl

/-- The device when the stack is marked failed and recorded, before the aborts. -/
def State.stackLost (k : Nat) (s : State) : State :=
  (s.updStack k (fun y => { y with st := 2 })).event 0x06 4 (0x8000 + k) none 2 (s.stack k).st

theorem State.failStack_eq (k : Nat) (s : State) (hstack : (s.stack k).st ≠ 2) :
    s.failStack k = ((s.stackLost k).abortAll 0x13 .unchanged s.steppers).twilight 0x05 := if_neg hstack

/-- A stack of a device in service that fails aborts every partition with a stream on the die and decides Twilight with cause 5 (R218),
where the map of partitions is canonical. -/
theorem State.failStack_decides (k : Nat) (s : State) (hwf : SMap.wf ({} : Part) s.parts = true) (hstack : (s.stack k).st ≠ 2)
    (hst : s.health.st = 0) (hd : s.health.decided = none) :
    (∀ p ∈ s.steppers, AbortsIn p s (s.failStack k)) ∧ (s.failStack k).health.decided = some 5 ∧ (s.failStack k).health.cause = 5 := by
  have hparts : (s.stackLost k).parts = s.parts := by rw [State.stackLost, State.event_frame]; rfl
  have hframe : (s.stackLost k).fu.frame = s.fu.frame := by rw [State.stackLost, State.event_frame]; rfl
  have hhealth : ((s.stackLost k).abortAll 0x13 .unchanged s.steppers).health = s.health := by
    rw [State.abortAll_health, State.stackLost, State.event_frame]; rfl
  obtain ⟨flag, htwilight⟩ := State.twilight_decides ((s.stackLost k).abortAll 0x13 .unchanged s.steppers) 0x05
    (by rw [hhealth, hst]) (by rw [hhealth, hd])
  rw [State.failStack_eq k s hstack]
  refine ⟨fun p hp => ?_, by rw [htwilight]; rfl, by rw [htwilight]; rfl⟩
  have haborts := AbortsIn.of_keepsAborts hwf (State.keepsAborts_of_parts hparts hframe)
    (State.abortAll_aborts 0x13 .unchanged s.steppers (hparts ▸ hwf) p hp)
  rw [AbortsIn, State.part, State.twilight_frame]
  exact haborts

end Sys2Proof.Machine
end

section
open Sys2Proof Sys2Proof.Machine

/-- Refutes O24 at the failed stack: on a device whose map of partitions lists partition 1 twice, partition 1 has a stream and no replay
ahead, and does not abort. The statement asks for no canonical map; where the map is canonical the clause holds:
`State.failStack_decides`. -/
theorem not_storesStackFailureAndZeroing : ¬ Obligations.StoresStackFailureAndZeroing := by
  unfold Obligations.StoresStackFailureAndZeroing
  rintro ⟨-, hfails, -⟩
  obtain ⟨t, ht, -, -, haborts, -⟩ := hfails 0 0 partitionListedTwice (by decide) rfl rfl
  have hone : 1 ∈ partitionListedTwice.steppers := by simp [partitionListedTwice_steppers]
  have habort : (t.part 1).abort.isSome = true := haborts 1 hone (by simp [partitionListedTwice_replayed])
  rw [exec_stackFailed] at ht
  injection ht with ht
  subst ht
  change ((partitionListedTwice.failStack 0).part 1).abort.isSome = true at habort
  rw [partitionListedTwice_runs_past_failed_stack] at habort
  cases habort

end

section
/-! Certificate of O19: NEXT, END, LAYER, JUMP, BASE and MASK (R168, R170, R191, R192), a lemma for each. -/

namespace Sys2Proof.Machine

variable {s : State} {i : Issue}

theorem State.part_updPart (s : State) (p k : Nat) (f : Part → Part) :
    (s.updPart p f).part k = if k = p then f (s.part p) else s.part k := State.part_setPart s p k _

/-! ## PHASE -/

/-- The stream behind the last word of a frame block: it names no cycle (R168). -/
def State.blockDone (s : State) (i : Issue) : State :=
  s.updStrm i (fun st => { st with pc := st.pc + 1, reached := 0, branch := none })

/-- With its checks passed, the last word of a frame block is its own effect behind the block. -/
theorem State.issueLast_clear (w : W64) (ok : Bool) (act : State → State) (hissuing : s.issuing i = true) (hhold : s.fu.hold = none)
    (hpc : (s.strm i).pc ≤ (s.strm i).last.toNat) (hgen : i.gen = 0) (hcycle : i.cycle = 0) (hstore : i.store = .none) (hok : ok = true) :
    s.issueLast i w ok act = act (s.blockDone i) := by
  have hruns : ¬ (s.fu.hold ≠ none ∨ s.issuing i = false) := by simp [hhold, hissuing]
  have hword : ¬ (ok && decide (i.gen = 0 ∧ i.cycle = 0)) = false := by simp [hok, hgen, hcycle]
  simp only [State.issueLast, if_neg hruns, State.readStore, hstore]
  rw [if_neg (Nat.not_lt.2 hpc), if_neg hword, State.blockDone]

theorem State.strm_blockDone (s : State) (i : Issue) :
    (s.blockDone i).strm i = { s.strm i with pc := (s.strm i).pc + 1, reached := 0, branch := none } := State.strm_updStrm s i _

theorem next_namesNextBlock (advance : BitVec 16) (hissuing : s.issuing i = true) (hhold : s.fu.hold = none)
    (hpc : (s.strm i).pc ≤ (s.strm i).last.toNat) (hgen : i.gen = 0) (hcycle : i.cycle = 0) (hstore : i.store = .none) (hadvance : advance ≠ 0) :
    ∃ t, exec (.next i advance 0) s = .next t ∧ (t.strm i).block = some (s.fu.frame + advance.toNat) ∧
      (t.strm i).pc = (s.strm i).pc + 1 ∧ t.spad = s.spad ∧ t.parts = s.parts := by
  have hexec : exec (.next i advance 0) s =
      .next ((s.blockDone i).updStrm i (fun st => { st with block := some (s.fu.frame + advance.toNat) })) := by
    change execNext i advance 0 s = _
    rw [execNext, State.issueLast_clear _ _ _ hissuing hhold hpc hgen hcycle hstore (by simpa using hadvance)]
    rfl
  refine ⟨_, hexec, ?_, ?_, rfl, rfl⟩ <;> rw [State.strm_updStrm]
  rw [State.strm_blockDone]

/-- The stream that has issued its END in this frame (R168). -/
def State.streamEnded (s : State) (i : Issue) (gap : BitVec 16) : State :=
  (s.blockDone i).updStrm i (fun st => { st with block := none, ended := some (s.fu.frame, gap.toNat) })

theorem exec_end (gap : BitVec 16) (hissuing : s.issuing i = true) (hhold : s.fu.hold = none)
    (hpc : (s.strm i).pc ≤ (s.strm i).last.toNat) (hgen : i.gen = 0) (hcycle : i.cycle = 0) (hstore : i.store = .none)
    (hfirst : (s.part (s.strm i).tag.toNat).nextStart = none) :
    exec (.end_ i gap 0) s = .next ((s.streamEnded i gap).updPart (s.strm i).tag.toNat (fun q =>
      { q with nextStart := some (s.fu.frame + gap.toNat + 1) })) := by
  have htag : ((s.blockDone i).strm i).tag = (s.strm i).tag := by rw [State.strm_blockDone]
  have hfirst' : ((s.blockDone i).part (s.strm i).tag.toNat).nextStart = none := hfirst
  change execEnd i gap 0 s = _
  simp only [execEnd]
  rw [State.issueLast_clear _ _ _ hissuing hhold hpc hgen hcycle hstore (by simp)]
  simp only [htag, hfirst']
  rfl

theorem end_endsStep (gap : BitVec 16) (hissuing : s.issuing i = true) (hhold : s.fu.hold = none)
    (hpc : (s.strm i).pc ≤ (s.strm i).last.toNat) (hgen : i.gen = 0) (hcycle : i.cycle = 0) (hstore : i.store = .none)
    (hfirst : (s.part (s.strm i).tag.toNat).nextStart = none) :
    ∃ t, exec (.end_ i gap 0) s = .next t ∧ (t.strm i).block = none ∧ (t.strm i).ended = some (s.fu.frame, gap.toNat) ∧
      (t.part (s.strm i).tag.toNat).nextStart = some (s.fu.frame + gap.toNat + 1) ∧
      (∀ p, p ≠ (s.strm i).tag.toNat → t.part p = s.part p) ∧ t.spad = s.spad := by
  have hstream : ((s.streamEnded i gap).strm i).block = none ∧
      ((s.streamEnded i gap).strm i).ended = some (s.fu.frame, gap.toNat) := by
    constructor <;> rw [State.streamEnded, State.strm_updStrm]
  refine ⟨_, exec_end gap hissuing hhold hpc hgen hcycle hstore hfirst, hstream.1, hstream.2, ?_, fun p hp => ?_, rfl⟩
  · rw [State.part_updPart, if_pos rfl]
  · rw [State.part_updPart, if_neg hp]
    rfl

/-- The recipe that a LAYER reads: that of the step that runs, and the partition's own without one (R170). -/
def Part.layerRecipe (p : Part) : Line := match p.curRun with | some r => r.recipe | none => p.recipe

/-- A stream that enters a layer at a cycle: to the alternative of a streamed layer, to the wide form of one that the recipe runs wide,
otherwise on (R170). -/
def Stream.enterLayer (st : Stream) (layer : BitVec 10) (wide alt : BitVec 14) (cyc : Nat) (streamed widened : Bool) : Stream :=
  if streamed = true ∧ alt ≠ 0 then { st with layer := layer, pc := alt.toNat, branch := some cyc }
  else if widened = true ∧ wide ≠ 0 then { st with layer := layer, pc := wide.toNat, branch := some cyc }
  else { st with layer := layer }

theorem Stream.enterLayer_layer (st : Stream) (layer : BitVec 10) (wide alt : BitVec 14) (cyc : Nat) (streamed widened : Bool) :
    (st.enterLayer layer wide alt cyc streamed widened).layer = layer := by
  unfold Stream.enterLayer
  split
  · rfl
  · split <;> rfl

theorem Stream.enterLayer_pc (st : Stream) (layer : BitVec 10) (wide alt : BitVec 14) (cyc : Nat) (streamed widened : Bool) :
    (st.enterLayer layer wide alt cyc streamed widened).pc =
      if streamed = true ∧ alt ≠ 0 then alt.toNat else if widened = true ∧ wide ≠ 0 then wide.toNat else st.pc := by
  unfold Stream.enterLayer
  split
  · rfl
  · split <;> rfl

theorem exec_layer (layer : BitVec 10) (wide alt : BitVec 14) (hissue : s.clearIssue i 10 = true)
    (hlayer : layer.toNat < (s.part (s.strm i).tag.toNat).layers.toNat) :
    exec (.layer i layer wide alt 0) s = .next ((s.advance i 10 i.cycle.toNat).updStrm i (fun st =>
      st.enterLayer layer wide alt i.cycle.toNat ((s.part (s.strm i).tag.toNat).streams.getLsbD layer.toNat)
        ((s.part (s.strm i).tag.toNat).layerRecipe.getLsbD layer.toNat))) := by
  change execLayer i layer wide alt 0 s = _
  rw [execLayer, State.issue_clear s i 10 _ _ _ hissue (by simpa using hlayer)]
  rfl

theorem layer_setsLayerAndBranches (layer : BitVec 10) (wide alt : BitVec 14) (hissue : s.clearIssue i 10 = true)
    (hlayer : layer.toNat < (s.part (s.strm i).tag.toNat).layers.toNat) :
    ∃ t, exec (.layer i layer wide alt 0) s = .next t ∧ (t.strm i).layer = layer ∧ t.parts = s.parts ∧ t.spad = s.spad ∧
      (t.strm i).pc = (if (s.part (s.strm i).tag.toNat).streams.getLsbD layer.toNat = true ∧ alt ≠ 0 then alt.toNat
        else if (s.part (s.strm i).tag.toNat).layerRecipe.getLsbD layer.toNat = true ∧ wide ≠ 0 then wide.toNat
        else (s.strm i).pc + 1) := by
  refine ⟨_, exec_layer layer wide alt hissue hlayer, ?_, rfl, rfl, ?_⟩ <;> rw [State.strm_updStrm]
  · exact Stream.enterLayer_layer _ _ _ _ _ _ _
  · rw [Stream.enterLayer_pc, State.advance_strm]

/-! ## CTRL -/

theorem jump_goesToTarget (target : BitVec 14) (hissue : s.clearIssue i 10 = true) (htarget : target.toNat ≤ (s.strm i).last.toNat) :
    ∃ t, exec (.jump i target 0) s = .next t ∧ (t.strm i).pc = target.toNat ∧ (t.strm i).branch = some i.cycle.toNat ∧ t.spad = s.spad := by
  change ∃ t, execJump i target 0 s = .next t ∧ _
  rw [execJump, State.issue_clear s i 10 _ _ _ hissue (by simpa using htarget)]
  refine ⟨_, rfl, ?_, ?_, rfl⟩ <;> rw [State.strm_updStrm]

theorem base_loadsRegister (breg : BitVec 3) (entry : BitVec 6) (hissue : s.clearIssue i 10 = true) :
    ∃ t, exec (.base i breg entry 0) s = .next t ∧ t.spad = s.spad ∧
      SMap.get (t.strm i).bregs 0 breg.toNat = SMap.get (s.strm i).table 0 entry.toNat ∧
      ∀ k, k ≠ breg.toNat → SMap.get (t.strm i).bregs 0 k = SMap.get (s.strm i).bregs 0 k := by
  change ∃ t, execBase i breg entry 0 s = .next t ∧ _
  rw [execBase, State.issue_clear s i 10 _ _ _ hissue (by simp)]
  refine ⟨_, rfl, rfl, ?_, fun k hk => ?_⟩ <;> rw [State.strm_updStrm, State.advance_strm]
  · exact SMap.get_set_same _ _ _ _
  · exact SMap.get_set_other _ _ _ _ _ hk

/-- A word in a mask register, of this position of the schedule (R180). -/
def Stream.withMask (st : Stream) (mreg : Nat) (w : W64) (now : Stamp) : Stream :=
  { st with masks := SMap.set st.masks 0 mreg w, maskAt := SMap.set st.maskAt none mreg (some now) }

theorem Stream.get_masks_withMask (st : Stream) (mreg : Nat) (w : W64) (now : Stamp) : SMap.get (st.withMask mreg w now).masks 0 mreg = w :=
  SMap.get_set_same _ _ _ _

theorem Stream.get_maskAt_withMask (st : Stream) (mreg : Nat) (w : W64) (now : Stamp) :
    SMap.get (st.withMask mreg w now).maskAt none mreg = some now := SMap.get_set_same st.maskAt none mreg (some now)

theorem exec_mask (mreg : BitVec 3) (waddr : BitVec 16) (hissue : s.clearIssue i 10 = true) (hwaddr : waddr.toNat ≤ 49151)
    (howns : (s.tile i.tile.toNat).owns (waddr.toNat / 16) 1 (s.strm i).tag = true) (hnarrow : (s.tile i.tile.toNat).narrow = [])
    (hnarrowW : (s.tile i.tile.toNat).narrowW = []) (hwide : (s.tile i.tile.toNat).wideUses = []) :
    exec (.mask i mreg waddr 0 []) s = .next ((s.narrowState i 10 (waddr.toNat / 16)).updStrm i (fun st =>
      st.withMask mreg.toNat (s.padWord i.tile.toNat waddr.toNat) ⟨s.fu.frame, i.cycle.toNat⟩)) := by
  have howns' : ((s.advance i 10 i.cycle.toNat).tile i.tile.toNat).owns (waddr.toNat / 16) 1
      ((s.advance i 10 i.cycle.toNat).strm i).tag = true := by
    rw [State.tile_advance, State.advance_tag]
    exact howns
  have hsettled : (s.narrowState i 10 (waddr.toNat / 16)).settleLines i.tile.toNat (waddr.toNat / 16) 1 =
      s.narrowState i 10 (waddr.toNat / 16) := by
    simp only [State.settleLines, State.narrowState_narrowW 10 (waddr.toNat / 16) hnarrowW, List.filter_nil, List.isEmpty_nil, if_true]
  have hword : (s.narrowState i 10 (waddr.toNat / 16)).padWord i.tile.toNat waddr.toNat = s.padWord i.tile.toNat waddr.toNat := by
    rw [State.padWord, State.narrowState_spad]
    rfl
  change execMask i mreg waddr 0 [] s = _
  rw [execMask, State.issue_clear s i 10 _ _ _ hissue (by simpa using hwaddr)]
  dsimp only
  rw [if_neg (by rw [howns']; decide), State.useNarrow_alone hnarrow hwide, State.readChecked_clear, hsettled, hword]
  rfl

theorem mask_loadsRegister (mreg : BitVec 3) (waddr : BitVec 16) (hissue : s.clearIssue i 10 = true) (hwaddr : waddr.toNat ≤ 49151)
    (howns : (s.tile i.tile.toNat).owns (waddr.toNat / 16) 1 (s.strm i).tag = true) (hnarrow : (s.tile i.tile.toNat).narrow = [])
    (hnarrowW : (s.tile i.tile.toNat).narrowW = []) (hwide : (s.tile i.tile.toNat).wideUses = []) :
    ∃ t, exec (.mask i mreg waddr 0 []) s = .next t ∧ t.spad = s.spad ∧
      SMap.get (t.strm i).masks 0 mreg.toNat = s.padWord i.tile.toNat waddr.toNat ∧
      SMap.get (t.strm i).maskAt none mreg.toNat = some ⟨s.fu.frame, i.cycle.toNat⟩ := by
  refine ⟨_, exec_mask mreg waddr hissue hwaddr howns hnarrow hnarrowW hwide, s.narrowState_spad i 10 (waddr.toNat / 16), ?_, ?_⟩
  · rw [State.strm_updStrm, Stream.get_masks_withMask]
  · rw [State.strm_updStrm, Stream.get_maskAt_withMask]

end Sys2Proof.Machine
end

section
open Sys2Proof Sys2Proof.Machine

/-- Settles O19: NEXT and END behind their block, LAYER, JUMP, BASE and MASK on the advanced state. -/
theorem streamControl : Obligations.StreamControl := by
  unfold Obligations.StreamControl
  exact ⟨fun i advance s => next_namesNextBlock advance, fun i gap s => end_endsStep gap,
    fun i layer wide alt s => layer_setsLayerAndBranches layer wide alt, fun i target s => jump_goesToTarget target,
    fun i breg entry s => base_loadsRegister breg entry, fun i mreg waddr s => mask_loadsRegister mreg waddr⟩

end

section
/-! Certificate of O17: LOAD, STORE and RREAD at a Free entry and at one in use (R148, R187, R188, R193, R220). -/

namespace Sys2Proof.Machine

/-! ## What a fault leaves of the mesh -/

/-- The channels of requests and of the answers of the stacks, which carry no fault report. -/
def Mesh.requestChannels (m : Mesh) : List Msg × List Msg × List Msg := (m.vc2, m.qreq, m.qresp)

theorem State.report_requestChannels (s : State) (f : FaultInfo) : (s.report f).mesh.requestChannels = s.mesh.requestChannels := by
  unfold State.report State.setReport
  dsimp only
  (repeat' split) <;> rfl

theorem State.fault_requestChannels (s : State) (f : FaultInfo) : (s.fault f).mesh.requestChannels = s.mesh.requestChannels := by
  have hcount : ((s.report f).countFault f).mesh.requestChannels = s.mesh.requestChannels := by
    rw [State.countFault_frame]
    exact s.report_requestChannels f
  unfold State.fault State.abortTag
  split
  · rw [State.abortAll_mesh Mesh.requestChannels (fun _ _ => rfl), hcount]
  · exact hcount

variable {s : State} {i : Issue}

/-! ## The address of a queue instruction and the entry that it issues -/

/-- The line address that a queue instruction names (R167, R187). -/
def State.queueAddr (s : State) (i : Issue) (breg : BitVec 3) (offset : BitVec 17) : Nat :=
  ((s.strm i).breg s.fu.frame i.cycle.toNat breg.toNat).toNat + offset.toNat

theorem State.queueAddr_advance (port : Nat) (breg : BitVec 3) (offset : BitVec 17) :
    (s.advance i port i.cycle.toNat).queueAddr i breg offset = s.queueAddr i breg offset := by
  rw [State.queueAddr, State.advance_strm]
  rfl

theorem State.get_load_advance (port n : Nat) : ((s.advance i port i.cycle.toNat).tile i.tile.toNat).load n = (s.tile i.tile.toNat).load n := by
  rw [State.tile_advance]
  rfl

/-- A load entry once a queue instruction has issued it. -/
theorem State.load_issueLoad_entry (s : State) (i : Issue) (entry : Nat) (toHalf : Option Bool) (wfmt : Bool) (line lines addr : Nat) :
    ((s.issueLoad i entry toHalf wfmt line lines addr).tile i.tile.toNat).load entry =
      { st := .issued, tag := (s.strm i).tag, stream := i.stream, toHalf := toHalf, wfmt := wfmt, line := line, lines := lines, done := 0
        acked := 0, addr := addr, epoch := ((s.tile i.tile.toNat).load entry).epoch } := by
  rw [State.issueLoad, State.tile_updTile_same]
  simp only [Tile.load, SMap.get_upd, if_true]
  rfl

/-! ## LOAD -/

/-- The requests of a load entry, one for each run of its lines that one unit serves (R148, R220). -/
def State.sendLoads (s : State) (i : Issue) (tag : Tag) (entry a n epoch : Nat) : State :=
  (unitRuns a n).foldl (fun t r =>
    t.sendMsg i.tile.toNat (unitRouter (unitOf (a + r.1))) (unitPort (unitOf (a + r.1)) (a + r.1)) tag (t.issuedAt i)
      (.loadReq entry r.1 (a + r.1) r.2 0 epoch)) s

theorem State.sendLoads_frame (s : State) (i : Issue) (tag : Tag) (entry a n epoch : Nat) :
    s.sendLoads i tag entry a n epoch = { s with mesh := (s.sendLoads i tag entry a n epoch).mesh } := by
  unfold State.sendLoads
  induction unitRuns a n generalizing s with
  | nil => rfl
  | cons r rs ih =>
    rw [List.foldl_cons, ih]
    rfl

/-- Each run's request stands at the end of the channel of requests, in the order of the runs. -/
theorem State.sendLoads_says (s : State) (i : Issue) (tag : Tag) (entry a n epoch : Nat) :
    (s.sendLoads i tag entry a n epoch).mesh.qreq.map Msg.says = s.mesh.qreq.map Msg.says ++ (unitRuns a n).map (fun r =>
      (i.tile.toNat, unitRouter (unitOf (a + r.1)), unitPort (unitOf (a + r.1)) (a + r.1), tag,
        .loadReq entry r.1 (a + r.1) r.2 0 epoch)) := by
  unfold State.sendLoads
  induction unitRuns a n generalizing s with
  | nil => simp
  | cons r rs ih =>
    have hsent := State.chan_sendMsg_same s i.tile.toNat (unitRouter (unitOf (a + r.1))) (unitPort (unitOf (a + r.1)) (a + r.1)) tag
      (s.issuedAt i) (.loadReq entry r.1 (a + r.1) r.2 0 epoch)
    rw [List.foldl_cons, ih]
    rw [show (s.sendMsg i.tile.toNat _ _ tag _ _).mesh.qreq = s.mesh.qreq ++ [_] from hsent]
    simp [Msg.says, State.msgOf]

/-- A LOAD at a Free entry: to scratchpad where its lines exist, to a half of its own partition or of none. -/
theorem exec_load (entry : BitVec 6) (dest wfmt : Bool) (line : BitVec 12) (lines : BitVec 6) (breg : BitVec 3) (offset : BitVec 17)
    (hissue : s.clearIssue i 9 = true)
    (hfields : (if dest then decide (line.extractLsb' 8 3 = 0) else !wfmt && decide (line.toNat + lines.toNat ≤ 3071)) = true)
    (hfree : ((s.tile i.tile.toNat).load entry.toNat).st = .free)
    (hhalf : dest = true → ((s.tile i.tile.toNat).half (line.getLsbD 11)).tag = (s.strm i).tag ∨
      ((s.tile i.tile.toNat).half (line.getLsbD 11)).tag = 0xFE) :
    exec (.load i entry dest wfmt line lines breg offset) s = .next (
      ((s.advance i 9 i.cycle.toNat).issueLoad i entry.toNat (if dest then some (line.getLsbD 11) else none) wfmt
        (if dest then line.toNat % 256 else line.toNat) (lines.toNat + 1) (s.queueAddr i breg offset)).sendLoads i (s.strm i).tag entry.toNat
          (s.queueAddr i breg offset) (lines.toNat + 1) ((s.tile i.tile.toNat).load entry.toNat).epoch) := by
  have hhalf' : ¬ (dest = true ∧ (((s.advance i 9 i.cycle.toNat).tile i.tile.toNat).half (line.getLsbD 11)).tag ≠ (s.strm i).tag ∧
      (((s.advance i 9 i.cycle.toNat).tile i.tile.toNat).half (line.getLsbD 11)).tag ≠ 0xFE) := by
    rw [State.tile_advance]
    rintro ⟨hdest, hown, hnone⟩
    exact (hhalf hdest).elim hown hnone
  change execLoad i entry dest wfmt line lines breg offset s = _
  rw [execLoad, State.issue_clear s i 9 _ _ _ hissue hfields]
  dsimp only
  rw [State.get_load_advance, if_neg (by rw [hfree]; decide), State.advance_tag, if_neg hhalf', ← State.queueAddr_advance 9]
  rfl

theorem load_issuesToPad (entry : BitVec 6) (line : BitVec 12) (lines : BitVec 6) (breg : BitVec 3) (offset : BitVec 17)
    (hissue : s.clearIssue i 9 = true) (hlines : line.toNat + lines.toNat ≤ 3071)
    (hfree : ((s.tile i.tile.toNat).load entry.toNat).st = .free) :
    let a := s.queueAddr i breg offset
    ∃ t, exec (.load i entry false false line lines breg offset) s = .next t ∧ t.spad = s.spad ∧
      (t.tile i.tile.toNat).load entry.toNat = {
        st := .issued, tag := (s.strm i).tag, stream := i.stream, toHalf := none, line := line.toNat, lines := lines.toNat + 1
        done := 0, acked := 0, addr := a, epoch := ((s.tile i.tile.toNat).load entry.toNat).epoch } ∧
      t.mesh.qreq.map Msg.says = s.mesh.qreq.map Msg.says ++ (unitRuns a (lines.toNat + 1)).map (fun r =>
        (i.tile.toNat, unitRouter (unitOf (a + r.1)), unitPort (unitOf (a + r.1)) (a + r.1), (s.strm i).tag,
          .loadReq entry.toNat r.1 (a + r.1) r.2 0 ((s.tile i.tile.toNat).load entry.toNat).epoch)) := by
  intro a
  refine ⟨_, exec_load entry false false line lines breg offset hissue (by simpa using hlines) hfree (fun h => by simp at h), ?_, ?_, ?_⟩
  · rw [State.sendLoads_frame]
    simp
  · rw [State.sendLoads_frame]
    refine (State.load_issueLoad_entry ..).trans ?_
    rw [State.get_load_advance, State.advance_tag]
    rfl
  · exact State.sendLoads_says ..

theorem load_issuesToHalf (entry : BitVec 6) (wfmt : Bool) (line : BitVec 12) (lines : BitVec 6) (breg : BitVec 3) (offset : BitVec 17)
    (hissue : s.clearIssue i 9 = true) (hplace : line.extractLsb' 8 3 = 0) (hfree : ((s.tile i.tile.toNat).load entry.toNat).st = .free)
    (hhalf : ((s.tile i.tile.toNat).half (line.getLsbD 11)).tag = (s.strm i).tag ∨
      ((s.tile i.tile.toNat).half (line.getLsbD 11)).tag = 0xFE) :
    ∃ t, exec (.load i entry true wfmt line lines breg offset) s = .next t ∧ t.spad = s.spad ∧
      (t.tile i.tile.toNat).load entry.toNat = {
        st := .issued, tag := (s.strm i).tag, stream := i.stream, toHalf := some (line.getLsbD 11), wfmt := wfmt, line := line.toNat % 256
        lines := lines.toNat + 1, done := 0, acked := 0
        addr := s.queueAddr i breg offset, epoch := ((s.tile i.tile.toNat).load entry.toNat).epoch } ∧
      t.mesh.qreq.length = s.mesh.qreq.length + (unitRuns (s.queueAddr i breg offset) (lines.toNat + 1)).length := by
  refine ⟨_, exec_load entry true wfmt line lines breg offset hissue (by simpa using hplace) hfree (fun _ => hhalf), ?_, ?_, ?_⟩
  · rw [State.sendLoads_frame]
    simp
  · rw [State.sendLoads_frame]
    refine (State.load_issueLoad_entry ..).trans ?_
    rw [State.get_load_advance, State.advance_tag]
    rfl
  · have hsays := congrArg List.length (State.sendLoads_says ((s.advance i 9 i.cycle.toNat).issueLoad i entry.toNat
      (some (line.getLsbD 11)) wfmt (line.toNat % 256) (lines.toNat + 1) (s.queueAddr i breg offset)) i (s.strm i).tag entry.toNat
      (s.queueAddr i breg offset) (lines.toNat + 1) ((s.tile i.tile.toNat).load entry.toNat).epoch)
    simp only [List.length_append, List.length_map] at hsays
    exact hsays

/-! ## STORE -/

theorem store_issues (entry : BitVec 6) (line : BitVec 12) (lines : BitVec 6) (breg : BitVec 3) (offset : BitVec 17)
    (hissue : s.clearIssue i 9 = true) (hentry : entry.toNat < 32) (hlines : line.toNat + lines.toNat ≤ 3071)
    (hfree : ((s.tile i.tile.toNat).storeE entry.toNat).st = .free)
    (howns : (s.tile i.tile.toNat).owns line.toNat (lines.toNat + 1) (s.strm i).tag = true) :
    ∃ t, exec (.store i entry false false line lines breg offset) s = .next t ∧ t.spad = s.spad ∧ t.mesh = s.mesh ∧
      (t.tile i.tile.toNat).storeE entry.toNat = {
        st := .issued, tag := (s.strm i).tag, stream := i.stream, toHalf := none, line := line.toNat, lines := lines.toNat + 1
        done := 0, acked := 0, addr := s.queueAddr i breg offset, epoch := ((s.tile i.tile.toNat).storeE entry.toNat).epoch } := by
  have hfree' : ¬ (((s.advance i 9 i.cycle.toNat).tile i.tile.toNat).storeE entry.toNat).st ≠ .free := by
    rw [State.tile_advance]
    exact not_not.2 hfree
  have howns' : ¬ ((s.advance i 9 i.cycle.toNat).tile i.tile.toNat).owns line.toNat (lines.toNat + 1)
      ((s.advance i 9 i.cycle.toNat).strm i).tag = false := by
    rw [State.tile_advance, State.advance_tag]
    exact Bool.not_eq_false _ ▸ howns
  change ∃ t, execStore i entry false false line lines breg offset s = .next t ∧ _
  rw [execStore, State.issue_clear s i 9 _ _ _ hissue (by simp [hentry, hlines])]
  dsimp only
  rw [if_neg hfree', if_neg howns', State.advance_tag, ← State.queueAddr_advance 9]
  refine ⟨_, rfl, rfl, rfl, ?_⟩
  rw [State.tile_setTile_same, Tile.storeE, SMap.get_set_same, State.tile_advance]
  rfl

/-! ## RREAD -/

theorem exec_rread (entry : BitVec 6) (src : TileNo) (sline line : BitVec 12) (hissue : s.clearIssue i 9 = true) (hsline : sline.toNat ≤ 3071)
    (hline : line.toNat ≤ 3071) :
    exec (.rread i entry src sline line 0) s = .next (
      if ((s.tile i.tile.toNat).load entry.toNat).st ≠ .free then (s.advance i 9 i.cycle.toNat).overfill i entry.toNat
      else ((s.advance i 9 i.cycle.toNat).issueLoad i entry.toNat none false line.toNat 1 sline.toNat).sendMsg i.tile.toNat src.toNat 0
        (s.strm i).tag ((s.advance i 9 i.cycle.toNat).issuedAt i)
        (.readReq entry.toNat sline.toNat ((s.tile i.tile.toNat).load entry.toNat).epoch)) := by
  change execRread i entry src sline line 0 s = _
  rw [execRread, State.issue_clear s i 9 _ _ _ hissue (by simp [hsline, hline])]
  dsimp only
  rw [State.get_load_advance, State.advance_tag]

theorem rread_issues (entry : BitVec 6) (src : TileNo) (sline line : BitVec 12) (hissue : s.clearIssue i 9 = true)
    (hsline : sline.toNat ≤ 3071) (hline : line.toNat ≤ 3071) (hfree : ((s.tile i.tile.toNat).load entry.toNat).st = .free) :
    ∃ t, exec (.rread i entry src sline line 0) s = .next t ∧ t.spad = s.spad ∧
      ((t.tile i.tile.toNat).load entry.toNat).st = .issued ∧ ((t.tile i.tile.toNat).load entry.toNat).line = line.toNat ∧
      t.mesh.vc2.map Msg.says = s.mesh.vc2.map Msg.says ++
        [(i.tile.toNat, src.toNat, 0, (s.strm i).tag, .readReq entry.toNat sline.toNat ((s.tile i.tile.toNat).load entry.toNat).epoch)] := by
  have hentry := State.load_issueLoad_entry (s.advance i 9 i.cycle.toNat) i entry.toNat none false line.toNat 1 sline.toNat
  have hsent := State.chan_sendMsg_same ((s.advance i 9 i.cycle.toNat).issueLoad i entry.toNat none false line.toNat 1 sline.toNat)
    i.tile.toNat src.toNat 0 (s.strm i).tag ((s.advance i 9 i.cycle.toNat).issuedAt i)
    (.readReq entry.toNat sline.toNat ((s.tile i.tile.toNat).load entry.toNat).epoch)
  refine ⟨_, by rw [exec_rread entry src sline line hissue hsline hline, if_neg (not_not.2 hfree)], by simp, ?_, ?_, ?_⟩
  · exact congrArg QEntry.st hentry
  · exact congrArg QEntry.line hentry
  · exact (congrArg (List.map Msg.says) hsent).trans (List.map_append ..)

theorem rread_overfills (entry : BitVec 6) (src : TileNo) (sline line : BitVec 12) (hissue : s.clearIssue i 9 = true)
    (hsline : sline.toNat ≤ 3071) (hline : line.toNat ≤ 3071) (hused : ((s.tile i.tile.toNat).load entry.toNat).st ≠ .free) :
    ∃ t, exec (.rread i entry src sline line 0) s = .next t ∧ t.spad = s.spad ∧ t.mesh.vc2 = s.mesh.vc2 ∧
      AbortsIn (s.strm i).tag.toNat s t := by
  have htag : ((s.advance i 9 i.cycle.toNat).strm i).tag = (s.strm i).tag := s.advance_tag i 9 _
  have haborts := State.ownFault_aborts (s := s.advance i 9 i.cycle.toNat) (i := i) (code := 0x05) (unit := 0x4C)
    (detail := BitVec.ofNat 32 entry.toNat) (by rw [htag]; exact State.clearIssue_isPart hissue)
  refine ⟨_, by rw [exec_rread entry src sline line hissue hsline hline, if_pos hused, State.overfill], ?_, ?_,
    AbortsIn.of_advance (htag ▸ haborts)⟩
  · rw [State.ownFault_spad, State.spad_advance]
  · exact congrArg (·.1) (State.fault_requestChannels _ _)

end Sys2Proof.Machine
end

section
open Sys2Proof Sys2Proof.Machine

/-- Settles O17: a clear issue acts on the advanced state, in which a Free entry is issued and its requests join their channel. -/
theorem queueEntriesIssue : Obligations.QueueEntriesIssue := by
  unfold Obligations.QueueEntriesIssue
  exact ⟨fun i entry line lines breg offset s => load_issuesToPad entry line lines breg offset,
    fun i entry wfmt line lines breg offset s => load_issuesToHalf entry wfmt line lines breg offset,
    fun i entry line lines breg offset s => store_issues entry line lines breg offset,
    fun i entry src sline line s => rread_issues entry src sline line,
    fun i entry src sline line s => rread_overfills entry src sline line⟩

end

section
/-! Certificate of O23: load requests at a controller and at an engine, refused ones, and their beats at the tile (R193, R217, R220, R233),
a lemma for each outcome. -/

namespace Sys2Proof.Machine

variable {s u : State} {m : Msg} {rc : Nat}

/-! ## Queue messages delivered -/

theorem State.passQueue_frame (s : State) (a b : Nat) :
    s.passQueue a b = { s with mesh := { s.mesh with routers := (s.passQueue a b).mesh.routers } } := s.passRouters_frame _

/-- Queue traffic without an error is delivered, and counted on its way (R161, R163). -/
theorem State.deliver_queue (act : State → State) (hchan : m.msg.chan = .qreq ∨ m.msg.chan = .qresp) :
    s.deliver m rc {} act = act (s.passQueue m.src m.dest) := by
  unfold State.deliver
  dsimp only
  rw [if_neg Bool.false_ne_true, Bool.false_and, if_neg Bool.false_ne_true]
  rcases hchan with h | h <;> rw [h]

/-! ## Load requests -/

section
variable {unit : Fin 25} {entry index a n d epoch : Nat}

/-- The requests once a line of one has been served: it leaves with its last line (R223). -/
def Msg.servedFrom (m : Msg) (n d : Nat) (next : MeshMsg) (q : List Msg) : List Msg :=
  if n ≤ d + 1 then q.erase m else q.map (fun y => if y = m then { m with msg := next } else y)

theorem State.servedLine_eq (s : State) (hmsg : m.msg = .loadReq entry index a n d epoch) :
    s.servedLine m =
      { s with mesh := { s.mesh with qreq := m.servedFrom n d (.loadReq entry index a n (d + 1) epoch) s.mesh.qreq } } := by
  unfold State.servedLine
  rw [hmsg]
  rfl

/-- The machine in which a line of a request is answered: the request has moved on, and routers may have counted it. -/
def State.servedBy (s : State) (q : List Msg) (routers : SMap Router) : State :=
  { s with mesh := { s.mesh with qreq := q, routers := routers } }

/-- A request that may have its lines is answered with its next one. -/
theorem exec_loadRequest_answers (htake : s.takeMsg .qreq rc (s.servable unit.val) = some (m, u))
    (hmsg : m.msg = .loadReq entry index a n d epoch) (hallowed : s.loadForbidden unit.val m.tag a n = false) :
    ∃ routers, exec (.loadRequest unit rc {} .none false) s = .next
      ((s.servedBy (m.servedFrom n d (.loadReq entry index a n (d + 1) epoch) s.mesh.qreq) routers).answerLoad unit.val m rc entry (index + d)
        (a + d) epoch .none false) := by
  change ∃ routers, execLoadRequest unit rc {} .none false s = _
  unfold execLoadRequest
  dsimp only
  rw [htake]
  dsimp only
  rw [hmsg]
  dsimp only
  rw [if_neg (by rw [hallowed]; decide)]
  by_cases hd : d = 0
  · refine ⟨((s.servedLine m).passQueue m.src m.dest).mesh.routers, ?_⟩
    rw [if_neg (not_not.2 hd), if_neg (by decide), State.deliver_queue _ (.inl (by rw [hmsg]; rfl)), State.passQueue_frame,
      State.servedLine_eq s hmsg]
    rfl
  · refine ⟨s.mesh.routers, ?_⟩
    rw [if_pos hd, if_neg (by decide), State.servedLine_eq s hmsg]
    rfl

/-- A line of the data space that a healthy stack holds is read, and counted as queue traffic. -/
theorem State.answerLoad_stack (v : State) (u : Nat) (ha : a < dataLines) (hst : (v.stack (stackOf a)).st ≠ 2)
    (hlost : v.mem.lost.contains a = false) :
    v.answerLoad u m rc entry index a epoch .none false =
      (v.queueBytes u).sendMsg m.dest m.src 0 m.tag (v.now rc) (.loadData entry index (v.readMem a) epoch) := by
  have hread : v.stackRead a .none false = (v, true) := by
    unfold State.stackRead
    dsimp only
    rw [if_neg (by rw [hlost]; decide), if_neg hst]
  simp only [State.answerLoad, if_pos ha, hread, if_true]
  rfl

theorem loadRequest_bringsStackLine (htake : s.takeMsg .qreq rc (s.servable unit.val) = some (m, u))
    (hmsg : m.msg = .loadReq entry index a n d epoch) (had : a + d < dataLines) (hunit : unit.val ≠ 24)
    (hreach : ∀ k, k < n → s.mayReach m.tag (a + k) = true) (hst : (s.stack (stackOf (a + d))).st ≠ 2)
    (hlost : s.mem.lost.contains (a + d) = false) :
    ∃ t x, exec (.loadRequest unit rc {} .none false) s = .next t ∧
      t.mesh.qreq = (if n ≤ d + 1 then s.mesh.qreq.erase m
        else s.mesh.qreq.map (fun y => if y = m then { m with msg := .loadReq entry index a n (d + 1) epoch } else y)) ∧
      t.mesh.qresp = s.mesh.qresp ++ [x] ∧
      x.says = (m.dest, m.src, 0, m.tag, .loadData entry (index + d) (s.readMem (a + d)) epoch) ∧ t.mem.data = s.mem.data ∧
      (t.stack unit.val).qBytes = (s.stack unit.val).qBytes + 128 ∧ t.tiles = s.tiles ∧ t.parts = s.parts := by
  have hallowed : s.loadForbidden unit.val m.tag a n = false := by
    simp only [State.loadForbidden, hunit, decide_false, Bool.false_or, if_pos (show a < dataLines by omega), List.any_eq_false,
      List.mem_range, Bool.not_eq_true', Bool.not_eq_false]
    exact hreach
  obtain ⟨routers, hexec⟩ := exec_loadRequest_answers htake hmsg hallowed
  rw [State.answerLoad_stack (s.servedBy _ routers) unit.val had hst hlost] at hexec
  refine ⟨_, _, hexec, rfl, State.chan_sendMsg_same _ _ _ _ _ _ (.loadData entry (index + d) (s.readMem (a + d)) epoch), rfl, rfl, ?_,
    rfl, rfl⟩
  exact congrArg Stack.qBytes (SMap.get_set_same s.mem.stk {} unit.val _)

/-- A result line leaves its engine for the entry that asked for it (R233). -/
theorem State.answerLoad_result (v : State) (u : Nat) (ha : ¬ a < dataLines) :
    v.answerLoad u m rc entry index a epoch .none false =
      (v.updEngine u (fun x => { x with results := SMap.drop x.results ((a - dataLines) % 65536) })).sendMsg m.dest m.src 0 m.tag (v.now rc)
        (.loadData entry index (SMap.get (v.engine u).results ⟨0xFE, 0, 0⟩ ((a - dataLines) % 65536)).data epoch) := by
  simp only [State.answerLoad, if_neg ha]
  rfl

theorem loadRequest_bringsResultLine (htake : s.takeMsg .qreq rc (s.servable unit.val) = some (m, u))
    (hmsg : m.msg = .loadReq entry index a n d epoch) (ha : dataLines ≤ a) (hunit : unit.val < 24)
    (htags : ∀ v ∈ (s.engine unit.val).results, v.2.tag = m.tag) :
    ∃ t x, exec (.loadRequest unit rc {} .none false) s = .next t ∧
      (n ≤ d + 1 → t.mesh.qreq = s.mesh.qreq.erase m) ∧ t.mesh.qresp = s.mesh.qresp ++ [x] ∧
      x.says = (m.dest, m.src, 0, m.tag, .loadData entry (index + d)
        (SMap.get (s.engine unit.val).results ⟨0xFE, 0, 0⟩ ((a + d - dataLines) % 65536)).data epoch) ∧ t.mem.data = s.mem.data ∧
      (t.engine unit.val).results = (s.engine unit.val).results.filter (fun v => decide (v.1 ≠ (a + d - dataLines) % 65536)) ∧
      t.tiles = s.tiles := by
  have hallowed : s.loadForbidden unit.val m.tag a n = false := by
    simp only [State.loadForbidden, show ¬ unit.val = 24 by omega, decide_false, Bool.false_or, if_neg (show ¬ a < dataLines by omega),
      List.any_eq_false, decide_eq_true_eq]
    exact fun v hv hforeign => hforeign.2.2 (htags v hv)
  obtain ⟨routers, hexec⟩ := exec_loadRequest_answers htake hmsg hallowed
  rw [State.answerLoad_result (s.servedBy _ routers) unit.val (show ¬ a + d < dataLines by omega)] at hexec
  refine ⟨_, _, hexec, fun hlast => if_pos hlast, State.chan_sendMsg_same _ _ _ _ _ _ (.loadData entry (index + d) _ epoch), rfl, rfl, ?_, rfl⟩
  exact congrArg Engine.results (SMap.get_set_same s.mem.engines {} unit.val _)

/-- A request that may not have its lines leaves no answer: fault 0x06 at the port of its unit, with its tag (R220). -/
theorem loadRequest_refused (htake : s.takeMsg .qreq rc (s.servable unit.val) = some (m, u))
    (hmsg : m.msg = .loadReq entry index a n d epoch) (hforbidden : s.loadForbidden unit.val m.tag a n = true) (htag : m.tag.toNat < 128) :
    ∃ t, exec (.loadRequest unit rc {} .none false) s = .next t ∧ t.mesh.qreq = u.mesh.qreq ∧ t.mesh.qresp = s.mesh.qresp ∧
      t.mem.data = s.mem.data ∧ AbortsIn m.tag.toNat s t := by
  let v := (u.passQueue m.src m.dest).routerError m.dest
  let f := portFault 0x06 m.tag m.dest (4 + m.port) ((u.passQueue m.src m.dest).cycleAt rc) (tagDetail m.tag true)
  have hexec : exec (.loadRequest unit rc {} .none false) s = .next (v.fault f) := by
    change execLoadRequest unit rc {} .none false s = _
    unfold execLoadRequest
    dsimp only
    rw [htake]
    dsimp only
    rw [hmsg]
    dsimp only
    rw [if_pos hforbidden, State.deliver_queue _ (.inl (by rw [hmsg]; rfl))]
    rfl
  have hchannels := v.fault_requestChannels f
  have hpassed := u.passQueue_frame m.src m.dest
  have hv : v.mesh.requestChannels = u.mesh.requestChannels := by
    change (u.passQueue m.src m.dest).mesh.requestChannels = _
    rw [hpassed]
    rfl
  have hu : u.mesh.qresp = s.mesh.qresp ∧ u.mem = s.mem ∧ u.parts = s.parts ∧ u.fu = s.fu := by
    obtain ⟨-, -, -, -, -, -, rfl⟩ := State.takeMsg_eq_some htake
    exact ⟨rfl, rfl, rfl, rfl⟩
  obtain ⟨hresp, hmem, hparts, hfu⟩ := hu
  have hvparts : v.parts = s.parts ∧ v.fu = s.fu ∧ v.mem = s.mem := by
    change (u.passQueue m.src m.dest).parts = _ ∧ (u.passQueue m.src m.dest).fu = _ ∧ (u.passQueue m.src m.dest).mem = _
    rw [hpassed]
    exact ⟨hparts, hfu, hmem⟩
  refine ⟨_, hexec, congrArg (·.2.1) (hchannels.trans hv), (congrArg (·.2.2) (hchannels.trans hv)).trans hresp, ?_, fun hbehind => ?_⟩
  · rw [State.fault_mem_data, hvparts.2.2]
  · refine State.fault_aborts v f (decide_eq_true htag) ?_
    rw [State.part_congr hvparts.1, hvparts.2.1]
    exact hbehind

theorem State.loadForbidden_of (h : a < dataLines ∧ (∃ k, k < n ∧ s.mayReach m.tag (a + k) = false) ∨
      (dataLines ≤ a ∧ ∃ v ∈ (s.engine unit.val).results, (a - dataLines) % 65536 ≤ v.1 ∧ v.1 < (a - dataLines) % 65536 + n ∧
        v.2.tag ≠ m.tag) ∨ unit.val = 24) : s.loadForbidden unit.val m.tag a n = true := by
  simp only [State.loadForbidden, Bool.or_eq_true, decide_eq_true_eq]
  rcases h with ⟨ha, k, hk, hfar⟩ | ⟨ha, v, hv, hforeign⟩ | hunit
  · right
    rw [if_pos ha, List.any_eq_true]
    exact ⟨k, List.mem_range.2 hk, by rw [hfar]; rfl⟩
  · right
    rw [if_neg (Nat.not_lt.2 ha), List.any_eq_true]
    exact ⟨v, hv, decide_eq_true hforeign⟩
  · exact .inl hunit

end

/-! ## Beats -/

section
variable {tile : TileNo} {entry index epoch : Nat} {l : Line}

/-- The machine to which a queue message has been delivered differs from the one before in its mesh. -/
theorem State.passed_frame {c : Chan} {p : Msg → Bool} (htake : s.takeMsg c rc p = some (m, u)) (a b : Nat) :
    u.passQueue a b = { s with mesh := (u.passQueue a b).mesh } := by
  rw [State.passQueue_frame, State.takeMsg_frame htake]

/-- A beat without an error lands on the delivered state. -/
theorem exec_loadData_lands {v : State} (htake : s.takeMsg .qresp rc (fun m => m.isFor tile.toNat 0 && decide (m.msg.op = 0x11)) = some (m, u))
    (hmsg : m.msg = .loadData entry index l epoch)
    (hland : (u.passQueue m.src m.dest).landLoad tile entry index l m.tag epoch rc = some v) :
    exec (.loadData tile rc {}) s = .next v := by
  change execLoadData tile rc {} s = _
  unfold execLoadData
  rw [htake]
  dsimp only
  rw [hmsg]
  dsimp only
  rw [State.landBeat, if_neg (by decide), State.deliver_queue _ (.inr (by rw [hmsg]; rfl)), id, hland]

/-- A beat that lands in scratchpad lines leaves the stacks alone. -/
theorem State.landLoad_pad_mem {tag : Tag} {v : State} (hland : s.landLoad tile entry index l tag epoch rc = some v)
    (hhalf : ((s.tile tile.toNat).load entry).toHalf = none)
    (howns : (s.tile tile.toNat).owns (((s.tile tile.toNat).load entry).line + index) 1 tag = true)
    (hnarrow : (s.tile tile.toNat).narrow = []) (hnarrowW : (s.tile tile.toNat).narrowW = []) (hhold : s.fu.hold = none) :
    v.mem = s.mem := by
  unfold State.landLoad at hland
  dsimp only at hland
  rw [hhalf, howns] at hland
  split at hland
  · rw [← Option.some.inj hland]
  · obtain ⟨w, htaken, rfl⟩ := Option.map_eq_some_iff.1 hland
    obtain ⟨f, hf⟩ := State.takeFill_narrowless (by rw [htaken]; rfl) hnarrow
    obtain rfl := Option.some.inj (hf.symm.trans htaken)
    rw [State.settleLines_nil _ _ _ _ (by rw [State.tile_updTile_same, State.tile_setTile_same]; exact hnarrowW),
      State.resume_unheld _ (by exact hhold)]
    rfl

theorem loadData_landsInPad (htake : s.takeMsg .qresp rc (fun m => m.isFor tile.toNat 0 && decide (m.msg.op = 0x11)) = some (m, u))
    (hmsg : m.msg = .loadData entry index l epoch) (hst : ((s.tile tile.toNat).load entry).st = .issued)
    (hepoch : ((s.tile tile.toNat).load entry).epoch = epoch) (hhalf : ((s.tile tile.toNat).load entry).toHalf = none)
    (howns : (s.tile tile.toNat).owns (((s.tile tile.toNat).load entry).line + index) 1 m.tag = true)
    (hfill : (s.takeFill tile rc (((s.tile tile.toNat).load entry).line + index) (some entry)).isSome = true)
    (hnarrow : (s.tile tile.toNat).narrow = []) (hnarrowW : (s.tile tile.toNat).narrowW = []) (hhold : s.fu.hold = none) :
    let e := (s.tile tile.toNat).load entry
    ∃ t, exec (.loadData tile rc {}) s = .next t ∧ t.mesh.qresp = u.mesh.qresp ∧ t.padLine tile.toNat (e.line + index) = l ∧
      PadOutside tile.toNat (e.line + index) 1 s t ∧ (t.tile tile.toNat).load entry = e.beat (s.now rc) ∧ t.mem = s.mem := by
  intro e
  have hframe := State.passed_frame htake m.src m.dest
  have htile : (u.passQueue m.src m.dest).tile tile.toNat = s.tile tile.toNat := by rw [hframe]; rfl
  have hnow : (u.passQueue m.src m.dest).now rc = s.now rc := by rw [hframe]; rfl
  obtain ⟨v, f, hland, hmesh, hspad, hvtile⟩ := State.landLoad_lands (s := u.passQueue m.src m.dest) (tile := tile) (rc := rc)
    (entry := entry) (index := index) (epoch := epoch) (l := l) (tag := m.tag) (by rw [htile, hst]) (by rw [htile, hepoch])
    (by rw [htile, hhalf]) (by rw [htile, howns]) (by rw [htile, hframe, State.takeFill_isSome_mesh, hfill]) (by rw [htile, hnarrow])
    (by rw [htile, hnarrowW]) (by rw [hframe, hhold])
  have hmem := State.landLoad_pad_mem hland (by rw [htile, hhalf]) (by rw [htile, howns]) (by rw [htile, hnarrow]) (by rw [htile, hnarrowW])
    (by rw [hframe, hhold])
  rw [htile] at hland hmem hvtile
  rw [hnow] at hvtile
  refine ⟨_, exec_loadData_lands htake hmsg (by rw [hland]), ?_, State.padLine_setPadLine_same v _ _ _, ?_, ?_, ?_⟩
  · rw [State.setPadLine_mesh, hmesh, State.passQueue_frame]
  · intro a ha
    rw [State.setPadLine_out v _ _ _ a ha, hspad, hframe]
  · rw [State.tile_setPadLine_of, hvtile, Tile.load, Tile.beaten, SMap.get_set_same]
  · rw [hmem, hframe]

/-- What a half holds once a beat has landed in it (R140, R193). -/
def Half.landed (h : Half) (tag : Tag) (e : QEntry) (entry index : Nat) (l : Line) : Half :=
  { ({ h with tag := tag, wfmt := e.wfmt } : Half).put (e.halfLine index) l (.stack (e.addr + index)) with
    loading := some entry, doubt := false, copy := none }

/-- The machine whose half has taken a beat that its load entry counts. -/
def State.halfBeat (s : State) (tile : TileNo) (h : Bool) (tag : Tag) (entry index : Nat) (l : Line) (rc : Nat) : State :=
  let e := (s.tile tile.toNat).load entry
  s.updTile tile.toNat (fun t => ({ t with loads := SMap.set t.loads {} entry (e.beat (s.now rc)) } : Tile).setHalf h
    (((s.tile tile.toNat).half h).landed tag e entry index l))

theorem State.landLoad_half {tag : Tag} {h : Bool} (hst : ((s.tile tile.toNat).load entry).st = .issued)
    (hepoch : ((s.tile tile.toNat).load entry).epoch = epoch) (hhalf : ((s.tile tile.toNat).load entry).toHalf = some h)
    (hops : (s.tile tile.toNat).ops = []) (hhold : s.fu.hold = none) :
    s.landLoad tile entry index l tag epoch rc = some (s.halfBeat tile h tag entry index l rc) := by
  unfold State.landLoad
  dsimp only
  rw [if_neg (by simp [hst, hepoch]), hhalf]
  dsimp only
  rw [if_neg (by simp [Tile.opOn, hops]), State.resume_unheld _ (by exact hhold)]
  rfl

theorem loadData_landsInHalf {h : Bool}
    (htake : s.takeMsg .qresp rc (fun m => m.isFor tile.toNat 0 && decide (m.msg.op = 0x11)) = some (m, u))
    (hmsg : m.msg = .loadData entry index l epoch) (hst : ((s.tile tile.toNat).load entry).st = .issued)
    (hepoch : ((s.tile tile.toNat).load entry).epoch = epoch) (hhalf : ((s.tile tile.toNat).load entry).toHalf = some h)
    (hops : (s.tile tile.toNat).ops = []) (hhold : s.fu.hold = none) :
    let x := s.tile tile.toNat
    let e := x.load entry
    ∃ t, exec (.loadData tile rc {}) s = .next t ∧ t.mesh.qresp = u.mesh.qresp ∧ t.spad = s.spad ∧ t.mem = s.mem ∧
      SMap.get ((t.tile tile.toNat).half h).lines 0 (e.halfLine index) = l ∧ ((t.tile tile.toNat).half h).tag = m.tag ∧
      ((t.tile tile.toNat).half h).wfmt = e.wfmt ∧ (t.tile tile.toNat).half (!h) = x.half (!h) ∧
      (t.tile tile.toNat).load entry = e.beat (s.now rc) := by
  intro x e
  have hframe := State.passed_frame htake m.src m.dest
  have htile : (u.passQueue m.src m.dest).tile tile.toNat = s.tile tile.toNat := by rw [hframe]; rfl
  have hnow : (u.passQueue m.src m.dest).now rc = s.now rc := by rw [hframe]; rfl
  have hbeat : ((u.passQueue m.src m.dest).halfBeat tile h m.tag entry index l rc).tile tile.toNat =
      ({ x with loads := SMap.set x.loads {} entry (e.beat (s.now rc)) } : Tile).setHalf h ((x.half h).landed m.tag e entry index l) := by
    rw [State.halfBeat, State.tile_updTile_same, htile, hnow]
  have hland := State.landLoad_half (s := u.passQueue m.src m.dest) (tile := tile) (rc := rc) (entry := entry) (index := index) (epoch := epoch)
    (l := l) (tag := m.tag) (h := h) (by rw [htile, hst]) (by rw [htile, hepoch]) (by rw [htile, hhalf]) (by rw [htile, hops])
    (by rw [hframe, hhold])
  refine ⟨_, exec_loadData_lands htake hmsg hland, ?_, ?_, ?_, ?_, ?_, ?_, ?_, ?_⟩
  · change (u.passQueue m.src m.dest).mesh.qresp = _
    rw [State.passQueue_frame]
  · change (u.passQueue m.src m.dest).spad = _
    rw [hframe]
  · change (u.passQueue m.src m.dest).mem = _
    rw [hframe]
  · rw [hbeat, Tile.half_setHalf]
    exact SMap.get_set_same _ _ _ _
  · rw [hbeat, Tile.half_setHalf]
    rfl
  · rw [hbeat, Tile.half_setHalf]
    rfl
  · rw [hbeat, Tile.half_setHalf_not]
    exact Tile.half_congr rfl rfl _
  · rw [hbeat]
    refine Eq.trans ?_ (SMap.get_set_same x.loads {} entry (e.beat (s.now rc)))
    cases h <;> rfl

end

end Sys2Proof.Machine
end

section
open Sys2Proof Sys2Proof.Machine

/-- Settles O23: `loadRequest_bringsStackLine`, `loadRequest_bringsResultLine` and `loadRequest_refused` at the unit, `loadData_landsInPad` and
`loadData_landsInHalf` at the tile. -/
theorem loadsBringTheirLines : Obligations.LoadsBringTheirLines := by
  unfold Obligations.LoadsBringTheirLines
  refine ⟨fun unit rc entry index a n d epoch m s u => loadRequest_bringsStackLine,
    fun unit rc entry index a n d epoch m s u => loadRequest_bringsResultLine, ?_,
    fun tile rc entry index epoch l m s u => loadData_landsInPad, fun tile rc entry index epoch h l m s u => loadData_landsInHalf⟩
  exact fun unit rc entry index a n d epoch m s u htake hmsg hforbidden => loadRequest_refused htake hmsg (State.loadForbidden_of hforbidden)

end

section
/-! SUPPORT. What the work at a step boundary and the start of a partition's streams leave alone: scratchpad, mesh, frame unit, and of each
partition the course of its steps; what they leave of the streams (R167, R168, R246, R265, R268-R270, R479, R480). -/

namespace Sys2Proof.Machine

/-! ## The course of a partition's steps -/

/-- What says where a partition stands in its steps, its aborts and its replays. -/
def Part.course (q : Part) :
    BitVec 48 × BitVec 8 × (BitVec 48 × BitVec 8) × List (BitVec 48 × BitVec 8) × Option Nat × Option AbortS × Option Nat × Nat :=
  (q.step, q.attempt, q.due, q.tries, q.nextStart, q.abort, q.replayed, q.aborted)

/-- Scratchpad, mesh, frame unit, and the course of partition `k`'s steps. -/
def State.course (k : Nat) (s : State) := (s.spad, s.mesh, s.fu, (s.part k).course)

/-- The same, with the tiles. -/
def State.footing (k : Nat) (s : State) := (s.tiles, s.course k)

theorem State.course_of_footing {s t : State} {k : Nat} (h : t.footing k = s.footing k) : t.course k = s.course k := congrArg (·.2) h

variable (s : State) (k : Nat)

theorem State.footing_setPart (p : Nat) (v : Part) (h : v.course = (s.part p).course) : (s.setPart p v).footing k = s.footing k := by
  have hpart : ((s.setPart p v).part k).course = (s.part k).course := by
    rw [State.part_setPart]
    split
    next hk => rw [h, hk]
    next => rfl
  rw [State.footing, State.course, hpart]
  rfl

theorem State.footing_updPart (p : Nat) (f : Part → Part) (h : ∀ q, (f q).course = q.course) : (s.updPart p f).footing k = s.footing k :=
  s.footing_setPart k p _ (h _)

theorem State.footing_mapAccts (f : Nat → Account → Account) : (s.mapAccts f).footing k = s.footing k := rfl

/-! ## Firmware's work at a step boundary -/

theorem State.course_writeBases (p : Nat) (l : List (TileNo × BitVec 3 × BitVec 6 × BitVec 33)) :
    (s.writeBases p l).course k = s.course k := by
  unfold State.writeBases
  exact foldl_keeps (State.course k) _ (fun _ _ => by rfl) l s

theorem State.footing_sendOn (l : Nat) (m : LinkMsg) : (s.sendOn l m).footing k = s.footing k := by
  rw [State.sendOn_frame]
  rfl

theorem State.footing_startMove (p a link : Nat) (dst : PartNo) : (s.startMove p a link dst).footing k = s.footing k := by
  unfold State.startMove
  dsimp only
  split
  · rfl
  · refine (foldl_keeps (State.footing k) _ (fun t x => ?_) _ _).trans (foldl_keeps (State.footing k) _ (fun _ _ => by rfl) _ _)
    exact foldl_keeps (State.footing k) _ (fun u m => u.footing_sendOn k link (.pages m)) _ t

theorem State.footing_startMoves (p : Nat) (l : List (SlotNo × LinkNo × PartNo)) : (s.startMoves p l).footing k = s.footing k := by
  unfold State.startMoves
  exact foldl_keeps (State.footing k) _ (fun t x => t.footing_startMove k p x.1.val x.2.1.val x.2.2) l s

theorem State.footing_beginElsewhere (p : Nat) (l : List SlotNo) : (s.beginElsewhere p l).footing k = s.footing k := by
  unfold State.beginElsewhere
  refine foldl_keeps (State.footing k) _ (fun t a => ?_) l s
  split <;> rfl

theorem State.footing_appliedRec (index sub : Nat) (v : BitVec 64) (frame : Nat) : (s.appliedRec index sub v frame).footing k = s.footing k := by
  unfold State.appliedRec
  split <;> rfl

theorem State.footing_takeRecipe (p : Nat) : (s.takeRecipe p).footing k = s.footing k := by
  unfold State.takeRecipe
  dsimp only
  split
  · split
    · rw [State.footing_appliedRec]
      exact s.footing_setPart k p _ rfl
    · exact s.footing_setPart k p _ rfl
  · exact s.footing_setPart k p _ rfl

theorem State.footing_moveAcct (a p : Nat) (toCompanion : Bool) : (s.moveAcct a p toCompanion).footing k = s.footing k := by
  unfold State.moveAcct
  exact (foldl_keeps (State.footing k) _ (fun _ _ => by rfl) _ _).trans (State.footing_updPart _ k p _ fun _ => rfl)

theorem State.footing_leaveCompanion (p : Nat) : (s.leaveCompanion p).footing k = s.footing k := by
  unfold State.leaveCompanion
  split
  · rfl
  next q _ _ =>
    have hback (l : List Nat) : (l.foldl (fun t a => t.moveAcct a q false) s).footing k = s.footing k :=
      foldl_keeps (State.footing k) _ (fun t a => t.footing_moveAcct k a q false) l s
    dsimp only
    split
    · exact (State.footing_updPart _ k p _ fun _ => by rfl).trans (hback _)
    · exact hback _

theorem State.course_queuePrograms (base : Nat) : (s.queuePrograms base).course k = s.course k := by
  unfold State.queuePrograms
  split
  · exact foldl_keeps (State.course k) _ (fun _ _ => by rfl) _ s
  · rfl

/-- What the settled partition takes over from the boundary: streams, a staged image, the end of covering (R171, R268, R274). -/
def Part.takeBoundary (q : Part) (fw : Boundary) (returned : Bool) : Part :=
  let q := { q with streams := q.streams ||| fw.streams, staged := fw.staged.or q.staged }
  if returned then { q with cover := false, coverAddr := none } else q

theorem Part.course_takeBoundary (q : Part) (fw : Boundary) (returned : Bool) : (q.takeBoundary fw returned).course = q.course := by
  unfold Part.takeBoundary
  dsimp only
  split <;> rfl

/-- The work before the streams start, up to the state of the partition. -/
def State.boundarySettled (s : State) (p : Nat) (fw : Boundary) : State :=
  let s0 := ((s.writeBases p fw.bases).startMoves p fw.moves).beginElsewhere p fw.begins
  let s1 := ((s0.updPart p Part.takeWaiting).takeRecipe p).updPart p (fun q =>
    q.takeBoundary fw (s0.fu.returnF.any (fun r => decide (r ≤ s0.fu.frame))))
  (s1.mapAccts (fun _ x => if x.part.toNat = p then x.takeWaiting (s1.part p).verify.toNat else x)).leaveCompanion p

/-- How the partition runs from this boundary on (R268, R270). -/
def State.settleRun (s : State) (p : Nat) : State :=
  let q := s.part p
  if q.replReq then
    (s.setPart p { q with st := .streaming, repl := 2, replReq := false, programmed := 0, streams := BitVec.allOnes 1024 }).queuePrograms
      q.base.toNat
  else if s.isCompanion p then s.setPart p { q with st := .streaming, streams := BitVec.allOnes 1024 }
  else if q.st = .streaming ∧ q.repl = 0 ∧ s.allResident p = true then s.setPart p { q with st := .serving }
  else if q.st = .streaming then s.setPart p { q with streams := BitVec.allOnes 1024 }
  else s

theorem State.boundaryWork_eq (p : Nat) (fw : Boundary) : s.boundaryWork p fw = (s.boundarySettled p fw).settleRun p := by
  unfold State.boundaryWork State.settleRun State.boundarySettled
  rfl

/-- Beside the entries of base tables that firmware writes, the work up to the state of the partition leaves tiles and courses alone. -/
theorem State.footing_boundarySettled (p : Nat) (fw : Boundary) :
    (s.boundarySettled p fw).footing k = (s.writeBases p fw.bases).footing k := by
  unfold State.boundarySettled
  dsimp only
  rw [State.footing_leaveCompanion, State.footing_mapAccts]
  refine (State.footing_updPart _ k p _ fun q => q.course_takeBoundary fw _).trans ?_
  rw [State.footing_takeRecipe, State.footing_updPart _ k p Part.takeWaiting (fun _ => rfl), State.footing_beginElsewhere,
    State.footing_startMoves]

/-- How a partition runs is no part of its course. -/
theorem Part.course_running (q : Part) (st : PState) (repl programmed : Nat) (asked : Bool) (streams : Line) :
    ({ q with st := st, repl := repl, replReq := asked, programmed := programmed, streams := streams } : Part).course = q.course := rfl

/-- A partition that settles how it runs keeps its course; the tiles are those of `queuePrograms`, or as they were. -/
theorem State.course_settleRun (p : Nat) : (s.settleRun p).course k = s.course k := by
  have hruns (st : PState) (repl programmed : Nat) (asked : Bool) (streams : Line) :=
    State.course_of_footing (s.footing_setPart k p _ ((s.part p).course_running st repl programmed asked streams))
  unfold State.settleRun
  dsimp only
  split
  · exact (State.course_queuePrograms _ k _).trans (hruns ..)
  · split
    · exact hruns ..
    · split
      · exact hruns ..
      · split
        · exact hruns ..
        · rfl

theorem State.course_boundaryWork (p : Nat) (fw : Boundary) : (s.boundaryWork p fw).course k = s.course k := by
  rw [State.boundaryWork_eq, State.course_settleRun, State.course_of_footing (s.footing_boundarySettled k p fw), State.course_writeBases]

/-! ## Streams across the work -/

/-- The streams of every tile are as they were, and tiles stay in order. -/
def KeepsStreams (s t : State) : Prop :=
  (∀ n, (t.tile n).streams = (s.tile n).streams) ∧ (SMap.rising s.tiles = true → SMap.rising t.tiles = true)

variable {s} in
theorem KeepsStreams.of_tiles {t : State} (h : t.tiles = s.tiles) : KeepsStreams s t :=
  ⟨fun n => by rw [State.tile_congr h n], fun hrising => by rw [h]; exact hrising⟩

variable {s} in
theorem KeepsStreams.trans {t u : State} (hst : KeepsStreams s t) (htu : KeepsStreams t u) : KeepsStreams s u :=
  ⟨fun n => (htu.1 n).trans (hst.1 n), fun h => htu.2 (hst.2 h)⟩

theorem KeepsStreams.updTile (n : Nat) (f : Tile → Tile) (h : (f (s.tile n)).streams = (s.tile n).streams) :
    KeepsStreams s (s.updTile n f) := by
  refine ⟨fun m => ?_, fun hrising => SMap.rising_set _ _ _ _ hrising⟩
  by_cases hm : m = n
  · rw [hm, State.tile_updTile_same, h]
  · rw [State.tile_updTile_other _ _ _ _ hm]

theorem KeepsStreams.foldl {α : Type} (g : State → α → State) (h : ∀ t a, KeepsStreams t (g t a)) (l : List α) :
    KeepsStreams s (l.foldl g s) := by
  induction l generalizing s with
  | nil => exact .of_tiles rfl
  | cons a l ih => exact (h s a).trans (ih _)

theorem State.queuePrograms_keepsStreams (base : Nat) : KeepsStreams s (s.queuePrograms base) := by
  unfold State.queuePrograms
  split
  · exact KeepsStreams.foldl s _ (fun t a => KeepsStreams.updTile t (a / 64) _ (by rfl)) _
  · exact .of_tiles rfl

theorem State.settleRun_keepsStreams (p : Nat) : KeepsStreams s (s.settleRun p) := by
  unfold State.settleRun
  dsimp only
  split
  · exact (KeepsStreams.of_tiles (by rfl)).trans (State.queuePrograms_keepsStreams _ _)
  · refine .of_tiles ?_
    (repeat' split) <;> rfl

theorem State.boundaryWork_keepsStreams (p : Nat) (fw : Boundary) : KeepsStreams (s.writeBases p fw.bases) (s.boundaryWork p fw) := by
  rw [State.boundaryWork_eq]
  exact (KeepsStreams.of_tiles (congrArg (·.1) (s.footing_boundarySettled 0 p fw))).trans (State.settleRun_keepsStreams _ p)

/-! ## The start of the streams -/

/-- What places for adapters leave alone: of a partition all but its free chunks. -/
def State.placing (k : Nat) (s : State) := (s.spad, s.mesh, s.fu, ({ s.part k with chunks := [] } : Part))

theorem State.placing_takeRun (p n : Nat) : (s.takeRun p n).1.placing k = s.placing k := by
  unfold State.takeRun
  split
  · rfl
  · unfold State.placing
    rw [State.part_updPart]
    split
    next h => rw [h]; rfl
    next => rfl

theorem State.placing_updAdapter (a : Nat) (f : Account → Account) :
    (s.updAdapter a f).placing k = s.placing k ∧ (s.updAdapter a f).tiles = s.tiles := by
  unfold State.updAdapter
  dsimp only
  split <;> exact ⟨rfl, rfl⟩

theorem State.takeRun_tiles (p n : Nat) : (s.takeRun p n).1.tiles = s.tiles := by
  unfold State.takeRun
  split <;> rfl

theorem State.placing_placeAdapter (p a : Nat) (rank : BitVec 7) (lines : BitVec 24) :
    (s.placeAdapter p a rank lines).placing k = s.placing k ∧ (s.placeAdapter p a rank lines).tiles = s.tiles := by
  have htaken := s.placing_takeRun k p (adapterChunks lines.toNat)
  have htiles := s.takeRun_tiles p (adapterChunks lines.toNat)
  unfold State.placeAdapter
  split
  · exact ⟨rfl, rfl⟩
  · split
    · exact ⟨rfl, rfl⟩
    next t q hrun =>
      rw [hrun] at htaken htiles
      obtain ⟨hplacing, hsame⟩ := (t.zeroLines (128 * q) (128 * adapterChunks lines.toNat)).placing_updAdapter k a
        (fun x => { x with abase := some q, rank := rank, asize := lines })
      exact ⟨hplacing.trans htaken, hsame.trans htiles⟩

theorem State.placing_writeAdapters (p : Nat) (l : List AdapterBase) : (s.writeAdapters p l).placing k = s.placing k := by
  unfold State.writeAdapters
  refine foldl_keeps (State.placing k) _ (fun t x => ?_) l s
  split <;> rfl

/-- The accounts that learn in a step that starts now. -/
def State.learnersNow (s : State) (p : Nat) (learns : List SlotNo) : List Nat := if (s.part p).learnNow then s.learnersOf p learns else []

/-- The partition whose step starts (R168, R169, R265). -/
def State.startedPart (s : State) (p : Nat) (step : BitVec 48) (attempt : BitVec 8) (learns : List SlotNo) : Part :=
  let q := s.part p
  let r : StepRun :=
    { step := step, attempt := attempt, start := s.fu.frame, cover := q.cover, learn := q.learnNow, recipe := q.recipeNow,
      overflow := 0, clearFail := false, passed := [], rounds := none, summary := {}, early := [], retained := s.retainedOf p,
      halves := s.halvesOf p, learners := s.learnersNow p learns, since := q.sinceLearn }
  { q with
    step := step, attempt := attempt, nextStart := none
    due := (step + 1, ((q.tries.find? (fun x => decide (x.1 = step + 1))).map (fun x => x.2)).getD 1)
    tries := q.tries.filter (fun x => decide (step < x.1))
    runs := q.runs.filter (fun x => !x.spent s.fu.frame q.summaryOff s.dict.n) ++ [r]
    sinceLearn := if q.learnNow then 0 else q.sinceLearn + 1 }

/-- The machine whose partition has its step, and its learning accounts the places of their adapters. -/
def State.stepPlaced (s : State) (p : Nat) (step : BitVec 48) (attempt : BitVec 8) (learns : List SlotNo) : State :=
  (s.learnersNow p learns).foldl (fun t a => t.placeAdapter p a (s.part p).rank (s.part p).adLines)
    (s.setPart p (s.startedPart p step attempt learns))

/-- The streams of a partition at the start of its step (R167, R168). -/
def Tile.startStreams (t : Tile) (p frame : Nat) (cover : Bool) : Tile :=
  { t with streams := SMap.mapVals t.streams {} (fun _ st => if st.tag.toNat = p then st.start frame cover else st) }

theorem State.startStreams_eq (p : Nat) (step : BitVec 48) (attempt : BitVec 8) (fw : Boundary) :
    s.startStreams p step attempt fw =
      let s1 := (s.stepPlaced p step attempt fw.learns).writeAdapters p fw.adapters
      { s1 with
        tiles := SMap.mapVals s1.tiles {} (fun _ t => t.startStreams p s.fu.frame (s.part p).cover)
        mem := { s1.mem with ctx := SMap.mapVals s1.mem.ctx {} (fun _ c => if c.tag.toNat = p then { c with pendDig := 0 } else c) }
        health := { s1.health with firstUse := if s1.health.firstUse < 4096 then s1.health.firstUse + 1 else s1.health.firstUse } } := rfl

theorem State.stepPlaced_tiles (p : Nat) (step : BitVec 48) (attempt : BitVec 8) (learns : List SlotNo) :
    (s.stepPlaced p step attempt learns).tiles = s.tiles := by
  unfold State.stepPlaced
  exact foldl_keeps State.tiles _ (fun t a => (t.placing_placeAdapter 0 p a _ _).2) _ _

theorem State.placing_stepPlaced (p : Nat) (step : BitVec 48) (attempt : BitVec 8) (learns : List SlotNo) :
    (s.stepPlaced p step attempt learns).placing p =
      (s.spad, s.mesh, s.fu, ({ s.startedPart p step attempt learns with chunks := [] } : Part)) := by
  unfold State.stepPlaced
  refine (foldl_keeps (State.placing p) _ (fun t a => (t.placing_placeAdapter p p a _ _).1) _ _).trans ?_
  rw [State.placing, State.part_setPart, if_pos rfl]
  rfl

theorem State.placing_startStreams (p : Nat) (step : BitVec 48) (attempt : BitVec 8) (fw : Boundary) :
    (s.startStreams p step attempt fw).placing p =
      (s.spad, s.mesh, s.fu, ({ s.startedPart p step attempt fw.learns with chunks := [] } : Part)) := by
  refine Eq.trans ?_ ((State.placing_writeAdapters _ p p fw.adapters).trans (s.placing_stepPlaced p step attempt fw.learns))
  rw [State.startStreams_eq]
  rfl

theorem State.cover_startStreams (p : Nat) (step : BitVec 48) (attempt : BitVec 8) (fw : Boundary) :
    ((s.startStreams p step attempt fw).part p).cover = (s.part p).cover :=
  congrArg (fun x : _ × _ × _ × Part => x.2.2.2.cover) (s.placing_startStreams p step attempt fw)

/-- A partition whose step starts with number and attempt, as far as its course goes. -/
def Part.started (q : Part) (step : BitVec 48) (attempt : BitVec 8) : Part :=
  { q with
    step := step, attempt := attempt, nextStart := none
    due := (step + 1, ((q.tries.find? (fun x => decide (x.1 = step + 1))).map (fun x => x.2)).getD 1)
    tries := q.tries.filter (fun x => decide (step < x.1)) }

theorem State.course_startStreams (p : Nat) (step : BitVec 48) (attempt : BitVec 8) (fw : Boundary) :
    (s.startStreams p step attempt fw).course p = (s.spad, s.mesh, s.fu, ((s.part p).started step attempt).course) :=
  congrArg (fun x : _ × _ × _ × Part => (x.1, x.2.1, x.2.2.1, x.2.2.2.course)) (s.placing_startStreams p step attempt fw)

/-- The machine whose step starts after firmware's work, as far as its course goes. -/
theorem State.course_stepStarts (p : Nat) (fw : Boundary) (step : BitVec 48) (attempt : BitVec 8) :
    ((s.boundaryWork p fw).startStreams p step attempt fw).course p = (s.spad, s.mesh, s.fu, ((s.part p).started step attempt).course) := by
  have hwork := s.course_boundaryWork p p fw
  rw [State.course_startStreams]
  simp only [State.course, Part.course, Prod.mk.injEq] at hwork
  obtain ⟨hspad, hmesh, hfu, hstep, hattempt, hdue, htries, hstart, habort, hreplayed, haborted⟩ := hwork
  simp only [Part.course, Part.started, hspad, hmesh, hfu, htries, habort, hreplayed, haborted]

theorem State.startStreams_tiles (p : Nat) (step : BitVec 48) (attempt : BitVec 8) (fw : Boundary) (hadapters : fw.adapters = []) :
    (s.startStreams p step attempt fw).tiles =
      SMap.mapVals s.tiles {} (fun _ t => t.startStreams p s.fu.frame (s.part p).cover) := by
  have hplaced : ((s.stepPlaced p step attempt fw.learns).writeAdapters p fw.adapters).tiles = s.tiles := by
    rw [hadapters]
    exact s.stepPlaced_tiles p step attempt fw.learns
  rw [State.startStreams_eq, ← hplaced]

/-- A stream once its partition's step has started, where no base is pointed at an adapter. -/
theorem State.stream_startStreams (p : Nat) (step : BitVec 48) (attempt : BitVec 8) (fw : Boundary) (n j : Nat) (hadapters : fw.adapters = [])
    (htiles : SMap.rising s.tiles = true) (hstreams : SMap.rising (s.tile n).streams = true)
    (htag : (SMap.get (s.tile n).streams {} j).tag.toNat = p) (hp : p < 128) :
    SMap.get ((s.startStreams p step attempt fw).tile n).streams {} j =
      (SMap.get (s.tile n).streams {} j).start s.fu.frame (s.part p).cover := by
  have hnone (st : Stream) (h : st.tag = 0xFE) : st.tag.toNat ≠ p := by
    rw [h, show (0xFE : Tag).toNat = 254 from rfl]
    omega
  have htile : (s.startStreams p step attempt fw).tile n = (s.tile n).startStreams p s.fu.frame (s.part p).cover := by
    rw [State.tile_get, s.startStreams_tiles p step attempt fw hadapters, SMap.get_mapVals _ _ _ _ htiles (by rfl)]
    rfl
  rw [htile, Tile.startStreams, SMap.get_mapVals _ _ _ _ hstreams (if_neg (hnone _ rfl)), if_pos htag]

end Sys2Proof.Machine
end

section
/-! Certificate of O28: the start of a step, with what firmware writes in the base tables, and a failed residue check (R166-R169, R171, R376),
a lemma for each outcome. -/

namespace Sys2Proof.Machine

variable {s : State} {part : PartNo} {fw : Boundary}

theorem exec_stepStart_due (ha : s.alive = true) (hsteps : (s.part part.toNat).steps = true)
    (hdue : (s.part part.toNat).nextStart = some s.fu.frame) (habort : (s.part part.toNat).abort = none) :
    exec (.stepStart part fw) s = .next (((s.boundaryWork part.toNat fw).startStreams part.toNat (s.part part.toNat).due.1
      (s.part part.toNat).due.2 fw).countersOk part.toNat fw.upset) := by
  change execStepStart part fw s = _
  simp only [execStepStart, ha, hsteps, hdue, habort]
  rfl

theorem stepStart_idle (h : (s.part part.toNat).nextStart ≠ some s.fu.frame) : exec (.stepStart part fw) s = .next s := by
  change execStepStart part fw s = _
  simp only [execStepStart, h, false_and, decide_false, Bool.and_false, Bool.false_eq_true, if_false]

theorem stepStart_startsStreams (ha : s.alive = true) (hsteps : (s.part part.toNat).steps = true)
    (hdue : (s.part part.toNat).nextStart = some s.fu.frame) (habort : (s.part part.toNat).abort = none) (hupset : fw.upset = false) :
    let q := s.part part.toNat
    ∃ t, exec (.stepStart part fw) s = .next t ∧ (t.part part.toNat).step = q.due.1 ∧ (t.part part.toNat).attempt = q.due.2 ∧
      (t.part part.toNat).due =
        (q.due.1 + 1, ((q.tries.find? (fun x => decide (x.1 = q.due.1 + 1))).map (fun x => x.2)).getD 1) ∧
      (t.part part.toNat).nextStart = none ∧ t.spad = s.spad ∧
      (SMap.rising s.tiles = true → fw.bases = [] → fw.adapters = [] → ∀ n k, SMap.rising (s.tile n).streams = true →
        (SMap.get (s.tile n).streams {} k).tag.toNat = part.toNat →
        SMap.get (t.tile n).streams {} k = (SMap.get (s.tile n).streams {} k).start s.fu.frame (t.part part.toNat).cover) := by
  intro q
  have hcourse := s.course_stepStarts part.toNat fw q.due.1 q.due.2
  simp only [State.course, Part.course, Part.started, Prod.mk.injEq] at hcourse
  obtain ⟨hspad, -, hfu, hstep, hattempt, hnext, -, hstart, -⟩ := hcourse
  refine ⟨_, exec_stepStart_due ha hsteps hdue habort, ?_⟩
  rw [hupset, State.countersOk, if_neg (by decide)]
  refine ⟨hstep, hattempt, hnext, hstart, hspad, fun htiles hbases hadapters n k hstreams htag => ?_⟩
  obtain ⟨hsame, hrising⟩ := s.boundaryWork_keepsStreams part.toNat fw
  rw [hbases] at hsame hrising
  have hstreams' : ((s.boundaryWork part.toNat fw).tile n).streams = (s.tile n).streams := hsame n
  have hframe : (s.boundaryWork part.toNat fw).fu.frame = s.fu.frame :=
    congrArg (fun x : _ × _ × FrameU × _ => x.2.2.1.frame) (s.course_boundaryWork part.toNat part.toNat fw)
  rw [State.stream_startStreams _ _ _ _ fw n k hadapters (hrising htiles) (by rw [hstreams']; exact hstreams) (by rw [hstreams']; exact htag)
    part.isLt, hstreams', State.cover_startStreams, hframe]

/-- An entry of a base table that firmware writes in a stream of the partition itself (R167). -/
theorem State.writeBases_table (s : State) (p : Nat) (tile : TileNo) (stream : BitVec 3) (index : BitVec 6) (v : BitVec 33)
    (htag : (SMap.get (s.tile tile.toNat).streams {} stream.toNat).tag.toNat = p) :
    ((s.writeBases p [(tile, stream, index, v)]).tile tile.toNat).streams =
      SMap.upd (s.tile tile.toNat).streams {} stream.toNat (fun st => { st with table := SMap.set st.table 0 index.toNat v }) := by
  change ((s.updTile tile.toNat _).tile tile.toNat).streams = _
  rw [State.tile_updTile_same, if_pos htag]

theorem stepStart_writesBase {tile : TileNo} {stream : BitVec 3} {index : BitVec 6} {v : BitVec 33} (ha : s.alive = true)
    (hsteps : (s.part part.toNat).steps = true) (hdue : (s.part part.toNat).nextStart = some s.fu.frame)
    (habort : (s.part part.toNat).abort = none) (htiles : SMap.rising s.tiles = true)
    (hstreams : SMap.rising (s.tile tile.toNat).streams = true)
    (htag : (SMap.get (s.tile tile.toNat).streams {} stream.toNat).tag.toNat = part.toNat) :
    ∃ t, exec (.stepStart part { bases := [(tile, stream, index, v)] }) s = .next t ∧
      SMap.get (SMap.get (t.tile tile.toNat).streams {} stream.toNat).table 0 index.toNat = v := by
  obtain ⟨hsame, hrising⟩ := s.boundaryWork_keepsStreams part.toNat { bases := [(tile, stream, index, v)] }
  have hstreams' := (hsame tile.toNat).trans (s.writeBases_table part.toNat tile stream index v htag)
  have hwritten : SMap.get ((s.boundaryWork part.toNat { bases := [(tile, stream, index, v)] }).tile tile.toNat).streams {} stream.toNat =
      { SMap.get (s.tile tile.toNat).streams {} stream.toNat with
        table := SMap.set (SMap.get (s.tile tile.toNat).streams {} stream.toNat).table 0 index.toNat v } := by
    rw [hstreams', SMap.get_upd, if_pos rfl]
  have hkept : SMap.rising (s.writeBases part.toNat [(tile, stream, index, v)]).tiles = true := SMap.rising_set _ _ _ _ htiles
  refine ⟨_, exec_stepStart_due ha hsteps hdue habort, ?_⟩
  rw [State.countersOk, if_neg Bool.false_ne_true, State.stream_startStreams _ _ _ _ _ _ _ rfl (hrising hkept)
    (by rw [hstreams']; exact SMap.rising_set _ _ _ _ hstreams) (by rw [hwritten]; exact htag) part.isLt, hwritten]
  exact SMap.get_set_same _ _ _ _

/-- A failed residue check of the step counter aborts the step that starts (R376). -/
theorem stepStart_upset (ha : s.alive = true) (hsteps : (s.part part.toNat).steps = true)
    (hdue : (s.part part.toNat).nextStart = some s.fu.frame) (habort : (s.part part.toNat).abort = none) (hupset : fw.upset = true) :
    ∃ t, exec (.stepStart part fw) s = .next t ∧ AbortsIn part.toNat s t := by
  have hcourse := s.course_stepStarts part.toNat fw (s.part part.toNat).due.1 (s.part part.toNat).due.2
  simp only [State.course, Part.course, Part.started, Prod.mk.injEq] at hcourse
  obtain ⟨-, -, hfu, -, -, -, -, -, -, hreplayed, -⟩ := hcourse
  have htag : (BitVec.ofNat 8 part.toNat).toNat = part.toNat := Nat.mod_eq_of_lt (part.isLt.trans (by decide))
  refine ⟨_, exec_stepStart_due ha hsteps hdue habort, fun hbehind => ?_⟩
  rw [hupset, State.countersOk, if_pos rfl]
  have haborts := State.fault_aborts ((s.boundaryWork part.toNat fw).startStreams part.toNat (s.part part.toNat).due.1
    (s.part part.toNat).due.2 fw) { code := 0x12, tag := BitVec.ofNat 8 part.toNat, unit := 0x70 }
    (decide_eq_true (by rw [htag]; exact part.isLt))
  rw [htag] at haborts
  exact haborts (by rw [hreplayed, hfu]; exact hbehind)

end Sys2Proof.Machine
end

section
open Sys2Proof Sys2Proof.Machine

/-- Settles O28: `stepStart_startsStreams`, `stepStart_writesBase` and `stepStart_upset` where the step is due, `stepStart_idle` elsewhere. -/
theorem stepsStart : Obligations.StepsStart := by
  unfold Obligations.StepsStart
  exact ⟨fun part fw s => stepStart_startsStreams, fun part tile stream index v s => stepStart_writesBase,
    fun part fw s => stepStart_upset, fun part fw s => stepStart_idle⟩

end

section
/-! Certificate of O29: the replay of an aborted step, the step due where none was aborted, the stop at the sixteenth attempt, and the frames
before the replay (R199-R201), a lemma for each outcome. -/

namespace Sys2Proof.Machine

variable {s : State} {part : PartNo} {fw : Boundary} {a : AbortS}

/-! ## What the replay leaves of the partition -/

/-- A partition whose aborted steps have been undone (R199). -/
def Part.undone (q : Part) (a : AbortS) (first : Option StepRun) (lost : List StepRun) : Part :=
  { q with
    abort := none, replayed := some a.replay, aborted := min (q.aborted + lost.length) 4294967295
    sinceLearn := match first with | some r => r.since | none => q.sinceLearn
    anyLearn := q.anyLearn || lost.any (fun r => r.learn)
    abortRun := match first with | some r => r.attempt.toNat | none => 0
    tries := lost.tail.map (fun r => (r.step, r.attempt + 1)) ++
      q.tries.filter (fun x => !lost.any (fun r => decide (r.step = x.1))) }

/-- The machine at the replay frame, its aborted steps undone. -/
def State.replayed (s : State) (p : Nat) (a : AbortS) : State :=
  (s.undo p ((s.part p).firstAborted a.frame)).updPart p (fun q =>
    q.undone a ((s.part p).firstAborted a.frame) ((s.part p).abortedRuns a.frame))

/-- What undoing changes lies outside the partitions and the frame unit; the mesh loses the partition's flits (R200). -/
theorem State.undo_keeps (s : State) (p : Nat) (r : Option StepRun) :
    (s.undo p r).parts = s.parts ∧ (s.undo p r).fu = s.fu ∧ (s.undo p r).mesh = s.mesh.replay p := by
  cases r <;> exact ⟨rfl, rfl, rfl⟩

theorem State.part_replayed (s : State) (p : Nat) (a : AbortS) :
    (s.replayed p a).part p = (s.part p).undone a ((s.part p).firstAborted a.frame) ((s.part p).abortedRuns a.frame) := by
  rw [State.replayed, State.part_updPart, if_pos rfl, State.part_congr (s.undo_keeps p _).1]

theorem State.mesh_replayed (s : State) (p : Nat) (a : AbortS) : (s.replayed p a).mesh = s.mesh.replay p := (s.undo_keeps p _).2.2

theorem Mesh.flits_replay (m : Mesh) (p : Nat) : ∀ f ∈ (m.replay p).flits, f.tag.toNat ≠ p := fun f hf => by
  simpa using (List.mem_filter.1 hf).2

/-- A variant that covers no device leaves the course of the steps alone. -/
theorem State.course_takeVariant (s : State) (k p : Nat) (hvariant : ∀ d, a.variant ≠ .covering d) :
    (s.takeVariant p a).course k = s.course k := by
  have hstreams : (s.updPart p (fun q => { q with streams := a.streams, nextStreams := none })).course k = s.course k :=
    State.course_of_footing (s.footing_updPart k p _ fun _ => by rfl)
  unfold State.takeVariant
  dsimp only
  split
  · exact hstreams
  · exact (State.course_of_footing (State.footing_updPart _ k p _ fun _ => by rfl)).trans hstreams
  next d h => exact absurd h (hvariant d)

/-! ## The replay -/

/-- Whether a replay may take place now (R200). -/
structure ReplayDue (s : State) (p : Nat) (a : AbortS) : Prop where
  alive : s.alive = true
  abort : (s.part p).abort = some a
  frame : a.replay ≤ s.fu.frame
  steps : (s.part p).steps = true
  health : s.health.st = 0

theorem exec_replayStart (h : ReplayDue s part.toNat a) :
    exec (.replayStart part fw) s = .next (
      let s2 := s.replayed part.toNat a
      match (s.part part.toNat).firstAborted a.frame with
      | some r =>
        match ((s.part part.toNat).abortedRuns a.frame).find? (fun x => decide (16 ≤ x.attempt.toNat)) with
        | some x => (s2.takeVariant part.toNat a).stopPart part.toNat r x
        | none =>
          ((((s2.updPart part.toNat (fun q => { q with runs := q.runs.filter (fun x => decide (x.step < r.step)) })).takeVariant part.toNat
            a).boundaryWork part.toNat fw).startStreams part.toNat r.step (r.attempt + 1) fw).countersOk part.toNat fw.upset
      | none =>
        (((s2.takeVariant part.toNat a).boundaryWork part.toNat fw).startStreams part.toNat (s.part part.toNat).due.1
          (s.part part.toNat).due.2 fw).countersOk part.toNat fw.upset) := by
  obtain ⟨halive, habort, hframe, hsteps, hhealth⟩ := h
  have hruns : ¬ (s.alive = false ∨ s.fu.frame < a.replay ∨ (s.part part.toNat).steps = false ∨ s.health.st ≠ 0) := by
    simp [halive, hsteps, hhealth, Nat.not_lt.2 hframe]
  change execReplayStart part fw s = _
  unfold execReplayStart
  dsimp only
  rw [habort]
  dsimp only
  rw [if_neg hruns]
  cases hfirst : (s.part part.toNat).firstAborted a.frame with
  | none =>
    dsimp only
    rw [State.replayed, hfirst]
    rfl
  | some r =>
    dsimp only
    rw [State.replayed, hfirst]
    cases ((s.part part.toNat).abortedRuns a.frame).find? (fun x => decide (16 ≤ x.attempt.toNat)) <;> rfl

/-- A step that starts once its partition's aborted steps have been undone. -/
theorem State.replay_starts {u : State} (p : Nat) (step : BitVec 48) (attempt : BitVec 8) (hcourse : u.course p = (s.replayed p a).course p) :
    let t := (u.boundaryWork p fw).startStreams p step attempt fw
    (t.part p).abort = none ∧ (t.part p).step = step ∧ (t.part p).attempt = attempt ∧
      (t.part p).aborted = min ((s.part p).aborted + ((s.part p).abortedRuns a.frame).length) 4294967295 ∧
      (t.part p).replayed = some a.replay ∧ (∀ f ∈ t.mesh.flits, f.tag.toNat ≠ p) := by
  intro t
  have hstarts := u.course_stepStarts p fw step attempt
  rw [State.course, State.course, State.part_replayed, State.mesh_replayed] at hcourse
  simp only [State.course, Part.course, Part.started, Part.undone, Prod.mk.injEq] at hstarts hcourse
  obtain ⟨-, hmesh, -, hstep, hattempt, -, -, -, habort, hreplayed, haborted⟩ := hstarts
  obtain ⟨-, hmesh', -, -, -, -, -, -, habort', hreplayed', haborted'⟩ := hcourse
  refine ⟨habort.trans habort', hstep, hattempt, haborted.trans haborted', hreplayed.trans hreplayed', fun f hf => ?_⟩
  rw [hmesh, hmesh'] at hf
  exact Mesh.flits_replay _ _ f hf

theorem replayStart_restarts {r : StepRun} (h : ReplayDue s part.toNat a) (hvariant : ∀ d, a.variant ≠ .covering d)
    (hfirst : (s.part part.toNat).firstAborted a.frame = some r)
    (htries : ∀ x ∈ (s.part part.toNat).abortedRuns a.frame, x.attempt.toNat < 16) (hupset : fw.upset = false) :
    let q := s.part part.toNat
    ∃ t, exec (.replayStart part fw) s = .next t ∧ (t.part part.toNat).abort = none ∧ (t.part part.toNat).step = r.step ∧
      (t.part part.toNat).attempt = r.attempt + 1 ∧
      (t.part part.toNat).aborted = min (q.aborted + (q.abortedRuns a.frame).length) 4294967295 ∧
      (t.part part.toNat).replayed = some a.replay ∧
      (∀ f ∈ t.mesh.flits, f.tag.toNat ≠ part.toNat) := by
  intro q
  have hbelow : (q.abortedRuns a.frame).find? (fun x => decide (16 ≤ x.attempt.toNat)) = none := by
    rw [List.find?_eq_none]
    exact fun x hx => by simpa using htries x hx
  have hruns := State.course_of_footing ((s.replayed part.toNat a).footing_updPart part.toNat part.toNat
    (fun q => { q with runs := q.runs.filter (fun x => decide (x.step < r.step)) }) fun _ => rfl)
  refine ⟨_, exec_replayStart h, ?_⟩
  rw [hfirst, hbelow, hupset]
  exact State.replay_starts part.toNat r.step (r.attempt + 1) ((State.course_takeVariant _ _ _ hvariant).trans hruns)

theorem replayStart_goesOn (h : ReplayDue s part.toNat a) (hvariant : ∀ d, a.variant ≠ .covering d)
    (hfirst : (s.part part.toNat).firstAborted a.frame = none) (hlost : (s.part part.toNat).abortedRuns a.frame = [])
    (hupset : fw.upset = false) :
    let q := s.part part.toNat
    ∃ t, exec (.replayStart part fw) s = .next t ∧ (t.part part.toNat).abort = none ∧ (t.part part.toNat).step = q.due.1 ∧
      (t.part part.toNat).attempt = q.due.2 ∧ (t.part part.toNat).aborted = min q.aborted 4294967295 := by
  intro q
  obtain ⟨habort, hstep, hattempt, haborted, -⟩ := State.replay_starts (fw := fw) part.toNat q.due.1 q.due.2
    ((s.replayed part.toNat a).course_takeVariant part.toNat part.toNat hvariant)
  rw [hlost, List.length_nil, Nat.add_zero] at haborted
  refine ⟨_, exec_replayStart h, ?_⟩
  rw [hfirst, hupset]
  exact ⟨habort, hstep, hattempt, haborted⟩

/-- What a fault without an abort, and an event, leave of the partitions. -/
theorem State.stopPart_parts (s : State) (p : Nat) (r x : StepRun) :
    (s.stopPart p r x).part p =
      { s.part p with
        before := (s.part p).st, st := .stopped, stopped := true, abort := none, nextStart := none
        runs := (s.part p).runs.filter (fun y => decide (y.step < r.step)) } := by
  unfold State.stopPart State.partEvent
  dsimp only
  rw [State.event_frame]
  refine (State.part_congr (congrArg (·.2.2.1) (State.faultDrop_besideReport _ _)) p).trans ?_
  rw [State.part_setPart, if_pos rfl]

theorem replayStart_stops {r : StepRun} (h : ReplayDue s part.toNat a) (hfirst : (s.part part.toNat).firstAborted a.frame = some r)
    (htries : ∃ x ∈ (s.part part.toNat).abortedRuns a.frame, 16 ≤ x.attempt.toNat) :
    ∃ t, exec (.replayStart part fw) s = .next t ∧ (t.part part.toNat).st = .stopped ∧ (t.part part.toNat).stopped = true ∧
      (t.part part.toNat).nextStart = none := by
  obtain ⟨x, hx⟩ : ∃ x, ((s.part part.toNat).abortedRuns a.frame).find? (fun x => decide (16 ≤ x.attempt.toNat)) = some x := by
    rw [← Option.isSome_iff_exists, List.find?_isSome]
    obtain ⟨x, hx, hlast⟩ := htries
    exact ⟨x, hx, decide_eq_true hlast⟩
  refine ⟨_, exec_replayStart h, ?_⟩
  rw [hfirst, hx]
  dsimp only
  rw [State.stopPart_parts]
  exact ⟨rfl, rfl, rfl⟩

theorem replayStart_waits (habort : (s.part part.toNat).abort = some a) (hframe : s.fu.frame < a.frame + 32) :
    exec (.replayStart part fw) s = .next s := by
  change execReplayStart part fw s = _
  unfold execReplayStart
  dsimp only
  rw [habort]
  dsimp only
  rw [if_pos (.inr (.inl hframe))]

end Sys2Proof.Machine
end

section
open Sys2Proof Sys2Proof.Machine

/-- Settles O29: `replayStart_restarts`, `replayStart_goesOn` and `replayStart_stops` from the replay frame on, `replayStart_waits` before. -/
theorem abortedStepsReplay : Obligations.AbortedStepsReplay := by
  unfold Obligations.AbortedStepsReplay
  refine ⟨?_, ?_, ?_, fun part fw a s => replayStart_waits⟩
  · exact fun part fw a r s halive habort hframe hsteps hhealth => replayStart_restarts ⟨halive, habort, hframe, hsteps, hhealth⟩
  · exact fun part fw a s halive habort hframe hsteps hhealth => replayStart_goesOn ⟨halive, habort, hframe, hsteps, hhealth⟩
  · exact fun part fw a r s halive habort hframe hsteps hhealth _ => replayStart_stops ⟨halive, habort, hframe, hsteps, hhealth⟩

end

section
/-! SUPPORT. An intact frame in its place on an Active link takes effect on a machine that differs from the one before in its links and the
schedule cycle reached (R316-R320). -/

namespace Sys2Proof.Machine

/-! ## Frames kept beyond a gap stay as messages leave -/

theorem Endpoint.spaced_rxAhead (e : Endpoint) (at_ : Nat × Bool) (m : LinkMsg) : (e.spaced at_ m).rxAhead = e.rxAhead := by
  unfold Endpoint.spaced
  split
  · exact List.foldlRecOn (motive := fun x : Endpoint => x.rxAhead = e.rxAhead) _ _ rfl fun _ h _ _ => h
  · rfl

theorem Endpoint.post_rxAhead (at_ : Nat × Bool) (e : Endpoint) (m : LinkMsg) : (e.post at_ m).rxAhead = e.rxAhead := by
  unfold Endpoint.post
  split
  · rfl
  · exact List.foldlRecOn (motive := fun x : Endpoint => x.rxAhead = e.rxAhead) _ _ rfl
      fun _ h _ _ => (Endpoint.spaced_rxAhead _ at_ m).trans h

theorem State.flood_rxAhead (s : State) (except : Option Nat) (m : LinkMsg) (k : Nat) :
    ((s.flood except m).link k).rxAhead = (s.link k).rxAhead := by
  refine foldl_keeps (fun t : State => (t.link k).rxAhead) _ (fun t l => ?_) _ s
  unfold State.sendOn State.updLink
  (repeat' split) <;> try rfl
  rw [State.link_setLink]
  split
  · subst_vars
    exact Endpoint.post_rxAhead ..
  · rfl

/-- Credits return to an endpoint where nothing waits for one. -/
theorem Endpoint.credit_idle (at_ : Nat × Bool) (e : Endpoint) (h : UtlHdr) (hw : e.waiting = []) :
    e.credit at_ h = { e with
      waiting := [], cr0 := min 4 (e.cr0 + h.cr0.toNat), cr1 := min 64 (e.cr1 + h.cr1.toNat), cr3 := min 256 (e.cr3 + h.cr3.toNat) } := by
  simp only [Endpoint.credit, Endpoint.drain, hw]
  rfl

theorem State.link_setLink_same (s : State) (l : Nat) (v : Endpoint) : (s.setLink l v).link l = v := by
  rw [State.link_setLink, if_pos rfl]

theorem State.link_updLink_same (s : State) (l : Nat) (g : Endpoint → Endpoint) : (s.updLink l g).link l = g (s.link l) :=
  s.link_setLink_same l _

/-- What of an endpoint says which frame it takes next. -/
def Endpoint.place (e : Endpoint) : LinkSt × Nat × List Nat := (e.st, e.rxNext, e.rxAhead)

/-! ## A clear frame -/

/-- An endpoint that has read the acknowledgement of a header (R316). -/
def Endpoint.acked (e : Endpoint) (q : BitVec 16) : Endpoint :=
  { e with peerAck := match e.ackOf q with | some a => some a | none => e.peerAck }

/-- A header without a NAK, where no message waits for a credit and no mirror frame for its acknowledgement. -/
theorem State.takeHeader_clear (t : State) (l : Nat) (h : UtlHdr) (hwaiting : (t.link l).waiting = []) (hmirror : (t.link l).mirrorSeq = none)
    (hnak : h.nak = false) :
    SameButLinks t (t.takeHeader l h) ∧ ((t.takeHeader l h).link l).place = (t.link l).place := by
  have hack : t.takeHeader l h = (t.updLink l (fun e => e.acked h.ackseq)).updLink l (fun e => Endpoint.credit t.bandAt e h) := by
    have hnone (u : State) (hu : (u.link l).mirrorSeq = none) : u.mirrorAck l = u := by
      unfold State.mirrorAck
      dsimp only
      rw [hu]
    unfold State.takeHeader
    dsimp only
    rw [hnone _ (by rw [State.link_updLink_same]; exact hmirror), if_neg (by simp [hnak])]
    rfl
  rw [hack]
  refine ⟨rfl, ?_⟩
  rw [State.link_updLink_same, State.link_updLink_same, Endpoint.credit_idle _ _ _ (by exact hwaiting)]
  rfl

/-- A frame in its place, behind which nothing waits, takes effect on a machine whose link has gone on past it. -/
theorem State.inSequence_next (t : State) (l : Nat) (f : UtlFrame) (k : FrameKind) (i : Instr)
    (hseq : f.hdr.seq = BitVec.ofNat 16 (t.link l).rxNext) (hahead : (t.link l).rxAhead = []) :
    ∃ v n, SameButLinks t v ∧ (v.link l).rxAhead = [] ∧
      t.inSequence l f k i = ((v.frameEffect l i).updLink l (fun e => e.giveBack k.tc n)).catchUp l 1 := by
  let n := frameCount f
  refine ⟨t.setLink l { t.link l with
    rxNext := (t.link l).rxNext + n, asked := (t.link l).asked.filter (fun k => decide ((t.link l).rxNext + n ≤ k)) }, n, rfl, ?_, ?_⟩
  · rw [State.link_setLink_same]
    exact hahead
  · unfold State.inSequence
    dsimp only
    rw [hseq, BitVec.sub_self, if_pos (by rfl), hahead]
    rfl

variable {s : State} {f : UtlFrame} {i : Instr}

/-- What makes a frame clear, condition by condition. -/
structure FrameClear (s : State) (f : UtlFrame) (i : Instr) (k : FrameKind) : Prop where
  alive : s.alive = true
  awake : s.health.st ≠ 3
  upset : f.upset = false
  active : (s.link f.link.val).st = .active
  nak : f.hdr.nak = false
  seq : f.hdr.seq = BitVec.ofNat 16 (s.link f.link.val).rxNext
  waiting : (s.link f.link.val).waiting = []
  ahead : (s.link f.link.val).rxAhead = []
  mirror : (s.link f.link.val).mirrorSeq = none
  kind : frameKind i = some k
  intact : frameIntact f k = true
  sequenced : k.op ≠ 0

theorem State.frameClear_conditions (h : s.frameClear f i = true) : ∃ k, FrameClear s f i k := by
  simp only [State.frameClear, Bool.and_eq_true, decide_eq_true_eq, List.isEmpty_iff, Option.isNone_iff_eq_none] at h
  obtain ⟨⟨⟨⟨⟨halive, hawake, hupset, hactive, hnak, hseq⟩, hwaiting⟩, hahead⟩, hmirror⟩, hkind⟩ := h
  cases hk : frameKind i with
  | none =>
    rw [hk] at hkind
    exact absurd hkind (by simp)
  | some k =>
    rw [hk] at hkind
    simp only [Bool.and_eq_true, decide_eq_true_eq] at hkind
    exact ⟨k, halive, hawake, hupset, hactive, hnak, hseq, hwaiting, hahead, hmirror, hk, hkind.1, hkind.2⟩

theorem SameButLinks.trans {t u : State} (hst : SameButLinks s t) (htu : SameButLinks t u) : SameButLinks s u := by
  rw [SameButLinks] at *
  rw [htu, hst]

/-- The machine whose Active link has an arriving frame (R316, R320). -/
def State.heard (s : State) (f : UtlFrame) : State :=
  (s.reach (s.cycleAt f.rc)).setLink f.link.val { s.link f.link.val with lastRx := s.fu.frame }

theorem State.receive_active {k : FrameKind} (hc : FrameClear s f i k) :
    s.receive f i =
      if k.op = 0 ∨ (((s.heard f).takeHeader f.link.val f.hdr).link f.link.val).st ≠ .active then (s.heard f).takeHeader f.link.val f.hdr
      else ((s.heard f).takeHeader f.link.val f.hdr).inSequence f.link.val f k i := by
  unfold State.receive
  dsimp only
  rw [hc.kind]
  dsimp only
  rw [if_neg (by simp [hc.alive])]
  split
  next h => exact absurd (h.symm.trans hc.active) (by decide)
  next => rw [if_neg (by simp [hc.upset]), if_neg (by simp [hc.intact])]; rfl
  next h => exact absurd hc.active h

/-- A clear frame takes effect on a machine that differs from the one before in links and the cycle reached. -/
theorem State.receive_clear (h : s.frameClear f i = true) :
    ∃ v tc n, SameButLinks s v ∧ (v.link f.link.val).rxAhead = [] ∧
      s.receive f i = ((v.frameEffect f.link.val i).updLink f.link.val (fun e => e.giveBack tc n)).catchUp f.link.val 1 := by
  obtain ⟨k, hc⟩ := State.frameClear_conditions h
  have hlink : (s.heard f).link f.link.val = { s.link f.link.val with lastRx := s.fu.frame } := State.link_setLink_same _ _ _
  have hplace : ((s.heard f).link f.link.val).place = (s.link f.link.val).place := by
    rw [hlink]
    rfl
  obtain ⟨hheader, hthere⟩ := (s.heard f).takeHeader_clear f.link.val f.hdr (by rw [hlink]; exact hc.waiting)
    (by rw [hlink]; exact hc.mirror) hc.nak
  rw [hplace] at hthere
  simp only [Endpoint.place, Prod.mk.injEq] at hthere
  obtain ⟨hst, hnext, hahead⟩ := hthere
  obtain ⟨v, n, hv, hvahead, heffect⟩ := ((s.heard f).takeHeader f.link.val f.hdr).inSequence_next f.link.val f k i
    (by rw [hnext]; exact hc.seq) (by rw [hahead]; exact hc.ahead)
  have hsame : SameButLinks s (s.heard f) := rfl
  refine ⟨v, k.tc, n, (hsame.trans hheader).trans hv, hvahead, ?_⟩
  rw [State.receive_active hc, if_neg (by simp [hc.sequenced, hst, hc.active]), heffect]

/-- The machine with other links, and another schedule cycle reached. -/
def State.relinked (s : State) (links : SMap Endpoint) (cycle : Nat) : State := { s with links := links, fu := { s.fu with cycle := cycle } }

/-- A clear frame whose effect keeps what waits beyond a gap: its effect on the machine with its links and the cycle reached moved on, and
nothing else but links. -/
theorem State.receive_takesEffect {effect : State → State} (h : s.frameClear f i = true)
    (heffect : ∀ links c, (s.relinked links c).frameEffect f.link.val i = effect (s.relinked links c))
    (hkeeps : ∀ links c, ((effect (s.relinked links c)).link f.link.val).rxAhead = ((s.relinked links c).link f.link.val).rxAhead) :
    ∃ before after c, s.receive f i = { effect (s.relinked before c) with links := after } := by
  obtain ⟨v, tc, n, hsame, hahead, hreceive⟩ := State.receive_clear h
  have hv : v = s.relinked v.links v.fu.cycle := hsame
  have hv' : v.frameEffect f.link.val i = effect v := by rw [hv]; exact heffect _ _
  refine ⟨v.links, ((effect v).updLink f.link.val (fun e => e.giveBack tc n)).links, v.fu.cycle, ?_⟩
  have hnone : (((effect v).updLink f.link.val (fun e => e.giveBack tc n)).link f.link.val).rxAhead = [] := by
    have hkept := hkeeps v.links v.fu.cycle
    rw [← hv] at hkept
    rw [State.link_updLink_same]
    exact hkept.trans hahead
  rw [hreceive, hv', State.catchUp]
  dsimp only
  rw [hnone, if_neg (by simp), ← hv]
  rfl

/-- A device with an Active link in use is not in Dark. -/
theorem State.awake_of_frameClear (h : s.frameClear f i = true) : s.health.st ≠ 3 := by
  obtain ⟨k, hc⟩ := State.frameClear_conditions h
  exact hc.awake

end Sys2Proof.Machine
end

section
/-! Certificate of O37: the control messages of the cluster (R199, R247, R307, R330, R335, R338, R339), a lemma for each. -/

namespace Sys2Proof.Machine

variable {s : State} {f : UtlFrame}

/-! ## Abort notices -/

theorem Part.chargeHold_nextStart (causes : List Tag) (n k : Nat) (q : Part) : (q.chargeHold causes n k).nextStart = q.nextStart := by
  unfold Part.chargeHold
  split <;> rfl

/-- A partition's first abort, its waits withdrawn: the abort stands and no step is due (R199). -/
theorem State.beginAbort_dropWaits_part (s : State) (p frame : Nat) (v : VariantSel) (streams : Line) :
    (((s.beginAbort p frame v streams).dropWaits p).part p).abort = some ⟨frame, v, streams⟩ ∧
      (((s.beginAbort p frame v streams).dropWaits p).part p).nextStart = none := by
  have hset : ((s.beginAbort p frame v streams).part p).abort = some ⟨frame, v, streams⟩ ∧
      ((s.beginAbort p frame v streams).part p).nextStart = none := by
    rw [State.beginAbort, State.part_get]
    dsimp only
    rw [← State.part_get, State.part_setPart, if_pos rfl]
    exact ⟨rfl, rfl⟩
  unfold State.dropWaits
  split
  · exact hset
  · dsimp only
    split
    · rw [State.endHoldWith_eq, State.part_get]
      refine (fun hpart => ⟨(congrArg Part.abort hpart).trans ?_, (congrArg Part.nextStart hpart).trans ?_⟩)
        (SMap.get_mapVals_set_same s.parts {} _ p _ fun h => absurd (congrArg Part.abort h) (by simp))
      · exact (Part.chargeHold_abort ..).trans rfl
      · exact (Part.chargeHold_nextStart ..).trans rfl
    · exact hset

/-- What the statement on abort notices says that they leave alone. -/
def State.besideNotice (s : State) : Cells × SMap Account × List (BitVec 7 × Nat × DevAddr) := (s.spad, s.accts, s.fu.seenAborts)

theorem State.dropWaits_besideNotice (s : State) (p : Nat) : (s.dropWaits p).besideNotice = s.besideNotice := by
  unfold State.dropWaits
  split
  · rfl
  · dsimp only
    split
    · rw [State.endHoldWith_eq]
      rfl
    · rfl

/-- The machine that has noted an abort and is about to act on it. -/
def State.noticed (s : State) (link : Nat) (n : AbortNotice) : State :=
  let s1 := (s.withSeenAborts (s.fu.seenAborts ++ [(n.part, n.frame.toNat, n.origin)])).flood (some link) (.abort n)
  let s2 := if s1.newAbort n.part.toNat n.frame.toNat then s1.updFu (fun f => { f with aborts := bump32 f.aborts }) else s1
  if n.recipe then s2.updPart n.part.toNat (fun q => { q with wideAt := some (max (q.wideAt.getD 0) n.frame.toNat) }) else s2

theorem State.noticeAbort_new (s : State) (link : Nat) (n : AbortNotice)
    (hnew : s.fu.seenAborts.contains (n.part, n.frame.toNat, n.origin) = false) (hloaded : (s.part n.part.toNat).st ≠ .free) :
    s.noticeAbort link n = (s.noticed link n).abortHere n.part.toNat n.frame.toNat n.variant n.streams := by
  have hst : ¬ (((s.withSeenAborts (s.fu.seenAborts ++ [(n.part, n.frame.toNat, n.origin)])).flood (some link) (.abort n)).part
      n.part.toNat).st = .free := by
    rw [State.flood_part]
    exact hloaded
  unfold State.noticeAbort
  dsimp only
  rw [if_neg (by rw [hnew]; decide)]
  exact if_neg hst

/-- What of a partition decides whether an abort is its first, and the abort notice keeps. -/
def Part.abortView (q : Part) : Option AbortS × Option Nat := (q.abort, q.replayed)

theorem State.noticed_keeps (s : State) (link : Nat) (n : AbortNotice) :
    (s.noticed link n).besideNotice = (s.spad, s.accts, s.fu.seenAborts ++ [(n.part, n.frame.toNat, n.origin)]) ∧
      ((s.noticed link n).part n.part.toNat).abortView = (s.part n.part.toNat).abortView := by
  unfold State.noticed
  rw [State.flood_frame]
  dsimp only
  split
  · refine ⟨?_, ?_⟩
    · split <;> rfl
    · rw [State.part_updPart, if_pos rfl]
      split <;> rfl
  · split <;> exact ⟨rfl, rfl⟩

/-- A first abort that no replay frame makes stale (R199). -/
theorem State.abortHere_first (s : State) (p frame : Nat) (v : VariantSel) (streams : Line) (hfirst : (s.part p).abort = none)
    (hbehind : (s.part p).replayed.all (fun r => decide (r ≤ frame)) = true) :
    s.abortHere p frame v streams = (s.beginAbort p frame v streams).dropWaits p := by
  have hahead : ¬ (s.part p).replayed.any (fun r => decide (frame < r)) = true := by
    cases hr : (s.part p).replayed with
    | none => simp
    | some r =>
      rw [hr] at hbehind
      simpa using hbehind
  unfold State.abortHere
  dsimp only
  rw [hfirst]
  exact if_neg hahead

theorem State.noticed_rxAhead (s : State) (link : Nat) (n : AbortNotice) (k : Nat) :
    ((s.noticed link n).link k).rxAhead = (s.link k).rxAhead := by
  have hflood := (s.withSeenAborts (s.fu.seenAborts ++ [(n.part, n.frame.toNat, n.origin)])).flood_rxAhead (some link) (.abort n) k
  unfold State.noticed
  dsimp only
  (repeat' split) <;> exact hflood

theorem abortNotice_begins {n : AbortNotice} (h : s.frameClear f (.abortNotice f n) = true)
    (hnew : s.fu.seenAborts.contains (n.part, n.frame.toNat, n.origin) = false) (hloaded : (s.part n.part.toNat).st ≠ .free)
    (hfirst : (s.part n.part.toNat).abort = none)
    (hbehind : (s.part n.part.toNat).replayed.all (fun r => decide (r ≤ n.frame.toNat)) = true) :
    ∃ t, exec (.abortNotice f n) s = .next t ∧ (t.part n.part.toNat).abort = some ⟨n.frame.toNat, n.variant, n.streams⟩ ∧
      (t.part n.part.toNat).nextStart = none ∧ t.fu.seenAborts = s.fu.seenAborts ++ [(n.part, n.frame.toNat, n.origin)] ∧
      t.spad = s.spad ∧ t.accts = s.accts := by
  have hawake := State.awake_of_frameClear h
  obtain ⟨before, after, c, hreceive⟩ := State.receive_takesEffect
    (effect := fun v => (v.noticed f.link.val n).abortHere n.part.toNat n.frame.toNat n.variant n.streams) h
    (fun _ _ => (if_neg hawake).trans (State.noticeAbort_new _ _ n hnew hloaded))
    (fun _ _ => by rw [State.link_get, State.abortHere_links]; exact State.noticed_rxAhead ..)
  obtain ⟨hbeside, hview⟩ := (s.relinked before c).noticed_keeps f.link.val n
  simp only [Part.abortView, Prod.mk.injEq] at hview
  have habort := ((s.relinked before c).noticed f.link.val n).abortHere_first n.part.toNat n.frame.toNat n.variant n.streams
    (hview.1.trans hfirst) (by rw [hview.2]; exact hbehind)
  obtain ⟨hstands, hnone⟩ :=
    ((s.relinked before c).noticed f.link.val n).beginAbort_dropWaits_part n.part.toNat n.frame.toNat n.variant n.streams
  have hkept := (State.dropWaits_besideNotice
    (((s.relinked before c).noticed f.link.val n).beginAbort n.part.toNat n.frame.toNat n.variant n.streams) n.part.toNat).trans hbeside
  simp only [State.besideNotice, Prod.mk.injEq] at hkept
  obtain ⟨hspad, haccts, hseen⟩ := hkept
  refine ⟨_, congrArg Host.Outcome.next hreceive, ?_⟩
  rw [habort]
  exact ⟨hstands, hnone, hseen, hspad, haccts⟩

/-! ## Failure notices, votes and loading reports -/

theorem failureNotice_isCollected (h : s.frameClear f (.failureNotice f) = true)
    (hnew : s.fu.seenFails.contains (noticeOf (f.payload.headD 0)) = false) :
    let n := noticeOf (f.payload.headD 0)
    ∃ t, exec (.failureNotice f) s = .next t ∧ t.fu.notices = s.fu.notices ++ [n] ∧ t.fu.seenFails = s.fu.seenFails ++ [n] ∧
      t.parts = s.parts ∧ t.spad = s.spad := by
  intro n
  obtain ⟨before, after, c, hreceive⟩ := State.receive_takesEffect
    (effect := fun v => (v.updFu (fun u => { u with notices := u.notices ++ [n], seenFails := u.seenFails ++ [n] })).flood
      (some f.link.val) (.failure (f.payload.headD 0))) h
    (fun _ _ => (if_neg (State.awake_of_frameClear h)).trans (if_neg (fun hseen => Bool.false_ne_true (hnew.symm.trans hseen))))
    (fun _ _ => State.flood_rxAhead ..)
  refine ⟨_, congrArg Host.Outcome.next hreceive, ?_⟩
  rw [State.flood_frame]
  exact ⟨rfl, rfl, rfl, rfl⟩

theorem stretchVote_isKept {d : DevAddr} {len : BitVec 2} {enf : Bool} (h : s.frameClear f (.stretchVote f d len enf) = true)
    (hacting : s.fu.acting = true) (hlen : len ≠ 0) :
    ∃ t, exec (.stretchVote f d len enf) s = .next t ∧ t.fu.votes = s.fu.votes.filter (fun v => decide (v.1 ≠ d)) ++ [(d, len, enf)] ∧
      t.parts = s.parts := by
  obtain ⟨before, after, c, hreceive⟩ := State.receive_takesEffect
    (effect := fun v => v.updFu (fun u => { u with votes := u.votes.filter (fun x => decide (x.1 ≠ d)) ++ [(d, len, enf)] })) h
    (fun _ _ => (if_neg (State.awake_of_frameClear h)).trans ((if_pos hacting).trans (by dsimp only; rw [if_neg hlen]; rfl)))
    (fun _ _ => rfl)
  exact ⟨_, congrArg Host.Outcome.next hreceive, rfl, rfl⟩

/-- A Loading partition that has heard of one more device with its image loaded (R247). -/
def Part.deviceLoaded (q : Part) (own : DevAddr) (n : Nat) (d : DevAddr) : Part :=
  { q with
    loadedDevs := q.loadedDevs ++ [d]
    allLoaded := q.allLoaded || (q.loaded && (List.range (2 ^ n)).all (fun k =>
      decide (BitVec.ofNat 10 k = own) || (q.loadedDevs ++ [d]).contains (BitVec.ofNat 10 k))) }

theorem State.takeLoading_new (s : State) (p : Nat) (d : DevAddr) (hloading : (s.part p).st = .loading)
    (hnew : (s.part p).loadedDevs.contains d = false) :
    s.takeLoading p d true = s.setPart p ((s.part p).deviceLoaded s.dict.addr s.dict.n d) := by
  unfold State.takeLoading
  dsimp only
  rw [if_neg (not_not.2 hloading), if_pos rfl, hnew]
  rfl

theorem loadingReport_namesDevice {p : PartNo} {d : DevAddr} (h : s.frameClear f (.loadingReport f p d true) = true)
    (hloading : (s.part p.toNat).st = .loading) (hnew : (s.part p.toNat).loadedDevs.contains d = false) :
    ∃ t, exec (.loadingReport f p d true) s = .next t ∧ (t.part p.toNat).loadedDevs = (s.part p.toNat).loadedDevs ++ [d] ∧
      (∀ k, k ≠ p.toNat → t.part k = s.part k) := by
  obtain ⟨before, after, c, hreceive⟩ := State.receive_takesEffect
    (effect := fun v => v.setPart p.toNat ((v.part p.toNat).deviceLoaded v.dict.addr v.dict.n d)) h
    (fun _ _ => (if_neg (State.awake_of_frameClear h)).trans (State.takeLoading_new _ p.toNat d hloading hnew)) (fun _ _ => rfl)
  refine ⟨_, congrArg Host.Outcome.next hreceive, ?_, fun k hk => ?_⟩
  · change ((State.setPart _ p.toNat _).part p.toNat).loadedDevs = _
    rw [State.part_setPart, if_pos rfl]
    rfl
  · change (State.setPart _ p.toNat _).part k = _
    rw [State.part_setPart, if_neg hk]
    rfl

/-! ## Rounds of a summary and of a boundary exchange -/

/-- A loop over rounds of which only the first finds its message. -/
theorem foldl_one_round {α : Type} (step : α → Nat → α) (a b : α) (hfirst : step a 0 = b) (hrest : ∀ k, step b k = b) (n : Nat) :
    (List.range (n + 1)).foldl step a = b := by
  rw [List.range_succ_eq_map, List.foldl_cons, hfirst]
  exact List.foldlRecOn (motive := fun x => x = b) _ _ rfl fun _ h _ _ => h ▸ hrest _

/-- What a summary is once the partner's part has joined it and the partition keeps it as its last (R338). -/
def Part.summed (q : Part) (m : Summary) : Part :=
  { q.rule m.overflow with
    allLoaded := m.loaded, allReady := m.ready, anyLearn := m.learn, nextStreams := some m.streams
    ovfSteps := if m.overflow ≠ 0 then (q.rule m.overflow).ovfSteps + 1 else (q.rule m.overflow).ovfSteps }

/-- A whole summary in which every device passed its Clearing points (R338). -/
theorem State.summaryDone_ok (s : State) (p : Nat) (m : Summary) (habort : (s.part p).abort = none) (hclear : m.clearOk = true)
    (hall : m.devices.toNat = 2 ^ s.dict.n) :
    s.summaryDone p m = { s.setPart p ((s.part p).summed m) with ledger := { s.ledger with sums := s.ledger.sums ++ [m] } } := by
  have hgoes : ¬ (s.part p).abortedStep m.step = true := by
    rw [Part.abortedStep, habort]
    exact Bool.false_ne_true
  have hsum : ({ m with clearOk := true } : Summary) = m := by rw [← hclear]
  unfold State.summaryDone
  dsimp only
  rw [if_neg hgoes, hclear, decide_eq_true hall, Bool.and_self, if_pos rfl, hsum]
  rfl

/-- A partition whose only step has its summary joined (R338). -/
def Part.joined (q : Part) (r : StepRun) (n : Nat) (m x : Summary) : Part :=
  { q with runs := [{ r with early := [(n, m)], rounds := some (n + 1), summary := x }] }

/-- The last round of the summary of a partition's only step (R338). -/
theorem State.advanceRounds_last (s : State) (p n : Nat) (r : StepRun) (m : Summary) (hruns : (s.part p).runs = [r]) (hn : s.dict.n = n + 1)
    (hrounds : r.rounds = some n) :
    s.advanceRounds p { r with early := [(n, m)] } =
      (s.setPart p ((s.part p).joined r n m (r.summary.join m))).summaryDone p (r.summary.join m) := by
  have hput (x : StepRun) : (s.updPart p (fun q => { q with
      runs := q.runs.map (fun y => if y.step = r.step ∧ y.attempt = r.attempt then x else y) })) =
      s.setPart p { s.part p with runs := [x] } := by
    rw [State.updPart, hruns]
    simp
  unfold State.advanceRounds
  dsimp only
  rw [hrounds]
  dsimp only
  rw [if_neg (by omega), foldl_one_round _ _ (n + 1, r.summary.join m, s)]
  · dsimp only
    rw [hput, if_pos hn.symm]
    rfl
  · simp [hn]
  · intro k
    simp

/-- What the last round of a summary leaves of run `r` of partition `p` when it is clear of every device (R338). -/
def State.summaryTaken (s : State) (k : Nat) (m : Summary) (r : StepRun) : State :=
  let p := m.part.toNat
  let j := r.summary.join m
  { (s.setPart p ((s.part p).joined r k m j)).setPart p (((s.part p).joined r k m j).summed j) with
    ledger := { s.ledger with sums := s.ledger.sums ++ [j] } }

theorem State.part_summaryTaken (s : State) (k : Nat) (m : Summary) (r : StepRun) :
    (s.summaryTaken k m r).part m.part.toNat = ((s.part m.part.toNat).joined r k m (r.summary.join m)).summed (r.summary.join m) :=
  (State.part_setPart _ _ _ _).trans (if_pos rfl)

theorem State.takeSummary_last (s : State) (k : Nat) (m : Summary) (r : StepRun) (hfailed : s.fu.failedDevs = []) (hn : s.dict.n = k + 1)
    (hruns : (s.part m.part.toNat).runs = [r]) (hrounds : r.rounds = some k) (hstep : r.step = m.step) (hattempt : r.attempt = m.attempt)
    (hearly : r.early = []) (habort : (s.part m.part.toNat).abort = none) (hclear : (r.summary.join m).clearOk = true)
    (hall : (r.summary.join m).devices.toNat = 2 ^ s.dict.n) : s.takeSummary k m = s.summaryTaken k m r := by
  have hrelay : s.relayRound k (.summary k m) = s := by
    refine if_neg fun hfar => ?_
    rw [hfailed] at hfar
    exact Bool.false_ne_true hfar.2
  have hhit : [r].find? (fun r => decide (r.step = m.step ∧ r.attempt = m.attempt)) = some r :=
    List.find?_cons_of_pos (decide_eq_true ⟨hstep, hattempt⟩)
  unfold State.takeSummary
  dsimp only
  rw [hrelay, hruns, hhit]
  dsimp only
  rw [hearly, List.any_nil, if_neg Bool.false_ne_true, List.nil_append, State.advanceRounds_last _ _ _ _ _ hruns hn hrounds]
  refine (State.summaryDone_ok (s.setPart _ _) _ _ ?_ hclear hall).trans ?_
  · rw [State.part_setPart, if_pos rfl]
    exact habort
  · rw [State.part_setPart, if_pos rfl]
    rfl

theorem clearingSummary_joins {k : Fin 10} {r : StepRun} (h : s.frameClear f (.clearingSummary f k) = true) (hfailed : s.fu.failedDevs = [])
    (hn : s.dict.n = k.val + 1) (hruns : (s.part (summaryOf f.payload).part.toNat).runs = [r]) (hrounds : r.rounds = some k.val)
    (hstep : r.step = (summaryOf f.payload).step) (hattempt : r.attempt = (summaryOf f.payload).attempt) (hearly : r.early = [])
    (habort : (s.part (summaryOf f.payload).part.toNat).abort = none) (hclear : (r.summary.join (summaryOf f.payload)).clearOk = true)
    (hall : (r.summary.join (summaryOf f.payload)).devices.toNat = 2 ^ s.dict.n) :
    let m := summaryOf f.payload
    let p := m.part.toNat
    let j := r.summary.join m
    ∃ t, exec (.clearingSummary f k) s = .next t ∧ t.ledger = { s.ledger with sums := s.ledger.sums ++ [j] } ∧
      (t.part p).allLoaded = j.loaded ∧ (t.part p).nextStreams = some j.streams ∧ (t.part p).anyLearn = j.learn ∧ t.accts = s.accts := by
  intro m p j
  obtain ⟨before, after, c, hreceive⟩ := State.receive_takesEffect (effect := fun v => v.summaryTaken k.val m r) h
    (fun links c => (if_neg (State.awake_of_frameClear h)).trans
      (State.takeSummary_last (s.relinked links c) k.val m r hfailed hn hruns hrounds hstep hattempt hearly habort hclear hall))
    (fun _ _ => rfl)
  have hpart := (s.relinked before c).part_summaryTaken k.val m r
  exact ⟨_, congrArg Host.Outcome.next hreceive, rfl, congrArg Part.allLoaded hpart, congrArg Part.nextStreams hpart,
    congrArg Part.anyLearn hpart, rfl⟩

/-- A Loading partition whose boundary exchange has ended with summary `j` of a cluster of `2 ^ n` devices (R339). -/
def Part.exchanged (q : Part) (j : Summary) (n : Nat) : Part :=
  { q with exchange := none, exchEarly := [], allLoaded := j.clearOk && j.loaded && decide (j.devices.toNat = 2 ^ n) }

/-- The last round of the boundary exchange of a Loading partition (R339). -/
theorem State.runExchange_last (s : State) (p n : Nat) (x m : Summary) (hn : s.dict.n = n + 1) :
    s.runExchange p n x [(n, m)] = s.updPart p (fun q => q.exchanged (x.join m) s.dict.n) := by
  unfold State.runExchange
  dsimp only
  rw [foldl_one_round _ _ (n + 1, x.join m, s)]
  · dsimp only
    rw [if_pos hn.symm]
    rfl
  · simp [hn]
  · intro k
    simp

theorem State.takeExchange_last (s : State) (k : Nat) (x m : Summary) (hfailed : s.fu.failedDevs = []) (hn : s.dict.n = k + 1)
    (hloading : (s.part m.part.toNat).st = .loading) (hearly : (s.part m.part.toNat).exchEarly = [])
    (hexchange : (s.part m.part.toNat).exchange = some (k, x)) :
    s.takeExchange k m = s.updPart m.part.toNat (fun q => q.exchanged (x.join m) s.dict.n) := by
  have hrelay : s.relayRound k (.exchange k m) = s := by
    refine if_neg fun hfar => ?_
    rw [hfailed] at hfar
    exact Bool.false_ne_true hfar.2
  have hwaits : ¬ ((s.part m.part.toNat).st ≠ .loading ∨ ([] : List (Nat × Summary)).any (fun e => decide (e.1 = k)) = true) :=
    fun hgone => hgone.elim (fun hst => hst hloading) Bool.false_ne_true
  unfold State.takeExchange
  dsimp only
  rw [hrelay, hearly, if_neg hwaits, hexchange]
  exact State.runExchange_last s _ k x m hn

theorem boundaryExchange_joins {k : Fin 10} {x : Summary} (h : s.frameClear f (.boundaryExchange f k) = true) (hfailed : s.fu.failedDevs = [])
    (hn : s.dict.n = k.val + 1) (hloading : (s.part (summaryOf f.payload).part.toNat).st = .loading)
    (hearly : (s.part (summaryOf f.payload).part.toNat).exchEarly = [])
    (hexchange : (s.part (summaryOf f.payload).part.toNat).exchange = some (k.val, x)) :
    let m := summaryOf f.payload
    let p := m.part.toNat
    let j := x.join m
    ∃ t, exec (.boundaryExchange f k) s = .next t ∧ (t.part p).exchange = none ∧
      (t.part p).allLoaded = (j.clearOk && j.loaded && decide (j.devices.toNat = 2 ^ s.dict.n)) := by
  intro m p j
  obtain ⟨before, after, c, hreceive⟩ := State.receive_takesEffect (effect := fun v => v.updPart p (fun q => q.exchanged j s.dict.n)) h
    (fun links c => (if_neg (State.awake_of_frameClear h)).trans
      (State.takeExchange_last (s.relinked links c) k.val x m hfailed hn hloading hearly hexchange))
    (fun _ _ => rfl)
  have hpart := State.part_updPart (s.relinked before c) p p (fun q => q.exchanged j s.dict.n)
  rw [if_pos rfl] at hpart
  exact ⟨_, congrArg Host.Outcome.next hreceive, congrArg Part.exchange hpart, congrArg Part.allLoaded hpart⟩

/-! ## Restore reports -/

/-- A restoring account with one part more reported (R307). -/
def Account.reported (x : Account) (r : RestoreReport) : Account :=
  { x with parts := x.parts ++ [r.part], restored := if r.part = 0 then some r else x.restored }

/-- A good report of a part that is not the last one adds that part (R307). -/
theorem State.partReport_adds (s : State) (r : RestoreReport) (b : Sub) (hhome : s.isHome r.account.val = true)
    (hhead : s.headSub r.account.val = some b) (hst : (s.acct r.account.val).st = .restoring) (hkind : b.subkind = 4)
    (hopen : b.doneLsn = none) (hassign : s.mayAssign = true) (hok : r.ok = true)
    (hnew : (s.acct r.account.val).parts.contains r.part = false)
    (hmore : (s.acct r.account.val).parts.length + 1 < (s.acct r.account.val).restParts.length) :
    s.partReport r = s.setAcct r.account.val ((s.acct r.account.val).reported r) := by
  have hruns : ¬ (s.isHome r.account.val = false ∨ (s.acct r.account.val).st ≠ .restoring ∨ b.subkind ≠ 4 ∨
      b.doneLsn.isSome = true ∨ s.mayAssign = false) := by
    simp [hhome, hst, hkind, hopen, hassign]
  have hparts : (if (s.acct r.account.val).parts.contains r.part = true then (s.acct r.account.val).parts
      else (s.acct r.account.val).parts ++ [r.part]) = (s.acct r.account.val).parts ++ [r.part] :=
    if_neg (hnew ▸ Bool.false_ne_true)
  have hopenParts : ((s.acct r.account.val).parts ++ [r.part]).length ≠ (s.acct r.account.val).restParts.length := by
    rw [List.length_append, List.length_singleton]
    exact Nat.ne_of_lt hmore
  unfold State.partReport
  dsimp only
  rw [hhead]
  dsimp only
  rw [if_neg hruns, if_neg (by simp [hok]), hparts, if_neg fun hall => hopenParts hall.1]
  rfl

theorem restoreReport_addsPart {r : RestoreReport} {b : Sub} (h : s.frameClear f (.restoreReport f r) = true)
    (hhome : s.isHome r.account.val = true) (hhead : s.headSub r.account.val = some b) (hst : (s.acct r.account.val).st = .restoring)
    (hkind : b.subkind = 4) (hopen : b.doneLsn = none) (hassign : s.mayAssign = true) (hok : r.ok = true)
    (hnew : (s.acct r.account.val).parts.contains r.part = false)
    (hmore : (s.acct r.account.val).parts.length + 1 < (s.acct r.account.val).restParts.length) :
    let a := r.account.val
    let x := s.acct a
    ∃ t, exec (.restoreReport f r) s = .next t ∧ (t.acct a).parts = x.parts ++ [r.part] ∧ (t.acct a).st = .restoring ∧
      t.ledger.journal = s.ledger.journal := by
  intro a x
  obtain ⟨before, after, c, hreceive⟩ := State.receive_takesEffect (effect := fun v => v.setAcct a ((v.acct a).reported r)) h
    (fun links c => (if_neg (State.awake_of_frameClear h)).trans ((if_pos (.inr hhome)).trans
      (State.partReport_adds (s.relinked links c) r b hhome hhead hst hkind hopen hassign hok hnew hmore)))
    (fun _ _ => rfl)
  have hacct := SMap.get_set_same s.accts {} a (x.reported r)
  exact ⟨_, congrArg Host.Outcome.next hreceive, congrArg Account.parts hacct, (congrArg Account.st hacct).trans hst, rfl⟩

end Sys2Proof.Machine
end

section
open Sys2Proof Sys2Proof.Machine

/-- Settles O37: a clear frame takes effect on the machine with its links moved on (`State.receive_takesEffect`); a lemma for each message. -/
theorem controlMessagesTakeEffect : Obligations.ControlMessagesTakeEffect := by
  unfold Obligations.ControlMessagesTakeEffect
  exact ⟨fun f n s => abortNotice_begins, fun f s => failureNotice_isCollected, fun f d len enf s => stretchVote_isKept,
    fun f p d s => loadingReport_namesDevice, fun f k r s => clearingSummary_joins, fun f k x s => boundaryExchange_joins,
    fun f r b s => restoreReport_addsPart⟩

end

section
/-! Refutation of O27: its clause on an overrun promises the abort of every partition with a stream, and one that becomes Free at the same
boundary escapes it. -/

namespace Sys2Proof.Machine

/-- A running device at the end of a frame with 65 held cycles, one more than its dusk has. Partition 0 has a stream on tile 0 and is Closing:
its last session, 0, holds no submission any more, and its Retire record waits for the partner's acknowledgement. At the boundary the device
starts to cover its partner, device 1 (R335). -/
def closingWhilePartnerIsCovered : State :=
  { parts := [(0, { st := .closing })]
    tiles := [(0, { streams := [(0, { tag := 0 })] })]
    host := { sessions := [(0, { st := .closing, part := 0, a := 1 })] }
    ledger := { journal := [{ r := makeRec 0 0 0xFF (.retire 0 1), frame := 0, locally := true, acked := false, applied := false }] }
    fu := { held := 65, coverAt := [(1, 1)] }
    power := { resetPin := false, rails := true }
    dawn := { step := 11 } }

theorem closingWhilePartnerIsCovered_runs : closingWhilePartnerIsCovered.alive = true ∧ closingWhilePartnerIsCovered.framed = true := by decide

theorem closingWhilePartnerIsCovered_steppers : closingWhilePartnerIsCovered.steppers = [0] := by decide +kernel

theorem closingWhilePartnerIsCovered_replayed : (closingWhilePartnerIsCovered.part 0).replayed = none := rfl

/-- The overrun aborts partition 0 (R197). -/
theorem closingWhilePartnerIsCovered_aborts : ((closingWhilePartnerIsCovered.endFrame 1089).part 0).abort.isSome = true := by decide +kernel

/-- The takeover in the first cycle of the next frame makes the Retire record durable; session 0 and with it partition 0 become Free (R353),
and the abort is gone. -/
theorem closingWhilePartnerIsCovered_becomesFree :
    (((closingWhilePartnerIsCovered.endFrame 1089).startFrame 1089).part 0).abort = none := by decide +kernel

theorem exec_frameBoundary (rc : Nat) (s : State) (halive : s.alive = true) (hframed : s.framed = true) :
    exec (.frameBoundary rc false) s = .next ((s.endFrame rc).startFrame rc) := by
  change execFrameBoundary rc false s = _
  simp [execFrameBoundary, halive, hframed]

end Sys2Proof.Machine
end

section
open Sys2Proof Sys2Proof.Machine

/-- Refutes O27 at the overrun: a Closing partition whose last session ends in the takeover of the covered partner's Ledger becomes Free in the
command that aborts it, and no abort of it is left. -/
theorem not_framesBeginAndPause : ¬ Obligations.FramesBeginAndPause := by
  unfold Obligations.FramesBeginAndPause
  rintro ⟨⟨-, hoverrun⟩, -⟩
  obtain ⟨halive, hframed⟩ := closingWhilePartnerIsCovered_runs
  obtain ⟨t, ht, -, -, -, -, haborts⟩ := hoverrun 1089 closingWhilePartnerIsCovered halive hframed rfl (by decide)
  have hzero : 0 ∈ closingWhilePartnerIsCovered.steppers := by simp [closingWhilePartnerIsCovered_steppers]
  have habort : (t.part 0).abort.isSome = true := haborts 0 hzero (by simp [closingWhilePartnerIsCovered_replayed])
  rw [exec_frameBoundary _ _ halive hframed] at ht
  injection ht with ht
  subst ht
  rw [closingWhilePartnerIsCovered_becomesFree] at habort
  cases habort

end

section
/-! Refutation of O54: its clause on a crossing that times out takes every list of partitions, and one that lists a partition twice escapes
it. -/

namespace Sys2Proof.Machine

/-- The fault of a crossing that times out, which no partition's operation carries (R441). -/
def State.crossingFault (s : State) (unit : BitVec 8) (tile : TileNo) : FaultInfo :=
  { code := 0x12, tag := 0xFE, tile := some tile, unit := unit, cycle := s.fu.cycle }

/-- The device that has counted a crossing that timed out, before the fault. -/
def State.crossingCounted (s : State) : State := s.updPower (fun p => { p with crossings := bump32 p.crossings })

theorem exec_crossingTimeout (unit : BitVec 8) (tile : TileNo) (s : State) (halive : s.alive = true) :
    exec (.crossingTimeout unit tile) s = .next (s.crossingCounted.faultWide (s.crossingFault unit tile)) := by
  change execCrossingTimeout unit tile s = _
  rw [execCrossingTimeout, if_neg (by simp [halive])]
  rfl

/-- A crossing that times out aborts every partition with a stream on the die where the map of partitions is canonical (R441). -/
theorem crossingTimeout_aborts (unit : BitVec 8) (tile : TileNo) (s : State) (halive : s.alive = true)
    (hwf : SMap.wf ({} : Part) s.parts = true) :
    ∃ t, exec (.crossingTimeout unit tile) s = .next t ∧ ∀ p ∈ s.steppers, AbortsIn p s t :=
  ⟨_, exec_crossingTimeout unit tile s halive, State.faultWide_aborts (s := s.crossingCounted) (s.crossingFault unit tile) hwf⟩

/-- The abort of partition 0 ends the hold, which rewrites the partitions and drops the first entry of partition 1, the default; the replay
frame of its second entry lies ahead, and the abort of partition 1 is stale. -/
theorem partitionListedTwice_runs_past_crossing :
    ((partitionListedTwice.crossingCounted.faultWide (partitionListedTwice.crossingFault 0 0)).part 1).abort = none := by decide +kernel

end Sys2Proof.Machine
end

section
open Sys2Proof Sys2Proof.Machine

/-- Refutes O54 at the crossing that times out: on a device whose map of partitions lists partition 1 twice, partition 1 has a stream and no
replay ahead, and does not abort. The statement asks for no canonical map; where the map is canonical the partitions abort:
`crossingTimeout_aborts`. -/
theorem not_votesReferencesAndCrossings : ¬ Obligations.VotesReferencesAndCrossings := by
  unfold Obligations.VotesReferencesAndCrossings
  rintro ⟨-, -, -, -, -, hcrossing⟩
  obtain ⟨t, ht, -, haborts⟩ := hcrossing 0 0 partitionListedTwice partitionListedTwice_alive
  have hone : 1 ∈ partitionListedTwice.steppers := by simp [partitionListedTwice_steppers]
  have habort : (t.part 1).abort.isSome = true := haborts 1 hone (by simp [partitionListedTwice_replayed])
  rw [exec_crossingTimeout 0 0 _ partitionListedTwice_alive] at ht
  injection ht with ht
  subst ht
  rw [partitionListedTwice_runs_past_crossing] at habort
  cases habort

end

section
/-! SUPPORT. What reads of stack lines leave of the machine where they meet no error (R161, R163, R217, R218, R242): engines and Ethernet
endpoints read their lines by them. -/

namespace Sys2Proof.Machine

variable {s t : State}

/-- All of the machine but the mesh and the counts of the stacks: what queue traffic without an error leaves alone. -/
def State.besideTraffic (s : State) : State := { s with mesh := {}, mem := { s.mem with stk := [] } }

/-- All of the machine but what a read of stack lines counts and records. -/
def State.besideReads (s : State) : State := { s with mesh := {}, recd := {}, mgmt := {}, mem := { s.mem with stk := [] } }

theorem State.besideReads_of_besideTraffic (h : t.besideTraffic = s.besideTraffic) : t.besideReads = s.besideReads :=
  congrArg (fun u : State => ({ u with recd := {}, mgmt := {} } : State)) h

theorem State.queueLine_clear (s : State) (a : Nat) (tag : Tag) (rc l : Nat) :
    s.queueLine a tag rc l {} =
      (((s.passQueue a (stackRouter (stackOf l))).passQueue (stackRouter (stackOf l)) a).queueBytes (stackOf l), true) := rfl

theorem State.passQueue_besideTraffic (s : State) (a b : Nat) : (s.passQueue a b).besideTraffic = s.besideTraffic := by
  rw [State.passQueue_frame]
  rfl

/-- A line without an error arrives, and is counted on its way (R242). -/
theorem State.queueLine_besideTraffic (s : State) (a : Nat) (tag : Tag) (rc l : Nat) :
    (s.queueLine a tag rc l {}).1.besideTraffic = s.besideTraffic := by
  rw [State.queueLine_clear]
  exact (State.passQueue_besideTraffic _ _ _).trans (s.passQueue_besideTraffic _ _)

theorem State.passQueue_stack (s : State) (a b k : Nat) : (s.passQueue a b).stack k = s.stack k := by
  rw [State.passQueue_frame]
  rfl

theorem State.queueLine_stack_st (s : State) (a : Nat) (tag : Tag) (rc l k : Nat) :
    ((s.queueLine a tag rc l {}).1.stack k).st = (s.stack k).st := by
  have hpassed (k : Nat) := congrArg Stack.st (((s.passQueue a (stackRouter (stackOf l))).passQueue_stack (stackRouter (stackOf l)) a k).trans
    (s.passQueue_stack a (stackRouter (stackOf l)) k))
  rw [State.queueLine_clear, State.queueBytes, State.stack, State.updStack, SMap.get_upd]
  split
  next hk => rw [hk]; exact hpassed (stackOf l)
  next => exact hpassed k

/-- A line that is not poisoned is read, if only by a rebuild from its failed stack's parity (R217, R218). -/
theorem State.stackRead_sound (s : State) (l : Nat) (hlost : s.mem.lost.contains l = false) :
    (s.stackRead l .none false).2 = true ∧ (s.stackRead l .none false).1.besideReads = s.besideReads := by
  unfold State.stackRead
  dsimp only
  rw [if_neg (by rw [hlost]; decide)]
  split
  · rw [if_neg Bool.false_ne_true, State.event_frame]
    exact ⟨rfl, rfl⟩
  · exact ⟨rfl, rfl⟩

/-- A line of a healthy stack is read as it is (R217). -/
theorem State.stackRead_healthy (s : State) (l : Nat) (hlost : s.mem.lost.contains l = false) (hst : (s.stack (stackOf l)).st ≠ 2) :
    s.stackRead l .none false = (s, true) := by
  unfold State.stackRead
  dsimp only
  rw [if_neg (by rw [hlost]; decide), if_neg hst]

/-- One line of a fetch, behind what was fetched before it. -/
def fetchLine (mesh : Option Nat) (tag : Tag) (rc : Nat) (flt : Nat → FaultInfo) (x : State × Bool) (l : Nat) : State × Bool :=
  let y := match mesh with
    | some a => x.1.queueLine a tag rc l {}
    | none => (x.1, true)
  let z := y.1.stackRead l .none false
  if z.2 then (z.1, x.2) else (z.1.fault (flt l), false)

theorem State.fetchLines_clear (s : State) (mesh : Option Nat) (tag : Tag) (rc : Nat) (flt : Nat → FaultInfo) (ls : List Nat) :
    s.fetchLines mesh tag rc flt ls [] = ls.foldl (fetchLine mesh tag rc flt) (s, true) := by
  unfold State.fetchLines
  congr 1
  funext x l
  cases mesh <;> rfl

theorem fetchLine_sound (mesh : Option Nat) (tag : Tag) (rc : Nat) (flt : Nat → FaultInfo) (b : Bool) (l : Nat)
    (hlost : s.mem.lost.contains l = false) :
    (fetchLine mesh tag rc flt (s, b) l).2 = b ∧ (fetchLine mesh tag rc flt (s, b) l).1.besideReads = s.besideReads := by
  have hread (u : State) (hu : u.besideReads = s.besideReads) :
      let z := u.stackRead l .none false
      (if z.2 then (z.1, b) else (z.1.fault (flt l), false)).2 = b ∧
        (if z.2 then (z.1, b) else (z.1.fault (flt l), false)).1.besideReads = s.besideReads := by
    obtain ⟨hok, hbeside⟩ := u.stackRead_sound l ((congrArg (fun v : State => v.mem.lost.contains l) hu).trans hlost)
    intro z
    rw [if_pos hok]
    exact ⟨rfl, hbeside.trans hu⟩
  cases mesh with
  | none => exact hread s rfl
  | some a => exact hread _ (State.besideReads_of_besideTraffic (s.queueLine_besideTraffic a tag rc l))

/-- Lines that are not poisoned are all read, and the fetch changes nothing but what it counts and records (R217). -/
theorem State.fetchLines_sound (s : State) (mesh : Option Nat) (tag : Tag) (rc : Nat) (flt : Nat → FaultInfo) (ls : List Nat)
    (hlost : ∀ l ∈ ls, s.mem.lost.contains l = false) :
    (s.fetchLines mesh tag rc flt ls []).2 = true ∧ (s.fetchLines mesh tag rc flt ls []).1.besideReads = s.besideReads := by
  rw [State.fetchLines_clear]
  refine List.foldlRecOn (motive := fun x : State × Bool => x.2 = true ∧ x.1.besideReads = s.besideReads) ls _ ⟨rfl, rfl⟩ ?_
  rintro ⟨u, b⟩ ⟨rfl, hu⟩ l hl
  obtain ⟨hok, hbeside⟩ := fetchLine_sound (s := u) mesh tag rc flt true l
    ((congrArg (fun v : State => v.mem.lost.contains l) hu).trans (hlost l hl))
  exact ⟨hok, hbeside.trans hu⟩

end Sys2Proof.Machine
end

section
/-! Certificate of O25: descriptors that wait at their engine and jobs that start there (R226, R231-R233, R236, R237). -/

namespace Sys2Proof.Machine

variable {s : State}

theorem State.engine_updEngine (s : State) (e k : Nat) (f : Engine → Engine) :
    (s.updEngine e f).engine k = if k = e then f (s.engine e) else s.engine k := SMap.get_upd s.mem.engines {} e k f

theorem State.engine_updEngine_same (s : State) (e : Nat) (f : Engine → Engine) : (s.updEngine e f).engine e = f (s.engine e) := by
  rw [State.engine_updEngine, if_pos rfl]

/-! ## Descriptors -/

/-- The input slots of a job whose descriptor lands in `slot`: the run that ends there, or at a prompt engine the one slot (R232, R237). -/
def Job.inputSlots (j : Job) (prompt : Bool) (c : Ctx) (slot : Nat) : List Nat :=
  if prompt then [slot] else (List.range (j.inLines c)).map (fun k => slot + 1 - j.inLines c + k)

/-- An engine at which a job waits behind its others, its descriptor in its slot. -/
def Engine.queued (x : Engine) (slot : Nat) (d : Line) (tag : Tag) (j : Job) : Engine :=
  { x with slots := SMap.set x.slots (0, 0) slot (d, tag), waiting := x.waiting ++ [j] }

theorem inLines_le_of_descOk {d : Line} {j : Job} {c : Ctx} {slot : Nat} (h : descOk false d j c slot = true) : j.inLines c ≤ slot + 1 := by
  simp only [descOk, Bool.and_eq_true, decide_eq_true_eq, if_neg Bool.false_ne_true] at h
  exact h.2.1.2.1

/-- A well-formed descriptor of an active stream of its own partition waits at an engine with room (R232, R237). -/
theorem State.descLand_queues (e slot : Nat) (tag : Tag) (xfer : BitVec 8) (d : Line) (rc : Nat) (prompt : Bool)
    (hprompt : decide (16 ≤ e) = prompt) (hslot : slot < slotsOf e) (hstack : e < 16 → (s.stack e).st ≠ 2)
    (hfree : ∀ w ∈ (s.engine e).waiting, slot ∉ w.slots)
    (hok : descOk prompt d (jobOf prompt tag xfer d) (s.ctxAt (jobOf prompt tag xfer d).stream) slot = true)
    (htag : (s.ctxAt (jobOf prompt tag xfer d).stream).tag = tag) (hst : (s.ctxAt (jobOf prompt tag xfer d).stream).st = 1)
    (hroom : (s.engine e).waiting.length < waitLimit e) :
    let j := jobOf prompt tag xfer d
    s.descLand e slot tag xfer d rc =
      s.updEngine e (fun y => y.queued slot d tag { j with slots := j.inputSlots prompt (s.ctxAt j.stream) slot }) := by
  intro j
  have hnone : (s.engine e).waiting.find? (fun k => k.slots.contains slot) = none := by simpa using hfree
  have hslots : (if (if prompt then 1 else j.inLines (s.ctxAt j.stream)) ≤ slot + 1 then
      (List.range (if prompt then 1 else j.inLines (s.ctxAt j.stream))).map
        (fun k => slot + 1 - (if prompt then 1 else j.inLines (s.ctxAt j.stream)) + k) else [slot]) =
      j.inputSlots prompt (s.ctxAt j.stream) slot := by
    cases prompt with
    | true => simp [Job.inputSlots]
    | false =>
      simp only [Bool.false_eq_true, if_false, Job.inputSlots]
      rw [if_pos (inLines_le_of_descOk hok)]
  unfold State.descLand
  dsimp only
  rw [hprompt, if_neg (Nat.not_le.2 hslot), if_neg (fun h => hstack h.1 h.2), hnone]
  dsimp only
  rw [if_neg (by rw [hok]; decide), if_neg (by simp [htag, hst]), if_neg (Nat.not_le.2 hroom), hslots]
  rfl

/-- What the statement says of a job that has come to wait at an engine. -/
theorem State.queued_waits {e slot : Nat} {d : Line} {tag : Tag} {j : Job} {t : State}
    (h : t = s.updEngine e (fun y => y.queued slot d tag j)) :
    t.engine e = { s.engine e with
      slots := SMap.set (s.engine e).slots (0, 0) slot (d, tag), waiting := (s.engine e).waiting ++ [j] } ∧
      (∀ k, k ≠ e → t.engine k = s.engine k) ∧ t.mem.data = s.mem.data ∧ t.parts = s.parts := by
  subst h
  exact ⟨s.engine_updEngine_same e _, fun k hk => by rw [State.engine_updEngine, if_neg hk], rfl, rfl⟩

/-- OP 1 and 2 at a generation engine (R232). -/
theorem State.descLand_generation (engine : BitVec 4) (slot : BitVec 10) (tag : Tag) (xfer : BitVec 8) (d : Line) (rc : Nat) :
    let e := engine.toNat
    let j := jobOf false tag xfer d
    let c := s.ctxAt j.stream
    let x := s.engine e
    let j' := { j with slots := (List.range (j.inLines c)).map (fun k => slot.toNat + 1 - j.inLines c + k) }
    (s.stack e).st ≠ 2 → (∀ w ∈ x.waiting, slot.toNat ∉ w.slots) → descOk false d j c slot.toNat = true → c.tag = tag → c.st = 1 →
    x.waiting.length < 8 →
    ∃ t, (.next (s.descLand e slot.toNat tag xfer d rc) : Host.Outcome State Fault Refusal) = .next t ∧
      t.engine e = { x with slots := SMap.set x.slots (0, 0) slot.toNat (d, tag), waiting := x.waiting ++ [j'] } ∧
      (∀ k, k ≠ e → t.engine k = s.engine k) ∧ t.mem.data = s.mem.data ∧ t.parts = s.parts := by
  intro e j c x j' hstack hfree hok htag hst hroom
  have he : e < 16 := engine.isLt
  refine ⟨_, rfl, State.queued_waits (j := j') (State.descLand_queues e slot.toNat tag xfer d rc false (decide_eq_false (Nat.not_le.2 he))
    ?_ (fun _ => hstack) hfree hok htag hst ?_)⟩
  · rw [slotsOf, if_pos he]
    exact slot.isLt
  · rw [waitLimit, if_pos he]
    exact hroom

/-- OP 3 and 4 at a prompt engine (R237). -/
theorem State.descLand_prompt (engine : BitVec 3) (slot : BitVec 6) (tag : Tag) (xfer : BitVec 8) (d : Line) (rc : Nat) :
    let e := 16 + engine.toNat
    let j := jobOf true tag xfer d
    let c := s.ctxAt j.stream
    let x := s.engine e
    let j' := { j with slots := [slot.toNat] }
    (∀ w ∈ x.waiting, slot.toNat ∉ w.slots) → descOk true d j c slot.toNat = true → c.tag = tag → c.st = 1 → x.waiting.length < 4 →
    ∃ t, (.next (s.descLand e slot.toNat tag xfer d rc) : Host.Outcome State Fault Refusal) = .next t ∧
      t.engine e = { x with slots := SMap.set x.slots (0, 0) slot.toNat (d, tag), waiting := x.waiting ++ [j'] } ∧
      t.mem.data = s.mem.data ∧ t.parts = s.parts := by
  intro e j c x j' hfree hok htag hst hroom
  have he : ¬ e < 16 := Nat.not_lt.2 (Nat.le_add_right 16 _)
  obtain ⟨hengine, -, hdata, hparts⟩ := State.queued_waits (j := j') (State.descLand_queues (s := s) e slot.toNat tag xfer d rc true
    (decide_eq_true (Nat.not_lt.1 he)) (by rw [slotsOf, if_neg he]; exact slot.isLt) (fun h => absurd h he) hfree hok htag hst
    (by rw [waitLimit, if_neg he]; exact hroom))
  exact ⟨_, rfl, hengine, hdata, hparts⟩

/-! ## Jobs that start -/

/-- The oldest waiting job of an idle generation engine starts with the lines of its slots (R232, R236). -/
theorem exec_engineJobStart_generation {unit : Fin 24} {rc : Nat} {j : Job} {rest : List Job} (hidle : (s.engine unit.val).running = none)
    (hwaiting : (s.engine unit.val).waiting = j :: rest) (hvoid : j.void = false) (he : unit.val < 16)
    (hinput : inputOk (j.slots.map (fun k => (SMap.get (s.engine unit.val).slots (0, 0) k).1)) (j.inBursts (s.ctxAt j.stream)) = true) :
    exec (.engineJobStart unit rc []) s = .next (s.updEngine unit.val (fun y =>
      { y with
        waiting := rest, slots := (s.engine unit.val).slots.filter (fun v => !j.slots.contains v.1), buffer := []
        running := some { j with
          input := j.slots.map (fun k => (SMap.get (s.engine unit.val).slots (0, 0) k).1), bad := false } })) := by
  change execEngineJobStart unit rc [] s = _
  unfold execEngineJobStart
  dsimp only
  rw [hidle, hwaiting]
  dsimp only
  rw [if_neg (by rw [hvoid]; decide)]
  simp only [if_pos he]
  rw [if_neg (by simp), State.fetchLines_clear, List.foldl_nil, if_neg (Bool.noConfusion : (s, true).2 ≠ false), if_neg (by rw [hinput]; decide)]

theorem engineJobStart_copiesSlots (unit : Fin 24) (rc : Nat) (j : Job) (rest : List Job) (s : State) :
    let e := unit.val
    let x := s.engine e
    let lines := j.slots.map (fun k => (SMap.get x.slots (0, 0) k).1)
    x.running = none → x.waiting = j :: rest → j.void = false → e < 16 →
    inputOk lines (j.inBursts (s.ctxAt j.stream)) = true →
    ∃ t, exec (.engineJobStart unit rc []) s = .next t ∧ (t.engine e).running = some { j with input := lines, bad := false } ∧
      (t.engine e).waiting = rest ∧ (t.engine e).results = x.results ∧
      (t.engine e).slots = x.slots.filter (fun v => !j.slots.contains v.1) ∧ t.mem.data = s.mem.data := by
  intro e x lines hidle hwaiting hvoid he hinput
  refine ⟨_, exec_engineJobStart_generation hidle hwaiting hvoid he hinput, ?_⟩
  rw [State.engine_updEngine_same]
  exact ⟨rfl, rfl, rfl, rfl, rfl⟩

/-- The oldest waiting job of an idle prompt engine starts once its rows have come from the stacks (R217, R236, R237). -/
theorem engineJobStart_readsRows (unit : Fin 24) (rc : Nat) (j : Job) (rest : List Job) (s : State) :
    let e := unit.val
    let x := s.engine e
    let n := j.inBursts (s.ctxAt j.stream)
    let at_ := (List.range (n + (n + 7) / 8)).map (fun k => j.qaddr + k)
    x.running = none → x.waiting = j :: rest → j.void = false → 16 ≤ e → (∀ a ∈ at_, s.mayReach j.tag a = true) →
    (∀ a ∈ at_, s.mem.lost.contains a = false) → inputOk (at_.map s.readMem) n = true →
    ∃ t, exec (.engineJobStart unit rc []) s = .next t ∧ (t.engine e).running = some { j with input := [], bad := false } ∧
      (t.engine e).buffer = at_.map s.readMem ∧ (t.engine e).waiting = rest ∧ t.mem.data = s.mem.data := by
  intro e x n at_ hidle hwaiting hvoid he hreach hlost hinput
  obtain ⟨hok, hbeside⟩ := s.fetchLines_sound (queueAt e) j.tag rc (poisonedLine e j.tag (s.cycleAt rc)) at_ hlost
  have hdata := congrArg (fun u : State => u.mem.data) hbeside
  refine ⟨(s.fetchLines (queueAt e) j.tag rc (poisonedLine e j.tag (s.cycleAt rc)) at_ []).1.updEngine e (fun y =>
    { y with
      waiting := rest, slots := x.slots.filter (fun v => !j.slots.contains v.1), buffer := at_.map s.readMem
      running := some { j with input := [], bad := false } }), ?_, ?_⟩
  · change execEngineJobStart unit rc [] s = _
    unfold execEngineJobStart
    dsimp only
    rw [show (s.engine unit.val).running = none from hidle, show (s.engine unit.val).waiting = j :: rest from hwaiting]
    dsimp only
    rw [if_neg (by rw [hvoid]; decide)]
    simp only [if_neg (show ¬ unit.val < 16 from Nat.not_lt.2 he)]
    rw [if_neg (by rw [List.all_eq_true.2 hreach]; decide), if_neg (by rw [hok]; decide), if_neg (by rw [hinput]; decide)]
  · rw [State.engine_updEngine_same]
    exact ⟨rfl, rfl, rfl, hdata⟩

end Sys2Proof.Machine
end

section
open Sys2Proof Sys2Proof.Machine

/-- Settles O25: `State.descLand_generation` for OP 1 and 2 and `State.descLand_prompt` for OP 3 and 4, `engineJobStart_copiesSlots` at a
generation engine and `engineJobStart_readsRows` at a prompt engine. -/
theorem engineJobsQueueAndStart : Obligations.EngineJobsQueueAndStart := by
  unfold Obligations.EngineJobsQueueAndStart
  refine ⟨fun engine slot tag xfer d rc s => ?_, fun engine slot tag xfer d rc s => ?_, engineJobStart_copiesSlots, engineJobStart_readsRows⟩
  · intro e j c x j' hstack hfree hok htag hst hroom
    have hwaits := State.descLand_generation engine slot tag xfer d rc hstack hfree hok htag hst hroom
    exact ⟨fun _ => hwaits, fun _ => hwaits⟩
  · intro e j c x j' hfree hok htag hst hroom
    have hwaits := State.descLand_prompt engine slot tag xfer d rc hfree hok htag hst hroom
    exact ⟨fun _ => hwaits, fun _ => hwaits⟩

end

section
/-! SUPPORT. What writes of stack lines leave of the machine (R216, R225), what a fault leaves of the engines and of the partition that
aborts (R198), and result buffers (R233). -/

namespace Sys2Proof.Machine

variable {s t : State}

/-! ## Lines written -/

/-- All of the machine but the lines of the stacks. -/
def State.besideLines (s : State) : State := { s with mem := { s.mem with data := {}, written := [], parity := [], lost := [] } }

theorem State.writeEntry_besideLines (s : State) (c : Ctx) (line slot : Nat) (ws : EntryWords) :
    (s.writeEntry c line slot ws).besideLines = s.besideLines :=
  foldl_keeps State.besideLines (fun t k =>
    t.setMemLine (line + 2 + 2 * c.bursts * slot + k) (lineOfWords ((ws.drop (32 * k)).take 32))) (fun _ _ => rfl) _ s

theorem State.writeEntries_besideLines (s : State) (c : Ctx) (pos : Nat) (es : List EntryWords) (only : Option Nat) :
    (s.writeEntries c pos es only).besideLines = s.besideLines := by
  refine foldl_keeps State.besideLines _ (fun t x => ?_) _ s
  dsimp only
  split
  · rfl
  · split
    · rfl
    · exact t.writeEntry_besideLines _ _ _ _

/-! ## What a fault leaves of the engines and of the partition that aborts -/

/-- An engine whose jobs of partition `p` are void (R198). -/
def Engine.voided (x : Engine) (p : Nat) : Engine :=
  { x with
    running := x.running.map (fun j => if j.tag.toNat = p then { j with void := true } else j)
    waiting := x.waiting.map (fun j => if j.tag.toNat = p then { j with void := true } else j) }

theorem State.dropWaits_mem (s : State) (p : Nat) : (s.dropWaits p).mem = s.mem := by
  unfold State.dropWaits
  split
  · rfl
  · dsimp only
    split
    · rw [State.endHoldWith_eq]
      rfl
    · rfl

/-- An abort changes nothing of the memory system but the jobs that it makes void. -/
theorem State.abortHere_mem (s : State) (p frame : Nat) (v : VariantSel) (streams : Line) :
    (s.abortHere p frame v streams).mem = s.mem ∨
      (s.abortHere p frame v streams).mem =
        { s.mem with engines := SMap.mapVals s.mem.engines {} (fun _ x => x.voided p) } := by
  obtain ⟨a, h⟩ | h | ⟨-, h⟩ := s.abortHere_cases p frame v streams <;> rw [h]
  · exact .inl rfl
  · exact .inr (State.dropWaits_mem _ p)
  · exact .inl rfl

/-- What an abort leaves of a partition that it did not find aborted: all but the abort, the step due and the holds charged to it. -/
def Part.besideAbort (q : Part) : Part := { q with abort := none, nextStart := none, holds := 0 }

theorem Part.chargeHold_besideAbort (causes : List Tag) (n k : Nat) (q : Part) : (q.chargeHold causes n k).besideAbort = q.besideAbort := by
  unfold Part.chargeHold
  split <;> rfl

theorem State.beginAbort_dropWaits_besideAbort (s : State) (p frame : Nat) (v : VariantSel) (streams : Line) :
    (((s.beginAbort p frame v streams).dropWaits p).part p).besideAbort = (s.part p).besideAbort := by
  have hset : ((s.beginAbort p frame v streams).part p).besideAbort = (s.part p).besideAbort :=
    (congrArg Part.besideAbort (SMap.get_set_same s.parts {} p { s.part p with abort := some ⟨frame, v, streams⟩, nextStart := none })).trans rfl
  unfold State.dropWaits
  split
  · exact hset
  · dsimp only
    split
    · rw [State.endHoldWith_eq]
      exact (congrArg Part.besideAbort (SMap.get_mapVals_set_same s.parts {} _ p _ fun h => absurd (congrArg Part.abort h) (by simp))).trans
        (Part.chargeHold_besideAbort ..)
    · exact hset

theorem State.abortHere_besideAbort (s : State) (p frame : Nat) (v : VariantSel) (streams : Line) :
    ((s.abortHere p frame v streams).part p).besideAbort = (s.part p).besideAbort := by
  obtain ⟨a, h⟩ | h | ⟨-, h⟩ := s.abortHere_cases p frame v streams <;> rw [h]
  · rw [State.part_setPart, if_pos rfl]
    rfl
  · exact s.beginAbort_dropWaits_besideAbort p frame v streams

theorem State.flood_mem (s : State) (except : Option Nat) (m : LinkMsg) : (s.flood except m).mem = s.mem := by rw [State.flood_frame]

theorem State.flood_parts (s : State) (except : Option Nat) (m : LinkMsg) : (s.flood except m).parts = s.parts := by
  rw [State.flood_frame]

/-- The machine that has counted one more abort event. -/
def State.abortCounted (s : State) : State := { s with fu := { s.fu with aborts := s.fu.aborts + 1 } }

theorem State.fault_eq_abortOne {f : FaultInfo} (htag : Tag.isPart f.tag = true) :
    s.fault f = (s.faultDrop f).abortCounted.abortOne f.code .unchanged f.tag.toNat := by
  rw [State.fault, State.abortTag, if_pos htag, State.abortAll, List.isEmpty_cons, if_neg Bool.false_ne_true, List.foldl_cons,
    List.foldl_nil]
  rfl

/-- A fault of a partition's operation does to the memory and to the partitions what that partition's abort does. -/
theorem State.fault_abortHere {f : FaultInfo} (htag : Tag.isPart f.tag = true) :
    ∃ (u : State) (frame : Nat) (streams : Line), u.mem = s.mem ∧ u.parts = s.parts ∧
      (s.fault f).mem = (u.abortHere f.tag.toNat frame .unchanged streams).mem ∧
      (s.fault f).parts = (u.abortHere f.tag.toNat frame .unchanged streams).parts := by
  have hbeside := s.faultDrop_besideReport f
  obtain ⟨streams, seen, m, h⟩ := (s.faultDrop f).abortCounted.abortOne_eq f.code .unchanged f.tag.toNat
  rw [← State.fault_eq_abortOne htag] at h
  refine ⟨(s.faultDrop f).abortCounted, (s.faultDrop f).abortCounted.fu.frame, streams, congrArg (·.2.1) hbeside, congrArg (·.2.2.1) hbeside, ?_, ?_⟩
  · rw [h, State.flood_mem, State.withSeenAborts]
  · rw [h, State.flood_parts, State.withSeenAborts]

/-- An engine that runs no job runs none after a fault of a partition's operation. -/
theorem State.fault_idle {f : FaultInfo} {k : Nat} (htag : Tag.isPart f.tag = true) (honce : SMap.listedOnce s.mem.engines k)
    (hidle : (s.engine k).running = none) : ((s.fault f).engine k).running = none := by
  obtain ⟨u, frame, streams, hmem, -, hfault, -⟩ := State.fault_abortHere (s := s) htag
  have hisNone : (s.engine k).running.isNone = true := by rw [hidle]; rfl
  rw [← Option.isNone_iff_eq_none, State.engine, hfault]
  obtain h | h := u.abortHere_mem f.tag.toNat frame .unchanged streams <;> rw [h, hmem]
  · exact hisNone
  · exact (SMap.view_get_mapVals_of_once (fun x : Engine => x.running.isNone) s.mem.engines {}
      (fun _ x => x.voided f.tag.toNat) k honce fun x => Option.isNone_map).trans hisNone

/-- A fault of a partition's operation leaves of that partition all but the abort. -/
theorem State.fault_besideAbort {f : FaultInfo} (htag : Tag.isPart f.tag = true) :
    ((s.fault f).part f.tag.toNat).besideAbort = (s.part f.tag.toNat).besideAbort := by
  obtain ⟨u, frame, streams, -, hparts, -, hfault⟩ := State.fault_abortHere (s := s) htag
  rw [State.part_congr hfault, State.abortHere_besideAbort, State.part_congr hparts]

/-! ## Result buffers -/

/-- Values put under consecutive keys, each in the place of what stood there. -/
def SMap.putRun {α β : Type} (g : β → α) (r : Nat) (m : SMap α) (ls : List (β × Nat)) : SMap α :=
  ls.foldl (fun m v => SMap.put (SMap.drop m (r + v.2)) (r + v.2) (g v.1)) m

theorem SMap.get_putRun_below {α β : Type} [DecidableEq α] (g : β → α) (r : Nat) (d : α) (ls : List β) {n k : Nat} (hk : k < r + n)
    (m : SMap α) : SMap.get (SMap.putRun g r m (ls.zipIdx n)) d k = SMap.get m d k := by
  induction ls generalizing n m with
  | nil => rfl
  | cons l ls ih =>
    rw [List.zipIdx_cons]
    refine (ih (n := n + 1) (by omega) _).trans ?_
    rw [SMap.get_put_other _ _ _ _ _ (by omega), SMap.get_drop_other _ _ _ _ (by omega)]

theorem SMap.get_putRun {α β : Type} [DecidableEq α] (g : β → α) (r : Nat) (d : α) (ls : List β) (n : Nat) (m : SMap α) {k : Nat} {l : β}
    (hl : ls[k]? = some l) : SMap.get (SMap.putRun g r m (ls.zipIdx n)) d (r + n + k) = g l := by
  induction ls generalizing n m k with
  | nil => cases hl
  | cons x ls ih =>
    rw [List.zipIdx_cons]
    cases k with
    | zero =>
      obtain rfl : x = l := by simpa using hl
      refine (SMap.get_putRun_below g r d ls (n := n + 1) (by omega) _).trans ?_
      exact SMap.get_put_same _ _ _ _ fun p hp => by simpa using (List.mem_filter.1 hp).2
    | succ k =>
      have h := ih (n + 1) (SMap.put (SMap.drop m (r + n)) (r + n) (g x)) (by simpa using hl)
      rwa [show r + (n + 1) + k = r + n + (k + 1) by omega] at h

/-- Result lines written where no flag is set (R233). -/
theorem State.putResults_free (s : State) (e cycle : Nat) (j : Job) (ls : List Line)
    (hfree : ∀ k, k < ls.length → (s.engine e).results.any (fun r => decide (r.1 = j.rslot + k)) = false) :
    s.putResults e cycle j ls =
      s.updEngine e (fun x => { x with results := SMap.putRun (fun l => ⟨j.tag, j.xfer, l⟩) j.rslot x.results ls.zipIdx }) := by
  have hnone : (List.range ls.length).find? (fun k => (s.engine e).results.any (fun r => decide (r.1 = j.rslot + k))) = none :=
    List.find?_eq_none.2 fun k hk => by rw [hfree k (List.mem_range.1 hk)]; decide
  unfold State.putResults
  dsimp only
  rw [hnone]
  rfl

end Sys2Proof.Machine
end

section
/-! Certificate of O26: the ends of jobs, and rows without an unmasked position (R230, R233-R236). -/

namespace Sys2Proof.Machine

variable {s : State} {e rc cycles : Nat} {j : Job}

/-- The machine whose engine `e` has ended its job. -/
def State.jobEnded (s : State) (e : Nat) : State := s.updEngine e (fun x => { x with running := none, buffer := [] })

theorem State.jobEnded_engine (s : State) (e : Nat) :
    (s.jobEnded e).engine e = { s.engine e with running := none, buffer := [] } := s.engine_updEngine_same e _

/-- The job as it ends: at a prompt engine its input stands in the local buffer (R237). -/
def State.endingJob (s : State) (e : Nat) (j : Job) : Job := if e < 16 then j else { j with input := (s.engine e).buffer }

/-- A job that is neither bad nor void ends with its results or refusal. -/
theorem exec_engineJobEnd (unit : Fin 24) (hrun : (s.engine unit.val).running = some j) (hbad : j.bad = false) (hvoid : j.void = false) :
    exec (.engineJobEnd unit rc cycles [] none false) s =
      .next ((s.jobEnded unit.val).finishJob unit.val rc (s.endingJob unit.val j) cycles [] none) := by
  have hkept : (s.endingJob unit.val j).bad = false ∧ (s.endingJob unit.val j).void = false := by
    unfold State.endingJob
    split <;> exact ⟨hbad, hvoid⟩
  change execEngineJobEnd unit rc cycles [] none false s = _
  unfold execEngineJobEnd
  dsimp only
  rw [hrun]
  dsimp only
  rw [show (if unit.val < 16 then j else { j with input := (s.engine unit.val).buffer }) = s.endingJob unit.val j from rfl, hkept.1, hkept.2]
  rfl

/-! ## Attends -/

/-- The machine that has counted an attend and the bytes that a generation engine reads of its stack for it (R234, R242). -/
def State.attendCounted (s : State) (e : Nat) (j : Job) (lines : Nat) : State :=
  (s.updPart j.tag.toNat (fun p => { p with attends := p.attends + 1 })).updStack e (fun x => { x with engBytes := x.engBytes + 128 * lines })

theorem Job.op_one_ne_three (h : j.op = 1) : (j.op = 3) = False := by simp [h]

/-- An attend over sound pages of its own ends with its result lines (R234-R236). -/
theorem State.finishAttend_sound (hop : j.op = 1) {pages : List Nat}
    (hpages : (j.pages (s.ctxAt j.stream)).filter (fun p => decide ((s.ctxAt j.stream).engineOf p = e)) = pages)
    (hown : ∀ p ∈ pages, s.pageBad (s.ctxAt j.stream) p = false)
    (hsound : ∀ p ∈ pages, s.pageSound (s.ctxAt j.stream) p (j.qpos + j.n - 1) = true)
    (hlost : ∀ p ∈ pages, ∀ a ∈ s.pageReads (s.ctxAt j.stream) p, s.mem.lost.contains a = false) :
    ∃ u : State, u.besideReads = (s.attendCounted e j 0).besideReads ∧
      s.finishAttend e rc j cycles [] none =
        u.putResults e (s.cycleAt rc) j (s.rowsOf j (s.ctxAt j.stream) pages e) := by
  let reads := (pages.map (fun p => s.pageReads (s.ctxAt j.stream) p)).flatten
  have hreads : ∀ a ∈ reads, (s.attendCounted e j reads.length).mem.lost.contains a = false := by
    intro a ha
    obtain ⟨l, hl, hal⟩ := List.mem_flatten.1 ha
    obtain ⟨p, hp, rfl⟩ := List.mem_map.1 hl
    exact hlost p hp a hal
  obtain ⟨hok, hbeside⟩ := (s.attendCounted e j reads.length).fetchLines_sound (queueAt e) j.tag rc
    (poisonedLine e j.tag (s.cycleAt rc)) reads hreads
  have hbad : pages.any (fun p => s.pageBad (s.ctxAt j.stream) p) = false :=
    List.any_eq_false.2 fun p hp h => Bool.noConfusion ((hown p hp).symm.trans h)
  refine ⟨_, hbeside, ?_⟩
  unfold State.finishAttend
  simp only [if_pos hop, hpages, Job.op_one_ne_three hop, if_false]
  rw [if_neg (ne_true_of_eq_false hbad)]
  refine (if_neg (ne_false_of_eq_true hok)).trans ((if_neg (ne_false_of_eq_true ?_)).trans rfl)
  exact List.all_eq_true.2 hsound

/-- The result lines of an attend stand from RSLOT on, tagged (R233, R235). -/
theorem engineJobEnd_attends (unit : Fin 24) (rc cycles : Nat) (j : Job) (s : State) :
    let e := unit.val
    let c := s.ctxAt j.stream
    let pages := (j.pages c).filter (fun p => decide (c.engineOf p = e))
    let ls := s.rowsOf j c pages e
    e < 16 → (s.engine e).running = some j → j.op = 1 → j.bad = false → j.void = false →
    (∀ p ∈ pages, s.pageBad c p = false ∧ s.pageSound c p (j.qpos + j.n - 1) = true) →
    (∀ p ∈ pages, ∀ a ∈ s.pageReads c p, s.mem.lost.contains a = false) →
    (∀ k, k < ls.length → (s.engine e).results.any (fun r => decide (r.1 = j.rslot + k)) = false) →
    ∃ t, exec (.engineJobEnd unit rc cycles [] none false) s = .next t ∧ (t.engine e).running = none ∧ t.mem.data = s.mem.data ∧
      (∀ k l, ls[k]? = some l → SMap.get (t.engine e).results ⟨0xFE, 0, 0⟩ (j.rslot + k) = ⟨j.tag, j.xfer, l⟩) ∧
      (t.part j.tag.toNat).attends = (s.part j.tag.toNat).attends + 1 := by
  intro e c pages ls he hrun hop hbad hvoid hsound hlost hfree
  obtain ⟨u, hbeside, hfinish⟩ := State.finishAttend_sound (s := s.jobEnded e) (e := e) (rc := rc) hop (pages := pages) rfl
    (fun p hp => (hsound p hp).1) (fun p hp => (hsound p hp).2) hlost
  have hengine : u.engine e = { s.engine e with running := none, buffer := [] } :=
    (congrArg (fun v : State => v.engine e) hbeside).trans (s.jobEnded_engine e)
  have hpart : (u.part j.tag.toNat).attends = (s.part j.tag.toNat).attends + 1 :=
    (congrArg (fun v : State => (v.part j.tag.toNat).attends) hbeside).trans
      (congrArg Part.attends ((State.part_updPart (s.jobEnded e) _ _ (fun q => { q with attends := q.attends + 1 })).trans (if_pos rfl)))
  have hdata : u.mem.data = s.mem.data := (congrArg (fun v : State => v.mem.data) hbeside).trans rfl
  have hput := u.putResults_free e ((s.jobEnded e).cycleAt rc) j ls (fun k hk => by rw [hengine]; exact hfree k hk)
  refine ⟨_, exec_engineJobEnd unit hrun hbad hvoid, ?_⟩
  rw [State.endingJob, if_pos he, State.finishJob, if_pos (.inl hop), show unit.val = e from rfl, hfinish]
  rw [show (s.jobEnded e).rowsOf j ((s.jobEnded e).ctxAt j.stream) pages e = ls from rfl, hput, State.engine_updEngine_same, hengine]
  refine ⟨rfl, hdata, fun k l hl => ?_, hpart⟩
  exact SMap.get_putRun (fun l => (⟨j.tag, j.xfer, l⟩ : ResLine)) j.rslot ⟨0xFE, 0, 0⟩ ls 0 (s.engine e).results hl

/-! ## Appends -/

/-- What an append leaves alone: all but its stream, the lines of the stacks and the links (R225, R230). -/
def State.besideAppend (s : State) : State :=
  { s with links := [], mem := { s.mem with data := {}, written := [], parity := [], lost := [], ctx := [] } }

theorem State.append_besideAppend (s : State) (e : Nat) (j : Job) (c : Ctx) : (s.append e j c).besideAppend = s.besideAppend := by
  refine (foldl_keeps State.besideAppend (fun t p => t.sendOn 0 (s.entriesMsg j c p)) (fun t p => ?_) _ _).trans ?_
  · rw [State.sendOn_frame]
    rfl
  · exact congrArg (fun u : State => ({ u with links := [], mem := { u.mem with ctx := [] } } : State))
      (s.writeEntries_besideLines c j.qpos (j.entries c) (if e < 16 then some e else none))

/-- The lines that a generation engine's append reads arrive where they are sound (R217, R236). -/
theorem State.appendTraffic_sound (he : e < 16) (c : Ctx) (hlost : ∀ a ∈ s.appendReads j c e, s.mem.lost.contains a = false) :
    (s.appendTraffic e rc j c []).2 = true ∧ (s.appendTraffic e rc j c []).1.besideReads = s.besideReads := by
  have hsound := (s.updStack e (fun x => { x with engBytes := x.engBytes + 128 * (s.appendReads j c e).length })).fetchLines_sound none
    j.tag rc (poisonedLine e j.tag (s.cycleAt rc)) (s.appendReads j c e) hlost
  unfold State.appendTraffic
  dsimp only
  rw [queueAt, if_pos he, if_pos he]
  exact hsound

/-- An append within its tail and its pages leaves one line with its count and COMMITTED (R230, R233). -/
theorem engineJobEnd_appends (unit : Fin 24) (rc cycles : Nat) (j : Job) (s : State) :
    let e := unit.val
    let c := s.ctxAt j.stream
    e < 16 → (s.engine e).running = some j → j.op = 2 → j.bad = false → j.void = false → j.inTail c = true → s.mapped j c = true →
    (∀ a ∈ s.appendReads j c e, s.mem.lost.contains a = false) → (s.engine e).results.any (fun r => decide (r.1 = j.rslot)) = false →
    ∃ t, exec (.engineJobEnd unit rc cycles [] none false) s = .next t ∧ (t.engine e).running = none ∧
      SMap.get (t.engine e).results ⟨0xFE, 0, 0⟩ j.rslot = ⟨j.tag, j.xfer, lineOfWords [BitVec.ofNat 32 j.n, c.committed.setWidth 32]⟩ ∧
      (t.part j.tag.toNat).refusals = (s.part j.tag.toNat).refusals ∧ t.spad = s.spad := by
  intro e c he hrun hop hbad hvoid htail hmapped hlost hfree
  obtain ⟨hok, hbeside⟩ := State.appendTraffic_sound (s := s.jobEnded e) (rc := rc) he c hlost
  let u := ((s.jobEnded e).appendTraffic e rc j c []).1.append e j c
  have hkept : u.besideAppend.besideReads = (s.jobEnded e).besideAppend.besideReads :=
    (congrArg State.besideReads (State.append_besideAppend _ e j c)).trans (congrArg State.besideAppend hbeside)
  have hengine : u.engine e = { s.engine e with running := none, buffer := [] } :=
    (congrArg (fun v : State => v.engine e) hkept).trans (s.jobEnded_engine e)
  have hrefusals : (u.part j.tag.toNat).refusals = (s.part j.tag.toNat).refusals :=
    (congrArg (fun v : State => (v.part j.tag.toNat).refusals) hkept).trans rfl
  have hspad : u.spad = s.spad := (congrArg (fun v : State => v.spad) hkept).trans rfl
  have hput := u.putResults_free e (s.cycleAt rc) j [lineOfWords [BitVec.ofNat 32 j.n, c.committed.setWidth 32]] (fun k hk => by
    rw [hengine, show k = 0 by simpa using hk]
    exact hfree)
  have hfinish : (s.jobEnded e).finishAppend e rc j cycles [] =
      u.putResults e (s.cycleAt rc) j [lineOfWords [BitVec.ofNat 32 j.n, c.committed.setWidth 32]] := by
    unfold State.finishAppend
    simp only [if_pos he]
    exact (if_neg (ne_false_of_eq_true htail)).trans ((if_neg (ne_false_of_eq_true hmapped)).trans (if_neg (ne_false_of_eq_true hok)))
  refine ⟨_, exec_engineJobEnd unit hrun hbad hvoid, ?_⟩
  rw [State.endingJob, if_pos he, State.finishJob, if_neg (by omega), show unit.val = e from rfl, hfinish, hput,
    State.engine_updEngine_same, hengine]
  exact ⟨rfl, SMap.get_putRun (fun l => (⟨j.tag, j.xfer, l⟩ : ResLine)) j.rslot ⟨0xFE, 0, 0⟩
    [lineOfWords [BitVec.ofNat 32 j.n, c.committed.setWidth 32]] 0 (s.engine e).results (k := 0) rfl,
    hrefusals, hspad⟩

/-- The machine that has counted the refusal of an append (R230). -/
def State.refusalCounted (s : State) (p : Nat) : State := s.updPart p (fun q => { q with refusals := bump32 q.refusals })

/-- An append outside the tail's bounds is refused and writes nothing (R230). -/
theorem engineJobEnd_refuses (unit : Fin 24) (rc cycles : Nat) (j : Job) (s : State) :
    let e := unit.val
    (s.engine e).running = some j → (j.op = 2 ∨ j.op = 4) → j.bad = false → j.void = false → j.inTail (s.ctxAt j.stream) = false →
    j.tag.toNat < 128 →
    ∃ t, exec (.engineJobEnd unit rc cycles [] none false) s = .next t ∧ (t.engine e).running = none ∧ t.mem.data = s.mem.data ∧
      (t.part j.tag.toNat).refusals = bump32 (s.part j.tag.toNat).refusals ∧ AbortsIn j.tag.toNat s t := by
  intro e hrun hop hbad hvoid htail htag
  let f := engineFault 0x06 j.tag e (s.cycleAt rc) (tagDetail j.tag true)
  let u := (s.jobEnded e).refusalCounted j.tag.toNat
  have hpart : Tag.isPart f.tag = true := decide_eq_true htag
  have hfinish : (s.jobEnded e).finishJob e rc (s.endingJob e j) cycles [] none = u.fault f := by
    have hj : s.endingJob e j = { j with input := (s.endingJob e j).input } := by
      unfold State.endingJob
      split <;> rfl
    rw [hj, State.finishJob, if_neg (by simp only; omega)]
    exact if_pos htail
  refine ⟨_, exec_engineJobEnd unit hrun hbad hvoid, ?_⟩
  rw [show unit.val = e from rfl, hfinish]
  refine ⟨State.fault_idle hpart (SMap.listedOnce_set_same _ _ _ _) (congrArg Engine.running (s.jobEnded_engine e)),
    u.fault_mem_data f, ?_, ?_⟩
  · refine (congrArg Part.refusals (State.fault_besideAbort (s := u) hpart)).trans ?_
    exact congrArg Part.refusals ((State.part_updPart (s.jobEnded e) _ _ _).trans (if_pos rfl))
  · intro hbehind
    refine State.fault_aborts (s := u) f hpart ?_
    rw [show u.part f.tag.toNat = _ from (State.part_updPart (s.jobEnded e) _ _ _).trans (if_pos rfl)]
    exact hbehind

/-! ## Rows without an unmasked position -/

theorem RowAcc.page_masked (a : RowAcc) (hd : Nat) (slots : List (Option (W32 × List W32))) (h : ∀ x ∈ slots, x = none) :
    a.page hd slots = a := by
  have hnone : slots.filterMap id = [] := List.filterMap_eq_nil_iff.2 h
  unfold RowAcc.page
  dsimp only
  rw [hnone]
  rfl

/-- A row whose positions are all masked is minus infinity with l and o zero, whatever the pages hold (R234). -/
theorem State.attendRow_masked (s : State) (c : Ctx) (pages : List Nat) (q : List KvBurst) (scale : W32) (pos window : Nat)
    (h : ∀ p ∈ pages, ∀ x ∈ c.pagePositions p, visible pos window x = false) :
    s.attendRow c pages q scale pos window = { m := 0xFF800000, l := 0, o := List.replicate c.hd 0, n := 0 } := by
  refine List.foldlRecOn (motive := (· = (⟨0xFF800000, 0, List.replicate c.hd 0, 0⟩ : RowAcc))) pages _ rfl ?_
  rintro _ rfl p hp
  split
  · rfl
  · refine RowAcc.page_masked _ _ _ fun x hx => ?_
    obtain ⟨y, hy, rfl⟩ := List.mem_map.1 hx
    exact if_neg (by rw [h p hp y.1 (List.fst_mem_of_mem_zipIdx hy)]; decide)

end Sys2Proof.Machine
end

section
open Sys2Proof Sys2Proof.Machine

/-- Settles O26: `engineJobEnd_attends`, `engineJobEnd_appends` and `engineJobEnd_refuses` for the ends of jobs, and
`State.attendRow_masked` for a row without an unmasked position. -/
theorem engineJobsEndAndMaskedRows : Obligations.EngineJobsEndAndMaskedRows := by
  unfold Obligations.EngineJobsEndAndMaskedRows
  exact ⟨⟨engineJobEnd_attends, engineJobEnd_appends, engineJobEnd_refuses⟩, State.attendRow_masked⟩

end

section
/-! Certificate of O42: the life of a partition (R221, R246, R247, R249, R269, R270, R353, R360, R387, R523), a lemma for each stage. -/

namespace Sys2Proof.Machine

variable {s t u : State} {part : PartNo}

/-! ## Records of a partition's stages change the recorder only (R493, R503) -/

/-- All of the machine but the event recorder. -/
def State.besideRecd (s : State) : State := { s with recd := {} }

theorem State.eq_of_besideRecd (h : t.besideRecd = s.besideRecd) : t = { s with recd := t.recd } :=
  calc t = { t.besideRecd with recd := t.recd } := rfl
    _ = _ := by rw [h]; rfl

theorem State.appliedRec_besideRecd (s : State) (index sub : Nat) (v : BitVec 64) (frame : Nat) :
    (s.appliedRec index sub v frame).besideRecd = s.besideRecd := by
  unfold State.appliedRec
  split <;> rfl

theorem State.part_of_besideRecd (h : t.besideRecd = s.besideRecd) (k : Nat) : t.part k = s.part k := by
  rw [State.eq_of_besideRecd h]
  rfl

theorem State.withdrawnRec_besideRecd (s : State) (p sub : Nat) (v : BitVec 64) :
    (s.withdrawnRec p sub v).besideRecd = s.besideRecd := by
  rw [State.withdrawnRec, State.record_frame]
  rfl

theorem State.dropStaged_frame (s : State) (p : Nat) : s.dropStaged p = { s with recd := (s.dropStaged p).recd } := by
  apply State.eq_of_besideRecd
  unfold State.dropStaged
  dsimp only
  (repeat' split) <;> simp only [State.withdrawnRec_besideRecd]

/-! ## Loading (R246, R365, R387) -/

theorem exec_loadingComplete (hst : (s.part part.toNat).st = .loading) (hloaded : (s.part part.toNat).loaded = false)
    (hready : s.blocksReady part.toNat = true) :
    exec (.loadingComplete part) s =
      .next (if s.tagsAgree part.toNat then s.setPart part.toNat { s.part part.toNat with loaded := true } else s.twilight 0x0B) := by
  change execLoadingComplete part s = _
  unfold execLoadingComplete
  dsimp only
  rw [if_pos ⟨hst, hloaded, hready⟩]
  split <;> rfl

/-- Tags that differ as they are read back decide Twilight (R365, R387). -/
theorem loadingComplete_decides (part : PartNo) (s : State) (hst : (s.part part.toNat).st = .loading)
    (hloaded : (s.part part.toNat).loaded = false) (hready : s.blocksReady part.toNat = true) (htags : s.tagsAgree part.toNat = false)
    (hhealth : s.health.st = 0) (hnone : s.health.decided = none) :
    ∃ t, exec (.loadingComplete part) s = .next t ∧ t.health.decided = some 0x0B ∧ t.parts = s.parts := by
  refine ⟨_, exec_loadingComplete hst hloaded hready, ?_⟩
  rw [htags, if_neg Bool.false_ne_true]
  obtain ⟨flag, hdecides⟩ := s.twilight_decides 0x0B hhealth hnone
  exact ⟨by rw [hdecides]; rfl, by rw [State.twilight_frame]⟩

/-- A partition whose blocks are zeroed and whose tags agree is loaded (R247, R365). -/
theorem loadingComplete_loads (part : PartNo) (s : State) (hst : (s.part part.toNat).st = .loading)
    (hready : s.blocksReady part.toNat = true) (htags : s.tagsAgree part.toNat = true) :
    ∃ t, exec (.loadingComplete part) s = .next t ∧ t = { s with parts := t.parts } ∧
      t.part part.toNat = { s.part part.toNat with loaded := true } ∧ ∀ k, k ≠ part.toNat → t.part k = s.part k := by
  cases hloaded : (s.part part.toNat).loaded with
  | false =>
    refine ⟨_, exec_loadingComplete hst hloaded hready, ?_⟩
    rw [if_pos htags]
    exact ⟨rfl, (State.part_setPart ..).trans (if_pos rfl), fun k hk => (State.part_setPart ..).trans (if_neg hk)⟩
  | true =>
    refine ⟨s, if_neg fun h => ?_, rfl, ?_, fun _ _ => rfl⟩
    · rw [hloaded] at h
      exact Bool.noConfusion h.2.1
    · exact hloaded ▸ rfl

/-! ## Start (R247) -/

/-- A partition that starts: Serving with all its arrays Resident, else Streaming, its first step in this frame (R246, R247). -/
def Part.startedAt (q : Part) (resident : Bool) (frame : Nat) : Part :=
  { q with
    st := if resident then .serving else .streaming, startF := none, nextStart := some frame, halt := false, relock := false,
    startIn := if q.startF.isSome then q.startF else q.startIn }

/-- The machine whose partition has started, before the layers that run streamed are known. -/
def State.started (s : State) (p : Nat) : State := s.updPart p (fun q => q.startedAt (s.allResident p) s.fu.frame)

/-- A start that writes no base table changes the partition only (R246). -/
theorem State.startPart_eq (s : State) (p : Nat) {fw : Boundary} (hbases : fw.bases = []) :
    s.startPart p fw = (s.started p).updPart p (fun q => { q with streams := (s.started p).streamRequest p ||| fw.streams }) := by
  exact congrArg (State.writeBases _ p) hbases

/-- All of the machine but its partitions and the event recorder. -/
def State.besideStart (s : State) : State := { s with parts := [], recd := {} }

theorem State.eq_of_besideStart (h : t.besideStart = s.besideStart) : t = { s with parts := t.parts, recd := t.recd } :=
  calc t = { t.besideStart with parts := t.parts, recd := t.recd } := rfl
    _ = _ := by rw [h]; rfl

theorem State.updPart_besideStart (s : State) (p : Nat) (f : Part → Part) : (s.updPart p f).besideStart = s.besideStart := rfl

theorem State.startPart_besideStart (s : State) (p : Nat) {fw : Boundary} (hbases : fw.bases = []) :
    (s.startPart p fw).besideStart = s.besideStart := by
  rw [State.startPart_eq s p hbases, State.updPart_besideStart, State.started, State.updPart_besideStart]

theorem State.part_startPart (s : State) (p : Nat) {fw : Boundary} (hbases : fw.bases = []) :
    (s.startPart p fw).part p =
      { (s.part p).startedAt (s.allResident p) s.fu.frame with streams := (s.started p).streamRequest p ||| fw.streams } := by
  rw [State.startPart_eq s p hbases, State.part_updPart, if_pos rfl, State.started, State.part_updPart, if_pos rfl]

theorem State.part_startPart_other (s : State) (p : Nat) {fw : Boundary} (hbases : fw.bases = []) {k : Nat} (hk : k ≠ p) :
    (s.startPart p fw).part k = s.part k := by
  rw [State.startPart_eq s p hbases, State.part_updPart, if_neg hk, State.started, State.part_updPart, if_neg hk]

theorem exec_partitionStart {fw : Boundary} {f : Nat} (halive : s.alive = true) (hmode : s.ledger.mode ≠ 2)
    (hstart : (s.part part.toNat).startF = some f) (hst : (s.part part.toNat).st = .loading) (hf : f ≤ s.fu.frame)
    (hframe : s.fu.frame % 4096 = 0) (hall : (s.part part.toNat).allLoaded = true) (hfit : s.delaysFit (s.part part.toNat) = true) :
    exec (.partitionStart part fw) s =
      .next ((s.startPart part.toNat fw).appliedRec (partIndex part.toNat) 0x07 (BitVec.ofNat 64 f) f) := by
  have hreturns : s.returnsNow part.toNat (s.part part.toNat) = false := by simp [State.returnsNow, hmode]
  have hresumes : s.resumesNow part.toNat (s.part part.toNat) = false := by simp [State.resumesNow, hst]
  change execPartitionStart part fw s = _
  unfold execPartitionStart
  dsimp only
  rw [hreturns, hresumes, hstart]
  dsimp only
  rw [Bool.or_false, Bool.and_false, Bool.false_and, if_neg Bool.false_ne_true,
    if_neg (by simp [halive, hst, hframe, hall, hfit, Nat.not_lt.2 hf])]

/-- The boundary of the start frame starts the partition (R246, R247). -/
theorem partitionStart_starts (part : PartNo) (fw : Boundary) (f : Nat) (s : State) :
    let q := s.part part.toNat
    s.alive = true → fw.bases = [] → s.ledger.mode ≠ 2 → q.startF = some f → q.st = .loading → f ≤ s.fu.frame → s.fu.frame % 4096 = 0 →
    q.allLoaded = true → s.delaysFit q = true →
    ∃ t, exec (.partitionStart part fw) s = .next t ∧ t = { s with parts := t.parts, recd := t.recd } ∧
      (t.part part.toNat).st = (if s.allResident part.toNat then .serving else .streaming) ∧
      (t.part part.toNat).nextStart = some s.fu.frame ∧ (t.part part.toNat).startF = none ∧
      (t.part part.toNat).startIn = some f ∧ ∀ k, k ≠ part.toNat → t.part k = s.part k := by
  intro q halive hbases hmode hstart hst hf hframe hall hfit
  have hrecd := (s.startPart part.toNat fw).appliedRec_besideRecd (partIndex part.toNat) 0x07 (BitVec.ofNat 64 f) f
  refine ⟨_, exec_partitionStart halive hmode hstart hst hf hframe hall hfit, ?_⟩
  simp only [State.part_of_besideRecd hrecd, State.part_startPart s part.toNat hbases]
  refine ⟨?_, rfl, rfl, rfl, ?_, fun k hk => State.part_startPart_other s part.toNat hbases hk⟩
  · exact State.eq_of_besideStart ((congrArg (fun u : State => ({ u with parts := [] } : State)) hrecd).trans
      (s.startPart_besideStart part.toNat hbases))
  · exact (if_pos (by rw [show (s.part part.toNat).startF = some f from hstart]; rfl)).trans hstart

/-! ## Close (R249, R353, R360) -/

/-- What the streams and the adapter of an account that is freed leave alone. -/
def State.besideAccount (p : Nat) (s : State) : Cells × SMap ArrayS × HostSide × SMap Tag × List Nat :=
  (s.spad, s.arrays, s.host, s.mem.granules, (s.part p).granules)

theorem State.part_granules_updPart (s : State) (p k : Nat) (f : Part → Part) (hf : ∀ q, (f q).granules = q.granules) :
    ((s.updPart k f).part p).granules = (s.part p).granules := by
  rw [State.part_updPart]
  split
  next h => rw [hf, h]
  next => rfl

theorem State.updPart_besideAccount (s : State) (p k : Nat) (f : Part → Part) (hf : ∀ q, (f q).granules = q.granules) :
    (s.updPart k f).besideAccount p = s.besideAccount p :=
  congrArg (fun gs => (s.spad, s.arrays, s.host, s.mem.granules, gs)) (s.part_granules_updPart p k f hf)

theorem State.giveChunks_accts (s : State) (k q n : Nat) : (s.giveChunks k q n).accts = s.accts := by
  unfold State.giveChunks
  split <;> rfl

theorem State.giveChunks_besideAccount (s : State) (p k q n : Nat) : (s.giveChunks k q n).besideAccount p = s.besideAccount p := by
  unfold State.giveChunks
  split
  · rfl
  · exact s.updPart_besideAccount p k _ fun _ => rfl

theorem State.dropStream_besideAccount (s : State) (p key : Nat) : (s.dropStream key).besideAccount p = s.besideAccount p := by
  unfold State.dropStream
  dsimp only
  refine (State.updPart_besideAccount _ p _ _ fun _ => by rfl).trans ?_
  refine (State.giveChunks_besideAccount _ p _ _ _).trans ?_
  exact foldl_keeps (State.besideAccount p) _ (fun t l => t.giveChunks_besideAccount p _ _ _) _ s

theorem State.dropStream_accts (s : State) (key : Nat) : (s.dropStream key).accts = s.accts := by
  unfold State.dropStream
  dsimp only
  refine Eq.trans (State.giveChunks_accts _ _ _ _) ?_
  exact foldl_keeps State.accts _ (fun t l => t.giveChunks_accts _ _ _) _ s

theorem State.dropStreams_besideAccount (s : State) (p k a : Nat) : (s.dropStreams k a).besideAccount p = s.besideAccount p :=
  foldl_keeps (State.besideAccount p) (fun t key => t.dropStream key) (fun t key => t.dropStream_besideAccount p key) _ s

theorem State.dropStreams_accts (s : State) (k a : Nat) : (s.dropStreams k a).accts = s.accts :=
  foldl_keeps State.accts (fun t key => t.dropStream key) (fun t key => t.dropStream_accts key) _ s

theorem State.dropAdapter_besideAccount (s : State) (p k a : Nat) : (s.dropAdapter k a).besideAccount p = s.besideAccount p := by
  unfold State.dropAdapter
  split
  · rfl
  · exact s.giveChunks_besideAccount p _ _ _

theorem SMap.of_mem_set {α : Type} [DecidableEq α] {m : SMap α} {d v : α} {n : Nat} {x : Nat × α} (h : x ∈ SMap.set m d n v) :
    x = (n, v) ∨ x ∈ m ∧ x.1 ≠ n := by
  have hdrop (hx : x ∈ SMap.drop m n) : x ∈ m ∧ x.1 ≠ n := by simpa [SMap.drop] using hx
  unfold SMap.set at h
  split at h
  · exact .inr (hdrop h)
  · exact ((SMap.mem_put _ _ _ _).1 h).imp_right hdrop

theorem SMap.of_mem_set_default {α : Type} [DecidableEq α] {m : SMap α} {d : α} {n : Nat} {x : Nat × α} (h : x ∈ SMap.set m d n d) :
    x ∈ m ∧ x.1 ≠ n := by
  rw [SMap.set, if_pos rfl] at h
  simpa [SMap.drop] using h

theorem State.of_mem_dropAdapter_accts {p a : Nat} {x : Nat × Account} (h : x ∈ (s.dropAdapter p a).accts) : x ∈ s.accts ∨ x.1 = a := by
  unfold State.dropAdapter at h
  split at h
  · exact .inl h
  next q _ =>
    obtain hx | ⟨hx, -⟩ := SMap.of_mem_set (m := (s.giveChunks p q (adapterChunks (s.acct a).asize.toNat)).accts) h
    · exact .inr (congrArg Prod.fst hx)
    · exact .inl (s.giveChunks_accts .. ▸ hx)

/-- An account that is freed leaves the others (R249). -/
theorem State.of_mem_freeAccount_accts {a : Nat} {x : Nat × Account} (h : x ∈ (s.freeAccount a).accts) : x ∈ s.accts ∧ x.1 ≠ a := by
  obtain ⟨hx, hne⟩ := SMap.of_mem_set_default
    (m := ((s.dropStreams (s.acct a).part.toNat a).dropAdapter (s.acct a).part.toNat a).accts) (d := {}) h
  obtain hx | hx := State.of_mem_dropAdapter_accts hx
  · exact ⟨s.dropStreams_accts .. ▸ hx, hne⟩
  · exact absurd hx hne

theorem State.freeAccount_besideAccount (s : State) (p a : Nat) : (s.freeAccount a).besideAccount p = s.besideAccount p :=
  (State.dropAdapter_besideAccount _ p _ _).trans (s.dropStreams_besideAccount p _ _)

/-- The machine without the accounts of slots `l`. -/
def State.freeAccounts (s : State) (l : List Nat) : State := l.foldl (fun t a => t.freeAccount a) s

theorem State.of_mem_freeAccounts_accts {l : List Nat} {x : Nat × Account} (h : x ∈ (s.freeAccounts l).accts) : x ∈ s.accts ∧ x.1 ∉ l := by
  induction l generalizing s with
  | nil => exact ⟨h, List.not_mem_nil⟩
  | cons a l ih =>
    obtain ⟨hx, hl⟩ := ih (s := s.freeAccount a) h
    obtain ⟨hx, ha⟩ := State.of_mem_freeAccount_accts hx
    exact ⟨hx, by simp [ha, hl]⟩

/-- Every account of a partition is freed with its slots. -/
theorem State.freeAccounts_leaves_none (s : State) (p : Nat) :
    ∀ x ∈ (s.freeAccounts ((s.accts.filter (fun x => decide (x.2.part.toNat = p))).map (fun x => x.1))).accts, x.2.part.toNat ≠ p := by
  intro x hx hpart
  obtain ⟨hmem, hfree⟩ := State.of_mem_freeAccounts_accts hx
  exact hfree (List.mem_map.2 ⟨x, List.mem_filter.2 ⟨hmem, decide_eq_true hpart⟩, rfl⟩)

theorem State.freeAccounts_besideAccount (s : State) (p : Nat) (l : List Nat) : (s.freeAccounts l).besideAccount p = s.besideAccount p :=
  foldl_keeps (State.besideAccount p) (fun t a => t.freeAccount a) (fun t a => t.freeAccount_besideAccount p a) l s

/-! ## What follows the close (R246, R360) -/

/-- What the end of a partition's closing leaves alone. -/
def State.besideClose (s : State) : Cells × SMap ArrayS × SMap Account := (s.spad, s.arrays, s.accts)

/-- What sessions and windows of a closed partition that end do from `t` to `u`: partition `p` stays as it is or becomes Free, keys and tagged
granules only leave, and granules only join those that wait for zeroing. -/
structure State.WindsUp (p : Nat) (t u : State) : Prop where
  beside : u.besideClose = t.besideClose
  course : u.part p = t.part p ∨ u.part p = {}
  keys : u.mem.keys ⊆ t.mem.keys
  granules : u.mem.granules ⊆ t.mem.granules
  zeroing : t.mem.zeroing ⊆ u.mem.zeroing

theorem State.WindsUp.refl (p : Nat) (t : State) : State.WindsUp p t t :=
  ⟨rfl, .inl rfl, List.Subset.refl _, List.Subset.refl _, List.Subset.refl _⟩

theorem State.WindsUp.trans {p : Nat} (h : State.WindsUp p s t) (h' : State.WindsUp p t u) : State.WindsUp p s u :=
  ⟨h'.beside.trans h.beside, h'.course.elim (fun hu => hu ▸ h.course) .inr, List.Subset.trans h'.keys h.keys,
    List.Subset.trans h'.granules h.granules, List.Subset.trans h.zeroing h'.zeroing⟩

/-- A change of the host side winds nothing up. -/
theorem State.WindsUp.of_host (p : Nat) (t : State) (x : HostSide) : State.WindsUp p t { t with host := x } :=
  ⟨rfl, .inl rfl, List.Subset.refl _, List.Subset.refl _, List.Subset.refl _⟩

theorem State.windsUp_dropGranules (p k : Nat) (t : State) : State.WindsUp p t (t.dropGranules k) :=
  ⟨rfl, .inl rfl, List.filter_subset_self _, List.filter_subset_self _, List.subset_append_left _ _⟩

theorem State.windsUp_releaseGranules (p k : Nat) (t : State) : State.WindsUp p t (t.releaseGranules k) := by
  unfold State.releaseGranules
  split
  · exact t.windsUp_dropGranules p k
  · exact .refl p t

theorem State.windsUp_setPart {p : Nat} (k : Nat) (v : Part) (t : State) (h : (t.setPart k v).part p = t.part p ∨ (t.setPart k v).part p = {}) :
    State.WindsUp p t (t.setPart k v) := ⟨rfl, h, List.Subset.refl _, List.Subset.refl _, List.Subset.refl _⟩

theorem State.windsUp_tryFreePart (p k : Nat) (t : State) : State.WindsUp p t (t.tryFreePart k) := by
  unfold State.tryFreePart
  dsimp only
  split
  · refine State.windsUp_setPart k {} t ?_
    rw [State.part_setPart]
    split
    · exact .inr rfl
    · exact .inl rfl
  · exact .refl p t

theorem State.windsUp_endRdma (p n : Nat) (t : State) : State.WindsUp p t (t.endRdma n) := by
  unfold State.endRdma
  split
  · exact .refl p t
  · exact (State.WindsUp.of_host p t _).trans (State.windsUp_releaseGranules p _ _)

theorem State.windsUp_freeSession (p : Nat) (n : SessNo) (t : State) : State.WindsUp p t (t.freeSession n) :=
  ((t.windsUp_endRdma p n.toNat).trans (.of_host p _ _)).trans (State.windsUp_tryFreePart p _ _)

theorem State.windsUp_beginClose (p : Nat) (n : SessNo) (t : State) : State.WindsUp p t (t.beginClose n) := by
  unfold State.beginClose State.tryFree
  dsimp only
  split
  · exact .refl p t
  · split
    · exact (State.WindsUp.of_host p t _).trans (State.windsUp_freeSession p n _)
    · exact .of_host p t _

/-! ## The close itself (R249) -/

/-- A partition that closes at its boundary (R249, R493). -/
def Part.closing (q : Part) : Part :=
  { q with
    st := .closing, closeIn := q.closeF, closeF := none, startF := none, switchF := none, stRecipe := none, resetF := none, nextStart := none,
    abort := none, runs := [], hosted := false, companion := 0xFE, staged := none }

/-- A partition whose companion closes names none (R270). -/
def Part.leftBy (p : Nat) (q : Part) : Part := if q.companion = BitVec.ofNat 8 p then { q with companion := 0xFE } else q

/-- The slots of a partition's accounts. -/
def State.accountSlots (s : State) (p : Nat) : List Nat := (s.accts.filter (fun x => decide (x.2.part.toNat = p))).map (fun x => x.1)

/-- The machine without the staged values and the accounts of a partition that closes. -/
def State.vacated (s : State) (p : Nat) : State := (s.dropStaged p).freeAccounts (s.accountSlots p)

/-- The same without the partition's state on the die, the close of its windows begun. -/
def State.emptied (s : State) (p : Nat) : State := ((s.vacated p).closeWindows (fun w => decide (w.tag.toNat = p))).evict p

/-- The machine at the boundary that closes a partition, before its granules leave and its sessions close. -/
def State.closed (s : State) (p : Nat) : State := ((s.emptied p).updPart p Part.closing).mapParts (fun _ q => q.leftBy p)

/-- The sessions of a partition (R353). -/
def State.boundSessions (s : State) (p : Nat) : List SessNo :=
  (s.host.sessions.filter (fun x => decide (x.2.part.toNat = p ∧ x.2.st ≠ .free))).map (fun x => BitVec.ofNat 12 x.1)

theorem State.closePartition_eq (s : State) (p : Nat) :
    s.closePartition p =
      (((s.closed p).boundSessions p).foldl (fun t n => t.beginClose n) ((s.closed p).releaseGranules p)).tryFreePart p := rfl

/-- What the eviction of a partition leaves alone (R246). -/
def State.besideEvict (s : State) : Cells × SMap ArrayS × SMap Account × SMap Part × SMap Tag :=
  (s.spad, s.arrays, s.accts, s.parts, s.mem.granules)

theorem State.revokeCredits_besideEvict (s : State) (p : Nat) : (s.revokeCredits p).besideEvict = s.besideEvict := by
  refine foldl_keeps State.besideEvict _ (fun t x => ?_) s.tiles s
  exact (foldl_keeps State.besideEvict (fun u (c : Nat × Credit) =>
    u.sendMsg x.1 c.2.writer.toNat 0 c.2.tag (u.now (u.realOf u.fu.cycle)) (.revoke c.1)) (fun _ _ => rfl) _ _).trans rfl

theorem State.evict_besideEvict (s : State) (p : Nat) : (s.evict p).besideEvict = s.besideEvict := by
  unfold State.evict
  dsimp only
  split <;> exact State.revokeCredits_besideEvict _ p

theorem State.vacated_besideAccount (s : State) (p : Nat) : (s.vacated p).besideAccount p = s.besideAccount p := by
  refine (State.freeAccounts_besideAccount _ p _).trans ?_
  rw [State.dropStaged_frame]
  rfl

theorem State.vacated_accts (s : State) (p : Nat) : ∀ x ∈ (s.vacated p).accts, x.2.part.toNat ≠ p := by
  have haccts : (s.dropStaged p).accts = s.accts := by rw [State.dropStaged_frame]
  have hnone := State.freeAccounts_leaves_none (s.dropStaged p) p
  rwa [haccts] at hnone

theorem State.emptied_besideEvict (s : State) (p : Nat) : (s.emptied p).besideEvict = (s.vacated p).besideEvict :=
  State.evict_besideEvict _ p

theorem State.emptied_windows (s : State) (p : Nat) :
    (s.emptied p).host.windows = (s.closeWindows (fun w => decide (w.tag.toNat = p))).host.windows := by
  have hhost : (s.vacated p).host = s.host := congrArg (·.2.2.1) (s.vacated_besideAccount p)
  refine (congrArg HostSide.windows (State.evict_beside _ p).2).trans ?_
  rw [State.closeWindows, hhost]
  rfl

/-! ### The closed partition -/

theorem State.closed_besideClose (s : State) (p : Nat) :
    (s.closed p).besideClose = (s.spad, s.arrays, (s.vacated p).accts) := by
  have hvacated := s.vacated_besideAccount p
  have hemptied := s.emptied_besideEvict p
  simp only [State.besideAccount, State.besideEvict, Prod.mk.injEq] at hvacated hemptied
  obtain ⟨hspad, harrays, -⟩ := hvacated
  obtain ⟨hspad', harrays', haccts', -⟩ := hemptied
  exact (congrArg₂ Prod.mk (hspad'.trans hspad) (congrArg₂ Prod.mk (harrays'.trans harrays) haccts'))

theorem Part.closing_ne_free (q : Part) : q.closing ≠ {} := fun h => by simpa [Part.closing] using congrArg Part.st h

theorem Part.leftBy_course (p : Nat) (q : Part) :
    (q.leftBy p).st = q.st ∧ (q.leftBy p).nextStart = q.nextStart ∧ (q.leftBy p).granules = q.granules := by
  unfold Part.leftBy
  split <;> exact ⟨rfl, rfl, rfl⟩

/-- The partition is Closing, with no step due and its granules still named. -/
theorem State.closed_part (s : State) (p : Nat) :
    ((s.closed p).part p).st = .closing ∧ ((s.closed p).part p).nextStart = none ∧
      ((s.closed p).part p).granules = (s.part p).granules := by
  have hpart : (s.closed p).part p = ((s.emptied p).part p).closing.leftBy p :=
    SMap.get_mapVals_set_same (s.emptied p).parts {} (fun _ q => q.leftBy p) p _ fun h => absurd h (Part.closing_ne_free _)
  have hgranules : ((s.emptied p).part p).granules = (s.part p).granules :=
    (congrArg Part.granules (State.part_congr (congrArg (·.2.2.2.1) (s.emptied_besideEvict p)) p)).trans
      (congrArg (·.2.2.2.2) (s.vacated_besideAccount p))
  obtain ⟨hst, hnext, hg⟩ := ((s.emptied p).part p).closing.leftBy_course p
  rw [hpart, hst, hnext, hg]
  exact ⟨rfl, rfl, hgranules⟩

/-- Once no operation holds a window of the closed partition, its key and granules leave and its granules wait for zeroing (R360). -/
theorem State.closed_releases (s : State) (p : Nat) (hidle : ∀ x ∈ s.host.windows, x.2.tag.toNat = p → x.2.busy = 0)
    (hsome : ∃ x ∈ s.mem.granules, x.2.toNat = p) :
    (s.closed p).releaseGranules p = (s.closed p).dropGranules p := by
  have hgranules : (s.closed p).mem.granules = s.mem.granules :=
    (congrArg (·.2.2.2.2) (s.emptied_besideEvict p)).trans (congrArg (·.2.2.2.1) (s.vacated_besideAccount p))
  have hwindows : (s.closed p).host.windows = (s.closeWindows (fun w => decide (w.tag.toNat = p))).host.windows := s.emptied_windows p
  refine if_pos ⟨(s.closed_part p).1, ?_, ?_⟩
  · obtain ⟨x, hx, hp⟩ := hsome
    exact List.any_eq_true.2 ⟨x, hgranules ▸ hx, decide_eq_true hp⟩
  · rw [hwindows]
    refine List.all_eq_true.2 fun x hx => ?_
    obtain ⟨y, hy, rfl⟩ := List.mem_map.1 hx
    have hbusy := hidle y hy
    split <;> simp only [decide_eq_true_eq] <;> tauto

theorem State.windsUp_closePartition (s : State) (p : Nat) :
    State.WindsUp p ((s.closed p).releaseGranules p) (s.closePartition p) := by
  rw [State.closePartition_eq]
  refine State.WindsUp.trans ?_ (State.windsUp_tryFreePart p p _)
  exact List.foldlRecOn (motive := State.WindsUp p _) _ _ (.refl p _) fun _ h n _ => h.trans (State.windsUp_beginClose p n _)

theorem State.closePartition_closes (s : State) (p : Nat) :
    (((s.closePartition p).part p).st = .closing ∨ ((s.closePartition p).part p).st = .free) ∧
      ((s.closePartition p).part p).nextStart = none ∧ (∀ x ∈ (s.closePartition p).accts, x.2.part.toNat ≠ p) ∧
      (s.closePartition p).spad = s.spad ∧ (s.closePartition p).arrays = s.arrays := by
  have hwinds := (State.windsUp_releaseGranules p p (s.closed p)).trans (s.windsUp_closePartition p)
  have hbeside := hwinds.beside.trans (s.closed_besideClose p)
  simp only [State.besideClose, Prod.mk.injEq] at hbeside
  obtain ⟨hspad, harrays, haccts⟩ := hbeside
  obtain ⟨hst, hnext, -⟩ := s.closed_part p
  refine ⟨?_, ?_, haccts ▸ s.vacated_accts p, hspad, harrays⟩
  · obtain h | h := hwinds.course
    · exact .inl (h ▸ hst)
    · exact .inr (h ▸ rfl)
  · obtain h | h := hwinds.course
    · exact h ▸ hnext
    · exact h ▸ rfl

theorem State.closePartition_releases (s : State) (p : Nat) (hidle : ∀ x ∈ s.host.windows, x.2.tag.toNat = p → x.2.busy = 0)
    (hsome : ∃ x ∈ s.mem.granules, x.2.toNat = p) :
    (∀ x ∈ (s.closePartition p).mem.keys, x.1 ≠ p) ∧ (∀ x ∈ (s.closePartition p).mem.granules, x.2.toNat ≠ p) ∧
      ∀ g ∈ (s.part p).granules, g ∈ (s.closePartition p).mem.zeroing := by
  have hwinds := s.windsUp_closePartition p
  rw [s.closed_releases p hidle hsome] at hwinds
  refine ⟨fun x hx => ?_, fun x hx => ?_, fun g hg => hwinds.zeroing (List.mem_append_right _ ?_)⟩
  · simpa using (List.mem_filter.1 (hwinds.keys hx)).2
  · simpa using (List.mem_filter.1 (hwinds.granules hx)).2
  · rwa [(s.closed_part p).2.2]

/-- The boundary of the close frame closes the partition (R249, R353, R360). -/
theorem partitionClose_closes (part : PartNo) (f : Nat) (s : State) :
    let q := s.part part.toNat
    s.alive = true → q.closeF = some f → q.steps = true → f ≤ s.fu.frame → q.nextStart = some s.fu.frame → s.workLeft part = false →
    ∃ t, exec (.partitionClose part) s = .next t ∧ ((t.part part.toNat).st = .closing ∨ (t.part part.toNat).st = .free) ∧
      (t.part part.toNat).nextStart = none ∧ (∀ x ∈ t.accts, x.2.part.toNat ≠ part.toNat) ∧ t.spad = s.spad ∧ t.arrays = s.arrays ∧
      ((∀ x ∈ s.host.windows, x.2.tag.toNat = part.toNat → x.2.busy = 0) → (∃ x ∈ s.mem.granules, x.2.toNat = part.toNat) →
        (∀ x ∈ t.mem.keys, x.1 ≠ part.toNat) ∧ (∀ x ∈ t.mem.granules, x.2.toNat ≠ part.toNat) ∧
        ∀ g ∈ q.granules, g ∈ t.mem.zeroing) := by
  intro q halive hclose hsteps hf hnext hwork
  let u := s.appliedRec (partIndex part.toNat) 0x08 (BitVec.ofNat 64 f) f
  have hu : u.besideRecd = s.besideRecd := s.appliedRec_besideRecd ..
  obtain ⟨hst, hnone, haccts, hspad, harrays⟩ := u.closePartition_closes part.toNat
  refine ⟨u.closePartition part.toNat, ?_, hst, hnone, haccts, hspad.trans ((congrArg State.spad hu).trans rfl),
    harrays.trans ((congrArg State.arrays hu).trans rfl), ?_⟩
  · change execPartitionClose part s = _
    unfold execPartitionClose
    dsimp only
    rw [show (s.part part.toNat).closeF = some f from hclose]
    dsimp only
    rw [if_neg (by simp [halive, show (s.part part.toNat).steps = true from hsteps, Nat.not_lt.2 hf, hwork,
      show (s.part part.toNat).nextStart = some s.fu.frame from hnext])]
  · intro hidle hsome
    have hwindows : u.host.windows = s.host.windows := (congrArg (fun v : State => v.host.windows) hu).trans rfl
    have hgranules : u.mem.granules = s.mem.granules := (congrArg (fun v : State => v.mem.granules) hu).trans rfl
    have hreleases := u.closePartition_releases part.toNat (hwindows ▸ hidle) (hgranules ▸ hsome)
    rwa [State.part_of_besideRecd hu] at hreleases

/-! ## The switch of the weights (R269, R270) -/

/-- A partition on its new weights (R269). -/
def Part.switched (q : Part) (i : StagedImage) : Part :=
  { q with
    st := .serving, repl := 0, allReady := false, version := i.version, digest := i.digest, staged := none, switchF := none, programmed := 0
    switchIn := if q.switchF.isSome then q.switchF else q.switchIn }

/-- The accounts pinned to the weights that a partition leaves. -/
def State.pinnedTo (s : State) (p : Nat) (v : BitVec 32) : List Nat :=
  (s.accts.filter (fun x => decide (x.2.part.toNat = p ∧ x.2.st ≠ .free ∧ x.2.pinned ≠ 0 ∧ x.2.pinned = v))).map (fun x => x.1)

/-- A partition's switch: its pinned accounts move to the companion, it runs on the new weights, the frame staged for it is logged. -/
def State.switchPart (s : State) (i : StagedImage) (p : Nat) : State :=
  let q := s.part p
  let moved := if Tag.isPart q.companion then (s.pinnedTo p q.version).foldl (fun u a => u.moveAcct a q.companion.toNat true) s else s
  let t := moved.setPart p (q.switched i)
  match q.switchF with
  | some f => t.appliedRec (partIndex p) 0x0A (BitVec.ofNat 64 f) f
  | none => t

/-- The machine with the new digital copies in their places and the new version in force at the base (R269). -/
def State.copiesPlaced (s : State) (base : Nat) (i : StagedImage) : State :=
  { s.placeCopies i with
    dict := { s.dict with bases := SMap.set s.dict.bases (0, 0) base ((SMap.get s.dict.bases (0, 0) base).1, i.version) }
    ledger := { s.ledger with switched := true } }

/-- What the switch of a partition leaves alone. -/
def State.besideSwitch (s : State) : Nat × SMap ArrayS × Cells × Dict := (s.free, s.arrays, s.spad, s.dict)

theorem State.moveAcct_besideSwitch (s : State) (a p : Nat) (toCompanion : Bool) : (s.moveAcct a p toCompanion).besideSwitch = s.besideSwitch :=
  (foldl_keeps State.besideSwitch (fun t k => t.updDesc k (fun c => { c with tag := BitVec.ofNat 8 p })) (fun _ _ => rfl) _ _).trans rfl

theorem State.switchPart_besideSwitch (s : State) (i : StagedImage) (p : Nat) : (s.switchPart i p).besideSwitch = s.besideSwitch := by
  have hmoved (l : List Nat) (k : Nat) : (l.foldl (fun u a => u.moveAcct a k true) s).besideSwitch = s.besideSwitch :=
    foldl_keeps State.besideSwitch (fun u a => u.moveAcct a k true) (fun u a => u.moveAcct_besideSwitch a k true) l s
  have hset : State.besideSwitch ((if Tag.isPart (s.part p).companion then (s.pinnedTo p (s.part p).version).foldl (fun u a =>
      u.moveAcct a (s.part p).companion.toNat true) s else s).setPart p ((s.part p).switched i)) = s.besideSwitch := by
    split
    · exact hmoved _ _
    · rfl
  unfold State.switchPart
  dsimp only
  split
  · exact (congrArg State.besideSwitch (State.appliedRec_besideRecd _ _ _ _ _)).trans hset
  · exact hset

theorem State.placeCopies_besideSwitch (s : State) (i : StagedImage) : (s.placeCopies i).besideSwitch = s.besideSwitch := by
  have hcopy (t : State) (src dst : Nat) : (t.copyGranule src dst).besideSwitch = t.besideSwitch :=
    (foldl_keeps State.besideSwitch (fun u l => u.setMemLine (granuleLines * dst + l % granuleLines) (t.readMem l)) (fun _ _ => rfl) _ _).trans rfl
  unfold State.placeCopies
  dsimp only
  split <;> simp only [hcopy]

/-- A partition runs on the weights of a staged image. -/
def Part.RunsOn (i : StagedImage) (q : Part) : Prop :=
  q.version = i.version ∧ q.digest = i.digest ∧ q.st = .serving ∧ q.repl = 0 ∧ q.switchF = none ∧ q.staged = none

theorem Part.switched_runsOn (q : Part) (i : StagedImage) : (q.switched i).RunsOn i := ⟨rfl, rfl, rfl, rfl, rfl, rfl⟩

theorem State.moveAcct_runsOn {i : StagedImage} {k : Nat} (a p : Nat) (toCompanion : Bool) (h : (s.part k).RunsOn i) :
    ((s.moveAcct a p toCompanion).part k).RunsOn i := by
  have hparts : (s.moveAcct a p toCompanion).parts = (s.updPart p (fun q => { q with hosted := q.hosted || toCompanion })).parts :=
    (foldl_keeps State.parts (fun t k => t.updDesc k (fun c => { c with tag := BitVec.ofNat 8 p })) (fun _ _ => rfl) _ _).trans rfl
  rw [State.part_congr hparts, State.part_updPart]
  split
  next hk => rw [hk] at h; exact h
  next => exact h

/-- A partition's switch puts it on the new weights and takes none off them. -/
theorem State.switchPart_runsOn (i : StagedImage) (p k : Nat) (h : k = p ∨ (s.part k).RunsOn i) : ((s.switchPart i p).part k).RunsOn i := by
  have hset : ((((if Tag.isPart (s.part p).companion then (s.pinnedTo p (s.part p).version).foldl (fun u a =>
      u.moveAcct a (s.part p).companion.toNat true) s else s).setPart p ((s.part p).switched i)).part k)).RunsOn i := by
    rw [State.part_setPart]
    split
    · exact Part.switched_runsOn _ i
    next hk =>
      have hon := h.resolve_left hk
      split
      · exact List.foldlRecOn (motive := fun u : State => (u.part k).RunsOn i) _ _ hon fun _ hu a _ => State.moveAcct_runsOn a _ true hu
      · exact hon
  unfold State.switchPart
  dsimp only
  split
  · rw [State.part_of_besideRecd (State.appliedRec_besideRecd _ _ _ _ _)]
    exact hset
  · exact hset

theorem State.switchParts_runsOn (i : StagedImage) (l : List Nat) (k : Nat) (h : k ∈ l ∨ (s.part k).RunsOn i) :
    ((l.foldl (fun t p => t.switchPart i p) s).part k).RunsOn i := by
  induction l generalizing s with
  | nil => exact h.resolve_left List.not_mem_nil
  | cons p l ih =>
    refine ih ?_
    obtain hk | hk := h
    · obtain rfl | hk := List.mem_cons.1 hk
      · exact .inr (State.switchPart_runsOn i k k (.inl rfl))
      · exact .inl hk
    · exact .inr (State.switchPart_runsOn i p k (.inr hk))

theorem exec_weightSwitch {base : BitVec 5} {i : StagedImage} {p f : Nat} (halive : s.alive = true) (hp : p ∈ s.attached base.toNat)
    (hswitch : (s.part p).switchF = some f) (hf : f ≤ s.fu.frame)
    (hready : ∀ k ∈ s.attached base.toNat, (s.part k).allReady = true ∧ (s.part k).repl = 3 ∧ s.atBoundary k = true)
    (hstaged : (s.attached base.toNat).findSome? (fun k => (s.part k).staged) = some i) :
    exec (.weightSwitch base) s =
      .next ((s.attached base.toNat).foldl (fun t p => t.switchPart i p) (s.copiesPlaced base.toNat i)) := by
  have hdue : (s.attached base.toNat).any (fun p => (s.part p).switchF.any (fun f => decide (f ≤ s.fu.frame))) = true :=
    List.any_eq_true.2 ⟨p, hp, by rw [hswitch]; exact decide_eq_true hf⟩
  have hall : (s.attached base.toNat).all (fun p => (s.part p).allReady && decide ((s.part p).repl = 3) && s.atBoundary p) = true :=
    List.all_eq_true.2 fun k hk => by
      obtain ⟨hallReady, hrepl, hboundary⟩ := hready k hk
      simp [hallReady, hrepl, hboundary]
  change execWeightSwitch base s = _
  unfold execWeightSwitch
  dsimp only
  rw [hdue, hall, halive, if_neg (by decide), hstaged]
  rfl

/-- At the boundary of the switch frame every attached partition runs the staged version (R269). -/
theorem weightSwitch_switches (base : BitVec 5) (i : StagedImage) (p f : Nat) (s : State) (halive : s.alive = true)
    (hp : p ∈ s.attached base.toNat) (hswitch : (s.part p).switchF = some f) (hf : f ≤ s.fu.frame)
    (hready : ∀ k ∈ s.attached base.toNat, (s.part k).allReady = true ∧ (s.part k).repl = 3 ∧ s.atBoundary k = true)
    (hstaged : (s.attached base.toNat).findSome? (fun k => (s.part k).staged) = some i) :
    ∃ t, exec (.weightSwitch base) s = .next t ∧ (SMap.get t.dict.bases (0, 0) base.toNat).2 = i.version ∧
      t.free = s.free ∧ t.arrays = s.arrays ∧ t.spad = s.spad ∧
      ∀ k ∈ s.attached base.toNat, (t.part k).version = i.version ∧ (t.part k).digest = i.digest ∧ (t.part k).st = .serving ∧
        (t.part k).repl = 0 ∧ (t.part k).switchF = none ∧ (t.part k).staged = none := by
  have hbeside := foldl_keeps State.besideSwitch (fun t p => t.switchPart i p) (fun t p => t.switchPart_besideSwitch i p)
    (s.attached base.toNat) (s.copiesPlaced base.toNat i)
  have hplaced := s.placeCopies_besideSwitch i
  simp only [State.besideSwitch, Prod.mk.injEq] at hbeside hplaced
  obtain ⟨hfree, harrays, hspad, hdict⟩ := hbeside
  obtain ⟨hfree', harrays', hspad', -⟩ := hplaced
  refine ⟨_, exec_weightSwitch halive hp hswitch hf hready hstaged, ?_, hfree.trans hfree', harrays.trans harrays', hspad.trans hspad',
    fun k hk => State.switchParts_runsOn i _ k (.inl hk)⟩
  rw [hdict]
  exact congrArg Prod.snd (SMap.get_set_same s.dict.bases (0, 0) base.toNat _)

/-! ## Partition reset (R523) -/

/-- A partition that is reset: its uncommitted steps are undone, it restarts 32 frames later at attempt 1 (R523). -/
def Part.resetAt (q : Part) (first : Option StepRun) (frame : Nat) : Part :=
  { q with
    st := if q.st = .stopped then q.before else q.st, stopped := false, abort := none, resetF := none, resetIn := true, tries := [],
    runs := (match first with | some r => q.runs.filter (fun x => decide (x.step < r.step)) | none => q.runs),
    due := ((match first with | some r => r.step | none => if q.st = .stopped then q.step else q.due.1), 1)
    nextStart := some (frame + 32), abortRun := 0 }

/-- The machine whose partition is undone, its blocks and store regions restored, before the partition itself is reset. -/
def State.resetUndone (s : State) (p : Nat) : State :=
  let first := (s.part p).firstAborted s.fu.frame
  let s1 : State := { s with
    tiles := SMap.mapVals s.tiles {} (fun _ t => (Tile.stopStreams t p).doubtHalves p)
    ledger := { s.ledger with escrow := s.ledger.escrow.filter (fun x => decide (x.2.1.toNat ≠ p) || x.2.2.2.isSome) } }
  let copies := match first with | some r => r.retained | none => s.retainedOf p
  (((((s1.undo p first).clearTags p).zeroBlocks p false).reloadRetained p copies).mapTiles (fun _ t => t.restoreStore p))

theorem State.resetUndone_parts (s : State) (p : Nat) : (s.resetUndone p).parts = s.parts := (State.undo_keeps _ p _).1

theorem State.part_closeWindows (s : State) (c : Window → Bool) (k : Nat) : (s.closeWindows c).part k = s.part k := rfl

theorem exec_partitionReset {f : Nat} (halive : s.alive = true) (hreset : (s.part part.toNat).resetF = some f) (hf : f ≤ s.fu.frame)
    (hst : (s.part part.toNat).st ≠ .stopped) (hnext : (s.part part.toNat).nextStart = some s.fu.frame) :
    exec (.partitionReset part) s = .next
      ((((s.resetUndone part.toNat).updPart part.toNat (fun q =>
          q.resetAt ((s.part part.toNat).firstAborted s.fu.frame) s.fu.frame)).closeWindows
        (fun w => decide (w.tag.toNat = part.toNat))).appliedRec (partIndex part.toNat) 0x10 1 f) := by
  change execPartitionReset part s = _
  unfold execPartitionReset
  dsimp only
  rw [hreset]
  dsimp only
  rw [if_neg hst, if_neg (by simp [halive, hnext, Nat.not_lt.2 hf])]
  rfl

/-- A partition reset starts the partition again 32 frames later at attempt 1, with the first step undone or its next one (R523). -/
theorem partitionReset_restarts (part : PartNo) (f : Nat) (s : State) :
    let q := s.part part.toNat
    s.alive = true → q.resetF = some f → f ≤ s.fu.frame → q.st ≠ .stopped → q.nextStart = some s.fu.frame →
    ∃ t, exec (.partitionReset part) s = .next t ∧ (t.part part.toNat).nextStart = some (s.fu.frame + 32) ∧
      (t.part part.toNat).st = q.st ∧ (t.part part.toNat).resetF = none ∧ (t.part part.toNat).resetIn = true ∧
      (t.part part.toNat).abort = none ∧ (t.part part.toNat).abortRun = 0 ∧ (t.part part.toNat).due.2 = 1 ∧
      (∀ r, q.firstAborted s.fu.frame = some r → (t.part part.toNat).due.1 = r.step) ∧
      (q.firstAborted s.fu.frame = none → (t.part part.toNat).due.1 = q.due.1) := by
  intro q halive hreset hf hst hnext
  refine ⟨_, exec_partitionReset halive hreset hf hst hnext, ?_⟩
  rw [State.part_of_besideRecd (State.appliedRec_besideRecd _ _ _ _ _), State.part_closeWindows, State.part_updPart, if_pos rfl,
    State.part_congr (s.resetUndone_parts part.toNat)]
  refine ⟨rfl, if_neg hst, rfl, rfl, rfl, rfl, rfl, fun r hr => ?_, fun hnone => ?_⟩
  · rw [show (s.part part.toNat).firstAborted s.fu.frame = some r from hr]
    rfl
  · rw [show (s.part part.toNat).firstAborted s.fu.frame = none from hnone]
    exact if_neg hst

end Sys2Proof.Machine
end

section
open Sys2Proof Sys2Proof.Machine

/-- Settles O42: a lemma for each stage of a partition's life, `loadingComplete_decides` and `loadingComplete_loads`,
`partitionStart_starts`, `partitionClose_closes`, `weightSwitch_switches` and `partitionReset_restarts`. -/
theorem partitionsLoadStartCloseSwitchAndReset : Obligations.PartitionsLoadStartCloseSwitchAndReset := by
  unfold Obligations.PartitionsLoadStartCloseSwitchAndReset
  exact ⟨loadingComplete_decides, loadingComplete_loads, partitionStart_starts, partitionClose_closes, weightSwitch_switches,
    partitionReset_restarts⟩

end

section
/-! SUPPORT. What a line of the stacks holds after a write (R216), and what mapping pages and writing entries leave of a stream (R225, R227). -/

namespace Sys2Proof.Machine

variable {s t : State}

theorem State.memLine_setMemLine_same (s : State) (l : Nat) (v : Line) : (s.setMemLine l v).memLine l = v := by
  have h := Cells.bytes_write_same s.mem.data (128 * l) (bytesOfLine v)
  rw [bytesOfLine_length] at h
  exact (congrArg lineOfBytes h).trans (lineOfBytes_bytesOfLine v)

/-- What pages and entries written into the stream at `key` leave alone: the positions it holds, and the machine beside the stacks and the
partitions' chunks. -/
def State.besidePages (key : Nat) (s : State) : Nat × BitVec 23 × Cells × SMap Account × SMap Endpoint :=
  ((s.ctxAt key).written, (s.ctxAt key).committed, s.spad, s.accts, s.links)

theorem State.ctxAt_updCtx_same (s : State) (key : Nat) (f : Ctx → Ctx) : (s.updCtx key f).ctxAt key = f (s.ctxAt key) :=
  (SMap.get_upd s.mem.ctx {} key key f).trans (if_pos rfl)

theorem State.updDesc_besidePages (s : State) (key : Nat) (f : Ctx → Ctx) (hwritten : ∀ c, (f c).written = c.written)
    (hcommitted : ∀ c, (f c).committed = c.committed) : (s.updDesc key f).besidePages key = s.besidePages key := by
  have hctx : (s.updDesc key f).ctxAt key = f (s.ctxAt key) := s.ctxAt_updCtx_same key f
  rw [State.besidePages, hctx, hwritten, hcommitted]
  rfl

theorem State.besidePages_of_besideLines (key : Nat) (h : t.besideLines = s.besideLines) : t.besidePages key = s.besidePages key := by
  have hview := congrArg (State.besidePages key) h
  exact hview

theorem State.takeChunk_besidePages (s : State) (key p : Nat) (stack : Option Nat) :
    (s.takeChunk p stack).1.besidePages key = s.besidePages key := by
  unfold State.takeChunk
  split <;> rfl

theorem State.pageAdded_besideLines (s : State) (c : Ctx) (n q : Nat) :
    ((s.zeroLines (128 * q) 128).setPage c n q).besideLines = s.besideLines := rfl

/-- Pages mapped for a stream leave its positions as they are (R227). -/
theorem State.mapPages_besidePages (s : State) (key n : Nat) : (s.mapPages key n).besidePages key = s.besidePages key := by
  induction n with
  | zero => rfl
  | succ n ih =>
    have hchunk := (s.mapPages key n).takeChunk_besidePages key ((s.mapPages key n).ctxAt key).tag.toNat
      (some ((n + ((s.mapPages key n).ctxAt key).s0) % 16))
    rw [State.mapPages]
    split
    · exact ih
    · split
      next h => rw [h] at hchunk; exact hchunk.trans ih
      next h =>
        rw [h] at hchunk
        rw [State.updDesc_besidePages _ key (fun c => { c with pages := c.pages + 1 }) (fun _ => rfl) fun _ => rfl]
        exact (State.besidePages_of_besideLines key (State.pageAdded_besideLines ..)).trans (hchunk.trans ih)

/-- The machine whose stream at `key` is mapped up to the end of entries that then stand in its pages. -/
def State.entriesPlaced (s : State) (key pos : Nat) (es : List EntryWords) : State :=
  let mapped := s.mapPages key (min ((pos + es.length) / (s.ctxAt key).perPage + 1) (s.ctxAt key).maxPages.toNat)
  mapped.writeEntries (mapped.ctxAt key) pos es none

theorem State.entriesPlaced_besidePages (s : State) (key pos : Nat) (es : List EntryWords) :
    (s.entriesPlaced key pos es).besidePages key = s.besidePages key :=
  (State.besidePages_of_besideLines key (State.writeEntries_besideLines _ _ _ _ _)).trans (s.mapPages_besidePages key _)

/-- A stream that holds entries up to a position. -/
def Ctx.writtenTo (c : Ctx) (n : Nat) : Ctx := { c with written := max c.written n }

theorem State.putEntries_eq (s : State) (key pos : Nat) (es : List EntryWords) :
    s.putEntries key pos es = (s.entriesPlaced key pos es).updCtx key (fun c => c.writtenTo (pos + es.length)) := rfl

/-- Entries written into a stream raise WRITTEN to their end and leave COMMITTED (R225, R230). -/
theorem State.putEntries_writes (s : State) (key pos : Nat) (es : List EntryWords) :
    (s.putEntries key pos es).besidePages key =
      (max (s.ctxAt key).written (pos + es.length), (s.ctxAt key).committed, s.spad, s.accts, s.links) := by
  have hplaced := s.entriesPlaced_besidePages key pos es
  simp only [State.besidePages, Prod.mk.injEq] at hplaced
  obtain ⟨hwritten, hcommitted, hspad, haccts, hlinks⟩ := hplaced
  have hctx : (s.putEntries key pos es).ctxAt key = ((s.entriesPlaced key pos es).ctxAt key).writtenTo (pos + es.length) := by
    rw [State.putEntries_eq, State.ctxAt_updCtx_same]
  rw [State.besidePages, hctx]
  exact congrArg₂ Prod.mk (congrArg (max · (pos + es.length)) hwritten)
    (congrArg₂ Prod.mk hcommitted (congrArg₂ Prod.mk hspad (congrArg₂ Prod.mk haccts hlinks)))

end Sys2Proof.Machine
end

section
/-! Certificate of O38: bulk messages (R230, R239, R240, R274, R299) and training messages (R323, R325), a lemma for each. -/

namespace Sys2Proof.Machine

variable {s : State} {f : UtlFrame}

/-! ## Entries and pages -/

theorem State.takeMirror_found {m : MirrorMsg} {key l : Nat}
    (hfind : s.findCtx m.part.toNat m.account.val m.layer m.head m.hdim (m.streamNo.setWidth 13 + 1) = some key)
    (hok : entriesOk m.hdim m.entries = true) : s.takeMirror l m = s.putEntries key m.pos.toNat m.entries := by
  unfold State.takeMirror
  dsimp only
  rw [if_neg (ne_false_of_eq_true hok), hfind]

/-- Mirror entries whose residues hold join the mirror stream (R68, R230). -/
theorem mirrorEntries_join (f : UtlFrame) (m : MirrorMsg) (key : Nat) (s : State) (h : s.frameClear f (.mirrorEntries f m) = true)
    (hfind : s.findCtx m.part.toNat m.account.val m.layer m.head m.hdim (m.streamNo.setWidth 13 + 1) = some key)
    (hok : entriesOk m.hdim m.entries = true) :
    ∃ t, exec (.mirrorEntries f m) s = .next t ∧ (t.ctxAt key).written = max (s.ctxAt key).written (m.pos.toNat + m.entries.length) ∧
      (t.ctxAt key).committed = (s.ctxAt key).committed ∧ t.spad = s.spad ∧ t.accts = s.accts := by
  have hputs (v : State) := v.putEntries_writes key m.pos.toNat m.entries
  simp only [State.besidePages, Prod.mk.injEq] at hputs
  obtain ⟨before, after, c, hreceive⟩ := State.receive_takesEffect (effect := fun v => v.putEntries key m.pos.toNat m.entries) h
    (fun links c => (if_neg (State.awake_of_frameClear h)).trans (State.takeMirror_found (s := s.relinked links c) hfind hok))
    (fun links c => congrArg (fun x => (SMap.get x {} f.link.val).rxAhead) (hputs (s.relinked links c)).2.2.2.2)
  obtain ⟨hwritten, hcommitted, hspad, haccts, -⟩ := hputs (s.relinked before c)
  exact ⟨_, congrArg Host.Outcome.next hreceive, hwritten, hcommitted, hspad, haccts⟩

/-- A transfer's first pages lift the refusal of the transfer before it (R239). -/
def State.pagesBegin (s : State) (m : PagesMsg) : State :=
  if m.index = 0 ∧ m.firstPos = 0 then
    s.updPart m.part.toNat (fun q => { q with refused := q.refused.filter (fun k => decide (k ≠ m.account.val)) }) else s

theorem State.pagesBegin_kept (s : State) (m : PagesMsg) :
    (s.pagesBegin m).mem = s.mem ∧ (s.pagesBegin m).spad = s.spad ∧ (s.pagesBegin m).accts = s.accts ∧ (s.pagesBegin m).links = s.links := by
  unfold State.pagesBegin
  split <;> exact ⟨rfl, rfl, rfl, rfl⟩

theorem State.pagesBegin_accepts {m : PagesMsg}
    (h : m.index = 0 ∧ m.firstPos = 0 ∨ (s.part m.part.toNat).refused.contains m.account.val = false) :
    ((s.pagesBegin m).part m.part.toNat).refused.contains m.account.val = false := by
  unfold State.pagesBegin
  split
  · rw [State.part_updPart, if_pos rfl]
    simp
  next hlater => exact h.resolve_left hlater

theorem State.takePages_found {m : PagesMsg} {key l : Nat}
    (hfind : s.findCtx m.part.toNat m.account.val m.layer m.head m.hdim 0 = some key) (hanswer : m.answer = none) (hmode : s.ledger.mode ≠ 2)
    (haccept : m.index = 0 ∧ m.firstPos = 0 ∨ (s.part m.part.toNat).refused.contains m.account.val = false)
    (hok : entriesOk m.hdim m.entries = true) (hlast : m.last = none) :
    s.takePages l m = (s.pagesBegin m).putEntries key m.firstPos.toNat m.entries := by
  have hfound : (s.pagesBegin m).findCtx m.part.toNat m.account.val m.layer m.head m.hdim 0 = some key := by
    rw [State.findCtx, (s.pagesBegin_kept m).1]
    exact hfind
  have haccepts := State.pagesBegin_accepts haccept
  unfold State.takePages
  dsimp only
  rw [hanswer]
  dsimp only
  rw [if_neg (fun hboth => hmode hboth.1), if_neg (ne_false_of_eq_true hok)]
  rw [State.pagesBegin] at haccepts hfound ⊢
  rw [if_neg (ne_true_of_eq_false haccepts), hfound]
  dsimp only
  rw [hlast]

/-- Context pages whose residues hold join the stream of their account (R239). -/
theorem contextPages_join (f : UtlFrame) (m : PagesMsg) (key : Nat) (s : State) (h : s.frameClear f (.contextPages f m) = true)
    (hfind : s.findCtx m.part.toNat m.account.val m.layer m.head m.hdim 0 = some key) (hanswer : m.answer = none) (hmode : s.ledger.mode ≠ 2)
    (haccept : m.index = 0 ∧ m.firstPos = 0 ∨ (s.part m.part.toNat).refused.contains m.account.val = false)
    (hok : entriesOk m.hdim m.entries = true) (hlast : m.last = none) :
    ∃ t, exec (.contextPages f m) s = .next t ∧
      (t.ctxAt key).written = max (s.ctxAt key).written (m.firstPos.toNat + m.entries.length) ∧
      (t.ctxAt key).committed = (s.ctxAt key).committed ∧ t.accts = s.accts := by
  have hputs (v : State) := (v.pagesBegin m).putEntries_writes key m.firstPos.toNat m.entries
  simp only [State.besidePages, Prod.mk.injEq, State.ctxAt, State.pagesBegin_kept] at hputs
  obtain ⟨before, after, c, hreceive⟩ := State.receive_takesEffect
    (effect := fun v => (v.pagesBegin m).putEntries key m.firstPos.toNat m.entries) h
    (fun links c => (if_neg (State.awake_of_frameClear h)).trans
      (State.takePages_found (s := s.relinked links c) hfind hanswer hmode haccept hok hlast))
    (fun links c => congrArg (fun x => (SMap.get x {} f.link.val).rxAhead) (hputs (s.relinked links c)).2.2.2.2)
  obtain ⟨hwritten, hcommitted, -, haccts, -⟩ := hputs (s.relinked before c)
  exact ⟨_, congrArg Host.Outcome.next hreceive, hwritten, hcommitted, haccts⟩

/-! ## A refused transfer -/

/-- The streams of an account that a transfer names at its source (R239). -/
def State.movedStreams (s : State) (m : PagesMsg) : List Nat :=
  (s.mem.ctx.filter (fun x => decide (x.2.account.toNat = m.account.val ∧ x.2.mirror = 0 ∧ x.2.st = 3 ∧
    x.2.tag.toNat ≠ m.part.toNat))).map (fun x => x.1)

theorem State.takePages_answer {m : PagesMsg} {l : Nat} {ok : Bool} (hanswer : m.answer = some ok) : s.takePages l m = s.pagesAnswer m ok := by
  unfold State.takePages
  rw [hanswer]

/-- An account whose transfer is refused (R239). -/
def Account.keptAtSource (x : Account) : Account := if x.st = .transferring then { x with st := .active } else x

theorem State.pagesAnswer_refused (s : State) (m : PagesMsg) :
    (s.pagesAnswer m false).accts = SMap.upd s.accts {} m.account.val Account.keptAtSource ∧ (s.pagesAnswer m false).links = s.links := by
  have hkept := foldl_keeps (fun u : State => (u.accts, u.links)) (fun t k => t.updDesc k (fun c => { c with st := 1 })) (fun _ _ => rfl)
    (s.movedStreams m) s
  obtain ⟨haccts, hlinks⟩ := Prod.mk.inj hkept
  have hupd := congrArg (fun x => SMap.upd x {} m.account.val Account.keptAtSource) haccts
  exact ⟨hupd, hlinks⟩

/-- A refused transfer leaves its account Active again (R239, R255). -/
theorem contextPages_refused (f : UtlFrame) (m : PagesMsg) (s : State) (h : s.frameClear f (.contextPages f m) = true)
    (hanswer : m.answer = some false) (hst : (s.acct m.account.val).st = .transferring) :
    ∃ t, exec (.contextPages f m) s = .next t ∧ (t.acct m.account.val).st = .active ∧
      (∀ k, k ≠ m.account.val → t.acct k = s.acct k) := by
  obtain ⟨before, after, c, hreceive⟩ := State.receive_takesEffect (effect := fun v => v.pagesAnswer m false) h
    (fun links c => (if_neg (State.awake_of_frameClear h)).trans (State.takePages_answer hanswer))
    (fun links c => congrArg (fun x => (SMap.get x {} f.link.val).rxAhead) ((s.relinked links c).pagesAnswer_refused m).2)
  have hacct (k : Nat) : ((s.relinked before c).pagesAnswer m false).acct k = 
      if k = m.account.val then (s.acct m.account.val).keptAtSource else s.acct k := by
    rw [State.acct, ((s.relinked before c).pagesAnswer_refused m).1]
    exact SMap.get_upd s.accts {} m.account.val k _
  refine ⟨_, congrArg Host.Outcome.next hreceive, ?_, fun k hk => (hacct k).trans (if_neg hk)⟩
  exact (congrArg Account.st ((hacct _).trans (if_pos rfl))).trans (congrArg Account.st (if_pos hst))

/-! ## Copies and partials -/

/-- A shard line that is not the last lands in its granule (R274). -/
def State.shardLanded (s : State) (m : ShardMsg) (line : Line) : State :=
  let t := s.setMemLine ((if m.partner then 2 else 0) * granuleLines + m.firstLine) line
  { t with health := { t.health with ready := if t.health.ready = 0 then 1 else t.health.ready } }

theorem State.takeShard_line {m : ShardMsg} {line : Line} (hlines : m.lines = [line]) (hfirst : m.firstLine < 2 * granuleLines)
    (hlast : m.last = none) : s.takeShard m = s.shardLanded m line := by
  unfold State.takeShard
  dsimp only
  rw [hlines, hlast, List.zipIdx_singleton, List.foldl_cons, List.foldl_nil, Nat.add_zero, Nat.add_zero, if_pos hfirst]
  rfl

theorem shardCopy_lands (f : UtlFrame) (m : ShardMsg) (line : Line) (s : State) (h : s.frameClear f (.shardCopy f m) = true)
    (hlines : m.lines = [line]) (hfirst : m.firstLine < 2 * granuleLines) (hlast : m.last = none) :
    ∃ t, exec (.shardCopy f m) s = .next t ∧ t.memLine ((if m.partner then 2 else 0) * granuleLines + m.firstLine) = line ∧
      t.health.copies = s.health.copies ∧ t.parts = s.parts := by
  obtain ⟨before, after, c, hreceive⟩ := State.receive_takesEffect (effect := fun v => v.shardLanded m line) h
    (fun links c => (if_neg (State.awake_of_frameClear h)).trans (State.takeShard_line hlines hfirst hlast)) (fun _ _ => rfl)
  exact ⟨_, congrArg Host.Outcome.next hreceive, State.memLine_setMemLine_same (s.relinked before c) _ line, rfl, rfl⟩

/-- What a record written to the replica's ring leaves alone: all but the lines of the stacks and the ring's write position. -/
def State.besideRing (s : State) : Ledger × SMap Account × SMap Endpoint := ({ s.ledger with rpos := 0 }, s.accts, s.links)

/-- A Ledger whose replica has gained records. -/
def Ledger.gains (l : Ledger) (recs : List LRecord) : Ledger := { l with replica := l.replica ++ recs }

theorem Ledger.gains_gains (l : Ledger) (a b : List LRecord) : (l.gains a).gains b = l.gains (a ++ b) := by
  rw [Ledger.gains, Ledger.gains, Ledger.gains, List.append_assoc]

theorem State.writeRing_besideRing (s : State) (r : LRecord) : (s.writeRing true r).besideRing = s.besideRing := by
  have hlines := foldl_keeps State.besideRing (fun t (x : Line × Nat) =>
    t.setMemLine (ledgerLine true + 0x8000 + (s.ledger.rpos + x.2) % ringLines) x.1) (fun _ _ => rfl) (recLines r).zipIdx s
  exact congrArg (fun x : Ledger × SMap Account × SMap Endpoint => ({ x.1 with rpos := 0 }, x.2.1, x.2.2)) hlines

/-- A record of the sender's Ledger joins the replica (R299). -/
def State.replicaGains (s : State) (r : LRecord) : State := (s.updLedger (fun l => l.gains [r])).writeRing true r

theorem State.replicaGains_besideRing (s : State) (r : LRecord) :
    (s.replicaGains r).besideRing = (s.besideRing.1.gains [r], s.besideRing.2) := State.writeRing_besideRing _ r

theorem State.replicaGains_all (s : State) (recs : List LRecord) :
    (recs.foldl (fun t r => t.replicaGains r) s).besideRing = (s.besideRing.1.gains recs, s.besideRing.2) := by
  induction recs generalizing s with
  | nil => rw [List.foldl_nil, Ledger.gains, List.append_nil]
  | cons r recs ih => rw [List.foldl_cons, ih, State.replicaGains_besideRing, Ledger.gains_gains, List.singleton_append]

/-- The sound records of a copy of the sender's Ledger join the replica, or are the new one (R299). -/
theorem State.takeCopy_joins (s : State) (m : LedgerCopyMsg) (hown : m.own = false) :
    (s.takeCopy m).besideRing =
      ({ s.ledger with rpos := 0, replica := (if m.first then [] else s.ledger.replica) ++ m.records.filter recSound }, s.accts, s.links) := by
  unfold State.takeCopy
  dsimp only
  rw [if_neg (ne_true_of_eq_false hown)]
  cases m.first with
  | true => exact foldl_keeps State.besideRing (fun t r => t.writeRing true r) State.writeRing_besideRing _ _
  | false => exact s.replicaGains_all _

/-- The sound records of a Ledger's copy make the replica or join it, and no account changes (R299). -/
theorem ledgerCopy_joins (f : UtlFrame) (m : LedgerCopyMsg) (s : State) (h : s.frameClear f (.ledgerCopy f m) = true) (hown : m.own = false) :
    ∃ t, exec (.ledgerCopy f m) s = .next t ∧ t.ledger = { s.ledger with
      replica := (if m.first then [] else s.ledger.replica) ++ m.records.filter recSound, rpos := t.ledger.rpos } ∧ t.accts = s.accts := by
  have hjoins (v : State) := v.takeCopy_joins m hown
  simp only [State.besideRing, Prod.mk.injEq] at hjoins
  obtain ⟨before, after, c, hreceive⟩ := State.receive_takesEffect (effect := fun v => v.takeCopy m) h
    (fun links c => if_neg (State.awake_of_frameClear h))
    (fun links c => congrArg (fun x => (SMap.get x {} f.link.val).rxAhead) (hjoins (s.relinked links c)).2.2)
  obtain ⟨hledger, haccts, -⟩ := hjoins (s.relinked before c)
  exact ⟨_, congrArg Host.Outcome.next hreceive,
    congrArg (fun l : Ledger => { l with rpos := ((s.relinked before c).takeCopy m).ledger.rpos }) hledger, haccts⟩

theorem State.takePartials_line {m : PartialsMsg} {line : Line} {l : Nat} (hlines : m.lines = [line]) (hline : m.line.toNat ≤ 3071)
    (howns : (s.tile m.tile.toNat).owns m.line.toNat 1 m.tag = true) :
    s.takePartials l m = s.setPadLine m.tile.toNat m.line.toNat line := by
  unfold State.takePartials
  dsimp only
  rw [hlines, List.length_singleton, howns, if_neg (by simp; omega)]
  rfl

/-- Partials land in the scratchpad lines of their partition and nowhere else (R240). -/
theorem contextPartials_land (f : UtlFrame) (m : PartialsMsg) (line : Line) (s : State) (h : s.frameClear f (.contextPartials f m) = true)
    (hlines : m.lines = [line]) (hline : m.line.toNat ≤ 3071) (howns : (s.tile m.tile.toNat).owns m.line.toNat 1 m.tag = true) :
    ∃ t, exec (.contextPartials f m) s = .next t ∧ t.padLine m.tile.toNat m.line.toNat = line ∧
      PadOutside m.tile.toNat m.line.toNat 1 s t ∧ t.tiles = s.tiles := by
  obtain ⟨before, after, c, hreceive⟩ := State.receive_takesEffect (effect := fun v => v.setPadLine m.tile.toNat m.line.toNat line) h
    (fun links c => (if_neg (State.awake_of_frameClear h)).trans
      (State.takePartials_line (s := s.relinked links c) hlines hline howns)) (fun _ _ => rfl)
  exact ⟨_, congrArg Host.Outcome.next hreceive, (s.relinked before c).padLine_setPadLine_same _ _ line,
    (s.relinked before c).setPadLine_out m.tile.toNat m.line.toNat line, rfl⟩

/-! ## Keys (R323, R325) -/

/-- An endpoint that has agreed on the key of its sending direction with the peer's public key (R325). -/
def Endpoint.agreed (e : Endpoint) (own peer : DevAddr) (l : Nat) (k : BitVec 776) : Endpoint :=
  { e with txKey := Config.utlKey (Config.ecdh (e.ownDraw.getD 0) k) own peer l, keyUse := 0, ownDraw := none, peerKey := none }

theorem State.agree_eq (s : State) (l : Nat) (k : BitVec 776) :
    s.agree l k = s.updLink l (fun e => e.agreed s.dict.addr (s.peerOf l) l k) := rfl

theorem State.updLink_sameButLinks (s : State) (l : Nat) (g : Endpoint → Endpoint) : SameButLinks s (s.updLink l g) := rfl

theorem State.agree_sameButLinks (s : State) (l : Nat) (k : BitVec 776) : SameButLinks s (s.agree l k) := State.updLink_sameButLinks _ _ _

/-- A frame of a training message on a link in training (R323). -/
theorem State.receive_training {chain : Option Bool} (halive : s.alive = true) (hst : (s.link f.link.val).st = .training)
    (hintact : frameIntact f { op := 7, tc := 0, kind := none, lo := 1, hi := 1 } = true) :
    s.receive f (.training f chain) = s.takeTraining f.link.val (f.payload.headD 0) chain f.rc := by
  unfold State.receive
  dsimp only [frameKind]
  rw [if_neg (ne_false_of_eq_true halive), hst]
  exact if_pos hintact

/-- In stage 4 the message belongs to the agreement on keys (R325). -/
theorem State.takeTraining_four {l rc : Nat} {m : Line} {chain : Option Bool} (hst : (s.link l).st = .training) (hstage : (s.link l).stage = 4)
    (hfour : m.extractLsb' 913 4 = 4#4) : s.takeTraining l m chain rc = s.takeSecure l m chain := by
  unfold State.takeTraining
  dsimp only
  rw [hst, hstage, hfour]
  rfl

/-- The key of the sending direction stands in the endpoint once stage 4 has ended. -/
def Endpoint.secured (e : Endpoint) : Endpoint := { e with stage := 5, keyGen := 0, stamp := none }

theorem State.takeSecure_ends {l : Nat} {m : Line} {k : BitVec 776} (hst : (s.link l).st = .training) (hkey : (s.link l).peerKey = some k) :
    ∃ line, s.takeSecure l m (some true) =
      (((s.agree l k).updLink l Endpoint.secured).updLink l (fun e =>
        { e.put (e.frameHdr (.training line) 0) 0 [line] with out := e.out ++ [.training line] })) := by
  have hlink : (((s.agree l k).updLink l Endpoint.secured).link l).st = .training := by
    rw [State.link_updLink_same, State.agree_eq, State.link_updLink_same]
    exact hst
  refine ⟨((s.agree l k).updLink l Endpoint.secured).trainLine l
    (((s.agree l k).updLink l Endpoint.secured).now (((s.agree l k).updLink l Endpoint.secured).realOf
      ((s.agree l k).updLink l Endpoint.secured).fu.cycle)) (((s.agree l k).updLink l Endpoint.secured).link l).stage 0, ?_⟩
  unfold State.takeSecure
  dsimp only
  rw [hkey]
  dsimp only
  rw [if_pos hst, State.secure, if_pos rfl]
  exact if_neg fun hactive => absurd (hlink.symm.trans hactive) (by decide)

/-- The peer's chain, where it is good, ends stage 4 with the key of both (R323, R325). -/
theorem training_secures (f : UtlFrame) (k : BitVec 776) (s : State) :
    let e := s.link f.link.val
    s.alive = true → e.st = .training → e.stage = 4 → frameIntact f { op := 7, tc := 0, kind := none, lo := 1, hi := 1 } = true →
    (f.payload.headD 0).extractLsb' 913 4 = 4#4 → e.peerKey = some k →
    ∃ t, exec (.training f (some true)) s = .next t ∧ SameButLinks s t ∧ (t.link f.link.val).stage = 5 ∧
      (t.link f.link.val).st = .training ∧ (t.link f.link.val).keyGen = 0 ∧ (t.link f.link.val).peerKey = none ∧
      (t.link f.link.val).txKey =
        Config.utlKey (Config.ecdh (e.ownDraw.getD 0) k) s.dict.addr (s.peerOf f.link.val) f.link.val := by
  intro e halive hst hstage hintact hfour hkey
  obtain ⟨line, hsecure⟩ := State.takeSecure_ends (m := f.payload.headD 0) hst hkey
  have hreceive : s.receive f (.training f (some true)) = _ :=
    (State.receive_training halive hst hintact).trans ((State.takeTraining_four hst hstage hfour).trans hsecure)
  refine ⟨_, congrArg Host.Outcome.next hreceive, ((s.agree_sameButLinks f.link.val k).trans (State.updLink_sameButLinks _ _ _)).trans
    (State.updLink_sameButLinks _ _ _), ?_⟩
  rw [State.link_updLink_same, State.link_updLink_same, State.agree_eq, State.link_updLink_same]
  exact ⟨rfl, hst, rfl, rfl, rfl⟩

/-- The peer's key is kept (R325). -/
theorem training_keepsKey (f : UtlFrame) (d : Nat) (chain : Option Bool) (s : State) :
    let e := s.link f.link.val
    s.alive = true → e.st = .training → e.stage = 4 → frameIntact f { op := 7, tc := 0, kind := none, lo := 1, hi := 1 } = true →
    (f.payload.headD 0).extractLsb' 913 4 = 4#4 → e.peerKey = none → e.ownDraw = some d →
    ∃ t, exec (.training f chain) s = .next t ∧ SameButLinks s t ∧ (t.link f.link.val).stage = 4 ∧
      (t.link f.link.val).peerKey = some ((f.payload.headD 0).extractLsb' 57 776) := by
  intro e halive hst hstage hintact hfour hkey hdraw
  have hsecure : s.takeSecure f.link.val (f.payload.headD 0) chain = s.updLink f.link.val (fun e => { e with
      peerKey := some ((f.payload.headD 0).extractLsb' 57 776), role := (f.payload.headD 0).extractLsb' 917 2 }) := by
    unfold State.takeSecure
    dsimp only
    rw [show (s.link f.link.val).peerKey = none from hkey, show (s.link f.link.val).ownDraw = some d from hdraw]
    rfl
  have hreceive : s.receive f (.training f chain) = _ :=
    (State.receive_training halive hst hintact).trans ((State.takeTraining_four hst hstage hfour).trans hsecure)
  refine ⟨_, congrArg Host.Outcome.next hreceive, rfl, ?_⟩
  rw [State.link_updLink_same]
  exact ⟨hstage, rfl⟩

/-! ### On an Active link -/

/-- What of an endpoint an arriving frame and its header leave alone. -/
def Endpoint.keying (e : Endpoint) : LinkSt × Option (BitVec 776) × Nat := (e.st, e.peerKey, e.keyGen)

/-- A header without a NAK, where no mirror frame waits for its acknowledgement (R316, R317). -/
theorem State.takeHeader_eq (t : State) (l : Nat) (h : UtlHdr) (hmirror : (t.link l).mirrorSeq = none) (hnak : h.nak = false) :
    t.takeHeader l h = (t.updLink l (fun e => e.acked h.ackseq)).updLink l (fun e => Endpoint.credit t.bandAt e h) := by
  have hnone (u : State) (hu : (u.link l).mirrorSeq = none) : u.mirrorAck l = u := by
    unfold State.mirrorAck
    dsimp only
    rw [hu]
  unfold State.takeHeader
  dsimp only
  rw [hnone _ (by rw [State.link_updLink_same]; exact hmirror), if_neg (by simp [hnak])]
  rfl

theorem State.takeHeader_keying (t : State) (l : Nat) (h : UtlHdr) (hwaiting : (t.link l).waiting = []) (hmirror : (t.link l).mirrorSeq = none)
    (hnak : h.nak = false) : ((t.takeHeader l h).link l).keying = (t.link l).keying := by
  rw [State.takeHeader_eq t l h hmirror hnak, State.link_updLink_same, State.link_updLink_same,
    Endpoint.credit_idle _ _ _ (by exact hwaiting)]
  rfl

/-- An endpoint past the `n` frames of a message in its place (R320). -/
def Endpoint.past (e : Endpoint) (n : Nat) : Endpoint :=
  { e with rxNext := e.rxNext + n, asked := e.asked.filter (fun k => decide (e.rxNext + n ≤ k)) }

theorem State.inSequence_eq (t : State) (l : Nat) (f : UtlFrame) (k : FrameKind) (i : Instr)
    (hseq : f.hdr.seq = BitVec.ofNat 16 (t.link l).rxNext) (hahead : (t.link l).rxAhead = []) :
    t.inSequence l f k i =
      (((t.setLink l ((t.link l).past (frameCount f))).frameEffect l i).updLink l (fun e => e.giveBack k.tc (frameCount f))).catchUp l 1 := by
  unfold State.inSequence Endpoint.past
  dsimp only
  rw [hseq, BitVec.sub_self, if_pos (by rfl), hahead]
  rfl

/-- A clear frame's header and place in the sequence leave the keys of its link alone. -/
theorem State.receive_clear_keying {i : Instr} (h : s.frameClear f i = true) :
    ∃ v tc n, SameButLinks s v ∧ (v.link f.link.val).rxAhead = [] ∧ (v.link f.link.val).keying = (s.link f.link.val).keying ∧
      s.receive f i = ((v.frameEffect f.link.val i).updLink f.link.val (fun e => e.giveBack tc n)).catchUp f.link.val 1 := by
  obtain ⟨k, hc⟩ := State.frameClear_conditions h
  have hlink : (s.heard f).link f.link.val = { s.link f.link.val with lastRx := s.fu.frame } := State.link_setLink_same _ _ _
  have hwaiting : ((s.heard f).link f.link.val).waiting = [] := by rw [hlink]; exact hc.waiting
  have hmirror : ((s.heard f).link f.link.val).mirrorSeq = none := by rw [hlink]; exact hc.mirror
  obtain ⟨hheader, hplace⟩ := (s.heard f).takeHeader_clear f.link.val f.hdr hwaiting hmirror hc.nak
  have hkeying := (s.heard f).takeHeader_keying f.link.val f.hdr hwaiting hmirror hc.nak
  rw [hlink] at hplace hkeying
  simp only [Endpoint.place, Prod.mk.injEq] at hplace
  obtain ⟨hst, hnext, hahead⟩ := hplace
  let u := (s.heard f).takeHeader f.link.val f.hdr
  have hsame : SameButLinks s (s.heard f) := rfl
  refine ⟨u.setLink f.link.val ((u.link f.link.val).past (frameCount f)), k.tc, frameCount f, (hsame.trans hheader).trans rfl, ?_, ?_, ?_⟩
  · rw [State.link_setLink_same]
    exact hahead.trans hc.ahead
  · rw [State.link_setLink_same]
    exact hkeying
  · rw [State.receive_active hc, if_neg (by simp [hc.sequenced, hst, hc.active]),
      State.inSequence_eq _ _ _ _ _ (by rw [hnext]; exact hc.seq) (hahead.trans hc.ahead)]

/-- An endpoint whose key is renewed in service (R325). -/
def Endpoint.renewed (e : Endpoint) (own peer : DevAddr) (l : Nat) (k : BitVec 776) : Endpoint :=
  { e.agreed own peer l k with keyGen := e.keyGen + 1 }

/-- The machine whose link has renewed its key. -/
def State.renewed (s : State) (l : Nat) (k : BitVec 776) : State := (s.agree l k).updLink l (fun e => { e with keyGen := e.keyGen + 1 })

theorem State.renewed_sameButLinks (s : State) (l : Nat) (k : BitVec 776) : SameButLinks s (s.renewed l k) :=
  (s.agree_sameButLinks l k).trans (State.updLink_sameButLinks _ _ _)

theorem State.link_renewed (s : State) (l : Nat) (k : BitVec 776) :
    (s.renewed l k).link l = (s.link l).renewed s.dict.addr (s.peerOf l) l k := by
  rw [State.renewed, State.link_updLink_same, State.agree_eq, State.link_updLink_same]
  rfl

/-- A stage 4 message of a good chain on an Active link renews the key of the sending direction (R325). -/
theorem State.takeTraining_renews {l rc : Nat} {m : Line} {k : BitVec 776} (hst : (s.link l).st = .active) (hkey : (s.link l).peerKey = some k)
    (hfour : m.extractLsb' 913 4 = 4#4) : s.takeTraining l m (some true) rc = s.renewed l k := by
  unfold State.takeTraining State.takeSecure
  dsimp only
  rw [hst, hfour, hkey]
  rfl

/-- On an Active link the peer's good chain renews the key (R325). -/
theorem training_renews (f : UtlFrame) (k : BitVec 776) (s : State) (h : s.frameClear f (.training f (some true)) = true)
    (hfour : (f.payload.headD 0).extractLsb' 913 4 = 4#4) (hkey : (s.link f.link.val).peerKey = some k) :
    ∃ t, exec (.training f (some true)) s = .next t ∧ SameButLinks s t ∧ (t.link f.link.val).keyGen = (s.link f.link.val).keyGen + 1 ∧
      (t.link f.link.val).keyUse = 0 ∧ (t.link f.link.val).st = .active := by
  obtain ⟨c, hc⟩ := State.frameClear_conditions h
  obtain ⟨v, tc, n, hsame, hahead, hkeying, hreceive⟩ := State.receive_clear_keying h
  simp only [Endpoint.keying, Prod.mk.injEq] at hkeying
  obtain ⟨hst, hpeer, hgen⟩ := hkeying
  have hawake : v.health.st ≠ 3 := by
    rw [show v = _ from hsame]
    exact hc.awake
  let e := (v.link f.link.val).renewed v.dict.addr (v.peerOf f.link.val) f.link.val k
  have heffect : v.frameEffect f.link.val (.training f (some true)) = v.renewed f.link.val k :=
    (if_neg hawake).trans (State.takeTraining_renews (hst.trans hc.active) (hpeer.trans hkey) hfour)
  have hlink : ((v.renewed f.link.val k).updLink f.link.val (fun x => x.giveBack tc n)).link f.link.val = e.giveBack tc n := by
    rw [State.link_updLink_same, State.link_renewed]
  have hnone : (e.giveBack tc n).rxAhead = [] := hahead
  have hcaught : ((v.renewed f.link.val k).updLink f.link.val (fun x => x.giveBack tc n)).catchUp f.link.val 1 =
      (v.renewed f.link.val k).updLink f.link.val (fun x => x.giveBack tc n) := by
    unfold State.catchUp
    dsimp only
    rw [hlink, hnone]
    exact if_neg (by simp)
  rw [heffect, hcaught] at hreceive
  refine ⟨_, congrArg Host.Outcome.next hreceive, hsame.trans ((v.renewed_sameButLinks _ k).trans (State.updLink_sameButLinks _ _ _)), ?_⟩
  rw [hlink]
  exact ⟨congrArg (· + 1) hgen, rfl, hst.trans hc.active⟩

end Sys2Proof.Machine
end

section
open Sys2Proof Sys2Proof.Machine

/-- Settles O38: bulk messages take effect as `State.receive_takesEffect` says, training messages by their stage; a lemma for each. -/
theorem bulkAndTrainingMessages : Obligations.BulkAndTrainingMessages := by
  unfold Obligations.BulkAndTrainingMessages
  exact ⟨mirrorEntries_join, contextPages_join, contextPages_refused, shardCopy_lands, ledgerCopy_joins, contextPartials_land,
    training_secures, training_keepsKey, training_renews⟩

end

section
/-! SUPPORT. What the bytes of a packet change where they land (R216, R357), and what they leave alone. -/

namespace Sys2Proof.Machine

variable {s t u : State}

theorem bytesOfNat_natOfBytes (bs : List Byte) : bytesOfNat bs.length (natOfBytes bs) = bs := by
  induction bs with
  | nil => rfl
  | cons b bs ih =>
    have hb : b.toNat < 256 := b.isLt
    rw [List.length_cons, bytesOfNat_succ, natOfBytes, Nat.add_mul_div_left _ _ (by decide), Nat.div_eq_of_lt hb, Nat.zero_add, ih]
    congr 1
    apply BitVec.eq_of_toNat_eq
    simp only [BitVec.toNat_ofNat]
    omega

/-- A line holds the 128 bytes that it was made of. -/
theorem bytesOfLine_lineOfBytes {bs : List Byte} (h : bs.length = 128) : bytesOfLine (lineOfBytes bs) = bs := by
  have hlt := natOfBytes_lt bs
  have e : (256 : Nat) ^ 128 = 2 ^ 1024 := by rw [show (256 : Nat) = 2 ^ 8 from rfl, ← pow_mul]
  rw [h, e] at hlt
  have hbytes := bytesOfNat_natOfBytes bs
  rw [h] at hbytes
  rw [bytesOfLine, lineOfBytes, BitVec.toNat_ofNat, Nat.mod_eq_of_lt hlt, hbytes]

theorem mem_insertRising_of_mem {l : List Nat} {n k : Nat} (h : k ∈ l) : k ∈ insertRising l n := by
  induction l with
  | nil => exact absurd h List.not_mem_nil
  | cons x t ih =>
    unfold insertRising
    split
    · exact List.mem_cons_of_mem _ h
    · split
      · exact h
      · rcases List.mem_cons.1 h with rfl | h
        · exact List.mem_cons_self
        · exact List.mem_cons_of_mem _ (ih h)

/-! ## The lines of a packet -/

theorem Window.mem_lines {w : Window} {va len l : Nat} :
    l ∈ w.lines va len ↔ 0 < len ∧ w.base + va / 128 ≤ l ∧ l ≤ w.base + (va + len - 1) / 128 := by
  unfold Window.lines
  split
  next h => simp [h]
  next h =>
    have hle : va / 128 ≤ (va + len - 1) / 128 := Nat.div_le_div_right (by omega)
    rw [List.mem_map]
    constructor
    · rintro ⟨k, hk, rfl⟩
      have := List.mem_range.1 hk
      omega
    · rintro ⟨-, hlo, hhi⟩
      exact ⟨l - (w.base + va / 128), List.mem_range.2 (by omega), by omega⟩

/-- What the bytes of a line are where a packet lands in it, beside what it holds. -/
def Window.landed (w : Window) (va : Nat) (data : List Byte) (l : Nat) (old : List Byte) : List Byte :=
  old.zipIdx.map (fun b =>
    if va ≤ 128 * (l - w.base) + b.2 ∧ 128 * (l - w.base) + b.2 < va + data.length
    then data.getD (128 * (l - w.base) + b.2 - va) 0 else b.1)

theorem Window.landed_length (w : Window) (va : Nat) (data : List Byte) (l : Nat) (old : List Byte) :
    (w.landed va data l old).length = old.length := by simp [Window.landed]

theorem Window.landed_getD (w : Window) {va : Nat} {data : List Byte} {l : Nat} {old : List Byte} {j k : Nat} (hj : j < old.length)
    (hk : k < data.length) (hat : 128 * (l - w.base) + j = va + k) : (w.landed va data l old).getD j 0 = data.getD k 0 := by
  rw [List.getD_eq_getElem _ _ (by rw [Window.landed_length]; exact hj)]
  simp only [Window.landed, List.getElem_map, List.getElem_zipIdx, Nat.zero_add]
  rw [if_pos (by omega), hat, Nat.add_sub_cancel_left]

/-- One line of a packet lands. -/
def State.landLine (w : Window) (va : Nat) (data : List Byte) (t : State) (l : Nat) : State :=
  t.setMemLine l (lineOfBytes (w.landed va data l (bytesOfLine (t.readMem l))))

theorem State.landBytes_eq (s : State) (w : Window) (va : Nat) (data : List Byte) :
    s.landBytes w va data = (w.lines va data.length).foldl (State.landLine w va data) s := rfl

theorem State.landLine_data (w : Window) (va : Nat) (data : List Byte) (t : State) (l : Nat) :
    (State.landLine w va data t l).mem.data = Cells.write t.mem.data (128 * l) (w.landed va data l (bytesOfLine (t.readMem l))) := by
  have hlength : (w.landed va data l (bytesOfLine (t.readMem l))).length = 128 := by rw [Window.landed_length, bytesOfLine_length]
  exact congrArg (Cells.write t.mem.data (128 * l)) (bytesOfLine_lineOfBytes hlength)

theorem State.landLine_get_other (w : Window) (va : Nat) (data : List Byte) (t : State) {l a : Nat} (h : a / 128 ≠ l) :
    Cells.get (State.landLine w va data t l).mem.data a = Cells.get t.mem.data a := by
  rw [State.landLine_data]
  exact Cells.get_write_out _ _ _ _ (by rw [Window.landed_length, bytesOfLine_length]; omega)

theorem State.landLine_get_same (w : Window) {va : Nat} {data : List Byte} (t : State) {k : Nat} (hk : k < data.length) :
    Cells.get (State.landLine w va data t (w.base + (va + k) / 128)).mem.data (128 * w.base + va + k) = data.getD k 0 := by
  have hbyte : 128 * w.base + va + k = 128 * (w.base + (va + k) / 128) + (va + k) % 128 := by omega
  rw [State.landLine_data, hbyte, Cells.get_write_in _ _ _ _ (by rw [Window.landed_length, bytesOfLine_length]; omega)]
  exact w.landed_getD (by rw [bytesOfLine_length]; omega) hk (by omega)

theorem State.landLines_get_other (w : Window) (va : Nat) (data : List Byte) (ls : List Nat) (t : State) {a : Nat} (h : a / 128 ∉ ls) :
    Cells.get (ls.foldl (State.landLine w va data) t).mem.data a = Cells.get t.mem.data a :=
  List.foldlRecOn (motive := fun x : State => Cells.get x.mem.data a = Cells.get t.mem.data a) ls _ rfl
    fun _ hx _ hl => (State.landLine_get_other w va data _ (fun e => h (e ▸ hl))).trans hx

theorem State.landLines_get_same (w : Window) {va : Nat} {data : List Byte} (ls : List Nat) (t : State) {k : Nat} (hk : k < data.length)
    (h : w.base + (va + k) / 128 ∈ ls ∨ Cells.get t.mem.data (128 * w.base + va + k) = data.getD k 0) :
    Cells.get (ls.foldl (State.landLine w va data) t).mem.data (128 * w.base + va + k) = data.getD k 0 := by
  induction ls generalizing t with
  | nil => exact h.resolve_left List.not_mem_nil
  | cons l ls ih =>
    refine ih _ ?_
    by_cases hl : w.base + (va + k) / 128 = l
    · exact .inr (hl ▸ State.landLine_get_same w t hk)
    · refine h.imp (fun hmem => (List.mem_cons.1 hmem).resolve_left hl) fun hold => ?_
      exact (State.landLine_get_other w va data t (by omega)).trans hold

theorem State.landLines_written (w : Window) (va : Nat) (data : List Byte) (ls : List Nat) (t : State) {l : Nat}
    (h : l ∈ ls ∨ l ∈ t.mem.written) : l ∈ (ls.foldl (State.landLine w va data) t).mem.written := by
  induction ls generalizing t with
  | nil => exact h.resolve_left List.not_mem_nil
  | cons x ls ih =>
    refine ih _ ?_
    rcases h with h | h
    · rcases List.mem_cons.1 h with rfl | h
      · exact .inr (self_mem_insertRising _ _)
      · exact .inl h
    · exact .inr (mem_insertRising_of_mem h)

/-- The bytes of a packet stand in the window's lines, and no line outside them changed. -/
theorem State.landBytes_landed (s : State) (w : Window) (va : Nat) (data : List Byte) : LandedIn w va data s (s.landBytes w va data) := by
  rw [State.landBytes_eq]
  refine ⟨fun k hk => State.landLines_get_same w _ s hk (.inl ?_), fun a ha => State.landLines_get_other w va data _ s ?_,
    fun l hl => State.landLines_written w va data _ s (.inl hl)⟩
  · exact Window.mem_lines.2 ⟨by omega, by omega, by omega⟩
  · rw [Window.mem_lines]
    omega

theorem LandedIn.congr {w : Window} {va : Nat} {data : List Byte} {s' t' : State} (h : LandedIn w va data s t)
    (hs : s'.mem.data = s.mem.data) (hdata : t'.mem.data = t.mem.data) (hwritten : t'.mem.written = t.mem.written) :
    LandedIn w va data s' t' := by
  unfold LandedIn
  rw [hs, hdata, hwritten]
  exact h

/-! ## A packet -/

/-- All of the machine but the stored lines, their traffic, and what the stacks count. -/
def State.besideLanding (s : State) : State := s.besideLines.besideTraffic

theorem State.eq_of_besideLanding (h : t.besideLanding = s.besideLanding) : t = { s with mem := t.mem, mesh := t.mesh } :=
  calc t = { t.besideLanding with mem := t.mem, mesh := t.mesh } := rfl
    _ = _ := by rw [h]; rfl

theorem State.landBytes_besideLanding (s : State) (w : Window) (va : Nat) (data : List Byte) :
    (s.landBytes w va data).besideLanding = s.besideLanding :=
  foldl_keeps State.besideLanding (State.landLine w va data) (fun _ _ => rfl) _ s

theorem State.besideLanding_of_besideTraffic (h : t.besideTraffic = s.besideTraffic) : t.besideLanding = s.besideLanding :=
  congrArg State.besideLines h

/-- Lines that move without an error all arrive, and nothing but the traffic is counted (R161, R242). -/
theorem State.moveLines_clear (s : State) (a : Nat) (tag : Tag) (rc : Nat) (ls : List Nat) :
    (s.moveLines a tag rc ls []).2 = true ∧ (s.moveLines a tag rc ls []).1.besideTraffic = s.besideTraffic := by
  refine List.foldlRecOn (motive := fun x : State × Bool => x.2 = true ∧ x.1.besideTraffic = s.besideTraffic) ls _ ⟨rfl, rfl⟩ ?_
  rintro ⟨x, b⟩ ⟨rfl, hx⟩ l -
  exact ⟨rfl, (x.queueLine_besideTraffic a tag rc l).trans hx⟩

theorem State.readable_mem {ls : List Nat} (h : s.readable ls = true) {l : Nat} (hl : l ∈ ls) :
    s.mem.lost.contains l = false ∧ (s.stack (stackOf l)).st ≠ 2 := by
  simpa using List.all_eq_true.1 h l hl

theorem fetchLine_healthy (mesh : Option Nat) (tag : Tag) (rc : Nat) (flt : Nat → FaultInfo) (l : Nat)
    (hlost : s.mem.lost.contains l = false) (hst : (s.stack (stackOf l)).st ≠ 2) :
    fetchLine mesh tag rc flt (s, true) l = ((match mesh with | some a => (s.queueLine a tag rc l {}).1 | none => s), true) := by
  cases mesh with
  | none =>
    unfold fetchLine
    dsimp only
    rw [State.stackRead_healthy s l hlost hst]
    rfl
  | some a =>
    have hlost' : (s.queueLine a tag rc l {}).1.mem.lost.contains l = false :=
      (congrArg (fun v : State => v.mem.lost.contains l) (s.queueLine_besideTraffic a tag rc l)).trans hlost
    have hst' : ((s.queueLine a tag rc l {}).1.stack (stackOf l)).st ≠ 2 := by rw [State.queueLine_stack_st]; exact hst
    unfold fetchLine
    dsimp only
    rw [State.stackRead_healthy _ l hlost' hst']
    rfl

/-- Lines that are as they stand are fetched, and nothing but the traffic is counted (R217, R242). -/
theorem State.fetchLines_readable (s : State) (mesh : Option Nat) (tag : Tag) (rc : Nat) (flt : Nat → FaultInfo) {ls : List Nat}
    (h : s.readable ls = true) :
    (s.fetchLines mesh tag rc flt ls []).2 = true ∧ (s.fetchLines mesh tag rc flt ls []).1.besideTraffic = s.besideTraffic := by
  rw [State.fetchLines_clear]
  refine And.imp_right And.left (List.foldlRecOn (motive := fun x : State × Bool => x.2 = true ∧ x.1.besideTraffic = s.besideTraffic ∧
    ∀ k, (x.1.stack k).st = (s.stack k).st) ls _ ⟨rfl, rfl, fun _ => rfl⟩ ?_)
  rintro ⟨x, b⟩ ⟨rfl, hx, hst⟩ l hl
  obtain ⟨hlost, hstack⟩ := State.readable_mem h hl
  have hlost' : x.mem.lost.contains l = false := (congrArg (fun v : State => v.mem.lost.contains l) hx).trans hlost
  rw [fetchLine_healthy mesh tag rc flt l hlost' (by rw [← hst] at hstack; exact hstack)]
  cases mesh with
  | none => exact ⟨rfl, hx, hst⟩
  | some a =>
    exact ⟨rfl, (x.queueLine_besideTraffic a tag rc l).trans hx, fun k => (x.queueLine_stack_st a tag rc l k).trans (hst k)⟩

/-- A packet lands where its lines are the window's and those that it fills in part can be read (R217, R365). -/
theorem State.landPacket_lands (port : PortNo) (i va : Nat) (data : List Byte)
    (hown : s.strayLine (s.window i).tag ((s.window i).lines va data.length) = none)
    (hread : s.readable ((s.window i).partLines va data.length) = true) :
    LandedIn (s.window i) va data s (s.landPacket port i va data []) ∧
      (s.landPacket port i va data []).besideLanding = s.besideLanding := by
  obtain ⟨hwhole, hfetched⟩ := s.fetchLines_readable none (s.window i).tag (s.realOf s.fu.cycle)
    (s.portPoison port.toNat (s.window i).tag) hread
  obtain ⟨harrived, hmoved⟩ := (s.fetchLines none (s.window i).tag (s.realOf s.fu.cycle) (s.portPoison port.toNat (s.window i).tag)
    ((s.window i).partLines va data.length) []).1.moveLines_clear (portRouter port.toNat) (s.window i).tag (s.realOf s.fu.cycle)
    ((s.window i).lines va data.length)
  unfold State.landPacket
  dsimp only
  rw [hown]
  dsimp only
  rw [hwhole, harrived, Bool.and_self, if_pos rfl]
  have hbeside := hmoved.trans hfetched
  refine ⟨(State.landBytes_landed _ _ _ _).congr ?_ rfl rfl,
    (State.landBytes_besideLanding _ _ _ _).trans (State.besideLanding_of_besideTraffic hbeside)⟩
  exact (congrArg (fun v : State => v.mem.data) hbeside).symm

end Sys2Proof.Machine
end

section
/-! SUPPORT. What poisoned lines, the ends of RDMA WRITEs and one-sided reads leave of the machine (R217, R222, R359, R360). -/

namespace Sys2Proof.Machine

variable {s t u : State}

/-! ## Poisoned lines -/

theorem State.fault_lost (s : State) {f : FaultInfo} (htag : Tag.isPart f.tag = true) : (s.fault f).mem.lost = s.mem.lost := by
  obtain ⟨u, frame, streams, hmem, -, hfault, -⟩ := State.fault_abortHere (s := s) htag
  rw [hfault]
  obtain h | h := u.abortHere_mem f.tag.toNat frame .unchanged streams <;> rw [h, hmem]

/-- A partition whose abort stands stays aborted where another fault meets its operation (R198). -/
theorem State.fault_keepsAbort {f : FaultInfo} (htag : Tag.isPart f.tag = true) (h : (s.part f.tag.toNat).abort.isSome = true) :
    ((s.fault f).part f.tag.toNat).abort.isSome = true := by
  obtain ⟨u, frame, streams, -, hparts, -, hfault⟩ := State.fault_abortHere (s := s) htag
  rw [State.part_congr hfault]
  obtain ⟨a, hcase⟩ | hcase | ⟨-, hcase⟩ := u.abortHere_cases f.tag.toNat frame .unchanged streams <;> rw [hcase]
  · rw [State.part_setPart, if_pos rfl]
    rfl
  · rw [(u.beginAbort_dropWaits_part f.tag.toNat frame .unchanged streams).1]
    rfl
  · rw [State.part_congr hparts]
    exact h

/-- A poisoned line is not delivered, and only counted where it lies (R217). -/
theorem State.stackRead_lost (s : State) (l : Nat) (err : ReadErr) (fails : Bool) (h : s.mem.lost.contains l = true) :
    (s.stackRead l err fails).2 = false ∧ (s.stackRead l err fails).1.besideReads = s.besideReads := by
  unfold State.stackRead
  dsimp only
  rw [if_pos h]
  exact ⟨rfl, rfl⟩

/-- How a fetch stands between two lines: all is as it was until a poisoned line has met it, which aborts the partition's step. -/
def FetchStands (p : Nat) (s : State) (x : State × Bool) : Prop :=
  x.1.mem.data = s.mem.data ∧ x.1.mem.lost = s.mem.lost ∧
    if x.2 then x.1.besideReads = s.besideReads else AbortsIn p s x.1

theorem AbortsIn.of_besideReads {p : Nat} (h : AbortsIn p s t) (hu : u.besideReads = t.besideReads) : AbortsIn p s u := fun hbehind => by
  have hparts : u.parts = t.parts := (congrArg (fun v : State => v.parts) hu).trans rfl
  rw [State.part_congr hparts]
  exact h hbehind

theorem AbortsIn.of_begins {p : Nat} (h : AbortsIn p t u) (ht : t.besideReads = s.besideReads) : AbortsIn p s u := fun hbehind =>
  h ((congrArg (fun v : State => (v.part p).replayed.all (fun r => decide (r ≤ v.fu.frame))) ht).trans hbehind)

theorem fetchLine_lost (tag : Tag) (rc : Nat) (flt : Nat → FaultInfo) (x : State × Bool) (l : Nat) (h : x.1.mem.lost.contains l = true) :
    fetchLine none tag rc flt x l = ((x.1.stackRead l .none false).1.fault (flt l), false) := by
  unfold fetchLine
  dsimp only
  rw [(x.1.stackRead_lost l .none false h).1]
  rfl

theorem fetchLine_stands {tag : Tag} (rc : Nat) {flt : Nat → FaultInfo} (htag : Tag.isPart tag = true) (hflt : ∀ l, (flt l).tag = tag)
    {x : State × Bool} (l : Nat) (hx : FetchStands tag.toNat s x) :
    FetchStands tag.toNat s (fetchLine none tag rc flt x l) ∧
      ((fetchLine none tag rc flt x l).2 = (x.2 && !s.mem.lost.contains l)) := by
  obtain ⟨v, b⟩ := x
  obtain ⟨hdata, hlost, habort⟩ := hx
  dsimp only at hdata hlost habort
  cases hl : s.mem.lost.contains l with
  | false =>
    obtain ⟨hok, hbeside⟩ := fetchLine_sound (s := v) none tag rc flt b l (by rw [hlost]; exact hl)
    refine ⟨⟨(congrArg (fun y : State => y.mem.data) hbeside).trans hdata, (congrArg (fun y : State => y.mem.lost) hbeside).trans hlost, ?_⟩,
      hok.trans (Bool.and_true b).symm⟩
    rw [hok]
    cases b with
    | true => exact hbeside.trans habort
    | false => exact AbortsIn.of_besideReads habort hbeside
  | true =>
    obtain ⟨-, hbeside⟩ := v.stackRead_lost l .none false (by rw [hlost]; exact hl)
    have hpart : Tag.isPart (flt l).tag = true := by rw [hflt]; exact htag
    rw [fetchLine_lost tag rc flt (v, b) l (by rw [hlost]; exact hl)]
    refine ⟨⟨(State.fault_mem_data _ _).trans ((congrArg (fun y : State => y.mem.data) hbeside).trans hdata),
      (State.fault_lost _ hpart).trans ((congrArg (fun y : State => y.mem.lost) hbeside).trans hlost), ?_⟩, (Bool.and_false b).symm⟩
    have haborts := State.fault_aborts (s := (v.stackRead l .none false).1) (flt l) hpart
    have hkeeps := State.fault_keepsAbort (s := (v.stackRead l .none false).1) hpart
    rw [hflt] at haborts hkeeps
    cases b with
    | true => exact haborts.of_begins (hbeside.trans habort)
    | false => exact fun hbehind => hkeeps (AbortsIn.of_besideReads habort hbeside hbehind)

/-- A fetch that meets a poisoned line delivers nothing and aborts the partition's step (R198, R217). -/
theorem State.fetchLines_poisoned {tag : Tag} (rc : Nat) {flt : Nat → FaultInfo} {ls : List Nat} (htag : Tag.isPart tag = true)
    (hflt : ∀ l, (flt l).tag = tag) (h : ∃ l ∈ ls, s.mem.lost.contains l = true) :
    let x := s.fetchLines none tag rc flt ls []
    x.2 = false ∧ x.1.mem.data = s.mem.data ∧ x.1.mem.lost = s.mem.lost ∧ AbortsIn tag.toNat s x.1 := by
  have hfold (ls : List Nat) (x : State × Bool) (hx : FetchStands tag.toNat s x) :
      FetchStands tag.toNat s (ls.foldl (fetchLine none tag rc flt) x) ∧
        (ls.foldl (fetchLine none tag rc flt) x).2 = (x.2 && ls.all (fun l => !s.mem.lost.contains l)) := by
    induction ls generalizing x with
    | nil => exact ⟨hx, (Bool.and_true _).symm⟩
    | cons l ls ih =>
      obtain ⟨hstands, hmet⟩ := fetchLine_stands rc htag hflt l hx
      obtain ⟨hall, hok⟩ := ih _ hstands
      exact ⟨hall, by rw [List.foldl_cons, hok, hmet, List.all_cons, Bool.and_assoc]⟩
  obtain ⟨⟨hdata, hlost, habort⟩, hmet⟩ := hfold ls (s, true) ⟨rfl, rfl, rfl⟩
  obtain ⟨l, hl, hpoisoned⟩ := h
  have hbad : (ls.all fun l => !s.mem.lost.contains l) = false := List.all_eq_false.2 ⟨l, hl, by rw [hpoisoned]; decide⟩
  intro x
  have hx : x = ls.foldl (fetchLine none tag rc flt) (s, true) := s.fetchLines_clear none tag rc flt ls
  rw [hbad, Bool.and_false, ← hx] at hmet
  rw [← hx, hmet] at habort
  rw [← hx] at hdata hlost
  exact ⟨hmet, hdata, hlost, habort⟩

/-- A packet that fills a poisoned line in part does not land: fault 0x13 (R217). -/
theorem State.landPacket_poisoned (port : PortNo) (i va : Nat) (data : List Byte)
    (hown : s.strayLine (s.window i).tag ((s.window i).lines va data.length) = none)
    (hlost : ∃ l ∈ (s.window i).partLines va data.length, s.mem.lost.contains l = true) (htag : (s.window i).tag.toNat < 128) :
    (s.landPacket port i va data []).mem.data = s.mem.data ∧ (s.landPacket port i va data []).mem.lost = s.mem.lost ∧
      AbortsIn (s.window i).tag.toNat s (s.landPacket port i va data []) := by
  obtain ⟨hwhole, hdata, hkept, habort⟩ := State.fetchLines_poisoned (flt := s.portPoison port.toNat (s.window i).tag) (s.realOf s.fu.cycle)
    (decide_eq_true htag) (fun _ => rfl) hlost
  obtain ⟨-, hmoved⟩ := (s.fetchLines none (s.window i).tag (s.realOf s.fu.cycle) (s.portPoison port.toNat (s.window i).tag)
    ((s.window i).partLines va data.length) []).1.moveLines_clear (portRouter port.toNat) (s.window i).tag (s.realOf s.fu.cycle)
    ((s.window i).lines va data.length)
  unfold State.landPacket
  dsimp only
  rw [hown]
  dsimp only
  rw [hwhole, Bool.false_and, if_neg Bool.false_ne_true]
  exact ⟨(congrArg (fun v : State => v.mem.data) hmoved).trans hdata, (congrArg (fun v : State => v.mem.lost) hmoved).trans hkept,
    habort.of_besideReads (State.besideReads_of_besideTraffic hmoved)⟩

/-! ## The end of an RDMA WRITE -/

/-- All of the machine but what the end of a WRITE changes: the window and the session, and the granules that a closed partition gives up. -/
def State.besideRelease (s : State) : State :=
  { s with mem := { s.mem with granules := [], zeroing := [], keys := [] }, host := { s.host with windows := [], sessions := [] } }

theorem State.releaseGranules_besideRelease (s : State) (p : Nat) : (s.releaseGranules p).besideRelease = s.besideRelease := by
  unfold State.releaseGranules
  split <;> rfl

theorem State.releaseGranules_sessions (s : State) (p : Nat) : (s.releaseGranules p).host.sessions = s.host.sessions := by
  unfold State.releaseGranules
  split <;> rfl

/-- The machine as the end of a WRITE into window `i` leaves it before a closed partition gives up its granules. -/
def State.letGo (s : State) (n i : Nat) : State :=
  (s.setWindow i { s.window i with busy := (s.window i).busy - 1 }).updSess n (fun x => { x with rdma := none })

theorem State.endRdma_of_none {n : Nat} (h : (s.sess n).rdma = none) : s.endRdma n = s := by
  unfold State.endRdma
  rw [h]

theorem State.endRdma_of_some {n : Nat} {i : BitVec 12} {va left : Nat} (h : (s.sess n).rdma = some (i, va, left)) :
    s.endRdma n = (s.letGo n i.toNat).releaseGranules (s.window i.toNat).tag.toNat := by
  unfold State.endRdma
  rw [h]
  rfl

theorem State.endRdma_besideRelease (s : State) (n : Nat) : (s.endRdma n).besideRelease = s.besideRelease := by
  cases h : (s.sess n).rdma with
  | none => rw [State.endRdma_of_none h]
  | some r =>
    rw [State.endRdma_of_some h]
    exact State.releaseGranules_besideRelease _ _

theorem State.sess_setSess (s : State) (n k : Nat) (v : Session) : (s.setSess n v).sess k = if k = n then v else s.sess k :=
  SMap.get_set s.host.sessions {} n k v

theorem State.sess_setSess_same (s : State) (n : Nat) (v : Session) : (s.setSess n v).sess n = v := by
  rw [State.sess_setSess, if_pos rfl]

theorem State.sess_updSess_same (s : State) (n : Nat) (f : Session → Session) : (s.updSess n f).sess n = f (s.sess n) :=
  s.sess_setSess_same n _

theorem State.sess_setWindow (s : State) (i n : Nat) (v : Window) : (s.setWindow i v).sess n = s.sess n := rfl

theorem State.window_setWindow_same (s : State) (n : Nat) (v : Window) : (s.setWindow n v).window n = v :=
  SMap.get_set_same s.host.windows {} n v

theorem State.letGo_window (s : State) (n i : Nat) : (s.letGo n i).window i = { s.window i with busy := (s.window i).busy - 1 } :=
  s.window_setWindow_same i _

theorem State.letGo_sess (s : State) (n i : Nat) : (s.letGo n i).sess n = { s.sess n with rdma := none } := by
  rw [State.letGo, State.sess_updSess_same, State.sess_setWindow]

theorem State.endRdma_sess_st (s : State) (n : Nat) : ((s.endRdma n).sess n).st = (s.sess n).st := by
  cases h : (s.sess n).rdma with
  | none => rw [State.endRdma_of_none h]
  | some r =>
    rw [State.endRdma_of_some h, State.sess, State.releaseGranules_sessions, ← State.sess, State.letGo_sess]

/-- The last operation of a closed partition ends: its granules wait for zeroing (R222, R360). -/
theorem State.letGo_releases {n i : Nat} (hclosing : (s.part (s.window i).tag.toNat).st = .closing) (hbusy : (s.window i).busy ≤ 1)
    (hsome : ∃ x ∈ s.mem.granules, x.2.toNat = (s.window i).tag.toNat)
    (hidle : ∀ x ∈ s.host.windows, x.1 ≠ i → x.2.tag.toNat = (s.window i).tag.toNat → x.2.busy = 0) :
    (s.letGo n i).releaseGranules (s.window i).tag.toNat = (s.letGo n i).dropGranules (s.window i).tag.toNat := by
  obtain ⟨x, hx, hp⟩ := hsome
  refine if_pos ⟨hclosing, List.any_eq_true.2 ⟨x, hx, decide_eq_true hp⟩, List.all_eq_true.2 fun y hy => decide_eq_true ?_⟩
  obtain rfl | ⟨hy, hi⟩ := SMap.of_mem_set hy
  · exact .inr (Nat.sub_eq_zero_of_le hbusy)
  · exact or_iff_not_imp_left.2 fun htag => hidle y hy hi (not_not.1 htag)

/-! ## Packets of a READ -/

theorem flatten_chunks {α : Type} (bs : List α) (c n : Nat) :
    ((List.range n).map (fun k => (bs.drop (c * k)).take c)).flatten = bs.take (c * n) := by
  induction n with
  | zero => rfl
  | succ n ih => rw [List.range_succ, List.map_append, List.flatten_append, ih, Nat.mul_succ, List.take_add]; simp

theorem readPackets_flatten (bs : List Byte) : (readPackets bs).flatten = bs := by
  rw [readPackets, flatten_chunks]
  exact List.take_of_length_le (by omega)

theorem length_le_of_mem_readPackets {bs d : List Byte} (h : d ∈ readPackets bs) : d.length ≤ 4096 := by
  obtain ⟨k, -, rfl⟩ := List.mem_map.1 h
  exact List.length_take_le _ _

end Sys2Proof.Machine
end

section
/-! Certificate of O50, one-sided access (R357-R360, R365, R367): a lemma for each clause. -/

namespace Sys2Proof.Machine

variable {s t : State} {qp : SessNo} {port : PortNo} {key : BitVec 32} {va i : Nat} {data : List Byte} {psn : BitVec 24}

/-! ## Packets that land -/

theorem exec_rdmaWrite_only (hready : s.qpReady qp port = true) (hcheck : s.rdmaCheck qp key va data.length 0 = .ok i)
    (hrdma : (s.sess qp.toNat).rdma = none) :
    exec (.rdmaWrite qp port .only key va data psn []) s = .next (s.landPacket port i va data []) := by
  change execRdmaWrite qp port .only key va data psn [] s = _
  unfold execRdmaWrite
  rw [if_neg (ne_false_of_eq_true hready)]
  dsimp only
  rw [hcheck]
  dsimp only
  rw [State.endRdma_of_none hrdma]

theorem rdmaWrite_only_lands (qp : SessNo) (port : PortNo) (key : BitVec 32) (va i : Nat) (data : List Byte) (psn : BitVec 24) (s : State) :
    let w := s.window i
    s.qpReady qp port = true → s.rdmaCheck qp key va data.length 0 = .ok i → (s.sess qp.toNat).rdma = none →
    s.strayLine w.tag (w.lines va data.length) = none → s.readable (w.partLines va data.length) = true →
    ∃ t, exec (.rdmaWrite qp port .only key va data psn []) s = .next t ∧ t = { s with mem := t.mem, mesh := t.mesh } ∧
      LandedIn w va data s t := by
  intro w hready hcheck hrdma hown hread
  obtain ⟨hlanded, hbeside⟩ := s.landPacket_lands port i va data hown hread
  exact ⟨_, exec_rdmaWrite_only hready hcheck hrdma, State.eq_of_besideLanding hbeside, hlanded⟩

theorem rdmaWrite_only_poisoned (qp : SessNo) (port : PortNo) (key : BitVec 32) (va i : Nat) (data : List Byte) (psn : BitVec 24) (s : State) :
    let w := s.window i
    s.qpReady qp port = true → s.rdmaCheck qp key va data.length 0 = .ok i → (s.sess qp.toNat).rdma = none →
    s.strayLine w.tag (w.lines va data.length) = none → (∃ l ∈ w.partLines va data.length, s.mem.lost.contains l = true) →
    w.tag.toNat < 128 →
    ∃ t, exec (.rdmaWrite qp port .only key va data psn []) s = .next t ∧ t.mem.data = s.mem.data ∧ t.mem.lost = s.mem.lost ∧
      AbortsIn w.tag.toNat s t := by
  intro w hready hcheck hrdma hown hlost htag
  exact ⟨_, exec_rdmaWrite_only hready hcheck hrdma, s.landPacket_poisoned port i va data hown hlost htag⟩

/-- All of the machine but the host side. -/
def State.besideHost (s : State) : State := { s with host := {} }

/-- `t` differs from `s` by what landed, `u` from `t` on the host side. -/
theorem State.eq_of_besideHost {u : State} (hbeside : t.besideLanding = s.besideLanding) (hu : u.besideHost = t.besideHost) :
    u = { s with mem := u.mem, mesh := u.mesh, host := u.host } :=
  have hall : u.besideHost.besideLanding = s.besideHost.besideLanding :=
    (congrArg State.besideLanding hu).trans ((congrArg State.besideHost hbeside).trans rfl)
  calc u = { u.besideHost.besideLanding with mem := u.mem, mesh := u.mesh, host := u.host } := rfl
    _ = _ := by rw [hall]; rfl

theorem State.landed_window (hbeside : t.besideLanding = s.besideLanding) (i : Nat) : t.window i = s.window i :=
  (congrArg (fun v : State => v.window i) hbeside).trans rfl

theorem State.landed_sess (hbeside : t.besideLanding = s.besideLanding) (n : Nat) : t.sess n = s.sess n :=
  (congrArg (fun v : State => v.sess n) hbeside).trans rfl

theorem rdmaWrite_first_lands (qp : SessNo) (port : PortNo) (key : BitVec 32) (va n i : Nat) (data : List Byte) (psn : BitVec 24) (s : State) :
    let w := s.window i
    s.qpReady qp port = true → s.rdmaCheck qp key va n 0 = .ok i → (s.sess qp.toNat).rdma = none → data.length ≤ n → i < 4096 →
    s.strayLine w.tag (w.lines va data.length) = none → s.readable (w.partLines va data.length) = true →
    ∃ t, exec (.rdmaWrite qp port (.first n) key va data psn []) s = .next t ∧
      t = { s with mem := t.mem, mesh := t.mesh, host := t.host } ∧ LandedIn w va data s t ∧
      t.window i = { w with busy := w.busy + 1 } ∧
      t.sess qp.toNat = { s.sess qp.toNat with rdma := some (BitVec.ofNat 12 i, va + data.length, n - data.length) } := by
  intro w hready hcheck hrdma hlength hi hown hread
  obtain ⟨hlanded, hbeside⟩ := s.landPacket_lands port i va data hown hread
  generalize hv : s.landPacket port i va data [] = v at hlanded hbeside
  have hwindow : v.window i = w := State.landed_window hbeside i
  have hframe := State.eq_of_besideHost (u := (v.setWindow i { w with busy := w.busy + 1 }).updSess qp.toNat
    (fun x => { x with rdma := some (BitVec.ofNat 12 i, va + data.length, n - data.length) })) hbeside rfl
  refine ⟨_, ?_, hframe, hlanded.congr rfl rfl rfl, State.window_setWindow_same _ _ _, ?_⟩
  · change execRdmaWrite qp port (.first n) key va data psn [] s = _
    unfold execRdmaWrite
    rw [if_neg (ne_false_of_eq_true hready)]
    dsimp only
    rw [hcheck]
    dsimp only
    rw [State.endRdma_of_none hrdma, List.take_of_length_le hlength, hv, hwindow]
  · rw [State.sess_updSess_same, State.sess_setWindow, State.landed_sess hbeside]

theorem exec_rdmaWrite_later {left u : Nat} {i : BitVec 12} (isLast : Bool) (hready : s.qpReady qp port = true)
    (hrdma : (s.sess qp.toNat).rdma = some (i, va, left)) (hlength : data.length ≤ left) :
    exec (.rdmaWrite qp port (if isLast then .last else .middle) key u data psn []) s =
      .next (if isLast then (s.landPacket port i.toNat va data []).endRdma qp.toNat
        else (s.landPacket port i.toNat va data []).updSess qp.toNat
          (fun x => { x with rdma := some (i, va + data.length, left - data.length) })) := by
  have hmore : s.landMore qp port data isLast [] =
      if isLast then (s.landPacket port i.toNat va data []).endRdma qp.toNat
        else (s.landPacket port i.toNat va data []).updSess qp.toNat
          (fun x => { x with rdma := some (i, va + data.length, left - data.length) }) := by
    unfold State.landMore
    rw [hrdma]
    dsimp only
    rw [List.take_of_length_le hlength]
  rw [← hmore]
  cases isLast <;> exact if_neg (ne_false_of_eq_true hready)

/-- A WRITE in progress whose window's partition does not close holds no granule back (R360). -/
theorem State.endRdma_of_open {n left : Nat} {i : BitVec 12} (hrdma : (s.sess n).rdma = some (i, va, left))
    (hopen : (s.part (s.window i.toNat).tag.toNat).st ≠ .closing) : s.endRdma n = s.letGo n i.toNat :=
  (State.endRdma_of_some hrdma).trans (if_neg fun h => hopen h.1)

theorem rdmaWrite_later_lands (qp : SessNo) (port : PortNo) (key : BitVec 32) (u va left : Nat) (i : BitVec 12) (data : List Byte)
    (psn : BitVec 24) (isLast : Bool) (s : State) :
    let w := s.window i.toNat
    s.qpReady qp port = true → (s.sess qp.toNat).rdma = some (i, va, left) → data.length ≤ left →
    s.strayLine w.tag (w.lines va data.length) = none → s.readable (w.partLines va data.length) = true →
    (isLast = true → (s.part w.tag.toNat).st ≠ .closing) →
    ∃ t, exec (.rdmaWrite qp port (if isLast then .last else .middle) key u data psn []) s = .next t ∧
      t = { s with mem := t.mem, mesh := t.mesh, host := t.host } ∧ LandedIn w va data s t ∧
      t.window i.toNat = { w with busy := if isLast then w.busy - 1 else w.busy } ∧
      t.sess qp.toNat = { s.sess qp.toNat with
        rdma := if isLast then none else some (i, va + data.length, left - data.length) } := by
  intro w hready hrdma hlength hown hread hopen
  obtain ⟨hlanded, hbeside⟩ := s.landPacket_lands port i.toNat va data hown hread
  have hexec := exec_rdmaWrite_later (key := key) (psn := psn) (u := u) isLast hready hrdma hlength
  generalize s.landPacket port i.toNat va data [] = v at hlanded hbeside hexec
  have hwindow : v.window i.toNat = w := State.landed_window hbeside i.toNat
  have hsess : v.sess qp.toNat = s.sess qp.toNat := State.landed_sess hbeside qp.toNat
  have hpart : v.part w.tag.toNat = s.part w.tag.toNat := (congrArg (fun v : State => v.part w.tag.toNat) hbeside).trans rfl
  cases isLast with
  | true =>
    have hend : v.endRdma qp.toNat = v.letGo qp.toNat i.toNat :=
      State.endRdma_of_open (by rw [hsess]; exact hrdma) (by rw [hwindow, hpart]; exact hopen rfl)
    have hframe := State.eq_of_besideHost (u := v.letGo qp.toNat i.toNat) hbeside rfl
    refine ⟨_, hexec.trans (congrArg _ hend), hframe, hlanded.congr rfl rfl rfl, ?_, ?_⟩
    · rw [State.letGo_window, hwindow]
      rfl
    · rw [State.letGo_sess, hsess]
      rfl
  | false =>
    have hframe := State.eq_of_besideHost (u := v.updSess qp.toNat
      (fun x => { x with rdma := some (i, va + data.length, left - data.length) })) hbeside rfl
    refine ⟨_, hexec.trans (congrArg _ (if_neg Bool.false_ne_true)), hframe, hlanded.congr rfl rfl rfl, hwindow, ?_⟩
    rw [State.sess_updSess_same, hsess]
    rfl

/-- The last packet of a closed partition's last WRITE: its granules wait for zeroing (R222, R360). -/
theorem rdmaWrite_last_releases (qp : SessNo) (port : PortNo) (key : BitVec 32) (u va left : Nat) (i : BitVec 12) (data : List Byte)
    (psn : BitVec 24) (s : State) :
    let w := s.window i.toNat
    s.qpReady qp port = true → (s.sess qp.toNat).rdma = some (i, va, left) → data.length ≤ left →
    s.strayLine w.tag (w.lines va data.length) = none → s.readable (w.partLines va data.length) = true →
    (s.part w.tag.toNat).st = .closing → w.busy ≤ 1 → (∃ x ∈ s.mem.granules, x.2.toNat = w.tag.toNat) →
    (∀ x ∈ s.host.windows, x.1 ≠ i.toNat → x.2.tag.toNat = w.tag.toNat → x.2.busy = 0) → SMap.rising s.host.windows = true →
    ∃ t, exec (.rdmaWrite qp port .last key u data psn []) s = .next t ∧ LandedIn w va data s t ∧ t.parts = s.parts ∧
      (∀ x ∈ t.mem.granules, x.2.toNat ≠ w.tag.toNat) ∧ (∀ g ∈ (s.part w.tag.toNat).granules, g ∈ t.mem.zeroing) := by
  intro w hready hrdma hlength hown hread hclosing hbusy hsome hidle _
  obtain ⟨hlanded, hbeside⟩ := s.landPacket_lands port i.toNat va data hown hread
  generalize hv : s.landPacket port i.toNat va data [] = v at hlanded hbeside
  have hwindow : v.window i.toNat = w := State.landed_window hbeside i.toNat
  have hparts : v.parts = s.parts := (congrArg (fun v : State => v.parts) hbeside).trans rfl
  have hgranules : v.mem.granules = s.mem.granules := (congrArg (fun v : State => v.mem.granules) hbeside).trans rfl
  have hwindows : v.host.windows = s.host.windows := (congrArg (fun v : State => v.host.windows) hbeside).trans rfl
  have hend : v.endRdma qp.toNat = (v.letGo qp.toNat i.toNat).dropGranules w.tag.toNat := by
    rw [State.endRdma_of_some (by rw [State.landed_sess hbeside]; exact hrdma), ← hwindow]
    refine State.letGo_releases ?_ ?_ ?_ ?_
    · rw [hwindow, State.part_congr hparts]
      exact hclosing
    · rw [hwindow]
      exact hbusy
    · rw [hwindow, hgranules]
      exact hsome
    · rw [hwindow, hwindows]
      exact hidle
  have hexec := exec_rdmaWrite_later (key := key) (psn := psn) (u := u) true hready hrdma hlength
  rw [if_pos rfl, if_pos rfl, hv, hend] at hexec
  refine ⟨_, hexec, hlanded.congr rfl rfl rfl, hparts, fun x hx => ?_, fun g hg => List.mem_append_right _ ?_⟩
  · exact of_decide_eq_true (List.mem_filter.1 hx).2
  · exact (congrArg Part.granules (State.part_congr hparts w.tag.toNat)).symm ▸ hg

/-! ## READs and refusals -/

/-- The packets of a READ response join what the ports have to send (R345). -/
def State.answered (s : State) (qp : SessNo) (bs : List Byte) : State :=
  { s with host := { s.host with readOut := s.host.readOut ++ (readPackets bs).map (fun d => (qp, d)) } }

theorem rdmaRead_returns (qp : SessNo) (port : PortNo) (key : BitVec 32) (va len i : Nat) (psn : BitVec 24) (s : State) :
    let w := s.window i
    s.qpReady qp port = true → s.rdmaCheck qp key va len 1 = .ok i → s.strayLine w.tag (w.lines va len) = none →
    s.readable (w.lines va len) = true →
    ∃ t ps, exec (.rdmaRead qp port key va len psn []) s = .next t ∧ t.host = { s.host with readOut := s.host.readOut ++ ps } ∧
      (ps.map (fun x => x.2)).flatten = s.windowBytes w va len ∧ (∀ x ∈ ps, x.1 = qp ∧ x.2.length ≤ 4096) ∧
      t.mem.data = s.mem.data ∧ t.mem.written = s.mem.written ∧ t = { s with host := t.host, mem := t.mem, mesh := t.mesh } := by
  intro w hready hcheck hown hread
  obtain ⟨hok, htraffic⟩ := s.fetchLines_readable (some (portRouter port.toNat)) w.tag (s.realOf s.fu.cycle) (s.portPoison port.toNat w.tag) hread
  have hfetch : (s.portFetch port.toNat w.tag (w.lines va len) []).2 = true := hok
  replace htraffic : (s.portFetch port.toNat w.tag (w.lines va len) []).1.besideTraffic = s.besideTraffic := htraffic
  generalize hv : s.portFetch port.toNat w.tag (w.lines va len) [] = v at hfetch htraffic
  have hhost : v.1.host = s.host := (congrArg (fun v : State => v.host) htraffic).trans rfl
  have hdata : v.1.mem.data = s.mem.data := (congrArg (fun v : State => v.mem.data) htraffic).trans rfl
  have hwritten : v.1.mem.written = s.mem.written := (congrArg (fun v : State => v.mem.written) htraffic).trans rfl
  refine ⟨v.1.answered qp (s.windowBytes w va len), (readPackets (s.windowBytes w va len)).map (fun d => (qp, d)), ?_, ?_, ?_, ?_,
    hdata, hwritten, State.eq_of_besideHost (State.besideLanding_of_besideTraffic htraffic) rfl⟩
  · change execRdmaRead qp port key va len psn [] s = _
    unfold execRdmaRead
    rw [if_neg (ne_false_of_eq_true hready), hcheck]
    dsimp only
    rw [show s.strayLine (s.window i).tag ((s.window i).lines va len) = none from hown]
    dsimp only
    rw [show s.portFetch port.toNat (s.window i).tag ((s.window i).lines va len) [] = v from hv, if_pos hfetch]
    rfl
  · rw [State.answered, hhost]
  · rw [List.map_map, show (fun x : SessNo × List Byte => x.2) ∘ (fun d => (qp, d)) = id from rfl, List.map_id, readPackets_flatten]
  · intro x hx
    obtain ⟨d, hd, rfl⟩ := List.mem_map.1 hx
    exact ⟨rfl, length_le_of_mem_readPackets hd⟩

end Sys2Proof.Machine
end

section
/-! SUPPORT. Messages to the host on a connected session (R354, R361). -/

namespace Sys2Proof.Machine

variable {s t : State}

/-- A message has been sent on session `n`, whose send counter is one higher (R354). -/
def State.sent (s : State) (n : SessNo) (x : HostMsg) : State :=
  { s.updSess n.toNat (fun y => { y with txCtr := y.txCtr + 1 }) with host :=
    { (s.updSess n.toNat (fun y => { y with txCtr := y.txCtr + 1 })).host with out := s.host.out ++ [x] } }

theorem State.uwp_sends (n : SessNo) (type : BitVec 6) (ssn : BitVec 32) (ident : BitVec 64) (part : Tag) (code : BitVec 8) (late : Bool)
    (body : List Byte) (hconnected : (s.sess n.toNat).connected = true) (hsilent : s.health.silent = false) (hst : s.health.st < 2) :
    ∃ x : HostMsg, s.uwp n type ssn ident part code late body = s.sent n x ∧ x.type = type ∧ x.session = n ∧ x.body = body := by
  refine ⟨_, if_neg ?_, rfl, rfl, rfl⟩
  rintro (h | h | h)
  · exact ne_false_of_eq_true hconnected h
  · exact ne_true_of_eq_false hsilent h
  · exact absurd h.1 (not_le.2 hst)

theorem State.silent_of_alive (h : s.alive = true) : s.health.silent = false := by
  simp only [State.alive, Bool.and_eq_true, Bool.not_eq_true'] at h
  exact h.1.1.1

end Sys2Proof.Machine
end

section
/-! Certificate of O50, refused operations and drained windows (R222, R359, R360). -/

namespace Sys2Proof.Machine

variable {s t : State}

/-! ## Keys that are not honoured -/

/-- All of the machine but the host side and what the end of a WRITE changes of the memory. -/
def State.besideRefusal (s : State) : State := s.besideRelease.besideHost

theorem State.eq_of_besideRefusal (h : t.besideRefusal = s.besideRefusal) : t = { s with host := t.host, mem := t.mem } :=
  calc t = { t.besideRefusal with host := t.host, mem := t.mem } := rfl
    _ = _ := by rw [h]; rfl

/-- What a session's error leaves of the machine (R350). -/
theorem State.of_besideRelease (h : t.besideRelease = s.besideRelease) :
    t.besideRefusal = s.besideRefusal ∧ t.mem.data = s.mem.data ∧ t.host.nakOut = s.host.nakOut ∧ t.host.winClosed = s.host.winClosed ∧
      t.host.out = s.host.out :=
  ⟨congrArg State.besideHost h, (congrArg (fun v : State => v.mem.data) h).trans rfl, (congrArg (fun v : State => v.host.nakOut) h).trans rfl,
    (congrArg (fun v : State => v.host.winClosed) h).trans rfl, (congrArg (fun v : State => v.host.out) h).trans rfl⟩

theorem State.qpError_besideRelease (s : State) (n : Nat) : (s.qpError n).besideRelease = s.besideRelease :=
  (show (s.qpError n).besideRelease = (s.endRdma n).besideRelease from rfl).trans (s.endRdma_besideRelease n)

theorem State.qpError_sess_st (s : State) {n : Nat} (h : (s.sess n).st = .ready) : ((s.qpError n).sess n).st = .error := by
  rw [State.qpError, State.sess_updSess_same, if_pos ((s.endRdma_sess_st n).trans h)]

/-- The negative acknowledgement of an operation under a key that is not honoured (R359). -/
def State.nakked (s : State) (n : SessNo) (psn : BitVec 24) : State :=
  { s with host := { s.host with nakOut := s.host.nakOut ++ [(n, psn)], winClosed := s.host.winClosed + 1 } }

theorem State.rejectRdma_closed (s : State) (n : SessNo) (key : BitVec 32) (psn : BitVec 24) (op : Nat) :
    s.rejectRdma n true key psn op = ((s.nakked n psn).uwp n 0x17 0 0 (s.sess n.toNat).part 0 false
      (beBytes 4 key.toNat ++ beBytes 4 psn.toNat ++ beBytes 1 op)).qpError n.toNat := rfl

theorem State.sent_besideHost (s : State) (n : SessNo) (x : HostMsg) : (s.sent n x).besideHost = s.besideHost := rfl

theorem State.nakked_besideHost (s : State) (n : SessNo) (psn : BitVec 24) : (s.nakked n psn).besideHost = s.besideHost := rfl

theorem State.besideRefusal_of_besideHost (h : t.besideHost = s.besideHost) : t.besideRefusal = s.besideRefusal :=
  (show t.besideRefusal = t.besideHost.besideRelease from rfl).trans ((congrArg State.besideRelease h).trans rfl)

theorem State.qpReady_iff {qp : SessNo} {port : PortNo} : s.qpReady qp port = true ↔ s.alive = true ∧ (s.port port.toNat).up = true ∧
    (s.sess qp.toNat).connected = true ∧ (s.sess qp.toNat).port = port := by
  simp only [State.qpReady, Bool.and_eq_true, decide_eq_true_eq, and_assoc]

theorem rdmaWrite_refused (qp : SessNo) (port : PortNo) (key : BitVec 32) (va : Nat) (data : List Byte) (psn : BitVec 24) (s : State) :
    s.qpReady qp port = true → s.windowByKey key = none → (s.sess qp.toNat).st = .ready → s.health.st < 2 →
    ∃ t x, exec (.rdmaWrite qp port .only key va data psn []) s = .next t ∧ t = { s with host := t.host, mem := t.mem } ∧
      t.mem.data = s.mem.data ∧ t.host.nakOut = s.host.nakOut ++ [(qp, psn)] ∧ t.host.winClosed = s.host.winClosed + 1 ∧
      (t.sess qp.toNat).st = .error ∧ t.host.out = s.host.out ++ [x] ∧ x.type = 0x17 ∧ x.session = qp := by
  intro hready hkey hst hhealth
  obtain ⟨halive, -, hconnected, -⟩ := State.qpReady_iff.1 hready
  obtain ⟨x, hsent, htype, hsession, -⟩ := (s.nakked qp psn).uwp_sends qp 0x17 0 0 (s.sess qp.toNat).part 0 false
    (beBytes 4 key.toNat ++ beBytes 4 psn.toNat ++ beBytes 1 0) hconnected (State.silent_of_alive halive) hhealth
  have hcheck : s.rdmaCheck qp key va data.length 0 = .error true := by rw [State.rdmaCheck, hkey]
  have hexec : exec (.rdmaWrite qp port .only key va data psn []) s = .next (((s.nakked qp psn).sent qp x).qpError qp.toNat) := by
    rw [← hsent, ← s.rejectRdma_closed qp key psn 0]
    change execRdmaWrite qp port .only key va data psn [] s = _
    unfold execRdmaWrite
    rw [if_neg (ne_false_of_eq_true hready)]
    dsimp only
    rw [hcheck]
  have hready' : (((s.nakked qp psn).sent qp x).sess qp.toNat).st = .ready :=
    (congrArg Session.st ((s.nakked qp psn).sess_updSess_same qp.toNat (fun y => { y with txCtr := y.txCtr + 1 }))).trans hst
  obtain ⟨hframe, hdata, hnak, hclosed, hout⟩ := State.of_besideRelease (((s.nakked qp psn).sent qp x).qpError_besideRelease qp.toNat)
  have hhost : ((s.nakked qp psn).sent qp x).besideHost = s.besideHost :=
    (State.sent_besideHost _ qp x).trans (s.nakked_besideHost qp psn)
  exact ⟨_, x, hexec, State.eq_of_besideRefusal (hframe.trans (State.besideRefusal_of_besideHost hhost)), hdata, hnak, hclosed,
    State.qpError_sess_st _ hready', hout, htype, hsession⟩

/-! ## Windows that drain -/

/-- A Closing window that no operation uses, Closed again, before its chunks are given back (R222, R360). -/
def State.drained (s : State) (i : Nat) : State :=
  (s.setWindow i { s.window i with st := 0, tag := 0xFE, session := 0, any := false }).zeroLines (s.window i).base
    (128 * (s.window i).chunks)

theorem State.drainWindow_drains {i : Nat} (hst : (s.window i).st = 2) (hbusy : (s.window i).busy = 0) :
    s.drainWindow i = (s.drained i).giveChunks (s.window i).tag.toNat ((s.window i).base / 128) (s.window i).chunks :=
  if_pos ⟨hst, hbusy⟩

/-- All of the machine but its partitions. -/
def State.besideParts (s : State) : State := { s with parts := [] }

theorem State.giveChunks_besideParts (s : State) (p q n : Nat) : (s.giveChunks p q n).besideParts = s.besideParts := by
  unfold State.giveChunks
  split <;> rfl

theorem State.giveChunks_chunks {p q n : Nat} (hn : n ≠ 0) (hown : (s.part p).granules.contains (q / granuleChunks) = true) :
    ((s.giveChunks p q n).part p).chunks = giveRun q n (s.part p).chunks := by
  rw [State.giveChunks, if_neg (by rw [hown]; exact fun h => h.elim hn Bool.noConfusion), State.part_updPart, if_pos rfl]

theorem windowDrained_closes (index : BitVec 12) (s : State) :
    let w := s.window index.toNat
    w.st = 2 → w.busy = 0 →
    ∃ t, exec (.windowDrained index) s = .next t ∧ (t.window index.toNat).st = 0 ∧ (t.window index.toNat).tag = 0xFE ∧
      (∀ l, w.base ≤ l → l < w.base + 128 * w.chunks → l ∈ t.mem.written) ∧
      (∀ a, Cells.get t.mem.data a =
        (if 128 * w.base ≤ a ∧ a < 128 * w.base + 16384 * w.chunks then 0 else Cells.get s.mem.data a)) ∧
      (w.chunks ≠ 0 → (s.part w.tag.toNat).granules.contains (w.base / 128 / granuleChunks) = true →
        (t.part w.tag.toNat).chunks = giveRun (w.base / 128) w.chunks (s.part w.tag.toNat).chunks) := by
  intro w hst hbusy
  have hexec : exec (.windowDrained index) s = .next ((s.drained index.toNat).giveChunks w.tag.toNat (w.base / 128) w.chunks) :=
    congrArg _ (State.drainWindow_drains hst hbusy)
  have hbeside := (s.drained index.toNat).giveChunks_besideParts w.tag.toNat (w.base / 128) w.chunks
  have hwindow : ((s.drained index.toNat).giveChunks w.tag.toNat (w.base / 128) w.chunks).window index.toNat =
      { w with st := 0, tag := 0xFE, session := 0, any := false } :=
    (congrArg (fun v : State => v.window index.toNat) hbeside).trans (s.window_setWindow_same index.toNat _)
  have hwritten : ((s.drained index.toNat).giveChunks w.tag.toNat (w.base / 128) w.chunks).mem.written =
      s.mem.written.filter (fun l => decide (l < w.base)) ++ (List.range (128 * w.chunks)).map (fun k => w.base + k) ++
        s.mem.written.filter (fun l => decide (w.base + 128 * w.chunks ≤ l)) :=
    (congrArg (fun v : State => v.mem.written) hbeside).trans rfl
  have hdata : ((s.drained index.toNat).giveChunks w.tag.toNat (w.base / 128) w.chunks).mem.data =
      Cells.clear s.mem.data (128 * w.base) (128 * (128 * w.chunks)) := (congrArg (fun v : State => v.mem.data) hbeside).trans rfl
  refine ⟨_, hexec, by rw [hwindow], by rw [hwindow], fun l hlo hhi => ?_, fun a => ?_, fun hn hown => State.giveChunks_chunks hn hown⟩
  · rw [hwritten]
    refine List.mem_append_left _ (List.mem_append_right _ (List.mem_map.2 ⟨l - w.base, List.mem_range.2 (by omega), by omega⟩))
  · rw [hdata, Cells.get_clear, ← Nat.mul_assoc]

end Sys2Proof.Machine
end

section
/-! SUPPORT. Messages that pass the gate, records of the device's own Ledger, and windows that open (R278, R281, R357, R361). -/

namespace Sys2Proof.Machine

variable {s t : State} {m : UwpMsg}

/-! ## The gate -/

/-- A message's COUNTER taken (R361). -/
def State.gated (s : State) (m : UwpMsg) : State := s.setSess m.qp.toNat { s.sess m.qp.toNat with rxCtr := m.counter }

theorem State.gated_sess (s : State) (m : UwpMsg) : (s.gated m).sess m.qp.toNat = { s.sess m.qp.toNat with rxCtr := m.counter } :=
  s.sess_setSess_same _ _

theorem State.passes_connected (h : s.passes m = true) :
    (s.sess m.qp.toNat).connected = true ∧ s.health.silent = false ∧ s.health.st < 2 := by
  simp only [State.passes, Bool.and_eq_true, decide_eq_true_eq] at h
  obtain ⟨⟨⟨halive, -⟩, hconnected⟩, -, -, -, -, -, -, -, -, hst⟩ := h
  exact ⟨hconnected, State.silent_of_alive halive, hst⟩

/-- A message that passes the transport and stages 1 to 4 and is in form (R361). -/
theorem State.gate_passes (h : s.passes m = true) : s.gate m true = (s.gated m, true) := by
  simp only [State.passes, Bool.and_eq_true, decide_eq_true_eq] at h
  obtain ⟨⟨⟨halive, hup⟩, hconnected⟩, hport, hupset, htag, hkey, hctr, hversion, hsession, hpart, hst⟩ := h
  unfold State.gate
  dsimp only
  rw [if_neg (by simp [halive, hup]), if_neg (by simp [hconnected, hport]), if_neg (by simp [hupset]),
    if_neg (by simp [htag, hkey, hctr]), if_neg (by simp [hversion]), if_neg (by simp), if_neg (by simp [hsession, hpart]),
    if_neg (not_le.2 hst)]
  rfl

/-! ## Records of the device's own Ledger -/

/-- What a record of the device's own Ledger leaves alone: the Ledger but for its write position, the host side and the health. -/
def State.besideRecord (s : State) : Ledger × HostSide × Health := ({ s.ledger with jpos := 0 }, s.host, s.health)

/-- A record as it joins the journal of a device that replicates (R281). -/
def State.newRec (s : State) (part : Tag) (acct : BitVec 8) (body : RecBody) : JRec :=
  { r := makeRec s.ledger.nextLsn part acct body, frame := s.fu.frame, locally := true, acked := false, applied := false }

theorem State.writeRing_besideRecord (s : State) (r : LRecord) : (s.writeRing false r).besideRecord = s.besideRecord := by
  have hlines := foldl_keeps State.besideRecord (fun t (x : Line × Nat) =>
    t.setMemLine (ledgerLine false + 0x8000 + (s.ledger.jpos + x.2) % ringLines) x.1) (fun _ _ => rfl) (recLines r).zipIdx s
  exact congrArg (fun x : Ledger × HostSide × Health => ({ x.1 with jpos := 0 }, x.2)) hlines

theorem State.sendOn_besideRecord (s : State) (l : Nat) (x : LinkMsg) : (s.sendOn l x).besideRecord = s.besideRecord := by
  rw [State.sendOn_frame]
  rfl

theorem State.assign_own (s : State) (part : Tag) (acct : BitVec 8) (body : RecBody) (hmode : s.ledger.mode = 0) :
    (s.assign false part acct body).2 = s.ledger.nextLsn ∧ (s.assign false part acct body).1.besideRecord =
      ({ s.ledger with journal := s.ledger.journal ++ [s.newRec part acct body], nextLsn := s.ledger.nextLsn + 1, jpos := 0 },
        s.host, s.health) := by
  have hacked : decide (s.ledger.mode = 1) = false := by rw [hmode]; rfl
  unfold State.assign
  dsimp only
  rw [if_neg Bool.false_ne_true, hacked, if_pos (.inl (by rw [hmode]; decide))]
  exact ⟨rfl, (State.sendOn_besideRecord _ _ _).trans (State.writeRing_besideRecord _ _)⟩

theorem State.runDurable_quiet (h : s.quiet = true) : s.runDurable = s := by
  simp only [State.quiet, Bool.and_eq_true, Option.isNone_iff_eq_none] at h
  obtain ⟨hjournal, hcovered⟩ := h
  unfold State.runDurable
  split
  · rfl
  · rw [State.runJournal, hjournal]
    dsimp only
    rw [hcovered]

/-- A record that the partner has not acknowledged acts on nothing yet (R281). -/
theorem State.quiet_of_newRec {v : State} {part : Tag} {acct : BitVec 8} {body : RecBody} (h : s.quiet = true)
    (hjournal : t.ledger.journal = s.ledger.journal ++ [v.newRec part acct body]) (hcovered : t.ledger.covered = s.ledger.covered) :
    t.quiet = true := by
  simp only [State.quiet, Bool.and_eq_true] at h ⊢
  rw [hjournal, hcovered]
  refine ⟨?_, h.2⟩
  rw [dueRec, List.find?_append, ← dueRec, Option.isNone_iff_eq_none.1 h.1]
  rfl

/-! ## Windows -/

theorem State.takeRun_setSess (s : State) (k : Nat) (v : Session) (p n : Nat) :
    (s.setSess k v).takeRun p n = ((s.takeRun p n).1.setSess k v, (s.takeRun p n).2) := by
  unfold State.takeRun
  rw [State.part_setSess_of]
  cases takeLong n (s.part p).chunks <;> rfl

theorem State.takeRun_besideParts (s : State) (p n : Nat) : (s.takeRun p n).1.besideParts = s.besideParts := by
  unfold State.takeRun
  split <;> rfl

/-- The entry that an open fills (R357, R358). -/
def State.newWindow (s : State) (i q : Nat) (n : SessNo) (part : Nat) (any : Bool) (kind mxtype access : BitVec 8) (bytes : Nat) : Window :=
  let old := if s.host.windows.any (fun x => decide (x.1 = i)) then (s.window i).gen else Config.dawnGen s.host.genDraw i
  { st := 1, gen := if old = 255 then 1 else old + 1, salt := Config.salt s.mgmt.draws,
    tag := BitVec.ofNat 8 part, session := n, any := any, kind := kind, mxtype := mxtype, access := access,
    base := 128 * q, bytes := bytes, busy := 0 }

/-- A window open that finds a Closed entry, chunks and an allowance (R357, R358). -/
theorem State.openWindow_eq_some {n : SessNo} {part : Nat} {any : Bool} {kind mxtype access : BitVec 8} {bytes i : Nat} {s1 : State} :
    s.openWindow n part any kind mxtype access bytes = some (s1, i) ↔
      ¬ ((64 ≤ s.windowsOf n ∧ (any && decide (kind = 1)) = false) ∨ s.mgmt.entropy = false) ∧ s.freeWindow = some i ∧
        ∃ u q, s.takeRun part ((bytes + 16383) / 16384) = (u, some q) ∧
          s1 = (u.setWindow i (u.newWindow i q n part any kind mxtype access bytes)).updMgmt (fun m => { m with draws := m.draws + 1 }) := by
  unfold State.openWindow
  split
  next h => exact ⟨fun h' => by simp at h', fun h' => absurd h h'.1⟩
  next h =>
    cases hfree : s.freeWindow with
    | none => simp
    | some k =>
      rcases hrun : s.takeRun part ((bytes + 16383) / 16384) with ⟨u, _ | q⟩
      · simp
      · simp only [Option.some.injEq, Prod.mk.injEq]
        constructor
        · rintro ⟨rfl, rfl⟩
          exact ⟨h, rfl, u, q, ⟨rfl, rfl⟩, rfl⟩
        · rintro ⟨-, rfl, u', q', ⟨rfl, rfl⟩, rfl⟩
          exact ⟨rfl, rfl⟩

/-- A session's counters have no part in a window open. -/
theorem State.openWindow_setSess {n : SessNo} {part : Nat} {any : Bool} {kind mxtype access : BitVec 8} {bytes i : Nat} {s1 : State}
    (k : Nat) (v : Session) (h : s.openWindow n part any kind mxtype access bytes = some (s1, i)) :
    (s.setSess k v).openWindow n part any kind mxtype access bytes = some (s1.setSess k v, i) := by
  obtain ⟨hallowed, hfree, u, q, hrun, rfl⟩ := State.openWindow_eq_some.1 h
  exact State.openWindow_eq_some.2 ⟨hallowed, hfree, u.setSess k v, q, by rw [State.takeRun_setSess, hrun], rfl⟩

theorem State.freeWindow_closed {i : Nat} (h : s.freeWindow = some i) : (s.window i).st = 0 := by
  unfold State.freeWindow at h
  exact of_decide_eq_true (List.find?_some h :)

/-- What an open window changes: the chunks that it takes, the table and the Vault's draws (R357, R358). -/
theorem State.openWindow_opens {n : SessNo} {part : Nat} {any : Bool} {kind mxtype access : BitVec 8} {bytes i : Nat} {s1 : State}
    (h : s.openWindow n part any kind mxtype access bytes = some (s1, i)) :
    (s.window i).st = 0 ∧ (∃ (u : State) (q : Nat), s1.window i = u.newWindow i q n part any kind mxtype access bytes) ∧
      s1.health = s.health ∧ s1.host.out = s.host.out := by
  obtain ⟨-, hfree, u, q, hrun, rfl⟩ := State.openWindow_eq_some.1 h
  have hbeside : u.besideParts = s.besideParts := by
    have := s.takeRun_besideParts part ((bytes + 16383) / 16384)
    rwa [hrun] at this
  refine ⟨State.freeWindow_closed hfree, ⟨u, q, State.window_setWindow_same _ _ _⟩, ?_, ?_⟩
  · exact (congrArg (fun v : State => v.health) hbeside).trans rfl
  · exact (congrArg (fun v : State => v.host.out) hbeside).trans rfl

end Sys2Proof.Machine
end

section
/-! Certificate of O50, the other messages of a session (R286, R296, R357-R362, R387): a lemma for each clause. -/

namespace Sys2Proof.Machine

variable {s t : State} {m : UwpMsg}

theorem State.sent_out (s : State) (n : SessNo) (x : HostMsg) : (s.sent n x).host.out = s.host.out ++ [x] := rfl

theorem State.window_setSess (s : State) (n k : Nat) (v : Session) : (s.setSess n v).window k = s.window k := rfl

theorem State.sent_ledger (s : State) (n : SessNo) (x : HostMsg) : (s.sent n x).ledger = s.ledger := rfl

theorem State.sent_window (s : State) (n : SessNo) (x : HostMsg) (k : Nat) : (s.sent n x).window k = s.window k := rfl

/-- A message that passes the gate is answered on its session, whatever its effect did beside the session and the health. -/
theorem State.uwp_answers (h : s.passes m = true) (hsess : t.sess m.qp.toNat = (s.gated m).sess m.qp.toNat) (hhealth : t.health = s.health)
    (type : BitVec 6) (ssn : BitVec 32) (ident : BitVec 64) (part : Tag) (code : BitVec 8) (late : Bool) (body : List Byte) :
    ∃ x : HostMsg, t.uwp m.qp type ssn ident part code late body = t.sent m.qp x ∧ x.type = type ∧ x.body = body := by
  obtain ⟨hconnected, hsilent, hst⟩ := State.passes_connected h
  obtain ⟨x, hsent, htype, -, hbody⟩ := t.uwp_sends m.qp type ssn ident part code late body
    (by rw [hsess, State.gated_sess]; exact hconnected) (by rw [hhealth]; exact hsilent) (by rw [hhealth]; exact hst)
  exact ⟨x, hsent, htype, hbody⟩

/-! ## Cancels -/

theorem exec_cancel (h : s.passes m = true) (hform : headerOk m 2 0 = true) (hlength : m.length = 0) (haway : s.awayHome m = none)
    (hassign : s.mayAssign = true) : exec (.cancel m) s = .next ((s.gated m).cancelSub m) := by
  change execCancel m s = _
  unfold execCancel
  rw [hform, hlength, decide_eq_true rfl, Bool.and_self, State.gate_passes h]
  dsimp only
  rw [show (s.gated m).awayHome m = none from haway]
  dsimp only
  rw [if_pos (show (s.gated m).mayAssign = true from hassign)]

/-- The record of a cancel joins the journal, and its submission is marked (R296). -/
theorem State.cancelSub_records {b : Sub} (hfind : (s.heldOf m.qp).find? (fun k => decide (k.ssn = m.ssn)) = some b)
    (hdone : b.doneLsn = none) (hcancel : b.cancelLsn = none) (hcovered : b.covered = false) (hmode : s.ledger.mode = 0)
    (hquiet : s.quiet = true) :
    (s.cancelSub m).ledger.journal = s.ledger.journal ++ [s.newRec m.part (acctField b.account) (.cancel m.qp m.ssn)] ∧
      (s.cancelSub m).host = s.host ∧ { b with cancelLsn := some s.ledger.nextLsn } ∈ (s.cancelSub m).ledger.subs := by
  obtain ⟨hlsn, hbeside⟩ := s.assign_own m.part (acctField b.account) (.cancel m.qp m.ssn) hmode
  generalize hv : s.assign false m.part (acctField b.account) (.cancel m.qp m.ssn) = v at hlsn hbeside
  have hjournal := congrArg (fun x : Ledger × HostSide × Health => x.1.journal) hbeside
  have hsubs : v.1.ledger.subs = s.ledger.subs := congrArg (fun x : Ledger × HostSide × Health => x.1.subs) hbeside
  have hcov := congrArg (fun x : Ledger × HostSide × Health => x.1.covered) hbeside
  have hquiet' : (v.1.updSub false m.qp m.ssn (fun x => { x with cancelLsn := some (x.cancelLsn.getD v.2) })).quiet = true :=
    State.quiet_of_newRec hquiet hjournal hcov
  have heq : s.cancelSub m = v.1.updSub false m.qp m.ssn (fun x => { x with cancelLsn := some (x.cancelLsn.getD v.2) }) := by
    unfold State.cancelSub
    rw [hfind]
    dsimp only
    rw [if_neg (by rw [hdone]; decide), hcovered, hv, State.runDurable_quiet hquiet']
  have hssn : b.ssn = m.ssn := by simpa using List.find?_some hfind
  have hheld : b ∈ s.ledger.subs ∧ (b.here && decide (b.sess = m.qp)) = true := List.mem_filter.1 (List.mem_of_find?_eq_some hfind)
  have hsess : b.sess = m.qp := by simpa using (Bool.and_eq_true_iff.1 hheld.2).2
  rw [heq]
  refine ⟨hjournal, congrArg (fun x : Ledger × HostSide × Health => x.2.1) hbeside, List.mem_map.2 ⟨b, hsubs ▸ hheld.1, ?_⟩⟩
  refine (if_pos ⟨hsess, hssn, hcovered⟩).trans ?_
  dsimp only
  rw [hcancel, hlsn]
  rfl

theorem cancel_records (m : UwpMsg) (b : Sub) (s : State) : s.passes m = true → headerOk m 2 0 = true → m.length = 0 →
    s.awayHome m = none → s.mayAssign = true → (s.heldOf m.qp).find? (fun k => decide (k.ssn = m.ssn)) = some b → b.doneLsn = none →
    b.cancelLsn = none → b.covered = false → s.ledger.mode = 0 → s.quiet = true →
    ∃ t j, exec (.cancel m) s = .next t ∧ t.ledger.journal = s.ledger.journal ++ [j] ∧ j.r.body = .cancel m.qp m.ssn ∧
      j.r.lsn = s.ledger.nextLsn ∧ t.host.out = s.host.out ∧
      { b with cancelLsn := some s.ledger.nextLsn } ∈ t.ledger.subs := by
  intro h hform hlength haway hassign hfind hdone hcancel hcovered hmode hquiet
  obtain ⟨hjournal, hhost, hmarked⟩ := State.cancelSub_records (s := s.gated m) hfind hdone hcancel hcovered hmode hquiet
  exact ⟨_, (s.gated m).newRec m.part (acctField b.account) (.cancel m.qp m.ssn), exec_cancel h hform hlength haway hassign, hjournal, rfl,
    rfl, (congrArg HostSide.out hhost).trans rfl, hmarked⟩

theorem cancel_ofNothing (m : UwpMsg) (s : State) : s.passes m = true → headerOk m 2 0 = true → m.length = 0 → s.awayHome m = none →
    s.mayAssign = true → (s.heldOf m.qp).find? (fun k => decide (k.ssn = m.ssn)) = none →
    ∃ t x, exec (.cancel m) s = .next t ∧ t.ledger = s.ledger ∧ t.host.out = s.host.out ++ [x] ∧ x.type = 0x15 ∧ x.body = [0] := by
  intro h hform hlength haway hassign hfind
  obtain ⟨x, hsent, htype, hbody⟩ := State.uwp_answers (t := s.gated m) h rfl rfl 0x15 m.ssn m.accountId m.part 0 false (beBytes 1 0)
  have hcancel : (s.gated m).cancelSub m = (s.gated m).sent m.qp x := by
    rw [← hsent, State.cancelSub, show ((s.gated m).heldOf m.qp).find? (fun k => decide (k.ssn = m.ssn)) = none from hfind]
    rfl
  have hexec := exec_cancel h hform hlength haway hassign
  rw [hcancel] at hexec
  exact ⟨_, x, hexec, State.sent_ledger _ _ _, State.sent_out _ _ _, htype, hbody⟩

/-! ## Acknowledgements -/

theorem State.ackLimit_gated (s : State) (m : UwpMsg) : (s.gated m).ackLimit m.qp m.ack = s.ackLimit m.qp m.ack := by
  unfold State.ackLimit
  rw [State.gated_sess]
  rfl

/-- The Retire record of an ACK above the Ledger's joins the journal (R286). -/
theorem State.takeAck_retires (hassign : s.mayAssign = true) (hmode : s.ledger.mode = 0)
    (hack : (s.sess m.qp.toNat).ack < s.ackLimit m.qp m.ack) :
    (s.takeAck m).ledger.journal = s.ledger.journal ++ [s.newRec m.part 0xFF (.retire m.qp (s.ackLimit m.qp m.ack))] ∧
      (s.takeAck m).ledger.subs = s.ledger.subs ∧ (s.takeAck m).ledger.covered = s.ledger.covered ∧ (s.takeAck m).host = s.host := by
  have hbeside := (s.assign_own m.part 0xFF (.retire m.qp (s.ackLimit m.qp m.ack)) hmode).2
  rw [State.takeAck, if_pos ⟨hack, hassign⟩]
  exact ⟨congrArg (fun x : Ledger × HostSide × Health => x.1.journal) hbeside,
    congrArg (fun x : Ledger × HostSide × Health => x.1.subs) hbeside,
    congrArg (fun x : Ledger × HostSide × Health => x.1.covered) hbeside,
    congrArg (fun x : Ledger × HostSide × Health => x.2.1) hbeside⟩

theorem acknowledge_retires (m : UwpMsg) (s : State) : s.passes m = true → headerOk m 3 0 = true → m.length = 0 → s.awayHome m = none →
    s.mayAssign = true → s.ledger.mode = 0 → s.quiet = true → (s.sess m.qp.toNat).ack < s.ackLimit m.qp m.ack →
    ∃ t j, exec (.acknowledge m) s = .next t ∧ t.ledger.journal = s.ledger.journal ++ [j] ∧
      j.r.body = .retire m.qp (s.ackLimit m.qp m.ack) ∧ t.ledger.subs = s.ledger.subs ∧ t.host.out = s.host.out := by
  intro h hform hlength haway hassign hmode hquiet hack
  obtain ⟨hjournal, hsubs, hcov, hhost⟩ := State.takeAck_retires (s := s.gated m) (m := m) hassign hmode
    (by rw [State.ackLimit_gated, State.gated_sess]; exact hack)
  rw [State.ackLimit_gated] at hjournal
  refine ⟨(s.gated m).takeAck m, _, ?_, hjournal, rfl, hsubs, (congrArg HostSide.out hhost).trans rfl⟩
  change execAcknowledge m s = _
  unfold execAcknowledge
  rw [hform, hlength, decide_eq_true rfl, Bool.and_self, State.gate_passes h]
  dsimp only
  rw [show (s.gated m).awayHome m = none from haway]
  dsimp only
  rw [if_pos (show (s.gated m).mayAssign = true from hassign), State.runDurable_quiet (State.quiet_of_newRec hquiet hjournal hcov)]

/-- The highest RELPOS that the host has acknowledged (R362). -/
def Account.released (x : Account) (relpos : BitVec 32) : Account :=
  { x with relpos := match x.relpos with | some r => some (if r < relpos then relpos else r) | none => some relpos }

theorem exec_releaseAcknowledge {relpos : BitVec 32} {a : Nat} (h : s.passes m = true) (hform : headerOk m 4 0 = true)
    (hlength : m.length = 4) (hacct : s.acctByIdent m.part m.accountId = some a) (hhome : s.isHome a = true) :
    exec (.releaseAcknowledge m relpos) s = .next ((s.gated m).updAcct a (fun x => x.released relpos)) := by
  have hacct' : (s.gated m).acctByIdent m.part m.accountId = some a := hacct
  have haway : (s.gated m).awayHome m = none := by
    rw [State.awayHome, hacct']
    exact if_pos hhome
  change execReleaseAcknowledge m relpos s = _
  unfold execReleaseAcknowledge
  rw [hform, hlength, decide_eq_true rfl, Bool.and_self, State.gate_passes h]
  dsimp only
  rw [haway]
  dsimp only
  rw [hacct']
  rfl

theorem releaseAcknowledge_raises (m : UwpMsg) (relpos : BitVec 32) (a : Nat) (s : State) (h : s.passes m = true)
    (hform : headerOk m 4 0 = true) (hlength : m.length = 4) (hacct : s.acctByIdent m.part m.accountId = some a) (hhome : s.isHome a = true) :
    ∃ t, exec (.releaseAcknowledge m relpos) s = .next t ∧ t.ledger = s.ledger ∧ t.acct a = (s.acct a).released relpos ∧
      ∀ k, k ≠ a → t.acct k = s.acct k := by
  have hget (k : Nat) : ((s.gated m).updAcct a (fun x => x.released relpos)).acct k =
      if k = a then (s.acct a).released relpos else s.acct k :=
    SMap.get_set s.accts {} a k _
  exact ⟨_, exec_releaseAcknowledge h hform hlength hacct hhome, rfl, by rw [hget, if_pos rfl], fun k hk => by rw [hget, if_neg hk]⟩

/-! ## Window messages -/

theorem State.windowByKey_some {key : BitVec 32} {i : Nat} (h : s.windowByKey key = some i) :
    (key.extractLsb' 12 12).toNat = i ∧ (s.window (key.extractLsb' 12 12).toNat).st = 1 := by
  unfold State.windowByKey at h
  dsimp only at h
  split at h
  next hopen => exact ⟨Option.some.inj h, hopen.1⟩
  next => exact Option.noConfusion rfl (heq_of_eq h)

theorem State.windowByKey_none {key : BitVec 32} (h : (s.window (key.extractLsb' 12 12).toNat).st ≠ 1) : s.windowByKey key = none :=
  if_neg fun hopen => h hopen.1

theorem State.closeWindow_open {i : Nat} (h : (s.window i).st = 1) : s.closeWindow i = s.setWindow i { s.window i with st := 2 } := if_pos h

theorem State.closeWindow_beside (s : State) (i : Nat) : (s.closeWindow i).health = s.health ∧ (s.closeWindow i).host.out = s.host.out := by
  unfold State.closeWindow
  dsimp only
  split <;> exact ⟨rfl, rfl⟩

/-- A message that asks for a staging window of its own session or of the partition's, in form (R358). -/
theorem exec_windowOpen {mxtype access any : BitVec 8} {bytes : BitVec 32} {i : Nat} {s1 : State} (h : s.passes m = true)
    (hform : headerOk m 5 0 = true) (hlength : m.length = 8) (hany : any.toNat ≤ 1) (haccess : access.toNat ≤ 3)
    (hopen : s.openWindow m.qp m.part.toNat (decide (any = 1)) 0 mxtype access bytes.toNat = some (s1, i)) :
    exec (.windowOpen m 0 mxtype access any bytes) s = .next
      (let s2 := s1.setSess m.qp.toNat ((s.gated m).sess m.qp.toNat)
       if (s1.strayLine (s1.window i).tag ((s1.window i).lines 0 (s1.window i).bytes)).isSome then (s2.closeWindow i).twilight 0x0B
       else s2.uwp m.qp 0x16 m.ssn m.accountId m.part 0 false (be32 ((s1.window i).key i))) := by
  have hform' : (headerOk m 5 0 && decide ((0 : BitVec 8).toNat ≤ 2 ∧ any.toNat ≤ 1 ∧ access.toNat ≤ 3) && decide (m.length = 8)) = true := by
    rw [hform, hlength, decide_eq_true ⟨by decide, hany, haccess⟩]
    rfl
  have hopen' : (s.gated m).openWindow m.qp m.part.toNat (decide (any = 1)) 0 mxtype access bytes.toNat =
      some (s1.setSess m.qp.toNat ((s.gated m).sess m.qp.toNat), i) := by
    rw [State.gated_sess]
    exact State.openWindow_setSess _ _ hopen
  change execWindowOpen m 0 mxtype access any bytes s = _
  unfold execWindowOpen
  dsimp only
  rw [hform', State.gate_passes h]
  dsimp only
  rw [if_neg (fun hkind => hkind.elim (fun hstaging => absurd hstaging.1 (by decide)) (by decide)), hopen']
  dsimp only
  rw [← apply_ite (f := Host.Outcome.next)]
  rfl

theorem windowOpen_opens (m : UwpMsg) (mxtype access any : BitVec 8) (bytes : BitVec 32) (s : State) : s.passes m = true →
    headerOk m 5 0 = true → m.length = 8 → any.toNat ≤ 1 → access.toNat ≤ 3 →
    (s.openWindow m.qp m.part.toNat (decide (any = 1)) 0 mxtype access bytes.toNat).isSome = true →
    (∀ s1 i, s.openWindow m.qp m.part.toNat (decide (any = 1)) 0 mxtype access bytes.toNat = some (s1, i) →
      s1.strayLine (s1.window i).tag ((s1.window i).lines 0 (s1.window i).bytes) = none) →
    ∃ t i x, exec (.windowOpen m 0 mxtype access any bytes) s = .next t ∧ (s.window i).st = 0 ∧ (t.window i).st = 1 ∧
      (t.window i).session = m.qp ∧ (t.window i).tag = m.part ∧ (t.window i).bytes = bytes.toNat ∧ (t.window i).access = access ∧
      t.host.out = s.host.out ++ [x] ∧ x.type = 0x16 ∧ x.body = be32 ((t.window i).key i) := by
  intro h hform hlength hany haccess hsome hread
  obtain ⟨⟨s1, i⟩, hopen⟩ := Option.isSome_iff_exists.1 hsome
  obtain ⟨hclosed, ⟨u, q, hwindow⟩, hhealth, hout⟩ := State.openWindow_opens hopen
  obtain ⟨x, hsent, htype, hbody⟩ := State.uwp_answers (t := s1.setSess m.qp.toNat ((s.gated m).sess m.qp.toNat)) h
    (State.sess_setSess_same _ _ _) hhealth 0x16 m.ssn m.accountId m.part 0 false (be32 ((s1.window i).key i))
  have hexec := exec_windowOpen h hform hlength hany haccess hopen
  dsimp only at hexec
  rw [hread s1 i hopen, if_neg (by decide), hsent] at hexec
  have hw : ((s1.setSess m.qp.toNat ((s.gated m).sess m.qp.toNat)).sent m.qp x).window i =
      u.newWindow i q m.qp m.part.toNat (decide (any = 1)) 0 mxtype access bytes.toNat := by
    rw [State.sent_window, State.window_setSess, hwindow]
  have hsentOut : ((s1.setSess m.qp.toNat ((s.gated m).sess m.qp.toNat)).sent m.qp x).host.out = s.host.out ++ [x] := by
    rw [State.sent_out]
    exact congrArg (· ++ [x]) hout
  refine ⟨_, i, x, hexec, hclosed, ?_, ?_, ?_, ?_, ?_, hsentOut, htype, ?_⟩
  all_goals rw [hw]
  · rfl
  · rfl
  · exact (BitVec.ofNat_toNat 8 m.part).trans (BitVec.setWidth_eq m.part)
  · rfl
  · rfl
  · rw [hbody, hwindow]

theorem windowOpen_decides (m : UwpMsg) (mxtype access any : BitVec 8) (bytes : BitVec 32) (i : Nat) (s1 s : State) : s.passes m = true →
    headerOk m 5 0 = true → m.length = 8 → any.toNat ≤ 1 → access.toNat ≤ 3 → s.health.st = 0 → s.health.decided = none →
    s.openWindow m.qp m.part.toNat (decide (any = 1)) 0 mxtype access bytes.toNat = some (s1, i) →
    (s1.strayLine (s1.window i).tag ((s1.window i).lines 0 (s1.window i).bytes)).isSome = true →
    ∃ t, exec (.windowOpen m 0 mxtype access any bytes) s = .next t ∧ t.health.decided = some 0x0B ∧ t.host.out = s.host.out := by
  intro h hform hlength hany haccess hst hdecided hopen hstray
  obtain ⟨-, -, hhealth, hout⟩ := State.openWindow_opens hopen
  have hexec := exec_windowOpen h hform hlength hany haccess hopen
  dsimp only at hexec
  rw [if_pos hstray] at hexec
  generalize hv : (s1.setSess m.qp.toNat ((s.gated m).sess m.qp.toNat)).closeWindow i = v at hexec
  obtain ⟨hvhealth, hvout⟩ := State.closeWindow_beside (s1.setSess m.qp.toNat ((s.gated m).sess m.qp.toNat)) i
  rw [hv] at hvhealth hvout
  obtain ⟨flag, hdecides⟩ := State.twilight_decides (s := v) 0x0B (by rw [hvhealth]; exact hhealth ▸ hst)
    (by rw [hvhealth]; exact hhealth ▸ hdecided)
  refine ⟨_, hexec, by rw [hdecides]; rfl, ?_⟩
  rw [State.twilight_host, hvout]
  exact hout

theorem windowClose_closes (m : UwpMsg) (key : BitVec 32) (i : Nat) (s : State) : s.passes m = true → headerOk m 6 0 = true →
    m.length = 4 → s.windowByKey key = some i → (s.window i).admits m.qp (s.sess m.qp.toNat) = true →
    ∃ t x, exec (.windowClose m key) s = .next t ∧ t.window i = { s.window i with st := 2 } ∧ t.windowByKey key = none ∧
      t.host.out = s.host.out ++ [x] ∧ x.type = 0x16 ∧ x.body = be32 key := by
  intro h hform hlength hkey hadmits
  obtain ⟨rfl, hst⟩ := State.windowByKey_some hkey
  have hadmits' : ((s.gated m).window (key.extractLsb' 12 12).toNat).admits m.qp ((s.gated m).sess m.qp.toNat) = true := by
    rw [State.gated_sess]
    exact hadmits
  have hclose := State.closeWindow_open (s := s.gated m) (i := (key.extractLsb' 12 12).toNat) hst
  obtain ⟨x, hsent, htype, hbody⟩ := State.uwp_answers (t := (s.gated m).closeWindow (key.extractLsb' 12 12).toNat) h
    (by rw [hclose, State.sess_setWindow]) (by rw [hclose]; rfl) 0x16 m.ssn m.accountId m.part 0 false (be32 key)
  have hwindow : (((s.gated m).closeWindow (key.extractLsb' 12 12).toNat).sent m.qp x).window (key.extractLsb' 12 12).toNat =
      { s.window (key.extractLsb' 12 12).toNat with st := 2 } := by
    rw [State.sent_window, hclose, State.window_setWindow_same]
    rfl
  refine ⟨_, x, ?_, hwindow, State.windowByKey_none (by rw [hwindow]; simp), by rw [State.sent_out, hclose]; rfl, htype, hbody⟩
  rw [← hsent]
  change execWindowClose m key s = _
  unfold execWindowClose
  rw [hform, hlength, decide_eq_true rfl, Bool.and_self, State.gate_passes h]
  dsimp only
  rw [show (s.gated m).windowByKey key = some (key.extractLsb' 12 12).toNat from hkey]
  dsimp only
  rw [if_neg (ne_false_of_eq_true hadmits')]

end Sys2Proof.Machine
end

section
open Sys2Proof Sys2Proof.Machine

/-- Settles O50: packets by `State.landPacket_lands` and `State.landPacket_poisoned`, messages by `State.gate_passes` and what each does to
the Ledger or to the window table; a lemma for each clause. -/
theorem windowsAndSessionMessages : Obligations.WindowsAndSessionMessages := by
  unfold Obligations.WindowsAndSessionMessages
  exact ⟨⟨rdmaWrite_only_lands, rdmaWrite_only_poisoned, rdmaWrite_first_lands, rdmaWrite_later_lands, rdmaWrite_last_releases,
      rdmaRead_returns, rdmaWrite_refused, windowDrained_closes⟩,
    cancel_records, cancel_ofNothing, acknowledge_retires, releaseAcknowledge_raises, windowOpen_opens, windowOpen_decides,
    windowClose_closes⟩

end
